-- ==== Sys2Proof/Word.lean ====
section
/-!
DEFINITION. The words the block holds: bytes, 32-bit register words, and sparse tables.

A `Tbl` is a list of (key, value) pairs with strictly rising keys; a key that is not listed has the
default value that every access names.  The operations stand in Sys2Proof/Machine/Tbl.lean.
-/

namespace Sys2Proof

/-- One byte of a memory. -/
abbrev Byte := BitVec 8

/-- One 32-bit register or memory word (R5: little-endian). -/
abbrev Word := BitVec 32

/-- A sparse table: (key, value) pairs with strictly rising keys. -/
abbrev Tbl (α : Type) := List (Nat × α)

/-- Bits `[hi:lo]` of a number (R4). -/
def bits (v hi lo : Nat) : Nat := (v / 2 ^ lo) % 2 ^ (hi + 1 - lo)

/-- Bit `i` of a number as a truth value. -/
def bit (v i : Nat) : Bool := (v / 2 ^ i) % 2 == 1

/-- A truth value as 0 or 1. -/
def b2n (b : Bool) : Nat := if b then 1 else 0

/-- `v` taken as a `w`-bit two's complement number (the `s(x)` of chapter 06). -/
def sgn (w v : Nat) : Int :=
  let u := v % 2 ^ w
  if u < 2 ^ (w - 1) then (u : Int) else (u : Int) - (2 ^ w : Nat)

/-- An exact integer narrowed to `w` bits (the `wrap(x)` of chapter 06). -/
def wrap (w : Nat) (v : Int) : Nat := (v % ((2 ^ w : Nat) : Int)).toNat

/-- The smallest integer at or above `a / b`. -/
def ceilDiv (a b : Nat) : Nat := (a + b - 1) / b

end Sys2Proof
end

