-- ==== Sys2Proof/Syntax.lean ====
section
/-!
DEFINITION. The commands: one constructor per row of spec/opcode_table.json.
-/

namespace Sys2Proof

/-- A frame as it arrives on a receive lane, from byte 0 after the SFD to the last FCS byte (R295-R298).  The command comes
at the SFD; at 10 and 100 Mb/s a byte is two transfers of lane_rxd[3:0], low nibble first. -/
structure RxFrame where
  bytes : List Byte
  /-- The byte transfers in which lane_rx_er was 1. -/
  er : List Nat
  /-- Data bytes that found room in the receive crossing (R26). -/
  kept : Nat
  /-- The bytes sampled when lane_rx_dv fell early or the port left ON during the frame (R320). -/
  early : Option Nat
  /-- A copy on the partner port had not ended when this frame's decision was made (R330). -/
  overlap : Bool
  /-- Interpolator tap reached at the ingress SFD and at the egress SFD of a forwarded frame (R354). -/
  tap : Fin 256
  egressTap : Fin 256
  /-- TCLK edges from the ingress SFD to the egress SFD. -/
  egressEdges : Nat
  /-- The step that the timebase unit holds falls between the two SFDs (R335). -/
  stepped : Bool
  deriving DecidableEq, Repr

namespace Machine

/-- A memory with ECC, named as the wellhead's records name it (R523). -/
inductive Mem where
  | well (x : Nat)
  | reservoir (lb : Nat)
  | code (lb bank : Nat)
  | privBits (x : Nat)
  | sharedBits (lb : Nat)
  | globalBits
  | cistern
  | cellMap
  | channels
  | routes
  | mram
  deriving DecidableEq, Repr

end Machine

/-- A command: one constructor per row of the table, in its order.  `x` is a logical thread, `v` a valve, `n` a port or a
logical bore, `w` the word written. -/
inductive Instr where
  /-- STROKE (R37): The pace gate opens at the later of the tick and completion of the tree, and every bore, the
  manifold, the pump, the lock unit and the cistern advance one step. -/
  | stroke (tree : Nat) (unit : Fin 16)
  /-- DEPTH_DECREASE (R52): After 2^N consecutive strokes with enough slack, DEPTH falls by 1. -/
  | depthDecrease
  /-- PACE_WRITE (R40): A write to GOV_PACE is held as the shadowed pace value. -/
  | paceWrite (w : Word)
  /-- PACE_APPLY (R40): The held pace takes effect at the first gate opening at a multiple of 16 strokes at least 4
  strokes after the write crossed. -/
  | paceApply
  /-- SNAP (R46): Writing SNAP copies the live histogram, minimum slack and sampled stroke count to the snapshot
  registers and restarts the live values. -/
  | snap (w : Word)
  /-- MS_REPORT (R47): Once per millisecond the governor sends the wellhead the minimum slack, its unit and the
  late-stroke count. -/
  | msReport
  /-- VREQ_ACK_RISE (R55): The regulator raises vreq_ack, and the governor drops vreq_req and records the
  acknowledged code. -/
  | vreqAckRise
  /-- VREQ_ACK_FALL (R55): The regulator drops vreq_ack, freeing the bus, and the governor presents any newer target
  code. -/
  | vreqAckFall
  /-- DOWN_REQUEST (R58): With AVS_EN set and the down conditions met over 2^D strokes and HOLD, the governor
  requests one code lower. -/
  | downRequest
  /-- VREQ_TIMEOUT (R59): vreq_ack has not risen within VREQ_TIMEOUT, so the alarm is set and the governor keeps
  waiting. -/
  | vreqTimeout
  /-- REF_LOST (R61): The wellhead reports TCLK lost and the governor derives its ticks from SCLK in holdover. -/
  | refLost
  /-- REF_RESTORED (R61): TCLK is reported stable again and the governor starts a new grid from TCLK and clears
  REF_HOLDOVER. -/
  | refRestored
  /-- WHEEL_LO_WRITE (R71): A write to BORE_WHEEL_LO is held without effect. -/
  | wheelLoWrite (n : Fin 8) (w : Word)
  /-- WHEEL_HI_WRITE (R71): A write to BORE_WHEEL_HI arms the wheel pair and sets WHEEL_PENDING. -/
  | wheelHiWrite (n : Fin 8) (w : Word)
  /-- WHEEL_APPLY (R71): The armed wheel pair takes effect at the first 16-stroke boundary at least 4 strokes after
  the last HI write crossed. -/
  | wheelApply (n : Fin 8)
  /-- START (R92): A START command to a STOPPED thread is accepted and becomes pending. -/
  | start (x : Fin 128) (w : Word)
  /-- STOP (R93): A STOP command stops a running thread at its next instruction boundary, or cancels a pending START
  or STEP. -/
  | stop (x : Fin 128) (w : Word)
  /-- STEP (R106): A STEP command makes a stopped elastic thread run one instruction. -/
  | step (x : Fin 128) (w : Word)
  /-- RESET (R94): A RESET command stops the thread, empties its return stack, discards its long results and frees
  its locks. -/
  | reset (x : Fin 128) (w : Word)
  /-- THREAD_FIRST_TURN (R92): Four strokes after the START or STEP crossed, the thread receives its first turn as a
  fill turn and enters METERED or ELASTIC. -/
  | threadFirstTurn (x : Fin 128)
  /-- STOP_AT_BOUNDARY (R93): A thread with a pending STOP, RESET or wellhead stop reaches its instruction boundary
  and becomes STOPPED. -/
  | stopAtBoundary (x : Fin 128)
  /-- STEP_COMPLETE (R106): After the stepped instruction's last turn the thread returns to STOPPED with STOP_CAUSE
  2. -/
  | stepComplete (x : Fin 128)
  /-- INTERRUPT_ENTRY (R102): An elastic thread accepts a pending interrupt line at a turn, pushes a frame, clears
  IE, sets PL and goes to the vector. -/
  | interruptEntry (x : Fin 128)
  /-- EXCEPTION_ENTRY (R102): An elastic thread takes a due exception at its acceptance turn, pushing a frame and
  going to the vector. -/
  | exceptionEntry (x : Fin 128)
  /-- ILLEGAL_INSTRUCTION (R175): An instruction with an illegal form is a 1-turn no-op with ILL on a metered thread
  or raises ILLEGAL on an elastic thread. -/
  | illegalInstruction (x : Fin 128)
  /-- UNCORRECTABLE_FETCH (R88): An instruction needs a byte of an uncorrectable code word and becomes a no-op with
  cause 0x45 or an ECC exception. -/
  | uncorrectableFetch (x : Fin 128)
  /-- ECC_REWRITE (R145): A word read with a corrected single-bit error is rewritten corrected through the service
  port within 8 strokes. -/
  | eccRewrite (m : Machine.Mem) (w : Nat)
  /-- LONG_RESULT (R195): A multiply or divide result is written to its destination at its distance in turns. -/
  | longResult (x : Fin 128)
  /-- BLOCK_CRC_DONE (R203): A block CRC reaches its distance and writes the new state, or records an uncorrectable
  word in the span. -/
  | blockCrcDone (x : Fin 128)
  /-- LV_COMMIT (R243): A long vector commits all destination elements, VF, the fault record, LVDONE and BUSY in one
  stroke at its distance. -/
  | lvCommit (n : Fin 8)
  /-- CISTERN_PART_LAND (R141): One part of a CRD or CWR lands, and the last part sets CDONEk. -/
  | cisternPartLand (x : Fin 128) (k : Fin 8)
  /-- CISTERN_FAULT (R140): A cistern access is found faulty, writes nothing and sets CERRk and CDONEk with a
  wellhead event. -/
  | cisternFault (x : Fin 128) (k : Fin 8)
  /-- WINDOW_WRITE_ARRIVE (R136): A port-window or SYSWR write that crossed from the core reaches its register in the
  clock domain. -/
  | windowWriteArrive (d : Fin 13)
  /-- NOP (R183): Does nothing for 1 turn. -/
  | nop (x : Fin 128)
  /-- MOV (R183): Copies a to d. -/
  | mov (x : Fin 128)
  /-- SWAP (R184): Exchanges d and m, writing d then m. -/
  | swap (x : Fin 128)
  /-- SEL (R183): Writes a or b to d according to private bit 0x00F. -/
  | sel (x : Fin 128)
  /-- BMOV (R183): Writes 1 to d when a is non-zero, else 0. -/
  | bmov (x : Fin 128)
  /-- BSET (R183): Writes 1 to d. -/
  | bset (x : Fin 128)
  /-- BCLR (R183): Writes 0 to d. -/
  | bclr (x : Fin 128)
  /-- BNOT (R183): Writes the logical complement of d to d. -/
  | bnot (x : Fin 128)
  /-- ADD (R185): Adds a and b modulo 2^w. -/
  | add (x : Fin 128)
  /-- ADC (R185): Adds a, b and C modulo 2^w. -/
  | adc (x : Fin 128)
  /-- SUB (R185): Subtracts b from a modulo 2^w. -/
  | sub (x : Fin 128)
  /-- SBC (R185): Subtracts b and C from a modulo 2^w. -/
  | sbc (x : Fin 128)
  /-- ADDS (R185): Adds a and b with signed saturation. -/
  | adds (x : Fin 128)
  /-- SUBS (R185): Subtracts b from a with signed saturation. -/
  | subs (x : Fin 128)
  /-- INC (R185): Increments d. -/
  | inc (x : Fin 128)
  /-- DEC (R185): Decrements d. -/
  | dec (x : Fin 128)
  /-- NEG (R185): Writes the two's complement negation of a. -/
  | neg (x : Fin 128)
  /-- ABS (R185): Writes the absolute value of a. -/
  | abs (x : Fin 128)
  /-- MIN (R185): Writes the signed minimum of a and b. -/
  | min (x : Fin 128)
  /-- MAX (R185): Writes the signed maximum of a and b. -/
  | max (x : Fin 128)
  /-- MINU (R185): Writes the unsigned minimum of a and b. -/
  | minu (x : Fin 128)
  /-- MAXU (R185): Writes the unsigned maximum of a and b. -/
  | maxu (x : Fin 128)
  /-- CMP (R185): Sets the flags of a minus b without writing. -/
  | cmp (x : Fin 128)
  /-- AND (R187): Writes a AND b. -/
  | and (x : Fin 128)
  /-- OR (R187): Writes a OR b. -/
  | or (x : Fin 128)
  /-- XOR (R187): Writes a XOR b. -/
  | xor (x : Fin 128)
  /-- TST (R187): Sets the flags of a AND b without writing. -/
  | tst (x : Fin 128)
  /-- BTST (R187): Tests bit u(b) mod w of a into Z and C. -/
  | btst (x : Fin 128)
  /-- CLZ (R187): Writes the number of leading zero bits of a. -/
  | clz (x : Fin 128)
  /-- POPC (R187): Writes the number of 1 bits of a. -/
  | popc (x : Fin 128)
  /-- BSWAP (R187): Writes the bytes of a in reverse order. -/
  | bswap (x : Fin 128)
  /-- BFX (R188): Extracts the bit field that b describes from a. -/
  | bfx (x : Fin 128)
  /-- BFI (R188): Inserts the low bits of a into the field of d that b describes. -/
  | bfi (x : Fin 128)
  /-- SHL (R189): Shifts a left by u(b). -/
  | shl (x : Fin 128)
  /-- SHR (R189): Shifts a right logically by u(b). -/
  | shr (x : Fin 128)
  /-- SAR (R189): Shifts a right arithmetically by u(b). -/
  | sar (x : Fin 128)
  /-- ROL (R189): Rotates a left by u(b) mod w. -/
  | rol (x : Fin 128)
  /-- MUL (R191): Launches a multiply whose low product is written at the 2nd turn. -/
  | mul (x : Fin 128)
  /-- MULH (R191): Launches a signed high multiply written at the 3rd turn. -/
  | mulh (x : Fin 128)
  /-- MULHU (R191): Launches an unsigned high multiply written at the 3rd turn. -/
  | mulhu (x : Fin 128)
  /-- DIV (R192): Launches a signed division whose quotient is written at the 10th turn. -/
  | div (x : Fin 128)
  /-- DIVU (R192): Launches an unsigned division whose quotient is written at the 10th turn. -/
  | divu (x : Fin 128)
  /-- REM (R192): Launches a signed division whose remainder is written at the 10th turn. -/
  | rem (x : Fin 128)
  /-- REMU (R192): Launches an unsigned division whose remainder is written at the 10th turn. -/
  | remu (x : Fin 128)
  /-- BR (R196): Branches by a 16-bit displacement when the condition holds. -/
  | br (x : Fin 128)
  /-- BRS (R196): Branches by an 8-bit displacement when the condition holds. -/
  | brs (x : Fin 128)
  /-- CALL (R196): Pushes the return address and branches, subject to the return stack limits. -/
  | call (x : Fin 128)
  /-- RET (R97): Pops the return stack and continues there, restoring IE, PL and flags from an INT frame. -/
  | ret (x : Fin 128)
  /-- TRAP (R198): Writes the trap code and raises TRAP on an elastic thread, or is an ILL no-op on a metered thread. -/
  | trap (x : Fin 128)
  /-- IDLE (R90): Passes on the thread's next n turns. -/
  | idle (x : Fin 128)
  /-- YIELD (R199): An elastic thread gives up its next own turn. -/
  | yield (x : Fin 128)
  /-- EI (R200): Sets IE on an elastic thread. -/
  | ei (x : Fin 128)
  /-- DI (R200): Clears IE on an elastic thread. -/
  | di (x : Fin 128)
  /-- RSTKD (R201): Takes or puts an entry at the bottom of the return stack. -/
  | rstkd (x : Fin 128)
  /-- CRC32 (R202): Advances a raw IEEE CRC state in pipe or launches a block CRC. -/
  | crc32 (x : Fin 128)
  /-- CRC32C (R202): Advances a raw Castagnoli CRC state in pipe or launches a block CRC. -/
  | crc32c (x : Fin 128)
  /-- TAG (R204): Updates an integrity tag for a change of up to four payload bytes. -/
  | tag (x : Fin 128)
  /-- TADD (R207): Adds an interval to a time value. -/
  | tadd (x : Fin 128)
  /-- TSUB (R207): Subtracts two time values into an interval, marking mixed epochs. -/
  | tsub (x : Fin 128)
  /-- TCMP (R207): Compares two time values into the flags. -/
  | tcmp (x : Fin 128)
  /-- TNOW (R208): Writes the most recent timebase value that has crossed into the core. -/
  | tnow (x : Fin 128)
  /-- XCHG (R210): Atomically exchanges m with a and returns the old value. -/
  | xchg (x : Fin 128)
  /-- CAS (R210): Atomically replaces m with a when it equals d and returns the old value. -/
  | cas (x : Fin 128)
  /-- FADD (R210): Atomically adds a to m and returns the old value. -/
  | fadd (x : Fin 128)
  /-- LOCKW (R480): Tries to acquire a word lock in the reservoir and writes the status. -/
  | lockw (x : Fin 128)
  /-- UNLKW (R481): Releases a word lock held by the thread, or reports misuse. -/
  | unlkw (x : Fin 128)
  /-- LOCKG (R485): Tries to acquire a group lock and writes the status. -/
  | lockg (x : Fin 128)
  /-- UNLKG (R486): Releases a group lock held by the thread, or reports misuse. -/
  | unlkg (x : Fin 128)
  /-- CRD (R138): Starts an asynchronous copy from a cistern window into the well or reservoir. -/
  | crd (x : Fin 128)
  /-- CWR (R216): Starts an asynchronous copy into a cistern window. -/
  | cwr (x : Fin 128)
  /-- CHECK (R441): CHAN operation that checks a handle and returns its error, kind, state and generation. -/
  | check (x : Fin 128)
  /-- BIND (R410): CHAN operation that binds a cistern window to a buffer of the logical bore. -/
  | bind (x : Fin 128)
  /-- UNBIND (R411): CHAN operation that unbinds a cistern window unless an access on it is outstanding. -/
  | unbind (x : Fin 128)
  /-- TAGGET (R441): CHAN operation that returns the tag of the buffer bound to a window. -/
  | tagget (x : Fin 128)
  /-- TAGPUT (R441): CHAN operation that stores a new tag in the bound buffer and clears TGEN. -/
  | tagput (x : Fin 128)
  /-- ALLOC (R441): CHAN operation that allocates a buffer of the given length for the logical bore. -/
  | alloc (x : Fin 128)
  /-- FREE (R441): CHAN operation that drops one reference of a buffer and returns its cells at zero. -/
  | free (x : Fin 128)
  /-- CHAN_RESULT (R441): The result and effect of a CHAN operation take place at its 3rd turn. -/
  | chanResult (x : Fin 128)
  /-- COPY (R428): Pump move that copies bytes between well and reservoir pointers. -/
  | copy (x : Fin 128)
  /-- SEND_HOST (R428): Pump move that hands a buffer to a channel towards the host, into a post or the backlog. -/
  | sendHost (x : Fin 128)
  /-- TX (R428): Pump move that queues a buffer for transmission on the channel's port. -/
  | tx (x : Fin 128)
  /-- TO_VALVE (R428): Pump move that puts words into a pump-fed valve TX queue. -/
  | toValve (x : Fin 128)
  /-- FROM_VALVE (R428): Pump move that takes words from a pump-fed valve RX queue. -/
  | fromValve (x : Fin 128)
  /-- IMAGE_OUT (R428): Pump move that writes an IMAGE channel's reservoir image to host memory. -/
  | imageOut (x : Fin 128)
  /-- IMAGE_IN (R428): Pump move that reads an IMAGE channel's host image into the reservoir. -/
  | imageIn (x : Fin 128)
  /-- PUMP_TAKE (R428): Pump move that takes the oldest backlog buffer of an MSG channel for the firmware. -/
  | pumpTake (x : Fin 128)
  /-- EVENT (R428): Pump move that writes an event word as a host completion of an EVENT channel. -/
  | event (x : Fin 128)
  /-- MOVE_COMPLETE (R426): A pump move completes, freeing its slot, setting PDONE, writing a completion record and
  raising PQ. -/
  | moveComplete (k : Fin 512)
  /-- POST (R384): Raises a POST source of the thread's range and sets its level. -/
  | post (x : Fin 128)
  /-- EWAIT (R218): An elastic thread waits until a is non-zero. -/
  | ewait (x : Fin 128)
  /-- QPUT (R220): Puts a word into a valve TX queue, waiting for credit on an elastic thread. -/
  | qput (x : Fin 128)
  /-- QPUTN (R220): Puts a word into a valve TX queue or counts an overflow without credit. -/
  | qputn (x : Fin 128)
  /-- QGET (R220): Takes the oldest RX entry of a valve queue, waiting on an elastic thread. -/
  | qget (x : Fin 128)
  /-- QGETN (R220): Takes the oldest RX entry of a valve queue or counts an underrun when empty. -/
  | qgetn (x : Fin 128)
  /-- SCHED (R221): Checks an action word and allocates a schedule entry for a time. -/
  | sched (x : Fin 128)
  /-- UNSCHED (R222): Requests removal of a schedule entry created by the same logical bore. -/
  | unsched (x : Fin 128)
  /-- SYSRD (R223): Reads the core image of a register in the window. -/
  | sysrd (x : Fin 128)
  /-- SYSWR (R224): Writes a register in the window as a port-window write, except in protected units. -/
  | syswr (x : Fin 128)
  /-- VADD (R231): Lane-wise addition of 128-bit operands. -/
  | vadd (x : Fin 128)
  /-- VSUB (R231): Lane-wise subtraction. -/
  | vsub (x : Fin 128)
  /-- VMIN (R231): Lane-wise signed minimum. -/
  | vmin (x : Fin 128)
  /-- VMAX (R231): Lane-wise signed maximum. -/
  | vmax (x : Fin 128)
  /-- VAND (R231): Lane-wise AND. -/
  | vand (x : Fin 128)
  /-- VOR (R231): Lane-wise OR. -/
  | vor (x : Fin 128)
  /-- VXOR (R231): Lane-wise XOR. -/
  | vxor (x : Fin 128)
  /-- VCMPEQ (R231): Lane-wise equality mask. -/
  | vcmpeq (x : Fin 128)
  /-- VCMPGT (R231): Lane-wise signed greater-than mask. -/
  | vcmpgt (x : Fin 128)
  /-- VSHL (R231): Lane-wise left shift. -/
  | vshl (x : Fin 128)
  /-- VSHR (R231): Lane-wise logical right shift. -/
  | vshr (x : Fin 128)
  /-- VSEL (R231): Bitwise select of a and b by the old d. -/
  | vsel (x : Fin 128)
  /-- TPERM (R234): Byte permute of a by the indices in t. -/
  | tperm (x : Fin 128)
  /-- TPERM2 (R234): Byte permute over a and the old d by the indices in t. -/
  | tperm2 (x : Fin 128)
  /-- TLUT (R234): Nibble lookup of 8 bytes into 16 through table t. -/
  | tlut (x : Fin 128)
  /-- TLUT16 (R234): Byte lookup into the eight 16-bit entries of t. -/
  | tlut16 (x : Fin 128)
  /-- LVSETL (R236): Writes the clamped vector length to the well word at 0xFF4. -/
  | lvsetl (x : Fin 128)
  /-- LVADD (R240): Launches a saturating real vector addition. -/
  | lvadd (x : Fin 128)
  /-- LVSUB (R240): Launches a saturating real vector subtraction. -/
  | lvsub (x : Fin 128)
  /-- LVMUL (R240): Launches a rounded real vector multiplication. -/
  | lvmul (x : Fin 128)
  /-- LVMAC (R240): Launches a rounded real multiply-accumulate. -/
  | lvmac (x : Fin 128)
  /-- LVCMUL (R240): Launches a complex vector multiplication. -/
  | lvcmul (x : Fin 128)
  /-- LVCMAC (R240): Launches a complex multiply-accumulate. -/
  | lvcmac (x : Fin 128)
  /-- LVCONJ (R240): Launches a complex conjugate. -/
  | lvconj (x : Fin 128)
  /-- LVSUM (R240): Launches an exact sum of complex elements. -/
  | lvsum (x : Fin 128)
  /-- LVMAXI (R240): Launches a search for the element of largest magnitude. -/
  | lvmaxi (x : Fin 128)
  /-- LVBFLY (R240): Launches a radix-2 butterfly stage. -/
  | lvbfly (x : Fin 128)
  /-- LVGATH (R240): Launches a word gather by index vector. -/
  | lvgath (x : Fin 128)
  /-- LVGATHF (R249): Launches a word gather that stops at the first faulting element. -/
  | lvgathf (x : Fin 128)
  /-- LVSCAT (R240): Launches a word scatter by index vector. -/
  | lvscat (x : Fin 128)
  /-- LVCOPY (R240): Launches a word vector copy. -/
  | lvcopy (x : Fin 128)
  /-- EVENT_ENTRY (R391): An event enters the manifold core and is routed by the table as it stands, through any
  gates. -/
  | eventEntry (src : Fin 1024)
  /-- ROUTE_DELIVERY (R394): After its hop cost a routed event or level reaches its consumer input. -/
  | routeDelivery (i : Fin 1024)
  /-- STORM_WINDOW (R398): A storm window of STORM_WIN strokes ends and the delivery counts restart. -/
  | stormWindow
  /-- STORM_REARM (R399): Writing 1 to STORM in MF_IN_STAT re-arms the input and clears DROPPED. -/
  | stormRearm (i : Fin 1024) (w : Word)
  /-- TRIGGER_ARRIVE (R268): An event reaches a valve trigger input in GCLK and sets TRIG[k] or TRIGk_OVR. -/
  | triggerArrive (v : Fin 128) (k : Fin 2)
  /-- TXHOLD_CHANGE (R386): The level at TXHOLD of a port changes in GCLK, holding or releasing frame starts. -/
  | txholdChange (n : Fin 32)
  /-- TSCAP_CAPTURE (R387): An event at TSCAP captures the master time into MF_CAP and sets VALID. -/
  | tscapCapture (k : Fin 16)
  /-- EXTOUT_PULSE (R388): An event at EXTOUT starts the pulse stretcher on ext_out. -/
  | extoutPulse (k : Fin 16)
  /-- STRETCHER_END (R388): The pulse stretcher's WIDTH TCLK cycles expire. -/
  | stretcherEnd (k : Fin 16)
  /-- ROUTE_WRITE (R389): A write to MF_ROUTE stores the route with its held gate and applies it from the stated
  stroke. -/
  | routeWrite (r : Fin 2048) (w : Word)
  /-- GATE_WRITE (R389): A write to MF_GATE is held until the next MF_ROUTE write. -/
  | gateWrite (r : Fin 2048) (w : Word)
  /-- SIGNATURE_PASS (R400): A signature pass over the covered words completes and its CRC is stored and compared. -/
  | signaturePass
  /-- GOLDEN_WRITE (R401): A write to MF_SIG_GOLDEN clears STALE so later passes are compared. -/
  | goldenWrite (w : Word)
  /-- EXT_IN_EDGE (R381): An edge on ext_in raises the EXTIN source after synchronisation. -/
  | extInEdge (k : Fin 16) (level : Bool)
  /-- BRANCH (R260): Valve instruction that continues at a target when its condition holds. -/
  | branch (v : Fin 128)
  /-- COUNT_LOAD (R260): Valve instruction that loads a counter with an operand. -/
  | countLoad (v : Fin 128)
  /-- COUNT_RELOAD (R260): Valve instruction that loads a counter from its reload value. -/
  | countReload (v : Fin 128)
  /-- COUNT_DEC (R260): Valve instruction that decrements a counter down to 0. -/
  | countDec (v : Fin 128)
  /-- COUNT_LOOP (R260): Valve instruction that decrements a counter and branches while it is not 0. -/
  | countLoop (v : Fin 128)
  /-- SHIFT_SEND (R262): Valve instruction that drives n bits of TXW onto pins. -/
  | shiftSend (v : Fin 128)
  /-- SHIFT_SAMPLE (R262): Valve instruction that gathers n conditioned inputs into RXW. -/
  | shiftSample (v : Fin 128)
  /-- SHIFT_FILL (R262): Valve instruction that gathers n constant bits into RXW. -/
  | shiftFill (v : Fin 128)
  /-- SHIFT_DISCARD (R262): Valve instruction that takes n bits from TXW without driving them. -/
  | shiftDiscard (v : Fin 128)
  /-- MOVE (R261): Valve instruction that moves a transformed source to a destination. -/
  | move (v : Fin 128)
  /-- TAKE (R263): Valve instruction that loads TXW from the TX queue, stalls, or reloads LAST_TAKE as stale. -/
  | take (v : Fin 128)
  /-- GIVE (R263): Valve instruction that puts RXW into the RX queue, stalls, or overwrites. -/
  | give (v : Fin 128)
  /-- AWAIT (R265): Valve instruction that waits for an input, trigger, flag or TX condition. -/
  | await (v : Fin 128)
  /-- AWAIT_PASS (R265): A stalled AWAIT sees its condition true and the next instruction follows after DWELL. -/
  | awaitPass (v : Fin 128)
  /-- AWAIT_TIMEOUT (R265): A timed AWAIT ends without its condition when K1 reaches 0. -/
  | awaitTimeout (v : Fin 128)
  /-- QUEUE_STALL_END (R266): A stalled TAKE or GIVE completes when an entry or room becomes available. -/
  | queueStallEnd (v : Fin 128)
  /-- SIGNAL_SET (R267): Valve instruction that sets a port flag. -/
  | signalSet (v : Fin 128)
  /-- SIGNAL_CLEAR (R267): Valve instruction that clears a port flag. -/
  | signalClear (v : Fin 128)
  /-- SIGNAL_EVENT (R267): Valve instruction that raises a valve event source. -/
  | signalEvent (v : Fin 128)
  /-- SIGNAL_SET_EVENT (R267): Valve instruction that sets a port flag and raises a valve event source. -/
  | signalSetEvent (v : Fin 128)
  /-- MARK (R260): Valve instruction that does nothing and may mark a safe swap point. -/
  | mark (v : Fin 128)
  /-- VALVE_ILLEGAL (R269): An illegal valve instruction applies its pin effect and dwell, sets ILLOP and reports a
  valve fault. -/
  | valveIllegal (v : Fin 128)
  /-- VALVE_START (R281): EN going to 1 starts the valve at PC and anchors its valve-cycle grid. -/
  | valveStart (v : Fin 128) (w : Word)
  /-- VALVE_STOP (R281): EN going to 0 stops the valve at the end of the current valve cycle. -/
  | valveStop (v : Fin 128) (w : Word)
  /-- RESTART (R281): RESTART sets PC to START_PC and clears the valve words, counters and triggers. -/
  | restart (v : Fin 128) (w : Word)
  /-- CLR_COUNTS (R289): CLR_COUNTS clears VALVE_QERR. -/
  | clrCounts (v : Fin 128) (w : Word)
  /-- CLKDIV_WRITE (R256): A write to DIV takes effect after the next valve cycle. -/
  | clkdivWrite (v : Fin 128) (w : Word)
  /-- QCFG_WRITE (R271): A write of VALVE_QCFG while stopped sets joining and feeders and empties both queues on a
  JOIN change. -/
  | qcfgWrite (v : Fin 128) (w : Word)
  /-- PROG_WRITE (R282): A write to VALVE_PROG stores a word in the standby bank unless discarded. -/
  | progWrite (v : Fin 128) (i : Fin 64) (w : Word)
  /-- K_WRITE (R281): A write of VALVE_K0 or VALVE_K1 loads the counter unless the valve runs. -/
  | kWrite (v : Fin 128) (n : Fin 2) (w : Word)
  /-- SWAP_SAFE (R283): Requests a program swap at the next SAFE mark. -/
  | swapSafe (v : Fin 128) (w : Word)
  /-- SWAP_IDLE (R283): Requests a program swap at the next wait stall. -/
  | swapIdle (v : Fin 128) (w : Word)
  /-- SWAP_FORCED (R283): Requests a program swap at the end of the next valve cycle. -/
  | swapForced (v : Fin 128) (w : Word)
  /-- SWAP_CANCEL (R286): MODE 0 cancels a pending swap request. -/
  | swapCancel (v : Fin 128) (w : Word)
  /-- VALVE_SWAP (R283): At the swap point the active bank toggles, PC becomes ENTRY and PARTIAL may latch. -/
  | valveSwap (v : Fin 128) (left : Fin 16)
  /-- TX_ENTRY_READY (R274): A TX queue entry put by the core crosses into GCLK and becomes ready for TAKE. -/
  | txEntryReady (v : Fin 128)
  /-- RX_ENTRY_ARRIVE (R274): An RX queue entry given by the valve crosses into the core and can be taken. -/
  | rxEntryArrive (v : Fin 128)
  /-- PUT_CREDIT_RETURN (R220): A put credit returns to the core after the valve has taken the entry. -/
  | putCreditReturn (v : Fin 128)
  /-- PIN_IN (R275): A pin input changes and enters the synchroniser of the conditioning chain. -/
  | pinIn (n : Fin 32) (j : Fin 8) (level : Bool)
  /-- SAMPLE_POINT (R275): At each sample point the conditioning chain samples every pin and updates filter, chatter
  and stuck counts. -/
  | samplePoint (n : Fin 32)
  /-- CHATTER_WINDOW (R278): A chatter window of 2^(CHAT_WIN+4) samples ends and its edge count restarts. -/
  | chatterWindow (n : Fin 32) (j : Fin 8)
  /-- STUCK (R279): The filtered level stays active for STUCK_T × 2^16 samples, latching STUCK and forcing idle. -/
  | stuck (n : Fin 32) (j : Fin 8)
  /-- PIN_SAMPLE_WRITE (R275): A write to PIN_SAMPLE sets the period and restarts the sample origin and the counts of
  all pins. -/
  | pinSampleWrite (n : Fin 32) (w : Word)
  /-- PIN_COND_WRITE (R280): A write to PIN_COND takes effect at the next sample and restarts that pin's counts. -/
  | pinCondWrite (n : Fin 32) (j : Fin 8) (w : Word)
  /-- CHATTER_REARM (R278): Writing 1 to CHATTER re-arms the chatter limiter. -/
  | chatterRearm (n : Fin 32) (w : Word)
  /-- STUCK_CLEAR (R279): Clearing STUCK restarts the stuck count at the next sample. -/
  | stuckClear (n : Fin 32) (w : Word)
  /-- PIN_OWN_WRITE (R252): A write to PIN_OWN changes the owner valve of pins. -/
  | pinOwnWrite (n : Fin 32) (w : Word)
  /-- PIN_FLAGS_WRITE (R267): A write to PIN_FLAGS sets and clears port flags after the valves in the same cycle. -/
  | pinFlagsWrite (n : Fin 32) (w : Word)
  /-- PORT_MODE_WRITE (R292): A write of PORT_MODE while OFF sets mode, rate and transfer spacing. -/
  | portModeWrite (n : Fin 32) (w : Word)
  /-- RX_FRAME (R305): A frame is received on a lane, stored into cells, filtered, tagged, classified and delivered
  or sunk. -/
  | rxFrame (n : Fin 32) (f : RxFrame)
  /-- FRAME_RECORD (R434): The frame-end record reaches the pump core, which writes the frame record to the ring and
  raises FE. -/
  | frameRecord (n : Fin 32)
  /-- CELL_RESERVE (R413): The pump reserves a new head cell for a port after a frame took the previous one. -/
  | cellReserve (n : Fin 32)
  /-- PAUSE_TIMER (R307): The pause timer counts down one quantum of 512 bit times. -/
  | pauseTimer (n : Fin 32)
  /-- TX_FRAME (R309): The transmitter starts the next admitted frame and sends it, checking its tag at exit. -/
  | txFrame (n : Fin 32) (tap : Fin 256) (underrun : Option Nat)
  /-- TX_FRAME_DONE (R428): A transmitted frame has left the port and its TX move completes. -/
  | txFrameDone (n : Fin 32)
  /-- LAUNCH (R431): A TX with a launch time is appended to its class queue at its launch time. -/
  | launch (k : Fin 512)
  /-- GATE_ENTRY (R311): The next gate entry of the run in force takes effect at its start time. -/
  | gateEntry (n : Fin 32)
  /-- GATE_CTRL_WRITE (R313): A write of PORT_GATE_CTRL is held until a cycle boundary. -/
  | gateCtrlWrite (n : Fin 32) (w : Word)
  /-- GATE_CTRL_APPLY (R313): The held gate control takes effect at the first cycle boundary at least 1 µs after it
  reached GCLK. -/
  | gateCtrlApply (n : Fin 32)
  /-- EXACT_WRITE (R340): A write of word 1 of an exact entry makes both words take effect. -/
  | exactWrite (n : Fin 32) (e : Fin 64) (w : Word)
  /-- DUP_AGE_OUT (R326): A duplicate table entry is forgotten DUP_AGE ms after it was made. -/
  | dupAgeOut (n : Fin 32)
  /-- FLUSH (R340): FLUSH empties the duplicate table. -/
  | flush (n : Fin 32) (w : Word)
  /-- CLEAR (R338): CLEAR in PORT_CNT_CTRL zeroes all 32 port counters. -/
  | clear (n : Fin 32) (w : Word)
  /-- TB_INC_WRITE (R342): A write of TB_INC or TB_GINC changes the advance per clock edge. -/
  | tbIncWrite (which : Fin 9) (w : Word)
  /-- RATE_LO_WRITE (R343): A write to TB_RATE_LO is held. -/
  | rateLoWrite (w : Word)
  /-- RATE_HI_WRITE (R343): A write to TB_RATE_HI arms both halves of ADJ, clamping to ±1,000 ppm. -/
  | rateHiWrite (w : Word)
  /-- RATE_APPLY (R343): The armed rate takes effect at the first TCLK edge after the write reaches TCLK. -/
  | rateApply
  /-- ADJ_AUTO (R345): Submits an offset that becomes a step or a slew by STEP_MIN. -/
  | adjAuto (w : Word)
  /-- ADJ_STEP (R345): Submits a step of the timebase by an offset. -/
  | adjStep (w : Word)
  /-- ADJ_SLEW (R345): Submits a slew of the timebase by an offset. -/
  | adjSlew (w : Word)
  /-- ADJ_SET (R345): Submits a step to an absolute time. -/
  | adjSet (w : Word)
  /-- TIME_STEP (R346): At the step instant the time jumps by the offset, EPOCH increases and the step is logged. -/
  | timeStep
  /-- SLEW_START (R348): A slew request reaches TCLK and the slew term starts with a fixed rate. -/
  | slewStart
  /-- SLEW_END (R348): The remaining slew offset is applied in full and the slew ends. -/
  | slewEnd
  /-- HOST_SNAPSHOT (R351): Writing SNAP in TB_HSNAP_CTRL clears VALID and requests a snapshot. -/
  | hostSnapshot (p : Fin 8) (w : Word)
  /-- SNAPSHOT_CAPTURE (R351): At the first TCLK edge after the request the time and stroke count are captured and
  VALID set. -/
  | snapshotCapture (p : Fin 8)
  /-- CAL_TABLE (R355): After 8,192 captures the interpolator forms a new tap table or sets CAL_STALL. -/
  | calTable (g : Fin 8) (taps : Fin 256)
  /-- GROUP_TIME_SYNC (R359): Every 256 GCLK cycles the group copy of the time is set to the interpolated master
  value. -/
  | groupTimeSync (g : Fin 8) (tap : Fin 256)
  /-- SCHED_ARRIVE (R364): A schedule entry reaches TCLK and is rebased, kept, fired late or dropped. -/
  | schedArrive (e : Fin 4096)
  /-- SCHEDULE_FIRE (R363): A due entry fires, raises its SCH line and frees the entry. -/
  | scheduleFire (e : Fin 4096)
  /-- UNSCHED_APPLY (R222): The removal of an entry takes effect in TCLK after its crossing. -/
  | unschedApply (e : Fin 4096)
  /-- REP_HEAD_WRITE (R365): A write of TB_REP_HEAD consumes fire records unless it would exceed the ring. -/
  | repHeadWrite (lb : Fin 8) (w : Word)
  /-- CYCLE_START (R369): A cycle-keeper slot starts a cycle, raises CKE, sets BUSY and CK_COUNT. -/
  | cycleStart (i : Fin 128)
  /-- CK_DONE (R369): A write of a slot number to CK_DONE ends the cycle's work and clears BUSY. -/
  | ckDone (w : Word)
  /-- CK_ENABLE (R372): EN of CK_CFG going to 1 schedules the slot's first start. -/
  | ckEnable (i : Fin 128) (w : Word)
  /-- CK_DISABLE (R372): EN of CK_CFG going to 0 cancels pending starts. -/
  | ckDisable (i : Fin 128) (w : Word)
  /-- PPS_IN_EDGE (R375): An accepted pps_in edge is time-stamped and raises PPS_IN. -/
  | ppsInEdge (sub : Fin 256) (level : Bool)
  /-- PPS_OUT_RISE (R376): pps_out rises when NS reaches PPS_OFFSET and raises PPS_OUT. -/
  | ppsOutRise
  /-- PPS_OUT_FALL (R376): pps_out falls after WIDTH µs. -/
  | ppsOutFall
  /-- PUMP_TRIGGER (R433): An event at a pump trigger reads its descriptor and submits it, or is dropped when busy. -/
  | pumpTrigger (lb : Fin 8) (k : Fin 8)
  /-- SPILL_VISIT (R416): The pump spills the oldest eligible backlog buffer of a channel into a deep slot. -/
  | spillVisit (ch : Fin 16384)
  /-- REFILL (R417): A deep buffer is refilled into cells when cells are free. -/
  | refill
  /-- DC_ENABLE (R415): Writing DC_EN makes the pump build the deep slot stack. -/
  | dcEnable (w : Word)
  /-- DC_READY (R415): The slot stack is complete and DC_READY is set. -/
  | dcReady
  /-- CR_HEAD_WRITE (R432): A write of CR_HEAD consumes completion records unless it would exceed the ring. -/
  | crHeadWrite (lb : Fin 8) (w : Word)
  /-- QDEPTH_WRITE (R424): A write of QDEPTH or HDEPTH is accepted unless the sum would exceed 512. -/
  | qdepthWrite (reg : Fin 24) (w : Word)
  /-- POLL (R451): The poll interval expires and the ring engine reads the doorbell page. -/
  | poll (p : Fin 8)
  /-- POLL_RETURN (R453): A poll read returns and its indices take effect, or an error response keeps the old ones. -/
  | pollReturn (p : Fin 8) (err : Fin 4) (data : List Byte)
  /-- DB_HINT (R452): A rising edge of db_hint triggers a poll of every partition with HINT_EN. -/
  | dbHint
  /-- SUBMISSION_FETCH (R455): The ring engine fetches up to 8 submissions of a ring pair and accepts them on return. -/
  | submissionFetch (r : Fin 64)
  /-- SEND (R458): A SEND submission copies host bytes into a buffer and acts on the channel. -/
  | send (r : Fin 64)
  /-- RX_POST (R459): An RX_POST offers host memory for a channel's buffers, taking a backlog buffer if one waits. -/
  | rxPost (r : Fin 64)
  /-- BAD_SUBMISSION (R456): A data submission with an undefined OP or reserved bit set completes at once with DESC. -/
  | badSubmission (r : Fin 64)
  /-- CMD_NOP (R466): NOP command completes after every earlier command of its ring. -/
  | cmdNop (p : Fin 8)
  /-- CH_CREATE (R468): Creates a channel at the next free index of the partition's range. -/
  | chCreate (p : Fin 8)
  /-- CH_MODIFY (R468): Replaces a channel's fields, or only some of them when not OFF. -/
  | chModify (p : Fin 8)
  /-- CH_DESTROY (R468): Destroys an OFF channel and increases its generation. -/
  | chDestroy (p : Fin 8)
  /-- CH_ENABLE (R469): Drives a channel towards ON under the enable and disable state machine. -/
  | chEnable (p : Fin 8)
  /-- CH_DISABLE (R469): Drives a channel towards OFF through a drain. -/
  | chDisable (p : Fin 8)
  /-- PORT_ENABLE (R469): Drives a port towards ON under the enable and disable state machine. -/
  | portEnable (p : Fin 8)
  /-- PORT_DISABLE (R469): Drives a port towards OFF through a drain. -/
  | portDisable (p : Fin 8)
  /-- PERS_LOAD (R549): Writes an image from host memory into MRAM and checks it. -/
  | persLoad (p : Fin 8)
  /-- PERS_SWAP (R550): Starts a live swap to the other valid image. -/
  | persSwap (p : Fin 8)
  /-- LOCKG_ACQ (R485): Host command that tries to acquire a group lock. -/
  | lockgAcq (p : Fin 8)
  /-- LOCKG_REL (R486): Host command that releases a group lock. -/
  | lockgRel (p : Fin 8)
  /-- LOCKG_FORCE (R486): Host command from HP0 that force-releases a group lock. -/
  | lockgForce (p : Fin 8)
  /-- LOCKW_ACQ (R480): Host command that tries to acquire a word lock on a reservoir or cistern word. -/
  | lockwAcq (p : Fin 8)
  /-- LOCKW_REL (R481): Host command that releases a word lock. -/
  | lockwRel (p : Fin 8)
  /-- UNDEFINED_COMMAND (R466): A command with an unlisted OP completes at once with UNDEFINED. -/
  | undefinedCommand (p : Fin 8)
  /-- COMPLETION_WRITE (R462): A host completion record is written when the completion ring has room. -/
  | completionWrite (r : Fin 64)
  /-- COALESCE_TIMEOUT (R464): CO_TIME µs after the oldest counted record the interrupt becomes pending. -/
  | coalesceTimeout (r : Fin 64)
  /-- PORT_ON (R470): An ENABLING port becomes ON at the first cycle with lane_rx_dv at 0. -/
  | portOn (n : Fin 32)
  /-- ENABLE_TIMEOUT (R469): A port not ON 2 ms after its ENABLE returns to OFF and the ENABLE completes with
  TIMEOUT. -/
  | enableTimeout (n : Fin 32)
  /-- PORT_DRAIN_END (R470): A draining port's drain ends and its held completions are written. -/
  | portDrainEnd (n : Fin 32)
  /-- CHANNEL_ON (R471): An ENABLING channel becomes ON within 4 strokes after its ENABLE reaches the pump core. -/
  | channelOn (ch : Fin 16384)
  /-- CHANNEL_DRAIN_END (R471): A draining channel reaches INFLIGHT 0 with no post and ends its drain. -/
  | channelDrainEnd (ch : Fin 16384)
  /-- PARTITION_RESET (R473): RESET in HP_CTRL disables the partition, discards posts and abandons its locks. -/
  | partitionReset (p : Fin 8) (w : Word)
  /-- RING_ENABLE (R454): EN of HR_CFG going to 1 resets SQ_HEAD, CQ_TAIL and the phase of the ring pair. -/
  | ringEnable (r : Fin 64) (w : Word)
  /-- READ_RESPONSE (R565): A read response arrives on a master port with its data or an error code. -/
  | readResponse (port : Fin 2) (id : Fin 512) (err : Fin 4) (data : List Byte)
  /-- WRITE_ACK (R565): A write acknowledgement arrives on a master port, completing or failing the write. -/
  | writeAck (port : Fin 2) (id : Fin 512) (err : Fin 4)
  /-- RESPONSE_TIMEOUT (R570): A master port command outstanding for 1 ms raises a class-14 event. -/
  | responseTimeout (port : Fin 2) (id : Fin 512)
  /-- REGISTER_WRITE (R569): A write through the register slave port to a register with no row of its own applies to
  the image with the field rules, or is answered FAULT. -/
  | registerWrite (off : Fin 1048576) (w : Word) (strb : Fin 16) (len : Fin 64)
  /-- LEASE_EXPIRY (R488): A lease runs out and its entry becomes EXPIRED. -/
  | leaseExpiry (k : Fin 2048)
  /-- LOCK_REWRITE (R488): Within 64 strokes the lock unit rewrites an expired or abandoned word or group lock and
  frees the entry. -/
  | lockRewrite (k : Fin 2048)
  /-- WH_LOCK_ACQUIRE (R531): WH_GLOCK OP 1 acquires a group lock for the wellhead. -/
  | whLockAcquire (w : Word)
  /-- WH_LOCK_RELEASE (R531): WH_GLOCK OP 2 releases a group lock of the wellhead. -/
  | whLockRelease (w : Word)
  /-- WH_LOCK_FORCE (R531): WH_GLOCK OP 3 forces a group lock free. -/
  | whLockForce (w : Word)
  /-- WELLHEAD_EVENT (R501): An event reaches the wellhead and its class actions are applied. -/
  | wellheadEvent (check : Option (Fin 10 × Word))
  /-- FAULT_CLEAR_KEY (R503): A write to WH_FAULT_CLR advances or restarts the two-key clear sequence of the fault
  outputs. -/
  | faultClearKey (w : Word)
  /-- HALVES_DISAGREE (R498): Halves A and B of the wellhead disagree, a class-15 event. -/
  | halvesDisagree
  /-- CLOCK_WINDOW (R499): A 256-cycle clock monitor window ends and each clock's count is judged. -/
  | clockWindow (counts : List Nat)
  /-- TRAILER_START (R504): The trailer of a started pair starts 16 strokes after the leader. -/
  | trailerStart (k : Fin 16)
  /-- PAIR_MISMATCH (R507): A paired-thread disagreement stops both threads and discards the held outputs. -/
  | pairMismatch (k : Fin 16)
  /-- ROTATION_STEP (R508): Every 1.0 ms the wellhead starts migrating the longest-carrying bore to a relief bore. -/
  | rotationStep
  /-- MIRROR_DONE (R509): The mirror of the logical bore's state to the target completes. -/
  | mirrorDone
  /-- CUT_OVER (R510): At stroke c the target takes over issue from the victim. -/
  | cutOver
  /-- DRAIN_END (R512): The victim's drain ends, or overruns and the victim is retired. -/
  | drainEnd
  /-- SELF_TEST_DONE (R514): A bore's self-test ends, making it a relief bore or raising a class-4 event. -/
  | selfTestDone (pass : Bool) (block : Word)
  /-- EMERGENCY_MIGRATION (R513): A RETIRE action moves a carrying bore's logical bore to a relief bore at once. -/
  | emergencyMigration (b : Fin 10)
  /-- RETEST (R515): A write to WH_RETEST starts three self-tests of a retired bore. -/
  | retest (w : Word)
  /-- READMISSION_DONE (R515): The three self-tests end and the bore becomes a relief bore or stays retired. -/
  | readmissionDone (pass : Bool)
  /-- LB_RETURN (R517): A logical bore out of service is reloaded on a relief bore and returns to service. -/
  | lbReturn (lb : Fin 8)
  /-- SCRUB_READ (R519): The scrubber reads the next word of a memory and corrects or reports it. -/
  | scrubRead (m : Machine.Mem) (w : Nat)
  /-- LOG_INTAKE (R520): The wellhead takes one record from the intakes, numbers it and admits or counts it under the
  spillway. -/
  | logIntake
  /-- LOG_WRITE (R521): The MRAM writer writes the next staged record to the well log. -/
  | logWrite
  /-- GAP_MOVE (R527): After every 256 record writes the line next to the gap is copied and the gap moves. -/
  | gapMove
  /-- INCIDENT_CLOSE (R526): An incident closes QUIET ms after its last INC record. -/
  | incidentClose
  /-- LOG_READ (R528): A write to WH_LOG_SEL clears READY and starts reading a log record. -/
  | logRead (w : Word)
  /-- LOG_READ_DONE (R528): The selected record is in WH_LOG_DATA and READY is set. -/
  | logReadDone
  /-- AON_RESET (R534): rst_aon_n resets the always-on domain and, with it, the block. -/
  | aonReset (test : Bool)
  /-- BLOCK_RESET (R535): rst_core_n resets every domain but the wellhead and asserts the fault outputs. -/
  | blockReset (test : Bool)
  /-- DOMAIN_RESET_EXIT (R559): A domain leaves reset 2 cycles of its clock after the synchronised release. -/
  | domainResetExit (d : Fin 13)
  /-- PRIMING (R544): After the core leaves reset the wellhead zeroes memories, chooses and loads an image and
  applies configuration. -/
  | priming
  /-- PRIMED (R546): PRIMED is set, threads and valves start, fault outputs release and RWL fields lock. -/
  | primed
  /-- COMMIT (R539): COMMIT writes the staged platform record to the other copy. -/
  | commit (w : Word)
  /-- THREAD_CUT_OVER (R551): A thread reaches OLD_PC after arming and continues at NEW_PC in the new bank. -/
  | threadCutOver (x : Fin 128)
  /-- SWAP_TIMEOUT (R552): The PERS_SWAP timeout stops the remaining threads and forces pending valve swaps. -/
  | swapTimeout
  /-- PERS_SWAP_DONE (R550): All threads and valves have cut over, ACTIVE is rewritten and the command completes. -/
  | persSwapDone
  /-- TEST_MODE_CHANGE (R560): A change of test_mode outside reset is a class-15 event. -/
  | testModeChange
  /-- IDCODE (R576): TAP instruction that selects the IDCODE register. -/
  | idcode
  /-- BYPASS (R576): TAP instruction that selects the 1-bit bypass register. -/
  | bypass
  /-- IJTAG (R576): TAP instruction that selects the IEEE 1687 instrument network. -/
  | ijtag
  /-- TRST (R559): trst_n resets the TAP controller. -/
  | trst
  /-- POP (R578): POP moves the oldest trace record into DBG_TRACE_DATA. -/
  | pop (w : Word)
  /-- SUPPLY_LOSS (R572): An unplanned loss of supply loses staged records. -/
  | supplyLoss
  /-- SWAP_ARMED (R550): When the CODE and VALVE sections of a PERS_SWAP have been written into the standby banks,
  the swap arms: valve swaps are requested and stopped threads and threads without a REENTRY entry cut over at once.
  -/
  | swapArmed
  /-- PERS_LOAD_DONE (R549): The MRAM writing of a PERS_LOAD image and its CT section ends, the image is checked, and
  the command completes with DONE, AUTH or HOST. -/
  | persLoadDone
  /-- PRIMING_CLOCK_MISSING (R547): While a missing NCLK or TCLK holds priming at step 1, a class-7 event is raised
  every 10 ms. -/
  | primingClockMissing (nclk : Bool)
  deriving DecidableEq, Repr

end Sys2Proof
end

