-- ==== Sys2Proof/Decode.lean ====
section
/-!
DEFINITION. Words that spell commands.  No row of the table gives a command bits: the commands arrive as transfers, edges
and events, so no word spells one.
-/

namespace Sys2Proof

/-- The command that a word spells by the table's bits: none, since the table gives none.
(DESIGN CHOICE, safe: log entry 7.) -/
def decodeTableWord (_nbits _w : Nat) : Option Instr := none

end Sys2Proof
end

