-- ==== Sys2Proof/Config.lean ====
section
/-!
DEFINITION. What the spec leaves open, as constants without a body: no proof can see their values, so
every claim holds whatever they are.  Each is applied to a plain counter of the state (`draws`) or to the
operands it depends on.
-/

namespace Sys2Proof

/-- Which of several free entries a unit takes: a cell of the pool (R412), a lease entry (R480), a schedule
entry (R221), where the spec names none.  The search starts here, modulo the table's size.
(DESIGN CHOICE, safe: log entry 11.) -/
opaque Config.pick : Nat → Nat

/-- A word that the spec leaves unstated. -/
opaque Config.freeWord : Nat → Word

/-- The nominal position of an interpolator tap after the TCLK edge, in units of 2^-48 ns (R355: "nominal tap
widths", no figures).
(DESIGN CHOICE, safe: log entry 13.) -/
opaque Config.nominalTap : Nat → Nat

/-- The detail code of a detection of class `cls` (R523 names the argument and gives no codes), from what was
detected.
(DESIGN CHOICE, safe: log entry 14.) -/
opaque Config.detailCode : (cls what about : Nat) → Word

/-- The static input idcode_mfr (R555, R576), which the licensee ties.
(DESIGN CHOICE, safe: log entry 119.) -/
opaque Config.idcodeMfr : BitVec 11

end Sys2Proof
end

