-- ==== Sys2Proof/Machine/State.lean ====
section
/-!
DEFINITION. The state of the block: every register, memory, queue and counter the spec gives it, as plain data.

Everything indexed is a sparse table whose unlisted entries have the value that State.reset gives them, so
the state right after reset is small.  Registers that only store what is written to them stand in the
register image `regs`, by their offset in the register window; registers that the hardware changes stand in
the structure of their unit.
-/

namespace Sys2Proof.Machine

/-- Why a command stops the block.  The spec gives every command an effect and names no state in which the
block stops, so no command raises this: it is raised by nobody (safe).
(DEDUCED, safe: log entry 8.) -/
inductive Fault where
  | unreachable
  deriving DecidableEq, Repr

/-- Why a command is not run. -/
inductive Refusal where
  /-- The arm of a command that has no meaning yet, by its mnemonic; raised by the dispatch only (safe). -/
  | notModelled (mnemonic : String)
  deriving DecidableEq, Repr

/-- The RW1C bits that the hardware has set in one cycle, which a write in the same cycle does not clear (R11). -/
structure Fresh where
  /-- The cycle. -/
  at_ : Nat := 0
  mask : Nat := 0
  deriving DecidableEq, Repr

/-- One event on its way to the wellhead, as the record of R522 and R523 holds it. -/
structure Ev where
  unit : Nat
  cls : Nat
  typ : Nat
  /-- The event is the cause of a bit of a unit alarm register (R520). -/
  alarm : Bool
  /-- The producer marks the record as a trace (R520). -/
  trace : Bool
  arg0 : Nat
  arg1 : Nat
  /-- FAULT is forced for it (R517, R518). -/
  force : Bool := false
  /-- The stroke from which the wellhead has it: the RETIRE stage of an instruction that sends it (R74). -/
  at_ : Nat := 0
  /-- The space and address that an ILL-class event carries beside its record (R147). -/
  place : Option (Nat × Nat) := none
  /-- The first byte of the instruction that an illegal-instruction event carries beside its record (R175). -/
  head : Option Nat := none
  deriving DecidableEq, Repr

/-! ### The memories that carry SECDED check bits (R144, R519) -/

/-- The state of a stored word whose check bits do not match it (R145, R146). -/
inductive EccState where
  /-- A single-bit error that no read has met yet. -/
  | correctable
  /-- A single-bit error that a read has corrected; the rewrite of R145 is pending. -/
  | rewriting
  /-- An uncorrectable word (R146). -/
  | uncorrectable
  deriving DecidableEq, Repr

/-- One 32-bit word with an ECC error: `word` counts 32-bit words from the start of the memory. -/
structure EccMark where
  mem : Mem
  word : Nat
  state : EccState
  deriving DecidableEq, Repr

/-- An error that an instruction has met and that its RETIRE stage counts, in stroke `at_` (R74, R145); `bore` is the
physical bore that held the memory, 15 where no bore does. -/
structure EccDue where
  at_ : Nat
  bore : Nat
  mem : Mem
  ue : Bool
  deriving DecidableEq, Repr

/-! ### Thread instructions: operands and pending results -/

/-- An operand specifier (R164). -/
inductive Spec where
  | wd (a : Nat)
  | wi (k d : Nat)
  | wip (k : Nat)
  | wix (k j scale : Nat)
  | rd (a : Nat)
  | imm8 (v : Nat)
  | imm16 (v : Nat)
  | imm32 (v : Nat)
  | bit (a : Nat)
  | pw (o : Nat)
  | small (v : Nat)
  | ws (m : Nat)
  | code (d : Nat)
  deriving DecidableEq, Repr

/-- Where an operand lies once its effective address is formed (R120, R121). -/
inductive Loc where
  | imm (v : Nat)
  | well (a : Nat)
  | res (a : Nat)
  | bit (a : Nat)
  | port (off : Nat)
  | code (a : Nat)
  | cis (ptr : Nat)
  deriving DecidableEq, Repr

/-- One write that a result makes: `n` bytes of `v` at `loc` (one bit for a bit variable). -/
structure LocWrite where
  loc : Loc
  n : Nat
  v : Nat
  deriving DecidableEq, Repr

/-- What a result with a distance in turns does when it becomes visible (R78, R203, R215). -/
inductive LongOp where
  /-- A multiply or divide result, with the flags it sets under SETF and DZ (R191-R193). -/
  | arith (ws : List LocWrite)
  /-- A block CRC over `k` bytes from `src` (R203). -/
  | crc (poly st k : Nat) (src dst : Loc)
  /-- A CHAN operation (R441). -/
  | chan (op a b : Nat) (dst : Loc)
  deriving DecidableEq, Repr

/-- A pending result of a thread: `left` turns (strokes, once the thread has stopped) remain (R79, R93). -/
structure LongRes where
  op : LongOp
  left : Nat
  /-- R93: counted at one turn per stroke since the thread stopped. -/
  perStroke : Bool
  /-- Issue stroke and PC of the producing instruction. -/
  issued : Nat
  pc : Nat
  deriving DecidableEq, Repr

/-- Flags under SETF that become visible with a result on its way to the reservoir or the port window (R178). -/
structure FlagsDue where
  due : Nat
  fs : List (Nat × Bool)
  deriving DecidableEq, Repr

/-- An outstanding CRD or CWR of a thread (R139-R143). -/
structure CisAcc where
  /-- True for CRD, false for CWR. -/
  rd : Bool
  idx : Nat
  win : Nat
  off : Nat
  n : Nat
  loc : Loc
  issued : Nat
  pc : Nat
  /-- Bytes that have landed so far, and whether a part was discarded under R146. -/
  done : Nat
  bad : Bool
  deriving DecidableEq, Repr

/-- The thread states of R91. -/
inductive ThState where
  | stopped
  | metered
  | elastic
  | mirroring
  | retired
  deriving DecidableEq, Repr

/-- A stop that waits for the thread's next instruction boundary (R92, R93). -/
inductive StopReq where
  | none
  | stop
  | reset
  | cutOver
  | wellhead
  deriving DecidableEq, Repr

/-- One logical thread: its well, private bits, return stack, registers and pending work. -/
structure Thread where
  well : Tbl Byte := []
  /-- Private bit space 0x0000-0x0FFF, with the flags of R20. -/
  bits : Tbl Bool := []
  /-- The private bits below 0x030 that a unit has set, by stroke (R114). -/
  freshBits : Fresh := {}
  flagsDue : List FlagsDue := []
  st : ThState := .stopped
  /-- CLASS of BORE_TCTRL: true for elastic (R82). -/
  cls : Bool := false
  rsTrap : Bool := false
  dzTrap : Bool := false
  imask : BitVec 8 := 0
  cmdErr : Bool := false
  /-- CMD_ERR of BORE_TCTRL as the hardware set it (R11). -/
  freshCmd : Fresh := {}
  stopCause : Nat := 0
  /-- The next instruction to issue. -/
  pc : BitVec 18 := 0
  /-- The prefetch queue: the bytes from `pc` on that FETCH has moved, at most 32, each with the mark of an uncorrectable
  word (R85, R88). -/
  fetched : List (Byte × Bool) := []
  /-- The last instruction issued: what BORE_TPC shows while the thread runs. -/
  lastPc : BitVec 18 := 0
  /-- Bits [17:8] of the vector base. -/
  vbase : BitVec 10 := 0
  /-- The return stack, newest entry first, at most 8 entries (R96). -/
  rs : List Word := []
  ie : Bool := false
  pl : Nat := 8
  stalled : Bool := false
  turns : Word := 0
  /-- The strokes of the last instructions among the turns: BORE_TTURNS counts each in its RETIRE stage (R74). -/
  turnsAt : List Nat := []
  donated : Word := 0
  tfault : Word := 0
  /-- VALID and OVER of BORE_TFAULT as the hardware set them (R11). -/
  freshFault : Fresh := {}
  /-- Turns already owed that issue nothing: fill turns and the second turn of a RET (R86, R182). -/
  owed : Nat := 0
  /-- Turns of an IDLE still to pass on (R90). -/
  idle : Nat := 0
  yielding : Bool := false
  /-- A pending START (false) or STEP (true) and the stroke from which its first turn may come (R92). -/
  startReq : Option (Nat × Bool) := none
  stopReq : StopReq := .none
  /-- The turn in progress would consider its next instruction: the boundary at which a stop acts (R93). -/
  atStop : Bool := false
  /-- A STEP is running; `stepIssued` once its instruction has issued (R106). -/
  stepping : Bool := false
  stepIssued : Bool := false
  /-- A due exception: vector number and return address (R100, R102). -/
  exc : Option (Nat × BitVec 18) := none
  longs : List LongRes := []
  cis : List CisAcc := []
  /-- The buffer bound to each cistern window, by window number (R410). -/
  cwin : Tbl (Option Word) := []
  /-- Personality cut-over: the old and new PC and whether the new one starts stopped (R551). -/
  cutOver : Option (BitVec 18 × BitVec 18) := none
  /-- It fetches from the bank that is not CODE_BANK, having cut over before its bore (R551). -/
  newBank : Bool := false
  deriving DecidableEq, Repr

/-- A reservoir write on its way to landing (R76, R129). -/
structure ResWrite where
  due : Nat
  /-- The writing thread; 128 for the lock unit and for a write of the service port that a held word delays (R209). -/
  x : Nat
  addr : Nat
  n : Nat
  v : Nat
  /-- An atomic access wrote it: a later atomic access reads it before it lands (R209). -/
  atom : Bool
  deriving DecidableEq, Repr

/-- What a turn granted by SELECT is for. -/
inductive TurnUse where
  /-- The thread's next instruction issues. -/
  | issue
  /-- The acceptance turn of an interrupt or exception entry (R102). -/
  | accept
  /-- The first turn after a START or STEP (R92, R106). -/
  | first
  deriving DecidableEq, Repr

/-- A long vector in flight (R240-R249). -/
structure LvOp where
  x : Nat
  pc : Nat
  /-- Page-2 code, 0x21-0x33. -/
  op : Nat
  vl : Nat
  d : Loc
  a : Loc
  b : Loc
  issued : Nat
  due : Nat
  /-- The source elements read so far, in order: (a, b, old d). -/
  elems : List (Nat × Nat × Nat)
  /-- The first mid-vector fault: element, cause, faulting word as a pointer (R246). -/
  fault : Option (Nat × Nat × Nat)
  deriving DecidableEq, Repr

/-- One logical bore: its reservoir, shared bits, code store, wheel and long-vector half. -/
structure LBore where
  res : Tbl Byte := []
  /-- Bore-shared bits 0x1000-0x2FFF. -/
  shared : Tbl Bool := []
  code0 : Tbl Byte := []
  code1 : Tbl Byte := []
  /-- The active code bank. -/
  bank : Bool := false
  wheelLo : Word := 0
  wheelHi : Word := 0
  liveLo : Word := 0
  liveHi : Word := 0
  /-- The stroke at which the last BORE_WHEEL_HI write crossed, while the pair is armed (R71). -/
  wheelArm : Option Nat := none
  donateLast : Nat := 15
  bubbles : Word := 0
  lvOwner : Nat := 0
  lvEn : Bool := false
  lvFaults : Nat := 0
  lv : Option LvOp := none
  /-- The turn that SELECT granted in the stroke in progress, not used yet: slot and use. -/
  turn : Option (Nat × TurnUse) := none
  resPend : List ResWrite := []
  /-- Out of service (R516). -/
  shed : Bool := false
  deriving DecidableEq, Repr

/-- One physical bore: role, the logical bore it carries, and its ECC counts. -/
structure PBore where
  /-- 0 carrying, 1 relief, 2 self-test, 3 receiving a migration, 4 retired (R109). -/
  role : Nat := 0
  lb : Nat := 0
  codeCor : Nat := 0
  codeUnc : Nat := 0
  wellCor : Nat := 0
  wellUnc : Nat := 0
  resCor : Nat := 0
  resUnc : Nat := 0
  bitCor : Nat := 0
  bitUnc : Nat := 0
  /-- Stroke since which the bore has carried, or has been idle as a relief bore (R508). -/
  since : Nat := 0
  readmitted : Nat := 0
  /-- It is to be retired at the end of its drain (R512). -/
  doomed : Bool := false
  /-- Class and failing block of the last RETIRE action on it (R523, Retirement). -/
  cause : Nat := 4
  block : Nat := 0
  deriving DecidableEq, Repr

/-- A change of a global bit on its way: made in stroke `at_`, by a thread of bore `rank`, or by the manifold
(rank 8), R116 and R117.
(DEDUCED, unsafe: log entry 25.) -/
structure GBitWrite where
  at_ : Nat
  rank : Nat
  addr : Nat
  /-- none toggles the bit (BNOT), some v writes it. -/
  v : Option Bool
  deriving DecidableEq, Repr

/-- A port-window or SYSWR write on its way to the register image (R136, R224). -/
structure WinWrite where
  due : Nat
  /-- Logical bore (0-7) for a core write, 8 for the register slave port. -/
  rank : Nat
  /-- The logical thread and the PC of the writing instruction. -/
  x : Nat
  pc : Nat
  off : Nat
  v : Word
  /-- The stroke in which it updated the image, from which its crossing counts; then the stroke in which it reached its
  register (R24, R136). -/
  at_ : Nat := 0
  /-- The cycle in which it reached its register (R137). -/
  cyc : Nat := 0
  deriving DecidableEq, Repr

/-! ### Pace governor (chapter 02).  Times of the core are in picoseconds. -/

/-- The pace governor: programmed and effective pace, excursion, telemetry, voltage request bus. -/
structure GovSt where
  /-- The programmed pace in effect (R39, R40). -/
  pace : Nat := 1600
  /-- The stroke in which the last GOV_PACE write that still waits for its boundary crossed. -/
  paceCross : Option Nat := none
  /-- Length of the stroke in progress. -/
  len : Nat := 1600
  /-- The pace that the slack of the stroke in progress is measured against, and the depth that gave `len` (R50). -/
  slackLen : Nat := 1600
  lenDepth : Nat := 0
  depth : Nat := 0
  /-- DEPTH does not rise again before this stroke (R50). -/
  noRise : Nat := 0
  /-- Strokes in a row that meet R52, and that meet R58. -/
  good : Nat := 0
  downGood : Nat := 0
  /-- Live histogram, minimum slack with its unit, strokes sampled (R45, R46). -/
  hist : Tbl Nat := []
  minPs : Nat := 1275
  minSrc : Nat := 0
  /-- A slack has been measured since the last snapshot. -/
  minAny : Bool := false
  sampled : Nat := 0
  snapHist : Tbl Nat := []
  snapMin : Nat := 1275
  snapSrc : Nat := 0
  snapStrokes : Nat := 0
  /-- The millisecond in progress (R47). -/
  msMin : Nat := 1275
  msSrc : Nat := 0
  msAny : Bool := false
  msLate : Nat := 0
  /-- Timebase time counted at the last report. -/
  msAt : Nat := 0
  /-- The voltage request bus (R54-R60): vreq_code, vreq_req, the code last acknowledged, the target code. -/
  code : Nat := 20
  req : Bool := false
  /-- A transfer is in progress: vreq_req is asserted or vreq_ack has not been seen to fall. -/
  busy : Bool := false
  acked : Nat := 0
  target : Nat := 20
  /-- Elapsed time at which vreq_req rose; none once the timeout has been reported. -/
  reqAt : Option Nat := none
  /-- Timebase time counted at the last acknowledgement. -/
  ackAt : Nat := 0
  holdover : Bool := false
  alarm : Nat := 0
  fresh : Fresh := {}
  excCount : Nat := 0
  lateCount : Nat := 0
  deriving DecidableEq, Repr
/-! ### Pump, cisterns and channels (chapter 12) -/

/-- A cell map entry (R407).  LAST, HEAD, USED and RESV are flags; words 1 to 3 matter in a head entry. -/
structure Cell where
  next : Nat := 0
  last : Bool := false
  head : Bool := false
  used : Bool := false
  resv : Bool := false
  len : Nat := 0
  fcsb : Bool := false
  tofs12 : Bool := false
  tgen : Bool := false
  bad : Bool := false
  refs : Nat := 0
  /-- 0 the pump, 8 + lb a logical bore. -/
  owner : Nat := 0
  bound : Bool := false
  tag : Nat := 0
  link : Nat := 0
  deriving DecidableEq, Repr

/-- A channel entry (R419). -/
structure Chan where
  kind : Nat := 0
  hp : Nat := 0
  lb : Nat := 0
  nq : Nat := 0
  port : Nat := 0
  cls : Nat := 0
  tagsup : Bool := false
  spill : Bool := false
  tofs12 : Bool := false
  /-- STATE as R467 codes it. -/
  state : Nat := 0
  gen : Nat := 0
  ck : Nat := 0
  ckEn : Bool := false
  ring : Nat := 0
  imgRes : Nat := 0
  imgWords : Nat := 0
  imgHost : Nat := 0
  blMax : Nat := 0
  blCount : Nat := 0
  blHead : Nat := 0
  blTail : Nat := 0
  outCount : Nat := 0
  inCount : Nat := 0
  drops : Nat := 0
  tagFaults : Nat := 0
  deriving DecidableEq, Repr

/-- Who submitted a pump move. -/
inductive MoveBy where
  /-- A PUMP of logical thread x on queue q naming done index k. -/
  | thread (x q k : Nat)
  /-- Trigger k of logical bore lb on queue q (R433). -/
  | trigger (lb q k : Nat)
  deriving DecidableEq, Repr

/-- How far a pump move is. -/
inductive MovePhase where
  /-- Submitted, not yet accepted by the pump core (R425). -/
  | submitted
  /-- Accepted by the pump core; its accesses start in the next stroke. -/
  | accepted
  /-- It copies word by word: COPY. -/
  | ready
  /-- An image move that has started and waits for an earlier one of its queue and channel (R425). -/
  | behind
  /-- A TX that waits for its launch time (R431). -/
  | launch
  /-- A TX in a transmit queue or on the transmitter. -/
  | queued
  /-- Host reads or writes are outstanding. -/
  | host
  /-- Its host completion record has not been written yet (R462). -/
  | record
  /-- A TAKE that waits for the refill of a deep buffer (R417). -/
  | refill
  /-- A TO_VALVE or FROM_VALVE that moves words as credits and entries allow. -/
  | valve
  /-- Every access has taken effect; completion is due. -/
  | done
  deriving DecidableEq, Repr

/-- A pump move in its transaction slot (R424-R430). -/
structure Move where
  /-- Transaction slot, 0-511. -/
  slot : Nat
  by_ : MoveBy
  w0 : Nat
  src : Nat
  dst : Nat
  aux : Nat
  /-- Stroke of submission; the pump core accepts it three strokes later, or in a later one (R425). -/
  issued : Nat
  accAt : Nat := 0
  phase : MovePhase := .submitted
  err : Nat := 0
  /-- RESULT of the completion record. -/
  result : Nat := 0
  /-- Bytes moved so far. -/
  moved : Nat := 0
  /-- The channel it names, while INFLIGHT counts it; the buffer's head cell; its deep slot. -/
  ch : Option Nat := none
  head : Option Nat := none
  deep : Option Nat := none
  launch : Option Nat := none
  /-- Ingress time and epoch of ONESTEP. -/
  ingress : Option (Nat × Nat) := none
  /-- Transmit time-stamp and epoch; lost; LATE (R430). -/
  ts : Option (Nat × Nat) := none
  tsLost : Bool := false
  late : Bool := false
  /-- The configuration of its valve direction at the start of a valve move. -/
  cfg : Nat := 0
  /-- The bytes read so far of an IMAGE_IN, a refill or a TO_VALVE from a buffer. -/
  data : List Nat := []
  /-- TGEN and TAG of that buffer when the move's first access fell (R440). -/
  tagAt : Bool × Nat := (false, 0)
  deriving DecidableEq, Repr

/-- One completion, frame or trigger bookkeeping of a logical bore's pump queues. -/
structure PumpLb where
  /-- Records written, CR_HEAD modulo 512, and CR_LOST (R432); CR_TAIL is the first modulo 512. -/
  crTail : Nat := 0
  crHead : Nat := 0
  crLost : Nat := 0
  deriving DecidableEq, Repr

/-- A spill whose writes are outstanding (R416). -/
structure Spill where
  slot : Nat
  ch : Nat
  head : Nat
  deep : Nat
  err : Bool := false
  deriving DecidableEq, Repr

/-- The pump core, the cistern, the deep cistern and the channel table. -/
structure PumpSt where
  /-- Cistern bytes: cell times 256 plus the byte in the cell. -/
  cis : Tbl Byte := []
  cells : Tbl Cell := []
  /-- Cells returned in this stroke: allocatable from the next (R412). -/
  returned : List Nat := []
  /-- Cells never allocated again until a block reset (R442). -/
  poisoned : List Nat := []
  /-- Lowest FREE since reset. -/
  low : Nat := 32768
  chans : Tbl Chan := []
  /-- Where the next search of partition p starts (R420). -/
  chNext : Tbl Nat := []
  moves : List Move := []
  /-- Largest number of transaction slots in use since reset. -/
  high : Nat := 0
  lbs : Tbl PumpLb := []
  /-- RX_TAIL, RX_HEAD and DROPS of a port's frame ring (R435). -/
  rxTail : Tbl Nat := []
  rxHead : Tbl Nat := []
  rxDrops : Tbl Nat := []
  /-- The reserved head cell of a port (R413). -/
  rxResv : Tbl Nat := []
  alarm : Nat := 0
  fresh : Fresh := {}
  tagFaults : Nat := 0
  stale : Nat := 0
  badHandle : Nat := 0
  spilling : Bool := false
  /-- The channel index that the next spill visit starts from. -/
  spillNext : Nat := 0
  dcBuilding : Bool := false
  dcReady : Bool := false
  dcFull : Bool := false
  /-- The deep slot stack (R415): slots returned, top first, above the slots never popped, from `dcNext` up. -/
  dcStack : List Nat := []
  dcNext : Nat := 0
  /-- Header images of the deep slots in use (R414). -/
  dcHdr : Tbl Cell := []
  spill : Option Spill := none
  deriving DecidableEq, Repr

/-! ### Lock unit (chapter 14) -/

/-- The states of a lease entry (R482). -/
inductive LeaseState where
  | free | live | expired | abandoned
  deriving DecidableEq, Repr

/-- A lease entry: the word it names, its owner and the value last written into the word. -/
structure Lease where
  /-- 1 reservoir, 2 cistern. -/
  space : Nat := 0
  lb : Nat := 0
  addr : Nat := 0
  owner : Nat := 0
  value : Nat := 0
  /-- Elapsed TCLK time at which it expires, in units of 2^-26 ns; and the lease in microseconds. -/
  expires : Nat := 0
  st : LeaseState := .free
  /-- Stroke by which the word must be rewritten once expired or abandoned. -/
  rewriteBy : Nat := 0
  deriving DecidableEq, Repr

/-- A group lock (R485, LK_GSTATE). -/
structure GLock where
  owner : Nat := 0
  held : Bool := false
  exp : Bool := false
  abd : Bool := false
  /-- Expiry in elapsed TCLK time; none for the wellhead. -/
  expires : Option Nat := none
  st : LeaseState := .free
  deriving DecidableEq, Repr

/-- The lock unit. -/
structure LockSt where
  leases : Tbl Lease := []
  groups : Tbl GLock := []
  alarm : Nat := 0
  fresh : Fresh := {}
  /-- VALID of LK_MISUSE as the hardware set it (R11). -/
  freshMisuse : Fresh := {}
  high : Nat := 0
  expiries : Nat := 0
  abandons : Nat := 0
  misuse : Word := 0
  deriving DecidableEq, Repr

/-! ### Timebase, schedule, cycle keeper, PPS (chapter 10).  Times are Nat or Int in units of 2^-48 ns. -/

/-- A request written to TB_ADJ_CTL and not yet at TCLK (R345). -/
inductive AdjReq where
  | step (delta : Int)
  | set (time : Nat)
  | slew (delta : Int)
  deriving DecidableEq, Repr

/-- A schedule entry (R362-R368): allocated and on its way to TCLK, or pending there. -/
structure SchedEntry where
  time : Nat
  epoch : Nat
  act : Word
  lb : Nat
  /-- It has reached TCLK (R364). -/
  arrived : Bool
  rebased : Bool
  skipped : Bool
  staleEpoch : Bool
  late : Bool
  /-- Lateness in ns, once the edge that measures it has come (R364, R366). -/
  lateBy : Option Nat
  /-- The TCLK edge at which it became due. -/
  dueEdge : Option Nat
  /-- Its removal by UNSCHED is on its way to TCLK: the stroke that the crossing takes, and the TCLK edges since (R222). -/
  cancel : Option (Nat × Nat)
  deriving DecidableEq, Repr

/-- The report ring of a logical bore (R365). -/
structure RepRing where
  tail : Nat := 0
  head : Nat := 0
  lost : Nat := 0
  recs : Tbl (Word × Word) := []
  deriving DecidableEq, Repr

/-- A cycle-keeper slot (R369-R374); EN, CATCHUP, PHASE_LIMIT and PERIOD stand in the register image. -/
structure CkSlot where
  /-- BASE; CK_BASE shows it modulo 2^64 s. -/
  base : Int := 0
  busy : Bool := false
  catching : Bool := false
  phaseLost : Bool := false
  doneErr : Bool := false
  cfgErr : Bool := false
  /-- Bits 8 to 10 of CK_STATUS as the hardware has set them (R11). -/
  fresh : Fresh := {}
  missed : Nat := 0
  lag : Nat := 0
  count : Nat := 0
  /-- Due time and grid index of the next start. -/
  next : Option (Int × Int) := none
  /-- The next start was realigned: its lag is 0 (R371). -/
  realigned : Bool := false
  /-- The moment at which the work of the last cycle ended. -/
  workEnd : Int := 0
  /-- The TCLK edge at which the last CK_DONE write reached TCLK. -/
  doneEdge : Nat := 0
  deriving DecidableEq, Repr

/-- The host snapshot set of a partition (R351). -/
structure HSnap where
  req : Bool := false
  /-- The TCLK edge whose time has been captured and has not crossed into the core yet. -/
  await : Option Nat := none
  valid : Bool := false
  time : Nat := 0
  epoch : Nat := 0
  strokes : Nat := 0
  deriving DecidableEq, Repr

/-- The transmit time-stamp queue of a port (R360, R361). -/
structure Tsq where
  seq : Nat := 0
  lost : Nat := 0
  /-- Sequence number and time value of each entry held. -/
  entries : List (Nat × Nat) := []
  deriving DecidableEq, Repr

/-- The interpolator of a port group (R354-R356). -/
structure GCal where
  valid : Bool := false
  stall : Bool := false
  captures : Nat := 0
  /-- Captures counted per tap towards the next table. -/
  counts : Tbl Nat := []
  /-- Counts of the table in force, per tap; empty for the nominal widths. -/
  table : List Nat := []
  deriving DecidableEq, Repr

/-- A value of the time on its way into the core: the stroke in which it arrives, and its TCLK edge (R24, R350). -/
structure TimeCross where
  due : Nat
  time : Nat
  epoch : Nat
  edge : Nat
  deriving DecidableEq, Repr

/-- The group copy of the master time (R359), and the elapsed time since its last GCLKg edge in units of 2^-26 ns.
(DESIGN CHOICE, unsafe: log entry 99.) -/
structure GCopy where
  time : Nat := 0
  phase : Int := 0
  deriving DecidableEq, Repr

/-- The timebase unit. -/
structure TimeSt where
  now : Nat := 0
  epoch : Nat := 0
  /-- TCLK edges since the TCLK domain left reset. -/
  edges : Nat := 0
  /-- Elapsed TCLK time in units of 2^-26 ns, which no step or rate write changes (R488). -/
  elapsed : Nat := 0
  /-- Timebase time counted since reset: what the counter has advanced by, rate and slew included and steps apart. -/
  counted : Nat := 0
  adj : Int := 0
  /-- The rate that a TB_RATE_HI write has armed (R343). -/
  rateArm : Option Int := none
  req : Option AdjReq := none
  slewing : Bool := false
  slw : Int := 0
  remain : Int := 0
  /-- Step log: step and epoch of entry k (R349). -/
  log : Tbl (Int × Nat) := []
  alarm : Nat := 0
  fresh : Fresh := {}
  /-- The image of the time that the core holds: the last value that crossed (R350). -/
  coreTime : Nat := 0
  coreEpoch : Nat := 0
  timeX : List TimeCross := []
  snaps : Tbl HSnap := []
  sched : Tbl SchedEntry := []
  schedHigh : Nat := 0
  /-- Entries fired at the edge in progress (R363). -/
  fired : Nat := 0
  reps : Tbl RepRing := []
  cks : Tbl CkSlot := []
  tsqs : Tbl Tsq := []
  gcals : Tbl GCal := []
  gcopies : Tbl GCopy := []
  ppsIn : Bool := false
  ppsOut : Bool := false
  /-- NS has reached PPS_OFFSET by counting and the rise is due (R376). -/
  ppsPoint : Bool := false
  /-- Elapsed width of the pulse in progress, in units of 2^-48 ns. -/
  ppsAge : Nat := 0
  ppsInTime : Nat := 0
  ppsInEpoch : Nat := 0
  ppsInCount : Word := 0
  /-- Timebase time counted from the last accepted pps_in edge to the last TCLK edge; none before the first. -/
  ppsSince : Option Int := none
  deriving DecidableEq, Repr

/-! ### Manifold (chapter 11) -/

/-- An event or a change of level of a source on its way into the manifold core (R380, R394). -/
structure SrcEvent where
  src : Nat
  /-- An event is raised; false for a bare change of the source's level. -/
  ev : Bool
  /-- For an edge source: rising (true) or falling. -/
  rising : Bool
  level : Bool
  /-- The first stroke in which it can enter. -/
  from_ : Nat
  deriving DecidableEq, Repr

/-- An entry of a crossing between the core and a clock domain: the stroke in which it was presented, and for a crossing
into TCLK the TCLK edges that had come when that stroke ended (R24). -/
structure Cross (α : Type) where
  val : α
  at_ : Nat
  edge : Nat := 0
  deriving DecidableEq, Repr

/-- A pulse on its way along a route (R394). -/
structure Pulse where
  input : Nat
  src : Nat
  due : Nat
  deriving DecidableEq, Repr

/-- A level value on its way along a level route (R393). -/
structure LevelMove where
  route : Nat
  v : Bool
  due : Nat
  deriving DecidableEq, Repr

/-- The state of a consumer input (MF_IN_STAT). -/
structure InStat where
  count : Nat := 0
  coincident : Bool := false
  ovr : Bool := false
  storm : Bool := false
  level : Bool := false
  dropped : Nat := 0
  /-- Deliveries in the storm window in progress (R398). -/
  inWindow : Nat := 0
  /-- The stroke of the last delivery to it. -/
  last : Option Nat := none
  fresh : Fresh := {}
  deriving DecidableEq, Repr

/-- A time capture (R387). -/
structure Capture where
  time : Nat := 0
  epoch : Nat := 0
  valid : Bool := false
  fresh : Fresh := {}
  deriving DecidableEq, Repr

/-- The manifold. -/
structure ManifoldSt where
  /-- Routes and gates in effect, and the gates written and held (R389). -/
  routes : Tbl Word := []
  gates : Tbl Word := []
  gatesHeld : Tbl Word := []
  entryQ : List SrcEvent := []
  /-- Core-side levels of the sources that hold one. -/
  levels : Tbl Bool := []
  /-- Sources whose event entered in the stroke in progress: their level is 1 in it. -/
  pulsesNow : List Nat := []
  /-- The events that entered in the stroke in progress: they are routed with its gate terms (R392). -/
  entered : List SrcEvent := []
  pulses : List Pulse := []
  moves : List LevelMove := []
  /-- The value last sampled at the head of each level route, and the value it contributes at its input. -/
  carry : Tbl Bool := []
  contrib : Tbl Bool := []
  ins : Tbl InStat := []
  window : Nat := 0
  caps : Tbl Capture := []
  /-- Deliveries crossing out: valve triggers, TSCAP events, EXTOUT pulses and levels, TXHOLD levels (R394). -/
  trigX : List (Cross (Nat × Nat)) := []
  /-- Pump triggers that a pulse has reached and that the pump has not taken, as 8 lb + k (R433). -/
  ptrgX : List Nat := []
  capX : List (Cross Nat) := []
  extX : List (Cross Nat) := []
  levX : List (Cross (Nat × Bool)) := []
  holdX : List (Cross (Nat × Bool)) := []
  txhold : Tbl Bool := []
  /-- The levels of the EXTOUT inputs as they have crossed into TCLK (R388). -/
  extLevel : Tbl Bool := []
  /-- TCLK edge at which each running stretcher ends. -/
  stretch : Tbl Nat := []
  extIn : Tbl Bool := []
  alarm : Nat := 0
  fresh : Fresh := {}
  routeErr : Nat := 0
  /-- VALID of MF_ROUTE_ERR as the hardware set it (R11). -/
  freshErr : Fresh := {}
  sigLast : Nat := 0
  stale : Bool := true
  lastMatch : Bool := false
  stalePasses : Nat := 0
  passes : Nat := 0
  /-- The pass in progress: the stroke in which it began, the words read, the CRC so far; and the result and the beginning
  of a pass that has ended and is not stored yet (R400). -/
  passStart : Nat := 0
  sigPos : Nat := 0
  sigCrc : Nat := 0xFFFFFFFF
  sigDone : Option (Nat × Nat) := none
  goldenAt : Nat := 0
  deriving DecidableEq, Repr


/-! ### Valves and pins (chapter 08) -/

/-- A program swap request (R283): MODE, ENTRY and CLEAR. -/
structure SwapReq where
  mode : Nat
  entry : Nat
  clear : Bool
  deriving DecidableEq, Repr

/-- A valve (R257).  VALVE_CTRL, VALVE_SHAPE, VALVE_QCFG, VALVE_KRLD, VALVE_MMASK and VALVE_CLKDIV stand in the
register image. -/
structure ValveSt where
  run : Bool := false
  pc : Nat := 0
  txw : Word := 0
  txn : Nat := 0
  rxw : Word := 0
  rxn : Nat := 0
  k0 : Nat := 0
  k1 : Nat := 0
  cmpw : Word := 0
  lastTake : Word := 0
  trig0 : Bool := false
  trig1 : Bool := false
  ovr0 : Bool := false
  ovr1 : Bool := false
  bank : Bool := false
  prog0 : Tbl Word := []
  prog1 : Tbl Word := []
  /-- The instruction at PC has had its first valve cycle and stalls. -/
  stalled : Bool := false
  /-- The input that an AWAIT EDGE saw in its first cycle. -/
  edge0 : Bool := false
  /-- DWELL of the last instruction, while the next has not started. -/
  dwell : Nat := 0
  /-- The last instruction was a MARK with SAFE at 1. -/
  safe : Bool := false
  /-- A valve cycle has passed since the swap request arrived. -/
  cycled : Bool := false
  swap : Option SwapReq := none
  /-- The divider in effect (R256). -/
  div : Nat := 1
  partialW : Bool := false
  illop : Bool := false
  stale : Bool := false
  overwrite : Bool := false
  cfgErr : Bool := false
  /-- The bits of VALVE_STATUS, and as bit 0 CFG_ERR, that the hardware has set (R11). -/
  fresh : Fresh := {}
  /-- Counts of VALVE_QERR, saturating at 255. -/
  nOverflow : Nat := 0
  nUnderrun : Nat := 0
  nStale : Nat := 0
  nOverwrite : Nat := 0
  /-- Put credits of the core, and credits on their way back, by the stroke in which each started (R220). -/
  credit : Nat := 4
  creditBack : List Nat := []
  /-- TX entries crossing into GCLK and ready for TAKE; RX entries crossing into the core, each with the mark of a
  replacement (R264), and there; oldest first. -/
  txCross : List (Cross Word) := []
  txReady : List Word := []
  rxCross : List (Cross (Word × Bool)) := []
  rxReady : List Word := []
  deriving DecidableEq, Repr

/-- One GCLK cycle of a port's flags (R267): the cycle, the last valve of the port that has acted on them in it, the flags
as the cycle found them, and what its valves clear and set.
(DESIGN CHOICE, unsafe: log entry 87.) -/
structure FlagCyc where
  at_ : Nat := 0
  last : Nat := 4
  start : Nat := 0
  clr : Nat := 0
  set : Nat := 0
  deriving DecidableEq, Repr

/-- A pin of a port with its conditioning chain (R275-R280). -/
structure PinSt where
  /-- Level at the pad, after the synchroniser. -/
  raw : Bool := false
  out : Bool := false
  oe : Bool := false
  filt : Bool := false
  fcnt : Nat := 0
  cond : Bool := false
  frozen : Bool := false
  chatCount : Nat := 0
  chatSamples : Nat := 0
  stuckCnt : Nat := 0
  /-- The detection of this active run has been made. -/
  stuckFired : Bool := false
  forced : Bool := false
  chatter : Bool := false
  stuck : Bool := false
  /-- CHATTER (1) and STUCK (2) as the hardware has set them (R11). -/
  fresh : Fresh := {}
  /-- Restarts that act at the next sample: of the limiter, of the stuck count, of a PIN_COND write. -/
  rearm : Bool := false
  stuckClr : Bool := false
  condWrite : Bool := false
  deriving DecidableEq, Repr

/-- What a paired thread lets out (R506); the first address or number, then the data. -/
inductive Out where
  | win (off : Nat) (v : Word)
  | syswr (off : Nat) (v : Word)
  | gbit (a : Nat) (v : Option Bool)
  | qput (v : Nat) (w : Word)
  | post (src : Nat)
  | pump (q k w0 src dst aux : Nat)
  | sched (time act : Nat)
  | unsched (e : Nat)
  | lockw (addr : Nat)
  | unlkw (addr : Nat)
  | lockg (n : Nat)
  | unlkg (n : Nat)
  deriving DecidableEq, Repr

/-- What the leader of a pair did at one turn: the outside values it read and the outputs held (R505, R506).
(DEDUCED, unsafe: log entry 37.) -/
structure PairRec where
  stroke : Nat
  pc : Nat
  vals : List Nat
  outs : List Out
  deriving DecidableEq, Repr

/-- A write into the leader on its way to the trailer (R505). -/
structure PairWrite where
  due : Nat
  loc : Loc
  n : Nat
  v : Nat
  deriving DecidableEq, Repr

/-- A pair of threads (R504-R507); LEAD, TRAIL and EN stand in the register image. -/
structure PairSt where
  running : Bool := false
  mismatch : Bool := false
  cfgErr : Bool := false
  /-- Bits 1 and 2 of WH_PAIR_STAT as the hardware has set them (R11). -/
  fresh : Fresh := {}
  /-- The kind of a disagreement that has been found and not yet acted on (R507). -/
  diff : Option Nat := none
  /-- The stroke at which the trailer is to start. -/
  trailAt : Option Nat := none
  recs : List PairRec := []
  writes : List PairWrite := []
  deriving DecidableEq, Repr

/-! ### Ports (chapter 09) -/

/-- A frame that waits in a transmit class queue (R309). -/
inductive TxItem where
  /-- A local frame: the move in this transaction slot. -/
  | move (slot : Nat)
  /-- A deferred pass-through frame (R323): head cell, ingress port, ingress time value, event message. -/
  | deferred (head from_ ts : Nat) (ptp : Bool)
  deriving DecidableEq, Repr

/-- The frame on the transmitter. -/
structure TxCur where
  item : TxItem
  /-- The frame as it leaves, with FCS; a tag check on it failed or it was BAD, so that its completion carries TAGERR. -/
  bytes : List Nat
  bad : Bool
  /-- Completion code of its move, and its time-stamp. -/
  err : Nat
  ts : Option (Nat × Nat)
  tsLost : Bool
  /-- Sequence number of its time-stamp (R360). -/
  seq : Nat
  deriving DecidableEq, Repr

/-- A frame-end record on its way to the pump core (R301, R434). -/
structure FrameEnd where
  head : Nat
  status : Nat
  ts : Nat
  epoch : Nat
  tag : Nat
  /-- It goes to the frame ring; otherwise to the sump (R305). -/
  deliver : Bool
  /-- The forwarding that waits for this record (R323). -/
  defer : Bool
  /-- The stroke in which the frame ended and the record was presented; none while the frame is received (R24, R29). -/
  at_ : Option Nat := none
  /-- The forwarding was held back by a gate (R312) or by PAUSE (R307). -/
  guarded : Bool := false
  paused : Bool := false
  deriving DecidableEq, Repr

/-- An entry of a duplicate table (R326).
(DEDUCED, unsafe: log entry 56.) -/
structure DupEntry where
  key : Nat
  dupFwd : Bool
  pending : Bool
  /-- Elapsed time at which it was made. -/
  made : Nat
  deriving DecidableEq, Repr

/-- A port: MAC, schedule and counters.  Its enable state stands in the host structure, its configuration in the
register image. -/
structure PortSt where
  /-- Quanta of the pause timer, and the elapsed time at which the one in progress began (R307). -/
  pause : Nat := 0
  pauseAt : Nat := 0
  /-- The quanta that the PAUSE frame being received loads at its end (R306). -/
  pauseX : Option Nat := none
  /-- Elapsed time at which the frame being received ends, and its level at the source FS (R380). -/
  rxTill : Nat := 0
  rxOn : Bool := false
  /-- Elapsed time until which a pass-through frame is on the bypass (R340), at which the last frame on the transmitter
  ends (R298), and until which no local frame starts for a partner frame (R324). -/
  cutTill : Nat := 0
  txTill : Option Nat := none
  holdTill : Nat := 0
  /-- Class queues, oldest frame first; deferred pass-through frames stand before local ones. -/
  queues : Tbl (List TxItem) := []
  tx : Option TxCur := none
  /-- Bytes last driven on the lane from byte 0 to the FCS, whether they were poisoned (R321), and the single nibble that
  a cut at a nibble rate leaves before the FCS (R318). -/
  wire : List Nat := []
  wirePoison : Bool := false
  wireHalf : Option Nat := none
  ends : List FrameEnd := []
  dup : List DupEntry := []
  /-- The key that this port's last frame decided on (R330). -/
  lastKey : Option Nat := none
  /-- Frames held at least once by a gate (R312) or by PAUSE (R307), so that each counts once. -/
  guarded : List TxItem := []
  paused : List TxItem := []
  /-- The exact entries in effect (R340): word 0 and word 1 together. -/
  exact : Tbl Nat := []
  /-- The run in force (R311): EN, START, LEN, entry in force and its word. -/
  gateEn : Bool := false
  gateStart : Nat := 0
  gateLen : Nat := 1
  gateIdx : Nat := 0
  /-- The cycle in which the entry in force began. -/
  gateCyc : Nat := 0
  gateWord : Option Word := none
  /-- The words of the run in force as each took effect (R313). -/
  gateWords : List Nat := []
  /-- Elapsed time at which a held PORT_GATE_CTRL write reached GCLK (R313). -/
  gateHeld : Option Nat := none
  cnt : Tbl Nat := []
  cfgErr : Bool := false
  rxOverrun : Bool := false
  /-- The bits of PORT_ERR that the hardware has set (R11). -/
  fresh : Fresh := {}
  deriving DecidableEq, Repr

/-! ### Host rings and master ports (chapters 13 and 17) -/

/-- Who issued a master port command, and what its response serves. -/
inductive MOwner where
  | poll (p : Nat)
  /-- A fetch of `n` submissions of ring pair r from index `first`, in the ring's generation. -/
  | fetch (r first n gen : Nat)
  /-- Data of the move in a transaction slot: byte offset of the piece. -/
  | move (slot off : Nat)
  /-- Deep cistern data of the move in a transaction slot: the slot bytes, or the header image at 0x3FC0. -/
  | deep (slot off : Nat)
  /-- The write of a completion record. -/
  | record (id : Nat)
  /-- Image bytes of a PERS_LOAD. -/
  | load (off : Nat)
  deriving DecidableEq, Repr

/-- A command of a master port (R561-R568): port 0 host, 1 cistern.
(DESIGN CHOICE, safe: log entry 79.) -/
structure MCmd where
  port : Nat
  /-- The identifier, once the command has been issued; before, the slot of a cistern command. -/
  id : Nat
  issued : Bool
  write : Bool
  addr : Nat
  /-- Bytes the block wants or writes. -/
  bytes : Nat
  data : List Nat
  part : Nat
  owner : MOwner
  /-- Elapsed time of its transfer, and whether R570 has reported it. -/
  at_ : Nat
  warned : Bool
  deriving DecidableEq, Repr

/-- A submission that has been accepted and not yet acted on (R455). -/
structure Sub where
  r : Nat
  idx : Nat
  words : List Nat
  deriving DecidableEq, Repr

/-- A held RX_POST (R459). -/
structure Post where
  r : Nat
  idx : Nat
  ch : Nat
  addr : Nat
  len : Nat
  irq : Bool
  deriving DecidableEq, Repr

/-- What a move of a ring engine is (R458, R459, R462). -/
inductive HKind where
  /-- A SEND: reads the host, then the channel takes the buffer. -/
  | send
  /-- A buffer written into a post. -/
  | rx
  deriving DecidableEq, Repr

/-- How far a move of a ring engine is. -/
inductive HPhase where
  /-- The bytes of a SEND are being read from the host. -/
  | reading
  /-- A deep buffer is being read (R417). -/
  | deep
  /-- A frame waits for its launch time. -/
  | launch
  /-- A frame is in a transmit queue or on the transmitter. -/
  | queued
  /-- A buffer is being written into a post. -/
  | writing
  /-- Its completion record has not been written yet (R462). -/
  | record
  deriving DecidableEq, Repr

/-- A move of a ring engine, in its transaction slot (R458, R459, R462). -/
structure HMove where
  slot : Nat
  kind : HKind
  r : Nat
  idx : Nat
  irq : Bool
  ch : Nat
  /-- Bytes of a SEND, or of the post. -/
  len : Nat
  tag : Nat
  addr : Nat
  tsreq : Bool := false
  launch : Option Nat := none
  late : Bool := false
  head : Option Nat := none
  deep : Option Nat := none
  phase : HPhase
  /-- Bytes of a deep buffer as they arrive. -/
  data : List Nat := []
  /-- ERR of its record, and TAGERR. -/
  err : Nat := 0
  tagErr : Bool := false
  /-- The ring's generation at its acceptance: its record is discarded once EN has been cleared (R475). -/
  gen : Nat := 0
  deriving DecidableEq, Repr

/-- What an accepted command waits for (R466, R472). -/
inductive HHeld where
  /-- Not taken by the command processor yet. -/
  | fresh
  | enable (port : Bool) (n : Nat)
  | disable (port : Bool) (n : Nat)
  | load
  | swap
  | nop
  deriving DecidableEq, Repr

/-- A command that has been accepted and has not completed (R466). -/
structure HCmd where
  id : Nat
  r : Nat
  idx : Nat
  words : List Nat
  held : HHeld
  /-- RESULT that the completion will carry. -/
  result : Nat := 0
  gen : Nat := 0
  deriving DecidableEq, Repr

/-- A completion record that waits for room or for its write to be acknowledged (R460-R463). -/
structure HRec where
  id : Nat
  r : Nat
  /-- Words 0 to 3; word 0 without PHASE. -/
  w0 : Nat
  w1 : Nat
  w2 : Nat
  w3 : Nat
  irq : Bool
  /-- The move that its write completes. -/
  slot : Option Nat
  /-- The record whose write response it awaits (R472). -/
  after : Option Nat
  /-- The port (true) or channel that it concerns: such records are written one after the other (R472). -/
  obj : Option (Bool × Nat) := none
  /-- It has found no room (R462). -/
  waited : Bool := false
  sent : Bool := false
  deriving DecidableEq, Repr

/-- A host partition's engine. -/
structure HPart where
  pollAt : Nat := 0
  polling : Bool := false
  hint : Bool := false
  pollErr : Bool := false
  /-- Bit 0 of HP_ERR as the hardware has set it (R11). -/
  fresh : Fresh := {}
  pollErrs : Nat := 0
  resetBusy : Bool := false
  /-- The data ring that the round robin serves next (R455). -/
  next : Nat := 1
  deriving DecidableEq, Repr

/-- A ring pair. -/
structure HRing where
  /-- How often EN has gone from 0 to 1. -/
  gen : Nat := 0
  sqHead : Nat := 0
  /-- Completions written since EN went to 1: CQ_TAIL is this modulo the size, and PHASE follows. -/
  cqCount : Nat := 0
  /-- SQ_TAIL and CQ_HEAD of the last good poll. -/
  sqTail : Nat := 0
  cqHead : Nat := 0
  fetching : Bool := false
  halted : Bool := false
  descHost : Bool := false
  cfgErr : Bool := false
  /-- The bits of HR_ERR that the hardware has set (R11). -/
  fresh : Fresh := {}
  /-- Records counted towards the next interrupt, and elapsed time of the oldest. -/
  coCount : Nat := 0
  coSince : Nat := 0
  /-- S of R464 while the interrupt is pending. -/
  irqAt : Option Nat := none
  deriving DecidableEq, Repr

/-- The host side of the block. -/
structure HostSt where
  parts : Tbl HPart := []
  rings : Tbl HRing := []
  subs : List Sub := []
  posts : List Post := []
  moves : List HMove := []
  cmds : List HCmd := []
  recs : List HRec := []
  nextId : Nat := 0
  /-- PSTATE of each port (R469), and elapsed time of the ENABLE of a port in ENABLING. -/
  pstate : Tbl Nat := []
  penAt : Tbl Nat := []
  alarm : Nat := 0
  fresh : Fresh := {}
  mcmds : List MCmd := []
  /-- The next identifier of the host master port (R568). -/
  nextHm : Nat := 0
  /-- The command processor (R466): the partition at which its round robin goes on, and the elapsed time of its last
  command. -/
  cpNext : Nat := 0
  cpAt : Option Nat := none
  /-- The last answer of the register slave port: r_err of a write. -/
  rsErr : Nat := 0
  deriving DecidableEq, Repr

/-! ### Wellhead, relief rotation, well log (chapter 15) -/

/-- A log record (R522) before its CHECK word is formed. -/
structure LogRec where
  ev : Ev
  inc : Bool
  seq : Nat
  ns : Nat
  sec : Nat
  epoch : Nat
  strokes : Nat
  deriving DecidableEq, Repr

/-- The monitor of an input clock (R499). -/
structure ClkMon where
  bad : Nat := 0
  good : Nat := 0
  lost : Bool := false
  deriving DecidableEq, Repr

/-- How far a migration is (R508, R510). -/
inductive MigPhase where
  | mirror
  /-- The mirror is complete; the cut-over stroke. -/
  | frontEnd (c : Nat)
  | drain (c : Nat)
  deriving DecidableEq, Repr

/-- A migration of a logical bore. -/
structure Migr where
  victim : Nat
  target : Nat
  lb : Nat
  phase : MigPhase
  emergency : Bool
  /-- A fault in the target after the cut-over moves the logical bore again (R512). -/
  again : Bool
  /-- Stroke at which the mirror began (R509). -/
  begun : Nat
  deriving DecidableEq, Repr

/-- Relief rotation (R508-R518). -/
structure RotSt where
  mig : Option Migr := none
  /-- The bore in self-test, and elapsed time of its start; self-tests still to run of a readmission. -/
  testing : Option (Nat × Nat) := none
  retest : Option (Nat × Nat) := none
  lastAt : Nat := 0
  steps : Nat := 0
  victim : Nat := 0
  target : Nat := 0
  /-- Victims that go ahead of the order of R508 (R507), and bores that wait for an emergency migration. -/
  ahead : List Nat := []
  emergencies : List Nat := []
  /-- Rotation runs; where it stops, R518 applies. -/
  running : Bool := false
  deriving DecidableEq, Repr

/-- An incident slot (R524-R526); RETAIN stands in the register image. -/
structure Incident where
  written : Nat := 0
  used : Bool := false
  tailwrap : Bool := false
  endedAt : Nat := 0
  deriving DecidableEq, Repr

/-- The wellhead and the well log writer: reset by rst_aon_n only (R535). -/
structure WhSt where
  alarm : Nat := 0
  fresh : Fresh := {}
  fault : Bool := true
  faultFirst : Nat := 0
  faultCount : Nat := 0
  /-- The assertion was caused by class 15 (R503). -/
  byHalves : Bool := false
  /-- Elapsed time of the first key of a clear sequence, and of the last event with FAULT at 1. -/
  key : Option Nat := none
  lastFault : Option Nat := none
  halvesOk : Bool := true
  clks : Tbl ClkMon := []
  /-- Intakes by unit, oldest first (R520). -/
  intake : Tbl (List Ev) := []
  seq : Nat := 0
  staging : List LogRec := []
  /-- Alarm counts not yet flushed, and drops of each producer with the first dropped SEQ (R529, R530). -/
  coalesce : Tbl Nat := []
  gaps : Tbl (Nat × Nat) := []
  almCnt : Tbl Nat := []
  logDrops : Nat := 0
  traceDrops : Nat := 0
  /-- Logical records of the well log region, by logical record number (R524). -/
  records : Tbl LogRec := []
  ringNext : Nat := 0
  incidents : Tbl Incident := []
  open_ : Option Nat := none
  /-- Elapsed time of the last record of a class with INC at 1. -/
  lastInc : Nat := 0
  /-- Record writes since the last gap move, and the line of the gap (R527). -/
  writes : Nat := 0
  gap : Nat := 49151
  /-- The record that WH_LOG_SEL selected, and what WH_LOG_DATA holds. -/
  reading : Bool := false
  ready : Bool := false
  data : Option LogRec := none
  rot : RotSt := {}
  pairs : Tbl PairSt := []
  deriving DecidableEq, Repr

/-- The debug unit and the TAP controller (R576-R578). -/
structure DbgSt where
  trace : List LogRec := []
  dropped : Nat := 0
  data : Option LogRec := none
  /-- The TAP is outside Test-Logic-Reset; the current instruction, 5 bits. -/
  active : Bool := false
  ir : Nat := 1
  testMode : Bool := false
  /-- The register that IDCODE selects: its value once the instruction is taken, 0 while another one is selected (R576).
  It holds 0 at reset, before any TRST_N edge (DESIGN CHOICE, log entry 119). -/
  dr : Word := 0
  deriving DecidableEq, Repr

/-! ### MRAM, priming and personality swap (chapter 16) -/

/-- A live personality swap (R550-R552). -/
structure SwapSt where
  image : Nat
  /-- The command that asked for it, and its timeout. -/
  cmd : Nat
  timeoutMs : Nat
  /-- Elapsed time of the arming; none before it. -/
  armed : Option Nat
  /-- The timeout has expired; threads cut over by it. -/
  expired : Bool
  timedOut : Nat
  deriving DecidableEq, Repr

/-- A PERS_LOAD in progress (R549). -/
structure LoadSt where
  image : Nat
  cmd : Nat
  len : Nat
  addr : Nat
  /-- Bytes received so far, and an error response. -/
  got : Nat
  bad : Bool
  deriving DecidableEq, Repr

/-- The MRAM unit and the priming sequence. -/
structure MramSt where
  /-- MRAM bytes; the well log region is held in record form by the wellhead. -/
  mem : Tbl Byte := []
  /-- Staging copy of the platform record. -/
  stage : Tbl Byte := []
  /-- The platform record in force: copy number, where one was valid. -/
  copy : Option Nat := none
  primed : Bool := false
  recovery : Bool := false
  image : Nat := 0
  fallback : Bool := false
  unauth : Bool := false
  /-- Last step of R544 reached. -/
  step : Nat := 0
  failA : Nat := 0
  failB : Nat := 0
  /-- Elapsed time at which the core left reset, and MR_PRIME_TIME. -/
  resetAt : Nat := 0
  primeUs : Nat := 0
  /-- NCLK and TCLK have each shown 64 edges in one window (R544, step 1). -/
  clocksSeen : Bool := false
  /-- Elapsed time of the last class-7 event of R547. -/
  missAt : Nat := 0
  /-- Images marked invalid by a failed PERS_LOAD (R549). -/
  badA : Bool := false
  badB : Bool := false
  /-- A PERS_SWAP in RECOVERY reruns priming: its command and image (R547). -/
  rerun : Option (Nat × Nat) := none
  swap : Option SwapSt := none
  load : Option LoadSt := none
  deriving DecidableEq, Repr
/-- The units of the clock domains as the core knows them: what the image of a register shows has crossed (R24, R135). -/
structure Shown where
  regs : Tbl Word := []
  valves : Tbl ValveSt := []
  pins : Tbl PinSt := []
  flags : Tbl Nat := []
  ports : Tbl PortSt := []
  tb : TimeSt := {}
  host : HostSt := {}
  wh : WhSt := {}
  dbg : DbgSt := {}
  mram : MramSt := {}
  deriving DecidableEq, Repr

/-- The whole block. -/
structure State where
  /-- The commands that wait, first in, first out. -/
  pending : List Instr := []
  /-- Gate openings since the core left reset; TB_STROKES shows it modulo 2^64. -/
  strokes : Nat := 0
  /-- The first gate opening, which has stroke count 0, has come (R536). -/
  opened : Bool := false
  /-- How far the stroke in progress has come in the order of R491: one above the last logical bore that has used its turn,
  9 + p after a lock command of host partition p, 17 after a lock operation of the wellhead. -/
  rank : Nat := 0
  threads : Tbl Thread := []
  lbs : Tbl LBore := []
  pbs : Tbl PBore := []
  /-- Global bit space 0x3000-0x3FFF. -/
  gbits : Tbl Bool := []
  gpend : List GBitWrite := []
  /-- Port-window and SYSWR writes that have issued and not yet updated the image (R136). -/
  winPend : List WinWrite := []
  /-- Writes that have updated the image and are crossing into their clock domain, oldest first (R136). -/
  winFifo : List WinWrite := []
  /-- Writes that have reached their register in the last two strokes: the image still shows them over `shown` (R136). -/
  winDone : List WinWrite := []
  /-- The units of the clock domains as the gate before the last one found them, and as the last one did: a change shows
  in the image 2 strokes after it (R135). -/
  shown : Shown := {}
  shownNext : Shown := {}
  ecc : List EccMark := []
  eccDue : List EccDue := []
  /-- The register image of every register that stores what is written to it, by window offset. -/
  regs : Tbl Word := []
  /-- RWL fields are locked (R546). -/
  locked : Bool := false
  /-- Events on their way to the wellhead, oldest first. -/
  evq : List Ev := []
  /-- How many free choices have been drawn (the model's own field). -/
  draws : Nat := 0
  pump : PumpSt := {}
  locks : LockSt := {}
  tb : TimeSt := {}
  mf : ManifoldSt := {}
  gov : GovSt := {}
  valves : Tbl ValveSt := []
  /-- Pins, by 8 n + j, and port flags F0-F7, by port. -/
  pins : Tbl PinSt := []
  flags : Tbl Nat := []
  flagCycs : Tbl FlagCyc := []
  ports : Tbl PortSt := []
  host : HostSt := {}
  wh : WhSt := {}
  dbg : DbgSt := {}
  mram : MramSt := {}
  /-- Clock domains that are in reset (R559): 0 HCLK, 1 MCLK, 2 TCLK and the core, 3-10 GCLK0-GCLK7, 11 DCLK, 12 NCLK. -/
  inReset : List Nat := []
  deriving DecidableEq, Repr

/-- The state right after reset.
(DEDUCED, safe: log entry 5.) (DESIGN CHOICE, unsafe: log entry 6.) (DESIGN CHOICE, unsafe: log entry 9.) -/
def State.reset : State := {}

end Sys2Proof.Machine
end

