-- ==== Sys2Proof/Machine/Tbl.lean ====
section
/-!
DEFINITION. Sparse tables: reading, writing, and the little-endian access of byte tables (R5).

`tset` keeps the canonical form of a table whose unlisted entries read as `d`: keys strictly rising and
no entry equal to `d`, so that equal tables are equal data.  `tput` keeps the keys strictly rising and
stores every value as given.
-/

namespace Sys2Proof.Machine

/-- The entry at key `i`, or the default `d`. -/
def tget {α : Type} (d : α) : Tbl α → Nat → α
  | [], _ => d
  | (k, v) :: t, i => if k = i then v else tget d t i

/-- Store `v` at key `i`, whatever it is. -/
def tput {α : Type} : Tbl α → Nat → α → Tbl α
  | [], i, v => [(i, v)]
  | (k, w) :: t, i, v =>
    if i < k then (i, v) :: (k, w) :: t
    else if i = k then (i, v) :: t
    else (k, w) :: tput t i v

/-- Remove key `i`. -/
def tdel {α : Type} : Tbl α → Nat → Tbl α
  | [], _ => []
  | (k, w) :: t, i => if k = i then tdel t i else (k, w) :: tdel t i

/-- Store `v` at key `i`, listing it only where it differs from the default. -/
def tset {α : Type} [DecidableEq α] (d : α) (t : Tbl α) (i : Nat) (v : α) : Tbl α :=
  if v = d then tdel t i else tput t i v

/-- The canonical form: keys strictly rising from `lo`, no entry equal to the default. -/
def Tbl.wfFrom {α : Type} [DecidableEq α] (d : α) : Nat → Tbl α → Bool
  | _, [] => true
  | lo, (k, v) :: t => decide (lo ≤ k) && decide (v ≠ d) && Tbl.wfFrom d (k + 1) t

/-- A table in canonical form for the default `d`. -/
def Tbl.wf {α : Type} [DecidableEq α] (d : α) (t : Tbl α) : Bool := Tbl.wfFrom d 0 t

/-- The entry at key `i` where one is listed. -/
def tfind {α : Type} : Tbl α → Nat → Option α
  | [], _ => none
  | (k, v) :: t, i => if k = i then some v else tfind t i

/-- One byte of a memory; an unlisted byte reads as 0.
(DESIGN CHOICE, unsafe: log entry 10.) -/
def byteAt (t : Tbl Byte) (a : Nat) : Byte := tget 0 t a

/-- `n` bytes at `a`, read little-endian as one number (R5). -/
def readLE (t : Tbl Byte) (a : Nat) : Nat → Nat
  | 0 => 0
  | n + 1 => (byteAt t a).toNat + 256 * readLE t (a + 1) n

/-- The `n` low bytes of `v`, written little-endian at `a` (R5). -/
def writeLE (t : Tbl Byte) (a : Nat) : Nat → Nat → Tbl Byte
  | 0, _ => t
  | n + 1, v => writeLE (tset 0 t a (BitVec.ofNat 8 v)) (a + 1) n (v / 256)

/-- A list of bytes written at rising addresses from `a`. -/
def writeBytes (t : Tbl Byte) (a : Nat) : List Nat → Tbl Byte
  | [] => t
  | b :: bs => writeBytes (tset 0 t a (BitVec.ofNat 8 b)) (a + 1) bs

/-- `n` bytes at `a` as a list. -/
def readBytes (t : Tbl Byte) (a : Nat) : Nat → List Nat
  | 0 => []
  | n + 1 => (byteAt t a).toNat :: readBytes t (a + 1) n

/-- The little-endian number that a list of bytes spells. -/
def ofBytes : List Nat → Nat
  | [] => 0
  | b :: bs => b + 256 * ofBytes bs

/-- The `n` low bytes of `v`, lowest first. -/
def toBytes : Nat → Nat → List Nat
  | 0, _ => []
  | n + 1, v => v % 256 :: toBytes n (v / 256)

end Sys2Proof.Machine
end

