-- ==== Sys2Proof/Machine/Ops.lean ====
section
/-!
DEFINITION. The named operations over threads, bores, bit space, memories, ECC and events.

Every read or write of a thread, a logical bore, a bit variable, a memory word with check bits or the event
queue goes through this file.
-/

namespace Sys2Proof.Machine

/-! ### Threads, logical bores, physical bores -/

/-- Logical thread Lx. -/
def State.th (s : State) (x : Nat) : Thread := tget {} s.threads x

/-- Replace logical thread Lx. -/
def State.setTh (s : State) (x : Nat) (t : Thread) : State := { s with threads := tput s.threads x t }

/-- Change logical thread Lx. -/
def State.modTh (s : State) (x : Nat) (f : Thread → Thread) : State := s.setTh x (f (s.th x))

/-- Logical bore LBn. -/
def State.lb (s : State) (n : Nat) : LBore := tget {} s.lbs n

/-- Replace logical bore LBn. -/
def State.setLb (s : State) (n : Nat) (b : LBore) : State := { s with lbs := tput s.lbs n b }

/-- Change logical bore LBn. -/
def State.modLb (s : State) (n : Nat) (f : LBore → LBore) : State := s.setLb n (f (s.lb n))

/-- The physical bore Bn right after reset: B0-B7 carry LB0-LB7, B8 and B9 are relief bores (R107). -/
def pboreInit (n : Nat) : PBore := if n < 8 then { role := 0, lb := n } else { role := 1, lb := 0 }

/-- Physical bore Bn. -/
def State.pb (s : State) (n : Nat) : PBore := tget (pboreInit n) s.pbs n

/-- Change physical bore Bn. -/
def State.modPb (s : State) (n : Nat) (f : PBore → PBore) : State :=
  { s with pbs := tput s.pbs n (f (s.pb n)) }

/-- Logical thread Lx runs in slot x mod 16 of LB x/16 (R66). -/
def lbOf (x : Nat) : Nat := x / 16
/-- The slot of logical thread Lx (R66). -/
def slotOf (x : Nat) : Nat := x % 16

/-- The physical bore that carries a logical bore, 15 when none does (R66, R523). -/
def State.carrier (s : State) (lb : Nat) : Nat :=
  ((List.range 10).find? (fun n => (s.pb n).role == 0 && (s.pb n).lb == lb)).getD 15

/-! ### RW1C bits (R10, R11) -/

/-- The hardware sets the bits of `m` in cycle `now`. -/
def Fresh.set (f : Fresh) (now m : Nat) : Fresh := ⟨now, if f.at_ = now then f.mask ||| m else m⟩

/-- The bits that the hardware has set in cycle `now`. -/
def Fresh.held (f : Fresh) (now : Nat) : Nat := if f.at_ = now then f.mask else 0

/-- The RW1C bits `old` after a write of `w` in cycle `now`: a bit set in the same cycle ends set (R11). -/
def Fresh.clear (f : Fresh) (now old w : Nat) : Nat := (old ^^^ (old &&& w)) ||| (old &&& f.held now)

/-- The cycle of a unit that is neither in the core nor in TCLK: one in which no gate has opened and no TCLK edge
has come.
(DESIGN CHOICE, safe: log entry 1.) -/
def State.moment (s : State) : Nat := s.strokes + s.tb.edges

/-! ### Events to the wellhead -/

/-- Send an event to the wellhead, which has it from stroke `q` on (R74, R520). -/
def State.eventAt (s : State) (q unit cls typ arg0 arg1 : Nat) (place : Option (Nat × Nat) := none)
    (head : Option Nat := none) : State :=
  { s with evq := s.evq ++ [{ unit := unit, cls := cls, typ := typ, alarm := false, trace := false,
                              arg0 := arg0, arg1 := arg1, at_ := q, place := place, head := head }] }

/-- Send an event to the wellhead (R520). -/
def State.event (s : State) (unit cls typ arg0 arg1 : Nat) : State := s.eventAt 0 unit cls typ arg0 arg1

/-- The RETIRE stage of an instruction that issues in the stroke in progress (R74). -/
def State.retireAt (s : State) : Nat := s.strokes + 4

/-- An event whose arguments the spec does not state: they are free values. -/
def State.eventFree (s : State) (unit cls typ : Nat) : State :=
  let s1 := s.event unit cls typ (Config.freeWord s.draws).toNat (Config.freeWord (s.draws + 1)).toNat
  { s1 with draws := s1.draws + 2 }

/-- Send an alarm record: TYPE is the bit number, ARG0 the alarm register as it stands (R520, R523). -/
def State.alarmEvent (s : State) (unit cls bitNo reg : Nat) : State :=
  { s with evq := s.evq ++ [{ unit := unit, cls := cls, typ := bitNo, alarm := true, trace := false,
                              arg0 := reg, arg1 := 0 }] }

/-- Send a trace record (R520). -/
def State.traceEvent (s : State) (unit typ arg0 arg1 : Nat) : State :=
  { s with evq := s.evq ++ [{ unit := unit, cls := 14, typ := typ, alarm := false, trace := true,
                              arg0 := arg0, arg1 := arg1 }] }

/-- A write to a locked RWL field, or a SYSWR to a protected unit, is discarded and reported (R12, R225); `who` is
ARG0 of R523, 0 for the register slave port. -/
def State.lockViolation (s : State) (who off : Nat) : State := s.event 10 11 0x20 who off

/-- A SYSWR to a protected unit is reported in its RETIRE stage (R74, R225). -/
def State.sysViolation (s : State) (who off : Nat) : State := s.eventAt s.retireAt 10 11 0x20 who off

/-! ### Private flags and done bits (R20, R113) -/

/-- A private bit address that is reserved: reads 0, ignores writes (R113). -/
def privReserved (a : Nat) : Bool := (0x00B ≤ a && a ≤ 0x00E) || (0x030 ≤ a && a ≤ 0x07F)

/-- Read a private bit of a thread. -/
def Thread.flag (t : Thread) (a : Nat) : Bool := if privReserved a then false else tget false t.bits a

/-- Write a private bit of a thread.  A flag of an older result that is still on its way no longer reaches it (R129). -/
def Thread.setFlag (t : Thread) (a : Nat) (v : Bool) : Thread :=
  if privReserved a then t
  else { t with bits := tset false t.bits a v
                flagsDue := t.flagsDue.map (fun d => { d with fs := d.fs.filter (fun f => f.1 != a) }) }

/-- A unit sets a private bit in stroke `n`. -/
def Thread.hwSet (t : Thread) (n a : Nat) : Thread := { t.setFlag a true with freshBits := t.freshBits.set n (2 ^ a) }

/-- An instruction issued in stroke `n` writes a private bit: one that a unit has set in the same stroke ends set (R114).
(DEDUCED, unsafe: log entry 105.) -/
def Thread.writeBit (t : Thread) (n a : Nat) (v : Bool) : Thread :=
  if !v && bit (t.freshBits.held n) a then t else t.setFlag a v

def flagZ : Nat := 0x000
def flagC : Nat := 0x001
def flagV : Nat := 0x002
def flagN : Nat := 0x003
def flagDZ : Nat := 0x004
def flagILL : Nat := 0x005
def flagRSO : Nat := 0x006
def flagRSU : Nat := 0x007
def flagTAGF : Nat := 0x008
def flagVF : Nat := 0x009
def flagLVDONE : Nat := 0x00A
def flagG : Nat := 0x00F
def cdoneBit (k : Nat) : Nat := 0x010 + k
def cerrBit (k : Nat) : Nat := 0x018 + k
def pdoneBit (k : Nat) : Nat := 0x020 + k

/-! ### Global bits and their visibility (R116, R117) -/

/-- Apply one change to a bit. -/
def GBitWrite.applyTo (w : GBitWrite) (old : Bool) : Bool := w.v.getD (!old)

/-- A global bit as bore `lb` sees it: its own changes are forwarded, those of others have landed (R116). -/
def State.gbitSeen (s : State) (lb a : Nat) : Bool :=
  s.gpend.foldl (fun v w => if w.addr = a ∧ w.rank = lb then w.applyTo v else v) (tget false s.gbits a)

/-- Enter a change of a global bit made in stroke `q`: by a thread of bore `rank`, or by the manifold (8). -/
def State.gbitWrite (s : State) (q rank a : Nat) (v : Option Bool) : State :=
  { s with gpend := s.gpend ++ [{ at_ := q, rank := rank, addr := a, v := v }] }

/-- Land every change made in stroke `q` or earlier: stroke by stroke, thread writes in rising bore number,
then the manifold (R117). -/
def State.landGbits (s : State) (q : Nat) : State :=
  let due := s.gpend.filter (fun w => w.at_ ≤ q)
  let ord := due.mergeSort (fun a b => a.at_ * 16 + a.rank ≤ b.at_ * 16 + b.rank)
  { s with
    gbits := ord.foldl (fun t w => tset false t w.addr (w.applyTo (tget false t w.addr))) s.gbits
    gpend := s.gpend.filter (fun w => !(w.at_ ≤ q)) }

/-! ### ECC (R144-R148) -/

/-- The ECC state of a stored word. -/
def State.eccOf (s : State) (m : Mem) (w : Nat) : Option EccState :=
  (s.ecc.find? (fun k => k.mem == m && k.word == w)).map (·.state)

/-- The word is uncorrectable. -/
def State.isUe (s : State) (m : Mem) (w : Nat) : Bool := s.eccOf m w == some .uncorrectable

/-- Replace the ECC state of a word; none restores correct check bits. -/
def State.setEcc (s : State) (m : Mem) (w : Nat) (e : Option EccState) : State :=
  let rest := s.ecc.filter (fun k => !(k.mem == m && k.word == w))
  { s with ecc := match e with
      | none => rest
      | some v => rest ++ [{ mem := m, word := w, state := v }] }

/-- The memory code of R523. -/
def Mem.code_ : Mem → Nat
  | .well _ => 0 | .reservoir _ => 1 | .code _ _ => 2 | .privBits _ => 3 | .sharedBits _ => 3
  | .globalBits => 4 | .cistern => 5 | .cellMap => 6 | .channels => 7 | .routes => 8 | .mram => 9

/-- The logical bore whose carrier holds a memory, where a bore holds it. -/
def Mem.lbore : Mem → Option Nat
  | .well x => some (lbOf x) | .privBits x => some (lbOf x)
  | .reservoir b => some b | .code b _ => some b | .sharedBits b => some b
  | _ => none

/-- ARG1 of a memory ECC record: the word's byte address within the memory, or its bit 0 for bit space. -/
def Mem.addrArg (m : Mem) (w : Nat) : Nat :=
  match m with
  | .privBits _ => 32 * w
  | .sharedBits _ => 0x1000 + 32 * w
  | .globalBits => 0x3000 + 32 * w
  | .code _ bank => bank * 0x40000 + 4 * w
  | _ => 4 * w

/-- Count up, saturating at `2^b - 1`. -/
def satInc (b v : Nat) : Nat := if v + 1 < 2 ^ b then v + 1 else 2 ^ b - 1

/-- Count a corrected (`ue` false) or uncorrectable word in the counters of the physical bore (R107, R149). -/
def PBore.countEcc (p : PBore) (m : Mem) (ue : Bool) : PBore :=
  match m, ue with
  | .code .., false => { p with codeCor := satInc 16 p.codeCor }
  | .code .., true => { p with codeUnc := satInc 16 p.codeUnc }
  | .well _, false => { p with wellCor := satInc 16 p.wellCor }
  | .well _, true => { p with wellUnc := satInc 16 p.wellUnc }
  | .reservoir _, false => { p with resCor := satInc 16 p.resCor }
  | .reservoir _, true => { p with resUnc := satInc 16 p.resUnc }
  | .privBits _, false | .sharedBits _, false => { p with bitCor := satInc 16 p.bitCor }
  | .privBits _, true | .sharedBits _, true => { p with bitUnc := satInc 16 p.bitUnc }
  | _, _ => p

/-- Add to a 16-bit half of a counter register in the image, saturating: bits [15:0], or [31:16] for `ue`. -/
def eccCounter (w : Word) (ue : Bool) : Word :=
  if ue then BitVec.ofNat 32 (bits w.toNat 15 0 + 65536 * satInc 16 (bits w.toNat 31 16))
  else BitVec.ofNat 32 (satInc 16 (bits w.toNat 15 0) + 65536 * bits w.toNat 31 16)

/-- The counter register of a memory that no bore holds (R150), by window offset. -/
def Mem.counterReg : Mem → Option Nat
  | .globalBits => some 0x50020
  | .routes => some 0x50024
  | .cistern | .cellMap | .channels => some 0x7001C
  | .mram => some 0xB0018
  | _ => none

/-- The reader codes of R523. -/
inductive Reader where
  | thread | pump | scrubber | mirror | manifold | lock
  deriving DecidableEq, Repr

def Reader.num : Reader → Nat
  | .thread => 0 | .pump => 1 | .scrubber => 2 | .mirror => 3 | .manifold => 4 | .lock => 5

/-- The physical bore that holds a memory, 15 where no bore does. -/
def State.holder (s : State) (m : Mem) : Nat := match m.lbore with | some lb => s.carrier lb | none => 15

/-- Count an ECC error of a memory that physical bore `bore` holds. -/
def State.countEccOn (s : State) (bore : Nat) (m : Mem) (ue : Bool) : State :=
  match m.lbore with
  | some _ => if bore < 10 then s.modPb bore (fun p => p.countEcc m ue) else s
  | none => match m.counterReg with
    | some off => { s with regs := tput s.regs off (eccCounter (tget 0 s.regs off) ue) }
    | none => s

/-- Count an ECC error in the counters of the memory's owner (R145, R150). -/
def State.countEcc (s : State) (m : Mem) (ue : Bool) : State := s.countEccOn (s.holder m) m ue

/-- The word lies in a code store. -/
def Mem.isCode : Mem → Bool
  | .code .. => true
  | _ => false

/-- Count an uncorrectable word that is read.  A code word counts only where an instruction needs it (R88, R109). -/
def State.countUe (s : State) (m : Mem) : State := if m.isCode then s else s.countEcc m true

/-- A memory ECC record of class `cls` (R523 unit 0, types 0x00 to 0x02), which the wellhead has from stroke `q` on. -/
def State.eccEventAt (s : State) (q cls : Nat) (m : Mem) (w : Nat) (r : Reader) : State :=
  s.eventAt q 0 cls cls (s.holder m + 256 * m.code_ + 4096 * r.num) (m.addrArg w)

/-- A memory ECC record sent at once. -/
def State.eccEvent (s : State) (cls : Nat) (m : Mem) (w : Nat) (r : Reader) : State := s.eccEventAt 0 cls m w r

/-- A read of a word: a single-bit error is corrected, counted and due for rewriting (R145); an
uncorrectable word is counted and reported (R146, R148). -/
def State.eccRead (s : State) (r : Reader) (m : Mem) (w : Nat) : State :=
  match s.eccOf m w with
  | none => s
  | some .uncorrectable => (s.countUe m).eccEvent 1 m w r
  | some _ => ((s.setEcc m w (some .rewriting)).countEcc m false).eccEvent 0 m w r

/-- An error that the instruction in the pipe has met is counted in its RETIRE stage (R74). -/
def State.countLater (s : State) (m : Mem) (ue : Bool) : State :=
  { s with eccDue := s.eccDue ++ [{ at_ := s.retireAt, bore := s.holder m, mem := m, ue := ue }] }

/-- A read of a word by an instruction in the pipe: as any read, with its count and its record in RETIRE (R74). -/
def State.eccPipe (s : State) (m : Mem) (w : Nat) : State :=
  match s.eccOf m w with
  | none => s
  | some .uncorrectable => (if m.isCode then s else s.countLater m true).eccEventAt s.retireAt 1 m w .thread
  | some _ => ((s.setEcc m w (some .rewriting)).countLater m false).eccEventAt s.retireAt 0 m w .thread

/-- The errors whose RETIRE stage has come by stroke `q` are counted. -/
def State.landEcc (s : State) (q : Nat) : State :=
  if s.eccDue.isEmpty then s
  else (s.eccDue.filter (fun e => e.at_ ≤ q)).foldl (fun s e => s.countEccOn e.bore e.mem e.ue)
    { s with eccDue := s.eccDue.filter (fun e => !(e.at_ ≤ q)) }

/-- Reads of several words. -/
def State.eccReads (s : State) (r : Reader) (ws : List (Mem × Nat)) : State :=
  ws.foldl (fun s k => s.eccRead r k.1 k.2) s

/-- Reads beside the pipe that meet only single-bit errors: they are corrected and counted (R145). -/
def State.eccCorrect (s : State) (ws : List (Mem × Nat)) : State :=
  if s.ecc.isEmpty then s else ws.eraseDups.foldl (fun s k => if s.isUe k.1 k.2 then s else s.eccRead .thread k.1 k.2) s

/-- The same by an instruction in the pipe. -/
def State.pipeCorrect (s : State) (ws : List (Mem × Nat)) : State :=
  if s.ecc.isEmpty then s else ws.eraseDups.foldl (fun s k => if s.isUe k.1 k.2 then s else s.eccPipe k.1 k.2) s

/-- The 32-bit words that `n` bytes at `a` touch (R124). -/
def wordsOf (a n : Nat) : List Nat := (List.range ((a + n - 1) / 4 + 1 - a / 4)).map (· + a / 4)

/-- The words that a write of `n` bytes at `a` covers only in part (R144, R146). -/
def partWords (a n : Nat) : List Nat := (wordsOf a n).filter (fun w => !(a ≤ 4 * w && 4 * w + 4 ≤ a + n))

/-- A write of part of a word: the check bits are formed anew, and a single-bit error that no read of the instruction has
met is corrected and counted on the way (R144).
(DEDUCED, unsafe: log entry 107.) -/
def State.eccPart (s : State) (m : Mem) (w : Nat) : State :=
  match s.eccOf m w with
  | none | some .uncorrectable => s
  | some .rewriting => s.setEcc m w none
  | some .correctable => (s.eccPipe m w).setEcc m w none

/-- A write of `n` bytes at `a` replaces the check bits of every word it covers in full (R146), and forms those of the
others anew (R144). -/
def State.eccWrite (s : State) (m : Mem) (a n : Nat) : State :=
  if s.ecc.isEmpty then s
  else (wordsOf a n).foldl (fun s w => if a ≤ 4 * w && 4 * w + 4 ≤ a + n then s.setEcc m w none else s.eccPart m w) s

/-- A write of `n` bytes at `a` by reader `r` from beside the pipe: the single-bit errors in the words that it covers only
in part are corrected and counted on the way (R144). -/
def State.eccNarrow (s : State) (r : Reader) (m : Mem) (a n : Nat) : State :=
  if s.ecc.isEmpty then s
  else (partWords a n).foldl
    (fun s w => if s.isUe m w || (s.eccOf m w).isNone then s else (s.eccRead r m w).setEcc m w none) s

/-- Set or clear a private bit of Lx.  A bit of an uncorrectable word keeps its stored value (R146).
(DEDUCED, unsafe: log entry 29.) -/
def State.setFlag (s : State) (x a : Nat) (v : Bool) : State :=
  if s.isUe (.privBits x) (a / 32) then s else (s.eccPart (.privBits x) (a / 32)).modTh x (fun t => t.setFlag a v)

/-- A unit sets a done, error or result bit of Lx: into an uncorrectable word it writes nothing, and the word is reported
(R144, R146, R148). -/
def State.hwFlag (s : State) (r : Reader) (x a : Nat) : State :=
  if s.isUe (.privBits x) (a / 32) then s.eccRead r (.privBits x) (a / 32)
  else (s.eccNarrow r (.privBits x) (4 * (a / 32)) 1).modTh x (fun t => t.hwSet s.strokes a)

/-- The memory and word index of a bit variable of thread Lx. -/
def bitWord (x a : Nat) : Mem × Nat :=
  if a < 0x1000 then (.privBits x, a / 32)
  else if a < 0x3000 then (.sharedBits (lbOf x), (a - 0x1000) / 32)
  else (.globalBits, (a - 0x3000) / 32)

/-! ### Reading and writing the memories of a bore -/

/-- A bit variable as an instruction of Lx reads it (R111, R116). -/
def State.bitSeen (s : State) (x a : Nat) : Bool :=
  if a < 0x1000 then (s.th x).flag a
  else if a < 0x3000 then tget false (s.lb (lbOf x)).shared a
  else s.gbitSeen (lbOf x) a

/-- A bit write issued by Lx; none toggles (R115-R117).  A thread's change of a global bit counts as made in
the stroke after its issue, so that other bores see it from the second stroke after. -/
def State.bitWrite (s : State) (x a : Nat) (v : Option Bool) : State :=
  if a < 0x1000 then
    (s.eccPart (bitWord x a).1 (bitWord x a).2).modTh x (fun t => t.writeBit s.strokes a (v.getD (!(t.flag a))))
  else if a < 0x3000 then
    (s.eccPart (bitWord x a).1 (bitWord x a).2).modLb (lbOf x)
      (fun b => { b with shared := tset false b.shared a (v.getD (!(tget false b.shared a))) })
  else s.gbitWrite (s.strokes + 1) (lbOf x) a v

/-- The code bank from which Lx fetches: the active bank of its bore, or during a personality swap the other
one once it has cut over (R88, R551). -/
def State.bankOf (s : State) (x : Nat) : Nat := b2n ((s.lb (lbOf x)).bank != (s.th x).newBank)

/-- A code bank of a logical bore. -/
def LBore.code (b : LBore) (bank : Nat) : Tbl Byte := if bank = 1 then b.code1 else b.code0

/-- Replace a code bank. -/
def LBore.setCode (b : LBore) (bank : Nat) (t : Tbl Byte) : LBore :=
  if bank = 1 then { b with code1 := t } else { b with code0 := t }

/-- The code bytes that Lx fetches from. -/
def State.codeOf (s : State) (x : Nat) : Tbl Byte := (s.lb (lbOf x)).code (s.bankOf x)

/-- A reservoir byte with the atomic writes still on their way laid over it, and the writes that wait for them: what an
atomic access reads (R209). -/
def LBore.resForward (b : LBore) (a : Nat) : Nat :=
  b.resPend.foldl
    (fun v w => if (w.atom || w.x == 128) = true ∧ w.addr ≤ a ∧ a < w.addr + w.n then w.v / 256 ^ (a - w.addr) % 256 else v)
    (byteAt b.res a).toNat

/-- `n` reservoir bytes as an instruction reads them: the visible bytes, or for an atomic access the newest. -/
def LBore.resRead (b : LBore) (atom : Bool) (a n : Nat) : Nat :=
  if atom then ofBytes ((List.range n).map (fun i => b.resForward (a + i))) else readLE b.res a n

/-- A reservoir write issued by Lx: it lands two strokes later (R76). -/
def State.resIssue (s : State) (x : Nat) (atom : Bool) (a n v : Nat) : State :=
  (s.modLb (lbOf x) (fun b =>
    { b with resPend := b.resPend ++ [{ due := s.strokes + 2, x := x, addr := a, n := n, v := v, atom := atom }] }))

/-- A reservoir write that lands at once. -/
def State.resPut (s : State) (lb a n v : Nat) : State :=
  (s.modLb lb (fun b => { b with res := writeLE b.res a n v })).eccWrite (.reservoir lb) a n

/-- What is left of a pending write once a newer write has written `n` bytes at `a` (R129). -/
def ResWrite.spare (w : ResWrite) (a n : Nat) : List ResWrite :=
  if a < w.addr + w.n ∧ w.addr < a + n then
    (if w.addr < a then [{ w with n := a - w.addr, v := w.v % 256 ^ (a - w.addr) }] else []) ++
    (if a + n < w.addr + w.n then
      [{ w with addr := a + n, n := w.addr + w.n - (a + n), v := w.v / 256 ^ (a + n - w.addr) }] else [])
  else [w]

/-- The atomic accesses that hold reservoir word `w` until their writes land (R209). -/
def LBore.holders (b : LBore) (w : Nat) : List ResWrite :=
  b.resPend.filter (fun p => p.atom && decide (p.addr < 4 * w + 4) && decide (4 * w < p.addr + p.n))

/-- A write of the service port to a reservoir lies behind an atomic access and has not landed (R133). -/
def LBore.delayed (b : LBore) : Bool := b.resPend.any (fun w => w.x == 128 && !w.atom)

/-- A write of `n` bytes by the service port within one reservoir word: newer than the writes of instructions that have
not landed (R129); behind an atomic access that holds the word (R133, R209). -/
def State.serveWord (s : State) (lb a n v : Nat) : State :=
  match (s.lb lb).holders (a / 4) with
  | [] =>
    (s.modLb lb (fun b => { b with resPend := b.resPend.flatMap (fun w => if w.atom || w.x == 128 then [w] else w.spare a n) })).resPut
      lb a n v
  | h :: hs =>
    s.modLb lb (fun b => { b with resPend := b.resPend ++
      [{ due := hs.foldl (fun d w => max d w.due) h.due, x := 128, addr := a, n := n, v := v, atom := false }] })

/-- A write of `n` bytes by the service port to a reservoir, word by word (R129, R131, R133). -/
def State.resServe (s : State) (lb a n v : Nat) : State :=
  if (s.lb lb).resPend.isEmpty then s.resPut lb a n v
  else (wordsOf a n).foldl (fun s w =>
    let lo := max a (4 * w)
    let k := min (a + n) (4 * w + 4) - lo
    s.serveWord lb lo k (v / 256 ^ (lo - a) % 256 ^ k)) s

/-- A well write of `n` bytes. -/
def State.wellPut (s : State) (x a n v : Nat) : State :=
  (s.modTh x (fun t => { t with well := writeLE t.well a n v })).eccWrite (.well x) a n

/-- A well word. -/
def State.wellWord (s : State) (x a : Nat) : Nat := readLE (s.th x).well a 4

/-- Land the reservoir writes of a bore that are due by stroke `q`, in issue order (R129). -/
def State.landRes (s : State) (lb q : Nat) : State :=
  if (s.lb lb).resPend.isEmpty then s
  else
    let due := (s.lb lb).resPend.filter (fun w => w.due ≤ q)
    let s := s.modLb lb (fun b => { b with resPend := b.resPend.filter (fun w => !(w.due ≤ q)) })
    due.foldl (fun s w => s.resPut lb w.addr w.n w.v) s

/-! ### Return stack (R96-R98) -/

/-- Push an entry; at depth 8 the oldest is overwritten and RSO is set (R98). -/
def Thread.push (t : Thread) (e : Word) : Thread :=
  if t.rs.length < 8 then { t with rs := e :: t.rs }
  else ({ t with rs := e :: t.rs.take 7 }).setFlag flagRSO true

/-- The frame of R96 for an interrupt or exception entry. -/
def Thread.frame (t : Thread) (ret : BitVec 18) (flags : Nat) : Word :=
  BitVec.ofNat 32 (ret.toNat + 2 ^ 18 + 2 ^ 19 * b2n t.ie + 2 ^ 20 * t.pl + 2 ^ 24 * flags)

/-- Z, C, V, N as the FLAGS nibble of R96. -/
def Thread.nibble (t : Thread) : Nat :=
  b2n (t.flag flagZ) + 2 * b2n (t.flag flagC) + 4 * b2n (t.flag flagV) + 8 * b2n (t.flag flagN)

/-- TAKING AN INTERRUPT OR AN EXCEPTION (R96, R100, R102): push the frame, clear IE, set PL, go to the
vector, and owe the fill turn of R87.  `fl` is the FLAGS nibble of the frame. -/
def Thread.enter (t : Thread) (v : Nat) (ret : BitVec 18) (fl : Nat) : Thread :=
  let t := t.push (t.frame ret fl)
  { t with ie := false
           pl := if 8 ≤ v then v - 8 else t.pl
           pc := BitVec.ofNat 18 (t.vbase.toNat * 256 + 16 * v)
           owed := 1, idle := 0, exc := none, stalled := false, fetched := [] }

end Sys2Proof.Machine
end

