-- ==== Sys2Proof/Machine/ThreadCode.lean ====
section
/-!
DEFINITION. Predecoding a thread instruction from its code bytes (chapter 05, R152-R175).

`predecode` takes the bytes from the instruction's address on and answers either the decoded instruction
or the illegal form that is found first, with the byte at which it is found and the bytes that a metered
no-op occupies.  It reads no operand and no thread state (R173).
-/

namespace Sys2Proof.Machine

/-- The role of a specifier (R165); `src` stands for a, b, n, t, w and x. -/
inductive Role where
  | d | m | s | c | src
  deriving DecidableEq, Repr

/-- One row of the opcode tables R167-R169: `op` is page times 256 plus the code. -/
structure OpRow where
  op : Nat
  fixed : Nat
  roles : List Role
  w : Bool
  atom : Bool
  setf : Bool
  vec : Bool
  deriving DecidableEq, Repr

/-- The page-0 instructions (R167). -/
def opRows0 : List OpRow :=
  [⟨0x000, 0, [], false, false, false, false⟩,
   ⟨0x001, 0, [.d, .src], true, true, true, false⟩,
   ⟨0x002, 0, [.d, .src, .src], true, true, true, false⟩,
   ⟨0x003, 0, [.d, .src, .src], true, true, true, false⟩,
   ⟨0x004, 0, [.d, .src, .src], true, true, true, false⟩,
   ⟨0x005, 0, [.d, .src, .src], true, true, true, false⟩,
   ⟨0x006, 0, [.d, .src, .src], true, true, true, false⟩,
   ⟨0x007, 0, [.d, .src, .src], true, false, true, false⟩,
   ⟨0x008, 0, [.d, .src, .src], true, false, true, false⟩,
   ⟨0x009, 0, [.d, .src, .src], true, false, true, false⟩,
   ⟨0x00A, 0, [.d, .src, .src], true, false, true, false⟩,
   ⟨0x00B, 0, [.src, .src], true, false, true, false⟩,
   ⟨0x00C, 0, [.src, .src], true, false, true, false⟩,
   ⟨0x00D, 0, [.d, .src, .src], true, false, true, false⟩,
   ⟨0x00E, 2, [], false, false, false, false⟩,
   ⟨0x00F, 1, [], false, false, false, false⟩] ++
  [⟨0x010, 2, [], false, false, false, false⟩,
   ⟨0x011, 0, [], false, false, false, false⟩,
   ⟨0x012, 0, [.d, .src], false, false, false, false⟩,
   ⟨0x013, 0, [.d], false, false, false, false⟩,
   ⟨0x014, 0, [.d], false, false, false, false⟩,
   ⟨0x015, 0, [.d], false, false, false, false⟩,
   ⟨0x016, 0, [.d, .src], true, true, true, false⟩,
   ⟨0x017, 0, [.d], true, true, true, false⟩,
   ⟨0x018, 0, [.d], true, true, true, false⟩,
   ⟨0x019, 0, [.d, .src, .src], true, false, false, false⟩,
   ⟨0x01A, 0, [.src], false, false, false, false⟩,
   ⟨0x01B, 0, [.d, .src, .src], false, false, false, false⟩,
   ⟨0x01C, 0, [.src, .src], true, false, true, false⟩,
   ⟨0x01D, 0, [.d, .m], true, true, false, false⟩,
   ⟨0x01E, 1, [], false, false, false, false⟩,
   ⟨0x01F, 2, [], false, false, false, false⟩]

/-- The page-1 instructions (R168). -/
def opRows1 : List OpRow :=
  [⟨0x100, 0, [.d, .src, .src], true, false, true, false⟩,
   ⟨0x101, 0, [.d, .src, .src], true, false, true, false⟩,
   ⟨0x102, 0, [.d, .src, .src], true, false, true, false⟩,
   ⟨0x103, 0, [.d, .src, .src], true, false, true, false⟩,
   ⟨0x104, 0, [.d, .src, .src], true, false, true, false⟩,
   ⟨0x105, 0, [.d, .src, .src], true, false, true, false⟩,
   ⟨0x106, 0, [.d, .src, .src], true, false, true, false⟩,
   ⟨0x107, 0, [.d, .src, .src], true, false, true, false⟩,
   ⟨0x108, 0, [.d, .src, .src], true, false, true, false⟩,
   ⟨0x109, 0, [.d, .src, .src], true, false, true, false⟩,
   ⟨0x10A, 0, [.d, .src, .src], true, false, true, false⟩,
   ⟨0x10B, 0, [.d, .src, .src], true, false, true, false⟩,
   ⟨0x10C, 0, [.d, .src, .src], true, false, true, false⟩,
   ⟨0x10D, 0, [.d, .src, .src], true, false, true, false⟩,
   ⟨0x10E, 0, [.d, .src], true, false, true, false⟩,
   ⟨0x10F, 0, [.d, .src], true, false, true, false⟩] ++
  [⟨0x110, 0, [.d, .src], true, false, true, false⟩,
   ⟨0x111, 0, [.d, .src], true, false, false, false⟩,
   ⟨0x112, 0, [.d, .src, .src], true, false, true, false⟩,
   ⟨0x113, 0, [.d, .src, .src], true, false, true, false⟩,
   ⟨0x114, 0, [.d, .src, .src], true, false, false, false⟩,
   ⟨0x115, 0, [.d, .src, .src], true, false, false, false⟩,
   ⟨0x118, 0, [.d, .src, .src], false, false, false, false⟩,
   ⟨0x119, 0, [.d, .src, .src], false, false, false, false⟩,
   ⟨0x11A, 0, [.src, .src], false, false, true, false⟩,
   ⟨0x11B, 0, [.d], false, false, false, false⟩,
   ⟨0x120, 0, [.s, .m], false, false, false, false⟩,
   ⟨0x121, 0, [.m], false, false, false, false⟩,
   ⟨0x122, 0, [.s, .src], false, false, false, false⟩,
   ⟨0x123, 0, [.src], false, false, false, false⟩,
   ⟨0x124, 0, [.d, .m, .src], true, true, false, false⟩,
   ⟨0x125, 0, [.d, .m, .src], true, true, false, false⟩] ++
  [⟨0x126, 0, [.d, .m, .src], true, true, false, false⟩,
   ⟨0x128, 2, [.d, .c], false, false, false, false⟩,
   ⟨0x129, 2, [.c, .src], false, false, false, false⟩,
   ⟨0x12A, 1, [.src], false, false, false, false⟩,
   ⟨0x12B, 1, [.d, .src, .src], false, false, false, false⟩,
   ⟨0x130, 0, [.s, .src, .src], false, false, false, false⟩,
   ⟨0x131, 0, [.src], false, false, false, false⟩,
   ⟨0x133, 0, [.src], false, false, false, false⟩,
   ⟨0x138, 0, [.m, .src], false, false, false, false⟩,
   ⟨0x139, 0, [.m, .src], false, false, false, false⟩,
   ⟨0x13A, 0, [.d, .src], false, false, false, false⟩,
   ⟨0x13B, 0, [.d, .src], false, false, false, false⟩,
   ⟨0x140, 0, [], false, false, false, false⟩,
   ⟨0x141, 0, [], false, false, false, false⟩,
   ⟨0x142, 0, [], false, false, false, false⟩,
   ⟨0x143, 0, [.d], false, false, false, false⟩] ++
  [⟨0x148, 0, [.d, .src], false, false, false, false⟩,
   ⟨0x149, 0, [.src, .src], false, false, false, false⟩]

/-- The page-2 instructions (R169). -/
def opRows2 : List OpRow :=
  [⟨0x200, 0, [.d, .src, .src], false, false, false, true⟩,
   ⟨0x201, 0, [.d, .src, .src], false, false, false, true⟩,
   ⟨0x202, 0, [.d, .src, .src], false, false, false, true⟩,
   ⟨0x203, 0, [.d, .src, .src], false, false, false, true⟩,
   ⟨0x204, 0, [.d, .src, .src], false, false, false, true⟩,
   ⟨0x205, 0, [.d, .src, .src], false, false, false, true⟩,
   ⟨0x206, 0, [.d, .src, .src], false, false, false, true⟩,
   ⟨0x207, 0, [.d, .src, .src], false, false, false, true⟩,
   ⟨0x208, 0, [.d, .src, .src], false, false, false, true⟩,
   ⟨0x209, 0, [.d, .src, .src], false, false, false, true⟩,
   ⟨0x20A, 0, [.d, .src, .src], false, false, false, true⟩,
   ⟨0x20B, 0, [.d, .src, .src], false, false, false, true⟩,
   ⟨0x210, 0, [.d, .src, .src], false, false, false, false⟩,
   ⟨0x211, 0, [.d, .src, .src], false, false, false, false⟩,
   ⟨0x212, 0, [.d, .src, .src], false, false, false, false⟩,
   ⟨0x213, 0, [.d, .src, .src], false, false, false, false⟩] ++
  [⟨0x220, 0, [.src], false, false, false, false⟩,
   ⟨0x221, 0, [.d, .src, .src], false, false, false, false⟩,
   ⟨0x222, 0, [.d, .src, .src], false, false, false, false⟩,
   ⟨0x223, 0, [.d, .src, .src], false, false, false, false⟩,
   ⟨0x224, 0, [.d, .src, .src], false, false, false, false⟩,
   ⟨0x225, 0, [.d, .src, .src], false, false, false, false⟩,
   ⟨0x226, 0, [.d, .src, .src], false, false, false, false⟩,
   ⟨0x227, 0, [.d, .src], false, false, false, false⟩,
   ⟨0x228, 0, [.d, .src], false, false, false, false⟩,
   ⟨0x229, 0, [.d, .src], false, false, false, false⟩,
   ⟨0x22A, 0, [.d, .src, .src], false, false, false, false⟩,
   ⟨0x230, 0, [.d, .src, .src], false, false, false, false⟩,
   ⟨0x231, 0, [.d, .src, .src], false, false, false, false⟩,
   ⟨0x232, 0, [.d, .src, .src], false, false, false, false⟩,
   ⟨0x233, 0, [.d, .src], false, false, false, false⟩]

/-- The row of an opcode, where it is defined. -/
def opRow (op : Nat) : Option OpRow :=
  (if op < 256 then opRows0 else if op < 512 then opRows1 else opRows2).find? (fun r => r.op == op)

/-- A decoded instruction. -/
structure Dec where
  op : Nat
  /-- Head byte bits [7:5] (R154). -/
  cond : Nat
  /-- The bit address of a GUARD prefix (R157). -/
  guard : Option Nat
  /-- Operand size in bytes (R118). -/
  size : Nat
  /-- Lane size in bits (R170). -/
  lane : Nat
  atom : Bool
  setf : Bool
  /-- The fixed field (R162). -/
  fixed : Nat
  specs : List Spec
  /-- Length in bytes (R171). -/
  len : Nat
  deriving DecidableEq, Repr

/-- What PREDECODE finds. -/
inductive Predecoded where
  | ok (d : Dec)
  /-- An illegal form: its cause (R173), the index of the byte at which it is found, and the bytes that the
  metered no-op occupies (R175). -/
  | illegal (cause foundAt occupied : Nat)
  deriving DecidableEq, Repr

/-- The prefix bytes seen so far, in order, and the GUARD address field. -/
structure Prefixes where
  seen : List Nat
  guard : Option Nat
  deriving DecidableEq, Repr

/-- The prefix byte `p` is repeated or conflicts with an earlier one (R159, cause 3). -/
def prefixClash (seen : List Nat) (p : Nat) : Bool :=
  let sz := [0xE1, 0xE2, 0xE3]
  let sv := [0xE4, 0xE5, 0xE6]
  let any (l : List Nat) : Bool := seen.any (fun q => l.contains q)
  seen.contains p ||
  (sz.contains p && (any sz || any sv)) ||
  (sv.contains p && (any sz || any sv)) ||
  ([0xEC, 0xED].contains p && any [0xEC, 0xED])

/-- A prefix byte that R156 reserves (cause 1). -/
def prefixReserved (p : Nat) : Bool := (0xE9 ≤ p && p ≤ 0xEB) || 0xEE ≤ p

/-- The prefix scan from byte `i`: the index of the head byte and the prefixes, or an illegal form.
`fuel` bounds the bytes it looks at. -/
def scanPrefixes (b : Nat → Nat) : Nat → Nat → Prefixes → Except (Nat × Nat) (Nat × Prefixes)
  | 0, i, p => .ok (i, p)
  | fuel + 1, i, p =>
    let v := b i
    if v < 0xE0 then .ok (i, p)
    else if prefixReserved v then .error (1, i)
    else if 4 ≤ p.seen.length then .error (2, i)
    else if prefixClash p.seen v then .error (3, i)
    else if p.seen.any (fun q => q == 0xEC || q == 0xED) then .error (4, i)
    else if v = 0xE0 then
      let g := b (i + 1) + 256 * b (i + 2)
      if 0x4000 ≤ g then .error (5, i + 2)
      else scanPrefixes b fuel (i + 3) { seen := p.seen ++ [v], guard := some g }
    else scanPrefixes b fuel (i + 1) { p with seen := p.seen ++ [v] }

/-- The length of a specifier by its mode nibble; none for a reserved mode (R164). -/
def specLen (mode : Nat) : Option Nat :=
  match mode with
  | 0x0 => some 2 | 0x1 => some 3 | 0x2 => some 2 | 0x3 => some 3 | 0x4 => some 3
  | 0x5 => some 2 | 0x6 => some 3 | 0x7 => some 5 | 0x8 => some 3 | 0x9 => some 2
  | 0xA => some 1 | 0xB => some 1 | 0xC => some 3
  | _ => none

/-- The specifier at byte `i`, and whether one of its reserved bits is 1 (R164). -/
def specAt (b : Nat → Nat) (i : Nat) : Spec × Bool :=
  let lo := b i % 16
  let b1 := b (i + 1)
  let b2 := b (i + 2)
  match b i / 16 with
  | 0x0 => (.wd (lo * 256 + b1), false)
  | 0x1 => (.wi b1 b2, lo != 0)
  | 0x2 => (.wip b1, lo != 0)
  | 0x3 => (.wix b1 b2 (2 ^ (lo % 4)), 4 ≤ lo)
  | 0x4 => (.rd (lo % 8 * 65536 + b2 * 256 + b1), 8 ≤ lo)
  | 0x5 => (.imm8 b1, lo != 0)
  | 0x6 => (.imm16 (b1 + 256 * b2), lo != 0)
  | 0x7 => (.imm32 (b1 + 256 * b2 + 65536 * b (i + 3) + 16777216 * b (i + 4)), lo != 0)
  | 0x8 => (.bit (b1 + 256 * (b2 % 64)), lo != 0 || 64 ≤ b2)
  | 0x9 => (.pw (lo * 256 + b1), false)
  | 0xA => (.small lo, false)
  | 0xB => (.ws lo, false)
  | _ => (.code (b1 + 256 * b2), lo != 0)

/-- The specifiers from byte `i`: cause 8 or 9, or the specifiers, a reserved-bit mark and the end. -/
def scanSpecs (b : Nat → Nat) : List Role → Nat → Except (Nat × Nat) (List Spec × Bool × Nat)
  | [], i => .ok ([], false, i)
  | _ :: rs, i =>
    if 15 ≤ i then .error (9, 14)
    else match specLen (b i / 16) with
      | none => .error (8, i)
      | some n =>
        if 15 < i + n then .error (9, i)
        else
          let (sp, bad) := specAt b i
          match scanSpecs b rs (i + n) with
          | .error e => .error e
          | .ok (l, bad', j) => .ok (sp :: l, bad || bad', j)

/-- A mode that R165 excludes for the role. -/
def modeExcluded (r : Role) (sp : Spec) : Bool :=
  match r, sp with
  | .src, _ => false
  | .c, .wi .. | .c, .wip .. | .c, .wix .. => false
  | .c, _ => true
  | _, .imm8 _ | _, .imm16 _ | _, .imm32 _ | _, .small _ | _, .code _ => true
  | _, _ => false

/-- A reserved bit of a fixed field is 1, or a CHAN operation code is undefined (R162, R441, cause 10). -/
def fixedBad (op v : Nat) : Bool :=
  if op = 0x128 || op = 0x129 then bits v 7 6 != 0 || bits v 15 11 != 0
  else if op = 0x12A then bit v 3
  else if op = 0x12B then 7 ≤ v
  else false

/-- The prefixes that the row does not accept, or GUARD without condition 101 or 110 (cause 11). -/
def prefixRefused (r : OpRow) (p : Prefixes) (cond : Nat) : Bool :=
  p.seen.any (fun v =>
    ((0xE1 ≤ v && v ≤ 0xE3) && !r.w) || ((0xE4 ≤ v && v ≤ 0xE6) && !r.vec) ||
    (v == 0xE7 && !r.atom) || (v == 0xE8 && !r.setf) ||
    (v == 0xE0 && !(cond == 5 || cond == 6)))

/-- Operand size that the prefixes select, in bytes: 128 bits for the short vectors (R118, R170). -/
def sizeOf (op : Nat) (seen : List Nat) : Nat :=
  if 0x200 ≤ op && op ≤ 0x213 then 16
  else if seen.contains 0xE1 then 1 else if seen.contains 0xE2 then 2
  else if seen.contains 0xE3 then 8 else 4

/-- Lane size in bits (R170). -/
def laneOf (op : Nat) (seen : List Nat) : Nat :=
  if 0x210 ≤ op && op ≤ 0x212 then 8 else if op = 0x213 then 16
  else if seen.contains 0xE4 then 8 else if seen.contains 0xE5 then 16 else 32

/-- The fixed field of `n` bytes at byte `i`, little-endian (R162). -/
def fixedAt (b : Nat → Nat) (i n : Nat) : Nat :=
  if n = 0 then 0 else if n = 1 then b i else b i + 256 * b (i + 1)

/-- After the opcode is known: fixed field, specifiers, and the forms found at the last byte. -/
def finishDecode (b : Nat → Nat) (r : OpRow) (p : Prefixes) (cond i : Nat) : Predecoded :=
  if 15 < i + r.fixed then .illegal 9 (min i 14) 15
  else match scanSpecs b r.roles (i + r.fixed) with
    | .error (c, at_) => .illegal c at_ (if c = 9 then 15 else at_ + 1)
    | .ok (specs, bad, len) =>
      let fx := fixedAt b i r.fixed
      if bad || fixedBad r.op fx then .illegal 10 (len - 1) len
      else if prefixRefused r p cond then .illegal 11 (len - 1) len
      else if (r.roles.zip specs).any (fun q => modeExcluded q.1 q.2) then .illegal 12 (len - 1) len
      else .ok { op := r.op, cond := cond, guard := p.guard, size := sizeOf r.op p.seen,
                 lane := laneOf r.op p.seen, atom := p.seen.contains 0xE7,
                 setf := p.seen.contains 0xE8, fixed := fx, specs := specs, len := len }

/-- PREDECODE (R152-R175) of the bytes `b 0`, `b 1`, … that start at the instruction's address. -/
def predecode (b : Nat → Nat) : Predecoded :=
  match scanPrefixes b 6 0 { seen := [], guard := none } with
  | .error (c, i) => .illegal c i (i + 1)
  | .ok (i, p) =>
    let head := b i
    let cond := head / 32
    let major := head % 32
    let pg := if p.seen.contains 0xEC then 1 else if p.seen.contains 0xED then 2 else 0
    if pg = 0 then
      match opRow major with
      | none => .illegal 7 i (i + 1)
      | some r => finishDecode b r p cond (i + 1)
    else if major != 0 then .illegal 6 i (i + 1)
    else match opRow (pg * 256 + b (i + 1)) with
      | none => .illegal 7 (i + 1) (i + 2)
      | some r => finishDecode b r p cond (i + 2)

end Sys2Proof.Machine
end

