-- ==== Sys2Proof/Machine/Operands.lean ====
section
/-!
DEFINITION. Operand forms: effective addresses, address faults, ECC of the words read, values and writes
(chapter 04).

`resolve` forms one operand: its location, the memory words that reading it touches and the post-increment
it makes.  It answers a `Flt` where the operand is an address fault or meets an uncorrectable word.
-/

namespace Sys2Proof.Machine

/-- An address fault or an uncorrectable operand word, as BORE_TFAULT records it (R151, R580). -/
structure Flt where
  /-- 1 address fault, 2 uncorrectable ECC. -/
  cause : Nat
  space : Nat
  addr : Nat
  half : Nat
  detail : Nat
  /-- The uncorrectable word, for cause 2. -/
  word : Option (Mem × Nat)
  deriving DecidableEq, Repr

/-- An address fault without a half. -/
def Flt.at_ (space addr : Nat) : Flt := { cause := 1, space := space, addr := addr, half := 0, detail := 0, word := none }

/-- An address fault of SPACE 7 (R580). -/
def Flt.none_ (detail addr : Nat) : Flt :=
  { cause := 1, space := 7, addr := addr % 2 ^ 20, half := 0, detail := detail, word := none }

/-- A resolved operand. -/
structure Opnd where
  loc : Loc
  /-- Size in bytes. -/
  n : Nat
  /-- The words that the instruction reads for it, with pointer and index words (R145, R146). -/
  touch : List (Mem × Nat)
  /-- The pointer word that a WIP operand advances, and by how much (R120, R122). -/
  inc : Option (Nat × Nat)
  deriving DecidableEq, Repr

/-- How an instruction uses an operand; `atom` asks for the alignment of R127. -/
structure Use where
  rd : Bool
  wr : Bool
  atom : Bool
  deriving DecidableEq, Repr

/-- An immediate of a `n`-byte operand (R118); none for an operand in memory. -/
def Spec.immVal (sp : Spec) (n : Nat) : Option Nat :=
  match sp with
  | .imm8 v => some (wrap (8 * n) (sgn 8 v))
  | .imm16 v => some (v % 2 ^ (8 * n))
  | .imm32 v => some (wrap (8 * n) (sgn 32 v))
  | .small v => some (v % 2 ^ (8 * n))
  | _ => none

/-- The first byte and the bank of the first half, of an access of `n` bytes at `a`, that holds a word that is `bad`;
an access of one word has no bank (R124, R151).
(DESIGN CHOICE, unsafe: log entry 108.) -/
def faultHalf (a n : Nat) (bad : Nat → Bool) : Nat × Nat :=
  let w0 := a / 4
  if (a + n - 1) / 4 = w0 then (a, 0)
  else if (wordsOf a n).any (fun w => bad w && w % 2 == w0 % 2) then (a, w0 % 2)
  else (4 * (w0 + 1), (w0 + 1) % 2)

/-- An access of `n` bytes at `a` in a memory of `lim` bytes: R124 and R126. -/
def checkSpan (space lim a n : Nat) (atom : Bool) : Option Flt :=
  if lim < a + n then
    let (ad, h) := faultHalf a n (fun w => decide (lim ≤ 4 * w))
    some { cause := 1, space := space, addr := ad % 2 ^ 20, half := h, detail := 0, word := none }
  else if n = 16 ∧ a % 4 ≠ 0 then some (Flt.at_ space (a % 2 ^ 20))
  else if atom ∧ a % n ≠ 0 then
    let (ad, h) := faultHalf a n (fun _ => true)
    some { cause := 1, space := space, addr := ad % 2 ^ 20, half := h, detail := 0, word := none }
  else none

/-- A port-window access of `n` bytes: the permitted forms of R134, aligned under ATOM (R127). -/
def checkPort (off n : Nat) (u : Use) : Option Flt :=
  let inside := decide (0x20000 ≤ off ∧ off + n ≤ 0x40000)
  let okRd := ((n == 1 || n == 2) && decide (off % 4 + n ≤ 4)) || (n == 4 && off % 4 == 0) || (n == 8 && off % 8 == 0)
  let okWr := (n == 4 && off % 4 == 0) || (n == 8 && off % 8 == 0)
  if inside && (!u.rd || okRd) && (!u.wr || okWr) && okRd && (!u.atom || off % n == 0) then none
  else some (Flt.at_ 3 (off % 2 ^ 20))

/-- The first uncorrectable word among those an access of `n` bytes at `a` reads. -/
def checkEcc (s : State) (m : Mem) (space a n : Nat) (ws : List Nat) : Option Flt :=
  match ws.find? (fun w => s.isUe m w) with
  | none => none
  | some w =>
    let (ad, h) := faultHalf a n (fun w => ws.contains w && s.isUe m w)
    some { cause := 2, space := space, addr := ad % 2 ^ 20, half := h, detail := 0, word := some (m, w) }

/-- The words that an operand reads: all of them where it is read, else those it writes only in part (R146). -/
def readWords (u : Use) (a n : Nat) : List Nat := if u.rd then wordsOf a n else partWords a n

/-- The operand at `addr` of a space numbered as R121 numbers it; `ptr` is the pointer that named it. -/
def placeIn (s : State) (x space addr ptr n : Nat) (u : Use) : Except Flt (Loc × List (Mem × Nat)) :=
  match space with
  | 0 =>
    match checkSpan 0 0x1000 addr n u.atom with
    | some f => .error f
    | none =>
      let ws := readWords u addr n
      match checkEcc s (.well x) 0 addr n ws with
      | some f => .error f
      | none => .ok (.well addr, ws.map (fun w => (.well x, w)))
  | 1 =>
    match checkSpan 1 0x80000 addr n u.atom with
    | some f => .error f
    | none =>
      let ws := readWords u addr n
      match checkEcc s (.reservoir (lbOf x)) 1 addr n ws with
      | some f => .error f
      | none => .ok (.res addr, ws.map (fun w => (.reservoir (lbOf x), w)))
  | 2 => .error (Flt.at_ 2 (ptr % 2 ^ 20))
  | 3 =>
    match checkPort addr n u with
    | some f => .error f
    | none => .ok (.port addr, [])
  | 4 =>
    if u.wr then .error (Flt.at_ 4 (addr % 2 ^ 20))
    else
      match checkSpan 4 0x40000 addr n u.atom with
      | some f => .error f
      | none =>
        let bank := s.bankOf x
        let ws := wordsOf addr n
        match checkEcc s (.code (lbOf x) bank) 4 addr n ws with
        | some f => .error f
        | none => .ok (.code addr, ws.map (fun w => (.code (lbOf x) bank, w)))
  | _ => .error (Flt.at_ 6 (ptr % 2 ^ 20))

/-- A well word read to form an address: its value, or an ECC fault (R146). -/
def addrWord (s : State) (x a : Nat) : Except Flt Nat :=
  match checkEcc s (.well x) 0 a 4 [a / 4] with
  | some f => .error f
  | none => .ok (s.wellWord x a)

/-- The pointer that a specifier goes through: pointer word value, address formed, words read, increment. -/
def pointerOf (s : State) (x : Nat) (sp : Spec) (n : Nat) :
    Except Flt (Option (Nat × Nat × List (Mem × Nat) × Option (Nat × Nat))) :=
  match sp with
  | .wi k d => do
    let p ← addrWord s x (4 * k)
    .ok (some (p, wrap 29 ((p % 2 ^ 29 : Nat) + sgn 8 d), [(.well x, k)], none))
  | .wip k => do
    let p ← addrWord s x (4 * k)
    .ok (some (p, p % 2 ^ 29, [(.well x, k)], some (k, n)))
  | .wix k j c => do
    let p ← addrWord s x (4 * k)
    let i ← addrWord s x (4 * j)
    .ok (some (p, wrap 29 ((p % 2 ^ 29 : Nat) + sgn 32 i * (c : Int)), [(.well x, k), (.well x, j)], none))
  | _ => .ok none

/-- Form an operand of `n` bytes of the instruction at code address `pc` (R120-R127). -/
def resolve (s : State) (x pc : Nat) (sp : Spec) (n : Nat) (u : Use) : Except Flt Opnd := do
  match ← pointerOf s x sp n with
  | some (p, ad, ws, inc) =>
    let (l, ws') ← placeIn s x (p / 2 ^ 29) ad p n u
    .ok { loc := l, n := n, touch := ws ++ ws', inc := inc }
  | none =>
    match sp with
    | .wd a => do
      let (l, ws) ← placeIn s x 0 a 0 n u
      .ok { loc := l, n := n, touch := ws, inc := none }
    | .ws m => do
      let (l, ws) ← placeIn s x 0 (4 * m) 0 n u
      .ok { loc := l, n := n, touch := ws, inc := none }
    | .rd a => do
      let (l, ws) ← placeIn s x 1 a 0 n u
      .ok { loc := l, n := n, touch := ws, inc := none }
    | .code d => do
      let (l, ws) ← placeIn s x 4 (wrap 18 ((pc : Int) + sgn 16 d)) 0 n u
      .ok { loc := l, n := n, touch := ws, inc := none }
    | .pw o => do
      let w ← addrWord s x 0xFFC
      let wb := w % 256
      if wb < 0x20 ∨ 0x40 ≤ wb then .error (Flt.at_ 3 ((wb * 0x1000 + o) % 2 ^ 20))
      let (l, ws) ← placeIn s x 3 (wb * 0x1000 + o) 0 n u
      .ok { loc := l, n := n, touch := (.well x, 0xFFC / 4) :: ws, inc := none }
    | .bit a =>
      let (m, w) := bitWord x a
      if s.isUe m w then .error { cause := 2, space := 5, addr := a, half := 0, detail := 0, word := some (m, w) }
      else .ok { loc := .bit a, n := n, touch := [(m, w)], inc := none }
    | _ => .ok { loc := .imm ((sp.immVal n).getD 0), n := n, touch := [], inc := none }

/-- The value of `n` bytes at a location, as an instruction of Lx reads it; `win` reads a register image. -/
def readLoc (s : State) (win : State → Nat → Word) (x : Nat) (atom : Bool) (l : Loc) (n : Nat) : Nat :=
  match l with
  | .imm v => v
  | .well a => readLE (s.th x).well a n
  | .res a => (s.lb (lbOf x)).resRead atom a n
  | .bit a => b2n (s.bitSeen x a)
  | .code a => readLE (s.codeOf x) a n
  | .port off =>
    let w := (win s (off - off % 4)).toNat / 2 ^ (8 * (off % 4))
    if n = 8 then w + 2 ^ 32 * (win s (off + 4)).toNat else w % 2 ^ (8 * n)
  | .cis _ => 0

/-! ### Operand sizes and uses by opcode -/

/-- The operands of an opcode that it reads at a size other than the operand size (chapter 06). -/
def opSizes (d : Dec) : List Nat :=
  let n := d.size
  match d.op with
  | 0x112 | 0x113 => [n, n, 4]
  | 0x114 | 0x115 => [4, n, 4]
  | 0x118 | 0x119 => [16, 16, 16]
  | 0x11A => [16, 16]
  | 0x11B => [16]
  | 0x130 => [4, 16, 4]
  | _ => d.specs.map (fun _ => n)

/-- Opcodes that read their destination: SWAP, BNOT, INC, DEC, BFI, CRC32, CRC32C, TAG, CAS, RSTKD, TPERM2,
VSEL. -/
def readsDest (op : Nat) : Bool :=
  [0x01D, 0x015, 0x017, 0x018, 0x113, 0x114, 0x115, 0x01B, 0x125, 0x143, 0x211, 0x20B].contains op

/-- XCHG, CAS and FADD: atomic in every memory operand, with an ATOM prefix that changes nothing (R160, R209). -/
def atomicOp (op : Nat) : Bool := 0x124 ≤ op && op ≤ 0x126

/-- The use of an operand by its role (R127, R165, R184, R210). -/
def useOf (d : Dec) (r : Role) : Use :=
  match r with
  | .d | .s => { rd := readsDest d.op, wr := true, atom := d.atom && d.op != 0x01D && !atomicOp d.op }
  | .m => { rd := true, wr := true, atom := d.atom || atomicOp d.op }
  | .c | .src => { rd := true, wr := false, atom := d.atom && !atomicOp d.op }

/-- The instruction being executed: thread, code address, form, operands and the values that it read (R128). -/
structure Ctx where
  x : Nat
  pc : Nat
  dec : Dec
  ops : List Opnd
  vals : List Nat
  deriving DecidableEq, Repr

/-- Operand `i` of an instruction. -/
def Ctx.op (c : Ctx) (i : Nat) : Opnd := c.ops.getD i { loc := .imm 0, n := 4, touch := [], inc := none }

/-- The value read of operand `i`. -/
def Ctx.val (c : Ctx) (i : Nat) : Nat := c.vals.getD i 0

/-- Specifier `i` of an instruction. -/
def Ctx.spec (c : Ctx) (i : Nat) : Spec := c.dec.specs.getD i (.small 0)

end Sys2Proof.Machine
end

