-- ==== Sys2Proof/Machine/Flags.lean ====
section
/-!
DEFINITION. Scalar results and flags (chapter 06): every computation of the arithmetic, logic, shift, bit
field, multiply, divide, CRC, tag and time instructions, as functions of exact integers.
-/

namespace Sys2Proof.Machine

/-- What a scalar computation gives: the result, and C and V under SETF (R179).  Z and N follow the result.
(DEDUCED, unsafe: log entry 27.) -/
structure AluOut where
  r : Nat
  c : Bool
  v : Bool
  deriving DecidableEq, Repr

/-- A computation at width `w` on a, b, the old destination, and the flags C and G. -/
abbrev Alu := (w a b d : Nat) → (c g : Bool) → AluOut

/-- The value does not fit in `w` signed bits. -/
def outside (w : Nat) (v : Int) : Bool := decide (v < -((2 ^ (w - 1) : Nat) : Int)) || decide (((2 ^ (w - 1) : Nat) : Int) ≤ v)

/-- Signed saturation to `w` bits (R185). -/
def clampS (w : Nat) (v : Int) : Int :=
  max (-((2 ^ (w - 1) : Nat) : Int)) (min (((2 ^ (w - 1) : Nat) : Int) - 1) v)

/-- A result without C and V. -/
def plain (r : Nat) : AluOut := { r := r, c := false, v := false }

def aluMov : Alu := fun w a _ _ _ _ => plain (a % 2 ^ w)
def aluSel : Alu := fun w a b _ _ g => plain (if g then a % 2 ^ w else b % 2 ^ w)
def aluAdd : Alu := fun w a b _ _ _ =>
  { r := (a + b) % 2 ^ w, c := decide (2 ^ w ≤ a + b), v := outside w (sgn w a + sgn w b) }
def aluAdc : Alu := fun w a b _ c _ =>
  { r := (a + b + b2n c) % 2 ^ w, c := decide (2 ^ w ≤ a + b + b2n c), v := outside w (sgn w a + sgn w b + b2n c) }
def aluSub : Alu := fun w a b _ _ _ =>
  { r := wrap w ((a : Int) - b), c := decide (a < b), v := outside w (sgn w a - sgn w b) }
def aluSbc : Alu := fun w a b _ c _ =>
  { r := wrap w ((a : Int) - b - b2n c), c := decide (a < b + b2n c), v := outside w (sgn w a - sgn w b - b2n c) }
def aluAdds : Alu := fun w a b _ _ _ =>
  { r := wrap w (clampS w (sgn w a + sgn w b)), c := false, v := outside w (sgn w a + sgn w b) }
def aluSubs : Alu := fun w a b _ _ _ =>
  { r := wrap w (clampS w (sgn w a - sgn w b)), c := false, v := outside w (sgn w a - sgn w b) }
def aluInc : Alu := fun w _ _ d _ _ =>
  { r := (d + 1) % 2 ^ w, c := decide (d = 2 ^ w - 1), v := decide (sgn w d = 2 ^ (w - 1) - 1) }
def aluDec : Alu := fun w _ _ d _ _ =>
  { r := wrap w ((d : Int) - 1), c := decide (d = 0), v := decide (sgn w d = -(2 ^ (w - 1) : Int)) }
def aluNeg : Alu := fun w a _ _ _ _ =>
  { r := wrap w (-(a : Int)), c := decide (a ≠ 0), v := decide (sgn w a = -(2 ^ (w - 1) : Int)) }
def aluAbs : Alu := fun w a _ _ _ _ =>
  { r := if 0 ≤ sgn w a then a else wrap w (-(a : Int)), c := false, v := decide (sgn w a = -(2 ^ (w - 1) : Int)) }
def aluMin : Alu := fun w a b _ _ _ => plain (if sgn w a ≤ sgn w b then a else b)
def aluMax : Alu := fun w a b _ _ _ => plain (if sgn w b ≤ sgn w a then a else b)
def aluMinu : Alu := fun _ a b _ _ _ => plain (if a ≤ b then a else b)
def aluMaxu : Alu := fun _ a b _ _ _ => plain (if b ≤ a then a else b)
def aluAnd : Alu := fun _ a b _ _ _ => plain (a &&& b)
def aluOr : Alu := fun _ a b _ _ _ => plain (a ||| b)
def aluXor : Alu := fun _ a b _ _ _ => plain (a ^^^ b)

/-- Leading zero bits of `a` in `w` bits. -/
def clz (a : Nat) : Nat → Nat
  | 0 => 0
  | w + 1 => if bit a w then 0 else clz a w + 1

/-- 1 bits of `a` among its `w` low bits. -/
def popc (a : Nat) : Nat → Nat
  | 0 => 0
  | w + 1 => b2n (bit a w) + popc a w

def aluClz : Alu := fun w a _ _ _ _ => { r := clz a w, c := decide (a = 0), v := false }
def aluPopc : Alu := fun w a _ _ _ _ => plain (popc a w)
def aluBswap : Alu := fun w a _ _ _ _ => plain (ofBytes (toBytes (w / 8) a).reverse)

/-- BFX (R188). -/
def aluBfx : Alu := fun w a b _ _ _ =>
  let pos := bits b 5 0
  let width := bits b 13 8 + 1
  if w ≤ pos then plain 0
  else
    let top := min (pos + width) w - 1
    let f := bits a top pos
    plain (if bit b 15 then wrap w (sgn (top - pos + 1) f) else f)

/-- BFI (R188): bits POS to POS + WIDM1 of d, those below w, take the low bits of a. -/
def aluBfi : Alu := fun w a b d _ _ =>
  let pos := bits b 5 0
  let width := bits b 13 8 + 1
  if w ≤ pos then plain d
  else
    let n := min width (w - pos)
    plain (d - bits d (pos + n - 1) pos * 2 ^ pos + a % 2 ^ n * 2 ^ pos)

def aluShl : Alu := fun w a c _ _ _ =>
  if c = 0 then plain a
  else if c < w then { r := a * 2 ^ c % 2 ^ w, c := bit a (w - c), v := false }
  else { r := 0, c := decide (c = w) && bit a 0, v := false }
def aluShr : Alu := fun w a c _ _ _ =>
  if c = 0 then plain a
  else if c < w then { r := a / 2 ^ c, c := bit a (c - 1), v := false }
  else { r := 0, c := decide (c = w) && bit a (w - 1), v := false }
def aluSar : Alu := fun w a c _ _ _ =>
  if c = 0 then plain a
  else if c < w then { r := wrap w (sgn w a / 2 ^ c), c := bit a (c - 1), v := false }
  else { r := if bit a (w - 1) then 2 ^ w - 1 else 0, c := bit a (w - 1), v := false }
def aluRol : Alu := fun w a c _ _ _ =>
  let k := c % w
  let r := a * 2 ^ k % 2 ^ w + a / 2 ^ (w - k)
  let r := if k = 0 then a else r
  { r := r, c := bit r 0, v := false }

def aluMul : Alu := fun w a b _ _ _ =>
  { r := a * b % 2 ^ w, c := decide (2 ^ w ≤ a * b), v := outside w (sgn w a * sgn w b) }
def aluMulh : Alu := fun w a b _ _ _ => plain (wrap w (sgn w a * sgn w b / ((2 ^ w : Nat) : Int)))
def aluMulhu : Alu := fun w a b _ _ _ => plain (a * b / 2 ^ w)

/-- DIV (R192): truncated towards zero; 0 for a zero divisor; MIN and V for MIN / -1. -/
def aluDiv : Alu := fun w a b _ _ _ =>
  if b = 0 then plain 0
  else { r := wrap w (Int.tdiv (sgn w a) (sgn w b)), c := false,
         v := decide (sgn w a = -(2 ^ (w - 1) : Int) ∧ sgn w b = -1) }
/-- REM (R192): the sign of the dividend; the dividend for a zero divisor. -/
def aluRem : Alu := fun w a b _ _ _ =>
  if b = 0 then plain a else plain (wrap w (Int.tmod (sgn w a) (sgn w b)))
def aluDivu : Alu := fun _ a b _ _ _ => plain (if b = 0 then 0 else a / b)
def aluRemu : Alu := fun _ a b _ _ _ => plain (if b = 0 then a else a % b)

def aluBmov : Alu := fun _ a _ _ _ _ => plain (if a ≠ 0 then 1 else 0)
def aluBset : Alu := fun _ _ _ _ _ _ => plain 1
def aluBclr : Alu := fun _ _ _ _ _ _ => plain 0
def aluBnot : Alu := fun _ _ _ d _ _ => plain (if d = 0 then 1 else 0)

/-! ### Flags (R179) -/

/-- The flag writes of a result `r` at width `w`, as private bit addresses and values. -/
def flagWrites (w : Nat) (o : AluOut) : List (Nat × Bool) :=
  [(flagZ, decide (o.r = 0)), (flagC, o.c), (flagV, o.v), (flagN, bit o.r (w - 1))]

/-- Write flags of Lx. -/
def State.setFlags (s : State) (x : Nat) (fs : List (Nat × Bool)) : State :=
  fs.foldl (fun s f => s.setFlag x f.1 f.2) s

/-- The flags of Lx whose result has become visible by stroke `n` are written (R178). -/
def State.landFlags (s : State) (x n : Nat) : State :=
  let due := (s.th x).flagsDue.filter (fun d => d.due ≤ n)
  if due.isEmpty then s
  else due.foldl (fun s d => s.setFlags x d.fs)
    (s.modTh x (fun t => { t with flagsDue := t.flagsDue.filter (fun d => !(d.due ≤ n)) }))

/-! ### CRC and integrity tags (R202, R204) -/

def poly32 : Nat := 0xEDB88320
def poly32c : Nat := 0x82F63B78

/-- Shift a CRC state by one bit `k` times. -/
def crcShift (poly : Nat) : Nat → Nat → Nat
  | 0, st => st
  | k + 1, st => crcShift poly k (if st % 2 = 1 then (st / 2) ^^^ poly else st / 2)

/-- One byte of a reflected CRC (`crc_step` of R202). -/
def crcStep (poly st byte : Nat) : Nat := crcShift poly 8 (st ^^^ (byte % 256))

/-- A CRC state advanced over a list of bytes. -/
def crcBytes (poly st : Nat) (bs : List Nat) : Nat := bs.foldl (crcStep poly) st

/-- The finished CRC-32C of a list of bytes: initial value all ones, inverted at the end. -/
def crc32cFinal (bs : List Nat) : Nat := crcBytes poly32c 0xFFFFFFFF bs ^^^ 0xFFFFFFFF

/-- `n` zero bytes run through a CRC state. -/
def crcZeros (poly : Nat) : Nat → Nat → Nat
  | 0, st => st
  | n + 1, st => crcZeros poly n (crcStep poly st 0)

/-- The tag after a change `a` of four bytes that `n` bytes follow (R204). -/
def tagUpdate (d a n : Nat) : Nat := d ^^^ crcZeros poly32c n (crcBytes poly32c 0 (toBytes 4 a))

/-! ### Time values (R205-R207) -/

/-- 10^9 nanoseconds in units of 2^-16 ns. -/
def secUnits : Int := 65536000000000

/-- The quantity T of R206, with SEC taken as unsigned. -/
def timeQ (v : Nat) : Int :=
  ((bits v 111 48 : Nat) : Int) * secUnits + ((bits v 47 16 * 65536 + bits v 15 0 : Nat) : Int)

/-- The quantity T of R206, with SEC taken as two's complement. -/
def timeQs (v : Nat) : Int :=
  sgn 64 (bits v 111 48) * secUnits + ((bits v 47 16 * 65536 + bits v 15 0 : Nat) : Int)

/-- A quantity as a normalised time value with an epoch and MIXED (R205, R206). -/
def timeOf (q : Int) (epoch : Nat) (mixed : Bool) : Nat :=
  let sec := wrap 64 (q / secUnits)
  let rest := (q % secUnits).toNat
  rest % 65536 + 65536 * (rest / 65536) + 2 ^ 48 * sec + 2 ^ 112 * (epoch % 256) + 2 ^ 120 * b2n mixed

def timeEpoch (v : Nat) : Nat := bits v 119 112

/-- TADD (R207). -/
def timeAdd (a b : Nat) : Nat := timeOf (timeQ a + timeQ b) (timeEpoch a) false

/-- TSUB (R207). -/
def timeSub (a b : Nat) : Nat := timeOf (timeQ a - timeQ b) (timeEpoch a) (timeEpoch a != timeEpoch b)

/-- The flags of TCMP (R207): Z, C, N, V. -/
def timeCmp (a b : Nat) : List (Nat × Bool) :=
  [(flagZ, decide (timeQ a = timeQ b)), (flagC, decide (timeQ a < timeQ b)),
   (flagN, decide (timeQs a < timeQs b)), (flagV, timeEpoch a != timeEpoch b)]

/-- A number of nanoseconds as a time operand: FRAC 0, EPOCH 0 (R206); `v` has 64 bits. -/
def timeOfImm (v : Nat) : Nat := timeOf (sgn 64 v * 65536) 0 false

end Sys2Proof.Machine
end

