-- ==== Sys2Proof/Machine/Lanes.lean ====
section
/-!
DEFINITION. Vector arithmetic (chapter 07): the lane operations and table permutes of the short vectors,
and the rounding, saturation and element results of the long vectors.
-/

namespace Sys2Proof.Machine

/-! ### Short vectors: 128-bit operands as numbers (R230-R234) -/

/-- Lane `i` of `l` bits. -/
def lane (l v i : Nat) : Nat := v / 2 ^ (l * i) % 2 ^ l

/-- A number from its lanes, lane 0 first. -/
def ofLanes (l : Nat) : List Nat → Nat
  | [] => 0
  | v :: vs => v % 2 ^ l + 2 ^ l * ofLanes l vs

/-- A lane-wise operation on 128-bit operands. -/
def lanewise (l : Nat) (f : Nat → Nat → Nat) (a b : Nat) : Nat :=
  ofLanes l ((List.range (128 / l)).map (fun i => f (lane l a i) (lane l b i)))

def laneAdd (l a b : Nat) : Nat := (a + b) % 2 ^ l
def laneSub (l a b : Nat) : Nat := wrap l ((a : Int) - b)
def laneMin (l a b : Nat) : Nat := if sgn l a ≤ sgn l b then a else b
def laneMax (l a b : Nat) : Nat := if sgn l b ≤ sgn l a then a else b
def laneEq (l a b : Nat) : Nat := if a = b then 2 ^ l - 1 else 0
def laneGt (l a b : Nat) : Nat := if sgn l b < sgn l a then 2 ^ l - 1 else 0
def laneShl (l a b : Nat) : Nat := if l ≤ b then 0 else a * 2 ^ b % 2 ^ l
def laneShr (l a b : Nat) : Nat := if l ≤ b then 0 else a / 2 ^ b

/-- An immediate placed in every lane (R229). -/
def splat (l : Nat) (sp : Spec) : Nat :=
  let v := (match sp with
    | .imm8 v => wrap l (sgn 8 v)
    | .imm16 v => v
    | .imm32 v => v
    | .small v => v
    | _ => 0) % 2 ^ l
  ofLanes l (List.replicate (128 / l) v)

/-- VSEL (R231): the old d is the mask. -/
def vselOp (a b d : Nat) : Nat := (a &&& d) ||| (b &&& ((2 ^ 128 - 1) ^^^ d))

/-- TPERM (R234). -/
def tperm (a t : Nat) : Nat :=
  ofLanes 8 ((List.range 16).map (fun i =>
    let k := lane 8 t i
    if 128 ≤ k then 0 else lane 8 a (k % 16)))

/-- TPERM2 (R234): entries 0-15 are a, entries 16-31 the old d. -/
def tperm2 (a t d : Nat) : Nat :=
  ofLanes 8 ((List.range 16).map (fun i =>
    let k := lane 8 t i
    if 128 ≤ k then 0 else if k % 32 < 16 then lane 8 a (k % 32) else lane 8 d (k % 32 - 16)))

/-- TLUT (R234). -/
def tlut (a t : Nat) : Nat := ofLanes 8 ((List.range 16).map (fun i => lane 8 t (lane 4 a i)))

/-- TLUT16 (R234). -/
def tlut16 (a t : Nat) : Nat :=
  ofLanes 16 ((List.range 8).map (fun j =>
    let k := lane 16 a j % 256
    if 128 ≤ k then 0 else lane 16 t (k % 8)))

/-! ### Long vectors (R237-R240) -/

/-- The nearest integer to `n / 2^k`, ties to even (R238). -/
def rne (n : Int) (k : Nat) : Int :=
  let m : Int := ((2 ^ k : Nat) : Int)
  let q := n / m
  let r := n % m
  if k = 0 then n
  else if 2 * r < m then q
  else if m < 2 * r then q + 1
  else if q % 2 = 0 then q else q + 1

/-- Saturation to Q1.15 and back to 16 bits (R238). -/
def satQ (v : Int) : Nat := wrap 16 (clampS 16 v)

/-- The real and imaginary parts of a complex element. -/
def partI (e : Nat) : Int := sgn 16 e
def partQ (e : Nat) : Int := sgn 16 (e / 65536)
/-- A complex element from its parts. -/
def cplx (i q : Nat) : Nat := i + 65536 * q

/-- One element of an element-wise long vector from a, b and the old d (R240); `op` is the page-2 code. -/
def lvElem (op a b d : Nat) : Nat :=
  let re := sgn 16 a
  let rb := sgn 16 b
  match op with
  | 0x21 => satQ (re + rb)
  | 0x22 => satQ (re - rb)
  | 0x23 => satQ (rne (re * rb) 15)
  | 0x24 => satQ (rne (sgn 16 d * 32768 + re * rb) 15)
  | 0x25 => cplx (satQ (rne (partI a * partI b - partQ a * partQ b) 15))
                 (satQ (rne (partI a * partQ b + partQ a * partI b) 15))
  | 0x26 => cplx (satQ (rne (partI d * 32768 + partI a * partI b - partQ a * partQ b) 15))
                 (satQ (rne (partQ d * 32768 + partI a * partQ b + partQ a * partI b) 15))
  | 0x27 => cplx (a % 65536) (satQ (-(partQ a)))
  | _ => a

/-- LVBFLY (R240): the two outputs for inputs a[i], a[VL+i] and w[i], exact before one rounding. -/
def lvButterfly (a a2 w : Nat) : Nat × Nat :=
  let ti := partI a2 * partI w - partQ a2 * partQ w
  let tq := partI a2 * partQ w + partQ a2 * partI w
  (cplx (satQ (rne (partI a * 32768 + ti) 16)) (satQ (rne (partQ a * 32768 + tq) 16)),
   cplx (satQ (rne (partI a * 32768 - ti) 16)) (satQ (rne (partQ a * 32768 - tq) 16)))

/-- The squared magnitude of LVMAXI (R240). -/
def lvMag (a : Nat) : Nat := (partI a * partI a + partQ a * partQ a).toNat

/-- The lowest index with the largest magnitude, and that magnitude (R240). -/
def lvMaxi : Nat → Nat → Nat → List Nat → Nat × Nat
  | _, bi, bm, [] => (bi, bm)
  | i, bi, bm, e :: es => if bm < lvMag e ∨ (i = 0) then lvMaxi (i + 1) i (lvMag e) es else lvMaxi (i + 1) bi bm es

/-- Real timing class: LVADD, LVSUB, LVMUL, LVMAC (R240). -/
def lvReal (op : Nat) : Bool := 0x21 ≤ op && op ≤ 0x24

/-- Element size in bytes of the a operand (R237). -/
def lvSize (op : Nat) : Nat := if lvReal op then 2 else 4

/-- The distance D in strokes (R241). -/
def lvDistance (op vl : Nat) : Nat := 6 + ceilDiv vl (if lvReal op then 16 else 4)

/-- Elements read per group (R242). -/
def lvGroup (op : Nat) : Nat := if lvReal op then 16 else 4

end Sys2Proof.Machine
end

