-- ==== Sys2Proof/Machine/Cells.lean ====
section
/-!
DEFINITION. Buffers, cells, cistern windows, handles and the CHAN operations (chapter 12, R406-R413,
R418-R423, R437-R441).
-/

namespace Sys2Proof.Machine

/-! ### Access -/

/-- A cell map entry. -/
def State.cell (s : State) (c : Nat) : Cell := tget {} s.pump.cells c
/-- Change a cell map entry. -/
def State.modCell (s : State) (c : Nat) (f : Cell → Cell) : State :=
  { s with pump := { s.pump with cells := tput s.pump.cells c (f (s.cell c)) } }
/-- A channel entry. -/
def State.chan (s : State) (i : Nat) : Chan := tget {} s.pump.chans i
/-- Change a channel entry. -/
def State.modChan (s : State) (i : Nat) (f : Chan → Chan) : State :=
  { s with pump := { s.pump with chans := tput s.pump.chans i (f (s.chan i)) } }
/-- Change the pump core's own state. -/
def State.modPump (s : State) (f : PumpSt → PumpSt) : State := { s with pump := f s.pump }

/-- Set a bit of PMP_ALARM and report it (R443): TAG faults are class 9, every other pump alarm class 14. -/
def State.pumpAlarm (s : State) (b : Nat) : State :=
  let s := s.modPump (fun p => { p with alarm := p.alarm ||| 2 ^ b, fresh := p.fresh.set s.strokes (2 ^ b) })
  s.alarmEvent 4 (if b = 4 then 9 else 14) b s.pump.alarm

/-- The four words of a cell map entry (R407). -/
def Cell.words (c : Cell) : List Nat :=
  [c.next + 2 ^ 15 * b2n c.last + 2 ^ 16 * b2n c.head + 2 ^ 17 * b2n c.used + 2 ^ 18 * b2n c.resv,
   c.len + 2 ^ 14 * b2n c.fcsb + 2 ^ 15 * b2n c.tofs12 + 2 ^ 16 * b2n c.tgen + 2 ^ 17 * b2n c.bad +
     2 ^ 18 * c.refs + 2 ^ 20 * c.owner + 2 ^ 24 * b2n c.bound,
   c.tag, c.link]

/-- The sixteen words of a channel entry (R419), with its INFLIGHT. -/
def Chan.words (c : Chan) (inflight : Nat) : List Nat :=
  [c.kind + 2 ^ 4 * c.hp + 2 ^ 8 * c.lb + 2 ^ 12 * c.nq + 2 ^ 16 * c.port + 2 ^ 21 * c.cls +
     2 ^ 24 * b2n c.tagsup + 2 ^ 25 * b2n c.spill + 2 ^ 26 * b2n c.tofs12 + 2 ^ 28 * c.state,
   c.gen + 2 ^ 16 * c.ck + 2 ^ 23 * b2n c.ckEn + 2 ^ 24 * c.ring,
   c.imgRes + 2 ^ 22 * c.imgWords, c.imgHost % 2 ^ 32, c.imgHost / 2 ^ 32,
   c.blMax + 2 ^ 16 * c.blCount, c.blHead, c.blTail, inflight, c.outCount, c.inCount,
   c.drops + 2 ^ 16 * c.tagFaults, 0, 0, 0, 0]

/-! ### Free cells (R412, R413) -/

/-- Cells in the pool: FREE of PMP_CELLS.  A cell that is used, that was returned in this stroke or that is never
allocated again is out of it, once where several of these hold. -/
def State.freeCells (s : State) : Nat :=
  let used := (s.pump.cells.filter (fun c => c.2.used)).map (·.1)
  let back := s.pump.returned.filter (fun c => !used.contains c)
  32768 - used.length - back.length - (s.pump.poisoned.filter (fun c => !used.contains c && !back.contains c)).length

/-- RX_RESERVE of PMP_RXRES. -/
def State.rxReserve (s : State) : Nat := (tget 512 s.regs 0x70014).toNat % 65536

/-- The first index below `n`, searched from `start` and wrapping, that satisfies `ok`. -/
def pickFrom (n start : Nat) (ok : Nat → Bool) : Option Nat :=
  ((List.range n).map (fun i => (start + i) % n)).find? ok

/-- A cell that may be allocated now. -/
def State.cellFree (s : State) (c : Nat) : Bool :=
  !(s.cell c).used && !s.pump.returned.contains c && !s.pump.poisoned.contains c &&
  !s.isUe .cellMap (4 * c) 

/-- Take one cell from the pool; which one is a free choice (R412).
(DESIGN CHOICE, safe: log entry 12.) -/
def State.takeCell (s : State) : Option (Nat × State) :=
  match pickFrom 32768 (Config.pick s.draws) s.cellFree with
  | none => none
  | some c =>
    let s := { s with draws := s.draws + 1 }
    let s := s.modCell c (fun _ => { used := true })
    some (c, s.modPump (fun p => { p with low := min p.low s.freeCells }))

/-- Take `n` cells, all or none. -/
def State.takeCells (s : State) : Nat → Option (List Nat × State)
  | 0 => some ([], s)
  | n + 1 => s.takeCell.bind (fun p => (p.2.takeCells n).map (fun q => (p.1 :: q.1, q.2)))

/-- Return cells to the pool; allocatable from the next stroke (R412). -/
def State.returnCells (s : State) (cs : List Nat) : State :=
  cs.foldl (fun s c => (s.modCell c (fun _ => {})).modPump (fun p => { p with returned := p.returned ++ [c] })) s

/-- The chain of cells from `c`, at most `fuel` long (R406). -/
def State.chain (s : State) : Nat → Nat → List Nat
  | 0, _ => []
  | fuel + 1, c => if (s.cell c).last then [c] else c :: s.chain fuel (s.cell c).next

/-- The cells of the buffer with head cell `h`. -/
def State.bufCells (s : State) (h : Nat) : List Nat := s.chain 64 h

/-- Link a list of cells as the chain of one buffer with header `hdr` (R406, R407). -/
def State.linkCells (s : State) (hdr : Cell) : List Nat → State
  | [] => s
  | h :: cs =>
    let rec go (s : State) (first : Bool) : List Nat → State
      | [] => s
      | [c] => s.modCell c (fun e => if first then { hdr with last := true, head := true, used := true }
                                     else { e with last := true, used := true })
      | c :: d :: rest =>
        go (s.modCell c (fun e => if first then { hdr with next := d, head := true, used := true }
                                  else { e with next := d, used := true })) false (d :: rest)
    go s true (h :: cs)

/-- The head cell that an allocation other than port receive takes, with its further cells: fails with NO_CELL
while FREE is at or below RX_RESERVE for any of them (R413).
(DEDUCED, unsafe: log entry 83.) -/
def State.allocBuf (s : State) (len : Nat) (hdr : Cell) : Option (Nat × State) :=
  let n := max 1 (ceilDiv len 256)
  if s.freeCells < s.rxReserve + n then none
  else match s.takeCells n with
    | some (h :: cs, s1) => some (h, s1.linkCells { hdr with len := len } (h :: cs))
    | _ => none

/-- Drop one reference of a buffer; at 0 its cells return to the pool (R436, R441). -/
def State.dropRef (s : State) (h : Nat) : State :=
  let r := (s.cell h).refs
  if 1 < r then s.modCell h (fun c => { c with refs := r - 1 }) else s.returnCells (s.bufCells h)

/-! ### Buffer bytes and tags (R406, R408, R437, R438) -/

/-- The cistern address of buffer byte `b`. -/
def State.bufAddr (s : State) (h b : Nat) : Nat := (s.bufCells h).getD (b / 256) 0 * 256 + b % 256

/-- `n` bytes of a buffer from byte `off`. -/
def State.bufRead (s : State) (h off n : Nat) : List Nat :=
  let cs := s.bufCells h
  (List.range n).map (fun i =>
    (byteAt s.pump.cis (cs.getD ((off + i) / 256) 0 * 256 + (off + i) % 256)).toNat)

/-- Write bytes into a buffer from byte `off`; words written in full take new check bits. -/
def State.bufWrite (s : State) (h off : Nat) (bs : List Nat) : State :=
  let cs := s.bufCells h
  let rec go (t : Tbl Byte) (i : Nat) : List Nat → Tbl Byte
    | [] => t
    | b :: bs => go (tset 0 t (cs.getD (i / 256) 0 * 256 + i % 256) (BitVec.ofNat 8 b)) (i + 1) bs
  let s := s.modPump (fun p => { p with cis := go p.cis off bs })
  if s.ecc.isEmpty then s
  else (List.range (bs.length / 4 + 1)).foldl
    (fun s i =>
      let b := off + 4 * i
      if b % 4 = 0 ∧ b + 4 ≤ off + bs.length then s.setEcc .cistern (s.bufAddr h b / 4) none else s) s

/-- A byte range of a buffer meets an uncorrectable cistern word; its word index. -/
def State.bufUe (s : State) (h off n : Nat) : Option Nat :=
  if s.ecc.isEmpty then none
  else (List.range n).findSome? (fun i =>
    let w := s.bufAddr h (off + i) / 4
    if s.isUe .cistern w then some w else none)

/-- The span of the tagged data: first byte and one past the last (R408). -/
def Cell.tagSpan (c : Cell) : Nat × Nat :=
  let lo := if c.tofs12 then 12 else 0
  let hi := if c.fcsb then c.len - 4 else c.len
  (lo, max lo hi)

/-- The tag of tagged data given the buffer's bytes from byte 0 (R408): 0 for an empty span. -/
def tagOf (c : Cell) (bs : List Nat) : Nat :=
  let (lo, hi) := c.tagSpan
  if hi ≤ lo then 0 else crc32cFinal ((bs.drop lo).take (hi - lo))

/-- The tag of a buffer as its bytes stand. -/
def State.tagNow (s : State) (h : Nat) : Nat := tagOf (s.cell h) (s.bufRead h 0 (s.cell h).len)

/-- A tag fault on a buffer of channel `ch`, where there is one (R438): BAD, counts, TAG alarm, event. -/
def State.tagFault (s : State) (h : Nat) (ch : Option Nat) : State :=
  let bref := 2 ^ 31 + h
  let s := s.modCell h (fun c => { c with bad := true })
  let s := match ch with
    | some i => s.modChan i (fun c => { c with tagFaults := satInc 16 c.tagFaults })
    | none => s
  let s := s.modPump (fun p => { p with tagFaults := satInc 32 p.tagFaults })
  (s.pumpAlarm 4).event 4 9 0x20 bref (ch.getD 0)

/-- The tag check of a move that has read a buffer (R437, R438, R440): `c` is the header as its first access found it
and `t` the tag of the data as read.  With TGEN at 1 it stores that tag and compares nothing; otherwise it answers
whether the tags matched. -/
def State.tagCheckAs (s : State) (h : Nat) (ch : Option Nat) (c : Cell) (t : Nat) : Bool × State :=
  if c.tgen then (true, s.modCell h (fun c => { c with tgen := false, tag := t }))
  else if t = c.tag then (true, s)
  else (false, s.tagFault h ch)

/-- The tag check of a move that reads a buffer as it stands. -/
def State.tagCheck (s : State) (h : Nat) (ch : Option Nat) : Bool × State := s.tagCheckAs h ch (s.cell h) (s.tagNow h)

/-! ### Handles and buffer references (R18, R19, R409, R420, R421) -/

/-- XOR of the seven nibbles [31:4] of a value. -/
def checkNibble (v : Nat) : Nat := (List.range 7).foldl (fun a i => a ^^^ (v / 16 ^ (i + 1) % 16)) 0

/-- A malformed handle (R19). -/
def malformed (h : Nat) : Bool := bits h 31 30 != 1 || checkNibble h != h % 16

/-- The handle of a channel index and generation (R18). -/
def mkHandle (idx gen : Nat) : Nat :=
  let v := 2 ^ 30 + idx * 2 ^ 16 + gen * 16
  v + checkNibble v

/-- Check a handle (R421): its channel index, or the error code; `who` is 0 for the host, 1 for a thread. -/
def State.checkHandle (s : State) (who h : Nat) : (Except Nat Nat) × State :=
  if malformed h then
    let s := s.modPump (fun p => { p with badHandle := satInc 16 p.badHandle })
    (.error 1, (s.pumpAlarm 8).event 4 14 0x21 h who)
  else
    let i := bits h 29 16
    let c := s.chan i
    if c.kind = 0 ∨ c.gen ≠ bits h 15 4 then
      (.error 2, s.modPump (fun p => { p with stale := satInc 16 p.stale }))
    else (.ok i, s)

/-- The head cell that a BREF given by firmware of logical bore `lb` names, or BAD_BREF (R409, R422). -/
def State.checkBref (s : State) (lb b : Nat) : Except Nat Nat :=
  let h := b % 2 ^ 15
  if bits b 31 30 = 2 ∧ bits b 29 15 = 0 ∧ (s.cell h).head ∧ (s.cell h).used ∧ (s.cell h).owner = 8 + lb then .ok h
  else .error 7

/-- The BREF of a head cell in the cistern. -/
def bref (h : Nat) : Nat := 2 ^ 31 + h

/-! ### Cistern windows and CHAN (R410, R411, R441) -/

/-- The head cell bound to window `w` of Lx. -/
def State.winOf (s : State) (x w : Nat) : Option Nat := ((tget none (s.th x).cwin w).map (fun b => b.toNat % 2 ^ 15))

/-- A CRD or CWR on window `w` of Lx is outstanding. -/
def State.winBusy (s : State) (x w : Nat) : Bool := (s.th x).cis.any (fun c => c.win == w)

/-- The operand check of CHAN at issue (R441, R580): none where the operation may launch. -/
def chanFault (s : State) (x op a b : Nat) : Option Flt :=
  let win := if op = 1 then b else a
  if op = 1 ∨ op = 2 ∨ op = 3 ∨ op = 4 then
    if 7 < win ∨ (op = 3 ∧ (s.winOf x win).isNone) then some (Flt.none_ 4 a) else none
  else none

/-- CHECK (R441). -/
def chanCheck (s : State) (a : Nat) : Nat × State :=
  match s.checkHandle 1 a with
  | (.error e, s) => (e, s)
  | (.ok i, s) => ((s.chan i).kind * 2 ^ 8 + (s.chan i).state * 2 ^ 12 + (s.chan i).gen * 2 ^ 16, s)

/-- BIND (R410, R441): BAD_BREF, BUSY for a window already bound, BOUND for a buffer already bound. -/
def chanBind (s : State) (x a b : Nat) : Nat × State :=
  match s.checkBref (lbOf x) a with
  | .error e => (e, s)
  | .ok h =>
    if (s.winOf x b).isSome then (0x11, s)
    else if (s.cell h).bound then (0x08, s)
    else
      let s := s.modCell h (fun c => { c with bound := true })
      ((s.cell h).len * 2 ^ 16, s.modTh x (fun t => { t with cwin := tput t.cwin b (some (BitVec.ofNat 32 a)) }))

/-- UNBIND (R411, R441): BUSY while an access on the window is outstanding. -/
def chanUnbind (s : State) (x a : Nat) : Nat × State :=
  if s.winBusy x a then (0x11, s)
  else match s.winOf x a with
    | none => (0, s)
    | some h =>
      (0, (s.modCell h (fun c => { c with bound := false })).modTh x (fun t => { t with cwin := tput t.cwin a none }))

/-- TAGGET (R441). -/
def chanTagget (s : State) (x a : Nat) : Nat × State :=
  match s.winOf x a with
  | none => (0, s)
  | some h => ((s.cell h).tag, s)

/-- TAGPUT (R441): TAG := b and TGEN := 0.  On an unbound window it answers DESC. -/
def chanTagput (s : State) (x a b : Nat) : Nat × State :=
  match s.winOf x a with
  | none => (0x0B, s)
  | some h => (0, s.modCell h (fun c => { c with tag := b, tgen := false }))

/-- ALLOC (R413, R441): a BREF owned by the logical bore, or LEN or NO_CELL. -/
def chanAlloc (s : State) (x a b : Nat) : Nat × State :=
  if a < 1 ∨ 16320 < a then (0x09, s)
  else match s.allocBuf a { refs := 1, owner := 8 + lbOf x, tgen := true, tofs12 := bit b 0 } with
    | none => (0x05, s.pumpAlarm 10)
    | some (h, s) => (bref h, s)

/-- FREE (R411, R436, R441): drops the reference of the firmware, which owns the buffer no more; a bound buffer is
refused with BOUND. -/
def chanFree (s : State) (x a : Nat) : Nat × State :=
  match s.checkBref (lbOf x) a with
  | .error e => (e, s)
  | .ok h => if (s.cell h).bound then (0x08, s) else (0, (s.modCell h (fun c => { c with owner := 0 })).dropRef h)

/-- The effect and the result of a CHAN operation (R441). -/
def chanEffect (s : State) (x op a b : Nat) : Nat × State :=
  match op with
  | 0 => chanCheck s a
  | 1 => chanBind s x a b
  | 2 => chanUnbind s x a
  | 3 => chanTagget s x a
  | 4 => chanTagput s x a b
  | 5 => chanAlloc s x a b
  | _ => chanFree s x a

end Sys2Proof.Machine
end

