-- ==== Sys2Proof/Machine/RegTable.lean ====
section
/-!
DEFINITION. The register tables of the spec (R64, R107, R108, R149, R151, R250, R288, R290, R339, R378, R404,
R444, R446, R475, R495, R532, R553, R574, R578): where each register stands, its reset value and the access
codes of its bits (R10), and the register image.
-/

namespace Sys2Proof.Machine

/-- One row of a register table.  The instances stand at `off + s1 * i + s2 * j` for i below n1 and j below n2.
`rw` holds the RW and SH bits, `rwl` the RWL bits, `w1c` the RW1C bits; every other bit is RO, WO or reserved. -/
structure RegRow where
  name : String
  off : Nat
  s1 : Nat
  n1 : Nat
  s2 : Nat
  n2 : Nat
  reset : Nat
  rw : Nat
  rwl : Nat
  w1c : Nat
  deriving DecidableEq, Repr

/-- The Id registers (R574). -/
def regsId : List RegRow :=
  [⟨"ID_VENDOR", 0x00000, 0x1, 1, 0x1, 1, 0x52454E4F, 0x00000000, 0x00000000, 0x00000000⟩,
   ⟨"ID_PART", 0x00004, 0x1, 1, 0x1, 1, 0x414B3332, 0x00000000, 0x00000000, 0x00000000⟩,
   ⟨"ID_RELEASE", 0x00008, 0x1, 1, 0x1, 1, 0x00000300, 0x00000000, 0x00000000, 0x00000000⟩,
   ⟨"ID_CONFIG", 0x0000C, 0x1, 1, 0x1, 1, 0x00008A20, 0x00000000, 0x00000000, 0x00000000⟩,
   ⟨"GLB_SCRATCH", 0x00010, 0x1, 1, 0x1, 1, 0x00000000, 0xFFFFFFFF, 0x00000000, 0x00000000⟩,
   ⟨"GLB_STATUS", 0x00014, 0x1, 1, 0x1, 1, 0x00000008, 0x00000000, 0x00000000, 0x00000000⟩,
   ⟨"GLB_IRQ0_SRC", 0x00018, 0x1, 1, 0x1, 1, 0x00000000, 0x00000000, 0x00000000, 0x00000000⟩]

/-- The Gov registers (R64, R65). -/
def regsGov : List RegRow :=
  [⟨"GOV_CTRL", 0x01000, 0x1, 1, 0x1, 1, 0x000014A2, 0x00007FF3, 0x00000000, 0x00000000⟩,
   ⟨"GOV_PACE", 0x01004, 0x1, 1, 0x1, 1, 0x00000640, 0x000007FF, 0x00000000, 0x00000000⟩,
   ⟨"GOV_LIMITS", 0x01008, 0x1, 1, 0x1, 1, 0x00783C32, 0x00000000, 0x00FFFFFF, 0x00000000⟩,
   ⟨"GOV_CEIL", 0x0100C, 0x1, 1, 0x1, 1, 0x101407D0, 0x00000000, 0x1FFF1FFF, 0x00000000⟩,
   ⟨"GOV_STATUS", 0x01010, 0x1, 1, 0x1, 1, 0x00000640, 0x00000000, 0x00000000, 0x00000000⟩,
   ⟨"GOV_ALARM", 0x01014, 0x1, 1, 0x1, 1, 0x00000000, 0x00000000, 0x00000000, 0x0000007F⟩,
   ⟨"GOV_ALARM_EN", 0x01018, 0x1, 1, 0x1, 1, 0x0000007E, 0x0000007F, 0x00000000, 0x00000000⟩,
   ⟨"GOV_EXC_COUNT", 0x0101C, 0x1, 1, 0x1, 1, 0x00000000, 0x00000000, 0x00000000, 0x00000000⟩,
   ⟨"GOV_LATE_COUNT", 0x01020, 0x1, 1, 0x1, 1, 0x00000000, 0x00000000, 0x00000000, 0x00000000⟩,
   ⟨"GOV_VREQ_CFG", 0x01024, 0x1, 1, 0x1, 1, 0x00141E0C, 0x00000000, 0x007F7F7F, 0x00000000⟩,
   ⟨"GOV_VREQ_POLICY", 0x01028, 0x1, 1, 0x1, 1, 0x00C81496, 0xFFFF1FFF, 0x00000000, 0x00000000⟩,
   ⟨"GOV_VREQ_STATUS", 0x0102C, 0x1, 1, 0x1, 1, 0x00000014, 0x00000000, 0x00000000, 0x00000000⟩,
   ⟨"GOV_VREQ_TIMEOUT", 0x01030, 0x1, 1, 0x1, 1, 0x00000064, 0x0000FFFF, 0x00000000, 0x00000000⟩,
   ⟨"GOV_SNAP_MIN", 0x01034, 0x1, 1, 0x1, 1, 0x000004FB, 0x00000000, 0x00000000, 0x00000000⟩,
   ⟨"GOV_SNAP_STROKES", 0x01038, 0x1, 1, 0x1, 1, 0x00000000, 0x00000000, 0x00000000, 0x00000000⟩,
   ⟨"GOV_HIST", 0x01040, 0x4, 16, 0x1, 1, 0x00000000, 0x00000000, 0x00000000, 0x00000000⟩]

/-- The Wh registers (R532, R533). -/
def regsWh : List RegRow :=
  [⟨"WH_STATUS", 0x02000, 0x1, 1, 0x1, 1, 0x000000AA, 0x00000000, 0x00000000, 0x00000000⟩,
   ⟨"WH_ALARM", 0x02004, 0x1, 1, 0x1, 1, 0x00000000, 0x00000000, 0x00000000, 0x0000FFFF⟩,
   ⟨"WH_ALARM_EN", 0x02008, 0x1, 1, 0x1, 1, 0x0000FFFF, 0x0000FFFF, 0x00000000, 0x00000000⟩,
   ⟨"WH_FAULT", 0x0200C, 0x1, 1, 0x1, 1, 0x00000100, 0x00000000, 0x00000000, 0x00000000⟩,
   ⟨"WH_FAULT_CLR", 0x02010, 0x1, 1, 0x1, 1, 0x00000000, 0x00000000, 0x00000000, 0x00000000⟩,
   ⟨"WH_ACTION_LO", 0x02014, 0x1, 1, 0x1, 1, 0x99DBB990, 0x00000000, 0xFFFFFFFF, 0x00000000⟩,
   ⟨"WH_ACTION_HI", 0x02018, 0x1, 1, 0x1, 1, 0xD111011D, 0x00000000, 0xFFFFFFFF, 0x00000000⟩,
   ⟨"WH_ROT_CTRL", 0x0201C, 0x1, 1, 0x1, 1, 0x00000000, 0x00000000, 0x000FFF03, 0x00000000⟩,
   ⟨"WH_SHED_ORDER", 0x02020, 0x1, 1, 0x1, 1, 0x00000000, 0x00000000, 0x77777777, 0x00000000⟩,
   ⟨"WH_ROT_STATUS", 0x02024, 0x1, 1, 0x1, 1, 0x00000F00, 0x00000000, 0x00000000, 0x00000000⟩,
   ⟨"WH_RETEST", 0x02028, 0x1, 1, 0x1, 1, 0x00000000, 0x00000000, 0x00000000, 0x00000000⟩,
   ⟨"WH_GLOCK", 0x0202C, 0x1, 1, 0x1, 1, 0x00000000, 0x000033FF, 0x00000000, 0x00000000⟩,
   ⟨"WH_CLK_STATUS", 0x02030, 0x1, 1, 0x1, 1, 0x00000000, 0x00000000, 0x00000000, 0x00000000⟩,
   ⟨"WH_CLKMON", 0x02040, 0x4, 13, 0x1, 1, 0x00000000, 0x00000000, 0xFFFFFFFF, 0x00000000⟩,
   ⟨"WH_PAIR", 0x02080, 0x8, 16, 0x1, 1, 0x00000000, 0x00000000, 0x00017F7F, 0x00000000⟩,
   ⟨"WH_PAIR_STAT", 0x02084, 0x8, 16, 0x1, 1, 0x00000000, 0x00000000, 0x00000000, 0x00000006⟩] ++
  [⟨"WH_LOG_CTRL", 0x02100, 0x1, 1, 0x1, 1, 0x00000064, 0x00000000, 0x000003FF, 0x00000000⟩,
   ⟨"WH_LOG_STATUS", 0x02104, 0x1, 1, 0x1, 1, 0x00000000, 0x00000000, 0x00000000, 0x00000000⟩,
   ⟨"WH_LOG_DROPS", 0x02108, 0x1, 1, 0x1, 1, 0x00000000, 0x00000000, 0x00000000, 0x00000000⟩,
   ⟨"WH_LOG_SEL", 0x0210C, 0x1, 1, 0x1, 1, 0x00000000, 0x0001FFFF, 0x00000000, 0x00000000⟩,
   ⟨"WH_LOG_DATA", 0x02110, 0x4, 8, 0x1, 1, 0x00000000, 0x00000000, 0x00000000, 0x00000000⟩,
   ⟨"WH_INCIDENT", 0x02140, 0x4, 8, 0x1, 1, 0x00000000, 0x00040000, 0x00000000, 0x00000000⟩,
   ⟨"WH_ALM_CNT", 0x02200, 0x4, 112, 0x1, 1, 0x00000000, 0x00000000, 0x00000000, 0x00000000⟩]

/-- The Bore registers (R107, R108, R149, R151, R250). -/
def regsBore : List RegRow :=
  [⟨"BORE_PHYS_ROLE", 0x10000, 0x1000, 10, 0x1, 1, 0x00000000, 0x00000000, 0x00000000, 0x00000000⟩,
   ⟨"BORE_PHYS_SLOT_LO", 0x10004, 0x1000, 10, 0x1, 1, 0x00000000, 0x00000000, 0x00000000, 0x00000000⟩,
   ⟨"BORE_PHYS_SLOT_HI", 0x10008, 0x1000, 10, 0x1, 1, 0x00000000, 0x00000000, 0x00000000, 0x00000000⟩,
   ⟨"BORE_PHYS_CODE_ECC", 0x1000C, 0x1000, 10, 0x1, 1, 0x00000000, 0x00000000, 0x00000000, 0x00000000⟩,
   ⟨"BORE_WHEEL_LO", 0x10800, 0x1000, 8, 0x1, 1, 0x00000000, 0xFFFFFFFF, 0x00000000, 0x00000000⟩,
   ⟨"BORE_WHEEL_HI", 0x10804, 0x1000, 8, 0x1, 1, 0x00000000, 0xFFFFFFFF, 0x00000000, 0x00000000⟩,
   ⟨"BORE_WHEEL_LIVE_LO", 0x10808, 0x1000, 8, 0x1, 1, 0x00000000, 0x00000000, 0x00000000, 0x00000000⟩,
   ⟨"BORE_WHEEL_LIVE_HI", 0x1080C, 0x1000, 8, 0x1, 1, 0x00000000, 0x00000000, 0x00000000, 0x00000000⟩,
   ⟨"BORE_STATUS", 0x10810, 0x1000, 8, 0x1, 1, 0x00000F00, 0x00000000, 0x00000000, 0x00000000⟩,
   ⟨"BORE_BUBBLES", 0x10814, 0x1000, 8, 0x1, 1, 0x00000000, 0x00000000, 0x00000000, 0x00000000⟩,
   ⟨"BORE_TCTRL", 0x10900, 0x1000, 8, 0x20, 16, 0x00000000, 0x0000FF70, 0x00000000, 0x00010000⟩,
   ⟨"BORE_TSTATE", 0x10904, 0x1000, 8, 0x20, 16, 0x00080000, 0x00000000, 0x00000000, 0x00000000⟩,
   ⟨"BORE_TPC", 0x10908, 0x1000, 8, 0x20, 16, 0x00000000, 0x0003FFFF, 0x00000000, 0x00000000⟩,
   ⟨"BORE_TVBASE", 0x1090C, 0x1000, 8, 0x20, 16, 0x00000000, 0x0003FF00, 0x00000000, 0x00000000⟩,
   ⟨"BORE_TTURNS", 0x10910, 0x1000, 8, 0x20, 16, 0x00000000, 0x00000000, 0x00000000, 0x00000000⟩,
   ⟨"BORE_TDONATE", 0x10914, 0x1000, 8, 0x20, 16, 0x00000000, 0x00000000, 0x00000000, 0x00000000⟩] ++
  [⟨"BORE_TRS_TOP", 0x10918, 0x1000, 8, 0x20, 16, 0x00000000, 0x00000000, 0x00000000, 0x00000000⟩,
   ⟨"BORE_PHYS_WELL_ECC", 0x10010, 0x1000, 10, 0x1, 1, 0x00000000, 0x00000000, 0x00000000, 0x00000000⟩,
   ⟨"BORE_PHYS_RES_ECC", 0x10014, 0x1000, 10, 0x1, 1, 0x00000000, 0x00000000, 0x00000000, 0x00000000⟩,
   ⟨"BORE_PHYS_BIT_ECC", 0x10018, 0x1000, 10, 0x1, 1, 0x00000000, 0x00000000, 0x00000000, 0x00000000⟩,
   ⟨"BORE_TFAULT", 0x1091C, 0x1000, 8, 0x20, 16, 0x00000000, 0x00000000, 0x00000000, 0xC0000000⟩,
   ⟨"BORE_LVCFG", 0x10818, 0x1000, 8, 0x1, 1, 0x00000000, 0x0000001F, 0x00000000, 0x00000000⟩]

/-- The Port registers (R290, R339, R340). -/
def regsPort : List RegRow :=
  [⟨"PIN_OWN", 0x20700, 0x800, 32, 0x1, 1, 0x00924924, 0x00FFFFFF, 0x00000000, 0x00000000⟩,
   ⟨"PIN_SAMPLE", 0x20704, 0x800, 32, 0x1, 1, 0x00000000, 0x000000FF, 0x00000000, 0x00000000⟩,
   ⟨"PIN_LEVEL", 0x20708, 0x800, 32, 0x1, 1, 0x00000000, 0x00000000, 0x00000000, 0x00000000⟩,
   ⟨"PIN_ALARM", 0x2070C, 0x800, 32, 0x1, 1, 0x00000000, 0x00000000, 0x00000000, 0x0000FFFF⟩,
   ⟨"PIN_FLAGS", 0x20710, 0x800, 32, 0x1, 1, 0x00000000, 0x000000FF, 0x00000000, 0x00000000⟩,
   ⟨"PIN_COND", 0x20720, 0x800, 32, 0x4, 8, 0x00000000, 0xFF3FFFFF, 0x00000000, 0x00000000⟩,
   ⟨"PORT_MODE", 0x20000, 0x800, 32, 0x1, 1, 0x00000200, 0x0000FF07, 0x00000000, 0x00000000⟩,
   ⟨"PORT_MAC_CFG", 0x20004, 0x800, 32, 0x1, 1, 0x05F20C0C, 0x3FFF1F03, 0x00000000, 0x00000000⟩,
   ⟨"PORT_FILT_CFG", 0x20008, 0x800, 32, 0x1, 1, 0x00000004, 0x00000007, 0x00000000, 0x00000000⟩,
   ⟨"PORT_PAUSE_CFG", 0x2000C, 0x800, 32, 0x1, 1, 0x0000FF01, 0x0000FF03, 0x00000000, 0x00000000⟩,
   ⟨"PORT_PAUSE_STATUS", 0x20010, 0x800, 32, 0x1, 1, 0x00000000, 0x00000000, 0x00000000, 0x00000000⟩,
   ⟨"PORT_PT_CFG", 0x20014, 0x800, 32, 0x1, 1, 0x00000000, 0x00007FFF, 0x00000000, 0x00000000⟩,
   ⟨"PORT_DUP_CFG", 0x20018, 0x800, 32, 0x1, 1, 0x00000190, 0x000103FF, 0x00000000, 0x00000000⟩,
   ⟨"PORT_ONESTEP_CFG", 0x2001C, 0x800, 32, 0x1, 1, 0x00000000, 0xFFFF0001, 0x00000000, 0x00000000⟩,
   ⟨"PORT_GATE_CTRL", 0x20020, 0x800, 32, 0x1, 1, 0x00010000, 0x01FFFF01, 0x00000000, 0x00000000⟩,
   ⟨"PORT_GATE_BASE_SEC", 0x20024, 0x800, 32, 0x1, 1, 0x00000000, 0xFFFFFFFF, 0x00000000, 0x00000000⟩] ++
  [⟨"PORT_GATE_BASE_NS", 0x20028, 0x800, 32, 0x1, 1, 0x00000000, 0x3FFFFFFF, 0x00000000, 0x00000000⟩,
   ⟨"PORT_STATUS", 0x2002C, 0x800, 32, 0x1, 1, 0x00FF0000, 0x00000000, 0x00000000, 0x00000000⟩,
   ⟨"PORT_ERR", 0x20030, 0x800, 32, 0x1, 1, 0x00000000, 0x00000000, 0x00000000, 0x00000003⟩,
   ⟨"PORT_CNT_CTRL", 0x20034, 0x800, 32, 0x1, 1, 0x00000000, 0x00000000, 0x00000000, 0x00000000⟩,
   ⟨"PORT_DUP_STATUS", 0x20038, 0x800, 32, 0x1, 1, 0x00000000, 0x00000000, 0x00000000, 0x00000000⟩,
   ⟨"PORT_CNT", 0x20080, 0x800, 32, 0x4, 32, 0x00000000, 0x00000000, 0x00000000, 0x00000000⟩,
   ⟨"PORT_GATE", 0x20100, 0x800, 32, 0x4, 256, 0x00000000, 0xFFFFFFFF, 0x00000000, 0x00000000⟩,
   ⟨"PORT_EXACT", 0x20500, 0x800, 32, 0x4, 128, 0x00000000, 0xFFFFFFFF, 0x00000000, 0x00000000⟩,
   ⟨"PORT_HASH", 0x20740, 0x800, 32, 0x4, 16, 0x00000000, 0xFFFFFFFF, 0x00000000, 0x00000000⟩]

/-- The Valve registers (R288, R289). -/
def regsValve : List RegRow :=
  [⟨"VALVE_CTRL", 0x30000, 0x200, 128, 0x1, 1, 0x00000000, 0x00003F09, 0x00000000, 0x00010000⟩,
   ⟨"VALVE_CLKDIV", 0x30004, 0x200, 128, 0x1, 1, 0x00000001, 0x0000FFFF, 0x00000000, 0x00000000⟩,
   ⟨"VALVE_SHAPE", 0x30008, 0x200, 128, 0x1, 1, 0x00000000, 0x771F1F73, 0x00000000, 0x00000000⟩,
   ⟨"VALVE_QCFG", 0x3000C, 0x200, 128, 0x1, 1, 0x00000000, 0x00000033, 0x00000000, 0x00000000⟩,
   ⟨"VALVE_QTX", 0x30010, 0x200, 128, 0x1, 1, 0x00000000, 0x00000000, 0x00000000, 0x00000000⟩,
   ⟨"VALVE_QRX", 0x30014, 0x200, 128, 0x1, 1, 0x00000000, 0x00000000, 0x00000000, 0x00000000⟩,
   ⟨"VALVE_QSTAT", 0x30018, 0x200, 128, 0x1, 1, 0x00040000, 0x00000000, 0x00000000, 0x00000000⟩,
   ⟨"VALVE_QERR", 0x3001C, 0x200, 128, 0x1, 1, 0x00000000, 0x00000000, 0x00000000, 0x00000000⟩,
   ⟨"VALVE_STATUS", 0x30020, 0x200, 128, 0x1, 1, 0x00000000, 0x00000000, 0x00000000, 0x00CF0000⟩,
   ⟨"VALVE_PROG_SEL", 0x30024, 0x200, 128, 0x1, 1, 0x00000000, 0x00013F03, 0x00000000, 0x00000000⟩,
   ⟨"VALVE_K0", 0x30028, 0x200, 128, 0x1, 1, 0x00000000, 0x0000FFFF, 0x00000000, 0x00000000⟩,
   ⟨"VALVE_K1", 0x3002C, 0x200, 128, 0x1, 1, 0x00000000, 0x0000FFFF, 0x00000000, 0x00000000⟩,
   ⟨"VALVE_TXW", 0x30030, 0x200, 128, 0x1, 1, 0x00000000, 0x00000000, 0x00000000, 0x00000000⟩,
   ⟨"VALVE_RXW", 0x30034, 0x200, 128, 0x1, 1, 0x00000000, 0x00000000, 0x00000000, 0x00000000⟩,
   ⟨"VALVE_LAST_TAKE", 0x30038, 0x200, 128, 0x1, 1, 0x00000000, 0x00000000, 0x00000000, 0x00000000⟩,
   ⟨"VALVE_COUNTS", 0x3003C, 0x200, 128, 0x1, 1, 0x00000000, 0x00000000, 0x00000000, 0x00000000⟩] ++
  [⟨"VALVE_KRLD", 0x30040, 0x200, 128, 0x1, 1, 0x00000000, 0xFFFFFFFF, 0x00000000, 0x00000000⟩,
   ⟨"VALVE_CMPW", 0x30044, 0x200, 128, 0x1, 1, 0x00000000, 0xFFFFFFFF, 0x00000000, 0x00000000⟩,
   ⟨"VALVE_MMASK", 0x30048, 0x200, 128, 0x1, 1, 0x00000000, 0xFFFFFFFF, 0x00000000, 0x00000000⟩,
   ⟨"VALVE_PROG", 0x30100, 0x200, 128, 0x4, 64, 0x00000000, 0xFFFFFFFF, 0x00000000, 0x00000000⟩]

/-- The Mf registers (R404, R405). -/
def regsMf : List RegRow :=
  [⟨"MF_ALARM", 0x50000, 0x1, 1, 0x1, 1, 0x00000000, 0x00000000, 0x00000000, 0x0000001F⟩,
   ⟨"MF_ALARM_EN", 0x50004, 0x1, 1, 0x1, 1, 0x0000001F, 0x0000001F, 0x00000000, 0x00000000⟩,
   ⟨"MF_STORM_CFG", 0x50008, 0x1, 1, 0x1, 1, 0x04E20040, 0x00000000, 0xFFFF00FF, 0x00000000⟩,
   ⟨"MF_EXTOUT_CFG", 0x5000C, 0x1, 1, 0x1, 1, 0x00000004, 0x000000FF, 0x00000000, 0x00000000⟩,
   ⟨"MF_SIG_GOLDEN", 0x50010, 0x1, 1, 0x1, 1, 0x00000000, 0xFFFFFFFF, 0x00000000, 0x00000000⟩,
   ⟨"MF_SIG_LAST", 0x50014, 0x1, 1, 0x1, 1, 0x00000000, 0x00000000, 0x00000000, 0x00000000⟩,
   ⟨"MF_SIG_STATUS", 0x50018, 0x1, 1, 0x1, 1, 0x00000001, 0x00000000, 0x00000000, 0x00000000⟩,
   ⟨"MF_ROUTE_ERR", 0x5001C, 0x1, 1, 0x1, 1, 0x00000000, 0x00000000, 0x00000000, 0x80000000⟩,
   ⟨"MF_BIT_ECC", 0x50020, 0x1, 1, 0x1, 1, 0x00000000, 0x00000000, 0x00000000, 0x00000000⟩,
   ⟨"MF_ROUTE_ECC", 0x50024, 0x1, 1, 0x1, 1, 0x00000000, 0x00000000, 0x00000000, 0x00000000⟩,
   ⟨"MF_POST_OWN_LO", 0x50040, 0x8, 8, 0x1, 1, 0x76543210, 0xFFFFFFFF, 0x00000000, 0x00000000⟩,
   ⟨"MF_POST_OWN_HI", 0x50044, 0x8, 8, 0x1, 1, 0xFEDCBA98, 0xFFFFFFFF, 0x00000000, 0x00000000⟩,
   ⟨"MF_CAP_FRAC", 0x50100, 0x10, 16, 0x1, 1, 0x00000000, 0x00000000, 0x00000000, 0x80000000⟩,
   ⟨"MF_CAP_NS", 0x50104, 0x10, 16, 0x1, 1, 0x00000000, 0x00000000, 0x00000000, 0x00000000⟩,
   ⟨"MF_CAP_SEC_LO", 0x50108, 0x10, 16, 0x1, 1, 0x00000000, 0x00000000, 0x00000000, 0x00000000⟩,
   ⟨"MF_CAP_SEC_HI", 0x5010C, 0x10, 16, 0x1, 1, 0x00000000, 0x00000000, 0x00000000, 0x00000000⟩] ++
  [⟨"MF_IN_STAT", 0x51000, 0x4, 1024, 0x1, 1, 0x00000000, 0x00000000, 0x00000000, 0x00000700⟩,
   ⟨"MF_BITMAP", 0x52000, 0x4, 640, 0x1, 1, 0x00000000, 0x00000FFF, 0x00000000, 0x00000000⟩,
   ⟨"MF_ROUTE", 0x54000, 0x8, 2048, 0x1, 1, 0x00000000, 0xFFFFFFFF, 0x00000000, 0x00000000⟩,
   ⟨"MF_GATE", 0x54004, 0x8, 2048, 0x1, 1, 0x00000000, 0xFFFFFFFF, 0x00000000, 0x00000000⟩,
   ⟨"MF_SRC_LEVEL", 0x58000, 0x4, 32, 0x1, 1, 0x00000000, 0x00000000, 0x00000000, 0x00000000⟩]

/-- The Tb registers (R378, R379). -/
def regsTb : List RegRow :=
  [⟨"TB_INC", 0x60000, 0x1, 1, 0x1, 1, 0x00000000, 0x00000000, 0xFFFFFFFF, 0x00000000⟩,
   ⟨"TB_RATE_LO", 0x60004, 0x1, 1, 0x1, 1, 0x00000000, 0xFFFFFFFF, 0x00000000, 0x00000000⟩,
   ⟨"TB_RATE_HI", 0x60008, 0x1, 1, 0x1, 1, 0x00000000, 0x000000FF, 0x00000000, 0x00000000⟩,
   ⟨"TB_POLICY", 0x6000C, 0x1, 1, 0x1, 1, 0x1F4003E8, 0x1FFFFFFF, 0x00000000, 0x00000000⟩,
   ⟨"TB_LATE_LIMIT", 0x60010, 0x1, 1, 0x1, 1, 0x00002710, 0x00FFFFFF, 0x00000000, 0x00000000⟩,
   ⟨"TB_STATUS", 0x60014, 0x1, 1, 0x1, 1, 0x00000000, 0x00000000, 0x00000000, 0x00000000⟩,
   ⟨"TB_ALARM", 0x60018, 0x1, 1, 0x1, 1, 0x00000000, 0x00000000, 0x00000000, 0x0000007F⟩,
   ⟨"TB_ALARM_EN", 0x6001C, 0x1, 1, 0x1, 1, 0x0000007F, 0x0000007F, 0x00000000, 0x00000000⟩,
   ⟨"TB_ADJ_SEC_LO", 0x60020, 0x1, 1, 0x1, 1, 0x00000000, 0xFFFFFFFF, 0x00000000, 0x00000000⟩,
   ⟨"TB_ADJ_SEC_HI", 0x60024, 0x1, 1, 0x1, 1, 0x00000000, 0xFFFFFFFF, 0x00000000, 0x00000000⟩,
   ⟨"TB_ADJ_NS", 0x60028, 0x1, 1, 0x1, 1, 0x00000000, 0x3FFFFFFF, 0x00000000, 0x00000000⟩,
   ⟨"TB_ADJ_CTL", 0x6002C, 0x1, 1, 0x1, 1, 0x00000000, 0x0003FFFF, 0x00000000, 0x00000000⟩,
   ⟨"TB_SLEW_REMAIN", 0x60030, 0x1, 1, 0x1, 1, 0x00000000, 0x00000000, 0x00000000, 0x00000000⟩,
   ⟨"TB_NOW_FRAC", 0x60040, 0x4, 4, 0x1, 1, 0x00000000, 0x00000000, 0x00000000, 0x00000000⟩,
   ⟨"TB_STROKES_LO", 0x60050, 0x4, 2, 0x1, 1, 0x00000000, 0x00000000, 0x00000000, 0x00000000⟩,
   ⟨"TB_HSNAP_CTRL", 0x60100, 0x20, 8, 0x1, 1, 0x00000000, 0x00000000, 0x00000000, 0x00000000⟩] ++
  [⟨"TB_HSNAP_FRAC", 0x60104, 0x20, 8, 0x4, 4, 0x00000000, 0x00000000, 0x00000000, 0x00000000⟩,
   ⟨"TB_HSNAP_STROKES_LO", 0x60114, 0x20, 8, 0x4, 2, 0x00000000, 0x00000000, 0x00000000, 0x00000000⟩,
   ⟨"TB_STEP_LOG", 0x60200, 0x10, 16, 0x4, 4, 0x00000000, 0x00000000, 0x00000000, 0x00000000⟩,
   ⟨"TB_PPS_CFG", 0x60300, 0x1, 1, 0x1, 1, 0x00000000, 0x00000007, 0x00000000, 0x00000000⟩,
   ⟨"TB_PPS_OFFSET", 0x60304, 0x1, 1, 0x1, 1, 0x00000000, 0x3FFFFFFF, 0x00000000, 0x00000000⟩,
   ⟨"TB_PPS_WIDTH", 0x60308, 0x1, 1, 0x1, 1, 0x000186A0, 0x000FFFFF, 0x00000000, 0x00000000⟩,
   ⟨"TB_PPS_IN_FRAC", 0x60310, 0x4, 4, 0x1, 1, 0x00000000, 0x00000000, 0x00000000, 0x00000000⟩,
   ⟨"TB_PPS_IN_COUNT", 0x60320, 0x1, 1, 0x1, 1, 0x00000000, 0x00000000, 0x00000000, 0x00000000⟩,
   ⟨"TB_SCHED_STATUS", 0x60400, 0x1, 1, 0x1, 1, 0x00000000, 0x00000000, 0x00000000, 0x00000000⟩,
   ⟨"TB_SCHED_SEL", 0x60404, 0x1, 1, 0x1, 1, 0x00000000, 0x00000FFF, 0x00000000, 0x00000000⟩,
   ⟨"TB_SCHED_VIEW_FRAC", 0x60408, 0x4, 4, 0x1, 1, 0x00000000, 0x00000000, 0x00000000, 0x00000000⟩,
   ⟨"TB_SCHED_VIEW_ACT", 0x60418, 0x1, 1, 0x1, 1, 0x00000000, 0x00000000, 0x00000000, 0x00000000⟩,
   ⟨"TB_SCHED_VIEW_STATE", 0x6041C, 0x1, 1, 0x1, 1, 0x00000000, 0x00000000, 0x00000000, 0x00000000⟩,
   ⟨"CK_DONE", 0x60500, 0x1, 1, 0x1, 1, 0x00000000, 0x00000000, 0x00000000, 0x00000000⟩,
   ⟨"TB_REP_TAIL", 0x60800, 0x100, 8, 0x1, 1, 0x00000000, 0x00000000, 0x00000000, 0x00000000⟩,
   ⟨"TB_REP_HEAD", 0x60804, 0x100, 8, 0x1, 1, 0x00000000, 0x0000001F, 0x00000000, 0x00000000⟩] ++
  [⟨"TB_REP_LOST", 0x60808, 0x100, 8, 0x1, 1, 0x00000000, 0x00000000, 0x00000000, 0x00000000⟩,
   ⟨"TB_REP_REC", 0x60880, 0x100, 8, 0x4, 32, 0x00000000, 0x00000000, 0x00000000, 0x00000000⟩,
   ⟨"TB_TS_ADJ", 0x61000, 0x10, 32, 0x1, 1, 0x00000000, 0xFFFFFFFF, 0x00000000, 0x00000000⟩,
   ⟨"TB_TSQ", 0x61004, 0x10, 32, 0x1, 1, 0x00000000, 0x00000000, 0x00000000, 0x00000000⟩,
   ⟨"TB_TS_SEQ", 0x61008, 0x10, 32, 0x1, 1, 0x00000000, 0x00000000, 0x00000000, 0x00000000⟩,
   ⟨"TB_GINC", 0x61800, 0x10, 8, 0x1, 1, 0x00000000, 0x00000000, 0xFFFFFFFF, 0x00000000⟩,
   ⟨"TB_GCAL", 0x61804, 0x10, 8, 0x1, 1, 0x00000000, 0x00000000, 0x00000000, 0x00000000⟩,
   ⟨"CK_CFG", 0x64000, 0x20, 128, 0x1, 1, 0x00000420, 0x00000FF1, 0x00000000, 0x00000000⟩,
   ⟨"CK_PERIOD", 0x64004, 0x20, 128, 0x1, 1, 0x000F4240, 0xFFFFFFFF, 0x00000000, 0x00000000⟩,
   ⟨"CK_BASE_NS", 0x64008, 0x20, 128, 0x1, 1, 0x00000000, 0x3FFFFFFF, 0x00000000, 0x00000000⟩,
   ⟨"CK_BASE_SEC_LO", 0x6400C, 0x20, 128, 0x1, 1, 0x00000000, 0xFFFFFFFF, 0x00000000, 0x00000000⟩,
   ⟨"CK_BASE_SEC_HI", 0x64010, 0x20, 128, 0x1, 1, 0x00000000, 0xFFFFFFFF, 0x00000000, 0x00000000⟩,
   ⟨"CK_STATUS", 0x64014, 0x20, 128, 0x1, 1, 0x00000000, 0x00000000, 0x00000000, 0x00000700⟩,
   ⟨"CK_LAG", 0x64018, 0x20, 128, 0x1, 1, 0x00000000, 0x00000000, 0x00000000, 0x00000000⟩,
   ⟨"CK_COUNT", 0x6401C, 0x20, 128, 0x1, 1, 0x00000000, 0x00000000, 0x00000000, 0x00000000⟩]

/-- The Pmp registers (R444, R445). -/
def regsPmp : List RegRow :=
  [⟨"PMP_CTRL", 0x70000, 0x1, 1, 0x1, 1, 0x00000000, 0x00000003, 0x00000000, 0x00000000⟩,
   ⟨"PMP_ALARM", 0x70004, 0x1, 1, 0x1, 1, 0x00000000, 0x00000000, 0x00000000, 0x000007FF⟩,
   ⟨"PMP_ALARM_EN", 0x70008, 0x1, 1, 0x1, 1, 0x000007FF, 0x000007FF, 0x00000000, 0x00000000⟩,
   ⟨"PMP_CELLS", 0x7000C, 0x1, 1, 0x1, 1, 0x00008000, 0x00000000, 0x00000000, 0x00000000⟩,
   ⟨"PMP_WM", 0x70010, 0x1, 1, 0x1, 1, 0x20001000, 0xFFFFFFFF, 0x00000000, 0x00000000⟩,
   ⟨"PMP_RXRES", 0x70014, 0x1, 1, 0x1, 1, 0x00000200, 0x0000FFFF, 0x00000000, 0x00000000⟩,
   ⟨"PMP_INFLIGHT", 0x70018, 0x1, 1, 0x1, 1, 0x00000000, 0x00000000, 0x00000000, 0x00000000⟩,
   ⟨"PMP_CIS_ECC", 0x7001C, 0x1, 1, 0x1, 1, 0x00000000, 0x00000000, 0x00000000, 0x00000000⟩,
   ⟨"PMP_TAG_FAULTS", 0x70020, 0x1, 1, 0x1, 1, 0x00000000, 0x00000000, 0x00000000, 0x00000000⟩,
   ⟨"PMP_STALE", 0x70024, 0x1, 1, 0x1, 1, 0x00000000, 0x00000000, 0x00000000, 0x00000000⟩,
   ⟨"DC_BASE_LO", 0x70030, 0x1, 1, 0x1, 1, 0x00000000, 0x00000000, 0xFFFFC000, 0x00000000⟩,
   ⟨"DC_BASE_HI", 0x70034, 0x1, 1, 0x1, 1, 0x00000000, 0x00000000, 0xFFFFFFFF, 0x00000000⟩,
   ⟨"DC_SLOTS", 0x70038, 0x1, 1, 0x1, 1, 0x00000000, 0x00000000, 0x007FFFFF, 0x00000000⟩,
   ⟨"DC_STATUS", 0x7003C, 0x1, 1, 0x1, 1, 0x00000000, 0x00000000, 0x00000000, 0x00000000⟩,
   ⟨"PMP_HDEPTH", 0x70040, 0x4, 8, 0x1, 1, 0x00000020, 0x0000007F, 0x00000000, 0x00000000⟩,
   ⟨"PMP_QDEPTH_LO", 0x70100, 0x40, 8, 0x1, 1, 0x04040404, 0x7F7F7F7F, 0x00000000, 0x00000000⟩] ++
  [⟨"PMP_QDEPTH_HI", 0x70104, 0x40, 8, 0x1, 1, 0x04040404, 0x7F7F7F7F, 0x00000000, 0x00000000⟩,
   ⟨"PMP_QLEVEL_LO", 0x70108, 0x40, 8, 0x1, 1, 0x00000000, 0x00000000, 0x00000000, 0x00000000⟩,
   ⟨"PMP_QLEVEL_HI", 0x7010C, 0x40, 8, 0x1, 1, 0x00000000, 0x00000000, 0x00000000, 0x00000000⟩,
   ⟨"PMP_CRING", 0x70110, 0x40, 8, 0x1, 1, 0x00000000, 0xFF07FFF0, 0x00000000, 0x00000000⟩,
   ⟨"PMP_CR_TAIL", 0x70114, 0x40, 8, 0x1, 1, 0x00000000, 0x00000000, 0x00000000, 0x00000000⟩,
   ⟨"PMP_CR_HEAD", 0x70118, 0x40, 8, 0x1, 1, 0x00000000, 0x000001FF, 0x00000000, 0x00000000⟩,
   ⟨"PMP_CR_LOST", 0x7011C, 0x40, 8, 0x1, 1, 0x00000000, 0x00000000, 0x00000000, 0x00000000⟩,
   ⟨"PMP_TRIG", 0x70120, 0x40, 8, 0x4, 8, 0x00000000, 0x8707FFF0, 0x00000000, 0x00000000⟩,
   ⟨"PMP_RXBIND", 0x70800, 0x10, 32, 0x1, 1, 0x00000000, 0x00000087, 0x00000000, 0x00000000⟩,
   ⟨"PMP_RXRING", 0x70804, 0x10, 32, 0x1, 1, 0x00000000, 0xFF07FFF0, 0x00000000, 0x00000000⟩,
   ⟨"PMP_RXTAIL", 0x70808, 0x10, 32, 0x1, 1, 0x00000000, 0x00000000, 0x00000000, 0x00000000⟩,
   ⟨"PMP_RXHEAD", 0x7080C, 0x10, 32, 0x1, 1, 0x00000000, 0x000001FF, 0x00000000, 0x00000000⟩,
   ⟨"PMP_CELL_SEL", 0x70C00, 0x1, 1, 0x1, 1, 0x00000000, 0x00007FFF, 0x00000000, 0x00000000⟩,
   ⟨"PMP_CELL_VIEW", 0x70C04, 0x4, 4, 0x1, 1, 0x00000000, 0x00000000, 0x00000000, 0x00000000⟩]

/-- The Ch registers (R446). -/
def regsCh : List RegRow :=
  [⟨"CH_SEL", 0x80000, 0x1, 1, 0x1, 1, 0x00000000, 0x00003FFF, 0x00000000, 0x00000000⟩,
   ⟨"CH_INUSE", 0x80004, 0x1, 1, 0x1, 1, 0x00000000, 0x00000000, 0x00000000, 0x00000000⟩,
   ⟨"CH_VIEW", 0x80040, 0x4, 16, 0x1, 1, 0x00000000, 0x00000000, 0x00000000, 0x00000000⟩,
   ⟨"CH_RANGE", 0x80100, 0x4, 8, 0x1, 1, 0x00000000, 0x00000000, 0x3FFF3FFF, 0x00000000⟩,
   ⟨"CH_NEXT", 0x80120, 0x4, 8, 0x1, 1, 0x00000000, 0x00000000, 0x00000000, 0x00000000⟩]

/-- The Hr registers (R475, R476). -/
def regsHr : List RegRow :=
  [⟨"HR_HCLK_PS", 0x90000, 0x1, 1, 0x1, 1, 0x000003E8, 0x00000000, 0x00007FFF, 0x00000000⟩,
   ⟨"HR_ALARM", 0x90004, 0x1, 1, 0x1, 1, 0x00000000, 0x00000000, 0x00000000, 0x0000000F⟩,
   ⟨"HR_ALARM_EN", 0x90008, 0x1, 1, 0x1, 1, 0x0000000F, 0x0000000F, 0x00000000, 0x00000000⟩,
   ⟨"HR_PORT_STATE", 0x90020, 0x4, 4, 0x1, 1, 0x00000000, 0x00000000, 0x00000000, 0x00000000⟩,
   ⟨"HP_CTRL", 0x90100, 0x20, 8, 0x1, 1, 0x00000002, 0x00000003, 0x00000000, 0x00000000⟩,
   ⟨"HP_RIGHTS", 0x90104, 0x20, 8, 0x1, 1, 0x00000000, 0x00000000, 0x000007FF, 0x00000000⟩,
   ⟨"HP_PORTS", 0x90108, 0x20, 8, 0x1, 1, 0x00000000, 0x00000000, 0xFFFFFFFF, 0x00000000⟩,
   ⟨"HP_POLL", 0x9010C, 0x20, 8, 0x1, 1, 0x000003E8, 0x00003FFF, 0x00000000, 0x00000000⟩,
   ⟨"HP_DB_LO", 0x90110, 0x20, 8, 0x1, 1, 0x00000000, 0xFFFFFFFF, 0x00000000, 0x00000000⟩,
   ⟨"HP_DB_HI", 0x90114, 0x20, 8, 0x1, 1, 0x00000000, 0xFFFFFFFF, 0x00000000, 0x00000000⟩,
   ⟨"HP_IRQ", 0x90118, 0x20, 8, 0x1, 1, 0x00000000, 0x00000000, 0x00000000, 0x00000000⟩,
   ⟨"HP_ERR", 0x9011C, 0x20, 8, 0x1, 1, 0x00000000, 0x00000000, 0x00000000, 0x00000001⟩,
   ⟨"HR_CFG", 0x91000, 0x20, 64, 0x1, 1, 0x00004400, 0x0000FF03, 0x00000000, 0x00000000⟩,
   ⟨"HR_SQ_LO", 0x91004, 0x20, 64, 0x1, 1, 0x00000000, 0xFFFFFFFF, 0x00000000, 0x00000000⟩,
   ⟨"HR_SQ_HI", 0x91008, 0x20, 64, 0x1, 1, 0x00000000, 0xFFFFFFFF, 0x00000000, 0x00000000⟩,
   ⟨"HR_CQ_LO", 0x9100C, 0x20, 64, 0x1, 1, 0x00000000, 0xFFFFFFFF, 0x00000000, 0x00000000⟩] ++
  [⟨"HR_CQ_HI", 0x91010, 0x20, 64, 0x1, 1, 0x00000000, 0xFFFFFFFF, 0x00000000, 0x00000000⟩,
   ⟨"HR_COAL", 0x91014, 0x20, 64, 0x1, 1, 0x00000001, 0x0FFF00FF, 0x00000000, 0x00000000⟩,
   ⟨"HR_STATUS", 0x91018, 0x20, 64, 0x1, 1, 0x90000000, 0x00000000, 0x00000000, 0x00000000⟩,
   ⟨"HR_ERR", 0x9101C, 0x20, 64, 0x1, 1, 0x00000000, 0x00000000, 0x00000000, 0x00000003⟩]

/-- The Lk registers (R495, R496). -/
def regsLk : List RegRow :=
  [⟨"LK_ALARM", 0xA0000, 0x1, 1, 0x1, 1, 0x00000000, 0x00000000, 0x00000000, 0x0000001F⟩,
   ⟨"LK_LEASES", 0xA0004, 0x1, 1, 0x1, 1, 0x00000000, 0x00000000, 0x00000000, 0x00000000⟩,
   ⟨"LK_COUNTS", 0xA0008, 0x1, 1, 0x1, 1, 0x00000000, 0x00000000, 0x00000000, 0x00000000⟩,
   ⟨"LK_MISUSE", 0xA000C, 0x1, 1, 0x1, 1, 0x00000000, 0x00000000, 0x00000000, 0x80000000⟩,
   ⟨"LK_LEASE_SEL", 0xA0010, 0x1, 1, 0x1, 1, 0x00000000, 0x000003FF, 0x00000000, 0x00000000⟩,
   ⟨"LK_LEASE_VIEW0", 0xA0014, 0x1, 1, 0x1, 1, 0x00000000, 0x00000000, 0x00000000, 0x00000000⟩,
   ⟨"LK_LEASE_VIEW1", 0xA0018, 0x1, 1, 0x1, 1, 0x00000000, 0x00000000, 0x00000000, 0x00000000⟩,
   ⟨"LK_TLEASE", 0xA0040, 0x4, 8, 0x1, 1, 0x000003E8, 0x00003FFF, 0x00000000, 0x00000000⟩,
   ⟨"LK_GCFG", 0xA0080, 0x4, 32, 0x1, 1, 0x00000000, 0x00000000, 0x0101FFFF, 0x00000000⟩,
   ⟨"LK_GSTATE", 0xA1000, 0x4, 1024, 0x1, 1, 0x00000000, 0x00000000, 0x00000000, 0x00000000⟩]

/-- The Mr registers (R553). -/
def regsMr : List RegRow :=
  [⟨"MR_PRIME_STATUS", 0xB0000, 0x1, 1, 0x1, 1, 0x00000000, 0x00000000, 0x00000000, 0x00000000⟩,
   ⟨"MR_PRIME_TIME", 0xB0004, 0x1, 1, 0x1, 1, 0x00000000, 0x00000000, 0x00000000, 0x00000000⟩,
   ⟨"MR_CTRL", 0xB0008, 0x1, 1, 0x1, 1, 0x00000000, 0x00000000, 0x00000000, 0x00000000⟩,
   ⟨"MR_CFG_ADDR", 0xB000C, 0x1, 1, 0x1, 1, 0x00000000, 0x00000FFC, 0x00000000, 0x00000000⟩,
   ⟨"MR_CFG_DATA", 0xB0010, 0x1, 1, 0x1, 1, 0x00000000, 0xFFFFFFFF, 0x00000000, 0x00000000⟩,
   ⟨"MR_SWAP_STATUS", 0xB0014, 0x1, 1, 0x1, 1, 0x00000000, 0x00000000, 0x00000000, 0x00000000⟩,
   ⟨"MR_ECC", 0xB0018, 0x1, 1, 0x1, 1, 0x00000000, 0x00000000, 0x00000000, 0x00000000⟩]

/-- The Dbg registers (R578). -/
def regsDbg : List RegRow :=
  [⟨"DBG_CTRL", 0xF0000, 0x1, 1, 0x1, 1, 0x00000000, 0x03FF0073, 0x00000000, 0x00000000⟩,
   ⟨"DBG_TRACE_STATUS", 0xF0004, 0x1, 1, 0x1, 1, 0x00000000, 0x00000000, 0x00000000, 0x00000000⟩,
   ⟨"DBG_TRACE_POP", 0xF0008, 0x1, 1, 0x1, 1, 0x00000000, 0x00000000, 0x00000000, 0x00000000⟩,
   ⟨"DBG_TRACE_DATA", 0xF0010, 0x4, 8, 0x1, 1, 0x00000000, 0x00000000, 0x00000000, 0x00000000⟩,
   ⟨"DBG_TAP_STATUS", 0xF0030, 0x1, 1, 0x1, 1, 0x00000000, 0x00000000, 0x00000000, 0x00000000⟩]

/-- The register table of the unit that holds an offset (R575). -/
def unitRows (off : Nat) : List RegRow :=
  if off < 0x1000 then regsId
  else if off < 0x2000 then regsGov
  else if off < 0x10000 then regsWh
  else if off < 0x20000 then regsBore
  else if off < 0x30000 then regsPort
  else if off < 0x50000 then regsValve
  else if off < 0x60000 then regsMf
  else if off < 0x70000 then regsTb
  else if off < 0x80000 then regsPmp
  else if off < 0x90000 then regsCh
  else if off < 0xA0000 then regsHr
  else if off < 0xB0000 then regsLk
  else if off < 0xF0000 then regsMr
  else regsDbg

/-- The instance numbers of an offset in a row, where it lies in the row. -/
def RegRow.at? (r : RegRow) (o : Nat) : Option (Nat × Nat) :=
  if o < r.off then none
  else
    let d := o - r.off
    let i := min (d / r.s1) (r.n1 - 1)
    let e := d - i * r.s1
    if e % r.s2 = 0 ∧ e / r.s2 < r.n2 then some (i, e / r.s2) else none

/-- The row and instance numbers of a register; none for an unassigned offset (R15). -/
def findReg (o : Nat) : List RegRow → Option (RegRow × Nat × Nat)
  | [] => none
  | r :: rs =>
    match r.at? o with
    | some (i, j) => some (r, i, j)
    | none => findReg o rs

/-- The row and instance numbers of the register at an offset. -/
def regAt (o : Nat) : Option (RegRow × Nat × Nat) := findReg o (unitRows o)

/-- The reset value of the register at an offset.
(DEDUCED, safe: log entry 84.) -/
def regReset (o : Nat) : Nat :=
  match regAt o with
  | some (r, _, _) => r.reset
  | none => 0

/-- The word that the image holds for a register. -/
def State.reg (s : State) (o : Nat) : Nat :=
  match tfind s.regs o with
  | some w => w.toNat
  | none => regReset o

/-- Put a word into the image. -/
def State.setReg (s : State) (o v : Nat) : State := { s with regs := tput s.regs o (BitVec.ofNat 32 v) }

/-- The bits of `v` under the mask `m`, the others from `old` (R14). -/
def mix (old m v : Nat) : Nat := ((BitVec.ofNat 32 old &&& ~~~ BitVec.ofNat 32 m) ||| (BitVec.ofNat 32 v &&& BitVec.ofNat 32 m)).toNat

/-- Replace bits [hi:lo] of a word by `f`. -/
def putBits (w hi lo f : Nat) : Nat := w - bits w hi lo * 2 ^ lo + f % 2 ^ (hi + 1 - lo) * 2 ^ lo

end Sys2Proof.Machine
end

