-- ==== Sys2Proof/Machine/Gov.lean ====
section
/-!
DEFINITION. The pace governor (chapter 02): the effective pace, what each gate opening measures and decides,
the telemetry and the voltage request bus.
-/

namespace Sys2Proof.Machine

/-! ### Times and outcomes shared by every unit -/

/-- What a command answers. -/
abbrev Result := Host.Outcome State Fault Refusal

/-- An event that happens only under a condition: where it does not hold the state stays as it is.
(DESIGN CHOICE, safe: log entry 3.) (DESIGN CHOICE, safe: log entry 4.) -/
def State.act (s : State) (c : Bool) (t : State) : Result := .next (if c then t else s)

/-- One microsecond and one millisecond of elapsed time, in units of 2^-26 ns. -/
def usUnits : Nat := 67108864000
/-- (DEDUCED, unsafe: log entry 46.) -/
def msUnits : Nat := 67108864000000

/-- Whether a domain runs: it is out of reset (R559), and not frozen by the loss of its clock (R558).  The loss of TCLK
has the path of R61. -/
def State.up (s : State) (d : Nat) : Bool := !s.inReset.contains d && (d == 2 || !(tget {} s.wh.clks d : ClkMon).lost)

/-- The stroke count of the next gate opening; that of the first is 0 (R536). -/
def State.nextGate (s : State) : Nat := if s.opened then s.strokes + 1 else 0

/-- Change the governor's own state. -/
def State.modGov (s : State) (f : GovSt → GovSt) : State := { s with gov := f s.gov }

/-! ### Pace (R39, R49, R51) -/

/-- STEP, GUARD and WARN of GOV_LIMITS. -/
def State.govStep (s : State) : Nat := bits (s.reg 0x01008) 7 0
def State.govGuard (s : State) : Nat := bits (s.reg 0x01008) 15 8
def State.govWarn (s : State) : Nat := bits (s.reg 0x01008) 23 16
/-- CEIL, MARGIN and RECOVER_WIN of GOV_CEIL. -/
def State.govCeil (s : State) : Nat := bits (s.reg 0x0100C) 12 0
def State.govMargin (s : State) : Nat := bits (s.reg 0x0100C) 23 16
def State.govWin (s : State) : Nat := bits (s.reg 0x0100C) 28 24

/-- The pace at a depth: min(max(CEIL, PACE), PACE + DEPTH × STEP) (R49). -/
def State.paceAt (s : State) (depth : Nat) : Nat :=
  min (max s.govCeil s.gov.pace) (s.gov.pace + depth * s.govStep)

/-- The effective pace. -/
def State.effPace (s : State) : Nat := s.paceAt s.gov.depth

/-- The excursion ceiling E of R51. -/
def State.excCeil (s : State) : Nat := s.paceAt 255

/-- The value of PACE that a write stores (R39). -/
def clampPace (w : Nat) : Nat := max 800 (min 1600 (bits w 10 0))

/-! ### Alarms (R62) -/

/-- The class of a governor alarm (R500). -/
def govClass (b : Nat) : Nat := if b = 6 then 7 else if 2 ≤ b then 6 else 14

/-- Set a bit of GOV_ALARM and report it. -/
def State.govAlarm (s : State) (b : Nat) : State :=
  let s := s.modGov (fun g => { g with alarm := g.alarm ||| 2 ^ b, fresh := g.fresh.set s.strokes (2 ^ b) })
  s.alarmEvent 1 (govClass b) b s.gov.alarm

/-! ### The voltage request bus (R54-R60) -/

def State.govVmin (s : State) : Nat := bits (s.reg 0x01024) 6 0
def State.govVmax (s : State) : Nat := bits (s.reg 0x01024) 14 8
/-- VSTART, kept within the codes that the governor issues (R54, R60). -/
def State.govVstart (s : State) : Nat := max s.govVmin (min s.govVmax (bits (s.reg 0x01024) 22 16))

/-- A code kept from VMIN to VMAX, the only codes that the governor issues (R54). -/
def State.vreqClamp (s : State) (c : Nat) : Nat := max s.govVmin (min s.govVmax c)

/-- Present a code on the free bus: vreq_code, then vreq_req (R55). -/
def State.vreqPresent (s : State) (c : Nat) : State :=
  let c := s.vreqClamp c
  s.modGov (fun g => { g with code := c, target := c, req := true, busy := true, reqAt := some s.tb.elapsed })

/-- Present the current target when the bus is free and it is not the code last presented (R57).
(DEDUCED, unsafe: log entry 93.) -/
def State.vreqNext (s : State) : State :=
  if !s.gov.busy && s.gov.target != s.gov.code && s.vreqClamp s.gov.target != s.gov.code then s.vreqPresent s.gov.target
  else s

/-- An increase of DEPTH raises the target code by 1, up to VMAX (R57). -/
def State.vreqUp (s : State) : State :=
  if s.gov.target + 1 ≤ s.govVmax then
    (s.modGov (fun g => { g with target := s.vreqClamp (g.target + 1) })).vreqNext
  else (s.govAlarm 5).modGov (fun g => { g with target := s.govVmax })

/-! ### One gate opening (R41, R44-R52) -/

/-- Slack in ps: 5 ps resolution, at most 1,275 (R44); a slack between two steps is rounded down, and every
comparison uses the rounded value.
(DESIGN CHOICE, unsafe: log entry 94.) -/
def slackOf (len tree : Nat) : Nat := min 1275 ((len - tree) / 5 * 5)

/-- Count a stroke with a slack: minimum since the snapshot, millisecond minimum, histogram (R45-R47).  Of strokes
that share the minimum, the unit of the first is kept (DESIGN CHOICE, unsafe: log entry 95).
(DESIGN CHOICE, unsafe: log entry 85.) -/
def State.govMeasure (s : State) (k slack unit : Nat) : State :=
  let ctrl := s.reg 0x01000
  let w := bits ctrl 14 8
  let sample := bit ctrl 1 && k % 2 ^ bits ctrl 7 4 == 0
  s.modGov (fun g =>
    let g := if !g.minAny || slack < g.minPs then { g with minPs := slack, minSrc := unit, minAny := true } else g
    let g := if !g.msAny || slack < g.msMin then { g with msMin := slack, msSrc := unit, msAny := true } else g
    if sample then
      let b := min 15 (slack / w)
      { g with sampled := g.sampled + 1, hist := tset 0 g.hist b (satInc 32 (tget 0 g.hist b)) }
    else g)

/-- The runs of strokes that R52 and R58 count: each stroke is judged once, by the thresholds in force when it ends.
(DESIGN CHOICE, unsafe: log entry 96.) -/
def State.govRuns (s : State) (late : Bool) (slack : Nat) : State :=
  let okUp := !late && decide (s.govGuard + s.govStep + s.govMargin ≤ slack)
  let okDown := !late && decide (bits (s.reg 0x01028) 7 0 ≤ slack)
  s.modGov (fun g => { g with
    good := if okUp then g.good + 1 else 0
    downGood := if okDown then min (2 ^ 28) (g.downGood + 1) else 0 })

/-- DEPTH rises by 1 (R49, R50); `n` is the gate opening at which the slack is compared. -/
def State.depthUp (s : State) (n : Nat) : State :=
  let fromZero := s.gov.depth == 0
  let s := s.modGov (fun g => { g with depth := g.depth + 1, noRise := n + 64, good := 0 })
  let s := if fromZero then (s.govAlarm 1).modGov (fun g => { g with excCount := satInc 32 g.excCount }) else s
  s.vreqUp

/-- DEPTH falls by 1 and the count of R52 restarts. -/
def State.depthDown (s : State) : State := s.modGov (fun g => { g with depth := g.depth - 1, good := 0 })

/-- The conditions of R52. -/
def State.canRecover (s : State) : Bool := decide (0 < s.gov.depth) && decide (2 ^ s.govWin ≤ s.gov.good)

/-- The slack of the stroke that ends, compared against the thresholds (R48, R49, R51). -/
def State.govCompare (s : State) (n : Nat) (late : Bool) (slack : Nat) : State :=
  let s := if !late && slack < s.govWarn then s.govAlarm 0 else s
  if late || slack < s.govGuard then
    if s.effPace = s.excCeil then s.govAlarm 2
    else if n < s.gov.noRise then s
    else s.depthUp n
  else s

/-- The programmed pace takes the held value: `n` is the gate opening (R40, R53). -/
def State.paceApply (s : State) : State :=
  s.modGov (fun g => { g with pace := clampPace (s.reg 0x01004), paceCross := none })

/-- Gate opening `n` is the boundary of a write that crossed in stroke `c` (R40, R71). -/
def boundaryAt (c n : Nat) : Bool := n % 16 == 0 && decide (c + 4 ≤ n)

/-- Whether the held pace takes effect at gate opening `n`. -/
def State.paceDue (s : State) (n : Nat) : Bool := (s.gov.paceCross.map (fun c => boundaryAt c n)).getD false

/-- What the governor does at gate opening `n`, which ends stroke `n - 1`: `tree` is the time from that stroke's
gate to the completion of its tree, `unit` the unit that finished last (R37, R41, R44).  An increase of DEPTH lengthens
the stroke that begins one gate after it, and shows in the slack of the stroke after that one (R50).
(DEDUCED, unsafe: log entry 97.) -/
def State.govGate (s : State) (n tree unit : Nat) : State :=
  let s := if s.canRecover then s.depthDown else s
  let s := if s.paceDue n then s.paceApply else s
  let late := decide (s.gov.len < tree)
  let slack := slackOf s.gov.slackLen tree
  let next := s.effPace
  let seen := s.paceAt (min s.gov.depth s.gov.lenDepth)
  let s := s.modGov (fun g => { g with len := next, slackLen := seen, lenDepth := g.depth })
  let s := if late then
      (s.govAlarm 3).modGov (fun g => { g with lateCount := satInc 32 g.lateCount, msLate := g.msLate + 1 })
    else s.govMeasure (n - 1) slack unit
  (s.govRuns late slack).govCompare n late slack

/-! ### Telemetry (R46, R47) -/

/-- SNAP: copy the live values and restart them. -/
def State.govSnap (s : State) : State :=
  s.modGov (fun g => { g with
    snapHist := g.hist, snapMin := g.minPs, snapSrc := g.minSrc, snapStrokes := g.sampled
    hist := [], minPs := 1275, minSrc := 0, minAny := false, sampled := 0 })

/-- The report of the millisecond that ends (R47). -/
def State.govReport (s : State) : State :=
  let s := s.traceEvent 1 0x20 (s.gov.msMin + 65536 * s.gov.msSrc) s.gov.msLate
  s.modGov (fun g => { g with msMin := 1275, msSrc := 0, msAny := false, msLate := 0, msAt := s.tb.counted })

/-! ### Registers -/

/-- A write to GOV_CTRL (R45, R46, R65): a HIST_WIDTH outside 5, 10, …, 80 is discarded. -/
def State.govCtrlWrite (s : State) (w : Nat) : State :=
  let width := bits w 14 8
  let okW := 5 ≤ width && width ≤ 80 && width % 5 == 0
  let s := s.setReg 0x01000 (mix (s.reg 0x01000) (if okW then 0x7FF3 else 0x00F3) w)
  if bit w 2 then s.govSnap else s

/-- A write to GOV_PACE is held; it has crossed in the stroke in progress (R40). -/
def State.paceWrite (s : State) (w : Nat) : State :=
  (s.setReg 0x01004 (clampPace w)).modGov (fun g => { g with paceCross := some s.strokes })

/-- A write to GOV_LIMITS (R65). -/
def State.govLimitsWrite (s : State) (w : Nat) : State :=
  s.setReg 0x01008 (putBits (w % 2 ^ 24) 7 0 (max 10 (min 200 (bits w 7 0))))

/-- A write to GOV_CEIL (R65). -/
def State.govCeilWrite (s : State) (w : Nat) : State :=
  s.setReg 0x0100C (max 800 (min 8000 (bits w 12 0)) + 2 ^ 16 * bits w 23 16 + 2 ^ 24 * max 8 (min 24 (bits w 28 24)))

/-- A write to GOV_VREQ_CFG: VMIN and VMAX take 12 to 30; a write with VMIN above VMAX is discarded (R54). -/
def State.govVreqWrite (s : State) (w : Nat) : State :=
  let c (v : Nat) := max 12 (min 30 v)
  let lo := c (bits w 6 0)
  let hi := c (bits w 14 8)
  if hi < lo then s else s.setReg 0x01024 (lo + 256 * hi + 65536 * bits w 22 16)

/-- A write to GOV_VREQ_POLICY (R65). -/
def State.govPolicyWrite (s : State) (w : Nat) : State :=
  s.setReg 0x01028 (bits w 7 0 + 256 * max 10 (min 28 (bits w 12 8)) + 65536 * bits w 31 16)

/-- Microseconds in units of 2^-48 ns, the unit of timebase time. -/
def usTime (n : Nat) : Nat := n * 1000 * 2 ^ 48

/-- The conditions of a down request (R58); none in holdover (R61), and none for a code that R54 does not let it issue.
(DEDUCED, unsafe: log entry 93.) (DEDUCED, unsafe: log entry 98.) -/
def State.canDown (s : State) : Bool :=
  bit (s.reg 0x01000) 0 && s.gov.depth == 0 && !s.gov.busy && !s.gov.holdover &&
  decide (2 ^ bits (s.reg 0x01028) 12 8 ≤ s.gov.downGood) &&
  decide (s.gov.ackAt + usTime (bits (s.reg 0x01028) 31 16) ≤ s.tb.counted) && decide (s.govVmin < s.gov.code) &&
  decide (s.gov.code ≤ s.govVmax + 1)

/-- The timeout of R59 has passed and is not disabled. -/
def State.vreqLate (s : State) : Bool :=
  let t := bits (s.reg 0x01030) 15 0
  match s.gov.reqAt with
  | some a => s.gov.req && t != 0 && decide (a + t * usUnits ≤ s.tb.elapsed)
  | none => false

/-! ### The commands -/

/-- DEPTH_DECREASE (R52). -/
def execDepthDecrease (s : State) : Result := s.act s.canRecover s.depthDown

/-- PACE_WRITE: a write to GOV_PACE (R40). -/
def execPaceWrite (w : Word) (s : State) : Result := .next (s.paceWrite w.toNat)

/-- PACE_APPLY: the next gate opening is the boundary of the held pace (R40). -/
def execPaceApply (s : State) : Result := s.act (s.paceDue s.nextGate) s.paceApply

/-- SNAP: a write to GOV_CTRL with SNAP at 1 (R46). -/
def execSnap (w : Word) (s : State) : Result := .next (s.govCtrlWrite (putBits w.toNat 2 2 1))

/-- MS_REPORT (R47): once per millisecond of timebase time.
(DEDUCED, unsafe: log entry 98.) -/
def execMsReport (s : State) : Result := s.act (decide (s.gov.msAt + usTime 1000 ≤ s.tb.counted)) s.govReport

/-- VREQ_ACK_RISE: the block sees vreq_ack and drops vreq_req (R55). -/
def execVreqAckRise (s : State) : Result :=
  s.act s.gov.req
    (s.modGov (fun g => { g with req := false, acked := g.code, ackAt := s.tb.counted, reqAt := none }))

/-- VREQ_ACK_FALL: the bus is free; a newer target is presented (R55, R57). -/
def execVreqAckFall (s : State) : Result :=
  s.act (s.gov.busy && !s.gov.req) (s.modGov (fun g => { g with busy := false })).vreqNext

/-- DOWN_REQUEST (R58). -/
def execDownRequest (s : State) : Result := s.act s.canDown (s.vreqPresent (s.gov.code - 1))

/-- VREQ_TIMEOUT: the alarm is set and the request stays (R59). -/
def execVreqTimeout (s : State) : Result :=
  s.act s.vreqLate ((s.govAlarm 4).modGov (fun g => { g with reqAt := none }))

/-- TCLK is LOST as the wellhead reports it (R499). -/
def State.tclkLost (s : State) : Bool := (tget {} s.wh.clks 2).lost

/-- REF_LOST: ticks from SCLK from now on (R61). -/
def execRefLost (s : State) : Result :=
  s.act (s.tclkLost && !s.gov.holdover) ((s.govAlarm 6).modGov (fun g => { g with holdover := true }))

/-- REF_RESTORED: ticks from TCLK again (R61). -/
def execRefRestored (s : State) : Result :=
  s.act (!s.tclkLost && s.gov.holdover) (s.modGov (fun g => { g with holdover := false }))

end Sys2Proof.Machine
end

