-- ==== Sys2Proof/Machine/Manifold.lean ====
section
/-!
DEFINITION. The manifold (chapter 11): sources, routes, gates, deliveries, the storm guard, the signature.
-/

namespace Sys2Proof.Machine

/-- Change the manifold's own state. -/
def State.modMf (s : State) (f : ManifoldSt → ManifoldSt) : State := { s with mf := f s.mf }

/-- Set a bit of MF_ALARM and report it (R403); SIG_FAIL and SIG_STALE are class 8, the others class 12. -/
def State.mfAlarm (s : State) (b : Nat) : State :=
  let s := s.modMf (fun m => { m with alarm := m.alarm ||| 2 ^ b, fresh := m.fresh.set s.strokes (2 ^ b) })
  s.alarmEvent 3 (if b = 1 || b = 2 then 8 else 12) b s.mf.alarm

/-! ### Sources (R380-R384) -/

def srcPin (n j : Nat) : Nat := 8 * n + j
def srcVe (v k : Nat) : Nat := 0x100 + 2 * v + k
def srcCke (i : Nat) : Nat := 0x200 + i
def srcSch (line : Nat) : Nat := 0x280 + line
def srcFs (n : Nat) : Nat := 0x2C0 + 2 * n
def srcFe (n : Nat) : Nat := 0x2C1 + 2 * n
def srcPost (lb i : Nat) : Nat := 0x300 + 16 * lb + i
def srcRep (lb : Nat) : Nat := 0x380 + lb
def srcExtin (k : Nat) : Nat := 0x388 + k
def srcPpsIn : Nat := 0x398
def srcPpsOut : Nat := 0x399
def srcChat (g : Nat) : Nat := 0x3A0 + g
def srcStuck (g : Nat) : Nat := 0x3A8 + g
def srcLockev (k : Nat) : Nat := 0x3B0 + k
def srcPq (lb q : Nat) : Nat := 0x3C0 + 8 * lb + q

/-- A source whose level is 1 only in the stroke in which its event enters (R380). -/
def pulseSource (k : Nat) : Bool :=
  (0x100 ≤ k && k < 0x200) || (0x280 ≤ k && k < 0x2C0) || (0x2C0 ≤ k && k < 0x300 && k % 2 == 1) || 0x3B0 ≤ k

/-- A reserved source number. -/
def reservedSource (k : Nat) : Bool := 0x39A ≤ k && k < 0x3A0

/-- A source with a rising-edge and a falling-edge event (R381). -/
def edgeSource (k : Nat) : Bool := k < 0x100 || (0x388 ≤ k && k < 0x398)

/-- Raise an event or a change of level of a source; it can enter in stroke `from_` or later (R394). -/
def State.raiseAt (s : State) (src : Nat) (ev rising level : Bool) (from_ : Nat) : State :=
  s.modMf (fun m => { m with entryQ := m.entryQ ++
    [{ src := src, ev := ev, rising := rising, level := level, from_ := from_ }] })

/-- Raise a pulse of a core source: it enters at the gate opening that ends the stroke (R394).
(DEDUCED, unsafe: log entry 32.) -/
def State.raiseCore (s : State) (src : Nat) : State := s.raiseAt src true true true (s.strokes + 1)

/-- Raise a pulse of a clock-domain source: 1 source cycle and 2 strokes (R394). -/
def State.raiseClock (s : State) (src : Nat) : State := s.raiseAt src true true true (s.strokes + 2)

/-- A change of level of a clock-domain source, with an event where `ev` holds. -/
def State.raiseLevel (s : State) (src : Nat) (ev level : Bool) : State :=
  s.raiseAt src ev level level (s.strokes + 2)

/-- The core-side level of a source in the stroke in progress (R380, R392). -/
def State.srcLevel (s : State) (k : Nat) : Bool :=
  if reservedSource k then false
  else if pulseSource k then s.mf.pulsesNow.contains k
  else tget false s.mf.levels k

/-! ### Routes (R389, R390) -/

/-- Words of the routes memory: MF_ROUTE, MF_GATE, MF_BITMAP and MF_POST_OWN (R400, R402). -/
def routeWord (r : Nat) : Nat := 2 * r
def bitmapWord (i : Nat) : Nat := 4096 + i
def postOwnWord (k : Nat) : Nat := 4736 + k

/-- An input that accepts level routes (R385). -/
def levelInput (i : Nat) : Bool := i < 0x280 || (0x3C0 ≤ i && i < 0x3E0) || 0x3F0 ≤ i

/-- TXHOLD inputs accept level routes only. -/
def levelOnly (i : Nat) : Bool := 0x3C0 ≤ i && i < 0x3E0

/-- A route and its gate word that R390 calls erroneous. -/
def routeBad (w g : Nat) : Bool :=
  bits w 15 12 != 0 || bits w 27 26 != 0 || bit w 30 || bits g 15 10 != 0 || bits g 31 17 != 0 ||
  bits w 11 10 == 3 || (bits w 11 10 != 0 && !edgeSource (bits w 9 0)) ||
  (bit w 28 && !levelInput (bits w 25 16)) || (!bit w 28 && levelOnly (bits w 25 16))

/-- MF_ROUTE and MF_GATE as they are in effect. -/
def State.route (s : State) (r : Nat) : Nat := (tget 0 s.mf.routes r).toNat
def State.gate (s : State) (r : Nat) : Nat := (tget 0 s.mf.gates r).toNat

/-- Route r is in effect: EN at 1, not erroneous, no uncorrectable word (R389, R390, R402). -/
def State.routeOn (s : State) (r : Nat) : Bool :=
  bit (s.route r) 31 && !routeBad (s.route r) (s.gate r) &&
  !s.isUe .routes (routeWord r) && !s.isUe .routes (routeWord r + 1)

/-- The routes that may be in effect: every other route word is 0. -/
def State.routeNums (s : State) : List Nat := s.mf.routes.map (·.1)

/-- The gate term of a route (R392): 1 for a route without a gate. -/
def State.gateTerm (s : State) (r : Nat) : Bool :=
  if bit (s.route r) 29 then s.srcLevel (bits (s.gate r) 9 0) != bit (s.gate r) 16 else true

/-- The hop cost of a route (R394). -/
def State.hop (s : State) (r : Nat) : Nat := if bit (s.route r) 29 then 2 else 1

/-- A pulse route from `src` that an event with this edge takes (R381, R393). -/
def State.pulseRoute (s : State) (r src : Nat) (rising : Bool) : Bool :=
  let w := s.route r
  s.routeOn r && !bit w 28 && bits w 9 0 == src &&
  (!edgeSource src || bits w 11 10 == 2 || (bits w 11 10 == 0) == rising)

/-- Sample the head of every level route: a change starts on its way with the hop cost (R393). -/
def State.sampleLevels (s : State) : State :=
  s.routeNums.foldl
    (fun s r =>
      if s.routeOn r && bit (s.route r) 28 then
        let v := s.srcLevel (bits (s.route r) 9 0) && s.gateTerm r
        if v = tget false s.mf.carry r then s
        else s.modMf (fun m => { m with
          carry := tset false m.carry r v
          moves := m.moves ++ [{ route := r, v := v, due := s.strokes + s.hop r }] })
      else s) s

/-- An event or a change of level enters the manifold core: the source shows its level in the stroke (R380, R391). -/
def State.enterEvent (s : State) (e : SrcEvent) : State :=
  s.modMf (fun m => { m with
    entryQ := m.entryQ.erase e
    levels := if pulseSource e.src then m.levels else tset false m.levels e.src e.level
    pulsesNow := if e.ev then m.pulsesNow ++ [e.src] else m.pulsesNow
    entered := if e.ev then m.entered ++ [e] else m.entered })

/-- The event may enter in the stroke in progress: it has crossed, and its source has delivered none in it (R382). -/
def State.mayEnter (s : State) (e : SrcEvent) : Bool := decide (e.from_ ≤ s.strokes) && !s.mf.pulsesNow.contains e.src

/-- A source that a unit of the core raises: POST, FE, LOCKEV and PQ (R394). -/
def coreSource (k : Nat) : Bool :=
  (0x300 ≤ k && k < 0x380) || (0x2C0 ≤ k && k < 0x300 && k % 2 == 1) || 0x3B0 ≤ k

/-- The events of core sources that no command of the stroke has let in enter: their entry costs nothing (R394). -/
def State.enterCore (s : State) : State :=
  (s.mf.entryQ.filter (fun e => coreSource e.src)).foldl (fun s e => if s.mayEnter e then s.enterEvent e else s) s

/-- The manifold reads a word of the routes memory: a single-bit error is corrected and counted, an uncorrectable one is
counted, reported and sets the ECC alarm (R144, R402). -/
def State.routeRead (s : State) (w : Nat) : State :=
  if s.ecc.isEmpty then s
  else
    let ue := s.isUe .routes w
    let s := s.eccRead .manifold .routes w
    if ue then s.mfAlarm 4 else s

/-- Route r is one of the source's: its two words are read (R402). -/
def State.routeLook (s : State) (r src : Nat) : State :=
  if bit (s.route r) 31 && bits (s.route r) 9 0 == src then (s.routeRead (routeWord r)).routeRead (routeWord r + 1) else s

/-- An event that entered in the stroke takes route r, with the gate term of the stroke (R391, R392, R394). -/
def State.routeBy (s : State) (e : SrcEvent) (r : Nat) : State :=
  let s := s.routeLook r e.src
  if s.pulseRoute r e.src e.rising && s.gateTerm r then
    s.modMf (fun m => { m with
      pulses := m.pulses ++ [{ input := bits (s.route r) 25 16, src := e.src, due := s.strokes + s.hop r }] })
  else s

/-- The events of the stroke are routed, and the heads of the level routes are sampled (R391-R393). -/
def State.routeStroke (s : State) : State :=
  let s := s.enterCore
  let s := s.mf.entered.foldl
    (fun s e => if reservedSource e.src then s else s.routeNums.foldl (fun s r => s.routeBy e r) s) s
  (s.modMf (fun m => { m with entered := [] })).sampleLevels

/-! ### Deliveries (R393, R395, R396, R398) -/

/-- The state of an input. -/
def State.inStat (s : State) (i : Nat) : InStat := tget {} s.mf.ins i
/-- Change the state of an input. -/
def State.modIn (s : State) (i : Nat) (f : InStat → InStat) : State :=
  s.modMf (fun m => { m with ins := tput m.ins i (f (tget {} m.ins i)) })

/-- The hardware sets RW1C bits of MF_IN_STAT⟨i⟩: 1 COINCIDENT, 2 OVR, 4 STORM (R11). -/
def State.inLatch (s : State) (i m : Nat) (f : InStat → InStat) : State :=
  s.modIn i (fun x => { f x with fresh := x.fresh.set s.strokes m })

/-- The combined level of an input from the contributions of its level routes in effect (R393). -/
def State.combined (s : State) (i : Nat) : Bool :=
  s.mf.contrib.any (fun c => c.2 && s.routeOn c.1 && bit (s.route c.1) 28 && bits (s.route c.1) 25 16 == i)

/-- STORM_WIN and STORM_MAX. -/
def State.stormWin (s : State) : Nat := bits (s.reg 0x50008) 31 16
def State.stormMax (s : State) : Nat := bits (s.reg 0x50008) 7 0

/-- Start a new storm window where the one in progress has ended (R398). -/
def State.stormWindow (s : State) : State :=
  let k := s.strokes / s.stormWin
  if k = s.mf.window then s
  else s.modMf (fun m => { m with window := k, ins := m.ins.map (fun e => (e.1, { e.2 with inWindow := 0 })) })

/-- The global bit that BITIN⟨i⟩ names. -/
def State.bitinTarget (s : State) (i : Nat) : Nat := 0x3000 + bits (s.reg (0x52000 + 4 * i)) 11 0

/-- A global bit after the thread writes of the stroke in progress, bores in rising number (R117, R395). -/
def State.gbitAfterThreads (s : State) (a : Nat) : Bool :=
  ((s.gpend.filter (fun w => w.addr == a && decide (w.rank < 8) && decide (w.at_ ≤ s.strokes))).mergeSort
    (fun v w => v.at_ * 16 + v.rank ≤ w.at_ * 16 + w.rank)).foldl (fun v w => w.applyTo v) (tget false s.gbits a)

/-- The manifold writes a global bit in the stroke in progress; a write into an uncorrectable word is discarded
and reported (R146, R402). -/
def State.mfWriteBit (s : State) (a : Nat) (v : Bool) : State :=
  let w := (bitWord 0 a).2
  if s.isUe .globalBits w then (s.eccRead .manifold .globalBits w).mfAlarm 4
  else (s.eccRead .manifold .globalBits w).gbitWrite s.strokes 8 a (some v)

/-- The consumer's action for a delivery of `n` pulses (the first from source `src`) and of a changed level (R385). -/
def State.consume (s : State) (i n : Nat) (changed : Bool) : State :=
  let lvl := s.combined i
  let q := s.strokes
  if i < 0x280 then
    let ue := s.isUe .routes (bitmapWord i)
    let s := s.routeRead (bitmapWord i)
    if ue then s
    else
      let a := s.bitinTarget i
      let busy := decide (0 < n) && s.gbitAfterThreads a
      let s := s.mfWriteBit a (decide (0 < n) || lvl)
      if busy then s.inLatch i 2 (fun x => { x with ovr := true }) else s
  else if i < 0x380 then
    if 0 < n then s.modMf (fun m => { m with trigX := m.trigX ++ [⟨((i - 0x280) / 2, i % 2), q, 0⟩] }) else s
  else if i < 0x3C0 then
    if 0 < n then s.modMf (fun m => { m with ptrgX := m.ptrgX ++ [i - 0x380] }) else s
  else if i < 0x3E0 then
    if changed then s.modMf (fun m => { m with holdX := m.holdX ++ [⟨(i - 0x3C0, lvl), q, 0⟩] }) else s
  else if i < 0x3F0 then
    if 0 < n then s.modMf (fun m => { m with capX := m.capX ++ [⟨i - 0x3E0, q, 0⟩] }) else s
  else
    let s := if 0 < n then s.modMf (fun m => { m with extX := m.extX ++ [⟨i - 0x3F0, q, 0⟩] }) else s
    if changed then s.modMf (fun m => { m with levX := m.levX ++ [⟨(i - 0x3F0, lvl), q, 0⟩] }) else s

/-- Deliver `srcs` pulses and a change of level to input i in the stroke in progress, under the storm guard. -/
def State.deliverTo (s : State) (i : Nat) (srcs : List Nat) (levelSrc : Option Nat) : State :=
  let s := s.stormWindow
  let n := srcs.length
  let changed := s.combined i != (s.inStat i).level
  if n = 0 ∧ !changed then s
  else
    let k := min 3 n + b2n changed
    let s := s.modIn i (fun x => { x with last := some s.strokes })
    let st := s.inStat i
    if st.storm then s.modIn i (fun x => { x with dropped := min 65535 (x.dropped + n) })
    else if s.stormMax < st.inWindow + k then
      let s := s.inLatch i 4 (fun x => { x with storm := true, dropped := min 65535 (x.dropped + n) })
      (s.mfAlarm 0).event 3 12 0x21 i (srcs.headD (levelSrc.getD 0))
    else
      let s := s.modIn i (fun x => { x with
        inWindow := x.inWindow + k, level := s.combined i
        count := if n = 0 then x.count else min 3 n
        coincident := x.coincident || decide (2 ≤ n)
        fresh := if 2 ≤ n then x.fresh.set s.strokes 1 else x.fresh })
      let s := if bit (s.reg 0xF0000) 0 && bits (s.reg 0xF0000) 25 16 == i then
          srcs.foldl (fun s src => s.traceEvent 3 0x30 src i) s else s
      s.consume i n changed

/-- Everything that is due for input i is delivered (R394). -/
def State.deliver (s : State) (i : Nat) : State :=
  let due := s.mf.pulses.filter (fun p => p.input == i && p.due ≤ s.strokes)
  let lv := s.mf.moves.filter (fun m => bits (s.route m.route) 25 16 == i && m.due ≤ s.strokes)
  let s := s.modMf (fun m => { m with
    pulses := m.pulses.filter (fun p => !(p.input == i && p.due ≤ s.strokes))
    moves := m.moves.filter (fun x => !(bits (s.route x.route) 25 16 == i && x.due ≤ s.strokes))
    contrib := lv.foldl (fun c x => tset false c x.route x.v) m.contrib })
  s.deliverTo i (due.map (·.src)) (lv.head?.map (fun m => bits (s.route m.route) 9 0))

/-- Something is due for input i. -/
def State.dueFor (s : State) (i : Nat) : Bool :=
  s.mf.pulses.any (fun p => p.input == i && p.due ≤ s.strokes) ||
  s.mf.moves.any (fun m => bits (s.route m.route) 25 16 == i && m.due ≤ s.strokes)

/-- An entry that its stroke has presented: the TCLK edges that had come when the stroke ended (R24). -/
def Cross.stamp {α : Type} (c : Cross α) (q e : Nat) : Cross α := if c.at_ = q then { c with edge := e } else c

/-- The stroke in which a crossing into GCLK was presented is over (R24). -/
def Cross.outG {α : Type} (c : Cross α) (s : State) : Bool := decide (c.at_ < s.strokes)

/-- A crossing into TCLK has taken 1 stroke and 2 TCLK cycles (R24). -/
def Cross.outT {α : Type} (c : Cross α) (s : State) : Bool := decide (c.at_ < s.strokes) && decide (c.edge + 2 ≤ s.tb.edges)

/-- A crossing from a clock domain into the core has taken its 2 strokes (R24). -/
def Cross.inCore {α : Type} (c : Cross α) (s : State) : Bool := decide (c.at_ + 2 ≤ s.strokes)

/-- The stroke ends: what it has presented to TCLK starts its TCLK cycles. -/
def State.stampExits (s : State) : State :=
  s.modMf (fun m => { m with
    capX := m.capX.map (fun c => c.stamp s.strokes s.tb.edges)
    extX := m.extX.map (fun c => c.stamp s.strokes s.tb.edges)
    levX := m.levX.map (fun c => c.stamp s.strokes s.tb.edges) })

/-- The level of an EXTOUT input at a TCLK edge: the changes that have crossed, each at the third edge after its stroke
(R24, R388).
(DEDUCED, unsafe: log entry 113.) -/
def State.extLevels (s : State) : State :=
  let out (c : Cross (Nat × Bool)) : Bool := decide (c.at_ < s.strokes) && decide (c.edge + 3 ≤ s.tb.edges)
  if s.mf.levX.isEmpty then s
  else s.modMf (fun m => { m with
    extLevel := (m.levX.filter out).foldl (fun t c => tset false t c.val.1 c.val.2) m.extLevel
    levX := m.levX.filter (fun c => !out c) })

/-- The stretcher of ext_out[k] holds the output at 1 (R388). -/
def State.stretching (s : State) (k : Nat) : Bool := ((tfind s.mf.stretch k).map (fun e => decide (s.tb.edges < e))).getD false

/-- The level of ext_out[k]: the level routes to EXTOUT⟨k⟩ or the stretcher (R388). -/
def State.extOut (s : State) (k : Nat) : Bool := tget false s.mf.extLevel k || s.stretching k

/-- The inputs whose combined level is not the one delivered last, in a stroke that has delivered nothing to them: a level
route to them has started or stopped being in effect (R393). -/
def State.staleInputs (s : State) : List Nat :=
  (s.mf.ins.filter (fun e => e.2.last != some s.strokes && !e.2.storm && s.combined e.1 != e.2.level)).map (·.1)

/-- Deliver everything that is due, before the stroke ends: a hop cost is exact (R394). -/
def State.deliverAll (s : State) : State :=
  let ins := (s.mf.pulses.filter (fun p => p.due ≤ s.strokes)).map (·.input) ++
             (s.mf.moves.filter (fun m => m.due ≤ s.strokes)).map (fun m => bits (s.route m.route) 25 16) ++ s.staleInputs
  ins.eraseDups.foldl (fun s i => s.deliver i) s

/-- A stroke begins: the pulses of the last one are over. -/
def State.mfGate (s : State) : State :=
  if s.mf.pulsesNow.isEmpty then s else s.modMf (fun m => { m with pulsesNow := [] })

/-! ### Register writes (R389-R393, R399, R401) -/

/-- A covered word has been written: STALE, and STALE_PASSES restarts when STALE rises. -/
def State.mfTouch (s : State) : State :=
  s.modMf (fun m => { m with stale := true, stalePasses := if m.stale then m.stalePasses else 0 })

/-- A write to MF_ROUTE⟨r⟩ stores it with the held gate. -/
def State.routeWrite (s : State) (r w : Nat) : State :=
  let g := (tget 0 s.mf.gatesHeld r).toNat
  let same := s.route r = w ∧ s.gate r = g ∧ s.isUe .routes (routeWord r) = false ∧ s.isUe .routes (routeWord r + 1) = false
  let s := (s.setEcc .routes (routeWord r) none).setEcc .routes (routeWord r + 1) none
  let s := (s.modMf (fun m => { m with
    routes := tset 0 m.routes r (BitVec.ofNat 32 w), gates := tset 0 m.gates r (BitVec.ofNat 32 g) })).mfTouch
  let s := if same then s
    else s.modMf (fun m => { m with
      carry := tset false m.carry r false, contrib := tset false m.contrib r false
      moves := m.moves.filter (fun x => x.route != r) })
  if routeBad w g then
    (s.modMf (fun m => { m with routeErr := 2 ^ 31 + r, freshErr := m.freshErr.set s.strokes (2 ^ 31) })).mfAlarm 3
  else s

/-- A write to MF_GATE⟨r⟩ is held. -/
def State.gateWrite (s : State) (r w : Nat) : State :=
  (s.modMf (fun m => { m with gatesHeld := tset 0 m.gatesHeld r (BitVec.ofNat 32 w) })).mfTouch

/-- A write of 1 to STORM of MF_IN_STAT⟨i⟩ re-arms the input (R399). -/
def State.stormRearm (s : State) (i : Nat) : State :=
  (s.modIn i (fun x => { x with storm := false, dropped := 0, inWindow := 0 })).deliverTo i [] none

/-- A write to MF_IN_STAT⟨i⟩: a bit that the hardware sets in the same stroke ends set (R11). -/
def State.inStatWrite (s : State) (i w : Nat) : State :=
  let h := (s.inStat i).fresh.held s.strokes
  let s := s.modIn i (fun x => { x with
    coincident := x.coincident && (!bit w 8 || bit h 0), ovr := x.ovr && (!bit w 9 || bit h 1) })
  if bit w 10 && !bit h 2 then s.stormRearm i else s

/-- A write to MF_SIG_GOLDEN clears STALE; passes that start from now on are compared (R401). -/
def State.goldenWrite (s : State) (w : Nat) : State :=
  (s.setReg 0x50010 w).modMf (fun m => { m with stale := false, goldenAt := s.strokes + 1 })

/-! ### The signature (R400) -/

/-- Word `k` of a pass, of 4,752 (R400). -/
def State.sigWord (s : State) (k : Nat) : Nat :=
  if k < 4096 then (if k % 2 = 0 then s.route (k / 2) else s.gate (k / 2))
  else if k < 4736 then s.reg (0x52000 + 4 * (k - 4096))
  else s.reg (0x50040 + 4 * (k - 4736))

/-- The CRC-32C over one more word, lowest byte first (R202, R400). -/
def crcWord (c w : Nat) : Nat := crcBytes poly32c c (toBytes 4 w)

/-- The finished CRC-32C of a list of words. -/
def crcWords (ws : List Nat) : Nat := ws.foldl crcWord 0xFFFFFFFF ^^^ 0xFFFFFFFF

/-- A pass that began in stroke `begun` has ended with the value `v` (R400, R401). -/
def State.sigEnd (s : State) (begun v : Nat) : State :=
  let s := s.modMf (fun m => { m with sigLast := v, passes := (m.passes + 1) % 65536 })
  if s.mf.stale then
    if s.mram.primed && decide (s.mf.stalePasses < 255) then
      let s := s.modMf (fun m => { m with stalePasses := m.stalePasses + 1 })
      if s.mf.stalePasses = 255 then s.mfAlarm 2 else s
    else s
  else if begun < s.mf.goldenAt then s
  else if v = s.reg 0x50010 then s.modMf (fun m => { m with lastMatch := true })
  else
    ((s.modMf (fun m => { m with lastMatch := false })).mfAlarm 1).event 3 8 0x20 v (s.reg 0x50010)

/-- The result of a pass that has ended is stored and compared. -/
def State.sigPass (s : State) : State :=
  match s.mf.sigDone with
  | none => s
  | some (v, begun) => (s.modMf (fun m => { m with sigDone := none })).sigEnd begun v

/-- The pass reads the word of the stroke in progress, and the next pass follows it without a gap (R400). -/
def State.sigStep (s : State) : State :=
  let s := s.sigPass.routeRead s.mf.sigPos
  let c := crcWord s.mf.sigCrc (s.sigWord s.mf.sigPos)
  if s.mf.sigPos + 1 < 4752 then s.modMf (fun m => { m with sigPos := m.sigPos + 1, sigCrc := c })
  else s.modMf (fun m => { m with
    sigPos := 0, sigCrc := 0xFFFFFFFF, sigDone := some (c ^^^ 0xFFFFFFFF, m.passStart), passStart := s.strokes + 1 })

/-! ### The commands -/

/-- EVENT_ENTRY: the oldest event of a source that has crossed enters, at most one per stroke; it is routed with the gate
terms of the stroke (R382, R391, R392). -/
def execEventEntry (src : Fin 1024) (s : State) : Result :=
  match s.mf.entryQ.find? (fun e => e.src == src.val) with
  | none => .next s
  | some e =>
    s.act (s.mayEnter e) (s.enterEvent e)

/-- ROUTE_DELIVERY (R394). -/
def execRouteDelivery (i : Fin 1024) (s : State) : Result := s.act (s.dueFor i) (s.deliver i)

/-- STORM_WINDOW (R398). -/
def execStormWindow (s : State) : Result := .next s.stormWindow

/-- STORM_REARM: a write to MF_IN_STAT⟨i⟩ with STORM at 1 (R399). -/
def execStormRearm (i : Fin 1024) (w : Word) (s : State) : Result :=
  .next (s.inStatWrite i (putBits w.toNat 10 10 1))

/-- Trigger latch k of a valve. -/
def ValveSt.trig (v : ValveSt) (k : Nat) : Bool := if k = 0 then v.trig0 else v.trig1
def ValveSt.setTrig (v : ValveSt) (k : Nat) (b : Bool) : ValveSt :=
  if k = 0 then { v with trig0 := b } else { v with trig1 := b }
/-- The hardware sets TRIGk_OVR in cycle `now` (R11, R268). -/
def ValveSt.setOvr (v : ValveSt) (now k : Nat) : ValveSt :=
  { v with ovr0 := v.ovr0 || k == 0, ovr1 := v.ovr1 || k != 0, fresh := v.fresh.set now (2 ^ (22 + k)) }

/-- TRIGGER_ARRIVE: the event sets TRIG[k], or TRIGk_OVR where it is set already (R24, R268, R395).  Every input has a
crossing of its own, which never fills; entries of two inputs arrive in the order of the commands.
(DESIGN CHOICE, unsafe: log entry 112.) -/
def execTriggerArrive (v : Fin 128) (k : Fin 2) (s : State) : Result :=
  let vs := tget {} s.valves v.val
  match s.mf.trigX.find? (fun c => c.val == (v.val, k.val)) with
  | none => .next s
  | some e => s.act (e.outG s)
    { (s.modMf (fun m => { m with trigX := m.trigX.erase e })) with
      valves := tput s.valves v.val (if vs.trig k then vs.setOvr s.moment k else vs.setTrig k true) }

/-- TXHOLD_CHANGE (R386). -/
def execTxholdChange (n : Fin 32) (s : State) : Result :=
  match s.mf.holdX.find? (fun e => e.val.1 == n.val) with
  | none => .next s
  | some e => s.act (e.outG s) (s.modMf (fun m => { m with
      holdX := m.holdX.erase e, txhold := tset false m.txhold n.val e.val.2 }))

/-- TSCAP_CAPTURE: the master time at this TCLK edge, or OVR while the last capture is held (R387, R395). -/
def execTscapCapture (k : Fin 16) (s : State) : Result :=
  match s.mf.capX.find? (fun c => c.val == k.val) with
  | none => .next s
  | some e =>
    let s1 := s.modMf (fun m => { m with capX := m.capX.erase e })
    s.act (e.outT s)
      (if (tget {} s.mf.caps k.val : Capture).valid then s1.inLatch (0x3E0 + k.val) 2 (fun x => { x with ovr := true })
       else s1.modMf (fun m => { m with
         caps := tput m.caps k.val { time := s.tb.now, epoch := s.tb.epoch, valid := true
                                     fresh := ({} : Fresh).set s.strokes 1 } }))

/-- EXTOUT_PULSE: the stretcher starts, or OVR while it runs (R388, R395). -/
def execExtoutPulse (k : Fin 16) (s : State) : Result :=
  match s.mf.extX.find? (fun c => c.val == k.val) with
  | none => .next s
  | some e =>
    let s1 := s.modMf (fun m => { m with extX := m.extX.erase e })
    s.act (e.outT s)
      (if s.stretching k.val then s1.inLatch (0x3F0 + k.val) 2 (fun x => { x with ovr := true })
       else s1.modMf (fun m => { m with
         stretch := tput m.stretch k.val (s.tb.edges + bits (s.reg 0x5000C) 7 0) }))

/-- STRETCHER_END: WIDTH TCLK cycles have passed (R388). -/
def execStretcherEnd (k : Fin 16) (s : State) : Result :=
  match tfind s.mf.stretch k.val with
  | none => .next s
  | some e => s.act (decide (e ≤ s.tb.edges)) (s.modMf (fun m => { m with stretch := tdel m.stretch k.val }))

/-- ROUTE_WRITE (R389). -/
def execRouteWrite (r : Fin 2048) (w : Word) (s : State) : Result := .next (s.routeWrite r w.toNat)

/-- GATE_WRITE (R389). -/
def execGateWrite (r : Fin 2048) (w : Word) (s : State) : Result := .next (s.gateWrite r w.toNat)

/-- SIGNATURE_PASS: the result of the pass that has ended is stored and compared (R400). -/
def execSignaturePass (s : State) : Result := s.act s.mf.sigDone.isSome s.sigPass

/-- GOLDEN_WRITE (R401). -/
def execGoldenWrite (w : Word) (s : State) : Result := .next (s.goldenWrite w.toNat)

/-- EXT_IN_EDGE: ext_in[k] goes to a new level (R381, R394). -/
def execExtInEdge (k : Fin 16) (level : Bool) (s : State) : Result :=
  s.act (tget false s.mf.extIn k.val != level)
    ((s.modMf (fun m => { m with extIn := tset false m.extIn k.val level })).raiseLevel (srcExtin k) true level)

end Sys2Proof.Machine
end

