-- ==== Sys2Proof/Machine/Pairs.lean ====
section
/-!
DEFINITION. Paired threads (R504-R507): which thread leads and which trails, and the writes into the leader that
the trailer receives 16 strokes later.
-/

namespace Sys2Proof.Machine

/-- WH_PAIR of pair k and its fields. -/
def State.pairWord (s : State) (k : Nat) : Nat := s.reg (0x02080 + 8 * k)
def State.pairLead (s : State) (k : Nat) : Nat := bits (s.pairWord k) 6 0
def State.pairTrail (s : State) (k : Nat) : Nat := bits (s.pairWord k) 14 8
def State.pairEn (s : State) (k : Nat) : Bool := bit (s.pairWord k) 16

def State.pair (s : State) (k : Nat) : PairSt := tget {} s.wh.pairs k
def State.modPair (s : State) (k : Nat) (f : PairSt → PairSt) : State :=
  { s with wh := { s.wh with pairs := tput s.wh.pairs k (f (s.pair k)) } }

/-- The running pairs. -/
def State.runningPairs (s : State) : List Nat := (List.range 16).filter (fun k => (s.pair k).running)

/-- The running pair that thread Lx leads. -/
def State.leads (s : State) (x : Nat) : Option Nat :=
  (List.range 16).find? (fun k => (s.pair k).running && s.pairLead k == x)

/-- The running pair that thread Lx trails. -/
def State.trails (s : State) (x : Nat) : Option Nat :=
  (List.range 16).find? (fun k => (s.pair k).running && s.pairTrail k == x)

/-- A write into the leader by the pump or the lock unit, or a done bit set for it, is due at the same location of
the trailer 16 strokes later (R505).  `n` is 0 for a bit. -/
def State.mirror (s : State) (x : Nat) (loc : Loc) (n v : Nat) : State :=
  match s.leads x with
  | some k => s.modPair k (fun p => { p with writes := p.writes ++ [{ due := s.strokes + 16, loc := loc, n := n, v := v }] })
  | none => s

/-- A done, error or result flag of Lx set by a unit (R180): mirrored for a leader. -/
def State.doneBit (s : State) (r : Reader) (x a : Nat) : State := (s.hwFlag r x a).mirror x (.bit a) 0 1

/-- The service port writes `n` bytes into the well of Lx. -/
def State.pumpWell (s : State) (r : Reader) (x a n v : Nat) : State :=
  ((s.eccNarrow r (.well x) a n).wellPut x a n v).mirror x (.well a) n v

/-- A write by the pump or the lock unit into the reservoir of a bore, mirrored for each leader in it. -/
def State.mirrorRes (s : State) (lb a n v : Nat) : State :=
  (List.range 16).foldl (fun s k =>
    if (s.pair k).running && lbOf (s.pairLead k) == lb then s.mirror (s.pairLead k) (.res a) n v else s) s

/-- The service port writes `n` bytes into the reservoir of a bore. -/
def State.pumpRes (s : State) (r : Reader) (lb a n v : Nat) : State :=
  ((s.eccNarrow r (.reservoir lb) a n).resServe lb a n v).mirrorRes lb a n v

/-- A write of `n` bytes that comes from beside the pipe: the bytes of an uncorrectable word that it covers only in
part keep their stored values, and the word is reported (R146, R148). -/
def State.sparing (s : State) (r : Reader) (m : Mem) (t : Tbl Byte) (a n v : Nat) : Nat × State :=
  match (partWords a n).filter (s.isUe m) with
  | [] => (v, s.eccNarrow r m a n)
  | ws => (ofBytes ((toBytes n v).zipIdx.map (fun p =>
      if ws.contains ((a + p.2) / 4) then (byteAt t (a + p.2)).toNat else p.1)),
      (s.eccNarrow r m a n).eccReads r (ws.map (fun w => (m, w))))

/-- Land the mirrored writes of pair k that are due by stroke `q`. -/
def State.landPair (s : State) (k q : Nat) : State :=
  let x := s.pairTrail k
  let due := (s.pair k).writes.filter (fun w => w.due ≤ q)
  let s := s.modPair k (fun p => { p with writes := p.writes.filter (fun w => !(w.due ≤ q)) })
  due.foldl (fun s w =>
    match w.loc with
    | .well a =>
      let (v, s) := s.sparing .pump (.well x) (s.th x).well a w.n w.v
      s.wellPut x a w.n v
    | .res a =>
      let (v, s) := s.sparing .pump (.reservoir (lbOf x)) (s.lb (lbOf x)).res a w.n w.v
      s.resServe (lbOf x) a w.n v
    | .bit a => s.hwFlag .pump x a
    | _ => s) s

end Sys2Proof.Machine
end

