-- ==== Sys2Proof/Machine/Locks.lean ====
section
/-!
DEFINITION. The lock unit (chapter 14): word locks with their lease table, group locks, expiry, abandonment.
-/

namespace Sys2Proof.Machine

/-- Change the lock unit's own state. -/
def State.modLocks (s : State) (f : LockSt → LockSt) : State := { s with locks := f s.locks }

/-- Set a bit of LK_ALARM and report it (R495). -/
def State.lockAlarm (s : State) (b : Nat) : State :=
  let s := s.modLocks (fun l => { l with alarm := l.alarm ||| 2 ^ b, fresh := l.fresh.set s.strokes (2 ^ b) })
  s.alarmEvent 6 11 b s.locks.alarm

/-- The LK_MISUSE layout without VALID (R496). -/
def misuseWord (master cause lock : Nat) : Nat := master + 2 ^ 8 * cause + 2 ^ 16 * lock

/-- Report a misuse, orphan, expiry, abandonment or force (R494, R523). -/
def State.lockReport (s : State) (master cause lock addr : Nat) : State :=
  s.event 6 11 0x20 (misuseWord master cause lock) addr

/-- Latch a misuse or orphan in LK_MISUSE where it holds none (R496). -/
def State.lockLatch (s : State) (master cause lock : Nat) : State :=
  if bit s.locks.misuse.toNat 31 then s
  else s.modLocks (fun l => { l with misuse := BitVec.ofNat 32 (misuseWord master cause lock + 2 ^ 31),
                                      freshMisuse := l.freshMisuse.set s.strokes 1 })

/-- A release by a master that does not hold the lock (R214, R481, R486): a thread's carries its PC. -/
def State.lockMisuse (s : State) (master lock addr pc : Nat) (isWord : Bool) : State :=
  let s := s.lockLatch master 1 lock
  let s := if master < 128 then
      s.event 6 11 0x21 (master + 2 ^ 8 + (if isWord then 2 ^ 11 + 2 ^ 12 * addr else 2 ^ 12 * lock)) pc
    else s.lockReport master 1 lock addr
  s.lockAlarm 1

/-! ### Word locks (R479-R484) -/

/-- The word as an atomic access reads it: space 1 a reservoir word, 2 a cistern word (R484, R492). -/
def State.lockRead (s : State) (space lb addr : Nat) : Nat :=
  if space = 1 then (s.lb lb).resRead true addr 4 else readLE s.pump.cis addr 4

/-- The lock unit writes the word. -/
def State.lockPut (s : State) (space lb addr v : Nat) : State :=
  if space = 1 then
    (s.modLb lb (fun b => { b with resPend := b.resPend ++
      [{ due := s.strokes + 2, x := 128, addr := addr, n := 4, v := v, atom := true }] })).mirrorRes lb addr 4 v
  else (s.modPump (fun p => { p with cis := writeLE p.cis addr 4 v })).eccWrite .cistern addr 4

def State.lease (s : State) (i : Nat) : Lease := tget {} s.locks.leases i

/-- Replace a lease entry. -/
def State.setLease (s : State) (i : Nat) (e : Lease) : State :=
  s.modLocks (fun l => { l with leases := tset {} l.leases i e })

/-- Entries that are not FREE. -/
def State.leasesUsed (s : State) : Nat := (s.locks.leases.filter (fun e => e.2.st != .free)).length

/-- The entry names the word: its space, bore and address, and exactly the value that it records (R480). -/
def Lease.names (e : Lease) (space lb addr w : Nat) : Bool :=
  e.st != .free && e.space == space && e.lb == lb && e.addr == addr && e.value == w

/-- Elapsed time at which a lease of `us` microseconds that starts now expires (R488). -/
def State.leaseEnd (s : State) (us : Nat) : Nat := s.tb.elapsed + us * usUnits

/-- Take a free lease entry and write the word: OWNER M, HELD 1, EXP 0, ABD 0, LEASE, SEQ + 1 (R480).
Which free entry is a free choice; `none` where the table is full. -/
def State.lockTake (s : State) (m us space lb addr w : Nat) : Option State :=
  match pickFrom 1024 (Config.pick s.draws) (fun i => (s.lease i).st == .free) with
  | none => none
  | some i =>
    let s := { s with draws := s.draws + 1 }
    let v := m + 2 ^ 8 + 2 ^ 12 * i + 2 ^ 24 * ((bits w 31 24 + 1) % 256)
    let s := s.setLease i { space := space, lb := lb, addr := addr, owner := m, value := v,
                            expires := s.leaseEnd us, st := .live, rewriteBy := 0 }
    let s := s.modLocks (fun l => { l with high := max l.high s.leasesUsed })
    some (s.lockPut space lb addr v)

/-- An acquisition of a word lock that reads as `w` by master `m` with a lease of `us` microseconds (R480, R483):
the status. -/
def State.lockAcquireAs (s : State) (m us space lb addr w : Nat) : Nat × State :=
  let i := bits w 21 12
  let e := s.lease i
  let named := e.names space lb addr w
  if bit w 8 then
    if named then
      match e.st with
      | .live => if e.owner = m then (4, s.setLease i { e with expires := s.leaseEnd us }) else (3, s)
      | st =>
        match (s.setLease i {}).lockTake m us space lb addr w with
        | some s' => (if st = .expired then 1 else 2, s')
        | none => (6, s.lockAlarm 0)
    else
      let (c, s) := match s.lockTake m us space lb addr w with
        | some s' => (2, s')
        | none => (6, s.lockAlarm 0)
      (c, ((s.lockLatch m 3 0).lockReport m 3 0 addr).lockAlarm 2)
  else
    match s.lockTake m us space lb addr w with
    | some s' => (if bit w 9 then 1 else if bit w 10 then 2 else 0, s')
    | none => (6, s.lockAlarm 0)

/-- An acquisition of a word lock (R480). -/
def State.lockAcquire (s : State) (m us space lb addr : Nat) : Nat × State :=
  s.lockAcquireAs m us space lb addr (s.lockRead space lb addr)

/-- A release of a word lock that reads as `w` by master `m` (R481, R490): 0, or 3 where `m` does not hold it. -/
def State.lockReleaseAs (s : State) (m space lb addr pc w : Nat) : Nat × State :=
  let i := bits w 21 12
  let e := s.lease i
  if bit w 8 && e.names space lb addr w && e.st == .live && e.owner == m then
    (0, (s.setLease i {}).lockPut space lb addr (bits w 7 0 + 2 ^ 24 * bits w 31 24))
  else (3, s.lockMisuse m 0 addr pc true)

/-- A release of a word lock (R481). -/
def State.lockRelease (s : State) (m space lb addr pc : Nat) : Nat × State :=
  s.lockReleaseAs m space lb addr pc (s.lockRead space lb addr)

/-- The memory of a lock word. -/
def lockMem (space lb : Nat) : Mem := if space = 1 then .reservoir lb else .cistern

/-- The lock unit reads the word of a host command: an error is counted and reported, and what an uncorrectable word
reads as is a free value (R145, R148).
(DESIGN CHOICE, safe: log entry 92.) -/
def State.hostLock (s : State) (space lb addr : Nat) (f : State → Nat → Nat × State) : Nat × State :=
  let s1 := s.eccRead .lock (lockMem space lb) (addr / 4)
  if s.isUe (lockMem space lb) (addr / 4) then f { s1 with draws := s1.draws + 1 } (Config.freeWord s.draws).toNat
  else f s1 (s.lockRead space lb addr)

/-! ### Group locks (R485, R486) -/

def State.glock (s : State) (n : Nat) : GLock := tget {} s.locks.groups n
def State.setGlock (s : State) (n : Nat) (g : GLock) : State :=
  s.modLocks (fun l => { l with groups := tset {} l.groups n g })

/-- LK_GCFG of the group of lock `n`. -/
def State.gcfg (s : State) (n : Nat) : Nat := s.reg (0xA0080 + 4 * (n / 32))

/-- The master may acquire lock `n` (R485). -/
def State.lockRights (s : State) (m n : Nat) : Bool :=
  if m < 128 then bit (s.gcfg n) (m / 16)
  else if m < 136 then bit (s.gcfg n) (8 + m - 128)
  else m == 144 && bit (s.gcfg n) 16

/-- A group lock of group 2k or 2k + 1 has become free (R494). -/
def State.lockFreed (s : State) (n : Nat) : State := s.raiseCore (srcLockev (n / 64))

/-- An acquisition of group lock `n` (R480, R485); `us` is none for the wellhead. -/
def State.groupAcquire (s : State) (m : Nat) (us : Option Nat) (n : Nat) : Nat × State :=
  let g := s.glock n
  let ends := us.map s.leaseEnd
  let take := s.setGlock n { owner := m, held := true, exp := false, abd := false, expires := ends, st := .live }
  if !s.lockRights m n then (5, s)
  else if g.held then
    match g.st with
    | .live => if g.owner = m then (4, s.setGlock n { g with expires := ends }) else (3, s)
    | st => (if st = .expired then 1 else 2, take)
  else (if g.exp then 1 else if g.abd then 2 else 0, take)

/-- A release of group lock `n` (R481, R486). -/
def State.groupRelease (s : State) (m n pc : Nat) : Nat × State :=
  let g := s.glock n
  if g.held && g.st == .live && g.owner == m then
    (0, (s.setGlock n { owner := m }).lockFreed n)
  else (3, s.lockMisuse m n 0 pc false)

/-- A release by force (R486). -/
def State.groupForce (s : State) (m n : Nat) : Nat × State :=
  let g := s.glock n
  if bit (s.gcfg n) 24 then
    (5, if g.held then ((s.lockLatch m 2 n).lockReport m 2 n 0).lockAlarm 1 else s)
  else if g.held then
    let s := s.setGlock n { owner := g.owner, abd := true }
    let s := s.modLocks (fun l => { l with abandons := satInc 16 l.abandons })
    (0, (s.lockReport g.owner 7 n 0).lockFreed n)
  else (0, s)

/-! ### Expiry and abandonment (R488-R490) -/

/-- A lease runs out: the entry becomes EXPIRED (R488). -/
def State.leaseExpire (s : State) (owner lock addr : Nat) : State :=
  let s := s.modLocks (fun l => { l with expiries := satInc 16 l.expiries })
  (s.lockReport owner 5 lock addr).lockAlarm 3

/-- Every live hold of the masters that `who` names becomes ABANDONED (R489). -/
def State.abandon (s : State) (who : Nat → Bool) : State :=
  let es := s.locks.leases.filter (fun e => e.2.st == .live && who e.2.owner)
  let s := es.foldl (fun s e =>
    let s := s.setLease e.1 { e.2 with st := .abandoned, rewriteBy := s.strokes + 64 }
    let s := s.modLocks (fun l => { l with abandons := satInc 16 l.abandons })
    (s.lockReport e.2.owner 6 0 e.2.addr).lockAlarm 4) s
  let gs := s.locks.groups.filter (fun g => g.2.held && g.2.st == .live && who g.2.owner)
  gs.foldl (fun s g =>
    let s := s.setGlock g.1 { g.2 with st := .abandoned }
    let s := s.modLocks (fun l => { l with abandons := satInc 16 l.abandons })
    (s.lockReport g.2.owner 6 g.1 0).lockAlarm 4) s

/-- The lock unit rewrites an expired or abandoned word and frees its entry (R488, R489). -/
def State.leaseRewrite (s : State) (i : Nat) : State :=
  let e := s.lease i
  let s := s.setLease i {}
  let mem := lockMem e.space e.lb
  let w := s.lockRead e.space e.lb e.addr
  if s.isUe mem (e.addr / 4) then s.eccRead .lock mem (e.addr / 4)
  else if w = e.value then
    s.lockPut e.space e.lb e.addr
      (bits w 7 0 + 2 ^ 24 * bits w 31 24 + (if e.st = .expired then 2 ^ 9 else 2 ^ 10))
  else ((s.lockLatch e.owner 4 0).lockReport e.owner 4 0 e.addr).lockAlarm 1

/-- The same for a group lock. -/
def State.groupRewrite (s : State) (n : Nat) : State :=
  let g := s.glock n
  (s.setGlock n { owner := g.owner, exp := g.st == .expired, abd := g.st == .abandoned }).lockFreed n

/-! ### Registers (R495, R496) -/

/-- A write to a lock unit register, RWL fields apart. -/
def State.lkWrite (s : State) (off w : Nat) : State :=
  if off = 0xA0000 then s.modLocks (fun l => { l with alarm := l.fresh.clear s.strokes l.alarm w })
  else if off = 0xA000C then
    if bit w 31 && s.locks.freshMisuse.held s.strokes == 0 then s.modLocks (fun l => { l with misuse := l.misuse &&& 0x7FFFFFFF#32 }) else s
  else if off = 0xA0010 then s.setReg off (bits w 9 0)
  else if 0xA0040 ≤ off ∧ off < 0xA0060 then s.setReg off (max 1 (min 16000 (bits w 13 0)))
  else if 0xA0080 ≤ off ∧ off < 0xA0100 then s.setReg off (w &&& 0x0101FFFF)
  else s

/-! ### The commands -/

/-- LEASE_EXPIRY: `k` below 1,024 is a lease entry, 1,024 + n is group lock n (R488); expiry comes before every operation
of the stroke (R491). -/
def execLeaseExpiry (k : Fin 2048) (s : State) : Result :=
  if k.val < 1024 then
    let e := s.lease k.val
    s.act (s.rank == 0 && e.st == .live && decide (e.expires ≤ s.tb.elapsed))
      ((s.setLease k.val { e with st := .expired, rewriteBy := s.strokes + 64 }).leaseExpire e.owner 0 e.addr)
  else
    let n := k.val - 1024
    let g := s.glock n
    s.act (s.rank == 0 && g.held && g.st == .live && (g.expires.map (fun t => decide (t ≤ s.tb.elapsed))).getD false)
      ((s.setGlock n { g with st := .expired }).leaseExpire g.owner n 0)

/-- LOCK_REWRITE (R488, R489): numbered as in LEASE_EXPIRY. -/
def execLockRewrite (k : Fin 2048) (s : State) : Result :=
  if k.val < 1024 then
    let e := s.lease k.val
    s.act (e.st == .expired || e.st == .abandoned) (s.leaseRewrite k.val)
  else
    let g := s.glock (k.val - 1024)
    s.act (g.held && (g.st == .expired || g.st == .abandoned)) (s.groupRewrite (k.val - 1024))

/-- A write to WH_GLOCK: the operation runs as master 144, after every other one of the stroke (R491), and RESULT holds its
code (R531).  (DEDUCED, safe: log entry 121.) -/
def State.whGlockWrite (s : State) (w : Nat) : State :=
  let n := bits w 9 0
  let op := bits w 13 12
  let (c, s) :=
    if op = 1 then s.groupAcquire 144 none n
    else if op = 2 then s.groupRelease 144 n 0
    else if op = 3 then s.groupForce 144 n
    else (bits (s.reg 0x0202C) 19 16, s)
  { s.setReg 0x0202C (n + 2 ^ 12 * op + 2 ^ 16 * c) with rank := 17 }

/-- WH_LOCK_ACQUIRE (R531): a write to WH_GLOCK with OP 1. -/
def execWhLockAcquire (w : Word) (s : State) : Result := .next (s.whGlockWrite (putBits w.toNat 13 12 1))
/-- WH_LOCK_RELEASE (R531): OP 2. -/
def execWhLockRelease (w : Word) (s : State) : Result := .next (s.whGlockWrite (putBits w.toNat 13 12 2))
/-- WH_LOCK_FORCE (R531): OP 3. -/
def execWhLockForce (w : Word) (s : State) : Result := .next (s.whGlockWrite (putBits w.toNat 13 12 3))

end Sys2Proof.Machine
end

