-- ==== Sys2Proof/Machine/Master.lean ====
section
/-!
DEFINITION. The master ports (R561-R570): commands, identifiers, responses; and the host completion records that
leave through the host master port (R460-R464).
-/

namespace Sys2Proof.Machine

/-- Change the host side's own state. -/
def State.modHost (s : State) (f : HostSt → HostSt) : State := { s with host := f s.host }

/-- Set a bit of HR_ALARM and report it (R476): class 14, unit 5. -/
def State.hostAlarm (s : State) (b : Nat) : State :=
  let s := s.modHost (fun h => { h with alarm := h.alarm ||| 2 ^ b, fresh := h.fresh.set s.moment (2 ^ b) })
  s.alarmEvent 5 14 b s.host.alarm

/-! ### Commands (R563, R568) -/

/-- The pieces of `n` bytes at `addr`, cut at multiples of 256 bytes: offset, address, length (R563). -/
def pieces (addr n : Nat) : List (Nat × Nat × Nat) :=
  if n = 0 then []
  else (List.range ((addr + n - 1) / 256 + 1 - addr / 256)).map (fun i =>
    let b := addr / 256 + i
    let lo := max addr (256 * b)
    let hi := min (addr + n) (256 * (b + 1))
    (lo - addr, lo, hi - lo))

/-- Whether a command may be issued now, and with which identifier: the host port has 256, taken in rotation; a
cistern command uses its transaction slot (R568). -/
def freeId (cs : List MCmd) (next : Nat) (c : MCmd) : Option Nat :=
  let used (i : Nat) := cs.any (fun d => d.issued && d.port == c.port && d.id == i)
  if c.port = 0 then pickFrom 256 next (fun i => !used i)
  else if used c.id then none else some c.id

/-- Issue the waiting commands for which an identifier is free, in order. -/
def kick (now : Nat) : List MCmd → List MCmd → Nat → List MCmd × Nat
  | acc, [], next => (acc, next)
  | acc, c :: cs, next =>
    if c.issued then kick now (acc ++ [c]) cs next
    else match freeId (acc ++ cs) next c with
      | some i => kick now (acc ++ [{ c with issued := true, id := i, at_ := now }]) cs (if c.port = 0 then (i + 1) % 256 else next)
      | none => kick now (acc ++ [c]) cs next

/-- Issue what can be issued. -/
def State.masterKick (s : State) : State :=
  let r := kick s.tb.elapsed [] s.host.mcmds s.host.nextHm
  s.modHost (fun h => { h with mcmds := r.1, nextHm := r.2 })

/-- Ask for one command. -/
def State.ask (s : State) (port id : Nat) (write : Bool) (addr n : Nat) (data : List Nat) (part : Nat) (o : MOwner) : State :=
  (s.modHost (fun h => { h with mcmds := h.mcmds ++
    [{ port := port, id := id, issued := false, write := write, addr := addr, bytes := n, data := data, part := part,
       owner := o, at_ := 0, warned := false }] })).masterKick

/-- Ask for a read or a write of `n` bytes at `addr` in pieces; `own` names the owner of the piece at an offset. -/
def State.askAll (s : State) (port id : Nat) (write : Bool) (addr n : Nat) (data : List Nat) (part : Nat)
    (own : Nat → MOwner) : State :=
  (pieces addr n).foldl (fun s p =>
    s.ask port id write p.2.1 p.2.2 ((data.drop p.1).take p.2.2) part (own p.1)) s

/-- The issued command that a response answers. -/
def State.cmdOf (s : State) (port id : Nat) (write : Bool) : Option MCmd :=
  s.host.mcmds.find? (fun c => c.issued && c.port == port && c.id == id && c.write == write)

/-- Its last beat has come: the command is no longer outstanding. -/
def State.dropCmd (s : State) (c : MCmd) : State :=
  (s.modHost (fun h => { h with mcmds := h.mcmds.erase c })).masterKick

/-- A command of the move in a slot is still to be issued or answered. -/
def State.slotBusy (s : State) (slot : Nat) : Bool :=
  s.host.mcmds.any (fun c => match c.owner with
    | .move k _ => k == slot
    | .deep k _ => k == slot
    | _ => false)

/-! ### Transaction slots (R424) -/

/-- The slots that moves of queues and of ring engines hold. -/
def State.slotsMoved (s : State) : List Nat := s.pump.moves.map (·.slot) ++ s.host.moves.map (·.slot)

/-- The slots in use, that of a spill among them. -/
def State.slotsUsed (s : State) : List Nat :=
  s.slotsMoved ++ (s.pump.spill.map (fun p => if s.slotsMoved.contains p.slot then [] else [p.slot])).getD []

/-- A slot for a move; which one is a free choice.  Where a spill holds the only slot that no move holds, the move takes
it beside the spill, so that a move never waits for a slot (R424).
(DESIGN CHOICE, safe: log entry 116.) -/
def State.freeSlot (s : State) : Option Nat :=
  let used := s.slotsUsed
  let held := s.slotsMoved
  (pickFrom 512 (Config.pick s.draws) (fun i => !used.contains i)).orElse (fun _ => 
    pickFrom 512 (Config.pick s.draws) (fun i => !held.contains i))

/-- The slot number under which the answers to a spill are told from those to the moves. -/
def spillSlot : Nat := 512

/-- Note the largest number of slots in use (PMP_INFLIGHT). -/
def State.noteSlots (s : State) : State := s.modPump (fun p => { p with high := max p.high s.slotsUsed.length })

/-- A pump move by its slot. -/
def State.move (s : State) (slot : Nat) : Option Move := s.pump.moves.find? (fun m => m.slot == slot)
/-- Change a pump move. -/
def State.modMove (s : State) (slot : Nat) (f : Move → Move) : State :=
  s.modPump (fun p => { p with moves := p.moves.map (fun m => if m.slot = slot then f m else m) })
/-- A host move by its slot. -/
def State.hmove (s : State) (slot : Nat) : Option HMove := s.host.moves.find? (fun m => m.slot == slot)
/-- Change a host move. -/
def State.modHmove (s : State) (slot : Nat) (f : HMove → HMove) : State :=
  s.modHost (fun h => { h with moves := h.moves.map (fun m => if m.slot = slot then f m else m) })
/-- A host move frees its slot. -/
def State.dropHmove (s : State) (slot : Nat) : State :=
  s.modHost (fun h => { h with moves := h.moves.filter (fun m => m.slot != slot) })

/-! ### Rings (R448, R454) -/

def ringBase (r : Nat) : Nat := 0x91000 + 32 * r
def State.ringCfg (s : State) (r : Nat) : Nat := s.reg (ringBase r)
def State.ringEn (s : State) (r : Nat) : Bool := bit (s.ringCfg r) 0
def State.sqSize (s : State) (r : Nat) : Nat := 2 ^ bits (s.ringCfg r) 11 8
def State.cqSize (s : State) (r : Nat) : Nat := 2 ^ bits (s.ringCfg r) 15 12
def State.ring (s : State) (r : Nat) : HRing := tget {} s.host.rings r
def State.modRing (s : State) (r : Nat) (f : HRing → HRing) : State :=
  s.modHost (fun h => { h with rings := tput h.rings r (f (s.ring r)) })
def State.part (s : State) (p : Nat) : HPart := tget {} s.host.parts p
def State.modPart (s : State) (p : Nat) (f : HPart → HPart) : State :=
  s.modHost (fun h => { h with parts := tput h.parts p (f (s.part p)) })
def partOf (r : Nat) : Nat := r / 8

/-- RESET_BUSY ends with the last move and command of the partition (R473). -/
def State.resetSettle (s : State) (p : Nat) : State :=
  if s.host.moves.any (fun m => partOf m.r == p) || s.host.subs.any (fun q => partOf q.r == p) ||
      s.host.cmds.any (fun c => partOf c.r == p) then s
  else if (s.part p).resetBusy then s.modPart p (fun h => { h with resetBusy := false }) else s

/-- The record of the move in a slot has been written, or discarded: the move completes (R462). -/
def State.recFinish (s : State) (slot : Option Nat) : State :=
  match slot with
  | none => s
  | some k =>
    let s := s.modMove k (fun m => { m with phase := .done })
    match s.hmove k with
    | some m => (s.dropHmove k).resetSettle (partOf m.r)
    | none => s

/-- A completion record enters the queue of its ring pair (R460, R462): discarded where EN is 0, or where the ring
pair has been enabled anew since the submission was accepted. -/
def State.postRecord (s : State) (r w0 w1 w2 w3 : Nat) (irq : Bool) (slot after : Option Nat) (stale : Bool) : State :=
  if !s.ringEn r || stale then s.recFinish slot
  else s.modHost (fun h => { h with
    nextId := h.nextId + 1
    recs := h.recs ++ [{ id := h.nextId, r := r, w0 := w0, w1 := w1 % 2 ^ 32, w2 := w2 % 2 ^ 32, w3 := w3 % 2 ^ 32,
                         irq := irq, slot := slot, after := after }] })

/-- Words 2 and 3 of a record that carries a time-stamp: NS; FRAC, EPOCH, SEC[7:0] (R430, R460). -/
def tsWords (ts : Option (Nat × Nat)) : Nat × Nat :=
  match ts with
  | none => (0, 0)
  | some (t, e) =>
    let v := timeOf ((t / 2 ^ 32 : Nat) : Int) e false
    (bits v 47 16, bits v 15 0 + 2 ^ 16 * e + 2 ^ 24 * bits v 55 48)

/-- Free entries of a completion ring by the last good poll (R462). -/
def State.cqRoom (s : State) (r : Nat) : Bool :=
  let g := s.ring r
  let n := s.cqSize r
  decide ((g.cqCount + n - g.cqHead) % n + 1 < n)

/-- The ring pair's interrupt becomes pending (R464).
(DEDUCED, unsafe: log entry 91.) -/
def State.ringIrq (s : State) (r : Nat) : State :=
  s.modRing r (fun g => { g with irqAt := some (g.cqCount % s.cqSize r), coCount := 0 })

/-- CO_COUNT and CO_TIME of HR_COAL. -/
def State.coCount (s : State) (r : Nat) : Nat := bits (s.reg (ringBase r + 0x14)) 7 0
def State.coTime (s : State) (r : Nat) : Nat := bits (s.reg (ringBase r + 0x14)) 27 16

/-- A record has been written (R464): it is counted, and raises the interrupt at CO_COUNT, at once with CO_TIME 0,
or where its submission asked for it. -/
def State.recWritten (s : State) (r : Nat) (irq : Bool) : State :=
  let s := s.modRing r (fun g => { g with
    coCount := g.coCount + 1, coSince := if g.coCount = 0 then s.tb.elapsed else g.coSince })
  if irq || decide (s.coCount r ≤ (s.ring r).coCount) || s.coTime r == 0 then s.ringIrq r else s

end Sys2Proof.Machine
end

