-- ==== Sys2Proof/Machine/Time.lean ====
section
/-!
DEFINITION. The timebase (chapter 10): the master time, steps and slews, snapshots, time-stamps, the action
schedule, the cycle keeper and PPS.  Times are in units of 2^-48 ns.
-/

namespace Sys2Proof.Machine

/-! ### Shared -/

/-- Change the timebase's own state. -/
def State.modTb (s : State) (f : TimeSt → TimeSt) : State := { s with tb := f s.tb }

/-- Set a bit of TB_ALARM and report it (R377). -/
def State.tbAlarm (s : State) (b : Nat) : State :=
  let s := s.modTb (fun t => { t with alarm := t.alarm ||| 2 ^ b, fresh := t.fresh.set t.edges (2 ^ b) })
  s.alarmEvent 2 13 b s.tb.alarm

/-- One nanosecond and one second in units of 2^-48 ns; SEC wraps modulo 2^64 (R341). -/
def nsT : Nat := 2 ^ 48
def secT : Nat := 1000000000 * 2 ^ 48
def timeMod : Nat := 2 ^ 64 * secT

/-- A time moved by an interval, modulo 2^64 s. -/
def shiftT (t : Nat) (d : Int) : Nat := (((t : Int) + d) % (timeMod : Int)).toNat

/-- A time as the 128-bit value of R205. -/
def timeVal (t epoch : Nat) : Nat := timeOf ((t / 2 ^ 32 : Nat) : Int) epoch false

/-- INC of TB_INC, in units of 2^-26 ns (R342). -/
def State.inc (s : State) : Nat := s.reg 0x60000

/-! ### The advance at one edge (R343, R348) -/

/-- INC × (1 + ADJ × 2^-48), truncated to 48 fractional bits. -/
def baseAdvance (inc : Nat) (adj : Int) : Nat := ((inc : Int) * (2 ^ 48 + adj) / 2 ^ 26).toNat

/-- The extra advance INC × SLW × 2^-48, truncated towards zero.
(DEDUCED, unsafe: log entry 89.) -/
def extraAdvance (inc : Nat) (slw : Int) : Int := Int.tdiv ((inc : Int) * slw) (2 ^ 26)

/-- The extra advance of the next edge: the whole of it, or the remainder where it would exceed that (R348). -/
def State.slewPart (s : State) : Int :=
  if s.tb.slewing then
    let x := extraAdvance s.inc s.tb.slw
    if s.tb.remain.natAbs < x.natAbs then s.tb.remain else x
  else 0

/-- The slew ends at the next edge (R348). -/
def State.slewLast (s : State) : Bool :=
  s.tb.slewing && decide (s.tb.remain.natAbs ≤ (extraAdvance s.inc s.tb.slw).natAbs)

/-- Whether NS reaches `off` ns by counting from `a` to `b` (R376). -/
def reachesNs (a b : Int) (off : Nat) : Bool :=
  decide ((a - off * nsT) / (secT : Int) < (b - off * nsT) / (secT : Int))

/-- TCLK edges come: the domain is out of reset and the clock is not lost (R499). -/
def State.tclkRuns (s : State) : Bool := s.up 2 && !s.tclkLost

/-- Elapsed TCLK time of one edge in units of 2^-26 ns (R488): INC, or 5 ns while INC is 0 or TCLK does not run. -/
def State.tickUnits (s : State) : Nat := if s.inc = 0 ∨ s.tclkRuns = false then 5 * 2 ^ 26 else s.inc

/-- The lateness in ns of an entry at master time `now` (R364). -/
def latenessAt (now time : Nat) : Nat := (now - time) / nsT

/-- A group copy after the GCLKg edges that fall in one TCLK period: each advances it by TB_GINC, scaled as the master
is (R343, R359).  GCLKg edges come every TB_GINC of elapsed time. -/
def GCopy.advance (c : GCopy) (ginc : Nat) (rate : Int) (tick : Nat) : GCopy :=
  if ginc = 0 then c
  else
    let k := (c.phase + tick) / (ginc : Int)
    { time := shiftT c.time (k * baseAdvance ginc rate), phase := c.phase + tick - k * ginc }

def State.ginc (s : State) (g : Nat) : Nat := s.reg (0x61800 + 16 * g)

/-- The group copies after one TCLK period. -/
def State.gcopiesNext (s : State) : Tbl GCopy :=
  (List.range 8).foldl (fun t g =>
    if s.ginc g = 0 then t
    else tset {} t g ((tget {} t g : GCopy).advance (s.ginc g) (s.tb.adj + s.tb.slw) s.tickUnits)) s.tb.gcopies

/-- The time of the edge before enters its crossing into the core; values that arrive in one stroke arrive as the
newest of them (R24, R350). -/
def TimeSt.present (t : TimeSt) (stroke : Nat) : List TimeCross :=
  t.timeX.filter (fun c => c.due != stroke + 2) ++ [{ due := stroke + 2, time := t.now, epoch := t.epoch, edge := t.edges }]

/-- The advance of one TCLK edge, the slew's remainder, the points of PPS, the time that begins to cross into the core
(R341, R343, R348, R350, R376). -/
def State.tclkAdvance (s : State) : State :=
  let extra := s.slewPart
  let adv : Int := baseAdvance s.inc s.tb.adj + extra
  let point := bit (s.reg 0x60300) 0 && reachesNs s.tb.now ((s.tb.now : Int) + adv) (s.reg 0x60304)
  let ends := s.slewLast
  s.modTb (fun t => { t with
    now := shiftT t.now adv
    timeX := t.present s.strokes
    gcopies := s.gcopiesNext
    edges := t.edges + 1
    elapsed := t.elapsed + s.tickUnits
    counted := t.counted + adv.toNat
    remain := t.remain - extra
    slewing := t.slewing && !ends
    slw := if ends then 0 else t.slw
    fired := 0
    ppsPoint := t.ppsPoint || point
    ppsAge := if t.ppsOut then t.ppsAge + adv.toNat else t.ppsAge
    ppsSince := t.ppsSince.map (· + adv) })

/-- The entry is due at master time `now` (R363, R364, R366). -/
def SchedEntry.dueAt (n : SchedEntry) (now : Nat) : Bool :=
  n.arrived && (n.lateBy.isSome || (!n.late && decide (n.time ≤ now)))

/-- A schedule entry at a TCLK edge with master time `now`: the lateness of a late arrival, the edge at which it becomes
due, and the progress of its removal (R222, R364). -/
def SchedEntry.edge (n : SchedEntry) (now edges strokes : Nat) : SchedEntry :=
  let n := if n.late && n.lateBy.isNone then { n with lateBy := some (latenessAt now n.time) } else n
  { n with
    dueEdge := if n.dueEdge.isNone && n.dueAt now then some edges else n.dueEdge
    cancel := n.cancel.map (fun c => (c.1, if c.1 ≤ strokes then c.2 + 1 else 0)) }

/-- The removal of an entry may take effect at TCLK edge `e`: it has crossed, and the entry was not due before (R222). -/
def SchedEntry.removable (n : SchedEntry) (e : Nat) : Bool :=
  (n.cancel.map (fun c => decide (2 ≤ c.2))).getD false && (n.dueEdge.map (fun d => d == e)).getD true

/-- The schedule at a TCLK edge; a removal takes effect at its third edge at the latest (R222). -/
def State.schedEdge (s : State) : State :=
  s.modTb (fun t => { t with
    sched := (t.sched.map (fun e => (e.1, e.2.edge t.now t.edges s.strokes))).filter (fun e =>
      !(e.2.removable t.edges && decide (3 ≤ (e.2.cancel.map (·.2)).getD 0))) })

/-- The frames whose reception has ended by now: RX_BUSY falls, the pause timer is loaded, and the frame-end record is
presented to the core (R29, R306, R380). -/
def State.rxEnds (s : State) : State :=
  (s.ports.filter (fun e => e.2.rxOn && decide (e.2.rxTill ≤ s.tb.elapsed))).foldl
    (fun s e =>
      let p := e.2
      { s.raiseLevel (srcFs e.1) false false with
        ports := tput s.ports e.1 { p with
          rxOn := false
          ends := p.ends.map (fun r => if r.at_.isNone then { r with at_ := some s.strokes } else r)
          pause := p.pauseX.getD p.pause, pauseAt := if p.pauseX.isSome then p.rxTill else p.pauseAt, pauseX := none } }) s

/-- What one TCLK edge does. -/
def State.tclkEdge (s : State) : State :=
  State.rxEnds <|
  if s.tclkRuns then s.tclkAdvance.schedEdge.extLevels else s.modTb (fun t => { t with elapsed := t.elapsed + s.tickUnits })

/-- The times that reach the core by stroke `n`: the newest is the image that the core holds, and the snapshots of its edge
and of earlier ones become valid (R350, R351). -/
def State.landTime (s : State) (n : Nat) : State :=
  match (s.tb.timeX.filter (fun c => c.due ≤ n)).getLast? with
  | none => s
  | some c => s.modTb (fun t => { t with
      coreTime := c.time, coreEpoch := c.epoch, timeX := t.timeX.filter (fun c => !(c.due ≤ n))
      snaps := t.snaps.map (fun h =>
        if (h.2.await.map (fun e => decide (e ≤ c.edge))).getD false then
          (h.1, { h.2 with await := none, valid := true, strokes := n % 2 ^ 64 })
        else h) })

/-! ### Steps (R346, R349, R366, R367, R374) -/

/-- A pending entry at a step from `old` to `new`. -/
def SchedEntry.step (e : SchedEntry) (old new : Nat) (d : Int) (epoch : Nat) : SchedEntry :=
  if !e.arrived then e
  else if bit e.act.toNat 9 then { e with time := shiftT e.time d, epoch := epoch, rebased := true }
  else if old < e.time ∧ e.time ≤ new ∧ 0 < d then
    { e with skipped := true, lateBy := some (latenessAt new e.time) }
  else e

/-- A cycle-keeper slot at a step (R374). -/
def CkSlot.step (c : CkSlot) (d : Int) : CkSlot :=
  { c with base := c.base + d, workEnd := c.workEnd + d, next := c.next.map (fun n => (n.1 + d, n.2)) }

/-- The time becomes the old time plus Δ, EPOCH rises by 1, the step is logged (R346, R349). -/
def State.tbStep (s : State) (d : Int) : State :=
  let old := s.tb.now
  let new := shiftT old d
  let e := (s.tb.epoch + 1) % 256
  s.modTb (fun t => { t with
    now := new, epoch := e
    log := tput t.log (e % 16) (d, e)
    sched := t.sched.map (fun x => (x.1, x.2.step old new d e))
    gcopies := (List.range 8).map (fun g => (g, { (tget {} t.gcopies g : GCopy) with
      time := shiftT (tget {} t.gcopies g : GCopy).time d }))
    cks := (List.range 128).map (fun i => (i, (tget {} t.cks i : CkSlot).step ((new : Int) - old))) })

/-! ### Requests (R345, R347) -/

/-- The interval that TB_ADJ_SEC_LO, TB_ADJ_SEC_HI, TB_ADJ_NS and FRAC hold. -/
def State.adjDelta (s : State) (frac : Nat) : Int :=
  sgn 64 (s.reg 0x60020 + 2 ^ 32 * s.reg 0x60024) * secT + ((s.reg 0x60028 * nsT + frac * 2 ^ 32 : Nat) : Int)

/-- The absolute time that they hold. -/
def State.adjTime (s : State) (frac : Nat) : Nat :=
  (s.reg 0x60020 + 2 ^ 32 * s.reg 0x60024) * secT + s.reg 0x60028 * nsT + frac * 2 ^ 32

/-- STEP_MIN and SLEW_PPM of TB_POLICY. -/
def State.stepMin (s : State) : Nat := bits (s.reg 0x6000C) 19 0
def State.slewPpm (s : State) : Nat := bits (s.reg 0x6000C) 28 20

/-- A write to TB_ADJ_CTL: it submits the request (R345), or is discarded with ADJ_ERR. -/
def State.adjCtlWrite (s : State) (w : Nat) : State :=
  if s.tb.req.isSome then s.tbAlarm 1
  else
    let s := s.setReg 0x6002C (w % 2 ^ 18)
    let mode := bits w 17 16
    let d := s.adjDelta (bits w 15 0)
    let slew := mode = 2 ∨ (mode = 0 ∧ d.natAbs < s.stepMin * nsT)
    if 1000000000 ≤ s.reg 0x60028 ∨ (mode ≠ 3 ∧ slew ∧ secT ≤ d.natAbs) ∨ (mode ≠ 3 ∧ ¬ slew ∧ d = 0) then s.tbAlarm 1
    else s.modTb (fun t => { t with
      slewing := false, slw := 0, remain := 0
      req := some (if mode = 3 then .set (s.adjTime (bits w 15 0)) else if slew then .slew d else .step d) })

/-! ### The rate (R343) -/

def adjLimit : Int := 281474976710

/-- A write to TB_RATE_HI arms both halves; beyond ±1,000 ppm the nearest limit is stored and RATE_CLAMP set. -/
def State.rateHiWrite (s : State) (w : Nat) : State :=
  let a := sgn 40 (s.reg 0x60004 + 2 ^ 32 * bits w 7 0)
  let c := max (-adjLimit) (min adjLimit a)
  let v := wrap 40 c
  let s := (s.setReg 0x60004 (v % 2 ^ 32)).setReg 0x60008 (v / 2 ^ 32)
  let s := s.modTb (fun t => { t with rateArm := some c })
  if c = a then s else s.tbAlarm 0

/-! ### Time-stamps (R353-R356, R360, R361) -/

def State.gcal (s : State) (g : Nat) : GCal := tget {} s.tb.gcals g
def State.modGcal (s : State) (g : Nat) (f : GCal → GCal) : State :=
  s.modTb (fun t => { t with gcals := tput t.gcals g (f (s.gcal g)) })

/-- The position of a tap after the TCLK edge: calibrated, or nominal before the first table (R355). -/
def State.tapPos (s : State) (g tap : Nat) : Nat :=
  let c := s.gcal g
  if c.valid then (c.table.take (tap + 1)).sum * s.inc * 2 ^ 22 / 8192 else Config.nominalTap tap

/-- A time rounded to 1/16 ns (R354). -/
def round16 (t : Nat) : Nat := (t + 2 ^ 43) / 2 ^ 44 * 2 ^ 44

/-- The master time at a GCLK edge, as the interpolator forms it (R354). -/
def State.interp (s : State) (g tap : Nat) : Nat := round16 (s.tb.now + s.tapPos g tap) % timeMod

/-- One live capture is counted towards the next table (R355). -/
def State.countTap (s : State) (g tap : Nat) : State :=
  s.modGcal g (fun c =>
    if c.captures < 8192 then { c with captures := c.captures + 1, counts := tput c.counts tap (tget 0 c.counts tap + 1) }
    else c)

/-- The port group of a port: four ports a group (chapter 00). -/
def groupOf (n : Nat) : Nat := n / 4

/-- The time-stamp of a frame of port `n` at its time-stamp point (R353): `tx` selects TX_ADJ. -/
def State.stamp (s : State) (n tap : Nat) (tx : Bool) : Nat :=
  let a := s.reg (0x61000 + 16 * n)
  shiftT (s.interp (groupOf n) tap) (sgn 16 (if tx then bits a 31 16 else bits a 15 0) * 2 ^ 44)

def State.tsq (s : State) (n : Nat) : Tsq := tget {} s.tb.tsqs n
def State.modTsq (s : State) (n : Nat) (f : Tsq → Tsq) : State :=
  s.modTb (fun t => { t with tsqs := tput t.tsqs n (f (s.tsq n)) })

/-- A transmit time-stamp takes the next sequence number and enters the queue, or is dropped where 32 entries are
held (R360, R361). -/
def State.tsqPut (s : State) (n time : Nat) : Bool × Nat × State :=
  let q := s.tsq n
  let s := s.modTsq n (fun q => { q with seq := (q.seq + 1) % 65536 })
  if q.entries.length < 32 then (true, q.seq, s.modTsq n (fun r => { r with entries := r.entries ++ [(q.seq, time)] }))
  else (false, q.seq, (s.modTsq n (fun q => { q with lost := satInc 16 q.lost })).tbAlarm 2)

/-- The entry of a sequence number is freed once its completion record has been written (R360). -/
def State.tsqFree (s : State) (n seq : Nat) : State :=
  s.modTsq n (fun q => { q with entries := q.entries.filter (fun e => e.1 != seq) })

/-! ### The action schedule (R221, R222, R362-R368) -/

/-- An action word with a reserved bit at 1 is invalid (R362). -/
def actInvalid (a : Nat) : Bool := bits a 7 3 != 0 || bits a 15 11 != 0

def State.sched (s : State) (e : Nat) : Option SchedEntry := tfind s.tb.sched e

/-- SCHED: the status, and the entry allocated, the first free one from `start` on (R221). -/
def State.schedAlloc (s : State) (start lb time epoch act : Nat) : Nat × State :=
  if actInvalid act then (2 * 4096, s)
  else match pickFrom 4096 start (fun e => (s.sched e).isNone) with
    | none => (4096, s.tbAlarm 6)
    | some e =>
      let s := { s with draws := s.draws + 1 }
      (e, s.modTb (fun t =>
        let m := tput t.sched e { time := time, epoch := epoch, act := BitVec.ofNat 32 act, lb := lb, arrived := false,
                                  rebased := false, skipped := false, staleEpoch := false, late := false,
                                  lateBy := none, dueEdge := none, cancel := none }
        { t with sched := m, schedHigh := max t.schedHigh m.length }))

/-- UNSCHED by thread Lx (R222): a removal on its way, or a schedule-misuse event for another bore's entry. -/
def State.unsched (s : State) (x e : Nat) : State :=
  match s.sched e with
  | none => s
  | some n =>
    if n.lb = lbOf x then
      s.modTb (fun t => { t with sched := tput t.sched e { n with cancel := some (n.cancel.getD (s.strokes + 1, 0)) } })
    else s.event 7 10 0x23 x e

/-- The sum of the logged steps of the `n` epochs that follow `e` (R368). -/
def State.logSum (s : State) (e n : Nat) : Int :=
  ((List.range n).map (fun i => (tget ((0 : Int), 0) s.tb.log ((e + 1 + i) % 16)).1)).sum

/-- An entry reaches TCLK: rebased or marked stale, then late where its time has come (R364, R368). -/
def State.schedArrive (s : State) (n : SchedEntry) : SchedEntry :=
  let diff := (s.tb.epoch + 256 - n.epoch) % 256
  let n := if diff = 0 then n
    else if bit n.act.toNat 9 ∧ diff ≤ 16 then
      { n with time := shiftT n.time (s.logSum n.epoch diff), rebased := true, epoch := s.tb.epoch }
    else { n with staleEpoch := true, epoch := s.tb.epoch }
  { n with arrived := true, late := decide (n.time ≤ s.tb.now) }

/-- LATE_LIMIT. -/
def State.lateLimit (s : State) : Nat := bits (s.reg 0x60010) 23 0

/-- A late entry beyond LATE_LIMIT without MUST is dropped (R364). -/
def State.schedDrop (s : State) (n : SchedEntry) : Bool :=
  n.late && !bit n.act.toNat 8 && (n.lateBy.map (fun l => decide (s.lateLimit < l))).getD false

/-- The entry is to fire or to be dropped at the edge in progress (R363, R364, R366); the entries of a logical bore
out of service never fire (R516, R517). -/
def State.schedDue (s : State) (n : SchedEntry) : Bool :=
  n.dueAt s.tb.now && !(s.lb n.lb).shed

/-- The next entry to fire: ascending time, then ascending entry number (R363). -/
def State.schedFirst (s : State) : Option Nat :=
  (s.tb.sched.foldl (fun (b : Option (Nat × Nat)) x =>
    if s.schedDue x.2 && !s.schedDrop x.2 then
      match b with
      | none => some (x.2.time, x.1)
      | some (t, _) => if x.2.time < t then some (x.2.time, x.1) else b
    else b) none).map (·.2)

def State.repRing (s : State) (lb : Nat) : RepRing := tget {} s.tb.reps lb
def State.modRep (s : State) (lb : Nat) (f : RepRing → RepRing) : State :=
  s.modTb (fun t => { t with reps := tput t.reps lb (f (s.repRing lb)) })

/-- Write a fire record, or drop it where the ring holds 16 (R365). -/
def State.fireRecord (s : State) (e : Nat) (n : SchedEntry) : State :=
  let r := s.repRing n.lb
  if (r.tail + 32 - r.head) % 32 = 16 then (s.modRep n.lb (fun r => { r with lost := satInc 16 r.lost })).tbAlarm 4
  else
    let drop := s.schedDrop n
    let w0 := e + 2 ^ 16 * bits n.act.toNat 31 16
    let w1 := min (n.lateBy.getD 0) 0xFFFFFF + 2 ^ 24 * b2n (n.late && !drop) + 2 ^ 25 * b2n drop +
      2 ^ 26 * b2n n.skipped + 2 ^ 27 * b2n n.rebased + 2 ^ 28 * b2n n.staleEpoch
    let s := s.modRep n.lb (fun r => { r with
      tail := (r.tail + 1) % 32
      recs := tput r.recs (r.tail % 16) (BitVec.ofNat 32 w0, BitVec.ofNat 32 w1) })
    s.raiseLevel (srcRep n.lb) true true

/-- A record is due for the entry (R365). -/
def SchedEntry.reports (n : SchedEntry) : Bool := bit n.act.toNat 10 || n.late || n.skipped || n.staleEpoch

/-- An entry fires, or is dropped; either way it is freed (R363-R365). -/
def State.schedFire (s : State) (e : Nat) (n : SchedEntry) : State :=
  let drop := s.schedDrop n
  let s := s.modTb (fun t => { t with sched := tdel t.sched e, fired := if drop then t.fired else t.fired + 1 })
  let s := if drop then s else s.raiseClock (srcSch (8 * n.lb + bits n.act.toNat 2 0))
  if n.reports then s.fireRecord e n else s

/-- A write of TB_REP_HEAD (R365). -/
def State.repHeadWrite (s : State) (lb w : Nat) : State :=
  let r := s.repRing lb
  let h := bits w 4 0
  if 16 < (r.tail + 32 - h) % 32 then s
  else
    let s := s.modRep lb (fun r => { r with head := h })
    if h = r.tail then s.raiseLevel (srcRep lb) false false else s

/-! ### The cycle keeper (R369-R374) -/

def State.ck (s : State) (i : Nat) : CkSlot := tget {} s.tb.cks i
def State.modCk (s : State) (i : Nat) (f : CkSlot → CkSlot) : State :=
  s.modTb (fun t => { t with cks := tput t.cks i (f (s.ck i)) })
def ckBase (i : Nat) : Nat := 0x64000 + 32 * i
def State.ckCfg (s : State) (i : Nat) : Nat := s.reg (ckBase i)
def State.ckP (s : State) (i : Nat) : Nat := s.reg (ckBase i + 4)

/-- The due time of grid point k (R369). -/
def State.ckGrid (s : State) (i : Nat) (k : Int) : Int := (s.ck i).base + k * (s.ckP i * nsT : Nat)

/-- The index of the first grid point at or after a time.
(DEDUCED, unsafe: log entry 74.) -/
def State.ckFirst (s : State) (i : Nat) (t : Int) : Int :=
  (0 : Int) - ((s.ck i).base - t) / ((s.ckP i * nsT : Nat) : Int)

/-- The lag of a start now whose nominal grid point is k (R370): 0 for a realigned start (R371). -/
def State.ckLag (s : State) (i : Nat) (k : Int) : Nat :=
  if (s.ck i).realigned then 0 else ((s.tb.now : Int) - s.ckGrid i k).toNat

/-- Realign a start whose lag exceeds the limit (R371). -/
def State.ckRealign (s : State) (i : Nat) (k : Int) : State :=
  let j := s.ckFirst i (s.ck i).workEnd
  let passed := (j - k).toNat
  let s := s.modCk i (fun c => { c with
    next := some (s.ckGrid i j, j), realigned := true, phaseLost := true, fresh := c.fresh.set s.tb.edges 256
    missed := min 65535 (c.missed + passed) })
  (s.tbAlarm 5).event 2 13 0x20 i passed

/-- A start at grid point k (R369, R370). -/
def State.ckStart (s : State) (i : Nat) (k : Int) : State :=
  let lag := s.ckLag i k
  let p := s.ckP i
  let c := min lag (p * bits (s.ckCfg i) 7 4 / 16 * nsT)
  let s := s.modCk i (fun x => { x with
    busy := true, catching := decide (0 < lag), realigned := false
    lag := min (lag / nsT) (2 ^ 32 - 1), count := wrap 32 k
    next := some ((s.tb.now : Int) + (p * nsT : Nat) - c, k + 1) })
  s.raiseLevel (srcCke i) true true

/-- CK_CFG written: the fields, and a change of EN (R372, R379). -/
def State.ckCfgWrite (s : State) (i w : Nat) : State :=
  let was := bit (s.ckCfg i) 0
  let f := max 1 (min 8 (bits w 7 4))
  let l := max 1 (bits w 11 8)
  let s := s.setReg (ckBase i) (w % 2 + 16 * f + 256 * l)
  if bit w 0 && !was then
    let k := s.ckFirst i s.tb.now
    s.modCk i (fun c => { c with next := some (s.ckGrid i k, k), realigned := false })
  else if !bit w 0 then s.modCk i (fun c => { c with next := none })
  else s

/-- CK_PERIOD or a CK_BASE register written: discarded with CFG_ERR while EN is 1 (R372). -/
def State.ckFieldWrite (s : State) (i o w : Nat) : State :=
  if bit (s.ckCfg i) 0 then s.modCk i (fun c => { c with cfgErr := true, fresh := c.fresh.set s.tb.edges 1024 })
  else if o = 4 then s.setReg (ckBase i + 4) (max 1000 w)
  else
    let b := ((s.ck i).base % timeMod).toNat / nsT
    let ns := b % 1000000000
    let sec := b / 1000000000
    let ns := if o = 8 then min 999999999 (w % 2 ^ 30) else ns
    let sec := if o = 12 then sec / 2 ^ 32 * 2 ^ 32 + w else if o = 16 then sec % 2 ^ 32 + 2 ^ 32 * w else sec
    s.modCk i (fun c => { c with base := ((sec * 1000000000 + ns) * nsT : Nat) })

/-- CK_DONE written (R369, R370). -/
def State.ckDone (s : State) (w : Nat) : State :=
  let i := bits w 6 0
  if (s.ck i).busy then
    let s := s.modCk i (fun c => { c with busy := false, workEnd := s.tb.now, doneEdge := s.tb.edges })
    s.raiseLevel (srcCke i) false false
  else s.modCk i (fun c => { c with doneErr := true, fresh := c.fresh.set s.tb.edges 512 })

/-- CK_STATUS written: RW1C bits (R379). -/
def State.ckStatusWrite (s : State) (i w : Nat) : State :=
  s.modCk i (fun c => { c with
    phaseLost := c.phaseLost && (!bit w 8 || bit (c.fresh.held s.tb.edges) 8)
    doneErr := c.doneErr && (!bit w 9 || bit (c.fresh.held s.tb.edges) 9)
    cfgErr := c.cfgErr && (!bit w 10 || bit (c.fresh.held s.tb.edges) 10) })

/-! ### Register writes of the unit (R378, R379) -/

def State.hsnap (s : State) (p : Nat) : HSnap := tget {} s.tb.snaps p

/-- A write to TB_HSNAP_CTRL (R351). -/
def State.hsnapWrite (s : State) (p w : Nat) : State :=
  if bit w 0 then
    s.modTb (fun t => { t with snaps := tput t.snaps p { s.hsnap p with req := true, await := none, valid := false } })
  else s

/-- A write to TB_INC or TB_GINC: RWL (R342).  A thread's SYSWR to a locked one is reported before it comes here. -/
def State.incWrite (s : State) (off w : Nat) : State :=
  if s.locked then s.lockViolation 0 off else s.setReg off w

/-- A write to TB_POLICY (R379). -/
def State.policyWrite (s : State) (w : Nat) : State :=
  s.setReg 0x6000C (min 1000000 (bits w 19 0) + 2 ^ 20 * max 1 (min 500 (bits w 28 20)))

/-- A write of the word `w` to the timebase register at offset `off`, RWL fields unlocked or not touched. -/
def State.tbWrite (s : State) (off w : Nat) : State :=
  if 0x64000 ≤ off then
    let i := (off - 0x64000) / 32
    let o := off % 32
    if o = 0 then s.ckCfgWrite i w else if o = 0x14 then s.ckStatusWrite i w
    else if o ≤ 0x10 then s.ckFieldWrite i o w else s
  else if 0x60100 ≤ off ∧ off < 0x60200 then (if off % 32 = 0 then s.hsnapWrite ((off - 0x60100) / 32) w else s)
  else if 0x60800 ≤ off ∧ off < 0x61000 then (if off % 256 = 4 then s.repHeadWrite ((off - 0x60800) / 256) w else s)
  else match off with
    | 0x60000 => s.incWrite off w
    | 0x60004 => s.setReg off w
    | 0x60008 => s.rateHiWrite w
    | 0x6000C => s.policyWrite w
    | 0x60010 => s.setReg off (bits w 23 0)
    | 0x60018 => s.modTb (fun t => { t with alarm := t.fresh.clear t.edges t.alarm w })
    | 0x6001C => s.setReg off (bits w 6 0)
    | 0x60020 => s.setReg off w
    | 0x60024 => s.setReg off w
    | 0x60028 => s.setReg off (bits w 29 0)
    | 0x6002C => s.adjCtlWrite w
    | 0x60300 => s.setReg off (bits w 2 0)
    | 0x60304 => s.setReg off (min 999999999 (bits w 29 0))
    | 0x60308 => s.setReg off (max 1 (min 999999 (bits w 19 0)))
    | 0x60404 => s.setReg off (bits w 11 0)
    | 0x60500 => s.ckDone w
    | _ =>
      if 0x61000 ≤ off ∧ off < 0x61200 ∧ off % 16 = 0 then s.setReg off w
      else if 0x61800 ≤ off ∧ off < 0x61880 ∧ off % 16 = 0 then s.incWrite off w
      else s

/-! ### The commands -/

/-- TB_INC_WRITE: `which` 0 is TB_INC, g + 1 is TB_GINC of group g (R342). -/
def execTbIncWrite (which : Fin 9) (w : Word) (s : State) : Result :=
  .next (s.incWrite (if which.val = 0 then 0x60000 else 0x61800 + 16 * (which.val - 1)) w.toNat)

/-- RATE_LO_WRITE (R343): held. -/
def execRateLoWrite (w : Word) (s : State) : Result := .next (s.setReg 0x60004 w.toNat)

/-- RATE_HI_WRITE (R343). -/
def execRateHiWrite (w : Word) (s : State) : Result := .next (s.rateHiWrite w.toNat)

/-- RATE_APPLY (R343): the armed rate takes effect. -/
def execRateApply (s : State) : Result :=
  s.act s.tb.rateArm.isSome (s.modTb (fun t => { t with adj := t.rateArm.getD t.adj, rateArm := none }))

/-- ADJ_AUTO (R345). -/
def execAdjAuto (w : Word) (s : State) : Result := .next (s.adjCtlWrite (putBits w.toNat 17 16 0))
/-- ADJ_STEP (R345). -/
def execAdjStep (w : Word) (s : State) : Result := .next (s.adjCtlWrite (putBits w.toNat 17 16 1))
/-- ADJ_SLEW (R345). -/
def execAdjSlew (w : Word) (s : State) : Result := .next (s.adjCtlWrite (putBits w.toNat 17 16 2))
/-- ADJ_SET (R345). -/
def execAdjSet (w : Word) (s : State) : Result := .next (s.adjCtlWrite (putBits w.toNat 17 16 3))

/-- TIME_STEP: the TCLK edge that is the step instant (R346); a SET to the time reached is discarded (R345). -/
def execTimeStep (s : State) : Result :=
  let s1 := s.tclkAdvance.modTb (fun t => { t with req := none })
  match s.tb.req with
  | some (.step d) => s.act s.tclkRuns (s1.tbStep d).schedEdge.extLevels.rxEnds
  | some (.set t) =>
    let d := (t : Int) - s1.tb.now
    s.act s.tclkRuns (if d = 0 then s1.tbAlarm 1 else s1.tbStep d).schedEdge.extLevels.rxEnds
  | _ => .next s

/-- SLEW_START: the request reaches TCLK; S is fixed now (R348). -/
def execSlewStart (s : State) : Result :=
  match s.tb.req with
  | some (.slew d) =>
    let v : Int := (s.slewPpm * 2 ^ 48 / 1000000 : Nat)
    .next (s.modTb (fun t => { t with
      req := none, slewing := true, remain := d, slw := if d < 0 then -v else v }))
  | _ => .next s

/-- SLEW_END: the TCLK edge at which the remainder is applied and the slew ends (R348). -/
def execSlewEnd (s : State) : Result := s.act (s.slewLast && s.tclkRuns) s.tclkEdge

/-- HOST_SNAPSHOT: a write of 1 to SNAP (R351). -/
def execHostSnapshot (p : Fin 8) (w : Word) (s : State) : Result := .next (s.hsnapWrite p (putBits w.toNat 0 0 1))

/-- SNAPSHOT_CAPTURE (R351): the time; its stroke count comes with the value's crossing into the core. -/
def execSnapshotCapture (p : Fin 8) (s : State) : Result :=
  let c : HSnap := { s.hsnap p with req := false, await := some s.tb.edges, time := s.tb.now, epoch := s.tb.epoch }
  s.act (s.hsnap p).req (s.modTb (fun t => { t with snaps := tput t.snaps p c }))

/-- CAL_TABLE: `taps` taps span one TCLK period (R355, R356). -/
def execCalTable (g : Fin 8) (taps : Fin 256) (s : State) : Result :=
  let c := s.gcal g
  let counts := (List.range taps.val).map (fun t => tget 0 c.counts t)
  s.act (decide (8192 ≤ c.captures) && decide (0 < taps.val))
    (if counts.any (· == 0) then
      (s.modGcal g (fun c => { c with stall := true, captures := 0, counts := [] })).tbAlarm 3
     else s.modGcal g (fun c => { c with stall := false, valid := true, captures := 0, counts := [], table := counts }))

/-- GROUP_TIME_SYNC: the group copy takes the interpolated master value (R359). -/
def execGroupTimeSync (g : Fin 8) (tap : Fin 256) (s : State) : Result :=
  .next (s.modTb (fun t => { t with
    gcopies := tset {} t.gcopies g { time := s.interp g tap, phase := -((s.tapPos g tap / 2 ^ 22 : Nat) : Int) } }))

/-- SCHED_ARRIVE: entry `e` reaches TCLK (R364, R368). -/
def execSchedArrive (e : Fin 4096) (s : State) : Result :=
  match s.sched e with
  | some n => s.act (!n.arrived) (s.modTb (fun t => { t with sched := tput t.sched e (s.schedArrive n) }))
  | none => .next s

/-- SCHEDULE_FIRE: entry `e` fires in its turn, or is dropped (R363, R364). -/
def execScheduleFire (e : Fin 4096) (s : State) : Result :=
  match s.sched e with
  | some n =>
    s.act (s.schedDue n && (s.schedDrop n || (s.schedFirst == some e.val && decide (s.tb.fired < 4)))) (s.schedFire e n)
  | none => .next s

/-- UNSCHED_APPLY: the removal takes effect at the TCLK edge in progress (R222). -/
def execUnschedApply (e : Fin 4096) (s : State) : Result :=
  s.act (((s.sched e).map (fun n => n.removable s.tb.edges)).getD false) (s.modTb (fun t => { t with sched := tdel t.sched e }))

/-- REP_HEAD_WRITE (R365). -/
def execRepHeadWrite (lb : Fin 8) (w : Word) (s : State) : Result := .next (s.repHeadWrite lb w.toNat)

/-- CYCLE_START: slot `i` starts, or realigns (R369-R373). -/
def execCycleStart (i : Fin 128) (s : State) : Result :=
  match (s.ck i).next with
  | some (due, k) =>
    let ok := !(s.ck i).busy && decide (due ≤ (s.tb.now : Int)) && decide ((s.ck i).doneEdge < s.tb.edges)
    s.act ok (if bits (s.ckCfg i) 11 8 * s.ckP i * nsT < s.ckLag i k then s.ckRealign i k else s.ckStart i k)
  | none => .next s

/-- CK_DONE (R369). -/
def execCkDone (w : Word) (s : State) : Result := .next (s.ckDone w.toNat)

/-- CK_ENABLE: a write to CK_CFG with EN at 1 (R372). -/
def execCkEnable (i : Fin 128) (w : Word) (s : State) : Result := .next (s.ckCfgWrite i (putBits w.toNat 0 0 1))

/-- CK_DISABLE: a write to CK_CFG with EN at 0 (R372). -/
def execCkDisable (i : Fin 128) (w : Word) (s : State) : Result := .next (s.ckCfgWrite i (putBits w.toNat 0 0 0))

/-- The timebase time of 500 ms that R375 asks between accepted edges. -/
def ppsGap : Nat := 500000000 * nsT

/-- PPS_IN_EDGE: pps_in changes to `level`, `sub` sixteenths of a ns after the last TCLK edge (R375). -/
def execPpsInEdge (sub : Fin 256) (level : Bool) (s : State) : Result :=
  let cfg := s.reg 0x60300
  let at_ : Int := (sub.val * 2 ^ 44 : Nat)
  let ok := bit cfg 1 && (level != bit cfg 2) &&
    (s.tb.ppsSince.map (fun d => decide ((ppsGap : Int) ≤ d + at_))).getD true
  let s1 := s.modTb (fun t => { t with ppsIn := level })
  let s2 := s1.modTb (fun t => { t with
    ppsInTime := round16 (t.now + sub.val * 2 ^ 44) % timeMod, ppsInEpoch := t.epoch
    ppsInCount := t.ppsInCount + 1, ppsSince := some (-at_) })
  s.act (level != s.tb.ppsIn) ((if ok then s2 else s1).raiseLevel srcPpsIn ok level)

/-- PPS_OUT_RISE (R376). -/
def execPpsOutRise (s : State) : Result :=
  s.act s.tb.ppsPoint
    ((s.modTb (fun t => { t with ppsPoint := false, ppsOut := true, ppsAge := 0 })).raiseLevel srcPpsOut true true)

/-- PPS_OUT_FALL: WIDTH microseconds of timebase time have passed (R376). -/
def execPpsOutFall (s : State) : Result :=
  s.act (s.tb.ppsOut && decide (s.reg 0x60308 * 1000 * nsT ≤ s.tb.ppsAge))
    ((s.modTb (fun t => { t with ppsOut := false })).raiseLevel srcPpsOut false false)

end Sys2Proof.Machine
end

