-- ==== Sys2Proof/Machine/Chan.lean ====
section
/-!
DEFINITION. Channels (R418-R423): backlogs, the deep slot stack, writing a buffer into a post (R459), INFLIGHT, and
the transmit queues of the ports (R309).
-/

namespace Sys2Proof.Machine

/-! ### References in a backlog: a buffer in the cistern or in a deep slot (R409, R416) -/

/-- The deep BREF of a slot. -/
def deepRef (slot : Nat) : Nat := 3 * 2 ^ 30 + slot
def isDeep (b : Nat) : Bool := bits b 31 30 == 3

/-- The header of the buffer that a BREF names. -/
def State.hdr (s : State) (b : Nat) : Cell :=
  if isDeep b then tget {} s.pump.dcHdr (bits b 21 0) else s.cell (b % 2 ^ 15)

/-- Change that header. -/
def State.modHdr (s : State) (b : Nat) (f : Cell → Cell) : State :=
  if isDeep b then s.modPump (fun p => { p with dcHdr := tput p.dcHdr (bits b 21 0) (f (s.hdr b)) })
  else s.modCell (b % 2 ^ 15) f

/-- Append a buffer to a channel's backlog. -/
def State.blPush (s : State) (i b : Nat) : State :=
  let c := s.chan i
  let s := s.modHdr b (fun h => { h with link := 0 })
  let s := if c.blCount = 0 then s.modChan i (fun c => { c with blHead := b })
           else s.modHdr c.blTail (fun h => { h with link := b })
  s.modChan i (fun c => { c with blTail := b, blCount := c.blCount + 1 })

/-- Take the oldest buffer of a backlog. -/
def State.blPop (s : State) (i : Nat) : Option (Nat × State) :=
  let c := s.chan i
  if c.blCount = 0 then none
  else
    let n := (s.hdr c.blHead).link
    some (c.blHead, s.modChan i (fun c => { c with
      blCount := c.blCount - 1, blHead := n, blTail := if n = 0 then 0 else c.blTail }))

/-- The references of a backlog, oldest first. -/
def State.blFrom (s : State) : Nat → Nat → List Nat
  | 0, _ => []
  | n + 1, b => b :: s.blFrom n (s.hdr b).link

def State.blList (s : State) (i : Nat) : List Nat := s.blFrom (s.chan i).blCount (s.chan i).blHead

/-- Put a new reference in the place of an old one in a backlog (R416). -/
def State.blReplace (s : State) (i old new : Nat) : State :=
  let l := s.blList i
  let s := s.modHdr new (fun h => { h with link := (s.hdr old).link })
  let s := (l.zip (l.drop 1)).foldl (fun s p => if p.2 = old then s.modHdr p.1 (fun h => { h with link := new }) else s) s
  s.modChan i (fun c => { c with
    blHead := if c.blHead = old then new else c.blHead, blTail := if c.blTail = old then new else c.blTail })

/-! ### The deep slot stack (R415) -/

def State.dcSlots (s : State) : Nat := bits (s.reg 0x70038) 22 0
def State.dcBase (s : State) : Nat := bits (s.reg 0x70030) 31 14 * 2 ^ 14 + 2 ^ 32 * s.reg 0x70034

/-- The slots that the stack itself occupies. -/
def State.dcStackSlots (s : State) : Nat := ceilDiv (4 * s.dcSlots) 16384

/-- Slots on the stack. -/
def State.dcFree (s : State) : Nat := if s.pump.dcReady then s.pump.dcStack.length + (s.dcSlots - s.pump.dcNext) else 0

/-- Pop a slot. -/
def State.dcPop (s : State) : Option (Nat × State) :=
  match s.pump.dcStack with
  | d :: ds => some (d, s.modPump (fun p => { p with dcStack := ds }))
  | [] => if s.pump.dcNext < s.dcSlots then some (s.pump.dcNext, s.modPump (fun p => { p with dcNext := p.dcNext + 1 }))
          else none

/-- Push a slot back. -/
def State.dcPush (s : State) (d : Nat) : State :=
  s.modPump (fun p => { p with dcStack := d :: p.dcStack, dcHdr := tdel p.dcHdr d, dcFull := false })

/-- Free the buffer that a reference names. -/
def State.freeRef (s : State) (b : Nat) : State := if isDeep b then s.dcPush (bits b 21 0) else s.dropRef (b % 2 ^ 15)

/-! ### Cell-map ECC (R442) -/

/-- Meet the uncorrectable cell-map words of a buffer: the ECC alarm, and those cells are never allocated again. -/
def State.mapCheck (s : State) (h : Nat) : Bool × State :=
  if s.ecc.isEmpty then (true, s)
  else
    let bad := (s.bufCells h).filter (fun c => (List.range 4).any (fun i => s.isUe .cellMap (4 * c + i)))
    (bad.isEmpty, bad.foldl (fun s c =>
      ((s.eccRead .pump .cellMap (((List.range 4).map (· + 4 * c)).find? (fun w => s.isUe .cellMap w)).get!).pumpAlarm 5).modPump
        (fun p => { p with poisoned := p.poisoned.insert c })) s)

/-! ### INFLIGHT -/

/-- Moves accepted and not complete that name channel `i` (R419). -/
def State.inflight (s : State) (i : Nat) : Nat :=
  (s.pump.moves.filter (fun m => m.ch == some i)).length +
  (s.host.moves.filter (fun m => m.ch == i && (s.move m.slot).isNone)).length

/-! ### Writing a buffer into a post (R459, R462) -/

/-- Word 1 of an RX record. -/
def rxWord (c : Cell) (cut : Bool) : Nat := c.len + 2 ^ 14 * b2n c.fcsb + 2 ^ 15 * b2n c.tofs12 + 2 ^ 16 * b2n cut

/-- The buffer of an RX move goes to the host: the tag check of R438 unless it is longer than the post, then the
data writes.  `bytes` are the buffer's bytes. -/
def State.rxWrite (s : State) (slot b : Nat) (bytes : List Nat) (deepErr : Bool) : State :=
  match s.hmove slot with
  | none => s
  | some m =>
    let c := s.hdr b
    let cut := decide (m.len < c.len)
    let ue := if isDeep b then none else s.bufUe (b % 2 ^ 15) 0 (min m.len c.len)
    let s := match ue with
      | some w => (s.eccRead .pump .cistern w).modHdr b (fun h => { h with bad := true })
      | none => s
    let (ok, s) :=
      if cut || ue.isSome || deepErr then (true, s)
      else if isDeep b then
        (if tagOf c bytes = c.tag then (true, s)
         else
           let s := s.modHdr b (fun h => { h with bad := true })
           let s := s.modChan m.ch (fun c => { c with tagFaults := satInc 16 c.tagFaults })
           let s := s.modPump (fun p => { p with tagFaults := satInc 32 p.tagFaults })
           (false, (s.pumpAlarm 4).event 4 9 0x20 b m.ch))
      else s.tagCheck (b % 2 ^ 15) (some m.ch)
    let lim := match ue with
      | some w => ((List.range bytes.length).find? (fun i => s.bufAddr (b % 2 ^ 15) i / 4 == w)).getD bytes.length
      | none => bytes.length
    let n := if deepErr then 0 else min lim (min m.len c.len)
    let err := if ue.isSome then 0x0D else if deepErr then 0x0F else if cut then 0x09 else if !ok then 0x0C
               else if isDeep b && c.bad then 0x0F else 0
    let s := s.modHmove slot (fun h => { h with
      phase := .writing, err := err, tagErr := !ok || c.bad || ue.isSome, tag := rxWord c cut })
    let s := s.modMove slot (fun v => { v with result := n, err := if err = 0x09 then 0 else err })
    s.askAll 0 slot true m.addr n (bytes.take n) (partOf m.r) (.move slot)

/-- Every data write of an RX move has been answered: the buffer is freed and the record is due (R459, R463). -/
def State.rxEnd (s : State) (slot : Nat) : State :=
  match s.hmove slot with
  | none => s
  | some m =>
    let b := (m.deep.map deepRef).getD (bref (m.head.getD 0))
    let s := s.freeRef b
    let s := s.modChan m.ch (fun c => { c with outCount := (c.outCount + 1) % 2 ^ 32 })
    let s := s.modHmove slot (fun h => { h with phase := .record })
    s.postRecord m.r (m.err + 2 ^ 8 * b2n m.tagErr + 2 ^ 12 + 2 ^ 16 * m.idx) m.tag 0 0 m.irq (some slot) none
      (m.gen != (s.ring m.r).gen)

/-- A post takes a buffer of its channel, in the transaction slot given (R459). -/
def State.rxStart (s : State) (slot : Nat) (p : Post) (b : Nat) : State :=
  let m : HMove := { slot := slot, kind := .rx, r := p.r, idx := p.idx, irq := p.irq, ch := p.ch, len := p.len, tag := 0,
                     addr := p.addr, head := if isDeep b then none else some (b % 2 ^ 15),
                     deep := if isDeep b then some (bits b 21 0) else none,
                     phase := if isDeep b then .deep else .writing, gen := (s.ring p.r).gen
                     data := List.replicate (if isDeep b then (s.hdr b).len else 0) 0 }
  let s := (s.modHost (fun h => { h with posts := h.posts.erase p, moves := h.moves ++ [m] })).noteSlots
  if isDeep b then
    s.askAll 1 slot false (s.dcBase + 16384 * bits b 21 0) (s.hdr b).len [] 0 (.deep slot)
  else
    let h := b % 2 ^ 15
    let s := s.rxWrite slot b (s.bufRead h 0 (s.cell h).len) false
    if s.slotBusy slot then s else s.rxEnd slot

/-- Replace a slice of a list. -/
def setSlice (l : List Nat) (off : Nat) (bs : List Nat) : List Nat := l.take off ++ bs ++ l.drop (off + bs.length)

/-! ### Transmit queues (R309) -/

def State.port (s : State) (n : Nat) : PortSt := tget {} s.ports n
def State.modPort (s : State) (n : Nat) (f : PortSt → PortSt) : State := { s with ports := tput s.ports n (f (s.port n)) }

/-- PSTATE of port n (R469): 0 OFF, 1 ENABLING, 2 ON, 3 DRAINING, 4 DRAINING+PENDING_ENABLE. -/
def State.pstate (s : State) (n : Nat) : Nat := tget 0 s.host.pstate n
def State.setPstate (s : State) (n v : Nat) : State := s.modHost (fun h => { h with pstate := tset 0 h.pstate n v })

/-- The transmit queue of a class. -/
def State.txQueue (s : State) (n c : Nat) : List TxItem := tget [] (s.port n).queues c
def State.setTxQueue (s : State) (n c : Nat) (q : List TxItem) : State :=
  s.modPort n (fun p => { p with queues := tset [] p.queues c q })

def TxItem.isDeferred : TxItem → Bool
  | .deferred .. => true
  | .move _ => false

/-- Append a local frame to its class queue. -/
def State.txAppend (s : State) (n c slot : Nat) : State := s.setTxQueue n c (s.txQueue n c ++ [.move slot])

/-- Queue a deferred pass-through frame before the local frames of its class (R309, R323). -/
def State.txDefer (s : State) (n c : Nat) (i : TxItem) : State :=
  let q := s.txQueue n c
  s.setTxQueue n c (q.filter TxItem.isDeferred ++ [i] ++ q.filter (fun t => !t.isDeferred))

end Sys2Proof.Machine
end

