-- ==== Sys2Proof/Machine/Valves.lean ====
section
/-!
DEFINITION. The valves (chapter 08): the instruction word, what each operation does in a valve cycle, waits and
queues, program swap, and the writes of the valve registers.
-/

namespace Sys2Proof.Machine

/-! ### Access -/

/-- Valve v. -/
def State.valve (s : State) (v : Nat) : ValveSt := tget {} s.valves v
/-- Change valve v. -/
def State.modValve (s : State) (v : Nat) (f : ValveSt → ValveSt) : State :=
  { s with valves := tput s.valves v (f (s.valve v)) }
/-- Pin j of port n. -/
def State.pin (s : State) (n j : Nat) : PinSt := tget {} s.pins (8 * n + j)
/-- Change pin j of port n. -/
def State.modPin (s : State) (n j : Nat) (f : PinSt → PinSt) : State :=
  { s with pins := tput s.pins (8 * n + j) (f (s.pin n j)) }

/-- The window offset of a valve's page (R251). -/
def valveBase (v : Nat) : Nat := 0x30000 + 0x200 * v
/-- A register of valve v by its offset in the page. -/
def State.vreg (s : State) (v o : Nat) : Nat := s.reg (valveBase v + o)
/-- Port n of a valve. -/
def portOfValve (v : Nat) : Nat := v / 4
/-- The window offset of a port's page. -/
def portBase (n : Nat) : Nat := 0x20000 + 0x800 * n
/-- A register of port n by its offset in the page. -/
def State.preg (s : State) (n o : Nat) : Nat := s.reg (portBase n + o)
/-- MODE of PORT_MODE: frame-lane mode (R292). -/
def State.laneMode (s : State) (n : Nat) : Bool := bit (s.preg n 0) 0

/-- The owner of a pin: a valve 0 to 3 of the port, or 4 (R252). -/
def State.pinOwner (s : State) (n j : Nat) : Nat := bits (s.preg n 0x700) (3 * j + 2) (3 * j)
/-- Valve v owns pin j of its port. -/
def State.owns (s : State) (v j : Nat) : Bool := s.pinOwner (portOfValve v) j == v % 4

/-- Write the level of a pin, where the valve owns it (R252). -/
def State.pinOut (s : State) (v j : Nat) (l : Bool) : State :=
  if s.owns v j then s.modPin (portOfValve v) j (fun p => { p with out := l }) else s
/-- Write the enable of a pin, where the valve owns it. -/
def State.pinOe (s : State) (v j : Nat) (e : Bool) : State :=
  if s.owns v j then s.modPin (portOfValve v) j (fun p => { p with oe := e }) else s
/-- Drive a pin to a level (R258). -/
def State.pinDrive (s : State) (v j : Nat) (l : Bool) : State := (s.pinOut v j l).pinOe v j true

/-- The conditioned input j of a valve's port (R254). -/
def State.condIn (s : State) (v j : Nat) : Bool := (s.pin (portOfValve v) j).cond

/-- Port flag k of a valve's port. -/
def State.pflag (s : State) (v k : Nat) : Bool := bit (tget 0 s.flags (portOfValve v)) k
/-- The flags of port n in the GCLK cycle of a command of its valve `j`: the cycle in progress where no gate and no TCLK
edge has come since and valve `j` stands behind the last valve that acted in it, else a new one (R267).
(DESIGN CHOICE, unsafe: log entry 87.) -/
def State.flagCyc (s : State) (n j : Nat) : FlagCyc :=
  let c : FlagCyc := tget {} s.flagCycs n
  if c.at_ = s.moment ∧ c.last < j then { c with last := j }
  else { at_ := s.moment, last := j, start := tget 0 s.flags n }

/-- The clears and sets of a cycle so far: the clears of all writers first, then the sets (R267). -/
def FlagCyc.flags (c : FlagCyc) : Nat := (c.start ^^^ (c.start &&& c.clr)) ||| c.set

/-- A GCLK cycle of a port's flags goes on. -/
def State.putCyc (s : State) (n : Nat) (c : FlagCyc) : State :=
  { s with flagCycs := tput s.flagCycs n c, flags := tset 0 s.flags n c.flags }

/-- Valve v sets or clears a port flag (R267). -/
def State.setPflag (s : State) (v k : Nat) (b : Bool) : State :=
  let c := s.flagCyc (portOfValve v) (v % 4)
  s.putCyc (portOfValve v) (if b then { c with set := c.set ||| 2 ^ k } else { c with clr := c.clr ||| 2 ^ k })

/-! ### Queues (R263, R264, R270) -/

/-- Depth of the TX and of the RX direction by JOIN (R270). -/
def State.txDepth (s : State) (v : Nat) : Nat :=
  match bits (s.vreg v 0x0C) 1 0 with | 0 => 4 | 1 => 8 | _ => 0
def State.rxDepth (s : State) (v : Nat) : Nat :=
  match bits (s.vreg v 0x0C) 1 0 with | 0 => 4 | 2 => 8 | _ => 0

/-- RX entries that the valve holds and that are not yet freed; a replacement on its way is none (R264). -/
def ValveSt.rxHeld (x : ValveSt) : Nat := (x.rxCross.filter (fun c => !c.val.2)).length + x.rxReady.length

/-- Count up to 255 (R289). -/
def sat255 (n : Nat) : Nat := min 255 (n + 1)

/-- TAKE of the oldest ready entry in stroke `q` (R263): its put credit starts back to the core (R220). -/
def ValveSt.take (q : Nat) (x : ValveSt) : ValveSt :=
  match x.txReady with
  | [] => x
  | w :: ws => { x with txReady := ws, txw := w, lastTake := w, txn := 0, creditBack := x.creditBack ++ [q] }

/-- TAKE without WAIT on an empty queue: LAST_TAKE again (R263). -/
def ValveSt.takeStale (now : Nat) (x : ValveSt) : ValveSt :=
  { x with txw := x.lastTake, txn := 0, stale := true, nStale := sat255 x.nStale, fresh := x.fresh.set now (2 ^ 18) }

/-- GIVE into a queue with room, in stroke `q` (R263). -/
def ValveSt.give (q : Nat) (x : ValveSt) : ValveSt :=
  { x with rxCross := x.rxCross ++ [⟨(x.rxw, false), q, 0⟩], rxw := 0, rxn := 0 }

/-- GIVE without WAIT on a full queue: a replacement of the newest entry given crosses (R264). -/
def ValveSt.giveOver (q now : Nat) (x : ValveSt) : ValveSt :=
  { x with rxCross := x.rxCross ++ [⟨(x.rxw, true), q, 0⟩], rxw := 0, rxn := 0
           overwrite := true, nOverwrite := sat255 x.nOverwrite, fresh := x.fresh.set now (2 ^ 19) }

/-- An entry has crossed into the core; a replacement takes the place of the newest entry given, and is lost where the core
has taken that entry (R264, R274). -/
def ValveSt.rxArrive (x : ValveSt) : ValveSt :=
  match x.rxCross with
  | [] => x
  | c :: cs =>
    { x with
      rxCross := cs
      rxReady := if c.val.2 then (if x.rxReady.isEmpty then [] else x.rxReady.dropLast ++ [c.val.1]) else x.rxReady ++ [c.val.1] }

/-! ### The instruction word (R258, R260, R269) -/

/-- The word at PC in the active bank. -/
def ValveSt.word (x : ValveSt) : Nat := (tget 0 (if x.bank then x.prog1 else x.prog0) x.pc).toNat

def vOp (w : Nat) : Nat := bits w 31 29
def vParam (w : Nat) : Nat := bits w 28 20
def vDwell (w : Nat) : Nat := bits w 19 16
/-- The pin effect code of pin j. -/
def vPin (w j : Nat) : Nat := bits w (2 * j + 1) (2 * j)

/-- n of SHIFT: a stored 0 means 32. -/
def vShiftN (p : Nat) : Nat := if bits p 4 0 = 0 then 32 else bits p 4 0

/-- An illegal valve instruction (R260, R261, R262, R265, R269); the depths tell the joined directions. -/
def vIllegal (w txDepth rxDepth : Nat) : Bool :=
  let p := vParam w
  match vOp w with
  | 0 => false
  | 1 => false
  | 2 => bit p 6 || (bits p 8 7 ≤ 1 && 8 < vShiftN p) || (bits p 8 7 != 2 && bit p 5)
  | 3 => 6 < bits p 8 6 || 3 < bits p 2 0
  | 4 => bits p 6 0 != 0 || (bit p 8 && rxDepth == 0) || (!bit p 8 && txDepth == 0)
  | 5 => bits p 4 3 != 0 || bits p 8 6 == 7 || (bits p 8 6 == 3 && 1 < bits p 2 0) ||
         (bits p 8 6 == 6 && bits p 2 0 != 0)
  | 6 => bits p 6 3 != 0
  | _ => bits p 7 0 != 0

/-- The pin effects of an instruction (R258, R259). -/
def State.pinFx (s : State) (v w : Nat) : State :=
  (List.range 8).foldl
    (fun s j => match vPin w j with
      | 1 => s.pinDrive v j false
      | 2 => s.pinDrive v j true
      | 3 => s.pinOe v j false
      | _ => s) s

/-! ### Operations (R260-R267) -/

/-- TX_BITS and RX_BITS of VALVE_SHAPE: a stored 0 means 32. -/
def State.txBits (s : State) (v : Nat) : Nat := let b := bits (s.vreg v 8) 12 8; if b = 0 then 32 else b
def State.rxBits (s : State) (v : Nat) : Nat := let b := bits (s.vreg v 8) 20 16; if b = 0 then 32 else b
def State.pinBase (s : State) (v : Nat) : Nat := bits (s.vreg v 8) 26 24
def State.sampleBase (s : State) (v : Nat) : Nat := bits (s.vreg v 8) 30 28

/-- A condition of BRANCH (R261). -/
def State.vCond (s : State) (v c : Nat) : Bool :=
  let x := s.valve v
  let test := s.condIn v (bits (s.vreg v 8) 6 4)
  match c with
  | 0 => true
  | 1 => test
  | 2 => !test
  | 3 => x.k0 == 0
  | 4 => x.k1 == 0
  | 5 => decide (s.txBits v ≤ x.txn)
  | 6 => decide (s.rxBits v ≤ x.rxn)
  | _ => x.rxw &&& BitVec.ofNat 32 (s.vreg v 0x48) == x.cmpw

/-- Take one bit from TXW (R262). -/
def ValveSt.nextTx (x : ValveSt) (order : Bool) : Bool × ValveSt :=
  let y := { x with txn := min 32 (x.txn + 1) }
  if order then (x.txw.getLsbD 31, { y with txw := x.txw <<< 1 }) else (x.txw.getLsbD 0, { y with txw := x.txw >>> 1 })

/-- Gather one bit into RXW (R262). -/
def ValveSt.putRx (x : ValveSt) (order b : Bool) : ValveSt :=
  let y := { x with rxn := min 32 (x.rxn + 1) }
  if order then { y with rxw := (x.rxw <<< 1) ||| BitVec.ofNat 32 (b2n b) }
  else { y with rxw := (x.rxw >>> 1) ||| BitVec.ofNat 32 (2 ^ 31 * b2n b) }

/-- SEND n (R262). -/
def State.vSend (s : State) (v n : Nat) : State :=
  (List.range n).foldl
    (fun s i =>
      let (b, x) := (s.valve v).nextTx (bit (s.vreg v 8) 0)
      (s.modValve v (fun _ => x)).pinDrive v ((s.pinBase v + i) % 8) b) s

/-- SAMPLE n (R262). -/
def State.vSample (s : State) (v n : Nat) : State :=
  s.modValve v (fun x => (List.range n).foldl
    (fun x i => x.putRx (bit (s.vreg v 8) 1) (s.condIn v ((s.sampleBase v + i) % 8))) x)

/-- FILL n with a constant (R262). -/
def State.vFill (s : State) (v n : Nat) (b : Bool) : State :=
  s.modValve v (fun x => (List.range n).foldl (fun x _ => x.putRx (bit (s.vreg v 8) 1) b) x)

/-- DISCARD n (R262). -/
def State.vDiscard (s : State) (v n : Nat) : State :=
  s.modValve v (fun x => (List.range n).foldl (fun x _ => (x.nextTx (bit (s.vreg v 8) 0)).2) x)

/-- INPUTS: the conditioned inputs rotated by SAMPLE_BASE (R261). -/
def State.vInputs (s : State) (v : Nat) : Nat :=
  (List.range 8).foldl (fun a i => a + 2 ^ i * b2n (s.condIn v ((s.sampleBase v + i) % 8))) 0

/-- A source of MOVE (R261). -/
def State.vSrc (s : State) (v c : Nat) : Word :=
  let x := s.valve v
  match c with
  | 0 => x.txw
  | 1 => x.rxw
  | 2 => BitVec.ofNat 32 x.k0
  | 3 => BitVec.ofNat 32 x.k1
  | 4 => x.cmpw
  | 5 => BitVec.ofNat 32 (s.vInputs v)
  | 6 => 0
  | _ => BitVec.ofNat 32 x.txReady.length

/-- A transform of MOVE (R261). -/
def vXform (c : Nat) (w : Word) : Word :=
  match c with
  | 1 => ~~~w
  | 2 => BitVec.ofNat 32 (ofBytes (toBytes 4 w.toNat).reverse)
  | 3 => BitVec.ofNat 32 (w.toNat / 65536 + 65536 * (w.toNat % 65536))
  | _ => w

/-- A destination of MOVE (R261). -/
def State.vDst (s : State) (v c : Nat) (w : Word) : State :=
  match c with
  | 0 => s.modValve v (fun x => { x with txw := w, txn := 0 })
  | 1 => s.modValve v (fun x => { x with rxw := w, rxn := 0 })
  | 2 => s.modValve v (fun x => { x with k0 := w.toNat % 65536 })
  | 3 => s.modValve v (fun x => { x with k1 := w.toNat % 65536 })
  | 4 => s.modValve v (fun x => { x with cmpw := w })
  | 5 => (List.range 8).foldl (fun s i => s.pinOut v ((s.pinBase v + i) % 8) (w.getLsbD i)) s
  | _ => (List.range 8).foldl (fun s i => s.pinOe v ((s.pinBase v + i) % 8) (w.getLsbD i)) s

/-- Counter n of COUNT. -/
def ValveSt.k (x : ValveSt) (n : Nat) : Nat := if n = 0 then x.k0 else x.k1
def ValveSt.setK (x : ValveSt) (n c : Nat) : ValveSt := if n = 0 then { x with k0 := c } else { x with k1 := c }

/-- The condition of an AWAIT where its port flag is seen as `flag` (R265); `x.edge0` is the input in the first cycle of
the wait. -/
def State.vAwait (s : State) (v src ix : Nat) (first flag : Bool) : Bool :=
  let x := s.valve v
  match src with
  | 0 => s.condIn v ix
  | 1 => !s.condIn v ix
  | 2 => !first && (s.condIn v ix != x.edge0)
  | 3 => x.trig ix
  | 4 => flag
  | 5 => !flag
  | _ => !x.txReady.isEmpty

/-! ### One valve cycle -/

/-- An instruction ends: the next stands at `pc`, and its dwell begins (R266). -/
def State.vEnd (s : State) (v pc : Nat) (w : Nat) : State :=
  s.modValve v (fun x => { x with
    pc := pc % 64, stalled := false, dwell := vDwell w, safe := false, cycled := x.swap.isSome
    div := s.vreg v 4 % 65536 })

/-- An instruction stalls at PC (R265, R266). -/
def State.vStall (s : State) (v : Nat) : State :=
  s.modValve v (fun x => { x with
    stalled := true, dwell := 0, safe := false, cycled := x.swap.isSome, div := s.vreg v 4 % 65536 })

/-- The valve runs, is not stalled, and the instruction at PC is legal and satisfies `p`. -/
def State.vReady (s : State) (v : Nat) (p : Nat → Bool) : Bool :=
  let x := s.valve v
  s.up (3 + portOfValve v / 4) && x.run && !x.stalled && !vIllegal x.word (s.txDepth v) (s.rxDepth v) && p x.word

/-- A one-cycle instruction: its operation, its pin effect, the next PC (R259, R266). -/
def State.vRun (s : State) (v : Nat) (p : Nat → Bool) (op : State → State) (target : Nat → Option Nat) : Result :=
  let x := s.valve v
  s.act (s.vReady v p) (((op s).pinFx v x.word).vEnd v ((target x.word).getD (x.pc + 1)) x.word)

/-- No branch. -/
def noTarget (_ : Nat) : Option Nat := none

/-- BRANCH (R260, R261).
(DESIGN CHOICE, safe: log entry 36.) -/
def execBranch (v : Fin 128) (s : State) : Result :=
  s.vRun v (fun w => vOp w == 0) id
    (fun w => if s.vCond v (bits (vParam w) 8 6) then some (bits (vParam w) 5 0) else none)

/-- COUNT with action `a`. -/
def isCount (a w : Nat) : Bool := vOp w == 1 && bits (vParam w) 7 6 == a
/-- The counter of COUNT. -/
def countReg (w : Nat) : Nat := bits (vParam w) 8 8

/-- COUNT LOAD (R260). -/
def execCountLoad (v : Fin 128) (s : State) : Result :=
  let w := (s.valve v).word
  s.vRun v (isCount 0) (fun s => s.modValve v (fun x => x.setK (countReg w) (bits (vParam w) 5 0))) noTarget

/-- COUNT RELOAD (R260). -/
def execCountReload (v : Fin 128) (s : State) : Result :=
  let w := (s.valve v).word
  s.vRun v (isCount 1)
    (fun s => s.modValve v (fun x => x.setK (countReg w)
      (if countReg w = 0 then bits (s.vreg v 0x40) 15 0 else bits (s.vreg v 0x40) 31 16))) noTarget

/-- COUNT DEC (R260). -/
def execCountDec (v : Fin 128) (s : State) : Result :=
  let w := (s.valve v).word
  s.vRun v (isCount 2) (fun s => s.modValve v (fun x => x.setK (countReg w) (x.k (countReg w) - 1))) noTarget

/-- COUNT LOOP (R260): the branch is taken where the new count is not 0. -/
def execCountLoop (v : Fin 128) (s : State) : Result :=
  let x := s.valve v
  s.vRun v (isCount 3) (fun s => s.modValve v (fun x => x.setK (countReg x.word) (x.k (countReg x.word) - 1)))
    (fun w => if x.k (countReg w) ≤ 1 then none else some (bits (vParam w) 5 0))

/-- SHIFT with mode `m`. -/
def isShift (m w : Nat) : Bool := vOp w == 2 && bits (vParam w) 8 7 == m

/-- SHIFT SEND (R262). -/
def execShiftSend (v : Fin 128) (s : State) : Result :=
  s.vRun v (isShift 0) (fun s => s.vSend v (vShiftN (vParam (s.valve v).word))) noTarget
/-- SHIFT SAMPLE (R262). -/
def execShiftSample (v : Fin 128) (s : State) : Result :=
  s.vRun v (isShift 1) (fun s => s.vSample v (vShiftN (vParam (s.valve v).word))) noTarget
/-- SHIFT FILL (R262). -/
def execShiftFill (v : Fin 128) (s : State) : Result :=
  s.vRun v (isShift 2)
    (fun s => s.vFill v (vShiftN (vParam (s.valve v).word)) (bit (vParam (s.valve v).word) 5)) noTarget
/-- SHIFT DISCARD (R262). -/
def execShiftDiscard (v : Fin 128) (s : State) : Result :=
  s.vRun v (isShift 3) (fun s => s.vDiscard v (vShiftN (vParam (s.valve v).word))) noTarget

/-- MOVE (R261). -/
def execValveMove (v : Fin 128) (s : State) : Result :=
  s.vRun v (fun w => vOp w == 3)
    (fun s =>
      let p := vParam (s.valve v).word
      s.vDst v (bits p 8 6) (vXform (bits p 2 0) (s.vSrc v (bits p 5 3)))) noTarget

/-- TAKE: the oldest ready entry, a stall, or LAST_TAKE again (R263). -/
def execTake (v : Fin 128) (s : State) : Result :=
  let x := s.valve v
  let w := x.word
  let go := s.vReady v (fun w => vOp w == 4 && !bit (vParam w) 8)
  if !x.txReady.isEmpty then s.act go (((s.modValve v (ValveSt.take s.strokes)).pinFx v w).vEnd v (x.pc + 1) w)
  else if bit (vParam w) 7 then s.act go ((s.pinFx v w).vStall v)
  else s.act go (((s.modValve v (ValveSt.takeStale s.moment)).pinFx v w).vEnd v (x.pc + 1) w)

/-- GIVE: an entry, a stall, or an overwrite (R263, R264). -/
def execGive (v : Fin 128) (s : State) : Result :=
  let x := s.valve v
  let w := x.word
  let go := s.vReady v (fun w => vOp w == 4 && bit (vParam w) 8)
  if x.rxHeld < s.rxDepth v then s.act go (((s.modValve v (ValveSt.give s.strokes)).pinFx v w).vEnd v (x.pc + 1) w)
  else if bit (vParam w) 7 then s.act go ((s.pinFx v w).vStall v)
  else s.act go (((s.modValve v (ValveSt.giveOver s.strokes s.moment)).pinFx v w).vEnd v (x.pc + 1) w)

/-- QUEUE_STALL_END: a stalled TAKE or GIVE completes (R263, R266). -/
def execQueueStallEnd (v : Fin 128) (s : State) : Result :=
  let x := s.valve v
  let w := x.word
  let st := x.run && x.stalled && vOp w == 4
  if bit (vParam w) 8 then
    s.act (st && decide (x.rxHeld < s.rxDepth v)) ((s.modValve v (ValveSt.give s.strokes)).vEnd v (x.pc + 1) w)
  else s.act (st && !x.txReady.isEmpty) ((s.modValve v (ValveSt.take s.strokes)).vEnd v (x.pc + 1) w)

/-- An AWAIT ends on its condition: its latch or flag clears at the end of the cycle (R265). -/
def State.awaitEnd (s : State) (v : Nat) : State :=
  let x := s.valve v
  let p := vParam x.word
  let s := match bits p 8 6 with
    | 3 => s.modValve v (fun x => x.setTrig (bits p 2 0) false)
    | 4 => s.setPflag v (bits p 2 0) false
    | _ => s
  s.vEnd v (x.pc + 1) x.word

/-- A cycle in which the condition of an AWAIT is false: a timed wait counts K1 down and ends at 0 (R265). -/
def State.awaitFalse (s : State) (v : Nat) : State :=
  let x := s.valve v
  if bit (vParam x.word) 5 then
    let s := s.modValve v (fun x => { x with k1 := x.k1 - 1 })
    if x.k1 ≤ 1 then s.vEnd v (x.pc + 1) x.word else s.vStall v
  else s.vStall v

/-- The condition of the AWAIT at PC, its flag seen as it stood when the GCLK cycle of the command began, or where `next`
holds as it stands now: in the cycle that follows (R267).
(DESIGN CHOICE, unsafe: log entry 87.) -/
def State.awaitTrue (s : State) (v : Nat) (first next : Bool) : Bool :=
  let p := vParam (s.valve v).word
  let k := bits p 2 0
  s.vAwait v (bits p 8 6) k first (if next then s.pflag v k else bit (s.flagCyc (portOfValve v) (v % 4)).start k)

/-- The condition of a stalled AWAIT is true in a GCLK cycle that the command may stand for. -/
def State.mayPass (s : State) (v : Nat) : Bool := s.awaitTrue v false false || s.awaitTrue v false true

/-- The condition of a stalled AWAIT is false in a GCLK cycle that the command may stand for. -/
def State.mayWait (s : State) (v : Nat) : Bool := !s.awaitTrue v false false || !s.awaitTrue v false true

/-- The valve stalls in the AWAIT at PC. -/
def State.awaiting (s : State) (v : Nat) : Bool :=
  let x := s.valve v
  x.run && x.stalled && vOp x.word == 5

/-- A false cycle of a timed wait that ends it. -/
def State.awaitLast (s : State) (v : Nat) : Bool :=
  bit (vParam (s.valve v).word) 5 && decide ((s.valve v).k1 ≤ 1)

/-- AWAIT: the first cycle of a wait, or a later cycle in which it goes on waiting (R265). -/
def execAwait (v : Fin 128) (s : State) : Result :=
  let w := (s.valve v).word
  if s.vReady v (fun w => vOp w == 5) then
    let s := (s.pinFx v w).modValve v (fun x => { x with edge0 := s.condIn v (bits (vParam w) 2 0) })
    .next (if s.awaitTrue v true false then s.awaitEnd v else s.awaitFalse v)
  else s.act (s.awaiting v && s.mayWait v && !s.awaitLast v) (s.awaitFalse v)

/-- AWAIT_PASS: a stalled AWAIT sees its condition true (R265). -/
def execAwaitPass (v : Fin 128) (s : State) : Result :=
  s.act (s.awaiting v && s.mayPass v) (s.awaitEnd v)

/-- AWAIT_TIMEOUT: a stalled timed AWAIT ends without its condition (R265). -/
def execAwaitTimeout (v : Fin 128) (s : State) : Result :=
  s.act (s.awaiting v && s.mayWait v && s.awaitLast v) (s.awaitFalse v)

/-- SIGNAL with action `a`. -/
def isSignal (a w : Nat) : Bool := vOp w == 6 && bits (vParam w) 8 7 == a

/-- Set or clear the flag that a SIGNAL names. -/
def State.vFlag (s : State) (v : Nat) (b : Bool) : State := s.setPflag v (bits (vParam (s.valve v).word) 2 0) b
/-- Raise the event source that a SIGNAL names: VE(index mod 2). -/
def State.vRaise (s : State) (v : Nat) : State := s.raiseClock (srcVe v (bits (vParam (s.valve v).word) 2 0 % 2))

/-- SIGNAL SET (R267). -/
def execSignalSet (v : Fin 128) (s : State) : Result := s.vRun v (isSignal 0) (fun s => s.vFlag v true) noTarget
/-- SIGNAL CLEAR (R267). -/
def execSignalClear (v : Fin 128) (s : State) : Result := s.vRun v (isSignal 1) (fun s => s.vFlag v false) noTarget
/-- SIGNAL EVENT (R267). -/
def execSignalEvent (v : Fin 128) (s : State) : Result := s.vRun v (isSignal 2) (fun s => s.vRaise v) noTarget
/-- SIGNAL SET and EVENT (R267). -/
def execSignalSetEvent (v : Fin 128) (s : State) : Result :=
  s.vRun v (isSignal 3) (fun s => (s.vFlag v true).vRaise v) noTarget

/-- MARK: nothing, or a safe point (R260, R283). -/
def execMark (v : Fin 128) (s : State) : Result :=
  let x := s.valve v
  s.act (s.vReady v (fun w => vOp w == 7))
    (((s.pinFx v x.word).vEnd v (x.pc + 1) x.word).modValve v (fun y => { y with safe := bit (vParam x.word) 8 }))

/-- VALVE_ILLEGAL: the pin effect and the dwell, ILLOP and a valve-fault event (R269, R523). -/
def execValveIllegal (v : Fin 128) (s : State) : Result :=
  let x := s.valve v
  let w := x.word
  s.act (s.up (3 + portOfValve v / 4) && x.run && !x.stalled && vIllegal w (s.txDepth v) (s.rxDepth v))
    ((((s.pinFx v w).vEnd v (x.pc + 1) w).modValve v (fun x => { x with illop := true, fresh := x.fresh.set s.moment (2 ^ 17) })).event 9 14 0x20 v x.pc)

/-! ### Program swap (R283-R286) -/

/-- The swap point: the banks change places, PC becomes ENTRY, PARTIAL may latch (R283-R285). -/
def State.valveSwap (s : State) (v : Nat) (abandoned : Bool) : State :=
  s.modValve v (fun x =>
    match x.swap with
    | none => x
    | some r =>
      let half (n b : Nat) : Bool := decide (1 ≤ n) && decide (n < b)
      let p := half x.txn (s.txBits v) || half x.rxn (s.rxBits v) || abandoned
      let y := { x with
        bank := !x.bank, pc := r.entry, swap := none, partialW := x.partialW || p
        fresh := if p then x.fresh.set s.moment (2 ^ 16) else x.fresh
        stalled := false, dwell := 0, safe := false, cycled := false }
      if r.clear then { y with txw := 0, txn := 0, rxw := 0, rxn := 0, k0 := 0, k1 := 0, lastTake := 0 } else y)

/-- The swap point of the pending request has come (R283). -/
def ValveSt.swapDue (x : ValveSt) : Bool :=
  match x.swap with
  | none => false
  | some r => !x.run ||
    (match r.mode with
     | 1 => x.safe && x.cycled
     | 2 => x.stalled || x.safe
     | _ => x.cycled || x.stalled || decide (0 < x.dwell))

/-- VALVE_SWAP: the swap point; `left` dwell cycles of the last instruction had not passed (R283, R285). -/
def execValveSwap (v : Fin 128) (left : Fin 16) (s : State) : Result :=
  let x := s.valve v
  let forced := x.run && (x.swap.map (·.mode)) == some 3
  let lost := forced && decide (0 < min left.val x.dwell)
  s.act x.swapDue (s.valveSwap v lost)

/-- A write to VALVE_PROG_SEL (R283, R286). -/
def State.progSelWrite (s : State) (v w : Nat) : State :=
  let s := s.setReg (valveBase v + 0x24) (mix 0 0x13F03 w)
  s.modValve v (fun x => { x with
    cycled := false
    swap := if bits w 1 0 = 0 then none else some { mode := bits w 1 0, entry := bits w 13 8, clear := bit w 16 } })

/-- SWAP_SAFE (R283). -/
def execSwapSafe (v : Fin 128) (w : Word) (s : State) : Result := .next (s.progSelWrite v (putBits w.toNat 1 0 1))
/-- SWAP_IDLE (R283). -/
def execSwapIdle (v : Fin 128) (w : Word) (s : State) : Result := .next (s.progSelWrite v (putBits w.toNat 1 0 2))
/-- SWAP_FORCED (R283). -/
def execSwapForced (v : Fin 128) (w : Word) (s : State) : Result := .next (s.progSelWrite v (putBits w.toNat 1 0 3))
/-- SWAP_CANCEL (R286). -/
def execSwapCancel (v : Fin 128) (w : Word) (s : State) : Result := .next (s.progSelWrite v (putBits w.toNat 1 0 0))

/-! ### Register writes (R253, R256, R271, R281, R282) -/

/-- A write is discarded with CFG_ERR. -/
def State.valveCfgErr (s : State) (v : Nat) : State :=
  s.modValve v (fun x => { x with cfgErr := true, fresh := x.fresh.set s.moment 1 })

/-- EN goes to 0: the valve stops, the rest of the dwell is abandoned (R281). -/
def State.valveStop (s : State) (v : Nat) : State :=
  (s.setReg (valveBase v) (putBits (s.vreg v 0) 0 0 0)).modValve v
    (fun x => { x with run := false, stalled := false, dwell := 0, safe := false })

/-- RESTART (R281). -/
def State.valveRestart (s : State) (v : Nat) : State :=
  s.modValve v (fun x => { x with
    pc := bits (s.vreg v 0) 13 8, txw := 0, rxw := 0, txn := 0, rxn := 0, k0 := 0, k1 := 0, lastTake := 0
    trig0 := false, trig1 := false, stalled := false })

/-- A write to VALVE_CTRL, in the order of R281. -/
def State.valveCtrlWrite (s : State) (v w : Nat) : State :=
  if s.laneMode (portOfValve v) && v % 4 < 2 && bit w 0 then s.valveCfgErr v
  else
    let was := (s.valve v).run
    let s := s.setReg (valveBase v) (mix (s.vreg v 0) 0x3F08 w)
    let s := s.modValve v (fun x => { x with
      cfgErr := x.cfgErr && (!bit w 16 || bit (x.fresh.held s.moment) 0)
      nOverflow := if bit w 2 then 0 else x.nOverflow
      nUnderrun := if bit w 2 then 0 else x.nUnderrun
      nStale := if bit w 2 then 0 else x.nStale
      nOverwrite := if bit w 2 then 0 else x.nOverwrite })
    let s := if bit w 0 then s else s.valveStop v
    let s := if bit w 1 then (if was && bit w 0 then s.valveCfgErr v else s.valveRestart v) else s
    if bit w 0 then
      let s := s.setReg (valveBase v) (putBits (s.vreg v 0) 0 0 1)
      if was then s
      else s.modValve v (fun x => { x with
        run := true, stalled := false, dwell := 0, safe := false, div := s.vreg v 4 % 65536 })
    else s

/-- A write to VALVE_QCFG (R270, R271). -/
def State.qcfgWrite (s : State) (v w : Nat) : State :=
  if (s.valve v).run || bits w 1 0 == 3 then s.valveCfgErr v
  else
    let old := bits (s.vreg v 0x0C) 1 0
    let s := s.setReg (valveBase v + 0x0C) (mix 0 0x33 w)
    if old = bits w 1 0 then s
    else s.modValve v (fun x => { x with
      txCross := [], txReady := [], rxCross := [], rxReady := [], creditBack := [], credit := s.txDepth v })

/-- A write to VALVE_PROG⟨i⟩ reaches the standby bank (R282). -/
def State.progWrite (s : State) (v i w : Nat) : State :=
  if bit (s.vreg v 0) 3 || (s.valve v).swap.isSome then s.valveCfgErr v
  else s.modValve v (fun x =>
    if x.bank then { x with prog0 := tset 0 x.prog0 i (BitVec.ofNat 32 w) }
    else { x with prog1 := tset 0 x.prog1 i (BitVec.ofNat 32 w) })

/-- A write to VALVE_K0 or VALVE_K1 (R281). -/
def State.kWrite (s : State) (v n w : Nat) : State :=
  if (s.valve v).run then s.valveCfgErr v else s.modValve v (fun x => x.setK n (w % 65536))

/-- A write to VALVE_STATUS clears RW1C bits (R11, R289). -/
def State.valveStatusWrite (s : State) (v w : Nat) : State :=
  s.modValve v (fun x =>
    let keep (b : Bool) (i : Nat) : Bool := b && (!bit w i || bit (x.fresh.held s.moment) i)
    { x with
      partialW := keep x.partialW 16, illop := keep x.illop 17, stale := keep x.stale 18
      overwrite := keep x.overwrite 19, ovr0 := keep x.ovr0 22, ovr1 := keep x.ovr1 23 })

/-- VALVE_START: a write to VALVE_CTRL with EN at 1 (R281). -/
def execValveStart (v : Fin 128) (w : Word) (s : State) : Result := .next (s.valveCtrlWrite v (putBits w.toNat 0 0 1))
/-- VALVE_STOP: a write to VALVE_CTRL with EN at 0 (R281). -/
def execValveStop (v : Fin 128) (w : Word) (s : State) : Result := .next (s.valveCtrlWrite v (putBits w.toNat 0 0 0))
/-- RESTART: a write to VALVE_CTRL with RESTART at 1 (R281). -/
def execRestart (v : Fin 128) (w : Word) (s : State) : Result := .next (s.valveCtrlWrite v (putBits w.toNat 1 1 1))
/-- CLR_COUNTS: a write to VALVE_CTRL with CLR_COUNTS at 1 (R289). -/
def execClrCounts (v : Fin 128) (w : Word) (s : State) : Result := .next (s.valveCtrlWrite v (putBits w.toNat 2 2 1))
/-- CLKDIV_WRITE: DIV takes effect after the next valve cycle (R256). -/
def execClkdivWrite (v : Fin 128) (w : Word) (s : State) : Result :=
  .next (s.setReg (valveBase v + 4) (bits w.toNat 15 0))
/-- QCFG_WRITE (R271). -/
def execQcfgWrite (v : Fin 128) (w : Word) (s : State) : Result := .next (s.qcfgWrite v w.toNat)
/-- PROG_WRITE (R282). -/
def execProgWrite (v : Fin 128) (i : Fin 64) (w : Word) (s : State) : Result := .next (s.progWrite v i w.toNat)
/-- K_WRITE: VALVE_K0 or VALVE_K1 (R281). -/
def execKWrite (v : Fin 128) (n : Fin 2) (w : Word) (s : State) : Result := .next (s.kWrite v n w.toNat)

/-! ### Crossings of the queues (R220, R274) -/

/-- TX_ENTRY_READY: the oldest crossing TX entry becomes ready for TAKE. -/
def execTxEntryReady (v : Fin 128) (s : State) : Result :=
  match (s.valve v).txCross with
  | [] => .next s
  | w :: ws => s.act (w.outG s) (s.modValve v (fun x => { x with txCross := ws, txReady := x.txReady ++ [w.val] }))

/-- RX_ENTRY_ARRIVE: the oldest crossing RX entry can be taken by the core. -/
def execRxEntryArrive (v : Fin 128) (s : State) : Result :=
  match (s.valve v).rxCross with
  | [] => .next s
  | w :: _ => s.act (w.inCore s) (s.modValve v ValveSt.rxArrive)

/-- PUT_CREDIT_RETURN: a put credit is back in the core. -/
def execPutCreditReturn (v : Fin 128) (s : State) : Result :=
  match (s.valve v).creditBack with
  | [] => .next s
  | q :: qs => s.act (decide (q + 2 ≤ s.strokes)) (s.modValve v (fun x => { x with creditBack := qs, credit := x.credit + 1 }))

end Sys2Proof.Machine
end

