-- ==== Sys2Proof/Machine/Pump.lean ====
section
/-!
DEFINITION. The pump core (R424-R433, R437, R438): descriptors, moves, completion records, triggers, spill and
refill, and the pump's registers.
-/

namespace Sys2Proof.Machine

/-! ### Fields of a move (R427) -/

/-- The logical bore whose queue holds the move, and the queue. -/
def Move.lb (m : Move) : Nat := match m.by_ with | .thread x _ _ => lbOf x | .trigger lb _ _ => lb
def Move.q (m : Move) : Nat := match m.by_ with | .thread _ q _ => q | .trigger _ q _ => q
def Move.op (m : Move) : Nat := m.w0 % 256
def Move.len (m : Move) : Nat := bits m.w0 31 16
def Move.crec (m : Move) : Bool := bit m.w0 8
def Move.tsreq (m : Move) : Bool := bit m.w0 9
def Move.onestep (m : Move) : Bool := bit m.w0 10
def Move.launchF (m : Move) : Bool := bit m.w0 11
def Move.ckdone (m : Move) : Bool := bit m.w0 12
def Move.byThread (m : Move) : Bool := match m.by_ with | .thread .. => true | .trigger .. => false

/-- QDEPTH and QLEVEL (R424). -/
def State.qdepth (s : State) (lb q : Nat) : Nat :=
  bits (s.reg (0x70100 + 0x40 * lb + 4 * (q / 4))) (8 * (q % 4) + 6) (8 * (q % 4))
def State.qlevel (s : State) (lb q : Nat) : Nat := (s.pump.moves.filter (fun m => m.lb == lb && m.q == q)).length

/-- Submit a descriptor to a queue in a free transaction slot (R424); `s` unchanged where none is free. -/
def State.submit (s : State) (by_ : MoveBy) (w0 src dst aux issued err : Nat) : State :=
  match s.freeSlot with
  | none => s
  | some k =>
    let s := { s with draws := s.draws + 1 }
    (s.modPump (fun p => { p with moves := p.moves ++
      [{ slot := k, by_ := by_, w0 := w0, src := src, dst := dst, aux := aux, issued := issued, err := err }] })).noteSlots

/-! ### Pointers of a descriptor (R121, R428) -/

/-- The space and address of a pointer to `n` bytes in the own well or reservoir; none where it fails with ADDR. -/
def Move.ptr (m : Move) (p n : Nat) : Option (Nat × Nat) :=
  let a := p % 2 ^ 29
  if p / 2 ^ 29 = 0 ∧ m.byThread ∧ a + n ≤ 0x1000 then some (0, a)
  else if p / 2 ^ 29 = 1 ∧ a + n ≤ 0x80000 then some (1, a)
  else none

/-- The thread whose well a space-0 pointer names. -/
def Move.thread (m : Move) : Nat := match m.by_ with | .thread x _ _ => x | .trigger .. => 0

/-- The memory of a space. -/
def Move.mem (m : Move) (sp : Nat) : Mem := if sp = 0 then .well m.thread else .reservoir m.lb

/-- The bytes of a range that the pump reads, up to the first uncorrectable word, and that word (R148). -/
def State.pumpRead (s : State) (m : Move) (sp a n : Nat) : List Nat × Option Nat × State :=
  let bs := if sp = 0 then readBytes (s.th m.thread).well a n else readBytes (s.lb m.lb).res a n
  let mem := m.mem sp
  match (wordsOf a n).find? (fun w => s.isUe mem w) with
  | some w => (bs.take (4 * w - a), some w, s.eccRead .pump mem w)
  | none => (bs, none, if s.ecc.isEmpty then s else s.eccReads .pump ((wordsOf a n).map (fun w => (mem, w))))

/-- The pump writes bytes at a space and address; a partial write of an uncorrectable word reads it (R146, R148). -/
def State.pumpStore (s : State) (m : Move) (sp a : Nat) (bs : List Nat) : Bool × State :=
  let mem := m.mem sp
  match (partWords a bs.length).find? (fun w => s.isUe mem w) with
  | some w => (false, s.eccRead .pump mem w)
  | none =>
    (true, if bs.isEmpty then s
      else if sp = 0 then s.pumpWell .pump m.thread a bs.length (ofBytes bs) else s.pumpRes .pump m.lb a bs.length (ofBytes bs))

/-! ### Outcomes -/

/-- The move in a slot has nothing left to do: its error code and RESULT. -/
def State.moveDone (s : State) (slot err result : Nat) : State :=
  s.modMove slot (fun m => { m with phase := .done, err := err, result := result })

/-- The checks of a buffer that firmware of a bore gives to the pump (R409, R411). -/
def State.giveBuf (s : State) (lb b : Nat) : Except Nat Nat :=
  match s.checkBref lb b with
  | .error e => .error e
  | .ok h => if (s.cell h).bound then .error 8 else .ok h

/-- The oldest post of a channel. -/
def State.postFor (s : State) (ch : Nat) : Option Post := s.host.posts.find? (fun p => p.ch == ch)

/-- Note that a move names a channel that counts it. -/
def State.nameChan (s : State) (slot ch : Nat) : State := s.modMove slot (fun m => { m with ch := some ch })

/-- A channel entry that a handle names, with the kinds and the ON state that a move needs (R421, R422). -/
def State.chanFor (s : State) (h : Nat) (kinds : List Nat) : Except Nat Nat × State :=
  match s.checkHandle 1 h with
  | (.error e, s) => (.error e, s)
  | (.ok i, s) =>
    if !kinds.contains (s.chan i).kind then (.error 3, s)
    else if (s.chan i).state ≠ 2 then (.error 4, s)
    else (.ok i, s)

/-! ### SEND_HOST -/

/-- A buffer goes towards the host (R428): into a waiting post, or into the backlog after the tag check (R438). -/
def State.beginSend (s : State) (m : Move) : State :=
  match s.chanFor m.dst [1, 2, 5] with
  | (.error e, s) => s.moveDone m.slot e 0
  | (.ok ch, s) =>
    match s.giveBuf m.lb m.src with
    | .error e => s.moveDone m.slot e 0
    | .ok h =>
      let post := s.postFor ch
      let c := s.chan ch
      if post.isNone ∧ c.blMax ≤ c.blCount then
        (s.modChan ch (fun c => { c with drops := satInc 16 c.drops })).moveDone m.slot 6 0
      else
        let s := (s.modCell h (fun c => { c with owner := 0 })).nameChan m.slot ch
        let s := s.modChan ch (fun c => { c with inCount := (c.inCount + 1) % 2 ^ 32 })
        let (mapOk, s) := s.mapCheck h
        match post with
        | some p =>
          let s := s.modMove m.slot (fun m => { m with phase := .record, head := some h })
          s.rxStart m.slot p (bref h)
        | none =>
          match s.bufUe h 0 (s.cell h).len with
          | some w =>
            let s := (s.eccRead .pump .cistern w).modCell h (fun c => { c with bad := true })
            (s.blPush ch (bref h)).moveDone m.slot 0x0D 0
          | none =>
            let (ok, s) := s.tagCheck h (some ch)
            (s.blPush ch (bref h)).moveDone m.slot (if !mapOk then 0x0D else if ok then 0 else 0x0C) 0

/-! ### TX -/

/-- The launch and ingress times of a TX extension (R429), or the code of its failure: ADDR, or ECC for an
uncorrectable word (R148, R442). -/
def State.txExt (s : State) (m : Move) : Except Nat (Nat × Nat) × State :=
  let n := 16 * (b2n m.onestep + b2n m.launchF)
  if n = 0 then (.ok (0, 0), s)
  else match m.ptr m.aux n with
    | none => (.error 0x0A, s)
    | some (sp, a) =>
      match s.pumpRead m sp a n with
      | (_, some _, s) => (.error 0x0D, s)
      | (bs, none, s) =>
        (.ok (if m.launchF then ofBytes (bs.take 16) else 0,
              if m.onestep then ofBytes (bs.drop (if m.launchF then 16 else 0)) else 0), s)

/-- A time value as a time in units of 2^-48 ns, modulo 2^64 s. -/
def timeT (v : Nat) : Nat := ((timeQ v * 2 ^ 32) % (timeMod : Int)).toNat

/-- A frame joins the transmit queue of its channel, or waits for its launch time (R428, R431). -/
def State.beginTx (s : State) (m : Move) : State :=
  match s.chanFor m.dst [1, 5] with
  | (.error e, s) => s.moveDone m.slot e 0
  | (.ok ch, s) =>
    let c := s.chan ch
    if c.kind = 5 ∧ !m.launchF then s.moveDone m.slot 0x0B 0
    else match s.giveBuf m.lb m.src with
      | .error e => s.moveDone m.slot e 0
      | .ok h =>
        match s.txExt m with
        | (.error e, s) => s.moveDone m.slot e 0
        | (.ok (l, i), s) =>
          let s := (s.modCell h (fun c => { c with owner := 0 })).nameChan m.slot ch
          let s := s.modChan ch (fun c => { c with inCount := (c.inCount + 1) % 2 ^ 32 })
          let late := m.launchF && decide (timeT l ≤ s.tb.now)
          let s := s.modMove m.slot (fun m => { m with
            head := some h, late := late
            launch := if m.launchF then some (timeT l) else none
            ingress := if m.onestep then some (timeT i, timeEpoch i) else none
            phase := if m.launchF && !late then .launch else .queued })
          if m.launchF && !late then s else s.txAppend c.port c.cls m.slot

/-! ### Valve moves (R220, R428) -/

/-- The valve and direction that a pointer of space 3 names: the register at offset `o` of a valve page. -/
def valvePtr (p o : Nat) : Option Nat :=
  let a := p % 2 ^ 29
  if p / 2 ^ 29 = 3 ∧ 0x30000 ≤ a ∧ a < 0x40000 ∧ a % 0x200 = o then some ((a - 0x30000) / 0x200) else none

/-- The configuration of one direction of a valve: JOIN, and the direction's FEED field in bit 4 (R270, R272). -/
def State.dirCfg (s : State) (v : Nat) (to_ : Bool) : Nat :=
  let q := s.vreg v 0x0C
  bits q 1 0 + 2 ^ 4 * b2n (bit q (if to_ then 4 else 5))

/-- A TO_VALVE or FROM_VALVE is checked and starts. -/
def State.beginValve (s : State) (m : Move) (to_ : Bool) : State :=
  match valvePtr (if to_ then m.dst else m.src) (if to_ then 0x10 else 0x14) with
  | none => s.moveDone m.slot 0x0A 0
  | some v =>
    let q := s.dirCfg v to_
    if (if to_ then s.txDepth v else s.rxDepth v) = 0 then s.moveDone m.slot 0x0A 0
    else if !bit q 4 then s.moveDone m.slot 4 0
    else if m.len < 4 ∨ 4096 < m.len ∨ m.len % 4 ≠ 0 then s.moveDone m.slot 9 0
    else
      let go := s.modMove m.slot (fun m => { m with phase := .valve, cfg := q })
      if to_ ∧ bits m.src 31 30 = 2 then
        match s.giveBuf m.lb m.src with
        | .error e => s.moveDone m.slot e 0
        | .ok h => if (s.cell h).len < m.len then s.moveDone m.slot 9 0
                   else go.modMove m.slot (fun m => { m with head := some h })
      else match m.ptr (if to_ then m.src else m.dst) m.len with
        | none => s.moveDone m.slot 0x0A 0
        | some _ => go

/-- One word of a TO_VALVE into the queue; the move is done when the valve has taken the last one.  The tag of a buffer is
that of the bytes as read, those beyond LEN at the end (R438). -/
def State.stepToValve (s : State) (m : Move) (v : Nat) : State :=
  let x := s.valve v
  let c := s.cell (m.head.getD 0)
  let m := if m.moved = 0 then { m with tagAt := (c.tgen, c.tag) } else m
  if m.moved < m.len then
    if x.credit = 0 then s
    else
      let (bs, ue, s) : List Nat × Option Nat × State := match m.head with
        | some h =>
          (match s.bufUe h m.moved 4 with
           | some w => ([], some w, (s.eccRead .pump .cistern w).modCell h (fun c => { c with bad := true }))
           | none => (s.bufRead h m.moved 4, none, s))
        | none =>
          let (sp, a) := (m.ptr m.src m.len).getD (1, 0)
          s.pumpRead m sp (a + m.moved) 4
      if ue.isSome then s.moveDone m.slot 0x0D m.moved
      else
        (s.modValve v (fun x => { x with credit := x.credit - 1, txCross := x.txCross ++ [⟨BitVec.ofNat 32 (ofBytes bs), s.strokes, 0⟩] })).modMove
          m.slot (fun n => { n with moved := m.moved + 4, tagAt := m.tagAt, data := if m.head.isSome then m.data ++ bs else m.data })
  else if x.txCross.isEmpty && x.txReady.isEmpty then
    match m.head with
    | some h =>
      let (ok, s) := s.tagCheckAs h none { c with tgen := m.tagAt.1, tag := m.tagAt.2 }
        (tagOf c (m.data ++ s.bufRead h m.moved (c.len - m.moved)))
      s.moveDone m.slot (if ok then 0 else 0x0C) m.moved
    | none => s.moveDone m.slot 0 m.moved
  else s

/-- One word of a FROM_VALVE out of the queue. -/
def State.stepFromValve (s : State) (m : Move) (v : Nat) : State :=
  match (s.valve v).rxReady with
  | [] => s
  | w :: ws =>
    let s := s.modValve v (fun x => { x with rxReady := ws })
    let (sp, a) := (m.ptr m.dst m.len).getD (1, 0)
    let (ok, s) := s.pumpStore m sp (a + m.moved) (toBytes 4 w.toNat)
    if !ok then s.moveDone m.slot 0x0D m.moved
    else if m.moved + 4 = m.len then s.moveDone m.slot 0 m.len
    else s.modMove m.slot (fun m => { m with moved := m.moved + 4 })

/-- One stroke of a valve move; a change of the direction's configuration ends it with STATE. -/
def State.stepValve (s : State) (m : Move) : State :=
  let to_ := m.op == 4
  match valvePtr (if to_ then m.dst else m.src) (if to_ then 0x10 else 0x14) with
  | none => s
  | some v =>
    if s.dirCfg v to_ ≠ m.cfg then s.moveDone m.slot 4 m.moved
    else if to_ then s.stepToValve m v else s.stepFromValve m v

/-! ### IMAGE_OUT, IMAGE_IN, TAKE, EVENT -/

/-- IMAGE_OUT: the image as read goes to IMG_HOST. -/
def State.imageOut (s : State) (m : Move) (ch : Nat) : State :=
    let c := s.chan ch
    let n := 4 * (c.imgWords + 1)
    let mem := Mem.reservoir c.lb
    let bs := readBytes (s.lb c.lb).res c.imgRes n
    match (wordsOf c.imgRes n).find? (fun w => s.isUe mem w) with
    | some w => (s.eccRead .pump mem w).moveDone m.slot 0x0D 0
    | none =>
      let s := s.modMove m.slot (fun m => { m with phase := .host, result := crc32cFinal bs })
      s.askAll 0 m.slot true c.imgHost n bs c.hp (.move m.slot)

/-- IMAGE_IN: the host image is read. -/
def State.imageIn (s : State) (m : Move) (ch : Nat) : State :=
  let c := s.chan ch
  let n := 4 * (c.imgWords + 1)
  let s := s.modMove m.slot (fun m => { m with phase := .host, data := List.replicate n 0 })
  s.askAll 0 m.slot false c.imgHost n [] c.hp (.move m.slot)

/-- An image move accepted earlier, of the same queue and channel, has not taken effect (R425). -/
def State.imageBehind (s : State) (m : Move) (ch : Nat) : Bool :=
  s.pump.moves.any (fun n => n.lb == m.lb && n.q == m.q && n.ch == some ch && decide (n.accAt < m.accAt) &&
    (n.phase == .host || n.phase == .behind))

/-- The accesses of an image move start, once those before it on its channel have taken effect (R425). -/
def State.imageGo (s : State) (m : Move) : State :=
  let ch := m.ch.getD 0
  if s.imageBehind m ch then s else if m.op = 6 then s.imageOut m ch else s.imageIn m ch

/-- An IMAGE_OUT or an IMAGE_IN is checked and starts. -/
def State.beginImage (s : State) (m : Move) : State :=
  match s.chanFor m.src [3] with
  | (.error e, s) => s.moveDone m.slot e 0
  | (.ok ch, s) =>
    ((s.nameChan m.slot ch).modMove m.slot (fun m => { m with phase := .behind })).imageGo { m with ch := some ch }

/-- TAKE gives a buffer in the cistern to the bore: DST holds its BREF and LEN, 8 bytes (R423, R430). -/
def State.takeGive (s : State) (m : Move) (ch h err : Nat) : State :=
  let s := s.modCell h (fun c => { c with owner := 8 + m.lb, link := 0 })
  let s := s.modChan ch (fun c => { c with outCount := (c.outCount + 1) % 2 ^ 32 })
  let (sp, a) := (m.ptr m.dst 8).getD (1, 0)
  let (ok, s) := s.pumpStore m sp a (toBytes 4 (bref h) ++ toBytes 4 (s.cell h).len)
  s.moveDone m.slot (if ok then err else 0x0D) (if ok && err != 0 then 8 else 0)

/-- TAKE: the oldest backlog buffer, refilled first where it is deep (R417). -/
def State.beginTake (s : State) (m : Move) : State :=
  match s.chanFor m.src [2] with
  | (.error e, s) => s.moveDone m.slot e 0
  | (.ok ch, s) =>
    if (m.ptr m.dst 8).isNone then s.moveDone m.slot 0x0A 0
    else match s.blPop ch with
      | none => s.moveDone m.slot 0x10 0
      | some (b, s) =>
        let s := s.nameChan m.slot ch
        if isDeep b then s.modMove m.slot (fun m => { m with phase := .refill, deep := some (bits b 21 0) })
        else s.takeGive m ch (b % 2 ^ 15) 0

/-- EVENT: the event word becomes a host completion (R428, R460). -/
def State.beginEvent (s : State) (m : Move) : State :=
  match s.chanFor m.dst [4] with
  | (.error e, s) => s.moveDone m.slot e 0
  | (.ok ch, s) =>
    let s := (s.nameChan m.slot ch).modMove m.slot (fun m => { m with phase := .record })
    let s := s.modChan ch (fun c => { c with inCount := (c.inCount + 1) % 2 ^ 32, outCount := (c.outCount + 1) % 2 ^ 32 })
    s.postRecord (s.chan ch).ring (2 * 2 ^ 12) m.aux m.dst 0 false (some m.slot) none false

/-! ### The start of a move (R425, R427, R428) -/

/-- SPILL_WM and RESUME_WM. -/
def State.spillWm (s : State) : Nat := bits (s.reg 0x70010) 15 0
def State.resumeWm (s : State) : Nat := bits (s.reg 0x70010) 31 16

/-- The first access of an accepted move: its descriptor is checked and its operation starts. -/
def State.moveBegin (s : State) (m : Move) : State :=
  if m.err ≠ 0 then s.moveDone m.slot m.err 0
  else if bits m.w0 15 13 ≠ 0 then s.moveDone m.slot 0x0B 0
  else match m.op with
    | 1 =>
      if m.len < 1 ∨ 4096 < m.len then s.moveDone m.slot 9 0
      else if (m.ptr m.src m.len).isNone ∨ (m.ptr m.dst m.len).isNone then s.moveDone m.slot 0x0A 0
      else s.modMove m.slot (fun m => { m with phase := .ready })
    | 2 => s.beginSend m
    | 3 => s.beginTx m
    | 4 => s.beginValve m true
    | 5 => s.beginValve m false
    | 6 => s.beginImage m
    | 7 => s.beginImage m
    | 8 => s.beginTake m
    | 9 => s.beginEvent m
    | _ => s.moveDone m.slot 0x0B 0

/-- In stroke `q` the pump core accepts at most one descriptor of each bore, a thread's before a trigger's. -/
def State.pumpAccept (s : State) (q : Nat) : State :=
  (List.range 8).foldl (fun s lb =>
    let cand := s.pump.moves.filter (fun m => m.phase == .submitted && m.lb == lb && decide (m.issued + 3 ≤ q))
    match (cand.find? (·.byThread)).orElse (fun _ => cand.head?) with
    | some m => s.modMove m.slot (fun m => { m with phase := .accepted, accAt := q })
    | none => s) s

/-- One word of a COPY, within one word of its destination (R133, R428): the bytes are read and written. -/
def State.copyWord (s : State) (m : Move) : State × Move :=
  let (sp, a) := (m.ptr m.src m.len).getD (1, 0)
  let (dp, d) := (m.ptr m.dst m.len).getD (1, 0)
  let n := min (m.len - m.moved) (4 - (d + m.moved) % 4)
  let (bs, ue, s) := s.pumpRead m sp (a + m.moved) n
  let (ok, s) := s.pumpStore m dp (d + m.moved) bs
  (s, { m with moved := m.moved + (if ok then bs.length else 0), err := if ue.isSome || !ok then 0x0D else m.err })

/-- At most `k` words of a COPY, in ascending order, up to an uncorrectable one.
(DESIGN CHOICE, unsafe: log entry 117.) -/
def State.copyWords (s : State) (m : Move) : Nat → State × Move
  | 0 => (s, m)
  | k + 1 =>
    if m.len ≤ m.moved ∨ m.err ≠ 0 then (s, m)
    else
      let r := s.copyWord m
      r.1.copyWords r.2 k

/-- A stroke of a COPY: a free number of words, and its first one in the stroke in which it starts (R132, R133). -/
def State.stepCopy (s : State) (m : Move) : State :=
  let (s, c) := s.copyWords m (b2n (m.moved == 0) + Config.pick s.draws)
  { s with draws := s.draws + 1 }.modMove m.slot (fun m => { m with moved := c.moved, err := c.err })

/-- Spill stops (R416): SPILL_EN or DC_READY is 0, or FREE has reached RESUME_WM. -/
def State.spillStop (s : State) : State :=
  if s.pump.spilling && (!bit (s.reg 0x70000) 0 || !s.pump.dcReady || decide (s.resumeWm ≤ s.freeCells)) then
    s.modPump (fun p => { p with spilling := false })
  else s

/-- In stroke `q` the accepted moves start, those that copy or serve a valve make a step, and image moves follow those
before them. -/
def State.pumpStroke (s : State) (q : Nat) : State :=
  let start := s.pump.moves.filter (fun m => m.phase == .accepted && decide (m.accAt < q))
  let s := start.foldl (fun s m => s.moveBegin m) s
  let go := s.pump.moves
  let s := (go.filter (fun m => m.phase == .behind)).foldl (fun s m => s.imageGo m) s
  let s := (go.filter (fun m => m.phase == .ready)).foldl (fun s m => s.stepCopy m) s
  let s := (go.filter (fun m => m.phase == .valve)).foldl (fun s m => s.stepValve m) s
  let s := s.pumpAccept q
  (if s.pump.returned.isEmpty then s else s.modPump (fun p => { p with returned := [] })).spillStop

/-! ### Completion (R426, R430, R432) -/

/-- BASE and SIZE of a ring register. -/
def ringAt (w : Nat) : Nat × Nat := (bits w 18 4 * 16, if bits w 31 24 = 0 then 256 else bits w 31 24)

def State.pumpLb (s : State) (lb : Nat) : PumpLb := tget {} s.pump.lbs lb
def State.modPumpLb (s : State) (lb : Nat) (f : PumpLb → PumpLb) : State :=
  s.modPump (fun p => { p with lbs := tput p.lbs lb (f (s.pumpLb lb)) })

/-- Word 0 of a completion record. -/
def Move.word0 (m : Move) : Nat :=
  m.err + (match m.by_ with
    | .thread x q k => 2 ^ 8 * k + 2 ^ 12 * q + 2 ^ 20 * slotOf x
    | .trigger _ q _ => 2 ^ 12 * q + 2 ^ 15) + 2 ^ 16 * b2n m.ts.isSome + 2 ^ 17 * b2n m.tsLost + 2 ^ 18 * b2n m.late

/-- Write a completion record, or drop it where the ring is full (R432). -/
def State.complRecord (s : State) (m : Move) : State :=
  let (base, size) := ringAt (s.reg (0x70110 + 0x40 * m.lb))
  let p := s.pumpLb m.lb
  if (p.crTail % 512 + 512 - p.crHead) % 512 = size then
    (s.modPumpLb m.lb (fun p => { p with crLost := satInc 16 p.crLost })).pumpAlarm 6
  else
    let (ns, low) := tsWords m.ts
    let v := m.word0 + 2 ^ 32 * (m.result % 2 ^ 32) + 2 ^ 64 * ns + 2 ^ 96 * low
    (s.pumpRes .pump m.lb (base + 16 * (p.crTail % size)) 16 v).modPumpLb m.lb (fun p => { p with crTail := p.crTail + 1 })

/-- A move completes (R426). -/
def State.moveEnd (s : State) (m : Move) : State :=
  let s := s.modPump (fun p => { p with moves := p.moves.filter (fun n => n.slot != m.slot) })
  let s := match m.by_ with
    | .thread x _ k =>
      let s := s.doneBit .pump x (pdoneBit k)
      if m.err = 0x0C then s.doneBit .pump x flagTAGF else s
    | .trigger .. => s
  let ts := m.op == 3 && m.tsreq
  let s := if m.crec || ts || m.err != 0 then s.complRecord m else s
  let s := match m.ch with
    | some ch =>
      let c := s.chan ch
      let s := if ts && m.ts.isSome then s.tsqFree c.port m.result else s
      if m.ckdone && c.ckEn then s.ckDone c.ck else s
    | none => s
  let s := if bit (s.reg 0xF0000) 1 && bits (s.reg 0xF0000) 6 4 == m.lb then s.traceEvent 4 0x30 m.word0 (m.result % 2 ^ 32) else s
  s.raiseCore (srcPq m.lb m.q)

/-- What is left of a COPY (R428): a prefix where it meets an uncorrectable word. -/
def State.copyRun (s : State) (m : Move) : State × Move :=
  let r := s.copyWords m m.len
  (r.1, { r.2 with result := r.2.moved })

/-- Every word that a move writes into a reservoir has landed, and none that it has still to write is held by an atomic
access (R28, R133, R209, R426). -/
def State.landed (s : State) (m : Move) : Bool :=
  !(s.lb m.lb).delayed && (m.op != 7 || !(s.lb (s.chan (m.ch.getD 0)).lb).delayed) &&
  (match m.ptr m.dst m.len with
   | some (1, d) => m.phase != .ready || (wordsOf d m.len).all (fun w => ((s.lb m.lb).holders w).isEmpty)
   | _ => true)

/-- MOVE_COMPLETE: the move in slot `k` completes once its last access has taken effect (R426). -/
def execMoveComplete (k : Fin 512) (s : State) : Result :=
  match s.move k with
  | none => .next s
  | some m =>
    s.act (s.landed m && (m.phase == .done || m.phase == .ready))
      (if m.phase = .done then s.moveEnd m else (s.copyRun m).1.moveEnd (s.copyRun m).2)

/-- LAUNCH: the move in slot `k` joins its class queue at its launch time (R431). -/
def execLaunch (k : Fin 512) (s : State) : Result :=
  match s.move k with
  | some m =>
    let c := s.chan (m.ch.getD 0)
    s.act (m.phase == .launch && (m.launch.map (fun t => decide (t ≤ s.tb.now))).getD false)
      ((s.modMove k (fun m => { m with phase := .queued })).txAppend c.port c.cls k)
  | none =>
    match s.hmove k with
    | some m =>
      let c := s.chan m.ch
      s.act (m.phase == .launch && (m.launch.map (fun t => decide (t ≤ s.tb.now))).getD false)
        ((s.modHmove k (fun m => { m with phase := .queued })).txAppend c.port c.cls k)
    | none => .next s

/-! ### Responses to the pump's own commands -/

/-- The last response of a firmware move has come. -/
def State.moveHostEnd (s : State) (m : Move) : State :=
  if m.op = 7 then
    let c := s.chan (m.ch.getD 0)
    if m.err ≠ 0 then s.moveDone m.slot m.err 0
    else (s.pumpRes .pump c.lb c.imgRes m.data.length (ofBytes m.data)).moveDone m.slot 0 m.data.length
  else s.moveDone m.slot m.err (if m.err = 0 then m.result else m.moved)

/-- A refill has read its slot: tag check, slot back on the stack, reference replaced (R417, R438). -/
def State.refillEnd (s : State) (m : Move) : State :=
  let h := m.head.getD 0
  let ch := m.ch.getD 0
  let d := m.deep.getD 0
  let s := s.bufWrite h 0 m.data
  let s := s.dcPush d
  let (ok, s) := if m.err = 0 then s.tagCheck h (some ch) else (true, s)
  s.takeGive m ch h (if m.err ≠ 0 then m.err else if ok then (if (s.cell h).bad then 0x0F else 0) else 0x0C)

/-! ### Triggers (R433) -/

/-- The trigger has a move that is not complete, or its queue is full. -/
def State.trigBusy (s : State) (lb k q : Nat) : Bool :=
  s.pump.moves.any (fun m => match m.by_ with | .trigger l _ j => l == lb && j == k | _ => false) ||
  decide (s.qdepth lb q ≤ s.qlevel lb q) || s.freeSlot.isNone

/-- PUMP_TRIGGER: the event that reached trigger k of bore lb reads the descriptor and submits it (R433). -/
def execPumpTrigger (lb : Fin 8) (k : Fin 8) (s : State) : Result :=
  let i := 8 * lb.val + k.val
  let w := s.reg (0x70120 + 0x40 * lb + 4 * k)
  let q := bits w 26 24
  let a := bits w 18 4 * 16
  let s1 := s.modMf (fun m => { m with ptrgX := m.ptrgX.erase i })
  let rd (o : Nat) := readLE (s.lb lb).res (a + o) 4
  let ue := (wordsOf a 16).find? (fun w => s.isUe (.reservoir lb) w)
  let s2 := match ue with | some w => s1.eccRead .pump (.reservoir lb) w | none => s1
  s.act (s.mf.ptrgX.contains i)
    (if !bit w 31 then s1
     else if s.trigBusy lb k q then s1.inLatch (0x380 + i) 2 (fun x => { x with ovr := true })
     else s2.submit (.trigger lb q k) (rd 0) (rd 4) (rd 8) (rd 12) (s.strokes - 1) (if ue.isSome then 0x0D else 0))

/-! ### Spill and refill (R415-R417) -/

/-- Spill may run now (R414, R416): it has stopped on an empty stack until a slot returns. -/
def State.spillOn (s : State) : Bool :=
  bit (s.reg 0x70000) 0 && s.pump.dcReady && decide (0 < s.dcSlots) && !s.pump.dcFull &&
  (if s.pump.spilling then decide (s.freeCells < s.resumeWm) else decide (s.freeCells < s.spillWm))

/-- Channel `i` has a buffer that a visit may spill. -/
def State.spillable (s : State) (i : Nat) : Option Nat :=
  let c := s.chan i
  if c.spill ∧ 2 ≤ c.blCount then (s.blList i).find? (fun b => !isDeep b && (s.hdr b).refs == 1) else none

/-- The channel that the next visit serves: ascending index, wrapping (R416). -/
def State.spillPick (s : State) : Option Nat :=
  let is := s.pump.chans.map (·.1)
  ((is.filter (fun i => s.pump.spillNext ≤ i)) ++ (is.filter (fun i => i < s.pump.spillNext))).find? (fun i => (s.spillable i).isSome)

/-- SPILL_VISIT: channel `ch` is visited (R416): the tag check, a slot, and the writes on the cistern port. -/
def execSpillVisit (ch : Fin 16384) (s : State) : Result :=
  let s0 := if s.pump.spilling then s else (s.modPump (fun p => { p with spilling := true })).pumpAlarm 1
  match s.spillable ch, s.freeSlot with
  | some b, some k =>
    let h := b % 2 ^ 15
    s.act (s.spillOn && s.pump.spill.isNone && s.spillPick == some ch.val)
      (match s0.dcPop with
       | none => (s0.modPump (fun p => { p with dcFull := true, spilling := false })).pumpAlarm 2
       | some (d, s1) =>
         let (_, s1) := s1.tagCheck h (some ch)
         let s1 := match s1.bufUe h 0 (s1.cell h).len with
           | some w => (s1.eccRead .pump .cistern w).modCell h (fun c => { c with bad := true })
           | none => s1
         let s1 := { s1 with draws := s1.draws + 1 }
         let s1 := (s1.modPump (fun p => { p with
           spill := some { slot := k, ch := ch, head := h, deep := d }, spillNext := (ch.val + 1) % 16384 })).noteSlots
         let at_ := s1.dcBase + 16384 * d
         let c := s1.cell h
         (s1.askAll 1 k true at_ c.len (s1.bufRead h 0 c.len) 0 (.deep spillSlot)).ask 1 k true (at_ + 0x3FC0) 16
           (c.words.flatMap (toBytes 4)) 0 (.deep spillSlot 0x3FC0))
  | _, _ => .next s

/-- The writes of a spill have been answered: the deep BREF replaces the reference and the cells return (R416); an
error response leaves the buffer in the cistern with BAD set (R417). -/
def State.spillEnd (s : State) (p : Spill) : State :=
  let s := s.modPump (fun q => { q with spill := none })
  if p.err ∨ !(s.blList p.ch).contains (bref p.head) then (s.dcPush p.deep).modCell p.head (fun c => { c with bad := c.bad || p.err })
  else
    let s := s.modPump (fun q => { q with dcHdr := tput q.dcHdr p.deep (s.cell p.head) })
    let s := (s.blReplace p.ch (bref p.head) (deepRef p.deep)).returnCells (s.bufCells p.head)
    s.spillStop

/-- REFILL: cells are free for the oldest TAKE that waits for a deep buffer (R417). -/
def execRefill (s : State) : Result :=
  match s.pump.moves.find? (fun m => m.phase == .refill && m.head.isNone) with
  | none => .next s
  | some m =>
    let d := m.deep.getD 0
    let c := s.hdr (deepRef d)
    match s.allocBuf c.len { c with next := 0, last := false } with
    | none => .next s
    | some (h, s1) =>
      let s1 := s1.modMove m.slot (fun m => { m with head := some h, data := List.replicate c.len 0 })
      .next (s1.askAll 1 m.slot false (s1.dcBase + 16384 * d) c.len [] 0 (.deep m.slot))

/-! ### Registers (R444, R445) -/

/-- A write is discarded with CFG_ERR. -/
def State.pumpCfgErr (s : State) : State := s.pumpAlarm 9

/-- The sum of every QDEPTH and HDEPTH (R424). -/
def State.depthSum (s : State) : Nat :=
  ((List.range 64).map (fun i => s.qdepth (i / 8) (i % 8))).sum + ((List.range 8).map (fun p => bits (s.reg (0x70040 + 4 * p)) 6 0)).sum

/-- A depth as a write stores it. -/
def depthByte (w i : Nat) : Nat := min 64 (bits w (8 * i + 6) (8 * i))

/-- A write of QDEPTH or HDEPTH: discarded with CFG_ERR where the sum would exceed 512. -/
def State.depthWrite (s : State) (off w : Nat) : State :=
  let v := if off < 0x70100 then depthByte w 0
    else depthByte w 0 + 2 ^ 8 * depthByte w 1 + 2 ^ 16 * depthByte w 2 + 2 ^ 24 * depthByte w 3
  let s1 := s.setReg off v
  if 512 < s1.depthSum ∧ s.depthSum < s1.depthSum then s.pumpCfgErr else s1

/-- A write of PMP_CTRL (R415): DC_EN going to 1 starts the build of the stack; at 0 the deep cistern is off. -/
def State.pmpCtrlWrite (s : State) (w : Nat) : State :=
  let was := bit (s.reg 0x70000) 1
  let s := s.setReg 0x70000 (bits w 1 0)
  (if bit w 1 && !was then s.modPump (fun p => { p with dcBuilding := true, dcReady := false })
   else if !bit w 1 then s.modPump (fun p => { p with dcBuilding := false, dcReady := false })
   else s).spillStop

/-- A write of CR_HEAD: discarded with CFG_ERR where the difference would exceed SIZE (R432, R445). -/
def State.crHeadWrite (s : State) (lb w : Nat) : State :=
  let size := (ringAt (s.reg (0x70110 + 0x40 * lb))).2
  let h := bits w 8 0
  if size < ((s.pumpLb lb).crTail % 512 + 512 - h) % 512 then s.pumpCfgErr
  else s.modPumpLb lb (fun p => { p with crHead := h })

/-- RX_TAIL and RX_HEAD of a port's frame ring. -/
def State.rxTailOf (s : State) (n : Nat) : Nat := tget 0 s.pump.rxTail n
def State.rxHeadOf (s : State) (n : Nat) : Nat := tget 0 s.pump.rxHead n
def State.rxBind (s : State) (n : Nat) : Nat := s.reg (0x70800 + 16 * n)

/-- A write of PMP_RXHEAD (R435).
(DEDUCED, unsafe: log entry 72.) -/
def State.rxHeadWrite (s : State) (n w : Nat) : State :=
  let size := (ringAt (s.reg (0x70804 + 16 * n))).2
  let h := bits w 8 0
  if size < (s.rxTailOf n % 512 + 512 - h) % 512 then s.pumpCfgErr
  else s.modPump (fun p => { p with rxHead := tset 0 p.rxHead n h })

/-- A write of the word `w` to the pump register at offset `off`, RWL fields unlocked.
(DEDUCED, unsafe: log entry 90.) -/
def State.pmpWrite (s : State) (off w : Nat) : State :=
  if off = 0x70000 then s.pmpCtrlWrite w
  else if off = 0x70004 then s.modPump (fun p => { p with alarm := p.fresh.clear s.strokes p.alarm w })
  else if off = 0x70008 then s.setReg off (bits w 10 0)
  else if off = 0x70010 then s.setReg off (bits w 15 0 + 2 ^ 16 * max (bits w 31 16) (bits w 15 0))
  else if off = 0x70014 then s.setReg off (min 8192 (bits w 15 0))
  else if off = 0x70030 ∨ off = 0x70034 ∨ off = 0x70038 then
    if bit (s.reg 0x70000) 1 then s.pumpCfgErr
    else if s.locked then s
    else s.setReg off (if off = 0x70030 then bits w 31 14 * 2 ^ 14 else if off = 0x70034 then w else min 4194304 (bits w 22 0))
  else if 0x70040 ≤ off ∧ off < 0x70060 then s.depthWrite off w
  else if 0x70100 ≤ off ∧ off < 0x70300 then
    let lb := (off - 0x70100) / 0x40
    let o := (off - 0x70100) % 0x40
    if o < 8 then s.depthWrite off w
    else if o = 0x10 then s.setReg off (bits w 18 4 * 16 + 2 ^ 24 * bits w 31 24)
    else if o = 0x18 then s.crHeadWrite lb w
    else if 0x20 ≤ o then s.setReg off (bits w 18 4 * 16 + 2 ^ 24 * bits w 26 24 + 2 ^ 31 * bits w 31 31)
    else s
  else if 0x70800 ≤ off ∧ off < 0x70A00 then
    let n := (off - 0x70800) / 16
    let o := off % 16
    let en := bit (s.rxBind n) 7
    if o = 0 then
      if en then s.pumpCfgErr else s.setReg off (bits w 2 0 + 2 ^ 7 * bits w 7 7)
    else if o = 4 then
      if en then s.pumpCfgErr else s.setReg off (bits w 18 5 * 32 + 2 ^ 24 * bits w 31 24)
    else if o = 12 then s.rxHeadWrite n w
    else s
  else if off = 0x70C00 then s.setReg off (bits w 14 0)
  else s

/-- DC_ENABLE: a write to PMP_CTRL with DC_EN at 1 (R415). -/
def execDcEnable (w : Word) (s : State) : Result := .next (s.pmpCtrlWrite (putBits w.toNat 1 1 1))

/-- DC_READY: the stack is complete (R415); with DC_SLOTS 0 there is no deep cistern (R414). -/
def execDcReady (s : State) : Result :=
  s.act (s.pump.dcBuilding && decide (0 < s.dcSlots))
    (s.modPump (fun p => { p with
      dcBuilding := false, dcReady := true, dcFull := false, dcStack := [], dcNext := s.dcStackSlots, dcHdr := [] }))

/-- CR_HEAD_WRITE (R432). -/
def execCrHeadWrite (lb : Fin 8) (w : Word) (s : State) : Result := .next (s.crHeadWrite lb w.toNat)

/-- QDEPTH_WRITE: `reg` 0 to 15 are PMP_QDEPTH_LO and PMP_QDEPTH_HI of the bores, 16 to 23 PMP_HDEPTH (R424). -/
def execQdepthWrite (reg : Fin 24) (w : Word) (s : State) : Result :=
  .next (s.depthWrite
    (if reg.val < 16 then 0x70100 + 0x40 * (reg.val / 2) + 4 * (reg.val % 2) else 0x70040 + 4 * (reg.val - 16)) w.toNat)

end Sys2Proof.Machine
end

