-- ==== Sys2Proof/Machine/Outputs.lean ====
section
/-!
DEFINITION. The writes of a thread: its destinations (R74, R76, R115-R117, R136), and the outputs that a pair of
threads compares before they take effect (R505, R506).
-/

namespace Sys2Proof.Machine

/-! ### Effects of one output -/

/-- The units that a SYSWR does not reach (R225). -/
def protectedUnit (off : Nat) : Bool :=
  (0x02000 ≤ off && off < 0x03000) || (0xB0000 ≤ off && off < 0xC0000) || (0xF0000 ≤ off && off < 0x100000)

/-- ARG0 of a lock violation by a write of thread Lx at `pc` (R523). -/
def sysWho (x pc : Nat) : Nat := x + 2 ^ 8 + 2 ^ 12 * pc

/-- A result at its distance updates the image in the stroke in progress, before the writes of its bore that have done so
in the same stroke and that were issued later (R136). -/
def winInsert (q : Nat) (w : WinWrite) (l : List WinWrite) : List WinWrite :=
  let later (v : WinWrite) : Bool := v.rank == w.rank && v.at_ == q && decide (w.due < v.due)
  l.takeWhile (fun v => !later v) ++ [w] ++ l.dropWhile (fun v => !later v)

/-- A port-window or SYSWR write of Lx at code address `pc` that updates the image in stroke `due`, or now where that
stroke has come (R136, R224). -/
def State.winIssue (s : State) (x pc due off : Nat) (v : Word) : State :=
  let w : WinWrite := { due := due, rank := lbOf x, x := x, pc := pc, off := off, v := v }
  if due ≤ s.strokes then { s with winFifo := winInsert s.strokes { w with at_ := s.strokes } s.winFifo }
  else { s with winPend := s.winPend ++ [w] }

/-- A word put into the TX queue of valve `v` (R220): without a credit the overflow count increments. -/
def State.queuePut (s : State) (v : Nat) (w : Word) : State :=
  s.modValve v (fun q =>
    if q.credit = 0 then { q with nOverflow := sat255 q.nOverflow }
    else { q with credit := q.credit - 1, txCross := q.txCross ++ [⟨w, s.strokes, 0⟩] })

/-- The lease that a word or group lock of a thread of this logical bore gets, in microseconds (R487). -/
def State.threadLease (s : State) (x : Nat) : Nat := s.reg (0xA0040 + 4 * lbOf x)

/-- The thread whose well, reservoir, done bits and locks an output of Lx concerns: for a pair its leader. -/
def State.actor (s : State) (x : Nat) : Nat := ((s.trails x).map s.pairLead).getD x

/-- An output takes effect, issued by Lx at `pc`.  `hint` is the stroke at which a window write updates the image, or
the entry at which the search of SCHED starts. -/
def State.emit (s : State) (x pc hint : Nat) (o : Out) : State :=
  let y := s.actor x
  match o with
  | .win off v => s.winIssue x pc hint off v
  | .syswr off v => if protectedUnit off then s.sysViolation (sysWho x pc) off else s.winIssue x pc hint off v
  | .gbit a v => s.gbitWrite (s.strokes + 1) (lbOf x) a v
  | .qput v w => s.queuePut v w
  | .post u => if (s.lb (lbOf x)).shed then s else s.raiseAt (u % 1024) true (bit u 16) (bit u 16) (s.strokes + 1)
  | .pump q k w0 src dst aux => s.submit (.thread y q k) w0 src dst aux s.strokes 0
  | .sched t act => (s.schedAlloc hint (lbOf x) (timeT t) (timeEpoch t) act).2
  | .unsched e => s.unsched x e
  | .lockw a => (s.lockAcquire y (s.threadLease y) 1 (lbOf y) a).2
  | .unlkw a => (s.lockRelease y 1 (lbOf y) a pc).2
  | .lockg n => (s.groupAcquire y (some (s.threadLease y)) n).2
  | .unlkg n => (s.groupRelease y n pc).2

/-! ### Pairs (R505-R507) -/

/-- A disagreement of pair k: 1 a different output, 2 an output of the leader that the trailer does not match, 3 an
output of the trailer without one of the leader, 4 a CRD, CWR, CHAN or long vector. -/
def State.disagree (s : State) (k kind : Nat) : State :=
  s.modPair k (fun p => if p.diff.isSome then p else { p with diff := some kind })

/-- The leader's record of the stroke in progress is changed, or begun. -/
def State.leadRec (s : State) (k pc : Nat) (f : PairRec → PairRec) : State :=
  let old := (s.pair k).recs
  let new :=
    if old.any (fun r => r.stroke == s.strokes) then old.map (fun r => if r.stroke = s.strokes then f r else r)
    else old ++ [f { stroke := s.strokes, pc := pc, vals := [], outs := [] }]
  s.modPair k (fun p => { p with recs := new })

/-- The leader's record that the trailer meets in the stroke in progress. -/
def State.trailRec (s : State) (k : Nat) : Option PairRec := (s.pair k).recs.find? (fun r => r.stroke + 16 == s.strokes)

/-- Change that record. -/
def State.modTrailRec (s : State) (k : Nat) (f : PairRec → PairRec) : State :=
  s.modPair k (fun p => { p with recs := p.recs.map (fun r => if r.stroke + 16 = s.strokes then f r else r) })

/-- A value from outside the pair: the trailer gets what the leader got 16 strokes earlier (R505). -/
def State.outside (s : State) (x pc v : Nat) : Nat × State :=
  match s.leads x with
  | some k => (v, s.leadRec k pc (fun r => { r with vals := r.vals ++ [v] }))
  | none => match s.trails x with
    | none => (v, s)
    | some k => match (s.trailRec k).map (·.vals) with
      | some (w :: ws) => (w, s.modTrailRec k (fun r => { r with vals := ws }))
      | _ => (v, s)

/-- An output: a leader's is held, a trailer's takes effect where it is the one held (R506). -/
def State.output (s : State) (x pc hint : Nat) (o : Out) : State :=
  match s.leads x with
  | some k => s.leadRec k pc (fun r => { r with outs := r.outs ++ [o] })
  | none => match s.trails x with
    | none => s.emit x pc hint o
    | some k => match (s.trailRec k).map (·.outs) with
      | some (p :: ps) =>
        if p = o then (s.modTrailRec k (fun r => { r with outs := ps })).emit x pc hint o else s.disagree k 1
      | _ => s.disagree k 3

/-- The pair that Lx runs in. -/
def State.pairOf (s : State) (x : Nat) : Option Nat := (s.leads x).orElse (fun _ => s.trails x)

/-! ### Destinations -/

/-- A location that lies outside the thread's own bore. -/
def Loc.outer : Loc → Bool
  | .port _ => true
  | .bit a => decide (0x3000 ≤ a)
  | _ => false

/-- A write to the port window that updates the image in stroke `due`; a 64-bit write is two, the lower first. -/
def State.portPut (s : State) (x pc due off n v : Nat) : State :=
  let s := s.output x pc due (.win off (BitVec.ofNat 32 v))
  if n = 8 then s.output x pc due (.win (off + 4) (BitVec.ofNat 32 (v / 2 ^ 32))) else s

/-- Change a bit variable as an instruction of Lx at `pc` (R115-R117); none toggles it. -/
def State.bitPut (s : State) (x pc a : Nat) (v : Option Bool) : State :=
  if a < 0x3000 then s.bitWrite x a v else s.output x pc 0 (.gbit a v)

/-- Write `n` bytes of `v` at a location: the WRITE stage of an instruction of Lx at `pc` (R74, R76). -/
def writeLoc (s : State) (x pc : Nat) (atom : Bool) (l : Loc) (n v : Nat) : State :=
  match l with
  | .well a => s.wellPut x a n v
  | .res a => s.resIssue x atom a n v
  | .bit a => s.bitPut x pc a (some (v % 2 == 1))
  | .port off => s.portPut x pc (s.strokes + 3) off n v
  | .imm _ | .code _ | .cis _ => s

/-- A write that lands at once: a result at its distance, seen by every instruction from now on (R79).  A
port-window result never updates the image before three strokes after its issue (R136).
(DEDUCED, unsafe: log entry 30.) -/
def landLoc (s : State) (x pc issued : Nat) (l : Loc) (n v : Nat) : State :=
  match l with
  | .well a =>
    let (v, s) := s.sparing .thread (.well x) (s.th x).well a n v
    s.wellPut x a n v
  | .res a =>
    let (v, s) := s.sparing .thread (.reservoir (lbOf x)) (s.lb (lbOf x)).res a n v
    s.resPut (lbOf x) a n v
  | .port off => s.portPut x pc (issued + 3) off n v
  | _ => writeLoc s x pc false l n v

/-- The post-increments of an instruction: pointer word k advances by the sum of its operands, but for a word that
the instruction writes as a destination (R120, R122). -/
def advance (s : State) (x : Nat) (ops : List Opnd) (written : List (Nat × Nat)) : State :=
  let ks := (ops.filterMap (·.inc)).map (·.1)
  ks.eraseDups.foldl
    (fun s k =>
      if written.any (fun w => decide (w.1 < 4 * k + 4) && decide (4 * k < w.1 + w.2)) then s
      else
        let sum := ((ops.filterMap (·.inc)).filter (fun i => i.1 == k)).foldl (fun a i => a + i.2) 0
        let p := s.wellWord x (4 * k)
        s.wellPut x (4 * k) 4 (p - p % 2 ^ 29 + (p % 2 ^ 29 + sum) % 2 ^ 29))
    s

end Sys2Proof.Machine
end

