-- ==== Sys2Proof/Machine/Pins.lean ====
section
/-!
DEFINITION. Input conditioning and pin registers (chapter 08, R252, R253, R275-R280, R290, R291).
-/

namespace Sys2Proof.Machine

/-- Fields of PIN_COND⟨j⟩ (R291). -/
def State.pcond (s : State) (n j : Nat) : Nat := s.preg n (0x720 + 4 * j)
def condFilt (c : Nat) : Nat := max 1 (bits c 7 0)
def condEdges (c : Nat) : Nat := bits c 15 8
def condWindow (c : Nat) : Nat := 2 ^ (bits c 19 16 + 4)
def condPol (c : Nat) : Bool := bit c 20
def condForce (c : Nat) : Bool := bit c 21
def condStuck (c : Nat) : Nat := bits c 31 24 * 65536

/-- The conditioned level goes to `l`: an edge raises the pin's source (R280). -/
def State.condTo (s : State) (n j : Nat) (l : Bool) : State :=
  if (s.pin n j).cond = l then s
  else (s.modPin n j (fun p => { p with cond := l })).raiseLevel (srcPin n j) true l

/-- CHATTER and STUCK levels of a group as their manifold sources show them (R380). -/
def State.groupChat (s : State) (g : Nat) : Bool := (List.range 32).any (fun k => (tget {} s.pins (32 * g + k) : PinSt).chatter)
def State.groupStuck (s : State) (g : Nat) : Bool := (List.range 32).any (fun k => (tget {} s.pins (32 * g + k) : PinSt).stuck)

/-- The chatter limiter freezes the pin (R278, R280). -/
def State.chatterLatch (s : State) (n j : Nat) : State :=
  let rose := !(s.pin n j).chatter
  let s := s.modPin n j (fun p => { p with frozen := true, chatter := true, fresh := p.fresh.set s.moment 1 })
  let s := if rose then s.raiseAt (srcChat (n / 4)) true true true (s.strokes + 2) else s
  s.event 8 14 0x20 (n + 256 * j) 0

/-- A new filtered level reaches the chatter limiter; `first` marks an edge at a re-arm (R278). -/
def State.chatterEdge (s : State) (n j : Nat) : State :=
  let c := s.pcond n j
  let p := s.pin n j
  if p.frozen then s
  else if condEdges c = 0 then s
  else if condEdges c < p.chatCount + 1 then s.chatterLatch n j
  else s.modPin n j (fun p => { p with chatCount := p.chatCount + 1 })

/-- A chatter window ends (R278). -/
def State.chatterWindow (s : State) (n j : Nat) : State :=
  s.modPin n j (fun p => { p with chatSamples := 0, chatCount := 0 })

/-- The window of pin j has had all its samples; a PIN_COND write that waits for the next sample restarts it there. -/
def State.chatterDue (s : State) (n j : Nat) : Bool :=
  !(s.pin n j).condWrite && decide (condWindow (s.pcond n j) ≤ (s.pin n j).chatSamples)

/-- The stuck detector finds the pin stuck (R279, R280). -/
def State.stuckLatch (s : State) (n j : Nat) : State :=
  let c := s.pcond n j
  let rose := !(s.pin n j).stuck
  let s := s.modPin n j (fun p => { p with stuck := true, stuckFired := true, forced := condForce c })
  let s := if rose then s.raiseAt (srcStuck (n / 4)) true true true (s.strokes + 2) else s
  let s := s.event 8 14 0x20 (n + 256 * j + 4096) 0
  if condForce c then s.condTo n j (!condPol c) else s

/-- The filtered level has equalled ACT_POL for the whole timeout and no detection has been made in this run; a write that
waits for the next sample restarts the count there (R279, R280). -/
def State.stuckDue (s : State) (n j : Nat) : Bool :=
  let c := s.pcond n j
  let p := s.pin n j
  decide (0 < condStuck c) && decide (condStuck c ≤ p.stuckCnt) && !p.stuckFired &&
  !p.condWrite && !p.stuckClr

/-- A detection that the samples so far have made and that no command has taken. -/
def State.stuckSettle (s : State) (n j : Nat) : State := if s.stuckDue n j then s.stuckLatch n j else s

/-- One sample of one pin through filter, limiter and stuck detector (R275-R280). -/
def State.samplePin (s : State) (n j : Nat) : State :=
  let c := s.pcond n j
  let p := s.pin n j
  -- restarts that act at this sample
  let s := if p.condWrite then s.modPin n j (fun p => { p with
      condWrite := false, fcnt := 0, stuckCnt := 0, stuckFired := false, chatSamples := 0, chatCount := 0 }) else s
  let s := if p.rearm then s.modPin n j (fun p => { p with
      rearm := false, frozen := false, chatSamples := 0, chatCount := 0 }) else s
  let s := if p.stuckClr then s.modPin n j (fun p => { p with stuckClr := false, stuckCnt := 0, stuckFired := false }) else s
  let s := if s.chatterDue n j then s.chatterWindow n j else s
  -- glitch filter
  let q := s.pin n j
  let cnt := if q.raw = q.filt then 0 else q.fcnt + 1
  let passes := decide (q.raw ≠ q.filt) && decide (condFilt c ≤ cnt)
  let s := s.modPin n j (fun p => { p with
    fcnt := if passes then 0 else cnt, filt := if passes then p.raw else p.filt
    chatSamples := p.chatSamples + 1 })
  let late := p.rearm && !passes && (s.pin n j).filt != (s.pin n j).cond && !(s.pin n j).forced
  let s := if passes || late then s.chatterEdge n j else s
  -- stuck detector
  let act := (s.pin n j).filt == condPol c
  let s := s.modPin n j (fun p => { p with
    stuckCnt := if act then p.stuckCnt + 1 else 0
    stuckFired := p.stuckFired && act
    forced := p.forced && act })
  let r := s.pin n j
  if r.frozen then s
  else if r.forced then s.condTo n j (!condPol c)
  else s.condTo n j r.filt

/-! ### Register writes -/

/-- A write to PIN_SAMPLE: a new origin, at which the counts of all eight pins restart (R275). -/
def State.pinSampleWrite (s : State) (n w : Nat) : State :=
  let s := s.setReg (portBase n + 0x704) (bits w 7 0)
  (List.range 8).foldl
    (fun s j => (s.stuckSettle n j).modPin n j (fun p => { p with fcnt := 0, chatSamples := 0, chatCount := 0, stuckCnt := 0, stuckFired := false })) s

/-- A write to PIN_COND⟨j⟩ takes effect at the next sample (R280). -/
def State.pinCondWrite (s : State) (n j w : Nat) : State :=
  ((s.stuckSettle n j).setReg (portBase n + 0x720 + 4 * j) (mix 0 0xFF3FFFFF w)).modPin n j (fun p => { p with condWrite := true })

/-- A change of level of the CHAT or STUCK source of a group when its last latch clears (R380). -/
def State.groupLevels (s s' : State) (g : Nat) : State :=
  let t := if s.groupChat g && !s'.groupChat g then s'.raiseLevel (srcChat g) false false else s'
  if s.groupStuck g && !t.groupStuck g then t.raiseLevel (srcStuck g) false false else t

/-- A write to PIN_ALARM: clearing CHATTER re-arms the limiter, clearing STUCK restarts its count (R278, R279). -/
def State.pinAlarmWrite (s : State) (n w : Nat) : State :=
  let t := (List.range 8).foldl
    (fun s j =>
      let s := s.stuckSettle n j
      let h := (s.pin n j).fresh.held s.moment
      let s := if bit w j && !bit h 0 then s.modPin n j (fun p => { p with chatter := false, rearm := p.rearm || p.frozen }) else s
      if bit w (8 + j) && !bit h 1 then s.modPin n j (fun p => { p with stuck := false, stuckClr := true }) else s) s
  s.groupLevels t (n / 4)

/-- The owner that a write stores for pin j (R253, R291). -/
def ownerOf (lane : Bool) (j v : Nat) : Nat :=
  if 4 < v then 4 else if lane && (j < 6 || v < 2) then 4 else v

/-- A write to PIN_OWN: a pin without owner has its enable at 0 (R252, R253). -/
def State.pinOwnWrite (s : State) (n w : Nat) : State :=
  let lane := s.laneMode n
  (List.range 8).foldl
    (fun s j =>
      let o := ownerOf lane j (bits w (3 * j + 2) (3 * j))
      let s := s.setReg (portBase n + 0x700) (putBits (s.preg n 0x700) (3 * j + 2) (3 * j) o)
      if o = 4 then s.modPin n j (fun p => { p with oe := false }) else s) s

/-- A write to PIN_FLAGS: the last of its GCLK cycle, in which a flag that a valve sets ends set (R267). -/
def State.pinFlagsWrite (s : State) (n w : Nat) : State :=
  let c := s.flagCyc n 4
  s.putCyc n { c with clr := 255, set := c.set ||| bits w 7 0 }

/-- A port enters frame-lane mode: V0 and V1 stop, PP[5:0] lose their owners and are released (R253). -/
def State.enterLane (s : State) (n : Nat) : State :=
  let s := (s.valveStop (4 * n)).valveStop (4 * n + 1)
  s.pinOwnWrite n (s.preg n 0x700)

/-! ### The commands -/

/-- PIN_IN: a pin input changes (R275).
(DESIGN CHOICE, safe: log entry 78.) -/
def execPinIn (n : Fin 32) (j : Fin 8) (level : Bool) (s : State) : Result :=
  .next (s.modPin n j (fun p => { p with raw := level }))

/-- SAMPLE_POINT: every pin of the port is sampled (R275). -/
def execSamplePoint (n : Fin 32) (s : State) : Result :=
  let t := (List.range 8).foldl
    (fun s j => (s.stuckSettle n j).samplePin n j) s
  s.act (s.up (3 + n.val / 4)) t

/-- CHATTER_WINDOW (R278). -/
def execChatterWindow (n : Fin 32) (j : Fin 8) (s : State) : Result :=
  s.act (s.chatterDue n j) (s.chatterWindow n j)

/-- STUCK (R11, R279). -/
def execStuck (n : Fin 32) (j : Fin 8) (s : State) : Result :=
  s.act (s.stuckDue n j) ((s.stuckLatch n j).modPin n j (fun p => { p with fresh := p.fresh.set s.moment 2 }))

/-- PIN_SAMPLE_WRITE (R275). -/
def execPinSampleWrite (n : Fin 32) (w : Word) (s : State) : Result := .next (s.pinSampleWrite n w.toNat)

/-- PIN_COND_WRITE (R280). -/
def execPinCondWrite (n : Fin 32) (j : Fin 8) (w : Word) (s : State) : Result := .next (s.pinCondWrite n j w.toNat)

/-- CHATTER_REARM: a write to PIN_ALARM that names CHATTER bits (R278). -/
def execChatterRearm (n : Fin 32) (w : Word) (s : State) : Result := .next (s.pinAlarmWrite n (bits w.toNat 7 0))

/-- STUCK_CLEAR: a write to PIN_ALARM that names STUCK bits (R279). -/
def execStuckClear (n : Fin 32) (w : Word) (s : State) : Result := .next (s.pinAlarmWrite n (bits w.toNat 15 8 * 256))

/-- PIN_OWN_WRITE (R252). -/
def execPinOwnWrite (n : Fin 32) (w : Word) (s : State) : Result := .next (s.pinOwnWrite n w.toNat)

/-- PIN_FLAGS_WRITE (R267). -/
def execPinFlagsWrite (n : Fin 32) (w : Word) (s : State) : Result := .next (s.pinFlagsWrite n w.toNat)

end Sys2Proof.Machine
end

