-- ==== Sys2Proof/Machine/Ports.lean ====
section
/-!
DEFINITION. The MAC of a frame-lane port (chapter 09, with R413, R434, R435): reception, forwarding in ring pairs,
duplicate discard, transmission, gate schedules, one-step correction, counters and the registers of a port page.
-/

namespace Sys2Proof.Machine

/-! ### Configuration -/

/-- DELIVER_BAD, PAD_EN and MAX_LEN of PORT_MAC_CFG. -/
def State.deliverBad (s : State) (n : Nat) : Bool := bit (s.preg n 0x004) 0
def State.padEn (s : State) (n : Nat) : Bool := bit (s.preg n 0x004) 1
def State.maxLen (s : State) (n : Nat) : Nat := bits (s.preg n 0x004) 29 16
/-- RATE of PORT_MODE: 2 is 1000 Mb/s. -/
def State.rate (s : State) (n : Nat) : Nat := bits (s.preg n 0x000) 2 1
/-- A byte time in ns (R296). -/
def State.byteNs (s : State) (n : Nat) : Nat := if s.rate n = 2 then 8 else if s.rate n = 1 then 80 else 800

/-- PARTNER and KIND of PORT_PT_CFG. -/
def State.ptPartner (s : State) (n : Nat) : Nat := bits (s.preg n 0x014) 4 0
def State.ptKind (s : State) (n : Nat) : Nat := bits (s.preg n 0x014) 6 5

/-- Two ports name each other as a pair (R315, the first two conditions and the mode). -/
def State.namedPair (s : State) (n m : Nat) : Bool :=
  m != n && s.ptPartner n == m && s.ptPartner m == n && s.ptKind n == s.ptKind m && s.ptKind n != 0 &&
  s.laneMode n && s.laneMode m

/-- A byte time, and a transfer of the lane, in units of elapsed time (R296). -/
def State.byteUnits (s : State) (n : Nat) : Nat := s.byteNs n * 2 ^ 26
def State.transferUnits (s : State) (n : Nat) : Nat := if s.rate n = 2 then s.byteUnits n else s.byteUnits n / 2
/-- IPG of PORT_MAC_CFG in byte times (R298). -/
def State.ipg (s : State) (n : Nat) : Nat := bits (s.preg n 0x004) 12 8

/-! ### The transmit lane (R293-R298) -/

/-- One strobed transfer of the transmit lane: lane_txd, lane_tx_en and lane_tx_er (R295). -/
structure LaneXfer where
  txd : Nat
  en : Bool
  er : Bool
  deriving DecidableEq, Repr

/-- The transfers of a byte: one at 1000 Mb/s, else two with the low nibble first and bits [7:4] at 0 (R295, R296). -/
def byteXfers (rate : Nat) (er : Bool) (b : Nat) : List LaneXfer :=
  if rate = 2 then [⟨b, true, er⟩] else [⟨b % 16, true, er⟩, ⟨b / 16 % 16, true, er⟩]

/-- What the lane has carried for the last frame: 7 preamble bytes, the SFD, the frame, its FCS, with lane_tx_er at 1 in
the FCS of a poisoned frame, and the idle of IPG byte times after it (R298, R321).  In pin mode the four outputs are held
at 0: there is no transfer (R293). -/
def State.laneSent (s : State) (n : Nat) : List LaneXfer :=
  let p := s.port n
  let r := s.rate n
  if !s.laneMode n || p.wire.isEmpty then []
  else
    let k := p.wire.length - 4
    (List.replicate 7 0x55 ++ [0xD5] ++ p.wire.take k).flatMap (byteXfers r false) ++
    (p.wireHalf.map (fun h => [⟨h, true, false⟩])).getD [] ++ (p.wire.drop k).flatMap (byteXfers r p.wirePoison) ++
    List.replicate (s.ipg n * (if r = 2 then 1 else 2)) ⟨0, false, false⟩

/-- The partner of a port whose ring pair is formed (R315). -/
def State.ringPair (s : State) (n : Nat) : Option Nat :=
  let m := s.ptPartner n
  if s.namedPair n m && s.rate n == s.rate m && s.pstate n == 2 && s.pstate m == 2 then some m else none

/-- The shared settings of a pair: those of the lower-numbered port. -/
def State.pairCfg (s : State) (n m : Nat) : Nat := s.preg (min n m) 0x014

/-- Add to a port counter (R338).
(DEDUCED, unsafe: log entry 55.) -/
def State.portCount (s : State) (n k d : Nat) : State :=
  s.modPort n (fun p => { p with cnt := tset 0 p.cnt k ((tget 0 p.cnt k + d) % 2 ^ 32) })

/-- Set CFG_ERR of PORT_ERR. -/
def State.portCfgErr (s : State) (n : Nat) : State := s.modPort n (fun p => { p with cfgErr := true, fresh := p.fresh.set s.moment 1 })

/-! ### Fields of a frame -/

/-- A number in network byte order: `k` bytes from `i`; absent bytes read as 0. -/
def netAt (bs : List Nat) (i k : Nat) : Nat := (List.range k).foldl (fun v j => v * 256 + bs.getD (i + j) 0) 0

/-- The finished IEEE 802.3 FCS of bytes, as a number sent low byte first. -/
def fcsOf (bs : List Nat) : Nat := crcBytes poly32 0xFFFFFFFF bs ^^^ 0xFFFFFFFF

/-- The poisoned form of R321: the bytes sent, then the complement of their FCS. -/
def poisoned (bs : List Nat) : List Nat := bs ++ toBytes 4 (fcsOf bs ^^^ 0xFFFFFFFF)

/-- The poisoned form where a single nibble follows the bytes: the FCS runs over its four bits too.
(DEDUCED, unsafe: log entry 48.) -/
def poisonedHalf (bs : List Nat) (h : Nat) : List Nat :=
  bs ++ toBytes 4 (crcShift poly32 4 (crcBytes poly32 0xFFFFFFFF bs ^^^ h))
/-- Bytes with their FCS. -/
def sealed_ (bs : List Nat) : List Nat := bs ++ toBytes 4 (fcsOf bs)

/-- The frame's bytes without its FCS. -/
def bodyOf (bs : List Nat) : List Nat := bs.take (bs.length - 4)
/-- The FCS matches. -/
def fcsGood (bs : List Nat) : Bool := decide (4 ≤ bs.length) && ofBytes (bs.drop (bs.length - 4)) == fcsOf (bodyOf bs)

/-- DA and SA as numbers with wire byte 0 in bits [7:0], as exact entries hold them. -/
def daOf (bs : List Nat) : Nat := ofBytes (bs.take 6)
def saOf (bs : List Nat) : Nat := ofBytes ((bs.drop 6).take 6)

/-- HSR tag: where it stands, or an 802.1Q tag before it (R327); its sequence number.
(DEDUCED, safe: log entry 54.) -/
def hsrSeq (bs : List Nat) : Option Nat :=
  if 18 ≤ bs.length ∧ netAt bs 12 2 = 0x892F then some (netAt bs 16 2)
  else if 22 ≤ bs.length ∧ netAt bs 12 2 = 0x8100 ∧ netAt bs 16 2 = 0x892F then some (netAt bs 20 2)
  else none

/-- PRP trailer: the six bytes before the FCS (R327); its sequence number. -/
def prpSeq (bs : List Nat) : Option Nat :=
  let l := bs.length
  let size := netAt bs (l - 8) 2 % 4096
  if 24 ≤ l ∧ netAt bs (l - 6) 2 = 0x88FB ∧ (size = l - 18 ∨ (netAt bs 12 2 = 0x8100 ∧ size = l - 22)) then
    some (netAt bs (l - 10) 2)
  else none

/-- The key of a duplicate-table entry: SA and sequence number. -/
def dupKey (bs : List Nat) (seq : Nat) : Nat := saOf bs + 2 ^ 48 * seq

/-- The tags ahead of the EtherType shift every offset: an HSR tag by 6, then an 802.1Q tag by 4 (R334). -/
def tagShift (bs : List Nat) : Nat :=
  let h := if netAt bs 12 2 = 0x892F then 6 else 0
  h + (if netAt bs (12 + h) 2 = 0x8100 then 4 else 0)

/-- An event message (R334): the offset of its correctionField and the encapsulation, 0 layer 2, 1 IPv4, 2 IPv6. -/
def eventMsg (bs : List Nat) : Option (Nat × Nat) :=
  let d := tagShift bs
  let et := netAt bs (12 + d) 2
  let at_ (h k : Nat) : Option (Nat × Nat) :=
    if h + d + 16 ≤ bs.length ∧ bs.getD (h + d) 0 % 16 < 4 then some (h + d + 8, k) else none
  if et = 0x88F7 then at_ 14 0
  else if et = 0x0800 ∧ bs.getD (14 + d) 0 % 16 = 5 ∧ bs.getD (23 + d) 0 = 17 ∧ netAt bs (36 + d) 2 = 319 then at_ 42 1
  else if et = 0x86DD ∧ bs.getD (20 + d) 0 = 17 ∧ netAt bs (56 + d) 2 = 319 then at_ 62 2
  else none

/-- Network-order bytes of a number. -/
def netBytes (k v : Nat) : List Nat := (toBytes k v).reverse

/-- Swap the two bytes of a 16-bit value. -/
def swap16 (v : Nat) : Nat := v / 256 % 256 + v % 256 * 256

/-- The UDP/IPv6 compensation (R336): the last two payload bytes take up the change of the correctionField at `c`.
(DEDUCED, unsafe: log entry 57.) -/
def compensate (old new : List Nat) (c : Nat) : List Nat :=
  let udp := c - 16
  let last := udp + netAt old (udp + 4) 2 - 2
  if last < c + 8 ∨ old.length < last + 2 then new
  else
    let words (b : List Nat) := ((List.range 4).map (fun i => netAt b (c + 2 * i) 2)).sum
    let odd := decide ((last - udp) % 2 = 1)
    let cur := netAt old last 2
    let v := ((if odd then swap16 cur else cur) + words old + 4 * 65535 - words new) % 65535
    setSlice new last (netBytes 2 (if odd then swap16 v else v))

/-- The one-step correction of a frame (R335, R336): Te and Ti in units of 2^-48 ns with their epochs.  The
counter of R338 that counts the frame, and the bytes as they leave. -/
def oneStep (bs : List Nat) (te ee ti ei adj : Nat) : Option (Nat × List Nat) :=
  match eventMsg bs with
  | none => none
  | some (c, k) =>
    if k = 1 ∧ netAt bs (c - 10) 2 ≠ 0 then some (28, bs)
    else if ee ≠ ei then some (29, bs)
    else
      let d : Int := ((te : Int) - ti) / ((2 ^ 32 : Nat) : Int)
      let v := wrap 64 ((netAt bs c 8 : Int) + d + sgn 16 adj * 4096)
      let new := setSlice bs c (netBytes 8 v)
      some (27, if k = 2 then compensate bs new c else new)

/-! ### Duplicate tables (R326-R331) -/

/-- The entry of a key. -/
def State.dupFind (s : State) (low key : Nat) : Option DupEntry := (s.port low).dup.find? (fun e => e.key == key)

/-- Enter a key; a full table loses its oldest entry (R326). -/
def State.dupAdd (s : State) (low key : Nat) (pending : Bool) : State :=
  let full := decide (4096 ≤ (s.port low).dup.length)
  let s := if full then (s.modPort low (fun p => { p with dup := p.dup.drop 1 })).portCount low 30 1 else s
  s.modPort low (fun p => { p with dup := p.dup ++ [{ key := key, dupFwd := true, pending := pending, made := s.tb.elapsed }] })

/-- Confirm a key, entering it where the table does not hold it. -/
def State.dupConfirm (s : State) (low key : Nat) : State :=
  if (s.dupFind low key).isSome then
    s.modPort low (fun p => { p with dup := p.dup.map (fun e => if e.key = key then { e with pending := false, dupFwd := true } else e) })
  else s.dupAdd low key false

/-- Remove the PENDING entry of a key (R328). -/
def State.dupRemove (s : State) (low key : Nat) : State :=
  s.modPort low (fun p => { p with dup := p.dup.filter (fun e => !(e.key == key && e.pending)) })

/-! ### Gates (R311-R314) -/

/-- The group copy of the master time (R359).
(DEDUCED, unsafe: log entry 88.) -/
def State.groupTime (s : State) (n : Nat) : Nat := (tget {} s.tb.gcopies (groupOf n) : GCopy).time

/-- BASE, in the same 2^32 seconds as `t`. -/
def State.gateBase (s : State) (n t : Nat) : Nat :=
  (t / secT / 2 ^ 32 * 2 ^ 32 + s.preg n 0x024) * secT + s.preg n 0x028 * nsT

/-- Duration of a gate entry in ns. -/
def gateDur (w : Nat) : Nat := max 64 (bits w 23 0)

/-- The words of a run as they stand in the list memory: its entries in order. -/
def State.gateRun (s : State) (n start len : Nat) : List Nat :=
  (List.range len).map (fun i => s.preg n (0x100 + 4 * ((start + i) % 256)))

/-- The place in a run at `ns` after the start of its cycle: index of the entry, and ns until it ends. -/
def gatePlace : List Nat → Nat → Nat → Nat × Nat
  | [], _, i => (i, 0)
  | w :: ws, ns, i => if ns < gateDur w then (i, gateDur w - ns) else gatePlace ws (ns - gateDur w) (i + 1)

/-- Cycle number, index in the run and whole ns left of the entry that a time selects; none before BASE (R311). -/
def State.gateSelect (s : State) (n : Nat) (run : List Nat) (t : Nat) : Option (Nat × Nat × Nat) :=
  let c := (run.map gateDur).sum
  let b := s.gateBase n t
  if t < b ∨ c = 0 then none
  else
    let ns := (t - b) / nsT
    let p := gatePlace run (ns % c) 0
    some (ns / c, p.1, if (t - b) % nsT = 0 then p.2 else p.2 - 1)

/-- Class `c` stays open for `need` ns: `left` ns of the entry in force, then the entries after it. -/
def gateOpen (c : Nat) (need left : Nat) : List Nat → Bool
  | [] => decide (need ≤ left)
  | w :: ws =>
    if need ≤ left then true
    else if bit w (24 + c) then gateOpen c (need - left) (gateDur w) ws
    else false

/-- The guard of R312 for a frame of wire length `wire` in class `c`. -/
def State.gateAdmits (s : State) (n c wire : Nat) : Bool :=
  let p := s.port n
  match (if p.gateEn then p.gateWord else none) with
  | none => true
  | some w =>
    match s.gateSelect n p.gateWords (s.groupTime n) with
    | none => true
    | some (_, i, left) =>
      let run := p.gateWords
      let rest := run.drop (i + 1) ++ run.take (i + 1)
      bit w.toNat (24 + c) &&
        (rest.all (fun w => bit w (24 + c)) || gateOpen c ((8 + wire) * s.byteNs n) left rest)

/-! ### Pause (R306, R307) -/

/-- No frame of class `c` starts. -/
def State.pausedClass (s : State) (n c : Nat) : Bool := decide (0 < (s.port n).pause) && bit (s.preg n 0x00C) (8 + c)

/-! ### Filters (R302) -/

/-- The exact entries in effect that hold an address. -/
def State.exactHits (s : State) (n a : Nat) : List Nat :=
  ((s.port n).exact.map (·.2)).filter (fun e => bit e 48 && e % 2 ^ 48 == a)

/-- The address belongs to this node. -/
def State.ownAddr (s : State) (n a : Nat) : Bool := (s.exactHits n a).any (fun e => bit e 49)

/-- The hash bin of an address is 1. -/
def State.hashHit (s : State) (n : Nat) (bs : List Nat) : Bool :=
  let h := crcBytes poly32 0xFFFFFFFF (bs.take 6) % 512
  bit (s.preg n (0x740 + 4 * (h / 32))) (h % 32)

/-- The filter decision. -/
def State.accepts (s : State) (n : Nat) (bs : List Nat) : Bool :=
  let f := s.preg n 0x008
  let hits := s.exactHits n (daOf bs)
  if hits.any (fun e => bit e 50) then false
  else if bit f 0 then true
  else if daOf bs = 2 ^ 48 - 1 then bit f 2
  else if !hits.isEmpty then true
  else bit (bs.getD 0 0) 0 && (bit f 1 || s.hashHit n bs)

/-! ### What a received frame is (R303-R306) -/

structure RxInfo where
  len : Nat
  fcsBad : Bool
  laneEr : Bool
  poison : Bool
  trunc : Bool
  giant : Bool
  runt : Bool
  /-- Data words were discarded at the receive crossing (R26). -/
  ovr : Bool
  /-- lane_rx_er was 1 in a transfer of the frame. -/
  rxEr : Bool
  /-- A PAUSE frame; any frame with EtherType 0x8808. -/
  pause : Bool
  ctrl : Bool
  deriving DecidableEq, Repr

/-- Classify a frame. -/
def State.rxInfo (s : State) (n : Nat) (f : RxFrame) : RxInfo :=
  let bs := f.bytes.map (·.toNat)
  let l := bs.length
  let trunc := decide (16000 < l)
  let last4 := decide (4 ≤ l) && (List.range 4).all (fun i => f.er.contains (l - 4 + i))
  let poison := last4 && ofBytes (bs.drop (l - 4)) == (fcsOf (bodyOf bs) ^^^ 0xFFFFFFFF)
  let ovr := decide (f.kept < min l 16000)
  let er := f.er.any (fun i => decide (i < l) && !(poison && decide (l ≤ i + 4)))
  let ctrl := netAt bs 12 2 == 0x8808
  { len := l, fcsBad := !trunc && !fcsGood bs, laneEr := er || ovr, poison := poison, trunc := trunc
    giant := decide (s.maxLen n < l), runt := decide (l < 64), ovr := ovr, ctrl := ctrl, rxEr := f.er.any (fun i => decide (i < l))
    pause := ctrl && netAt bs 14 2 == 1 && fcsGood bs && decide (64 ≤ l) && decide (l ≤ s.maxLen n) &&
             (daOf bs == 0x010000C28001 || s.ownAddr n (daOf bs)) }

/-- The counter of the first flag in the order of R305; none for a good frame.
(DEDUCED, unsafe: log entry 50.) -/
def RxInfo.flagCounter (i : RxInfo) : Option Nat :=
  if i.trunc then some 6 else if i.giant then some 5 else if i.runt then some 3 else if i.poison then some 8
  else if i.laneEr then some 7 else if i.fcsBad then some 2 else none

/-- The FCS is bad or a lane error occurred. -/
def RxInfo.damaged (i : RxInfo) : Bool := i.fcsBad || i.laneEr || i.poison

/-! ### The forwarding decision (R316-R318, R323, R328, R330) -/

/-- What the bypass does with a frame. -/
inductive Fwd where
  | none
  /-- Sent cut-through on port `m`. -/
  | sent (m : Nat)
  /-- Started on port `m`, then refused (SPEC 1). -/
  | cut (m : Nat)
  /-- Forwarded later from the cistern. -/
  | deferred (m : Nat)
  deriving DecidableEq, Repr

/-- FWD of R316 in transfers. -/
def fwdTransfers (cfg rate : Nat) : Nat :=
  if bit cfg 8 then (if bit cfg 9 then (if rate = 2 then 11 else 19) else 3) else if rate = 2 then 25 else 50

/-- Egress transfers that have started when `k` ingress bytes have been sampled, those after the SFD (R316, R318). -/
def sentBy (cfg rate k : Nat) : Nat := (if rate = 2 then k else 2 * k) - fwdTransfers cfg rate

/-- The egress SFD has been driven when `k` ingress bytes have been sampled. -/
def sfdBy (cfg rate k : Nat) : Bool := decide (fwdTransfers cfg rate ≤ (if rate = 2 then k else 2 * k))

/-- The wire of a frame of bytes `bs` that is cut after `t` transfers: its bytes and the single nibble before the FCS
(R318, R321). -/
def cutWire (rate t : Nat) (bs : List Nat) : List Nat × Option Nat :=
  if rate = 2 then (poisoned (bs.take t), none)
  else if t % 2 = 0 then (poisoned (bs.take (t / 2)), none)
  else (poisonedHalf (bs.take (t / 2)) (bs.getD (t / 2) 0 % 16), some (bs.getD (t / 2) 0 % 16))

/-- The frame's copy was decided first by the frame still running on the partner (R330). -/
def State.coincident (s : State) (m : Nat) (f : RxFrame) (key : Option Nat) : Bool :=
  f.overlap && key.isSome && (s.port m).lastKey == key

/-- Forwarding is refused under a rule of R317 other than rule 3. -/
def State.fwdRefused (s : State) (n cfg kind : Nat) (bs : List Nat) : Bool :=
  s.ownAddr n (saOf bs) ||
  (s.ownAddr n (daOf bs) && !bit (bs.getD 0 0) 0 && !bit cfg 10) ||
  (kind == 2 && (hsrSeq bs).isNone && !bit cfg 11) ||
  decide (bs.length < 18)

/-- The TXHOLD level of port `m`: while it is 1 no frame starts there (R386). -/
def State.txHeld (s : State) (m : Nat) : Bool := tget false s.mf.txhold m

/-- A frame is on the transmitter of port `m`. -/
def State.txBusy (s : State) (m : Nat) : Bool :=
  (s.port m).tx.isSome || decide (s.tb.elapsed < (s.port m).txTill.getD 0)

/-- The decision of R317 and what follows from it; an egress that TXHOLD holds is as one its gate closes (R386). -/
def State.decideFwd (s : State) (n m : Nat) (bs : List Nat) (hit : Bool) : Fwd :=
  let cfg := s.pairCfg n m
  let kind := s.ptKind n
  let c := bits cfg 14 12
  let refused := s.fwdRefused n cfg kind bs || hit
  let canStart := !s.txBusy m && !s.txHeld m && !s.pausedClass m c && s.gateAdmits m c (s.maxLen m)
  if !bit cfg 7 || kind == 3 then .none
  else if canStart then (if !refused then .sent m else if bit cfg 8 then .cut m else .none)
  else if refused then .none else .deferred m

/-- The master time that the egress SFD's TCLK edge carries. -/
def State.afterEdges (s : State) (k : Nat) : State :=
  s.modTb (fun t => { t with now := shiftT t.now (k * ((baseAdvance s.inc s.tb.adj : Int) + s.slewPart)) })

/-- A one-step edit counts in its counter of port `n` (R332, R336). -/
def State.editCount (s : State) (n : Nat) (edit : Option (Nat × List Nat)) : State :=
  match edit with
  | some e => s.portCount n e.1 1
  | none => s

/-- The fixed bypass delay of R316 in units of elapsed time. -/
def State.bypassUnits (s : State) (n m : Nat) : Nat := fwdTransfers (s.pairCfg n m) (s.rate n) * s.transferUnits n

/-- The egress SFD of a forwarded frame follows its ingress SFD by the bypass delay, to a TCLK edge (R316). -/
def State.egressFits (s : State) (n m : Nat) (f : RxFrame) : Bool :=
  decide (f.egressEdges * s.tickUnits < s.bypassUnits n m + s.tickUnits) &&
  decide (s.bypassUnits n m < f.egressEdges * s.tickUnits + s.tickUnits)

/-- The bypass carries a frame whose wire is `w`: the lane of port `m` is busy from its egress SFD to its last byte, and
both ports show it (R298, R340). -/
def State.bypassDrive (s : State) (n m : Nat) (w : List Nat × Option Nat) (poison : Bool) : State :=
  let till := s.tb.elapsed + s.bypassUnits n m + w.1.length * s.byteUnits m
  (s.modPort n (fun q => { q with cutTill := till })).modPort m (fun q => { q with
    wire := w.1, wirePoison := poison, wireHalf := w.2, txTill := some till, cutTill := till })

/-- The one-step edit of a forwarded frame, where its whole field is among the `k` ingress bytes sampled (R332, R335). -/
def State.fwdEdit (s : State) (n m : Nat) (f : RxFrame) (k ti ei : Nat) : Option (Nat × List Nat) :=
  let body := bodyOf (f.bytes.map (·.toNat))
  let te := (s.afterEdges f.egressEdges).stamp m f.egressTap true
  let ee := (s.tb.epoch + b2n f.stepped) % 256
  if bit (s.pairCfg n m) 9 && (eventMsg body).any (fun c => decide (c.1 + 8 ≤ k)) then
    oneStep body te ee ti ei (bits (s.preg m 0x01C) 31 16)
  else none

/-- What port `m` sends for a frame of port `n` on the bypass (R318-R321, R325, R332, R337).  A frame that ends at MAX_LEN
before its cut has ended (R319); a lane error is one of the lane, not of the receive crossing (R26, R31). -/
def State.fwdSend (s : State) (n m : Nat) (f : RxFrame) (i : RxInfo) (ti ei : Nat) (fw : Fwd) : State :=
  let bs := f.bytes.map (·.toNat)
  let cfg := s.pairCfg n m
  let r := s.rate n
  let at_ := if r = 2 then 1 else 2
  let long := decide (s.maxLen m < bs.length)
  match fw with
  | .cut _ =>
    ((s.countTap (groupOf m) f.egressTap).bypassDrive n m (cutWire r (sentBy cfg r (min bs.length 24)) bs) true).portCount m 23 1
  | .sent _ =>
    let k := f.early.getD bs.length
    let t := sentBy cfg r k
    if f.early.isSome && !sfdBy cfg r k then s.portCount m 23 1
    else
      let edit := s.fwdEdit n m f k ti ei
      let s := (s.countTap (groupOf m) f.egressTap).editCount m edit
      let b := (edit.map (·.2)).getD (bodyOf bs)
      if f.early.isSome && !(long && decide (at_ * (s.maxLen m - 4) ≤ t)) then
        (s.bypassDrive n m (cutWire r t (b ++ bs.drop b.length)) true).portCount m 23 1
      else
        let s := s.portCount m 22 1
        if long then (s.bypassDrive n m (poisoned (b.take (s.maxLen m - 4)), none) true).portCount m 25 1
        else if i.fcsBad || i.rxEr then (s.bypassDrive n m (poisoned b, none) true).portCount m 25 1
        else s.bypassDrive n m (sealed_ b, none) false
  | _ => s

/-! ### Reception (R300-R306, R329, R413) -/

/-- The fate of an accepted or rejected frame. -/
structure RxFate where
  /-- Counters of R338 that count it. -/
  counts : List Nat
  deliver : Bool
  /-- The filters rejected it: it has no frame-end record. -/
  filtered : Bool
  dup : Bool
  deriving DecidableEq, Repr

/-- The fate of a frame; `dup` says that its key had been confirmed by another frame. -/
def State.rxFate (s : State) (n : Nat) (bs : List Nat) (i : RxInfo) (dup : Bool) (low : Nat) : RxFate :=
  let en := bit (s.preg n 0x00C) 0
  if i.len < 18 then { counts := [4], deliver := false, filtered := false, dup := false }
  else if i.pause then
    { counts := if en && bit (s.preg n 0x00C) 1 then [10, 0] else [10], deliver := en && bit (s.preg n 0x00C) 1
      filtered := false, dup := false }
  else if i.ctrl then { counts := [11], deliver := false, filtered := false, dup := false }
  else if !s.accepts n bs then { counts := [9], deliver := false, filtered := true, dup := false }
  else if dup && !bit (s.preg low 0x018) 16 then { counts := [12], deliver := false, filtered := false, dup := true }
  else match i.flagCounter with
    | none => { counts := [0], deliver := true, filtered := false, dup := dup }
    | some k => { counts := [k], deliver := s.deliverBad n, filtered := false, dup := dup }

/-- The status word of R303. -/
def rxStatus (i : RxInfo) (bs : List Nat) (fate : RxFate) (rule3 : Bool) (fw : Fwd) (early tagErr : Bool) : Nat :=
  let sent := match fw with | .sent _ => !early | _ => false
  let cut := match fw with | .cut _ => true | .sent _ => early | _ => false
  let defer := match fw with | .deferred _ => true | _ => false
  min i.len 16000 + 2 ^ 16 * b2n i.fcsBad + 2 ^ 17 * b2n i.runt + 2 ^ 18 * b2n i.giant + 2 ^ 19 * b2n i.trunc +
  2 ^ 20 * b2n i.laneEr + 2 ^ 21 * b2n i.poison + 2 ^ 22 * b2n tagErr + 2 ^ 23 * b2n (fate.dup || rule3) + 2 ^ 24 * b2n sent +
  2 ^ 25 * b2n cut + 2 ^ 26 * b2n defer + 2 ^ 27 * b2n (eventMsg (bodyOf bs)).isSome +
  2 ^ 28 * b2n (hsrSeq bs).isSome + 2 ^ 29 * b2n (prpSeq bs).isSome + 2 ^ 30 * b2n i.ovr

/-- The cells of a frame of `n` bytes: the reserved head cell, then further cells from the pool (R413). -/
def State.rxCells (s : State) (port n : Nat) : Option (List Nat) × State :=
  match (if bit (s.rxBind port) 7 then tfind s.pump.rxResv port else none) with
  | none => (none, if bit (s.rxBind port) 7 && s.takeCell.isNone then s.pumpAlarm 0 else s)
  | some h =>
    let s := s.modPump (fun p => { p with rxResv := tdel p.rxResv port })
    match s.takeCells (max 1 (ceilDiv n 256) - 1) with
    | some (cs, s) => (some (h :: cs), s)
    | none => (none, (s.returnCells [h]).pumpAlarm 0)

/-- The header of a received frame's buffer (R408, R436). -/
def rxHeader (i : RxInfo) (deliver defer : Bool) : Cell :=
  { len := min i.len 16000, fcsb := !i.trunc, tofs12 := true, refs := if deliver && defer then 2 else 1 }

/-- The MAC's entry check fails: words that the receive crossing has lost are missing in the tagged data (R26, R439).
(DEDUCED, unsafe: log entry 115.) -/
def entryBad (f : RxFrame) (i : RxInfo) : Bool :=
  let bs := f.bytes.map (·.toNat)
  tagOf (rxHeader i true false) (bs.take f.kept ++ List.replicate (bs.length - f.kept) 0) != tagOf (rxHeader i true false) bs

/-- Store a frame and form its frame-end record, which is presented when the frame ends. -/
def State.rxStore (s : State) (n : Nat) (f : RxFrame) (i : RxInfo) (cells : List Nat) (status ti ei : Nat)
    (deliver defer guarded paused : Bool) : State :=
  let bs := f.bytes.map (·.toNat)
  let hdr := rxHeader i deliver defer
  let tag := tagOf hdr bs
  let s := s.linkCells { hdr with tag := tag } cells
  let h := cells.headD 0
  let s := s.bufWrite h 0 (bs.take (min f.kept 16000))
  s.modPort n (fun p => { p with ends := p.ends ++
    [{ head := h, status := status, ts := ti, epoch := ei, tag := tag, deliver := deliver, defer := defer
       guarded := guarded, paused := paused }] })

/-- The duplicate table at an HSR frame that the ring forwards or meets again (R328, R330). -/
def State.hsrNote (s : State) (n low : Nat) (hsr : Option Nat) (hit co : Bool) : State :=
  match hsr with
  | some k =>
    if hit then (if co then s.portCount low 26 1 else s).modPort n (fun p => { p with lastKey := none })
    else (s.dupAdd low k true).modPort n (fun p => { p with lastKey := some k })
  | none => s.modPort n (fun p => { p with lastKey := none })

/-- An accepted frame's key is confirmed in the table. -/
def State.keyNote (s : State) (low : Nat) (key : Option Nat) (ok : Bool) : State :=
  match key with
  | some k => if ok then s.dupConfirm low k else s
  | none => s

/-- The reserved cell of a lane-mode port returns to the list. -/
def State.unreserve (s : State) (n : Nat) : State :=
  match tfind s.pump.rxResv n with
  | some h => (s.modPump (fun p => { p with rxResv := tdel p.rxResv n })).returnCells [h]
  | none => s

/-- Why a frame that is deferred did not start on its egress, each counted once (R307, R312, R338). -/
def State.deferWhy (s : State) (n m : Nat) (fw : Fwd) : Bool × Bool :=
  let c := bits (s.pairCfg n m) 14 12
  match fw with
  | .deferred _ =>
    let idle := !s.txBusy m
    (idle && !s.pausedClass m c && !s.gateAdmits m c (s.maxLen m), idle && s.pausedClass m c)
  | _ => (false, false)

/-- Until the egress SFD of a partner frame is due no local frame starts on port `m` (R324). -/
def State.holdLocal (s : State) (n m : Nat) : State :=
  if bit (s.pairCfg n m) 7 && s.ptKind n != 3 then
    s.modPort m (fun q => { q with holdTill := s.tb.elapsed + s.bypassUnits n m })
  else s

/-- Everything that a received frame does (R300-R306, R316-R330).
(DEDUCED, unsafe: log entry 86.) -/
def State.rxFrame (s : State) (n : Nat) (f : RxFrame) : State :=
  let bs := f.bytes.map (·.toNat)
  let i := s.rxInfo n f
  let ti := s.stamp n f.tap false
  let ei := s.tb.epoch
  let s := s.countTap (groupOf n) f.tap
  let s := (s.raiseLevel (srcFs n) true true).modPort n (fun p => { p with
    rxOn := true, rxTill := s.tb.elapsed + i.len * s.byteUnits n })
  let pair := s.ringPair n
  let m := pair.getD n
  let low := min n m
  let kind := if pair.isSome then s.ptKind n else 0
  -- the decision
  let hsr := if kind = 2 ∧ bit (s.pairCfg n m) 7 then (hsrSeq bs).map (dupKey bs) else none
  let co := s.coincident m f hsr
  let hit := co || (hsr.bind (s.dupFind low)).any (·.dupFwd)
  let fw := if pair.isSome then s.decideFwd n m bs hit else .none
  let s := s.hsrNote n low hsr hit co
  let made := hsr.isSome && !hit
  let (guarded, paused) := s.deferWhy n m fw
  let s := if guarded then s.portCount m 21 1 else s
  let s := if paused then s.portCount m 31 1 else s
  let s := if pair.isSome then s.holdLocal n m else s
  let s := s.fwdSend n m f i ti ei fw
  -- the frame end
  let key := if kind = 2 then (hsrSeq bs).map (dupKey bs) else if kind = 3 then (prpSeq bs).map (dupKey bs) else none
  let key := if i.fcsBad then none else key
  let dup := (key.bind (s.dupFind low)).any (fun e => !e.pending)
  let fate := s.rxFate n bs i dup low
  let s := if made then (if i.damaged then s.dupRemove low (hsr.getD 0) else s.dupConfirm low (hsr.getD 0)) else s
  let s := s.keyNote low key (!dup && !fate.filtered && !i.damaged)
  let s := if i.pause && bit (s.preg n 0x00C) 0 then s.modPort n (fun p => { p with pauseX := some (netAt bs 16 2) }) else s
  let s := if i.ovr then s.modPort n (fun p => { p with rxOverrun := true, fresh := p.fresh.set s.moment 2 }) else s
  let defer := (match fw with | .deferred _ => true | _ => false) && i.flagCounter.isNone
  let status := rxStatus i bs fate (hit && kind == 2) (if defer then fw else match fw with | .deferred _ => .none | _ => fw) f.early.isSome (entryBad f i)
  if fate.filtered && !defer then
    (s.portCount n 9 1).unreserve n
  else
    let (cells, s) := s.rxCells n (min i.len 16000)
    match cells with
    | none =>
      let own := fate.counts.filter (fun k => k == 4 || k == 9 || k == 10 || k == 11 || k == 12)
      let s := own.foldl (fun s k => s.portCount n k 1) s
      if fate.filtered then s else (s.portCount n 14 1).portCount n 13 1
    | some cs =>
      let s := fate.counts.foldl (fun s k => s.portCount n k 1) s
      let s := if fate.counts.contains 0 then s.portCount n 1 i.len else s
      let s := if fate.deliver || fate.filtered then s else s.portCount n 13 1
      let s := if defer then s.portCount m 24 1 else s
      s.rxStore n f i cs status ti ei fate.deliver defer guarded paused

/-- The timebase unit holds a step (R345). -/
def State.stepHeld (s : State) : Bool :=
  match s.tb.req with
  | some (.step _) => true
  | some (.set _) => true
  | _ => false

/-- RX_FRAME: the SFD of a frame on the lane of a port that is ON (R293, R298, R470).
(DEDUCED, safe: log entry 47.) (DEDUCED, unsafe: log entry 49.) -/
def execRxFrame (n : Fin 32) (f : RxFrame) (s : State) : Result :=
  s.act (s.laneMode n && s.pstate n == 2 && s.up (3 + n.val / 4) && !(s.port n).rxOn &&
      ((s.ringPair n).map (fun m => s.egressFits n m f)).getD true &&
      (!f.stepped || s.stepHeld)) (s.rxFrame n f)

/-! ### The frame record (R434-R436, R323) -/

/-- The frame-end record of a frame that goes to the sump, or whose ring is full. -/
def State.recordSink (s : State) (e : FrameEnd) : State := if e.defer then s else s.dropRef e.head

/-- The 32 bytes of a frame record. -/
def FrameEnd.record (e : FrameEnd) (n cells : Nat) : Nat :=
  bref e.head + 2 ^ 32 * e.status + 2 ^ 64 * timeVal e.ts e.epoch + 2 ^ 192 * (n + 2 ^ 8 * cells)

/-- A frame record is written to the ring, or the frame is sunk where the ring is full or its bore is out of service
(R435, R516). -/
def State.recordWrite (s : State) (n : Nat) (e : FrameEnd) : State :=
  let lb := bits (s.rxBind n) 2 0
  let (base, size) := ringAt (s.reg (0x70804 + 16 * n))
  let t := s.rxTailOf n
  if (t % 512 + 512 - s.rxHeadOf n) % 512 = size ∨ (s.lb lb).shed then
    ((s.modPump (fun p => { p with rxDrops := tset 0 p.rxDrops n (satInc 16 (tget 0 p.rxDrops n)) })).pumpAlarm 7).portCount n 13 1 |>.dropRef e.head
  else
    let s := s.modCell e.head (fun c => { c with owner := 8 + lb })
    let s := s.pumpRes .pump lb (base + 32 * (t % size)) 32 (e.record n (s.bufCells e.head).length)
    (s.modPump (fun p => { p with rxTail := tset 0 p.rxTail n (t + 1) })).raiseCore (srcFe n)

/-- A deferred frame joins the queue of its egress; it has been counted there where a gate or PAUSE held it (R323). -/
def State.deferQueue (s : State) (n m : Nat) (e : FrameEnd) : State :=
  let i : TxItem := .deferred e.head n (timeVal e.ts e.epoch) (bit e.status 27)
  (s.txDefer m (bits (s.pairCfg n m) 14 12) i).modPort m (fun p => { p with
    guarded := if e.guarded then p.guarded ++ [i] else p.guarded, paused := if e.paused then p.paused ++ [i] else p.paused })

/-- FRAME_RECORD: the oldest frame-end record of the port has crossed and the pump core writes it: 2 strokes of crossing
and 2 of the pump core after the frame's end (R24, R29). -/
def execFrameRecord (n : Fin 32) (s : State) : Result :=
  match (s.port n).ends with
  | [] => .next s
  | e :: es =>
    let s1 := s.modPort n (fun p => { p with ends := es })
    let s2 := if e.deliver && bit (s.rxBind n) 7 then s1.recordWrite n e else s1.recordSink e
    let m := s.ptPartner n
    s.act ((e.at_.map (fun q => decide (q + 3 ≤ s.strokes))).getD false)
      (if !e.defer then s2 else if s.pstate m = 2 then s2.deferQueue n m e else s2.dropRef e.head)

/-- CELL_RESERVE: a new head cell is reserved for the port (R413). -/
def execCellReserve (n : Fin 32) (s : State) : Result :=
  if bit (s.rxBind n) 7 && s.laneMode n && (tfind s.pump.rxResv n).isNone then
    match s.takeCell with
    | none => .next s
    | some (c, s1) =>
      .next ((s1.modCell c (fun e => { e with resv := true })).modPump (fun p => { p with rxResv := tput p.rxResv n c }))
  else .next s

/-- PAUSE_TIMER: one quantum of 512 bit times, 64 byte times, has passed (R307). -/
def execPauseTimer (n : Fin 32) (s : State) : Result :=
  let q := 64 * s.byteUnits n
  s.act (decide (0 < (s.port n).pause) && decide ((s.port n).pauseAt + q ≤ s.tb.elapsed))
    (s.modPort n (fun p => { p with pause := p.pause - 1, pauseAt := p.pauseAt + q }))

/-! ### Transmission (R308-R310, R30) -/

/-- The head cell of a queued frame. -/
def State.itemHead (s : State) : TxItem → Nat
  | .move k => match s.move k with
    | some m => m.head.getD 0
    | none => ((s.hmove k).bind (·.head)).getD 0
  | .deferred h _ _ _ => h

/-- The frame's length without FCS: a buffer with FCSB holds its old FCS in its last four bytes.
(DEDUCED, unsafe: log entry 51.) -/
def State.itemLen (s : State) (i : TxItem) : Nat :=
  let c := s.cell (s.itemHead i)
  if c.fcsb then c.len - 4 else c.len

/-- The wire length with padding and FCS (R308). -/
def State.wireLen (s : State) (n b : Nat) : Nat := (if s.padEn n && b < 60 then 60 else b) + 4

/-- Why the transmitter cannot start an item now. -/
inductive Hold where
  | free | paused | guarded
  deriving DecidableEq, Repr

def State.itemHold (s : State) (n c : Nat) (i : TxItem) : Hold :=
  if s.pausedClass n c then .paused
  else if s.gateAdmits n c (s.wireLen n (s.itemLen i)) then .free else .guarded

/-- The heads of the class queues, highest class first. -/
def State.txHeads (s : State) (n : Nat) : List (Nat × TxItem) :=
  [7, 6, 5, 4, 3, 2, 1, 0].filterMap (fun c => (s.txQueue n c).head?.map (fun i => (c, i)))

/-- Count the frames that PAUSE or a gate holds, once each (R312, R338). -/
def State.countHeld (s : State) (n : Nat) (h : Hold) (i : TxItem) : State :=
  match h with
  | .free => s
  | .paused => if (s.port n).paused.contains i then s
               else (s.modPort n (fun p => { p with paused := p.paused ++ [i] })).portCount n 31 1
  | .guarded => if (s.port n).guarded.contains i then s
                else (s.modPort n (fun p => { p with guarded := p.guarded ++ [i] })).portCount n 21 1

/-- The first head that may start, counting those passed over. -/
def State.txPick (s : State) (n : Nat) : List (Nat × TxItem) → Option (Nat × TxItem) × State
  | [] => (none, s)
  | (c, i) :: rest =>
    let h := s.itemHold n c i
    if h = .free then (some (c, i), s) else (s.countHeld n h i).txPick n rest

/-- A frame has left the port or has been refused: its move or its reference ends (R360, R428, R458). -/
def State.txEnd (s : State) (n : Nat) (i : TxItem) (sent : Nat) (err : Nat) (bad : Bool) (ts : Option (Nat × Nat)) (lost : Bool)
    (seq : Nat) : State :=
  let h := s.itemHead i
  match i with
  | .deferred .. => s.dropRef h
  | .move k =>
    match s.move k with
    | some m =>
      let s := s.dropRef h
      let s := match m.ch with
        | some c => if sent = 0 then s else s.modChan c (fun c => { c with outCount := (c.outCount + 1) % 2 ^ 32 })
        | none => s
      s.modMove k (fun m => { m with phase := .done, err := err, ts := ts, tsLost := lost
                                     result := if m.tsreq then seq else if err = 0 then 0 else sent })
    | none =>
      match s.hmove k with
      | none => s
      | some m =>
        let s := s.dropRef h
        let s := if sent = 0 then s else s.modChan m.ch (fun c => { c with outCount := (c.outCount + 1) % 2 ^ 32 })
        let s := s.modHmove k (fun m => { m with phase := .record, err := err, tagErr := m.tagErr || bad })
        let stale := m.gen != (s.ring m.r).gen
        let w := tsWords ts
        let s := if ts.isSome && (stale || !s.ringEn m.r) then s.tsqFree n seq else s
        s.postRecord m.r
          (err + 2 ^ 8 * b2n (m.tagErr || bad) + 2 ^ 9 * b2n ts.isSome + 2 ^ 10 * b2n lost + 2 ^ 11 * b2n m.late + 2 ^ 16 * m.idx)
          (m.len + (if m.tsreq then 2 ^ 16 * seq else 0)) w.1 w.2 m.irq (some k) none stale

/-- The time-stamp request, the one-step ingress time and the channel of a queued frame. -/
def State.itemAsks (s : State) (n : Nat) : TxItem → Bool × Option (Nat × Nat) × Option Nat
  | .move k => match s.move k with
    | some m => (m.tsreq, if m.onestep && bit (s.preg n 0x01C) 0 then m.ingress else none, m.ch)
    | none => match s.hmove k with
      | some m => (m.tsreq, none, some m.ch)
      | none => (false, none, none)
  | .deferred _ from_ ts _ =>
    (false, if bit (s.pairCfg n from_) 9 then some (timeT ts, timeEpoch ts) else none, none)

/-- The checks of a buffer as it is sent: an uncorrectable word or a wrong tag makes it bad (R310, R88).
(DEDUCED, unsafe: log entry 53.) -/
def State.txCheck (s : State) (h b : Nat) (ch : Option Nat) (skip : Bool) : Bool × State :=
  match s.bufUe h 0 b with
  | some w => (true, (s.eccRead .pump .cistern w).modCell h (fun c => { c with bad := true }))
  | none => if skip then (true, s) else s.tagCheck h ch

/-- A frame that a personality sends on an HSR ring enters the duplicate table (R331). -/
def State.txNote (s : State) (n : Nat) (i : TxItem) (data : List Nat) : State :=
  match s.ringPair n, hsrSeq (sealed_ data), i with
  | some m, some q, .move _ => if s.ptKind n = 2 then s.dupConfirm (min n m) (dupKey data q) else s
  | _, _, _ => s

/-- The transmit time-stamp is stored where it was asked for. -/
def State.txStamp (s : State) (n : Nat) (asked : Bool) (v : Nat) : Bool × Nat × State :=
  if asked then s.tsqPut n v else (false, 0, s)

/-- What leaves for data `data` of a queued frame: a deferred frame carries its ingress FCS, adjusted for the edit by the
linearity of the CRC; a local frame's FCS runs over the bytes as sent (R337). -/
def State.txOut (s : State) (i : TxItem) (raw data : List Nat) : List Nat :=
  let h := s.itemHead i
  match i with
  | .deferred .. =>
    data ++ toBytes 4 (ofBytes (s.bufRead h (s.itemLen i) 4) ^^^ fcsOf raw ^^^ fcsOf data)
  | .move _ => sealed_ data

/-- The transmitter sends a frame (R310, R312, R321, R325, R331, R332).
(DESIGN CHOICE, safe: log entry 15.) -/
def State.txSend (s : State) (n : Nat) (i : TxItem) (tap : Nat) (underrun : Option Nat) : State :=
  let h := s.itemHead i
  let b := s.itemLen i
  let (tsreq, ing, ch) := s.itemAsks n i
  let te := s.stamp n tap true
  let s := s.countTap (groupOf n) tap
  let ue := s.bufUe h 0 b
  let was := (s.cell h).bad
  let (ok, s) := s.txCheck h b ch underrun.isSome
  let raw := s.bufRead h 0 b
  let data := raw
  let data := if s.padEn n then data ++ List.replicate (60 - data.length) 0 else data
  let edit := match ing with | some (t, e) => oneStep data te s.tb.epoch t e (bits (s.preg n 0x01C) 31 16) | none => none
  let s := s.editCount n edit
  let data := (edit.map (·.2)).getD data
  let data := match underrun with | some k => data.take k | none => data
  let bad := !ok || ue.isSome || was
  let poison := bad || underrun.isSome
  let s := if ok then s else s.portCount n 18 1
  let s := if underrun.isSome then s.portCount n 19 1 else s
  let s := if poison then s.portCount n 17 1 else (s.portCount n 15 1).portCount n 16 (data.length + 4)
  let s := s.txNote n i data
  let err := if ue.isSome then 0x0D else if !ok then 0x0C
             else if underrun.isSome then (Config.freeWord s.draws).toNat % 0x13 else 0
  let s := { s with draws := s.draws + b2n underrun.isSome }
  let (kept, seq, s) := s.txStamp n tsreq (timeVal te s.tb.epoch)
  let out := if poison then poisoned data else s.txOut i raw data
  s.modPort n (fun p => { p with
    wire := out, wirePoison := poison, wireHalf := none
    txTill := some (s.tb.elapsed + (8 + out.length) * s.byteUnits n)
    tx := some { item := i, bytes := out, bad := bad, err := err, ts := if kept then some (te, s.tb.epoch) else none
                 tsLost := tsreq && !kept, seq := seq } })

/-- The lane of port `n` has carried the idle that follows its last frame, and no partner frame is due on it (R298, R324). -/
def State.laneIdle (s : State) (n : Nat) : Bool :=
  (((s.port n).txTill).map (fun t => decide (t + s.ipg n * s.byteUnits n ≤ s.tb.elapsed))).getD true &&
  decide ((s.port n).holdTill ≤ s.tb.elapsed)

/-- TX_FRAME: the transmitter is free and starts the next admitted frame, or refuses it for its length (R308); nothing
starts while TXHOLD is 1 (R386).
(DEDUCED, unsafe: log entry 52.) -/
def execTxFrame (n : Fin 32) (tap : Fin 256) (underrun : Option Nat) (s : State) : Result :=
  if s.laneMode n && s.pstate n == 2 && s.up (3 + n.val / 4) && (s.port n).tx.isNone && s.laneIdle n && !s.txHeld n then
    match s.txPick n (s.txHeads n) with
    | (none, s1) => .next s1
    | (some (c, i), s1) =>
      let b := s1.itemLen i
      let s2 := s1.setTxQueue n c ((s1.txQueue n c).drop 1)
      let s2 := s2.modPort n (fun p => { p with guarded := p.guarded.erase i, paused := p.paused.erase i })
      .next (if b < 14 then s2.txEnd n i 0 9 false none false 0
        else if s.maxLen n - 4 < b then (s2.txEnd n i 0 9 false none false 0).portCount n 20 1
        else s2.txSend n i tap underrun)
  else .next s

/-- TX_FRAME_DONE: the frame on the transmitter has left the port (R428). -/
def execTxFrameDone (n : Fin 32) (s : State) : Result :=
  match (s.port n).tx with
  | none => .next s
  | some t =>
    s.act (!decide (s.tb.elapsed < (s.port n).txTill.getD 0))
      ((s.modPort n (fun p => { p with tx := none })).txEnd n t.item (t.bytes.length - 4) t.err t.bad t.ts t.tsLost t.seq)

/-! ### The schedule's commands (R311, R313, R314) -/

/-- GATE_ENTRY: the entry that the group time selects takes effect. -/
def execGateEntry (n : Fin 32) (s : State) : Result :=
  let p := s.port n
  if !p.gateEn then .next s
  else match s.gateSelect n p.gateWords (s.groupTime n) with
    | none => .next (s.modPort n (fun p => { p with gateWord := none }))
    | some (k, i, _) =>
      let idx := (p.gateStart + i) % 256
      if p.gateWord.isSome && p.gateCyc == k && p.gateIdx == idx then .next s
      else .next (s.modPort n (fun p => { p with
        gateIdx := idx, gateCyc := k, gateWord := some (BitVec.ofNat 32 (s.preg n (0x100 + 4 * idx)))
        gateWords := p.gateWords.set i (s.preg n (0x100 + 4 * idx)) }))

/-- A write to PORT_GATE_CTRL is held (R313). -/
def State.gateCtrlWrite (s : State) (n w : Nat) : State :=
  (s.setReg (portBase n + 0x020) (b2n (bit w 0) + bits w 15 8 * 2 ^ 8 + min 256 (max 1 (bits w 24 16)) * 2 ^ 16)).modPort n
    (fun p => { p with gateHeld := some s.tb.elapsed })

/-- GATE_CTRL_WRITE (R313). -/
def execGateCtrlWrite (n : Fin 32) (w : Word) (s : State) : Result := .next (s.gateCtrlWrite n w.toNat)

/-- A cycle boundary of the run that counts lies at or before now and at least 1 µs after the write (R313). -/
def State.gateDue (s : State) (n : Nat) : Bool :=
  let p := s.port n
  let w := s.preg n 0x020
  let t := s.groupTime n
  match p.gateHeld with
  | none => false
  | some h =>
    let run := if p.gateEn then p.gateWords else s.gateRun n (bits w 15 8) (bits w 24 16)
    let c := (run.map gateDur).sum * nsT
    let b := s.gateBase n t
    let since := t - (s.tb.elapsed - h) * 2 ^ 22
    decide (b ≤ t) && decide (0 < c) && decide (since + 1000 * nsT ≤ b + (t - b) / c * c)

/-- GATE_CTRL_APPLY: the held control takes effect, and with it the entry that the time selects (R313). -/
def execGateCtrlApply (n : Fin 32) (s : State) : Result :=
  let w := s.preg n 0x020
  let start := bits w 15 8
  let len := bits w 24 16
  let run := s.gateRun n start len
  let sel := s.gateSelect n run (s.groupTime n)
  s.act (s.gateDue n) (s.modPort n (fun p =>
    let i := (start + (sel.map (·.2.1)).getD 0) % 256
    { p with gateEn := bit w 0, gateStart := start, gateLen := len, gateWords := run, gateHeld := none, gateIdx := i
             gateCyc := (sel.map (·.1)).getD 0
             gateWord := if bit w 0 && sel.isSome then some (BitVec.ofNat 32 (s.preg n (0x100 + 4 * i))) else none }))

/-! ### Registers (R292, R339, R340) -/

/-- A pair with different RATE values sets CFG_ERR on both ports (R315). -/
def State.pairRateCheck (s : State) (n : Nat) : State :=
  let m := s.ptPartner n
  if s.namedPair n m && s.rate n != s.rate m then (s.portCfgErr n).portCfgErr m else s

/-- A write to PORT_MODE (R292, R340): only while the port is OFF, and not with RATE 3. -/
def State.portModeWrite (s : State) (n w : Nat) : State :=
  if s.pstate n ≠ 0 ∨ bits w 2 1 = 3 then s.portCfgErr n
  else
    let was := s.laneMode n
    let s := s.setReg (portBase n) (bits w 2 0 + 2 ^ 8 * max 2 (bits w 15 8))
    let s := if !was && s.laneMode n then s.enterLane n else s
    let s := if s.laneMode n then s else s.modPort n (fun p => { p with wire := [], wirePoison := false, wireHalf := none })
    s.pairRateCheck n

/-- PORT_MODE_WRITE. -/
def execPortModeWrite (n : Fin 32) (w : Word) (s : State) : Result := .next (s.portModeWrite n w.toNat)

/-- A write to word 1 of an exact entry makes both words take effect (R340). -/
def State.exactWrite (s : State) (n e w : Nat) : State :=
  let s := s.setReg (portBase n + 0x504 + 8 * e) (w % 2 ^ 19)
  s.modPort n (fun p => { p with exact := tset 0 p.exact e (s.preg n (0x500 + 8 * e) + 2 ^ 32 * (w % 2 ^ 19)) })

/-- EXACT_WRITE (R340). -/
def execExactWrite (n : Fin 32) (e : Fin 64) (w : Word) (s : State) : Result := .next (s.exactWrite n e w.toNat)

/-- DUP_AGE of a table in units of elapsed time. -/
def State.dupAge (s : State) (n : Nat) : Nat := bits (s.preg n 0x018) 9 0 * msUnits

/-- DUP_AGE_OUT: the oldest entry has reached its age (R326). -/
def execDupAgeOut (n : Fin 32) (s : State) : Result :=
  match (s.port n).dup with
  | [] => .next s
  | e :: es => s.act (decide (e.made + s.dupAge n ≤ s.tb.elapsed)) (s.modPort n (fun p => { p with dup := es }))

/-- A write to PORT_DUP_CFG; FLUSH empties the table (R340). -/
def State.dupCfgWrite (s : State) (n w : Nat) : State :=
  let s := s.setReg (portBase n + 0x018) (min 1000 (max 1 (bits w 9 0)) + 2 ^ 16 * bits w 16 16)
  if bit w 17 then s.modPort n (fun p => { p with dup := [] }) else s

/-- FLUSH: a write to PORT_DUP_CFG with FLUSH at 1 (R340). -/
def execFlush (n : Fin 32) (w : Word) (s : State) : Result := .next (s.dupCfgWrite n (putBits w.toNat 17 17 1))

/-- A write to PORT_CNT_CTRL (R338). -/
def State.cntCtrlWrite (s : State) (n w : Nat) : State :=
  if bit w 0 then s.modPort n (fun p => { p with cnt := [] }) else s

/-- CLEAR: a write to PORT_CNT_CTRL with CLEAR at 1 (R338). -/
def execClear (n : Fin 32) (w : Word) (s : State) : Result := .next (s.cntCtrlWrite n (putBits w.toNat 0 0 1))

/-- A write of the word `w` at offset `o` of port page `n` (R290, R339). -/
def State.portWrite (s : State) (n o w : Nat) : State :=
  if o = 0x000 then s.portModeWrite n w
  else if o = 0x004 then
    s.setReg (portBase n + o) (bits w 1 0 + 12 + 2 ^ 8 * max 12 (bits w 12 8) + 2 ^ 16 * max 64 (min 9216 (bits w 29 16)))
  else if o = 0x014 then
    if s.pstate n = 0 then (s.setReg (portBase n + o) (bits w 14 0)).pairRateCheck n else s.portCfgErr n
  else if o = 0x018 then s.dupCfgWrite n w
  else if o = 0x020 then s.gateCtrlWrite n w
  else if o = 0x028 then s.setReg (portBase n + o) (min 999999999 (bits w 29 0))
  else if o = 0x030 then
    s.modPort n (fun p => { p with
      cfgErr := p.cfgErr && (!bit w 0 || bit (p.fresh.held s.moment) 0)
      rxOverrun := p.rxOverrun && (!bit w 1 || bit (p.fresh.held s.moment) 1) })
  else if o = 0x034 then s.cntCtrlWrite n w
  else if 0x500 ≤ o ∧ o < 0x700 ∧ o % 8 = 4 then s.exactWrite n ((o - 0x500) / 8) w
  else if o = 0x700 then s.pinOwnWrite n w
  else if o = 0x704 then s.pinSampleWrite n w
  else if o = 0x70C then s.pinAlarmWrite n w
  else if o = 0x710 then s.pinFlagsWrite n w
  else if 0x720 ≤ o ∧ o < 0x740 then s.pinCondWrite n ((o - 0x720) / 4) w
  else match regAt (portBase n + o) with
    | some (r, _, _) => if r.rw = 0 then s else s.setReg (portBase n + o) (mix (s.preg n o) r.rw w)
    | none => s

end Sys2Proof.Machine
end

