-- ==== Sys2Proof/Machine/Host.lean ====
section
/-!
DEFINITION. Host rings, polls, data submissions, completions, commands, and the enable and disable state machine
(chapter 13).  Loading and swapping of images stand in Sys2Proof/Machine/Priming.lean, the answers of the master ports in
Sys2Proof/Machine/Responses.lean.
-/

namespace Sys2Proof.Machine

/-! ### Configuration -/

def partBase (p : Nat) : Nat := 0x90100 + 32 * p
def State.hpEn (s : State) (p : Nat) : Bool := bit (s.reg (partBase p)) 0
def State.hpHint (s : State) (p : Nat) : Bool := bit (s.reg (partBase p)) 1
def State.hpRights (s : State) (p : Nat) : Nat := s.reg (partBase p + 4)
def State.hpPorts (s : State) (p : Nat) : Nat := s.reg (partBase p + 8)
def State.hdepth (s : State) (p : Nat) : Nat := bits (s.reg (0x70040 + 4 * p)) 6 0
def State.sqBase (s : State) (r : Nat) : Nat := bits (s.reg (ringBase r + 4)) 31 6 * 64 + 2 ^ 32 * s.reg (ringBase r + 8)
def State.cqBase (s : State) (r : Nat) : Nat := bits (s.reg (ringBase r + 12)) 31 6 * 64 + 2 ^ 32 * s.reg (ringBase r + 16)

/-! ### Polls (R450-R453) -/

/-- The poll interval in units of elapsed time: whole HCLK cycles (R451). -/
def State.pollInterval (s : State) (p : Nat) : Nat :=
  let ps := max 1000 (s.reg 0x90000)
  ceilDiv (bits (s.reg (partBase p + 12)) 13 0 * 1000) ps * ps * 2 ^ 26 / 1000

/-- Issue a poll of partition p. -/
def State.issuePoll (s : State) (p : Nat) : State :=
  let s := s.modPart p (fun h => { h with polling := true, hint := false, pollAt := s.tb.elapsed })
  s.ask 0 0 false (bits (s.reg (partBase p + 16)) 31 6 * 64 + 2 ^ 32 * s.reg (partBase p + 20)) 64 [] p (.poll p)

/-- Host partitions poll: from PRIMED on or in RECOVERY (R546, R547), never in test mode (R577). -/
def State.pollsOn (s : State) : Bool := (s.mram.primed || s.mram.recovery) && !s.dbg.testMode

/-- POLL: the interval of partition p has run out and no poll is outstanding. -/
def execPoll (p : Fin 8) (s : State) : Result :=
  s.act (s.up 0 && s.pollsOn && s.hpEn p && !(s.part p).polling && decide ((s.part p).pollAt + s.pollInterval p ≤ s.tb.elapsed))
    (s.issuePoll p)

/-- The interrupt of a ring pair ends when CQ_HEAD lies from S up to CQ_TAIL (R464). -/
def State.irqCheck (s : State) (r : Nat) : State :=
  let g := s.ring r
  let n := s.cqSize r
  match g.irqAt with
  | none => s
  | some st =>
    if (g.cqHead + n - st % n) % n ≤ (g.cqCount % n + n - st % n) % n then s.modRing r (fun g => { g with irqAt := none }) else s

/-- A poll read has returned: its indices come into force, or an error keeps the old ones (R451, R453). -/
def State.pollBack (s : State) (p : Nat) (err : Nat) (data : List Nat) : State :=
  let s := s.modPart p (fun h => { h with polling := false })
  let s :=
    if err ≠ 0 then
      (s.modPart p (fun h => { h with pollErr := true, fresh := h.fresh.set s.moment 1, pollErrs := satInc 16 h.pollErrs })).hostAlarm 2
    else
      (List.range 8).foldl (fun s l =>
        let r := 8 * p + l
        let tail := ofBytes ((data.drop (8 * l)).take 4) % 4096
        let head := ofBytes ((data.drop (8 * l + 4)).take 4) % 4096
        let s := s.modRing r (fun g => { g with sqTail := tail % s.sqSize r, cqHead := head % s.cqSize r })
        s.irqCheck r) s
  if (s.part p).hint && s.hpEn p then s.issuePoll p else s

/-- POLL_RETURN: the outstanding poll of partition p is answered. -/
def execPollReturn (p : Fin 8) (err : Fin 4) (data : List Byte) (s : State) : Result :=
  match s.host.mcmds.find? (fun c => c.issued && c.owner == .poll p) with
  | none => .next s
  | some c => .next ((s.dropCmd c).pollBack p err (data.map (·.toNat)))

/-- DB_HINT: every partition with HINT_EN is polled, one that has a poll outstanding when it returns (R452). -/
def execDbHint (s : State) : Result :=
  s.act (s.up 0 && s.pollsOn) ((List.range 8).foldl (fun s p =>
    if s.hpEn p && s.hpHint p then
      (if (s.part p).polling then s.modPart p (fun h => { h with hint := true }) else s.issuePoll p)
    else s) s)

/-! ### Fetching (R454, R455) -/

/-- A record of the ring pair waits for room. -/
def State.cqWait (s : State) (r : Nat) : Bool := s.host.recs.any (fun c => c.r == r && c.waited && !c.sent)

/-- How many submissions a fetch of ring pair `r` may take now.
(DEDUCED, safe: log entry 61.) -/
def State.fetchRoom (s : State) (r : Nat) : Nat :=
  let g := s.ring r
  let p := partOf r
  let n := s.sqSize r
  if !s.hpEn p || !s.ringEn r || g.halted || g.fetching || s.cqWait r then 0
  else
    let avail := (g.sqTail + n - g.sqHead) % n
    let whole := min (8 - (s.sqBase r / 32 + g.sqHead) % 8) (n - g.sqHead)
    let room :=
      if r % 8 = 0 then 16 - (s.host.cmds.filter (fun c => partOf c.r == p)).length
      else min (64 - (s.host.posts.filter (fun q => q.r == r)).length - (s.host.subs.filter (fun q => q.r == r)).length)
               (s.hdepth p - (s.host.moves.filter (fun m => partOf m.r == p)).length -
                 (s.host.subs.filter (fun q => partOf q.r == p)).length)
    min avail (min whole room)

/-- The ring pair that the partition's engine fetches next: its command ring first, then round robin. -/
def State.fetchPick (s : State) (p : Nat) : Option Nat :=
  if 0 < s.fetchRoom (8 * p) then some (8 * p)
  else ((List.range 7).map (fun i => 8 * p + 1 + ((s.part p).next - 1 + i) % 7)).find? (fun r => decide (0 < s.fetchRoom r))

/-- SUBMISSION_FETCH: the engine reads up to eight submissions of ring pair r. -/
def execSubmissionFetch (r : Fin 64) (s : State) : Result :=
  let n := s.fetchRoom r
  let g := s.ring r
  let p := partOf r
  let s1 := s.modRing r (fun g => { g with fetching := true })
  let s1 := if r.val % 8 = 0 then s1 else s1.modPart p (fun h => { h with next := r.val % 8 % 7 + 1 })
  s.act (s.up 0 && s.fetchPick p == some r.val)
    (s1.ask 0 0 false (s.sqBase r + 32 * g.sqHead) (32 * n) [] p (.fetch r g.sqHead n g.gen))

/-- The fetch returns: its submissions are accepted, or an error halts the ring pair (R455, R474). -/
def State.fetchBack (s : State) (r first n gen err : Nat) (data : List Nat) : State :=
  if (s.ring r).gen ≠ gen then s
  else
    let s := s.modRing r (fun g => { g with fetching := false })
    if !s.ringEn r then s
    else if err ≠ 0 then (s.modRing r (fun g => { g with halted := true, descHost := true, fresh := g.fresh.set s.moment 1 })).hostAlarm 0
    else
      let word (i j : Nat) := ofBytes ((data.drop (32 * i + 4 * j)).take 4)
      let subs := (List.range n).map (fun i => (first + i, (List.range 8).map (word i)))
      let s := s.modRing r (fun g => { g with sqHead := (first + n) % s.sqSize r })
      if r % 8 = 0 then
        subs.foldl (fun s q => s.modHost (fun h => { h with
          nextId := h.nextId + 1
          cmds := h.cmds ++ [{ id := h.nextId, r := r, idx := q.1, words := q.2, held := .fresh, gen := gen }] })) s
      else s.modHost (fun h => { h with subs := h.subs ++ subs.map (fun q => { r := r, idx := q.1, words := q.2 }) })

/-! ### Data submissions (R456-R459) -/

def Sub.w (q : Sub) (i : Nat) : Nat := q.words.getD i 0
def Sub.op (q : Sub) : Nat := q.w 0 % 256
def Sub.irq (q : Sub) : Bool := bit (q.w 0) 10

/-- An undefined OP or a reserved field that is not 0 (R456). -/
def Sub.bad (q : Sub) : Bool :=
  (q.op != 1 && q.op != 2) || bits (q.w 0) 31 11 != 0 || bits (q.w 2) 31 14 != 0 || bits (q.w 6) 31 30 != 0 ||
  (q.op == 2 && bits (q.w 0) 9 8 != 0) || (!bit (q.w 0) 9 && (q.w 6 != 0 || q.w 7 != 0))

/-- The ring engine takes the oldest accepted submission of a ring pair. -/
def State.popSub (s : State) (q : Sub) : State := s.modHost (fun h => { h with subs := h.subs.erase q })
def State.subOf (s : State) (r : Nat) : Option Sub := s.host.subs.find? (fun q => q.r == r)

/-- A failed submission is completed at once (R457). -/
def State.subFail (s : State) (q : Sub) (err : Nat) : State :=
  s.postRecord q.r (err + (if q.op = 2 then 2 ^ 12 else 0) + 2 ^ 16 * q.idx) 0 0 0 q.irq none none false

/-- The channel of a data submission (R457): kinds STREAM, MSG and TIMED, ON from its own ring pair. -/
def State.subChan (s : State) (q : Sub) : Except Nat Nat × State :=
  match s.checkHandle 0 (q.w 1) with
  | (.error e, s) => (.error e, s)
  | (.ok i, s) =>
    let c := s.chan i
    if !([1, 2, 5].contains c.kind) then (.error 3, s)
    else if c.state ≠ 2 ∨ c.ring ≠ q.r ∨ (s.lb c.lb).shed then (.error 4, s)
    else (.ok i, s)

/-- The launch time of a SEND (R456): SEC[63:32] comes from the master time. -/
def State.sendLaunch (s : State) (q : Sub) : Nat :=
  (s.tb.now / secT / 2 ^ 32 * 2 ^ 32 + q.w 7) * secT + bits (q.w 6) 29 0 * nsT

/-- A SEND is checked and its data are read (R457, R458). -/
def State.sendStart (s : State) (q : Sub) : State :=
  match s.subChan q with
  | (.error e, s) => s.subFail q e
  | (.ok i, s) =>
    let c := s.chan i
    let tsreq := bit (q.w 0) 8
    let launch := bit (q.w 0) 9
    let len := bits (q.w 2) 13 0
    if c.kind ≠ 2 ∧ s.pstate c.port ≠ 2 then s.subFail q 4
    else if (c.kind = 2 ∧ (tsreq ∨ launch)) ∨ (c.kind = 5 ∧ !launch) then s.subFail q 0x0B
    else if len < 1 ∨ 16320 < len then s.subFail q 9
    else match s.allocBuf len { refs := 1, tofs12 := c.tofs12 }, s.freeSlot with
      | some (h, s1), some k =>
        let at_ := s1.sendLaunch q
        let m : HMove := { slot := k, kind := .send, r := q.r, idx := q.idx, irq := q.irq, ch := i, len := len, tag := q.w 3,
                           addr := q.w 4 + 2 ^ 32 * q.w 5, tsreq := tsreq, launch := if launch then some at_ else none
                           late := launch && decide (at_ ≤ s1.tb.now), head := some h, phase := .reading
                           gen := (s1.ring q.r).gen }
        let s1 := { s1 with draws := s1.draws + 1 }
        let s1 := (s1.modHost (fun g => { g with moves := g.moves ++ [m] })).noteSlots
        s1.askAll 0 k false m.addr len [] (partOf q.r) (.move k)
      | _, _ => (s.pumpAlarm 10).subFail q 5

/-- The record of a SEND that ends before its frame is queued. -/
def State.sendEnd (s : State) (m : HMove) (err : Nat) (tagErr : Bool) (got : Nat) : State :=
  let s := s.modHmove m.slot (fun h => { h with phase := .record, err := err, tagErr := tagErr })
  s.postRecord m.r (err + 2 ^ 8 * b2n tagErr + 2 ^ 11 * b2n m.late + 2 ^ 16 * m.idx) got 0 0 m.irq (some m.slot) none
    (m.gen != (s.ring m.r).gen)

/-- The data of a SEND are in its buffer: the tag, then the channel (R437, R458). -/
def State.sendAct (s : State) (m : HMove) : State :=
  let h := m.head.getD 0
  let c := s.chan m.ch
  let t := s.tagNow h
  if m.err ≠ 0 then (s.dropRef h).sendEnd m m.err false 0
  else if c.tagsup ∧ t ≠ m.tag then
    ((s.modChan m.ch (fun c => { c with tagFaults := satInc 16 c.tagFaults })).dropRef h).sendEnd m 0x0C true 0
  else
    let s := s.modCell h (fun e => { e with tag := t })
    if c.kind = 2 ∧ c.blMax ≤ c.blCount then
      ((s.modChan m.ch (fun c => { c with drops := satInc 16 c.drops })).dropRef h).sendEnd m 6 false 0
    else if c.kind ≠ 2 ∧ s.pstate c.port ≠ 2 then (s.dropRef h).sendEnd m 4 false 0
    else
      let s := s.modChan m.ch (fun c => { c with inCount := (c.inCount + 1) % 2 ^ 32 })
      let s := s.raiseCore (srcPq c.lb c.nq)
      if c.kind = 2 then (s.blPush m.ch (bref h)).sendEnd m 0 false m.len
      else
        let wait := match m.launch with | some t => !m.late && decide (s.tb.now < t) | none => false
        let s := s.modHmove m.slot (fun h => { h with phase := if wait then .launch else .queued })
        if wait then s else s.txAppend c.port c.cls m.slot

/-- SEND: the oldest accepted submission of ring pair r is a SEND. -/
def execSend (r : Fin 64) (s : State) : Result :=
  match s.subOf r with
  | none => .next s
  | some q => s.act (q.op == 1 && !q.bad) (((s.popSub q).sendStart q).resetSettle (partOf r))

/-- An RX_POST is checked and held; a waiting backlog buffer is written into it (R459). -/
def State.postStart (s : State) (q : Sub) : State :=
  match s.subChan q with
  | (.error e, s) => s.subFail q e
  | (.ok i, s) =>
    let len := bits (q.w 2) 13 0
    if len < 1 ∨ 16320 < len then s.subFail q 9
    else
      let p : Post := { r := q.r, idx := q.idx, ch := i, addr := q.w 4 + 2 ^ 32 * q.w 5, len := len, irq := q.irq }
      let s := s.modHost (fun h => { h with posts := h.posts ++ [p] })
      match s.freeSlot, s.blPop i with
      | some k, some (b, s1) => ({ s1 with draws := s1.draws + 1 }).rxStart k p b
      | _, _ => s

/-- RX_POST: the oldest accepted submission of ring pair r is an RX_POST. -/
def execRxPost (r : Fin 64) (s : State) : Result :=
  match s.subOf r with
  | none => .next s
  | some q => s.act (q.op == 2 && !q.bad) (((s.popSub q).postStart q).resetSettle (partOf r))

/-- BAD_SUBMISSION: it completes at once with DESC (R456). -/
def execBadSubmission (r : Fin 64) (s : State) : Result :=
  match s.subOf r with
  | none => .next s
  | some q => s.act q.bad (((s.popSub q).subFail q 0x0B).resetSettle (partOf r))

/-! ### Completions (R460-R464, R472) -/

/-- A record that concerns a port or a channel is written after those before it (R472).
(DEDUCED, safe: log entry 60.) -/
def State.postObj (s : State) (o : Bool × Nat) (r w0 w1 w2 w3 : Nat) (irq : Bool) (slot : Option Nat) (stale : Bool) : State :=
  let before := ((s.host.recs.filter (fun c => c.obj == some o)).getLast?).map (·.id)
  let n := s.host.nextId
  let s := s.postRecord r w0 w1 w2 w3 irq slot before stale
  s.modHost (fun h => { h with recs := h.recs.map (fun c => if c.id = n then { c with obj := some o } else c) })

/-- The next record of a ring pair that may be written. -/
def State.recNext (s : State) (r : Nat) : Option HRec :=
  s.host.recs.find? (fun c => c.r == r && !c.sent && (match c.after with
    | none => true
    | some i => !s.host.recs.any (fun d => d.id == i)))

def State.modRec (s : State) (id : Nat) (f : HRec → HRec) : State :=
  s.modHost (fun h => { h with recs := h.recs.map (fun c => if c.id = id then f c else c) })
def State.dropRec (s : State) (id : Nat) : State := s.modHost (fun h => { h with recs := h.recs.filter (fun c => c.id != id) })

/-- The four words of a record with its phase (R460, R461). -/
def HRec.bytes (c : HRec) (phase : Bool) : List Nat :=
  toBytes 4 (c.w0 % 2 ^ 31 + 2 ^ 31 * b2n phase) ++ toBytes 4 c.w1 ++ toBytes 4 c.w2 ++ toBytes 4 c.w3

/-- PHASE of the current pass (R461). -/
def State.cqPhase (s : State) (r : Nat) : Bool := (s.ring r).cqCount / s.cqSize r % 2 == 0

/-- COMPLETION_WRITE: the next record of ring pair r is written, or waits for room (R462). -/
def execCompletionWrite (r : Fin 64) (s : State) : Result :=
  match s.recNext r with
  | none => .next s
  | some c =>
    if !s.up 0 then .next s
    else if s.cqRoom r then
      let at_ := s.cqBase r + 16 * ((s.ring r).cqCount % s.cqSize r)
      let bytes := c.bytes (s.cqPhase r)
      let s1 := (s.modRec c.id (fun c => { c with sent := true })).modRing r (fun g => { g with cqCount := g.cqCount + 1 })
      let s1 := match c.slot.bind s1.hmove with
        | some m => if bit c.w0 9 then s1.tsqFree (s1.chan m.ch).port (bits c.w1 31 16) else s1
        | none => s1
      .next (s1.ask 0 0 true at_ 16 bytes (partOf r) (.record c.id))
    else if c.waited then .next s
    else .next ((s.modRec c.id (fun c => { c with waited := true })).hostAlarm 1)

/-- COALESCE_TIMEOUT: CO_TIME has passed since the oldest counted record (R464). -/
def execCoalesceTimeout (r : Fin 64) (s : State) : Result :=
  let g := s.ring r
  s.act (decide (0 < g.coCount) && decide (g.coSince + s.coTime r * usUnits ≤ s.tb.elapsed)) (s.ringIrq r)

/-! ### Commands (R466-R468) -/

def HCmd.w (c : HCmd) (i : Nat) : Nat := c.words.getD i 0
def HCmd.op (c : HCmd) : Nat := c.w 0 % 256
def HCmd.part (c : HCmd) : Nat := partOf c.r

def State.modCmd (s : State) (id : Nat) (f : HCmd → HCmd) : State :=
  s.modHost (fun h => { h with cmds := h.cmds.map (fun c => if c.id = id then f c else c) })
def State.dropCmdId (s : State) (id : Nat) : State := s.modHost (fun h => { h with cmds := h.cmds.filter (fun c => c.id != id) })

/-- A command's completion record, chained where it concerns a port or a channel. -/
def State.cmdRecord (s : State) (c : HCmd) (cstat res res2 : Nat) (o : Option (Bool × Nat)) (after : Option Nat) : State :=
  let stale := c.gen != (s.ring c.r).gen
  let w0 := 3 * 2 ^ 12 + 2 ^ 16 * c.idx
  let w1 := cstat + 2 ^ 8 * c.op
  match o with
  | some o => s.postObj o c.r w0 w1 res res2 (bit (c.w 0) 10) none stale
  | none => s.postRecord c.r w0 w1 res res2 (bit (c.w 0) 10) none after stale

/-- The oldest command of a ring pair, where it is a NOP that waits. -/
def State.nopFront (s : State) (r : Nat) : Option HCmd :=
  (s.host.cmds.find? (fun c => c.r == r)).bind (fun c => if c.held = .nop then some c else none)

/-- The last record of a command on a ring pair. -/
def State.lastCmdRec (s : State) (r : Nat) : Option Nat :=
  ((s.host.recs.filter (fun c => c.r == r && bits c.w0 14 12 == 3)).getLast?).map (·.id)

/-- NOPs at the front of a ring pair complete. -/
def State.nopSettle (s : State) (r : Nat) : Nat → State
  | 0 => s
  | n + 1 =>
    match s.nopFront r with
    | none => s
    | some c => ((s.dropCmdId c.id).cmdRecord c 0 0 0 none (s.lastCmdRec r)).nopSettle r n

/-- A command completes (R466, R467). -/
def State.cmdDone (s : State) (c : HCmd) (cstat res res2 : Nat) (o : Option (Bool × Nat)) : State :=
  let s := (s.dropCmdId c.id).cmdRecord c cstat res res2 o none
  (s.nopSettle c.r 16).resetSettle c.part

/-- The oldest command of partition p that the command processor has not taken. -/
def State.cmdFresh (s : State) (p : Nat) : Option HCmd := s.host.cmds.find? (fun c => c.r == 8 * p && c.held == .fresh)

/-- The partition that the command processor serves next, in round robin (R466). -/
def State.cpPick (s : State) : Option Nat :=
  ((List.range 8).map (fun i => (s.host.cpNext + i) % 8)).find? (fun p => (s.cmdFresh p).isSome)

/-- Eight HCLK cycles have passed since the command processor took a command (R466). -/
def State.cpReady (s : State) : Bool :=
  (s.host.cpAt.map (fun t => decide (t + 8 * max 1000 (s.reg 0x90000) * 2 ^ 26 / 1000 ≤ s.tb.elapsed))).getD true

/-- The next command of partition p, where it is this partition's turn and `ok` holds of its OP. -/
def State.cmdAt (s : State) (p : Nat) (ok : Nat → Bool) : Option HCmd :=
  if s.cpPick = some p ∧ s.cpReady then (s.cmdFresh p).bind (fun c => if ok c.op then some c else none) else none

/-- The command processor takes a command of partition p. -/
def State.cpTake (s : State) (p : Nat) : State :=
  s.modHost (fun h => { h with cpNext := (p + 1) % 8, cpAt := some s.tb.elapsed })

/-- Bits outside OP, IRQ and the given masks of words 1 to 7 are 0. -/
def HCmd.clean (c : HCmd) (masks : List Nat) : Bool :=
  bits (c.w 0) 31 11 == 0 && bits (c.w 0) 9 8 == 0 &&
  (List.range 7).all (fun i => (c.w (i + 1)) &&& (2 ^ 32 - 1 - masks.getD i 0) == 0)

/-- PERS_LOAD and PERS_SWAP, the commands that RECOVERY accepts (R547). -/
def persOp (op : Nat) : Bool := op == 0x50 || op == 0x51

/-- Start the next command of a partition: STATE for what RECOVERY does not accept (R547), BAD_ARG where a reserved bit is not 0, NO_RIGHTS without the right. -/
def State.runCmd (s : State) (p op : Nat) (masks : List Nat) (right : Bool) (f : HCmd → State → State) : Result :=
  match s.cmdAt p (fun o => o == op) with
  | none => .next s
  | some c =>
    s.act (s.up 0)
      (let s := s.cpTake p
       if s.mram.recovery && !persOp op then s.cmdDone c 5 0 0 none
       else if !c.clean masks then s.cmdDone c 6 0 0 none
       else if !right then s.cmdDone c 3 0 0 none
       else f c s)

/-- Rights of R449. -/
def State.canCreate (s : State) (p : Nat) : Bool := bit (s.hpRights p) 8
def State.canLock (s : State) (p : Nat) : Bool := bit (s.hpRights p) 10

/-- CMD_NOP: completes after every earlier command of its ring. -/
def execCmdNop (p : Fin 8) (s : State) : Result :=
  s.runCmd p 0x40 [] true (fun c s => (s.modCmd c.id (fun c => { c with held := .nop })).nopSettle c.r 16)

/-- Entry words 0 to 5 of a CH_CREATE or CH_MODIFY as a channel entry (R419, R466). -/
def HCmd.entry (c : HCmd) (p : Nat) : Chan :=
  let w (i : Nat) := c.w (i + 2)
  { kind := bits (w 0) 2 0, hp := p, lb := bits (w 0) 10 8, nq := bits (w 0) 15 12, port := bits (w 0) 20 16
    cls := bits (w 0) 23 21, tagsup := bit (w 0) 24, spill := bit (w 0) 25, tofs12 := bit (w 0) 26
    ck := bits (w 1) 22 16, ckEn := bit (w 1) 23, ring := bits (w 1) 29 24
    imgRes := bits (w 2) 18 0, imgWords := bits (w 2) 31 22, imgHost := w 3 + 2 ^ 32 * w 4, blMax := bits (w 5) 15 0 }

/-- Reserved bits of the entry words. -/
def entryMasks (handle : Nat) : List Nat := [handle, 0xF7FFF777, 0x3FFF0FFF, 0xFFC7FFFF, 0xFFFFFFFF, 0xFFFFFFFF, 0xFFFFFFFF]

/-- The checks of R468: CSTAT, 0 where the entry is accepted. -/
def State.entryCheck (s : State) (p : Nat) (e : Chan) : Nat :=
  if e.kind < 1 ∨ 5 < e.kind ∨ 7 < e.nq ∨ e.imgRes % 4 ≠ 0 ∨ e.ring / 8 ≠ p ∨ e.ring % 8 = 0 ∨
     (e.kind = 3 ∧ 0x80000 < e.imgRes + 4 * (e.imgWords + 1)) then 6
  else if !bit (s.hpRights p) e.lb ∨ ((e.kind = 1 ∨ e.kind = 5) ∧ !bit (s.hpPorts p) e.port) then 3
  else 0

/-- FIRST and LAST of CH_RANGE; CH_NEXT, FIRST before the first allocation. -/
def State.chFirst (s : State) (p : Nat) : Nat := bits (s.reg (0x80100 + 4 * p)) 13 0
def State.chLast (s : State) (p : Nat) : Nat := bits (s.reg (0x80100 + 4 * p)) 29 16
def State.chNextOf (s : State) (p : Nat) : Nat := (tfind s.pump.chNext p).getD (s.chFirst p)

/-- The next free index of a partition's range (R420). -/
def State.chPick (s : State) (p : Nat) : Option Nat :=
  let f := s.chFirst p
  let l := s.chLast p
  if l < f then none
  else
    let n := l + 1 - f
    let st := if s.chNextOf p < f ∨ l < s.chNextOf p then 0 else s.chNextOf p - f
    (pickFrom n st (fun i => (s.chan (f + i)).kind == 0)).map (· + f)

/-- CH_CREATE (R420, R468). -/
def execChCreate (p : Fin 8) (s : State) : Result :=
  s.runCmd p 0x41 (entryMasks 0) (s.canCreate p) (fun c s =>
    let e := c.entry p
    let k := s.entryCheck p e
    if k ≠ 0 then s.cmdDone c k 0 0 none
    else match s.chPick p with
      | none => s.cmdDone c 4 0 0 none
      | some i =>
        let g := (s.chan i).gen
        let s1 := s.modChan i (fun _ => { e with gen := g })
        let s1 := s1.modPump (fun q => { q with chNext := tput q.chNext p (if i = s.chLast p then s.chFirst p else i + 1) })
        s1.cmdDone c 0 (mkHandle i g) 0 none)

/-- The channel that a command's handle names, owned by its partition (R421, R466): CSTAT on failure. -/
def State.cmdChan (s : State) (c : HCmd) : Except Nat Nat × State :=
  match s.checkHandle 0 (c.w 1) with
  | (.error e, s) => (.error e, s)
  | (.ok i, s) => if (s.chan i).hp ≠ c.part then (.error 3, s) else (.ok i, s)

/-- CH_MODIFY (R468). -/
def execChModify (p : Fin 8) (s : State) : Result :=
  s.runCmd p 0x42 (entryMasks (2 ^ 32 - 1)) (s.canCreate p) (fun c s =>
    match s.cmdChan c with
    | (.error k, s) => s.cmdDone c k 0 0 none
    | (.ok i, s) =>
      let e := c.entry p
      let o := s.chan i
      if o.state = 0 then
        let k := s.entryCheck p e
        if k ≠ 0 then s.cmdDone c k 0 0 (some (false, i))
        else
          let new : Chan := { e with
            gen := o.gen, blCount := o.blCount, blHead := o.blHead, blTail := o.blTail
            outCount := o.outCount, inCount := o.inCount, drops := o.drops, tagFaults := o.tagFaults }
          (s.modChan i (fun _ => new)).cmdDone c 0 0 0 (some (false, i))
      else
        (s.modChan i (fun o => { o with blMax := e.blMax, spill := e.spill, ckEn := e.ckEn })).cmdDone c 0 0 0 (some (false, i)))

/-- CH_DESTROY (R420, R468). -/
def execChDestroy (p : Fin 8) (s : State) : Result :=
  s.runCmd p 0x43 [2 ^ 32 - 1] (s.canCreate p) (fun c s =>
    match s.cmdChan c with
    | (.error k, s) => s.cmdDone c k 0 0 none
    | (.ok i, s) =>
      let o := s.chan i
      if o.state ≠ 0 then s.cmdDone c 5 0 0 (some (false, i))
      else (s.modChan i (fun o => { gen := (o.gen + 1) % 4096 })).cmdDone c 0 0 0 (some (false, i)))

/-! ### Enable and disable (R469-R472) -/

/-- The state of a port (true) or a channel (false). -/
def State.objState (s : State) (o : Bool × Nat) : Nat := if o.1 then s.pstate o.2 else (s.chan o.2).state

/-- Set it; an ENABLE that has just been accepted starts the 2 ms of a port. -/
def State.setObj (s : State) (o : Bool × Nat) (v : Nat) : State :=
  if o.1 then s.setPstate o.2 v else s.modChan o.2 (fun c => { c with state := v })
def State.noteEnable (s : State) (o : Bool × Nat) : State :=
  if o.1 then s.modHost (fun h => { h with penAt := tset 0 h.penAt o.2 s.tb.elapsed }) else s

/-- Hold a command on an object. -/
def State.holdCmd (s : State) (c : HCmd) (h : HHeld) (res : Nat) : State :=
  s.modCmd c.id (fun c => { c with held := h, result := res })

/-- Complete every held ENABLE, or every held DISABLE, of an object in acceptance order. -/
def State.endHeld (s : State) (o : Bool × Nat) (en : Bool) (cstat : Nat) : State :=
  let h : HHeld := if en then .enable o.1 o.2 else .disable o.1 o.2
  (s.host.cmds.filter (fun c => c.held == h)).foldl (fun s c =>
    s.cmdDone c cstat c.result 0 (if cstat = 8 then none else some o)) s

/-- Free the backlog of a channel; how many buffers. -/
def State.freeBacklog (s : State) (i : Nat) : Nat → Nat × State
  | 0 => (0, s)
  | n + 1 =>
    match s.blPop i with
    | none => (0, s)
    | some (b, s1) => let r := (s1.freeRef b).freeBacklog i n; (r.1 + 1, r.2)

/-- A channel enters DRAINING: its posts complete with STATE, its backlog is freed (R471). -/
def State.chanDrain (s : State) (i : Nat) : Nat × State :=
  let ps := s.host.posts.filter (fun p => p.ch == i)
  let s := s.modHost (fun h => { h with posts := h.posts.filter (fun p => p.ch != i) })
  let s := ps.foldl (fun s p => s.postObj (false, i) p.r (4 + 2 ^ 12 + 2 ^ 16 * p.idx) 0 0 0 p.irq none false) s
  s.freeBacklog i (s.chan i).blCount

/-- Remove a queued frame that has not started (R470): the buffer of a firmware TX goes back to its bore, as the error
STATE changes nothing (R423). -/
def State.dropQueued (s : State) (n : Nat) (i : TxItem) : State :=
  let h := s.itemHead i
  match i with
  | .deferred .. => s.dropRef h
  | .move k =>
    match s.move k with
    | some m => (s.modCell h (fun c => { c with owner := 8 + m.lb })).moveDone k 4 0
    | none =>
      match s.hmove k with
      | none => s.dropRef h
      | some m =>
        let s := s.dropRef h
        let s := s.modHmove k (fun m => { m with phase := .record, err := 4 })
        s.postObj (true, n) m.r (4 + 2 ^ 11 * b2n m.late + 2 ^ 16 * m.idx) 0 0 0 m.irq (some k) (m.gen != (s.ring m.r).gen)

/-- A port enters DRAINING: every queued frame that has not started is removed (R470). -/
def State.portFlush (s : State) (n : Nat) : State :=
  let items := (s.port n).queues.flatMap (·.2)
  let s := s.modPort n (fun p => { p with queues := [], guarded := [], paused := [] })
  items.foldl (fun s i => s.dropQueued n i) s

/-- Enter DRAINING; the RESULT of the DISABLE that asks for it. -/
def State.enterDrain (s : State) (o : Bool × Nat) : Nat × State :=
  let s := s.setObj o 3
  if o.1 then (0, s.portFlush o.2) else s.chanDrain o.2

/-- ENABLE on an object (R469). -/
def State.enableObj (s : State) (c : HCmd) (o : Bool × Nat) : State :=
  let hold (s : State) := s.holdCmd c (.enable o.1 o.2) 0
  match s.objState o with
  | 0 => (hold (s.setObj o 1)).noteEnable o
  | 2 => s.cmdDone c 0 0 0 (some o)
  | 3 => (hold (s.setObj o 4)).noteEnable o
  | _ => hold s

/-- DISABLE on an object (R469). -/
def State.disableObj (s : State) (c : HCmd) (o : Bool × Nat) : State :=
  match s.objState o with
  | 0 => s.cmdDone c 0 0 0 (some o)
  | 3 => s.holdCmd c (.disable o.1 o.2) 0
  | 4 => ((s.endHeld o true 8).setObj o 3).holdCmd c (.disable o.1 o.2) 0
  | st =>
    let s := if st = 1 then s.endHeld o true 8 else s
    let r := s.enterDrain o
    r.2.holdCmd c (.disable o.1 o.2) r.1

/-- CH_ENABLE. -/
def execChEnable (p : Fin 8) (s : State) : Result :=
  s.runCmd p 0x44 [2 ^ 32 - 1] true (fun c s =>
    match s.cmdChan c with
    | (.error k, s) => s.cmdDone c k 0 0 none
    | (.ok i, s) => s.enableObj c (false, i))

/-- CH_DISABLE. -/
def execChDisable (p : Fin 8) (s : State) : Result :=
  s.runCmd p 0x45 [2 ^ 32 - 1] true (fun c s =>
    match s.cmdChan c with
    | (.error k, s) => s.cmdDone c k 0 0 none
    | (.ok i, s) => s.disableObj c (false, i))

/-- A port command: NO_RIGHTS without the port's bit. -/
def State.portCmd (s : State) (p op : Nat) (f : HCmd → Nat → State → State) : Result :=
  s.runCmd p op [31] true (fun c s =>
    let n := c.w 1 % 32
    if bit (s.hpPorts p) n then f c n s else s.cmdDone c 3 0 0 none)

/-- PORT_ENABLE. -/
def execPortEnable (p : Fin 8) (s : State) : Result := s.portCmd p 0x48 (fun c n s => s.enableObj c (true, n))
/-- PORT_DISABLE. -/
def execPortDisable (p : Fin 8) (s : State) : Result := s.portCmd p 0x49 (fun c n s => s.disableObj c (true, n))

/-- PORT_ON: the first GCLK cycle with lane_rx_dv at 0, or at once in pin mode (R470). -/
def execPortOn (n : Fin 32) (s : State) : Result :=
  s.act (s.pstate n == 1 && s.up (3 + n.val / 4) && !(s.laneMode n && (s.port n).rxOn)) ((s.setPstate n 2).endHeld (true, n) true 0)

/-- ENABLE_TIMEOUT: not ON 2 ms after the ENABLE was accepted (R469). -/
def execEnableTimeout (n : Fin 32) (s : State) : Result :=
  s.act (s.pstate n == 1 && decide (tget 0 s.host.penAt n + 2 * msUnits ≤ s.tb.elapsed))
    ((s.setPstate n 0).endHeld (true, n) true 9)

/-- The end of a drain: the removed moves' records, the held DISABLEs, then OFF or ENABLING (R469, R472). -/
def State.drainEnd (s : State) (o : Bool × Nat) : State :=
  let next := if s.objState o = 4 then 1 else 0
  (s.endHeld o false 0).setObj o next

/-- PORT_DRAIN_END: the transmitter is free and no frame-end record is outstanding (R470).
(DEDUCED, unsafe: log entry 58.) -/
def execPortDrainEnd (n : Fin 32) (s : State) : Result :=
  s.act ((s.pstate n == 3 || s.pstate n == 4) && (s.port n).tx.isNone && !(s.port n).rxOn &&
    decide ((s.port n).txTill.getD 0 ≤ s.tb.elapsed) && (s.port n).ends.isEmpty)
    ((s.portFlush n).drainEnd (true, n))

/-- CHANNEL_ON: the checks of R468 are repeated (R471). -/
def execChannelOn (ch : Fin 16384) (s : State) : Result :=
  let c := s.chan ch
  s.act (c.state == 1)
    (if s.entryCheck c.hp c = 0 then (s.setObj (false, ch) 2).endHeld (false, ch) true 0
     else (s.setObj (false, ch) 0).endHeld (false, ch) true 3)

/-- Buffers freed at the end of a drain count in the RESULT of the oldest held DISABLE (R466, R471). -/
def State.addFreed (s : State) (ch n : Nat) : State :=
  match s.host.cmds.find? (fun c => c.held == .disable false ch) with
  | some c => s.modCmd c.id (fun c => { c with result := c.result + n })
  | none => s

/-- CHANNEL_DRAIN_END: INFLIGHT is 0 and no post remains (R471); buffers that accepted moves have put in the backlog since
are freed too. -/
def execChannelDrainEnd (ch : Fin 16384) (s : State) : Result :=
  let c := s.chan ch
  let r := s.chanDrain ch
  s.act ((c.state == 3 || c.state == 4) && s.inflight ch == 0 && !s.host.posts.any (fun p => p.ch == ch.val))
    ((r.2.addFreed ch r.1).drainEnd (false, ch))

/-! ### Lock commands (R466, R480-R487) -/

/-- A lease of 1 to 16,000 µs. -/
def leaseOk (us : Nat) : Bool := decide (1 ≤ us) && decide (us ≤ 16000)

/-- A lock command acts in its stroke after the threads, in ascending partition (R491). -/
def State.runLock (s : State) (p op : Nat) (masks : List Nat) (right : Bool) (f : HCmd → State → State) : Result :=
  if 9 + p < s.rank then .next s else s.runCmd p op masks right (fun c s => f c { s with rank := 9 + p })

/-- LOCKG_ACQ. -/
def execLockgAcq (p : Fin 8) (s : State) : Result :=
  s.runLock p 0x58 [1023, 0, 16383] (s.canLock p) (fun c s =>
    if !leaseOk (c.w 3) then s.cmdDone c 6 0 0 none
    else let r := s.groupAcquire (128 + p) (some (c.w 3)) (c.w 1); r.2.cmdDone c 0 r.1 0 none)

/-- LOCKG_REL. -/
def execLockgRel (p : Fin 8) (s : State) : Result :=
  s.runLock p 0x59 [1023] (s.canLock p) (fun c s => let r := s.groupRelease (128 + p) (c.w 1) 0; r.2.cmdDone c 0 r.1 0 none)

/-- LOCKG_FORCE: accepted from HP0 only. -/
def execLockgForce (p : Fin 8) (s : State) : Result :=
  s.runLock p 0x5A [1023] (s.canLock p && p.val == 0) (fun c s =>
    let r := s.groupForce (128 + p) (c.w 1); r.2.cmdDone c 0 r.1 0 none)

/-- The word that a LOCKW command names: space, bore and address; none for BAD_ARG. -/
def HCmd.lockWord (c : HCmd) : Option (Nat × Nat × Nat) :=
  let sp := bits (c.w 1) 31 29
  let a := bits (c.w 1) 22 0
  if a % 4 ≠ 0 ∨ bits (c.w 1) 28 23 ≠ 0 then none
  else if sp = 1 ∧ a < 0x80000 then some (1, c.w 2, a)
  else if sp = 2 ∧ c.w 2 = 0 then some (2, 0, a)
  else none

/-- LOCKW_ACQ. -/
def execLockwAcq (p : Fin 8) (s : State) : Result :=
  s.runLock p 0x5B [2 ^ 32 - 1, 7, 16383] (s.canLock p) (fun c s =>
    match c.lockWord with
    | some (sp, lb, a) =>
      if !leaseOk (c.w 3) then s.cmdDone c 6 0 0 none
      else let r := s.hostLock sp lb a (fun s w => s.lockAcquireAs (128 + p) (c.w 3) sp lb a w); r.2.cmdDone c 0 r.1 0 none
    | none => s.cmdDone c 6 0 0 none)

/-- LOCKW_REL. -/
def execLockwRel (p : Fin 8) (s : State) : Result :=
  s.runLock p 0x5C [2 ^ 32 - 1, 7] (s.canLock p) (fun c s =>
    match c.lockWord with
    | some (sp, lb, a) => let r := s.hostLock sp lb a (fun s w => s.lockReleaseAs (128 + p) sp lb a 0 w); r.2.cmdDone c 0 r.1 0 none
    | none => s.cmdDone c 6 0 0 none)

/-- The OPs that R466 lists. -/
def knownOp (o : Nat) : Bool :=
  [0x40, 0x41, 0x42, 0x43, 0x44, 0x45, 0x48, 0x49, 0x50, 0x51, 0x58, 0x59, 0x5A, 0x5B, 0x5C].contains o

/-- UNDEFINED_COMMAND. -/
def execUndefinedCommand (p : Fin 8) (s : State) : Result :=
  match s.cmdAt p (fun o => !knownOp o) with
  | none => .next s
  | some c => s.act (s.up 0) ((s.cpTake p).cmdDone c (if s.mram.recovery then 5 else 7) 0 0 none)

/-! ### Registers (R473, R475, R476) -/

/-- EN of a ring pair falls: records not yet sent are discarded. -/
def State.ringOff (s : State) (r : Nat) : State :=
  let gone := s.host.recs.filter (fun c => c.r == r && !c.sent)
  let s := s.modHost (fun h => { h with recs := h.recs.filter (fun c => !(c.r == r && !c.sent)) })
  gone.foldl (fun s c => s.recFinish c.slot) s

/-- CFG_ERR of a ring pair. -/
def State.ringCfgErr (s : State) (r : Nat) : State := (s.modRing r (fun g => { g with cfgErr := true, fresh := g.fresh.set s.moment 2 })).hostAlarm 3

/-- The value of HR_CFG that a write stores. -/
def cfgValue (w : Nat) : Nat := bits w 1 0 + 2 ^ 8 * max 4 (min 12 (bits w 11 8)) + 2 ^ 12 * max 4 (min 12 (bits w 15 12))

/-- A write to HR_CFG (R454, R476).
(DEDUCED, safe: log entry 59.) -/
def State.hrCfgWrite (s : State) (r w : Nat) : State :=
  let old := s.ringCfg r
  if bit old 0 then
    let s := if cfgValue w / 4 = old / 4 then s else s.ringCfgErr r
    let s := s.setReg (ringBase r) (old / 4 * 4 + bits w 1 0)
    if bit w 0 then s else s.ringOff r
  else
    let s := s.setReg (ringBase r) (cfgValue w)
    if bit w 0 then
      s.modRing r (fun g => { g with
        gen := g.gen + 1, sqHead := 0, cqCount := 0, sqTail := 0, cqHead := 0, fetching := false, halted := false
        coCount := 0, irqAt := none })
    else s

/-- RING_ENABLE: a write to HR_CFG with EN at 1 (R454). -/
def execRingEnable (r : Fin 64) (w : Word) (s : State) : Result := .next (s.hrCfgWrite r (putBits w.toNat 0 0 1))

/-- RESET of a partition (R473). -/
def State.partReset (s : State) (p : Nat) : State :=
  let s := s.setReg (partBase p) (putBits (s.reg (partBase p)) 0 0 0)
  let s := (List.range 8).foldl (fun s l =>
    let r := 8 * p + l
    let on := s.ringEn r
    let s := s.setReg (ringBase r) (putBits (s.ringCfg r) 0 0 0)
    if on then s.ringOff r else s) s
  let s := s.modHost (fun h => { h with posts := h.posts.filter (fun q => partOf q.r != p) })
  let s := s.abandon (fun m => m == 128 + p)
  (s.modPart p (fun h => { h with resetBusy := true })).resetSettle p

/-- A write to HP_CTRL. -/
def State.hpCtrlWrite (s : State) (p w : Nat) : State :=
  let s := s.setReg (partBase p) (bits w 1 0)
  if bit w 2 then s.partReset p else s

/-- PARTITION_RESET: a write to HP_CTRL with RESET at 1 (R473). -/
def execPartitionReset (p : Fin 8) (w : Word) (s : State) : Result := .next (s.hpCtrlWrite p (putBits w.toNat 2 2 1))

/-- A write of the word `w` to the host register at offset `off`. -/
def State.hrWrite (s : State) (off w : Nat) : State :=
  if off = 0x90000 then if s.locked then s else s.setReg off (max 1000 (min 20000 (bits w 14 0)))
  else if off = 0x90004 then s.modHost (fun h => { h with alarm := h.fresh.clear s.moment h.alarm w })
  else if off = 0x90008 then s.setReg off (bits w 3 0)
  else if 0x90100 ≤ off ∧ off < 0x90200 then
    let p := (off - 0x90100) / 32
    let o := off % 32
    if o = 0 then s.hpCtrlWrite p w
    else if o = 4 then if s.locked then s else s.setReg off (bits w 10 0)
    else if o = 8 then if s.locked then s else s.setReg off w
    else if o = 12 then s.setReg off (max 100 (min 10000 (bits w 13 0)))
    else if o = 16 ∨ o = 20 then
      if s.hpEn p then s.hostAlarm 3 else s.setReg off (if o = 16 then bits w 31 6 * 64 else w)
    else if o = 28 then s.modPart p (fun h => { h with pollErr := h.pollErr && (!bit w 0 || bit (h.fresh.held s.moment) 0) })
    else s
  else if 0x91000 ≤ off ∧ off < 0x91800 then
    let r := (off - 0x91000) / 32
    let o := off % 32
    if o = 0 then s.hrCfgWrite r w
    else if o = 4 ∨ o = 8 ∨ o = 12 ∨ o = 16 then
      if s.ringEn r then s.ringCfgErr r else s.setReg off (if o = 4 ∨ o = 12 then bits w 31 6 * 64 else w)
    else if o = 20 then s.setReg off (max 1 (bits w 7 0) + 2 ^ 16 * bits w 27 16)
    else if o = 28 then
      s.modRing r (fun g => { g with
        descHost := g.descHost && (!bit w 0 || bit (g.fresh.held s.moment) 0)
        cfgErr := g.cfgErr && (!bit w 1 || bit (g.fresh.held s.moment) 1) })
    else s
  else s

/-- A write to the channel set-up registers (R446). -/
def State.chWrite (s : State) (off w : Nat) : State :=
  if off = 0x80000 then s.setReg off (bits w 13 0)
  else if 0x80100 ≤ off ∧ off < 0x80120 then
    if s.locked then s else s.setReg off (bits w 13 0 + 2 ^ 16 * bits w 29 16)
  else s

end Sys2Proof.Machine
end

