-- ==== Sys2Proof/Machine/Wellhead.lean ====
section
/-!
DEFINITION. The wellhead (chapter 15): class actions, fault outputs, clock monitor, relief rotation, retirement,
scrubbing, and the well log with its spillway.  Times in milliseconds are counted on the model's elapsed time.
-/

namespace Sys2Proof.Machine

/-- Change the wellhead's own state. -/
def State.modWh (s : State) (f : WhSt → WhSt) : State := { s with wh := f s.wh }
/-- Change relief rotation. -/
def State.modRot (s : State) (f : RotSt → RotSt) : State := s.modWh (fun w => { w with rot := f w.rot })

/-! ### Intake (R520, R529) -/

/-- Kinds of record for the spillway (R520, R530): class 15 and UNIT 0 are alarm records. -/
def Ev.isAlarm (e : Ev) : Bool := !e.trace && (e.alarm || e.unit == 0 || e.cls == 15)

/-- The alarm source s = 16u + b of R529; for UNIT 0 the bit is that of WH_ALARM. -/
def Ev.source (e : Ev) : Nat := 16 * e.unit + (if e.unit = 0 then e.cls else e.typ) % 16

/-- An alarm that is not admitted, or finds the intake of its unit full, takes the next SEQ and is counted (R521, R529). -/
def State.coalesceUp (s : State) (e : Ev) : State :=
  s.modWh (fun w => { w with
    seq := (w.seq + 1) % 2 ^ 32
    coalesce := tput w.coalesce e.source (tget 0 w.coalesce e.source + 1)
    almCnt := tput w.almCnt e.source (satInc 32 (tget 0 w.almCnt e.source)) })

/-- A log record takes the next SEQ and is dropped: its producer's count and first dropped SEQ are kept (R521, R529). -/
def State.dropLog (s : State) (e : Ev) : State :=
  s.modWh (fun w => { w with
    seq := (w.seq + 1) % 2 ^ 32
    logDrops := satInc 16 w.logDrops
    gaps := let g := tget (0, w.seq) w.gaps e.unit; tput w.gaps e.unit (g.1 + 1, g.2) })

/-- A trace record is dropped and counted. -/
def State.dropTrace (s : State) : State :=
  { s.modWh (fun w => { w with traceDrops := satInc 16 w.traceDrops }) with dbg := { s.dbg with dropped := satInc 16 s.dbg.dropped } }

/-- Hand a record to the intake of its unit: eight entries, and a producer never waits (R520). -/
def State.toIntake (s : State) (e : Ev) : State :=
  let q := tget [] s.wh.intake e.unit
  if q.length < 8 then s.modWh (fun w => { w with intake := tput w.intake e.unit (q ++ [e]) })
  else if e.isAlarm then s.coalesceUp e
  else if e.trace then s.dropTrace
  else s.dropLog e

/-- A record of the wellhead itself that is no event of a class (R523, UNIT 0).
(DEDUCED, unsafe: log entry 63.) -/
def State.whRecord (s : State) (typ a0 a1 : Nat) : State :=
  s.toIntake { unit := 0, cls := 14, typ := typ, alarm := false, trace := false, arg0 := a0, arg1 := a1 }

/-! ### Class actions and fault outputs (R501-R503) -/

/-- ACTION⟨c⟩ with its fixed bits (R501). -/
def State.action (s : State) (c : Nat) : Nat :=
  let w := s.reg (if c < 8 then 0x02014 else 0x02018)
  bits w (4 * (c % 8) + 3) (4 * (c % 8)) ||| (if (1 ≤ c ∧ c ≤ 8) ∨ c = 15 then 8 else 0) |||
    (if c = 5 ∨ c = 8 ∨ c = 15 then 4 else 0)

/-- Assert the fault outputs for an event of class `c` (R502). -/
def State.assertFault (s : State) (c : Nat) : State :=
  let was := s.wh.fault
  let s := s.modWh (fun w => { w with
    fault := true
    faultFirst := if w.faultCount = 0 then c else w.faultFirst
    faultCount := satInc 16 w.faultCount
    byHalves := w.byHalves || c == 15
    lastFault := some s.tb.elapsed })
  if was then s else s.whRecord 0x33 (c + 2 ^ 8) 0

/-- A write to WH_FAULT_CLR: KEY is bits [7:0], the reserved bits are ignored (R14, R503). -/
def State.faultKey (s : State) (w : Nat) : State :=
  let ms (t : Nat) := decide (s.tb.elapsed ≤ t + msUnits)
  if w % 256 = 0xA5 then s.modWh (fun v => { v with key := some s.tb.elapsed })
  else
    let complete := w % 256 == 0x5A && (s.wh.key.map ms).getD false
    let quiet := !(s.wh.lastFault.map (fun t => decide (s.tb.elapsed < t + msUnits))).getD false
    let s1 := s.modWh (fun v => { v with key := none })
    if complete && s.mram.primed && !s.dbg.testMode && s.wh.fault && quiet && s.wh.halvesOk && !s.wh.byHalves then
      (s1.modWh (fun v => { v with fault := false, faultFirst := 0, faultCount := 0 })).whRecord 0x33 s.wh.faultFirst 0
    else s1

/-! ### Bores in service (R515, R516, R518) -/

def State.rotCtrl (s : State) : Nat := s.reg 0x0201C
def State.safeLb (s : State) (lb : Nat) : Bool := bit s.rotCtrl (8 + lb)

/-- G: bores that are not retired. -/
def State.goodBores (s : State) : Nat := ((List.range 10).filter (fun b => (s.pb b).role != 4)).length
/-- Logical bores in service. -/
def State.inService (s : State) : List Nat := (List.range 8).filter (fun l => !(s.lb l).shed)

/-- How many logical bores the table of R516 carries. -/
def carriedBy (keep : Bool) (g : Nat) : Nat := if keep then min 8 (g - 1) else min 8 g
def State.mayCarry (s : State) : Nat := carriedBy (bit s.rotCtrl 1) s.goodBores

/-- Rotation runs (R508). -/
def State.rotRuns (s : State) : Bool := bit s.rotCtrl 0 && decide (s.inService.length < s.goodBores)

/-- A class-4 event (R516, R518); `force` forces its FAULT. -/
def State.classFour (s : State) (typ a0 a1 : Nat) (force : Bool) : State :=
  { s with evq := s.evq ++ [{ unit := 0, cls := 4, typ := typ, alarm := false, trace := false, arg0 := a0, arg1 := a1, force := force }] }

/-- Note whether rotation runs; where it stops with a logical bore of SAFE_LB carried, a forced event (R518).
(DEDUCED, unsafe: log entry 73.) -/
def State.rotSettle (s : State) : State :=
  let runs := s.rotRuns
  let safe := s.inService.any s.safeLb
  let s1 := s.modRot (fun r => { r with running := runs })
  if s.wh.rot.running && !runs && safe then s1.classFour 4 15 (Config.detailCode 4 0 0).toNat true else s1

/-- A logical bore leaves service (R516). -/
def State.shedLb (s : State) (lb : Nat) : State :=
  let c := s.carrier lb
  let s := s.modLb lb (fun b => { b with shed := true, turn := none })
  let s := (List.range 16).foldl (fun s t => s.modTh (16 * lb + t) (fun h => { h with st := .retired, startReq := none })) s
  let s := s.abandon (fun m => decide (m < 128) && m / 16 == lb)
  let s := if c < 10 then s.modPb c (fun p => { p with role := 1, since := s.strokes }) else s
  s.classFour 0x32 lb s.goodBores (s.safeLb lb)

/-- WH_SHED_ORDER. -/
def State.shedOrder (s : State) : List Nat := (List.range 8).map (fun q => bits (s.reg 0x02020) (4 * q + 2) (4 * q))

/-- Logical bores leave service until the number of R516 is met. -/
def State.shedTo (s : State) : List Nat → State
  | [] => s
  | l :: ls =>
    if s.inService.length ≤ s.mayCarry then s
    else if (s.lb l).shed then s.shedTo ls else (s.shedLb l).shedTo ls

/-- What a change of G or of the policy entails. -/
def State.degrade (s : State) : State := (s.shedTo s.shedOrder).rotSettle

/-- Retire a bore (R515): `cause` is the class. -/
def State.retire (s : State) (b cause block : Nat) : State :=
  let p := s.pb b
  let s := s.modPb b (fun p => { p with role := 4, doomed := false })
  let s := s.modRot (fun r => { r with
    testing := if r.testing.map (·.1) = some b then none else r.testing
    emergencies := r.emergencies.filter (· != b), ahead := r.ahead.filter (· != b) })
  let s := s.whRecord 0x31 (b + 2 ^ 8 * cause) block
  let s := if p.role = 0 && !(s.lb p.lb).shed then s.shedLb p.lb else s
  s.degrade

/-- Remember what its retirement will report (R523). -/
def State.noteCause (s : State) (b cause block : Nat) : State :=
  s.modPb b (fun p => { p with cause := cause, block := block })

/-- The RETIRE action on a bore (R501, R512, R513). -/
def State.retireAction (s : State) (b cause block : Nat) : State :=
  let role := (s.pb b).role
  let s := s.noteCause b cause block
  match s.wh.rot.mig with
  | some m =>
    let drained := match m.phase with | .drain _ => true | _ => false
    if b = m.victim then s.modPb b (fun p => { p with doomed := true })
    else if b = m.target then
      (if drained then
        s.modRot (fun r => { r with mig := some { m with again := true } }) |>.modPb b (fun p => { p with doomed := true })
       else (s.modRot (fun r => { r with mig := none
                                         emergencies := if m.emergency then r.emergencies ++ [m.victim] else r.emergencies })).retire b cause block)
    else if role = 0 then s.modRot (fun r => { r with emergencies := if r.emergencies.contains b then r.emergencies else r.emergencies ++ [b] })
    else if role = 4 then s else s.retire b cause block
  | none =>
    if role = 0 then s.modRot (fun r => { r with emergencies := if r.emergencies.contains b then r.emergencies else r.emergencies ++ [b] })
    else if role = 4 then s else s.retire b cause block

/-! ### An event of a class (R501) -/

/-- Bore `b` is the victim or the target of the step in progress, whose class-3 faults R512 rules. -/
def State.inStep (s : State) (b : Nat) : Bool := (s.wh.rot.mig.map (fun m => m.victim == b || m.target == b)).getD false

/-- The class actions of an event, and its offer to the log. -/
def State.whEvent (s : State) (e : Ev) : State :=
  let a := s.action e.cls
  let s := if e.trace && e.unit != 1 then s
    else
      let s := if bit a 0 then s.modWh (fun w => { w with alarm := w.alarm ||| 2 ^ e.cls, fresh := w.fresh.set s.moment (2 ^ e.cls) }) else s
      let s := if (bit a 1 || (e.cls == 3 && s.inStep e.arg0)) && (e.cls == 3 || (e.cls == 4 && e.typ == 4)) && e.arg0 < 10 then s.retireAction e.arg0 e.cls e.arg1 else s
      if bit a 2 || e.force then s.assertFault e.cls else s
  s.toIntake e

/-- WELLHEAD_EVENT: the oldest event on its way reaches the wellhead; `check` is a detection by the parity and
residue checks of a bore (class 3), which no other command stands for: bore and detail code. -/
def execWellheadEvent (check : Option (Fin 10 × Word)) (s : State) : Result :=
  match check with
  | some (b, d) =>
    .next (s.whEvent { unit := 0, cls := 3, typ := 3, alarm := false, trace := false, arg0 := b, arg1 := d.toNat })
  | none =>
    match s.evq.find? (fun e => e.at_ ≤ s.strokes) with
    | none => .next s
    | some e => .next ({ s with evq := s.evq.erase e }.whEvent e)

/-- FAULT_CLEAR_KEY: a write to WH_FAULT_CLR (R503).
(DEDUCED, unsafe: log entry 64.) -/
def execFaultClearKey (w : Word) (s : State) : Result := .next (s.faultKey w.toNat)

/-- HALVES_DISAGREE: each half asserts on its own (R498, R502). -/
def execHalvesDisagree (s : State) : Result :=
  .next (({ s with draws := s.draws + 2 }.modWh (fun w => { w with halvesOk := false })).whEvent
    { unit := 0, cls := 15, typ := 15, alarm := false, trace := false
      arg0 := (Config.freeWord s.draws).toNat, arg1 := (Config.freeWord (s.draws + 1)).toNat })

/-! ### Clock monitor (R499) -/

def State.clkMon (s : State) (k : Nat) : ClkMon := tget {} s.wh.clks k
def State.setClk (s : State) (k : Nat) (c : ClkMon) : State := s.modWh (fun w => { w with clks := tset {} w.clks k c })

/-- One window of clock `k` with `n` edges.  A clock that becomes LOST is a class-7 event, that of TCLK the governor's. -/
def State.clkWindow (s : State) (k n : Nat) : State :=
  let w := s.reg (0x02040 + 4 * k)
  if bits w 15 0 = 0 then s
  else
    let c := s.clkMon k
    let good := decide (bits w 15 0 ≤ n) && decide (n ≤ bits w 31 16)
    let c1 : ClkMon := { c with bad := if good then 0 else c.bad + 1, good := if good then c.good + 1 else 0 }
    if !c.lost && decide (2 ≤ c1.bad) then
      let s := s.setClk k { c1 with lost := true }
      if k = 2 then s else s.event 0 7 7 k (Config.detailCode 7 1 0).toNat
    else s.setClk k { c1 with lost := c.lost && decide (c1.good < 16) }

/-- CLOCK_WINDOW: the edges counted of each clock, in the order of R499.  The loss of TCLK and its return are
reported by the governor (R61).  Step 1 of priming watches NCLK and TCLK (R544).
(DEDUCED, unsafe: log entry 69.) -/
def execClockWindow (counts : List Nat) (s : State) : Result :=
  let s1 := (List.range 13).foldl (fun s k => s.clkWindow k (counts.getD k 0)) s
  let seen := decide (64 ≤ counts.getD 2 0) && decide (64 ≤ counts.getD 12 0)
  .next { s1 with mram := { s1.mram with clocksSeen := s1.mram.clocksSeen || seen } }

/-! ### Relief rotation (R508-R514) -/

/-- The relief bore that has been idle longest. -/
def State.longestIdle (s : State) : Option Nat :=
  ((List.range 10).filter (fun b => (s.pb b).role == 1)).foldl
    (fun o b => match o with
      | none => some b
      | some a => if (s.pb b).since < (s.pb a).since then some b else some a) none

/-- The carrying bore that has carried longest; victims named ahead come first (R507, R508). -/
def State.nextVictim (s : State) : Option Nat :=
  match s.wh.rot.ahead.find? (fun b => (s.pb b).role == 0) with
  | some b => some b
  | none =>
    ((List.range 10).filter (fun b => (s.pb b).role == 0)).foldl
      (fun o b => match o with
        | none => some b
        | some a => if (s.pb b).since < (s.pb a).since then some b else some a) none

/-- Start a migration. -/
def State.startMig (s : State) (v t : Nat) (emergency : Bool) : State :=
  let lb := (s.pb v).lb
  let s := s.modPb t (fun p => { p with role := 3, lb := lb })
  s.modRot (fun r => { r with
    mig := some { victim := v, target := t, lb := lb, phase := .mirror, emergency := emergency, again := false, begun := s.strokes }
    victim := v, target := t, ahead := r.ahead.filter (· != v) })

/-- ROTATION_STEP: a millisecond after the last step (R508). -/
def execRotationStep (s : State) : Result :=
  let r := s.wh.rot
  match s.nextVictim, s.longestIdle with
  | some v, some t =>
    s.act (s.mram.primed && s.rotRuns && r.mig.isNone && r.emergencies.isEmpty && r.testing.isNone && s.up 2 &&
        decide (r.lastAt + msUnits ≤ s.tb.elapsed))
      ((s.startMig v t false).modRot (fun r => { r with lastAt := s.tb.elapsed, running := true }))
  | _, _ => .next s

/-- Uncorrectable words that the mirror copies raise class-1 events (R509). -/
def State.mirrorReads (s : State) (lb : Nat) : State :=
  (s.ecc.filter (fun k => k.mem.lbore == some lb && k.state == .uncorrectable)).foldl
    (fun s k => s.eccRead .mirror k.mem k.word) s

/-- The strokes that the mirror takes at least (R509): the code banks, the reservoir, the wells and the bit space, 64 bytes
a stroke. -/
def mirrorStrokes : Nat := (512 + 512 + 64 + 9) * 1024 / 64

/-- MIRROR_DONE: the cut-over stroke is the first multiple of 16 at least 16 strokes on (R510). -/
def execMirrorDone (s : State) : Result :=
  match s.wh.rot.mig with
  | some m =>
    s.act (m.phase == .mirror && decide (m.begun + mirrorStrokes ≤ s.strokes))
      ((s.mirrorReads m.lb).modRot (fun r => { r with mig := some { m with phase := .frontEnd (ceilDiv (s.strokes + 16) 16 * 16) } }))
  | none => .next s

/-- CUT_OVER: at stroke c the target carries (R510). -/
def execCutOver (s : State) : Result :=
  match s.wh.rot.mig with
  | some m =>
    match m.phase with
    | .frontEnd c =>
      s.act (decide (c ≤ s.strokes))
        (((s.modPb m.victim (fun p => { p with role := 2 })).modPb m.target
          (fun p => { p with role := 0, lb := m.lb, since := s.strokes })).modRot
          (fun r => { r with mig := some { m with phase := .drain c } }))
    | _ => .next s
  | none => .next s

/-- A long operation that was launched before stroke `c` is still to write its result. -/
def State.draining (s : State) (lb c : Nat) : Bool :=
  (List.range 16).any (fun t =>
    let h := s.th (16 * lb + t)
    h.longs.any (fun l => decide (l.issued < c)) || h.cis.any (fun l => decide (l.issued < c))) ||
  ((s.lb lb).lv.map (fun l => decide (l.issued < c))).getD false

/-- The drain overruns: every result not yet written is lost, its done bit is set (R512). -/
def State.loseResults (s : State) (lb c victim : Nat) : State :=
  let s := (List.range 16).foldl (fun s t =>
    let x := 16 * lb + t
    let h := s.th x
    let lost := h.longs.any (fun l => decide (l.issued < c)) || h.cis.any (fun l => decide (l.issued < c))
    let done := (h.cis.filter (fun l => decide (l.issued < c))).map (fun l => cdoneBit l.idx)
    let s := s.modTh x (fun h => { h with longs := h.longs.filter (fun l => !(l.issued < c)), cis := h.cis.filter (fun l => !(l.issued < c)) })
    let s := done.foldl (fun s a => s.hwFlag .thread x a) s
    if lost then s.classFour 4 victim (Config.detailCode 4 1 x).toNat false else s) s
  match (s.lb lb).lv with
  | some l =>
    if l.issued < c then
      (((s.modLb lb (fun b => { b with lv := none })).hwFlag .thread l.x flagLVDONE)).classFour 4 victim (Config.detailCode 4 1 l.x).toNat false
    else s
  | none => s

/-- DRAIN_END: the last long operation launched before c has written its result, or the drain overruns (R510, R512). -/
def execDrainEnd (s : State) : Result :=
  match s.wh.rot.mig with
  | some m =>
    match m.phase with
    | .drain c =>
      let late := decide (c + 4200 < s.strokes)
      let busy := s.draining m.lb c
      if busy && !late then .next s
      else
        let s1 := if busy then s.loseResults m.lb c m.victim else s
        let gone := busy || m.emergency || (s1.pb m.victim).doomed
        let n := s1.wh.rot.steps
        let s1 := s1.whRecord 0x30 (m.victim + 2 ^ 4 * m.target + 2 ^ 16 * ((n + 1) % 65536)) (c % 2 ^ 32)
        let s1 := s1.modRot (fun r => { r with mig := none, steps := (r.steps + 1) % 65536 })
        let s2 := if gone then (if m.emergency || (s1.pb m.victim).doomed then s1.retire m.victim (s1.pb m.victim).cause (s1.pb m.victim).block
            else s1.retire m.victim 4 (Config.detailCode 4 3 0).toNat)
          else if m.again then s1.modPb m.victim (fun p => { p with role := 1, since := s1.strokes })
          else s1.modRot (fun r => { r with testing := some (m.victim, s1.tb.elapsed) })
        .next (if m.again then s2.modRot (fun r => { r with emergencies := r.emergencies ++ [m.target] }) else s2)
    | _ => .next s
  | none => .next s

/-- SELF_TEST_DONE (R514): a pass makes the bore a relief bore, a failure is a class-4 event with the failing block. -/
def execSelfTestDone (pass : Bool) (block : Word) (s : State) : Result :=
  match s.wh.rot.testing with
  | none => .next s
  | some (b, _) =>
    let s1 := s.modRot (fun r => { r with testing := none })
    .next (if pass then s1.modPb b (fun p => { p with role := 1, since := s1.strokes }) else s1.classFour 4 b block.toNat false)

/-- EMERGENCY_MIGRATION (R513). -/
def execEmergencyMigration (b : Fin 10) (s : State) : Result :=
  let s1 := s.modRot (fun r => { r with emergencies := r.emergencies.filter (· != b.val) })
  s.act (s.wh.rot.mig.isNone && s.wh.rot.emergencies.contains b.val)
    (match s.longestIdle, s.wh.rot.testing with
     | some t, _ => s1.startMig b t true
     | none, some (t, _) => (s1.modRot (fun r => { r with testing := none })).startMig b t true
     | none, none => s1.retire b (s.pb b).cause (s.pb b).block)

/-! ### Readmission (R515) -/

/-- A write to WH_RETEST. -/
def State.retestWrite (s : State) (w : Nat) : State :=
  let b := bits w 3 0
  if b < 10 && (s.pb b).role == 4 && s.wh.rot.retest.isNone then s.modRot (fun r => { r with retest := some (b, s.tb.elapsed) }) else s

/-- RETEST. -/
def execRetest (w : Word) (s : State) : Result := .next (s.retestWrite w.toNat)

/-- READMISSION_DONE: the three self-tests have ended. -/
def execReadmissionDone (pass : Bool) (s : State) : Result :=
  match s.wh.rot.retest with
  | none => .next s
  | some (b, _) =>
    let s1 := s.modRot (fun r => { r with retest := none })
    .next (if pass && decide ((s.pb b).readmitted < bits s.rotCtrl 19 16) then
        (s1.modPb b (fun p => { p with role := 1, since := s1.strokes, readmitted := p.readmitted + 1, doomed := false })).rotSettle
      else s1)

/-! ### Scrubbing (R519) -/

/-- MRAM region of a byte address (R537), numbered in the order of the table. -/
def mramRegion (a : Nat) : Nat :=
  if a < 0x600000 then 0 else if a < 0xC00000 then 1 else if a < 0xF00000 then 2 else if a < 0xF01000 then 3
  else if a < 0xF02000 then 4 else if a < 0xF20000 then 5 else if a < 0xF30000 then 6 else if a < 0xF30040 then 7 else 8

/-- The memory is on a bore that carries a logical bore in service: the scrubber reads no other bore. -/
def State.scrubbed (s : State) (m : Mem) : Bool := m != .routes && !m.lbore.any (fun l => (s.lb l).shed)

/-- SCRUB_READ: the scrubber, which starts at PRIMED (R546), reads a word of a memory. -/
def execScrubRead (m : Mem) (w : Nat) (s : State) : Result :=
  if s.scrubbed m = false ∨ s.mram.primed = false then .next s
  else match s.eccOf m w with
    | none => .next s
    | some .uncorrectable =>
      let s1 := s.countUe m
      .next (if m = .mram then s1.event 11 14 0x21 (mramRegion (4 * w)) w else s1.eccEvent 2 m w .scrubber)
    | some _ => .next (((s.setEcc m w none).countEcc m false).eccEvent 0 m w .scrubber)

/-! ### The well log (R520-R530) -/

/-- The eight words of a record (R522). -/
def LogRec.words (r : LogRec) : List Nat :=
  let ws := [r.ev.unit + 2 ^ 4 * r.ev.cls + 2 ^ 8 * r.ev.typ + 2 ^ 16 * b2n r.ev.alarm + 2 ^ 17 * b2n r.inc, r.seq, r.ns,
             r.sec % 2 ^ 24 + 2 ^ 24 * r.epoch, r.strokes, r.ev.arg0 % 2 ^ 32, r.ev.arg1 % 2 ^ 32]
  ws ++ [crcWords ws]

/-- A record stamped with the last master time that crossed from TCLK (R521). -/
def State.stampRec (s : State) (e : Ev) : LogRec :=
  { ev := e, inc := false, seq := s.wh.seq, ns := s.tb.coreTime / nsT % 1000000000, sec := s.tb.coreTime / secT
    epoch := s.tb.coreEpoch, strokes := s.strokes % 2 ^ 32 }

/-- Put a record into staging under the next SEQ. -/
def State.stageRec (s : State) (e : Ev) : State :=
  let r := s.stampRec e
  s.modWh (fun w => { w with seq := (w.seq + 1) % 2 ^ 32, staging := w.staging ++ [r] })

/-- Admit a record under the alarm rule of R529. -/
def State.admitAlarm (s : State) (e : Ev) : State :=
  if s.wh.staging.length < 1024 then s.stageRec e
  else s.coalesceUp e

/-- The flush of R530. -/
def State.flush (s : State) : State :=
  if 512 < s.wh.staging.length then s
  else
    let cs := s.wh.coalesce
    let gs := s.wh.gaps
    let s := s.modWh (fun w => { w with coalesce := [], gaps := [] })
    let own (t a b : Nat) : Ev := { unit := 0, cls := 14, typ := t, alarm := false, trace := false, arg0 := a, arg1 := b }
    let s := cs.foldl (fun s c => s.admitAlarm (own 0x38 c.1 c.2)) s
    gs.foldl (fun s g => s.admitAlarm (own 0x39 g.2.1 g.2.2)) s

/-- The head of an intake that satisfies `p`, lowest unit first. -/
def State.intakeHead (s : State) (p : Ev → Bool) : Option (Nat × Ev) :=
  (List.range 12).findSome? (fun u => match tget [] s.wh.intake u with
    | e :: _ => if p e then some (u, e) else none
    | [] => none)

/-- The record that is taken next: alarm, log, trace (R520).
(DEDUCED, safe: log entry 68.) -/
def State.intakeNext (s : State) : Option (Nat × Ev) :=
  ((s.intakeHead (·.isAlarm)).orElse (fun _ => s.intakeHead (fun e => !e.trace))).orElse (fun _ => s.intakeHead (·.trace))

/-- LOG_INTAKE: one record is taken from the intakes and admitted, dropped or counted (R529). -/
def execLogIntake (s : State) : Result :=
  match s.intakeNext with
  | none => .next s
  | some (u, e) =>
    let s1 := s.modWh (fun w => { w with intake := tset [] w.intake u ((tget [] w.intake u).drop 1) })
    .next (if e.isAlarm then (s1.admitAlarm e).flush
      else if e.trace then
        (if s1.wh.staging.length < 512 ∧ s1.dbg.trace.length < 2048 then
          { s1 with dbg := { s1.dbg with trace := s1.dbg.trace ++ [s1.stampRec e] } }
         else if s1.wh.staging.length < 512 then { s1 with dbg := { s1.dbg with dropped := satInc 16 s1.dbg.dropped } }
         else s1.dropTrace)
      else if s1.wh.staging.length < 960 then (s1.stageRec e).flush else (s1.dropLog e).flush)

/-- RETAIN of an incident slot. -/
def State.retained (s : State) (i : Nat) : Bool := bit (s.reg (0x02140 + 4 * i)) 18
def State.incident (s : State) (i : Nat) : Incident := tget {} s.wh.incidents i

/-- The slot that a new incident takes: the lowest unused, or the one ended earliest without RETAIN (R526). -/
def State.incidentSlot (s : State) : Option Nat :=
  match (List.range 8).find? (fun i => !(s.incident i).used && !s.retained i) with
  | some i => some i
  | none =>
    ((List.range 8).filter (fun i => !s.retained i)).foldl
      (fun o i => match o with
        | none => some i
        | some a => if (s.incident i).endedAt < (s.incident a).endedAt then some i else some a) none

/-- Open an incident for a record of a class with INC at 1 (R526).  Where every slot is retained it has none, which the
number 8 stands for.  (DEDUCED, unsafe: log entry 120.) -/
def State.openIncident (s : State) : State :=
  match s.incidentSlot with
  | some i => s.modWh (fun w => { w with open_ := some i, incidents := tput w.incidents i { written := 0, used := true } })
  | none => (s.eventFree 0 14 14).modWh (fun w => { w with open_ := some 8 })

/-- The slot of the open incident, where there is one and it has a slot. -/
def State.openSlot (s : State) : Option Nat := s.wh.open_.filter (· < 8)

/-- Write a record to the well log region (R524, R525).  INC says that an incident is open (R522). -/
def State.writeRec (s : State) (r : LogRec) : State :=
  let r := { r with inc := s.wh.open_.isSome }
  match s.openSlot with
  | some i =>
    let m := (s.incident i).written
    let j := if m < 4096 then m else 4096 + (m - 4096) % 4096
    s.modWh (fun w => { w with
      records := tput w.records (32768 + 8192 * i + j) r
      incidents := tput w.incidents i { s.incident i with written := m + 1, tailwrap := decide (8192 < m + 1) }
      writes := w.writes + 1 })
  | none =>
    s.modWh (fun w => { w with
      records := tput w.records w.ringNext r, ringNext := (w.ringNext + 1) % 32766, writes := w.writes + 1 })

/-- LOG_WRITE: the oldest staged record is written (R521, R525, R526). -/
def execLogWrite (s : State) : Result :=
  match s.wh.staging with
  | [] => .next s
  | r :: rs =>
    let s1 := s.modWh (fun w => { w with staging := rs })
    let inc := bit (s.action r.ev.cls) 3
    let s1 := if inc && s1.wh.open_.isNone then s1.openIncident else s1
    let s1 := s1.writeRec r
    let s1 := if inc then s1.modWh (fun w => { w with lastInc := s1.tb.elapsed }) else s1
    .next s1.flush

/-- GAP_MOVE: after 256 record writes the gap moves by one line (R527).
(DEDUCED, unsafe: log entry 65.) -/
def execGapMove (s : State) : Result :=
  s.act (decide (256 ≤ s.wh.writes)) (s.modWh (fun w => { w with writes := w.writes - 256, gap := (w.gap + 49151) % 49152 }))

/-- QUIET of WH_LOG_CTRL. -/
def State.quietMs (s : State) : Nat := bits (s.reg 0x02100) 9 0

/-- INCIDENT_CLOSE (R526). -/
def execIncidentClose (s : State) : Result :=
  let s1 := match s.openSlot with
    | none => s
    | some i => s.modWh (fun w => { w with incidents := tput w.incidents i { s.incident i with endedAt := s.tb.elapsed } })
  s.act (s.wh.open_.isSome && decide (s.wh.lastInc + s.quietMs * msUnits ≤ s.tb.elapsed))
    (s1.modWh (fun w => { w with open_ := none }))

/-- A write to WH_LOG_SEL (R528). -/
def State.logSelWrite (s : State) (w : Nat) : State :=
  (s.setReg 0x0210C (bits w 16 0)).modWh (fun v => { v with ready := false, reading := true })

/-- LOG_READ.
(DEDUCED, safe: log entry 66.) -/
def execLogRead (w : Word) (s : State) : Result := .next (s.logSelWrite w.toNat)

/-- LOG_READ_DONE: the selected record is in WH_LOG_DATA (R528). -/
def execLogReadDone (s : State) : Result :=
  s.act s.wh.reading
    (s.modWh (fun w => { w with reading := false, ready := true, data := tfind w.records (s.reg 0x0210C) }))

/-! ### Registers (R532, R533) -/

/-- Fixed bits of WH_ACTION_LO and WH_ACTION_HI (R501). -/
def actionFixed (off : Nat) : Nat := if off = 0x02014 then 0x88C88880 else 0xC000000C

/-- A write of the word `w` to the wellhead register at offset `off` through the register slave port. -/
def State.whWrite (s : State) (off w : Nat) : State :=
  if off = 0x02004 then s.modWh (fun v => { v with alarm := v.fresh.clear s.moment v.alarm w })
  else if off = 0x02008 then s.setReg off (bits w 15 0)
  else if off = 0x02010 then s.faultKey w
  else if off = 0x02028 then s.retestWrite w
  else if off = 0x0202C then s.whGlockWrite w
  else if off = 0x0210C then s.logSelWrite w
  else if 0x02140 ≤ off ∧ off < 0x02160 then s.setReg off (w / 2 ^ 18 % 2 * 2 ^ 18)
  else if 0x02080 ≤ off ∧ off < 0x02100 ∧ off % 8 = 4 then
    s.modPair ((off - 0x02080) / 8) (fun p => { p with
      mismatch := p.mismatch && (!bit w 1 || bit (p.fresh.held s.moment) 1)
      cfgErr := p.cfgErr && (!bit w 2 || bit (p.fresh.held s.moment) 2) })
  else if s.locked then s
  else if off = 0x02014 ∨ off = 0x02018 then s.setReg off (w ||| actionFixed off)
  else if off = 0x0201C then (s.setReg off (mix 0 0x000FFF03 w)).degrade
  else if off = 0x02020 then s.setReg off (mix 0 0x77777777 w)
  else if 0x02040 ≤ off ∧ off < 0x02074 then s.setReg off w
  else if 0x02080 ≤ off ∧ off < 0x02100 then s.setReg off (mix 0 0x00017F7F w)
  else if off = 0x02100 then s.setReg off (max 1 (min 1000 (bits w 9 0)))
  else s

end Sys2Proof.Machine
end

