-- ==== Sys2Proof/Machine/Views.lean ====
section
/-!
DEFINITION. What a read of each register returns: the image for the registers that store what is written, the
state of the unit for the others (chapters 02 to 17, the field tables of each unit).
-/

namespace Sys2Proof.Machine

/-- A truth value as bit `i` of a word. -/
def atBit (i : Nat) (b : Bool) : Nat := if b then 2 ^ i else 0

/-- The word whose bit `i` is `f i`, for `i` below `n`. -/
def bitsOf (n : Nat) (f : Nat → Bool) : Nat := ((List.range n).map (fun i => atBit i (f i))).sum

/-- Word `i` of a time image: FRAC with EPOCH, NS, SEC low, SEC high (R379). -/
def timeWord (t epoch i : Nat) : Nat :=
  match i with
  | 0 => t / 2 ^ 32 % 2 ^ 16 + 2 ^ 16 * (epoch % 256)
  | 1 => t % secT / nsT
  | 2 => t / secT % 2 ^ 32
  | _ => t / secT / 2 ^ 32 % 2 ^ 32

/-! ### Threads and bores (R107-R110, R149-R151, R250) -/

/-- The state code of R91. -/
def ThState.num : ThState → Nat
  | .stopped => 0 | .metered => 1 | .elastic => 2 | .mirroring => 3 | .retired => 4

/-- The thread is STOPPED. -/
def Thread.stopped (t : Thread) : Bool := t.st == .stopped
/-- The thread runs. -/
def Thread.running (t : Thread) : Bool := t.st == .metered || t.st == .elastic

/-- IRQi of Lx is pending as SELECT sees it: the bit as the bore of Lx sees it, 0 in an uncorrectable word (R99,
R116). -/
def State.irqLine (s : State) (x i : Nat) : Bool :=
  let a := 0x3C00 + 8 * x + i
  s.gbitSeen (lbOf x) a && !s.isUe .globalBits (bitWord x a).2

/-- A per-thread register of Lx at offset `o` of its group. -/
def State.threadView (s : State) (x o : Nat) : Nat :=
  let t := s.th x
  match o with
  | 0x00 => atBit 4 t.cls + atBit 5 t.rsTrap + atBit 6 t.dzTrap + 2 ^ 8 * t.imask.toNat + atBit 16 t.cmdErr
  | 0x04 => t.st.num + 2 ^ 4 * t.stopCause + 2 ^ 8 * t.rs.length + atBit 12 t.ie + 2 ^ 16 * t.pl +
            atBit 20 t.stalled + 2 ^ 24 * bitsOf 8 (s.irqLine x)
  | 0x08 => if t.running then t.lastPc.toNat else t.pc.toNat
  | 0x0C => 2 ^ 8 * t.vbase.toNat
  | 0x10 => (t.turns - BitVec.ofNat 32 (t.turnsAt.filter (fun k => s.strokes < k + 4)).length).toNat
  | 0x14 => t.donated.toNat
  | 0x18 => (t.rs.headD 0).toNat
  | 0x1C => t.tfault.toNat
  | _ => 0

/-- State code of slot `q` of physical bore `n` (R91, R107). -/
def State.slotState (s : State) (n q : Nat) : Nat :=
  let p := s.pb n
  match p.role with
  | 0 => (s.th (16 * p.lb + q)).st.num
  | 3 => 3
  | 4 => 4
  | _ => 0

/-- A register of bore page `n`. -/
def State.boreView (s : State) (n o : Nat) : Nat :=
  let p := s.pb n
  let b := s.lb n
  if o < 0x800 then
    match o with
    | 0x000 => p.role + 2 ^ 4 * p.lb
    | 0x004 => ((List.range 8).map (fun q => 16 ^ q * s.slotState n q)).sum
    | 0x008 => ((List.range 8).map (fun q => 16 ^ q * s.slotState n (8 + q))).sum
    | 0x00C => p.codeCor + 2 ^ 16 * p.codeUnc
    | 0x010 => p.wellCor + 2 ^ 16 * p.wellUnc
    | 0x014 => p.resCor + 2 ^ 16 * p.resUnc
    | 0x018 => p.bitCor + 2 ^ 16 * p.bitUnc
    | _ => 0
  else if 8 ≤ n then 0
  else if 0x900 ≤ o ∧ o < 0xB00 then s.threadView (16 * n + (o - 0x900) / 0x20) (o % 0x20)
  else match o with
    | 0x800 => b.wheelLo.toNat
    | 0x804 => b.wheelHi.toNat
    | 0x808 => b.liveLo.toNat
    | 0x80C => b.liveHi.toNat
    | 0x810 => b2n b.bank + atBit 1 b.wheelArm.isSome + 2 ^ 8 * b.donateLast
    | 0x814 => b.bubbles.toNat
    | 0x818 => b.lvOwner + atBit 4 b.lvEn + atBit 8 b.lv.isSome + 2 ^ 16 * b.lvFaults
    | _ => 0

/-! ### Governor, identification, wellhead, debug (R65, R533, R574, R578) -/

/-- An alarm of the unit is set and enabled. -/
def State.alarmOn (s : State) (alarm enable : Nat) : Bool := decide (alarm &&& s.reg enable ≠ 0)

/-- Ring pairs of partition p with a pending interrupt. -/
def State.irqPending (s : State) (p l : Nat) : Bool := (s.ring (8 * p + l)).irqAt.isSome

/-- The units that hold irq[0] (GLB_IRQ0_SRC). -/
def State.irq0Src (s : State) : Nat :=
  atBit 0 (s.alarmOn s.gov.alarm 0x01018) + atBit 1 (s.alarmOn s.wh.alarm 0x02008) +
  atBit 2 (s.alarmOn s.tb.alarm 0x6001C) + atBit 3 (s.alarmOn s.mf.alarm 0x50004) +
  atBit 4 (s.alarmOn s.pump.alarm 0x70008) + atBit 5 (s.alarmOn s.host.alarm 0x90008) +
  atBit 8 ((List.range 8).any (s.irqPending 0))

/-- The level of irq[p] (R465). -/
def State.irqLevel (s : State) (p : Nat) : Bool :=
  (List.range 8).any (fun l => s.irqPending p l && bit (s.reg (ringBase (8 * p + l))) 1) ||
  (p == 0 && decide (s.irq0Src % 64 ≠ 0))

def State.idView (s : State) (off : Nat) : Nat :=
  match off with
  | 0x00014 => atBit 0 s.mram.primed + atBit 1 s.mram.recovery + atBit 2 s.dbg.testMode + atBit 3 s.wh.fault +
               atBit 4 s.gov.holdover
  | 0x00018 => s.irq0Src
  | _ => s.reg off

def State.govView (s : State) (off : Nat) : Nat :=
  let g := s.gov
  match off with
  | 0x01010 => s.effPace + 2 ^ 16 * g.depth + atBit 24 (decide (0 < g.depth)) +
               atBit 25 (decide (s.effPace = s.excCeil)) + atBit 26 g.holdover + atBit 27 g.busy
  | 0x01014 => g.alarm
  | 0x0101C => g.excCount
  | 0x01020 => g.lateCount
  | 0x0102C => g.code + 2 ^ 8 * g.acked + atBit 16 g.busy
  | 0x01034 => g.snapMin + 2 ^ 16 * g.snapSrc
  | 0x01038 => g.snapStrokes % 2 ^ 32
  | _ => if 0x01040 ≤ off ∧ off < 0x01080 then tget 0 g.snapHist ((off - 0x01040) / 4) else s.reg off

def State.whView (s : State) (off : Nat) : Nat :=
  let w := s.wh
  let r := w.rot
  match off with
  | 0x02000 => s.goodBores + atBit 4 r.running + atBit 5 w.fault + atBit 6 w.open_.isSome + atBit 7 w.halvesOk +
               2 ^ 8 * bitsOf 8 (fun l => (s.lb l).shed)
  | 0x02004 => w.alarm
  | 0x0200C => w.faultFirst + atBit 8 w.fault + 2 ^ 16 * w.faultCount
  | 0x02024 => r.victim + 2 ^ 4 * r.target + 2 ^ 8 *
      (match r.testing, r.mig with
       | some (b, _), _ => b
       | none, some m => (match m.phase with | .drain _ => m.victim | _ => 15)
       | none, none => 15) + 2 ^ 16 * (r.steps % 2 ^ 16)
  | 0x02030 => bitsOf 13 (fun k => (tget {} w.clks k : ClkMon).lost)
  | 0x02104 => w.staging.length + atBit 11 (decide (512 ≤ w.staging.length)) + atBit 31 w.ready
  | 0x02108 => w.logDrops + 2 ^ 16 * w.traceDrops
  | _ =>
    if 0x02110 ≤ off ∧ off < 0x02130 then
      (match w.data with | some d => d.words.getD ((off - 0x02110) / 4) 0 | none => 0)
    else if 0x02140 ≤ off ∧ off < 0x02160 then
      let i := (off - 0x02140) / 4
      let c := (tget {} w.incidents i : Incident)
      min 65535 c.written + atBit 16 c.used + atBit 17 (w.open_ == some i) + atBit 18 (bit (s.reg off) 18) +
      atBit 19 c.tailwrap
    else if 0x02080 ≤ off ∧ off < 0x02100 ∧ off % 8 = 4 then
      let p := s.pair ((off - 0x02080) / 8)
      atBit 0 p.running + atBit 1 p.mismatch + atBit 2 p.cfgErr
    else if 0x02200 ≤ off ∧ off < 0x023C0 then tget 0 w.almCnt ((off - 0x02200) / 4)
    else s.reg off

def State.dbgView (s : State) (off : Nat) : Nat :=
  match off with
  | 0xF0004 => s.dbg.trace.length + 2 ^ 16 * s.dbg.dropped
  | 0xF0030 => atBit 0 s.dbg.active + atBit 1 (s.dbg.ir == 8)
  | _ =>
    if 0xF0010 ≤ off ∧ off < 0xF0030 then
      (match s.dbg.data with | some d => d.words.getD ((off - 0xF0010) / 4) 0 | none => 0)
    else s.reg off

/-! ### Port window (R289, R290, R340) -/

def State.pinView (s : State) (n o : Nat) : Nat :=
  match o with
  | 0x708 => bitsOf 8 (fun j => (s.pin n j).cond) + 2 ^ 8 * bitsOf 8 (fun j => (s.pin n j).raw) +
             2 ^ 16 * bitsOf 8 (fun j => (s.pin n j).out) + 2 ^ 24 * bitsOf 8 (fun j => (s.pin n j).oe)
  | 0x70C => bitsOf 8 (fun j => (s.pin n j).chatter) + 2 ^ 8 * bitsOf 8 (fun j => (s.pin n j).stuck)
  | _ => tget 0 s.flags n

def State.portView (s : State) (n o : Nat) : Nat :=
  let p := s.port n
  match o with
  | 0x708 | 0x70C | 0x710 => s.pinView n o
  | 0x010 => p.pause + atBit 16 (decide (0 < p.pause))
  | 0x014 => s.preg n o + atBit 16 (s.ringPair n).isSome
  | 0x02C => atBit 0 (p.tx.isSome || decide (s.tb.elapsed < p.txTill.getD 0)) + atBit 1 p.rxOn +
             atBit 2 (decide (s.tb.elapsed < p.cutTill)) + 2 ^ 8 * p.gateIdx +
             2 ^ 16 * (match (if p.gateEn then p.gateWord else none) with | some w => bits w.toNat 31 24 | none => 255) + atBit 24 p.gateHeld.isSome
  | 0x030 => atBit 0 p.cfgErr + atBit 1 p.rxOverrun
  | 0x034 => 0
  | 0x038 => p.dup.length
  | _ => if 0x080 ≤ o ∧ o < 0x100 then tget 0 p.cnt ((o - 0x080) / 4) % 2 ^ 32 else s.preg n o

def State.valveView (s : State) (v o : Nat) : Nat :=
  let x := s.valve v
  match o with
  | 0x00 => mix 0 0x3F09 (s.vreg v 0) + atBit 16 x.cfgErr
  | 0x10 => 0
  | 0x14 => (x.rxReady.headD 0).toNat
  | 0x18 => x.txReady.length + 2 ^ 8 * x.rxHeld + 2 ^ 16 * x.credit
  | 0x1C => x.nOverflow + 2 ^ 8 * x.nUnderrun + 2 ^ 16 * x.nStale + 2 ^ 24 * x.nOverwrite
  | 0x20 => x.pc + 2 ^ 8 * (if x.run then (if x.stalled then 2 else 1) else 0) + atBit 10 x.bank +
            atBit 11 x.swap.isSome + atBit 16 x.partialW + atBit 17 x.illop + atBit 18 x.stale +
            atBit 19 x.overwrite + atBit 20 x.trig0 + atBit 21 x.trig1 + atBit 22 x.ovr0 + atBit 23 x.ovr1
  | 0x28 => x.k0
  | 0x2C => x.k1
  | 0x30 => x.txw.toNat
  | 0x34 => x.rxw.toNat
  | 0x38 => x.lastTake.toNat
  | 0x3C => x.txn + 2 ^ 8 * x.rxn
  | 0x44 => x.cmpw.toNat
  | _ =>
    if 0x100 ≤ o then
      (tget 0 (if x.bank == bit (s.vreg v 0) 3 then x.prog1 else x.prog0) ((o - 0x100) / 4)).toNat
    else s.vreg v o

/-! ### Manifold and timebase (R379, R405) -/

def State.mfView (s : State) (off : Nat) : Nat :=
  let m := s.mf
  match off with
  | 0x50000 => m.alarm
  | 0x50014 => m.sigLast
  | 0x50018 => atBit 0 m.stale + atBit 1 m.lastMatch + 2 ^ 8 * m.stalePasses + 2 ^ 16 * m.passes
  | 0x5001C => m.routeErr
  | _ =>
    if 0x50100 ≤ off ∧ off < 0x50200 then
      let c := (tget {} m.caps ((off - 0x50100) / 16) : Capture)
      timeWord c.time c.epoch (off % 16 / 4) + (if off % 16 = 0 then atBit 31 c.valid else 0)
    else if 0x51000 ≤ off ∧ off < 0x52000 then
      let i := s.inStat ((off - 0x51000) / 4)
      i.count + atBit 8 i.coincident + atBit 9 i.ovr + atBit 10 i.storm + atBit 11 i.level + 2 ^ 16 * i.dropped
    else if 0x54000 ≤ off ∧ off < 0x58000 then
      (tget 0 (if off % 8 = 0 then m.routes else m.gatesHeld) ((off - 0x54000) / 8)).toNat
    else if 0x58000 ≤ off ∧ off < 0x58080 then bitsOf 32 (fun b => s.srcLevel ((off - 0x58000) * 8 + b))
    else s.reg off

/-- BASE in ns as CK_BASE shows it, modulo 2^64 s (R374). -/
def CkSlot.baseNs (c : CkSlot) : Nat := (c.base % timeMod).toNat / nsT

/-- A cycle-keeper register. -/
def State.ckView (s : State) (i o : Nat) : Nat :=
  let c := s.ck i
  match o with
  | 0x08 => c.baseNs % 1000000000
  | 0x0C => c.baseNs / 1000000000 % 2 ^ 32
  | 0x10 => c.baseNs / 1000000000 / 2 ^ 32 % 2 ^ 32
  | 0x14 => atBit 0 c.busy + atBit 1 c.catching + atBit 8 c.phaseLost + atBit 9 c.doneErr + atBit 10 c.cfgErr +
            2 ^ 16 * min 65535 c.missed
  | 0x18 => min (2 ^ 32 - 1) c.lag
  | 0x1C => c.count % 2 ^ 32
  | _ => s.reg (0x64000 + 32 * i + o)

/-- A thread's write of TB_ADJ_CTL is on its way to TCLK (R345). -/
def State.adjCrosses (s : State) : Bool :=
  s.winPend.any (fun w => w.off == 0x6002C) || s.winFifo.any (fun w => w.off == 0x6002C)

/-- The schedule view of the entry that TB_SCHED_SEL names; 0 for an entry not in use. -/
def State.schedView (s : State) (o : Nat) : Nat :=
  match s.sched (bits (s.reg 0x60404) 11 0) with
  | none => 0
  | some e =>
    if o < 4 then timeWord e.time e.epoch o
    else if o = 4 then e.act.toNat
    else atBit 0 true + 2 ^ 4 * e.lb

/-- A report ring register. -/
def State.repView (s : State) (lb o : Nat) : Nat :=
  let r := (tget {} s.tb.reps lb : RepRing)
  match o with
  | 0 => r.tail
  | 4 => r.head
  | 8 => r.lost
  | _ =>
    if 0x80 ≤ o then
      let e := tget (0, 0) r.recs ((o - 0x80) / 8)
      (if o % 8 = 0 then e.1 else e.2).toNat
    else 0

def State.tbView (s : State) (off : Nat) : Nat :=
  let t := s.tb
  match off with
  | 0x60014 => t.epoch % 256 + atBit 8 t.slewing + atBit 9 (t.req.isSome || s.adjCrosses)
  | 0x60018 => t.alarm
  | 0x60030 => wrap 32 (Int.tdiv t.remain (nsT : Nat))
  | 0x60050 => s.strokes % 2 ^ 32
  | 0x60054 => s.strokes / 2 ^ 32 % 2 ^ 32
  | 0x60320 => t.ppsInCount.toNat
  | 0x60400 => t.sched.length + 2 ^ 16 * t.schedHigh
  | 0x60418 => s.schedView 4
  | 0x6041C => s.schedView 5
  | 0x60500 => 0
  | _ =>
    if 0x60040 ≤ off ∧ off < 0x60050 then timeWord t.coreTime t.coreEpoch ((off - 0x60040) / 4)
    else if 0x60100 ≤ off ∧ off < 0x60200 then
      let h := (tget {} t.snaps ((off - 0x60100) / 32) : HSnap)
      let o := off % 32
      if o = 0 then atBit 1 h.valid
      else if o < 0x14 then timeWord h.time h.epoch ((o - 4) / 4)
      else if o = 0x14 then h.strokes % 2 ^ 32
      else if o = 0x18 then h.strokes / 2 ^ 32 % 2 ^ 32
      else 0
    else if 0x60200 ≤ off ∧ off < 0x60300 then
      let e := tget ((0 : Int), 0) t.log ((off - 0x60200) / 16)
      let q := wrap 80 (e.1 % secT)
      let v := q / 2 ^ 32 % 2 ^ 16 + 2 ^ 16 * (q / nsT) + 2 ^ 48 * wrap 64 (e.1 / secT) + 2 ^ 112 * (e.2 % 256)
      bits v (32 * (off % 16 / 4) + 31) (32 * (off % 16 / 4))
    else if 0x60310 ≤ off ∧ off < 0x60320 then timeWord t.ppsInTime t.ppsInEpoch ((off - 0x60310) / 4)
    else if 0x60408 ≤ off ∧ off < 0x60418 then s.schedView ((off - 0x60408) / 4)
    else if 0x60800 ≤ off ∧ off < 0x61000 then s.repView ((off - 0x60800) / 256) (off % 256)
    else if 0x61000 ≤ off ∧ off < 0x61200 then
      let q := s.tsq ((off - 0x61000) / 16)
      if off % 16 = 4 then q.entries.length + 2 ^ 16 * q.lost else if off % 16 = 8 then q.seq else s.reg off
    else if 0x61800 ≤ off ∧ off < 0x61880 ∧ off % 16 = 4 then
      let g := s.gcal ((off - 0x61800) / 16)
      atBit 0 g.valid + atBit 1 g.stall + 2 ^ 8 * g.table.length + 2 ^ 16 * min 8191 g.captures
    else if 0x64000 ≤ off then s.ckView ((off - 0x64000) / 32) (off % 32)
    else s.reg off

/-! ### Pump, channels, host rings, locks (R444-R446, R475, R496) -/

def State.pmpView (s : State) (off : Nat) : Nat :=
  let p := s.pump
  match off with
  | 0x70004 => p.alarm
  | 0x7000C => s.freeCells + 2 ^ 16 * ((32768 - p.low) % 2 ^ 16)
  | 0x70018 => s.slotsUsed.length + 2 ^ 16 * p.high
  | 0x70020 => p.tagFaults
  | 0x70024 => p.stale + 2 ^ 16 * p.badHandle
  | 0x7003C => atBit 0 p.dcReady + atBit 1 (p.dcReady && s.dcFree == 0) + 2 ^ 8 * s.dcFree
  | _ =>
    if 0x70100 ≤ off ∧ off < 0x70300 then
      let lb := (off - 0x70100) / 0x40
      match (off - 0x70100) % 0x40 with
      | 0x08 => ((List.range 4).map (fun q => 256 ^ q * s.qlevel lb q)).sum
      | 0x0C => ((List.range 4).map (fun q => 256 ^ q * s.qlevel lb (4 + q))).sum
      | 0x14 => (s.pumpLb lb).crTail % 512
      | 0x18 => (s.pumpLb lb).crHead
      | 0x1C => (s.pumpLb lb).crLost
      | _ => s.reg off
    else if 0x70800 ≤ off ∧ off < 0x70A00 then
      let n := (off - 0x70800) / 16
      if off % 16 = 8 then s.rxTailOf n % 512 + 2 ^ 16 * tget 0 p.rxDrops n
      else if off % 16 = 12 then s.rxHeadOf n
      else s.reg off
    else if 0x70C04 ≤ off ∧ off < 0x70C14 then
      (s.cell (bits (s.reg 0x70C00) 14 0)).words.getD ((off - 0x70C04) / 4) 0
    else s.reg off

def State.chView (s : State) (off : Nat) : Nat :=
  if off = 0x80004 then (s.pump.chans.filter (fun c => c.2.state != 0)).length
  else if 0x80040 ≤ off ∧ off < 0x80080 then
    let i := bits (s.reg 0x80000) 13 0
    ((s.chan i).words (s.inflight i)).getD ((off - 0x80040) / 4) 0
  else if 0x80120 ≤ off ∧ off < 0x80140 then s.chNextOf ((off - 0x80120) / 4)
  else s.reg off

/-- No move, command or post of ring pair r is held. -/
def State.ringIdle (s : State) (r : Nat) : Bool :=
  !(s.host.subs.any (·.r == r)) && !(s.host.moves.any (·.r == r)) && !(s.host.cmds.any (·.r == r)) &&
  !(s.host.posts.any (·.r == r))

def State.hrView (s : State) (off : Nat) : Nat :=
  if off = 0x90004 then s.host.alarm
  else if 0x90020 ≤ off ∧ off < 0x90030 then
    ((List.range 8).map (fun q => 16 ^ q * s.pstate (8 * ((off - 0x90020) / 4) + q))).sum
  else if 0x90100 ≤ off ∧ off < 0x90200 then
    let p := (off - 0x90100) / 32
    match off % 32 with
    | 0x00 => mix 0 3 (s.reg off) + atBit 8 (s.part p).resetBusy
    | 0x18 => bitsOf 8 (s.irqPending p) + atBit 8 (s.irqLevel p)
    | 0x1C => atBit 0 (s.part p).pollErr + 2 ^ 16 * (s.part p).pollErrs
    | _ => s.reg off
  else if 0x91000 ≤ off ∧ off < 0x91800 then
    let r := (off - 0x91000) / 32
    let g := s.ring r
    match off % 32 with
    | 0x18 => g.sqHead + 2 ^ 16 * (g.cqCount % s.cqSize r) + atBit 28 (g.cqCount / s.cqSize r % 2 == 0) +
              atBit 29 g.halted + atBit 30 (s.host.recs.any (fun c => c.r == r && c.waited && !c.sent)) +
              atBit 31 (s.ringIdle r)
    | 0x1C => atBit 0 g.descHost + atBit 1 g.cfgErr
    | _ => s.reg off
  else s.reg off

/-- Microseconds left until an elapsed time. -/
def State.usLeft (s : State) (t : Nat) : Nat := ceilDiv (t - s.tb.elapsed) usUnits

def LeaseState.num : LeaseState → Nat
  | .free => 0 | .live => 1 | .expired => 2 | .abandoned => 3

def State.lkView (s : State) (off : Nat) : Nat :=
  let l := s.locks
  let e := s.lease (bits (s.reg 0xA0010) 9 0)
  match off with
  | 0xA0000 => l.alarm
  | 0xA0004 => s.leasesUsed + 2 ^ 16 * l.high
  | 0xA0008 => l.expiries + 2 ^ 16 * l.abandons
  | 0xA000C => l.misuse.toNat
  | 0xA0014 => e.addr + 2 ^ 24 * e.lb + 2 ^ 29 * e.space
  | 0xA0018 => e.owner + 2 ^ 8 * e.st.num + 2 ^ 16 * (if e.st = .live then min 16383 (s.usLeft e.expires) else 0)
  | _ =>
    if 0xA1000 ≤ off ∧ off < 0xA2000 then
      let g := s.glock ((off - 0xA1000) / 4)
      g.owner + atBit 8 g.held + atBit 9 g.exp + atBit 10 g.abd +
      2 ^ 16 * (match g.expires with | some t => if g.held then min 16383 (s.usLeft t) else 0 | none => 0)
    else s.reg off

/-! ### MRAM (R553) -/

def State.mrView (s : State) (off : Nat) : Nat :=
  let m := s.mram
  match off with
  | 0xB0000 => atBit 0 m.primed + atBit 1 m.recovery + 2 ^ 2 * m.image + atBit 3 m.fallback + atBit 4 m.unauth +
               atBit 5 s.locked + 2 ^ 8 * m.step + 2 ^ 16 * m.failA + 2 ^ 20 * m.failB
  | 0xB0004 => m.primeUs
  | 0xB0008 => 0
  | 0xB0010 => readLE m.stage (bits (s.reg 0xB000C) 11 2 * 4) 4
  | 0xB0014 =>
    (match m.swap with
     | some w => b2n w.armed.isSome +
         2 ^ 8 * ((List.range 128).filter (fun x => (s.th x).cutOver.isSome)).length +
         2 ^ 16 * ((List.range 128).filter (fun v => (s.valve v).swap.isSome)).length
     | none => 0)
  | _ => s.reg off

/-! ### Every register -/

/-- What the register at an offset shows, before any write still on its way; 0 at an unassigned offset (R15). -/
def State.viewNat (s : State) (off : Nat) : Nat :=
  if (regAt off).isNone then 0
  else if off < 0x01000 then s.idView off
  else if off < 0x02000 then s.govView off
  else if off < 0x10000 then s.whView off
  else if off < 0x20000 then s.boreView ((off - 0x10000) / 0x1000) (off % 0x1000)
  else if off < 0x30000 then s.portView ((off - 0x20000) / 0x800) (off % 0x800)
  else if off < 0x50000 then s.valveView ((off - 0x30000) / 0x200) (off % 0x200)
  else if off < 0x60000 then s.mfView off
  else if off < 0x70000 then s.tbView off
  else if off < 0x80000 then s.pmpView off
  else if off < 0x90000 then s.chView off
  else if off < 0xA0000 then s.hrView off
  else if off < 0xB0000 then s.lkView off
  else if off < 0xF0000 then s.mrView off
  else s.dbgView off

/-- The same as a register word.
(DEDUCED, unsafe: log entry 62.) -/
def State.view (s : State) (off : Nat) : Word := BitVec.ofNat 32 (s.viewNat off)

end Sys2Proof.Machine
end

