-- ==== Sys2Proof/Machine/Threads.lean ====
section
/-!
DEFINITION. Threads (chapter 03): the slot wheel, thread states and commands, the entry into an interrupt or
exception handler, and the logical registers of a bore.
-/

namespace Sys2Proof.Machine

/-! ### The slot wheel (R69-R71) -/

/-- The slot that owns wheel position `p` in a pair of wheel words (R70). -/
def wheelOwner (lo hi : Nat) (p : Nat) : Nat :=
  bits (if p < 8 then lo else hi) (4 * (p % 8) + 3) (4 * (p % 8))

/-- The slot that owns position `p` in the live wheel. -/
def LBore.owner (b : LBore) (p : Nat) : Nat := wheelOwner b.liveLo.toNat b.liveHi.toNat p

/-- The positions that slot `q` owns in the live wheel. -/
def LBore.positions (b : LBore) (q : Nat) : List Nat := (List.range 16).filter (fun p => b.owner p == q)

/-- A write to BORE_WHEEL_LO (R71). -/
def State.wheelLoWrite (s : State) (n w : Nat) : State := s.modLb n (fun b => { b with wheelLo := BitVec.ofNat 32 w })

/-- A write to BORE_WHEEL_HI arms the pair; the boundary counts from this write (R71). -/
def State.wheelHiWrite (s : State) (n w : Nat) : State :=
  s.modLb n (fun b => { b with wheelHi := BitVec.ofNat 32 w, wheelArm := some s.strokes })

/-- The armed pair takes effect. -/
def State.wheelApply (s : State) (n : Nat) : State :=
  s.modLb n (fun b => { b with liveLo := b.wheelLo, liveHi := b.wheelHi, wheelArm := none })

/-- Gate opening `g` is the boundary of the armed pair of bore `n`. -/
def State.wheelDue (s : State) (n g : Nat) : Bool := ((s.lb n).wheelArm.map (fun c => boundaryAt c g)).getD false

/-- WHEEL_LO_WRITE. -/
def execWheelLoWrite (n : Fin 8) (w : Word) (s : State) : Result := .next (s.wheelLoWrite n w.toNat)
/-- WHEEL_HI_WRITE. -/
def execWheelHiWrite (n : Fin 8) (w : Word) (s : State) : Result := .next (s.wheelHiWrite n w.toNat)
/-- WHEEL_APPLY: the next gate opening is the boundary of the armed pair (R71). -/
def execWheelApply (n : Fin 8) (s : State) : Result := s.act (s.wheelDue n s.nextGate) (s.wheelApply n)

/-! ### Turns -/

/-- SELECT has granted the turn in progress to Lx for the use `u`, and no logical bore above its own has used its turn: the
threads of a stroke act in ascending logical bore, as R117, R137 and R491 order what they do in one stroke.
(DESIGN CHOICE, safe: log entry 118.) -/
def State.hasTurn (s : State) (x : Nat) (u : TurnUse) : Bool :=
  (s.lb (lbOf x)).turn == some (slotOf x, u) && decide (s.rank ≤ lbOf x)

/-- Lx uses the turn that it was granted (R110). -/
def State.spendTurn (s : State) (x : Nat) : State :=
  { (s.modLb (lbOf x) (fun b => { b with turn := none })).modTh x (fun t => { t with turns := t.turns + 1, stalled := false }) with
    rank := lbOf x + 1 }

/-- A turn in stroke `n` in which an instruction issues: BORE_TTURNS counts it in the RETIRE stage (R74, R110). -/
def Thread.issuedAt (t : Thread) (n : Nat) : Thread := { t with turnsAt := t.turnsAt.filter (fun k => n < k + 4) ++ [n] }

/-- The turns of an instruction or entry that has issued are over: an instruction boundary (R93). -/
def Thread.atBoundary (t : Thread) : Bool := t.owed == 0 && t.idle == 0 && t.exc.isNone

/-! ### FETCH (R74, R85-R88) -/

/-- The code address `i` bytes after `pc`. -/
def codeAddr (pc i : Nat) : Nat := (pc + i) % 2 ^ 18

/-- The code words that `n` bytes at code address `a` lie in, in the bank from which Lx fetches. -/
def State.codeWords (s : State) (x a n : Nat) : List (Mem × Nat) :=
  ((List.range n).map (fun i => (Mem.code (lbOf x) (s.bankOf x), codeAddr a i / 4))).eraseDups

/-- The code byte at address `a`, with the mark of an uncorrectable word. -/
def State.codeByte (s : State) (x a : Nat) : Byte × Bool :=
  (byteAt (s.codeOf x) a, s.isUe (.code (lbOf x) (s.bankOf x)) (a / 4))

/-- Byte `i` from the PC of Lx on: out of the prefetch queue, or from the active bank where FETCH has not moved it yet.
(DEDUCED, unsafe: log entry 100.) -/
def State.nextByte (s : State) (x i : Nat) : Byte × Bool :=
  ((s.th x).fetched[i]?).getD (s.codeByte x (codeAddr (s.th x).pc.toNat i))

/-- FETCH of `n` bytes at code address `a` into the prefetch queue: single-bit errors are corrected and counted, and an
uncorrectable word is marked (R88). -/
def State.fetchBytes (s : State) (x a n : Nat) : State :=
  let s := s.eccCorrect (s.codeWords x a n)
  s.modTh x (fun t => { t with fetched := t.fetched ++ (List.range n).map (fun i => s.codeByte x (codeAddr a i)) })

/-- FETCH in a turn of Lx: a flushed queue is loaded with 32 bytes (R86, R87), any other takes 16 more until it is full
(R85). -/
def State.fetchTurn (s : State) (x : Nat) : State :=
  let t := s.th x
  let q := t.fetched.length
  s.fetchBytes x (t.pc.toNat + q) (if q = 0 then 32 else min 16 (32 - q))

/-- Of the first `n` bytes at the PC, those that FETCH has not moved yet are read now. -/
def State.fetchRest (s : State) (x n : Nat) : State :=
  let t := s.th x
  s.eccCorrect (s.codeWords x (t.pc.toNat + t.fetched.length) (n - t.fetched.length))

/-- The PC of Lx moves past `n` bytes, which leave the prefetch queue. -/
def Thread.pass (t : Thread) (n : Nat) : Thread :=
  { t with lastPc := t.pc, pc := BitVec.ofNat 18 (t.pc.toNat + n), fetched := t.fetched.drop n }

/-! ### Stopping (R93, R94, R106, R551, R552) -/

/-- Every thread of the bore has cut over: CODE_BANK toggles (R550). -/
def State.bankSettle (s : State) (n : Nat) : State :=
  if (List.range 16).all (fun q => (s.th (16 * n + q)).newBank) then
    (List.range 16).foldl (fun s q => s.modTh (16 * n + q) (fun t => { t with newBank := false }))
      (s.modLb n (fun b => { b with bank := !b.bank }))
  else s

/-- Lx has cut over to the new bank at address `pc`, and its prefetch queue is flushed (R86, R551).
(DEDUCED, unsafe: log entry 100.) -/
def State.cutTo (s : State) (x : Nat) (pc : BitVec 18) : State :=
  (s.modTh x (fun t => { t with cutOver := none, newBank := true, pc := pc, fetched := [] })).bankSettle (lbOf x)

/-- A pair whose threads have both stopped runs no more. -/
def State.pairSettle (s : State) (x : Nat) : State :=
  match (s.leads x).orElse (fun _ => s.trails x) with
  | none => s
  | some k =>
    let quiet (y : Nat) : Bool := (s.th y).stopped && (s.th y).startReq.isNone
    if quiet (s.pairLead k) && quiet (s.pairTrail k) && (s.pair k).trailAt.isNone then
      s.modPair k (fun p => { p with running := false, recs := [], diff := none })
    else s

/-- What a RESET does beside stopping the thread (R94). -/
def State.threadReset (s : State) (x : Nat) : State :=
  let done := (s.th x).cis.map (fun c => cdoneBit c.idx)
  let s := s.modTh x (fun t => { t with rs := [], ie := false, pl := 8, longs := [], cis := [], stopCause := 3 })
  let s := done.foldl (fun s a => s.setFlag x a false) s
  let s := if ((s.lb (lbOf x)).lv.map (fun l => l.x == x)).getD false then
      (s.modLb (lbOf x) (fun b => { b with lv := none })).setFlag x flagLVDONE false
    else s
  s.abandon (· == x)

/-- STOP_CAUSE of a stop (R109). -/
def StopReq.cause : StopReq → Nat → Nat
  | .none, c => c
  | .stop, _ => 1
  | .reset, _ => 3
  | .cutOver, _ => 4
  | .wellhead, _ => 5

/-- Lx becomes STOPPED with a cause; its pending results count at one turn per stroke from now on (R93).
(DESIGN CHOICE, unsafe: log entry 101.) -/
def State.stopped (s : State) (x cause : Nat) : State :=
  s.modTh x (fun t => { t with
    st := .stopped, stopCause := cause, stopReq := .none, atStop := false, yielding := false, stalled := false
    stepping := false, stepIssued := false, startReq := none
    longs := t.longs.map (fun l => { l with perStroke := true }) })

/-- The timeout of a personality swap has expired (R552). -/
def State.swapExpired (s : State) : Bool := (s.mram.swap.map (·.expired)).getD false

/-- After a stop: a thread that has not cut over when the timeout has expired continues at NEW_PC (R552). -/
def State.lateCut (s : State) (x : Nat) : State :=
  match (s.th x).cutOver with
  | some c => if s.swapExpired then s.cutTo x c.2 else s
  | none => s

/-- The stop that Lx waits for acts (R93, R94, R552). -/
def State.stopAct (s : State) (x : Nat) : State :=
  let t := s.th x
  let s := s.stopped x (t.stopReq.cause t.stopCause)
  let s := match t.stopReq with
    | .reset => s.threadReset x
    | _ => s
  (s.lateCut x).pairSettle x

/-- A stop of Lx may act now: it runs, and the turn in progress would consider its next instruction (R93), or it has
not had its first turn yet (R95).
(DEDUCED, unsafe: log entry 20.) -/
def State.stopDue (s : State) (x : Nat) : Bool :=
  let t := s.th x
  t.stopReq != .none && t.running && (t.atStop || t.startReq.isSome)

/-- The stepped instruction of Lx has had its last turn (R106).  A step that ends in an exception ends with the fill turn
of the entry.
(DEDUCED, unsafe: log entry 102.) -/
def State.stepDue (s : State) (x : Nat) : Bool :=
  let t := s.th x
  t.stepping && t.stepIssued && t.running && t.atBoundary

/-- A stop that Lx is to make at its next boundary: a RESET goes before any other (R93). -/
def State.askStop (s : State) (x : Nat) (r : StopReq) : State :=
  s.modTh x (fun t => { t with stopReq := if t.stopReq = .none ∨ r = .reset then r else t.stopReq })

/-! ### Commands (R92-R95, R504) -/

/-- A command or write is discarded: CMD_ERR (R95). -/
def State.cmdErr (s : State) (x : Nat) : State := s.modTh x (fun t => { t with cmdErr := true, freshCmd := t.freshCmd.set s.strokes 1 })

/-- The enabled pair that names Lx, and whether Lx is its leader. -/
def State.enabledPair (s : State) (x : Nat) : Option (Nat × Bool) :=
  ((List.range 16).find? (fun k => s.pairEn k && (s.pairLead k == x || s.pairTrail k == x))).map
    (fun k => (k, s.pairLead k == x))

/-- Pair k may start (R504). -/
def State.pairReady (s : State) (k : Nat) : Bool :=
  let a := s.pairLead k
  let b := s.pairTrail k
  let still (x : Nat) : Bool := (s.th x).stopped && (s.th x).startReq.isNone && !(s.th x).cls
  still a && still b && lbOf a != lbOf b &&
  (s.lb (lbOf a)).positions (slotOf a) == (s.lb (lbOf b)).positions (slotOf b) &&
  !(List.range 16).any (fun j => j != k && s.pairEn j &&
    ([a, b].contains (s.pairLead j) || [a, b].contains (s.pairTrail j)))

/-- A START is pending: the first turn comes at least 4 strokes later (R92). -/
def State.pendStart (s : State) (x : Nat) (step : Bool) : State :=
  s.modTh x (fun t => { t with startReq := some (s.strokes + 4, step) })

/-- A START command (R92, R95, R504). -/
def State.startCmd (s : State) (x : Nat) : State :=
  let t := s.th x
  if !t.stopped || t.startReq.isSome then s.cmdErr x
  else match s.enabledPair x with
    | none => s.pendStart x false
    | some (k, true) =>
      if s.pairReady k then
        ((s.pendStart x false).modTh (s.pairTrail k) (fun u => { u with pc := t.pc })).modPair k
          (fun p => { p with running := true, trailAt := some (s.strokes + 16), recs := [], writes := [], diff := none })
      else (s.cmdErr x).modPair k (fun p => { p with cfgErr := true, fresh := p.fresh.set s.moment 4 })
    | some (k, false) => (s.cmdErr x).modPair k (fun p => { p with cfgErr := true, fresh := p.fresh.set s.moment 4 })

/-- A pending START or STEP is cancelled; with it the start of a pair. -/
def State.cancelStart (s : State) (x : Nat) : State :=
  let s := s.modTh x (fun t => { t with startReq := none })
  let s := match s.leads x with
    | some k => s.modPair k (fun p => { p with trailAt := none })
    | none => s
  s.pairSettle x

/-- A STOP command (R93, R95). -/
def State.stopCmd (s : State) (x : Nat) : State :=
  let t := s.th x
  if t.running then s.askStop x .stop
  else if !t.stopped then s.cmdErr x
  else if t.startReq.isSome then (s.cancelStart x).modTh x (fun t => { t with stopCause := 1 })
  else s

/-- A STEP command (R95, R106). -/
def State.stepCmd (s : State) (x : Nat) : State :=
  let t := s.th x
  if t.stopped && t.cls && t.startReq.isNone then s.pendStart x true else s.cmdErr x

/-- A RESET command (R94, R95). -/
def State.resetCmd (s : State) (x : Nat) : State :=
  let t := s.th x
  if t.running then s.askStop x .reset
  else if t.stopped then (s.cancelStart x).threadReset x
  else s.cmdErr x

/-- The command codes of BORE_TCTRL (R109). -/
def State.threadCmd (s : State) (x cmd : Nat) : State :=
  match cmd with
  | 0 => s
  | 1 => s.startCmd x
  | 2 => s.stopCmd x
  | 3 => s.stepCmd x
  | 4 => s.resetCmd x
  | _ => s.cmdErr x

/-- The thread is not STOPPED, or a START or STEP is pending (R95). -/
def Thread.busy (t : Thread) : Bool := !t.stopped || t.startReq.isSome

/-- A write to BORE_TCTRL: CLASS and the modes, then the command (R95).
(DEDUCED, safe: log entry 34.) -/
def State.tctrlWrite (s : State) (x w : Nat) : State :=
  let t := s.th x
  let s := if bit w 16 && (s.th x).freshCmd.held s.strokes == 0 then s.modTh x (fun t => { t with cmdErr := false }) else s
  if bit w 4 != t.cls && t.busy then s.cmdErr x
  else
    let s := s.modTh x (fun t => { t with
      cls := bit w 4, rsTrap := bit w 5, dzTrap := bit w 6, imask := BitVec.ofNat 8 (bits w 15 8) })
    s.threadCmd x (bits w 2 0)

/-- The bits of BORE_TFAULT that a write of `w` clears: VALID clears OVER too (R151). -/
def tfaultMask (w : Nat) : Nat := if bit w 31 then 2 ^ 31 + 2 ^ 30 else if bit w 30 then 2 ^ 30 else 0

/-- A write to BORE_TFAULT in stroke `n` (R11, R151). -/
def Thread.faultClear (t : Thread) (n w : Nat) : Thread :=
  { t with tfault := BitVec.ofNat 32 (t.freshFault.clear n t.tfault.toNat (tfaultMask w)) }

/-- A write to a per-thread register. -/
def State.threadWrite (s : State) (x o w : Nat) : State :=
  let t := s.th x
  match o with
  | 0x00 => s.tctrlWrite x w
  | 0x08 => if t.busy then s.cmdErr x else s.modTh x (fun t => { t with pc := BitVec.ofNat 18 w })
  | 0x0C => if t.busy then s.cmdErr x else s.modTh x (fun t => { t with vbase := BitVec.ofNat 10 (bits w 17 8) })
  | 0x1C => s.modTh x (fun t => t.faultClear s.strokes w)
  | _ => s

/-- A write to a register of bore page `n`. -/
def State.boreWrite (s : State) (n o w : Nat) : State :=
  if 8 ≤ n ∨ o < 0x800 then s
  else if 0x900 ≤ o ∧ o < 0xB00 then s.threadWrite (16 * n + (o - 0x900) / 0x20) (o % 0x20) w
  else match o with
    | 0x800 => s.wheelLoWrite n w
    | 0x804 => s.wheelHiWrite n w
    | 0x818 => s.modLb n (fun b => { b with lvOwner := bits w 3 0, lvEn := bit w 4 })
    | _ => s

/-- START: a write to BORE_TCTRL with CMD 1. -/
def execStart (x : Fin 128) (w : Word) (s : State) : Result := .next (s.tctrlWrite x (putBits w.toNat 2 0 1))
/-- STOP: CMD 2. -/
def execStop (x : Fin 128) (w : Word) (s : State) : Result := .next (s.tctrlWrite x (putBits w.toNat 2 0 2))
/-- STEP: CMD 3. -/
def execStep (x : Fin 128) (w : Word) (s : State) : Result := .next (s.tctrlWrite x (putBits w.toNat 2 0 3))
/-- RESET: CMD 4. -/
def execReset (x : Fin 128) (w : Word) (s : State) : Result := .next (s.tctrlWrite x (putBits w.toNat 2 0 4))

/-! ### First turn, boundary, end of a step -/

/-- The thread enters METERED or ELASTIC as CLASS gives (R92). -/
def State.enterRun (s : State) (x : Nat) : State :=
  s.modTh x (fun t => { t with
    st := if t.cls then .elastic else .metered
    stepping := (t.startReq.map (·.2)).getD false, stepIssued := false
    startReq := none, lastPc := t.pc, owed := 0, idle := 0, exc := none, fetched := [] })

/-- THREAD_FIRST_TURN: the fill turn after a START or STEP (R87, R92, R106). -/
def execThreadFirstTurn (x : Fin 128) (s : State) : Result :=
  s.act (s.hasTurn x .first && (s.th x).startReq.isSome) (((s.enterRun x).spendTurn x).fetchTurn x)

/-- STOP_AT_BOUNDARY (R93). -/
def execStopAtBoundary (x : Fin 128) (s : State) : Result := s.act (s.stopDue x) (s.stopAct x)

/-- A step ends; a STOP or RESET that waits for this boundary acts in its place, with its own cause (R93, R94, R106).
(DESIGN CHOICE, unsafe: log entry 103.) -/
def State.stepEnd (s : State) (x : Nat) : State :=
  if (s.th x).stopReq = .none then (s.stopped x 2).pairSettle x else s.stopAct x

/-- STEP_COMPLETE (R106). -/
def execStepComplete (x : Fin 128) (s : State) : Result := s.act (s.stepDue x) (s.stepEnd x)

/-- TRAILER_START: 16 strokes after the START of the leader (R504). -/
def State.trailerDue (s : State) (k : Nat) : Bool := ((s.pair k).trailAt.map (fun a => decide (a ≤ s.strokes))).getD false

/-- The trailer's START is pending from then on. -/
def State.trailerStart (s : State) (k : Nat) : State :=
  let a := (s.pair k).trailAt.getD 0
  (s.modPair k (fun p => { p with trailAt := none })).modTh (s.pairTrail k) (fun t => { t with startReq := some (a + 4, false) })

def execTrailerStart (k : Fin 16) (s : State) : Result := s.act (s.trailerDue k) (s.trailerStart k)

/-- Both threads of pair k stop at their next boundary, the held outputs are discarded, and MISMATCH and a class-5
event report it (R507). -/
def State.pairMismatch (s : State) (k : Nat) : State :=
  let a := s.pairLead k
  let b := s.pairTrail k
  let kind := (s.pair k).diff.getD 0
  let s := s.modPair k (fun p => { p with mismatch := true, fresh := p.fresh.set s.moment 2, diff := none, recs := [], trailAt := none })
  let stop (s : State) (x : Nat) : State :=
    if (s.th x).running then s.askStop x .wellhead
    else if (s.th x).startReq.isSome then (s.modTh x (fun t => { t with startReq := none, stopCause := 5 })) else s
  let s := ((stop (stop s a) b).pairSettle a)
  let s := s.event 0 5 5 k (Config.detailCode 5 kind (s.th a).lastPc.toNat).toNat
  s.modRot (fun r => { r with ahead := r.ahead ++ ([s.carrier (lbOf a), s.carrier (lbOf b)].filter (fun c => !r.ahead.contains c)) })

/-- PAIR_MISMATCH (R507). -/
def execPairMismatch (k : Fin 16) (s : State) : Result := s.act (s.pair k).diff.isSome (s.pairMismatch k)

/-! ### Interrupt and exception entry (R99-R103) -/

/-- The entry of Lx into vector `v` (R102); an uncorrectable flag word gives FLAGS 0 and keeps its state. -/
def State.enterVec (s : State) (x v : Nat) (ret : BitVec 18) : State :=
  let ue := s.isUe (.privBits x) 0
  s.modTh x (fun t =>
    let u := t.enter v ret (if ue then 0 else t.nibble)
    { u with stepIssued := t.stepping, bits := if ue then t.bits else u.bits })

/-- The line that Lx accepts at this turn (R101): the lowest of those that are pending and acceptable.
(DEDUCED, unsafe: log entry 33.) -/
def State.irqOf (s : State) (x : Nat) : Option Nat :=
  let t := s.th x
  if t.st == .elastic && !t.stepping && t.ie && !(t.rsTrap && decide (7 ≤ t.rs.length)) then
    (List.range 8).find? (fun i => bit t.imask.toNat i && decide (i < t.pl) && s.irqLine x i)
  else none

/-- INTERRUPT_ENTRY: the acceptance turn (R101-R103). -/
def execInterruptEntry (x : Fin 128) (s : State) : Result :=
  match s.irqOf x with
  | some i => s.act (s.hasTurn x .accept && (s.th x).exc.isNone) ((s.spendTurn x).enterVec x (8 + i) (s.th x).pc)
  | none => .next s

/-- EXCEPTION_ENTRY: the acceptance turn of a due exception (R100, R102). -/
def execExceptionEntry (x : Fin 128) (s : State) : Result :=
  match (s.th x).exc with
  | some (v, ret) => s.act (s.hasTurn x .accept) ((s.spendTurn x).enterVec x v ret)
  | none => .next s

end Sys2Proof.Machine
end

