-- ==== Sys2Proof/Machine/Long.lean ====
section
/-!
DEFINITION. Work beside the pipe: fault records, results at a distance in turns (R78, R79, R195, R203, R441), long
vectors (R226-R249) and the parts of cistern accesses (R138-R143).
-/

namespace Sys2Proof.Machine

/-! ### Fault records (R147, R151) -/

/-- The record of a fault in the layout of BORE_TFAULT, with VALID. -/
def Flt.layout (f : Flt) : Nat :=
  f.addr % 2 ^ 20 + 2 ^ 20 * f.space + 2 ^ 24 * f.cause + 2 ^ 26 * f.half + 2 ^ 27 * f.detail + 2 ^ 31

/-- BORE_TFAULT records a fault; where it already holds one, OVER is set (R151). -/
def State.recordFault (s : State) (x : Nat) (f : Flt) : State :=
  s.modTh x (fun t => { t with
    tfault := if bit t.tfault.toNat 31 then t.tfault ||| 0x40000000#32 else BitVec.ofNat 32 f.layout
    freshFault := t.freshFault.set s.strokes (if bit t.tfault.toNat 31 then 2 ^ 30 else 2 ^ 31) })

/-- An event of unit 7 (R523). -/
def State.threadEvent (s : State) (typ arg0 arg1 : Nat) : State := s.event 7 10 typ arg0 arg1

/-- ILL with its wellhead event, in RETIRE, on a metered thread (R74, R83): `place` is the space and address of a fault
(R147), `head` the first byte of an illegal instruction (R175). -/
def State.ill (s : State) (x cause extra pc : Nat) (place : Option (Nat × Nat) := none) (head : Option Nat := none) : State :=
  (s.setFlag x flagILL true).eventAt s.retireAt 7 10 0x20 (x + 2 ^ 8 * cause + 2 ^ 16 * extra) pc place head

/-! ### Results at a distance in turns -/

/-- The memory that a location lies in, with its space number and address. -/
def Loc.mem (s : State) (x : Nat) : Loc → Option (Mem × Nat × Nat)
  | .well a => some (.well x, 0, a)
  | .res a => some (.reservoir (lbOf x), 1, a)
  | .code a => some (.code (lbOf x) (s.bankOf x), 4, a)
  | _ => none

/-- The result of a block CRC (R203).
(DESIGN CHOICE, unsafe: log entry 109.) -/
def State.crcEnd (s : State) (x pc issued poly st k : Nat) (src dst : Loc) : State :=
  match src.mem s x with
  | none => s
  | some (m, sp, a) =>
    let ws := wordsOf a k
    match ws.find? (fun w => s.isUe m w) with
    | some w =>
      (s.eccRead .thread m w).recordFault x { cause := 2, space := sp, addr := 4 * w, half := 0, detail := 0, word := none }
    | none =>
      let bs := match src with
        | .well _ => readBytes (s.th x).well a k
        | .res _ => readBytes (s.lb (lbOf x)).res a k
        | _ => readBytes (s.codeOf x) a k
      landLoc (s.eccCorrect (ws.map (fun w => (m, w)))) x pc issued dst 4 (crcBytes poly st bs)

/-- A result at its distance becomes visible. -/
def State.landLong (s : State) (x : Nat) (l : LongRes) : State :=
  let s := s.modTh x (fun t => { t with longs := t.longs.erase l })
  match l.op with
  | .arith ws => ws.foldl (fun s w => landLoc s x l.pc l.issued w.loc w.n w.v) s
  | .crc poly st k src dst => s.crcEnd x l.pc l.issued poly st k src dst
  | .chan op a b dst =>
    let (r, s) := chanEffect s x op a b
    landLoc s x l.pc l.issued dst 4 r

/-- The first result of Lx whose distance is over. -/
def Thread.longDue (t : Thread) : Option LongRes := t.longs.find? (fun l => l.left == 0)

/-- Land the due results of Lx in issue order (R195); `n` bounds their number. -/
def State.landLongs (s : State) (x : Nat) : Nat → State
  | 0 => s
  | n + 1 => match (s.th x).longDue with
    | some l => (s.landLong x l).landLongs x n
    | none => s

/-- A turn of Lx, or with `per` a stroke since it stopped, counts towards its pending results (R79, R93). -/
def Thread.tick (t : Thread) (per : Bool) : Thread :=
  if t.longs.isEmpty then t
  else { t with longs := t.longs.map (fun l => if l.perStroke = per then { l with left := l.left - 1 } else l) }

/-- Land the first due result of Lx where it is of the kind `p`. -/
def landIf (p : LongOp → Bool) (x : Nat) (s : State) : Result :=
  match (s.th x).longDue with
  | some l => s.act (p l.op) (s.landLong x l)
  | none => .next s

/-- LONG_RESULT: a multiply or divide result (R195). -/
def execLongResult (x : Fin 128) (s : State) : Result := landIf (fun | .arith _ => true | _ => false) x s
/-- BLOCK_CRC_DONE (R203). -/
def execBlockCrcDone (x : Fin 128) (s : State) : Result := landIf (fun | .crc .. => true | _ => false) x s
/-- CHAN_RESULT (R441). -/
def execChanResult (x : Fin 128) (s : State) : Result := landIf (fun | .chan .. => true | _ => false) x s

/-! ### Long vectors: group reads (R242, R246) -/

/-- The pointer of an address in the space of a location (R121, R248). -/
def Loc.ptr : Loc → Nat → Nat
  | .res _, a => 2 ^ 29 + a % 2 ^ 29
  | .code _, a => 2 ^ 31 + a % 2 ^ 29
  | _, a => a

/-- Read `n` bytes at `base + off` for a long vector: the value, or the cause and place of a mid-vector fault. -/
def State.lvRead (s : State) (x : Nat) (base : Loc) (off n : Nat) : Except (Nat × Nat) Nat × State :=
  match base.mem s x with
  | none => (.ok 0, s)
  | some (m, sp, a) =>
    let a := a + off
    let lim := if sp = 1 then 0x80000 else if sp = 4 then 0x40000 else 0x1000
    if lim < a + n then (.error (1, base.ptr a), s)
    else match (wordsOf a n).find? (fun w => s.isUe m w) with
      | some w => (.error (2, base.ptr (4 * w)), s.eccRead .thread m w)
      | none =>
        let s := s.eccCorrect ((wordsOf a n).map (fun w => (m, w)))
        (.ok (match base with
          | .well _ => readLE (s.th x).well a n
          | .res _ => readLE (s.lb (lbOf x)).res a n
          | _ => readLE (s.codeOf x) a n), s)

/-- Then read more, unless a fault has been found. -/
def thenRead (r : Except (Nat × Nat) Nat × State) (f : Nat → State → Except (Nat × Nat) Nat × State) :
    Except (Nat × Nat) Nat × State :=
  match r with
  | (.ok v, s) => f v s
  | (.error e, s) => (.error e, s)

/-- A second source is read. -/
def lvHasB (op : Nat) : Bool := (0x21 ≤ op && op ≤ 0x26) || op == 0x2A
/-- The destination is read as a source. -/
def lvReadsD (op : Nat) : Bool := op == 0x24 || op == 0x26
/-- Gathers, with and without first-fault stopping. -/
def lvGathers (op : Nat) : Bool := op == 0x30 || op == 0x31

/-- Read element `i`: the three values that its result needs (R240). -/
def State.lvElement (s : State) (l : LvOp) (i : Nat) : Except (Nat × Nat) (Nat × Nat × Nat) × State :=
  let e := lvSize l.op
  let pack (a b d : Except (Nat × Nat) Nat) : Except (Nat × Nat) (Nat × Nat × Nat) :=
    match a, b, d with
    | .ok a, .ok b, .ok d => .ok (a, b, d)
    | .error f, _, _ | _, .error f, _ | _, _, .error f => .error f
  if lvGathers l.op then
    let (ix, s) := s.lvRead l.x l.b (2 * i) 2
    let (w, s) := thenRead (ix, s) (fun v s => s.lvRead l.x l.a (4 * v) 4)
    (pack w ix (.ok 0), s)
  else if l.op = 0x32 then
    let (ix, s) := s.lvRead l.x l.b (2 * i) 2
    let (v, s) := s.lvRead l.x l.a (4 * i) 4
    let out : Except (Nat × Nat) Nat := match ix, l.d with
      | .ok k, .res d => if 0x80000 < d + 4 * k + 4 then .error (1, l.d.ptr (d + 4 * k)) else .ok 0
      | _, _ => .ok 0
    (pack v ix out, s)
  else
    let (a, s) := s.lvRead l.x l.a (e * i) e
    let (b, s) := if lvHasB l.op then s.lvRead l.x l.b (e * i) e else (.ok 0, s)
    let (d, s) :=
      if lvReadsD l.op then s.lvRead l.x l.d (e * i) e
      else if l.op = 0x2A then s.lvRead l.x l.a (4 * (l.vl + i)) 4
      else (.ok 0, s)
    (pack a b d, s)

/-- Read the elements of a list: the first fault is kept, and the elements before it (R242, R246). -/
def State.lvElements (s : State) (l : LvOp) : List Nat → LvOp × State
  | [] => (l, s)
  | i :: is =>
    let (r, s) := s.lvElement l i
    let l := if l.fault.isSome then l
      else match r with
        | .ok v => { l with elems := l.elems ++ [v] }
        | .error (c, p) => { l with fault := some (i, c, p) }
    s.lvElements l is

/-- The group that a bore's long vector reads at stroke `q` (R242). -/
def State.lvGroupRead (s : State) (n q : Nat) : State :=
  match (s.lb n).lv with
  | none => s
  | some l =>
    if q < l.issued + 2 then s
    else
      let g := lvGroup l.op
      let lo := (q - l.issued - 2) * g
      if l.vl ≤ lo then s
      else
        let (l, s) := s.lvElements l ((List.range (min g (l.vl - lo))).map (· + lo))
        s.modLb n (fun b => { b with lv := some l })

/-! ### Long vectors: the commit (R243, R247-R249) -/

/-- The destination writes of a commit: location, size, value. -/
def LvOp.writes (l : LvOp) : List LocWrite :=
  let at_ (off : Nat) : Loc := match l.d with
    | .well a => .well (a + off)
    | .res a => .res (a + off)
    | d => d
  let w (off n v : Nat) : LocWrite := { loc := at_ off, n := n, v := v }
  let es := l.elems.zipIdx
  if l.op = 0x28 then
    if l.fault.isSome then []
    else
      let si : Int := (l.elems.map (fun e => partI e.1)).sum
      let sq : Int := (l.elems.map (fun e => partQ e.1)).sum
      [w 0 4 (wrap 32 si), w 4 4 (wrap 32 sq)]
  else if l.op = 0x29 then
    if l.fault.isSome then []
    else
      let (i, m) := lvMaxi 0 0 0 (l.elems.map (·.1))
      [w 0 4 i, w 4 4 m]
  else if l.op = 0x2A then
    es.flatMap (fun p =>
      let (u, v) := lvButterfly p.1.1 p.1.2.2 p.1.2.1
      [w (4 * p.2) 4 u, w (4 * (l.vl + p.2)) 4 v])
  else if l.op = 0x32 then l.elems.map (fun e => w (4 * e.2.1) 4 e.1)
  else if lvReal l.op && !l.elems.isEmpty then
    [w 0 (2 * l.elems.length) (ofLanes 16 (l.elems.map (fun e => lvElem l.op e.1 e.2.1 e.2.2)))]
  else es.map (fun p => w (lvSize l.op * p.2) (lvSize l.op) (lvElem l.op p.1.1 p.1.2.1 p.1.2.2))

/-- The fault record, VF, LV_FAULTS and the wellhead event (R247, R248).
(DEDUCED, unsafe: log entry 70.) -/
def State.lvFault (s : State) (n : Nat) (l : LvOp) (i cause ptr : Nat) : State :=
  let rec_ := i + 2 ^ 8 * cause + 2 ^ 12 * l.pc + 2 ^ 31
  let old := s.wellWord l.x 0xFE8
  let s := if bit old 31 then s.wellPut l.x 0xFE8 4 (old ||| 2 ^ 30)
           else (s.wellPut l.x 0xFE8 4 rec_).wellPut l.x 0xFEC 4 ptr
  let s := s.hwFlag .thread l.x flagVF
  (s.modLb n (fun b => { b with lvFaults := satInc 16 b.lvFaults })).threadEvent 0x21 l.x rec_

/-- A long vector commits (R243). -/
def State.lvCommit (s : State) (n : Nat) (l : LvOp) : State :=
  let s := l.writes.foldl (fun s w => landLoc s l.x l.pc l.issued w.loc w.n w.v) s
  let s := match l.fault with
    | none => s
    | some (i, c, p) =>
      if l.op = 0x31 ∧ 0 < i then s.wellPut l.x 0xFF4 4 i else s.lvFault n l i c p
  (s.hwFlag .thread l.x flagLVDONE).modLb n (fun b => { b with lv := none })

/-- The long vector of a bore has reached its distance. -/
def State.lvDue (s : State) (n : Nat) : Option LvOp :=
  match (s.lb n).lv with
  | some l => if l.due ≤ s.strokes then some l else none
  | none => none

/-- Commit it where it is due. -/
def State.landLv (s : State) (n : Nat) : State :=
  match s.lvDue n with
  | some l => s.lvCommit n l
  | none => s

/-- LV_COMMIT. -/
def execLvCommit (n : Fin 8) (s : State) : Result :=
  match s.lvDue n with
  | some l => .next (s.lvCommit n l)
  | none => .next s

/-- Every result of a bore that is due becomes visible before an instruction reads (R79). -/
def State.landBore (s : State) (n : Nat) : State :=
  (List.range 16).foldl (fun s q => s.landLongs (16 * n + q) (s.th (16 * n + q)).longs.length) (s.landLv n)

/-! ### Cistern accesses (R138-R143, R410) -/

/-- The cistern access of Lx on index `k`. -/
def State.cisOf (s : State) (x k : Nat) : Option CisAcc := (s.th x).cis.find? (fun c => c.idx == k)

/-- The access names no valid bytes of a bound buffer, or an uncorrectable cistern word (R138, R140, R410). -/
def State.cisBad (s : State) (x : Nat) (c : CisAcc) : Bool :=
  match s.winOf x c.win with
  | none => true
  | some h => decide ((s.cell h).len < c.off + c.n) || (c.done == 0 && (s.bufUe h c.off c.n).isSome)

/-- Replace an access. -/
def State.setCis (s : State) (x : Nat) (c : CisAcc) : State :=
  s.modTh x (fun t => { t with cis := t.cis.map (fun d => if d.idx = c.idx then c else d) })

/-- An access ends: CERRk where a part or all of it failed, and CDONEk (R140, R141, R146). -/
def State.cisEnd (s : State) (x k : Nat) (err : Bool) : State :=
  let s := s.modTh x (fun t => { t with cis := t.cis.filter (fun d => d.idx != k) })
  let s := if err then s.doneBit .thread x (cerrBit k) else s
  s.doneBit .thread x (cdoneBit k)

/-- Write `bs` to the local side of a CRD; false where a narrower write met an uncorrectable word (R146). -/
def State.cisStore (s : State) (x : Nat) (l : Loc) (i : Nat) (bs : List Nat) : Bool × State :=
  match l.mem s x with
  | none => (true, s)
  | some (m, sp, a) =>
    match (partWords (a + i) bs.length).find? (fun w => s.isUe m w) with
    | some w => (false, s.eccRead .thread m w)
    | none =>
      (true, if sp = 0 then s.pumpWell .thread x (a + i) bs.length (ofBytes bs)
        else s.pumpRes .thread (lbOf x) (a + i) bs.length (ofBytes bs))

/-- The source bytes of a part of a CWR; false where they meet an uncorrectable word. -/
def State.cisLoad (s : State) (x : Nat) (l : Loc) (i n : Nat) : Bool × List Nat × State :=
  match l with
  | .imm v => (true, (toBytes 4 v).drop i |>.take n, s)
  | _ =>
    match l.mem s x with
    | none => (true, List.replicate n 0, s)
    | some (m, sp, a) =>
      match (wordsOf (a + i) n).find? (fun w => s.isUe m w) with
      | some w => (false, [], s.eccRead .thread m w)
      | none =>
        let s := s.eccCorrect ((wordsOf (a + i) n).map (fun w => (m, w)))
        (true, if sp = 0 then readBytes (s.th x).well (a + i) n else readBytes (s.lb (lbOf x)).res (a + i) n, s)

/-- One part lands: the bytes up to the next 32-bit boundary of the buffer (R139, R141, R216). -/
def State.cisPart (s : State) (x : Nat) (c : CisAcc) (h : Nat) : State :=
  let o := c.off + c.done
  let n := min (c.n - c.done) (4 - o % 4)
  let (ok, s) :=
    if c.rd then
      let s := s.eccCorrect [(.cistern, s.bufAddr h o / 4)]
      s.cisStore x c.loc c.done (s.bufRead h o n)
    else
      let (ok, bs, s) := s.cisLoad x c.loc c.done n
      (ok, if ok then s.bufWrite h o bs else s)
  let c := { c with done := c.done + n, bad := c.bad || !ok }
  if c.done < c.n then s.setCis x c else s.cisEnd x c.idx c.bad

/-- An atomic access holds a reservoir word that the next part of a CRD writes: the part waits for it (R133, R209). -/
def State.cisHeld (s : State) (x : Nat) (c : CisAcc) : Bool :=
  match c.rd, c.loc with
  | true, .res a => (wordsOf (a + c.done) (min (c.n - c.done) (4 - (c.off + c.done) % 4))).any
      (fun w => !((s.lb (lbOf x)).holders w).isEmpty)
  | _, _ => false

/-- CISTERN_PART_LAND: the first part no sooner than 6 strokes after issue (R141).
(DEDUCED, safe: log entry 106.) -/
def execCisternPartLand (x : Fin 128) (k : Fin 8) (s : State) : Result :=
  match s.cisOf x k with
  | some c =>
    match s.winOf x c.win with
    | some h => s.act (!s.cisBad x c && decide (c.issued + 6 ≤ s.strokes) && !s.cisHeld x c) (s.cisPart x c h)
    | none => .next s
  | none => .next s

/-- A cistern fault: nothing is written, CERRk and CDONEk are set, the wellhead has the window and offset (R140). -/
def State.cisFault (s : State) (x : Nat) (c : CisAcc) : State :=
  let s := match s.winOf x c.win with
    | some h => match s.bufUe h c.off c.n with
      | some w => s.eccRead .thread .cistern w
      | none => s
    | none => s
  (s.cisEnd x c.idx true).threadEvent 0x22 (x + 2 ^ 8 * c.win) (c.off % 2 ^ 14)

/-- CISTERN_FAULT. -/
def execCisternFault (x : Fin 128) (k : Fin 8) (s : State) : Result :=
  match s.cisOf x k with
  | some c => s.act (s.cisBad x c && decide (c.issued + 2 ≤ s.strokes)) (s.cisFault x c)
  | none => .next s

/-- ECC_REWRITE: a corrected word is rewritten; its check bits match again (R145). -/
def execEccRewrite (m : Mem) (w : Nat) (s : State) : Result :=
  s.act (s.eccOf m w == some .rewriting) (s.setEcc m w none)

end Sys2Proof.Machine
end

