-- ==== Sys2Proof/Machine/Platform.lean ====
section
/-!
DEFINITION. The MRAM unit's platform record and registers (R537-R539, R553), and the test and debug unit (R576-R578).
-/

namespace Sys2Proof.Machine

/-- Change the MRAM unit's own state. -/
def State.modMram (s : State) (f : MramSt → MramSt) : State := { s with mram := f s.mram }

/-! ### The platform record (R538, R539) -/

/-- MRAM address of a copy of the platform record (R537). -/
def recBase (c : Nat) : Nat := 0xF00000 + 0x1000 * c

/-- A word of a copy of the record. -/
def State.recWord (s : State) (c o : Nat) : Nat := readLE s.mram.mem (recBase c + o) 4

/-- A word of an MRAM range is uncorrectable. -/
def State.mramUe (s : State) (a n : Nat) : Bool :=
  if s.ecc.isEmpty then false else (wordsOf a n).any (fun w => s.isUe .mram w)

def platMagic : Nat := 0x504C4154

/-- A copy is valid: MAGIC and CHECK match. -/
def State.recValid (s : State) (c : Nat) : Bool :=
  s.recWord c 0 == platMagic && !s.mramUe (recBase c) 0x1000 &&
  crc32cFinal (readBytes s.mram.mem (recBase c) 0xFFC) == s.recWord c 0xFFC

/-- The valid copy whose PSEQ is the larger by forward distance modulo 2^32. -/
def State.recChoose (s : State) : Option Nat :=
  match s.recValid 0, s.recValid 1 with
  | true, true =>
    let d := (s.recWord 1 4 + 2 ^ 32 - s.recWord 0 4) % 2 ^ 32
    some (if 0 < d ∧ d < 2 ^ 31 then 1 else 0)
  | true, false => some 0
  | false, true => some 1
  | false, false => none

/-- A word of the record in force; 0 where no copy is valid. -/
def State.platWord (s : State) (o : Nat) : Nat :=
  match s.mram.copy with
  | some c => s.recWord c o
  | none => 0

/-- FLAGS of the record in force: ACTIVE, AUTH_EN, KEY_LOCK, RWL_LOCK. -/
def State.platActive (s : State) : Nat := s.platWord 8 % 2
def State.authEn (s : State) : Bool := bit (s.platWord 8) 1
def State.keyLock (s : State) : Bool := bit (s.platWord 8) 2
def State.rwlLock (s : State) : Bool := bit (s.platWord 8) 3

/-- Write bytes into the MRAM: words written in full take new check bits. -/
def State.mramPut (s : State) (a : Nat) (bs : List Nat) : State :=
  (s.modMram (fun m => { m with mem := writeBytes m.mem a bs })).eccWrite .mram a bs.length

/-- Write a record, given its bytes 0x008 to 0xFFB, to the other copy with PSEQ increased by 1 (R538). -/
def State.recRewrite (s : State) (body : List Nat) : State :=
  let c := match s.mram.copy with | some c => 1 - c | none => 0
  let bs := toBytes 4 platMagic ++ toBytes 4 ((s.platWord 4 + 1) % 2 ^ 32) ++ body
  (s.mramPut (recBase c) (bs ++ toBytes 4 (crc32cFinal bs))).modMram (fun m => { m with copy := some c })

/-- Bytes `o` to `o + n` of the record in force. -/
def State.platBytes (s : State) (o n : Nat) : List Nat :=
  match s.mram.copy with
  | some c => readBytes s.mram.mem (recBase c + o) n
  | none => List.replicate n 0

/-- COMMIT (R539): under KEY_LOCK the key and the lock flags keep their values.
(DEDUCED, unsafe: log entry 122.) -/
def State.commitRec (s : State) : State :=
  let st := s.mram.stage
  let flags := readLE st 8 4
  let flags := if s.keyLock then mix flags 0xE (s.platWord 8) else flags
  let key := if s.keyLock then s.platBytes 0x10 0x40 else readBytes st 0x10 0x40
  s.recRewrite (toBytes 4 flags ++ readBytes st 0xC 4 ++ key ++ readBytes st 0x50 0xFAC)

/-- ACTIVE is rewritten (R550). -/
def State.setActive (s : State) (img : Nat) : State :=
  s.recRewrite (toBytes 4 (putBits (s.platWord 8) 0 0 img) ++ s.platBytes 0xC 0xFF0)

/-- A write of the word `w` to a register of the MRAM unit (R554). -/
def State.mrWrite (s : State) (off w : Nat) : State :=
  if off = 0xB0008 then (if bit w 0 then s.commitRec else s)
  else if off = 0xB000C then s.setReg off (bits w 11 2 * 4)
  else if off = 0xB0010 then
    s.modMram (fun m => { m with stage := writeLE m.stage (bits (s.reg 0xB000C) 11 2 * 4) 4 w })
  else s

/-- COMMIT: a write to MR_CTRL with COMMIT at 1 (R539). -/
def execCommit (w : Word) (s : State) : Result := .next (s.mrWrite 0xB0008 (putBits w.toNat 0 0 1))

/-! ### Test and debug (R559, R560, R576-R578) -/

def State.modDbg (s : State) (f : DbgSt → DbgSt) : State := { s with dbg := f s.dbg }

/-- POP: the oldest trace record moves into DBG_TRACE_DATA; with LEVEL 0 the data reads 0 (R578). -/
def State.tracePop (s : State) : State :=
  s.modDbg (fun d => { d with data := d.trace.head?, trace := d.trace.drop 1 })

/-- A write of the word `w` to a register of the test and debug unit. -/
def State.dbgWrite (s : State) (off w : Nat) : State :=
  if off = 0xF0000 then s.setReg off (mix 0 0x03FF0073 w)
  else if off = 0xF0008 then (if bit w 0 then s.tracePop else s)
  else s

/-- POP: a write to DBG_TRACE_POP with POP at 1. -/
def execPop (w : Word) (s : State) : Result := .next (s.dbgWrite 0xF0008 (putBits w.toNat 0 0 1))

/-- The IDCODE register (R576). -/
def idcodeWord : Word := BitVec.ofNat 32 (0x3 * 2 ^ 28 + 0xAF32 * 2 ^ 12 + 2 * Config.idcodeMfr.toNat + 1)

/-- A TAP instruction has been scanned in; it acts while the TAP is outside Test-Logic-Reset (R576).  IDCODE selects the
IDCODE register, BYPASS a register of one bit, IJTAG the network of the instruments. -/
def State.tapInstr (s : State) (ir : Nat) : State :=
  s.modDbg (fun d => { d with active := true, ir := ir, dr := if ir = 1 then idcodeWord else 0 })

/-- IDCODE, 0b00001 (R576). -/
def execIdcode (s : State) : Result := .next (s.tapInstr 1)
/-- IJTAG, 0b01000 (R576). -/
def execIjtag (s : State) : Result := .next (s.tapInstr 8)
/-- BYPASS, 0b11111 (R576). -/
def execBypass (s : State) : Result := .next (s.tapInstr 31)

/-- TRST: trst_n resets the TAP controller (R559).
(PRESUMED, unsafe: log entry 77.) -/
def execTrst (s : State) : Result := .next (s.modDbg (fun d => { d with active := false, ir := 1, dr := idcodeWord }))

/-- TEST_MODE_CHANGE: outside reset a class-15 event; the block stays in the mode it had (R560).
(DESIGN CHOICE, safe: log entry 82.) -/
def execTestModeChange (s : State) : Result := s.act (s.up 2) (s.eventFree 0 15 15)

end Sys2Proof.Machine
end

