-- ==== Sys2Proof/Machine/Window.lean ====
section
/-!
DEFINITION. The register window (R10-R15, R135-R137, R224, R225, R569): where a write of each register goes, locked
fields, the clock domain that a write crosses into, and the image that reads return.
-/

namespace Sys2Proof.Machine

/-! ### Writes that only a dispatch needs -/

/-- A write of the word `w` to a governor register, RWL fields unlocked (R65). -/
def State.govWrite (s : State) (off w : Nat) : State :=
  match off with
  | 0x01000 => s.govCtrlWrite w
  | 0x01004 => s.paceWrite w
  | 0x01008 => s.govLimitsWrite w
  | 0x0100C => s.govCeilWrite w
  | 0x01014 => s.modGov (fun g => { g with alarm := g.fresh.clear s.strokes g.alarm w })
  | 0x01018 => s.setReg off (bits w 6 0)
  | 0x01024 => s.govVreqWrite w
  | 0x01028 => s.govPolicyWrite w
  | 0x01030 => s.setReg off (bits w 15 0)
  | _ => s

/-- A write of the word `w` at offset `o` of valve page `v` (R288, R289). -/
def State.valveWrite (s : State) (v o w : Nat) : State :=
  match o with
  | 0x00 => s.valveCtrlWrite v w
  | 0x04 => s.setReg (valveBase v + o) (bits w 15 0)
  | 0x08 => s.setReg (valveBase v + o) (mix 0 0x771F1F73 w)
  | 0x0C => s.qcfgWrite v w
  | 0x20 => s.valveStatusWrite v w
  | 0x24 => s.progSelWrite v w
  | 0x28 => s.kWrite v 0 w
  | 0x2C => s.kWrite v 1 w
  | 0x40 => s.setReg (valveBase v + o) w
  | 0x44 => s.modValve v (fun x => { x with cmpw := BitVec.ofNat 32 w })
  | 0x48 => s.setReg (valveBase v + o) w
  | _ => if 0x100 ≤ o then s.progWrite v ((o - 0x100) / 4) w else s

/-- A write of the word `w` to a manifold register, RWL fields unlocked (R405). -/
def State.mfWrite (s : State) (off w : Nat) : State :=
  match off with
  | 0x50000 => s.modMf (fun m => { m with alarm := m.fresh.clear s.strokes m.alarm w })
  | 0x50004 => s.setReg off (bits w 4 0)
  | 0x50008 => s.setReg off (max 1 (bits w 7 0) + 2 ^ 16 * max 16 (bits w 31 16))
  | 0x5000C => s.setReg off (max 1 (bits w 7 0))
  | 0x50010 => s.goldenWrite w
  | 0x5001C =>
    if bit w 31 && !bit (s.mf.freshErr.held s.strokes) 31 then s.modMf (fun m => { m with routeErr := m.routeErr % 2 ^ 31 }) else s
  | _ =>
    if 0x50040 ≤ off ∧ off < 0x50080 then ((s.setReg off w).setEcc .routes (postOwnWord ((off - 0x50040) / 4)) none).mfTouch
    else if 0x50100 ≤ off ∧ off < 0x50200 then
      if off % 16 = 0 ∧ bit w 31 then
        let k := (off - 0x50100) / 16
        let c : Capture := tget {} s.mf.caps k
        s.modMf (fun m => { m with caps := tput m.caps k { c with valid := c.valid && c.fresh.held s.strokes != 0 } })
      else s
    else if 0x51000 ≤ off ∧ off < 0x52000 then s.inStatWrite ((off - 0x51000) / 4) w
    else if 0x52000 ≤ off ∧ off < 0x52A00 then
      ((s.setReg off (bits w 11 0)).setEcc .routes (bitmapWord ((off - 0x52000) / 4)) none).mfTouch
    else if 0x54000 ≤ off ∧ off < 0x58000 then
      if off % 8 = 0 then s.routeWrite ((off - 0x54000) / 8) w else s.gateWrite ((off - 0x54000) / 8) w
    else s

/-! ### Locked fields (R12) -/

/-- The RWL bits of a register. -/
def rwlMask (off : Nat) : Nat :=
  match regAt off with
  | some (r, _, _) => r.rwl
  | none => 0

/-! ### A write of a register -/

/-- A write of the word `w` to the register at `off` takes effect in its unit; nothing at an unassigned offset (R15). -/
def State.unitWrite (s : State) (off w : Nat) : State :=
  if (regAt off).isNone then s
  else if off < 0x01000 then (if off = 0x00010 then s.setReg off w else s)
  else if off < 0x02000 then s.govWrite off w
  else if off < 0x10000 then s.whWrite off w
  else if off < 0x20000 then s.boreWrite ((off - 0x10000) / 0x1000) (off % 0x1000) w
  else if off < 0x30000 then s.portWrite ((off - 0x20000) / 0x800) (off % 0x800) w
  else if off < 0x50000 then s.valveWrite ((off - 0x30000) / 0x200) (off % 0x200) w
  else if off < 0x60000 then s.mfWrite off w
  else if off < 0x70000 then s.tbWrite off w
  else if off < 0x80000 then s.pmpWrite off w
  else if off < 0x90000 then s.chWrite off w
  else if off < 0xA0000 then s.hrWrite off w
  else if off < 0xB0000 then s.lkWrite off w
  else if off < 0xF0000 then s.mrWrite off w
  else s.dbgWrite off w

/-- A write of a register (R10, R12): a locked RWL register keeps its value and the attempt is reported; `who` is
ARG0 of R523.  A write of DC_BASE or DC_SLOTS with DC_EN at 1 sets CFG_ERR too (R415). -/
def State.regWrite (s : State) (who off w : Nat) : State :=
  if s.locked && rwlMask off != 0 then
    let s := s.lockViolation who off
    if bit (s.reg 0x70000) 1 && (off == 0x70030 || off == 0x70034 || off == 0x70038) then s.pumpCfgErr else s
  else s.unitWrite off w

/-! ### Domains and the image (R24, R135, R136, R224) -/

/-- The clock domain that a register lives in, as R559 numbers it here; none for the self-timed core, and for the
units that no core write reaches. -/
def regDomain (off : Nat) : Option Nat :=
  if off < 0x01000 then some 0
  else if off < 0x20000 then none
  else if off < 0x30000 then some (3 + (off - 0x20000) / 0x800 / 4)
  else if off < 0x50000 then some (3 + (off - 0x30000) / 0x200 / 16)
  else if off < 0x60000 then none
  else if off < 0x70000 then some 2
  else if off < 0x90000 then none
  else if off < 0xA0000 then some 0
  else none

/-- A write of the core takes effect in its register (R136, R224).
(DEDUCED, unsafe: log entry 75.) -/
def State.winApply (s : State) (w : WinWrite) : State :=
  s.regWrite (if w.rank = 8 then 0 else sysWho w.x w.pc) w.off w.v.toNat

/-- The register belongs to a unit of the self-timed core (R23, R575), or is VALVE_QRX, which shows the entries in the
core (R273). -/
def inCore (off : Nat) : Bool :=
  (0x01000 ≤ off && off < 0x02000) || (0x10000 ≤ off && off < 0x20000) || (0x50000 ≤ off && off < 0x60000) ||
  (0x70000 ≤ off && off < 0x90000) || (0xA0000 ≤ off && off < 0xB0000) ||
  (0x30000 ≤ off && off < 0x50000 && off % 0x200 == 0x14)

/-- The units of the clock domains as they stand. -/
def State.showUnits (s : State) : Shown :=
  { regs := s.regs, valves := s.valves, pins := s.pins, flags := s.flags, ports := s.ports, tb := s.tb, host := s.host
    wh := s.wh, dbg := s.dbg, mram := s.mram }

/-- The core knows the units of the clock domains as they stand: a reset has set them. -/
def State.showNow (s : State) : State := { s with shown := s.showUnits, shownNext := s.showUnits }

/-- A gate opens: what the last one found has crossed by the stroke that begins (R24, R135). -/
def State.showGate (s : State) (n : Nat) : State :=
  { s with shown := s.shownNext, shownNext := s.showUnits, winDone := s.winDone.filter (fun w => decide (n < w.at_ + 2)) }

/-- The put credits and the counts of refused accesses are the core's own (R220). -/
def ValveSt.withCore (x y : ValveSt) : ValveSt :=
  { x with credit := y.credit, nOverflow := y.nOverflow, nUnderrun := y.nUnderrun }

/-- The state with the units of the clock domains as the core knows them; the time is the image of R350. -/
def State.past (s : State) : State :=
  { s with
    regs := s.shown.regs, pins := s.shown.pins, flags := s.shown.flags, ports := s.shown.ports, host := s.shown.host
    wh := s.shown.wh, dbg := s.shown.dbg, mram := s.shown.mram
    valves := s.valves.map (fun e => (e.1, (tget {} s.shown.valves e.1 : ValveSt).withCore e.2))
    tb := { s.shown.tb with coreTime := s.tb.coreTime, coreEpoch := s.tb.coreEpoch, timeX := s.tb.timeX } }

/-- The core image of a register: what its unit showed 2 strokes before, with the writes of the core that have reached it
since or are still crossing laid over it (R135, R136).  The cycle of the source clock is the sender's.
(DEDUCED, unsafe: log entry 114.) -/
def State.image (s : State) (off : Nat) : Word :=
  if inCore off then s.view off
  else (((s.winDone ++ s.winFifo).filter (fun w => w.off == off)).foldl State.winApply s.past).view off

/-- A write to TB_ADJ_CTL by a thread while a request is pending is discarded with ADJ_ERR (R345). -/
def State.adjRefused (s : State) (w : WinWrite) : Bool :=
  w.off == 0x6002C && (s.tb.req.isSome || s.winFifo.any (fun v => v.off == 0x6002C))

/-- A core write updates the image: in the core it takes effect at once, else it starts to cross (R136). -/
def State.winLand (s : State) (w : WinWrite) : State :=
  match regDomain w.off with
  | none => s.winApply w
  | some _ => if s.adjRefused w then s.tbAlarm 1 else { s with winFifo := s.winFifo ++ [{ w with at_ := s.strokes }] }

/-- The writes that update the image in stroke `q`: in the order of issue, bores in rising number within it (R137). -/
def State.landWindow (s : State) (q : Nat) : State :=
  if s.winPend.isEmpty then s
  else
    let due := (s.winPend.filter (fun w => w.due ≤ q)).mergeSort (fun a b => a.due * 16 + a.rank ≤ b.due * 16 + b.rank)
    due.foldl State.winLand { s with winPend := s.winPend.filter (fun w => !(w.due ≤ q)) }

/-- WINDOW_WRITE_ARRIVE: the oldest write crossing into domain `d` reaches its register (R24, R136).
(DEDUCED, safe: log entry 24.) -/
def execWindowWriteArrive (d : Fin 13) (s : State) : Result :=
  match s.winFifo.find? (fun w => regDomain w.off == some d.val) with
  | some w =>
    s.act (s.up d && decide (w.at_ < s.strokes))
      (({ s with
        winFifo := s.winFifo.erase w
        winDone := s.winDone ++ [{ w with at_ := s.strokes, cyc := s.moment }] }).winApply w)
  | none => .next s

/-! ### The register slave port (R569) -/

/-- A write through the register slave port is answered FAULT. -/
def slaveFault (off strb len : Nat) : Bool := len != 0 || off % 4 != 0 || strb != 0xF

/-- A write of the register slave port.  One of the port window that reaches a register in the cycle in which a core write
has reached it takes effect before that write (R137). -/
def State.hostWrite (s : State) (off w : Nat) : State :=
  let both (v : WinWrite) : Bool := v.off == off && v.cyc == s.moment && decide (0x20000 ≤ off) && decide (off < 0x50000) &&
    !(decide (0x30000 ≤ off) && off % 0x200 == 0)
  let redo := if s.locked && rwlMask off != 0 then [] else s.winDone.filter both
  redo.foldl State.winApply (s.regWrite 0 off w)

/-- REGISTER_WRITE: FAULT is code 1 of R566.
(DESIGN CHOICE, safe: log entry 23.) -/
def execRegisterWrite (off : Fin 1048576) (w : Word) (strb : Fin 16) (len : Fin 64) (s : State) : Result :=
  if slaveFault off strb len then .next (s.modHost (fun h => { h with rsErr := 1 }))
  else
    let s := s.modHost (fun h => { h with rsErr := 0 })
    .next (if off.val = 0x6002C ∧ s.adjCrosses = true then s.tbAlarm 1 else s.hostWrite off w.toNat)

end Sys2Proof.Machine
end

