-- ==== Sys2Proof/Machine/Ready.lean ====
section
/-!
DEFINITION. The next instruction of a thread before it issues: FETCH and PREDECODE (R85-R88), its condition and
guard (R154, R155), its operands in every form (chapters 04, 06, 07, 12), and the readiness of an elastic thread
(R81, R130).
-/

namespace Sys2Proof.Machine

/-! ### Fetch (R88, R152, R175) -/

/-- What FETCH and PREDECODE find at the PC of a thread. -/
inductive Fetched where
  | ok (d : Dec)
  /-- An illegal form: its cause, the byte at which it is found, the bytes of the metered no-op. -/
  | illegal (cause foundAt occupied : Nat)
  /-- Byte `i` of the instruction is the first one needed that lies in an uncorrectable word. -/
  | ue (i : Nat)
  deriving DecidableEq, Repr

/-- The bytes that an instruction needs (R88). -/
def Predecoded.need : Predecoded → Nat
  | .ok d => d.len
  | .illegal _ at_ _ => at_ + 1

/-- The next instruction of Lx. -/
def State.fetch (s : State) (x : Nat) : Fetched :=
  let p := predecode (fun i => (s.nextByte x i).1.toNat)
  match (List.range p.need).find? (fun i => (s.nextByte x i).2) with
  | some i => .ue i
  | none => match p with
    | .ok d => .ok d
    | .illegal c a o => .illegal c a o

/-! ### Condition and guard (R77, R154, R155) -/

/-- The bit that the condition tests, where it tests one. -/
def Dec.condBit (d : Dec) : Option Nat :=
  match d.cond with
  | 0 => none
  | 1 | 2 => some flagZ
  | 3 | 4 => some flagC
  | _ => some (d.guard.getD flagG)

/-- The condition holds where the bit that it tests is `b`. -/
def Dec.condHolds (d : Dec) (b : Bool) : Bool :=
  match d.cond with
  | 0 => true
  | 1 | 3 | 5 => b
  | _ => !b

/-- The condition and guard of an instruction as the thread sees them. -/
def State.condTrue (s : State) (x : Nat) (d : Dec) : Bool := d.condHolds ((d.condBit.map (s.bitSeen x)).getD false)

/-- Private bits that an instruction reads as operands without naming them. -/
def Dec.bitReads (d : Dec) : List Nat :=
  match d.op with
  | 0x106 | 0x107 => [flagC]
  | 0x019 => [flagG]
  | _ => []

/-- Private bits that an instruction writes without naming them: a partial write of their word (R146). -/
def Dec.bitWrites (d : Dec) : List Nat :=
  match d.op with
  | 0x00B | 0x00C | 0x01C => [flagZ]
  | 0x128 | 0x129 => [cdoneBit (bits d.fixed 10 8)]
  | 0x12A => [pdoneBit (bits d.fixed 7 4)]
  | _ => if d.setf then [flagZ] else if 0x221 ≤ d.op ∧ d.op ≤ 0x233 then [flagLVDONE] else []

/-! ### Addresses and spans -/

/-- The address that a specifier names. -/
structure Named where
  /-- 0 well, 1 reservoir, 2 cistern window, 3 port window, 4 code, 5 bit space, 6 reserved pointer space (R151). -/
  space : Nat
  addr : Nat
  ptr : Nat
  touch : List (Mem × Nat)
  inc : Option (Nat × Nat)
  deriving DecidableEq, Repr

/-- The address that a specifier names, where it names one; a WIP pointer advances by `step`. -/
def named (s : State) (x pc : Nat) (sp : Spec) (step : Nat) : Except Flt (Option Named) := do
  match ← pointerOf s x sp step with
  | some (p, ad, ws, inc) => .ok (some { space := if 5 ≤ p / 2 ^ 29 then 6 else p / 2 ^ 29, addr := ad, ptr := p, touch := ws, inc := inc })
  | none =>
    let plain (space addr : Nat) : Option Named := some { space := space, addr := addr, ptr := 0, touch := [], inc := none }
    match sp with
    | .wd a => .ok (plain 0 a)
    | .ws m => .ok (plain 0 (4 * m))
    | .rd a => .ok (plain 1 a)
    | .code d => .ok (plain 4 (wrap 18 ((pc : Int) + sgn 16 d)))
    | .bit a => .ok (plain 5 a)
    | .pw o => do
      let w ← addrWord s x 0xFFC
      .ok (some { space := 3, addr := w % 256 * 0x1000 + o, ptr := 0, touch := [(.well x, 0xFFC / 4)], inc := none })
    | _ => .ok none

/-- The operand lies in a space that its role does not permit (R580). -/
def Named.bad (a : Named) : Flt := Flt.at_ a.space ((if a.space = 2 ∨ a.space = 6 then a.ptr else a.addr) % 2 ^ 20)

/-- Bytes of a memory space. -/
def spaceSize (space : Nat) : Nat := if space = 0 then 0x1000 else if space = 1 then 0x80000 else 0x40000

/-- A span of `len` bytes in one of the permitted memory spaces, aligned to `al`; a span of 0 bytes is a base whose
elements are checked one by one (R126, R203, R239).
(DESIGN CHOICE, unsafe: log entry 110.) -/
def spanIn (a : Named) (allow : List Nat) (len al : Nat) : Except Flt Loc :=
  let lim := spaceSize a.space
  if !allow.contains a.space then .error a.bad
  else if len ≠ 0 ∧ lim < a.addr + len then
    .error (Flt.at_ a.space ((if lim ≤ a.addr then a.addr else lim) % 2 ^ 20))
  else if a.addr % al ≠ 0 then .error (Flt.at_ a.space (a.addr % 2 ^ 20))
  else .ok (match a.space with | 0 => .well a.addr | 1 => .res a.addr | _ => .code a.addr)

/-- A span operand. -/
def spanOpnd (s : State) (x pc : Nat) (sp : Spec) (allow : List Nat) (len al step : Nat) : Except Flt Opnd := do
  match ← named s x pc sp step with
  | none => .error (Flt.none_ 7 0)
  | some a =>
    let l ← spanIn a allow len al
    .ok { loc := l, n := len, touch := a.touch, inc := a.inc }

/-- The span of a block CRC of `k` bytes: a place outside the well, the reservoir and the code space is DETAIL 7
(R203, R580); a pointer of a space that no operand reaches names its own space. -/
def crcSpan (s : State) (x pc : Nat) (sp : Spec) (k : Nat) : Except Flt Opnd := do
  match ← named s x pc sp k with
  | none => .error (Flt.none_ 7 0)
  | some a =>
    if a.space = 3 ∨ a.space = 5 then .error (Flt.none_ 7 0)
    else
      let l ← spanIn a [0, 1, 4] k 1
      .ok { loc := l, n := k, touch := a.touch, inc := a.inc }

/-- An operand that must lie in one of the spaces: its space is judged before any word of it is read. -/
def only (s : State) (x pc : Nat) (allow : List Nat) (sp : Spec) (n : Nat) (u : Use) : Except Flt Opnd := do
  match ← named s x pc sp n with
  | none => .error (Flt.none_ 7 0)
  | some a => if allow.contains a.space then resolve s x pc sp n u else .error a.bad

/-- The same, an immediate being permitted. -/
def onlyOrImm (s : State) (x pc : Nat) (allow : List Nat) (sp : Spec) (n : Nat) (u : Use) : Except Flt Opnd :=
  match sp.immVal n with
  | some _ => resolve s x pc sp n u
  | none => only s x pc allow sp n u

/-! ### Operands of the forms with rules of their own -/

/-- The c operand of CRD and CWR (R138, R166). -/
def cOpnd (s : State) (x pc : Nat) (sp : Spec) (n : Nat) : Except Flt Opnd := do
  match ← named s x pc sp n with
  | none => .error (Flt.none_ 7 0)
  | some a =>
    if a.space = 2 then .ok { loc := .cis a.addr, n := n, touch := a.touch, inc := a.inc }
    else .error (Flt.none_ 0 a.ptr)

/-- The source of a CWR of `n` bytes (R216). -/
def cwrSource (s : State) (x pc : Nat) (sp : Spec) (n : Nat) : Except Flt Opnd :=
  match sp.immVal 4, sp with
  | some v, _ => if n ≤ 4 then .ok { loc := .imm v, n := 4, touch := [], inc := none } else .error (Flt.none_ 7 n)
  | none, .bit _ => if n ≤ 4 then resolve s x pc sp 4 ⟨true, false, false⟩ else .error (Flt.none_ 7 n)
  | none, _ => spanOpnd s x pc sp [0, 1] n 1 n

/-- The valve of a queue data register. -/
def valveOfOff (off : Nat) : Nat := (off - 0x30000) / 0x200

/-- The queue operand of QPUT and QGET: a data register of a direction that threads feed (R220, R270, R272). -/
def queueOpnd (s : State) (x pc : Nat) (sp : Spec) (tx : Bool) : Except Flt Opnd := do
  match ← named s x pc sp 4 with
  | none => .error (Flt.none_ 7 0)
  | some a =>
    let v := valveOfOff a.addr
    if a.space ≠ 3 then .error a.bad
    else if 0x30000 ≤ a.addr ∧ a.addr < 0x40000 ∧ a.addr % 0x200 = (if tx then 0x10 else 0x14) ∧
        (if tx then s.txDepth v else s.rxDepth v) ≠ 0 ∧ bit (s.vreg v 0x0C) (if tx then 4 else 5) = false then
      .ok { loc := .port a.addr, n := 4, touch := a.touch, inc := a.inc }
    else .error a.bad

/-- The spans of a long vector at length `vl` (R240): bytes of d, a and the third operand. -/
def lvSpans (op vl : Nat) : Nat × Nat × Nat :=
  if lvReal op then (2 * vl, 2 * vl, 2 * vl)
  else match op with
    | 0x28 | 0x29 => (8, 4 * vl, 0)
    | 0x2A => (8 * vl, 8 * vl, 4 * vl)
    | 0x30 | 0x31 => (4 * vl, 0, 2 * vl)
    | 0x32 => (0, 4 * vl, 2 * vl)
    | _ => (4 * vl, 4 * vl, 4 * vl)

/-- The operands of a long vector (R239). -/
def lvOpnds (s : State) (x pc op vl : Nat) (sps : List Spec) : List (Except Flt Opnd) :=
  let (nd, na, nb) := lvSpans op vl
  let e := lvSize op
  let xs := decide (0x30 ≤ op ∧ op ≤ 0x32)
  sps.zipIdx.map (fun p =>
    match p.2 with
    | 0 => if op = 0x28 ∨ op = 0x29 then spanOpnd s x pc p.1 [0, 1] nd 4 nd else spanOpnd s x pc p.1 [1] nd e nd
    | 1 => spanOpnd s x pc p.1 [1, 4] na e na
    | _ => spanOpnd s x pc p.1 [1, 4] nb (if xs then 2 else e) nb)

/-- VL of a thread (R235). -/
def State.vl (s : State) (x : Nat) : Nat := s.wellWord x 0xFF4

/-- What keeps a long vector from launching, operands apart (R227, R235). -/
def lvRefusals (s : State) (x : Nat) : List Flt :=
  let b := s.lb (lbOf x)
  (match checkEcc s (.well x) 0 0xFF4 4 [0xFF4 / 4] with
   | some f => [f]
   | none => []) ++
  (if b.lvEn && b.lvOwner == slotOf x then [] else [Flt.none_ 5 0]) ++
  (if 1 ≤ s.vl x ∧ s.vl x ≤ 256 then [] else [Flt.none_ 6 (s.vl x)])

/-- The count of a CRC32 or CRC32C (R202). -/
def crcCount (s : State) (x : Nat) (o : Except Flt Opnd) : Nat :=
  match o with
  | .ok o => readLoc s State.image x false o.loc 4
  | .error _ => 0

/-! ### All operands of an instruction -/

/-- The operands that form, and the faults of those that do not, in the order of the specifiers. -/
structure Formed where
  faults : List Flt
  ops : List Opnd
  deriving DecidableEq, Repr

/-- Collect what forming the operands gave: one event records the first fault, the checks before the operands first, then
the specifiers in order.
(DESIGN CHOICE, unsafe: log entry 111.) -/
def Formed.of (pre : List Flt) (l : List (Except Flt Opnd)) : Formed :=
  { faults := pre ++ l.filterMap (fun | .error f => some f | .ok _ => none)
    ops := l.filterMap (fun | .ok o => some o | .error _ => none) }

/-- The operands of an instruction whose forms need nothing more than their size and use. -/
def plainOpnds (s : State) (x pc : Nat) (d : Dec) (roles : List Role) : List (Except Flt Opnd) :=
  ((roles.zip d.specs).zip (opSizes d)).map (fun p => resolve s x pc p.1.2 p.2 (useOf d p.1.1))

/-- The roles of an opcode. -/
def Dec.roles (d : Dec) : List Role := ((opRow d.op).map (·.roles)).getD []

/-- Form the operands of the instruction at `pc`, in OPERATE (R74, R120-R127). -/
def State.form (s : State) (x pc : Nat) (d : Dec) : Formed :=
  let sp (i : Nat) : Spec := d.specs.getD i (.small 0)
  let plain := plainOpnds s x pc d d.roles
  let at_ (i : Nat) : Except Flt Opnd := plain.getD i (.error (Flt.none_ 7 0))
  let n := bits d.fixed 5 0 + 1
  match d.op with
  | 0x114 | 0x115 =>
    let k := crcCount s x (at_ 2)
    if 4096 < k then .of [Flt.none_ 7 k] [at_ 0, at_ 2]
    else if d.size < k then .of [] [at_ 0, crcSpan s x pc (sp 1) k, at_ 2]
    else .of [] [at_ 0, at_ 1, at_ 2]
  | 0x120 => .of [] [at_ 0, only s x pc [1] (sp 1) 4 ⟨true, true, true⟩]
  | 0x121 => .of [] [only s x pc [1] (sp 0) 4 ⟨true, true, true⟩]
  | 0x124 | 0x125 | 0x126 => .of [] [at_ 0, only s x pc [0, 1] (sp 1) d.size (useOf d .m), at_ 2]
  | 0x128 => .of [] [spanOpnd s x pc (sp 0) [0, 1] n 1 n, cOpnd s x pc (sp 1) n]
  | 0x129 => .of [] [cOpnd s x pc (sp 0) n, cwrSource s x pc (sp 1) n]
  | 0x12A => .of [] [only s x pc [0, 1] (sp 0) 16 ⟨true, false, false⟩]
  | 0x138 | 0x139 => .of [] [queueOpnd s x pc (sp 0) true, at_ 1]
  | 0x13A | 0x13B => .of [] [at_ 0, queueOpnd s x pc (sp 1) false]
  | op =>
    if 0x221 ≤ op ∧ op ≤ 0x233 then
      .of (lvRefusals s x) (lvOpnds s x pc (op - 0x200) (if s.vl x ≤ 256 then s.vl x else 1) d.specs)
    else if 0x200 ≤ op ∧ op ≤ 0x213 then
      .of [] ((d.roles.zip d.specs).mapIdx (fun i p =>
        if i = 0 then only s x pc [0, 1] p.2 16 (useOf d p.1) else onlyOrImm s x pc [0, 1, 4] p.2 16 (useOf d p.1)))
    else .of [] plain

/-- The uncorrectable private bits that an instruction reads or writes without naming them (R146). -/
def State.bitFaults (s : State) (x : Nat) (as : List Nat) : List Flt :=
  if s.ecc.isEmpty then []
  else as.filterMap (fun a =>
    let (m, w) := bitWord x a
    if s.isUe m w then some { cause := 2, space := 5, addr := a, half := 0, detail := 0, word := some (m, w) } else none)

/-- The fault that acts: on a metered thread the first found, on an elastic thread the one with the earlier vector,
ECC before ADDRESS (R102). -/
def firstFault (elastic : Bool) (fs : List Flt) : Option Flt :=
  if elastic then (fs.find? (·.cause == 2)).orElse (fun _ => fs.head?) else fs.head?

/-! ### Interlocks of an elastic thread (R81, R130, R244) -/

/-- Two byte ranges overlap. -/
def overlaps (a n b m : Nat) : Bool := decide (a < b + m) && decide (b < a + n)

/-- Two locations with their sizes overlap. -/
def Loc.meets : Loc × Nat → Loc × Nat → Bool
  | (.well a, n), (.well b, m) => overlaps a n b m
  | (.res a, n), (.res b, m) => overlaps a n b m
  | (.port a, n), (.port b, m) => overlaps a n b m
  | (.bit a, _), (.bit b, _) => a == b
  | _, _ => false

/-- What a result at a distance in turns will write. -/
def LongOp.dests : LongOp → List (Loc × Nat)
  | .arith ws => ws.map (fun w => (w.loc, w.n))
  | .crc _ _ _ _ dst => [(dst, 4)]
  | .chan _ _ _ dst => [(dst, 4)]

/-- What a long vector will write: its destination span and, for LVGATHF, the VL word.  A scatter may reach every
word that a 16-bit index reaches. -/
def LvOp.dests (l : LvOp) : List (Loc × Nat) :=
  let n := if l.op = 0x32 then 4 * 65536 else (lvSpans l.op l.vl).1
  (l.d, n) :: (if l.op = 0x31 then [(.well 0xFF4, 4)] else [])

/-- The writes of Lx that are not visible yet, other than those of atomic accesses. -/
def State.pendingOf (s : State) (x : Nat) : List (Loc × Nat) :=
  let t := s.th x
  ((s.winPend.filter (·.x == x)).map (fun w => (.port w.off, 4))) ++ t.longs.flatMap (·.op.dests) ++
  t.flagsDue.flatMap (fun d => d.fs.map (fun f => (.bit f.1, 1))) ++
  (match (s.lb (lbOf x)).lv with | some l => if l.x = x then l.dests else [] | none => [])

/-- The reservoir writes of Lx on their way, with those of atomic accesses only where `atom` is false. -/
def State.pendingRes (s : State) (x : Nat) (atom : Bool) : List (Loc × Nat) :=
  ((s.lb (lbOf x)).resPend.filter (fun w => w.x == x && !(atom && w.atom))).map (fun w => (.res w.addr, w.n))

/-- The pointer, index and VL words that an instruction reads. -/
def Dec.wordsRead (d : Dec) : List (Loc × Nat) :=
  d.specs.flatMap (fun
    | .wi k _ => [(.well (4 * k), 4)]
    | .wip k => [(.well (4 * k), 4)]
    | .wix k j _ => [(.well (4 * k), 4), (.well (4 * j), 4)]
    | .pw _ => [(.well 0xFFC, 4)]
    | _ => []) ++
  (if 0x221 ≤ d.op ∧ d.op ≤ 0x233 then [(.well 0xFF4, 4)] else [])

/-- Every memory operand of XCHG, CAS and FADD, the lock word of LOCKW and UNLKW, and every memory operand under ATOM is
accessed atomically (R209, R492). -/
def Dec.atomAt (d : Dec) (i : Nat) : Bool :=
  atomicOp d.op || (d.op == 0x120 && i == 1) || (d.op == 0x121 && i == 0) ||
  ((d.roles[i]?).map (fun r => (useOf d r).atom)).getD false

/-- Some operand, pointer, index or flag that the instruction uses awaits a result of its own thread. -/
def State.awaits (s : State) (x : Nat) (d : Dec) (f : Formed) : Bool :=
  let pend := s.pendingOf x
  let res := s.pendingRes x false
  if pend.isEmpty && res.isEmpty then false
  else
    let bits_ := (d.condBit.toList ++ d.bitReads).map (fun a => (Loc.bit a, 1))
    (d.wordsRead ++ bits_ ++ f.ops.map (fun o => (o.loc, o.n))).any (fun u => pend.any (fun p => Loc.meets p u)) ||
    f.ops.zipIdx.any (fun o => (s.pendingRes x (d.atomAt o.2)).any (fun p => Loc.meets p (o.1.loc, o.1.n)))

/-- The last PUMP of Lx that named done index `k` has not set PDONEk (R217). -/
def State.pumpBusy (s : State) (x k : Nat) : Bool :=
  (s.pump.moves.any (fun m => match m.by_ with | .thread y _ j => y == x && j == k | .trigger .. => false) ||
   (match s.leads x with
    | some p => (s.pair p).recs.any (fun r => r.outs.any (fun | .pump _ j .. => j == k | _ => false))
    | none => false))

/-- PUMPs of queue `q` that leaders of bore `lb` hold until their trailers match them: they take their place in the queue
at once (R424, R507). -/
def State.pumpHeld (s : State) (lb q : Nat) : Nat :=
  ((s.runningPairs.filter (fun p => lbOf (s.pairLead p) == lb)).map (fun p =>
    ((s.pair p).recs.map (fun r => (r.outs.filter (fun | .pump j .. => j == q | _ => false)).length)).sum)).sum

/-- PUMP of queue `q` naming done index `k` is refused (R217, R424); also where lowered depths leave no slot for it. -/
def State.pumpRefused (s : State) (x q k : Nat) : Bool :=
  s.pumpBusy x k || decide (s.qdepth (lbOf x) q ≤ s.qlevel (lbOf x) q + s.pumpHeld (lbOf x) q) || s.freeSlot.isNone

/-- Lx has a block CRC outstanding (R203). -/
def Thread.crcBusy (t : Thread) : Bool := t.longs.any (fun l => match l.op with | .crc .. => true | _ => false)

/-- A blocking form that cannot complete (R81, R83, R142, R203, R217, R218, R228); its operands have formed. -/
def State.blocked (s : State) (x : Nat) (d : Dec) (f : Formed) : Bool :=
  let val (i : Nat) : Nat := match f.ops[i]? with
    | some o => readLoc s State.image x false o.loc 4
    | none => 0
  let valve (i : Nat) : ValveSt := match f.ops[i]? with
    | some { loc := .port off, .. } => s.valve (valveOfOff off)
    | _ => {}
  match d.op with
  | 0x114 | 0x115 => decide (d.size < val 2) && (s.th x).crcBusy
  | 0x128 | 0x129 => (s.cisOf x (bits d.fixed 10 8)).isSome
  | 0x12A => s.pumpRefused x (bits d.fixed 2 0) (bits d.fixed 7 4)
  | 0x133 => val 0 == 0
  | 0x138 => (valve 0).credit == 0
  | 0x13A => (valve 1).rxReady.isEmpty
  | op => decide (0x221 ≤ op ∧ op ≤ 0x233) && (s.lb (lbOf x)).lv.isSome

/-- The next instruction of an elastic thread is ready (R81). -/
def State.ready (s : State) (x : Nat) (d : Dec) : Bool :=
  let f := s.form x (s.th x).pc.toNat d
  !s.awaits x d f && (!f.faults.isEmpty || !s.condTrue x d || !s.blocked x d f)

end Sys2Proof.Machine
end

