-- ==== Sys2Proof/Machine/Stroke.lean ====
section
/-!
DEFINITION. One stroke of the self-timed core (R28, R37, R69-R91, R110): what each gate opening settles and lands, and
the choice that SELECT makes in every logical bore.
-/

namespace Sys2Proof.Machine

/-! ### The offer of a turn to one thread (R79, R89, R90) -/

/-- What a thread makes of a turn that is offered to it. -/
inductive Offer where
  /-- It takes the turn for this use. -/
  | grant (u : TurnUse)
  /-- It takes the turn as one that issues nothing: a fill turn, or the second turn of a RET. -/
  | fill
  /-- It passes the turn on. -/
  | pass
  deriving DecidableEq, Repr

/-- The results of Lx at a distance in turns as this turn sees them. -/
def State.atTurn (s : State) (x : Nat) : State :=
  s.landLongs x (s.th x).longs.length

/-- Lx is at the OLD_PC of its re-entry entry: it cuts over at this turn (R551). -/
def State.cutDue (s : State) (x : Nat) : Bool :=
  ((s.th x).cutOver.map (fun c => c.1 == (s.th x).pc)).getD false

/-- An elastic thread may accept an interrupt at this turn: a line qualifies, and no exception of the instruction that
would issue is due at the same turn; inside an IDLE, or where the thread cuts over, none would (R90, R101, R551). -/
def State.irqTaken (s : State) (x : Nat) : Bool :=
  (s.irqOf x).isSome && (decide (0 < (s.th x).idle) || s.cutDue x || (match s.fetch x with | .ok _ => true | _ => false))

/-- A running thread at an offered turn that counts (R79).  A stop that it waits for acts at a turn that would consider
its next instruction, and the turn is donated (R89, R93). -/
def State.offerRun (s : State) (x : Nat) : Offer × State :=
  let s := s.modTh x (fun t => t.tick false)
  let t := s.th x
  if 0 < t.idle then
    if s.irqTaken x then (.grant .accept, s) else (.pass, s.modTh x (fun t => { t with idle := t.idle - 1 }))
  else if 0 < t.owed then (.fill, (s.modTh x (fun t => { t with owed := t.owed - 1, turns := t.turns + 1 })).fetchTurn x)
  else if t.exc.isSome then (.grant .accept, s)
  else if t.stopReq != .none then (.pass, s.modTh x (fun t => { t with atStop := true }))
  else if t.st == .metered then (.grant .issue, s)
  else if s.irqTaken x then (.grant .accept, s)
  else if s.cutDue x then (.grant .issue, s)
  else match s.fetch x with
    | .ok d =>
      if (s.landBore (lbOf x)).ready x d then (.grant .issue, s)
      else (.pass, s.modTh x (fun t => { t with stalled := true }))
    | _ => (.grant .issue, s)

/-- The start of Lx is due at stroke `n` (R92). -/
def Thread.startDue (t : Thread) (n : Nat) : Bool :=
  (t.startReq.map (fun r => decide (r.1 ≤ n))).getD false

/-- The own turn of Lx at stroke `n`.
(DEDUCED, unsafe: log entry 21.) (DEDUCED, unsafe: log entry 31.) -/
def State.offerOwn (s : State) (x n : Nat) : Offer × State :=
  let t := s.th x
  if t.startDue n then (.grant .first, s)
  else if !t.running then (.pass, s)
  else if t.yielding then (.pass, (s.modTh x (fun t => { t.tick false with yielding := false })))
  else s.offerRun x

/-- A donated turn whose search examines Lx (R89, R199). -/
def State.offerDonated (s : State) (x n : Nat) : Offer × State :=
  let t := s.th x
  if !t.cls then (.pass, s)
  else if t.startDue n then (.grant .first, s)
  else if t.st != .elastic then (.pass, s)
  else if t.yielding then
    if ((s.lb (lbOf x)).positions (slotOf x)).isEmpty then
      match (s.modTh x (fun t => { t with yielding := false })).offerRun x with
      | (.pass, s') => (.pass, s'.modTh x (fun t => { t with yielding := true }))
      | _ => (.pass, s.modTh x (fun t => { t.tick false with yielding := false }))
    else (.pass, s.modTh x (fun t => t.tick false))
  else s.offerRun x

/-! ### SELECT (R69, R72, R89) -/

/-- The search for a recipient over slots in order. -/
def State.search (s : State) (lb n : Nat) : List Nat → Option (Nat × Option TurnUse) × State
  | [] => (none, s)
  | q :: qs =>
    match s.offerDonated (16 * lb + q) n with
    | (.grant u, s) => (some (q, some u), s)
    | (.fill, s) => (some (q, none), s)
    | (.pass, s) => s.search lb n qs

/-- The slots in the order of R89, the owner of the turn apart. -/
def searchOrder (last owner : Nat) : List Nat :=
  ((List.range 16).map (fun k => (last + 1 + k) % 16)).filter (· != owner)

/-- The turn of stroke `n` in a logical bore is granted. -/
def State.grantTurn (s : State) (lb q : Nat) (u : Option TurnUse) : State :=
  s.modLb lb (fun b => { b with turn := u.map (fun u => (q, u)) })

/-- SELECT of stroke `n` in logical bore `lb`.  A logical bore that is out of service has no slot wheel on any bore: its
positions count in no counter.
(DEDUCED, safe: log entry 16.) (DESIGN CHOICE, unsafe: log entry 104.) -/
def State.selectLb (s : State) (n lb : Nat) : State :=
  let s := s.grantTurn lb 0 none
  if (s.lb lb).shed then s
  else
    let q := (s.lb lb).owner (n % 16)
    let x := 16 * lb + q
    match s.offerOwn x n with
    | (.grant u, s) => s.grantTurn lb q (some u)
    | (.fill, s) => s
    | (.pass, s) =>
      let s := s.modTh x (fun t => { t with donated := t.donated + 1 })
      match s.search lb n (searchOrder (s.lb lb).donateLast q) with
      | (some (r, u), s) => (s.modLb lb (fun b => { b with donateLast := r })).grantTurn lb r u
      | (none, s) => s.modLb lb (fun b => { b with bubbles := if b.bubbles = 0xFFFFFFFF#32 then b.bubbles else b.bubbles + 1 })

/-! ### What ends with a stroke -/

/-- The threads that have a record. -/
def State.threadNums (s : State) : List Nat := s.threads.map (·.1)
/-- The logical bores that have a record. -/
def State.lbNums (s : State) : List Nat := s.lbs.map (·.1)

/-- Stops, completed steps, due results and due deliveries that no command of the stroke has taken; and the group of
each long vector, which is read after every write that lands in the stroke (R75, R242).
(DEDUCED, safe: log entry 19.) -/
def State.strokeEnd (s : State) : State :=
  let s := s.lbNums.foldl (fun s n => s.grantTurn n 0 none) s
  let s := s.threadNums.foldl (fun s x => s.atTurn x) s
  let s := s.lbNums.foldl (fun s n => s.landLv n) s
  let s := s.threadNums.foldl (fun s x =>
    if s.stopDue x then s.stopAct x else if s.stepDue x then s.stepEnd x else s) s
  let s := s.lbNums.foldl (fun s b => s.lvGroupRead b s.strokes) s
  s.deliverAll.routeStroke.sigStep.stampExits

/-- A metered thread that owns no position enters METERED without a turn; its first turn, a fill turn, is still to
come when a wheel change gives it a position (R92). -/
def State.startIdle (s : State) (n x : Nat) : State :=
  let t := s.th x
  if t.stopped && t.startDue n && !t.cls && ((s.lb (lbOf x)).positions (slotOf x)).isEmpty then
    s.modTh x (fun t => { t with st := .metered, lastPc := t.pc, owed := 0, idle := 0, exc := none })
  else s

/-- A held output of a leader that its trailer has not matched by stroke `n` is a disagreement (R507); a record
without outputs is dropped.  Kind 2: the trailer did not match. -/
def State.pairLate (s : State) (n k : Nat) : State :=
  let late := (s.pair k).recs.filter (fun r => r.stroke + 16 < n)
  if late.isEmpty then s
  else s.modPair k (fun p => { p with
    recs := p.recs.filter (fun r => !(r.stroke + 16 < n))
    diff := if p.diff.isNone && late.any (fun r => !r.outs.isEmpty) then some 2 else p.diff })

/-- Everything that stroke `n` makes visible before SELECT. -/
def State.strokeLand (s : State) (n : Nat) : State :=
  let s := s.landGbits (n - 1)
  let s := s.lbNums.foldl (fun s b => s.landRes b n) s
  let s := s.landTime n
  let s := s.landWindow n
  let s := s.landEcc n
  let s := s.threadNums.foldl (fun s x => s.landFlags x n) s
  let s := s.threadNums.foldl (fun s x => s.modTh x (fun t => t.tick true)) s
  let s := s.lbNums.foldl (fun s b => s.landLv b) s
  let s := s.pumpStroke n
  let s := (List.range 16).foldl (fun s k => ((if s.trailerDue k then s.trailerStart k else s).landPair k n).pairLate n k) s
  let s := s.mfGate
  s.threadNums.foldl (fun s x => s.startIdle n x) s

/-- The gate of stroke `n` opens: `tree` is the time that the completion tree of stroke `n - 1` took and `unit` the
unit that finished last; the first gate ends no stroke (R37, R60). -/
def State.gateOpen (s : State) (n tree unit : Nat) : State :=
  let s := if s.opened then ({ s.strokeEnd with strokes := n }).govGate n tree unit
    else ({ s with opened := true }).vreqPresent s.govVstart
  let s := { s.showGate n with rank := 0 }
  let s := (List.range 8).foldl (fun s b => if s.wheelDue b n then s.wheelApply b else s) s
  let s := ({ s with strokes := n }).strokeLand n
  (List.range 8).foldl (fun s b => s.selectLb n b) s

/-- A unit that can finish last: one of the completion tree (R44), of which a retired bore is no part (R37). -/
def State.inTree (s : State) (unit : Nat) : Bool :=
  decide (unit < 14) && (decide (10 ≤ unit) || (s.pb unit).role != 4)

/-- STROKE (R37): one gate opening, while the core is out of reset.
(DESIGN CHOICE, safe: log entry 17.) (DEDUCED, safe: log entry 18.) -/
def execStroke (tree : Nat) (unit : Fin 16) (s : State) : Result :=
  s.act (s.up 2 && s.inTree unit) (s.gateOpen s.nextGate tree unit)

end Sys2Proof.Machine
end

