-- ==== Sys2Proof/Machine/Issue.lean ====
section
/-!
DEFINITION. Issuing an instruction (R74-R88, R147, R175): what every instruction does around its own operation.  The
operation is a body that answers what it does, on the values that the instruction read.
-/

namespace Sys2Proof.Machine

/-! ### What an operation answers -/

/-- What the operation of an instruction does. -/
inductive Did where
  /-- It acts: its writes follow the advance of its pointers. -/
  | run (f : State → State)
  /-- A launch is refused: the instruction keeps its cost and launches nothing; `f` says what else it does. -/
  | stay (f : State → State)
  /-- A fault found in OPERATE: it writes nothing (R147). -/
  | fault (f : Flt)

/-- The operation of an instruction. -/
abbrev Body := Ctx → State → Did

/-! ### Costs, exceptions, ill-class events -/

/-- Lx is an elastic thread. -/
def State.elastic (s : State) (x : Nat) : Bool := (s.th x).st == .elastic

/-- The turns beyond the first of an instruction whose condition is false or that faults (R77, R90, R182). -/
def Thread.passes (t : Thread) (d : Dec) : Thread :=
  if d.op = 0x011 then { t with owed := 1 } else if d.op = 0x01F then { t with idle := d.fixed } else t

/-- An exception of Lx is due at its next turn (R102). -/
def State.raiseExc (s : State) (x v : Nat) (ret : BitVec 18) : State := s.modTh x (fun t => { t with exc := some (v, ret) })

/-- A fault in OPERATE (R146, R147, R151): BORE_TFAULT and, by class, an ILL-class event or an exception whose return
address is the instruction. -/
def State.takeFault (s : State) (x pc : Nat) (d : Dec) (f : Flt) : State :=
  let s := match f.word with
    | some (m, w) => s.eccPipe m w
    | none => s
  let s := s.recordFault x f
  if s.elastic x then s.raiseExc x (if f.cause = 2 then 1 else 2) (BitVec.ofNat 18 pc)
  else (s.ill x (if f.cause = 2 then 0x40 else 0x41) 0 pc (place := some (f.space, f.addr))).modTh x (fun t => t.passes d)

/-- A blocking form on a metered thread, or a launch refused on one (R83, R142, R217, R228). -/
def State.illBlock (s : State) (c : Ctx) : State := s.ill c.x 0x42 0 c.pc

/-! ### Reading the operands -/

/-- The instruction reads operand `i` as a value. -/
def Dec.readsAt (d : Dec) (i : Nat) : Bool :=
  ((d.roles[i]?).map (fun r => (useOf d r).rd)).getD false &&
  !(((d.op == 0x138 || d.op == 0x139) && i == 0) || ((d.op == 0x13A || d.op == 0x13B) && i == 1))

/-- Read the operands in order: their values, and the outside values that a pair records (R128, R505). -/
def State.readOps (s : State) (x pc : Nat) (d : Dec) : List (Opnd × Nat) → List Nat × State
  | [] => ([], s)
  | (o, i) :: os =>
    let v := if d.readsAt i && decide (o.n ≤ 16) then readLoc s State.image x (d.atomAt i) o.loc o.n else 0
    let (v, s) := if d.readsAt i && o.loc.outer then s.outside x pc v else (v, s)
    let (vs, s) := s.readOps x pc d os
    (v :: vs, s)

/-- The condition and guard as the instruction reads them. -/
def State.readCond (s : State) (x pc : Nat) (d : Dec) : Bool × State :=
  match d.condBit with
  | none => (true, s)
  | some a =>
    let b := s.bitSeen x a
    let (v, s) := if 0x3000 ≤ a then s.outside x pc (b2n b) else (b2n b, s)
    (d.condHolds (v == 1), s.pipeCorrect [bitWord x a])

/-- The well words that the instruction writes as destinations: address and size. -/
def Dec.wellDests (d : Dec) (ops : List Opnd) : List (Nat × Nat) :=
  ops.zipIdx.filterMap (fun p =>
    match p.1.loc with
    | .well a => if ((d.roles[p.2]?).map (fun r => (useOf d r).wr)).getD false then some (a, p.1.n) else none
    | _ => none)

/-! ### Issue (R74, R77, R128) -/

/-- What an instruction finds before its own operation. -/
inductive Staged where
  /-- Its condition is false (R77). -/
  | pass (s : State)
  /-- An operand faults (R146, R147). -/
  | fault (f : Flt) (s : State)
  /-- Its condition holds and its operands are read: its context and the state in which it operates. -/
  | go (c : Ctx) (s : State)

/-- The turn is spent, the PC moves past the instruction, and FETCH adds to the queue (R74, R85). -/
def State.begun (s : State) (x : Nat) (d : Dec) : State :=
  ((s.spendTurn x).modTh x (fun t => { ((t.pass d.len).issuedAt s.strokes) with stepIssued := t.stepping })).fetchTurn x

/-- The words that an instruction whose condition is false reads beside its condition: pointers and index words, the
operands that form, the flags it takes as operands (R77). -/
def Formed.reads (f : Formed) (x : Nat) (d : Dec) : List (Mem × Nat) :=
  (d.wordsRead.filterMap (fun l => match l.1 with | .well a => some (.well x, a / 4) | _ => none)) ++
  f.ops.flatMap (·.touch) ++ d.bitReads.map (bitWord x)

/-- The words of `ws` that are not that of the condition, which has been read. -/
def Dec.besideCond (d : Dec) (x : Nat) (ws : List (Mem × Nat)) : List (Mem × Nat) :=
  ws.filter (fun w => d.condBit.map (bitWord x) != some w)

/-- FETCH to OPERATE of the instruction `d` of Lx at its PC: its code, its condition, its operands.
(DEDUCED, unsafe: log entry 28.) -/
def State.stage (s : State) (x : Nat) (d : Dec) : Staged :=
  let pc := (s.th x).pc.toNat
  let el := s.elastic x
  let s := (s.fetchRest x d.len).begun x d
  let f := s.form x pc d
  match firstFault el (s.bitFaults x d.condBit.toList) with
  | some flt => .fault flt s
  | none =>
    let (holds, s) := s.readCond x pc d
    if !holds then .pass (s.pipeCorrect (d.besideCond x (f.reads x d)))
    else match firstFault el (f.faults ++ s.bitFaults x (d.bitReads ++ d.bitWrites)) with
      | some flt => .fault flt s
      | none =>
        let (vals, s) := (s.pipeCorrect (d.besideCond x (f.reads x d ++ d.bitWrites.map (bitWord x)))).readOps
          x pc d f.ops.zipIdx
        .go { x := x, pc := pc, dec := d, ops := f.ops, vals := vals } s

/-- The instruction `d` of Lx at its PC issues. -/
def State.issueRun (s : State) (x : Nat) (d : Dec) (body : Body) : State :=
  let pc := (s.th x).pc.toNat
  match s.stage x d with
  | .pass t => t.modTh x (fun t => t.passes d)
  | .fault f t => t.takeFault x pc d f
  | .go c t =>
    match body c t with
    | .run g => g (advance t x c.ops (d.wellDests c.ops))
    | .stay g => g t
    | .fault flt => t.takeFault x pc d flt

/-- The instruction `d` of Lx may issue in the turn in progress: SELECT granted it, no cut-over takes its place, and
an elastic thread is still ready. -/
def State.mayIssue (s : State) (x : Nat) (d : Dec) : Bool :=
  s.hasTurn x .issue && !s.cutDue x && (!(s.elastic x) || s.ready x d)

/-- A command that issues the next instruction of Lx, where that instruction is the one that `sel` describes. -/
def runSel (x : Nat) (sel : State → Dec → Bool) (body : Body) (s : State) : Result :=
  match s.fetch x with
  | .ok d =>
    let t := s.landBore (lbOf x)
    s.act (s.hasTurn x .issue && sel t d && t.mayIssue x d) (t.issueRun x d body)
  | _ => .next s

/-- A command that issues the next instruction of Lx, where that instruction has opcode `op`. -/
def runThread (x op : Nat) (body : Body) (s : State) : Result := runSel x (fun _ d => d.op == op) body s

/-! ### Illegal forms and uncorrectable code (R83, R88, R175) -/

/-- A 1-turn no-op of a metered thread over `n` bytes. -/
def State.noOp (s : State) (x n : Nat) : State :=
  ((s.spendTurn x).modTh x (fun t => (t.pass n).issuedAt s.strokes)).fetchTurn x

/-- ILLEGAL_INSTRUCTION: by class, a no-op with ILL or the ILLEGAL entry at this turn (R175, R102). -/
def State.illegal (s : State) (x cause foundAt occupied : Nat) : State :=
  let a := (s.th x).pc
  let first := (s.nextByte x 0).1.toNat
  let s := s.fetchRest x (foundAt + 1)
  if s.elastic x then (s.spendTurn x).enterVec x 0 a
  else (s.noOp x occupied).ill x cause 0 a.toNat (head := some first)

/-- An uncorrectable fetched word at byte `i`: a no-op through that byte with cause 0x45, or the ECC entry (R88). -/
def State.fetchFault (s : State) (x i : Nat) : State :=
  let a := (s.th x).pc
  let m := Mem.code (lbOf x) (s.bankOf x)
  let s := s.fetchRest x i
  let s := (s.countLater m true).eccEventAt s.retireAt 1 m (codeAddr a.toNat i / 4) .thread
  if s.elastic x then (s.spendTurn x).enterVec x 1 a
  else (s.noOp x (i + 1)).ill x 0x45 0 a.toNat

/-- ILLEGAL_INSTRUCTION.
(DEDUCED, unsafe: log entry 26.) -/
def execIllegalInstruction (x : Fin 128) (s : State) : Result :=
  match s.fetch x with
  | .illegal c f o => s.act (s.hasTurn x .issue && !s.cutDue x) ((s.landBore (lbOf x)).illegal x c f o)
  | _ => .next s

/-- UNCORRECTABLE_FETCH. -/
def execUncorrectableFetch (x : Fin 128) (s : State) : Result :=
  match s.fetch x with
  | .ue i => s.act (s.hasTurn x .issue && !s.cutDue x) ((s.landBore (lbOf x)).fetchFault x i)
  | _ => .next s

/-! ### Shapes of operations -/

/-- Operand size in bits. -/
def Ctx.w (c : Ctx) : Nat := 8 * c.dec.size

/-- Write `v` to operand `i`. -/
def Ctx.put (c : Ctx) (i v : Nat) (s : State) : State :=
  writeLoc s c.x c.pc (c.dec.atomAt i) (c.op i).loc (c.op i).n v

/-- The address of the next sequential instruction. -/
def Ctx.next (c : Ctx) : BitVec 18 := BitVec.ofNat 18 (c.pc + c.dec.len)

/-- The result of a computation on a, b and the old d. -/
def Ctx.alu (c : Ctx) (f : Alu) (a b d : Nat) (s : State) : AluOut :=
  f c.w a b d ((s.th c.x).flag flagC) ((s.th c.x).flag flagG)

/-- The strokes after issue in which a result at `l` becomes visible, where that is not at once (R76, R178). -/
def Loc.delay : Loc → Option Nat
  | .res _ => some 2
  | .port _ => some 3
  | _ => none

/-- Flags under SETF, at the distance of the result they describe (R178): an older flag on its way gives way to them. -/
def State.flagsWith (s : State) (x : Nat) (l : Loc) (fs : List (Nat × Bool)) : State :=
  match l.delay with
  | none => s.setFlags x fs
  | some k => s.modTh x (fun t => { t with flagsDue := t.flagsDue ++ [{ due := s.strokes + k, fs := fs }] })

/-- Write a result to d, then its flags under SETF (R178, R179). -/
def Ctx.result (c : Ctx) (o : AluOut) (s : State) : State :=
  let s := c.put 0 o.r s
  if c.dec.setf then s.flagsWith c.x (c.op 0).loc (flagWrites c.w o) else s

/-- d := f(a, b), with the old d where f reads it. -/
def dab (f : Alu) : Body := fun c s => .run (c.result (c.alu f (c.val 1) (c.val 2) (c.val 0) s))

/-- d := f(a). -/
def da (f : Alu) : Body := fun c s => .run (c.result (c.alu f (c.val 1) 0 (c.val 0) s))

/-- d := f(d). -/
def dd (f : Alu) : Body := fun c s => .run (c.result (c.alu f 0 0 (c.val 0) s))

/-- A result that reaches d at a distance of `left` turns, with its flags under SETF (R78, R195). -/
def Ctx.later (c : Ctx) (left : Nat) (op : LongOp) (s : State) : State :=
  s.modTh c.x (fun t => { t with longs := t.longs ++
    [{ op := op, left := left, perStroke := false, issued := s.strokes, pc := c.pc }] })

/-- The flags of a result as writes to bit variables. -/
def flagWritesAt (fs : List (Nat × Bool)) : List LocWrite := fs.map (fun f => { loc := .bit f.1, n := 1, v := b2n f.2 })

/-- The writes of a result to d with its flags. -/
def Ctx.writes (c : Ctx) (o : AluOut) : List LocWrite :=
  { loc := (c.op 0).loc, n := (c.op 0).n, v := o.r } :: (if c.dec.setf then flagWritesAt (flagWrites c.w o) else [])

/-- Multiplications: the result reaches d at turn `left` (R191). -/
def mulAt (left : Nat) (f : Alu) : Body := fun c s => .run (c.later left (.arith (c.writes (c.alu f (c.val 1) (c.val 2) 0 s))))

/-- Divisions (R192, R193): at the 10th turn, but a division by zero of an elastic thread in its WRITE stage. -/
def divBy (f : Alu) : Body := fun c s =>
  let o := c.alu f (c.val 1) (c.val 2) 0 s
  if c.val 2 = 0 then
    if s.elastic c.x then
      .run (fun s =>
        let s := (c.result o s).setFlag c.x flagDZ true
        if (s.th c.x).dzTrap then s.raiseExc c.x 4 c.next else s)
    else .run (c.later 10 (.arith (c.writes o ++ [{ loc := .bit flagDZ, n := 1, v := 1 }])))
  else .run (c.later 10 (.arith (c.writes o)))

/-- Only flags. -/
def flagsOnly (f : Ctx → List (Nat × Bool)) : Body := fun c _ => .run (fun s => s.setFlags c.x (f c))

/-- Nothing. -/
def nothing : Body := fun _ _ => .run id

end Sys2Proof.Machine
end

