-- ==== Sys2Proof/Machine/Atomic.lean ====
section
/-!
DEFINITION. Atomic access and locks (R209-R214, R480-R486): XCHG, CAS, FADD and the lock instructions.
-/

namespace Sys2Proof.Machine

def xchgBody : Body := fun c _ => .run (fun s => c.put 0 (c.val 1) (c.put 1 (c.val 2) s))
def execXchg (x : Fin 128) (s : State) : Result := runThread x 0x124 xchgBody s

def casBody : Body := fun c _ =>
  .run (fun s => c.put 0 (c.val 1) (if c.val 1 = c.val 0 then c.put 1 (c.val 2) s else s))
def execCas (x : Fin 128) (s : State) : Result := runThread x 0x125 casBody s

def faddBody : Body := fun c _ => .run (fun s => c.put 0 (c.val 1) (c.put 1 ((c.val 1 + c.val 2) % 2 ^ c.w) s))
def execFadd (x : Fin 128) (s : State) : Result := runThread x 0x126 faddBody s

/-- The reservoir address of a lock word operand. -/
def Ctx.lockAddr (c : Ctx) (i : Nat) : Nat := match (c.op i).loc with | .res a => a | _ => 0

/-- LOCKW: s := the status of the acquisition (R211, R212, R480). -/
def lockwBody : Body := fun c _ => .run (fun s =>
  let a := c.lockAddr 1
  let y := s.actor c.x
  let (v, s) := s.outside c.x c.pc (s.lockAcquire y (s.threadLease y) 1 (lbOf y) a).1
  c.put 0 v (s.output c.x c.pc 0 (.lockw a)))
def execLockw (x : Fin 128) (s : State) : Result := runThread x 0x120 lockwBody s

/-- UNLKW (R481, R214). -/
def unlkwBody : Body := fun c _ => .run (fun s => s.output c.x c.pc 0 (.unlkw (c.lockAddr 0)))
def execUnlkw (x : Fin 128) (s : State) : Result := runThread x 0x121 unlkwBody s

/-- LOCKG: s := the status of the acquisition (R485); a number above 1,023 is an address fault (R213, R580). -/
def lockgBody : Body := fun c _ =>
  let n := c.val 1
  if 1023 < n then .fault (Flt.none_ 2 n)
  else .run (fun s =>
    let y := s.actor c.x
    let (v, s) := s.outside c.x c.pc (s.groupAcquire y (some (s.threadLease y)) n).1
    c.put 0 v (s.output c.x c.pc 0 (.lockg n)))
def execLockg (x : Fin 128) (s : State) : Result := runThread x 0x122 lockgBody s

/-- UNLKG (R486, R214). -/
def unlkgBody : Body := fun c _ =>
  let n := c.val 0
  if 1023 < n then .fault (Flt.none_ 2 n) else .run (fun s => s.output c.x c.pc 0 (.unlkg n))
def execUnlkg (x : Fin 128) (s : State) : Result := runThread x 0x123 unlkgBody s

end Sys2Proof.Machine
end

