-- ==== Sys2Proof/Machine/Cistern.lean ====
section
/-!
DEFINITION. The instructions that launch work outside the bore: CRD and CWR (R138-R143, R215, R216), CHAN (R441) and
PUMP (R215, R217, R424-R428).
-/

namespace Sys2Proof.Machine

/-- In a running pair a CRD, CWR, CHAN or long vector is a disagreement and starts nothing (R506). -/
def notInPair (body : Body) : Body := fun c s =>
  match s.pairOf c.x with
  | some k => .stay (fun s => s.disagree k 4)
  | none => body c s

/-! ### CRD and CWR -/

/-- Start a cistern access: CDONEk and CERRk are cleared in WRITE (R114). -/
def State.cisStart (s : State) (x : Nat) (a : CisAcc) : State :=
  ((s.setFlag x (cdoneBit a.idx) false).setFlag x (cerrBit a.idx) false).modTh x (fun t => { t with cis := t.cis ++ [a] })

/-- The pointer of a c operand. -/
def Ctx.cisPtr (c : Ctx) (i : Nat) : Nat := match (c.op i).loc with | .cis p => p | _ => 0

/-- A CRD (`rd`) or CWR with its window operand and its local side; the offset keeps bits [25:14], which no buffer
reaches (R138). -/
def cisBody (rd : Bool) (ci li : Nat) : Body := fun c s =>
  let k := bits c.dec.fixed 10 8
  let p := c.cisPtr ci
  let n := bits c.dec.fixed 5 0 + 1
  let l := match (c.op li).loc with
    | .bit _ => .imm (c.val li)
    | l => l
  if (s.cisOf c.x k).isSome then .stay (fun s => s.illBlock c)
  else .run (fun s => s.cisStart c.x { rd := rd, idx := k, win := bits p 28 26, off := bits p 25 0, n := n, loc := l,
                                       issued := s.strokes, pc := c.pc, done := 0, bad := false })

def execCrd (x : Fin 128) (s : State) : Result := runThread x 0x128 (notInPair (cisBody true 1 0)) s
def execCwr (x : Fin 128) (s : State) : Result := runThread x 0x129 (notInPair (cisBody false 0 1)) s

/-! ### CHAN -/

/-- CHAN: its window is checked now, its effect and result come at the 3rd turn (R441). -/
def chanBody : Body := fun c s =>
  match chanFault s c.x c.dec.fixed (c.val 1) (c.val 2) with
  | some f => .fault f
  | none => .run (c.later 3 (.chan c.dec.fixed (c.val 1) (c.val 2) (c.op 0).loc))

/-- A CHAN instruction with operation code `k`. -/
def runChan (x k : Nat) (s : State) : Result :=
  runSel x (fun _ d => d.op == 0x12B && d.fixed == k) (notInPair chanBody) s

def execCheck (x : Fin 128) (s : State) : Result := runChan x 0 s
def execBind (x : Fin 128) (s : State) : Result := runChan x 1 s
def execUnbind (x : Fin 128) (s : State) : Result := runChan x 2 s
def execTagget (x : Fin 128) (s : State) : Result := runChan x 3 s
def execTagput (x : Fin 128) (s : State) : Result := runChan x 4 s
def execAlloc (x : Fin 128) (s : State) : Result := runChan x 5 s
def execFree (x : Fin 128) (s : State) : Result := runChan x 6 s

/-! ### PUMP -/

/-- PUMP: the 16 descriptor bytes go to queue q, and PDONEk is cleared in WRITE (R215, R217, R427). -/
def pumpBody : Body := fun c s =>
  let q := bits c.dec.fixed 2 0
  let k := bits c.dec.fixed 7 4
  let v := c.val 0
  if s.pumpRefused c.x q k then .stay (fun s => if s.elastic c.x then s else s.illBlock c)
  else .run (fun s =>
    (s.output c.x c.pc 0 (.pump q k (bits v 31 0) (bits v 63 32) (bits v 95 64) (bits v 127 96))).setFlag c.x (pdoneBit k) false)

/-- The operation code of the descriptor that a PUMP at the PC of Lx submits; none where its condition is false or its
operand does not form. -/
def State.pumpOp (s : State) (x : Nat) (d : Dec) : Option Nat :=
  let f := s.form x (s.th x).pc.toNat d
  if s.condTrue x d && f.faults.isEmpty then (f.ops[0]?).map (fun o => readLoc s State.image x false o.loc 1) else none

/-- The row of operation `k` takes a PUMP whose descriptor has operation `j`: its own, COPY also an undefined one, which
is submitted and ends with DESC; a PUMP that submits nothing passes under every row.
(DEDUCED, safe: log entry 35.) -/
def pumpSel (k : Nat) : Option Nat → Bool
  | none => true
  | some j => j == k || (k == 1 && (j == 0 || decide (9 < j)))

/-- A PUMP instruction of the row of operation `k`. -/
def runPump (x k : Nat) (s : State) : Result :=
  runSel x (fun s d => d.op == 0x12A && pumpSel k (s.pumpOp x d)) pumpBody s

def execCopy (x : Fin 128) (s : State) : Result := runPump x 1 s
def execSendHost (x : Fin 128) (s : State) : Result := runPump x 2 s
def execTx (x : Fin 128) (s : State) : Result := runPump x 3 s
def execToValve (x : Fin 128) (s : State) : Result := runPump x 4 s
def execFromValve (x : Fin 128) (s : State) : Result := runPump x 5 s
def execImageOut (x : Fin 128) (s : State) : Result := runPump x 6 s
def execImageIn (x : Fin 128) (s : State) : Result := runPump x 7 s
def execPumpTake (x : Fin 128) (s : State) : Result := runPump x 8 s
def execEvent (x : Fin 128) (s : State) : Result := runPump x 9 s

end Sys2Proof.Machine
end

