-- ==== Sys2Proof/Machine/Control.lean ====
section
/-!
DEFINITION. Branches, calls, thread control and the return stack from below (R86-R90, R96-R98, R196-R201).
-/

namespace Sys2Proof.Machine

/-- The target of a branch with a displacement of `b` bits (R163). -/
def Ctx.target (c : Ctx) (b : Nat) : BitVec 18 := BitVec.ofNat 18 (wrap 18 ((c.pc : Int) + sgn b c.dec.fixed))

/-- A taken branch: the prefetch queue is flushed and the next turn is a fill turn (R86). -/
def Thread.branch (t : Thread) (pc : BitVec 18) : Thread := { t with pc := pc, owed := 1, fetched := [] }

def branchBody (b : Nat) : Body := fun c _ => .run (fun s => s.modTh c.x (fun t => t.branch (c.target b)))

def execBr (x : Fin 128) (s : State) : Result := runThread x 0x00E (branchBody 16) s
def execBrs (x : Fin 128) (s : State) : Result := runThread x 0x00F (branchBody 8) s

/-- A limit of the return stack in trap mode on a metered thread: ILL with its event (R98, R523). -/
def State.illStack (s : State) (c : Ctx) : State := s.ill c.x 0x44 0 c.pc

/-- CALL (R96, R98). -/
def callBody : Body := fun c s =>
  let t := s.th c.x
  if t.rsTrap && s.elastic c.x && t.rs.length == 7 then .run (fun s => s.raiseExc c.x 3 (BitVec.ofNat 18 c.pc))
  else .run (fun s =>
    let s := s.modTh c.x (fun t => (t.push (BitVec.ofNat 32 c.next.toNat)).branch (c.target 16))
    if t.rsTrap && !(s.elastic c.x) && t.rs.length == 8 then s.illStack c else s)
def execCall (x : Fin 128) (s : State) : Result := runThread x 0x010 callBody s

/-- The state that an INT frame restores (R97). -/
def Thread.restore (t : Thread) (e : Word) : Thread :=
  let w := e.toNat
  ((((({ t with ie := bit w 19, pl := Sys2Proof.bits w 23 20 }).setFlag flagZ (bit w 24)).setFlag flagC (bit w 25)).setFlag
    flagV (bit w 26)).setFlag flagN (bit w 27))

/-- RET (R97, R98). -/
def retBody : Body := fun c s =>
  let t := s.th c.x
  match t.rs with
  | e :: es =>
    .run (fun s => s.modTh c.x (fun t =>
      let t := ({ t with rs := es } : Thread).branch (BitVec.ofNat 18 e.toNat)
      if bit e.toNat 18 then t.restore e else t))
  | [] =>
    if t.rsTrap && s.elastic c.x then .run (fun s => s.raiseExc c.x 3 (BitVec.ofNat 18 c.pc))
    else .run (fun s =>
      let s := (s.setFlag c.x flagRSU true).modTh c.x (fun t => { t with owed := 1 })
      if t.rsTrap then s.illStack c else s)
def execRet (x : Fin 128) (s : State) : Result := runThread x 0x011 retBody s

/-- TRAP (R198). -/
def trapBody : Body := fun c s =>
  if s.elastic c.x then .run (fun s => (s.wellPut c.x 0xFF8 4 c.dec.fixed).raiseExc c.x 5 c.next)
  else .run (fun s => s.ill c.x 0x43 c.dec.fixed c.pc)
def execTrap (x : Fin 128) (s : State) : Result := runThread x 0x01E trapBody s

/-- IDLE: the thread passes on its next n turns (R90). -/
def idleBody : Body := fun c _ => .run (fun s => s.modTh c.x (fun t => { t with idle := c.dec.fixed }))
def execIdle (x : Fin 128) (s : State) : Result := runThread x 0x01F idleBody s

/-- An effect on elastic threads only. -/
def elasticOnly (f : Thread → Thread) : Body := fun c s => .run (fun t => if s.elastic c.x then t.modTh c.x f else t)

def execYield (x : Fin 128) (s : State) : Result := runThread x 0x140 (elasticOnly (fun t => { t with yielding := true })) s
def execEi (x : Fin 128) (s : State) : Result := runThread x 0x141 (elasticOnly (fun t => { t with ie := true })) s
def execDi (x : Fin 128) (s : State) : Result := runThread x 0x142 (elasticOnly (fun t => { t with ie := false })) s

/-- RSTKD: take or put an entry at the bottom of the return stack (R201). -/
def rstkdBody : Body := fun c s =>
  let t := s.th c.x
  let d := c.val 0
  if !bit d 31 then
    match t.rs.getLast? with
    | some e => .run (fun s => c.put 0 e.toNat (s.modTh c.x (fun t => { t with rs := t.rs.dropLast })))
    | none => .run (fun s => c.put 0 0 (s.setFlag c.x flagRSU true))
  else if t.rs.length < 8 then
    .run (fun s => c.put 0 0 (s.modTh c.x (fun t => { t with rs := t.rs ++ [BitVec.ofNat 32 (d % 2 ^ 28)] })))
  else .run (fun s => c.put 0 d (s.setFlag c.x flagRSO true))
def execRstkd (x : Fin 128) (s : State) : Result := runThread x 0x143 rstkdBody s

end Sys2Proof.Machine
end

