-- ==== Sys2Proof/Machine/CrcTime.lean ====
section
/-!
DEFINITION. CRC and the integrity tag (R202-R204), time arithmetic (R205-R208).
-/

namespace Sys2Proof.Machine

/-- CRC32 and CRC32C: nothing for k = 0, in pipe up to w/8 bytes, else beside the pipe with its result at turn
⌈k/16⌉ + 2 (R202, R203). -/
def crcBody (poly : Nat) : Body := fun c s =>
  let k := c.val 2
  if k = 0 then .run id
  else if k ≤ c.dec.size then .run (c.put 0 (crcBytes poly (c.val 0) (toBytes k (c.val 1))))
  else if (s.th c.x).crcBusy then .stay (fun s => s.illBlock c)
  else .run (c.later (ceilDiv k 16 + 2) (.crc poly (c.val 0) k (c.op 1).loc (c.op 0).loc))

def execCrc32 (x : Fin 128) (s : State) : Result := runThread x 0x114 (crcBody poly32) s
def execCrc32c (x : Fin 128) (s : State) : Result := runThread x 0x115 (crcBody poly32c) s

/-- TAG (R204). -/
def tagBody : Body := fun c _ =>
  if 16383 < c.val 2 then .run (fun s => s.setFlag c.x flagTAGF true)
  else .run (c.put 0 (tagUpdate (c.val 0) (c.val 1) (c.val 2)))
def execTag (x : Fin 128) (s : State) : Result := runThread x 0x01B tagBody s

/-- A time operand: a value in memory, or a number of nanoseconds (R206). -/
def Ctx.time (c : Ctx) (i : Nat) : Nat :=
  match (c.spec i).immVal 8, (c.op i).loc with
  | some v, _ => timeOfImm v
  | none, .bit _ => timeOfImm (c.val i)
  | none, _ => c.val i

def execTadd (x : Fin 128) (s : State) : Result :=
  runThread x 0x118 (fun c _ => .run (c.put 0 (timeAdd (c.time 1) (c.time 2)))) s
def execTsub (x : Fin 128) (s : State) : Result :=
  runThread x 0x119 (fun c _ => .run (c.put 0 (timeSub (c.time 1) (c.time 2)))) s
def execTcmp (x : Fin 128) (s : State) : Result :=
  runThread x 0x11A (flagsOnly (fun c => if c.dec.setf then timeCmp (c.time 0) (c.time 1) else [])) s

/-- The timebase value that has crossed into the core, with its epoch (R208). -/
def State.coreNow (s : State) : Nat := timeVal s.tb.coreTime s.tb.coreEpoch

/-- TNOW (R208). -/
def tnowBody : Body := fun c _ => .run (fun s =>
  let (v, s) := s.outside c.x c.pc s.coreNow
  c.put 0 v s)
def execTnow (x : Fin 128) (s : State) : Result := runThread x 0x11B tnowBody s

end Sys2Proof.Machine
end

