-- ==== Sys2Proof/Machine/Events.lean ====
section
/-!
DEFINITION. Events, valve queues, the action schedule and system register access (R218-R225, R383, R384).
-/

namespace Sys2Proof.Machine

/-! ### POST and EWAIT -/

/-- The word of MF_POST_OWN that holds the owner of POST⟨lb,i⟩, counted from MF_POST_OWN_LO⟨0⟩. -/
def postOwnIdx (lb i : Nat) : Nat := 2 * lb + i / 8

/-- The slot that owns POST⟨lb,i⟩ (R383). -/
def State.postOwner (s : State) (lb i : Nat) : Nat :=
  bits (s.reg (0x50040 + 4 * postOwnIdx lb i)) (4 * (i % 8) + 3) (4 * (i % 8))

/-- The source that u(a) selects lies in the range of Lx (R219, R383). -/
def State.postMine (s : State) (x src : Nat) : Bool :=
  decide (0x300 ≤ src ∧ src < 0x380) && (src - 0x300) / 16 == lbOf x && s.postOwner (lbOf x) (src % 16) == slotOf x

/-- An uncorrectable MF_POST_OWN word holds the owner that POST needs (R402). -/
def State.postOwnBad (s : State) (x src : Nat) : Option Nat :=
  let w := postOwnWord (postOwnIdx (lbOf x) (src % 16))
  if (src - 0x300) / 16 = lbOf x ∧ 0x300 ≤ src ∧ src < 0x380 ∧ s.isUe .routes w then some w else none

/-- POST (R218, R219, R384). -/
def postBody : Body := fun c s =>
  let u := c.val 0
  let src := u % 1024
  match s.postOwnBad c.x src with
  | some w => .run (fun s => s.routeRead w)
  | none =>
    if s.postMine c.x src then .run (fun s =>
      (s.routeRead (postOwnWord (postOwnIdx (lbOf c.x) (src % 16)))).output c.x c.pc 0 (.post (src + 2 ^ 16 * b2n (bit u 16))))
    else .fault (Flt.none_ 1 src)
def execPost (x : Fin 128) (s : State) : Result := runThread x 0x01A postBody s

/-- A blocking form that issues: on an elastic thread it is complete, on a metered one it sets ILL (R83). -/
def State.illMetered (s : State) (c : Ctx) : State := if s.elastic c.x then s else s.illBlock c

/-- EWAIT (R218). -/
def ewaitBody : Body := fun c _ => .run (fun s => s.illMetered c)
def execEwait (x : Fin 128) (s : State) : Result := runThread x 0x133 ewaitBody s

/-! ### Valve queues (R218, R220) -/

/-- The valve that a queue operand names. -/
def Ctx.valve (c : Ctx) (i : Nat) : Nat := match (c.op i).loc with | .port off => valveOfOff off | _ => 0

/-- QPUTN, and QPUT where `block` holds. -/
def qputBody (block : Bool) : Body := fun c _ => .run (fun s =>
  let s := s.output c.x c.pc 0 (.qput (c.valve 0) (BitVec.ofNat 32 (c.val 1)))
  if block then s.illMetered c else s)
def execQput (x : Fin 128) (s : State) : Result := runThread x 0x138 (qputBody true) s
def execQputn (x : Fin 128) (s : State) : Result := runThread x 0x139 (qputBody false) s

/-- The oldest entry that has crossed into the core is taken (R220, R274); an empty queue counts an underrun. -/
def State.queueTake (s : State) (v : Nat) : Option Word × State :=
  match (s.valve v).rxReady with
  | w :: ws => (some w, s.modValve v (fun q => { q with rxReady := ws }))
  | [] => (none, s.modValve v (fun q => { q with nUnderrun := sat255 q.nUnderrun }))

/-- QGETN, and QGET where `block` holds.  The trailer of a pair takes what its leader took, 2^32 standing for an empty
queue (R505). -/
def qgetBody (block : Bool) : Body := fun c _ => .run (fun s =>
  let (w, s) := if (s.trails c.x).isSome then (none, s) else s.queueTake (c.valve 1)
  let (v, s) := s.outside c.x c.pc ((w.map BitVec.toNat).getD (2 ^ 32))
  let s := if v < 2 ^ 32 then c.put 0 v s else s
  if block then s.illMetered c else s)
def execQget (x : Fin 128) (s : State) : Result := runThread x 0x13A (qgetBody true) s
def execQgetn (x : Fin 128) (s : State) : Result := runThread x 0x13B (qgetBody false) s

/-! ### The action schedule (R221, R222) -/

/-- The time of a SCHED: an immediate counts from the time that TNOW would return (R221, R505). -/
def Ctx.schedTime (c : Ctx) (s : State) : Nat × State :=
  match (c.spec 1).immVal 8 with
  | some v =>
    let (now, s) := s.outside c.x c.pc s.coreNow
    (timeAdd now (timeOfImm v), s)
  | none => (c.time 1, s)

/-- SCHED: s := the status. -/
def schedBody : Body := fun c _ => .run (fun s =>
  let (t, s) := c.schedTime s
  let st := (s.schedAlloc (Config.pick s.draws) (lbOf c.x) (timeT t) (timeEpoch t) (c.val 2)).1
  let (v, s) := s.outside c.x c.pc st
  c.put 0 v (s.output c.x c.pc (v % 4096) (.sched t (c.val 2))))
def execSched (x : Fin 128) (s : State) : Result := runThread x 0x130 schedBody s

/-- UNSCHED. -/
def unschedBody : Body := fun c _ => .run (fun s => s.output c.x c.pc 0 (.unsched (c.val 0 % 4096)))
def execUnsched (x : Fin 128) (s : State) : Result := runThread x 0x131 unschedBody s

/-! ### System registers (R223-R225) -/

/-- An offset that SYSRD and SYSWR refuse. -/
def sysBad (u : Nat) : Bool := decide (2 ^ 20 ≤ u) || u % 4 != 0

/-- What SYSRD reads: the image of the register, and of TB_STROKES the count at its OPERATE stage, the stroke after its
issue (R74, R352).
(DEDUCED, unsafe: log entry 22.) -/
def State.sysImage (s : State) (off : Nat) : Nat :=
  if off = 0x60050 then (s.strokes + 1) % 2 ^ 32
  else if off = 0x60054 then (s.strokes + 1) / 2 ^ 32 % 2 ^ 32
  else (s.image off).toNat

/-- SYSRD (R223, R224). -/
def sysrdBody : Body := fun c _ =>
  let u := c.val 1
  if sysBad u then .fault (Flt.none_ 3 u)
  else .run (fun s =>
    let (v, s) := s.outside c.x c.pc (s.sysImage u)
    c.put 0 v s)
def execSysrd (x : Fin 128) (s : State) : Result := runThread x 0x148 sysrdBody s

/-- SYSWR. -/
def syswrBody : Body := fun c _ =>
  let u := c.val 0
  if sysBad u then .fault (Flt.none_ 3 u)
  else .run (fun s => s.output c.x c.pc (s.strokes + 3) (.syswr u (BitVec.ofNat 32 (c.val 1))))
def execSyswr (x : Fin 128) (s : State) : Result := runThread x 0x149 syswrBody s

end Sys2Proof.Machine
end

