-- ==== Sys2Proof/Machine/Crypto.lean ====
section
/-!
DEFINITION. SHA-256 and the verification of an ECDSA signature over P-256, which R541, R542 and R544 name.  The spec
names the algorithms only; their figures are those of FIPS 180-4 and FIPS 186 (PRESUMED).
-/

namespace Sys2Proof.Machine

/-! ### SHA-256 -/

/-- The first primes; SHA-256 draws all its constants from them. -/
def shaPrimes : List Nat :=
  [2, 3, 5, 7, 11, 13, 17, 19, 23, 29, 31, 37, 41, 43, 47, 53, 59, 61, 67, 71, 73, 79, 83, 89, 97, 101, 103, 107, 109, 113, 127, 131]
  ++ [137, 139, 149, 151, 157, 163, 167, 173, 179, 181, 191, 193, 197, 199, 211, 223, 227, 229, 233, 239, 241, 251, 257, 263, 269,
      271, 277, 281, 283, 293, 307, 311]

/-- The greatest `r` with `r ^ e ≤ v`, found bit by bit below `2 ^ k` over a start `r`. -/
def rootBelow (e v : Nat) : Nat → Nat → Nat
  | 0, r => r
  | k + 1, r => rootBelow e v k (if (r + 2 ^ k) ^ e ≤ v then r + 2 ^ k else r)

/-- The first 32 bits of the fraction of the `e`th root of `p`. -/
def rootFraction (e p : Nat) : Word := BitVec.ofNat 32 (rootBelow e (p * 2 ^ (32 * e)) 37 0)

/-- A number in big-endian bytes. -/
def beNum (bs : List Nat) : Nat := bs.foldl (fun v b => v * 256 + b) 0

/-- The eight words a digest is built in. -/
structure Digest where
  a : Word
  b : Word
  c : Word
  d : Word
  e : Word
  f : Word
  g : Word
  h : Word
  deriving DecidableEq, Repr

/-- The exclusive or of a word turned right by each of the amounts. -/
def turns (x : Word) (rs : List Nat) : Word := rs.foldl (fun v r => v ^^^ x.rotateRight r) 0

/-- One word of the message schedule and its constant taken into the digest.  A bit of `e` picks between `f` and `g`,
and the three bits `a`, `b`, `c` take a vote. -/
def Digest.absorb (v : Digest) (wk : Word) : Digest :=
  let pick := v.g ^^^ (v.e &&& (v.f ^^^ v.g))
  let vote := (v.a &&& v.b) ||| (v.c &&& (v.a ||| v.b))
  let t := v.h + turns v.e [6, 11, 25] + pick + wk
  ⟨t + turns v.a [2, 13, 22] + vote, v.a, v.b, v.c, v.d + t, v.e, v.f, v.g⟩

/-- The word-by-word sum of two digests. -/
def Digest.plus (v w : Digest) : Digest :=
  ⟨v.a + w.a, v.b + w.b, v.c + w.c, v.d + w.d, v.e + w.e, v.f + w.f, v.g + w.g, v.h + w.h⟩

/-- The rounds of one block over a window of the schedule's last sixteen words, oldest first: each round uses up the
oldest word and appends the word sixteen places later. -/
def Digest.rounds : List Nat → List Word → Digest → Digest
  | p :: ps, x :: rest, v =>
    let y := rest.getD 0 0
    let z := rest.getD 13 0
    let fresh := x + (turns y [7, 18] ^^^ (y >>> 3)) + rest.getD 8 0 + (turns z [17, 19] ^^^ (z >>> 10))
    Digest.rounds ps (rest ++ [fresh]) (v.absorb (rootFraction 3 p + x))
  | _, _, v => v

/-- The digest before the first block. -/
def Digest.start : Digest :=
  ⟨rootFraction 2 2, rootFraction 2 3, rootFraction 2 5, rootFraction 2 7,
   rootFraction 2 11, rootFraction 2 13, rootFraction 2 17, rootFraction 2 19⟩

/-- Take `n` blocks of 64 bytes into a digest. -/
def Digest.take : Nat → List Nat → Digest → Digest
  | 0, _, v => v
  | n + 1, bs, v =>
    let ws := (List.range 16).map (fun j => BitVec.ofNat 32 (beNum ((bs.drop (4 * j)).take 4)))
    Digest.take n (bs.drop 64) (v.plus (Digest.rounds shaPrimes ws v))

/-- A digest as a number, `a` most significant. -/
def Digest.toNumber (v : Digest) : Nat :=
  (v.a ++ v.b ++ v.c ++ v.d ++ v.e ++ v.f ++ v.g ++ v.h).toNat

/-- SHA-256 of a list of bytes, as a number whose most significant byte is the digest's first.  The message is closed
by a 1 bit, zeros to eight bytes short of a whole block, and its length in bits.
(DEDUCED, unsafe: log entry 76.) -/
def sha256 (bs : List Nat) : Nat :=
  let zeros := (119 - bs.length % 64) % 64
  let message := bs ++ [0x80] ++ List.replicate zeros 0 ++ (toBytes 8 (8 * bs.length)).reverse
  (Digest.take (message.length / 64) message Digest.start).toNumber

/-! ### ECDSA over P-256 -/

def curveP : Nat := 0xffffffff00000001000000000000000000000000ffffffffffffffffffffffff
def curveN : Nat := 0xffffffff00000000ffffffffffffffffbce6faada7179e84f3b9cac2fc632551
def curveB : Nat := 0x5ac635d8aa3a93e7b3ebbd55769886bc651d06b0cc53b0f63bce3c3e27d2604b
def curveG : Nat × Nat :=
  (0x6b17d1f2e12c4247f8bce6e563a440f277037d812deb33a0f4a13945d898c296,
   0x4fe342e2fe1a7f9b8ee7eb4a7c0f9e162bce33576b315ececbb6406837bf51f5)

/-- `b` to the power of the `k` low bits of `e`, modulo `m`. -/
def powMod (m : Nat) : Nat → Nat → Nat → Nat
  | 0, _, _ => 1 % m
  | k + 1, b, e => (if e % 2 = 1 then b else 1) * powMod m k (b * b % m) (e / 2) % m

/-- The inverse modulo a prime. -/
def invMod (m a : Nat) : Nat := powMod m 256 (a % m) (m - 2)

/-- Addition of curve points; none is the point at infinity. -/
def pointAdd (p q : Option (Nat × Nat)) : Option (Nat × Nat) :=
  match p, q with
  | none, q => q
  | p, none => p
  | some (x1, y1), some (x2, y2) =>
    let m := curveP
    if x1 = x2 ∧ (y1 + y2) % m = 0 then none
    else
      let l := if x1 = x2 then (3 * x1 * x1 + m - 3) * invMod m (2 * y1) % m
               else (y2 + m - y1) * invMod m (x2 + m - x1) % m
      let x3 := (l * l + 2 * m - x1 - x2) % m
      some (x3, (l * (x1 + m - x3) + m - y1) % m)

/-- `e`, taken as a `k`-bit number, times a point. -/
def pointMul : Nat → Nat → Option (Nat × Nat) → Option (Nat × Nat)
  | 0, _, _ => none
  | k + 1, e, p => pointAdd (if e % 2 = 1 then p else none) (pointMul k (e / 2) (pointAdd p p))

/-- The point lies on the curve. -/
def onCurve (x y : Nat) : Bool :=
  decide (x < curveP) && decide (y < curveP) && y * y % curveP == (x * x * x + (curveP - 3) * x + curveB) % curveP

/-- The signature (r, s) of a digest verifies under the public key (x, y). -/
def ecdsaVerify (x y r s digest : Nat) : Bool :=
  if onCurve x y && decide (0 < r) && decide (r < curveN) && decide (0 < s) && decide (s < curveN) then
    let w := invMod curveN s
    match pointAdd (pointMul 256 (digest * w % curveN) (some curveG)) (pointMul 256 (r * w % curveN) (some (x, y))) with
    | some (px, _) => px % curveN == r
    | none => false
  else false

end Sys2Proof.Machine
end

