-- ==== Sys2Proof/Machine/Priming.lean ====
section
/-!
DEFINITION. Resets (R534-R536, R548, R559), images and the priming sequence (R540-R547), the loading of an image and the
live personality swap (R549-R552), and the return of a logical bore to service (R517).
-/

namespace Sys2Proof.Machine

/-! ### Images (R541-R543) -/

/-- MRAM address of an image and of its configuration table (R537). -/
def imgBase (img : Nat) : Nat := 0x600000 * img
def ctBase (img : Nat) : Nat := 0xF10000 + 0x10000 * img

/-- A word of an image's header. -/
def State.imgWord (s : State) (img o : Nat) : Nat := readLE s.mram.mem (imgBase img + o) 4
def State.imgLen (s : State) (img : Nat) : Nat := s.imgWord img 0x0C
def State.imgVersion (s : State) (img : Nat) : Nat := s.imgWord img 0x10
def State.imgBytes (s : State) (img o n : Nat) : List Nat := readBytes s.mram.mem (imgBase img + o) n
/-- Bytes of an image, most significant first, as a number. -/
def State.imgBe (s : State) (img o n : Nat) : Nat := beNum (s.imgBytes img o n)
def State.ctLen (s : State) (img : Nat) : Nat := s.imgWord img 0x20

/-- A manifest entry (R543). -/
structure ManEntry where
  kind : Nat
  target : Nat
  w1 : Nat
  w2 : Nat
  w3 : Nat
  deriving DecidableEq, Repr

def State.manEntry (s : State) (img i : Nat) : ManEntry :=
  let w (k : Nat) := s.imgWord img (s.imgWord img 0x14 + 16 * i + 4 * k)
  { kind := bits (w 0) 7 0, target := bits (w 0) 22 16, w1 := w 1, w2 := w 2, w3 := w 3 }

/-- The manifest, in its order. -/
def State.manifest (s : State) (img : Nat) : List ManEntry :=
  (List.range (min 4096 (s.imgWord img 0x18))).map (s.manEntry img)

/-- The data of a section lie in the image, and its destination within a memory of `size` bytes. -/
def ManEntry.sectionOk (e : ManEntry) (len dst size : Nat) : Bool :=
  e.w3 % 4 == 0 && decide (e.w2 + e.w3 ≤ len) && decide (dst + e.w3 ≤ size)

/-- An entry lies within its image and its target (R541, R543). -/
def ManEntry.ok (e : ManEntry) (len : Nat) : Bool :=
  match e.kind with
  | 1 => decide (e.target < 8) && e.sectionOk len e.w1 0x40000
  | 2 => e.sectionOk len e.w1 0x1000
  | 3 => decide (e.target < 8) && e.sectionOk len e.w1 0x80000
  | 4 => e.sectionOk len 0 256
  | 5 => true
  | 6 => true
  | 7 => decide (e.w1 < 2 ^ 18) && decide (e.w2 < 2 ^ 18)
  | _ => false

/-- The header keeps the layout of R541. -/
def State.headerOk (s : State) (img : Nat) : Bool :=
  let w := s.imgWord img
  w 0 == 0x414B3332 && w 4 == 1 && w 8 == 0x00000300 &&
  decide (256 ≤ w 0xC) && w 0xC % 64 == 0 && decide (w 0xC ≤ 0x600000) &&
  w 0x14 % 16 == 0 && decide (1 ≤ w 0x18) && decide (w 0x18 ≤ 4096) &&
  w 0x1C % 8 == 0 && w 0x20 % 8 == 0 && decide (w 0x20 ≤ 65536) && decide (w 0x1C + w 0x20 ≤ w 0xC)

/-- Every manifest entry lies within the image and its target. -/
def State.manifestOk (s : State) (img : Nat) : Bool :=
  decide (s.imgWord img 0x14 + 16 * s.imgWord img 0x18 ≤ s.imgLen img) &&
  (s.manifest img).all (fun e => e.ok (s.imgLen img))

/-- The signature verifies with KEY; with AUTH_EN at 0 it is not checked (R542). -/
def State.signatureOk (s : State) (img : Nat) : Bool :=
  if s.authEn then
    let len := s.imgLen img
    let key := s.platBytes 0x10 64
    ecdsaVerify (beNum (key.take 32)) (beNum (key.drop 32)) (s.imgBe img (len - 64) 32) (s.imgBe img (len - 32) 32)
      (sha256 (s.imgBytes img 0 (len - 64)))
  else true

/-- Why an image is not valid, as FAIL_A codes it: 0 valid, 1 header, 2 manifest, 3 signature, 5 ECC. -/
def State.imageFail (s : State) (img : Nat) : Nat :=
  if s.mramUe (imgBase img) 128 then 5
  else if !s.headerOk img then 1
  else if s.mramUe (imgBase img) (s.imgLen img) then 5
  else if !s.manifestOk img then 2
  else if !s.signatureOk img then 3
  else 0

/-- Why the configuration table of a valid image fails: 4 its digest, 5 ECC (R544, R545). -/
def State.ctFail (s : State) (img : Nat) : Nat :=
  let n := s.ctLen img
  if s.mramUe (ctBase img) n then 5
  else if sha256 (readBytes s.mram.mem (ctBase img) n) = s.imgBe img 0x40 32 then 0 else 4

/-- A failed PERS_LOAD has marked the image invalid (R549). -/
def State.imgMarked (s : State) (img : Nat) : Bool := if img = 0 then s.mram.badA else s.mram.badB
def State.markImg (s : State) (img : Nat) (v : Bool) : State :=
  s.modMram (fun m => if img = 0 then { m with badA := v } else { m with badB := v })

/-- A read of MRAM corrects and counts single-bit errors and counts uncorrectable words (R145, R554).  No reader code
of R523 names it: that field of the class-0 event is free. -/
def State.mramRead (s : State) (a n : Nat) : State :=
  (s.ecc.filter (fun k => k.mem == .mram && decide (a ≤ 4 * k.word) && decide (4 * k.word < a + n))).foldl (fun s k =>
    if k.state = .uncorrectable then s.countEcc .mram true
    else
      let r := (Config.freeWord s.draws).toNat % 16
      let s := ((s.setEcc .mram k.word (some .rewriting)).countEcc .mram false).event 0 0 0 (15 + 256 * 9 + 4096 * r) (4 * k.word)
      { s with draws := s.draws + 1 }) s

/-! ### Step 2: zeroing (R544) -/

/-- A memory that step 2 writes with correct check bits. -/
def zeroedMem : Mem → Bool
  | .globalBits | .routes | .mram => false
  | _ => true

/-- Every well, reservoir, bit space and code store of the bores, the cistern, the cell map and the channel table. -/
def State.zeroAll (s : State) : State :=
  { s with
    threads := s.threads.map (fun t => (t.1, { t.2 with well := [], bits := [] }))
    lbs := s.lbs.map (fun b => (b.1, { b.2 with res := [], shared := [], code0 := [], code1 := [], resPend := [] }))
    pump := { s.pump with cis := [], cells := [], chans := [], rxResv := [], returned := [] }
    ecc := s.ecc.filter (fun k => !zeroedMem k.mem) }

/-! ### Loading sections -/

/-- The bytes of a section. -/
def State.sectionBytes (s : State) (img : Nat) (e : ManEntry) : List Nat := s.imgBytes img e.w2 e.w3

/-- Write bytes into a code bank. -/
def State.codePut (s : State) (lb bank a : Nat) (bs : List Nat) : State :=
  (s.modLb lb (fun b => b.setCode bank (writeBytes (b.code bank) a bs))).eccWrite (.code lb bank) a bs.length

/-- Write words into a bank of VALVE_PROG, from instruction 0. -/
def State.valvePut (s : State) (v : Nat) (second : Bool) (bs : List Nat) : State :=
  let put (t : Tbl Word) : Tbl Word := (List.range (bs.length / 4)).foldl (fun t i =>
    tset 0 t i (BitVec.ofNat 32 (ofBytes ((bs.drop (4 * i)).take 4)))) t
  s.modValve v (fun x => if second then { x with prog1 := put x.prog1 } else { x with prog0 := put x.prog0 })

/-- What priming does with an entry at step 4. -/
def State.loadEntry (s : State) (img : Nat) (e : ManEntry) : State :=
  let bs := s.sectionBytes img e
  match e.kind with
  | 1 => s.codePut e.target 0 e.w1 bs
  | 2 => if bs.isEmpty then s else s.wellPut e.target e.w1 bs.length (ofBytes bs)
  | 3 => if bs.isEmpty then s else s.resPut e.target e.w1 bs.length (ofBytes bs)
  | 4 => s.valvePut e.target false bs
  | _ => s

/-- The sections of an image. -/
def State.loadImage (s : State) (img : Nat) : State := (s.manifest img).foldl (fun s e => s.loadEntry img e) s

/-! ### Configuration tables (R540) -/

/-- The entries of a table of `n` entries. -/
def cfgEntries (bs : List Nat) (n : Nat) : List (Nat × Nat) :=
  (List.range n).map (fun i => (ofBytes ((bs.drop (8 * i)).take 4), ofBytes ((bs.drop (8 * i + 4)).take 4)))

/-- An entry of a configuration table is applied as a write through the register slave port. -/
def State.applyEntry (s : State) (e : Nat × Nat) : State := s.regWrite 0 e.1 e.2

/-- The offset lies in a unit that takes its values from PTABLE only. -/
def skippedUnit (off : Nat) : Bool :=
  (decide (0x02000 ≤ off) && decide (off < 0x03000)) || (decide (0x90000 ≤ off) && decide (off < 0xA0000)) ||
  (decide (0xB0000 ≤ off) && decide (off < 0xC0000))

/-- PTABLE. -/
def State.applyPtable (s : State) : State :=
  let n := min 500 (s.platWord 0x0C)
  (cfgEntries (s.platBytes 0x50 (8 * n)) n).foldl State.applyEntry s

/-- The configuration table of an image. -/
def State.ctEntries (s : State) (img : Nat) : List (Nat × Nat) :=
  (cfgEntries (readBytes s.mram.mem (ctBase img) (s.ctLen img)) (s.ctLen img / 8)).filter (fun e => !skippedUnit e.1)

/-! ### The priming sequence (R544, R545, R547) -/

/-- Note why an image failed. -/
def State.noteFail (s : State) (img code : Nat) : State :=
  s.modMram (fun m => if img = 0 then { m with failA := code } else { m with failB := code })

/-- Steps 4, 5 and 7 with one image: the state with it loaded, or the failure noted.  The sections are loaded before the
signature and the digest decide, and step 2, which follows a failure, leaves the valve programs as they are. -/
def State.tryImage (s : State) (img : Nat) : Bool × State :=
  let n := if s.headerOk img then s.imgLen img else 128
  let k := s.imageFail img
  let s := s.mramRead (imgBase img) n
  if k ≠ 0 then
    (false, ((if k = 3 then (s.loadImage img).zeroAll else s).noteFail img k).modMram (fun m => { m with step := 6 }))
  else
    let k := s.ctFail img
    let s := s.mramRead (ctBase img) (s.ctLen img)
    if k ≠ 0 then (false, ((s.loadImage img).zeroAll.noteFail img k).modMram (fun m => { m with step := 7 }))
    else
      let es := s.ctEntries img
      (true, es.foldl State.applyEntry ((s.zeroAll.loadImage img).applyPtable))

/-- Step 8: the log goes on after the valid record with the highest SEQ (R527).
(DEDUCED, unsafe: log entry 67.) -/
def State.logRecover (s : State) : State :=
  let top := s.wh.records.foldl (fun (b : Option (Nat × Nat)) e => match b with
    | none => some (e.1, e.2.seq)
    | some c => if c.2 < e.2.seq then some (e.1, e.2.seq) else b) none
  let ring := (s.wh.records.filter (fun e => e.1 < 32766)).foldl (fun (b : Option (Nat × Nat)) e => match b with
    | none => some (e.1, e.2.seq)
    | some c => if c.2 < e.2.seq then some (e.1, e.2.seq) else b) none
  s.modWh (fun w => { w with
    seq := match top with | some c => (max w.seq (c.2 + 1)) % 2 ^ 32 | none => w.seq
    ringNext := match ring with | some c => (c.1 + 1) % 32766 | none => w.ringNext })

/-- The command with an identity. -/
def State.cmdById (s : State) (id : Nat) : Option HCmd := s.host.cmds.find? (fun c => c.id == id)

/-- A personality command completes, where its partition still holds it. -/
def State.persDone (s : State) (id cstat res res2 : Nat) : State :=
  match s.cmdById id with
  | some c => s.cmdDone c cstat res res2 none
  | none => s

/-- Steps 2 to 8 with `first`, then the other image (R544, R547). -/
def State.prime (s : State) (first : Nat) : State :=
  let s := s.zeroAll.modMram (fun m => { m with failA := 0, failB := 0, fallback := false, unauth := !s.authEn, step := 4 })
  let done (s : State) (img : Nat) : State :=
    s.logRecover.modMram (fun m => { m with image := img, step := 8 })
  match s.tryImage first with
  | (true, s) => done s first
  | (false, s) =>
    let s := s.modMram (fun m => { m with fallback := true })
    match s.tryImage (1 - first) with
    | (true, s) => done s (1 - first)
    | (false, s) =>
      let id := s.mram.rerun.map Prod.fst
      let s := s.zeroAll.applyPtable.modMram (fun m => { m with recovery := true, step := 7, rerun := none })
      match id with
      | some id => s.persDone id 10 0 0
      | none => s

/-- Steps 1 to 8 may run: step 1 has seen both clocks. -/
def State.primeReady (s : State) : Bool :=
  !s.mram.primed && !s.mram.recovery && decide (s.mram.step < 2) && s.mram.clocksSeen && s.up 2 && s.up 12

/-- PRIMING: steps 1 to 8 after the core leaves reset, or steps 2 and 4 to 8 for a PERS_SWAP in RECOVERY.
(DEDUCED, safe: log entry 38.) (DEDUCED, unsafe: log entry 39.) -/
def execPriming (s : State) : Result :=
  match s.mram.rerun with
  | some (_, img) => s.act (s.mram.step == 7 && !s.mram.primed) (s.prime img)
  | none =>
    let s0 := (s.mramRead 0xF00000 0x2000).modMram (fun m => { m with copy := s.recChoose, step := 3 })
    let s1 := s0.modMram (fun m => { m with stage := writeBytes [] 0 (s0.platBytes 0 0x1000) })
    s.act s.primeReady (s1.prime s1.platActive)

/-- PRIMING_CLOCK_MISSING: `nclk` is missing, or else TCLK (R547).
(DEDUCED, unsafe: log entry 71.) -/
def execPrimingClockMissing (nclk : Bool) (s : State) : Result :=
  s.act (!s.mram.primed && !s.mram.recovery && decide (s.mram.step < 2) && !s.mram.clocksSeen &&
      decide (max s.mram.missAt s.mram.resetAt + 10 * msUnits ≤ s.tb.elapsed))
    ((s.event 0 7 7 (if nclk then 12 else 2) (Config.detailCode 7 2 0).toNat).modMram (fun m => { m with missAt := s.tb.elapsed, step := 1 }))

/-- The START_THREAD and START_VALVE entries of an image; `p` chooses the threads. -/
def State.startEntries (s : State) (img : Nat) (p : ManEntry → Bool) : State :=
  ((s.manifest img).filter p).foldl (fun s e => match e.kind with
    | 5 => s.startCmd e.target
    | 6 => s.valveCtrlWrite e.target (putBits (s.vreg e.target 0) 0 0 1)
    | _ => s) s

/-- The fault outputs are released unless an event with FAULT has arrived since the release of rst_aon_n (R546). -/
def State.primedRelease (s : State) : State :=
  if s.wh.lastFault.isSome || s.dbg.testMode then s
  else (s.modWh (fun w => { w with fault := false })).whRecord 0x33 (2 ^ 9) 0

/-- Step 9 (R546). -/
def State.primedAct (s : State) : State :=
  let img := s.mram.image
  let s := s.startEntries img (fun _ => true)
  let us := min 65535 ((s.tb.elapsed - s.mram.resetAt) / usUnits)
  let s := s.primedRelease.modMram (fun m => { m with primed := true, recovery := false, step := 9, primeUs := us, rerun := none })
  let s := { s with locked := s.locked || s.rwlLock }
  s.modRot (fun r => { r with running := s.rotRuns, lastAt := s.tb.elapsed })

/-- PRIMED.  A PERS_SWAP in RECOVERY completes here, and ACTIVE names its image. -/
def execPrimed (s : State) : Result :=
  let s1 := s.primedAct
  s.act (s.mram.step == 8 && !s.mram.primed)
    (match s.mram.rerun with
     | some (id, _) => (s1.setActive s1.mram.image).persDone id 0 (s1.imgVersion s1.mram.image) 0
     | none => s1)

/-! ### PERS_LOAD (R549) -/

/-- The partition may load and swap personalities (R449). -/
def State.canPers (s : State) (p : Nat) : Bool := bit (s.hpRights p) 9

/-- Ask for the next piece of the image that is being loaded: one read at a time. -/
def State.loadNext (s : State) : State :=
  match s.mram.load with
  | none => s
  | some l =>
    if l.bad ∨ l.len ≤ l.got then s
    else
      let a := l.addr + l.got
      let n := min (l.len - l.got) (256 - a % 256)
      s.ask 0 0 false a n [] (((s.cmdById l.cmd).map HCmd.part).getD 0) (.load l.got)

/-- A PERS_LOAD or PERS_SWAP meets a swap that runs, the active image or a block that is not up (R549, R550). -/
def State.persRefused (s : State) (img : Nat) : Bool := s.mram.swap.isSome || s.mram.rerun.isSome || img == s.platActive

/-- PERS_LOAD.
(DEDUCED, unsafe: log entry 41.) -/
def execPersLoad (p : Fin 8) (s : State) : Result :=
  s.runCmd p 0x50 [1, 0xFFFFFFFF, 0, 0xFFFFFFFF, 0xFFFFFFFF] (s.canPers p) (fun c s =>
    let img := c.w 1 % 2
    let len := c.w 2
    if s.persRefused img then s.cmdDone c 5 0 0 none
    else if len = 0 ∨ 0x600000 < len then s.cmdDone c 6 0 0 none
    else if s.mram.load.isSome then s
    else
      let s := (s.holdCmd c .load 0).markImg img true
      (s.modMram (fun m => { m with
        load := some { image := img, cmd := c.id, len := len, addr := c.w 4 + 2 ^ 32 * c.w 5, got := 0, bad := false } })).loadNext)

/-- A piece of the image has been read: it is written into its region, or an error response ends the reading. -/
def State.loadBack (s : State) (off err : Nat) (data : List Nat) : State :=
  match s.mram.load with
  | none => s
  | some l =>
    if err ≠ 0 then (s.modMram (fun m => { m with load := some { l with bad := true } })).hostAlarm 0
    else ((s.mramPut (imgBase l.image + off) data).modMram (fun m => { m with load := some { l with got := l.got + data.length } })).loadNext

/-- The CT section goes into CT_A or CT_B. -/
def State.ctCopy (s : State) (img : Nat) : State :=
  if s.headerOk img then s.mramPut (ctBase img) (s.imgBytes img (s.imgWord img 0x1C) (s.ctLen img)) else s

/-- PERS_LOAD_DONE: the image and its CT section are written and checked. -/
def execPersLoadDone (s : State) : Result :=
  match s.mram.load with
  | none => .next s
  | some l =>
    let s1 := s.modMram (fun m => { m with load := none })
    if l.bad then .next (s1.persDone l.cmd 11 0 0)
    else if l.got < l.len then .next s
    else
      let s1 := (s1.ctCopy l.image).modMram (fun m => { m with unauth := m.unauth || !s.authEn })
      .next (if s1.imageFail l.image = 0 then
          (s1.markImg l.image false).persDone l.cmd 0 (s1.imgVersion l.image) (s1.imgLen l.image)
        else s1.persDone l.cmd 10 0 0)

/-! ### PERS_SWAP (R550-R552) -/

/-- PERS_SWAP: a rerun of priming in RECOVERY (R547), or the start of a live swap.
(DEDUCED, unsafe: log entry 40.) -/
def execPersSwap (p : Fin 8) (s : State) : Result :=
  s.runCmd p 0x51 [1, 0x3FF] (s.canPers p) (fun c s =>
    let img := c.w 1 % 2
    let ms := bits (c.w 2) 9 0
    if ms = 0 ∨ 1000 < ms then s.cmdDone c 6 0 0 none
    else if s.mram.recovery then
      (if s.mram.rerun.isSome || s.mram.load.isSome then s.cmdDone c 5 0 0 none
       else (s.holdCmd c .swap 0).modMram (fun m => { m with rerun := some (c.id, img) }))
    else if !s.mram.primed || s.persRefused img || s.imgMarked img || s.imageFail img ≠ 0 then s.cmdDone c 5 0 0 none
    else (s.holdCmd c .swap 0).modMram (fun m => { m with
      swap := some { image := img, cmd := c.id, timeoutMs := ms, armed := none, expired := false, timedOut := 0 } }))

/-- What a swap does with an entry before it arms: the standby banks.
(DEDUCED, unsafe: log entry 42.) -/
def State.swapEntry (s : State) (img : Nat) (e : ManEntry) : State :=
  let bs := s.sectionBytes img e
  match e.kind with
  | 1 => s.codePut e.target (1 - b2n (s.lb e.target).bank) e.w1 bs
  | 4 => s.valvePut e.target (!(s.valve e.target).bank) bs
  | _ => s

/-- The re-entry point of Lx: the last entry that names it. -/
def State.reentry (s : State) (img x : Nat) : Option (Nat × Nat) :=
  (((s.manifest img).filter (fun e => e.kind == 7 && e.target == x)).getLast?).map (fun e => (e.w1, e.w2))

/-- The arming of a thread: it waits for its OLD_PC, or cuts over at once and keeps its PC (R551). -/
def State.armThread (s : State) (img x : Nat) : State :=
  match s.reentry img x with
  | some (o, n) =>
    if (s.th x).running then s.modTh x (fun t => { t with cutOver := some (BitVec.ofNat 18 o, BitVec.ofNat 18 n) })
    else s.cutTo x (s.th x).pc
  | none => s.cutTo x (s.th x).pc

/-- The valves that an image swaps. -/
def State.swapValves (s : State) (img : Nat) : List ManEntry := (s.manifest img).filter (fun e => e.kind == 4)

/-- SWAP_ARMED (R550). -/
def execSwapArmed (s : State) : Result :=
  match s.mram.swap with
  | none => .next s
  | some w =>
    let s1 := (s.manifest w.image).foldl (fun s e => s.swapEntry w.image e) s
    let s1 := (s.swapValves w.image).foldl (fun s e => s.progSelWrite e.target (bits e.w1 9 8 + 2 ^ 8 * bits e.w1 5 0)) s1
    let s1 := s1.modMram (fun m => { m with swap := some { w with armed := some s.tb.elapsed } })
    s.act w.armed.isNone ((List.range 128).foldl (fun s x => s.armThread w.image x) s1)

/-- THREAD_CUT_OVER: the turn at which Lx would issue the instruction at OLD_PC is a fill turn from the new bank; a
NEW_PC of 0x3_FFFF stops the thread (R551). -/
def execThreadCutOver (x : Fin 128) (s : State) : Result :=
  match (s.th x).cutOver with
  | none => .next s
  | some c =>
    let s1 := s.spendTurn x
    s.act (s.hasTurn x .issue && s.cutDue x)
      (if c.2 = 0x3FFFF#18 then ((s1.stopped x 4).cutTo x c.2).pairSettle x else (s1.cutTo x c.2).fetchTurn x)

/-- A thread that has not cut over by the timeout: it stops at its next boundary, or cuts over at once where it has
stopped already (R552). -/
def State.expireThread (s : State) (x : Nat) : State :=
  if (s.th x).cutOver.isNone then s
  else if (s.th x).running then s.askStop x .cutOver
  else (s.modTh x (fun t => { t with stopCause := 4 })).lateCut x

/-- Every pending valve swap escalates to MODE 3. -/
def State.escalate (s : State) (v : Nat) : State :=
  if (s.valve v).swap.isSome then s.modValve v (fun x => { x with swap := x.swap.map (fun r => { r with mode := 3 }) }) else s

/-- SWAP_TIMEOUT (R552). -/
def execSwapTimeout (s : State) : Result :=
  match s.mram.swap with
  | none => .next s
  | some w =>
    match w.armed with
    | none => .next s
    | some a =>
      let late := (List.range 128).filter (fun x => (s.th x).cutOver.isSome)
      let s1 := s.modMram (fun m => { m with swap := some { w with expired := true, timedOut := late.length } })
      let s1 := late.foldl (fun s x => s.expireThread x) s1
      s.act (!w.expired && decide (a + w.timeoutMs * msUnits ≤ s.tb.elapsed))
        ((List.range 128).foldl (fun s v => s.escalate v) s1)

/-- Every thread has cut over and every valve of the image has swapped.
(DEDUCED, unsafe: log entry 43.) -/
def State.swapComplete (s : State) (img : Nat) : Bool :=
  (List.range 128).all (fun x => (s.th x).cutOver.isNone) && (s.swapValves img).all (fun e => (s.valve e.target).swap.isNone)

/-- PERS_SWAP_DONE (R550): ACTIVE is rewritten and the command completes. -/
def execPersSwapDone (s : State) : Result :=
  match s.mram.swap with
  | none => .next s
  | some w =>
    s.act (w.armed.isSome && s.swapComplete w.image)
      (((s.setActive w.image).modMram (fun m => { m with swap := none })).persDone w.cmd 0 (s.imgVersion w.image) w.timedOut)

/-! ### The return of a logical bore (R517) -/

/-- The logical bore that returns next: the reverse of WH_SHED_ORDER. -/
def State.returnNext (s : State) : Option Nat := s.shedOrder.reverse.find? (fun l => (s.lb l).shed)

/-- The fresh memories and logical registers of LB `lb` on the bore `b`. -/
def State.freshLb (s : State) (lb b : Nat) : State :=
  let s := s.setLb lb {}
  let s := (List.range 16).foldl (fun s t => s.setTh (16 * lb + t) {}) s
  let s := { s with ecc := s.ecc.filter (fun k => k.mem.lbore != some lb) }
  let s := s.modTb (fun t => { t with sched := t.sched.filter (fun e => e.2.lb != lb) })
  let s := s.modMf (fun m => { m with levels := m.levels.filter (fun e => !(0x300 + 16 * lb ≤ e.1 && e.1 < 0x310 + 16 * lb)) })
  s.modPb b (fun p => { p with role := 0, lb := lb, since := s.strokes })

/-- The entry loads or starts something of LB `lb`. -/
def ManEntry.ofLb (e : ManEntry) (lb : Nat) : Bool :=
  ((e.kind == 1 || e.kind == 3) && e.target == lb) || ((e.kind == 2 || e.kind == 5) && e.target / 16 == lb)

/-- LB `lb` is reloaded on the relief bore `b` and returns. -/
def State.returnLb (s : State) (lb b img : Nat) : State :=
  let es := s.ctEntries img
  let page (o : Nat) : Bool := decide (0x10800 + 0x1000 * lb ≤ o) && decide (o < 0x11000 + 0x1000 * lb)
  let s := ((s.manifest img).filter (fun e => e.ofLb lb)).foldl (fun s e => s.loadEntry img e) (s.freshLb lb b)
  let s := (es.filter (fun e => page e.1)).foldl State.applyEntry s
  let s := s.startEntries img (fun e => e.ofLb lb)
  (s.classFour 0x32 lb s.goodBores false).rotSettle

/-- LB_RETURN (R517): the next logical bore out of service, while the table of R516 carries more.  The image is checked by
its signature and its configuration table by its digest (R519).
(DEDUCED, unsafe: log entry 44.) -/
def execLbReturn (lb : Fin 8) (s : State) : Result :=
  match s.longestIdle with
  | none => .next s
  | some b =>
    let img := s.platActive
    let s1 := (s.mramRead (imgBase img) (if s.headerOk img then s.imgLen img else 128)).modMram
      (fun m => { m with unauth := m.unauth || !s.authEn })
    s.act (s.mram.primed && s.mram.swap.isNone && s.up 12 && s.returnNext == some lb.val &&
        decide (s.inService.length < s.mayCarry))
      (if s.imageFail img = 0 ∧ s.ctFail img = 0 then s1.returnLb lb b img else s1.classFour 4 15 (Config.detailCode 4 2 lb).toNat (s.safeLb lb))

/-! ### Resets (R534-R536, R548, R559, R560, R572) -/

/-- Registers that live in the always-on domain: those of the wellhead unit. -/
def aonReg (off : Nat) : Bool := decide (0x02000 ≤ off) && decide (off < 0x03000)

/-- Every clock domain of R559. -/
def allDomains : List Nat := List.range 13

/-- A block reset: everything but the wellhead and the MRAM is as right after reset, `test` is test_mode at its
release, and every domain waits to leave reset.  The queue, the elapsed time and the draws are the model's own. -/
def State.coreReset (s : State) (test : Bool) : State :=
  State.showNow { State.reset with
    pending := s.pending
    draws := s.draws
    evq := (s.evq.filter (fun e => e.at_ ≤ s.strokes)).map (fun e => { e with at_ := 0 })
    ecc := s.ecc.filter (fun k => k.mem == .mram)
    regs := s.regs.filter (fun r => aonReg r.1)
    wh := { s.wh with fault := true, rot := {}, pairs := [] }
    mram := { mem := s.mram.mem }
    tb := { elapsed := s.tb.elapsed }
    dbg := { testMode := test }
    inReset := allDomains }

/-- BLOCK_RESET: rst_core_n, with test_mode at its release (R535, R560).
(DEDUCED, unsafe: log entry 45.) -/
def execBlockReset (test : Bool) (s : State) : Result := .next ((s.coreReset test).eventFree 0 14 14)

/-- AON_RESET: rst_aon_n resets the wellhead and with it the block; the well log region keeps its records (R534). -/
def execAonReset (test : Bool) (s : State) : Result :=
  .next (State.showNow { s.coreReset test with
    evq := [], regs := [], wh := { records := s.wh.records, gap := s.wh.gap } })

/-- DOMAIN_RESET_EXIT (R559). -/
def execDomainResetExit (d : Fin 13) (s : State) : Result :=
  let s1 := { s with inReset := s.inReset.erase d.val }
  s.act (s.inReset.contains d.val)
    (if d.val = 2 then s1.modMram (fun m => { m with resetAt := s.tb.elapsed, missAt := s.tb.elapsed }) else s1)

/-- SUPPLY_LOSS: the records in staging are lost (R521, R572). -/
def execSupplyLoss (s : State) : Result := .next (s.modWh (fun w => { w with staging := [] }))

end Sys2Proof.Machine
end

