-- ==== Sys2Proof/Machine/Responses.lean ====
section
/-!
DEFINITION. The answers that arrive on the two master ports (R565-R570): each is handed to the unit whose command it
answers.
-/

namespace Sys2Proof.Machine

/-- A response with an error to a piece of a move (R423, R474): HOST on the host port. -/
def State.pieceError (s : State) (slot off : Nat) : State :=
  let s := s.hostAlarm 0
  let s := s.modHmove slot (fun h => { h with err := 0x0E })
  s.modMove slot (fun m => { m with
    moved := if m.err = 0x0E then min off m.moved else off
    result := if m.op = 2 then min off m.result else m.result, err := 0x0E })

/-- Data of a SEND or an IMAGE_IN. -/
def State.pieceData (s : State) (slot off : Nat) (bs : List Nat) : State :=
  match s.hmove slot with
  | some m => s.bufWrite (m.head.getD 0) off bs
  | none => s.modMove slot (fun m => { m with data := setSlice m.data off bs })

/-- The last answer to a move on the host port has come. -/
def State.pieceEnd (s : State) (slot : Nat) : State :=
  if s.slotBusy slot then s
  else match s.hmove slot with
    | some m =>
      (match m.phase with
       | .reading => s.sendAct m
       | .writing => s.rxEnd slot
       | _ => s)
    | none =>
      match s.move slot with
      | some m => if m.phase = .host then s.moveHostEnd m else s
      | none => s

/-- Deep data for a refill or for a move of a ring engine. -/
def State.deepPiece (s : State) (slot off : Nat) (bad : Bool) (bs : List Nat) : State :=
  match s.hmove slot with
  | some _ => s.modHmove slot (fun h => if bad then { h with err := 0x0F } else { h with data := setSlice h.data off bs })
  | none => s.modMove slot (fun m => if bad then { m with err := 0x0F } else { m with data := setSlice m.data off bs })

/-- The spill, whose answers carry its own number. -/
def State.spillIn (s : State) (slot : Nat) : Option Spill :=
  if slot = spillSlot then s.pump.spill else none

/-- An answer to a deep command (R416, R417): `bs` are the bytes read, none for a write. -/
def State.deepAnswer (s : State) (slot off err : Nat) (bs : List Nat) : State :=
  let bad := err != 0
  let s := if bad then s.pumpAlarm 3 else s
  match s.spillIn slot with
  | some p => s.modPump (fun q => { q with spill := some { p with err := p.err || bad } })
  | none => s.deepPiece slot off bad bs

/-- The last answer to a deep transfer has come; an error on a refill marks the buffer BAD (R417). -/
def State.deepEnd (s : State) (slot : Nat) : State :=
  if s.slotBusy slot then s
  else match s.spillIn slot with
    | some p => s.spillEnd p
    | none =>
      match s.hmove slot with
      | some m =>
        let b := deepRef (m.deep.getD 0)
        let s := if m.err = 0 then s else s.modHdr b (fun c => { c with bad := true })
        let s := s.rxWrite slot b m.data (m.err != 0)
        if s.slotBusy slot then s else s.rxEnd slot
      | none =>
        match s.move slot with
        | some m =>
          let s := if m.err = 0 then s else s.modCell (m.head.getD 0) (fun c => { c with bad := true })
          s.refillEnd m
        | none => s

/-- The write of a completion record has been answered: it is written, or the ring pair halts and it is lost (R464, R474). -/
def State.recordAnswer (s : State) (id err : Nat) : State :=
  match s.host.recs.find? (fun c => c.id == id) with
  | none => s
  | some c =>
    let s := (s.dropRec id).recFinish c.slot
    if err = 0 then s.recWritten c.r c.irq else (s.modRing c.r (fun g => { g with halted := true })).hostAlarm 0

/-- Hand an answer to its owner. -/
def State.answer (s : State) (o : MOwner) (err : Nat) (bs : List Nat) : State :=
  match o with
  | .poll p => s.pollBack p err bs
  | .fetch r first n gen => s.fetchBack r first n gen err bs
  | .move slot off => (if err = 0 then s.pieceData slot off bs else s.pieceError slot off).pieceEnd slot
  | .deep slot off => (s.deepAnswer slot off err bs).deepEnd slot
  | .record id => s.recordAnswer id err
  | .load off => s.loadBack off err bs

/-- Bytes of the first beat that lie before the data that the command wants: beats are aligned (R563). -/
def MCmd.lead (c : MCmd) : Nat := c.addr % (if c.port = 0 then 16 else 32)

/-- READ_RESPONSE: the last beat of the answer to a read; `data` are the bytes of its whole beats, and an error response
carries none that is used (R563, R565, R566).
(DESIGN CHOICE, safe: log entry 80.) -/
def execReadResponse (port : Fin 2) (id : Fin 512) (err : Fin 4) (data : List Byte) (s : State) : Result :=
  match s.cmdOf port id false with
  | none => .next s
  | some c =>
    s.act (s.up port && (err.val != 0 || decide (c.lead + c.bytes ≤ data.length)))
      ((s.dropCmd c).answer c.owner err (((data.drop c.lead).take c.bytes).map (·.toNat)))

/-- WRITE_ACK: the answer to a write (R565). -/
def execWriteAck (port : Fin 2) (id : Fin 512) (err : Fin 4) (s : State) : Result :=
  match s.cmdOf port id true with
  | none => .next s
  | some c => s.act (s.up port) ((s.dropCmd c).answer c.owner err [])

/-- RESPONSE_TIMEOUT: a command has been outstanding for 1 ms; the block goes on waiting (R570). -/
def execResponseTimeout (port : Fin 2) (id : Fin 512) (s : State) : Result :=
  match s.host.mcmds.find? (fun c => c.issued && c.port == port.val && c.id == id.val) with
  | none => .next s
  | some c =>
    let s1 := s.modHost (fun h => { h with mcmds := h.mcmds.map (fun d => if d = c then { d with warned := true } else d) })
    s.act (!c.warned && decide (c.at_ + msUnits ≤ s.tb.elapsed)) (s1.event 0 14 14 port id)

end Sys2Proof.Machine
end

