-- ==== Sys2Proof/Machine/Scalar.lean ====
section
/-!
DEFINITION. Moves, bits, arithmetic, logic, bit fields, shifts, multiply and divide (R183-R195).
-/

namespace Sys2Proof.Machine

/-! ### Moves, selects and bits (R183, R184) -/

def execNop (x : Fin 128) (s : State) : Result := runThread x 0x000 nothing s
def execMov (x : Fin 128) (s : State) : Result := runThread x 0x001 (da aluMov) s

/-- d takes the old m, then m the old d. -/
def swapBody : Body := fun c _ => .run (fun s => c.put 1 (c.val 0) (c.put 0 (c.val 1) s))
def execSwap (x : Fin 128) (s : State) : Result := runThread x 0x01D swapBody s
def execSel (x : Fin 128) (s : State) : Result := runThread x 0x019 (dab aluSel) s
def execBmov (x : Fin 128) (s : State) : Result := runThread x 0x012 (da aluBmov) s
def execBset (x : Fin 128) (s : State) : Result := runThread x 0x013 (dd aluBset) s
def execBclr (x : Fin 128) (s : State) : Result := runThread x 0x014 (dd aluBclr) s

/-- On a bit variable BNOT toggles the bit, whatever it was read as (R117). -/
def bnotBody : Body := fun c s =>
  match (c.op 0).loc with
  | .bit a => .run (fun s => s.bitPut c.x c.pc a none)
  | _ => dd aluBnot c s
def execBnot (x : Fin 128) (s : State) : Result := runThread x 0x015 bnotBody s

/-! ### Addition, subtraction and comparison (R185) -/

def execAdd (x : Fin 128) (s : State) : Result := runThread x 0x002 (dab aluAdd) s
def execAdc (x : Fin 128) (s : State) : Result := runThread x 0x106 (dab aluAdc) s
def execSub (x : Fin 128) (s : State) : Result := runThread x 0x003 (dab aluSub) s
def execSbc (x : Fin 128) (s : State) : Result := runThread x 0x107 (dab aluSbc) s
def execAdds (x : Fin 128) (s : State) : Result := runThread x 0x108 (dab aluAdds) s
def execSubs (x : Fin 128) (s : State) : Result := runThread x 0x109 (dab aluSubs) s
def execInc (x : Fin 128) (s : State) : Result := runThread x 0x017 (dd aluInc) s
def execDec (x : Fin 128) (s : State) : Result := runThread x 0x018 (dd aluDec) s
def execNeg (x : Fin 128) (s : State) : Result := runThread x 0x016 (da aluNeg) s
def execAbs (x : Fin 128) (s : State) : Result := runThread x 0x10E (da aluAbs) s
def execMin (x : Fin 128) (s : State) : Result := runThread x 0x10A (dab aluMin) s
def execMax (x : Fin 128) (s : State) : Result := runThread x 0x10B (dab aluMax) s
def execMinu (x : Fin 128) (s : State) : Result := runThread x 0x10C (dab aluMinu) s
def execMaxu (x : Fin 128) (s : State) : Result := runThread x 0x10D (dab aluMaxu) s

/-- The flags of SUB a, b. -/
def cmpFlags (c : Ctx) : List (Nat × Bool) := flagWrites c.w (aluSub c.w (c.val 0) (c.val 1) 0 false false)
def execCmp (x : Fin 128) (s : State) : Result := runThread x 0x00B (flagsOnly cmpFlags) s

/-! ### Logic, bit fields and counts (R187, R188) -/

def execAnd (x : Fin 128) (s : State) : Result := runThread x 0x004 (dab aluAnd) s
def execOr (x : Fin 128) (s : State) : Result := runThread x 0x005 (dab aluOr) s
def execXor (x : Fin 128) (s : State) : Result := runThread x 0x006 (dab aluXor) s

/-- The flags of AND a, b. -/
def tstFlags (c : Ctx) : List (Nat × Bool) := flagWrites c.w (aluAnd c.w (c.val 0) (c.val 1) 0 false false)
def execTst (x : Fin 128) (s : State) : Result := runThread x 0x00C (flagsOnly tstFlags) s

/-- Z and C from bit u(b) mod w of a; N and V stay. -/
def btstFlags (c : Ctx) : List (Nat × Bool) :=
  let b := bit (c.val 0) (c.val 1 % c.w)
  [(flagZ, !b), (flagC, b)]
def execBtst (x : Fin 128) (s : State) : Result := runThread x 0x01C (flagsOnly btstFlags) s
def execClz (x : Fin 128) (s : State) : Result := runThread x 0x10F (da aluClz) s
def execPopc (x : Fin 128) (s : State) : Result := runThread x 0x110 (da aluPopc) s
def execBswap (x : Fin 128) (s : State) : Result := runThread x 0x111 (da aluBswap) s
def execBfx (x : Fin 128) (s : State) : Result := runThread x 0x112 (dab aluBfx) s
def execBfi (x : Fin 128) (s : State) : Result := runThread x 0x113 (dab aluBfi) s

/-! ### Shifts and rotates (R189) -/

def execShl (x : Fin 128) (s : State) : Result := runThread x 0x007 (dab aluShl) s
def execShr (x : Fin 128) (s : State) : Result := runThread x 0x008 (dab aluShr) s
def execSar (x : Fin 128) (s : State) : Result := runThread x 0x009 (dab aluSar) s
def execRol (x : Fin 128) (s : State) : Result := runThread x 0x00A (dab aluRol) s

/-! ### Multiply and divide (R191-R195) -/

def execMul (x : Fin 128) (s : State) : Result := runThread x 0x00D (mulAt 2 aluMul) s
def execMulh (x : Fin 128) (s : State) : Result := runThread x 0x104 (mulAt 3 aluMulh) s
def execMulhu (x : Fin 128) (s : State) : Result := runThread x 0x105 (mulAt 3 aluMulhu) s
def execDiv (x : Fin 128) (s : State) : Result := runThread x 0x100 (divBy aluDiv) s
def execDivu (x : Fin 128) (s : State) : Result := runThread x 0x101 (divBy aluDivu) s
def execRem (x : Fin 128) (s : State) : Result := runThread x 0x102 (divBy aluRem) s
def execRemu (x : Fin 128) (s : State) : Result := runThread x 0x103 (divBy aluRemu) s

end Sys2Proof.Machine
end

