-- ==== Sys2Proof/Machine/Vector.lean ====
section
/-!
DEFINITION. Short vectors (R229-R234), LVSETL (R236) and the launch of long vectors (R226-R228, R239-R241).
-/

namespace Sys2Proof.Machine

/-! ### Short vectors -/

/-- A source of a short vector with lanes of `l` bits: 128 bits, or an immediate in every lane (R229). -/
def Ctx.vec (c : Ctx) (l i : Nat) : Nat := match (c.op i).loc with | .imm _ => splat l (c.spec i) | _ => c.val i

/-- d := f(a, b) with lanes as the prefixes give them. -/
def vecBody (f : Nat → Nat → Nat → Nat) : Body := fun c _ =>
  .run (c.put 0 (f c.dec.lane (c.vec c.dec.lane 1) (c.vec c.dec.lane 2)))

/-- The same lane by lane. -/
def laneBody (f : Nat → Nat → Nat → Nat) : Body := vecBody (fun l => lanewise l (f l))

def execVadd (x : Fin 128) (s : State) : Result := runThread x 0x200 (laneBody laneAdd) s
def execVsub (x : Fin 128) (s : State) : Result := runThread x 0x201 (laneBody laneSub) s
def execVmin (x : Fin 128) (s : State) : Result := runThread x 0x202 (laneBody laneMin) s
def execVmax (x : Fin 128) (s : State) : Result := runThread x 0x203 (laneBody laneMax) s
def execVand (x : Fin 128) (s : State) : Result := runThread x 0x204 (vecBody (fun _ a b => a &&& b)) s
def execVor (x : Fin 128) (s : State) : Result := runThread x 0x205 (vecBody (fun _ a b => a ||| b)) s
def execVxor (x : Fin 128) (s : State) : Result := runThread x 0x206 (vecBody (fun _ a b => a ^^^ b)) s
def execVcmpeq (x : Fin 128) (s : State) : Result := runThread x 0x207 (laneBody laneEq) s
def execVcmpgt (x : Fin 128) (s : State) : Result := runThread x 0x208 (laneBody laneGt) s
def execVshl (x : Fin 128) (s : State) : Result := runThread x 0x209 (laneBody laneShl) s
def execVshr (x : Fin 128) (s : State) : Result := runThread x 0x20A (laneBody laneShr) s

/-- VSEL and TPERM2 also read the old d. -/
def vecOldBody (f : Nat → Nat → Nat → Nat) : Body := fun c _ =>
  .run (c.put 0 (f (c.vec c.dec.lane 1) (c.vec c.dec.lane 2) (c.val 0)))

def execVsel (x : Fin 128) (s : State) : Result := runThread x 0x20B (vecOldBody vselOp) s
def execTperm (x : Fin 128) (s : State) : Result := runThread x 0x210 (vecBody (fun _ a t => tperm a t)) s
def execTperm2 (x : Fin 128) (s : State) : Result := runThread x 0x211 (vecOldBody tperm2) s
def execTlut (x : Fin 128) (s : State) : Result := runThread x 0x212 (vecBody (fun _ a t => tlut a t)) s
def execTlut16 (x : Fin 128) (s : State) : Result := runThread x 0x213 (vecBody (fun _ a t => tlut16 a t)) s

/-! ### Long vectors -/

/-- LVSETL: the VL word takes u(a), kept within 1 to 256 (R236). -/
def lvsetlBody : Body := fun c _ => .run (fun s => s.wellPut c.x 0xFF4 4 (max 1 (min 256 (c.val 0))))
def execLvsetl (x : Fin 128) (s : State) : Result := runThread x 0x220 lvsetlBody s

/-- A long vector launches: BUSY, LVDONE cleared, its commit D strokes later (R228, R241). -/
def lvBody : Body := fun c s =>
  let op := c.dec.op - 0x200
  let vl := s.vl c.x
  if (s.lb (lbOf c.x)).lv.isSome then .stay (fun s => s.illBlock c)
  else .run (fun s =>
    let l : LvOp := { x := c.x, pc := c.pc, op := op, vl := vl, d := (c.op 0).loc, a := (c.op 1).loc, b := (c.op 2).loc,
                      issued := s.strokes, due := s.strokes + lvDistance op vl, elems := [], fault := none }
    (s.modLb (lbOf c.x) (fun b => { b with lv := some l })).setFlag c.x flagLVDONE false)

/-- A long vector instruction. -/
def runLv (x op : Nat) (s : State) : Result := runThread x op (notInPair lvBody) s

def execLvadd (x : Fin 128) (s : State) : Result := runLv x 0x221 s
def execLvsub (x : Fin 128) (s : State) : Result := runLv x 0x222 s
def execLvmul (x : Fin 128) (s : State) : Result := runLv x 0x223 s
def execLvmac (x : Fin 128) (s : State) : Result := runLv x 0x224 s
def execLvcmul (x : Fin 128) (s : State) : Result := runLv x 0x225 s
def execLvcmac (x : Fin 128) (s : State) : Result := runLv x 0x226 s
def execLvconj (x : Fin 128) (s : State) : Result := runLv x 0x227 s
def execLvsum (x : Fin 128) (s : State) : Result := runLv x 0x228 s
def execLvmaxi (x : Fin 128) (s : State) : Result := runLv x 0x229 s
def execLvbfly (x : Fin 128) (s : State) : Result := runLv x 0x22A s
def execLvgath (x : Fin 128) (s : State) : Result := runLv x 0x230 s
def execLvgathf (x : Fin 128) (s : State) : Result := runLv x 0x231 s
def execLvscat (x : Fin 128) (s : State) : Result := runLv x 0x232 s
def execLvcopy (x : Fin 128) (s : State) : Result := runLv x 0x233 s

end Sys2Proof.Machine
end

