-- ==== Sys2Proof/Machine/Dispatch.lean ====
section
/-!
DEFINITION. The meaning of every command: one arm per constructor.
-/

namespace Sys2Proof.Machine

def exec (i : Instr) (s : State) : Host.Outcome State Fault Refusal :=
  match i with
  | .stroke tree unit => Sys2Proof.Machine.execStroke tree unit s
  | .depthDecrease => Sys2Proof.Machine.execDepthDecrease s
  | .paceWrite w => Sys2Proof.Machine.execPaceWrite w s
  | .paceApply => Sys2Proof.Machine.execPaceApply s
  | .snap w => Sys2Proof.Machine.execSnap w s
  | .msReport => Sys2Proof.Machine.execMsReport s
  | .vreqAckRise => Sys2Proof.Machine.execVreqAckRise s
  | .vreqAckFall => Sys2Proof.Machine.execVreqAckFall s
  | .downRequest => Sys2Proof.Machine.execDownRequest s
  | .vreqTimeout => Sys2Proof.Machine.execVreqTimeout s
  | .refLost => Sys2Proof.Machine.execRefLost s
  | .refRestored => Sys2Proof.Machine.execRefRestored s
  | .wheelLoWrite n w => Sys2Proof.Machine.execWheelLoWrite n w s
  | .wheelHiWrite n w => Sys2Proof.Machine.execWheelHiWrite n w s
  | .wheelApply n => Sys2Proof.Machine.execWheelApply n s
  | .start x w => Sys2Proof.Machine.execStart x w s
  | .stop x w => Sys2Proof.Machine.execStop x w s
  | .step x w => Sys2Proof.Machine.execStep x w s
  | .reset x w => Sys2Proof.Machine.execReset x w s
  | .threadFirstTurn x => Sys2Proof.Machine.execThreadFirstTurn x s
  | .stopAtBoundary x => Sys2Proof.Machine.execStopAtBoundary x s
  | .stepComplete x => Sys2Proof.Machine.execStepComplete x s
  | .interruptEntry x => Sys2Proof.Machine.execInterruptEntry x s
  | .exceptionEntry x => Sys2Proof.Machine.execExceptionEntry x s
  | .illegalInstruction x => Sys2Proof.Machine.execIllegalInstruction x s
  | .uncorrectableFetch x => Sys2Proof.Machine.execUncorrectableFetch x s
  | .eccRewrite m w => Sys2Proof.Machine.execEccRewrite m w s
  | .longResult x => Sys2Proof.Machine.execLongResult x s
  | .blockCrcDone x => Sys2Proof.Machine.execBlockCrcDone x s
  | .lvCommit n => Sys2Proof.Machine.execLvCommit n s
  | .cisternPartLand x k => Sys2Proof.Machine.execCisternPartLand x k s
  | .cisternFault x k => Sys2Proof.Machine.execCisternFault x k s
  | .windowWriteArrive d => Sys2Proof.Machine.execWindowWriteArrive d s
  | .nop x => Sys2Proof.Machine.execNop x s
  | .mov x => Sys2Proof.Machine.execMov x s
  | .swap x => Sys2Proof.Machine.execSwap x s
  | .sel x => Sys2Proof.Machine.execSel x s
  | .bmov x => Sys2Proof.Machine.execBmov x s
  | .bset x => Sys2Proof.Machine.execBset x s
  | .bclr x => Sys2Proof.Machine.execBclr x s
  | .bnot x => Sys2Proof.Machine.execBnot x s
  | .add x => Sys2Proof.Machine.execAdd x s
  | .adc x => Sys2Proof.Machine.execAdc x s
  | .sub x => Sys2Proof.Machine.execSub x s
  | .sbc x => Sys2Proof.Machine.execSbc x s
  | .adds x => Sys2Proof.Machine.execAdds x s
  | .subs x => Sys2Proof.Machine.execSubs x s
  | .inc x => Sys2Proof.Machine.execInc x s
  | .dec x => Sys2Proof.Machine.execDec x s
  | .neg x => Sys2Proof.Machine.execNeg x s
  | .abs x => Sys2Proof.Machine.execAbs x s
  | .min x => Sys2Proof.Machine.execMin x s
  | .max x => Sys2Proof.Machine.execMax x s
  | .minu x => Sys2Proof.Machine.execMinu x s
  | .maxu x => Sys2Proof.Machine.execMaxu x s
  | .cmp x => Sys2Proof.Machine.execCmp x s
  | .and x => Sys2Proof.Machine.execAnd x s
  | .or x => Sys2Proof.Machine.execOr x s
  | .xor x => Sys2Proof.Machine.execXor x s
  | .tst x => Sys2Proof.Machine.execTst x s
  | .btst x => Sys2Proof.Machine.execBtst x s
  | .clz x => Sys2Proof.Machine.execClz x s
  | .popc x => Sys2Proof.Machine.execPopc x s
  | .bswap x => Sys2Proof.Machine.execBswap x s
  | .bfx x => Sys2Proof.Machine.execBfx x s
  | .bfi x => Sys2Proof.Machine.execBfi x s
  | .shl x => Sys2Proof.Machine.execShl x s
  | .shr x => Sys2Proof.Machine.execShr x s
  | .sar x => Sys2Proof.Machine.execSar x s
  | .rol x => Sys2Proof.Machine.execRol x s
  | .mul x => Sys2Proof.Machine.execMul x s
  | .mulh x => Sys2Proof.Machine.execMulh x s
  | .mulhu x => Sys2Proof.Machine.execMulhu x s
  | .div x => Sys2Proof.Machine.execDiv x s
  | .divu x => Sys2Proof.Machine.execDivu x s
  | .rem x => Sys2Proof.Machine.execRem x s
  | .remu x => Sys2Proof.Machine.execRemu x s
  | .br x => Sys2Proof.Machine.execBr x s
  | .brs x => Sys2Proof.Machine.execBrs x s
  | .call x => Sys2Proof.Machine.execCall x s
  | .ret x => Sys2Proof.Machine.execRet x s
  | .trap x => Sys2Proof.Machine.execTrap x s
  | .idle x => Sys2Proof.Machine.execIdle x s
  | .yield x => Sys2Proof.Machine.execYield x s
  | .ei x => Sys2Proof.Machine.execEi x s
  | .di x => Sys2Proof.Machine.execDi x s
  | .rstkd x => Sys2Proof.Machine.execRstkd x s
  | .crc32 x => Sys2Proof.Machine.execCrc32 x s
  | .crc32c x => Sys2Proof.Machine.execCrc32c x s
  | .tag x => Sys2Proof.Machine.execTag x s
  | .tadd x => Sys2Proof.Machine.execTadd x s
  | .tsub x => Sys2Proof.Machine.execTsub x s
  | .tcmp x => Sys2Proof.Machine.execTcmp x s
  | .tnow x => Sys2Proof.Machine.execTnow x s
  | .xchg x => Sys2Proof.Machine.execXchg x s
  | .cas x => Sys2Proof.Machine.execCas x s
  | .fadd x => Sys2Proof.Machine.execFadd x s
  | .lockw x => Sys2Proof.Machine.execLockw x s
  | .unlkw x => Sys2Proof.Machine.execUnlkw x s
  | .lockg x => Sys2Proof.Machine.execLockg x s
  | .unlkg x => Sys2Proof.Machine.execUnlkg x s
  | .crd x => Sys2Proof.Machine.execCrd x s
  | .cwr x => Sys2Proof.Machine.execCwr x s
  | .check x => Sys2Proof.Machine.execCheck x s
  | .bind x => Sys2Proof.Machine.execBind x s
  | .unbind x => Sys2Proof.Machine.execUnbind x s
  | .tagget x => Sys2Proof.Machine.execTagget x s
  | .tagput x => Sys2Proof.Machine.execTagput x s
  | .alloc x => Sys2Proof.Machine.execAlloc x s
  | .free x => Sys2Proof.Machine.execFree x s
  | .chanResult x => Sys2Proof.Machine.execChanResult x s
  | .copy x => Sys2Proof.Machine.execCopy x s
  | .sendHost x => Sys2Proof.Machine.execSendHost x s
  | .tx x => Sys2Proof.Machine.execTx x s
  | .toValve x => Sys2Proof.Machine.execToValve x s
  | .fromValve x => Sys2Proof.Machine.execFromValve x s
  | .imageOut x => Sys2Proof.Machine.execImageOut x s
  | .imageIn x => Sys2Proof.Machine.execImageIn x s
  | .pumpTake x => Sys2Proof.Machine.execPumpTake x s
  | .event x => Sys2Proof.Machine.execEvent x s
  | .moveComplete k => Sys2Proof.Machine.execMoveComplete k s
  | .post x => Sys2Proof.Machine.execPost x s
  | .ewait x => Sys2Proof.Machine.execEwait x s
  | .qput x => Sys2Proof.Machine.execQput x s
  | .qputn x => Sys2Proof.Machine.execQputn x s
  | .qget x => Sys2Proof.Machine.execQget x s
  | .qgetn x => Sys2Proof.Machine.execQgetn x s
  | .sched x => Sys2Proof.Machine.execSched x s
  | .unsched x => Sys2Proof.Machine.execUnsched x s
  | .sysrd x => Sys2Proof.Machine.execSysrd x s
  | .syswr x => Sys2Proof.Machine.execSyswr x s
  | .vadd x => Sys2Proof.Machine.execVadd x s
  | .vsub x => Sys2Proof.Machine.execVsub x s
  | .vmin x => Sys2Proof.Machine.execVmin x s
  | .vmax x => Sys2Proof.Machine.execVmax x s
  | .vand x => Sys2Proof.Machine.execVand x s
  | .vor x => Sys2Proof.Machine.execVor x s
  | .vxor x => Sys2Proof.Machine.execVxor x s
  | .vcmpeq x => Sys2Proof.Machine.execVcmpeq x s
  | .vcmpgt x => Sys2Proof.Machine.execVcmpgt x s
  | .vshl x => Sys2Proof.Machine.execVshl x s
  | .vshr x => Sys2Proof.Machine.execVshr x s
  | .vsel x => Sys2Proof.Machine.execVsel x s
  | .tperm x => Sys2Proof.Machine.execTperm x s
  | .tperm2 x => Sys2Proof.Machine.execTperm2 x s
  | .tlut x => Sys2Proof.Machine.execTlut x s
  | .tlut16 x => Sys2Proof.Machine.execTlut16 x s
  | .lvsetl x => Sys2Proof.Machine.execLvsetl x s
  | .lvadd x => Sys2Proof.Machine.execLvadd x s
  | .lvsub x => Sys2Proof.Machine.execLvsub x s
  | .lvmul x => Sys2Proof.Machine.execLvmul x s
  | .lvmac x => Sys2Proof.Machine.execLvmac x s
  | .lvcmul x => Sys2Proof.Machine.execLvcmul x s
  | .lvcmac x => Sys2Proof.Machine.execLvcmac x s
  | .lvconj x => Sys2Proof.Machine.execLvconj x s
  | .lvsum x => Sys2Proof.Machine.execLvsum x s
  | .lvmaxi x => Sys2Proof.Machine.execLvmaxi x s
  | .lvbfly x => Sys2Proof.Machine.execLvbfly x s
  | .lvgath x => Sys2Proof.Machine.execLvgath x s
  | .lvgathf x => Sys2Proof.Machine.execLvgathf x s
  | .lvscat x => Sys2Proof.Machine.execLvscat x s
  | .lvcopy x => Sys2Proof.Machine.execLvcopy x s
  | .eventEntry src => Sys2Proof.Machine.execEventEntry src s
  | .routeDelivery idx => Sys2Proof.Machine.execRouteDelivery idx s
  | .stormWindow => Sys2Proof.Machine.execStormWindow s
  | .stormRearm idx w => Sys2Proof.Machine.execStormRearm idx w s
  | .triggerArrive v k => Sys2Proof.Machine.execTriggerArrive v k s
  | .txholdChange n => Sys2Proof.Machine.execTxholdChange n s
  | .tscapCapture k => Sys2Proof.Machine.execTscapCapture k s
  | .extoutPulse k => Sys2Proof.Machine.execExtoutPulse k s
  | .stretcherEnd k => Sys2Proof.Machine.execStretcherEnd k s
  | .routeWrite r w => Sys2Proof.Machine.execRouteWrite r w s
  | .gateWrite r w => Sys2Proof.Machine.execGateWrite r w s
  | .signaturePass => Sys2Proof.Machine.execSignaturePass s
  | .goldenWrite w => Sys2Proof.Machine.execGoldenWrite w s
  | .extInEdge k level => Sys2Proof.Machine.execExtInEdge k level s
  | .branch v => Sys2Proof.Machine.execBranch v s
  | .countLoad v => Sys2Proof.Machine.execCountLoad v s
  | .countReload v => Sys2Proof.Machine.execCountReload v s
  | .countDec v => Sys2Proof.Machine.execCountDec v s
  | .countLoop v => Sys2Proof.Machine.execCountLoop v s
  | .shiftSend v => Sys2Proof.Machine.execShiftSend v s
  | .shiftSample v => Sys2Proof.Machine.execShiftSample v s
  | .shiftFill v => Sys2Proof.Machine.execShiftFill v s
  | .shiftDiscard v => Sys2Proof.Machine.execShiftDiscard v s
  | .move v => Sys2Proof.Machine.execValveMove v s
  | .take v => Sys2Proof.Machine.execTake v s
  | .give v => Sys2Proof.Machine.execGive v s
  | .await v => Sys2Proof.Machine.execAwait v s
  | .awaitPass v => Sys2Proof.Machine.execAwaitPass v s
  | .awaitTimeout v => Sys2Proof.Machine.execAwaitTimeout v s
  | .queueStallEnd v => Sys2Proof.Machine.execQueueStallEnd v s
  | .signalSet v => Sys2Proof.Machine.execSignalSet v s
  | .signalClear v => Sys2Proof.Machine.execSignalClear v s
  | .signalEvent v => Sys2Proof.Machine.execSignalEvent v s
  | .signalSetEvent v => Sys2Proof.Machine.execSignalSetEvent v s
  | .mark v => Sys2Proof.Machine.execMark v s
  | .valveIllegal v => Sys2Proof.Machine.execValveIllegal v s
  | .valveStart v w => Sys2Proof.Machine.execValveStart v w s
  | .valveStop v w => Sys2Proof.Machine.execValveStop v w s
  | .restart v w => Sys2Proof.Machine.execRestart v w s
  | .clrCounts v w => Sys2Proof.Machine.execClrCounts v w s
  | .clkdivWrite v w => Sys2Proof.Machine.execClkdivWrite v w s
  | .qcfgWrite v w => Sys2Proof.Machine.execQcfgWrite v w s
  | .progWrite v idx w => Sys2Proof.Machine.execProgWrite v idx w s
  | .kWrite v n w => Sys2Proof.Machine.execKWrite v n w s
  | .swapSafe v w => Sys2Proof.Machine.execSwapSafe v w s
  | .swapIdle v w => Sys2Proof.Machine.execSwapIdle v w s
  | .swapForced v w => Sys2Proof.Machine.execSwapForced v w s
  | .swapCancel v w => Sys2Proof.Machine.execSwapCancel v w s
  | .valveSwap v left => Sys2Proof.Machine.execValveSwap v left s
  | .txEntryReady v => Sys2Proof.Machine.execTxEntryReady v s
  | .rxEntryArrive v => Sys2Proof.Machine.execRxEntryArrive v s
  | .putCreditReturn v => Sys2Proof.Machine.execPutCreditReturn v s
  | .pinIn n j level => Sys2Proof.Machine.execPinIn n j level s
  | .samplePoint n => Sys2Proof.Machine.execSamplePoint n s
  | .chatterWindow n j => Sys2Proof.Machine.execChatterWindow n j s
  | .stuck n j => Sys2Proof.Machine.execStuck n j s
  | .pinSampleWrite n w => Sys2Proof.Machine.execPinSampleWrite n w s
  | .pinCondWrite n j w => Sys2Proof.Machine.execPinCondWrite n j w s
  | .chatterRearm n w => Sys2Proof.Machine.execChatterRearm n w s
  | .stuckClear n w => Sys2Proof.Machine.execStuckClear n w s
  | .pinOwnWrite n w => Sys2Proof.Machine.execPinOwnWrite n w s
  | .pinFlagsWrite n w => Sys2Proof.Machine.execPinFlagsWrite n w s
  | .portModeWrite n w => Sys2Proof.Machine.execPortModeWrite n w s
  | .rxFrame n f => Sys2Proof.Machine.execRxFrame n f s
  | .frameRecord n => Sys2Proof.Machine.execFrameRecord n s
  | .cellReserve n => Sys2Proof.Machine.execCellReserve n s
  | .pauseTimer n => Sys2Proof.Machine.execPauseTimer n s
  | .txFrame n tap underrun => Sys2Proof.Machine.execTxFrame n tap underrun s
  | .txFrameDone n => Sys2Proof.Machine.execTxFrameDone n s
  | .launch k => Sys2Proof.Machine.execLaunch k s
  | .gateEntry n => Sys2Proof.Machine.execGateEntry n s
  | .gateCtrlWrite n w => Sys2Proof.Machine.execGateCtrlWrite n w s
  | .gateCtrlApply n => Sys2Proof.Machine.execGateCtrlApply n s
  | .exactWrite n e w => Sys2Proof.Machine.execExactWrite n e w s
  | .dupAgeOut n => Sys2Proof.Machine.execDupAgeOut n s
  | .flush n w => Sys2Proof.Machine.execFlush n w s
  | .clear n w => Sys2Proof.Machine.execClear n w s
  | .tbIncWrite which w => Sys2Proof.Machine.execTbIncWrite which w s
  | .rateLoWrite w => Sys2Proof.Machine.execRateLoWrite w s
  | .rateHiWrite w => Sys2Proof.Machine.execRateHiWrite w s
  | .rateApply => Sys2Proof.Machine.execRateApply s
  | .adjAuto w => Sys2Proof.Machine.execAdjAuto w s
  | .adjStep w => Sys2Proof.Machine.execAdjStep w s
  | .adjSlew w => Sys2Proof.Machine.execAdjSlew w s
  | .adjSet w => Sys2Proof.Machine.execAdjSet w s
  | .timeStep => Sys2Proof.Machine.execTimeStep s
  | .slewStart => Sys2Proof.Machine.execSlewStart s
  | .slewEnd => Sys2Proof.Machine.execSlewEnd s
  | .hostSnapshot p w => Sys2Proof.Machine.execHostSnapshot p w s
  | .snapshotCapture p => Sys2Proof.Machine.execSnapshotCapture p s
  | .calTable g taps => Sys2Proof.Machine.execCalTable g taps s
  | .groupTimeSync g tap => Sys2Proof.Machine.execGroupTimeSync g tap s
  | .schedArrive e => Sys2Proof.Machine.execSchedArrive e s
  | .scheduleFire e => Sys2Proof.Machine.execScheduleFire e s
  | .unschedApply e => Sys2Proof.Machine.execUnschedApply e s
  | .repHeadWrite lb w => Sys2Proof.Machine.execRepHeadWrite lb w s
  | .cycleStart idx => Sys2Proof.Machine.execCycleStart idx s
  | .ckDone w => Sys2Proof.Machine.execCkDone w s
  | .ckEnable idx w => Sys2Proof.Machine.execCkEnable idx w s
  | .ckDisable idx w => Sys2Proof.Machine.execCkDisable idx w s
  | .ppsInEdge sub level => Sys2Proof.Machine.execPpsInEdge sub level s
  | .ppsOutRise => Sys2Proof.Machine.execPpsOutRise s
  | .ppsOutFall => Sys2Proof.Machine.execPpsOutFall s
  | .pumpTrigger lb k => Sys2Proof.Machine.execPumpTrigger lb k s
  | .spillVisit ch => Sys2Proof.Machine.execSpillVisit ch s
  | .refill => Sys2Proof.Machine.execRefill s
  | .dcEnable w => Sys2Proof.Machine.execDcEnable w s
  | .dcReady => Sys2Proof.Machine.execDcReady s
  | .crHeadWrite lb w => Sys2Proof.Machine.execCrHeadWrite lb w s
  | .qdepthWrite reg w => Sys2Proof.Machine.execQdepthWrite reg w s
  | .poll p => Sys2Proof.Machine.execPoll p s
  | .pollReturn p err data => Sys2Proof.Machine.execPollReturn p err data s
  | .dbHint => Sys2Proof.Machine.execDbHint s
  | .submissionFetch r => Sys2Proof.Machine.execSubmissionFetch r s
  | .send r => Sys2Proof.Machine.execSend r s
  | .rxPost r => Sys2Proof.Machine.execRxPost r s
  | .badSubmission r => Sys2Proof.Machine.execBadSubmission r s
  | .cmdNop p => Sys2Proof.Machine.execCmdNop p s
  | .chCreate p => Sys2Proof.Machine.execChCreate p s
  | .chModify p => Sys2Proof.Machine.execChModify p s
  | .chDestroy p => Sys2Proof.Machine.execChDestroy p s
  | .chEnable p => Sys2Proof.Machine.execChEnable p s
  | .chDisable p => Sys2Proof.Machine.execChDisable p s
  | .portEnable p => Sys2Proof.Machine.execPortEnable p s
  | .portDisable p => Sys2Proof.Machine.execPortDisable p s
  | .persLoad p => Sys2Proof.Machine.execPersLoad p s
  | .persSwap p => Sys2Proof.Machine.execPersSwap p s
  | .lockgAcq p => Sys2Proof.Machine.execLockgAcq p s
  | .lockgRel p => Sys2Proof.Machine.execLockgRel p s
  | .lockgForce p => Sys2Proof.Machine.execLockgForce p s
  | .lockwAcq p => Sys2Proof.Machine.execLockwAcq p s
  | .lockwRel p => Sys2Proof.Machine.execLockwRel p s
  | .undefinedCommand p => Sys2Proof.Machine.execUndefinedCommand p s
  | .completionWrite r => Sys2Proof.Machine.execCompletionWrite r s
  | .coalesceTimeout r => Sys2Proof.Machine.execCoalesceTimeout r s
  | .portOn n => Sys2Proof.Machine.execPortOn n s
  | .enableTimeout n => Sys2Proof.Machine.execEnableTimeout n s
  | .portDrainEnd n => Sys2Proof.Machine.execPortDrainEnd n s
  | .channelOn ch => Sys2Proof.Machine.execChannelOn ch s
  | .channelDrainEnd ch => Sys2Proof.Machine.execChannelDrainEnd ch s
  | .partitionReset p w => Sys2Proof.Machine.execPartitionReset p w s
  | .ringEnable r w => Sys2Proof.Machine.execRingEnable r w s
  | .readResponse port id err data => Sys2Proof.Machine.execReadResponse port id err data s
  | .writeAck port id err => Sys2Proof.Machine.execWriteAck port id err s
  | .responseTimeout port id => Sys2Proof.Machine.execResponseTimeout port id s
  | .registerWrite off w strb len => Sys2Proof.Machine.execRegisterWrite off w strb len s
  | .leaseExpiry k => Sys2Proof.Machine.execLeaseExpiry k s
  | .lockRewrite k => Sys2Proof.Machine.execLockRewrite k s
  | .whLockAcquire w => Sys2Proof.Machine.execWhLockAcquire w s
  | .whLockRelease w => Sys2Proof.Machine.execWhLockRelease w s
  | .whLockForce w => Sys2Proof.Machine.execWhLockForce w s
  | .wellheadEvent check => Sys2Proof.Machine.execWellheadEvent check s
  | .faultClearKey w => Sys2Proof.Machine.execFaultClearKey w s
  | .halvesDisagree => Sys2Proof.Machine.execHalvesDisagree s
  | .clockWindow counts => Sys2Proof.Machine.execClockWindow counts s
  | .trailerStart k => Sys2Proof.Machine.execTrailerStart k s
  | .pairMismatch k => Sys2Proof.Machine.execPairMismatch k s
  | .rotationStep => Sys2Proof.Machine.execRotationStep s
  | .mirrorDone => Sys2Proof.Machine.execMirrorDone s
  | .cutOver => Sys2Proof.Machine.execCutOver s
  | .drainEnd => Sys2Proof.Machine.execDrainEnd s
  | .selfTestDone pass block => Sys2Proof.Machine.execSelfTestDone pass block s
  | .emergencyMigration b => Sys2Proof.Machine.execEmergencyMigration b s
  | .retest w => Sys2Proof.Machine.execRetest w s
  | .readmissionDone pass => Sys2Proof.Machine.execReadmissionDone pass s
  | .lbReturn lb => Sys2Proof.Machine.execLbReturn lb s
  | .scrubRead m w => Sys2Proof.Machine.execScrubRead m w s
  | .logIntake => Sys2Proof.Machine.execLogIntake s
  | .logWrite => Sys2Proof.Machine.execLogWrite s
  | .gapMove => Sys2Proof.Machine.execGapMove s
  | .incidentClose => Sys2Proof.Machine.execIncidentClose s
  | .logRead w => Sys2Proof.Machine.execLogRead w s
  | .logReadDone => Sys2Proof.Machine.execLogReadDone s
  | .aonReset test => Sys2Proof.Machine.execAonReset test s
  | .blockReset test => Sys2Proof.Machine.execBlockReset test s
  | .domainResetExit d => Sys2Proof.Machine.execDomainResetExit d s
  | .priming => Sys2Proof.Machine.execPriming s
  | .primed => Sys2Proof.Machine.execPrimed s
  | .commit w => Sys2Proof.Machine.execCommit w s
  | .threadCutOver x => Sys2Proof.Machine.execThreadCutOver x s
  | .swapTimeout => Sys2Proof.Machine.execSwapTimeout s
  | .persSwapDone => Sys2Proof.Machine.execPersSwapDone s
  | .testModeChange => Sys2Proof.Machine.execTestModeChange s
  | .idcode => Sys2Proof.Machine.execIdcode s
  | .bypass => Sys2Proof.Machine.execBypass s
  | .ijtag => Sys2Proof.Machine.execIjtag s
  | .trst => Sys2Proof.Machine.execTrst s
  | .pop w => Sys2Proof.Machine.execPop w s
  | .supplyLoss => Sys2Proof.Machine.execSupplyLoss s
  | .swapArmed => Sys2Proof.Machine.execSwapArmed s
  | .persLoadDone => Sys2Proof.Machine.execPersLoadDone s
  | .primingClockMissing nclk => Sys2Proof.Machine.execPrimingClockMissing nclk s

end Sys2Proof.Machine
end

