-- ==== Sys2Proof/Machine/Step.lean ====
section
/-!
DEFINITION. One step: the command at the front of the queue runs with the rest of the queue in place.  On an empty queue
one TCLK edge passes (DESIGN CHOICE).
-/

namespace Sys2Proof.Machine

/-- One step.
(DESIGN CHOICE, safe: log entry 1.) (DESIGN CHOICE, unsafe: log entry 2.) -/
def step (s : State) : Host.Outcome State Fault Refusal :=
  match s.pending with
  | [] => .next s.tclkEdge
  | c :: cs => exec c { s with pending := cs }

/-- The state with the command that a word spells at the front of its queue. -/
def State.withFetchWord (s : State) (nbits w : Nat) : State :=
  match decodeTableWord nbits w with
  | some c => { s with pending := c :: s.pending }
  | none => s

end Sys2Proof.Machine
end

