-- ==== Sys2Proof/Safety.lean ====
section
/-!
DEFINITION. The terms that the statements use: a command that completes, an instruction that reaches its own operation,
what a result writes, what a run may rely on.
-/

namespace Sys2Proof.Machine

/-! ### Completion -/

/-- The command `i` completes from `s`, and its next state is as `p` says. -/
def Answers (i : Instr) (s : State) (p : State → Prop) : Prop := ∃ t, exec i s = .next t ∧ p t

/-- A state that is safe: the block is never primed and in recovery at once (R546, R547). -/
def State.Safe (s : State) : Prop := ¬(s.mram.primed = true ∧ s.mram.recovery = true)

/-- A run of commands from a state, each taken from outside in its turn. -/
inductive Runs : State → List Instr → State → Prop
  | nil (s : State) : Runs s [] s
  | cons (i : Instr) (is : List Instr) (s t u : State) (h : exec i s = .next t) (r : Runs t is u) : Runs s (i :: is) u

/-! ### Instructions of a thread -/

/-- The instruction of a thread row (chapter 05): the thread, its opcode as page and code, and for CHAN and PUMP the
operation. -/
def threadRow : Instr → Option (Fin 128 × Nat × Option Nat)
  | .nop x => some (x, 0x000, none)
  | .mov x => some (x, 0x001, none)
  | .swap x => some (x, 0x01D, none)
  | .sel x => some (x, 0x019, none)
  | .bmov x => some (x, 0x012, none)
  | .bset x => some (x, 0x013, none)
  | .bclr x => some (x, 0x014, none)
  | .bnot x => some (x, 0x015, none)
  | .add x => some (x, 0x002, none)
  | .adc x => some (x, 0x106, none)
  | .sub x => some (x, 0x003, none)
  | .sbc x => some (x, 0x107, none)
  | .adds x => some (x, 0x108, none)
  | .subs x => some (x, 0x109, none)
  | .inc x => some (x, 0x017, none)
  | .dec x => some (x, 0x018, none)
  | .neg x => some (x, 0x016, none)
  | .abs x => some (x, 0x10E, none)
  | .min x => some (x, 0x10A, none)
  | .max x => some (x, 0x10B, none)
  | .minu x => some (x, 0x10C, none)
  | .maxu x => some (x, 0x10D, none)
  | .cmp x => some (x, 0x00B, none)
  | .and x => some (x, 0x004, none)
  | .or x => some (x, 0x005, none)
  | .xor x => some (x, 0x006, none)
  | .tst x => some (x, 0x00C, none)
  | .btst x => some (x, 0x01C, none)
  | .clz x => some (x, 0x10F, none)
  | .popc x => some (x, 0x110, none)
  | .bswap x => some (x, 0x111, none)
  | .bfx x => some (x, 0x112, none)
  | .bfi x => some (x, 0x113, none)
  | .shl x => some (x, 0x007, none)
  | .shr x => some (x, 0x008, none)
  | .sar x => some (x, 0x009, none)
  | .rol x => some (x, 0x00A, none)
  | .mul x => some (x, 0x00D, none)
  | .mulh x => some (x, 0x104, none)
  | .mulhu x => some (x, 0x105, none)
  | .div x => some (x, 0x100, none)
  | .divu x => some (x, 0x101, none)
  | .rem x => some (x, 0x102, none)
  | .remu x => some (x, 0x103, none)
  | .br x => some (x, 0x00E, none)
  | .brs x => some (x, 0x00F, none)
  | .call x => some (x, 0x010, none)
  | .ret x => some (x, 0x011, none)
  | .trap x => some (x, 0x01E, none)
  | .idle x => some (x, 0x01F, none)
  | .yield x => some (x, 0x140, none)
  | .ei x => some (x, 0x141, none)
  | .di x => some (x, 0x142, none)
  | .rstkd x => some (x, 0x143, none)
  | .crc32 x => some (x, 0x114, none)
  | .crc32c x => some (x, 0x115, none)
  | .tag x => some (x, 0x01B, none)
  | .tadd x => some (x, 0x118, none)
  | .tsub x => some (x, 0x119, none)
  | .tcmp x => some (x, 0x11A, none)
  | .tnow x => some (x, 0x11B, none)
  | .xchg x => some (x, 0x124, none)
  | .cas x => some (x, 0x125, none)
  | .fadd x => some (x, 0x126, none)
  | .lockw x => some (x, 0x120, none)
  | .unlkw x => some (x, 0x121, none)
  | .lockg x => some (x, 0x122, none)
  | .unlkg x => some (x, 0x123, none)
  | .crd x => some (x, 0x128, none)
  | .cwr x => some (x, 0x129, none)
  | .check x => some (x, 0x12B, some 0)
  | .bind x => some (x, 0x12B, some 1)
  | .unbind x => some (x, 0x12B, some 2)
  | .tagget x => some (x, 0x12B, some 3)
  | .tagput x => some (x, 0x12B, some 4)
  | .alloc x => some (x, 0x12B, some 5)
  | .free x => some (x, 0x12B, some 6)
  | .copy x => some (x, 0x12A, some 1)
  | .sendHost x => some (x, 0x12A, some 2)
  | .tx x => some (x, 0x12A, some 3)
  | .toValve x => some (x, 0x12A, some 4)
  | .fromValve x => some (x, 0x12A, some 5)
  | .imageOut x => some (x, 0x12A, some 6)
  | .imageIn x => some (x, 0x12A, some 7)
  | .pumpTake x => some (x, 0x12A, some 8)
  | .event x => some (x, 0x12A, some 9)
  | .post x => some (x, 0x01A, none)
  | .ewait x => some (x, 0x133, none)
  | .qput x => some (x, 0x138, none)
  | .qputn x => some (x, 0x139, none)
  | .qget x => some (x, 0x13A, none)
  | .qgetn x => some (x, 0x13B, none)
  | .sched x => some (x, 0x130, none)
  | .unsched x => some (x, 0x131, none)
  | .sysrd x => some (x, 0x148, none)
  | .syswr x => some (x, 0x149, none)
  | .vadd x => some (x, 0x200, none)
  | .vsub x => some (x, 0x201, none)
  | .vmin x => some (x, 0x202, none)
  | .vmax x => some (x, 0x203, none)
  | .vand x => some (x, 0x204, none)
  | .vor x => some (x, 0x205, none)
  | .vxor x => some (x, 0x206, none)
  | .vcmpeq x => some (x, 0x207, none)
  | .vcmpgt x => some (x, 0x208, none)
  | .vshl x => some (x, 0x209, none)
  | .vshr x => some (x, 0x20A, none)
  | .vsel x => some (x, 0x20B, none)
  | .tperm x => some (x, 0x210, none)
  | .tperm2 x => some (x, 0x211, none)
  | .tlut x => some (x, 0x212, none)
  | .tlut16 x => some (x, 0x213, none)
  | .lvsetl x => some (x, 0x220, none)
  | .lvadd x => some (x, 0x221, none)
  | .lvsub x => some (x, 0x222, none)
  | .lvmul x => some (x, 0x223, none)
  | .lvmac x => some (x, 0x224, none)
  | .lvcmul x => some (x, 0x225, none)
  | .lvcmac x => some (x, 0x226, none)
  | .lvconj x => some (x, 0x227, none)
  | .lvsum x => some (x, 0x228, none)
  | .lvmaxi x => some (x, 0x229, none)
  | .lvbfly x => some (x, 0x22A, none)
  | .lvgath x => some (x, 0x230, none)
  | .lvgathf x => some (x, 0x231, none)
  | .lvscat x => some (x, 0x232, none)
  | .lvcopy x => some (x, 0x233, none)
  | _ => none

/-- The instruction `d`, read in state `s`, is the one that the row names.  -/
def rowSel (i : Instr) (s : State) (d : Dec) : Bool :=
  match threadRow i with
  | none => false
  | some (_, op, none) => d.op == op
  | some (x, op, some k) =>
    d.op == op && (if op = 0x12B then d.fixed == k else pumpSel k (s.pumpOp x d))

/-- The next instruction of Lx is `d`, the row `i` names it, and it issues in the turn in progress (R74, R81). -/
structure Issues (s : State) (i : Instr) (x : Nat) (d : Dec) : Prop where
  fetched : s.fetch x = .ok d
  named : rowSel i (s.landBore (lbOf x)) d = true
  granted : s.hasTurn x .issue = true
  issues : (s.landBore (lbOf x)).mayIssue x d = true

/-- It issues, its condition holds, none of its operands faults, and it operates with context `c` in state `t` (R77). -/
structure Operates (s : State) (i : Instr) (x : Nat) (c : Ctx) (t : State) : Prop where
  issued : Issues s i x c.dec
  staged : (s.landBore (lbOf x)).stage x c.dec = .go c t

/-- The state in which an instruction writes: its pointers have advanced (R120, R122). -/
def Ctx.landed (c : Ctx) (t : State) : State := advance t c.x c.ops (c.dec.wellDests c.ops)

/-- The state after an instruction that writes `v` to its destination. -/
def Ctx.wrote (c : Ctx) (t : State) (v : Nat) : State := c.put 0 v (c.landed t)

/-- Z, C, V and N of a result `r` of `w` bits with carry `cy` and overflow `ov` (R179). -/
def zcvn (w r : Nat) (cy ov : Bool) : List (Nat × Bool) :=
  [(0x000, decide (r = 0)), (0x001, cy), (0x002, ov), (0x003, bit r (w - 1))]

/-- The state after an instruction that writes `v` to its destination and then, under SETF, its flags (R179): with a
well or bit destination at once, with a reservoir or port-window one when the result is visible (R178). -/
def Ctx.result2 (c : Ctx) (t : State) (v : Nat) (cy ov : Bool) : State :=
  let later (k : Nat) := (c.wrote t v).modTh c.x (fun u => { u with
    flagsDue := u.flagsDue ++ [{ due := (c.wrote t v).strokes + k, fs := zcvn c.w v cy ov }] })
  if c.dec.setf then
    match (c.op 0).loc with
    | .res _ => later 2
    | .port _ => later 3
    | _ => (c.wrote t v).setFlags c.x (zcvn c.w v cy ov)
  else c.wrote t v

/-- The value lies outside the signed numbers of `w` bits. -/
def overflows (w : Nat) (v : Int) : Bool :=
  decide (v < -((2 ^ (w - 1) : Nat) : Int)) || decide (((2 ^ (w - 1) : Nat) : Int) - 1 < v)

/-- The writes of a result `v` that reaches d, and under SETF its flags, at a distance in turns (R78, R195). -/
def Ctx.laterWrites (c : Ctx) (v : Nat) (cy ov : Bool) : List LocWrite :=
  { loc := (c.op 0).loc, n := (c.op 0).n, v := v } ::
    (if c.dec.setf then (zcvn c.w v cy ov).map (fun f => { loc := .bit f.1, n := 1, v := b2n f.2 }) else [])

/-- The state after an instruction whose result comes `left` turns later. -/
def Ctx.launched (c : Ctx) (t : State) (left : Nat) (op : LongOp) : State :=
  (c.landed t).modTh c.x (fun u => { u with longs := u.longs ++
    [{ op := op, left := left, perStroke := false, issued := (c.landed t).strokes, pc := c.pc }] })

/-- Byte `b` of the well of Ly is one that the instruction writes: its destination or a pointer that it advances. -/
def Ctx.writesWell (c : Ctx) (y b : Nat) : Prop :=
  y = c.x ∧ ((∃ a, (c.op 0).loc = .well a ∧ a ≤ b ∧ b < a + (c.op 0).n) ∨
    (∃ o ∈ c.ops, ∃ k n, o.inc = some (k, n) ∧ 4 * k ≤ b ∧ b < 4 * k + 4))

/-! ### Frames -/

/-- Port n is ON in frame-lane mode and idle, and the frame `f` may come: its egress SFD stands where the bypass delay of a
ring pair puts it, and a step that falls between its SFDs is one that the timebase unit holds (R293, R316, R335). -/
structure Receives (s : State) (n : Fin 32) (f : RxFrame) : Prop where
  lane : s.laneMode n = true
  on : s.pstate n = 2
  clocked : s.up (3 + n.val / 4) = true
  idle : (s.port n).rxOn = false
  egress : ∀ m, s.ringPair n = some m → s.egressFits n m f = true
  step : f.stepped = true → s.stepHeld = true

/-- The transmitter of port n is free: the port is ON in frame-lane mode, the last frame and the idle after it have gone,
and TXHOLD is 0 (R298, R308, R386). -/
structure TxFree (s : State) (n : Fin 32) : Prop where
  lane : s.laneMode n = true
  on : s.pstate n = 2
  clocked : s.up (3 + n.val / 4) = true
  done : (s.port n).tx = none
  idle : s.laneIdle n = true
  free : s.txHeld n = false

/-! ### Commands and completions of the host -/

/-- `c` is the command that partition p's command processor takes next; its OP is `op`; its ring pair is enabled and has
not been disabled since it was accepted; the block is not in recovery (R455, R466, R547). -/
structure Commanded (s : State) (p op : Nat) (c : HCmd) : Prop where
  front : s.host.cmds.find? (fun d => d.r == 8 * p && d.held == .fresh) = some c
  code : c.op = op
  clocked : s.up 0 = true
  enabled : s.ringEn c.r = true
  current : c.gen = (s.ring c.r).gen
  normal : s.mram.recovery = false
  turn : s.cpPick = some p
  ready : s.cpReady = true

/-- The command `c` has completed: a record with its index, CSTAT, OP and RESULT waits to be written, and the command is
gone (R460, R466, R467). -/
def Completed (t : State) (c : HCmd) (cstat res : Nat) : Prop :=
  (∃ q ∈ t.host.recs, q.r = c.r ∧ q.w0 = 3 * 2 ^ 12 + 2 ^ 16 * c.idx ∧ q.w1 = cstat + 2 ^ 8 * c.op ∧
    q.w2 = res % 2 ^ 32 ∧ q.irq = bit (c.w 0) 10) ∧ ∀ d ∈ t.host.cmds, d.id ≠ c.id

/-- A command of a master port waits or is outstanding. -/
def Asked (t : State) (port : Nat) (write : Bool) (addr bytes : Nat) (o : MOwner) : Prop :=
  ∃ c ∈ t.host.mcmds, c.port = port ∧ c.write = write ∧ c.addr = addr ∧ c.bytes = bytes ∧ c.owner = o

/-- Why priming cannot use an image: the code of its header, manifest, signature or words, or of its configuration table
(R541, R545); 0 where it can. -/
def State.imgFault (s : State) (img : Nat) : Nat := if s.imageFail img ≠ 0 then s.imageFail img else s.ctFail img

/-! ### Valves -/

/-- Valve v runs, is not stalled, and the legal instruction word at its PC is `w` (R255, R269). -/
structure ValveAt (s : State) (v : Nat) (w : Nat) : Prop where
  clocked : s.up (3 + v / 16) = true
  runs : (s.valve v).run = true
  free : (s.valve v).stalled = false
  word : (s.valve v).word = w
  legal : vIllegal w (s.txDepth v) (s.rxDepth v) = false

/-- The valve instruction `w` ends in one cycle after its operation: its pin effects, then the next PC (R259). -/
def State.vNext (s : State) (v w pc : Nat) : State := (s.pinFx v w).vEnd v pc w

end Sys2Proof.Machine
end

