-- ==== Sys2Proof/Certificates/Slice0/Obligations.lean ====
section
/-!
DEFINITION. The statements for the provers.  Each docstring names the rules that its statement formalises, and says where
a clause is a choice of the model.
-/

open Sys2Proof Sys2Proof.Machine

/-! ### The pace governor (chapter 02) -/

/-- R39, R40, R46, R47, R52, R54, R55, R57, R58, R59, R61: DEPTH_DECREASE, PACE_WRITE, PACE_APPLY, SNAP and MS_REPORT.
The voltage request bus and holdover. Where it goes beyond these rules it follows the model's own readings of log
entries 4, 69, 93, 98. -/
def Obligations.GovernorCommands : Prop :=
  (∀ s : State, 0 < s.gov.depth → 2 ^ bits (s.reg 0x0100C) 28 24 ≤ s.gov.good →
    exec .depthDecrease s = .next { s with gov := { s.gov with depth := s.gov.depth - 1, good := 0 } }) ∧
  (∀ (w : Word) (s : State), Answers (.paceWrite w) s (fun t =>
    t.reg 0x01004 = max 800 (min 1600 (w.toNat % 2048)) ∧ (∀ o, o ≠ 0x01004 → t.reg o = s.reg o) ∧
    t.gov = { s.gov with paceCross := some s.strokes } ∧ { t with regs := s.regs, gov := s.gov } = s)) ∧
  (∀ (c : Nat) (s : State), s.gov.paceCross = some c → s.nextGate % 16 = 0 → c + 4 ≤ s.nextGate →
    exec .paceApply s =
      .next { s with gov := { s.gov with pace := max 800 (min 1600 (s.reg 0x01004 % 2048)), paceCross := none } }) ∧
  (∀ (w : Word) (s : State), Answers (.snap w) s (fun t =>
    t.gov = { s.gov with
      snapHist := s.gov.hist, snapMin := s.gov.minPs, snapSrc := s.gov.minSrc, snapStrokes := s.gov.sampled
      hist := [], minPs := 1275, minSrc := 0, minAny := false, sampled := 0 } ∧
    (∀ o, o ≠ 0x01000 → t.reg o = s.reg o) ∧ { t with regs := s.regs, gov := s.gov } = s)) ∧
  (∀ s : State, s.gov.msAt + 1000000 * 2 ^ 48 ≤ s.tb.counted →
    exec .msReport s = .next { s with
      evq := s.evq ++ [{ unit := 1, cls := 14, typ := 0x20, alarm := false, trace := true
                         arg0 := s.gov.msMin + 65536 * s.gov.msSrc, arg1 := s.gov.msLate }]
      gov := { s.gov with msMin := 1275, msSrc := 0, msAny := false, msLate := 0, msAt := s.tb.counted } }) ∧
  (∀ s : State, s.gov.req = true → exec .vreqAckRise s = .next { s with
    gov := { s.gov with req := false, acked := s.gov.code, ackAt := s.tb.counted, reqAt := none } }) ∧
  (∀ s : State, s.gov.busy = true → s.gov.req = false → s.gov.target = s.gov.code →
    exec .vreqAckFall s = .next { s with gov := { s.gov with busy := false } }) ∧
  (∀ s : State, s.gov.busy = true → s.gov.req = false → s.gov.target ≠ s.gov.code →
    bits (s.reg 0x01024) 6 0 ≤ s.gov.target → s.gov.target ≤ bits (s.reg 0x01024) 14 8 →
    exec .vreqAckFall s = .next { s with
      gov := { s.gov with code := s.gov.target, req := true, busy := true, reqAt := some s.tb.elapsed } }) ∧
  (∀ s : State, s.gov.busy = true → s.gov.req = false → bits (s.reg 0x01024) 6 0 ≤ bits (s.reg 0x01024) 14 8 →
    Answers .vreqAckFall s (fun t => t.gov.req = true →
      bits (s.reg 0x01024) 6 0 ≤ t.gov.code ∧ t.gov.code ≤ bits (s.reg 0x01024) 14 8)) ∧
  (∀ s : State, bit (s.reg 0x01000) 0 = true → s.gov.depth = 0 → s.gov.busy = false → s.gov.holdover = false →
    2 ^ bits (s.reg 0x01028) 12 8 ≤ s.gov.downGood →
    s.gov.ackAt + bits (s.reg 0x01028) 31 16 * (1000 * 2 ^ 48) ≤ s.tb.counted → bits (s.reg 0x01024) 6 0 < s.gov.code →
    s.gov.code ≤ bits (s.reg 0x01024) 14 8 + 1 →
    exec .downRequest s = .next { s with
      gov := { s.gov with code := s.gov.code - 1, target := s.gov.code - 1, req := true, busy := true
                          reqAt := some s.tb.elapsed } }) ∧
  (∀ (a : Nat) (s : State), s.gov.req = true → s.gov.reqAt = some a → bits (s.reg 0x01030) 15 0 ≠ 0 →
    a + bits (s.reg 0x01030) 15 0 * 67108864000 ≤ s.tb.elapsed →
    exec .vreqTimeout s = .next { s with
      gov := { s.gov with alarm := s.gov.alarm ||| 16, fresh := s.gov.fresh.set s.strokes 16, reqAt := none }
      evq := s.evq ++ [{ unit := 1, cls := 6, typ := 4, alarm := true, trace := false, arg0 := s.gov.alarm ||| 16, arg1 := 0 }] }) ∧
  (∀ s : State, s.tclkLost = true → s.gov.holdover = false → exec .refLost s = .next { s with
    gov := { s.gov with alarm := s.gov.alarm ||| 64, fresh := s.gov.fresh.set s.strokes 64, holdover := true }
    evq := s.evq ++ [{ unit := 1, cls := 7, typ := 6, alarm := true, trace := false, arg0 := s.gov.alarm ||| 64, arg1 := 0 }] }) ∧
  (∀ s : State, s.tclkLost = false → s.gov.holdover = true →
    exec .refRestored s = .next { s with gov := { s.gov with holdover := false } })

/-! ### Bores and threads (chapter 03) -/

/-- R11, R71, R92, R93, R94, R95, R106: WHEEL_LO_WRITE is held, WHEEL_HI_WRITE arms the pair, WHEEL_APPLY at the
boundary gives it effect. START, STOP, STEP and RESET, written to BORE_TCTRL. The write stores CLASS and the modes;
[16] clears CMD_ERR, unless the hardware has set it in the same stroke. Where it goes beyond these rules it follows
the model's own readings of log entry 34. -/
def Obligations.WheelAndThreadCommands : Prop :=
  (∀ (n : Fin 8) (w : Word) (s : State), Answers (.wheelLoWrite n w) s (fun t =>
    t.lb n = { s.lb n with wheelLo := w } ∧ (∀ m, m ≠ n.val → t.lb m = s.lb m) ∧ { t with lbs := s.lbs } = s)) ∧
  (∀ (n : Fin 8) (w : Word) (s : State), Answers (.wheelHiWrite n w) s (fun t =>
    t.lb n = { s.lb n with wheelHi := w, wheelArm := some s.strokes } ∧ (∀ m, m ≠ n.val → t.lb m = s.lb m) ∧
    { t with lbs := s.lbs } = s)) ∧
  (∀ (n : Fin 8) (c : Nat) (s : State), (s.lb n).wheelArm = some c → s.nextGate % 16 = 0 → c + 4 ≤ s.nextGate →
    Answers (.wheelApply n) s (fun t =>
      t.lb n = { s.lb n with liveLo := (s.lb n).wheelLo, liveHi := (s.lb n).wheelHi, wheelArm := none } ∧
      (∀ m, m ≠ n.val → t.lb m = s.lb m) ∧ { t with lbs := s.lbs } = s)) ∧
  (∀ (x : Fin 128) (w : Word) (s : State), (s.th x).st = .stopped → (s.th x).startReq = none → s.enabledPair x = none →
    Answers (.start x w) s (fun t =>
      t.th x = { s.th x with
        startReq := some (s.strokes + 4, false), cls := bit w.toNat 4, rsTrap := bit w.toNat 5, dzTrap := bit w.toNat 6
        imask := BitVec.ofNat 8 (bits w.toNat 15 8)
        cmdErr := (s.th x).cmdErr && !(bit w.toNat 16 && (s.th x).freshCmd.held s.strokes == 0) } ∧
      (∀ y, y ≠ x.val → t.th y = s.th y) ∧ { t with threads := s.threads } = s)) ∧
  (∀ (x : Fin 128) (w : Word) (s : State), (s.th x).running = true → bit w.toNat 4 = (s.th x).cls →
    Answers (.stop x w) s (fun t =>
      t.th x = { s.th x with
        stopReq := if (s.th x).stopReq = .none then .stop else (s.th x).stopReq
        rsTrap := bit w.toNat 5, dzTrap := bit w.toNat 6
        imask := BitVec.ofNat 8 (bits w.toNat 15 8)
        cmdErr := (s.th x).cmdErr && !(bit w.toNat 16 && (s.th x).freshCmd.held s.strokes == 0) } ∧
      (∀ y, y ≠ x.val → t.th y = s.th y) ∧ { t with threads := s.threads } = s)) ∧
  (∀ (x : Fin 128) (w : Word) (s : State), (s.th x).st = .stopped → (s.th x).startReq = none → bit w.toNat 4 = true →
    Answers (.step x w) s (fun t =>
      t.th x = { s.th x with
        startReq := some (s.strokes + 4, true), cls := true, rsTrap := bit w.toNat 5, dzTrap := bit w.toNat 6
        imask := BitVec.ofNat 8 (bits w.toNat 15 8)
        cmdErr := (s.th x).cmdErr && !(bit w.toNat 16 && (s.th x).freshCmd.held s.strokes == 0) } ∧
      (∀ y, y ≠ x.val → t.th y = s.th y) ∧ { t with threads := s.threads } = s)) ∧
  (∀ (x : Fin 128) (w : Word) (s : State), (s.th x).running = true → bit w.toNat 4 = (s.th x).cls →
    Answers (.reset x w) s (fun t =>
      t.th x = { s.th x with
        stopReq := .reset, rsTrap := bit w.toNat 5, dzTrap := bit w.toNat 6
        imask := BitVec.ofNat 8 (bits w.toNat 15 8)
        cmdErr := (s.th x).cmdErr && !(bit w.toNat 16 && (s.th x).freshCmd.held s.strokes == 0) } ∧
      (∀ y, y ≠ x.val → t.th y = s.th y) ∧ { t with threads := s.threads } = s)) ∧
  (∀ (x : Fin 128) (w : Word) (s : State), (s.th x).st = .stopped → (s.th x).startReq = none → s.pairOf x = none →
    Answers (.reset x w) s (fun t =>
      (t.th x).rs = [] ∧ (t.th x).ie = false ∧ (t.th x).pl = 8 ∧ (t.th x).longs = [] ∧ (t.th x).cis = [] ∧
      (t.th x).st = .stopped ∧ (t.th x).stopCause = 3 ∧ (t.th x).well = (s.th x).well ∧ (t.th x).pc = (s.th x).pc ∧
      (∀ y, y ≠ x.val → t.th y = s.th y) ∧
      { t with threads := s.threads, lbs := s.lbs, locks := s.locks, ecc := s.ecc, eccDue := s.eccDue, evq := s.evq } = s))

/-- R87, R92, R93, R96, R100, R102, R106, R504, R507: THREAD_FIRST_TURN, STOP_AT_BOUNDARY, STEP_COMPLETE,
TRAILER_START and PAIR_MISMATCH. INTERRUPT_ENTRY and EXCEPTION_ENTRY push the frame, clear IE, set PL and go to the
vector, whose first turn is a fill turn. Where it goes beyond these rules it follows the model's own readings of log
entries 16, 20, 21, 37, 102, 103. -/
def Obligations.ThreadStartsStopsAndEntries : Prop :=
  (∀ (x : Fin 128) (g : Nat) (b : Bool) (s : State), s.hasTurn x .first = true → (s.th x).startReq = some (g, b) →
    Answers (.threadFirstTurn x) s (fun t =>
      t.th x = { s.th x with
        st := if (s.th x).cls then .elastic else .metered, stepping := b, stepIssued := false, startReq := none
        lastPc := (s.th x).pc, owed := 0, idle := 0, exc := none, turns := (s.th x).turns + 1, stalled := false
        fetched := (t.th x).fetched } ∧
      (t.th x).fetched.map (·.1) =
        (List.range 32).map (fun k => byteAt (s.codeOf x) (((s.th x).pc.toNat + k) % 2 ^ 18)) ∧
      t.lb (lbOf x) = { s.lb (lbOf x) with turn := none } ∧ (∀ y, y ≠ x.val → t.th y = s.th y) ∧
      (∀ n, n ≠ lbOf x → t.lb n = s.lb n) ∧ t.rank = lbOf x + 1 ∧
      { t with threads := s.threads, lbs := s.lbs, rank := s.rank, ecc := s.ecc, regs := s.regs, pbs := s.pbs
               evq := s.evq } = s)) ∧
  (∀ (x : Fin 128) (s : State), (s.th x).stopReq = .stop → s.stopDue x = true → (s.th x).cutOver = none →
    s.pairOf x = none → Answers (.stopAtBoundary x) s (fun t =>
      t.th x = { s.th x with
        st := .stopped, stopCause := 1, stopReq := .none, atStop := false, yielding := false, stalled := false, stepping := false
        stepIssued := false, startReq := none
        longs := (s.th x).longs.map (fun l => { l with perStroke := true }) } ∧
      (∀ y, y ≠ x.val → t.th y = s.th y) ∧ { t with threads := s.threads } = s)) ∧
  (∀ (x : Fin 128) (s : State), (s.th x).stepping = true → (s.th x).stepIssued = true → (s.th x).running = true →
    (s.th x).owed = 0 → (s.th x).idle = 0 → (s.th x).exc = none → s.pairOf x = none → (s.th x).stopReq ≠ .reset →
    (s.th x).cutOver = none → Answers (.stepComplete x) s (fun t =>
      (t.th x).st = .stopped ∧
      (t.th x).stopCause = (if (s.th x).stopReq = .none then 2 else (s.th x).stopReq.cause (s.th x).stopCause) ∧
      (t.th x).stepping = false ∧ (t.th x).well = (s.th x).well ∧
      (t.th x).pc = (s.th x).pc ∧ (∀ y, y ≠ x.val → t.th y = s.th y) ∧ { t with threads := s.threads } = s)) ∧
  (∀ (x : Fin 128) (s : State), (s.th x).stepping = true → (s.th x).stepIssued = true → (s.th x).running = true →
    (s.th x).owed = 0 → (s.th x).idle = 0 → (s.th x).exc = none → (s.th x).stopReq = .reset →
    Answers (.stepComplete x) s (fun t => (t.th x).st = .stopped ∧ (t.th x).stopCause = 3 ∧ (t.th x).rs = [] ∧
      (∀ y, y ≠ x.val → (t.th y).well = (s.th y).well ∧ (t.th y).st = (s.th y).st))) ∧
  (∀ (k : Fin 16) (a : Nat) (s : State), (s.pair k).trailAt = some a → a ≤ s.strokes →
    Answers (.trailerStart k) s (fun t =>
      t.th (s.pairTrail k) = { s.th (s.pairTrail k) with startReq := some (a + 4, false) } ∧ (t.pair k).trailAt = none ∧
      (∀ y, y ≠ s.pairTrail k → t.th y = s.th y) ∧ { t with threads := s.threads, wh := s.wh } = s)) ∧
  (∀ (k : Fin 16) (d : Nat) (s : State), (s.pair k).diff = some d → (s.th (s.pairLead k)).running = true →
    (s.th (s.pairTrail k)).running = true → (s.th (s.pairLead k)).stopReq = .none →
    (s.th (s.pairTrail k)).stopReq = .none → Answers (.pairMismatch k) s (fun t =>
      (t.pair k).mismatch = true ∧ (t.pair k).recs = [] ∧ (t.th (s.pairLead k)).stopReq = .wellhead ∧
      (t.th (s.pairTrail k)).stopReq = .wellhead ∧
      t.evq = s.evq ++ [{ unit := 0, cls := 5, typ := 5, alarm := false, trace := false, arg0 := k
                          arg1 := (Config.detailCode 5 d (s.th (s.pairLead k)).lastPc.toNat).toNat }] ∧
      (∀ y, y ≠ s.pairLead k → y ≠ s.pairTrail k → t.th y = s.th y) ∧
      { t with threads := s.threads, wh := s.wh, evq := s.evq } = s)) ∧
  (∀ (x : Fin 128) (i : Nat) (s : State), s.irqOf x = some i → (s.th x).exc = none → s.hasTurn x .accept = true →
    s.isUe (.privBits x) 0 = false → Answers (.interruptEntry x) s (fun t =>
      (t.th x).pc = BitVec.ofNat 18 ((s.th x).vbase.toNat * 256 + 16 * (8 + i)) ∧ (t.th x).ie = false ∧
      (t.th x).pl = i ∧ (t.th x).owed = 1 ∧ (t.th x).turns = (s.th x).turns + 1 ∧
      (t.th x).rs = BitVec.ofNat 32 ((s.th x).pc.toNat + 2 ^ 18 + 2 ^ 19 * b2n (s.th x).ie + 2 ^ 20 * (s.th x).pl +
        2 ^ 24 * (b2n ((s.th x).flag 0) + 2 * b2n ((s.th x).flag 1) + 4 * b2n ((s.th x).flag 2) +
          8 * b2n ((s.th x).flag 3))) :: (s.th x).rs.take 7 ∧
      (t.th x).well = (s.th x).well ∧ (∀ y, y ≠ x.val → t.th y = s.th y) ∧
      t.rank = lbOf x + 1 ∧
      { t with threads := s.threads, lbs := s.lbs, rank := s.rank } = s)) ∧
  (∀ (x : Fin 128) (v : Nat) (ret : BitVec 18) (s : State), (s.th x).exc = some (v, ret) → v < 8 →
    s.hasTurn x .accept = true → s.isUe (.privBits x) 0 = false → Answers (.exceptionEntry x) s (fun t =>
      (t.th x).pc = BitVec.ofNat 18 ((s.th x).vbase.toNat * 256 + 16 * v) ∧ (t.th x).ie = false ∧
      (t.th x).pl = (s.th x).pl ∧ (t.th x).owed = 1 ∧ (t.th x).exc = none ∧ (t.th x).turns = (s.th x).turns + 1 ∧
      (t.th x).rs = BitVec.ofNat 32 (ret.toNat + 2 ^ 18 + 2 ^ 19 * b2n (s.th x).ie + 2 ^ 20 * (s.th x).pl +
        2 ^ 24 * (b2n ((s.th x).flag 0) + 2 * b2n ((s.th x).flag 1) + 4 * b2n ((s.th x).flag 2) +
          8 * b2n ((s.th x).flag 3))) :: (s.th x).rs.take 7 ∧
      (t.th x).well = (s.th x).well ∧ (∀ y, y ≠ x.val → t.th y = s.th y) ∧
      t.rank = lbOf x + 1 ∧
      { t with threads := s.threads, lbs := s.lbs, rank := s.rank } = s))

/-- R83, R88, R102, R175: ILLEGAL_INSTRUCTION and UNCORRECTABLE_FETCH: on a metered thread a 1-turn no-op that sets
ILL and reports its cause, on an elastic thread the ILLEGAL or ECC entry. `u` is the state in which the turn begins.
Where it goes beyond these rules it follows the model's own readings of log entry 26. -/
def Obligations.IllegalFormsByClass : Prop :=
  (∀ (x : Fin 128) (cause at_ occupied : Nat) (s u : State), s.fetch x = .illegal cause at_ occupied →
    s.hasTurn x .issue = true → s.cutDue x = false → u = s.landBore (lbOf x) → u.ecc = [] → (u.th x).st = .metered →
    Answers (.illegalInstruction x) s (fun t =>
      (t.th x).pc = BitVec.ofNat 18 ((u.th x).pc.toNat + occupied) ∧ (t.th x).flag 5 = true ∧
      (t.th x).turns = (u.th x).turns + 1 ∧ (t.th x).well = (u.th x).well ∧
      t.evq = u.evq ++ [{ unit := 7, cls := 10, typ := 0x20, alarm := false, trace := false, arg0 := x + 2 ^ 8 * cause
                          arg1 := (u.th x).pc.toNat, at_ := u.strokes + 4, head := some (u.nextByte x 0).1.toNat }] ∧
      (∀ y, y ≠ x.val → t.th y = u.th y) ∧
      { t with threads := u.threads, lbs := u.lbs, rank := u.rank, evq := u.evq } = u)) ∧
  (∀ (x : Fin 128) (cause at_ occupied : Nat) (s u : State), s.fetch x = .illegal cause at_ occupied →
    s.hasTurn x .issue = true → s.cutDue x = false → u = s.landBore (lbOf x) → u.ecc = [] → (u.th x).st = .elastic →
    Answers (.illegalInstruction x) s (fun t =>
      (t.th x).pc = BitVec.ofNat 18 ((u.th x).vbase.toNat * 256) ∧ (t.th x).ie = false ∧ (t.th x).owed = 1 ∧
      (t.th x).rs.length = min 8 ((u.th x).rs.length + 1) ∧ (t.th x).well = (u.th x).well ∧
      (∀ y, y ≠ x.val → t.th y = u.th y) ∧
      { t with threads := u.threads, lbs := u.lbs, rank := u.rank } = u)) ∧
  (∀ (x : Fin 128) (i : Nat) (s u : State), s.fetch x = .ue i → s.hasTurn x .issue = true → s.cutDue x = false →
    u = s.landBore (lbOf x) → (u.th x).st = .metered → u.isUe (.privBits x) 0 = false →
    Answers (.uncorrectableFetch x) s (fun t =>
      (t.th x).pc = BitVec.ofNat 18 ((u.th x).pc.toNat + (i + 1)) ∧ (t.th x).flag 5 = true ∧
      (t.th x).turns = (u.th x).turns + 1 ∧ (t.th x).well = (u.th x).well ∧ (∀ y, y ≠ x.val → t.th y = u.th y) ∧
      { t with threads := u.threads, lbs := u.lbs, rank := u.rank, pbs := u.pbs, ecc := u.ecc, eccDue := u.eccDue
               regs := u.regs, evq := u.evq } = u)) ∧
  (∀ (x : Fin 128) (i : Nat) (s u : State), s.fetch x = .ue i → s.hasTurn x .issue = true → s.cutDue x = false →
    u = s.landBore (lbOf x) → (u.th x).st = .elastic → Answers (.uncorrectableFetch x) s (fun t =>
      (t.th x).pc = BitVec.ofNat 18 ((u.th x).vbase.toNat * 256 + 16) ∧ (t.th x).ie = false ∧ (t.th x).owed = 1 ∧
      (t.th x).rs.length = min 8 ((u.th x).rs.length + 1) ∧ (t.th x).well = (u.th x).well ∧
      (∀ y, y ≠ x.val → t.th y = u.th y) ∧
      { t with threads := u.threads, lbs := u.lbs, rank := u.rank, pbs := u.pbs, ecc := u.ecc, eccDue := u.eccDue
               regs := u.regs, evq := u.evq } = u))

/-! ### Instructions of a thread (chapters 03 to 07)

`Operates s i x c t`: from `s` the next instruction of Lx is the one that row `i` names, it issues in the turn in
progress, its condition holds, no operand faults, and it operates with context `c` in state `t`; `c.val k` is the value
read of operand `k`. -/

/-- R74, R77, R85, R102, R110, R128, R147, R151: up to OPERATE an instruction spends its turn, moves the PC past
itself, and FETCH adds to the prefetch queue; what else can change are ECC records of corrected words and the record
of a running pair. `u` is the state in which its turn begins. Under every row of a thread, an instruction whose
condition is false writes nothing, and one with a faulting operand records the fault and takes its consequence. A
faulting operand writes no memory: BORE_TFAULT holds the fault, a metered thread gets ILL and its event, an elastic
thread the exception at its next turn, whose return address is the instruction. Where it goes beyond these rules it
follows the model's own readings of log entry 28. -/
def Obligations.OperandsReadAndFaulted : Prop :=
  (∀ (i : Instr) (x : Fin 128) (c : Ctx) (s t u : State), Operates s i x c t → u = s.landBore (lbOf x) →
    c.x = x ∧ c.pc = (u.th x).pc.toNat ∧
    t.th x = { u.th x with
      pc := BitVec.ofNat 18 ((u.th x).pc.toNat + c.dec.len), lastPc := (u.th x).pc, turns := (u.th x).turns + 1
      stalled := false, stepIssued := (u.th x).stepping, fetched := (t.th x).fetched
      turnsAt := (u.th x).turnsAt.filter (fun k => u.strokes < k + 4) ++ [u.strokes] } ∧
    (∀ q k : Nat, q = ((u.th x).fetched.drop c.dec.len).length → k = (if q = 0 then 32 else min 16 (32 - q)) →
      (t.th x).fetched.map (·.1) = ((u.th x).fetched.drop c.dec.len).map (·.1) ++
        (List.range k).map (fun j => byteAt (u.codeOf x) (((t.th x).pc.toNat + q + j) % 2 ^ 18))) ∧
    (∀ y, y ≠ x.val → t.th y = u.th y) ∧ t.lb (lbOf x) = { u.lb (lbOf x) with turn := none } ∧
    (∀ n, n ≠ lbOf x → t.lb n = u.lb n) ∧ t.rank = lbOf x + 1 ∧
    { t with threads := u.threads, lbs := u.lbs, rank := u.rank, ecc := u.ecc, eccDue := u.eccDue, regs := u.regs
             pbs := u.pbs, evq := u.evq, wh := u.wh } = u) ∧
  (∀ (i : Instr) (x : Fin 128) (o : Nat) (k : Option Nat) (d : Dec) (s t : State), threadRow i = some (x, o, k) →
    Issues s i x d → (s.landBore (lbOf x)).stage x d = .pass t → exec i s = .next (t.modTh x (fun u => u.passes d))) ∧
  (∀ (i : Instr) (x : Fin 128) (o : Nat) (k : Option Nat) (d : Dec) (f : Flt) (s t : State),
    threadRow i = some (x, o, k) → Issues s i x d → (s.landBore (lbOf x)).stage x d = .fault f t →
    exec i s = .next (t.takeFault x ((s.landBore (lbOf x)).th x).pc.toNat d f)) ∧
  (∀ (x : Fin 128) (pc : Nat) (d : Dec) (f : Flt) (s : State), (s.th x).st = .elastic → f.word = none →
    bit (s.th x).tfault.toNat 31 = false →
    s.takeFault x pc d f = s.modTh x (fun u => { u with
      tfault := BitVec.ofNat 32 (f.addr % 2 ^ 20 + 2 ^ 20 * f.space + 2 ^ 24 * f.cause + 2 ^ 26 * f.half +
        2 ^ 27 * f.detail + 2 ^ 31)
      freshFault := u.freshFault.set s.strokes (2 ^ 31)
      exc := some (if f.cause = 2 then 1 else 2, BitVec.ofNat 18 pc) })) ∧
  (∀ (x : Fin 128) (pc : Nat) (d : Dec) (f : Flt) (s t : State), (s.th x).st = .metered → f.word = none →
    s.isUe (.privBits x) 0 = false → t = s.takeFault x pc d f →
    (t.th x).flag 5 = true ∧ (t.th x).well = (s.th x).well ∧ (t.th x).exc = (s.th x).exc ∧
    (∀ a, a ≠ 5 → (t.th x).flag a = (s.th x).flag a) ∧
    (bit (s.th x).tfault.toNat 31 = true → (t.th x).tfault = (s.th x).tfault ||| 0x40000000#32) ∧
    t.evq.getLast? = some { unit := 7, cls := 10, typ := 0x20, alarm := false, trace := false
                            arg0 := x + 2 ^ 8 * (if f.cause = 2 then 0x40 else 0x41), arg1 := pc
                            at_ := s.strokes + 4, place := some (f.space, f.addr) } ∧
    (s.eccOf (.privBits x) 0 = none → t.evq.length = s.evq.length + 1) ∧ (∀ y, y ≠ x.val → t.th y = s.th y) ∧
    { t with threads := s.threads, ecc := s.ecc, eccDue := s.eccDue, evq := s.evq } = s)

/-- R74, R76, R115, R116, R124, R128, R136, R180: the WRITE of a destination, form by form: a well operand now, a
reservoir operand two strokes later, a private or shared bit now, a global bit and the port window for all to see
later; nothing else. What the one-result instructions of chapter 06 leave: of the memories of the bores only the
destination and the pointers that advance change, of the flags only Z, C, V and N; every other thread stays as it was.
`u` is the state in which the turn begins. Where it goes beyond these rules it follows the model's own readings of log
entries 24, 25, 29, 105. -/
def Obligations.DestinationFormsAndFrames : Prop :=
  (∀ (x pc a n v : Nat) (at_ : Bool) (s t : State), t = writeLoc s x pc at_ (.well a) n v →
    (∀ b, byteAt (t.th x).well b =
      if a ≤ b ∧ b < a + n then BitVec.ofNat 8 (v / 256 ^ (b - a)) else byteAt (s.th x).well b) ∧
    { t.th x with well := (s.th x).well } = s.th x ∧ (∀ y, y ≠ x → t.th y = s.th y) ∧
    { t with threads := s.threads, ecc := s.ecc, eccDue := s.eccDue, evq := s.evq } = s) ∧
  (∀ (x pc a n v : Nat) (at_ : Bool) (s t : State), t = writeLoc s x pc at_ (.res a) n v →
    t.lb (lbOf x) = { s.lb (lbOf x) with resPend := (s.lb (lbOf x)).resPend ++
      [{ due := s.strokes + 2, x := x, addr := a, n := n, v := v, atom := at_ }] } ∧
    (∀ m, m ≠ lbOf x → t.lb m = s.lb m) ∧ { t with lbs := s.lbs } = s) ∧
  (∀ (x pc a n v : Nat) (at_ : Bool) (s t : State), a < 0x1000 → t = writeLoc s x pc at_ (.bit a) n v →
    (∀ b, (t.th x).flag b =
      if b = a ∧ privReserved a = false ∧ ¬(v % 2 = 0 ∧ bit ((s.th x).freshBits.held s.strokes) a = true) then v % 2 == 1
      else (s.th x).flag b) ∧
    { t.th x with bits := (s.th x).bits, flagsDue := (s.th x).flagsDue } = s.th x ∧ (∀ y, y ≠ x → t.th y = s.th y) ∧
    { t with threads := s.threads, ecc := s.ecc, eccDue := s.eccDue, evq := s.evq } = s) ∧
  (∀ (x pc a n v : Nat) (at_ : Bool) (s t : State), 0x1000 ≤ a → a < 0x3000 → t = writeLoc s x pc at_ (.bit a) n v →
    (∀ b, tget false (t.lb (lbOf x)).shared b = if b = a then v % 2 == 1 else tget false (s.lb (lbOf x)).shared b) ∧
    { t.lb (lbOf x) with shared := (s.lb (lbOf x)).shared } = s.lb (lbOf x) ∧ (∀ m, m ≠ lbOf x → t.lb m = s.lb m) ∧
    { t with lbs := s.lbs, ecc := s.ecc, eccDue := s.eccDue, evq := s.evq } = s) ∧
  (∀ (x pc a n v : Nat) (at_ : Bool) (s : State), 0x3000 ≤ a → s.pairOf x = none →
    writeLoc s x pc at_ (.bit a) n v = { s with
      gpend := s.gpend ++ [{ at_ := s.strokes + 1, rank := lbOf x, addr := a, v := some (v % 2 == 1) }] }) ∧
  (∀ (x pc off v : Nat) (at_ : Bool) (s : State), s.pairOf x = none →
    writeLoc s x pc at_ (.port off) 4 v = { s with winPend := s.winPend ++
      [{ due := s.strokes + 3, rank := lbOf x, x := x, pc := pc, off := off, v := BitVec.ofNat 32 v }] } ∧
    writeLoc s x pc at_ (.port off) 8 v = { s with winPend := s.winPend ++
      [{ due := s.strokes + 3, rank := lbOf x, x := x, pc := pc, off := off, v := BitVec.ofNat 32 v },
       { due := s.strokes + 3, rank := lbOf x, x := x, pc := pc, off := off + 4, v := BitVec.ofNat 32 (v / 2 ^ 32) }] }) ∧
  (∀ (x : Fin 128) (i : Instr) (c : Ctx) (s t u : State),
    i ∈ [.mov x, .sel x, .bmov x, .bset x, .bclr x, .add x, .adc x, .sub x, .sbc x, .adds x, .subs x, .inc x, .dec x,
      .neg x, .abs x, .min x, .max x, .minu x, .maxu x, .cmp x, .and x, .or x, .xor x, .tst x, .btst x, .clz x, .popc x,
      .bswap x, .bfx x, .bfi x, .shl x, .shr x, .sar x, .rol x, .tag x, .tadd x, .tsub x, .tcmp x,
      .vadd x, .vsub x, .vmin x, .vmax x, .vand x, .vor x, .vxor x, .vcmpeq x, .vcmpgt x, .vshl x, .vshr x, .vsel x,
      .tperm x, .tperm2 x, .tlut x, .tlut16 x] →
    Operates s i x c t → u = s.landBore (lbOf x) → Answers i s (fun r =>
      (∀ y b, ¬ c.writesWell y b → byteAt (r.th y).well b = byteAt (u.th y).well b) ∧
      (∀ n, (r.lb n).res = (u.lb n).res ∧ (r.lb n).code0 = (u.lb n).code0 ∧ (r.lb n).code1 = (u.lb n).code1) ∧
      (∀ a, 4 ≤ a → a ≠ 0x008 → (c.op 0).loc ≠ .bit a → (r.th x).flag a = (u.th x).flag a) ∧
      (r.th x).rs = (u.th x).rs ∧ (r.th x).ie = (u.th x).ie ∧ (r.th x).pl = (u.th x).pl ∧
      (∀ y, y ≠ x.val → r.th y = u.th y) ∧
      { r with threads := u.threads, lbs := u.lbs, rank := u.rank, gpend := u.gpend, winPend := u.winPend, ecc := u.ecc
               eccDue := u.eccDue, regs := u.regs, pbs := u.pbs, evq := u.evq, wh := u.wh } = u))

/-- R117, R183, R184, R187, R188: NOP, MOV, SWAP, SEL, BMOV, BSET, BCLR, BNOT. AND, OR, XOR, TST, BTST, CLZ, POPC,
BSWAP, BFX and BFI. -/
def Obligations.MoveBitAndLogicResults : Prop :=
  (∀ (x : Fin 128) (c : Ctx) (s t : State), Operates s (.nop x) x c t → exec (.nop x) s = .next (c.landed t)) ∧
  (∀ (x : Fin 128) (c : Ctx) (s t : State), Operates s (.mov x) x c t →
    exec (.mov x) s = .next (c.result2 t (c.val 1 % 2 ^ c.w) false false)) ∧
  (∀ (x : Fin 128) (c : Ctx) (s t : State), Operates s (.swap x) x c t →
    exec (.swap x) s = .next (c.put 1 (c.val 0) (c.wrote t (c.val 1)))) ∧
  (∀ (x : Fin 128) (c : Ctx) (s t : State), Operates s (.sel x) x c t →
    exec (.sel x) s = .next
      (c.result2 t ((if (t.th x).flag 0x00F then c.val 1 else c.val 2) % 2 ^ c.w) false false)) ∧
  (∀ (x : Fin 128) (c : Ctx) (s t : State), Operates s (.bmov x) x c t →
    exec (.bmov x) s = .next (c.result2 t (if c.val 1 = 0 then 0 else 1) false false)) ∧
  (∀ (x : Fin 128) (c : Ctx) (s t : State), Operates s (.bset x) x c t →
    exec (.bset x) s = .next (c.result2 t 1 false false)) ∧
  (∀ (x : Fin 128) (c : Ctx) (s t : State), Operates s (.bclr x) x c t →
    exec (.bclr x) s = .next (c.result2 t 0 false false)) ∧
  (∀ (x : Fin 128) (a : Nat) (c : Ctx) (s t : State), Operates s (.bnot x) x c t → (c.op 0).loc = .bit a →
    exec (.bnot x) s = .next ((c.landed t).bitPut x c.pc a none)) ∧
  (∀ (x : Fin 128) (c : Ctx) (s t : State), Operates s (.bnot x) x c t → (∀ a, (c.op 0).loc ≠ .bit a) →
    exec (.bnot x) s = .next (c.result2 t (if c.val 0 = 0 then 1 else 0) false false)) ∧
  (∀ (x : Fin 128) (c : Ctx) (s t : State), Operates s (.and x) x c t →
    exec (.and x) s = .next (c.result2 t (c.val 1 &&& c.val 2) false false)) ∧
  (∀ (x : Fin 128) (c : Ctx) (s t : State), Operates s (.or x) x c t →
    exec (.or x) s = .next (c.result2 t (c.val 1 ||| c.val 2) false false)) ∧
  (∀ (x : Fin 128) (c : Ctx) (s t : State), Operates s (.xor x) x c t →
    exec (.xor x) s = .next (c.result2 t (c.val 1 ^^^ c.val 2) false false)) ∧
  (∀ (x : Fin 128) (c : Ctx) (s t : State), Operates s (.tst x) x c t →
    exec (.tst x) s = .next ((c.landed t).setFlags x (zcvn c.w (c.val 0 &&& c.val 1) false false))) ∧
  (∀ (x : Fin 128) (b : Bool) (c : Ctx) (s t : State), Operates s (.btst x) x c t →
    b = bit (c.val 0) (c.val 1 % c.w) →
    exec (.btst x) s = .next ((c.landed t).setFlags x [(0x000, !b), (0x001, b)])) ∧
  (∀ (x : Fin 128) (c : Ctx) (s t : State), Operates s (.clz x) x c t →
    exec (.clz x) s = .next (c.result2 t
      ((List.range c.w).takeWhile (fun k => !bit (c.val 1) (c.w - 1 - k))).length (decide (c.val 1 = 0)) false)) ∧
  (∀ (x : Fin 128) (c : Ctx) (s t : State), Operates s (.popc x) x c t →
    exec (.popc x) s = .next (c.result2 t ((List.range c.w).countP (bit (c.val 1))) false false)) ∧
  (∀ (x : Fin 128) (c : Ctx) (s t : State), Operates s (.bswap x) x c t →
    exec (.bswap x) s = .next (c.result2 t (ofBytes (toBytes c.dec.size (c.val 1)).reverse) false false)) ∧
  (∀ (x : Fin 128) (pos top : Nat) (c : Ctx) (s t : State), Operates s (.bfx x) x c t →
    pos = bits (c.val 2) 5 0 → pos < c.w → top = min (pos + bits (c.val 2) 13 8) (c.w - 1) →
    exec (.bfx x) s = .next (c.result2 t
      (if bit (c.val 2) 15 then wrap c.w (sgn (top + 1 - pos) (bits (c.val 1) top pos)) else bits (c.val 1) top pos)
      false false)) ∧
  (∀ (x : Fin 128) (c : Ctx) (s t : State), Operates s (.bfx x) x c t → c.w ≤ bits (c.val 2) 5 0 →
    exec (.bfx x) s = .next (c.result2 t 0 false false)) ∧
  (∀ (x : Fin 128) (pos n v : Nat) (c : Ctx) (s t : State), Operates s (.bfi x) x c t →
    pos = bits (c.val 2) 5 0 → pos < c.w → n = min (bits (c.val 2) 13 8 + 1) (c.w - pos) →
    (∀ k, bit v k = if pos ≤ k ∧ k < pos + n then bit (c.val 1) (k - pos) else bit (c.val 0) k) →
    exec (.bfi x) s = .next (c.result2 t v false false)) ∧
  (∀ (x : Fin 128) (c : Ctx) (s t : State), Operates s (.bfi x) x c t → c.w ≤ bits (c.val 2) 5 0 →
    exec (.bfi x) s = .next (c.result2 t (c.val 0) false false))

/-- R179, R185, R186: ADD, ADC, SUB, SBC, ADDS, SUBS, INC, DEC, NEG, ABS, MIN, MAX, MINU, MAXU and CMP: the result,
its carry or borrow, its overflow. -/
def Obligations.AdditionResultsAndFlags : Prop :=
  (∀ (x : Fin 128) (c : Ctx) (s t : State), Operates s (.add x) x c t →
    exec (.add x) s = .next (c.result2 t ((c.val 1 + c.val 2) % 2 ^ c.w) (decide (2 ^ c.w - 1 < c.val 1 + c.val 2))
      (overflows c.w (sgn c.w (c.val 1) + sgn c.w (c.val 2))))) ∧
  (∀ (x : Fin 128) (k : Nat) (c : Ctx) (s t : State), Operates s (.adc x) x c t → k = b2n ((t.th x).flag 1) →
    exec (.adc x) s = .next (c.result2 t ((c.val 1 + c.val 2 + k) % 2 ^ c.w)
      (decide (2 ^ c.w - 1 < c.val 1 + c.val 2 + k)) (overflows c.w (sgn c.w (c.val 1) + sgn c.w (c.val 2) + k)))) ∧
  (∀ (x : Fin 128) (c : Ctx) (s t : State), Operates s (.sub x) x c t →
    exec (.sub x) s = .next (c.result2 t (wrap c.w (c.val 1 - c.val 2 : Int)) (decide (c.val 1 < c.val 2))
      (overflows c.w (sgn c.w (c.val 1) - sgn c.w (c.val 2))))) ∧
  (∀ (x : Fin 128) (k : Nat) (c : Ctx) (s t : State), Operates s (.sbc x) x c t → k = b2n ((t.th x).flag 1) →
    exec (.sbc x) s = .next (c.result2 t (wrap c.w (c.val 1 - c.val 2 - k : Int)) (decide (c.val 1 < c.val 2 + k))
      (overflows c.w (sgn c.w (c.val 1) - sgn c.w (c.val 2) - k)))) ∧
  (∀ (x : Fin 128) (e : Int) (c : Ctx) (s t : State), Operates s (.adds x) x c t →
    e = sgn c.w (c.val 1) + sgn c.w (c.val 2) →
    exec (.adds x) s = .next (c.result2 t (wrap c.w (max (-((2 ^ (c.w - 1) : Nat) : Int))
      (min (((2 ^ (c.w - 1) : Nat) : Int) - 1) e))) false (overflows c.w e))) ∧
  (∀ (x : Fin 128) (e : Int) (c : Ctx) (s t : State), Operates s (.subs x) x c t →
    e = sgn c.w (c.val 1) - sgn c.w (c.val 2) →
    exec (.subs x) s = .next (c.result2 t (wrap c.w (max (-((2 ^ (c.w - 1) : Nat) : Int))
      (min (((2 ^ (c.w - 1) : Nat) : Int) - 1) e))) false (overflows c.w e))) ∧
  (∀ (x : Fin 128) (c : Ctx) (s t : State), Operates s (.inc x) x c t →
    exec (.inc x) s = .next (c.result2 t ((c.val 0 + 1) % 2 ^ c.w) (decide (c.val 0 = 2 ^ c.w - 1))
      (decide (sgn c.w (c.val 0) = 2 ^ (c.w - 1) - 1)))) ∧
  (∀ (x : Fin 128) (c : Ctx) (s t : State), Operates s (.dec x) x c t →
    exec (.dec x) s = .next (c.result2 t (wrap c.w (c.val 0 - 1 : Int)) (decide (c.val 0 = 0))
      (decide (sgn c.w (c.val 0) = -(2 ^ (c.w - 1)))))) ∧
  (∀ (x : Fin 128) (c : Ctx) (s t : State), Operates s (.neg x) x c t →
    exec (.neg x) s = .next (c.result2 t (wrap c.w (0 - c.val 1 : Int)) (decide (0 < c.val 1))
      (decide (sgn c.w (c.val 1) = -(2 ^ (c.w - 1)))))) ∧
  (∀ (x : Fin 128) (c : Ctx) (s t : State), Operates s (.abs x) x c t → c.val 1 < 2 ^ c.w → 0 < c.w →
    exec (.abs x) s = .next (c.result2 t (sgn c.w (c.val 1)).natAbs false
      (decide (sgn c.w (c.val 1) = -(2 ^ (c.w - 1)))))) ∧
  (∀ (x : Fin 128) (c : Ctx) (s t : State), Operates s (.min x) x c t →
    exec (.min x) s = .next (c.result2 t (if sgn c.w (c.val 2) < sgn c.w (c.val 1) then c.val 2 else c.val 1) false false)) ∧
  (∀ (x : Fin 128) (c : Ctx) (s t : State), Operates s (.max x) x c t →
    exec (.max x) s = .next (c.result2 t (if sgn c.w (c.val 1) < sgn c.w (c.val 2) then c.val 2 else c.val 1) false false)) ∧
  (∀ (x : Fin 128) (c : Ctx) (s t : State), Operates s (.minu x) x c t →
    exec (.minu x) s = .next (c.result2 t (min (c.val 1) (c.val 2)) false false)) ∧
  (∀ (x : Fin 128) (c : Ctx) (s t : State), Operates s (.maxu x) x c t →
    exec (.maxu x) s = .next (c.result2 t (max (c.val 1) (c.val 2)) false false)) ∧
  (∀ (x : Fin 128) (c : Ctx) (s t : State), Operates s (.cmp x) x c t →
    exec (.cmp x) s = .next ((c.landed t).setFlags x (zcvn c.w (wrap c.w (c.val 0 - c.val 1 : Int))
      (decide (c.val 0 < c.val 1)) (overflows c.w (sgn c.w (c.val 0) - sgn c.w (c.val 1))))))

/-- R189, R190: SHL, SHR, SAR and ROL for every count: the last bit shifted out is C. -/
def Obligations.ShiftResultsAndCarry : Prop :=
  (∀ (x : Fin 128) (c : Ctx) (s t : State), Operates s (.shl x) x c t → c.val 2 = 0 →
    exec (.shl x) s = .next (c.result2 t (c.val 1) false false)) ∧
  (∀ (x : Fin 128) (c : Ctx) (s t : State), Operates s (.shl x) x c t → 0 < c.val 2 → c.val 2 < c.w →
    exec (.shl x) s = .next (c.result2 t (c.val 1 * 2 ^ c.val 2 % 2 ^ c.w) (bit (c.val 1) (c.w - c.val 2)) false)) ∧
  (∀ (x : Fin 128) (c : Ctx) (s t : State), Operates s (.shl x) x c t → 0 < c.val 2 → c.w ≤ c.val 2 →
    exec (.shl x) s = .next (c.result2 t 0 (decide (c.val 2 = c.w) && bit (c.val 1) 0) false)) ∧
  (∀ (x : Fin 128) (c : Ctx) (s t : State), Operates s (.shr x) x c t → c.val 2 = 0 →
    exec (.shr x) s = .next (c.result2 t (c.val 1) false false)) ∧
  (∀ (x : Fin 128) (c : Ctx) (s t : State), Operates s (.shr x) x c t → 0 < c.val 2 → c.val 2 < c.w →
    exec (.shr x) s = .next (c.result2 t (c.val 1 / 2 ^ c.val 2) (bit (c.val 1) (c.val 2 - 1)) false)) ∧
  (∀ (x : Fin 128) (c : Ctx) (s t : State), Operates s (.shr x) x c t → 0 < c.val 2 → c.w ≤ c.val 2 →
    exec (.shr x) s = .next (c.result2 t 0 (decide (c.val 2 = c.w) && bit (c.val 1) (c.w - 1)) false)) ∧
  (∀ (x : Fin 128) (c : Ctx) (s t : State), Operates s (.sar x) x c t → c.val 2 = 0 →
    exec (.sar x) s = .next (c.result2 t (c.val 1) false false)) ∧
  (∀ (x : Fin 128) (c : Ctx) (s t : State), Operates s (.sar x) x c t → 0 < c.val 2 → c.val 2 < c.w →
    exec (.sar x) s = .next
      (c.result2 t (wrap c.w (sgn c.w (c.val 1) / 2 ^ c.val 2)) (bit (c.val 1) (c.val 2 - 1)) false)) ∧
  (∀ (x : Fin 128) (c : Ctx) (s t : State), Operates s (.sar x) x c t → 0 < c.val 2 → c.w ≤ c.val 2 →
    exec (.sar x) s = .next (c.result2 t (if bit (c.val 1) (c.w - 1) then 2 ^ c.w - 1 else 0)
      (bit (c.val 1) (c.w - 1)) false)) ∧
  (∀ (x : Fin 128) (k r : Nat) (c : Ctx) (s t : State), Operates s (.rol x) x c t → k = c.val 2 % c.w →
    c.val 1 < 2 ^ c.w → r = c.val 1 * 2 ^ k % 2 ^ c.w + c.val 1 / 2 ^ (c.w - k) →
    exec (.rol x) s = .next (c.result2 t r (bit r 0) false))

/-- R191, R192, R193, R195: MUL, MULH, MULHU and the divisions: the result comes 2, 3 or 10 turns later; a division by
zero gives 0 or the dividend and DZ, on an elastic thread at once. -/
def Obligations.MultiplyAndDivideLaunches : Prop :=
  (∀ (x : Fin 128) (p : Nat) (c : Ctx) (s t : State), Operates s (.mul x) x c t → p = c.val 1 * c.val 2 →
    exec (.mul x) s = .next (c.launched t 2 (.arith (c.laterWrites (p % 2 ^ c.w) (decide (2 ^ c.w - 1 < p))
      (overflows c.w (sgn c.w (c.val 1) * sgn c.w (c.val 2))))))) ∧
  (∀ (x : Fin 128) (c : Ctx) (s t : State), Operates s (.mulh x) x c t →
    exec (.mulh x) s = .next (c.launched t 3 (.arith (c.laterWrites
      (wrap c.w (sgn c.w (c.val 1) * sgn c.w (c.val 2) / 2 ^ c.w)) false false)))) ∧
  (∀ (x : Fin 128) (c : Ctx) (s t : State), Operates s (.mulhu x) x c t →
    exec (.mulhu x) s = .next (c.launched t 3 (.arith (c.laterWrites (c.val 1 * c.val 2 / 2 ^ c.w) false false)))) ∧
  (∀ (x : Fin 128) (c : Ctx) (s t : State), Operates s (.div x) x c t → c.val 2 ≠ 0 →
    exec (.div x) s = .next (c.launched t 10 (.arith (c.laterWrites
      (wrap c.w (Int.tdiv (sgn c.w (c.val 1)) (sgn c.w (c.val 2)))) false
      (decide (sgn c.w (c.val 1) = -(2 ^ (c.w - 1)) ∧ sgn c.w (c.val 2) = -1)))))) ∧
  (∀ (x : Fin 128) (c : Ctx) (s t : State), Operates s (.divu x) x c t → c.val 2 ≠ 0 →
    exec (.divu x) s = .next (c.launched t 10 (.arith (c.laterWrites (c.val 1 / c.val 2) false false)))) ∧
  (∀ (x : Fin 128) (c : Ctx) (s t : State), Operates s (.rem x) x c t → c.val 2 ≠ 0 →
    exec (.rem x) s = .next (c.launched t 10 (.arith (c.laterWrites
      (wrap c.w (Int.tmod (sgn c.w (c.val 1)) (sgn c.w (c.val 2)))) false false)))) ∧
  (∀ (x : Fin 128) (c : Ctx) (s t : State), Operates s (.remu x) x c t → c.val 2 ≠ 0 →
    exec (.remu x) s = .next (c.launched t 10 (.arith (c.laterWrites (c.val 1 % c.val 2) false false)))) ∧
  (∀ (x : Fin 128) (i : Instr) (c : Ctx) (s t : State), i ∈ [.div x, .divu x] → Operates s i x c t → c.val 2 = 0 →
    t.elastic x = false → exec i s = .next (c.launched t 10 (.arith (c.laterWrites 0 false false ++
      [{ loc := .bit 4, n := 1, v := 1 }])))) ∧
  (∀ (x : Fin 128) (i : Instr) (c : Ctx) (s t : State), i ∈ [.rem x, .remu x] → Operates s i x c t → c.val 2 = 0 →
    t.elastic x = false → exec i s = .next (c.launched t 10 (.arith (c.laterWrites (c.val 1) false false ++
      [{ loc := .bit 4, n := 1, v := 1 }])))) ∧
  (∀ (x : Fin 128) (i : Instr) (r : Nat) (c : Ctx) (s t u : State), i ∈ [.div x, .divu x, .rem x, .remu x] →
    Operates s i x c t → c.val 2 = 0 → t.elastic x = true → (i ∈ [.div x, .divu x] → r = 0) →
    (i ∈ [.rem x, .remu x] → r = c.val 1) → u = (c.result2 t r false false).setFlag x 4 true →
    exec i s = .next (if (u.th x).dzTrap then
      u.modTh x (fun v => { v with exc := some (4, BitVec.ofNat 18 (c.pc + c.dec.len)) }) else u))

/-- R86, R96, R97, R98, R163, R196, R200: BR, BRS, CALL, RET, EI, DI: the target, the return stack, the fill turn. -/
def Obligations.ControlTransfers : Prop :=
  (∀ (x : Fin 128) (c : Ctx) (s t : State), Operates s (.br x) x c t →
    exec (.br x) s = .next ((c.landed t).modTh x (fun u => { u with
      pc := BitVec.ofNat 18 (wrap 18 ((c.pc : Int) + sgn 16 c.dec.fixed)), owed := 1, fetched := [] }))) ∧
  (∀ (x : Fin 128) (c : Ctx) (s t : State), Operates s (.brs x) x c t →
    exec (.brs x) s = .next ((c.landed t).modTh x (fun u => { u with
      pc := BitVec.ofNat 18 (wrap 18 ((c.pc : Int) + sgn 8 c.dec.fixed)), owed := 1, fetched := [] }))) ∧
  (∀ (x : Fin 128) (c : Ctx) (s t : State), Operates s (.call x) x c t → (t.th x).rs.length < 8 →
    ((t.th x).rs.length = 7 → (t.th x).rsTrap = true → t.elastic x = false) →
    exec (.call x) s = .next ((c.landed t).modTh x (fun u => { u with
      pc := BitVec.ofNat 18 (wrap 18 ((c.pc : Int) + sgn 16 c.dec.fixed)), owed := 1, fetched := []
      rs := BitVec.ofNat 32 (BitVec.ofNat 18 (c.pc + c.dec.len)).toNat :: u.rs }))) ∧
  (∀ (x : Fin 128) (c : Ctx) (s t : State), Operates s (.call x) x c t → (t.th x).rs.length = 7 →
    (t.th x).rsTrap = true → t.elastic x = true →
    exec (.call x) s = .next ((c.landed t).modTh x (fun u => { u with exc := some (3, BitVec.ofNat 18 c.pc) }))) ∧
  (∀ (x : Fin 128) (c : Ctx) (s t : State), Operates s (.call x) x c t → (t.th x).rs.length = 8 →
    ((t.th x).rsTrap = false ∨ t.elastic x = true) → Answers (.call x) s (fun r =>
      (r.th x).rs = BitVec.ofNat 32 (BitVec.ofNat 18 (c.pc + c.dec.len)).toNat :: (t.th x).rs.take 7 ∧
      (r.th x).flag 6 = true ∧ (r.th x).pc = BitVec.ofNat 18 (wrap 18 ((c.pc : Int) + sgn 16 c.dec.fixed)))) ∧
  (∀ (x : Fin 128) (e : Word) (es : List Word) (c : Ctx) (s t : State), Operates s (.ret x) x c t →
    (t.th x).rs = e :: es → bit e.toNat 18 = false →
    exec (.ret x) s = .next ((c.landed t).modTh x (fun u => { u with
      rs := es, pc := BitVec.ofNat 18 e.toNat, owed := 1, fetched := [] }))) ∧
  (∀ (x : Fin 128) (e : Word) (es : List Word) (c : Ctx) (s t : State), Operates s (.ret x) x c t →
    (t.th x).rs = e :: es → bit e.toNat 18 = true → Answers (.ret x) s (fun r =>
      (r.th x).rs = es ∧ (r.th x).pc = BitVec.ofNat 18 e.toNat ∧ (r.th x).ie = bit e.toNat 19 ∧
      (r.th x).pl = bits e.toNat 23 20 ∧ (r.th x).owed = 1 ∧ (r.th x).fetched = [] ∧
      (∀ k, k < 4 → (r.th x).flag k = bit e.toNat (24 + k)) ∧
      (∀ a, 4 ≤ a → (r.th x).flag a = ((c.landed t).th x).flag a))) ∧
  (∀ (x : Fin 128) (c : Ctx) (s t : State), Operates s (.ret x) x c t → (t.th x).rs = [] → (t.th x).rsTrap = true →
    t.elastic x = true →
    exec (.ret x) s = .next ((c.landed t).modTh x (fun u => { u with exc := some (3, BitVec.ofNat 18 c.pc) }))) ∧
  (∀ (x : Fin 128) (c : Ctx) (s t : State), Operates s (.ret x) x c t → (t.th x).rs = [] → (t.th x).rsTrap = false →
    exec (.ret x) s = .next (((c.landed t).setFlag x 7 true).modTh x (fun u => { u with owed := 1 }))) ∧
  (∀ (x : Fin 128) (c : Ctx) (s t : State), Operates s (.ret x) x c t → (t.th x).rs = [] → (t.th x).rsTrap = true →
    t.elastic x = false →
    exec (.ret x) s = .next ((((c.landed t).setFlag x 7 true).modTh x (fun u => { u with owed := 1 })).ill x 0x44 0 c.pc)) ∧
  (∀ (x : Fin 128) (c : Ctx) (s t : State), Operates s (.ei x) x c t → t.elastic x = true →
    exec (.ei x) s = .next ((c.landed t).modTh x (fun u => { u with ie := true }))) ∧
  (∀ (x : Fin 128) (c : Ctx) (s t : State), Operates s (.di x) x c t → t.elastic x = true →
    exec (.di x) s = .next ((c.landed t).modTh x (fun u => { u with ie := false }))) ∧
  (∀ (x : Fin 128) (i : Instr) (c : Ctx) (s t : State), i ∈ [.ei x, .di x, .yield x] → Operates s i x c t →
    t.elastic x = false → exec i s = .next (c.landed t))

/-- R90, R198, R199, R201: TRAP by class, IDLE, YIELD, and RSTKD at the bottom of the return stack. Where it goes
beyond these rules it follows the model's own readings of log entry 31. -/
def Obligations.TrapIdleYieldAndStackSpill : Prop :=
  (∀ (x : Fin 128) (c : Ctx) (s t : State), Operates s (.trap x) x c t → t.elastic x = true →
    exec (.trap x) s = .next (((c.landed t).wellPut x 0xFF8 4 c.dec.fixed).modTh x (fun u => { u with
      exc := some (5, BitVec.ofNat 18 (c.pc + c.dec.len)) }))) ∧
  (∀ (x : Fin 128) (c : Ctx) (s t : State), Operates s (.trap x) x c t → t.elastic x = false →
    exec (.trap x) s = .next (((c.landed t).setFlag x 5 true).eventAt ((c.landed t).strokes + 4) 7 10 0x20
      (x + 2 ^ 8 * 0x43 + 2 ^ 16 * c.dec.fixed) c.pc)) ∧
  (∀ (x : Fin 128) (c : Ctx) (s t : State), Operates s (.idle x) x c t →
    exec (.idle x) s = .next ((c.landed t).modTh x (fun u => { u with idle := c.dec.fixed }))) ∧
  (∀ (x : Fin 128) (c : Ctx) (s t : State), Operates s (.yield x) x c t → t.elastic x = true →
    exec (.yield x) s = .next ((c.landed t).modTh x (fun u => { u with yielding := true }))) ∧
  (∀ (x : Fin 128) (es : List Word) (e : Word) (c : Ctx) (s t : State), Operates s (.rstkd x) x c t →
    bit (c.val 0) 31 = false → (t.th x).rs = es ++ [e] →
    exec (.rstkd x) s = .next (c.put 0 e.toNat ((c.landed t).modTh x (fun u => { u with rs := u.rs.dropLast })))) ∧
  (∀ (x : Fin 128) (c : Ctx) (s t : State), Operates s (.rstkd x) x c t → bit (c.val 0) 31 = false →
    (t.th x).rs = [] → exec (.rstkd x) s = .next (c.put 0 0 ((c.landed t).setFlag x 7 true))) ∧
  (∀ (x : Fin 128) (c : Ctx) (s t : State), Operates s (.rstkd x) x c t → bit (c.val 0) 31 = true →
    (t.th x).rs.length < 8 →
    exec (.rstkd x) s = .next (c.put 0 0 ((c.landed t).modTh x (fun u => { u with
      rs := u.rs ++ [BitVec.ofNat 32 (c.val 0 % 2 ^ 28)] })))) ∧
  (∀ (x : Fin 128) (c : Ctx) (s t : State), Operates s (.rstkd x) x c t → bit (c.val 0) 31 = true →
    8 ≤ (t.th x).rs.length →
    exec (.rstkd x) s = .next (c.put 0 (c.val 0) ((c.landed t).setFlag x 6 true)))

/-- R202, R203, R204, R206, R207, R208: CRC32 and CRC32C in pipe and beside it, TAG, time arithmetic and TNOW. Where
it goes beyond these rules it follows the model's own readings of log entries 22, 28. -/
def Obligations.ChecksumTagAndTime : Prop :=
  (∀ (x : Fin 128) (i : Instr) (c : Ctx) (s t : State), i ∈ [.crc32 x, .crc32c x] → Operates s i x c t →
    c.val 2 = 0 → exec i s = .next (c.landed t)) ∧
  (∀ (x : Fin 128) (i : Instr) (p : Nat) (c : Ctx) (s t : State), (i, p) ∈ [(.crc32 x, 0xEDB88320), (.crc32c x, 0x82F63B78)] →
    Operates s i x c t → 0 < c.val 2 → c.val 2 ≤ c.dec.size →
    exec i s = .next (c.wrote t ((toBytes (c.val 2) (c.val 1)).foldl (crcStep p) (c.val 0)))) ∧
  (∀ (x : Fin 128) (i : Instr) (p : Nat) (c : Ctx) (s t : State), (i, p) ∈ [(.crc32 x, 0xEDB88320), (.crc32c x, 0x82F63B78)] →
    Operates s i x c t → c.dec.size < c.val 2 → 0 < c.val 2 → (∀ l ∈ (t.th x).longs, ∀ a b d e f, l.op ≠ .crc a b d e f) →
    exec i s = .next (c.launched t ((c.val 2 + 15) / 16 + 2) (.crc p (c.val 0) (c.val 2) (c.op 1).loc (c.op 0).loc))) ∧
  (∀ (x : Fin 128) (c : Ctx) (s t : State), Operates s (.tag x) x c t → c.val 2 ≤ 16383 →
    exec (.tag x) s = .next (c.wrote t (c.val 0 ^^^
      (toBytes 4 (c.val 1) ++ List.replicate (c.val 2) 0).foldl (crcStep 0x82F63B78) 0))) ∧
  (∀ (x : Fin 128) (c : Ctx) (s t : State), Operates s (.tag x) x c t → 16383 < c.val 2 →
    exec (.tag x) s = .next ((c.landed t).setFlag x 8 true)) ∧
  (∀ (x : Fin 128) (c : Ctx) (s t : State), Operates s (.tadd x) x c t →
    exec (.tadd x) s = .next (c.wrote t
      (timeOf (timeQ (c.time 1) + timeQ (c.time 2)) (bits (c.time 1) 119 112) false))) ∧
  (∀ (x : Fin 128) (c : Ctx) (s t : State), Operates s (.tsub x) x c t →
    exec (.tsub x) s = .next (c.wrote t
      (timeOf (timeQ (c.time 1) - timeQ (c.time 2)) (bits (c.time 1) 119 112)
        (bits (c.time 1) 119 112 != bits (c.time 2) 119 112)))) ∧
  (∀ (x : Fin 128) (c : Ctx) (s t : State), Operates s (.tcmp x) x c t → c.dec.setf = true →
    exec (.tcmp x) s = .next ((c.landed t).setFlags x
      [(0, decide (timeQ (c.time 0) = timeQ (c.time 1))), (1, decide (timeQ (c.time 0) < timeQ (c.time 1))),
       (3, decide (timeQs (c.time 0) < timeQs (c.time 1))),
       (2, bits (c.time 0) 119 112 != bits (c.time 1) 119 112)])) ∧
  (∀ (x : Fin 128) (c : Ctx) (s t : State), Operates s (.tnow x) x c t → (c.landed t).pairOf x = none →
    exec (.tnow x) s = .next (c.wrote t (timeVal t.tb.coreTime t.tb.coreEpoch)))

/-- R480, R481, R485, R486, R210, R211, R212, R213, R214: XCHG, CAS and FADD on the value read; the lock instructions
outside a pair of threads, with the lease of their bore. Where it goes beyond these rules it follows the model's own
readings of log entry 12. -/
def Obligations.AtomicAndLockInstructions : Prop :=
  (∀ (x : Fin 128) (c : Ctx) (s t : State), Operates s (.xchg x) x c t →
    exec (.xchg x) s = .next (c.put 0 (c.val 1) (c.put 1 (c.val 2) (c.landed t)))) ∧
  (∀ (x : Fin 128) (c : Ctx) (s t : State), Operates s (.cas x) x c t → c.val 1 = c.val 0 →
    exec (.cas x) s = .next (c.put 0 (c.val 1) (c.put 1 (c.val 2) (c.landed t)))) ∧
  (∀ (x : Fin 128) (c : Ctx) (s t : State), Operates s (.cas x) x c t → c.val 1 ≠ c.val 0 →
    exec (.cas x) s = .next (c.wrote t (c.val 1))) ∧
  (∀ (x : Fin 128) (c : Ctx) (s t : State), Operates s (.fadd x) x c t →
    exec (.fadd x) s = .next (c.put 0 (c.val 1) (c.put 1 ((c.val 1 + c.val 2) % 2 ^ c.w) (c.landed t)))) ∧
  (∀ (x : Fin 128) (a : Nat) (r : Nat × State) (c : Ctx) (s t : State), Operates s (.lockw x) x c t →
    (c.op 1).loc = .res a → (c.landed t).pairOf x = none →
    r = (c.landed t).lockAcquire x (t.reg (0xA0040 + 4 * lbOf x)) 1 (lbOf x) a →
    exec (.lockw x) s = .next (c.put 0 r.1 r.2)) ∧
  (∀ (x : Fin 128) (a : Nat) (c : Ctx) (s t : State), Operates s (.unlkw x) x c t → (c.op 0).loc = .res a →
    (c.landed t).pairOf x = none →
    exec (.unlkw x) s = .next ((c.landed t).lockRelease x 1 (lbOf x) a c.pc).2) ∧
  (∀ (x : Fin 128) (r : Nat × State) (c : Ctx) (s t : State), Operates s (.lockg x) x c t → c.val 1 ≤ 1023 →
    (c.landed t).pairOf x = none →
    r = (c.landed t).groupAcquire x (some (t.reg (0xA0040 + 4 * lbOf x))) (c.val 1) →
    exec (.lockg x) s = .next (c.put 0 r.1 r.2)) ∧
  (∀ (x : Fin 128) (c : Ctx) (s t : State), Operates s (.unlkg x) x c t → c.val 0 ≤ 1023 →
    (c.landed t).pairOf x = none →
    exec (.unlkg x) s = .next ((c.landed t).groupRelease x (c.val 0) c.pc).2) ∧
  (∀ (x : Fin 128) (i : Instr) (n : Nat) (c : Ctx) (s t : State), (i, n) ∈ [(.lockg x, c.val 1), (.unlkg x, c.val 0)] →
    Operates s i x c t → 1023 < n →
    exec i s = .next (t.takeFault x c.pc c.dec { cause := 1, space := 7, addr := n % 2 ^ 20, half := 0, detail := 2, word := none }))

/-- R114, R138, R142, R215, R216, R217, R424, R425, R427, R441: outside a pair of threads CRD and CWR start a cistern
access, a CHAN operation comes 3 turns later, a PUMP hands its descriptor to its queue. Where it goes beyond these
rules it follows the model's own readings of log entry 35. -/
def Obligations.LaunchingInstructions : Prop :=
  (∀ (x : Fin 128) (p k : Nat) (a : CisAcc) (c : Ctx) (s t : State), Operates s (.crd x) x c t → t.pairOf x = none →
    k = bits c.dec.fixed 10 8 → (t.th x).cis.find? (fun b => b.idx == k) = none → (c.op 1).loc = .cis p →
    (∀ b, (c.op 0).loc ≠ .bit b) →
    a = { rd := true, idx := k, win := bits p 28 26, off := bits p 25 0, n := bits c.dec.fixed 5 0 + 1
          loc := (c.op 0).loc, issued := (c.landed t).strokes, pc := c.pc, done := 0, bad := false } →
    exec (.crd x) s = .next ((((c.landed t).setFlag x (0x010 + k) false).setFlag x (0x018 + k) false).modTh x
      (fun u => { u with cis := u.cis ++ [a] }))) ∧
  (∀ (x : Fin 128) (p k : Nat) (a : CisAcc) (c : Ctx) (s t : State), Operates s (.cwr x) x c t → t.pairOf x = none →
    k = bits c.dec.fixed 10 8 → (t.th x).cis.find? (fun b => b.idx == k) = none → (c.op 0).loc = .cis p →
    (∀ b, (c.op 1).loc ≠ .bit b) →
    a = { rd := false, idx := k, win := bits p 28 26, off := bits p 25 0, n := bits c.dec.fixed 5 0 + 1
          loc := (c.op 1).loc, issued := (c.landed t).strokes, pc := c.pc, done := 0, bad := false } →
    exec (.cwr x) s = .next ((((c.landed t).setFlag x (0x010 + k) false).setFlag x (0x018 + k) false).modTh x
      (fun u => { u with cis := u.cis ++ [a] }))) ∧
  (∀ (x : Fin 128) (i : Instr) (c : Ctx) (s t : State), i ∈ [.crd x, .cwr x] → Operates s i x c t →
    t.pairOf x = none → ((t.th x).cis.find? (fun b => b.idx == bits c.dec.fixed 10 8)).isSome = true →
    exec i s = .next (t.ill x 0x42 0 c.pc)) ∧
  (∀ (x : Fin 128) (i : Instr) (k : Nat) (c : Ctx) (s t : State), (i, k) ∈ [(.check x, 0), (.bind x, 1), (.unbind x, 2),
    (.tagget x, 3), (.tagput x, 4), (.alloc x, 5), (.free x, 6)] → Operates s i x c t → t.pairOf x = none →
    chanFault t x k (c.val 1) (c.val 2) = none →
    exec i s = .next (c.launched t 3 (.chan k (c.val 1) (c.val 2) (c.op 0).loc))) ∧
  (∀ (x : Fin 128) (i : Instr) (q k : Nat) (c : Ctx) (s t : State), i ∈ [.copy x, .sendHost x, .tx x, .toValve x,
    .fromValve x, .imageOut x, .imageIn x, .pumpTake x, .event x] → Operates s i x c t → q = bits c.dec.fixed 2 0 →
    k = bits c.dec.fixed 7 4 → t.pumpRefused x q k = false → (c.landed t).pairOf x = none →
    exec i s = .next (((c.landed t).submit (.thread x q k) (bits (c.val 0) 31 0) (bits (c.val 0) 63 32)
      (bits (c.val 0) 95 64) (bits (c.val 0) 127 96) (c.landed t).strokes 0).setFlag x (0x020 + k) false)) ∧
  (∀ (x : Fin 128) (i : Instr) (c : Ctx) (s t : State), i ∈ [.copy x, .sendHost x, .tx x, .toValve x,
    .fromValve x, .imageOut x, .imageIn x, .pumpTake x, .event x] → Operates s i x c t →
    t.pumpRefused x (bits c.dec.fixed 2 0) (bits c.dec.fixed 7 4) = true →
    exec i s = .next (if t.elastic x then t else t.ill x 0x42 0 c.pc))

/-- R83, R218, R219, R220, R221, R222, R223, R224, R225, R384: POST, EWAIT, valve queues, the action schedule and
system registers, outside a pair of threads. Where it goes beyond these rules it follows the model's own readings of
log entry 22. -/
def Obligations.EventQueueAndSystemInstructions : Prop :=
  (∀ (x : Fin 128) (c : Ctx) (s t : State), Operates s (.post x) x c t → t.postOwnBad x (c.val 0 % 1024) = none →
    t.postMine x (c.val 0 % 1024) = true → (c.landed t).pairOf x = none → ((c.landed t).lb (lbOf x)).shed = false →
    exec (.post x) s = .next (((c.landed t).routeRead (postOwnWord (postOwnIdx (lbOf x) (c.val 0 % 16)))).raiseAt
      (c.val 0 % 1024) true (bit (c.val 0) 16) (bit (c.val 0) 16) ((c.landed t).strokes + 1))) ∧
  (∀ (x : Fin 128) (c : Ctx) (s t : State), Operates s (.post x) x c t → t.postOwnBad x (c.val 0 % 1024) = none →
    t.postMine x (c.val 0 % 1024) = true → (c.landed t).pairOf x = none → ((c.landed t).lb (lbOf x)).shed = true →
    exec (.post x) s = .next ((c.landed t).routeRead (postOwnWord (postOwnIdx (lbOf x) (c.val 0 % 16))))) ∧
  (∀ (x : Fin 128) (w : Nat) (c : Ctx) (s t : State), Operates s (.post x) x c t →
    t.postOwnBad x (c.val 0 % 1024) = some w → exec (.post x) s = .next ((c.landed t).routeRead w)) ∧
  (∀ (x : Fin 128) (c : Ctx) (s t : State), Operates s (.post x) x c t → t.postOwnBad x (c.val 0 % 1024) = none →
    t.postMine x (c.val 0 % 1024) = false →
    exec (.post x) s = .next (t.takeFault x c.pc c.dec
      { cause := 1, space := 7, addr := c.val 0 % 1024, half := 0, detail := 1, word := none })) ∧
  (∀ (x : Fin 128) (c : Ctx) (s t : State), Operates s (.ewait x) x c t → (c.landed t).elastic x = true →
    exec (.ewait x) s = .next (c.landed t)) ∧
  (∀ (x : Fin 128) (c : Ctx) (s t : State), Operates s (.ewait x) x c t → (c.landed t).elastic x = false →
    exec (.ewait x) s = .next ((c.landed t).ill x 0x42 0 c.pc)) ∧
  (∀ (x : Fin 128) (i : Instr) (v : Nat) (c : Ctx) (s t : State), i ∈ [.qput x, .qputn x] → Operates s i x c t →
    (c.op 0).loc = .port (0x30010 + 0x200 * v) → (c.landed t).pairOf x = none → t.elastic x = true →
    ((c.landed t).valve v).credit ≠ 0 →
    exec i s = .next ((c.landed t).modValve v (fun q => { q with
      credit := q.credit - 1, txCross := q.txCross ++ [⟨BitVec.ofNat 32 (c.val 1), (c.landed t).strokes, 0⟩] }))) ∧
  (∀ (x : Fin 128) (v : Nat) (c : Ctx) (s t : State), Operates s (.qputn x) x c t →
    (c.op 0).loc = .port (0x30010 + 0x200 * v) → (c.landed t).pairOf x = none → ((c.landed t).valve v).credit = 0 →
    exec (.qputn x) s = .next ((c.landed t).modValve v (fun q => { q with nOverflow := min 255 (q.nOverflow + 1) }))) ∧
  (∀ (x : Fin 128) (i : Instr) (v : Nat) (w : Word) (ws : List Word) (c : Ctx) (s t : State), i ∈ [.qget x, .qgetn x] →
    Operates s i x c t → (c.op 1).loc = .port (0x30014 + 0x200 * v) → (c.landed t).pairOf x = none →
    ((c.landed t).valve v).rxReady = w :: ws → t.elastic x = true →
    exec i s = .next (c.put 0 w.toNat ((c.landed t).modValve v (fun q => { q with rxReady := ws })))) ∧
  (∀ (x : Fin 128) (v : Nat) (c : Ctx) (s t : State), Operates s (.qgetn x) x c t →
    (c.op 1).loc = .port (0x30014 + 0x200 * v) → (c.landed t).pairOf x = none → ((c.landed t).valve v).rxReady = [] →
    exec (.qgetn x) s = .next ((c.landed t).modValve v (fun q => { q with nUnderrun := min 255 (q.nUnderrun + 1) }))) ∧
  (∀ (x : Fin 128) (r : Nat × State) (e : Nat) (c : Ctx) (s t : State), Operates s (.sched x) x c t →
    (c.landed t).pairOf x = none → e = (c.schedTime (c.landed t)).1 →
    r = (c.landed t).schedAlloc (Config.pick (c.landed t).draws) (lbOf x) (timeT e) (timeEpoch e) (c.val 2) →
    exec (.sched x) s = .next (c.put 0 r.1
      ((c.landed t).schedAlloc (r.1 % 4096) (lbOf x) (timeT e) (timeEpoch e) (c.val 2)).2)) ∧
  (∀ (x : Fin 128) (c : Ctx) (s t : State), Operates s (.unsched x) x c t → (c.landed t).pairOf x = none →
    exec (.unsched x) s = .next ((c.landed t).unsched x (c.val 0 % 4096))) ∧
  (∀ (x : Fin 128) (c : Ctx) (s t : State), Operates s (.sysrd x) x c t → c.val 1 < 2 ^ 20 → c.val 1 % 4 = 0 →
    (c.landed t).pairOf x = none →
    exec (.sysrd x) s = .next (c.wrote t ((c.landed t).sysImage (c.val 1)))) ∧
  (∀ (x : Fin 128) (c : Ctx) (s t : State), Operates s (.syswr x) x c t → c.val 0 < 2 ^ 20 → c.val 0 % 4 = 0 →
    (c.landed t).pairOf x = none → protectedUnit (c.val 0) = false →
    exec (.syswr x) s = .next { c.landed t with winPend := (c.landed t).winPend ++
      [{ due := (c.landed t).strokes + 3, rank := lbOf x, x := x, pc := c.pc, off := c.val 0
         v := BitVec.ofNat 32 (c.val 1) }] }) ∧
  (∀ (x : Fin 128) (c : Ctx) (s t : State), Operates s (.syswr x) x c t → c.val 0 < 2 ^ 20 → c.val 0 % 4 = 0 →
    (c.landed t).pairOf x = none → protectedUnit (c.val 0) = true →
    exec (.syswr x) s = .next ((c.landed t).eventAt ((c.landed t).strokes + 4) 10 11 0x20 (x + 2 ^ 8 + 2 ^ 12 * c.pc) (c.val 0))) ∧
  (∀ (x : Fin 128) (i : Instr) (u : Nat) (c : Ctx) (s t : State), (i, u) ∈ [(.sysrd x, c.val 1), (.syswr x, c.val 0)] →
    Operates s i x c t → (2 ^ 20 ≤ u ∨ u % 4 ≠ 0) →
    exec i s = .next (t.takeFault x c.pc c.dec { cause := 1, space := 7, addr := u % 2 ^ 20, half := 0, detail := 3, word := none }))

/-- R78, R226, R228, R229, R230, R231, R233, R234, R236, R239, R241, R506: the short vectors lane by lane, the table
permutes byte by byte, LVSETL. A long vector launches with VL and its operands, clears LVDONE and commits D strokes
later; a second one is refused; in a running pair it is a disagreement. Where it goes beyond these rules it follows
the model's own readings of log entry 37. -/
def Obligations.VectorResultsAndLaunches : Prop :=
  (∀ (x : Fin 128) (i : Instr) (f : Nat → Nat → Nat) (l : Nat) (c : Ctx) (s t : State), Operates s i x c t → l = c.dec.lane →
    l ∈ [8, 16, 32] → (i, f) ∈ [(.vadd x, fun a b => (a + b) % 2 ^ l), (.vsub x, fun a b => (a + (2 ^ l - b)) % 2 ^ l),
      (.vmin x, fun a b => if sgn l b < sgn l a then b else a), (.vmax x, fun a b => if sgn l a < sgn l b then b else a),
      (.vcmpeq x, fun a b => if a = b then 2 ^ l - 1 else 0), (.vcmpgt x, fun a b => if sgn l b < sgn l a then 2 ^ l - 1 else 0),
      (.vshl x, fun a b => if b < l then a * 2 ^ b % 2 ^ l else 0), (.vshr x, fun a b => if b < l then a / 2 ^ b else 0)] →
    ∃ v, exec i s = .next (c.wrote t v) ∧ v < 2 ^ 128 ∧
      ∀ k, k < 128 / l → lane l v k = f (lane l (c.vec l 1) k) (lane l (c.vec l 2) k)) ∧
  (∀ (x : Fin 128) (c : Ctx) (s t : State), Operates s (.vand x) x c t →
    exec (.vand x) s = .next (c.wrote t (c.vec c.dec.lane 1 &&& c.vec c.dec.lane 2))) ∧
  (∀ (x : Fin 128) (c : Ctx) (s t : State), Operates s (.vor x) x c t →
    exec (.vor x) s = .next (c.wrote t (c.vec c.dec.lane 1 ||| c.vec c.dec.lane 2))) ∧
  (∀ (x : Fin 128) (c : Ctx) (s t : State), Operates s (.vxor x) x c t →
    exec (.vxor x) s = .next (c.wrote t (c.vec c.dec.lane 1 ^^^ c.vec c.dec.lane 2))) ∧
  (∀ (x : Fin 128) (c : Ctx) (s t : State), Operates s (.vsel x) x c t → ∃ v,
    exec (.vsel x) s = .next (c.wrote t v) ∧ ∀ k, k < 128 → bit v k =
      if bit (c.val 0) k then bit (c.vec c.dec.lane 1) k else bit (c.vec c.dec.lane 2) k) ∧
  (∀ (x : Fin 128) (i : Instr) (f : Nat → Nat → Nat → Nat) (c : Ctx) (s t : State), Operates s i x c t →
    (i, f) ∈ [(.tperm x, fun a b k => if 128 ≤ lane 8 b k then 0 else lane 8 a (lane 8 b k % 16)),
      (.tperm2 x, fun a b k => if 128 ≤ lane 8 b k then 0
        else if lane 8 b k % 32 < 16 then lane 8 a (lane 8 b k % 32) else lane 8 (c.val 0) (lane 8 b k % 32 - 16)),
      (.tlut x, fun a b k => lane 8 b (lane 4 a k))] →
    ∃ v, exec i s = .next (c.wrote t v) ∧ v < 2 ^ 128 ∧
      ∀ k, k < 16 → lane 8 v k = f (c.vec c.dec.lane 1) (c.vec c.dec.lane 2) k) ∧
  (∀ (x : Fin 128) (c : Ctx) (s t : State), Operates s (.tlut16 x) x c t →
    ∃ v, exec (.tlut16 x) s = .next (c.wrote t v) ∧ v < 2 ^ 128 ∧
      ∀ k, k < 8 → lane 16 v k = if 128 ≤ lane 16 (c.vec c.dec.lane 1) k % 256 then 0
        else lane 16 (c.vec c.dec.lane 2) (lane 16 (c.vec c.dec.lane 1) k % 256 % 8)) ∧
  (∀ (x : Fin 128) (c : Ctx) (s t : State), Operates s (.lvsetl x) x c t →
    exec (.lvsetl x) s = .next ((c.landed t).wellPut x 0xFF4 4
      (if c.val 0 = 0 then 1 else if 256 < c.val 0 then 256 else c.val 0))) ∧
  (∀ (x : Fin 128) (i : Instr) (op d : Nat) (l : LvOp) (c : Ctx) (s t : State), (i, op) ∈ [(.lvadd x, 0x21),
      (.lvsub x, 0x22), (.lvmul x, 0x23), (.lvmac x, 0x24), (.lvcmul x, 0x25), (.lvcmac x, 0x26), (.lvconj x, 0x27),
      (.lvsum x, 0x28), (.lvmaxi x, 0x29), (.lvbfly x, 0x2A), (.lvgath x, 0x30), (.lvgathf x, 0x31), (.lvscat x, 0x32),
      (.lvcopy x, 0x33)] → Operates s i x c t → t.pairOf x = none → (t.lb (lbOf x)).lv = none →
    d = 6 + (t.wellWord x 0xFF4 + (if op ≤ 0x24 then 15 else 3)) / (if op ≤ 0x24 then 16 else 4) →
    l = { x := x, pc := c.pc, op := op, vl := t.wellWord x 0xFF4, d := (c.op 0).loc, a := (c.op 1).loc, b := (c.op 2).loc
          issued := (c.landed t).strokes, due := (c.landed t).strokes + d, elems := [], fault := none } →
    exec i s = .next (((c.landed t).modLb (lbOf x) (fun b => { b with lv := some l })).setFlag x 0x00A false)) ∧
  (∀ (x : Fin 128) (i : Instr) (o : Option Nat) (n : Nat) (c : Ctx) (s t : State), threadRow i = some (x, n, o) →
    0x221 ≤ n → n ≤ 0x233 → Operates s i x c t → t.pairOf x = none → (t.lb (lbOf x)).lv.isSome = true →
    exec i s = .next (t.ill x 0x42 0 c.pc)) ∧
  (∀ (x : Fin 128) (i : Instr) (o : Option Nat) (n k : Nat) (c : Ctx) (s t : State), threadRow i = some (x, n, o) →
    (0x221 ≤ n ∧ n ≤ 0x233 ∨ n = 0x128 ∨ n = 0x129 ∨ n = 0x12B) → Operates s i x c t → t.pairOf x = some k →
    (t.pair k).diff = none →
    exec i s = .next (t.modPair k (fun p => { p with diff := some 4 })))

/-! ### Results at a distance, cistern accesses, the stroke (chapters 02, 03, 04, 06, 07, 12) -/

/-- R78, R79, R195, R202, R203, R238, R240, R243, R247, R248, R249, R441: LONG_RESULT, BLOCK_CRC_DONE and CHAN_RESULT:
the first result whose turns are over becomes visible: its writes, the CRC of its span as it then stands, the effect
and value of a CHAN operation. LV_COMMIT writes the results of the elements read; a mid-vector fault sets VF, records
the element and reports it, but a first-fault gather past element 0 shortens VL instead. Where it goes beyond these
rules it follows the model's own readings of log entries 28, 30, 70. -/
def Obligations.LongResultsAndVectorCommits : Prop :=
  (∀ (x : Fin 128) (l : LongRes) (ws : List LocWrite) (s : State), (s.th x).longDue = some l → l.op = .arith ws →
    exec (.longResult x) s = .next (ws.foldl (fun t w => landLoc t x l.pc l.issued w.loc w.n w.v)
      (s.modTh x (fun t => { t with longs := t.longs.erase l })))) ∧
  (∀ (x : Fin 128) (l : LongRes) (p st k : Nat) (src dst : Loc) (bs : List Nat) (s : State), s.ecc = [] →
    (s.th x).longDue = some l → l.op = .crc p st k src dst →
    ((∃ a, src = .well a ∧ bs = readBytes (s.th x).well a k) ∨
     (∃ a, src = .res a ∧ bs = readBytes (s.lb (lbOf x)).res a k) ∨
     (∃ a, src = .code a ∧ bs = readBytes (s.codeOf x) a k)) →
    exec (.blockCrcDone x) s = .next (landLoc (s.modTh x (fun t => { t with longs := t.longs.erase l })) x l.pc l.issued
      dst 4 (bs.foldl (crcStep p) st))) ∧
  (∀ (x : Fin 128) (l : LongRes) (op a b : Nat) (dst : Loc) (r : Nat × State) (s : State), (s.th x).longDue = some l →
    l.op = .chan op a b dst → r = chanEffect (s.modTh x (fun t => { t with longs := t.longs.erase l })) x op a b →
    exec (.chanResult x) s = .next (landLoc r.2 x l.pc l.issued dst 4 r.1)) ∧
  (∀ (n : Fin 8) (l : LvOp) (s : State), (s.lb n).lv = some l → l.due ≤ s.strokes → l.fault = none →
    exec (.lvCommit n) s = .next (((l.writes.foldl (fun t w => landLoc t l.x l.pc l.issued w.loc w.n w.v) s).hwFlag
      .thread l.x 0x00A).modLb n (fun b => { b with lv := none }))) ∧
  (∀ (n : Fin 8) (l : LvOp) (i c p r : Nat) (s t u : State), (s.lb n).lv = some l → l.due ≤ s.strokes →
    l.fault = some (i, c, p) → (l.op ≠ 0x31 ∨ i = 0) → r = i + 2 ^ 8 * c + 2 ^ 12 * l.pc + 2 ^ 31 →
    t = l.writes.foldl (fun t w => landLoc t l.x l.pc l.issued w.loc w.n w.v) s →
    u = (if bit (t.wellWord l.x 0xFE8) 31 then t.wellPut l.x 0xFE8 4 (t.wellWord l.x 0xFE8 ||| 2 ^ 30)
         else (t.wellPut l.x 0xFE8 4 r).wellPut l.x 0xFEC 4 p) →
    exec (.lvCommit n) s = .next ((((((u.hwFlag .thread l.x 0x009).modLb n (fun b => { b with
      lvFaults := if b.lvFaults + 1 < 65536 then b.lvFaults + 1 else 65535 })).event 7 10 0x21 l.x r).hwFlag
      .thread l.x 0x00A).modLb n (fun b => { b with lv := none })))) ∧
  (∀ (n : Fin 8) (l : LvOp) (i c p : Nat) (s t : State), (s.lb n).lv = some l → l.due ≤ s.strokes →
    l.fault = some (i, c, p) → l.op = 0x31 → 0 < i →
    t = l.writes.foldl (fun t w => landLoc t l.x l.pc l.issued w.loc w.n w.v) s →
    exec (.lvCommit n) s = .next ((((t.wellPut l.x 0xFF4 4 i).hwFlag .thread l.x 0x00A).modLb n
      (fun b => { b with lv := none })))) ∧
  (∀ (op a b d : Nat) (r : Int), (op, r) ∈ [(0x21, sgn 16 a + sgn 16 b), (0x22, sgn 16 a - sgn 16 b),
      (0x23, rne (sgn 16 a * sgn 16 b) 15), (0x24, rne (sgn 16 d * 2 ^ 15 + sgn 16 a * sgn 16 b) 15)] →
    lvElem op a b d = wrap 16 (max (-32768) (min 32767 r))) ∧
  (∀ (k : Nat) (n q : Int), 0 < k → rne n k = q → 2 * |n - q * 2 ^ k| ≤ 2 ^ k ∧
    (2 * |n - q * 2 ^ k| = 2 ^ k → q % 2 = 0))

/-- R18, R114, R138, R139, R140, R141, R216, R410, R411, R413, R421, R422, R441: what a CHAN operation answers and
does. CISTERN_PART_LAND moves the bytes up to the next 32-bit boundary of the buffer; the last part sets CDONEk.
CISTERN_FAULT writes nothing, sets CERRk and CDONEk and reports window and offset. Where it goes beyond these rules it
follows the model's own readings of log entries 12, 83. -/
def Obligations.ChannelAndCisternAccess : Prop :=
  (∀ (x h b i : Nat) (s : State), s.checkHandle 1 h = (.ok i, s) → chanEffect s x 0 h b =
    ((s.chan i).kind * 2 ^ 8 + (s.chan i).state * 2 ^ 12 + (s.chan i).gen * 2 ^ 16, s)) ∧
  (∀ (x a w h : Nat) (s t : State), s.checkBref (lbOf x) a = .ok h → s.winOf x w = none → (s.cell h).bound = false →
    t = (chanEffect s x 1 a w).2 → (chanEffect s x 1 a w).1 = (s.cell h).len * 2 ^ 16 ∧
    (t.cell h).bound = true ∧ t.winOf x w = some (a % 2 ^ 32 % 2 ^ 15) ∧ (∀ y, y ≠ x → t.th y = s.th y) ∧
    (∀ j, j ≠ h → t.cell j = s.cell j) ∧ { t with threads := s.threads, pump := s.pump } = s) ∧
  (∀ (x a w h : Nat) (s : State), s.checkBref (lbOf x) a = .ok h → (s.winOf x w).isSome = true →
    chanEffect s x 1 a w = (0x11, s)) ∧
  (∀ (x a w h : Nat) (s : State), s.checkBref (lbOf x) a = .ok h → s.winOf x w = none → (s.cell h).bound = true →
    chanEffect s x 1 a w = (0x08, s)) ∧
  (∀ (x w b h : Nat) (s t : State), s.winBusy x w = false → s.winOf x w = some h → t = (chanEffect s x 2 w b).2 →
    (chanEffect s x 2 w b).1 = 0 ∧ (t.cell h).bound = false ∧ t.winOf x w = none ∧
    { t with threads := s.threads, pump := s.pump } = s) ∧
  (∀ (x w b : Nat) (s : State), s.winBusy x w = true → chanEffect s x 2 w b = (0x11, s)) ∧
  (∀ (x w b h : Nat) (s : State), s.winOf x w = some h → chanEffect s x 3 w b = ((s.cell h).tag, s)) ∧
  (∀ (x w b h : Nat) (s : State), s.winOf x w = some h →
    chanEffect s x 4 w b = (0, s.modCell h (fun c => { c with tag := b, tgen := false }))) ∧
  (∀ (x n b : Nat) (s : State), (n = 0 ∨ 16320 < n) → chanEffect s x 5 n b = (0x09, s)) ∧
  (∀ (x a b h : Nat) (s : State), s.checkBref (lbOf x) a = .ok h → (s.cell h).bound = true →
    chanEffect s x 6 a b = (0x08, s)) ∧
  (∀ (x a b h : Nat) (s : State), s.checkBref (lbOf x) a = .ok h → (s.cell h).bound = false →
    chanEffect s x 6 a b = (0, (s.modCell h (fun c => { c with owner := 0 })).dropRef h)) ∧
  (∀ (x op a b : Nat) (s : State), op = 1 ∨ op = 6 → (∀ h, s.checkBref (lbOf x) a ≠ .ok h) →
    chanEffect s x op a b = (7, s)) ∧
  (∀ (x : Fin 128) (k : Fin 8) (c : CisAcc) (h a n : Nat) (s : State), s.ecc = [] → s.leads x = none →
    (s.th x).cis.find? (fun d => d.idx == k.val) = some c → s.winOf x c.win = some h → c.off + c.n ≤ (s.cell h).len →
    c.issued + 6 ≤ s.strokes → c.bad = false → c.rd = true → c.loc = .well a → n = c.n - c.done →
    n ≤ 4 - (c.off + c.done) % 4 →
    exec (.cisternPartLand x k) s = .next (((s.wellPut x (a + c.done) n (ofBytes (s.bufRead h (c.off + c.done) n))).modTh
      x (fun t => { t with cis := t.cis.filter (fun d => d.idx != c.idx) })).hwFlag .thread x (0x010 + c.idx))) ∧
  (∀ (x : Fin 128) (k : Fin 8) (c : CisAcc) (h a n : Nat) (s : State), s.ecc = [] → s.leads x = none →
    (s.th x).cis.find? (fun d => d.idx == k.val) = some c → s.winOf x c.win = some h → c.off + c.n ≤ (s.cell h).len →
    c.issued + 6 ≤ s.strokes → c.bad = false → c.rd = true → c.loc = .well a → n = 4 - (c.off + c.done) % 4 →
    n < c.n - c.done →
    exec (.cisternPartLand x k) s = .next ((s.wellPut x (a + c.done) n (ofBytes (s.bufRead h (c.off + c.done) n))).setCis
      x { c with done := c.done + n })) ∧
  (∀ (x : Fin 128) (k : Fin 8) (c : CisAcc) (h a n : Nat) (s : State), s.ecc = [] → s.leads x = none →
    (s.th x).cis.find? (fun d => d.idx == k.val) = some c → s.winOf x c.win = some h → c.off + c.n ≤ (s.cell h).len →
    c.issued + 6 ≤ s.strokes → c.bad = false → c.rd = false → c.loc = .well a → n = c.n - c.done →
    n ≤ 4 - (c.off + c.done) % 4 →
    exec (.cisternPartLand x k) s = .next (((s.bufWrite h (c.off + c.done) (readBytes (s.th x).well (a + c.done) n)).modTh
      x (fun t => { t with cis := t.cis.filter (fun d => d.idx != c.idx) })).hwFlag .thread x (0x010 + c.idx))) ∧
  (∀ (x : Fin 128) (k : Fin 8) (c : CisAcc) (s : State), s.ecc = [] → s.leads x = none →
    (s.th x).cis.find? (fun d => d.idx == k.val) = some c → c.issued + 2 ≤ s.strokes →
    (s.winOf x c.win = none ∨ ∃ h, s.winOf x c.win = some h ∧ (s.cell h).len < c.off + c.n) →
    exec (.cisternFault x k) s = .next ((((s.modTh x (fun t => { t with
      cis := t.cis.filter (fun d => d.idx != c.idx) })).hwFlag .thread x (0x018 + c.idx)).hwFlag .thread x (0x010 + c.idx)).event
      7 10 0x22 (x + 2 ^ 8 * c.win) (c.off % 2 ^ 14)))

/-- R37, R41, R44, R48, R49, R50, R51, R60, R536: STROKE opens the next gate, that of stroke 0 first: the stroke count
becomes its number. A retired bore is no part of the completion tree and finishes no stroke. At a gate opening at
depth 0 the stroke that ends is measured; a slack below GUARD or a late stroke lengthens the strokes to come by STEP,
raises the voltage target and holds DEPTH for 64 strokes, but at the ceiling it only raises the alarm. Where it goes
beyond these rules it follows the model's own readings of log entries 17, 18, 94, 95, 96, 97. -/
def Obligations.GateCountsAndPaceGovernor : Prop :=
  (∀ (tree : Nat) (unit : Fin 16) (s : State), s.up 2 = true →
    (unit.val < 14 ∧ (10 ≤ unit.val ∨ (s.pb unit).role ≠ 4)) → Answers (.stroke tree unit) s (fun t =>
    t.strokes = (if s.opened then s.strokes + 1 else 0) ∧ t.pending = s.pending ∧ t.locked = s.locked ∧
    t.mram.primed = s.mram.primed)) ∧
  (∀ (tree : Nat) (unit : Fin 16) (s : State), 
    (s.up 2 = false ∨ 14 ≤ unit.val ∨ unit.val < 10 ∧ (s.pb unit).role = 4) → exec (.stroke tree unit) s = .next s) ∧
  (∀ (n tree unit slack : Nat) (s t : State), s.gov.depth = 0 → s.gov.paceCross = none → tree ≤ s.gov.len →
    slack = min 1275 ((s.gov.slackLen - tree) / 5 * 5) → bits (s.reg 0x01008) 15 8 ≤ slack → bits (s.reg 0x01008) 23 16 ≤ slack →
    t = s.govGate n tree unit →
    t.gov.len = s.gov.pace ∧ t.gov.depth = 0 ∧ t.gov.slackLen = s.gov.pace ∧
    t.gov.minPs = (if s.gov.minAny then min s.gov.minPs slack else slack) ∧ t.gov.alarm = s.gov.alarm ∧
    t.gov.lateCount = s.gov.lateCount ∧ { t with gov := s.gov } = s) ∧
  (∀ (n tree unit : Nat) (s t : State), s.gov.depth = 0 → s.gov.paceCross = none → s.gov.len < tree →
    s.paceAt 255 ≠ s.gov.pace → s.gov.noRise ≤ n → s.gov.busy = true →
    s.gov.target + 1 ≤ bits (s.reg 0x01024) 14 8 → bits (s.reg 0x01024) 6 0 ≤ s.gov.target + 1 → t = s.govGate n tree unit →
    t.gov.depth = 1 ∧ t.gov.noRise = n + 64 ∧ t.gov.target = s.gov.target + 1 ∧ t.gov.code = s.gov.code ∧
    t.gov.alarm = s.gov.alarm ||| 8 ||| 2 ∧ t.gov.len = s.gov.pace ∧
    t.paceAt t.gov.depth = min (max (bits (s.reg 0x0100C) 12 0) s.gov.pace) (s.gov.pace + bits (s.reg 0x01008) 7 0) ∧
    { t with gov := s.gov, evq := s.evq } = s) ∧
  (∀ (n tree unit : Nat) (s t : State), s.gov.depth = 0 → s.gov.paceCross = none → s.gov.len < tree →
    s.paceAt 255 = s.paceAt 0 → t = s.govGate n tree unit →
    t.gov.depth = 0 ∧ t.gov.target = s.gov.target ∧ t.gov.alarm = s.gov.alarm ||| 8 ||| 4 ∧
    { t with gov := s.gov, evq := s.evq } = s)

/-- R70, R72, R79, R85, R86, R89, R93, R110, R516: SELECT of stroke `n` in a bore: the owner of position n mod 16 gets
the turn; one that owes a fill turn takes it as such and fetches; one that waits for a stop considers its next
instruction no more, and the turn is donated; a turn that nobody takes is a bubble; a donated turn goes to the first
elastic thread after the last recipient that can use it. Where it goes beyond these rules it follows the model's own
readings of log entries 16, 20, 31, 100, 104. -/
def Obligations.SelectGrantsTurns : Prop :=
  (∀ (n lb q : Nat) (s t : State), (s.lb lb).shed = false → q = wheelOwner (s.lb lb).liveLo.toNat (s.lb lb).liveHi.toNat (n % 16) →
    (s.th (16 * lb + q)).startReq = none → (s.th (16 * lb + q)).st = .metered → (s.th (16 * lb + q)).yielding = false →
    (s.th (16 * lb + q)).idle = 0 → (s.th (16 * lb + q)).owed = 0 → (s.th (16 * lb + q)).exc = none →
    (s.th (16 * lb + q)).stopReq = .none → (s.th (16 * lb + q)).longs = [] → t = s.selectLb n lb →
    t.lb lb = { s.lb lb with turn := some (q, .issue) } ∧ (∀ m, m ≠ lb → t.lb m = s.lb m) ∧ (∀ y, t.th y = s.th y) ∧
    { t with lbs := s.lbs, threads := s.threads } = s) ∧
  (∀ (n lb q : Nat) (s t : State), (s.lb lb).shed = false → q = wheelOwner (s.lb lb).liveLo.toNat (s.lb lb).liveHi.toNat (n % 16) →
    (s.th (16 * lb + q)).startReq = none → (s.th (16 * lb + q)).st = .metered → (s.th (16 * lb + q)).yielding = false →
    (s.th (16 * lb + q)).idle = 0 → (s.th (16 * lb + q)).owed = 0 → (s.th (16 * lb + q)).exc = none →
    (s.th (16 * lb + q)).stopReq ≠ .none → (s.th (16 * lb + q)).longs = [] → t = s.selectLb n lb →
    (t.th (16 * lb + q)).atStop = true ∧ (t.th (16 * lb + q)).donated = (s.th (16 * lb + q)).donated + 1 ∧
    (t.th (16 * lb + q)).pc = (s.th (16 * lb + q)).pc ∧ ∀ u, (t.lb lb).turn ≠ some (q, u)) ∧
  (∀ (n lb q k : Nat) (s t : State), s.ecc = [] → (s.lb lb).shed = false →
    q = wheelOwner (s.lb lb).liveLo.toNat (s.lb lb).liveHi.toNat (n % 16) →
    (s.th (16 * lb + q)).startReq = none → (s.th (16 * lb + q)).st = .metered → (s.th (16 * lb + q)).yielding = false →
    (s.th (16 * lb + q)).idle = 0 → 0 < (s.th (16 * lb + q)).owed → (s.th (16 * lb + q)).longs = [] →
    k = (if (s.th (16 * lb + q)).fetched.length = 0 then 32 else min 16 (32 - (s.th (16 * lb + q)).fetched.length)) →
    t = s.selectLb n lb → t.lb lb = { s.lb lb with turn := none } ∧
    t.th (16 * lb + q) = { s.th (16 * lb + q) with
      owed := (s.th (16 * lb + q)).owed - 1, turns := (s.th (16 * lb + q)).turns + 1
      fetched := (s.th (16 * lb + q)).fetched ++ (List.range k).map (fun i => s.codeByte (16 * lb + q)
        (((s.th (16 * lb + q)).pc.toNat + (s.th (16 * lb + q)).fetched.length + i) % 2 ^ 18)) } ∧
    (∀ y, y ≠ 16 * lb + q → t.th y = s.th y) ∧ { t with lbs := s.lbs, threads := s.threads } = s) ∧
  (∀ (n lb q : Nat) (s t : State), (s.lb lb).shed = false → q = wheelOwner (s.lb lb).liveLo.toNat (s.lb lb).liveHi.toNat (n % 16) →
    (s.th (16 * lb + q)).startReq = none → (s.th (16 * lb + q)).st = .stopped →
    (∀ r, r < 16 → (s.th (16 * lb + r)).cls = false) → t = s.selectLb n lb →
    t.lb lb = { s.lb lb with
      turn := none, bubbles := if (s.lb lb).bubbles = 0xFFFFFFFF#32 then 0xFFFFFFFF#32 else (s.lb lb).bubbles + 1 } ∧
    (t.th (16 * lb + q)).donated = (s.th (16 * lb + q)).donated + 1 ∧ (∀ y, y ≠ 16 * lb + q → t.th y = s.th y)) ∧
  (∀ (n lb q r : Nat) (v : Nat × BitVec 18) (s t : State), (s.lb lb).shed = false →
    q = wheelOwner (s.lb lb).liveLo.toNat (s.lb lb).liveHi.toNat (n % 16) →
    (s.th (16 * lb + q)).startReq = none → (s.th (16 * lb + q)).st = .stopped → r < 16 → r ≠ q →
    (∀ p, p < 16 → p ≠ r → (s.th (16 * lb + p)).cls = false) → (s.th (16 * lb + r)).cls = true →
    (s.th (16 * lb + r)).startReq = none → (s.th (16 * lb + r)).st = .elastic → (s.th (16 * lb + r)).yielding = false →
    (s.th (16 * lb + r)).idle = 0 → (s.th (16 * lb + r)).owed = 0 → (s.th (16 * lb + r)).exc = some v →
    (s.th (16 * lb + r)).longs = [] → t = s.selectLb n lb →
    (t.lb lb).turn = some (r, .accept) ∧ (t.lb lb).donateLast = r ∧ (t.lb lb).bubbles = (s.lb lb).bubbles ∧
    (t.th (16 * lb + q)).donated = (s.th (16 * lb + q)).donated + 1) ∧
  (∀ (n lb : Nat) (s t : State), (s.lb lb).shed = true → t = s.selectLb n lb →
    (t.lb lb).turn = none ∧ { t with lbs := s.lbs } = s)

/-- R12, R116, R117, R129, R133, R136, R137, R225, R415, R566, R569: what a write on its way reaches: a reservoir
write at its stroke, global bits stroke by stroke, a window write its register; REGISTER_WRITE its register at once; a
locked RWL register keeps its value and the attempt is reported. Where it goes beyond these rules it follows the
model's own readings of log entries 23, 24, 25, 107. -/
def Obligations.WritesOnTheirWay : Prop :=
  (∀ (n q : Nat) (w : ResWrite) (s : State), s.ecc = [] → (s.lb n).resPend = [w] → w.due ≤ q →
    (s.landRes n q).lb n = { s.lb n with resPend := [], res := writeLE (s.lb n).res w.addr w.n w.v } ∧
    (∀ m, m ≠ n → (s.landRes n q).lb m = s.lb m) ∧ { s.landRes n q with lbs := s.lbs } = s) ∧
  (∀ (n a k v : Nat) (w : ResWrite) (s : State), s.ecc = [] → (s.lb n).resPend = [w] → w.atom = false → w.x ≠ 128 →
    0 < k → a % 4 + k ≤ 4 → v < 256 ^ k → (s.resServe n a k v).lb n =
      { s.lb n with res := writeLE (s.lb n).res a k v, resPend := w.spare a k }) ∧
  (∀ (n a k v : Nat) (w : ResWrite) (s : State), (s.lb n).resPend = [w] → w.atom = true →
    w.addr < 4 * (a / 4) + 4 → 4 * (a / 4) < w.addr + w.n → 0 < k → a % 4 + k ≤ 4 → v < 256 ^ k →
    (s.resServe n a k v).lb n = { s.lb n with resPend := [w,
      { due := w.due, x := 128, addr := a, n := k, v := v, atom := false }] }) ∧
  (∀ (n q : Nat) (s : State), (∀ w ∈ (s.lb n).resPend, q < w.due) → ((s.landRes n q).lb n).res = (s.lb n).res ∧
    ((s.landRes n q).lb n).resPend = (s.lb n).resPend) ∧
  (∀ (q : Nat) (w : GBitWrite) (s : State), s.gpend = [w] → w.at_ ≤ q →
    (s.landGbits q).gpend = [] ∧ ∀ a, tget false (s.landGbits q).gbits a =
      if a = w.addr then w.v.getD (!tget false s.gbits a) else tget false s.gbits a) ∧
  (∀ (d : Fin 13) (w : WinWrite) (s : State), s.up d = true → w.at_ < s.strokes →
    s.winFifo.find? (fun v => regDomain v.off == some d.val) = some w →
    exec (.windowWriteArrive d) s = .next ({ s with
      winFifo := s.winFifo.erase w
      winDone := s.winDone ++ [{ w with at_ := s.strokes, cyc := s.strokes + s.tb.edges }] }.regWrite
      (if w.rank = 8 then 0 else w.x + 2 ^ 8 + 2 ^ 12 * w.pc) w.off w.v.toNat)) ∧
  (∀ (off : Fin 1048576) (w : Word) (s t : State), off.val % 4 = 0 → off.val ≠ 0x6002C →
    (∀ v ∈ s.winDone, v.off = off.val → v.cyc ≠ s.strokes + s.tb.edges) → t = s.modHost (fun h => { h with rsErr := 0 }) →
    exec (.registerWrite off w 15 0) s = .next (t.regWrite 0 off w.toNat)) ∧
  (∀ (off : Fin 1048576) (w : Word) (v : WinWrite) (s t : State), off.val % 4 = 0 → 0x20000 ≤ off.val → off.val < 0x50000 →
    ¬(0x30000 ≤ off.val ∧ off.val % 0x200 = 0) → s.winDone = [v] → v.off = off.val → v.cyc = s.strokes + s.tb.edges →
    (s.locked = true → rwlMask off = 0) →
    t = (s.modHost (fun h => { h with rsErr := 0 })).regWrite 0 off w.toNat →
    exec (.registerWrite off w 15 0) s = .next (t.regWrite (if v.rank = 8 then 0 else v.x + 2 ^ 8 + 2 ^ 12 * v.pc)
      v.off v.v.toNat)) ∧
  (∀ (off : Fin 1048576) (w : Word) (b : Fin 16) (n : Fin 64) (s : State), (off.val % 4 ≠ 0 ∨ b ≠ 15 ∨ n ≠ 0) →
    exec (.registerWrite off w b n) s = .next (s.modHost (fun h => { h with rsErr := 1 }))) ∧
  (∀ (who off w : Nat) (s : State), s.locked = true → rwlMask off ≠ 0 →
    (bit (s.reg 0x70000) 1 = true → off ≠ 0x70030 ∧ off ≠ 0x70034 ∧ off ≠ 0x70038) →
    s.regWrite who off w = s.event 10 11 0x20 who off) ∧
  (∀ (who off w : Nat) (s : State), s.locked = true → rwlMask off ≠ 0 → bit (s.reg 0x70000) 1 = true →
    (off = 0x70030 ∨ off = 0x70034 ∨ off = 0x70038) →
    s.regWrite who off w = (s.event 10 11 0x20 who off).pumpCfgErr) ∧
  (∀ (who off w : Nat) (s : State), regAt off = none → s.regWrite who off w = s)

/-! ### The manifold (chapter 11) -/

/-- R380, R381, R382, R385, R390, R391, R392, R394, R395, R398: EVENT_ENTRY takes the oldest event of a source in,
once it has crossed and at most one a stroke; the events of the core's own sources enter with the stroke. When the
stroke ends, each that has entered starts a pulse along every pulse route in effect whose gate term is 1, due after
the hop cost: 1 stroke, 2 with a gate. ROUTE_DELIVERY of one pulse to a consumer: a global bit is written 1 in
manifold rank, a trigger, pump, capture or output gets its event; past the limit the storm guard blocks the input and
reports it. The hypotheses leave out level routes and the trace of R577. Where it goes beyond these rules it follows
the model's own readings of log entry 32. -/
def Obligations.EventsRoutedAndDelivered : Prop :=
  (∀ (src : Fin 1024) (e : SrcEvent) (s : State), s.mf.entryQ.find? (fun e => e.src == src.val) = some e →
    e.from_ ≤ s.strokes → e.src ∉ s.mf.pulsesNow → e.ev = true → pulseSource e.src = true →
    exec (.eventEntry src) s = .next { s with mf := { s.mf with
      entryQ := s.mf.entryQ.erase e, pulsesNow := s.mf.pulsesNow ++ [e.src], entered := s.mf.entered ++ [e] } }) ∧
  (∀ (src : Fin 1024) (e : SrcEvent) (s : State), s.mf.entryQ.find? (fun e => e.src == src.val) = some e →
    e.from_ ≤ s.strokes → e.src ∉ s.mf.pulsesNow → e.ev = true → pulseSource e.src = false →
    exec (.eventEntry src) s = .next { s with mf := { s.mf with
      entryQ := s.mf.entryQ.erase e, pulsesNow := s.mf.pulsesNow ++ [e.src], entered := s.mf.entered ++ [e]
      levels := tset false s.mf.levels e.src e.level } }) ∧
  (∀ (src : Fin 1024) (e : SrcEvent) (s : State), s.mf.entryQ.find? (fun e => e.src == src.val) = some e →
    e.from_ ≤ s.strokes → e.src ∉ s.mf.pulsesNow → pulseSource e.src = false → e.ev = false →
    exec (.eventEntry src) s = .next { s with mf := { s.mf with
      entryQ := s.mf.entryQ.erase e, levels := tset false s.mf.levels e.src e.level } }) ∧
  (∀ (src : Fin 1024) (e : SrcEvent) (s : State), s.mf.entryQ.find? (fun e => e.src == src.val) = some e →
    (s.strokes < e.from_ ∨ e.src ∈ s.mf.pulsesNow) → exec (.eventEntry src) s = .next s) ∧
  (∀ (e : SrcEvent) (s : State), s.mf.entryQ = [e] → coreSource e.src = true → e.from_ ≤ s.strokes →
    e.src ∉ s.mf.pulsesNow → e.ev = true → e.src ∈ s.enterCore.mf.pulsesNow ∧ s.enterCore.mf.entered = s.mf.entered ++ [e] ∧
    s.enterCore.mf.entryQ = []) ∧
  (∀ (e : SrcEvent) (r : Nat) (s : State), s.ecc = [] → s.mf.entered = [e] → s.mf.entryQ = [] → s.routeNums = [r] →
    reservedSource e.src = false → bit (s.route r) 28 = false →
    s.routeStroke = (s.routeBy e r).modMf (fun m => { m with entered := [] })) ∧
  (∀ (e : SrcEvent) (r : Nat) (s : State), s.ecc = [] → s.pulseRoute r e.src e.rising = true → bit (s.route r) 29 = false →
    s.routeBy e r = { s with mf := { s.mf with
      pulses := s.mf.pulses ++ [{ input := bits (s.route r) 25 16, src := e.src, due := s.strokes + 1 }] } }) ∧
  (∀ (e : SrcEvent) (r : Nat) (s : State), s.ecc = [] → s.pulseRoute r e.src e.rising = true → bit (s.route r) 29 = true →
    pulseSource (bits (s.gate r) 9 0) = false → reservedSource (bits (s.gate r) 9 0) = false →
    s.routeBy e r = { s with mf := { s.mf with
      pulses := if tget false s.mf.levels (bits (s.gate r) 9 0) = bit (s.gate r) 16 then s.mf.pulses
        else s.mf.pulses ++ [{ input := bits (s.route r) 25 16, src := e.src, due := s.strokes + 2 }] } }) ∧
  (∀ (e : SrcEvent) (r : Nat) (s : State), s.ecc = [] → s.pulseRoute r e.src e.rising = false → s.routeBy e r = s) ∧
  (∀ (k : Fin 16) (level : Bool) (s : State), tget false s.mf.extIn k ≠ level →
    exec (.extInEdge k level) s = .next { s with mf := { s.mf with
      extIn := tset false s.mf.extIn k level
      entryQ := s.mf.entryQ ++ [{ src := 0x388 + k, ev := true, rising := level, level := level, from_ := s.strokes + 2 }] } }) ∧
  (∀ (i : Fin 1024) (p : Pulse) (s : State), s.mf.pulses = [p] → p.input = i → p.due ≤ s.strokes → s.mf.moves = [] →
    s.mf.contrib = [] → (s.inStat i).level = false → s.strokes / s.stormWin = s.mf.window → s.ecc = [] →
    bit (s.reg 0xF0000) 0 = false →
    ((s.inStat i).storm = false → (s.inStat i).inWindow + 1 ≤ s.stormMax → Answers (.routeDelivery i) s (fun t =>
      t.mf.pulses = [] ∧ (t.inStat i).count = 1 ∧ (t.inStat i).inWindow = (s.inStat i).inWindow + 1 ∧
      (∀ j, j ≠ i.val → t.inStat j = s.inStat j) ∧
      (i.val < 0x280 → t.gpend = s.gpend ++ [{ at_ := s.strokes, rank := 8, addr := s.bitinTarget i, v := some true }] ∧
        (t.inStat i).ovr = ((s.inStat i).ovr || s.gbitAfterThreads (s.bitinTarget i))) ∧
      (0x280 ≤ i.val → t.gpend = s.gpend ∧ (t.inStat i).ovr = (s.inStat i).ovr) ∧
      t.mf.trigX = s.mf.trigX ++ (if 0x280 ≤ i.val ∧ i.val < 0x380 then [⟨((i.val - 0x280) / 2, i.val % 2), s.strokes, 0⟩] else []) ∧
      t.mf.ptrgX = s.mf.ptrgX ++ (if 0x380 ≤ i.val ∧ i.val < 0x3C0 then [i.val - 0x380] else []) ∧
      t.mf.capX = s.mf.capX ++ (if 0x3E0 ≤ i.val ∧ i.val < 0x3F0 then [⟨i.val - 0x3E0, s.strokes, 0⟩] else []) ∧
      t.mf.extX = s.mf.extX ++ (if 0x3F0 ≤ i.val then [⟨i.val - 0x3F0, s.strokes, 0⟩] else []) ∧
      { t with mf := s.mf, gpend := s.gpend } = s)) ∧
    ((s.inStat i).storm = false → s.stormMax < (s.inStat i).inWindow + 1 → Answers (.routeDelivery i) s (fun t =>
      (t.inStat i).storm = true ∧ (t.inStat i).dropped = min 65535 ((s.inStat i).dropped + 1) ∧
      t.mf.alarm = s.mf.alarm ||| 1 ∧ (t.evq.getLast?).map (fun e => (e.cls, e.typ, e.arg0, e.arg1)) =
        some (12, 0x21, i.val, p.src) ∧ t.mf.trigX = s.mf.trigX ∧ t.mf.ptrgX = s.mf.ptrgX ∧
      { t with mf := s.mf, evq := s.evq } = s)) ∧
    ((s.inStat i).storm = true → Answers (.routeDelivery i) s (fun t =>
      (t.inStat i) = { s.inStat i with dropped := min 65535 ((s.inStat i).dropped + 1), last := some s.strokes } ∧ t.mf.pulses = [] ∧
      { t with mf := s.mf } = s)))

/-- R11, R24, R386, R387, R388, R389, R390, R395, R398, R399, R400, R401: what a delivery does at its consumer once it
has crossed into the consumer's clock: TRIGGER_ARRIVE, TXHOLD_CHANGE, TSCAP_CAPTURE, EXTOUT_PULSE, STRETCHER_END, and
the levels of ext_out. STORM_WINDOW, STORM_REARM, ROUTE_WRITE, GATE_WRITE, SIGNATURE_PASS and GOLDEN_WRITE. Where it
goes beyond these rules it follows the model's own readings of log entries 3, 112, 113. -/
def Obligations.ConsumersAndManifoldControl : Prop :=
  (∀ (v : Fin 128) (e : Cross (Nat × Nat)) (s : State), s.mf.trigX.find? (fun c => c.val == (v.val, 0)) = some e →
    e.at_ < s.strokes → Answers (.triggerArrive v 0) s (fun t =>
      t.valve v = (if (s.valve v).trig0 then { s.valve v with
        ovr0 := true, fresh := (s.valve v).fresh.set (s.strokes + s.tb.edges) (2 ^ 22) } else { s.valve v with trig0 := true }) ∧
      (∀ u, u ≠ v.val → t.valve u = s.valve u) ∧ t.mf = { s.mf with trigX := s.mf.trigX.erase e } ∧
      { t with mf := s.mf, valves := s.valves } = s)) ∧
  (∀ (v : Fin 128) (e : Cross (Nat × Nat)) (s : State), s.mf.trigX.find? (fun c => c.val == (v.val, 1)) = some e →
    e.at_ < s.strokes → Answers (.triggerArrive v 1) s (fun t =>
      t.valve v = (if (s.valve v).trig1 then { s.valve v with
        ovr1 := true, fresh := (s.valve v).fresh.set (s.strokes + s.tb.edges) (2 ^ 23) } else { s.valve v with trig1 := true }) ∧
      (∀ u, u ≠ v.val → t.valve u = s.valve u) ∧ t.mf = { s.mf with trigX := s.mf.trigX.erase e } ∧
      { t with mf := s.mf, valves := s.valves } = s)) ∧
  (∀ (v : Fin 128) (k : Fin 2) (e : Cross (Nat × Nat)) (s : State), s.mf.trigX.find? (fun c => c.val == (v.val, k.val)) = some e →
    s.strokes ≤ e.at_ → exec (.triggerArrive v k) s = .next s) ∧
  (∀ (n : Fin 32) (e : Cross (Nat × Bool)) (s : State), s.mf.holdX.find? (fun e => e.val.1 == n.val) = some e →
    e.at_ < s.strokes → Answers (.txholdChange n) s (fun t => tget false t.mf.txhold n = e.val.2 ∧
      (∀ m, m ≠ n.val → tget false t.mf.txhold m = tget false s.mf.txhold m) ∧
      { t with mf := { t.mf with txhold := s.mf.txhold, holdX := s.mf.holdX } } = s ∧ t.mf.holdX = s.mf.holdX.erase e)) ∧
  (∀ (k : Fin 16) (e : Cross Nat) (s : State), s.mf.capX.find? (fun c => c.val == k.val) = some e →
    e.at_ < s.strokes → e.edge + 2 ≤ s.tb.edges → (tget {} s.mf.caps k : Capture).valid = false →
    Answers (.tscapCapture k) s (fun t =>
      (tget {} t.mf.caps k : Capture).time = s.tb.now ∧ (tget {} t.mf.caps k : Capture).epoch = s.tb.epoch ∧
      (tget {} t.mf.caps k : Capture).valid = true ∧
      t.mf.capX = s.mf.capX.erase e ∧ { t with mf := s.mf } = s)) ∧
  (∀ (k : Fin 16) (e : Cross Nat) (s : State), s.mf.capX.find? (fun c => c.val == k.val) = some e →
    e.at_ < s.strokes → e.edge + 2 ≤ s.tb.edges → (tget {} s.mf.caps k : Capture).valid = true →
    Answers (.tscapCapture k) s (fun t => t.mf.caps = s.mf.caps ∧ (t.inStat (0x3E0 + k)).ovr = true ∧
      t.mf.capX = s.mf.capX.erase e ∧ { t with mf := s.mf } = s)) ∧
  (∀ (k : Fin 16) (e : Cross Nat) (s : State), s.mf.extX.find? (fun c => c.val == k.val) = some e →
    e.at_ < s.strokes → e.edge + 2 ≤ s.tb.edges → (∀ q, tfind s.mf.stretch k = some q → q ≤ s.tb.edges) →
    Answers (.extoutPulse k) s (fun t =>
      tfind t.mf.stretch k = some (s.tb.edges + bits (s.reg 0x5000C) 7 0) ∧ { t with mf := s.mf } = s)) ∧
  (∀ (k : Fin 16) (q : Nat) (e : Cross Nat) (s : State), s.mf.extX.find? (fun c => c.val == k.val) = some e →
    e.at_ < s.strokes → e.edge + 2 ≤ s.tb.edges → tfind s.mf.stretch k = some q → s.tb.edges < q →
    Answers (.extoutPulse k) s (fun t => t.mf.stretch = s.mf.stretch ∧ (t.inStat (0x3F0 + k)).ovr = true ∧
      { t with mf := s.mf } = s)) ∧
  (∀ (k : Fin 16) (e : Nat) (s : State), tfind s.mf.stretch k = some e → e ≤ s.tb.edges →
    Answers (.stretcherEnd k) s (fun t => tfind t.mf.stretch k = none ∧ { t with mf := s.mf } = s)) ∧
  (∀ (e : Cross (Nat × Bool)) (s : State), s.mf.levX = [e] → e.at_ < s.strokes → e.edge + 3 ≤ s.tb.edges →
    s.extLevels = { s with mf := { s.mf with levX := [], extLevel := tset false s.mf.extLevel e.val.1 e.val.2 } }) ∧
  (∀ (k : Nat) (s : State), s.extOut k = true ↔
    tget false s.mf.extLevel k = true ∨ ∃ q, tfind s.mf.stretch k = some q ∧ s.tb.edges < q) ∧
  (∀ s : State, s.strokes / s.stormWin ≠ s.mf.window → Answers .stormWindow s (fun t =>
    t.mf.window = s.strokes / s.stormWin ∧ (∀ i, t.inStat i = { s.inStat i with inWindow := 0 }) ∧
    { t with mf := s.mf } = s)) ∧
  (∀ (i : Fin 1024) (w : Word) (s : State), bit w.toNat 8 = false → bit w.toNat 9 = false → s.mf.contrib = [] →
    (s.inStat i).level = false → bit ((s.inStat i).fresh.held s.strokes) 2 = false → Answers (.stormRearm i w) s (fun t =>
      t.inStat i = { s.inStat i with storm := false, dropped := 0, inWindow := 0 } ∧ { t with mf := s.mf } = s)) ∧
  (∀ (i : Fin 1024) (w : Word) (s : State), bit ((s.inStat i).fresh.held s.strokes) 2 = true →
    Answers (.stormRearm i w) s (fun t => (t.inStat i).storm = (s.inStat i).storm ∧
      (t.inStat i).dropped = (s.inStat i).dropped ∧ { t with mf := s.mf } = s)) ∧
  (∀ (r : Fin 2048) (w : Word) (g : Nat) (s : State), g = (tget 0 s.mf.gatesHeld r).toNat → routeBad w.toNat g = false →
    Answers (.routeWrite r w) s (fun t =>
      t.route r = w.toNat ∧ t.gate r = g ∧ (∀ q, q ≠ r.val → t.route q = s.route q ∧ t.gate q = s.gate q) ∧
      t.mf.stale = true ∧ t.mf.alarm = s.mf.alarm ∧ { t with mf := s.mf, ecc := s.ecc } = s)) ∧
  (∀ (r : Fin 2048) (w : Word) (g : Nat) (s : State), g = (tget 0 s.mf.gatesHeld r).toNat → routeBad w.toNat g = true →
    Answers (.routeWrite r w) s (fun t =>
      t.route r = w.toNat ∧ t.routeOn r = false ∧ t.mf.routeErr = 2 ^ 31 + r ∧ t.mf.alarm = s.mf.alarm ||| 8)) ∧
  (∀ (r : Fin 2048) (w : Word) (s : State), Answers (.gateWrite r w) s (fun t =>
    tget 0 t.mf.gatesHeld r = w ∧ t.mf.gates = s.mf.gates ∧ t.mf.routes = s.mf.routes ∧ t.mf.stale = true ∧
    { t with mf := s.mf } = s)) ∧
  (∀ s : State, s.ecc = [] → s.mf.sigDone = none → s.mf.sigPos + 1 < 4752 → s.sigStep = { s with mf := { s.mf with
    sigPos := s.mf.sigPos + 1
    sigCrc := (toBytes 4 (s.sigWord s.mf.sigPos)).foldl (crcStep 0x82F63B78) s.mf.sigCrc } }) ∧
  (∀ s : State, s.ecc = [] → s.mf.sigDone = none → s.mf.sigPos = 4751 → s.sigStep = { s with mf := { s.mf with
    sigPos := 0, sigCrc := 0xFFFFFFFF, passStart := s.strokes + 1
    sigDone := some ((toBytes 4 (s.sigWord 4751)).foldl (crcStep 0x82F63B78) s.mf.sigCrc ^^^ 0xFFFFFFFF, s.mf.passStart) } }) ∧
  (∀ s : State, (∀ r, r < 2048 → s.sigWord (2 * r) = s.route r ∧ s.sigWord (2 * r + 1) = s.gate r) ∧
    (∀ i, i < 640 → s.sigWord (4096 + i) = s.reg (0x52000 + 4 * i)) ∧
    (∀ k, k < 16 → s.sigWord (4736 + k) = s.reg (0x50040 + 4 * k))) ∧
  (∀ (v b : Nat) (s : State), s.mf.sigDone = some (v, b) → s.mf.stale = false → s.mf.goldenAt ≤ b → v = s.reg 0x50010 →
    exec .signaturePass s = .next { s with mf := { s.mf with
      sigDone := none, sigLast := v, passes := (s.mf.passes + 1) % 65536, lastMatch := true } }) ∧
  (∀ (v b : Nat) (s : State), s.mf.sigDone = some (v, b) → s.mf.stale = false → s.mf.goldenAt ≤ b → v ≠ s.reg 0x50010 →
    Answers .signaturePass s (fun t => t.mf.lastMatch = false ∧ t.mf.sigLast = v ∧ t.mf.alarm = s.mf.alarm ||| 2 ∧
      (t.evq.getLast?).map (fun e => (e.cls, e.typ, e.arg0, e.arg1)) = some (8, 0x20, v, s.reg 0x50010) ∧
      { t with mf := s.mf, evq := s.evq } = s)) ∧
  (∀ (w : Word) (s : State), Answers (.goldenWrite w) s (fun t =>
    t.reg 0x50010 = w.toNat ∧ t.mf = { s.mf with stale := false, goldenAt := s.strokes + 1 } ∧
    (∀ o, o ≠ 0x50010 → t.reg o = s.reg o) ∧ { t with mf := s.mf, regs := s.regs } = s))

/-! ### Valves and pins (chapter 08) -/

/-- R258, R260, R261, R262, R266, R267: BRANCH, COUNT and MARK: where the next instruction stands; the counters; a
safe point. SHIFT, MOVE and SIGNAL: bit counts and order, transforms, flags and events. Where it goes beyond these
rules it follows the model's own readings of log entries 36, 87. -/
def Obligations.ValveInstructions : Prop :=
  (∀ (v : Fin 128) (w : Nat) (s : State), ValveAt s v w → vOp w = 0 →
    exec (.branch v) s = .next (s.vNext v w (if s.vCond v (bits (vParam w) 8 6) then bits (vParam w) 5 0
      else (s.valve v).pc + 1))) ∧
  (∀ (v : Fin 128) (s : State), s.vCond v 0 = true ∧
    s.vCond v 1 = (s.pin (v / 4) (bits (s.vreg v 8) 6 4)).cond ∧ s.vCond v 2 = !s.vCond v 1 ∧
    s.vCond v 3 = decide ((s.valve v).k0 = 0) ∧ s.vCond v 4 = decide ((s.valve v).k1 = 0) ∧
    s.vCond v 5 = decide ((if bits (s.vreg v 8) 12 8 = 0 then 32 else bits (s.vreg v 8) 12 8) ≤ (s.valve v).txn) ∧
    s.vCond v 6 = decide ((if bits (s.vreg v 8) 20 16 = 0 then 32 else bits (s.vreg v 8) 20 16) ≤ (s.valve v).rxn) ∧
    s.vCond v 7 = decide ((s.valve v).rxw &&& BitVec.ofNat 32 (s.vreg v 0x48) = (s.valve v).cmpw)) ∧
  (∀ (v : Fin 128) (w : Nat) (s : State), ValveAt s v w → vOp w = 1 → bits (vParam w) 7 6 = 0 →
    exec (.countLoad v) s = .next ((s.modValve v (fun x => if bit (vParam w) 8 then
      { x with k1 := bits (vParam w) 5 0 } else { x with k0 := bits (vParam w) 5 0 })).vNext v w ((s.valve v).pc + 1))) ∧
  (∀ (v : Fin 128) (w : Nat) (s : State), ValveAt s v w → vOp w = 1 → bits (vParam w) 7 6 = 1 →
    exec (.countReload v) s = .next ((s.modValve v (fun x => if bit (vParam w) 8 then
      { x with k1 := bits (s.vreg v 0x40) 31 16 } else { x with k0 := bits (s.vreg v 0x40) 15 0 })).vNext v w
        ((s.valve v).pc + 1))) ∧
  (∀ (v : Fin 128) (w : Nat) (s : State), ValveAt s v w → vOp w = 1 → bits (vParam w) 7 6 = 2 →
    exec (.countDec v) s = .next ((s.modValve v (fun x => if bit (vParam w) 8 then
      { x with k1 := x.k1 - 1 } else { x with k0 := x.k0 - 1 })).vNext v w ((s.valve v).pc + 1))) ∧
  (∀ (v : Fin 128) (w k : Nat) (s : State), ValveAt s v w → vOp w = 1 → bits (vParam w) 7 6 = 3 →
    k = (if bit (vParam w) 8 then (s.valve v).k1 else (s.valve v).k0) →
    exec (.countLoop v) s = .next ((s.modValve v (fun x => if bit (vParam w) 8 then
      { x with k1 := k - 1 } else { x with k0 := k - 1 })).vNext v w
        (if k - 1 = 0 then (s.valve v).pc + 1 else bits (vParam w) 5 0))) ∧
  (∀ (v : Fin 128) (w : Nat) (s : State), ValveAt s v w → vOp w = 7 →
    exec (.mark v) s = .next ((s.vNext v w ((s.valve v).pc + 1)).modValve v (fun x => { x with
      safe := bit (vParam w) 8 }))) ∧
  (∀ (v : Fin 128) (w pc : Nat) (s t : State), t = s.vNext v w pc → t.valve v = { s.valve v with
      pc := pc % 64, stalled := false, dwell := bits w 19 16, safe := false, cycled := (s.valve v).swap.isSome
      div := s.vreg v 4 % 65536 } ∧ (∀ u, u ≠ v.val → t.valve u = s.valve u) ∧
    (∀ k, (s.pinOwner (v / 4) (k % 8) ≠ v % 4 ∨ k / 8 ≠ v / 4) → tget {} t.pins k = (tget {} s.pins k : PinSt)) ∧
    (∀ j, j < 8 → s.pinOwner (v / 4) j = v % 4 →
      t.pin (v / 4) j = match bits w (2 * j + 1) (2 * j) with
        | 1 => { s.pin (v / 4) j with out := false, oe := true }
        | 2 => { s.pin (v / 4) j with out := true, oe := true }
        | 3 => { s.pin (v / 4) j with oe := false }
        | _ => s.pin (v / 4) j) ∧
    { t with valves := s.valves, pins := s.pins } = s) ∧
  (∀ (v : Fin 128) (w : Nat) (s : State), ValveAt s v w → vOp w = 2 → bits (vParam w) 8 7 = 0 →
    exec (.shiftSend v) s = .next ((s.vSend v (vShiftN (vParam w))).vNext v w ((s.valve v).pc + 1))) ∧
  (∀ (v : Fin 128) (w : Nat) (s : State), ValveAt s v w → vOp w = 2 → bits (vParam w) 8 7 = 1 →
    exec (.shiftSample v) s = .next ((s.vSample v (vShiftN (vParam w))).vNext v w ((s.valve v).pc + 1))) ∧
  (∀ (v : Fin 128) (w : Nat) (s : State), ValveAt s v w → vOp w = 2 → bits (vParam w) 8 7 = 2 →
    exec (.shiftFill v) s =
      .next ((s.vFill v (vShiftN (vParam w)) (bit (vParam w) 5)).vNext v w ((s.valve v).pc + 1))) ∧
  (∀ (v : Fin 128) (w : Nat) (s : State), ValveAt s v w → vOp w = 2 → bits (vParam w) 8 7 = 3 →
    exec (.shiftDiscard v) s = .next ((s.vDiscard v (vShiftN (vParam w))).vNext v w ((s.valve v).pc + 1))) ∧
  (∀ (v n : Nat) (s t : State), bit (s.vreg v 8) 0 = false → n ≤ 32 → t = s.vDiscard v n →
    (t.valve v).txw = (s.valve v).txw >>> n ∧ ((s.valve v).txn ≤ 32 → (t.valve v).txn = min 32 ((s.valve v).txn + n)) ∧
    { t with valves := s.valves } = s) ∧
  (∀ (v n : Nat) (b : Bool) (s t : State), bit (s.vreg v 8) 1 = true → n ≤ 32 → t = s.vFill v n b →
    (t.valve v).rxw = ((s.valve v).rxw <<< n) ||| (if b then BitVec.ofNat 32 (2 ^ n - 1) else 0) ∧
    { t with valves := s.valves } = s) ∧
  (∀ (v : Fin 128) (w : Nat) (s : State), ValveAt s v w → vOp w = 3 →
    exec (.move v) s = .next ((s.vDst v (bits (vParam w) 8 6) (vXform (bits (vParam w) 2 0) (s.vSrc v
      (bits (vParam w) 5 3)))).vNext v w ((s.valve v).pc + 1))) ∧
  (∀ w : Word, vXform 0 w = w ∧ vXform 1 w = ~~~w ∧ vXform 3 w = w.rotateLeft 16 ∧
    vXform 2 w = w.extractLsb' 0 8 ++ w.extractLsb' 8 8 ++ w.extractLsb' 16 8 ++ w.extractLsb' 24 8) ∧
  (∀ (v : Fin 128) (w : Nat) (s : State), ValveAt s v w → vOp w = 6 → bits (vParam w) 8 7 = 0 →
    exec (.signalSet v) s = .next ((s.setPflag v (bits (vParam w) 2 0) true).vNext v w ((s.valve v).pc + 1))) ∧
  (∀ (v : Fin 128) (w : Nat) (s : State), ValveAt s v w → vOp w = 6 → bits (vParam w) 8 7 = 1 →
    exec (.signalClear v) s = .next ((s.setPflag v (bits (vParam w) 2 0) false).vNext v w ((s.valve v).pc + 1))) ∧
  (∀ (v : Fin 128) (w : Nat) (s : State), ValveAt s v w → vOp w = 6 → bits (vParam w) 8 7 = 2 →
    exec (.signalEvent v) s = .next ((s.raiseClock (0x100 + 2 * v + bits (vParam w) 2 0 % 2)).vNext v w
      ((s.valve v).pc + 1))) ∧
  (∀ (v : Fin 128) (w : Nat) (s : State), ValveAt s v w → vOp w = 6 → bits (vParam w) 8 7 = 3 →
    exec (.signalSetEvent v) s = .next (((s.setPflag v (bits (vParam w) 2 0) true).raiseClock (0x100 + 2 * v + bits (vParam w) 2 0 % 2)).vNext v w ((s.valve v).pc + 1))) ∧
  (∀ (v k : Nat) (b : Bool) (s t : State), (tget {} s.flagCycs (v / 4) : FlagCyc).at_ ≠ s.strokes + s.tb.edges →
    t = s.setPflag v k b → t.pflag v k = b ∧ (∀ j, j ≠ k → t.pflag v j = s.pflag v j) ∧
    (∀ n, n ≠ v / 4 → tget 0 t.flags n = tget 0 s.flags n) ∧ { t with flags := s.flags, flagCycs := s.flagCycs } = s) ∧
  (∀ (u v k : Nat) (b c : Bool) (s : State), (tget {} s.flagCycs (v / 4) : FlagCyc).at_ ≠ s.strokes + s.tb.edges →
    u / 4 = v / 4 → u % 4 < v % 4 → ((s.setPflag u k b).setPflag v k c).pflag v k = (b || c))

/-- R263, R264, R265, R266, R267, R269: TAKE and GIVE, their stalls, AWAIT in its first and later cycles, an illegal
valve instruction. Two valves that await one flag set both end in one cycle. Where it goes beyond these rules it
follows the model's own readings of log entries 36, 87. -/
def Obligations.ValveWaitsAndQueues : Prop :=
  (∀ (v : Fin 128) (w : Nat) (e : Word) (es : List Word) (s : State), ValveAt s v w → vOp w = 4 →
    bit (vParam w) 8 = false → (s.valve v).txReady = e :: es →
    exec (.take v) s = .next ((s.modValve v (fun x => { x with
      txReady := es, txw := e, lastTake := e, txn := 0
      creditBack := x.creditBack ++ [s.strokes] })).vNext v w ((s.valve v).pc + 1))) ∧
  (∀ (v : Fin 128) (w : Nat) (s : State), ValveAt s v w → vOp w = 4 → bit (vParam w) 8 = false →
    (s.valve v).txReady = [] → bit (vParam w) 7 = false →
    exec (.take v) s = .next ((s.modValve v (fun x => { x with
      txw := x.lastTake, txn := 0, stale := true, nStale := min 255 (x.nStale + 1)
      fresh := x.fresh.set (s.strokes + s.tb.edges) (2 ^ 18) })).vNext v w ((s.valve v).pc + 1))) ∧
  (∀ (v : Fin 128) (w : Nat) (s : State), ValveAt s v w → vOp w = 4 → bit (vParam w) 8 = true →
    ((s.valve v).rxCross.filter (fun c => !c.val.2)).length + (s.valve v).rxReady.length < s.rxDepth v →
    exec (.give v) s = .next ((s.modValve v (fun x => { x with
      rxCross := x.rxCross ++ [⟨(x.rxw, false), s.strokes, 0⟩], rxw := 0, rxn := 0 })).vNext v w ((s.valve v).pc + 1))) ∧
  (∀ (v : Fin 128) (w : Nat) (s : State), ValveAt s v w → vOp w = 4 → bit (vParam w) 8 = true →
    s.rxDepth v ≤ ((s.valve v).rxCross.filter (fun c => !c.val.2)).length + (s.valve v).rxReady.length →
    bit (vParam w) 7 = false →
    exec (.give v) s = .next ((s.modValve v (fun x => { x with
      rxCross := x.rxCross ++ [⟨(x.rxw, true), s.strokes, 0⟩], rxw := 0, rxn := 0, overwrite := true
      nOverwrite := min 255 (x.nOverwrite + 1), fresh := x.fresh.set (s.strokes + s.tb.edges) (2 ^ 19) })).vNext v w
        ((s.valve v).pc + 1))) ∧
  (∀ (v : Fin 128) (i : Instr) (w : Nat) (s : State), ValveAt s v w → vOp w = 4 → bit (vParam w) 7 = true →
    (i = .take v ∧ bit (vParam w) 8 = false ∧ (s.valve v).txReady = [] ∨ i = .give v ∧ bit (vParam w) 8 = true ∧
      s.rxDepth v ≤ ((s.valve v).rxCross.filter (fun c => !c.val.2)).length + (s.valve v).rxReady.length) →
    exec i s = .next ((s.pinFx v w).vStall v)) ∧
  (∀ (v : Fin 128) (w : Nat) (e : Word) (es : List Word) (s : State), (s.valve v).word = w → (s.valve v).run = true →
    (s.valve v).stalled = true → vOp w = 4 → bit (vParam w) 8 = false → (s.valve v).txReady = e :: es →
    exec (.queueStallEnd v) s = .next ((s.modValve v (fun x => { x with
      txReady := es, txw := e, lastTake := e, txn := 0
      creditBack := x.creditBack ++ [s.strokes] })).vEnd v ((s.valve v).pc + 1) w)) ∧
  (∀ (v : Fin 128) (w : Nat) (s : State), (s.valve v).word = w → (s.valve v).run = true →
    (s.valve v).stalled = true → vOp w = 4 → bit (vParam w) 8 = true →
    ((s.valve v).rxCross.filter (fun c => !c.val.2)).length + (s.valve v).rxReady.length < s.rxDepth v →
    exec (.queueStallEnd v) s = .next ((s.modValve v (fun x => { x with
      rxCross := x.rxCross ++ [⟨(x.rxw, false), s.strokes, 0⟩], rxw := 0, rxn := 0 })).vEnd v ((s.valve v).pc + 1) w)) ∧
  (∀ (v : Fin 128) (w : Nat) (s : State), ValveAt s v w → vOp w = 5 → bits (vParam w) 8 6 ∈ [0, 1] →
    bit (vParam w) 5 = false → Answers (.await v) s (fun t =>
      (t.valve v).stalled = ((s.pin (v / 4) (bits (vParam w) 2 0)).cond == (bits (vParam w) 8 6 == 1)) ∧
      ((t.valve v).stalled = true → (t.valve v).pc = (s.valve v).pc) ∧
      ((t.valve v).stalled = false → (t.valve v).pc = ((s.valve v).pc + 1) % 64) ∧
      (∀ u, u ≠ v.val → t.valve u = s.valve u) ∧ { t with valves := s.valves, pins := s.pins } = s)) ∧
  (∀ (v : Fin 128) (w : Nat) (s : State), (s.valve v).word = w → (s.valve v).run = true → (s.valve v).stalled = true →
    vOp w = 5 → bits (vParam w) 8 6 = 2 → (s.pin (v / 4) (bits (vParam w) 2 0)).cond ≠ (s.valve v).edge0 →
    exec (.awaitPass v) s = .next (s.vEnd v ((s.valve v).pc + 1) w)) ∧
  (∀ (v : Fin 128) (w : Nat) (s : State), (s.valve v).word = w → (s.valve v).run = true → (s.valve v).stalled = true →
    vOp w = 5 → bits (vParam w) 8 6 = 4 → s.pflag v (bits (vParam w) 2 0) = true →
    exec (.awaitPass v) s = .next ((s.setPflag v (bits (vParam w) 2 0) false).vEnd v ((s.valve v).pc + 1) w)) ∧
  (∀ (u v : Fin 128) (w x pc : Nat) (s t : State), (tget {} s.flagCycs (v / 4) : FlagCyc).at_ ≠ s.strokes + s.tb.edges →
    u.val / 4 = v.val / 4 → u.val % 4 < v.val % 4 → s.pflag v (bits (vParam w) 2 0) = true →
    t = (s.setPflag u (bits (vParam w) 2 0) false).vEnd u pc x → (t.valve v).word = w → (t.valve v).run = true →
    (t.valve v).stalled = true → vOp w = 5 → bits (vParam w) 8 6 = 4 →
    exec (.awaitPass v) t = .next ((t.setPflag v (bits (vParam w) 2 0) false).vEnd v ((t.valve v).pc + 1) w)) ∧
  (∀ (v : Fin 128) (w : Nat) (s : State), (s.valve v).word = w → (s.valve v).run = true → (s.valve v).stalled = true →
    vOp w = 5 → s.vAwait v (bits (vParam w) 8 6) (bits (vParam w) 2 0) false (s.pflag v (bits (vParam w) 2 0)) = false →
    bit (vParam w) 5 = true → 1 < (s.valve v).k1 →
    exec (.await v) s = .next ((s.modValve v (fun x => { x with k1 := x.k1 - 1 })).vStall v)) ∧
  (∀ (v : Fin 128) (w : Nat) (s : State), (s.valve v).word = w → (s.valve v).run = true → (s.valve v).stalled = true →
    vOp w = 5 → s.vAwait v (bits (vParam w) 8 6) (bits (vParam w) 2 0) false (s.pflag v (bits (vParam w) 2 0)) = false →
    bit (vParam w) 5 = true → (s.valve v).k1 ≤ 1 →
    exec (.awaitTimeout v) s = .next ((s.modValve v (fun x => { x with k1 := 0 })).vEnd v ((s.valve v).pc + 1) w)) ∧
  (∀ (v : Fin 128) (w : Nat) (s : State), s.up (3 + v / 16) = true → (s.valve v).run = true → (s.valve v).stalled = false →
    (s.valve v).word = w → vIllegal w (s.txDepth v) (s.rxDepth v) = true →
    exec (.valveIllegal v) s = .next (((s.vNext v w ((s.valve v).pc + 1)).modValve v (fun x => { x with
      illop := true, fresh := x.fresh.set (s.strokes + s.tb.edges) (2 ^ 17) })).event 9 14 0x20 v (s.valve v).pc))

/-- R11, R24, R220, R256, R264, R270, R271, R274, R281, R282, R283, R284, R285, R286, R289: valve registers, program
swap and queue crossings. Where it goes beyond these rules it follows the model's own readings of log entries 1, 3. -/
def Obligations.ValveRegistersAndSwap : Prop :=
  (∀ (v : Fin 128) (w : Word) (s : State), bit w.toNat 1 = false → bit w.toNat 2 = false → bit w.toNat 16 = false →
    (s.valve v).run = false → (s.laneMode (v / 4) = false ∨ 2 ≤ v.val % 4) → Answers (.valveStart v w) s (fun t =>
      t.valve v = { s.valve v with run := true, stalled := false, dwell := 0, safe := false, div := s.vreg v 4 % 65536 } ∧
      (∀ u, u ≠ v.val → t.valve u = s.valve u) ∧ bit (t.vreg v 0) 0 = true ∧
      (∀ o, o ≠ 0x30000 + 0x200 * v.val → t.reg o = s.reg o) ∧ { t with valves := s.valves, regs := s.regs } = s)) ∧
  (∀ (v : Fin 128) (w : Word) (s : State), s.laneMode (v / 4) = true → v.val % 4 < 2 →
    exec (.valveStart v w) s = .next (s.modValve v (fun x => { x with
      cfgErr := true, fresh := x.fresh.set (s.strokes + s.tb.edges) 1 }))) ∧
  (∀ (v : Fin 128) (w : Word) (s : State), bit w.toNat 1 = false → bit w.toNat 2 = false → bit w.toNat 16 = false →
    Answers (.valveStop v w) s (fun t =>
      t.valve v = { s.valve v with run := false, stalled := false, dwell := 0, safe := false } ∧
      (∀ u, u ≠ v.val → t.valve u = s.valve u) ∧ bit (t.vreg v 0) 0 = false ∧
      (∀ o, o ≠ 0x30000 + 0x200 * v.val → t.reg o = s.reg o) ∧ { t with valves := s.valves, regs := s.regs } = s)) ∧
  (∀ (v : Fin 128) (w : Word) (s : State), bit w.toNat 0 = false → bit w.toNat 2 = false → bit w.toNat 16 = false →
    Answers (.restart v w) s (fun t =>
      t.valve v = { s.valve v with
        run := false, stalled := false, dwell := 0, safe := false, pc := bits w.toNat 13 8, txw := 0, rxw := 0, txn := 0
        rxn := 0, k0 := 0, k1 := 0, lastTake := 0, trig0 := false, trig1 := false } ∧
      (∀ u, u ≠ v.val → t.valve u = s.valve u) ∧ { t with valves := s.valves, regs := s.regs } = s)) ∧
  (∀ (v : Fin 128) (w : Word) (s : State), bit w.toNat 0 = false → bit w.toNat 1 = false → bit w.toNat 16 = false →
    Answers (.clrCounts v w) s (fun t =>
      (t.valve v).nOverflow = 0 ∧ (t.valve v).nUnderrun = 0 ∧ (t.valve v).nStale = 0 ∧ (t.valve v).nOverwrite = 0 ∧
      (∀ u, u ≠ v.val → t.valve u = s.valve u) ∧ { t with valves := s.valves, regs := s.regs } = s)) ∧
  (∀ (v : Fin 128) (w : Word) (s : State), Answers (.clkdivWrite v w) s (fun t =>
    t.vreg v 4 = w.toNat % 65536 ∧ t.valve v = s.valve v ∧ { t with regs := s.regs } = s)) ∧
  (∀ (v : Fin 128) (w : Word) (s : State), (s.valve v).run = false → bits w.toNat 1 0 ≠ 3 →
    bits w.toNat 1 0 ≠ bits (s.vreg v 0x0C) 1 0 → Answers (.qcfgWrite v w) s (fun t =>
      bits (t.vreg v 0x0C) 1 0 = bits w.toNat 1 0 ∧ t.valve v = { s.valve v with
        txCross := [], txReady := [], rxCross := [], rxReady := [], creditBack := []
        credit := if bits w.toNat 1 0 = 0 then 4 else if bits w.toNat 1 0 = 1 then 8 else 0 } ∧
      { t with valves := s.valves, regs := s.regs } = s)) ∧
  (∀ (v : Fin 128) (i : Instr) (w : Word) (n : Fin 2) (k : Fin 64) (s : State),
    (i = .qcfgWrite v w ∧ ((s.valve v).run = true ∨ bits w.toNat 1 0 = 3) ∨ i = .kWrite v n w ∧ (s.valve v).run = true ∨
     i = .progWrite v k w ∧ (bit (s.vreg v 0) 3 = true ∨ (s.valve v).swap.isSome = true)) →
    exec i s = .next (s.modValve v (fun x => { x with
      cfgErr := true, fresh := x.fresh.set (s.strokes + s.tb.edges) 1 }))) ∧
  (∀ (v : Fin 128) (k : Fin 64) (w : Word) (s : State), bit (s.vreg v 0) 3 = false → (s.valve v).swap = none →
    Answers (.progWrite v k w) s (fun t =>
      (∀ j, tget 0 (if (s.valve v).bank then (t.valve v).prog0 else (t.valve v).prog1) j =
        if j = k.val then w else tget 0 (if (s.valve v).bank then (s.valve v).prog0 else (s.valve v).prog1) j) ∧
      (if (s.valve v).bank then (t.valve v).prog1 = (s.valve v).prog1 else (t.valve v).prog0 = (s.valve v).prog0) ∧
      { t with valves := s.valves } = s)) ∧
  (∀ (v : Fin 128) (n : Fin 2) (w : Word) (s : State), (s.valve v).run = false →
    exec (.kWrite v n w) s = .next (s.modValve v (fun x =>
      if n = 0 then { x with k0 := w.toNat % 65536 } else { x with k1 := w.toNat % 65536 }))) ∧
  (∀ (v : Fin 128) (i : Instr) (m : Nat) (w : Word) (s : State),
    (i, m) ∈ [(.swapSafe v w, 1), (.swapIdle v w, 2), (.swapForced v w, 3)] → Answers i s (fun t =>
      t.valve v = { s.valve v with
        cycled := false, swap := some { mode := m, entry := bits w.toNat 13 8, clear := bit w.toNat 16 } } ∧
      { t with valves := s.valves, regs := s.regs } = s)) ∧
  (∀ (v : Fin 128) (w : Word) (s : State), Answers (.swapCancel v w) s (fun t =>
    t.valve v = { s.valve v with cycled := false, swap := none } ∧ { t with valves := s.valves, regs := s.regs } = s)) ∧
  (∀ (v : Fin 128) (left : Fin 16) (r : SwapReq) (s : State), (s.valve v).swap = some r → (s.valve v).run = false →
    Answers (.valveSwap v left) s (fun t =>
      (t.valve v).bank = !(s.valve v).bank ∧ (t.valve v).pc = r.entry ∧ (t.valve v).swap = none ∧
      (r.clear = true → (t.valve v).txw = 0 ∧ (t.valve v).rxw = 0 ∧ (t.valve v).k0 = 0 ∧ (t.valve v).k1 = 0) ∧
      (r.clear = false → (t.valve v).txw = (s.valve v).txw ∧ (t.valve v).rxw = (s.valve v).rxw) ∧
      { t with valves := s.valves } = s)) ∧
  (∀ (v : Fin 128) (c : Cross Word) (cs : List (Cross Word)) (s : State), (s.valve v).txCross = c :: cs → c.at_ < s.strokes →
    exec (.txEntryReady v) s = .next (s.modValve v (fun x => { x with txCross := cs, txReady := x.txReady ++ [c.val] }))) ∧
  (∀ (v : Fin 128) (c : Cross (Word × Bool)) (cs : List (Cross (Word × Bool))) (s : State), (s.valve v).rxCross = c :: cs →
    c.at_ + 2 ≤ s.strokes → c.val.2 = false →
    exec (.rxEntryArrive v) s = .next (s.modValve v (fun x => { x with rxCross := cs, rxReady := x.rxReady ++ [c.val.1] }))) ∧
  (∀ (v : Fin 128) (c : Cross (Word × Bool)) (cs : List (Cross (Word × Bool))) (s : State), (s.valve v).rxCross = c :: cs →
    c.at_ + 2 ≤ s.strokes → c.val.2 = true → (s.valve v).rxReady ≠ [] →
    exec (.rxEntryArrive v) s = .next (s.modValve v (fun x => { x with
      rxCross := cs, rxReady := x.rxReady.dropLast ++ [c.val.1] }))) ∧
  (∀ (v : Fin 128) (c : Cross (Word × Bool)) (cs : List (Cross (Word × Bool))) (s : State), (s.valve v).rxCross = c :: cs →
    c.at_ + 2 ≤ s.strokes → c.val.2 = true → (s.valve v).rxReady = [] →
    exec (.rxEntryArrive v) s = .next (s.modValve v (fun x => { x with rxCross := cs }))) ∧
  (∀ (v : Fin 128) (q : Nat) (qs : List Nat) (s : State), (s.valve v).creditBack = q :: qs → q + 2 ≤ s.strokes →
    exec (.putCreditReturn v) s = .next (s.modValve v (fun x => { x with creditBack := qs, credit := x.credit + 1 }))) ∧
  (∀ (v w : Nat) (s : State), bit ((s.valve v).fresh.held (s.strokes + s.tb.edges)) 17 = true →
    ((s.valveStatusWrite v w).valve v).illop = (s.valve v).illop)

/-- R11, R252, R253, R267, R275, R276, R278, R279, R280: pins: a sample runs filter, chatter limiter and stuck
detector; a changed level that has lasted FILT samples passes and raises the pin's source; CHATTER_WINDOW and STUCK.
Writes of the pin registers. Where it goes beyond these rules it follows the model's own readings of log entries 1,
78, 87. -/
def Obligations.PinsConditionedAndDriven : Prop :=
  (∀ (n : Fin 32) (j : Fin 8) (l : Bool) (s : State), Answers (.pinIn n j l) s (fun t =>
    t.pin n j = { s.pin n j with raw := l } ∧ (∀ k, k ≠ 8 * n.val + j.val → tget {} t.pins k = (tget {} s.pins k : PinSt)) ∧
    { t with pins := s.pins } = s)) ∧
  (∀ (n j c : Nat) (s t : State), s.pcond n j = c → (s.pin n j).condWrite = false → (s.pin n j).rearm = false →
    (s.pin n j).stuckClr = false → (s.pin n j).frozen = false → (s.pin n j).forced = false → bits c 15 8 = 0 →
    (s.pin n j).raw ≠ (s.pin n j).filt → (s.pin n j).filt = (s.pin n j).cond → max 1 (bits c 7 0) ≤ (s.pin n j).fcnt + 1 →
    t = s.samplePin n j →
    (t.pin n j).filt = (s.pin n j).raw ∧ (t.pin n j).cond = (s.pin n j).raw ∧ (t.pin n j).fcnt = 0 ∧
    t.mf.entryQ = s.mf.entryQ ++ [{ src := 8 * n + j, ev := true, rising := (s.pin n j).raw, level := (s.pin n j).raw
                                    from_ := s.strokes + 2 }]) ∧
  (∀ (n j c : Nat) (s t : State), s.pcond n j = c → (s.pin n j).condWrite = false → (s.pin n j).rearm = false →
    (s.pin n j).stuckClr = false → (s.pin n j).frozen = false → (s.pin n j).forced = false →
    (s.pin n j).raw ≠ (s.pin n j).filt → (s.pin n j).filt = (s.pin n j).cond → (s.pin n j).fcnt + 1 < max 1 (bits c 7 0) →
    t = s.samplePin n j →
    (t.pin n j).filt = (s.pin n j).filt ∧ (t.pin n j).cond = (s.pin n j).cond ∧ (t.pin n j).fcnt = (s.pin n j).fcnt + 1 ∧
    t.mf = s.mf) ∧
  (∀ (n : Fin 32) (s : State), s.up (3 + n.val / 4) = true →
    exec (.samplePoint n) s = .next ((List.range 8).foldl (fun t j => if t.stuckDue n j then
      (t.stuckLatch n j).samplePin n j else t.samplePin n j) s)) ∧
  (∀ (n : Fin 32) (j : Fin 8) (s : State), (s.pin n j).condWrite = false →
    2 ^ (bits (s.pcond n j) 19 16 + 4) ≤ (s.pin n j).chatSamples →
    exec (.chatterWindow n j) s = .next (s.modPin n j (fun p => { p with chatSamples := 0, chatCount := 0 }))) ∧
  (∀ (n : Fin 32) (j : Fin 8) (c : Nat) (s : State), s.pcond n j = c → 0 < bits c 31 24 →
    bits c 31 24 * 65536 ≤ (s.pin n j).stuckCnt → (s.pin n j).stuckFired = false → bit c 21 = true →
    (s.pin n j).condWrite = false → (s.pin n j).stuckClr = false →
    Answers (.stuck n j) s (fun t =>
      (t.pin n j).stuck = true ∧ (t.pin n j).forced = true ∧ (t.pin n j).cond = !bit c 20 ∧
      (t.evq.getLast?).map (fun e => (e.cls, e.typ, e.arg0)) = some (14, 0x20, n.val + 256 * j.val + 4096) ∧
      (∀ k, k ≠ 8 * n.val + j.val → tget {} t.pins k = (tget {} s.pins k : PinSt)) ∧
      { t with pins := s.pins, mf := s.mf, evq := s.evq } = s)) ∧
  (∀ (n : Fin 32) (w : Word) (s : State), exec (.pinSampleWrite n w) s = .next ((List.range 8).foldl (fun t j =>
    (if t.stuckDue n j then t.stuckLatch n j else t).modPin n j (fun p => { p with
      fcnt := 0, chatSamples := 0, chatCount := 0, stuckCnt := 0, stuckFired := false }))
    (s.setReg (0x20000 + 0x800 * n.val + 0x704) (w.toNat % 256)))) ∧
  (∀ (n : Fin 32) (w : Word) (s : State), (∀ j, j < 8 → s.stuckDue n j = false) → Answers (.pinSampleWrite n w) s (fun t =>
    t.preg n 0x704 = w.toNat % 256 ∧ (∀ j, j < 8 → t.pin n j = { s.pin n j with
      fcnt := 0, chatSamples := 0, chatCount := 0, stuckCnt := 0, stuckFired := false }) ∧
    { t with pins := s.pins, regs := s.regs } = s)) ∧
  (∀ (n : Fin 32) (j : Fin 8) (w : Word) (s : State), s.stuckDue n j = true →
    exec (.pinCondWrite n j w) s = exec (.pinCondWrite n j w) (s.stuckLatch n j)) ∧
  (∀ (n : Fin 32) (j : Fin 8) (w : Word) (s : State), s.stuckDue n j = false → Answers (.pinCondWrite n j w) s (fun t =>
    t.preg n (0x720 + 4 * j.val) = (w &&& 0xFF3FFFFF#32).toNat ∧ t.pin n j = { s.pin n j with condWrite := true } ∧
    { t with pins := s.pins, regs := s.regs } = s)) ∧
  (∀ (n : Fin 32) (w : Word) (s : State), (∀ j, j < 8 → s.stuckDue n j = false) → Answers (.chatterRearm n w) s (fun t =>
    (∀ j, j < 8 → t.pin n j =
      if bit w.toNat j && !bit ((s.pin n j).fresh.held (s.strokes + s.tb.edges)) 0 then
        { s.pin n j with chatter := false, rearm := (s.pin n j).rearm || (s.pin n j).frozen } else s.pin n j) ∧
    { t with pins := s.pins, mf := s.mf } = s)) ∧
  (∀ (n : Fin 32) (w : Word) (s : State), (∀ j, j < 8 → s.stuckDue n j = false) → Answers (.stuckClear n w) s (fun t =>
    (∀ j, j < 8 → t.pin n j =
      if bit w.toNat (8 + j) && !bit ((s.pin n j).fresh.held (s.strokes + s.tb.edges)) 1 then
        { s.pin n j with stuck := false, stuckClr := true } else s.pin n j) ∧ { t with pins := s.pins, mf := s.mf } = s)) ∧
  (∀ (n : Fin 32) (w : Word) (s : State), s.laneMode n = false → Answers (.pinOwnWrite n w) s (fun t =>
    (∀ j, j < 8 → t.pinOwner n j = min 4 (bits w.toNat (3 * j + 2) (3 * j)) ∧
      t.pin n j = if 4 ≤ bits w.toNat (3 * j + 2) (3 * j) then { s.pin n j with oe := false } else s.pin n j) ∧
    { t with pins := s.pins, regs := s.regs } = s)) ∧
  (∀ (n : Fin 32) (w : Word) (s : State), (tget {} s.flagCycs n : FlagCyc).at_ ≠ s.strokes + s.tb.edges →
    Answers (.pinFlagsWrite n w) s (fun t => (∀ k, k < 8 → bit (tget 0 t.flags n) k = bit w.toNat k) ∧
      { t with flags := s.flags, flagCycs := s.flagCycs } = s)) ∧
  (∀ (n : Fin 32) (w : Word) (c : FlagCyc) (s : State), c = tget {} s.flagCycs n → c.at_ = s.strokes + s.tb.edges →
    c.last < 4 → Answers (.pinFlagsWrite n w) s (fun t =>
      (∀ k, k < 8 → bit (tget 0 t.flags n) k = (bit w.toNat k || bit c.set k)) ∧
      { t with flags := s.flags, flagCycs := s.flagCycs } = s))

/-! ### Ports (chapter 09) -/

/-- R302, R304, R305, R306, R338, R413: the filter decision; what becomes of a frame on a port that is in no ring
pair: rejected, delivered, sunk, without a cell, or a PAUSE frame. Where it goes beyond these rules it follows the
model's own readings of log entries 47, 49, 50, 115. -/
def Obligations.FramesAreFilteredStoredAndCounted : Prop :=
  (∀ (n : Nat) (bs : List Nat) (s : State), s.accepts n bs = true ↔
    (∀ p ∈ (s.port n).exact, bit p.2 48 = true → p.2 % 2 ^ 48 = daOf bs → bit p.2 50 = false) ∧
    (bit (s.preg n 0x008) 0 = true ∨ (daOf bs = 2 ^ 48 - 1 ∧ bit (s.preg n 0x008) 2 = true) ∨
     (daOf bs ≠ 2 ^ 48 - 1 ∧ ((∃ p ∈ (s.port n).exact, bit p.2 48 = true ∧ p.2 % 2 ^ 48 = daOf bs) ∨
      (bit (bs.getD 0 0) 0 = true ∧ (bit (s.preg n 0x008) 1 = true ∨
        bit (s.preg n (0x740 + 4 * (crcBytes poly32 0xFFFFFFFF (bs.take 6) % 512 / 32)))
          (crcBytes poly32 0xFFFFFFFF (bs.take 6) % 512 % 32) = true)))))) ∧
  (∀ (n : Fin 32) (f : RxFrame) (bs : List Nat) (s : State), Receives s n f →
    s.ringPair n = none → bs = f.bytes.map (·.toNat) → bs.length ≤ f.kept →
    18 ≤ bs.length → netAt bs 12 2 ≠ 0x8808 → s.accepts n bs = false → Answers (.rxFrame n f) s (fun t =>
      tget 0 (t.port n).cnt 9 = (tget 0 (s.port n).cnt 9 + 1) % 2 ^ 32 ∧
      (∀ k, k ≠ 9 → tget 0 (t.port n).cnt k = tget 0 (s.port n).cnt k) ∧ (t.port n).ends = (s.port n).ends ∧
      tfind t.pump.rxResv n = none ∧ (∀ m, m ≠ n.val → t.port m = s.port m) ∧
      { t with ports := s.ports, pump := s.pump, mf := s.mf, tb := s.tb } = s)) ∧
  (∀ (n : Fin 32) (f : RxFrame) (bs : List Nat) (h : Nat) (cs : List Nat) (s u : State), Receives s n f →
    s.ringPair n = none → bs = f.bytes.map (·.toNat) →
    bs.length ≤ f.kept → f.er = [] → 64 ≤ bs.length → bs.length ≤ s.maxLen n → bs.length ≤ 16000 → fcsGood bs = true →
    netAt bs 12 2 ≠ 0x8808 → s.accepts n bs = true → bit (s.rxBind n) 7 = true → tfind s.pump.rxResv n = some h →
    s.takeCells (max 1 (ceilDiv bs.length 256) - 1) = some (cs, u) → Answers (.rxFrame n f) s (fun t =>
      (∃ e, (t.port n).ends = (s.port n).ends ++ [e] ∧ e.head = h ∧ e.deliver = true ∧ e.defer = false ∧
        bits e.status 13 0 = bs.length ∧ bits e.status 26 16 = 0 ∧
        e.tag = crc32cFinal ((bs.drop 12).take (bs.length - 4 - 12))) ∧
      tget 0 (t.port n).cnt 0 = (tget 0 (s.port n).cnt 0 + 1) % 2 ^ 32 ∧
      tget 0 (t.port n).cnt 1 = (tget 0 (s.port n).cnt 1 + bs.length) % 2 ^ 32 ∧
      (∀ k, 2 ≤ k → tget 0 (t.port n).cnt k = tget 0 (s.port n).cnt k) ∧ (∀ m, m ≠ n.val → t.port m = s.port m))) ∧
  (∀ (n : Fin 32) (f : RxFrame) (bs : List Nat) (h k : Nat) (cs : List Nat) (s u : State), Receives s n f →
    s.ringPair n = none → bs = f.bytes.map (·.toNat) →
    min bs.length 16000 ≤ f.kept → f.er = [] → 18 ≤ bs.length → netAt bs 12 2 ≠ 0x8808 → s.accepts n bs = true →
    k = (if 16000 < bs.length then 6 else if s.maxLen n < bs.length then 5 else if bs.length < 64 then 3 else 2) →
    (k = 2 → fcsGood bs = false) → s.deliverBad n = false → bit (s.rxBind n) 7 = true → tfind s.pump.rxResv n = some h →
    s.takeCells (max 1 (ceilDiv (min bs.length 16000) 256) - 1) = some (cs, u) → Answers (.rxFrame n f) s (fun t =>
      (∃ e, (t.port n).ends = (s.port n).ends ++ [e] ∧ e.head = h ∧ e.deliver = false ∧ e.defer = false) ∧
      tget 0 (t.port n).cnt k = (tget 0 (s.port n).cnt k + 1) % 2 ^ 32 ∧
      tget 0 (t.port n).cnt 13 = (tget 0 (s.port n).cnt 13 + 1) % 2 ^ 32 ∧
      (∀ j, j ≠ k → j ≠ 13 → tget 0 (t.port n).cnt j = tget 0 (s.port n).cnt j))) ∧
  (∀ (n : Fin 32) (f : RxFrame) (bs : List Nat) (s : State), Receives s n f →
    s.ringPair n = none → bs = f.bytes.map (·.toNat) → 18 ≤ bs.length →
    netAt bs 12 2 ≠ 0x8808 → s.accepts n bs = true → tfind s.pump.rxResv n = none → Answers (.rxFrame n f) s (fun t =>
      (t.port n).ends = (s.port n).ends ∧ tget 0 (t.port n).cnt 14 = (tget 0 (s.port n).cnt 14 + 1) % 2 ^ 32 ∧
      tget 0 (t.port n).cnt 13 = (tget 0 (s.port n).cnt 13 + 1) % 2 ^ 32 ∧
      (bit (s.rxBind n) 7 = true → s.takeCell = none → bit t.pump.alarm 0 = true))) ∧
  (∀ (n : Fin 32) (f : RxFrame) (bs : List Nat) (s : State), Receives s n f →
    s.ringPair n = none → bs = f.bytes.map (·.toNat) →
    netAt bs 12 2 = 0x8808 → netAt bs 14 2 = 1 → fcsGood bs = true → 64 ≤ bs.length → bs.length ≤ s.maxLen n →
    (daOf bs = 0x010000C28001 ∨ s.ownAddr n (daOf bs) = true) → Answers (.rxFrame n f) s (fun t =>
      (t.port n).pauseX = (if bit (s.preg n 0x00C) 0 then some (netAt bs 16 2) else (s.port n).pauseX) ∧
      (t.port n).pause = (s.port n).pause ∧
      tget 0 (t.port n).cnt 10 = (tget 0 (s.port n).cnt 10 + 1) % 2 ^ 32))

/-- R26, R29, R31, R306, R307, R312, R316, R317, R318, R319, R320, R321, R323, R337, R338, R380, R413, R434, R435,
R441, R516: a ring pair passes a good frame through unchanged, what the receive crossing loses beside; it poisons a
damaged one, cuts a refused one after 21 bytes and one that ends early where reception stopped (1000 Mb/s), and defers
one whose egress is busy or closed, counting the guard that holds it. The end of reception, frame-end records and the
frame ring, the reserved cell, the pause timer. Where it goes beyond these rules it follows the model's own readings
of log entry 47. -/
def Obligations.FramesForwardedRecordedAndPaused : Prop :=
  (∀ (n : Fin 32) (m : Nat) (f : RxFrame) (bs : List Nat) (cfg : Nat) (s : State), Receives s n f →
    s.ringPair n = some m → s.ptKind n = 1 → cfg = s.preg (min n.val m) 0x014 →
    bit cfg 7 = true → bit cfg 9 = false → bs = f.bytes.map (·.toNat) → bs.length ≤ 16000 →
    f.er = [] → f.early = none → 18 ≤ bs.length → bs.length ≤ s.maxLen m → fcsGood bs = true → s.txBusy m = false →
    s.txHeld m = false → s.pausedClass m (bits cfg 14 12) = false → s.gateAdmits m (bits cfg 14 12) (s.maxLen m) = true →
    s.ownAddr n (saOf bs) = false →
    (s.ownAddr n (daOf bs) = true → bit (bs.getD 0 0) 0 = true ∨ bit cfg 10 = true) → Answers (.rxFrame n f) s (fun t =>
      (t.port m).wire = bs ∧ (t.port m).wirePoison = false ∧
      tget 0 (t.port m).cnt 22 = (tget 0 (s.port m).cnt 22 + 1) % 2 ^ 32 ∧
      (∀ k, k ≠ 22 → tget 0 (t.port m).cnt k = tget 0 (s.port m).cnt k))) ∧
  (∀ (n : Fin 32) (m : Nat) (f : RxFrame) (bs : List Nat) (cfg : Nat) (s : State), Receives s n f →
    s.ringPair n = some m → s.ptKind n = 1 → cfg = s.preg (min n.val m) 0x014 →
    bit cfg 7 = true → bit cfg 9 = false → bs = f.bytes.map (·.toNat) → bs.length ≤ 16000 →
    f.early = none → 18 ≤ bs.length → bs.length ≤ s.maxLen m → (fcsGood bs = false ∨ ∃ j ∈ f.er, j < bs.length) →
    s.txBusy m = false → s.txHeld m = false → s.pausedClass m (bits cfg 14 12) = false →
    s.gateAdmits m (bits cfg 14 12) (s.maxLen m) = true → s.ownAddr n (saOf bs) = false →
    (s.ownAddr n (daOf bs) = true → bit (bs.getD 0 0) 0 = true ∨ bit cfg 10 = true) → Answers (.rxFrame n f) s (fun t =>
      (t.port m).wire = poisoned (bs.take (bs.length - 4)) ∧ (t.port m).wirePoison = true ∧
      tget 0 (t.port m).cnt 22 = (tget 0 (s.port m).cnt 22 + 1) % 2 ^ 32 ∧
      tget 0 (t.port m).cnt 25 = (tget 0 (s.port m).cnt 25 + 1) % 2 ^ 32)) ∧
  (∀ (n : Fin 32) (m k : Nat) (f : RxFrame) (bs : List Nat) (cfg : Nat) (s : State), Receives s n f →
    s.ringPair n = some m → s.ptKind n = 1 → cfg = s.preg (min n.val m) 0x014 →
    bit cfg 7 = true → bit cfg 8 = false → bit cfg 9 = false → s.rate n = 2 → bs = f.bytes.map (·.toNat) →
    f.early = some k → 25 ≤ k → 18 ≤ bs.length → bs.length ≤ s.maxLen m → s.txBusy m = false → s.txHeld m = false →
    s.pausedClass m (bits cfg 14 12) = false → s.gateAdmits m (bits cfg 14 12) (s.maxLen m) = true →
    s.ownAddr n (saOf bs) = false →
    (s.ownAddr n (daOf bs) = true → bit (bs.getD 0 0) 0 = true ∨ bit cfg 10 = true) → Answers (.rxFrame n f) s (fun t =>
      (t.port m).wire = poisoned (bs.take (k - 25)) ∧ (t.port m).wirePoison = true ∧
      tget 0 (t.port m).cnt 23 = (tget 0 (s.port m).cnt 23 + 1) % 2 ^ 32)) ∧
  (∀ (n : Fin 32) (m : Nat) (f : RxFrame) (bs : List Nat) (cfg : Nat) (s : State), Receives s n f →
    s.ringPair n = some m → s.ptKind n = 1 → cfg = s.preg (min n.val m) 0x014 →
    bit cfg 7 = true → bit cfg 8 = true → bit cfg 9 = false → s.rate n = 2 → bs = f.bytes.map (·.toNat) →
    24 ≤ bs.length → s.txBusy m = false → s.txHeld m = false →
    s.pausedClass m (bits cfg 14 12) = false → s.gateAdmits m (bits cfg 14 12) (s.maxLen m) = true →
    s.ownAddr n (saOf bs) = true → Answers (.rxFrame n f) s (fun t =>
      (t.port m).wire = poisoned (bs.take 21) ∧ (t.port m).wirePoison = true ∧
      tget 0 (t.port m).cnt 23 = (tget 0 (s.port m).cnt 23 + 1) % 2 ^ 32)) ∧
  (∀ (n m : Nat) (bs : List Nat) (s : State), s.namedPair n m = true → bit (s.pairCfg n m) 7 = true → s.ptKind n ≠ 3 →
    (s.txBusy m = true ∨ s.txHeld m = true ∨ s.pausedClass m (bits (s.pairCfg n m) 14 12) = true ∨
     s.gateAdmits m (bits (s.pairCfg n m) 14 12) (s.maxLen m) = false) →
    s.fwdRefused n (s.pairCfg n m) (s.ptKind n) bs = false → s.decideFwd n m bs false = .deferred m) ∧
  (∀ (n : Fin 32) (m : Nat) (f : RxFrame) (bs : List Nat) (cfg : Nat) (s : State), Receives s n f →
    s.ringPair n = some m → s.ptKind n = 1 → cfg = s.preg (min n.val m) 0x014 → bit cfg 7 = true →
    bs = f.bytes.map (·.toNat) → s.fwdRefused n cfg 1 bs = false → s.txBusy m = false →
    s.pausedClass m (bits cfg 14 12) = false → s.gateAdmits m (bits cfg 14 12) (s.maxLen m) = false →
    Answers (.rxFrame n f) s (fun t => tget 0 (t.port m).cnt 21 = (tget 0 (s.port m).cnt 21 + 1) % 2 ^ 32 ∧
      (t.port m).wire = (s.port m).wire)) ∧
  (∀ (n : Fin 32) (e : FrameEnd) (es : List FrameEnd) (lb base size tl : Nat) (s : State), (s.port n).ends = e :: es →
    (∃ q, e.at_ = some q ∧ q + 3 ≤ s.strokes) →
    e.deliver = true → e.defer = false → bit (s.rxBind n) 7 = true → lb = bits (s.rxBind n) 2 0 →
    (s.lb lb).shed = false → (base, size) = ringAt (s.reg (0x70804 + 16 * n.val)) → tl = s.rxTailOf n →
    (tl % 512 + 512 - s.rxHeadOf n) % 512 ≠ size → Answers (.frameRecord n) s (fun t =>
      (t.port n).ends = es ∧ t.rxTailOf n = tl + 1 ∧ (t.cell e.head).owner = 8 + lb ∧
      t.mf.entryQ = s.mf.entryQ ++ [{ src := 0x2C1 + 2 * n.val, ev := true, rising := true, level := true
                                      from_ := s.strokes + 1 }] ∧
      { t with ports := s.ports, pump := s.pump, mf := s.mf, lbs := s.lbs, ecc := s.ecc, wh := s.wh } = s)) ∧
  (∀ (n : Fin 32) (e : FrameEnd) (es : List FrameEnd) (base size tl : Nat) (s : State), (s.port n).ends = e :: es →
    (∃ q, e.at_ = some q ∧ q + 3 ≤ s.strokes) → e.deliver = true → e.defer = false → bit (s.rxBind n) 7 = true →
    (base, size) = ringAt (s.reg (0x70804 + 16 * n.val)) → tl = s.rxTailOf n →
    ((tl % 512 + 512 - s.rxHeadOf n) % 512 = size ∨ (s.lb (bits (s.rxBind n) 2 0)).shed = true) → Answers (.frameRecord n) s (fun t =>
      (t.port n).ends = es ∧ t.rxTailOf n = tl ∧
      tget 0 t.pump.rxDrops n = (if tget 0 s.pump.rxDrops n < 65535 then tget 0 s.pump.rxDrops n + 1 else 65535) ∧
      bit t.pump.alarm 7 = true ∧ tget 0 (t.port n).cnt 13 = (tget 0 (s.port n).cnt 13 + 1) % 2 ^ 32 ∧ { t with ports := s.ports, pump := s.pump, evq := s.evq } = s)) ∧
  (∀ (n : Fin 32) (e : FrameEnd) (es : List FrameEnd) (s : State), (s.port n).ends = e :: es →
    (∃ q, e.at_ = some q ∧ q + 3 ≤ s.strokes) → (e.deliver = false ∨ bit (s.rxBind n) 7 = false) →
    e.defer = false → exec (.frameRecord n) s = .next ((s.modPort n (fun p => { p with ends := es })).dropRef e.head)) ∧
  (∀ (n : Fin 32) (e : FrameEnd) (es : List FrameEnd) (s : State), (s.port n).ends = e :: es →
    (∃ q, e.at_ = some q ∧ q + 3 ≤ s.strokes) → e.deliver = false → e.defer = true → s.pstate (s.ptPartner n) = 2 →
    exec (.frameRecord n) s = .next ((s.modPort n (fun p => { p with ends := es })).deferQueue n (s.ptPartner n) e)) ∧
  (∀ (n : Fin 32) (e : FrameEnd) (es : List FrameEnd) (s : State), (s.port n).ends = e :: es →
    (e.at_ = none ∨ ∃ q, e.at_ = some q ∧ s.strokes < q + 3) → exec (.frameRecord n) s = .next s) ∧
  (∀ (n : Nat) (p : PortSt) (s : State), s.ports = [(n, p)] → p.rxOn = true → p.rxTill ≤ s.tb.elapsed →
    s.rxEnds.port n = { p with
      rxOn := false, ends := p.ends.map (fun r => if r.at_ = none then { r with at_ := some s.strokes } else r)
      pause := p.pauseX.getD p.pause, pauseAt := if p.pauseX = none then p.pauseAt else p.rxTill, pauseX := none } ∧
    s.rxEnds.mf.entryQ = s.mf.entryQ ++ [{ src := 0x2C0 + 2 * n, ev := false, rising := false, level := false
                                           from_ := s.strokes + 2 }]) ∧
  (∀ (h : Nat) (s : State), (2 ≤ (s.cell h).refs → (s.dropRef h) = s.modCell h (fun c => { c with refs := c.refs - 1 })) ∧
    ((s.cell h).refs ≤ 1 → (s.dropRef h).pump.returned = s.pump.returned ++ s.bufCells h)) ∧
  (∀ (n : Fin 32) (c : Nat) (s u : State), bit (s.rxBind n) 7 = true → s.laneMode n = true →
    tfind s.pump.rxResv n = none → s.takeCell = some (c, u) → Answers (.cellReserve n) s (fun t =>
      s.cellFree c = true ∧ tfind t.pump.rxResv n = some c ∧ (t.cell c).resv = true ∧ (t.cell c).used = true ∧
      (∀ d, d ≠ c → t.cell d = s.cell d) ∧ { t with pump := s.pump, draws := s.draws } = s)) ∧
  (∀ (n : Fin 32) (s : State), exec (.pauseTimer n) s =
    .next (if 0 < (s.port n).pause ∧ (s.port n).pauseAt + 64 * s.byteUnits n ≤ s.tb.elapsed then
      s.modPort n (fun p => { p with pause := p.pause - 1, pauseAt := p.pauseAt + 64 * s.byteUnits n }) else s))

/-- R30, R293, R298, R308, R309, R310, R312, R321, R337, R338, R386: the transmitter takes the head of its highest
class that may start, pads it, seals it, poisons it on an underrun or a wrong tag, refuses it for its length, or
counts it as held; under TXHOLD no frame starts. Where it goes beyond these rules it follows the model's own readings
of log entries 15, 51, 52, 53. -/
def Obligations.FramesTransmitted : Prop :=
  (∀ (n : Fin 32) (tap : Fin 256) (c h b k : Nat) (i : TxItem) (rest : List (Nat × TxItem)) (data : List Nat) (s : State),
    TxFree s n → i = .move k →
    s.txHeads n = (c, i) :: rest → s.pausedClass n c = false → s.gateAdmits n c (s.wireLen n (s.itemLen i)) = true →
    h = s.itemHead i → b = s.itemLen i → 14 ≤ b → b ≤ s.maxLen n - 4 → s.bufUe h 0 b = none → (s.cell h).bad = false →
    ((s.cell h).tgen = true ∨ s.tagNow h = (s.cell h).tag) → (s.itemAsks n i).2.1 = none →
    data = s.bufRead h 0 b ++ (if s.padEn n then List.replicate (60 - b) 0 else []) →
    Answers (.txFrame n tap none) s (fun t => (t.port n).wire = sealed_ data ∧ (t.port n).wirePoison = false ∧
      (t.port n).tx.isSome = true ∧ t.txQueue n c = (s.txQueue n c).drop 1 ∧
      (∀ d, d ≠ c → t.txQueue n d = s.txQueue n d) ∧
      tget 0 (t.port n).cnt 15 = (tget 0 (s.port n).cnt 15 + 1) % 2 ^ 32 ∧
      tget 0 (t.port n).cnt 16 = (tget 0 (s.port n).cnt 16 + (data.length + 4)) % 2 ^ 32)) ∧
  (∀ (n : Fin 32) (tap : Fin 256) (c h b g v : Nat) (ev : Bool) (i : TxItem) (rest : List (Nat × TxItem)) (s : State),
    TxFree s n → i = .deferred h g v ev →
    s.txHeads n = (c, i) :: rest → s.pausedClass n c = false → s.gateAdmits n c (s.wireLen n (s.itemLen i)) = true →
    b = s.itemLen i → 14 ≤ b → b ≤ s.maxLen n - 4 → s.bufUe h 0 b = none → (s.cell h).bad = false →
    ((s.cell h).tgen = true ∨ s.tagNow h = (s.cell h).tag) → (s.itemAsks n i).2.1 = none → (60 ≤ b ∨ s.padEn n = false) →
    Answers (.txFrame n tap none) s (fun t => (t.port n).wire = s.bufRead h 0 b ++ s.bufRead h b 4 ∧
      (t.port n).wirePoison = false)) ∧
  (∀ (n : Fin 32) (tap : Fin 256) (c h b k : Nat) (i : TxItem) (rest : List (Nat × TxItem)) (data : List Nat) (s : State),
    TxFree s n →
    s.txHeads n = (c, i) :: rest → s.pausedClass n c = false → s.gateAdmits n c (s.wireLen n (s.itemLen i)) = true →
    h = s.itemHead i → b = s.itemLen i → 14 ≤ b → b ≤ s.maxLen n - 4 → s.bufUe h 0 b = none →
    (s.itemAsks n i).2.1 = none → data = s.bufRead h 0 b ++ (if s.padEn n then List.replicate (60 - b) 0 else []) →
    Answers (.txFrame n tap (some k)) s (fun t => (t.port n).wire = poisoned (data.take k) ∧
      (t.port n).wirePoison = true ∧ tget 0 (t.port n).cnt 17 = (tget 0 (s.port n).cnt 17 + 1) % 2 ^ 32 ∧
      tget 0 (t.port n).cnt 19 = (tget 0 (s.port n).cnt 19 + 1) % 2 ^ 32)) ∧
  (∀ (n : Fin 32) (tap : Fin 256) (c h b : Nat) (i : TxItem) (rest : List (Nat × TxItem)) (data : List Nat) (s : State),
    TxFree s n →
    s.txHeads n = (c, i) :: rest → s.pausedClass n c = false → s.gateAdmits n c (s.wireLen n (s.itemLen i)) = true →
    h = s.itemHead i → b = s.itemLen i → 14 ≤ b → b ≤ s.maxLen n - 4 → s.bufUe h 0 b = none →
    (s.cell h).tgen = false → s.tagNow h ≠ (s.cell h).tag → (s.itemAsks n i).2.1 = none →
    data = s.bufRead h 0 b ++ (if s.padEn n then List.replicate (60 - b) 0 else []) →
    Answers (.txFrame n tap none) s (fun t => (t.port n).wire = poisoned data ∧ (t.port n).wirePoison = true ∧
      tget 0 (t.port n).cnt 17 = (tget 0 (s.port n).cnt 17 + 1) % 2 ^ 32 ∧
      tget 0 (t.port n).cnt 18 = (tget 0 (s.port n).cnt 18 + 1) % 2 ^ 32)) ∧
  (∀ (n : Fin 32) (tap : Fin 256) (u : Option Nat) (c b : Nat) (i : TxItem) (rest : List (Nat × TxItem)) (s : State),
    TxFree s n →
    s.txHeads n = (c, i) :: rest → s.pausedClass n c = false → s.gateAdmits n c (s.wireLen n (s.itemLen i)) = true →
    b = s.itemLen i → (b < 14 ∨ s.maxLen n - 4 < b) → Answers (.txFrame n tap u) s (fun t =>
      (t.port n).wire = (s.port n).wire ∧ (t.port n).tx = none ∧ t.txQueue n c = (s.txQueue n c).drop 1 ∧
      tget 0 (t.port n).cnt 20 = if b < 14 then tget 0 (s.port n).cnt 20 else (tget 0 (s.port n).cnt 20 + 1) % 2 ^ 32)) ∧
  (∀ (n : Fin 32) (tap : Fin 256) (u : Option Nat) (c : Nat) (i : TxItem) (s : State), TxFree s n → s.txHeads n = [(c, i)] →
    s.pausedClass n c = false → s.gateAdmits n c (s.wireLen n (s.itemLen i)) = false → i ∉ (s.port n).guarded →
    Answers (.txFrame n tap u) s (fun t => tget 0 (t.port n).cnt 21 = (tget 0 (s.port n).cnt 21 + 1) % 2 ^ 32 ∧
      t.txQueue n c = s.txQueue n c ∧ (t.port n).tx = none ∧ { t with ports := s.ports } = s)) ∧
  (∀ (n : Fin 32) (c : TxCur) (h f v : Nat) (b : Bool) (s : State), (s.port n).tx = some c → c.item = .deferred h f v b →
    (s.port n).txTill.getD 0 ≤ s.tb.elapsed →
    exec (.txFrameDone n) s = .next ((s.modPort n (fun p => { p with tx := none })).dropRef h)) ∧
  (∀ (n : Fin 32) (c : TxCur) (k : Nat) (m : Move) (s : State), (s.port n).tx = some c → c.item = .move k →
    s.move k = some m → (s.port n).txTill.getD 0 ≤ s.tb.elapsed → Answers (.txFrameDone n) s (fun t => (t.port n).tx = none ∧
      t.move k = some { m with phase := .done, err := c.err, ts := c.ts, tsLost := c.tsLost
                               result := if m.tsreq then c.seq else if c.err = 0 then 0 else c.bytes.length - 4 })) ∧
  (∀ (k : Fin 512) (m : Move) (at_ : Nat) (s : State), s.move k = some m → m.phase = .launch → m.launch = some at_ →
    exec (.launch k) s = .next (if at_ ≤ s.tb.now then (s.modMove k (fun m => { m with phase := .queued })).txAppend
      (s.chan (m.ch.getD 0)).port (s.chan (m.ch.getD 0)).cls k else s)) ∧
  (∀ (k : Fin 512) (m : HMove) (at_ : Nat) (s : State), s.move k = none → s.hmove k = some m → m.phase = .launch →
    m.launch = some at_ →
    exec (.launch k) s = .next (if at_ ≤ s.tb.now then (s.modHmove k (fun m => { m with phase := .queued })).txAppend
      (s.chan m.ch).port (s.chan m.ch).cls k else s)) ∧
  (∀ (n : Fin 32) (tap : Fin 256) (u : Option Nat) (s : State), 
    (s.txHeld n = true ∨ s.laneIdle n = false) → exec (.txFrame n tap u) s = .next s) ∧
  (∀ (n : Nat) (s : State), s.laneMode n = false → s.laneSent n = []) ∧
  (∀ (n : Nat) (w : List Nat) (s : State), s.laneMode n = true → s.rate n = 2 → (s.port n).wire = w → w ≠ [] →
    (s.port n).wireHalf = none → (s.port n).wirePoison = false →
    s.laneSent n = (List.replicate 7 0x55 ++ [0xD5] ++ w).map (fun b => (⟨b, true, false⟩ : LaneXfer)) ++
      List.replicate (bits (s.preg n 0x004) 12 8) ⟨0, false, false⟩)

/-- R292, R311, R313, R326, R338, R340: the gate schedule and its held control, and the writes of a port page. -/
def Obligations.GateScheduleAndPortRegisters : Prop :=
  (∀ (run : List Nat) (ns : Nat), ns < (run.map gateDur).sum →
    (gatePlace run ns 0).1 < run.length ∧ ((run.take (gatePlace run ns 0).1).map gateDur).sum ≤ ns ∧
    ns + (gatePlace run ns 0).2 = ((run.take ((gatePlace run ns 0).1 + 1)).map gateDur).sum) ∧
  (∀ (n : Fin 32) (k i left idx : Nat) (s : State), (s.port n).gateEn = true →
    s.gateSelect n (s.port n).gateWords (s.groupTime n) = some (k, i, left) →
    idx = ((s.port n).gateStart + i) % 256 →
    ((s.port n).gateWord = none ∨ (s.port n).gateCyc ≠ k ∨ (s.port n).gateIdx ≠ idx) →
    exec (.gateEntry n) s = .next (s.modPort n (fun p => { p with
      gateIdx := idx, gateCyc := k, gateWord := some (BitVec.ofNat 32 (s.preg n (0x100 + 4 * idx)))
      gateWords := p.gateWords.set i (s.preg n (0x100 + 4 * idx)) }))) ∧
  (∀ (n : Fin 32) (w : Word) (s : State), Answers (.gateCtrlWrite n w) s (fun t =>
    t.port n = { s.port n with gateHeld := some s.tb.elapsed } ∧ bit (t.preg n 0x020) 0 = bit w.toNat 0 ∧
    bits (t.preg n 0x020) 15 8 = bits w.toNat 15 8 ∧
    bits (t.preg n 0x020) 24 16 = max 1 (min 256 (bits w.toNat 24 16)) ∧
    (∀ o, o ≠ 0x20020 + 0x800 * n.val → t.reg o = s.reg o) ∧ { t with ports := s.ports, regs := s.regs } = s)) ∧
  (∀ (n : Fin 32) (w : Nat) (s : State), s.gateDue n = true → w = s.preg n 0x020 →
    Answers (.gateCtrlApply n) s (fun t => (t.port n).gateEn = bit w 0 ∧ (t.port n).gateStart = bits w 15 8 ∧
      (t.port n).gateLen = bits w 24 16 ∧ (t.port n).gateHeld = none ∧
      (t.port n).gateWords = (List.range (bits w 24 16)).map (fun j => s.preg n (0x100 + 4 * ((bits w 15 8 + j) % 256))) ∧
      (bit w 0 = false → (t.port n).gateWord = none) ∧ (∀ m, m ≠ n.val → t.port m = s.port m) ∧
      { t with ports := s.ports } = s)) ∧
  (∀ (n : Fin 32) (e : Fin 64) (w : Word) (s : State), Answers (.exactWrite n e w) s (fun t =>
    tget 0 (t.port n).exact e = s.preg n (0x500 + 8 * e.val) + 2 ^ 32 * (w.toNat % 2 ^ 19) ∧
    (∀ f, f ≠ e.val → tget 0 (t.port n).exact f = tget 0 (s.port n).exact f) ∧
    { t with ports := s.ports, regs := s.regs } = s)) ∧
  (∀ (n : Fin 32) (e : DupEntry) (es : List DupEntry) (s : State), (s.port n).dup = e :: es →
    exec (.dupAgeOut n) s = .next (if e.made + bits (s.preg n 0x018) 9 0 * 67108864000000 ≤ s.tb.elapsed then
      s.modPort n (fun p => { p with dup := es }) else s)) ∧
  (∀ (n : Fin 32) (w : Word) (s : State), Answers (.flush n w) s (fun t => t.port n = { s.port n with dup := [] } ∧
    bits (t.preg n 0x018) 9 0 = max 1 (min 1000 (bits w.toNat 9 0)) ∧ bit (t.preg n 0x018) 16 = bit w.toNat 16 ∧
    { t with ports := s.ports, regs := s.regs } = s)) ∧
  (∀ (n : Fin 32) (w : Word) (s : State), Answers (.clear n w) s (fun t =>
    (∀ k, tget 0 (t.port n).cnt k = 0) ∧ t.port n = { s.port n with cnt := [] } ∧ { t with ports := s.ports } = s)) ∧
  (∀ (n : Fin 32) (w : Word) (s : State), (s.pstate n ≠ 0 ∨ bits w.toNat 2 1 = 3) →
    exec (.portModeWrite n w) s = .next (s.modPort n (fun p => { p with
      cfgErr := true, fresh := p.fresh.set (s.strokes + s.tb.edges) 1 }))) ∧
  (∀ (n : Fin 32) (w : Word) (s : State), s.pstate n = 0 → bits w.toNat 2 1 ≠ 3 → Answers (.portModeWrite n w) s (fun t =>
    t.laneMode n = bit w.toNat 0 ∧ t.rate n = bits w.toNat 2 1 ∧ bits (t.preg n 0) 15 8 = max 2 (bits w.toNat 15 8) ∧
    (bit w.toNat 0 = false → (t.port n).wire = []) ∧
    (bit w.toNat 0 = true → s.laneMode n = false → (t.valve (4 * n.val)).run = false ∧
      (t.valve (4 * n.val + 1)).run = false) ∧
    { t with ports := s.ports, regs := s.regs, valves := s.valves, pins := s.pins } = s))

/-! ### Timebase (chapter 10) -/

/-- R342, R343, R345, R346, R347, R348, R349, R350, R351, R366, R374: rate writes, adjustment requests, the step
instant, the slew, and snapshots. Where it goes beyond these rules it follows the model's own readings of log entry
75. -/
def Obligations.TimebaseRateStepsAndSlews : Prop :=
  (∀ (k : Fin 9) (w : Word) (off : Nat) (s : State), off = (if k.val = 0 then 0x60000 else 0x61800 + 16 * (k.val - 1)) →
    (s.locked = false → Answers (.tbIncWrite k w) s (fun t => t.reg off = w.toNat ∧ (∀ o, o ≠ off → t.reg o = s.reg o) ∧
      { t with regs := s.regs } = s)) ∧
    (s.locked = true → exec (.tbIncWrite k w) s = .next (s.event 10 11 0x20 0 off))) ∧
  (∀ (w : Word) (s : State), Answers (.rateLoWrite w) s (fun t => t.reg 0x60004 = w.toNat ∧ t.tb = s.tb ∧
    (∀ o, o ≠ 0x60004 → t.reg o = s.reg o) ∧ { t with regs := s.regs } = s)) ∧
  (∀ (w : Word) (a : Int) (s : State), a = sgn 40 (s.reg 0x60004 + 2 ^ 32 * bits w.toNat 7 0) →
    Answers (.rateHiWrite w) s (fun t => t.tb.rateArm = some (max (-281474976710) (min 281474976710 a)) ∧
      t.tb.adj = s.tb.adj ∧ (a.natAbs ≤ 281474976710 → t.tb.alarm = s.tb.alarm) ∧
      (281474976710 < a.natAbs → t.tb.alarm = s.tb.alarm ||| 1) ∧
      { t with regs := s.regs, tb := s.tb, evq := s.evq } = s)) ∧
  (∀ (a : Int) (s : State), s.tb.rateArm = some a →
    exec .rateApply s = .next { s with tb := { s.tb with adj := a, rateArm := none } }) ∧
  (∀ (w : Word) (i : Instr) (m : Nat) (d : Int) (s : State), (i, m) ∈ [(.adjAuto w, 0), (.adjStep w, 1), (.adjSlew w, 2)] →
    s.tb.req = none → s.reg 0x60028 < 1000000000 →
    d = sgn 64 (s.reg 0x60020 + 2 ^ 32 * s.reg 0x60024) * (1000000000 * 2 ^ 48) +
      ((s.reg 0x60028 * 2 ^ 48 + bits w.toNat 15 0 * 2 ^ 32 : Nat) : Int) →
    (m = 2 ∨ m = 0 ∧ d.natAbs < bits (s.reg 0x6000C) 19 0 * 2 ^ 48 → d.natAbs < 1000000000 * 2 ^ 48 →
      Answers i s (fun t => t.tb = { s.tb with req := some (.slew d), slewing := false, slw := 0, remain := 0 } ∧
        { t with tb := s.tb, regs := s.regs } = s)) ∧
    (m = 1 ∨ m = 0 ∧ bits (s.reg 0x6000C) 19 0 * 2 ^ 48 ≤ d.natAbs → d ≠ 0 →
      Answers i s (fun t => t.tb = { s.tb with req := some (.step d), slewing := false, slw := 0, remain := 0 } ∧
        { t with tb := s.tb, regs := s.regs } = s))) ∧
  (∀ (w : Word) (s : State), s.tb.req = none → s.reg 0x60028 < 1000000000 → Answers (.adjSet w) s (fun t =>
    t.tb = { s.tb with
      req := some (.set ((s.reg 0x60020 + 2 ^ 32 * s.reg 0x60024) * (1000000000 * 2 ^ 48) + s.reg 0x60028 * 2 ^ 48 +
        bits w.toNat 15 0 * 2 ^ 32)), slewing := false, slw := 0, remain := 0 } ∧
    { t with tb := s.tb, regs := s.regs } = s)) ∧
  (∀ (w : Word) (i : Instr) (s : State), i ∈ [.adjAuto w, .adjStep w, .adjSlew w, .adjSet w] → s.tb.req.isSome = true →
    Answers i s (fun t => t.tb = { s.tb with
      alarm := s.tb.alarm ||| 2, fresh := s.tb.fresh.set s.tb.edges 2 } ∧ { t with tb := s.tb, evq := s.evq } = s)) ∧
  (∀ (d : Int) (s : State), s.tb.req = some (.step d) → s.tclkRuns = true → Answers .timeStep s (fun t =>
    t.tb.now = shiftT s.tb.now ((baseAdvance s.inc s.tb.adj : Int) + s.slewPart + d) ∧
    t.tb.epoch = (s.tb.epoch + 1) % 256 ∧
    tget ((0 : Int), 0) t.tb.log ((s.tb.epoch + 1) % 256 % 16) = (d, (s.tb.epoch + 1) % 256) ∧ t.tb.req = none ∧
    (∀ i, i < 128 → (t.ck i).base = (s.ck i).base + ((t.tb.now : Int) - s.tclkEdge.tb.now)) ∧
    (∀ e n, s.sched e = some n → n.arrived = true → n.late = false → n.cancel = none → bit n.act.toNat 9 = true →
      ∃ r, t.sched e = some r ∧ r.time = shiftT n.time d ∧ r.epoch = (s.tb.epoch + 1) % 256 ∧ r.rebased = true ∧
        r.act = n.act ∧ r.lb = n.lb) ∧
    (∀ e n, s.sched e = some n → n.arrived = true → n.late = false → n.cancel = none → bit n.act.toNat 9 = false → 0 < d →
      s.tclkEdge.tb.now < n.time → n.time ≤ t.tb.now →
      ∃ r, t.sched e = some r ∧ r.time = n.time ∧ r.skipped = true ∧ r.lateBy = some ((t.tb.now - n.time) / 2 ^ 48)) ∧
    { t with tb := s.tb, mf := s.mf, ports := s.ports } = s)) ∧
  (∀ (v : Nat) (s : State), s.tb.req = some (.set v) → s.tclkRuns = true → v < 2 ^ 64 * (1000000000 * 2 ^ 48) →
    v ≠ s.tclkEdge.tb.now → Answers .timeStep s (fun t => t.tb.now = v ∧ t.tb.epoch = (s.tb.epoch + 1) % 256 ∧
      t.tb.req = none ∧ { t with tb := s.tb, mf := s.mf, ports := s.ports } = s)) ∧
  (∀ (v : Nat) (s : State), s.tb.req = some (.set v) → s.tclkRuns = true → v = s.tclkEdge.tb.now →
    Answers .timeStep s (fun t => t.tb.now = v ∧ t.tb.epoch = s.tb.epoch ∧ t.tb.req = none ∧ bit t.tb.alarm 1 = true)) ∧
  (∀ (d : Int) (s : State), s.tb.req = some (.slew d) → exec .slewStart s = .next { s with tb := { s.tb with
    req := none, slewing := true, remain := d
    slw := if d < 0 then -((bits (s.reg 0x6000C) 28 20 * 2 ^ 48 / 1000000 : Nat) : Int)
      else ((bits (s.reg 0x6000C) 28 20 * 2 ^ 48 / 1000000 : Nat) : Int) } }) ∧
  (∀ (x : Int) (s : State), s.tclkRuns = true → s.tb.slewing = true →
    x = Int.tdiv ((s.inc : Int) * s.tb.slw) (2 ^ 26) → (s.tb.remain = x ∨ s.tb.remain.natAbs < x.natAbs) →
    Answers .slewEnd s (fun t =>
      t.tb.now = shiftT s.tb.now ((baseAdvance s.inc s.tb.adj : Int) + s.tb.remain) ∧ t.tb.slewing = false ∧
      t.tb.remain = 0 ∧ t.tb.epoch = s.tb.epoch ∧ { t with tb := s.tb, mf := s.mf, ports := s.ports } = s)) ∧
  (∀ (p : Fin 8) (w : Word) (s : State), Answers (.hostSnapshot p w) s (fun t =>
    t.hsnap p = { s.hsnap p with req := true, await := none, valid := false } ∧ (∀ q, q ≠ p.val → t.hsnap q = s.hsnap q) ∧
    { t with tb := s.tb } = s)) ∧
  (∀ (p : Fin 8) (s : State), (s.hsnap p).req = true → Answers (.snapshotCapture p) s (fun t =>
    t.hsnap p = { s.hsnap p with req := false, await := some s.tb.edges, time := s.tb.now, epoch := s.tb.epoch } ∧
    (∀ q, q ≠ p.val → t.hsnap q = s.hsnap q) ∧ { t with tb := s.tb } = s)) ∧
  (∀ (n p e : Nat) (c : TimeCross) (s : State), s.tb.timeX = [c] → c.due ≤ n → (s.hsnap p).await = some e → e ≤ c.edge →
    (s.landTime n).hsnap p = { s.hsnap p with await := none, valid := true, strokes := n % 2 ^ 64 } ∧
    (s.landTime n).tb.coreTime = c.time ∧ (s.landTime n).tb.coreEpoch = c.epoch ∧ (s.landTime n).tb.timeX = [])

/-- R355, R356, R359, R369, R370, R371, R372, R374, R375, R376: interpolator tables, group copies, pps_in and pps_out.
The slots of the cycle keeper start on their grid, carry a lag, realign beyond the limit, end, are enabled and
disabled. Where it goes beyond these rules it follows the model's own readings of log entries 13, 74, 99. -/
def Obligations.InterpolatorsPpsAndCycleKeeper : Prop :=
  (∀ (g : Fin 8) (taps : Fin 256) (s : State), 8192 ≤ (s.gcal g).captures → 0 < taps.val →
    Answers (.calTable g taps) s (fun t =>
      ((∀ k, k < taps.val → tget 0 (s.gcal g).counts k ≠ 0) → (t.gcal g).valid = true ∧ (t.gcal g).stall = false ∧
        (t.gcal g).table = (List.range taps.val).map (fun k => tget 0 (s.gcal g).counts k) ∧ t.evq = s.evq) ∧
      ((∃ k, k < taps.val ∧ tget 0 (s.gcal g).counts k = 0) → (t.gcal g).stall = true ∧
        (t.gcal g).table = (s.gcal g).table ∧ (t.gcal g).valid = (s.gcal g).valid ∧ bit t.tb.alarm 3 = true) ∧
      (t.gcal g).captures = 0 ∧ (∀ h, h ≠ g.val → t.gcal h = s.gcal h) ∧ { t with tb := s.tb, evq := s.evq } = s)) ∧
  (∀ (g : Fin 8) (tap : Fin 256) (s : State), Answers (.groupTimeSync g tap) s (fun t =>
    (∀ n, n / 4 = g.val → t.groupTime n = s.interp g tap) ∧ (∀ n, n / 4 ≠ g.val → t.groupTime n = s.groupTime n) ∧
    t.tb.now = s.tb.now ∧ { t with tb := s.tb } = s)) ∧
  (∀ (c : GCopy) (g tick : Nat) (rate : Int), 0 < g → ∃ k : Int,
    (c.advance g rate tick).time = shiftT c.time (k * baseAdvance g rate) ∧
    c.phase + tick = k * g + (c.advance g rate tick).phase ∧ 0 ≤ (c.advance g rate tick).phase ∧
    (c.advance g rate tick).phase < g) ∧
  (∀ (sub : Fin 256) (l : Bool) (s : State), l ≠ s.tb.ppsIn → bit (s.reg 0x60300) 1 = true → l ≠ bit (s.reg 0x60300) 2 →
    (∀ d, s.tb.ppsSince = some d → (500000000 * 2 ^ 48 : Nat) ≤ d + (sub.val * 2 ^ 44 : Nat)) → Answers (.ppsInEdge sub l) s (fun t =>
      t.tb = { s.tb with
        ppsIn := l, ppsInTime := round16 (s.tb.now + sub.val * 2 ^ 44) % timeMod, ppsInEpoch := s.tb.epoch
        ppsInCount := s.tb.ppsInCount + 1, ppsSince := some (-(sub.val * 2 ^ 44 : Nat)) } ∧
      t.mf.entryQ = s.mf.entryQ ++ [{ src := 0x398, ev := true, rising := l, level := l, from_ := s.strokes + 2 }] ∧
      { t with tb := s.tb, mf := s.mf } = s)) ∧
  (∀ (sub : Fin 256) (l : Bool) (s : State), l ≠ s.tb.ppsIn → (bit (s.reg 0x60300) 1 = false ∨ l = bit (s.reg 0x60300) 2 ∨
    ∃ d, s.tb.ppsSince = some d ∧ d + (sub.val * 2 ^ 44 : Nat) < (500000000 * 2 ^ 48 : Nat)) → Answers (.ppsInEdge sub l) s (fun t =>
      t.tb = { s.tb with ppsIn := l } ∧
      t.mf.entryQ = s.mf.entryQ ++ [{ src := 0x398, ev := false, rising := l, level := l, from_ := s.strokes + 2 }])) ∧
  (∀ (s : State), s.tb.ppsPoint = true → Answers .ppsOutRise s (fun t =>
    t.tb = { s.tb with ppsPoint := false, ppsOut := true, ppsAge := 0 } ∧
    t.mf.entryQ = s.mf.entryQ ++ [{ src := 0x399, ev := true, rising := true, level := true, from_ := s.strokes + 2 }] ∧
    { t with tb := s.tb, mf := s.mf } = s)) ∧
  (∀ (s : State), s.tb.ppsOut = true → Answers .ppsOutFall s (fun t =>
    (s.reg 0x60308 * 1000 * 2 ^ 48 ≤ s.tb.ppsAge → t.tb = { s.tb with ppsOut := false } ∧
      t.mf.entryQ = s.mf.entryQ ++ [{ src := 0x399, ev := false, rising := false, level := false, from_ := s.strokes + 2 }]) ∧
    (s.tb.ppsAge < s.reg 0x60308 * 1000 * 2 ^ 48 → t = s))) ∧
  (∀ (i : Fin 128) (w : Word) (s : State), bit (s.ckCfg i) 0 = false → 0 < s.ckP i → Answers (.ckEnable i w) s (fun t =>
    bit (t.ckCfg i) 0 = true ∧ bits (t.ckCfg i) 7 4 = max 1 (min 8 (bits w.toNat 7 4)) ∧
    bits (t.ckCfg i) 11 8 = max 1 (bits w.toNat 11 8) ∧
    (∃ j, (t.ck i).next = some (s.ckGrid i j, j) ∧ (s.tb.now : Int) ≤ s.ckGrid i j ∧
      s.ckGrid i (j - 1) < s.tb.now) ∧ (t.ck i).busy = (s.ck i).busy ∧ (∀ k, k ≠ i.val → t.ck k = s.ck k) ∧
    { t with tb := s.tb, regs := s.regs } = s)) ∧
  (∀ (i : Fin 128) (w : Word) (s : State), Answers (.ckDisable i w) s (fun t => bit (t.ckCfg i) 0 = false ∧
    t.ck i = { s.ck i with next := none } ∧ (∀ k, k ≠ i.val → t.ck k = s.ck k) ∧
    { t with tb := s.tb, regs := s.regs } = s)) ∧
  (∀ (i : Fin 128) (p lag c : Nat) (due k : Int) (s : State), (s.ck i).next = some (due, k) → (s.ck i).busy = false →
    due ≤ (s.tb.now : Int) → (s.ck i).doneEdge < s.tb.edges → p = s.reg (0x64004 + 32 * i.val) →
    lag = (if (s.ck i).realigned then 0 else ((s.tb.now : Int) - ((s.ck i).base + k * (p * 2 ^ 48 : Nat))).toNat) →
    lag ≤ bits (s.reg (0x64000 + 32 * i.val)) 11 8 * p * 2 ^ 48 →
    c = min lag (p * bits (s.reg (0x64000 + 32 * i.val)) 7 4 / 16 * 2 ^ 48) → Answers (.cycleStart i) s (fun t =>
      t.ck i = { s.ck i with
        busy := true, catching := decide (0 < lag), realigned := false, lag := min (lag / 2 ^ 48) (2 ^ 32 - 1)
        count := wrap 32 k, next := some ((s.tb.now : Int) + (p * 2 ^ 48 : Nat) - c, k + 1) } ∧
      (∀ j, j ≠ i.val → t.ck j = s.ck j) ∧
      t.mf.entryQ = s.mf.entryQ ++ [{ src := 0x200 + i.val, ev := true, rising := true, level := true
                                      from_ := s.strokes + 2 }] ∧ { t with tb := s.tb, mf := s.mf } = s)) ∧
  (∀ (i : Fin 128) (p lag : Nat) (due k j : Int) (s : State), (s.ck i).next = some (due, k) → (s.ck i).busy = false →
    due ≤ (s.tb.now : Int) → (s.ck i).doneEdge < s.tb.edges → p = s.reg (0x64004 + 32 * i.val) → (s.ck i).realigned = false →
    lag = ((s.tb.now : Int) - ((s.ck i).base + k * (p * 2 ^ 48 : Nat))).toNat →
    bits (s.reg (0x64000 + 32 * i.val)) 11 8 * p * 2 ^ 48 < lag → 0 < p →
    (s.ck i).workEnd ≤ (s.ck i).base + j * (p * 2 ^ 48 : Nat) →
    (s.ck i).base + (j - 1) * (p * 2 ^ 48 : Nat) < (s.ck i).workEnd → Answers (.cycleStart i) s (fun t =>
      t.ck i = { s.ck i with
        next := some ((s.ck i).base + j * (p * 2 ^ 48 : Nat), j), realigned := true, phaseLost := true
        fresh := (s.ck i).fresh.set s.tb.edges 256
        missed := min 65535 ((s.ck i).missed + (j - k).toNat) } ∧ bit t.tb.alarm 5 = true ∧
      (∀ l, l ≠ i.val → t.ck l = s.ck l) ∧ { t with tb := s.tb, evq := s.evq } = s)) ∧
  (∀ (w : Word) (i : Nat) (s : State), i = bits w.toNat 6 0 → (s.ck i).busy = true → Answers (.ckDone w) s (fun t =>
    t.ck i = { s.ck i with busy := false, workEnd := s.tb.now, doneEdge := s.tb.edges } ∧
    (∀ l, l ≠ i → t.ck l = s.ck l) ∧
    t.mf.entryQ = s.mf.entryQ ++ [{ src := 0x200 + i, ev := false, rising := false, level := false
                                    from_ := s.strokes + 2 }] ∧ { t with tb := s.tb, mf := s.mf } = s)) ∧
  (∀ (w : Word) (i : Nat) (s : State), i = bits w.toNat 6 0 → (s.ck i).busy = false → Answers (.ckDone w) s (fun t =>
    t.ck i = { s.ck i with doneErr := true, fresh := (s.ck i).fresh.set s.tb.edges 512 } ∧ (∀ l, l ≠ i → t.ck l = s.ck l) ∧ { t with tb := s.tb } = s))

/-- R222, R363, R364, R365, R368: entries arrive, fire in order of time, are dropped beyond the limit, removed; fire
records and their ring. -/
def Obligations.ActionSchedule : Prop :=
  (∀ (e : Fin 4096) (n : SchedEntry) (s : State), s.sched e = some n → n.arrived = false → n.epoch = s.tb.epoch →
    Answers (.schedArrive e) s (fun t =>
      t.sched e = some { n with arrived := true, late := decide (n.time ≤ s.tb.now) } ∧
      (∀ f, f ≠ e.val → t.sched f = s.sched f) ∧ { t with tb := s.tb } = s)) ∧
  (∀ (e : Fin 4096) (n : SchedEntry) (k v : Nat) (s : State), s.sched e = some n → n.arrived = false →
    k = (s.tb.epoch + 256 - n.epoch) % 256 → k ≠ 0 → k ≤ 16 → bit n.act.toNat 9 = true →
    v = shiftT n.time (((List.range k).map (fun i => (tget ((0 : Int), 0) s.tb.log ((n.epoch + 1 + i) % 16)).1)).sum) →
    Answers (.schedArrive e) s (fun t => t.sched e = some { n with
      arrived := true, time := v, epoch := s.tb.epoch, rebased := true, late := decide (v ≤ s.tb.now) })) ∧
  (∀ (e : Fin 4096) (n : SchedEntry) (k : Nat) (s : State), s.sched e = some n → n.arrived = false →
    k = (s.tb.epoch + 256 - n.epoch) % 256 → k ≠ 0 → (bit n.act.toNat 9 = false ∨ 16 < k) →
    Answers (.schedArrive e) s (fun t => t.sched e = some { n with
      arrived := true, epoch := s.tb.epoch, staleEpoch := true, late := decide (n.time ≤ s.tb.now) })) ∧
  (∀ (e : Nat) (s : State), s.schedFirst = some e → ∃ n, (e, n) ∈ s.tb.sched ∧ s.schedDue n = true ∧
    s.schedDrop n = false ∧ ∀ p ∈ s.tb.sched, s.schedDue p.2 = true → s.schedDrop p.2 = false → n.time ≤ p.2.time) ∧
  (∀ (e : Fin 4096) (n : SchedEntry) (s : State), s.sched e = some n → n.arrived = true → (s.lb n.lb).shed = false →
    n.late = false → n.time ≤ s.tb.now → n.skipped = false → n.staleEpoch = false → bit n.act.toNat 10 = false →
    s.schedFirst = some e.val → s.tb.fired < 4 → Answers (.scheduleFire e) s (fun t =>
      t.sched e = none ∧ t.tb.fired = s.tb.fired + 1 ∧ (∀ f, f ≠ e.val → t.sched f = s.sched f) ∧
      t.mf.entryQ = s.mf.entryQ ++ [{ src := 0x280 + (8 * n.lb + bits n.act.toNat 2 0), ev := true, rising := true
                                      level := true, from_ := s.strokes + 2 }] ∧
      (∀ lb, t.repRing lb = s.repRing lb) ∧ { t with tb := s.tb, mf := s.mf } = s)) ∧
  (∀ (e : Fin 4096) (n : SchedEntry) (l : Nat) (s : State), s.sched e = some n → n.arrived = true →
    (s.lb n.lb).shed = false → n.late = true → n.lateBy = some l → bits (s.reg 0x60010) 23 0 < l →
    bit n.act.toNat 8 = false → ((s.repRing n.lb).tail + 32 - (s.repRing n.lb).head) % 32 ≠ 16 →
    Answers (.scheduleFire e) s (fun t => t.sched e = none ∧ t.tb.fired = s.tb.fired ∧
      (t.repRing n.lb).tail = ((s.repRing n.lb).tail + 1) % 32 ∧
      tfind (t.repRing n.lb).recs ((s.repRing n.lb).tail % 16) = some
        (BitVec.ofNat 32 (e.val + 2 ^ 16 * bits n.act.toNat 31 16),
         BitVec.ofNat 32 (min l 0xFFFFFF + 2 ^ 25 + 2 ^ 26 * b2n n.skipped + 2 ^ 27 * b2n n.rebased +
           2 ^ 28 * b2n n.staleEpoch)) ∧
      t.mf.entryQ = s.mf.entryQ ++ [{ src := 0x380 + n.lb, ev := true, rising := true, level := true
                                      from_ := s.strokes + 2 }] ∧ { t with tb := s.tb, mf := s.mf } = s)) ∧
  (∀ (e : Fin 4096) (n : SchedEntry) (q k : Nat) (s : State), s.sched e = some n → n.cancel = some (q, k) →
    (k < 2 ∨ ∃ d, n.dueEdge = some d ∧ d ≠ s.tb.edges) → exec (.unschedApply e) s = .next s) ∧
  (∀ (e : Fin 4096) (n : SchedEntry) (q k : Nat) (s : State), s.sched e = some n → n.cancel = some (q, k) → 2 ≤ k →
    (∀ d, n.dueEdge = some d → d = s.tb.edges) → Answers (.unschedApply e) s
    (fun t => t.sched e = none ∧ (∀ f, f ≠ e.val → t.sched f = s.sched f) ∧ { t with tb := s.tb } = s)) ∧
  (∀ (lb : Fin 8) (w : Word) (h : Nat) (s : State), h = bits w.toNat 4 0 → Answers (.repHeadWrite lb w) s (fun t =>
    (((s.repRing lb).tail + 32 - h) % 32 ≤ 16 → (t.repRing lb) = { s.repRing lb with head := h }) ∧
    (16 < ((s.repRing lb).tail + 32 - h) % 32 → t = s) ∧ (∀ b, b ≠ lb.val → t.repRing b = s.repRing b) ∧
    { t with tb := s.tb, mf := s.mf } = s))

/-! ### The pump (chapter 12) -/

/-- R426, R428, R430, R432: MOVE_COMPLETE: the slot, the done bit and the queue event of a move; the completion record
and a full ring; the bytes of a COPY. Where it goes beyond these rules it follows the model's own readings of log
entries 4, 117. -/
def Obligations.MovesComplete : Prop :=
  (∀ (k : Fin 512) (m : Move) (x q j : Nat) (s : State), s.move k = some m → m.phase = .done → s.landed m = true →
    m.by_ = .thread x q j → m.err = 0 → m.crec = false → (m.op = 3 → m.tsreq = false) → m.ckdone = false → bit (s.reg 0xF0000) 1 = false →
    s.isUe (.privBits x) ((0x020 + j) / 32) = false →
    Answers (.moveComplete k) s (fun t => t.pump.moves = s.pump.moves.filter (fun n => n.slot != k.val) ∧
      (t.th x).flag (0x020 + j) = true ∧ (∀ a, a ≠ 0x020 + j → (t.th x).flag a = (s.th x).flag a) ∧
      t.mf.entryQ = s.mf.entryQ ++ [{ src := 0x3C0 + 8 * lbOf x + q, ev := true, rising := true, level := true
                                      from_ := s.strokes + 1 }] ∧ (∀ lb, t.pumpLb lb = s.pumpLb lb) ∧
      (s.ecc = [] → { t with threads := s.threads, pump := s.pump, mf := s.mf, wh := s.wh } = s))) ∧
  (∀ (k : Fin 512) (m : Move) (s : State), s.move k = some m → (s.landed m = false ∨ (m.phase ≠ .done ∧ m.phase ≠ .ready)) →
    exec (.moveComplete k) s = .next s) ∧
  (∀ (k : Fin 512) (m : Move) (x q j base size tl v : Nat) (s : State), s.move k = some m → m.phase = .done → s.landed m = true →
    (s.lb (lbOf x)).resPend = [] → m.by_ = .thread x q j → (m.crec = true ∨ m.err ≠ 0) → m.ts = none → m.tsLost = false → m.late = false →
    (base, size) = ringAt (s.reg (0x70110 + 0x40 * lbOf x)) → tl = (s.pumpLb (lbOf x)).crTail →
    v = m.err + 2 ^ 8 * j + 2 ^ 12 * q + 2 ^ 20 * slotOf x + 2 ^ 32 * (m.result % 2 ^ 32) → Answers (.moveComplete k) s
      (fun t => t.move k = none ∧
        ((tl % 512 + 512 - (s.pumpLb (lbOf x)).crHead) % 512 ≠ size → (t.pumpLb (lbOf x)).crTail = tl + 1 ∧
          readLE (t.lb (lbOf x)).res (base + 16 * (tl % size)) 16 = v % 256 ^ 16) ∧
        ((tl % 512 + 512 - (s.pumpLb (lbOf x)).crHead) % 512 = size → (t.pumpLb (lbOf x)).crTail = tl ∧
          (t.pumpLb (lbOf x)).crLost = satInc 16 (s.pumpLb (lbOf x)).crLost ∧ t.lb (lbOf x) = s.lb (lbOf x) ∧
          bit t.pump.alarm 6 = true))) ∧
  (∀ (k : Fin 512) (m : Move) (sp a dp d : Nat) (rd : State → Nat → Nat → Byte) (s : State), s.move k = some m →
    m.phase = .ready → m.op = 1 → m.moved = 0 → m.err = 0 → m.crec = false → m.ckdone = false → s.ecc = [] →
    (s.lb m.lb).resPend = [] → m.ptr m.src m.len = some (sp, a) →
    m.ptr m.dst m.len = some (dp, d) →
    rd = (fun u sp b => if sp = 0 then byteAt (u.th m.thread).well b else byteAt (u.lb m.lb).res b) →
    Answers (.moveComplete k) s (fun t => t.move k = none ∧
      (sp ≠ dp ∨ a + m.len ≤ d ∨ d + m.len ≤ a → ∀ b, b < m.len → rd t dp (d + b) = rd s sp (a + b)) ∧
      (∀ e b, e = 0 ∨ e = 1 → ¬(e = dp ∧ d ≤ b ∧ b < d + m.len) → rd t e b = rd s e b)))

/-- R415, R416, R417, R424, R432, R433, R445: triggers, spill and refill, the deep slot stack, the queue depths and
CR_HEAD. Where it goes beyond these rules it follows the model's own readings of log entry 72. -/
def Obligations.TriggersSpillAndPumpRegisters : Prop :=
  (∀ (lb k : Fin 8) (i w q a slot : Nat) (s : State), i = 8 * lb.val + k.val → i ∈ s.mf.ptrgX →
    w = s.reg (0x70120 + 0x40 * lb.val + 4 * k.val) → q = bits w 26 24 → a = bits w 18 4 * 16 → bit w 31 = true →
    s.trigBusy lb k q = false → s.ecc = [] → s.freeSlot = some slot → Answers (.pumpTrigger lb k) s (fun t =>
      t.pump.moves = s.pump.moves ++ [{ slot := slot, by_ := .trigger lb q k, w0 := readLE (s.lb lb).res a 4
                                        src := readLE (s.lb lb).res (a + 4) 4, dst := readLE (s.lb lb).res (a + 8) 4
                                        aux := readLE (s.lb lb).res (a + 12) 4, issued := s.strokes - 1 }] ∧
      t.mf.ptrgX = s.mf.ptrgX.erase i ∧ { t with pump := s.pump, mf := s.mf, draws := s.draws } = s)) ∧
  (∀ (lb k : Fin 8) (i w : Nat) (s : State), i = 8 * lb.val + k.val → i ∈ s.mf.ptrgX →
    w = s.reg (0x70120 + 0x40 * lb.val + 4 * k.val) → bit w 31 = true → s.trigBusy lb k (bits w 26 24) = true →
    Answers (.pumpTrigger lb k) s (fun t => t.pump = s.pump ∧ t.mf.ptrgX = s.mf.ptrgX.erase i ∧
      (t.inStat (0x380 + i)).ovr = true ∧ { t with mf := s.mf } = s)) ∧
  (∀ (lb k : Fin 8) (i : Nat) (s : State), i = 8 * lb.val + k.val → i ∈ s.mf.ptrgX →
    bit (s.reg (0x70120 + 0x40 * lb.val + 4 * k.val)) 31 = false →
    exec (.pumpTrigger lb k) s = .next { s with mf := { s.mf with ptrgX := s.mf.ptrgX.erase i } }) ∧
  (∀ (ch : Fin 16384) (b k d : Nat) (s u : State), s.spillOn = true → s.pump.spill = none → s.spillPick = some ch.val →
    s.spillable ch = some b → s.freeSlot = some k → s.dcPop = some (d, u) → Answers (.spillVisit ch) s (fun t =>
      (∃ p, t.pump.spill = some p ∧ p.slot = k ∧ p.ch = ch.val ∧ p.head = b % 2 ^ 15 ∧ p.deep = d ∧ p.err = false) ∧
      t.pump.spillNext = (ch.val + 1) % 16384 ∧ t.pump.spilling = true ∧
      (s.pump.spilling = false → bit t.pump.alarm 1 = true) ∧
      Asked t 1 true (s.dcBase + 16384 * d + 0x3FC0) 16 (.deep spillSlot 0x3FC0))) ∧
  (∀ (ch : Fin 16384) (b k : Nat) (s : State), s.spillOn = true → s.pump.spill = none → s.spillPick = some ch.val →
    s.spillable ch = some b → s.freeSlot = some k → s.dcPop = none → Answers (.spillVisit ch) s (fun t =>
      t.pump.spill = none ∧ t.pump.dcFull = true ∧ bit t.pump.alarm 2 = true ∧ t.host = s.host ∧
      { t with pump := s.pump, evq := s.evq } = s)) ∧
  (∀ (m : Move) (h d : Nat) (c : Cell) (s u : State),
    s.pump.moves.find? (fun m => m.phase == .refill && m.head.isNone) = some m → m.deep = some d →
    c = tget {} s.pump.dcHdr (d % 2 ^ 22) → d < 2 ^ 22 →
    s.allocBuf c.len { c with next := 0, last := false } = some (h, u) → Answers .refill s (fun t =>
      ∃ n ∈ t.pump.moves, n.slot = m.slot ∧ n.head = some h ∧ n.data = List.replicate c.len 0)) ∧
  (∀ (m : Move) (d : Nat) (c : Cell) (s : State),
    s.pump.moves.find? (fun m => m.phase == .refill && m.head.isNone) = some m → m.deep = some d →
    c = tget {} s.pump.dcHdr (d % 2 ^ 22) → d < 2 ^ 22 → s.freeCells < s.rxReserve + max 1 (ceilDiv c.len 256) →
    exec .refill s = .next s) ∧
  (∀ (w : Word) (s : State), Answers (.dcEnable w) s (fun t => bit (t.reg 0x70000) 0 = bit w.toNat 0 ∧
    bit (t.reg 0x70000) 1 = true ∧ (∀ o, o ≠ 0x70000 → t.reg o = s.reg o) ∧
    t.pump = (if bit (s.reg 0x70000) 1 then { s.pump with
        spilling := s.pump.spilling && bit w.toNat 0 && s.pump.dcReady && decide (s.freeCells < s.resumeWm) }
      else { s.pump with dcBuilding := true, dcReady := false, spilling := false }) ∧
    { t with pump := s.pump, regs := s.regs } = s)) ∧
  (∀ (s : State), s.pump.dcBuilding = true → 0 < bits (s.reg 0x70038) 22 0 → Answers .dcReady s (fun t => t.pump = { s.pump with
    dcBuilding := false, dcReady := true, dcFull := false, dcStack := []
    dcNext := (4 * bits (s.reg 0x70038) 22 0 + 16383) / 16384, dcHdr := [] } ∧ { t with pump := s.pump } = s)) ∧
  (∀ (s : State), bits (s.reg 0x70038) 22 0 = 0 → exec .dcReady s = .next s ∧ s.spillOn = false) ∧
  (∀ (lb : Fin 8) (w : Word) (h d size base : Nat) (s : State), h = bits w.toNat 8 0 →
    (base, size) = ringAt (s.reg (0x70110 + 0x40 * lb.val)) → d = ((s.pumpLb lb).crTail % 512 + 512 - h) % 512 →
    Answers (.crHeadWrite lb w) s (fun t => (∀ b, b ≠ lb.val → t.pumpLb b = s.pumpLb b) ∧
      (d ≤ size → t.pumpLb lb = { s.pumpLb lb with crHead := h } ∧ t.evq = s.evq) ∧
      (size < d → t.pumpLb lb = s.pumpLb lb ∧ bit t.pump.alarm 9 = true) ∧
      { t with pump := s.pump, evq := s.evq } = s)) ∧
  (∀ (r : Fin 24) (w : Word) (off v : Nat) (s : State),
    off = (if r.val < 16 then 0x70100 + 0x40 * (r.val / 2) + 4 * (r.val % 2) else 0x70040 + 4 * (r.val - 16)) →
    v = (if r.val < 16 then min 64 (bits w.toNat 6 0) + 2 ^ 8 * min 64 (bits w.toNat 14 8) +
      2 ^ 16 * min 64 (bits w.toNat 22 16) + 2 ^ 24 * min 64 (bits w.toNat 30 24) else min 64 (bits w.toNat 6 0)) →
    Answers (.qdepthWrite r w) s (fun t => (∀ o, o ≠ off → t.reg o = s.reg o) ∧
      ((s.setReg off v).depthSum ≤ 512 ∨ (s.setReg off v).depthSum ≤ s.depthSum → t.reg off = v ∧ t.pump = s.pump) ∧
      (512 < (s.setReg off v).depthSum → s.depthSum < (s.setReg off v).depthSum → t.reg off = s.reg off ∧ bit t.pump.alarm 9 = true) ∧
      { t with regs := s.regs, pump := s.pump, evq := s.evq } = s))

/-! ### Host rings (chapter 13) -/

/-- R450, R451, R452, R453, R454, R455: polls and what they bring, hints, fetches, the enable of a ring pair. Where it
goes beyond these rules it follows the model's own readings of log entries 59, 61. -/
def Obligations.PollsFetchesAndRingEnable : Prop :=
  (∀ (p : Fin 8) (s : State), s.up 0 = true → s.pollsOn = true → s.hpEn p = true → (s.part p).polling = false →
    (s.part p).pollAt + s.pollInterval p ≤ s.tb.elapsed → Answers (.poll p) s (fun t =>
      t.part p = { s.part p with polling := true, hint := false, pollAt := s.tb.elapsed } ∧
      (∀ q, q ≠ p.val → t.part q = s.part q) ∧
      Asked t 0 false (bits (s.reg (0x90110 + 32 * p.val)) 31 6 * 64 + 2 ^ 32 * s.reg (0x90114 + 32 * p.val)) 64 (.poll p) ∧
      { t with host := s.host } = s)) ∧
  (∀ (s : State), s.up 0 = true → s.pollsOn = true → Answers .dbHint s (fun t => ∀ p, p < 8 →
    t.part p = (if s.hpEn p && s.hpHint p then
      (if (s.part p).polling then { s.part p with hint := true }
       else { s.part p with polling := true, hint := false, pollAt := s.tb.elapsed }) else s.part p))) ∧
  (∀ (p : Fin 8) (c : MCmd) (data : List Byte) (s : State),
    s.host.mcmds.find? (fun c => c.issued && c.owner == .poll p) = some c → Answers (.pollReturn p 0 data) s (fun t =>
      (t.part p).polling = ((s.part p).hint && s.hpEn p) ∧
      (∀ l, l < 8 →
        (t.ring (8 * p.val + l)).sqTail =
          ofBytes (((data.map (·.toNat)).drop (8 * l)).take 4) % 4096 % s.sqSize (8 * p.val + l) ∧
        (t.ring (8 * p.val + l)).cqHead =
          ofBytes (((data.map (·.toNat)).drop (8 * l + 4)).take 4) % 4096 % s.cqSize (8 * p.val + l) ∧
        (t.ring (8 * p.val + l)).sqHead = (s.ring (8 * p.val + l)).sqHead) ∧
      (∀ r, partOf r ≠ p.val → t.ring r = s.ring r) ∧ { t with host := s.host } = s)) ∧
  (∀ (p : Fin 8) (e : Fin 4) (c : MCmd) (data : List Byte) (s : State), e ≠ 0 →
    s.host.mcmds.find? (fun c => c.issued && c.owner == .poll p) = some c → Answers (.pollReturn p e data) s (fun t =>
      (∀ r, t.ring r = s.ring r) ∧ (t.part p).pollErr = true ∧ (t.part p).pollErrs = satInc 16 (s.part p).pollErrs ∧
      bit t.host.alarm 2 = true ∧ { t with host := s.host, evq := s.evq } = s)) ∧
  (∀ (r : Fin 64) (n : Nat) (s : State), s.up 0 = true → s.fetchPick (r.val / 8) = some r.val → n = s.fetchRoom r →
    Answers (.submissionFetch r) s (fun t => (t.ring r).fetching = true ∧ 0 < n ∧ n ≤ 8 ∧
      n ≤ ((s.ring r).sqTail + s.sqSize r - (s.ring r).sqHead) % s.sqSize r ∧
      (s.sqBase r / 32 + (s.ring r).sqHead) % 8 + n ≤ 8 ∧
      Asked t 0 false (s.sqBase r + 32 * (s.ring r).sqHead) (32 * n) (.fetch r (s.ring r).sqHead n (s.ring r).gen) ∧
      (∀ q, q ≠ r.val → t.ring q = s.ring q) ∧ { t with host := s.host } = s)) ∧
  (∀ (r : Fin 64) (w : Word) (s : State), s.ringEn r = false → Answers (.ringEnable r w) s (fun t =>
    t.ringEn r = true ∧ bits (t.ringCfg r) 11 8 = max 4 (min 12 (bits w.toNat 11 8)) ∧
    bits (t.ringCfg r) 15 12 = max 4 (min 12 (bits w.toNat 15 12)) ∧
    (t.ring r).gen = (s.ring r).gen + 1 ∧ (t.ring r).sqHead = 0 ∧ (t.ring r).cqCount = 0 ∧ (t.ring r).halted = false ∧
    (∀ q, q ≠ r.val → t.ring q = s.ring q) ∧ { t with regs := s.regs, host := s.host } = s)) ∧
  (∀ (r : Fin 64) (w : Word) (s : State), s.ringEn r = true → Answers (.ringEnable r w) s (fun t =>
    t.ringEn r = true ∧ bits (t.ringCfg r) 15 8 = bits (s.ringCfg r) 15 8 ∧ (t.ring r).gen = (s.ring r).gen ∧
    (t.ring r).sqHead = (s.ring r).sqHead ∧ (t.ring r).cqCount = (s.ring r).cqCount ∧ t.host.recs = s.host.recs))

/-- R456, R457, R458, R459: SEND takes cells and reads the host; RX_POST is held; submissions that fail complete at
once. -/
def Obligations.DataSubmissions : Prop :=
  (∀ (r : Fin 64) (q : Sub) (i h k len : Nat) (c : Chan) (s u : State),
    s.host.subs.find? (fun q => q.r == r.val) = some q → q.op = 1 → q.bad = false →
    s.checkHandle 0 (q.w 1) = (.ok i, s) → c = s.chan i → c.kind = 2 → c.state = 2 → c.ring = q.r →
    (s.lb c.lb).shed = false → bits (q.w 0) 9 8 = 0 → len = bits (q.w 2) 13 0 → 1 ≤ len → len ≤ 16320 →
    s.allocBuf len { refs := 1, tofs12 := c.tofs12 } = some (h, u) → s.freeSlot = some k →
    Answers (.send r) s (fun t => t.host.subs = s.host.subs.erase q ∧
      (∃ m, t.host.moves = s.host.moves ++ [m] ∧ m.slot = k ∧ m.kind = .send ∧ m.r = q.r ∧ m.idx = q.idx ∧ m.ch = i ∧
        m.len = len ∧ m.tag = q.w 3 ∧ m.head = some h ∧ m.phase = .reading ∧ m.addr = q.w 4 + 2 ^ 32 * q.w 5) ∧
      t.host.recs = s.host.recs)) ∧
  (∀ (r : Fin 64) (q : Sub) (i k len : Nat) (c : Chan) (s : State),
    s.host.subs.find? (fun q => q.r == r.val) = some q → q.op = 1 → q.bad = false →
    s.checkHandle 0 (q.w 1) = (.ok i, s) → c = s.chan i → c.kind = 2 → c.state = 2 → c.ring = q.r →
    (s.lb c.lb).shed = false → s.ringEn q.r = true → len = bits (q.w 2) 13 0 →
    ((bits (q.w 0) 9 8 ≠ 0 ∧ k = 0x0B) ∨ (bits (q.w 0) 9 8 = 0 ∧ (len < 1 ∨ 16320 < len) ∧ k = 9) ∨
     (bits (q.w 0) 9 8 = 0 ∧ 1 ≤ len ∧ len ≤ 16320 ∧ s.freeCells < s.rxReserve + max 1 (ceilDiv len 256) ∧ k = 5)) →
    Answers (.send r) s (fun t => (∃ d ∈ t.host.recs, d.r = q.r ∧ d.w0 = k + 2 ^ 16 * q.idx ∧ d.irq = q.irq) ∧
      t.host.subs = s.host.subs.erase q ∧ t.host.moves = s.host.moves)) ∧
  (∀ (r : Fin 64) (q : Sub) (i k : Nat) (c : Chan) (j : Instr) (s : State), (j = .send r ∧ q.op = 1 ∨ j = .rxPost r ∧ q.op = 2) →
    s.host.subs.find? (fun q => q.r == r.val) = some q → q.bad = false → s.ringEn q.r = true →
    s.checkHandle 0 (q.w 1) = (.ok i, s) → c = s.chan i →
    ((c.kind ∉ [1, 2, 5] ∧ k = 3) ∨ (c.kind ∈ [1, 2, 5] ∧ (c.state ≠ 2 ∨ c.ring ≠ q.r ∨ (s.lb c.lb).shed = true) ∧ k = 4)) →
    Answers j s (fun t => (∃ d ∈ t.host.recs, d.r = q.r ∧ d.w0 = k + (if q.op = 2 then 2 ^ 12 else 0) + 2 ^ 16 * q.idx ∧
      d.irq = q.irq) ∧ t.host.subs = s.host.subs.erase q ∧ t.host.moves = s.host.moves ∧ t.host.posts = s.host.posts)) ∧
  (∀ (r : Fin 64) (q : Sub) (i len : Nat) (c : Chan) (s : State),
    s.host.subs.find? (fun q => q.r == r.val) = some q → q.op = 2 → q.bad = false →
    s.checkHandle 0 (q.w 1) = (.ok i, s) → c = s.chan i → c.kind ∈ [1, 2, 5] → c.state = 2 → c.ring = q.r →
    (s.lb c.lb).shed = false → len = bits (q.w 2) 13 0 → 1 ≤ len → len ≤ 16320 → c.blCount = 0 →
    Answers (.rxPost r) s (fun t => t.host.subs = s.host.subs.erase q ∧
      t.host.posts = s.host.posts ++ [{ r := q.r, idx := q.idx, ch := i, addr := q.w 4 + 2 ^ 32 * q.w 5, len := len
                                        irq := q.irq }] ∧ { t with host := s.host } = s)) ∧
  (∀ (r : Fin 64) (q : Sub) (s : State), s.host.subs.find? (fun q => q.r == r.val) = some q → s.ringEn q.r = true →
    ((q.op ≠ 1 ∧ q.op ≠ 2) ∨ bits (q.w 0) 31 11 ≠ 0 ∨ bits (q.w 2) 31 14 ≠ 0 ∨ bits (q.w 6) 31 30 ≠ 0 ∨
     (q.op = 2 ∧ bits (q.w 0) 9 8 ≠ 0) ∨ (bit (q.w 0) 9 = false ∧ (q.w 6 ≠ 0 ∨ q.w 7 ≠ 0))) →
    Answers (.badSubmission r) s (fun t => (∃ d ∈ t.host.recs, d.r = q.r ∧
      d.w0 = 0x0B + (if q.op = 2 then 2 ^ 12 else 0) + 2 ^ 16 * q.idx ∧ d.w1 = 0 ∧ d.irq = q.irq) ∧
      t.host.subs = s.host.subs.erase q ∧ { t with host := s.host } = s))

/-- R460, R461, R462, R464, R473, R474, R565, R568, R570: completion records, their phase and room, interrupts, a
partition's reset, and the answers of the master ports. Where it goes beyond these rules it follows the model's own
readings of log entries 60, 63, 79. -/
def Obligations.CompletionsInterruptsAndResponses : Prop :=
  (∀ (r : Fin 64) (c : HRec) (s : State), s.recNext r = some c → c.slot = none → s.up 0 = true → s.cqRoom r = true →
    Answers (.completionWrite r) s (fun t => (t.ring r).cqCount = (s.ring r).cqCount + 1 ∧
      (∀ q, q ≠ r.val → t.ring q = s.ring q) ∧ (∃ d ∈ t.host.mcmds, d.port = 0 ∧ d.write = true ∧ d.bytes = 16 ∧
        d.addr = s.cqBase r + 16 * ((s.ring r).cqCount % s.cqSize r) ∧ d.owner = .record c.id ∧
        d.data = toBytes 4 (c.w0 % 2 ^ 31 + 2 ^ 31 * b2n ((s.ring r).cqCount / s.cqSize r % 2 == 0)) ++ toBytes 4 c.w1 ++
          toBytes 4 c.w2 ++ toBytes 4 c.w3) ∧ { t with host := s.host } = s)) ∧
  (∀ (r : Fin 64) (c : HRec) (s : State), s.recNext r = some c → c.waited = false → s.up 0 = true → s.cqRoom r = false →
    Answers (.completionWrite r) s (fun t => (∀ q, t.ring q = s.ring q) ∧ t.host.mcmds = s.host.mcmds ∧
      bit t.host.alarm 1 = true ∧ { t with host := s.host, evq := s.evq } = s)) ∧
  (∀ (r : Fin 64) (s : State), 0 < (s.ring r).coCount →
    (s.ring r).coSince + bits (s.reg (0x91014 + 32 * r.val)) 27 16 * 67108864000 ≤ s.tb.elapsed →
    exec (.coalesceTimeout r) s = .next (s.modRing r (fun g => { g with
      irqAt := some (g.cqCount % s.cqSize r), coCount := 0 }))) ∧
  (∀ (p : Fin 8) (w : Word) (s : State), Answers (.partitionReset p w) s (fun t => t.hpEn p = false ∧
    (∀ l, l < 8 → t.ringEn (8 * p.val + l) = false) ∧
    t.host.posts = s.host.posts.filter (fun q => partOf q.r != p.val) ∧
    (∀ q ∈ t.host.recs, partOf q.r = p.val → s.ringEn q.r = true → q.sent = true) ∧
    ((∃ m ∈ s.host.cmds, partOf m.r = p.val) → (t.part p).resetBusy = true))) ∧
  (∀ (id : Fin 512) (c : MCmd) (d : HRec) (s : State), s.cmdOf 0 id true = some c → s.up 0 = true →
    c.owner = .record d.id → s.host.recs.find? (fun e => e.id == d.id) = some d → d.slot = none →
    Answers (.writeAck 0 id 0) s (fun t => t.host.recs = s.host.recs.filter (fun e => e.id != d.id) ∧
      (d.irq = true → (t.ring d.r).irqAt = some ((s.ring d.r).cqCount % s.cqSize d.r) ∧ (t.ring d.r).coCount = 0) ∧
      (d.irq = false → (s.ring d.r).coCount + 1 < s.coCount d.r → s.coTime d.r ≠ 0 →
        (t.ring d.r).irqAt = (s.ring d.r).irqAt ∧ (t.ring d.r).coCount = (s.ring d.r).coCount + 1) ∧
      { t with host := s.host } = s)) ∧
  (∀ (id : Fin 512) (e : Fin 4) (c : MCmd) (d : HRec) (s : State), e ≠ 0 → s.cmdOf 0 id true = some c → s.up 0 = true →
    c.owner = .record d.id → s.host.recs.find? (fun e => e.id == d.id) = some d → d.slot = none →
    Answers (.writeAck 0 id e) s (fun t => (t.ring d.r).halted = true ∧ bit t.host.alarm 0 = true ∧
      t.host.recs = s.host.recs.filter (fun e => e.id != d.id) ∧ { t with host := s.host, evq := s.evq } = s)) ∧
  (∀ (id : Fin 512) (c : MCmd) (r n : Nat) (data : List Byte) (s : State), s.cmdOf 0 id false = some c → s.up 0 = true →
    c.owner = .fetch r (s.ring r).sqHead n (s.ring r).gen → s.ringEn r = true → r % 8 ≠ 0 → c.bytes = 32 * n →
    c.addr % 16 + c.bytes ≤ data.length → Answers (.readResponse 0 id 0 data) s (fun t =>
      (t.ring r).sqHead = ((s.ring r).sqHead + n) % s.sqSize r ∧ (t.ring r).fetching = false ∧
      t.host.subs = s.host.subs ++ (List.range n).map (fun i => { r := r, idx := (s.ring r).sqHead + i
                                                                  words := (List.range 8).map (fun j =>
        ofBytes (((((data.drop (c.addr % 16)).take c.bytes).map (·.toNat)).drop (32 * i + 4 * j)).take 4)) }) ∧
      { t with host := s.host } = s)) ∧
  (∀ (id : Fin 512) (e : Fin 4) (c : MCmd) (r f n : Nat) (data : List Byte) (s : State), e ≠ 0 →
    s.cmdOf 0 id false = some c → s.up 0 = true → c.owner = .fetch r f n (s.ring r).gen → s.ringEn r = true →
    Answers (.readResponse 0 id e data) s (fun t => (t.ring r).halted = true ∧ (t.ring r).descHost = true ∧
      (t.ring r).sqHead = (s.ring r).sqHead ∧ t.host.subs = s.host.subs ∧ bit t.host.alarm 0 = true ∧
      { t with host := s.host, evq := s.evq } = s)) ∧
  (∀ (port : Fin 2) (id : Fin 512) (c : MCmd) (s : State),
    s.host.mcmds.find? (fun c => c.issued && c.port == port.val && c.id == id.val) = some c → c.warned = false →
    c.at_ + 67108864000000 ≤ s.tb.elapsed → Answers (.responseTimeout port id) s (fun t =>
      t.evq = (s.event 0 14 14 port id).evq ∧ t.host.mcmds.length = s.host.mcmds.length ∧
      { t with host := s.host, evq := s.evq } = s))

/-! ### Host commands (chapters 13 and 14) -/

/-- R466, R467, R547: how the command processor answers before any operation: STATE in recovery, BAD_ARG, NO_RIGHTS,
UNDEFINED; CMD_NOP waits for the commands before it. -/
def Obligations.CommandsAnsweredAtOnce : Prop :=
  (∀ (p : Fin 8) (i : Instr) (op : Nat) (masks : List Nat) (right : State → Bool) (c : HCmd) (s : State),
    (i, op, masks, right) ∈ [(.cmdNop p, 0x40, [], fun _ => true),
      (.chCreate p, 0x41, entryMasks 0, fun s => bit (s.hpRights p) 8),
      (.chModify p, 0x42, entryMasks (2 ^ 32 - 1), fun s => bit (s.hpRights p) 8),
      (.chDestroy p, 0x43, [2 ^ 32 - 1], fun s => bit (s.hpRights p) 8),
      (.chEnable p, 0x44, [2 ^ 32 - 1], fun _ => true), (.chDisable p, 0x45, [2 ^ 32 - 1], fun _ => true),
      (.portEnable p, 0x48, [31], fun _ => true), (.portDisable p, 0x49, [31], fun _ => true),
      (.lockgAcq p, 0x58, [1023, 0, 16383], fun s => bit (s.hpRights p) 10),
      (.lockgRel p, 0x59, [1023], fun s => bit (s.hpRights p) 10),
      (.lockgForce p, 0x5A, [1023], fun s => bit (s.hpRights p) 10 && p.val == 0),
      (.lockwAcq p, 0x5B, [2 ^ 32 - 1, 7, 16383], fun s => bit (s.hpRights p) 10),
      (.lockwRel p, 0x5C, [2 ^ 32 - 1, 7], fun s => bit (s.hpRights p) 10)] →
    (s.cpPick ≠ some p.val ∨ s.cpReady = false ∨ (0x58 ≤ op ∧ 9 + p.val < s.rank) → exec i s = .next s) ∧
    ((0x58 ≤ op → s.rank ≤ 9 + p.val) →
    (Commanded s p op c → c.clean masks = false → Answers i s (fun t => Completed t c 6 0 ∧ t.locks = s.locks ∧
      t.pump.chans = s.pump.chans ∧ t.host.pstate = s.host.pstate)) ∧
    (Commanded s p op c → c.clean masks = true → right s = false → Answers i s (fun t => Completed t c 3 0 ∧
      t.locks = s.locks ∧ t.pump.chans = s.pump.chans ∧ t.host.pstate = s.host.pstate)) ∧
    (Commanded { s with mram := { s.mram with recovery := false } } p op c → s.mram.recovery = true →
      Answers i s (fun t => Completed t c 5 0 ∧ t.locks = s.locks ∧ t.pump.chans = s.pump.chans ∧
        t.host.pstate = s.host.pstate)))) ∧
  (∀ (p : Fin 8) (c : HCmd) (s : State), Commanded s p c.op c →
    c.op ∉ [0x40, 0x41, 0x42, 0x43, 0x44, 0x45, 0x48, 0x49, 0x50, 0x51, 0x58, 0x59, 0x5A, 0x5B, 0x5C] →
    Answers (.undefinedCommand p) s (fun t => Completed t c 7 0 ∧
      t.host.cpNext = (p.val + 1) % 8 ∧ t.host.cpAt = some s.tb.elapsed ∧ { t with host := s.host } = s)) ∧
  (∀ (p : Fin 8) (c : HCmd) (s : State), Commanded s p 0x40 c → c.clean [] = true →
    s.host.cmds.find? (fun d => d.r == c.r) = some c → (∀ d ∈ s.host.cmds, d.id = c.id → d = c) →
    Answers (.cmdNop p) s (fun t => Completed t c 0 0 ∧ { t with host := s.host } = s)) ∧
  (∀ (p : Fin 8) (c d : HCmd) (s : State), Commanded s p 0x40 c → c.clean [] = true →
    s.host.cmds.find? (fun d => d.r == c.r) = some d → d.held ≠ .nop → d.id ≠ c.id → Answers (.cmdNop p) s (fun t =>
      t.host.recs = s.host.recs ∧ t.host.cmds = s.host.cmds.map (fun e => if e.id = c.id then { e with held := .nop } else e)))

/-- R420, R421, R466, R468: channels are checked, created at the next free index, replaced in whole or in part,
destroyed. -/
def Obligations.ChannelsCreatedModifiedDestroyed : Prop :=
  (∀ (s : State) (p : Nat) (e : Chan), s.entryCheck p e = 0 ↔ 1 ≤ e.kind ∧ e.kind ≤ 5 ∧ e.nq ≤ 7 ∧ e.imgRes % 4 = 0 ∧
    e.ring / 8 = p ∧ e.ring % 8 ≠ 0 ∧ (e.kind = 3 → e.imgRes + 4 * (e.imgWords + 1) ≤ 0x80000) ∧
    bit (s.hpRights p) e.lb = true ∧ (e.kind = 1 ∨ e.kind = 5 → bit (s.hpPorts p) e.port = true)) ∧
  (∀ (p : Fin 8) (c : HCmd) (i : Nat) (s : State), Commanded s p 0x41 c → c.clean (entryMasks 0) = true →
    bit (s.hpRights p) 8 = true → s.entryCheck p (c.entry p) = 0 → s.chPick p = some i → Answers (.chCreate p) s (fun t =>
      t.chan i = { c.entry p with gen := (s.chan i).gen } ∧ (∀ j, j ≠ i → t.chan j = s.chan j) ∧ (s.chan i).kind = 0 ∧
      s.chFirst p ≤ i ∧ i ≤ s.chLast p ∧ t.chNextOf p = (if i = s.chLast p then s.chFirst p else i + 1) ∧
      Completed t c 0 (mkHandle i (s.chan i).gen) ∧ { t with host := s.host, pump := s.pump } = s)) ∧
  (∀ (p : Fin 8) (c : HCmd) (k : Nat) (s : State), Commanded s p 0x41 c → c.clean (entryMasks 0) = true →
    bit (s.hpRights p) 8 = true → (k = s.entryCheck p (c.entry p) ∧ k ≠ 0 ∨
      s.entryCheck p (c.entry p) = 0 ∧ s.chPick p = none ∧ k = 4) →
    Answers (.chCreate p) s (fun t => Completed t c k 0 ∧ { t with host := s.host } = s)) ∧
  (∀ (p : Fin 8) (c : HCmd) (i : Nat) (s : State), Commanded s p 0x42 c → c.clean (entryMasks (2 ^ 32 - 1)) = true →
    bit (s.hpRights p) 8 = true → s.checkHandle 0 (c.w 1) = (.ok i, s) → (s.chan i).hp = p.val → (s.chan i).state = 0 →
    s.entryCheck p (c.entry p) = 0 → Answers (.chModify p) s (fun t =>
      t.chan i = { c.entry p with
        gen := (s.chan i).gen, blCount := (s.chan i).blCount, blHead := (s.chan i).blHead, blTail := (s.chan i).blTail
        outCount := (s.chan i).outCount, inCount := (s.chan i).inCount, drops := (s.chan i).drops
        tagFaults := (s.chan i).tagFaults } ∧ (∀ j, j ≠ i → t.chan j = s.chan j) ∧ Completed t c 0 0)) ∧
  (∀ (p : Fin 8) (c : HCmd) (i : Nat) (s : State), Commanded s p 0x42 c → c.clean (entryMasks (2 ^ 32 - 1)) = true →
    bit (s.hpRights p) 8 = true → s.checkHandle 0 (c.w 1) = (.ok i, s) → (s.chan i).hp = p.val → (s.chan i).state ≠ 0 →
    Answers (.chModify p) s (fun t => t.chan i = { s.chan i with
        blMax := (c.entry p).blMax, spill := (c.entry p).spill, ckEn := (c.entry p).ckEn } ∧
      (∀ j, j ≠ i → t.chan j = s.chan j) ∧ Completed t c 0 0)) ∧
  (∀ (p : Fin 8) (c : HCmd) (i : Nat) (s : State), Commanded s p 0x43 c → c.clean [2 ^ 32 - 1] = true →
    bit (s.hpRights p) 8 = true → s.checkHandle 0 (c.w 1) = (.ok i, s) → (s.chan i).hp = p.val →
    Answers (.chDestroy p) s (fun t => (∀ j, j ≠ i → t.chan j = s.chan j) ∧
      ((s.chan i).state = 0 → t.chan i = { gen := ((s.chan i).gen + 1) % 4096 } ∧ Completed t c 0 0) ∧
      ((s.chan i).state ≠ 0 → t.chan i = s.chan i ∧ Completed t c 5 0))) ∧
  (∀ (p : Fin 8) (i : Instr) (op j : Nat) (masks : List Nat) (c : HCmd) (s : State),
    (i, op, masks) ∈ [(.chModify p, 0x42, entryMasks (2 ^ 32 - 1)), (.chDestroy p, 0x43, [2 ^ 32 - 1]),
      (.chEnable p, 0x44, [2 ^ 32 - 1]), (.chDisable p, 0x45, [2 ^ 32 - 1])] → Commanded s p op c →
    c.clean masks = true → (op = 0x42 ∨ op = 0x43 → bit (s.hpRights p) 8 = true) →
    s.checkHandle 0 (c.w 1) = (.ok j, s) → (s.chan j).hp ≠ p.val →
    Answers i s (fun t => Completed t c 3 0 ∧ { t with host := s.host } = s))

/-- R469, R470, R471, R472: the enable and disable state machine of ports and channels; a port is named `(true, n)`, a
channel `(false, i)`. Where it goes beyond these rules it follows the model's own readings of log entry 58. -/
def Obligations.EnableAndDisable : Prop :=
  (∀ (p : Fin 8) (i : Instr) (c : HCmd) (o : Bool × Nat) (s : State),
    (i = .chEnable p ∧ Commanded s p 0x44 c ∧ c.clean [2 ^ 32 - 1] = true ∧ s.checkHandle 0 (c.w 1) = (.ok o.2, s) ∧
      (s.chan o.2).hp = p.val ∧ o.1 = false ∨
     i = .portEnable p ∧ Commanded s p 0x48 c ∧ c.clean [31] = true ∧ o = (true, c.w 1 % 32) ∧
      bit (s.hpPorts p) (c.w 1 % 32) = true) → Answers i s (fun t =>
      (s.objState o = 2 → t.objState o = 2 ∧ Completed t c 0 0) ∧
      (s.objState o ≠ 2 → t.host.recs = s.host.recs ∧
        (∃ d ∈ t.host.cmds, d.id = c.id ∧ d.held = .enable o.1 o.2)) ∧
      (s.objState o = 0 → t.objState o = 1) ∧ (s.objState o = 3 → t.objState o = 4) ∧
      (s.objState o = 1 ∨ s.objState o = 4 → t.objState o = s.objState o))) ∧
  (∀ (p : Fin 8) (i : Instr) (c : HCmd) (o : Bool × Nat) (s : State),
    (i = .chDisable p ∧ Commanded s p 0x45 c ∧ c.clean [2 ^ 32 - 1] = true ∧ s.checkHandle 0 (c.w 1) = (.ok o.2, s) ∧
      (s.chan o.2).hp = p.val ∧ o.1 = false ∨
     i = .portDisable p ∧ Commanded s p 0x49 c ∧ c.clean [31] = true ∧ o = (true, c.w 1 % 32) ∧
      bit (s.hpPorts p) (c.w 1 % 32) = true) → s.objState o < 5 → (∀ d ∈ s.host.cmds, d.id = c.id → d = c) →
    Answers i s (fun t =>
      (s.objState o = 0 → t.objState o = 0 ∧ Completed t c 0 0) ∧
      (s.objState o ≠ 0 → t.objState o = 3 ∧ ∃ d ∈ t.host.cmds, d.id = c.id ∧ d.held = .disable o.1 o.2) ∧
      (s.objState o = 1 ∨ s.objState o = 4 → ∀ d ∈ s.host.cmds, d.held = .enable o.1 o.2 → d.id ≠ c.id →
        s.ringEn d.r = true → d.gen = (s.ring d.r).gen → Completed t d 8 d.result) ∧
      (o.1 = false → s.objState o = 1 ∨ s.objState o = 2 → ∀ q ∈ t.host.posts, q.ch ≠ o.2))) ∧
  (∀ (n : Fin 32) (i : Instr) (v k : Nat) (s : State), s.pstate n = 1 →
    (i = .portOn n ∧ s.up (3 + n.val / 4) = true ∧ (s.laneMode n && (s.port n).rxOn) = false ∧ v = 2 ∧ k = 0 ∨
     i = .enableTimeout n ∧ tget 0 s.host.penAt n + 2 * 67108864000000 ≤ s.tb.elapsed ∧ v = 0 ∧ k = 9) →
    Answers i s (fun t => t.pstate n = v ∧ (∀ m, m ≠ n.val → t.pstate m = s.pstate m) ∧
      (∀ d ∈ s.host.cmds, d.held = .enable true n → s.ringEn d.r = true → d.gen = (s.ring d.r).gen →
        Completed t d k d.result) ∧ { t with host := s.host } = s)) ∧
  (∀ (ch : Fin 16384) (v k : Nat) (s : State), (s.chan ch).state = 1 →
    (s.entryCheck (s.chan ch).hp (s.chan ch) = 0 ∧ v = 2 ∧ k = 0 ∨
     s.entryCheck (s.chan ch).hp (s.chan ch) ≠ 0 ∧ v = 0 ∧ k = 3) →
    Answers (.channelOn ch) s (fun t => t.chan ch = { s.chan ch with state := v } ∧
      (∀ j, j ≠ ch.val → t.chan j = s.chan j) ∧
      (∀ d ∈ s.host.cmds, d.held = .enable false ch → s.ringEn d.r = true → d.gen = (s.ring d.r).gen →
        Completed t d k d.result) ∧ { t with host := s.host, pump := s.pump } = s)) ∧
  (∀ (n : Fin 32) (s : State), (s.pstate n = 3 ∨ s.pstate n = 4) → (s.port n).tx = none → (s.port n).ends = [] →
    (s.port n).rxOn = false → (s.port n).txTill.getD 0 ≤ s.tb.elapsed →
    Answers (.portDrainEnd n) s (fun t => t.pstate n = (if s.pstate n = 4 then 1 else 0) ∧ (t.port n).queues = [] ∧
      ∀ d ∈ s.host.cmds, d.held = .disable true n → s.ringEn d.r = true → d.gen = (s.ring d.r).gen →
        Completed t d 0 d.result)) ∧
  (∀ (ch : Fin 16384) (s : State), ((s.chan ch).state = 3 ∨ (s.chan ch).state = 4) → s.inflight ch = 0 →
    (∀ q ∈ s.host.posts, q.ch ≠ ch.val) → (∀ d ∈ s.host.cmds, ∀ e ∈ s.host.cmds, d.id = e.id → d = e) →
    Answers (.channelDrainEnd ch) s (fun t =>
      (t.chan ch).state = (if (s.chan ch).state = 4 then 1 else 0) ∧ (t.chan ch).blCount = 0 ∧
      ∀ d ∈ s.host.cmds, d.held = .disable false ch → s.ringEn d.r = true → d.gen = (s.ring d.r).gen →
        Completed t d 0 (d.result + (if s.host.cmds.find? (fun d => d.held == .disable false ch) = some d then
          (s.chanDrain ch).1 else 0))))

/-- R480, R481, R485, R486, R488, R489, R490, R494, R531: the lock commands of the host and the wellhead's own, leases
that run out, and the rewriting of what they leave. Where it goes beyond these rules it follows the model's own
readings of log entries 12, 121. -/
def Obligations.LockCommandsAndLeases : Prop :=
  (∀ (p : Fin 8) (c : HCmd) (n : Nat) (g : GLock) (s : State), Commanded s p 0x58 c → c.clean [1023, 0, 16383] = true →
    s.rank ≤ 9 + p.val → bit (s.hpRights p) 10 = true → n = c.w 1 → g = s.glock n → Answers (.lockgAcq p) s (fun t =>
      ((c.w 3 < 1 ∨ 16000 < c.w 3) → Completed t c 6 0 ∧ t.locks = s.locks) ∧
      (1 ≤ c.w 3 → c.w 3 ≤ 16000 → bit (s.gcfg n) (8 + p.val) = false → Completed t c 0 5 ∧ t.locks = s.locks) ∧
      (1 ≤ c.w 3 → c.w 3 ≤ 16000 → bit (s.gcfg n) (8 + p.val) = true → g.held = false →
        t.glock n = { owner := 128 + p.val, held := true, st := .live
                      expires := some (s.tb.elapsed + c.w 3 * 67108864000) } ∧
        Completed t c 0 (if g.exp then 1 else if g.abd then 2 else 0)) ∧
      (1 ≤ c.w 3 → c.w 3 ≤ 16000 → bit (s.gcfg n) (8 + p.val) = true → g.held = true → g.st = .live →
        t.glock n = (if g.owner = 128 + p.val then { g with expires := some (s.tb.elapsed + c.w 3 * 67108864000) } else g) ∧
        Completed t c 0 (if g.owner = 128 + p.val then 4 else 3)) ∧
      (∀ m, m ≠ n → t.glock m = s.glock m))) ∧
  (∀ (p : Fin 8) (c : HCmd) (n : Nat) (g : GLock) (s : State), Commanded s p 0x59 c → c.clean [1023] = true →
    s.rank ≤ 9 + p.val → bit (s.hpRights p) 10 = true → n = c.w 1 → g = s.glock n → Answers (.lockgRel p) s (fun t =>
      (g.held = true ∧ g.st = .live ∧ g.owner = 128 + p.val → t.glock n = { owner := 128 + p.val } ∧ Completed t c 0 0 ∧
        t.mf.entryQ = s.mf.entryQ ++ [{ src := 0x3B0 + n / 64, ev := true, rising := true, level := true
                                        from_ := s.strokes + 1 }]) ∧
      (¬(g.held = true ∧ g.st = .live ∧ g.owner = 128 + p.val) → t.glock n = g ∧ Completed t c 0 3 ∧
        bit t.locks.alarm 1 = true ∧ t.mf = s.mf))) ∧
  (∀ (c : HCmd) (n : Nat) (g : GLock) (s : State), Commanded s 0 0x5A c → c.clean [1023] = true →
    s.rank ≤ 9 → bit (s.hpRights 0) 10 = true → n = c.w 1 → g = s.glock n → Answers (.lockgForce 0) s (fun t =>
      (bit (s.gcfg n) 24 = true → t.glock n = g ∧ Completed t c 0 5) ∧
      (bit (s.gcfg n) 24 = false → g.held = true → t.glock n = { owner := g.owner, abd := true } ∧ Completed t c 0 0) ∧
      (bit (s.gcfg n) 24 = false → g.held = false → t.glock n = g ∧ t.locks = s.locks ∧ Completed t c 0 0))) ∧
  (∀ (p : Fin 8) (c : HCmd) (sp lb a w : Nat) (s u : State), Commanded s p 0x5B c →
    c.clean [2 ^ 32 - 1, 7, 16383] = true → s.rank ≤ 9 + p.val → bit (s.hpRights p) 10 = true → c.lockWord = some (sp, lb, a) →
    1 ≤ c.w 3 → c.w 3 ≤ 16000 → w = s.lockRead sp lb a → s.eccOf (lockMem sp lb) (a / 4) = none → bit w 8 = false →
    s.lockTake (128 + p.val) (c.w 3) sp lb a w = some u → Answers (.lockwAcq p) s (fun t => t.locks = u.locks ∧
      (∀ b, (t.lb b).resPend = (u.lb b).resPend) ∧ t.pump.cis = u.pump.cis ∧
      Completed t c 0 (if bit w 9 then 1 else if bit w 10 then 2 else 0))) ∧
  (∀ (m us sp lb a w : Nat) (s u : State), s.lockTake m us sp lb a w = some u → ∃ i, i < 1024 ∧ (s.lease i).st = .free ∧
    (u.lease i).st = .live ∧ (u.lease i).owner = m ∧ (u.lease i).expires = s.tb.elapsed + us * 67108864000 ∧
    (u.lease i).value = m + 2 ^ 8 + 2 ^ 12 * i + 2 ^ 24 * ((bits w 31 24 + 1) % 256) ∧
    (sp = 2 → readLE u.pump.cis a 4 = (u.lease i).value % 2 ^ 32) ∧ (∀ j, j ≠ i → u.lease j = s.lease j)) ∧
  (∀ (p : Fin 8) (c : HCmd) (sp lb a i w : Nat) (s : State), Commanded s p 0x5C c → c.clean [2 ^ 32 - 1, 7] = true →
    s.rank ≤ 9 + p.val → bit (s.hpRights p) 10 = true → c.lockWord = some (sp, lb, a) → w = s.lockRead sp lb a →
    s.eccOf (lockMem sp lb) (a / 4) = none → i = bits w 21 12 →
    Answers (.lockwRel p) s (fun t =>
      (bit w 8 = true → (s.lease i).names sp lb a w = true → (s.lease i).st = .live → (s.lease i).owner = 128 + p.val →
        t.lease i = {} ∧ Completed t c 0 0) ∧
      ((bit w 8 = false ∨ (s.lease i).names sp lb a w = false ∨ (s.lease i).owner ≠ 128 + p.val ∨ (s.lease i).st ≠ .live) →
        Completed t c 0 3 ∧ (∀ j, t.lease j = s.lease j) ∧ bit t.locks.alarm 1 = true))) ∧
  (∀ (k : Fin 2048) (e : Lease) (s : State), k.val < 1024 → e = s.lease k → s.rank = 0 → e.st = .live → e.expires ≤ s.tb.elapsed →
    Answers (.leaseExpiry k) s (fun t => t.lease k = { e with st := .expired, rewriteBy := s.strokes + 64 } ∧
      (∀ j, j ≠ k.val → t.lease j = s.lease j) ∧ t.locks.expiries = satInc 16 s.locks.expiries ∧
      bit t.locks.alarm 3 = true ∧ { t with locks := s.locks, evq := s.evq } = s)) ∧
  (∀ (k : Fin 2048) (n at_ : Nat) (g : GLock) (s : State), 1024 ≤ k.val → n = k.val - 1024 → g = s.glock n →
    s.rank = 0 → g.held = true → g.st = .live → g.expires = some at_ → at_ ≤ s.tb.elapsed → Answers (.leaseExpiry k) s (fun t =>
      t.glock n = { g with st := .expired } ∧ (∀ j, j ≠ n → t.glock j = s.glock j) ∧ bit t.locks.alarm 3 = true ∧
      { t with locks := s.locks, evq := s.evq } = s)) ∧
  (∀ (k : Fin 2048) (s : State), s.rank ≠ 0 → exec (.leaseExpiry k) s = .next s) ∧
  (∀ (k : Fin 2048) (e : Lease) (s : State), k.val < 1024 → e = s.lease k → (e.st = .expired ∨ e.st = .abandoned) →
    s.ecc = [] → e.space = 2 → readLE s.pump.cis e.addr 4 = e.value → Answers (.lockRewrite k) s (fun t =>
      t.lease k = {} ∧ readLE t.pump.cis e.addr 4 =
        bits e.value 7 0 + 2 ^ 24 * bits e.value 31 24 + (if e.st = .expired then 2 ^ 9 else 2 ^ 10))) ∧
  (∀ (k : Fin 2048) (n : Nat) (g : GLock) (s : State), 1024 ≤ k.val → n = k.val - 1024 → g = s.glock n →
    g.held = true → (g.st = .expired ∨ g.st = .abandoned) → Answers (.lockRewrite k) s (fun t =>
      t.glock n = { owner := g.owner, exp := g.st == .expired, abd := g.st == .abandoned } ∧
      t.mf.entryQ = s.mf.entryQ ++ [{ src := 0x3B0 + n / 64, ev := true, rising := true, level := true
                                      from_ := s.strokes + 1 }] ∧ { t with locks := s.locks, mf := s.mf } = s)) ∧
  (∀ (w : Word) (n c op : Nat) (i : Instr) (s u : State), n = bits w.toNat 9 0 →
    (i = .whLockAcquire w ∧ op = 1 ∧ (c, u) = s.groupAcquire 144 none n ∨
     i = .whLockRelease w ∧ op = 2 ∧ (c, u) = s.groupRelease 144 n 0 ∨
     i = .whLockForce w ∧ op = 3 ∧ (c, u) = s.groupForce 144 n) → Answers i s (fun t =>
      t.locks = u.locks ∧ bits (t.reg 0x0202C) 19 16 = c ∧ bits (t.reg 0x0202C) 9 0 = n ∧ bits (t.reg 0x0202C) 13 12 = op ∧
      t.rank = 17 ∧ { t with regs := s.regs, rank := s.rank } = { u with regs := s.regs, rank := s.rank })) ∧
  (∀ (n : Nat) (g : GLock) (s : State), g = s.glock n → bit (s.gcfg n) 16 = true → g.held = false →
    ((s.groupAcquire 144 none n).2.glock n) = { owner := 144, held := true, st := .live, expires := none })

/-! ### The wellhead (chapter 15) -/

/-- R498, R499, R501, R502, R503, R504, R507: the actions of an event, the two keys, disagreeing halves, the clock
monitor, the trailer of a pair and a mismatch. Where it goes beyond these rules it follows the model's own readings of
log entries 14, 64, 69. -/
def Obligations.EventActionsFaultsClocksAndPairs : Prop :=
  (∀ (c : Nat) (s : State), ((1 ≤ c ∧ c ≤ 8) ∨ c = 15 → bit (s.action c) 3 = true) ∧
    (c = 5 ∨ c = 8 ∨ c = 15 → bit (s.action c) 2 = true)) ∧
  (∀ (e : Ev) (es : List Ev) (a : Nat) (s : State), s.evq = e :: es → e.at_ ≤ s.strokes → e.trace = false →
    a = s.action e.cls → bit a 1 = false → (e.cls = 3 → s.inStep e.arg0 = false) → Answers (.wellheadEvent none) s (fun t => t.evq = es ∧
      t.wh.alarm = (if bit a 0 then s.wh.alarm ||| 2 ^ e.cls else s.wh.alarm) ∧
      (bit a 2 = true ∨ e.force = true → t.wh.fault = true ∧ t.wh.faultCount = satInc 16 s.wh.faultCount ∧
        t.wh.faultFirst = (if s.wh.faultCount = 0 then e.cls else s.wh.faultFirst) ∧
        t.wh.lastFault = some s.tb.elapsed) ∧
      (bit a 2 = false → e.force = false → t.wh.fault = s.wh.fault ∧ t.wh.faultCount = s.wh.faultCount) ∧
      (s.wh.fault = true → (tget [] s.wh.intake e.unit).length < 8 →
        tget [] t.wh.intake e.unit = tget [] s.wh.intake e.unit ++ [e]) ∧
      t.wh.rot = s.wh.rot ∧ { t with evq := s.evq, wh := s.wh } = s)) ∧
  (∀ (d : Ev) (e : Ev) (s : State), s.evq = [d, e] → s.strokes < d.at_ → e.at_ ≤ s.strokes →
    exec (.wellheadEvent none) s = .next ({ s with evq := [d] }.whEvent e)) ∧
  (∀ (e : Ev) (s : State), s.evq = [e] → s.strokes < e.at_ → exec (.wellheadEvent none) s = .next s) ∧
  (∀ (b : Fin 10) (d : Word) (m : Migr) (s : State), s.wh.rot.mig = some m → m.victim = b → m.target ≠ b →
    Answers (.wellheadEvent (some (b, d))) s (fun t => (t.pb b).doomed = true ∧ t.wh.rot.mig = some m)) ∧
  (∀ (b : Fin 10) (d : Word) (s : State), bit (s.action 3) 1 = true → s.wh.rot.mig = none →
    Answers (.wellheadEvent (some (b, d))) s (fun t =>
      ((s.pb b).role = 0 → t.wh.rot.emergencies =
        (if s.wh.rot.emergencies.contains b.val then s.wh.rot.emergencies else s.wh.rot.emergencies ++ [b.val])) ∧
      ((s.pb b).role = 1 ∨ (s.pb b).role = 2 → (t.pb b).role = 4) ∧ ((s.pb b).role = 4 →
        t.pb b = { s.pb b with cause := 3, block := d.toNat } ∧ ∀ c, c ≠ b.val → t.pb c = s.pb c))) ∧
  (∀ (w : Word) (s : State), w.toNat % 256 = 0xA5 →
    exec (.faultClearKey w) s = .next { s with wh := { s.wh with key := some s.tb.elapsed } }) ∧
  (∀ (w : Word) (k : Nat) (s : State), w.toNat % 256 = 0x5A → s.wh.key = some k → s.tb.elapsed ≤ k + 67108864000000 →
    s.mram.primed = true → s.dbg.testMode = false → s.wh.fault = true → s.wh.halvesOk = true → s.wh.byHalves = false →
    (∀ l, s.wh.lastFault = some l → l + 67108864000000 ≤ s.tb.elapsed) → Answers (.faultClearKey w) s (fun t =>
      t.wh.fault = false ∧ t.wh.faultCount = 0 ∧ t.wh.faultFirst = 0 ∧ t.wh.key = none ∧ { t with wh := s.wh } = s)) ∧
  (∀ (w : Word) (s : State), w.toNat % 256 ≠ 0xA5 → (w.toNat % 256 ≠ 0x5A ∨ s.wh.key = none ∨
      (∃ k, s.wh.key = some k ∧ k + 67108864000000 < s.tb.elapsed) ∨ s.wh.fault = false ∨ s.wh.byHalves = true ∨
      s.wh.halvesOk = false ∨ ∃ l, s.wh.lastFault = some l ∧ s.tb.elapsed < l + 67108864000000) →
    exec (.faultClearKey w) s = .next { s with wh := { s.wh with key := none } }) ∧
  (∀ (s : State), Answers .halvesDisagree s (fun t => t.wh.halvesOk = false ∧ t.wh.fault = true ∧ t.wh.byHalves = true ∧
    t.wh.faultCount = satInc 16 s.wh.faultCount ∧ { t with wh := s.wh, draws := s.draws } = s)) ∧
  (∀ (counts : List Nat) (s : State), counts.length = 13 → Answers (.clockWindow counts) s (fun t =>
    (∀ k, k < 13 → (t.clkMon k).lost =
      (if bits (s.reg (0x02040 + 4 * k)) 15 0 = 0 then (s.clkMon k).lost
       else if bits (s.reg (0x02040 + 4 * k)) 15 0 ≤ counts.getD k 0 ∧
           counts.getD k 0 ≤ bits (s.reg (0x02040 + 4 * k)) 31 16 then
         (s.clkMon k).lost && decide ((s.clkMon k).good < 15)
       else (s.clkMon k).lost || decide (1 ≤ (s.clkMon k).bad))) ∧
    t.mram.clocksSeen = (s.mram.clocksSeen || decide (64 ≤ counts.getD 2 0) && decide (64 ≤ counts.getD 12 0)) ∧
    (∃ es, t.evq = s.evq ++ es ∧
      (∀ e ∈ es, e.cls = 7 ∧ e.arg0 < 13 ∧ e.arg0 ≠ 2 ∧ (s.clkMon e.arg0).lost = false ∧ (t.clkMon e.arg0).lost = true) ∧
      ∀ k, k < 13 → k ≠ 2 → (s.clkMon k).lost = false → (t.clkMon k).lost = true → ∃ e ∈ es, e.arg0 = k) ∧
    { t with wh := s.wh, mram := s.mram, evq := s.evq } = s)) ∧
  (∀ (k : Fin 16) (a : Nat) (s : State), (s.pair k).trailAt = some a → a ≤ s.strokes → Answers (.trailerStart k) s (fun t =>
    t.th (s.pairTrail k) = { s.th (s.pairTrail k) with startReq := some (a + 4, false) } ∧
    t.pair k = { s.pair k with trailAt := none } ∧ (∀ y, y ≠ s.pairTrail k → t.th y = s.th y) ∧
    { t with threads := s.threads, wh := s.wh } = s)) ∧
  (∀ (k : Fin 16) (kind a b : Nat) (s : State), (s.pair k).diff = some kind → a = s.pairLead k → b = s.pairTrail k →
    a ≠ b → Answers (.pairMismatch k) s (fun t => (t.pair k).mismatch = true ∧ (t.pair k).recs = [] ∧
      (t.pair k).diff = none ∧ (∀ x, x = a ∨ x = b → (s.th x).running = true → (t.th x).stopReq ≠ .none) ∧
      (∀ x, x = a ∨ x = b → (t.th x).running = false → (t.th x).startReq = none) ∧
      (∀ y, y ≠ a → y ≠ b → t.th y = s.th y) ∧
      t.evq = s.evq ++ [{ unit := 0, cls := 5, typ := 5, alarm := false, trace := false, arg0 := k
                          arg1 := (Config.detailCode 5 kind (s.th a).lastPc.toNat).toNat }] ∧
      { t with threads := s.threads, wh := s.wh, evq := s.evq } = s))

/-- R508, R509, R510, R512, R513, R514, R515: relief rotation and readmission. Where it goes beyond these rules it
follows the model's own readings of log entries 73, 14. -/
def Obligations.ReliefRotationAndReadmission : Prop :=
  (∀ (v : Nat) (s : State), s.wh.rot.ahead = [] → s.nextVictim = some v → v < 10 ∧ (s.pb v).role = 0 ∧
    ∀ b, b < 10 → (s.pb b).role = 0 → (s.pb v).since ≤ (s.pb b).since) ∧
  (∀ (b : Nat) (s : State), s.longestIdle = some b → b < 10 ∧ (s.pb b).role = 1 ∧
    ∀ c, c < 10 → (s.pb c).role = 1 → (s.pb b).since ≤ (s.pb c).since) ∧
  (∀ (v b : Nat) (s : State), s.nextVictim = some v → s.longestIdle = some b → s.mram.primed = true → s.rotRuns = true →
    s.wh.rot.mig = none → s.wh.rot.emergencies = [] → s.wh.rot.testing = none → s.up 2 = true →
    s.wh.rot.lastAt + 67108864000000 ≤ s.tb.elapsed → Answers .rotationStep s (fun t =>
      t.wh.rot.mig = some { victim := v, target := b, lb := (s.pb v).lb, phase := .mirror, emergency := false
                            again := false, begun := s.strokes } ∧
      t.pb b = { s.pb b with role := 3, lb := (s.pb v).lb } ∧ (∀ c, c ≠ b → t.pb c = s.pb c) ∧
      t.wh.rot.lastAt = s.tb.elapsed ∧ { t with pbs := s.pbs, wh := s.wh } = s)) ∧
  (∀ (m : Migr) (s : State), s.wh.rot.mig = some m → m.phase = .mirror → m.begun + 17552 ≤ s.strokes → s.ecc = [] →
    Answers .mirrorDone s (fun t =>
    (∃ c, t.wh.rot.mig = some { m with phase := .frontEnd c } ∧ c % 16 = 0 ∧ s.strokes + 16 ≤ c ∧ c < s.strokes + 32) ∧
    { t with wh := s.wh } = s)) ∧
  (∀ (m : Migr) (s : State), s.wh.rot.mig = some m → s.strokes < m.begun + 17552 → exec .mirrorDone s = .next s) ∧
  (∀ (m : Migr) (c : Nat) (s : State), s.wh.rot.mig = some m → m.phase = .frontEnd c → c ≤ s.strokes →
    m.victim ≠ m.target → Answers .cutOver s (fun t => t.pb m.victim = { s.pb m.victim with role := 2 } ∧
      t.pb m.target = { s.pb m.target with role := 0, lb := m.lb, since := s.strokes } ∧
      (∀ b, b ≠ m.victim → b ≠ m.target → t.pb b = s.pb b) ∧ t.wh.rot.mig = some { m with phase := .drain c } ∧
      { t with pbs := s.pbs, wh := s.wh } = s)) ∧
  (∀ (m : Migr) (c : Nat) (s : State), s.wh.rot.mig = some m → m.phase = .drain c → s.draining m.lb c = false →
    m.emergency = false → m.again = false → (s.pb m.victim).doomed = false → Answers .drainEnd s (fun t =>
      t.wh.rot.mig = none ∧ t.wh.rot.testing = some (m.victim, s.tb.elapsed) ∧
      t.wh.rot.steps = (s.wh.rot.steps + 1) % 65536 ∧ t.pbs = s.pbs ∧ { t with wh := s.wh } = s)) ∧
  (∀ (m : Migr) (c : Nat) (s : State), s.wh.rot.mig = some m → m.phase = .drain c → (s.pb m.victim).role = 2 →
    (s.draining m.lb c = true ∧ c + 4200 < s.strokes ∨ s.draining m.lb c = false ∧ m.emergency = true) →
    Answers .drainEnd s (fun t => t.wh.rot.mig = none ∧ (t.pb m.victim).role = 4)) ∧
  (∀ (block : Word) (b a : Nat) (s : State), s.wh.rot.testing = some (b, a) → Answers (.selfTestDone true block) s (fun t =>
    t.pb b = { s.pb b with role := 1, since := s.strokes } ∧ t.wh.rot.testing = none ∧
    (∀ c, c ≠ b → t.pb c = s.pb c) ∧ { t with pbs := s.pbs, wh := s.wh } = s)) ∧
  (∀ (block : Word) (b a : Nat) (s : State), s.wh.rot.testing = some (b, a) →
    Answers (.selfTestDone false block) s (fun t => t.wh.rot.testing = none ∧ t.pbs = s.pbs ∧
      t.evq = s.evq ++ [{ unit := 0, cls := 4, typ := 4, alarm := false, trace := false, arg0 := b, arg1 := block.toNat }] ∧
      { t with wh := s.wh, evq := s.evq } = s)) ∧
  (∀ (b : Fin 10) (d : Nat) (s : State), s.wh.rot.mig = none → b.val ∈ s.wh.rot.emergencies → s.longestIdle = some d →
    Answers (.emergencyMigration b) s (fun t =>
      t.wh.rot.mig = some { victim := b, target := d, lb := (s.pb b).lb, phase := .mirror, emergency := true
                            again := false, begun := s.strokes } ∧
      t.wh.rot.emergencies = s.wh.rot.emergencies.filter (· != b.val) ∧
      t.pb d = { s.pb d with role := 3, lb := (s.pb b).lb } ∧ { t with pbs := s.pbs, wh := s.wh } = s)) ∧
  (∀ (b : Fin 10) (s : State), s.wh.rot.mig = none → b.val ∈ s.wh.rot.emergencies → s.longestIdle = none →
    s.wh.rot.testing = none → Answers (.emergencyMigration b) s (fun t => t.wh.rot.mig = none ∧ (t.pb b).role = 4)) ∧
  (∀ (w : Word) (b : Nat) (s : State), b = bits w.toNat 3 0 → Answers (.retest w) s (fun t =>
    (b < 10 → (s.pb b).role = 4 → s.wh.rot.retest = none → t.wh.rot.retest = some (b, s.tb.elapsed)) ∧
    ((10 ≤ b ∨ (s.pb b).role ≠ 4 ∨ s.wh.rot.retest ≠ none) → t = s) ∧ { t with wh := s.wh } = s)) ∧
  (∀ (b a : Nat) (s : State), s.wh.rot.retest = some (b, a) → (s.pb b).readmitted < bits (s.reg 0x0201C) 19 16 →
    Answers (.readmissionDone true) s (fun t => t.wh.rot.retest = none ∧
      t.pb b = { s.pb b with role := 1, since := s.strokes, readmitted := (s.pb b).readmitted + 1, doomed := false } ∧
      (∀ c, c ≠ b → t.pb c = s.pb c))) ∧
  (∀ (b a : Nat) (pass : Bool) (s : State), s.wh.rot.retest = some (b, a) →
    (pass = false ∨ bits (s.reg 0x0201C) 19 16 ≤ (s.pb b).readmitted) →
    exec (.readmissionDone pass) s = .next { s with wh := { s.wh with rot := { s.wh.rot with retest := none } } })

/-- R519, R520, R521, R522, R524, R525, R526, R527, R528, R529, R530: the well log: the intakes and their order, the
spillway's limits and its flush, records written, incidents, the gap, a record read back; and the scrubber. Where it
goes beyond these rules it follows the model's own readings of log entries 65, 66, 67, 68, 120. -/
def Obligations.WellLogAndScrubbing : Prop :=
  (∀ (u : Nat) (e : Ev) (s : State), s.intakeNext = some (u, e) → (∃ es, tget [] s.wh.intake u = e :: es) ∧
    ((∃ v, v < 12 ∧ ∃ f fs, tget [] s.wh.intake v = f :: fs ∧ f.isAlarm = true) → e.isAlarm = true) ∧
    ((∃ v, v < 12 ∧ ∃ f fs, tget [] s.wh.intake v = f :: fs ∧ f.trace = false) → e.trace = false)) ∧
  (∀ (u : Nat) (e : Ev) (s : State), s.intakeNext = some (u, e) → s.wh.coalesce = [] → s.wh.gaps = [] →
    Answers .logIntake s (fun t => tget [] t.wh.intake u = (tget [] s.wh.intake u).drop 1 ∧
      (e.isAlarm = true → s.wh.staging.length < 1024 → t.wh.staging = s.wh.staging ++ [s.stampRec e] ∧
        t.wh.seq = (s.wh.seq + 1) % 2 ^ 32) ∧
      (e.isAlarm = true → 1024 ≤ s.wh.staging.length → t.wh.staging = s.wh.staging ∧
        t.wh.seq = (s.wh.seq + 1) % 2 ^ 32 ∧ tget 0 t.wh.coalesce e.source = 1 ∧ tget 0 t.wh.almCnt e.source = satInc 32 (tget 0 s.wh.almCnt e.source)) ∧
      (e.isAlarm = false → e.trace = false → s.wh.staging.length < 960 →
        t.wh.staging = s.wh.staging ++ [s.stampRec e] ∧ t.wh.seq = (s.wh.seq + 1) % 2 ^ 32) ∧
      (e.isAlarm = false → e.trace = false → 960 ≤ s.wh.staging.length → t.wh.staging = s.wh.staging ∧
        t.wh.seq = (s.wh.seq + 1) % 2 ^ 32 ∧ t.wh.logDrops = satInc 16 s.wh.logDrops ∧
        tfind t.wh.gaps e.unit = some (1, s.wh.seq)) ∧
      (e.isAlarm = false → e.trace = true → s.wh.staging.length < 512 → s.dbg.trace.length < 2048 →
        t.dbg.trace = s.dbg.trace ++ [s.stampRec e] ∧ t.wh.staging = s.wh.staging ∧ t.wh.seq = s.wh.seq) ∧
      { t with wh := s.wh, dbg := s.dbg } = s)) ∧
  (∀ (s : State), s.wh.staging.length ≤ 512 → s.wh.coalesce.length + s.wh.gaps.length ≤ 512 →
    s.flush.wh.coalesce = [] ∧ s.flush.wh.gaps = [] ∧
    s.flush.wh.staging.length = s.wh.staging.length + s.wh.coalesce.length + s.wh.gaps.length ∧
    s.flush.wh.staging.take s.wh.staging.length = s.wh.staging) ∧
  (∀ (r : LogRec), r.words.length = 8 ∧ r.words.getD 7 0 = crcWords (r.words.take 7) ∧ r.words.getD 1 0 = r.seq ∧
    r.words.getD 2 0 = r.ns ∧ r.words.getD 4 0 = r.strokes) ∧
  (∀ (r : LogRec) (rs : List LogRec) (s : State), s.wh.staging = r :: rs → s.wh.coalesce = [] → s.wh.gaps = [] →
    bit (s.action r.ev.cls) 3 = false → s.wh.open_ = none → Answers .logWrite s (fun t =>
      tfind t.wh.records s.wh.ringNext = some { r with inc := false } ∧ t.wh.ringNext = (s.wh.ringNext + 1) % 32766 ∧
      t.wh.writes = s.wh.writes + 1 ∧ t.wh.staging = rs ∧
      (∀ j, j ≠ s.wh.ringNext → tfind t.wh.records j = tfind s.wh.records j) ∧ { t with wh := s.wh } = s)) ∧
  (∀ (r : LogRec) (rs : List LogRec) (i : Nat) (s : State), s.wh.staging = r :: rs → s.wh.coalesce = [] →
    s.wh.gaps = [] → bit (s.action r.ev.cls) 3 = true → s.wh.open_ = none → s.incidentSlot = some i →
    Answers .logWrite s (fun t => tfind t.wh.records (32768 + 8192 * i) = some { r with inc := true } ∧
      t.wh.open_ = some i ∧ (t.incident i).written = 1 ∧ (t.incident i).used = true ∧ t.wh.lastInc = s.tb.elapsed ∧
      t.wh.staging = rs ∧ t.wh.ringNext = s.wh.ringNext ∧ { t with wh := s.wh } = s)) ∧
  (∀ (r : LogRec) (rs : List LogRec) (i m : Nat) (s : State), s.wh.staging = r :: rs → s.wh.coalesce = [] →
    s.wh.gaps = [] → s.wh.open_ = some i → i < 8 → m = (s.incident i).written → Answers .logWrite s (fun t =>
      tfind t.wh.records (32768 + 8192 * i + if m < 4096 then m else 4096 + (m - 4096) % 4096) =
        some { r with inc := true } ∧
      (t.incident i).written = m + 1 ∧ t.wh.ringNext = s.wh.ringNext ∧ t.wh.writes = s.wh.writes + 1)) ∧
  (∀ (r : LogRec) (rs : List LogRec) (s : State), s.wh.staging = r :: rs → s.wh.coalesce = [] → s.wh.gaps = [] →
    bit (s.action r.ev.cls) 3 = true → s.wh.open_ = none → (∀ i, i < 8 → s.retained i = true) → Answers .logWrite s (fun t =>
      tfind t.wh.records s.wh.ringNext = some { r with inc := true } ∧ t.wh.ringNext = (s.wh.ringNext + 1) % 32766 ∧
      t.wh.incidents = s.wh.incidents ∧ t.wh.open_ ≠ none ∧ t.wh.lastInc = s.tb.elapsed ∧
      (∃ a b, t.evq =
        s.evq ++ [{ unit := 0, cls := 14, typ := 14, alarm := false, trace := false, arg0 := a, arg1 := b }]) ∧
      { t with wh := s.wh, evq := s.evq, draws := s.draws } = s)) ∧
  (∀ (i : Nat) (s : State), s.incidentSlot = some i → i < 8 ∧ s.retained i = false ∧
    ((∃ j, j < 8 ∧ (s.incident j).used = false ∧ s.retained j = false) → (s.incident i).used = false)) ∧
  (∀ (s : State), 256 ≤ s.wh.writes → exec .gapMove s = .next { s with wh := { s.wh with
    writes := s.wh.writes - 256, gap := (s.wh.gap + 49151) % 49152 } }) ∧
  (∀ (i : Nat) (s : State), s.wh.open_ = some i → i < 8 →
    s.wh.lastInc + bits (s.reg 0x02100) 9 0 * 67108864000000 ≤ s.tb.elapsed → Answers .incidentClose s (fun t =>
      t.wh.open_ = none ∧ t.incident i = { s.incident i with endedAt := s.tb.elapsed } ∧ { t with wh := s.wh } = s)) ∧
  (∀ (w : Word) (s : State), Answers (.logRead w) s (fun t => t.reg 0x0210C = bits w.toNat 16 0 ∧ t.wh.ready = false ∧
    t.wh = { s.wh with ready := false, reading := true } ∧ (∀ o, o ≠ 0x0210C → t.reg o = s.reg o) ∧
    { t with regs := s.regs, wh := s.wh } = s)) ∧
  (∀ (s : State), s.wh.reading = true → exec .logReadDone s = .next { s with wh := { s.wh with
    reading := false, ready := true, data := tfind s.wh.records (s.reg 0x0210C) } }) ∧
  (∀ (m : Mem) (w lb : Nat) (s : State), m.lbore = some lb → (s.lb lb).shed = true → exec (.scrubRead m w) s = .next s) ∧
  (∀ (m : Mem) (w : Nat) (s : State), m ≠ .routes → (∀ lb, m.lbore = some lb → (s.lb lb).shed = false) →
    s.mram.primed = true → Answers (.scrubRead m w) s (fun t =>
    (s.eccOf m w = none → t = s) ∧
    (s.eccOf m w = some .correctable ∨ s.eccOf m w = some .rewriting → t.eccOf m w = none ∧
      (t.evq.getLast?).map (fun e => (e.cls, e.typ)) = some (0, 0)) ∧
    (s.eccOf m w = some .uncorrectable → t.ecc = s.ecc ∧
      (t.evq.getLast?).map (fun e => (e.cls, e.typ)) = some (if m = .mram then (14, 0x21) else (2, 2))) ∧
    (∀ n v, (n, v) ≠ (m, w) → t.eccOf n v = s.eccOf n v) ∧
    { t with ecc := s.ecc, evq := s.evq, pbs := s.pbs, regs := s.regs } = s))

/-! ### Resets, priming, personalities, test and debug (chapters 16 and 17) -/

/-- R534, R535, R538, R539, R559, R560, R572, R576, R578: what the two resets keep, the exit of a domain from reset,
the commit of the platform record and the choice of its copy, a loss of supply, a change of test_mode, the TAP and the
trace buffer. The kind and arguments of the class-14 and class-15 events are free. Where it goes beyond these rules it
follows the model's own readings of log entries 14, 45, 119, 122. -/
def Obligations.ResetsRecordAndTest : Prop :=
  (∀ (test : Bool) (s : State), Answers (.blockReset test) s (fun t =>
    t = { State.reset with
      pending := s.pending, draws := t.draws, evq := t.evq, ecc := t.ecc, regs := t.regs, shown := t.shown
      shownNext := t.shownNext
      wh := { s.wh with fault := true, rot := {}, pairs := [] }, mram := { mem := s.mram.mem }
      tb := { elapsed := s.tb.elapsed }, dbg := { testMode := test }, inReset := List.range 13 } ∧
    (∀ o, t.reg o = if 0x2000 ≤ o ∧ o < 0x3000 then s.reg o else State.reset.reg o) ∧
    (∀ k, k ∈ t.ecc ↔ k ∈ s.ecc ∧ k.mem = .mram) ∧
    ∃ a b, t.evq = (s.evq.filter (fun e => e.at_ ≤ s.strokes)).map (fun e => { e with at_ := 0 }) ++
      [{ unit := 0, cls := 14, typ := 14, alarm := false, trace := false, arg0 := a, arg1 := b }])) ∧
  (∀ (test : Bool) (s : State), Answers (.aonReset test) s (fun t =>
    t = { State.reset with
      pending := s.pending, draws := s.draws, ecc := t.ecc, shown := t.shown, shownNext := t.shownNext
      wh := { records := s.wh.records, gap := s.wh.gap }
      mram := { mem := s.mram.mem }, tb := { elapsed := s.tb.elapsed }, dbg := { testMode := test }
      inReset := List.range 13 } ∧
    (∀ k, k ∈ t.ecc ↔ k ∈ s.ecc ∧ k.mem = .mram))) ∧
  (∀ (d : Fin 13) (s : State), d.val ∈ s.inReset → exec (.domainResetExit d) s = .next { s with
    inReset := s.inReset.erase d.val
    mram := if d.val = 2 then { s.mram with resetAt := s.tb.elapsed, missAt := s.tb.elapsed } else s.mram }) ∧
  (∀ (k : Nat) (s : State), s.recValid 0 = true → s.recValid 1 = true → 0 < k → k < 2 ^ 31 →
    (s.recWord 1 4 = (s.recWord 0 4 + k) % 2 ^ 32 → s.recChoose = some 1) ∧
    (s.recWord 0 4 = (s.recWord 1 4 + k) % 2 ^ 32 → s.recChoose = some 0)) ∧
  (∀ (w : Word) (c : Nat) (s : State), c = (match s.mram.copy with | some d => 1 - d | none => 0) →
    Answers (.commit w) s (fun t => t.mram.copy = some c ∧ t.recValid c = true ∧
      t.recWord c 4 = (s.platWord 4 + 1) % 2 ^ 32 ∧ t.recWord c 0xC = readLE s.mram.stage 0xC 4 ∧
      (s.keyLock = true → t.platBytes 0x10 64 = s.platBytes 0x10 64 ∧ t.platActive = readLE s.mram.stage 8 4 % 2 ∧
        ∀ j, 1 ≤ j → j ≤ 3 → bit (t.platWord 8) j = bit (s.platWord 8) j) ∧
      (s.keyLock = false → t.platBytes 0x10 64 = readBytes s.mram.stage 0x10 64 ∧
        t.platWord 8 = readLE s.mram.stage 8 4) ∧
      (∀ a, a < recBase c ∨ recBase c + 0x1000 ≤ a → byteAt t.mram.mem a = byteAt s.mram.mem a) ∧
      { t with mram := { t.mram with mem := s.mram.mem, copy := s.mram.copy }, ecc := s.ecc } = s)) ∧
  (∀ (s : State), exec .supplyLoss s = .next { s with wh := { s.wh with staging := [] } }) ∧
  (∀ (s : State), s.up 2 = true → Answers .testModeChange s (fun t => t.dbg.testMode = s.dbg.testMode ∧
    (∃ a b, t.evq =
      s.evq ++ [{ unit := 0, cls := 15, typ := 15, alarm := false, trace := false, arg0 := a, arg1 := b }]) ∧
    { t with evq := s.evq, draws := s.draws } = s)) ∧
  (∀ (s : State),
    exec .idcode s = .next { s with dbg := { s.dbg with active := true, ir := 0b00001, dr := idcodeWord } } ∧
    exec .ijtag s = .next { s with dbg := { s.dbg with active := true, ir := 0b01000, dr := 0 } } ∧
    exec .bypass s = .next { s with dbg := { s.dbg with active := true, ir := 0b11111, dr := 0 } } ∧
    exec .trst s = .next { s with dbg := { s.dbg with active := false, ir := 1, dr := idcodeWord } } ∧
    idcodeWord.toNat % 2 = 1 ∧ bits idcodeWord.toNat 27 12 = 0xAF32 ∧ bits idcodeWord.toNat 31 28 = 3) ∧
  (∀ (w : Word) (s : State), (∀ r rs, s.dbg.trace = r :: rs →
      exec (.pop w) s = .next { s with dbg := { s.dbg with data := some r, trace := rs } }) ∧
    (s.dbg.trace = [] → exec (.pop w) s = .next { s with dbg := { s.dbg with data := none } }))

/-- R538, R544, R545, R546, R547: priming: the record in force, the image that ACTIVE names, then the other; recovery
where neither can be used; a clock that is missing; PRIMED. Where it goes beyond these rules it follows the model's
own readings of log entries 5, 38, 39, 71. -/
def Obligations.PrimingAndPrimed : Prop :=
  (∀ (c img : Nat) (s u : State), s.primeReady = true → s.mram.rerun = none → (∀ k ∈ s.ecc, k.mem ≠ .mram) →
    s.recChoose = some c → u = { s with mram := { s.mram with copy := some c } } → img = u.platActive →
    Answers .priming s (fun t => t.mram.primed = false ∧
      (u.imgFault img = 0 → t.mram.recovery = false ∧ t.mram.step = 8 ∧ t.mram.image = img) ∧
      (u.imgFault img ≠ 0 → u.imgFault (1 - img) = 0 →
        t.mram.recovery = false ∧ t.mram.step = 8 ∧ t.mram.image = 1 - img) ∧
      (u.imgFault img ≠ 0 → u.imgFault (1 - img) ≠ 0 → t.mram.recovery = true ∧ t.mram.step = 7))) ∧
  (∀ (s u : State), s.primeReady = true → s.mram.rerun = none → (∀ k ∈ s.ecc, k.mem ≠ .mram) → s.recChoose = none →
    u = { s with mram := { s.mram with copy := none } } → u.imgFault 0 ≠ 0 → u.imgFault 1 ≠ 0 →
    Answers .priming s (fun t => t.mram.recovery = true ∧ t.mram.primed = false ∧ t.mram.step = 7 ∧
      t.mram.failA = u.imgFault 0 ∧ t.mram.failB = u.imgFault 1 ∧ t.mram.fallback = true ∧ t.mram.unauth = true ∧
      t.mram.mem = s.mram.mem ∧ (∀ x, (t.th x).well = [] ∧ (t.th x).bits = []) ∧
      (∀ n, (t.lb n).res = [] ∧ (t.lb n).shared = [] ∧ (t.lb n).code0 = [] ∧ (t.lb n).code1 = []) ∧
      t.pump.cells = [] ∧ t.pump.chans = [] ∧ t.pump.cis = [] ∧
      { t with
        mram := s.mram, threads := s.threads, lbs := s.lbs, pump := s.pump, ecc := s.ecc, valves := s.valves } = s)) ∧
  (∀ (id img : Nat) (s : State), s.mram.rerun = some (id, img) → s.mram.step = 7 → s.mram.primed = false →
    (∀ k ∈ s.ecc, k.mem ≠ .mram) → s.imgFault img = 0 → Answers .priming s (fun t =>
      t.mram.step = 8 ∧ t.mram.image = img ∧ t.mram.primed = false)) ∧
  (∀ (img i : Nat) (e : ManEntry) (s : State), e.kind = 1 → i < e.w3 →
    byteAt ((s.loadEntry img e).lb e.target).code0 (e.w1 + i) = byteAt s.mram.mem (imgBase img + e.w2 + i)) ∧
  (∀ (nclk : Bool) (s : State), s.mram.primed = false → s.mram.recovery = false → s.mram.step < 2 →
    s.mram.clocksSeen = false → s.mram.missAt + 671088640000000 ≤ s.tb.elapsed →
    s.mram.resetAt + 671088640000000 ≤ s.tb.elapsed → exec (.primingClockMissing nclk) s = .next { s with
      evq := s.evq ++ [{ unit := 0, cls := 7, typ := 7, alarm := false, trace := false, arg0 := if nclk then 12 else 2
                         arg1 := (Config.detailCode 7 2 0).toNat }]
      mram := { s.mram with missAt := s.tb.elapsed, step := 1 } }) ∧
  (∀ (s u : State), s.mram.step = 8 → s.mram.primed = false → s.mram.rerun = none →
    u = s.startEntries s.mram.image (fun _ => true) → Answers .primed s (fun t =>
      t.mram.primed = true ∧ t.mram.recovery = false ∧ t.mram.step = 9 ∧
      t.mram.primeUs = min 65535 ((s.tb.elapsed - s.mram.resetAt) / 67108864000) ∧
      t.locked = (s.locked || s.rwlLock) ∧ t.threads = u.threads ∧ t.valves = u.valves ∧
      (s.wh.lastFault = none → s.dbg.testMode = false → t.wh.fault = false) ∧
      (s.wh.lastFault ≠ none ∨ s.dbg.testMode = true → t.wh.fault = s.wh.fault))) ∧
  (∀ (img x : Nat) (e : ManEntry) (s : State), s.manifest img = [e] → e.kind = 5 → e.target = x →
    (s.th x).stopped = true → (s.th x).startReq = none → s.enabledPair x = none →
    ((s.startEntries img (fun _ => true)).th x).startReq ≠ none) ∧
  (∀ (id img : Nat) (c : HCmd) (s : State), s.mram.step = 8 → s.mram.primed = false →
    s.mram.rerun = some (id, img) → s.mram.image < 2 → s.cmdById id = some c → s.ringEn c.r = true →
    c.gen = (s.ring c.r).gen → Answers .primed s (fun t => t.mram.primed = true ∧ t.mram.rerun = none ∧
      t.platActive = s.mram.image ∧ Completed t c 0 (s.imgVersion s.mram.image)))

/-- R517, R547, R549, R550, R551, R552: PERS_LOAD and its end; PERS_SWAP, its arming, the cut-over of a thread, its
timeout and its end; the return of a logical bore. Where it goes beyond these rules it follows the model's own
readings of log entries 40, 41, 42, 43, 44. -/
def Obligations.PersonalityLoadSwapAndReturn : Prop :=
  (∀ (p : Fin 8) (op : Nat) (i : Instr) (masks : List Nat) (c : HCmd) (s : State),
    (i, op, masks) ∈ [(.persLoad p, 0x50, [1, 2 ^ 32 - 1, 0, 2 ^ 32 - 1, 2 ^ 32 - 1]), (.persSwap p, 0x51, [1, 0x3FF])] →
    Commanded { s with mram := { s.mram with recovery := false } } p op c →
    (c.clean masks = false → Answers i s (fun t => Completed t c 6 0 ∧ t.mram = s.mram)) ∧
    (c.clean masks = true → s.canPers p = false → Answers i s (fun t => Completed t c 3 0 ∧ t.mram = s.mram)) ∧
    (c.clean masks = true → s.canPers p = true → (op = 0x51 → s.mram.recovery = false) →
      (op = 0x51 → 1 ≤ bits (c.w 2) 9 0 ∧ bits (c.w 2) 9 0 ≤ 1000) → s.persRefused (c.w 1 % 2) = true →
      Answers i s (fun t => Completed t c 5 0 ∧ t.mram = s.mram))) ∧
  (∀ (p : Fin 8) (img len addr : Nat) (c : HCmd) (s : State),
    Commanded { s with mram := { s.mram with recovery := false } } p 0x50 c →
    c.clean [1, 2 ^ 32 - 1, 0, 2 ^ 32 - 1, 2 ^ 32 - 1] = true → s.canPers p = true → img = c.w 1 % 2 →
    s.persRefused img = false → len = c.w 2 → addr = c.w 4 + 2 ^ 32 * c.w 5 →
    (len = 0 ∨ 0x600000 < len → Answers (.persLoad p) s (fun t => Completed t c 6 0 ∧ t.mram = s.mram)) ∧
    (1 ≤ len → len ≤ 0x600000 → s.mram.load = none → Answers (.persLoad p) s (fun t =>
      t.mram.load = some { image := img, cmd := c.id, len := len, addr := addr, got := 0, bad := false } ∧
      t.imgMarked img = true ∧ t.imgMarked (1 - img) = s.imgMarked (1 - img) ∧ t.mram.mem = s.mram.mem ∧
      Asked t 0 false addr (min len (256 - addr % 256)) (.load 0) ∧ t.host.recs = s.host.recs))) ∧
  (∀ (l : LoadSt) (c : HCmd) (s : State), s.mram.load = some l → s.cmdById l.cmd = some c → s.ringEn c.r = true →
    c.gen = (s.ring c.r).gen → Answers .persLoadDone s (fun t =>
      (l.bad = true → Completed t c 11 0 ∧ t.mram.load = none ∧ t.mram.mem = s.mram.mem) ∧
      (l.bad = false → l.got < l.len → t = s) ∧
      (l.bad = false → l.len ≤ l.got → (s.ctCopy l.image).imageFail l.image = 0 →
        Completed t c 0 ((s.ctCopy l.image).imgVersion l.image) ∧ t.mram.load = none ∧ t.imgMarked l.image = false) ∧
      (l.bad = false → l.len ≤ l.got → (s.ctCopy l.image).imageFail l.image ≠ 0 →
        Completed t c 10 0 ∧ t.mram.load = none ∧ t.imgMarked l.image = s.imgMarked l.image))) ∧
  (∀ (p : Fin 8) (img ms : Nat) (c : HCmd) (s : State), Commanded s p 0x51 c → c.clean [1, 0x3FF] = true →
    s.canPers p = true → img = c.w 1 % 2 → ms = bits (c.w 2) 9 0 →
    (ms = 0 ∨ 1000 < ms → Answers (.persSwap p) s (fun t => Completed t c 6 0 ∧ t.mram = s.mram)) ∧
    (1 ≤ ms → ms ≤ 1000 → s.mram.primed = false ∨ s.imgMarked img = true ∨ s.imageFail img ≠ 0 →
      Answers (.persSwap p) s (fun t => Completed t c 5 0 ∧ t.mram = s.mram)) ∧
    (1 ≤ ms → ms ≤ 1000 → s.mram.primed = true → s.persRefused img = false → s.imgMarked img = false →
      s.imageFail img = 0 → Answers (.persSwap p) s (fun t => t.host.recs = s.host.recs ∧
        t.mram = { s.mram with swap := some { image := img, cmd := c.id, timeoutMs := ms, armed := none, expired := false
                                              timedOut := 0 } }))) ∧
  (∀ (p : Fin 8) (c : HCmd) (s : State), Commanded { s with mram := { s.mram with recovery := false } } p 0x51 c →
    c.clean [1, 0x3FF] = true → s.canPers p = true → 1 ≤ bits (c.w 2) 9 0 → bits (c.w 2) 9 0 ≤ 1000 →
    s.mram.recovery = true → s.mram.rerun = none → s.mram.load = none → Answers (.persSwap p) s (fun t =>
      t.mram = { s.mram with rerun := some (c.id, c.w 1 % 2) } ∧ t.host.recs = s.host.recs)) ∧
  (∀ (w : SwapSt) (s : State), s.mram.swap = some w → w.armed = none → Answers .swapArmed s (fun t =>
    t.mram = { s.mram with swap := some { w with armed := some s.tb.elapsed } } ∧
    ∀ x, x < 128 → (t.th x).pc = (s.th x).pc ∧
      (∀ o n, (s.th x).running = true → s.reentry w.image x = some (o, n) →
        (t.th x).cutOver = some (BitVec.ofNat 18 o, BitVec.ofNat 18 n)) ∧
      ((s.th x).running = false ∨ s.reentry w.image x = none → (t.th x).cutOver = none))) ∧
  (∀ (x : Fin 128) (o n : BitVec 18) (s : State), (s.th x).cutOver = some (o, n) → (s.th x).pc = o →
    s.hasTurn x .issue = true → Answers (.threadCutOver x) s (fun t =>
      (t.th x).pc = n ∧ (t.th x).cutOver = none ∧ (t.th x).well = (s.th x).well ∧ (t.th x).bits = (s.th x).bits ∧
      (t.th x).rs = (s.th x).rs ∧ (t.th x).cis = (s.th x).cis ∧
      (n ≠ 0x3FFFF#18 → (t.th x).st = (s.th x).st ∧ (t.th x).longs = (s.th x).longs) ∧
      (n = 0x3FFFF#18 → (t.th x).st = .stopped ∧ (t.th x).stopCause = 4) ∧
      ((∀ q, q < 16 → 16 * (x.val / 16) + q ≠ x.val → (s.th (16 * (x.val / 16) + q)).newBank = true) →
        (t.lb (x.val / 16)).bank = !(s.lb (x.val / 16)).bank) ∧
      (∀ y, y / 16 ≠ x.val / 16 → t.th y = s.th y))) ∧
  (∀ (w : SwapSt) (a : Nat) (s : State), s.mram.swap = some w → w.armed = some a → w.expired = false →
    a + w.timeoutMs * 67108864000000 ≤ s.tb.elapsed → Answers .swapTimeout s (fun t =>
      (∃ k, t.mram = { s.mram with swap := some { w with expired := true, timedOut := k } }) ∧
      (∀ x o n, x < 128 → (s.th x).cutOver = some (o, n) →
        ((s.th x).running = true → (t.th x).stopReq ≠ .none ∧ (t.th x).cutOver = some (o, n)) ∧
        ((s.th x).running = false → (t.th x).cutOver = none ∧ (t.th x).pc = n ∧ (t.th x).stopCause = 4)) ∧
      (∀ v r, v < 128 → (s.valve v).swap = some r → (t.valve v).swap = some { r with mode := 3 }))) ∧
  (∀ (w : SwapSt) (c : HCmd) (s : State), s.mram.swap = some w → w.armed ≠ none → s.swapComplete w.image = true →
    w.image < 2 → s.cmdById w.cmd = some c → s.ringEn c.r = true → c.gen = (s.ring c.r).gen →
    Answers .persSwapDone s (fun t => t.mram.swap = none ∧ t.platActive = w.image ∧
      Completed t c 0 (s.imgVersion w.image))) ∧
  (∀ (lb : Fin 8) (b : Nat) (s : State), s.longestIdle = some b → s.mram.primed = true → s.mram.swap = none →
    s.up 12 = true → s.returnNext = some lb.val → s.inService.length < s.mayCarry →
    s.imgFault s.platActive = 0 → Answers (.lbReturn lb) s (fun t => (t.pb b).role = 0 ∧ (t.pb b).lb = lb.val ∧
      (t.lb lb).shed = false ∧
      ∃ g, { unit := 0, cls := 4, typ := 0x32, alarm := false, trace := false, arg0 := lb.val, arg1 := g : Ev } ∈ t.evq)) ∧
  (∀ (lb : Fin 8) (b : Nat) (s : State), s.longestIdle = some b → s.mram.primed = true → s.mram.swap = none →
    s.up 12 = true → s.returnNext = some lb.val → s.inService.length < s.mayCarry →
    s.imgFault s.platActive ≠ 0 → Answers (.lbReturn lb) s (fun t => t.lbs = s.lbs ∧ t.threads = s.threads ∧
      (∃ e ∈ t.evq, e.cls = 4 ∧ e.typ = 4 ∧ e.arg0 = 15 ∧ e.arg1 = (Config.detailCode 4 2 lb).toNat ∧ e.force = s.safeLb lb)))

/-! ### The block as a whole -/

/-- One step runs the command at the front of the queue with the queue's rest. On an empty queue the block is left to
one TCLK edge: the model's own choice (log entry 2). -/
def Obligations.StepRunsTheFrontCommand : Prop :=
  (∀ (c : Instr) (cs : List Instr) (s : State), s.pending = c :: cs → step s = exec c { s with pending := cs }) ∧
  (∀ s : State, s.pending = [] → step s = .next s.tclkEdge)

/-- R536, R544, R546, R548: what reset leaves, of the values that the spec gives. Where it goes beyond these rules it
follows the model's own readings of log entry 6. -/
def Obligations.ResetLeavesTheBlockUnprimed : Prop :=
  State.reset.pending = [] ∧ State.reset.strokes = 0 ∧ State.reset.gov.pace = 1600 ∧ State.reset.gov.code = 20 ∧
  State.reset.mram.primed = false ∧ State.reset.mram.recovery = false ∧ State.reset.locked = false ∧
  State.reset.wh.fault = true ∧ State.reset.inReset = [] ∧
  (∀ b, b < 8 → (State.reset.pb b).role = 0 ∧ (State.reset.pb b).lb = b ∧ (State.reset.lb b).bank = false) ∧
  (State.reset.pb 8).role = 1 ∧ (State.reset.pb 9).role = 1 ∧
  (∀ x, (State.reset.th x).st = .stopped ∧ (State.reset.th x).stopCause = 0) ∧
  (∀ v, (State.reset.valve v).run = false) ∧ (∀ i, (State.reset.chan i).kind = 0 ∧ (State.reset.chan i).gen = 0) ∧
  (∀ o, State.reset.reg o = regReset o) ∧ State.reset.Safe ∧ Tbl.wf 0 State.reset.mram.mem = true

/-- The worked decodes of chapter 05: the bytes that the spec writes out are read as the instructions that it names.
-/
def Obligations.WorkedDecodesAreRead : Prop :=
  (∃ d, predecode (fun i => [0xE2, 0x42, 0x00, 0x10, 0x44, 0x00, 0x00, 0xA3].getD i 0) = .ok d ∧ d.op = 0x02 ∧ d.cond = 2 ∧
    d.size = 2 ∧ d.specs = [.wd 0x010, .rd 0x40000, .small 3] ∧ d.len = 8) ∧
  (∃ d, predecode (fun i => [0xE0, 0x34, 0x12, 0xA1, 0x20, 0x08, 0x00, 0x44].getD i 0) = .ok d ∧ d.op = 0x01 ∧ d.cond = 5 ∧
    d.guard = some 0x1234 ∧ d.specs = [.wip 8, .wd 0x044] ∧ d.len = 8) ∧
  (∃ d, predecode (fun i => [0xEC, 0x00, 0x28, 0x07, 0x03, 0x00, 0x40, 0x10, 0x04, 0x00].getD i 0) = .ok d ∧ d.op = 0x128 ∧
    d.fixed = 0x0307 ∧ d.specs = [.wd 0x040, .wi 4 0] ∧ d.len = 10) ∧
  (∃ d, predecode (fun i => [0xE8, 0xEC, 0x00, 0x00, 0x40, 0x00, 0x01, 0x40, 0x00, 0x02, 0x70, 0x78, 0x56, 0x34,
      0x12].getD i 0) = .ok d ∧ d.op = 0x100 ∧ d.setf = true ∧ d.specs = [.rd 0x100, .rd 0x200, .imm32 0x12345678] ∧
    d.len = 15) ∧
  predecode (fun i => [0xE0, 0x80, 0x00, 0xE8, 0xEC, 0xA0, 0x00, 0x40, 0x00, 0x01, 0x40, 0x00, 0x02, 0x70, 0x78, 0x56, 0x34,
    0x12].getD i 0) = .illegal 9 13 15 ∧
  (∃ d, predecode (fun i => [0xE5, 0xED, 0x00, 0x00, 0x01, 0x00, 0x01, 0x10, 0xB8].getD i 0) = .ok d ∧ d.op = 0x200 ∧
    d.lane = 16 ∧ d.specs = [.wd 0x100, .wd 0x110, .ws 8] ∧ d.len = 9) ∧
  predecode (fun i => [0xE2, 0xE3].getD i 0) = .illegal 3 1 2

/-- R12, R15: a write through the register slave port to a locked RWL field is discarded, the port completes it, and
the wellhead gets a lock violation with the offset; a read of an unassigned offset gives 0 and a write to one is
ignored. -/
def Obligations.LockedAndUnassignedRegisters : Prop :=
  (∀ (o : Fin 1048576) (w : Word) (s : State), s.locked = true → rwlMask o ≠ 0 → o.val % 4 = 0 →
    (o.val = 0x70030 ∨ o.val = 0x70034 ∨ o.val = 0x70038 → bit (s.reg 0x70000) 1 = false) →
    exec (.registerWrite o w 15 0) s = .next { s with
      evq := s.evq ++ [{ unit := 10, cls := 11, typ := 0x20, alarm := false, trace := false, arg0 := 0, arg1 := o }]
      host := { s.host with rsErr := 0 } }) ∧
  (∀ (o : Fin 1048576) (w : Word) (s : State), s.locked = true → o.val = 0x70030 ∨ o.val = 0x70034 ∨ o.val = 0x70038 →
    bit (s.reg 0x70000) 1 = true → Answers (.registerWrite o w 15 0) s (fun t => t.regs = s.regs ∧
      bit t.pump.alarm 9 = true ∧ { t with pump := s.pump, evq := s.evq, host := s.host } = s)) ∧
  (∀ (o : Nat) (s : State), regAt o = none → s.view o = 0 ∧ s.image o = 0) ∧
  (∀ (o : Fin 1048576) (w : Word) (s : State), regAt o = none → o.val % 4 = 0 →
    exec (.registerWrite o w 15 0) s = .next { s with host := { s.host with rsErr := 0 } }) ∧
  (∀ (w : WinWrite) (s : State), regAt w.off = none → s.winApply w = s)

/-- R5, R145, R146, R148, R149: a write into a well or a reservoir is read back little-endian, leaves every other byte
and every other memory, keeps the table of bytes in its canonical form, and restores the check bits of every word that
it covers. A read of a word with a single-bit error corrects and counts it and makes it due for ECC_REWRITE; a read of
an uncorrectable word is counted and reported and leaves the word. -/
def Obligations.MemoriesKeepBytesAndCheckBits : Prop :=
  (∀ (x a n v : Nat) (s t : State), t = s.wellPut x a n v →
    readLE (t.th x).well a n = v % 256 ^ n ∧
    (∀ b, b < a ∨ a + n ≤ b → byteAt (t.th x).well b = byteAt (s.th x).well b) ∧ (∀ y, y ≠ x → t.th y = s.th y) ∧
    (Tbl.wf 0 (s.th x).well = true → Tbl.wf 0 (t.th x).well = true) ∧
    (∀ w, a ≤ 4 * w → 4 * w + 4 ≤ a + n → t.eccOf (.well x) w = none) ∧
    { t with threads := s.threads, ecc := s.ecc, eccDue := s.eccDue, evq := s.evq } = s) ∧
  (∀ (lb a n v : Nat) (s t : State), t = s.resPut lb a n v →
    readLE (t.lb lb).res a n = v % 256 ^ n ∧
    (∀ b, b < a ∨ a + n ≤ b → byteAt (t.lb lb).res b = byteAt (s.lb lb).res b) ∧ (∀ k, k ≠ lb → t.lb k = s.lb k) ∧
    (Tbl.wf 0 (s.lb lb).res = true → Tbl.wf 0 (t.lb lb).res = true) ∧
    (∀ w, a ≤ 4 * w → 4 * w + 4 ≤ a + n → t.eccOf (.reservoir lb) w = none) ∧
    { t with lbs := s.lbs, ecc := s.ecc, eccDue := s.eccDue, evq := s.evq } = s) ∧
  (∀ (m : Mem) (w : Nat) (s : State), s.eccOf m w = some .rewriting →
    exec (.eccRewrite m w) s = .next (s.setEcc m w none)) ∧
  (∀ (r : Reader) (m : Mem) (w : Nat) (s t : State), (s.eccOf m w = some .correctable ∨ s.eccOf m w = some .rewriting) →
    t = s.eccRead r m w → t.eccOf m w = some .rewriting ∧ (∀ n v, (n, v) ≠ (m, w) → t.eccOf n v = s.eccOf n v) ∧
    (t.evq.getLast?).map (fun e => (e.cls, e.typ, e.arg1)) = some (0, 0, m.addrArg w) ∧
    t.evq.length = s.evq.length + 1 ∧ t.threads = s.threads ∧ t.lbs = s.lbs ∧ t.pump = s.pump ∧ t.mram = s.mram) ∧
  (∀ (r : Reader) (m : Mem) (w : Nat) (s t : State), s.eccOf m w = some .uncorrectable → t = s.eccRead r m w →
    t.ecc = s.ecc ∧ (t.evq.getLast?).map (fun e => (e.cls, e.typ, e.arg1)) = some (1, 1, m.addrArg w) ∧
    t.evq.length = s.evq.length + 1 ∧ t.threads = s.threads ∧ t.lbs = s.lbs ∧ t.pump = s.pump ∧ t.mram = s.mram) ∧
  (∀ (r : Reader) (m : Mem) (w : Nat) (s : State), s.eccOf m w = none → s.eccRead r m w = s) ∧
  (∀ (m : Mem) (a n : Nat) (s : State), ∀ w, a ≤ 4 * w → 4 * w + 4 ≤ a + n → (s.eccWrite m a n).eccOf m w = none) ∧
  (∀ (m : Mem) (a n w : Nat) (s : State), w ∈ partWords a n → s.eccOf m w = some .uncorrectable →
    (s.eccWrite m a n).eccOf m w = some .uncorrectable) ∧
  (∀ (m : Mem) (a n w : Nat) (s : State), w ∈ partWords a n → s.eccOf m w ≠ some .uncorrectable →
    (s.eccWrite m a n).eccOf m w = none)

/-- Every command completes, in every state: the block stops on none, and no command touches the queue. Where it goes
beyond these rules it follows the model's own readings of log entries 3, 8. -/
def Obligations.CommandsCompleteAndLeaveTheQueue : Prop :=
  ∀ (c : Instr) (s : State), ∃ t, exec c s = .next t ∧ t.pending = s.pending

/-- R352, R546: over any run of commands without a stroke or a reset the stroke count stays; over any run without a
reset a set lock of the RWL fields stays. -/
def Obligations.CountAndLockOverRuns : Prop :=
  (∀ (is : List Instr) (s t : State), Runs s is t →
    (∀ c ∈ is, (∀ tree unit, c ≠ .stroke tree unit) ∧ ∀ b, c ≠ .blockReset b ∧ c ≠ .aonReset b) →
    t.strokes = s.strokes) ∧
  (∀ (is : List Instr) (s t : State), Runs s is t → (∀ c ∈ is, ∀ b, c ≠ .blockReset b ∧ c ≠ .aonReset b) →
    s.locked = true → t.locked = true)

/-- R546, R547: every step keeps it that the block is never primed and in recovery at once. -/
def Obligations.PrimedAndRecoveryExclude : Prop :=
  (∀ (s t : State), s.Safe → step s = .next t → t.Safe) ∧
  (∀ (is : List Instr) (s t : State), s.Safe → Runs s is t → t.Safe)
end

