-- ==== Sys2Proof/Laws/FrameOps.lean ====
section
/-!
SUPPORT. What the shared operations, the memories, the governor, the manifold, the valves, the pins and the timebase leave alone.  Each lemma says that one definition keeps `State.fixed`.
-/

namespace Sys2Proof.Machine

/-- What almost no command changes: the queue, the stroke count, the RWL lock, PRIMED and RECOVERY. -/
def State.fixed (s : State) : List Instr × Nat × Bool × Bool × Bool :=
  (s.pending, s.strokes, s.locked, s.mram.primed, s.mram.recovery)

/-- A next state that an outcome holds keeps what is fixed. -/
def Keeps (s : State) (r : Result) : Prop := ∀ t, r = .next t → t.fixed = s.fixed

/-- The operation of an instruction keeps what is fixed. -/
def Did.Keeps (d : Did) : Prop :=
  match d with
  | .run g => ∀ t, (g t).fixed = t.fixed
  | .stay g => ∀ t, (g t).fixed = t.fixed
  | .fault _ => True

@[simp] theorem fixed_eta (s : State) :
    (s.pending, s.strokes, s.locked, s.mram.primed, s.mram.recovery) = s.fixed := rfl

@[simp] theorem fixed_mk (x0 : List Instr) (x1 : Nat) (x2 : Bool) (x3 : Nat) (x4 : Tbl Thread) (x5 : Tbl LBore) (x6 : Tbl PBore) (x7 : Tbl Bool) (x8 : List GBitWrite) (x9 : List WinWrite) (x10 : List WinWrite) (x11 : List WinWrite) (x12 : Shown) (x13 : Shown) (x14 : List EccMark) (x15 : List EccDue) (x16 : Tbl Word) (x17 : Bool) (x18 : List Ev) (x19 : Nat) (x20 : PumpSt) (x21 : LockSt) (x22 : TimeSt) (x23 : ManifoldSt) (x24 : GovSt) (x25 : Tbl ValveSt) (x26 : Tbl PinSt) (x27 : Tbl Nat) (x28 : Tbl FlagCyc) (x29 : Tbl PortSt) (x30 : HostSt) (x31 : WhSt) (x32 : DbgSt) (x33 : MramSt) (x34 : List Nat) :
    (State.mk x0 x1 x2 x3 x4 x5 x6 x7 x8 x9 x10 x11 x12 x13 x14 x15 x16 x17 x18 x19 x20 x21 x22 x23 x24 x25 x26 x27 x28 x29 x30 x31 x32 x33 x34).fixed =
      (x0, x1, x17, x33.primed, x33.recovery) := rfl

@[simp] theorem fixed_ite (p : Prop) [Decidable p] (a b : State) :
    (if p then a else b).fixed = if p then a.fixed else b.fixed := apply_ite State.fixed p a b

@[simp] theorem fixed_ite_snd {α : Type} (p : Prop) [Decidable p] (a b : α × State) :
    (if p then a else b).2 = if p then a.2 else b.2 := apply_ite Prod.snd p a b

@[simp] theorem foldl_fixed {α : Type} (f : State → α → State) (h : ∀ s a, (f s a).fixed = s.fixed) (l : List α)
    (s : State) : (l.foldl f s).fixed = s.fixed := by
  induction l generalizing s with
  | nil => rfl
  | cons a l ih => simp [ih, h]

@[simp] theorem keeps_next (s t : State) : Keeps s (.next t) ↔ t.fixed = s.fixed := by
  constructor
  · intro h; exact h t rfl
  · intro h u e; cases e; exact h

@[simp] theorem keeps_act (s t : State) (c : Bool) : Keeps s (s.act c t) ↔ (c = true → t.fixed = s.fixed) := by
  cases c <;> simp [State.act]

@[simp] theorem keeps_ite (s : State) (p : Prop) [Decidable p] (a b : Result) (ha : Keeps s a) (hb : Keeps s b) :
    Keeps s (if p then a else b) := by split <;> assumption

@[simp] theorem State.setTh_fixed (s : State) (a2 : Nat) (a3 : Thread) : (State.setTh s a2 a3).fixed = s.fixed := rfl

@[simp] theorem State.modTh_fixed (s : State) (a2 : Nat) (a3 : Thread → Thread) : (State.modTh s a2 a3).fixed = s.fixed := rfl

@[simp] theorem State.setLb_fixed (s : State) (a2 : Nat) (a3 : LBore) : (State.setLb s a2 a3).fixed = s.fixed := rfl

@[simp] theorem State.modLb_fixed (s : State) (a2 : Nat) (a3 : LBore → LBore) : (State.modLb s a2 a3).fixed = s.fixed := rfl

@[simp] theorem State.modPb_fixed (s : State) (a2 : Nat) (a3 : PBore → PBore) : (State.modPb s a2 a3).fixed = s.fixed := rfl

@[simp] theorem State.eventAt_fixed (s : State) (a2 : Nat) (a3 : Nat) (a4 : Nat) (a5 : Nat) (a6 : Nat) (a7 : Nat) (a8 : Option (Nat × Nat)) (a9 : Option Nat) : (State.eventAt s a2 a3 a4 a5 a6 a7 a8 a9).fixed = s.fixed := rfl

@[simp] theorem State.event_fixed (s : State) (a2 : Nat) (a3 : Nat) (a4 : Nat) (a5 : Nat) (a6 : Nat) : (State.event s a2 a3 a4 a5 a6).fixed = s.fixed := rfl

@[simp] theorem State.eventFree_fixed (s : State) (a2 : Nat) (a3 : Nat) (a4 : Nat) : (State.eventFree s a2 a3 a4).fixed = s.fixed := rfl

@[simp] theorem State.alarmEvent_fixed (s : State) (a2 : Nat) (a3 : Nat) (a4 : Nat) (a5 : Nat) : (State.alarmEvent s a2 a3 a4 a5).fixed = s.fixed := rfl

@[simp] theorem State.traceEvent_fixed (s : State) (a2 : Nat) (a3 : Nat) (a4 : Nat) (a5 : Nat) : (State.traceEvent s a2 a3 a4 a5).fixed = s.fixed := rfl

@[simp] theorem State.lockViolation_fixed (s : State) (a2 : Nat) (a3 : Nat) : (State.lockViolation s a2 a3).fixed = s.fixed := rfl

@[simp] theorem State.sysViolation_fixed (s : State) (a2 : Nat) (a3 : Nat) : (State.sysViolation s a2 a3).fixed = s.fixed := rfl

@[simp] theorem State.gbitWrite_fixed (s : State) (a2 : Nat) (a3 : Nat) (a4 : Nat) (a5 : Option Bool) : (State.gbitWrite s a2 a3 a4 a5).fixed = s.fixed := rfl

@[simp] theorem State.landGbits_fixed (s : State) (a2 : Nat) : (State.landGbits s a2).fixed = s.fixed := rfl

@[simp] theorem State.setEcc_fixed (s : State) (a2 : Mem) (a3 : Nat) (a4 : Option EccState) : (State.setEcc s a2 a3 a4).fixed = s.fixed := rfl

@[simp] theorem State.countEccOn_fixed (s : State) (a2 : Nat) (a3 : Mem) (a4 : Bool) : (State.countEccOn s a2 a3 a4).fixed = s.fixed := by
  simp only [State.countEccOn]; (repeat' split) <;> first | rfl | simp

@[simp] theorem State.countEcc_fixed (s : State) (a2 : Mem) (a3 : Bool) : (State.countEcc s a2 a3).fixed = s.fixed := by
  simp only [State.countEcc]; (repeat' split) <;> first | rfl | simp

@[simp] theorem State.countUe_fixed (s : State) (a2 : Mem) : (State.countUe s a2).fixed = s.fixed := by
  simp [State.countUe]

@[simp] theorem State.eccEventAt_fixed (s : State) (a2 : Nat) (a3 : Nat) (a4 : Mem) (a5 : Nat) (a6 : Reader) : (State.eccEventAt s a2 a3 a4 a5 a6).fixed = s.fixed := rfl

@[simp] theorem State.eccEvent_fixed (s : State) (a2 : Nat) (a3 : Mem) (a4 : Nat) (a5 : Reader) : (State.eccEvent s a2 a3 a4 a5).fixed = s.fixed := rfl

@[simp] theorem State.eccRead_fixed (s : State) (a2 : Reader) (a3 : Mem) (a4 : Nat) : (State.eccRead s a2 a3 a4).fixed = s.fixed := by
  simp only [State.eccRead]; (repeat' split) <;> first | rfl | simp

@[simp] theorem State.countLater_fixed (s : State) (a2 : Mem) (a3 : Bool) : (State.countLater s a2 a3).fixed = s.fixed := rfl

@[simp] theorem State.eccPipe_fixed (s : State) (a2 : Mem) (a3 : Nat) : (State.eccPipe s a2 a3).fixed = s.fixed := by
  simp only [State.eccPipe]; (repeat' split) <;> first | rfl | simp

@[simp] theorem State.landEcc_fixed (s : State) (a2 : Nat) : (State.landEcc s a2).fixed = s.fixed := by
  simp [State.landEcc]

@[simp] theorem State.eccReads_fixed (s : State) (a2 : Reader) (a3 : List (Mem × Nat)) : (State.eccReads s a2 a3).fixed = s.fixed := by
  simp [State.eccReads]

@[simp] theorem State.eccCorrect_fixed (s : State) (a2 : List (Mem × Nat)) : (State.eccCorrect s a2).fixed = s.fixed := by
  simp only [State.eccCorrect]
  repeat' first
    | rfl
    | (rename_i h; obtain ⟨_, rfl⟩ := Prod.ext_iff.mp h)
    | split
    | refine foldl_fixed _ (fun _ _ => ?_) _ _
    | refine Eq.trans (foldl_fixed _ (fun _ _ => ?_) _ _) ?_
    | simp

@[simp] theorem State.pipeCorrect_fixed (s : State) (a2 : List (Mem × Nat)) : (State.pipeCorrect s a2).fixed = s.fixed := by
  simp only [State.pipeCorrect]
  repeat' first
    | rfl
    | (rename_i h; obtain ⟨_, rfl⟩ := Prod.ext_iff.mp h)
    | split
    | refine foldl_fixed _ (fun _ _ => ?_) _ _
    | refine Eq.trans (foldl_fixed _ (fun _ _ => ?_) _ _) ?_
    | simp

@[simp] theorem State.eccPart_fixed (s : State) (a2 : Mem) (a3 : Nat) : (State.eccPart s a2 a3).fixed = s.fixed := by
  simp only [State.eccPart]; (repeat' split) <;> first | rfl | simp

@[simp] theorem State.eccWrite_fixed (s : State) (a2 : Mem) (a3 : Nat) (a4 : Nat) : (State.eccWrite s a2 a3 a4).fixed = s.fixed := by
  simp only [State.eccWrite]; (repeat' split) <;> first | rfl | simp

@[simp] theorem State.eccNarrow_fixed (s : State) (a2 : Reader) (a3 : Mem) (a4 : Nat) (a5 : Nat) : (State.eccNarrow s a2 a3 a4 a5).fixed = s.fixed := by
  simp only [State.eccNarrow]; (repeat' split) <;> first | rfl | simp

@[simp] theorem State.setFlag_fixed (s : State) (a2 : Nat) (a3 : Nat) (a4 : Bool) : (State.setFlag s a2 a3 a4).fixed = s.fixed := by
  simp only [State.setFlag]; (repeat' split) <;> first | rfl | simp

@[simp] theorem State.hwFlag_fixed (s : State) (a2 : Reader) (a3 : Nat) (a4 : Nat) : (State.hwFlag s a2 a3 a4).fixed = s.fixed := by
  simp only [State.hwFlag]; (repeat' split) <;> first | rfl | simp

@[simp] theorem State.bitWrite_fixed (s : State) (a2 : Nat) (a3 : Nat) (a4 : Option Bool) : (State.bitWrite s a2 a3 a4).fixed = s.fixed := by
  simp [State.bitWrite]

@[simp] theorem State.resIssue_fixed (s : State) (a2 : Nat) (a3 : Bool) (a4 : Nat) (a5 : Nat) (a6 : Nat) : (State.resIssue s a2 a3 a4 a5 a6).fixed = s.fixed := rfl

@[simp] theorem State.resPut_fixed (s : State) (a2 : Nat) (a3 : Nat) (a4 : Nat) (a5 : Nat) : (State.resPut s a2 a3 a4 a5).fixed = s.fixed := by
  simp [State.resPut]

@[simp] theorem State.serveWord_fixed (s : State) (a2 : Nat) (a3 : Nat) (a4 : Nat) (a5 : Nat) : (State.serveWord s a2 a3 a4 a5).fixed = s.fixed := by
  simp only [State.serveWord]; (repeat' split) <;> first | rfl | simp

@[simp] theorem State.resServe_fixed (s : State) (a2 : Nat) (a3 : Nat) (a4 : Nat) (a5 : Nat) : (State.resServe s a2 a3 a4 a5).fixed = s.fixed := by
  simp [State.resServe]

@[simp] theorem State.wellPut_fixed (s : State) (a2 : Nat) (a3 : Nat) (a4 : Nat) (a5 : Nat) : (State.wellPut s a2 a3 a4 a5).fixed = s.fixed := by
  simp [State.wellPut]

@[simp] theorem State.landRes_fixed (s : State) (a2 : Nat) (a3 : Nat) : (State.landRes s a2 a3).fixed = s.fixed := by
  simp [State.landRes]

@[simp] theorem State.setReg_fixed (s : State) (a2 : Nat) (a3 : Nat) : (State.setReg s a2 a3).fixed = s.fixed := rfl

@[simp] theorem State.modCell_fixed (s : State) (a2 : Nat) (a3 : Cell → Cell) : (State.modCell s a2 a3).fixed = s.fixed := rfl

@[simp] theorem State.modChan_fixed (s : State) (a2 : Nat) (a3 : Chan → Chan) : (State.modChan s a2 a3).fixed = s.fixed := rfl

@[simp] theorem State.modPump_fixed (s : State) (a2 : PumpSt → PumpSt) : (State.modPump s a2).fixed = s.fixed := rfl

@[simp] theorem State.pumpAlarm_fixed (s : State) (a2 : Nat) : (State.pumpAlarm s a2).fixed = s.fixed := rfl

theorem State.takeCell_fixed (s : State) (v : Nat × State) (h : s.takeCell = some v) : v.2.fixed = s.fixed := by
  unfold State.takeCell at h
  generalize pickFrom 32768 (Config.pick s.draws) s.cellFree = r at h
  cases r with
  | none => cases h
  | some c =>
    simp only [Option.some.injEq] at h
    rw [← h]; simp

theorem State.takeCells_fixed (s : State) (n : Nat) (v : List Nat × State) (h : s.takeCells n = some v) :
    v.2.fixed = s.fixed := by
  induction n generalizing s v with
  | zero => cases h; rfl
  | succ n ih =>
    simp only [State.takeCells, Option.bind_eq_some_iff, Option.map_eq_some_iff] at h
    obtain ⟨p, h1, q, h2, rfl⟩ := h
    exact (ih _ _ h2).trans (State.takeCell_fixed _ _ h1)

@[simp] theorem State.returnCells_fixed (s : State) (a2 : List Nat) : (State.returnCells s a2).fixed = s.fixed := by
  simp only [State.returnCells]
  repeat' first
    | rfl
    | (rename_i h; obtain ⟨_, rfl⟩ := Prod.ext_iff.mp h)
    | split
    | refine foldl_fixed _ (fun _ _ => ?_) _ _
    | refine Eq.trans (foldl_fixed _ (fun _ _ => ?_) _ _) ?_
    | simp

theorem State.linkGo_fixed (hdr : Cell) (s : State) (b : Bool) (l : List Nat) :
    (State.linkCells.go hdr s b l).fixed = s.fixed := by
  induction l generalizing s b with
  | nil => rfl
  | cons c l ih =>
    cases l with
    | nil => rfl
    | cons d l => unfold State.linkCells.go; rw [ih]; rfl

@[simp] theorem State.linkCells_fixed (s : State) (hdr : Cell) (l : List Nat) : (s.linkCells hdr l).fixed = s.fixed := by
  cases l with
  | nil => rfl
  | cons h l => exact State.linkGo_fixed hdr s true (h :: l)

theorem State.allocBuf_fixed (s : State) (n : Nat) (c : Cell) (v : Nat × State) (h : s.allocBuf n c = some v) :
    v.2.fixed = s.fixed := by
  simp only [State.allocBuf] at h
  split at h
  · cases h
  · split at h
    · next h1 =>
      rw [Option.some.injEq] at h
      rw [← h]; simpa using State.takeCells_fixed _ _ _ h1
    · cases h

@[simp] theorem State.dropRef_fixed (s : State) (a2 : Nat) : (State.dropRef s a2).fixed = s.fixed := by
  simp [State.dropRef]

@[simp] theorem State.bufWrite_fixed (s : State) (a2 : Nat) (a3 : Nat) (a4 : List Nat) : (State.bufWrite s a2 a3 a4).fixed = s.fixed := by
  simp [State.bufWrite]

@[simp] theorem State.tagFault_fixed (s : State) (h : Nat) (ch : Option Nat) : (s.tagFault h ch).fixed = s.fixed := by
  simp only [State.tagFault]
  cases ch <;> simp

@[simp] theorem State.tagCheckAs_fixed (s : State) (a2 : Nat) (a3 : Option Nat) (a4 : Cell) (a5 : Nat) : (State.tagCheckAs s a2 a3 a4 a5).2.fixed = s.fixed := by
  simp [State.tagCheckAs]

@[simp] theorem State.tagCheck_fixed (s : State) (a2 : Nat) (a3 : Option Nat) : (State.tagCheck s a2 a3).2.fixed = s.fixed := by
  simp [State.tagCheck]

@[simp] theorem State.checkHandle_fixed (s : State) (a2 : Nat) (a3 : Nat) : (State.checkHandle s a2 a3).2.fixed = s.fixed := by
  simp [State.checkHandle]

@[simp] theorem chanCheck_fixed (s : State) (a2 : Nat) : (chanCheck s a2).2.fixed = s.fixed := by
  simp only [chanCheck]
  repeat' first
    | rfl
    | (rename_i h; obtain ⟨_, rfl⟩ := Prod.ext_iff.mp h)
    | split
    | refine foldl_fixed _ (fun _ _ => ?_) _ _
    | refine Eq.trans (foldl_fixed _ (fun _ _ => ?_) _ _) ?_
    | simp

@[simp] theorem chanBind_fixed (s : State) (a2 : Nat) (a3 : Nat) (a4 : Nat) : (chanBind s a2 a3 a4).2.fixed = s.fixed := by
  simp only [chanBind]; (repeat' split) <;> first | rfl | simp

@[simp] theorem chanUnbind_fixed (s : State) (a2 : Nat) (a3 : Nat) : (chanUnbind s a2 a3).2.fixed = s.fixed := by
  simp only [chanUnbind]; (repeat' split) <;> first | rfl | simp

@[simp] theorem chanTagget_fixed (s : State) (a2 : Nat) (a3 : Nat) : (chanTagget s a2 a3).2.fixed = s.fixed := by
  simp only [chanTagget]; (repeat' split) <;> first | rfl | simp

@[simp] theorem chanTagput_fixed (s : State) (a2 : Nat) (a3 : Nat) (a4 : Nat) : (chanTagput s a2 a3 a4).2.fixed = s.fixed := by
  simp only [chanTagput]; (repeat' split) <;> first | rfl | simp

@[simp] theorem chanAlloc_fixed (s : State) (x a b : Nat) : (chanAlloc s x a b).2.fixed = s.fixed := by
  simp only [chanAlloc]
  split
  · rfl
  · split
    · simp
    · next c t h => exact State.allocBuf_fixed _ _ _ (c, t) h

@[simp] theorem chanFree_fixed (s : State) (a2 : Nat) (a3 : Nat) : (chanFree s a2 a3).2.fixed = s.fixed := by
  simp only [chanFree]; (repeat' split) <;> first | rfl | simp

@[simp] theorem chanEffect_fixed (s : State) (a2 : Nat) (a3 : Nat) (a4 : Nat) (a5 : Nat) : (chanEffect s a2 a3 a4 a5).2.fixed = s.fixed := by
  simp only [chanEffect]; (repeat' split) <;> first | rfl | simp

@[simp] theorem State.modGov_fixed (s : State) (a2 : GovSt → GovSt) : (State.modGov s a2).fixed = s.fixed := rfl

@[simp] theorem State.govAlarm_fixed (s : State) (a2 : Nat) : (State.govAlarm s a2).fixed = s.fixed := rfl

@[simp] theorem State.vreqPresent_fixed (s : State) (a2 : Nat) : (State.vreqPresent s a2).fixed = s.fixed := rfl

@[simp] theorem State.vreqNext_fixed (s : State) : (State.vreqNext s).fixed = s.fixed := by
  simp [State.vreqNext]

@[simp] theorem State.vreqUp_fixed (s : State) : (State.vreqUp s).fixed = s.fixed := by
  simp [State.vreqUp]

@[simp] theorem State.govMeasure_fixed (s : State) (a2 : Nat) (a3 : Nat) (a4 : Nat) : (State.govMeasure s a2 a3 a4).fixed = s.fixed := rfl

@[simp] theorem State.govRuns_fixed (s : State) (a2 : Bool) (a3 : Nat) : (State.govRuns s a2 a3).fixed = s.fixed := rfl

@[simp] theorem State.depthUp_fixed (s : State) (a2 : Nat) : (State.depthUp s a2).fixed = s.fixed := by
  simp [State.depthUp]

@[simp] theorem State.depthDown_fixed (s : State) : (State.depthDown s).fixed = s.fixed := rfl

@[simp] theorem State.govCompare_fixed (s : State) (a2 : Nat) (a3 : Bool) (a4 : Nat) : (State.govCompare s a2 a3 a4).fixed = s.fixed := by
  simp [State.govCompare]

@[simp] theorem State.paceApply_fixed (s : State) : (State.paceApply s).fixed = s.fixed := rfl

@[simp] theorem State.govGate_fixed (s : State) (a2 : Nat) (a3 : Nat) (a4 : Nat) : (State.govGate s a2 a3 a4).fixed = s.fixed := by
  simp [State.govGate]

@[simp] theorem State.govSnap_fixed (s : State) : (State.govSnap s).fixed = s.fixed := rfl

@[simp] theorem State.govReport_fixed (s : State) : (State.govReport s).fixed = s.fixed := rfl

@[simp] theorem State.govCtrlWrite_fixed (s : State) (a2 : Nat) : (State.govCtrlWrite s a2).fixed = s.fixed := by
  simp [State.govCtrlWrite]

@[simp] theorem State.paceWrite_fixed (s : State) (a2 : Nat) : (State.paceWrite s a2).fixed = s.fixed := rfl

@[simp] theorem State.govLimitsWrite_fixed (s : State) (a2 : Nat) : (State.govLimitsWrite s a2).fixed = s.fixed := rfl

@[simp] theorem State.govCeilWrite_fixed (s : State) (a2 : Nat) : (State.govCeilWrite s a2).fixed = s.fixed := rfl

@[simp] theorem State.govVreqWrite_fixed (s : State) (a2 : Nat) : (State.govVreqWrite s a2).fixed = s.fixed := by
  simp [State.govVreqWrite]

@[simp] theorem State.govPolicyWrite_fixed (s : State) (a2 : Nat) : (State.govPolicyWrite s a2).fixed = s.fixed := rfl

@[simp] theorem execDepthDecrease_fixed (s : State) : Keeps s (execDepthDecrease s) := by
  simp [execDepthDecrease]

@[simp] theorem execPaceWrite_fixed (a1 : Word) (s : State) : Keeps s (execPaceWrite a1 s) := by
  simp [execPaceWrite]

@[simp] theorem execPaceApply_fixed (s : State) : Keeps s (execPaceApply s) := by
  simp [execPaceApply]

@[simp] theorem execSnap_fixed (a1 : Word) (s : State) : Keeps s (execSnap a1 s) := by
  simp [execSnap]

@[simp] theorem execMsReport_fixed (s : State) : Keeps s (execMsReport s) := by
  simp [execMsReport]

@[simp] theorem execVreqAckRise_fixed (s : State) : Keeps s (execVreqAckRise s) := by
  simp [execVreqAckRise]

@[simp] theorem execVreqAckFall_fixed (s : State) : Keeps s (execVreqAckFall s) := by
  simp [execVreqAckFall]

@[simp] theorem execDownRequest_fixed (s : State) : Keeps s (execDownRequest s) := by
  simp [execDownRequest]

@[simp] theorem execVreqTimeout_fixed (s : State) : Keeps s (execVreqTimeout s) := by
  simp [execVreqTimeout]

@[simp] theorem execRefLost_fixed (s : State) : Keeps s (execRefLost s) := by
  simp [execRefLost]

@[simp] theorem execRefRestored_fixed (s : State) : Keeps s (execRefRestored s) := by
  simp [execRefRestored]

@[simp] theorem State.modMf_fixed (s : State) (a2 : ManifoldSt → ManifoldSt) : (State.modMf s a2).fixed = s.fixed := rfl

@[simp] theorem State.mfAlarm_fixed (s : State) (a2 : Nat) : (State.mfAlarm s a2).fixed = s.fixed := rfl

@[simp] theorem State.raiseAt_fixed (s : State) (a2 : Nat) (a3 : Bool) (a4 : Bool) (a5 : Bool) (a6 : Nat) : (State.raiseAt s a2 a3 a4 a5 a6).fixed = s.fixed := rfl

@[simp] theorem State.raiseCore_fixed (s : State) (a2 : Nat) : (State.raiseCore s a2).fixed = s.fixed := rfl

@[simp] theorem State.raiseClock_fixed (s : State) (a2 : Nat) : (State.raiseClock s a2).fixed = s.fixed := rfl

@[simp] theorem State.raiseLevel_fixed (s : State) (a2 : Nat) (a3 : Bool) (a4 : Bool) : (State.raiseLevel s a2 a3 a4).fixed = s.fixed := rfl

@[simp] theorem State.sampleLevels_fixed (s : State) : (State.sampleLevels s).fixed = s.fixed := by
  simp [State.sampleLevels]

@[simp] theorem State.enterEvent_fixed (s : State) (a2 : SrcEvent) : (State.enterEvent s a2).fixed = s.fixed := by
  simp [State.enterEvent]

@[simp] theorem State.enterCore_fixed (s : State) : (State.enterCore s).fixed = s.fixed := by
  simp [State.enterCore]

@[simp] theorem State.routeRead_fixed (s : State) (a2 : Nat) : (State.routeRead s a2).fixed = s.fixed := by
  simp [State.routeRead]

@[simp] theorem State.routeLook_fixed (s : State) (a2 : Nat) (a3 : Nat) : (State.routeLook s a2 a3).fixed = s.fixed := by
  simp [State.routeLook]

@[simp] theorem State.routeBy_fixed (s : State) (a2 : SrcEvent) (a3 : Nat) : (State.routeBy s a2 a3).fixed = s.fixed := by
  simp [State.routeBy]

@[simp] theorem State.routeStroke_fixed (s : State) : (State.routeStroke s).fixed = s.fixed := by
  simp [State.routeStroke]

@[simp] theorem State.modIn_fixed (s : State) (a2 : Nat) (a3 : InStat → InStat) : (State.modIn s a2 a3).fixed = s.fixed := rfl

@[simp] theorem State.inLatch_fixed (s : State) (a2 : Nat) (a3 : Nat) (a4 : InStat → InStat) : (State.inLatch s a2 a3 a4).fixed = s.fixed := rfl

@[simp] theorem State.stormWindow_fixed (s : State) : (State.stormWindow s).fixed = s.fixed := by
  simp [State.stormWindow]

@[simp] theorem State.mfWriteBit_fixed (s : State) (a2 : Nat) (a3 : Bool) : (State.mfWriteBit s a2 a3).fixed = s.fixed := by
  simp [State.mfWriteBit]

@[simp] theorem State.consume_fixed (s : State) (a2 : Nat) (a3 : Nat) (a4 : Bool) : (State.consume s a2 a3 a4).fixed = s.fixed := by
  simp [State.consume]

@[simp] theorem State.deliverTo_fixed (s : State) (a2 : Nat) (a3 : List Nat) (a4 : Option Nat) : (State.deliverTo s a2 a3 a4).fixed = s.fixed := by
  simp only [State.deliverTo]
  repeat' first
    | rfl
    | (rename_i h; obtain ⟨_, rfl⟩ := Prod.ext_iff.mp h)
    | split
    | refine foldl_fixed _ (fun _ _ => ?_) _ _
    | refine Eq.trans (foldl_fixed _ (fun _ _ => ?_) _ _) ?_
    | simp

@[simp] theorem State.deliver_fixed (s : State) (a2 : Nat) : (State.deliver s a2).fixed = s.fixed := by
  simp [State.deliver]

@[simp] theorem State.stampExits_fixed (s : State) : (State.stampExits s).fixed = s.fixed := rfl

@[simp] theorem State.extLevels_fixed (s : State) : (State.extLevels s).fixed = s.fixed := by
  simp [State.extLevels]

@[simp] theorem State.deliverAll_fixed (s : State) : (State.deliverAll s).fixed = s.fixed := by
  simp [State.deliverAll]

@[simp] theorem State.mfGate_fixed (s : State) : (State.mfGate s).fixed = s.fixed := by
  simp [State.mfGate]

@[simp] theorem State.mfTouch_fixed (s : State) : (State.mfTouch s).fixed = s.fixed := rfl

@[simp] theorem State.routeWrite_fixed (s : State) (a2 : Nat) (a3 : Nat) : (State.routeWrite s a2 a3).fixed = s.fixed := by
  simp [State.routeWrite]

@[simp] theorem State.gateWrite_fixed (s : State) (a2 : Nat) (a3 : Nat) : (State.gateWrite s a2 a3).fixed = s.fixed := rfl

@[simp] theorem State.stormRearm_fixed (s : State) (a2 : Nat) : (State.stormRearm s a2).fixed = s.fixed := by
  simp [State.stormRearm]

@[simp] theorem State.inStatWrite_fixed (s : State) (a2 : Nat) (a3 : Nat) : (State.inStatWrite s a2 a3).fixed = s.fixed := by
  simp [State.inStatWrite]

@[simp] theorem State.goldenWrite_fixed (s : State) (a2 : Nat) : (State.goldenWrite s a2).fixed = s.fixed := rfl

@[simp] theorem State.sigEnd_fixed (s : State) (b v : Nat) : (s.sigEnd b v).fixed = s.fixed := by
  simp only [State.sigEnd]
  (repeat' split) <;> simp

@[simp] theorem State.sigPass_fixed (s : State) : s.sigPass.fixed = s.fixed := by
  simp only [State.sigPass]
  split
  · rfl
  · simp

@[simp] theorem State.sigStep_fixed (s : State) : (State.sigStep s).fixed = s.fixed := by
  simp [State.sigStep]

@[simp] theorem execEventEntry_fixed (a1 : Fin 1024) (s : State) : Keeps s (execEventEntry a1 s) := by
  simp only [execEventEntry]; (repeat' split) <;> first | rfl | simp

@[simp] theorem execRouteDelivery_fixed (a1 : Fin 1024) (s : State) : Keeps s (execRouteDelivery a1 s) := by
  simp [execRouteDelivery]

@[simp] theorem execStormWindow_fixed (s : State) : Keeps s (execStormWindow s) := by
  simp [execStormWindow]

@[simp] theorem execStormRearm_fixed (a1 : Fin 1024) (a2 : Word) (s : State) : Keeps s (execStormRearm a1 a2 s) := by
  simp [execStormRearm]

@[simp] theorem execTriggerArrive_fixed (a1 : Fin 128) (a2 : Fin 2) (s : State) : Keeps s (execTriggerArrive a1 a2 s) := by
  simp only [execTriggerArrive]; (repeat' split) <;> first | rfl | simp

@[simp] theorem execTxholdChange_fixed (a1 : Fin 32) (s : State) : Keeps s (execTxholdChange a1 s) := by
  simp only [execTxholdChange]; (repeat' split) <;> first | rfl | simp

@[simp] theorem execTscapCapture_fixed (a1 : Fin 16) (s : State) : Keeps s (execTscapCapture a1 s) := by
  simp only [execTscapCapture]; (repeat' split) <;> first | rfl | simp

@[simp] theorem execExtoutPulse_fixed (k : Fin 16) (s : State) : Keeps s (execExtoutPulse k s) := by
  unfold execExtoutPulse
  split
  · simp
  · rw [keeps_act]
    intro _
    split <;> simp

@[simp] theorem execStretcherEnd_fixed (a1 : Fin 16) (s : State) : Keeps s (execStretcherEnd a1 s) := by
  simp only [execStretcherEnd]; (repeat' split) <;> first | rfl | simp

@[simp] theorem execRouteWrite_fixed (a1 : Fin 2048) (a2 : Word) (s : State) : Keeps s (execRouteWrite a1 a2 s) := by
  simp [execRouteWrite]

@[simp] theorem execGateWrite_fixed (a1 : Fin 2048) (a2 : Word) (s : State) : Keeps s (execGateWrite a1 a2 s) := by
  simp [execGateWrite]

@[simp] theorem execSignaturePass_fixed (s : State) : Keeps s (execSignaturePass s) := by
  simp [execSignaturePass]

@[simp] theorem execGoldenWrite_fixed (a1 : Word) (s : State) : Keeps s (execGoldenWrite a1 s) := by
  simp [execGoldenWrite]

@[simp] theorem execExtInEdge_fixed (a1 : Fin 16) (a2 : Bool) (s : State) : Keeps s (execExtInEdge a1 a2 s) := by
  simp [execExtInEdge]

@[simp] theorem State.modValve_fixed (s : State) (a2 : Nat) (a3 : ValveSt → ValveSt) : (State.modValve s a2 a3).fixed = s.fixed := rfl

@[simp] theorem State.modPin_fixed (s : State) (a2 : Nat) (a3 : Nat) (a4 : PinSt → PinSt) : (State.modPin s a2 a3 a4).fixed = s.fixed := rfl

@[simp] theorem State.pinOut_fixed (s : State) (a2 : Nat) (a3 : Nat) (a4 : Bool) : (State.pinOut s a2 a3 a4).fixed = s.fixed := by
  simp [State.pinOut]

@[simp] theorem State.pinOe_fixed (s : State) (a2 : Nat) (a3 : Nat) (a4 : Bool) : (State.pinOe s a2 a3 a4).fixed = s.fixed := by
  simp [State.pinOe]

@[simp] theorem State.pinDrive_fixed (s : State) (a2 : Nat) (a3 : Nat) (a4 : Bool) : (State.pinDrive s a2 a3 a4).fixed = s.fixed := by
  simp [State.pinDrive]

@[simp] theorem State.putCyc_fixed (s : State) (a2 : Nat) (a3 : FlagCyc) : (State.putCyc s a2 a3).fixed = s.fixed := rfl

@[simp] theorem State.setPflag_fixed (s : State) (a2 : Nat) (a3 : Nat) (a4 : Bool) : (State.setPflag s a2 a3 a4).fixed = s.fixed := rfl

@[simp] theorem State.pinFx_fixed (s : State) (a2 : Nat) (a3 : Nat) : (State.pinFx s a2 a3).fixed = s.fixed := by
  simp only [State.pinFx]
  repeat' first
    | rfl
    | (rename_i h; obtain ⟨_, rfl⟩ := Prod.ext_iff.mp h)
    | split
    | refine foldl_fixed _ (fun _ _ => ?_) _ _
    | refine Eq.trans (foldl_fixed _ (fun _ _ => ?_) _ _) ?_
    | simp

@[simp] theorem State.vSend_fixed (s : State) (a2 : Nat) (a3 : Nat) : (State.vSend s a2 a3).fixed = s.fixed := by
  simp [State.vSend]

@[simp] theorem State.vSample_fixed (s : State) (a2 : Nat) (a3 : Nat) : (State.vSample s a2 a3).fixed = s.fixed := rfl

@[simp] theorem State.vFill_fixed (s : State) (a2 : Nat) (a3 : Nat) (a4 : Bool) : (State.vFill s a2 a3 a4).fixed = s.fixed := rfl

@[simp] theorem State.vDiscard_fixed (s : State) (a2 : Nat) (a3 : Nat) : (State.vDiscard s a2 a3).fixed = s.fixed := rfl

@[simp] theorem State.vDst_fixed (s : State) (a2 : Nat) (a3 : Nat) (a4 : Word) : (State.vDst s a2 a3 a4).fixed = s.fixed := by
  simp only [State.vDst]; (repeat' split) <;> first | rfl | simp

@[simp] theorem State.vEnd_fixed (s : State) (a2 : Nat) (a3 : Nat) (a4 : Nat) : (State.vEnd s a2 a3 a4).fixed = s.fixed := rfl

@[simp] theorem State.vStall_fixed (s : State) (a2 : Nat) : (State.vStall s a2).fixed = s.fixed := rfl

@[simp] theorem State.vRun_fixed (s : State) (v : Nat) (p : Nat → Bool) (op : State → State) (t : Nat → Option Nat)
    (h : ∀ u, (op u).fixed = u.fixed) : Keeps s (s.vRun v p op t) := by
  simp [State.vRun, h]

@[simp] theorem execBranch_fixed (v : Fin 128) (s : State) : Keeps s (execBranch v s) := by
  simp only [execBranch]
  apply State.vRun_fixed
  intro u; simp

@[simp] theorem execCountLoad_fixed (v : Fin 128) (s : State) : Keeps s (execCountLoad v s) := by
  simp only [execCountLoad]
  apply State.vRun_fixed
  intro u; simp

@[simp] theorem execCountReload_fixed (v : Fin 128) (s : State) : Keeps s (execCountReload v s) := by
  simp only [execCountReload]
  apply State.vRun_fixed
  intro u; simp

@[simp] theorem execCountDec_fixed (v : Fin 128) (s : State) : Keeps s (execCountDec v s) := by
  simp only [execCountDec]
  apply State.vRun_fixed
  intro u; simp

@[simp] theorem execCountLoop_fixed (v : Fin 128) (s : State) : Keeps s (execCountLoop v s) := by
  simp only [execCountLoop]
  apply State.vRun_fixed
  intro u; simp

@[simp] theorem execShiftSend_fixed (v : Fin 128) (s : State) : Keeps s (execShiftSend v s) := by
  simp only [execShiftSend]
  apply State.vRun_fixed
  intro u; simp

@[simp] theorem execShiftSample_fixed (v : Fin 128) (s : State) : Keeps s (execShiftSample v s) := by
  simp only [execShiftSample]
  apply State.vRun_fixed
  intro u; simp

@[simp] theorem execShiftFill_fixed (v : Fin 128) (s : State) : Keeps s (execShiftFill v s) := by
  simp only [execShiftFill]
  apply State.vRun_fixed
  intro u; simp

@[simp] theorem execShiftDiscard_fixed (v : Fin 128) (s : State) : Keeps s (execShiftDiscard v s) := by
  simp only [execShiftDiscard]
  apply State.vRun_fixed
  intro u; simp

@[simp] theorem execValveMove_fixed (v : Fin 128) (s : State) : Keeps s (execValveMove v s) := by
  simp only [execValveMove]
  apply State.vRun_fixed
  intro u; simp

@[simp] theorem execTake_fixed (a1 : Fin 128) (s : State) : Keeps s (execTake a1 s) := by
  simp [execTake]

@[simp] theorem execGive_fixed (a1 : Fin 128) (s : State) : Keeps s (execGive a1 s) := by
  simp [execGive]

@[simp] theorem execQueueStallEnd_fixed (a1 : Fin 128) (s : State) : Keeps s (execQueueStallEnd a1 s) := by
  simp [execQueueStallEnd]

@[simp] theorem State.awaitEnd_fixed (s : State) (a2 : Nat) : (State.awaitEnd s a2).fixed = s.fixed := by
  simp only [State.awaitEnd]; (repeat' split) <;> first | rfl | simp

@[simp] theorem State.awaitFalse_fixed (s : State) (a2 : Nat) : (State.awaitFalse s a2).fixed = s.fixed := by
  simp [State.awaitFalse]

@[simp] theorem execAwait_fixed (a1 : Fin 128) (s : State) : Keeps s (execAwait a1 s) := by
  simp [execAwait]

@[simp] theorem execAwaitPass_fixed (a1 : Fin 128) (s : State) : Keeps s (execAwaitPass a1 s) := by
  simp [execAwaitPass]

@[simp] theorem execAwaitTimeout_fixed (a1 : Fin 128) (s : State) : Keeps s (execAwaitTimeout a1 s) := by
  simp [execAwaitTimeout]

@[simp] theorem State.vFlag_fixed (s : State) (a2 : Nat) (a3 : Bool) : (State.vFlag s a2 a3).fixed = s.fixed := rfl

@[simp] theorem State.vRaise_fixed (s : State) (a2 : Nat) : (State.vRaise s a2).fixed = s.fixed := rfl

@[simp] theorem execSignalSet_fixed (v : Fin 128) (s : State) : Keeps s (execSignalSet v s) := by
  simp only [execSignalSet]
  apply State.vRun_fixed
  intro u; simp

@[simp] theorem execSignalClear_fixed (v : Fin 128) (s : State) : Keeps s (execSignalClear v s) := by
  simp only [execSignalClear]
  apply State.vRun_fixed
  intro u; simp

@[simp] theorem execSignalEvent_fixed (v : Fin 128) (s : State) : Keeps s (execSignalEvent v s) := by
  simp only [execSignalEvent]
  apply State.vRun_fixed
  intro u; simp

@[simp] theorem execSignalSetEvent_fixed (v : Fin 128) (s : State) : Keeps s (execSignalSetEvent v s) := by
  simp only [execSignalSetEvent]
  apply State.vRun_fixed
  intro u; simp

@[simp] theorem execMark_fixed (a1 : Fin 128) (s : State) : Keeps s (execMark a1 s) := by
  simp [execMark]

@[simp] theorem execValveIllegal_fixed (a1 : Fin 128) (s : State) : Keeps s (execValveIllegal a1 s) := by
  simp [execValveIllegal]

@[simp] theorem State.valveSwap_fixed (s : State) (a2 : Nat) (a3 : Bool) : (State.valveSwap s a2 a3).fixed = s.fixed := rfl

@[simp] theorem execValveSwap_fixed (a1 : Fin 128) (a2 : Fin 16) (s : State) : Keeps s (execValveSwap a1 a2 s) := by
  simp [execValveSwap]

@[simp] theorem State.progSelWrite_fixed (s : State) (a2 : Nat) (a3 : Nat) : (State.progSelWrite s a2 a3).fixed = s.fixed := rfl

@[simp] theorem execSwapSafe_fixed (a1 : Fin 128) (a2 : Word) (s : State) : Keeps s (execSwapSafe a1 a2 s) := by
  simp [execSwapSafe]

@[simp] theorem execSwapIdle_fixed (a1 : Fin 128) (a2 : Word) (s : State) : Keeps s (execSwapIdle a1 a2 s) := by
  simp [execSwapIdle]

@[simp] theorem execSwapForced_fixed (a1 : Fin 128) (a2 : Word) (s : State) : Keeps s (execSwapForced a1 a2 s) := by
  simp [execSwapForced]

@[simp] theorem execSwapCancel_fixed (a1 : Fin 128) (a2 : Word) (s : State) : Keeps s (execSwapCancel a1 a2 s) := by
  simp [execSwapCancel]

@[simp] theorem State.valveCfgErr_fixed (s : State) (a2 : Nat) : (State.valveCfgErr s a2).fixed = s.fixed := rfl

@[simp] theorem State.valveStop_fixed (s : State) (a2 : Nat) : (State.valveStop s a2).fixed = s.fixed := rfl

@[simp] theorem State.valveRestart_fixed (s : State) (a2 : Nat) : (State.valveRestart s a2).fixed = s.fixed := rfl

@[simp] theorem State.valveCtrlWrite_fixed (s : State) (a2 : Nat) (a3 : Nat) : (State.valveCtrlWrite s a2 a3).fixed = s.fixed := by
  simp [State.valveCtrlWrite]

@[simp] theorem State.qcfgWrite_fixed (s : State) (a2 : Nat) (a3 : Nat) : (State.qcfgWrite s a2 a3).fixed = s.fixed := by
  simp [State.qcfgWrite]

@[simp] theorem State.progWrite_fixed (s : State) (a2 : Nat) (a3 : Nat) (a4 : Nat) : (State.progWrite s a2 a3 a4).fixed = s.fixed := by
  simp [State.progWrite]

@[simp] theorem State.kWrite_fixed (s : State) (a2 : Nat) (a3 : Nat) (a4 : Nat) : (State.kWrite s a2 a3 a4).fixed = s.fixed := by
  simp [State.kWrite]

@[simp] theorem State.valveStatusWrite_fixed (s : State) (a2 : Nat) (a3 : Nat) : (State.valveStatusWrite s a2 a3).fixed = s.fixed := rfl

@[simp] theorem execValveStart_fixed (a1 : Fin 128) (a2 : Word) (s : State) : Keeps s (execValveStart a1 a2 s) := by
  simp [execValveStart]

@[simp] theorem execValveStop_fixed (a1 : Fin 128) (a2 : Word) (s : State) : Keeps s (execValveStop a1 a2 s) := by
  simp [execValveStop]

@[simp] theorem execRestart_fixed (a1 : Fin 128) (a2 : Word) (s : State) : Keeps s (execRestart a1 a2 s) := by
  simp [execRestart]

@[simp] theorem execClrCounts_fixed (a1 : Fin 128) (a2 : Word) (s : State) : Keeps s (execClrCounts a1 a2 s) := by
  simp [execClrCounts]

@[simp] theorem execClkdivWrite_fixed (a1 : Fin 128) (a2 : Word) (s : State) : Keeps s (execClkdivWrite a1 a2 s) := by
  simp [execClkdivWrite]

@[simp] theorem execQcfgWrite_fixed (a1 : Fin 128) (a2 : Word) (s : State) : Keeps s (execQcfgWrite a1 a2 s) := by
  simp [execQcfgWrite]

@[simp] theorem execProgWrite_fixed (a1 : Fin 128) (a2 : Fin 64) (a3 : Word) (s : State) : Keeps s (execProgWrite a1 a2 a3 s) := by
  simp [execProgWrite]

@[simp] theorem execKWrite_fixed (a1 : Fin 128) (a2 : Fin 2) (a3 : Word) (s : State) : Keeps s (execKWrite a1 a2 a3 s) := by
  simp [execKWrite]

@[simp] theorem execTxEntryReady_fixed (a1 : Fin 128) (s : State) : Keeps s (execTxEntryReady a1 s) := by
  simp only [execTxEntryReady]; (repeat' split) <;> first | rfl | simp

@[simp] theorem execRxEntryArrive_fixed (a1 : Fin 128) (s : State) : Keeps s (execRxEntryArrive a1 s) := by
  simp only [execRxEntryArrive]; (repeat' split) <;> first | rfl | simp

@[simp] theorem execPutCreditReturn_fixed (a1 : Fin 128) (s : State) : Keeps s (execPutCreditReturn a1 s) := by
  simp only [execPutCreditReturn]; (repeat' split) <;> first | rfl | simp

@[simp] theorem State.condTo_fixed (s : State) (a2 : Nat) (a3 : Nat) (a4 : Bool) : (State.condTo s a2 a3 a4).fixed = s.fixed := by
  simp [State.condTo]

@[simp] theorem State.chatterLatch_fixed (s : State) (a2 : Nat) (a3 : Nat) : (State.chatterLatch s a2 a3).fixed = s.fixed := by
  simp [State.chatterLatch]

@[simp] theorem State.chatterEdge_fixed (s : State) (a2 : Nat) (a3 : Nat) : (State.chatterEdge s a2 a3).fixed = s.fixed := by
  simp [State.chatterEdge]

@[simp] theorem State.chatterWindow_fixed (s : State) (a2 : Nat) (a3 : Nat) : (State.chatterWindow s a2 a3).fixed = s.fixed := rfl

@[simp] theorem State.stuckLatch_fixed (s : State) (a2 : Nat) (a3 : Nat) : (State.stuckLatch s a2 a3).fixed = s.fixed := by
  simp [State.stuckLatch]

@[simp] theorem State.stuckSettle_fixed (s : State) (a2 : Nat) (a3 : Nat) : (State.stuckSettle s a2 a3).fixed = s.fixed := by
  simp [State.stuckSettle]

@[simp] theorem State.samplePin_fixed (s : State) (a2 : Nat) (a3 : Nat) : (State.samplePin s a2 a3).fixed = s.fixed := by
  simp [State.samplePin]

@[simp] theorem State.pinSampleWrite_fixed (s : State) (n w : Nat) : (s.pinSampleWrite n w).fixed = s.fixed := by
  simp only [State.pinSampleWrite]
  rw [foldl_fixed]
  · simp
  · intro _ _; simp

@[simp] theorem State.pinCondWrite_fixed (s : State) (a2 : Nat) (a3 : Nat) (a4 : Nat) : (State.pinCondWrite s a2 a3 a4).fixed = s.fixed := by
  simp [State.pinCondWrite]

@[simp] theorem State.groupLevels_fixed (s t : State) (g : Nat) : (s.groupLevels t g).fixed = t.fixed := by
  simp only [State.groupLevels]
  (repeat' split) <;> simp

@[simp] theorem State.pinAlarmWrite_fixed (s : State) (a2 : Nat) (a3 : Nat) : (State.pinAlarmWrite s a2 a3).fixed = s.fixed := by
  simp [State.pinAlarmWrite]

@[simp] theorem State.pinOwnWrite_fixed (s : State) (a2 : Nat) (a3 : Nat) : (State.pinOwnWrite s a2 a3).fixed = s.fixed := by
  simp [State.pinOwnWrite]

@[simp] theorem State.pinFlagsWrite_fixed (s : State) (a2 : Nat) (a3 : Nat) : (State.pinFlagsWrite s a2 a3).fixed = s.fixed := rfl

@[simp] theorem State.enterLane_fixed (s : State) (a2 : Nat) : (State.enterLane s a2).fixed = s.fixed := by
  simp [State.enterLane]

@[simp] theorem execPinIn_fixed (a1 : Fin 32) (a2 : Fin 8) (a3 : Bool) (s : State) : Keeps s (execPinIn a1 a2 a3 s) := by
  simp [execPinIn]

@[simp] theorem execSamplePoint_fixed (a1 : Fin 32) (s : State) : Keeps s (execSamplePoint a1 s) := by
  simp [execSamplePoint]

@[simp] theorem execChatterWindow_fixed (a1 : Fin 32) (a2 : Fin 8) (s : State) : Keeps s (execChatterWindow a1 a2 s) := by
  simp [execChatterWindow]

@[simp] theorem execStuck_fixed (a1 : Fin 32) (a2 : Fin 8) (s : State) : Keeps s (execStuck a1 a2 s) := by
  simp [execStuck]

@[simp] theorem execPinSampleWrite_fixed (a1 : Fin 32) (a2 : Word) (s : State) : Keeps s (execPinSampleWrite a1 a2 s) := by
  simp [execPinSampleWrite]

@[simp] theorem execPinCondWrite_fixed (a1 : Fin 32) (a2 : Fin 8) (a3 : Word) (s : State) : Keeps s (execPinCondWrite a1 a2 a3 s) := by
  simp [execPinCondWrite]

@[simp] theorem execChatterRearm_fixed (a1 : Fin 32) (a2 : Word) (s : State) : Keeps s (execChatterRearm a1 a2 s) := by
  simp [execChatterRearm]

@[simp] theorem execStuckClear_fixed (a1 : Fin 32) (a2 : Word) (s : State) : Keeps s (execStuckClear a1 a2 s) := by
  simp [execStuckClear]

@[simp] theorem execPinOwnWrite_fixed (a1 : Fin 32) (a2 : Word) (s : State) : Keeps s (execPinOwnWrite a1 a2 s) := by
  simp [execPinOwnWrite]

@[simp] theorem execPinFlagsWrite_fixed (a1 : Fin 32) (a2 : Word) (s : State) : Keeps s (execPinFlagsWrite a1 a2 s) := by
  simp [execPinFlagsWrite]

@[simp] theorem State.modTb_fixed (s : State) (a2 : TimeSt → TimeSt) : (State.modTb s a2).fixed = s.fixed := rfl

@[simp] theorem State.tbAlarm_fixed (s : State) (a2 : Nat) : (State.tbAlarm s a2).fixed = s.fixed := rfl

@[simp] theorem State.tclkAdvance_fixed (s : State) : (State.tclkAdvance s).fixed = s.fixed := rfl

@[simp] theorem State.schedEdge_fixed (s : State) : (State.schedEdge s).fixed = s.fixed := rfl

@[simp] theorem State.rxEnds_fixed (s : State) : (State.rxEnds s).fixed = s.fixed := by
  simp only [State.rxEnds]
  repeat' first
    | rfl
    | (rename_i h; obtain ⟨_, rfl⟩ := Prod.ext_iff.mp h)
    | split
    | refine foldl_fixed _ (fun _ _ => ?_) _ _
    | refine Eq.trans (foldl_fixed _ (fun _ _ => ?_) _ _) ?_
    | simp

@[simp] theorem State.tclkEdge_fixed (s : State) : (State.tclkEdge s).fixed = s.fixed := by
  simp [State.tclkEdge]

@[simp] theorem State.landTime_fixed (s : State) (a2 : Nat) : (State.landTime s a2).fixed = s.fixed := by
  simp only [State.landTime]; (repeat' split) <;> first | rfl | simp

@[simp] theorem State.tbStep_fixed (s : State) (a2 : Int) : (State.tbStep s a2).fixed = s.fixed := rfl

@[simp] theorem State.adjCtlWrite_fixed (s : State) (a2 : Nat) : (State.adjCtlWrite s a2).fixed = s.fixed := by
  simp [State.adjCtlWrite]

@[simp] theorem State.rateHiWrite_fixed (s : State) (a2 : Nat) : (State.rateHiWrite s a2).fixed = s.fixed := by
  simp [State.rateHiWrite]

@[simp] theorem State.modGcal_fixed (s : State) (a2 : Nat) (a3 : GCal → GCal) : (State.modGcal s a2 a3).fixed = s.fixed := rfl

@[simp] theorem State.countTap_fixed (s : State) (a2 : Nat) (a3 : Nat) : (State.countTap s a2 a3).fixed = s.fixed := rfl

@[simp] theorem State.modTsq_fixed (s : State) (a2 : Nat) (a3 : Tsq → Tsq) : (State.modTsq s a2 a3).fixed = s.fixed := rfl

@[simp] theorem State.tsqPut_fixed (s : State) (n t : Nat) : (s.tsqPut n t).2.2.fixed = s.fixed := by
  simp only [State.tsqPut]
  (repeat' split) <;> simp

@[simp] theorem State.tsqFree_fixed (s : State) (a2 : Nat) (a3 : Nat) : (State.tsqFree s a2 a3).fixed = s.fixed := rfl

@[simp] theorem State.schedAlloc_fixed (s : State) (a2 : Nat) (a3 : Nat) (a4 : Nat) (a5 : Nat) (a6 : Nat) : (State.schedAlloc s a2 a3 a4 a5 a6).2.fixed = s.fixed := by
  simp only [State.schedAlloc]; (repeat' split) <;> first | rfl | simp

@[simp] theorem State.unsched_fixed (s : State) (a2 : Nat) (a3 : Nat) : (State.unsched s a2 a3).fixed = s.fixed := by
  simp only [State.unsched]; (repeat' split) <;> first | rfl | simp

@[simp] theorem State.modRep_fixed (s : State) (a2 : Nat) (a3 : RepRing → RepRing) : (State.modRep s a2 a3).fixed = s.fixed := rfl

@[simp] theorem State.fireRecord_fixed (s : State) (a2 : Nat) (a3 : SchedEntry) : (State.fireRecord s a2 a3).fixed = s.fixed := by
  simp [State.fireRecord]

@[simp] theorem State.schedFire_fixed (s : State) (a2 : Nat) (a3 : SchedEntry) : (State.schedFire s a2 a3).fixed = s.fixed := by
  simp [State.schedFire]

@[simp] theorem State.repHeadWrite_fixed (s : State) (a2 : Nat) (a3 : Nat) : (State.repHeadWrite s a2 a3).fixed = s.fixed := by
  simp [State.repHeadWrite]

@[simp] theorem State.modCk_fixed (s : State) (a2 : Nat) (a3 : CkSlot → CkSlot) : (State.modCk s a2 a3).fixed = s.fixed := rfl

@[simp] theorem State.ckRealign_fixed (s : State) (a2 : Nat) (a3 : Int) : (State.ckRealign s a2 a3).fixed = s.fixed := by
  simp [State.ckRealign]

@[simp] theorem State.ckStart_fixed (s : State) (a2 : Nat) (a3 : Int) : (State.ckStart s a2 a3).fixed = s.fixed := rfl

@[simp] theorem State.ckCfgWrite_fixed (s : State) (a2 : Nat) (a3 : Nat) : (State.ckCfgWrite s a2 a3).fixed = s.fixed := by
  simp [State.ckCfgWrite]

@[simp] theorem State.ckFieldWrite_fixed (s : State) (a2 : Nat) (a3 : Nat) (a4 : Nat) : (State.ckFieldWrite s a2 a3 a4).fixed = s.fixed := by
  simp [State.ckFieldWrite]

@[simp] theorem State.ckDone_fixed (s : State) (a2 : Nat) : (State.ckDone s a2).fixed = s.fixed := by
  simp [State.ckDone]

@[simp] theorem State.ckStatusWrite_fixed (s : State) (a2 : Nat) (a3 : Nat) : (State.ckStatusWrite s a2 a3).fixed = s.fixed := rfl

@[simp] theorem State.hsnapWrite_fixed (s : State) (a2 : Nat) (a3 : Nat) : (State.hsnapWrite s a2 a3).fixed = s.fixed := by
  simp [State.hsnapWrite]

@[simp] theorem State.incWrite_fixed (s : State) (a2 : Nat) (a3 : Nat) : (State.incWrite s a2 a3).fixed = s.fixed := by
  simp [State.incWrite]

@[simp] theorem State.policyWrite_fixed (s : State) (a2 : Nat) : (State.policyWrite s a2).fixed = s.fixed := rfl

@[simp] theorem State.tbWrite_fixed (s : State) (a2 : Nat) (a3 : Nat) : (State.tbWrite s a2 a3).fixed = s.fixed := by
  simp only [State.tbWrite]; (repeat' split) <;> first | rfl | simp

@[simp] theorem execTbIncWrite_fixed (a1 : Fin 9) (a2 : Word) (s : State) : Keeps s (execTbIncWrite a1 a2 s) := by
  simp [execTbIncWrite]

@[simp] theorem execRateLoWrite_fixed (a1 : Word) (s : State) : Keeps s (execRateLoWrite a1 s) := by
  simp [execRateLoWrite]

@[simp] theorem execRateHiWrite_fixed (a1 : Word) (s : State) : Keeps s (execRateHiWrite a1 s) := by
  simp [execRateHiWrite]

@[simp] theorem execRateApply_fixed (s : State) : Keeps s (execRateApply s) := by
  simp [execRateApply]

@[simp] theorem execAdjAuto_fixed (a1 : Word) (s : State) : Keeps s (execAdjAuto a1 s) := by
  simp [execAdjAuto]

@[simp] theorem execAdjStep_fixed (a1 : Word) (s : State) : Keeps s (execAdjStep a1 s) := by
  simp [execAdjStep]

@[simp] theorem execAdjSlew_fixed (a1 : Word) (s : State) : Keeps s (execAdjSlew a1 s) := by
  simp [execAdjSlew]

@[simp] theorem execAdjSet_fixed (a1 : Word) (s : State) : Keeps s (execAdjSet a1 s) := by
  simp [execAdjSet]

@[simp] theorem execTimeStep_fixed (s : State) : Keeps s (execTimeStep s) := by
  simp only [execTimeStep]; (repeat' split) <;> first | rfl | simp

@[simp] theorem execSlewStart_fixed (s : State) : Keeps s (execSlewStart s) := by
  simp only [execSlewStart]; (repeat' split) <;> first | rfl | simp

@[simp] theorem execSlewEnd_fixed (s : State) : Keeps s (execSlewEnd s) := by
  simp [execSlewEnd]

@[simp] theorem execHostSnapshot_fixed (a1 : Fin 8) (a2 : Word) (s : State) : Keeps s (execHostSnapshot a1 a2 s) := by
  simp [execHostSnapshot]

@[simp] theorem execSnapshotCapture_fixed (a1 : Fin 8) (s : State) : Keeps s (execSnapshotCapture a1 s) := by
  simp [execSnapshotCapture]

@[simp] theorem execCalTable_fixed (a1 : Fin 8) (a2 : Fin 256) (s : State) : Keeps s (execCalTable a1 a2 s) := by
  simp [execCalTable]

@[simp] theorem execGroupTimeSync_fixed (g : Fin 8) (tap : Fin 256) (s : State) : Keeps s (execGroupTimeSync g tap s) := by
  unfold execGroupTimeSync
  rw [keeps_next]
  exact State.modTb_fixed _ _

@[simp] theorem execSchedArrive_fixed (a1 : Fin 4096) (s : State) : Keeps s (execSchedArrive a1 s) := by
  simp only [execSchedArrive]; (repeat' split) <;> first | rfl | simp

@[simp] theorem execScheduleFire_fixed (a1 : Fin 4096) (s : State) : Keeps s (execScheduleFire a1 s) := by
  simp only [execScheduleFire]; (repeat' split) <;> first | rfl | simp

@[simp] theorem execUnschedApply_fixed (a1 : Fin 4096) (s : State) : Keeps s (execUnschedApply a1 s) := by
  simp [execUnschedApply]

@[simp] theorem execRepHeadWrite_fixed (a1 : Fin 8) (a2 : Word) (s : State) : Keeps s (execRepHeadWrite a1 a2 s) := by
  simp [execRepHeadWrite]

@[simp] theorem execCycleStart_fixed (a1 : Fin 128) (s : State) : Keeps s (execCycleStart a1 s) := by
  simp only [execCycleStart]; (repeat' split) <;> first | rfl | simp

@[simp] theorem execCkDone_fixed (a1 : Word) (s : State) : Keeps s (execCkDone a1 s) := by
  simp [execCkDone]

@[simp] theorem execCkEnable_fixed (a1 : Fin 128) (a2 : Word) (s : State) : Keeps s (execCkEnable a1 a2 s) := by
  simp [execCkEnable]

@[simp] theorem execCkDisable_fixed (a1 : Fin 128) (a2 : Word) (s : State) : Keeps s (execCkDisable a1 a2 s) := by
  simp [execCkDisable]

@[simp] theorem execPpsInEdge_fixed (a1 : Fin 256) (a2 : Bool) (s : State) : Keeps s (execPpsInEdge a1 a2 s) := by
  simp [execPpsInEdge]

@[simp] theorem execPpsOutRise_fixed (s : State) : Keeps s (execPpsOutRise s) := by
  simp [execPpsOutRise]

@[simp] theorem execPpsOutFall_fixed (s : State) : Keeps s (execPpsOutFall s) := by
  simp [execPpsOutFall]

end Sys2Proof.Machine
end

