-- ==== Sys2Proof/Laws/FramePump.lean ====
section
/-!
SUPPORT. What the pairs, the locks, the master ports, the channels and the pump leave alone.  Each lemma says that one definition keeps `State.fixed`.
-/

namespace Sys2Proof.Machine

@[simp] theorem State.sparing_fixed (s : State) (a2 : Reader) (a3 : Mem) (a4 : Tbl Byte) (a5 : Nat) (a6 : Nat) (a7 : Nat) : (State.sparing s a2 a3 a4 a5 a6 a7).2.fixed = s.fixed := by
  simp only [State.sparing]; (repeat' split) <;> first | rfl | simp

@[simp] theorem State.modPair_fixed (s : State) (a2 : Nat) (a3 : PairSt → PairSt) : (State.modPair s a2 a3).fixed = s.fixed := rfl

@[simp] theorem State.mirror_fixed (s : State) (a2 : Nat) (a3 : Loc) (a4 : Nat) (a5 : Nat) : (State.mirror s a2 a3 a4 a5).fixed = s.fixed := by
  simp only [State.mirror]; (repeat' split) <;> first | rfl | simp

@[simp] theorem State.doneBit_fixed (s : State) (a2 : Reader) (a3 : Nat) (a4 : Nat) : (State.doneBit s a2 a3 a4).fixed = s.fixed := by
  simp [State.doneBit]

@[simp] theorem State.pumpWell_fixed (s : State) (a2 : Reader) (a3 : Nat) (a4 : Nat) (a5 : Nat) (a6 : Nat) : (State.pumpWell s a2 a3 a4 a5 a6).fixed = s.fixed := by
  simp [State.pumpWell]

@[simp] theorem State.mirrorRes_fixed (s : State) (a2 : Nat) (a3 : Nat) (a4 : Nat) (a5 : Nat) : (State.mirrorRes s a2 a3 a4 a5).fixed = s.fixed := by
  simp [State.mirrorRes]

@[simp] theorem State.pumpRes_fixed (s : State) (a2 : Reader) (a3 : Nat) (a4 : Nat) (a5 : Nat) (a6 : Nat) : (State.pumpRes s a2 a3 a4 a5 a6).fixed = s.fixed := by
  simp [State.pumpRes]

@[simp] theorem State.landPair_fixed (s : State) (a2 : Nat) (a3 : Nat) : (State.landPair s a2 a3).fixed = s.fixed := by
  simp only [State.landPair]
  repeat' first
    | rfl
    | (rename_i h; obtain ⟨_, rfl⟩ := Prod.ext_iff.mp h)
    | split
    | refine foldl_fixed _ (fun _ _ => ?_) _ _
    | refine Eq.trans (foldl_fixed _ (fun _ _ => ?_) _ _) ?_
    | simp

@[simp] theorem State.modLocks_fixed (s : State) (a2 : LockSt → LockSt) : (State.modLocks s a2).fixed = s.fixed := rfl

@[simp] theorem State.lockAlarm_fixed (s : State) (a2 : Nat) : (State.lockAlarm s a2).fixed = s.fixed := rfl

@[simp] theorem State.lockReport_fixed (s : State) (a2 : Nat) (a3 : Nat) (a4 : Nat) (a5 : Nat) : (State.lockReport s a2 a3 a4 a5).fixed = s.fixed := rfl

@[simp] theorem State.lockLatch_fixed (s : State) (m c l : Nat) : (s.lockLatch m c l).fixed = s.fixed := by
  unfold State.lockLatch
  by_cases h : bit s.locks.misuse.toNat 31 = true
  · rw [if_pos h]
  · rw [if_neg h]; exact State.modLocks_fixed s _

@[simp] theorem State.lockMisuse_fixed (s : State) (a2 : Nat) (a3 : Nat) (a4 : Nat) (a5 : Nat) (a6 : Bool) : (State.lockMisuse s a2 a3 a4 a5 a6).fixed = s.fixed := by
  simp [State.lockMisuse]

@[simp] theorem State.lockPut_fixed (s : State) (a2 : Nat) (a3 : Nat) (a4 : Nat) (a5 : Nat) : (State.lockPut s a2 a3 a4 a5).fixed = s.fixed := by
  simp [State.lockPut]

@[simp] theorem State.setLease_fixed (s : State) (a2 : Nat) (a3 : Lease) : (State.setLease s a2 a3).fixed = s.fixed := rfl

theorem State.lockTake_fixed (s t : State) (m us sp lb a w : Nat) (h : s.lockTake m us sp lb a w = some t) :
    t.fixed = s.fixed := by
  unfold State.lockTake at h
  generalize pickFrom 1024 (Config.pick s.draws) (fun i => (s.lease i).st == .free) = r at h
  cases r with
  | none => cases h
  | some i =>
    simp only [Option.some.injEq] at h
    rw [← h]; simp

@[simp] theorem State.lockAcquireAs_fixed (s : State) (m us sp lb a w : Nat) :
    (s.lockAcquireAs m us sp lb a w).2.fixed = s.fixed := by
  have take := fun u v x => State.lockTake_fixed u v m us sp lb a x
  simp only [State.lockAcquireAs]
  split
  · split
    · split
      · split <;> simp
      · split
        · next h => simp [take _ _ _ h]
        · simp
    · simp only [State.lockAlarm_fixed, State.lockReport_fixed, State.lockLatch_fixed]
      split
      · next h => simp [take _ _ _ h]
      · simp
  · split
    · next h => simp [take _ _ _ h]
    · simp

@[simp] theorem State.lockAcquire_fixed (s : State) (m us sp lb a : Nat) :
    (s.lockAcquire m us sp lb a).2.fixed = s.fixed := State.lockAcquireAs_fixed s m us sp lb a _

@[simp] theorem State.lockReleaseAs_fixed (s : State) (m sp lb a pc w : Nat) :
    (s.lockReleaseAs m sp lb a pc w).2.fixed = s.fixed := by
  simp [State.lockReleaseAs]

@[simp] theorem State.lockRelease_fixed (s : State) (m sp lb a pc : Nat) :
    (s.lockRelease m sp lb a pc).2.fixed = s.fixed := State.lockReleaseAs_fixed s m sp lb a pc _

theorem State.hostLock_fixed (s : State) (sp lb a : Nat) (f : State → Nat → Nat × State)
    (hf : ∀ t w, (f t w).2.fixed = t.fixed) : (s.hostLock sp lb a f).2.fixed = s.fixed := by
  unfold State.hostLock
  dsimp only
  split
  · rw [hf]; exact State.eccRead_fixed s _ _ _
  · rw [hf]; exact State.eccRead_fixed s _ _ _

@[simp] theorem State.setGlock_fixed (s : State) (a2 : Nat) (a3 : GLock) : (State.setGlock s a2 a3).fixed = s.fixed := rfl

@[simp] theorem State.lockFreed_fixed (s : State) (a2 : Nat) : (State.lockFreed s a2).fixed = s.fixed := rfl

@[simp] theorem State.groupAcquire_fixed (s : State) (a2 : Nat) (a3 : Option Nat) (a4 : Nat) : (State.groupAcquire s a2 a3 a4).2.fixed = s.fixed := by
  simp only [State.groupAcquire]; (repeat' split) <;> first | rfl | simp

@[simp] theorem State.groupRelease_fixed (s : State) (a2 : Nat) (a3 : Nat) (a4 : Nat) : (State.groupRelease s a2 a3 a4).2.fixed = s.fixed := by
  simp [State.groupRelease]

@[simp] theorem State.groupForce_fixed (s : State) (a2 : Nat) (a3 : Nat) : (State.groupForce s a2 a3).2.fixed = s.fixed := by
  simp [State.groupForce]

@[simp] theorem State.leaseExpire_fixed (s : State) (a2 : Nat) (a3 : Nat) (a4 : Nat) : (State.leaseExpire s a2 a3 a4).fixed = s.fixed := by
  simp [State.leaseExpire]

@[simp] theorem State.abandon_fixed (s : State) (who : Nat → Bool) : (s.abandon who).fixed = s.fixed := by
  simp only [State.abandon]
  rw [foldl_fixed, foldl_fixed]
  · intro _ _; simp
  · intro _ _; simp

@[simp] theorem State.leaseRewrite_fixed (s : State) (a2 : Nat) : (State.leaseRewrite s a2).fixed = s.fixed := by
  simp [State.leaseRewrite]

@[simp] theorem State.groupRewrite_fixed (s : State) (a2 : Nat) : (State.groupRewrite s a2).fixed = s.fixed := rfl

@[simp] theorem State.lkWrite_fixed (s : State) (a2 : Nat) (a3 : Nat) : (State.lkWrite s a2 a3).fixed = s.fixed := by
  simp [State.lkWrite]

@[simp] theorem execLeaseExpiry_fixed (a1 : Fin 2048) (s : State) : Keeps s (execLeaseExpiry a1 s) := by
  simp [execLeaseExpiry]

@[simp] theorem execLockRewrite_fixed (a1 : Fin 2048) (s : State) : Keeps s (execLockRewrite a1 s) := by
  simp [execLockRewrite]

@[simp] theorem State.whGlockWrite_fixed (s : State) (a2 : Nat) : (State.whGlockWrite s a2).fixed = s.fixed := by
  simp [State.whGlockWrite]

@[simp] theorem execWhLockAcquire_fixed (a1 : Word) (s : State) : Keeps s (execWhLockAcquire a1 s) := by
  simp [execWhLockAcquire]

@[simp] theorem execWhLockRelease_fixed (a1 : Word) (s : State) : Keeps s (execWhLockRelease a1 s) := by
  simp [execWhLockRelease]

@[simp] theorem execWhLockForce_fixed (a1 : Word) (s : State) : Keeps s (execWhLockForce a1 s) := by
  simp [execWhLockForce]

@[simp] theorem State.modHost_fixed (s : State) (a2 : HostSt → HostSt) : (State.modHost s a2).fixed = s.fixed := rfl

@[simp] theorem State.hostAlarm_fixed (s : State) (a2 : Nat) : (State.hostAlarm s a2).fixed = s.fixed := rfl

@[simp] theorem State.masterKick_fixed (s : State) : (State.masterKick s).fixed = s.fixed := rfl

@[simp] theorem State.ask_fixed (s : State) (a2 : Nat) (a3 : Nat) (a4 : Bool) (a5 : Nat) (a6 : Nat) (a7 : List Nat) (a8 : Nat) (a9 : MOwner) : (State.ask s a2 a3 a4 a5 a6 a7 a8 a9).fixed = s.fixed := rfl

@[simp] theorem State.askAll_fixed (s : State) (a2 : Nat) (a3 : Nat) (a4 : Bool) (a5 : Nat) (a6 : Nat) (a7 : List Nat) (a8 : Nat) (a9 : Nat → MOwner) : (State.askAll s a2 a3 a4 a5 a6 a7 a8 a9).fixed = s.fixed := by
  simp only [State.askAll]
  repeat' first
    | rfl
    | (rename_i h; obtain ⟨_, rfl⟩ := Prod.ext_iff.mp h)
    | split
    | refine foldl_fixed _ (fun _ _ => ?_) _ _
    | refine Eq.trans (foldl_fixed _ (fun _ _ => ?_) _ _) ?_
    | simp

@[simp] theorem State.dropCmd_fixed (s : State) (a2 : MCmd) : (State.dropCmd s a2).fixed = s.fixed := rfl

@[simp] theorem State.noteSlots_fixed (s : State) : (State.noteSlots s).fixed = s.fixed := rfl

@[simp] theorem State.modMove_fixed (s : State) (a2 : Nat) (a3 : Move → Move) : (State.modMove s a2 a3).fixed = s.fixed := rfl

@[simp] theorem State.modHmove_fixed (s : State) (a2 : Nat) (a3 : HMove → HMove) : (State.modHmove s a2 a3).fixed = s.fixed := rfl

@[simp] theorem State.dropHmove_fixed (s : State) (a2 : Nat) : (State.dropHmove s a2).fixed = s.fixed := rfl

@[simp] theorem State.modRing_fixed (s : State) (a2 : Nat) (a3 : HRing → HRing) : (State.modRing s a2 a3).fixed = s.fixed := rfl

@[simp] theorem State.modPart_fixed (s : State) (a2 : Nat) (a3 : HPart → HPart) : (State.modPart s a2 a3).fixed = s.fixed := rfl

@[simp] theorem State.resetSettle_fixed (s : State) (a2 : Nat) : (State.resetSettle s a2).fixed = s.fixed := by
  simp [State.resetSettle]

@[simp] theorem State.recFinish_fixed (s : State) (a2 : Option Nat) : (State.recFinish s a2).fixed = s.fixed := by
  simp only [State.recFinish]; (repeat' split) <;> first | rfl | simp

@[simp] theorem State.postRecord_fixed (s : State) (a2 : Nat) (a3 : Nat) (a4 : Nat) (a5 : Nat) (a6 : Nat) (a7 : Bool) (a8 : Option Nat) (a9 : Option Nat) (a10 : Bool) : (State.postRecord s a2 a3 a4 a5 a6 a7 a8 a9 a10).fixed = s.fixed := by
  simp [State.postRecord]

@[simp] theorem State.ringIrq_fixed (s : State) (a2 : Nat) : (State.ringIrq s a2).fixed = s.fixed := rfl

@[simp] theorem State.recWritten_fixed (s : State) (a2 : Nat) (a3 : Bool) : (State.recWritten s a2 a3).fixed = s.fixed := by
  simp [State.recWritten]

@[simp] theorem State.modHdr_fixed (s : State) (a2 : Nat) (a3 : Cell → Cell) : (State.modHdr s a2 a3).fixed = s.fixed := by
  simp [State.modHdr]

@[simp] theorem State.blPush_fixed (s : State) (a2 : Nat) (a3 : Nat) : (State.blPush s a2 a3).fixed = s.fixed := by
  simp [State.blPush]

theorem State.blPop_fixed (s : State) (a2 : Nat) (v : _) (h : (State.blPop s a2) = some v) : v.2.fixed = s.fixed := by
  simp only [State.blPop] at h
  (repeat' split at h) <;> simp at h <;> (try subst h) <;> simp

@[simp] theorem State.blReplace_fixed (s : State) (a2 : Nat) (a3 : Nat) (a4 : Nat) : (State.blReplace s a2 a3 a4).fixed = s.fixed := by
  simp [State.blReplace]

theorem State.dcPop_fixed (s : State) (v : _) (h : (State.dcPop s) = some v) : v.2.fixed = s.fixed := by
  simp only [State.dcPop] at h
  (repeat' split at h) <;> simp at h <;> (try subst h) <;> simp

@[simp] theorem State.dcPush_fixed (s : State) (a2 : Nat) : (State.dcPush s a2).fixed = s.fixed := rfl

@[simp] theorem State.freeRef_fixed (s : State) (a2 : Nat) : (State.freeRef s a2).fixed = s.fixed := by
  simp [State.freeRef]

@[simp] theorem State.mapCheck_fixed (s : State) (a2 : Nat) : (State.mapCheck s a2).2.fixed = s.fixed := by
  simp [State.mapCheck]

@[simp] theorem State.rxWrite_fixed (s : State) (a2 : Nat) (a3 : Nat) (a4 : List Nat) (a5 : Bool) : (State.rxWrite s a2 a3 a4 a5).fixed = s.fixed := by
  simp only [State.rxWrite]
  repeat' first
    | rfl
    | (rename_i h; obtain ⟨_, rfl⟩ := Prod.ext_iff.mp h)
    | split
    | refine foldl_fixed _ (fun _ _ => ?_) _ _
    | refine Eq.trans (foldl_fixed _ (fun _ _ => ?_) _ _) ?_
    | simp

@[simp] theorem State.rxEnd_fixed (s : State) (a2 : Nat) : (State.rxEnd s a2).fixed = s.fixed := by
  simp only [State.rxEnd]; (repeat' split) <;> first | rfl | simp

@[simp] theorem State.rxStart_fixed (s : State) (a2 : Nat) (a3 : Post) (a4 : Nat) : (State.rxStart s a2 a3 a4).fixed = s.fixed := by
  simp [State.rxStart]

@[simp] theorem State.modPort_fixed (s : State) (a2 : Nat) (a3 : PortSt → PortSt) : (State.modPort s a2 a3).fixed = s.fixed := rfl

@[simp] theorem State.setPstate_fixed (s : State) (a2 : Nat) (a3 : Nat) : (State.setPstate s a2 a3).fixed = s.fixed := rfl

@[simp] theorem State.setTxQueue_fixed (s : State) (a2 : Nat) (a3 : Nat) (a4 : List TxItem) : (State.setTxQueue s a2 a3 a4).fixed = s.fixed := rfl

@[simp] theorem State.txAppend_fixed (s : State) (a2 : Nat) (a3 : Nat) (a4 : Nat) : (State.txAppend s a2 a3 a4).fixed = s.fixed := rfl

@[simp] theorem State.txDefer_fixed (s : State) (a2 : Nat) (a3 : Nat) (a4 : TxItem) : (State.txDefer s a2 a3 a4).fixed = s.fixed := rfl

@[simp] theorem State.submit_fixed (s : State) (a2 : MoveBy) (a3 : Nat) (a4 : Nat) (a5 : Nat) (a6 : Nat) (a7 : Nat) (a8 : Nat) : (State.submit s a2 a3 a4 a5 a6 a7 a8).fixed = s.fixed := by
  unfold State.submit; (repeat' split) <;> first | rfl | simp

@[simp] theorem State.pumpRead_fixed (s : State) (a2 : Move) (a3 : Nat) (a4 : Nat) (a5 : Nat) : (State.pumpRead s a2 a3 a4 a5).2.2.fixed = s.fixed := by
  simp only [State.pumpRead]; (repeat' split) <;> first | rfl | simp

@[simp] theorem State.pumpStore_fixed (s : State) (m : Move) (sp a : Nat) (bs : List Nat) :
    (s.pumpStore m sp a bs).2.fixed = s.fixed := by
  simp only [State.pumpStore]
  (repeat' split) <;> simp

@[simp] theorem State.moveDone_fixed (s : State) (a2 : Nat) (a3 : Nat) (a4 : Nat) : (State.moveDone s a2 a3 a4).fixed = s.fixed := rfl

@[simp] theorem State.nameChan_fixed (s : State) (a2 : Nat) (a3 : Nat) : (State.nameChan s a2 a3).fixed = s.fixed := rfl

@[simp] theorem State.chanFor_fixed (s : State) (a2 : Nat) (a3 : List Nat) : (State.chanFor s a2 a3).2.fixed = s.fixed := by
  simp only [State.chanFor]
  repeat' first
    | rfl
    | (rename_i h; obtain ⟨_, rfl⟩ := Prod.ext_iff.mp h)
    | split
    | refine foldl_fixed _ (fun _ _ => ?_) _ _
    | refine Eq.trans (foldl_fixed _ (fun _ _ => ?_) _ _) ?_
    | simp

@[simp] theorem State.beginSend_fixed (s : State) (m : Move) : (s.beginSend m).fixed = s.fixed := by
  have cf := State.chanFor_fixed s m.dst [1, 2, 5]
  simp only [State.beginSend]
  split
  · next h => rw [h] at cf; simpa using cf
  · next ch t h =>
    rw [h] at cf
    simp only at cf
    split
    · simpa using cf
    · (repeat' split) <;> simp [cf]

@[simp] theorem State.txExt_fixed (s : State) (m : Move) : (s.txExt m).2.fixed = s.fixed := by
  simp only [State.txExt]
  split
  · rfl
  · split
    · rfl
    · next sp a h =>
      have hr := State.pumpRead_fixed s m sp a (16 * (b2n m.onestep + b2n m.launchF))
      generalize s.pumpRead m sp a _ = r at hr ⊢
      obtain ⟨bs, ue, t⟩ := r
      cases ue <;> exact hr

@[simp] theorem State.beginTx_fixed (s : State) (a2 : Move) : (State.beginTx s a2).fixed = s.fixed := by
  simp only [State.beginTx]
  repeat' first
    | rfl
    | (rename_i h; obtain ⟨_, rfl⟩ := Prod.ext_iff.mp h)
    | split
    | refine foldl_fixed _ (fun _ _ => ?_) _ _
    | refine Eq.trans (foldl_fixed _ (fun _ _ => ?_) _ _) ?_
    | simp

@[simp] theorem State.beginValve_fixed (s : State) (a2 : Move) (a3 : Bool) : (State.beginValve s a2 a3).fixed = s.fixed := by
  simp only [State.beginValve]; (repeat' split) <;> first | rfl | simp

@[simp] theorem State.stepToValve_fixed (s : State) (a2 : Move) (a3 : Nat) : (State.stepToValve s a2 a3).fixed = s.fixed := by
  simp only [State.stepToValve]; (repeat' split) <;> first | rfl | simp

@[simp] theorem State.stepFromValve_fixed (s : State) (a2 : Move) (a3 : Nat) : (State.stepFromValve s a2 a3).fixed = s.fixed := by
  simp only [State.stepFromValve]; (repeat' split) <;> first | rfl | simp

@[simp] theorem State.stepValve_fixed (s : State) (a2 : Move) : (State.stepValve s a2).fixed = s.fixed := by
  simp only [State.stepValve]; (repeat' split) <;> first | rfl | simp

@[simp] theorem State.imageOut_fixed (s : State) (a2 : Move) (a3 : Nat) : (State.imageOut s a2 a3).fixed = s.fixed := by
  simp only [State.imageOut]; (repeat' split) <;> first | rfl | simp

@[simp] theorem State.imageIn_fixed (s : State) (a2 : Move) (a3 : Nat) : (State.imageIn s a2 a3).fixed = s.fixed := by
  simp [State.imageIn]

@[simp] theorem State.imageGo_fixed (s : State) (a2 : Move) : (State.imageGo s a2).fixed = s.fixed := by
  simp [State.imageGo]

@[simp] theorem State.beginImage_fixed (s : State) (a2 : Move) : (State.beginImage s a2).fixed = s.fixed := by
  simp only [State.beginImage]
  repeat' first
    | rfl
    | (rename_i h; obtain ⟨_, rfl⟩ := Prod.ext_iff.mp h)
    | split
    | refine foldl_fixed _ (fun _ _ => ?_) _ _
    | refine Eq.trans (foldl_fixed _ (fun _ _ => ?_) _ _) ?_
    | simp

@[simp] theorem State.takeGive_fixed (s : State) (a2 : Move) (a3 : Nat) (a4 : Nat) (a5 : Nat) : (State.takeGive s a2 a3 a4 a5).fixed = s.fixed := by
  simp [State.takeGive]

@[simp] theorem State.beginTake_fixed (s : State) (m : Move) : (s.beginTake m).fixed = s.fixed := by
  have pop : ∀ (s t : State) (i b : Nat), s.blPop i = some (b, t) → t.fixed = s.fixed := by
    intro s t i b h
    simp only [State.blPop] at h
    split at h
    · cases h
    · simp only [Option.some.injEq, Prod.mk.injEq] at h
      rw [← h.2]; simp
  have cf := State.chanFor_fixed s m.src [2]
  unfold State.beginTake
  split
  · next h => rw [h] at cf; simpa using cf
  · next h =>
    rw [h] at cf
    split
    · simpa using cf
    · split
      · simpa using cf
      · next h2 =>
        have := pop _ _ _ _ h2
        split <;> simp_all

@[simp] theorem State.beginEvent_fixed (s : State) (a2 : Move) : (State.beginEvent s a2).fixed = s.fixed := by
  simp only [State.beginEvent]
  repeat' first
    | rfl
    | (rename_i h; obtain ⟨_, rfl⟩ := Prod.ext_iff.mp h)
    | split
    | refine foldl_fixed _ (fun _ _ => ?_) _ _
    | refine Eq.trans (foldl_fixed _ (fun _ _ => ?_) _ _) ?_
    | simp

@[simp] theorem State.moveBegin_fixed (s : State) (a2 : Move) : (State.moveBegin s a2).fixed = s.fixed := by
  simp only [State.moveBegin]; (repeat' split) <;> first | rfl | simp

@[simp] theorem State.pumpAccept_fixed (s : State) (q : Nat) : (s.pumpAccept q).fixed = s.fixed := by
  unfold State.pumpAccept
  apply foldl_fixed
  intro s lb
  dsimp only
  split <;> simp

@[simp] theorem State.copyWord_fixed (s : State) (m : Move) : (s.copyWord m).1.fixed = s.fixed := by
  simp [State.copyWord]

@[simp] theorem State.copyWords_fixed (s : State) (m : Move) (k : Nat) : (s.copyWords m k).1.fixed = s.fixed := by
  induction k generalizing s m with
  | zero => rfl
  | succ k ih =>
    unfold State.copyWords
    split
    · rfl
    · exact (ih _ _).trans (State.copyWord_fixed s m)

@[simp] theorem State.stepCopy_fixed (s : State) (a2 : Move) : (State.stepCopy s a2).fixed = s.fixed := by
  simp [State.stepCopy]

@[simp] theorem State.spillStop_fixed (s : State) : (State.spillStop s).fixed = s.fixed := by
  simp [State.spillStop]

@[simp] theorem State.pumpStroke_fixed (s : State) (a2 : Nat) : (State.pumpStroke s a2).fixed = s.fixed := by
  simp [State.pumpStroke]

@[simp] theorem State.modPumpLb_fixed (s : State) (a2 : Nat) (a3 : PumpLb → PumpLb) : (State.modPumpLb s a2 a3).fixed = s.fixed := rfl

@[simp] theorem State.complRecord_fixed (s : State) (a2 : Move) : (State.complRecord s a2).fixed = s.fixed := by
  simp [State.complRecord]

@[simp] theorem State.moveEnd_fixed (s : State) (a2 : Move) : (State.moveEnd s a2).fixed = s.fixed := by
  unfold State.moveEnd; (repeat' split) <;> first | rfl | simp

@[simp] theorem execMoveComplete_fixed (k : Fin 512) (s : State) : Keeps s (execMoveComplete k s) := by
  have cr : ∀ m, (s.copyRun m).1.fixed = s.fixed := by
    intro m
    simp [State.copyRun]
  simp only [execMoveComplete]
  (repeat' split) <;> simp [cr]

@[simp] theorem execLaunch_fixed (a1 : Fin 512) (s : State) : Keeps s (execLaunch a1 s) := by
  simp only [execLaunch]; (repeat' split) <;> first | rfl | simp

@[simp] theorem State.moveHostEnd_fixed (s : State) (a2 : Move) : (State.moveHostEnd s a2).fixed = s.fixed := by
  simp [State.moveHostEnd]

@[simp] theorem State.refillEnd_fixed (s : State) (a2 : Move) : (State.refillEnd s a2).fixed = s.fixed := by
  simp [State.refillEnd]

@[simp] theorem execPumpTrigger_fixed (a1 : Fin 8) (a2 : Fin 8) (s : State) : Keeps s (execPumpTrigger a1 a2 s) := by
  simp only [execPumpTrigger, keeps_act]
  intro _
  (repeat' split) <;> simp

@[simp] theorem execSpillVisit_fixed (a1 : Fin 16384) (s : State) : Keeps s (execSpillVisit a1 s) := by
  have pop : ∀ (u : State) v, u.dcPop = some v → v.2.fixed = u.fixed := by
    intro u v h
    unfold State.dcPop at h
    split at h
    · cases h; simp
    · split at h
      · cases h; simp
      · cases h
  have start : (if s.pump.spilling = true then s else (s.modPump fun p => { p with spilling := true }).pumpAlarm 1).fixed
      = s.fixed := by split <;> simp
  simp only [execSpillVisit]
  split
  · simp only [keeps_act]
    intro _
    split
    · simp [start]
    · next h =>
      have h := pop _ _ h
      split <;> simp_all
  · simp

@[simp] theorem State.spillEnd_fixed (s : State) (a2 : Spill) : (State.spillEnd s a2).fixed = s.fixed := by
  simp [State.spillEnd]

@[simp] theorem execRefill_fixed (s : State) : Keeps s (execRefill s) := by
  simp only [execRefill]
  split
  · simp
  · split
    · simp
    · next h => have := State.allocBuf_fixed _ _ _ _ h; simpa using this

@[simp] theorem State.pumpCfgErr_fixed (s : State) : (State.pumpCfgErr s).fixed = s.fixed := rfl

@[simp] theorem State.depthWrite_fixed (s : State) (a2 : Nat) (a3 : Nat) : (State.depthWrite s a2 a3).fixed = s.fixed := by
  simp [State.depthWrite]

@[simp] theorem State.pmpCtrlWrite_fixed (s : State) (a2 : Nat) : (State.pmpCtrlWrite s a2).fixed = s.fixed := by
  simp [State.pmpCtrlWrite]

@[simp] theorem State.crHeadWrite_fixed (s : State) (a2 : Nat) (a3 : Nat) : (State.crHeadWrite s a2 a3).fixed = s.fixed := by
  simp [State.crHeadWrite]

@[simp] theorem State.rxHeadWrite_fixed (s : State) (a2 : Nat) (a3 : Nat) : (State.rxHeadWrite s a2 a3).fixed = s.fixed := by
  simp [State.rxHeadWrite]

@[simp] theorem State.pmpWrite_fixed (s : State) (a2 : Nat) (a3 : Nat) : (State.pmpWrite s a2 a3).fixed = s.fixed := by
  simp [State.pmpWrite]

@[simp] theorem execDcEnable_fixed (a1 : Word) (s : State) : Keeps s (execDcEnable a1 s) := by
  simp [execDcEnable]

@[simp] theorem execDcReady_fixed (s : State) : Keeps s (execDcReady s) := by
  simp [execDcReady]

@[simp] theorem execCrHeadWrite_fixed (a1 : Fin 8) (a2 : Word) (s : State) : Keeps s (execCrHeadWrite a1 a2 s) := by
  simp [execCrHeadWrite]

@[simp] theorem execQdepthWrite_fixed (a1 : Fin 24) (a2 : Word) (s : State) : Keeps s (execQdepthWrite a1 a2 s) := by
  simp [execQdepthWrite]

end Sys2Proof.Machine
end

