-- ==== Sys2Proof/Laws/FrameHost.lean ====
section
/-!
SUPPORT. What the ports and the host rings leave alone.  Each lemma says that one definition keeps `State.fixed`.
-/

namespace Sys2Proof.Machine

@[simp] theorem State.portCount_fixed (s : State) (a2 : Nat) (a3 : Nat) (a4 : Nat) : (State.portCount s a2 a3 a4).fixed = s.fixed := rfl

@[simp] theorem State.portCfgErr_fixed (s : State) (a2 : Nat) : (State.portCfgErr s a2).fixed = s.fixed := rfl

@[simp] theorem State.dupAdd_fixed (s : State) (a2 : Nat) (a3 : Nat) (a4 : Bool) : (State.dupAdd s a2 a3 a4).fixed = s.fixed := by
  simp [State.dupAdd]

@[simp] theorem State.dupConfirm_fixed (s : State) (a2 : Nat) (a3 : Nat) : (State.dupConfirm s a2 a3).fixed = s.fixed := by
  simp [State.dupConfirm]

@[simp] theorem State.dupRemove_fixed (s : State) (a2 : Nat) (a3 : Nat) : (State.dupRemove s a2 a3).fixed = s.fixed := rfl

@[simp] theorem State.afterEdges_fixed (s : State) (a2 : Nat) : (State.afterEdges s a2).fixed = s.fixed := rfl

@[simp] theorem State.editCount_fixed (s : State) (n : Nat) (e : Option (Nat × List Nat)) :
    (s.editCount n e).fixed = s.fixed := by
  cases e <;> simp [State.editCount]

@[simp] theorem State.bypassDrive_fixed (s : State) (a2 : Nat) (a3 : Nat) (a4 : List Nat × Option Nat) (a5 : Bool) : (State.bypassDrive s a2 a3 a4 a5).fixed = s.fixed := rfl

@[simp] theorem State.fwdSend_fixed (s : State) (n m : Nat) (f : RxFrame) (i : RxInfo) (ti ei : Nat) (fw : Fwd) :
    (s.fwdSend n m f i ti ei fw).fixed = s.fixed := by
  cases fw <;> simp [State.fwdSend]

@[simp] theorem State.rxStore_fixed (s : State) (a2 : Nat) (a3 : RxFrame) (a4 : RxInfo) (a5 : List Nat) (a6 : Nat) (a7 : Nat) (a8 : Nat) (a9 : Bool) (a10 : Bool) (a11 : Bool) (a12 : Bool) : (State.rxStore s a2 a3 a4 a5 a6 a7 a8 a9 a10 a11 a12).fixed = s.fixed := by
  simp [State.rxStore]

@[simp] theorem State.hsrNote_fixed (s : State) (n low : Nat) (k : Option Nat) (hit co : Bool) :
    (s.hsrNote n low k hit co).fixed = s.fixed := by
  cases k <;> simp [State.hsrNote]

@[simp] theorem State.keyNote_fixed (s : State) (low : Nat) (k : Option Nat) (ok : Bool) :
    (s.keyNote low k ok).fixed = s.fixed := by
  cases k <;> simp [State.keyNote]

@[simp] theorem State.unreserve_fixed (s : State) (n : Nat) : (s.unreserve n).fixed = s.fixed := by
  unfold State.unreserve
  split <;> simp

@[simp] theorem State.holdLocal_fixed (s : State) (a2 : Nat) (a3 : Nat) : (State.holdLocal s a2 a3).fixed = s.fixed := by
  simp [State.holdLocal]

theorem State.rxCells_fixed (s : State) (p n : Nat) : (s.rxCells p n).2.fixed = s.fixed := by
  unfold State.rxCells
  split
  · dsimp only
    split <;> rfl
  · dsimp only
    split
    · next h => simpa using State.takeCells_fixed _ _ _ h
    · simp

@[simp] theorem State.rxFrame_fixed (s : State) (n : Nat) (f : RxFrame) : (s.rxFrame n f).fixed = s.fixed := by
  unfold State.rxFrame
  extract_lets bs i ti ei s1 s2 pair m low kind hsr co hit fw s3 made key key2 defer
  have h3 : s3.fixed = s.fixed := by simp [s3, s2, s1]
  clear_value s3
  generalize s3.deferWhy n m fw = w
  obtain ⟨guarded, paused⟩ := w
  dsimp -zeta only
  extract_lets s4 s4b s5 s6 dup fate s7 s8 s9 s10 status own t1 t2 t3 t4 t5
  have h6 : s6.fixed = s.fixed := by simp only [s6, s5, s4b, s4]; cases guarded <;> cases paused <;> simp [h3]
  clear_value s6
  have h10 : s10.fixed = s.fixed := by simp [s10, s9, s8, s7, h6]
  clear_value s10
  have cnt : ∀ (l : List Nat) (u : State), (l.foldl (fun s k => s.portCount n k 1) u).fixed = u.fixed := fun l u =>
    foldl_fixed _ (fun s k => by simp) l u
  have hr := (State.rxCells_fixed s10 n (min i.len 16000)).trans h10
  split
  · simp [h10]
  · split
    · simp [t1, cnt, hr]
    · simp [t5, t4, t3, t2, cnt, hr]

@[simp] theorem execRxFrame_fixed (a1 : Fin 32) (a2 : RxFrame) (s : State) : Keeps s (execRxFrame a1 a2 s) := by
  simp [execRxFrame]

@[simp] theorem State.recordSink_fixed (s : State) (a2 : FrameEnd) : (State.recordSink s a2).fixed = s.fixed := by
  simp [State.recordSink]

@[simp] theorem State.recordWrite_fixed (s : State) (a2 : Nat) (a3 : FrameEnd) : (State.recordWrite s a2 a3).fixed = s.fixed := by
  simp [State.recordWrite]

@[simp] theorem State.deferQueue_fixed (s : State) (a2 : Nat) (a3 : Nat) (a4 : FrameEnd) : (State.deferQueue s a2 a3 a4).fixed = s.fixed := rfl

@[simp] theorem execFrameRecord_fixed (a1 : Fin 32) (s : State) : Keeps s (execFrameRecord a1 s) := by
  simp only [execFrameRecord]; (repeat' split) <;> first | rfl | simp

@[simp] theorem execCellReserve_fixed (n : Fin 32) (s : State) : Keeps s (execCellReserve n s) := by
  unfold execCellReserve
  split
  · split
    · simp
    · next h => simpa using State.takeCell_fixed _ _ h
  · simp

@[simp] theorem execPauseTimer_fixed (a1 : Fin 32) (s : State) : Keeps s (execPauseTimer a1 s) := by
  simp [execPauseTimer]

@[simp] theorem State.countHeld_fixed (s : State) (a2 : Nat) (a3 : Hold) (a4 : TxItem) : (State.countHeld s a2 a3 a4).fixed = s.fixed := by
  simp only [State.countHeld]; (repeat' split) <;> first | rfl | simp

@[simp] theorem State.txEnd_fixed (s : State) (a2 : Nat) (a3 : TxItem) (a4 : Nat) (a5 : Nat) (a6 : Bool) (a7 : Option (Nat × Nat)) (a8 : Bool) (a9 : Nat) : (State.txEnd s a2 a3 a4 a5 a6 a7 a8 a9).fixed = s.fixed := by
  simp only [State.txEnd]; (repeat' split) <;> first | rfl | simp

@[simp] theorem State.txCheck_fixed (s : State) (h b : Nat) (ch : Option Nat) (skip : Bool) :
    (s.txCheck h b ch skip).2.fixed = s.fixed := by
  unfold State.txCheck
  split <;> simp

@[simp] theorem State.txNote_fixed (s : State) (n : Nat) (i : TxItem) (d : List Nat) :
    (s.txNote n i d).fixed = s.fixed := by
  unfold State.txNote
  split <;> simp

@[simp] theorem State.txStamp_fixed (s : State) (n : Nat) (a : Bool) (v : Nat) :
    (s.txStamp n a v).2.2.fixed = s.fixed := by
  cases a <;> simp [State.txStamp]

@[simp] theorem State.txSend_fixed (s : State) (n : Nat) (i : TxItem) (tap : Nat) (u : Option Nat) :
    (s.txSend n i tap u).fixed = s.fixed := by
  simp [State.txSend]

theorem State.txPick_fixed (s : State) (n : Nat) (l : List (Nat × TxItem)) : (s.txPick n l).2.fixed = s.fixed := by
  induction l generalizing s with
  | nil => rfl
  | cons p l ih =>
    unfold State.txPick
    dsimp only
    split
    · rfl
    · rw [ih]; simp

@[simp] theorem execTxFrame_fixed (n : Fin 32) (tap : Fin 256) (u : Option Nat) (s : State) :
    Keeps s (execTxFrame n tap u s) := by
  have hp := State.txPick_fixed s n (s.txHeads n)
  unfold execTxFrame
  split
  · generalize s.txPick n (s.txHeads n) = r at hp
    obtain ⟨o, t⟩ := r
    simp only at hp
    cases o with
    | none => simp [hp]
    | some p => 
      simp only [keeps_next]
      (repeat' split) <;> simp [hp]
  · simp

@[simp] theorem execTxFrameDone_fixed (a1 : Fin 32) (s : State) : Keeps s (execTxFrameDone a1 s) := by
  simp only [execTxFrameDone]; (repeat' split) <;> first | rfl | simp

@[simp] theorem execGateEntry_fixed (n : Fin 32) (s : State) : Keeps s (execGateEntry n s) := by
  unfold execGateEntry
  extract_lets p
  generalize s.gateSelect n p.gateWords (s.groupTime n) = g
  clear_value p
  cases g with
  | none => simp only; split <;> simp
  | some g =>
    obtain ⟨k, i, e⟩ := g
    simp only
    split
    · simp
    · split <;> simp

@[simp] theorem State.gateCtrlWrite_fixed (s : State) (a2 : Nat) (a3 : Nat) : (State.gateCtrlWrite s a2 a3).fixed = s.fixed := rfl

@[simp] theorem execGateCtrlWrite_fixed (a1 : Fin 32) (a2 : Word) (s : State) : Keeps s (execGateCtrlWrite a1 a2 s) := by
  simp [execGateCtrlWrite]

@[simp] theorem execGateCtrlApply_fixed (a1 : Fin 32) (s : State) : Keeps s (execGateCtrlApply a1 s) := by
  simp [execGateCtrlApply]

@[simp] theorem State.pairRateCheck_fixed (s : State) (a2 : Nat) : (State.pairRateCheck s a2).fixed = s.fixed := by
  simp [State.pairRateCheck]

@[simp] theorem State.portModeWrite_fixed (s : State) (a2 : Nat) (a3 : Nat) : (State.portModeWrite s a2 a3).fixed = s.fixed := by
  simp [State.portModeWrite]

@[simp] theorem execPortModeWrite_fixed (a1 : Fin 32) (a2 : Word) (s : State) : Keeps s (execPortModeWrite a1 a2 s) := by
  simp [execPortModeWrite]

@[simp] theorem State.exactWrite_fixed (s : State) (a2 : Nat) (a3 : Nat) (a4 : Nat) : (State.exactWrite s a2 a3 a4).fixed = s.fixed := rfl

@[simp] theorem execExactWrite_fixed (a1 : Fin 32) (a2 : Fin 64) (a3 : Word) (s : State) : Keeps s (execExactWrite a1 a2 a3 s) := by
  simp [execExactWrite]

@[simp] theorem execDupAgeOut_fixed (a1 : Fin 32) (s : State) : Keeps s (execDupAgeOut a1 s) := by
  simp only [execDupAgeOut]; (repeat' split) <;> first | rfl | simp

@[simp] theorem State.dupCfgWrite_fixed (s : State) (a2 : Nat) (a3 : Nat) : (State.dupCfgWrite s a2 a3).fixed = s.fixed := by
  simp [State.dupCfgWrite]

@[simp] theorem execFlush_fixed (a1 : Fin 32) (a2 : Word) (s : State) : Keeps s (execFlush a1 a2 s) := by
  simp [execFlush]

@[simp] theorem State.cntCtrlWrite_fixed (s : State) (a2 : Nat) (a3 : Nat) : (State.cntCtrlWrite s a2 a3).fixed = s.fixed := by
  simp [State.cntCtrlWrite]

@[simp] theorem execClear_fixed (a1 : Fin 32) (a2 : Word) (s : State) : Keeps s (execClear a1 a2 s) := by
  simp [execClear]

@[simp] theorem State.portWrite_fixed (s : State) (a2 : Nat) (a3 : Nat) (a4 : Nat) : (State.portWrite s a2 a3 a4).fixed = s.fixed := by
  simp only [State.portWrite]
  repeat' first
    | rfl
    | (rename_i h; obtain ⟨_, rfl⟩ := Prod.ext_iff.mp h)
    | split
    | refine foldl_fixed _ (fun _ _ => ?_) _ _
    | refine Eq.trans (foldl_fixed _ (fun _ _ => ?_) _ _) ?_
    | simp

@[simp] theorem State.issuePoll_fixed (s : State) (a2 : Nat) : (State.issuePoll s a2).fixed = s.fixed := rfl

@[simp] theorem execPoll_fixed (a1 : Fin 8) (s : State) : Keeps s (execPoll a1 s) := by
  simp [execPoll]

@[simp] theorem State.irqCheck_fixed (s : State) (a2 : Nat) : (State.irqCheck s a2).fixed = s.fixed := by
  simp only [State.irqCheck]; (repeat' split) <;> first | rfl | simp

@[simp] theorem State.pollBack_fixed (s : State) (a2 : Nat) (a3 : Nat) (a4 : List Nat) : (State.pollBack s a2 a3 a4).fixed = s.fixed := by
  simp [State.pollBack]

@[simp] theorem execPollReturn_fixed (a1 : Fin 8) (a2 : Fin 4) (a3 : List Byte) (s : State) : Keeps s (execPollReturn a1 a2 a3 s) := by
  simp only [execPollReturn]; (repeat' split) <;> first | rfl | simp

@[simp] theorem execDbHint_fixed (s : State) : Keeps s (execDbHint s) := by
  simp [execDbHint]

@[simp] theorem execSubmissionFetch_fixed (a1 : Fin 64) (s : State) : Keeps s (execSubmissionFetch a1 s) := by
  simp [execSubmissionFetch]

@[simp] theorem State.fetchBack_fixed (s : State) (r a n g e : Nat) (d : List Nat) :
    (s.fetchBack r a n g e d).fixed = s.fixed := by
  unfold State.fetchBack
  extract_lets s1 word subs s2
  have h2 : s2.fixed = s.fixed := by simp [s2, s1]
  have h1 : s1.fixed = s.fixed := by simp [s1]
  clear_value s1 s2
  split
  · rfl
  · split
    · exact h1
    · split
      · simp [h1]
      · split
        · rw [foldl_fixed, h2]
          intro u q; simp
        · simp [h2]

@[simp] theorem State.popSub_fixed (s : State) (a2 : Sub) : (State.popSub s a2).fixed = s.fixed := rfl

@[simp] theorem State.subFail_fixed (s : State) (a2 : Sub) (a3 : Nat) : (State.subFail s a2 a3).fixed = s.fixed := by
  simp [State.subFail]

@[simp] theorem State.subChan_fixed (s : State) (a2 : Sub) : (State.subChan s a2).2.fixed = s.fixed := by
  simp only [State.subChan]
  repeat' first
    | rfl
    | (rename_i h; obtain ⟨_, rfl⟩ := Prod.ext_iff.mp h)
    | split
    | refine foldl_fixed _ (fun _ _ => ?_) _ _
    | refine Eq.trans (foldl_fixed _ (fun _ _ => ?_) _ _) ?_
    | simp

@[simp] theorem State.sendStart_fixed (s : State) (q : Machine.Sub) : (s.sendStart q).fixed = s.fixed := by
  have hc := State.subChan_fixed s q
  unfold State.sendStart
  split
  · next h => rw [h] at hc; simpa using hc
  · next i t h =>
    rw [h] at hc
    simp only at hc
    simp only
    split
    · simpa using hc
    · split
      · simpa using hc
      · split
        · simpa using hc
        · split
          · next h1 _ => simp [State.allocBuf_fixed _ _ _ _ h1, hc]
          · simpa using hc

@[simp] theorem State.sendEnd_fixed (s : State) (a2 : HMove) (a3 : Nat) (a4 : Bool) (a5 : Nat) : (State.sendEnd s a2 a3 a4 a5).fixed = s.fixed := by
  simp [State.sendEnd]

@[simp] theorem State.sendAct_fixed (s : State) (a2 : HMove) : (State.sendAct s a2).fixed = s.fixed := by
  simp [State.sendAct]

@[simp] theorem execSend_fixed (a1 : Fin 64) (s : State) : Keeps s (execSend a1 s) := by
  simp only [execSend]; (repeat' split) <;> first | rfl | simp

@[simp] theorem State.postStart_fixed (s : State) (q : Machine.Sub) : (s.postStart q).fixed = s.fixed := by
  have hc := State.subChan_fixed s q
  unfold State.postStart
  split
  · next h => rw [h] at hc; simpa using hc
  · next i t h =>
    rw [h] at hc
    simp only at hc
    simp only
    split
    · simpa using hc
    · split
      · next h1 => 
        have := State.blPop_fixed _ _ _ h1
        simp_all
      · simpa using hc

@[simp] theorem execRxPost_fixed (a1 : Fin 64) (s : State) : Keeps s (execRxPost a1 s) := by
  simp only [execRxPost]; (repeat' split) <;> first | rfl | simp

@[simp] theorem execBadSubmission_fixed (a1 : Fin 64) (s : State) : Keeps s (execBadSubmission a1 s) := by
  simp only [execBadSubmission]; (repeat' split) <;> first | rfl | simp

@[simp] theorem State.postObj_fixed (s : State) (a2 : Bool × Nat) (a3 : Nat) (a4 : Nat) (a5 : Nat) (a6 : Nat) (a7 : Nat) (a8 : Bool) (a9 : Option Nat) (a10 : Bool) : (State.postObj s a2 a3 a4 a5 a6 a7 a8 a9 a10).fixed = s.fixed := by
  simp [State.postObj]

@[simp] theorem State.modRec_fixed (s : State) (a2 : Nat) (a3 : HRec → HRec) : (State.modRec s a2 a3).fixed = s.fixed := rfl

@[simp] theorem State.dropRec_fixed (s : State) (a2 : Nat) : (State.dropRec s a2).fixed = s.fixed := rfl

@[simp] theorem execCompletionWrite_fixed (a1 : Fin 64) (s : State) : Keeps s (execCompletionWrite a1 s) := by
  simp only [execCompletionWrite]; (repeat' split) <;> first | rfl | simp

@[simp] theorem execCoalesceTimeout_fixed (a1 : Fin 64) (s : State) : Keeps s (execCoalesceTimeout a1 s) := by
  simp [execCoalesceTimeout]

@[simp] theorem State.modCmd_fixed (s : State) (a2 : Nat) (a3 : HCmd → HCmd) : (State.modCmd s a2 a3).fixed = s.fixed := rfl

@[simp] theorem State.dropCmdId_fixed (s : State) (a2 : Nat) : (State.dropCmdId s a2).fixed = s.fixed := rfl

@[simp] theorem State.cmdRecord_fixed (s : State) (a2 : HCmd) (a3 : Nat) (a4 : Nat) (a5 : Nat) (a6 : Option (Bool × Nat)) (a7 : Option Nat) : (State.cmdRecord s a2 a3 a4 a5 a6 a7).fixed = s.fixed := by
  simp only [State.cmdRecord]; (repeat' split) <;> first | rfl | simp

@[simp] theorem State.nopSettle_fixed (s : State) (r n : Nat) : (s.nopSettle r n).fixed = s.fixed := by
  induction n generalizing s with
  | zero => rfl
  | succ n ih =>
    unfold State.nopSettle
    split
    · rfl
    · rw [ih]; simp

@[simp] theorem State.cmdDone_fixed (s : State) (a2 : HCmd) (a3 : Nat) (a4 : Nat) (a5 : Nat) (a6 : Option (Bool × Nat)) : (State.cmdDone s a2 a3 a4 a5 a6).fixed = s.fixed := by
  simp [State.cmdDone]

@[simp] theorem State.cpTake_fixed (s : State) (a2 : Nat) : (State.cpTake s a2).fixed = s.fixed := rfl

@[simp] theorem State.runCmd_fixed (s : State) (p op : Nat) (masks : List Nat) (right : Bool) (f : HCmd → State → State)
    (hf : ∀ c t, (f c t).fixed = t.fixed) : Keeps s (s.runCmd p op masks right f) := by
  unfold State.runCmd
  split
  · simp
  · rw [keeps_act]
    intro _
    dsimp only
    (repeat' split) <;> simp [hf]

@[simp] theorem State.runLock_fixed (s : State) (p op : Nat) (masks : List Nat) (right : Bool) (f : HCmd → State → State)
    (hf : ∀ c t, (f c t).fixed = t.fixed) : Keeps s (s.runLock p op masks right f) := by
  unfold State.runLock
  split
  · simp
  · apply State.runCmd_fixed
    intro c t
    rw [hf]
    rfl

@[simp] theorem execCmdNop_fixed (p : Fin 8) (s : State) : Keeps s (execCmdNop p s) := by
  apply State.runCmd_fixed
  intro c s; simp

@[simp] theorem execChCreate_fixed (p : Fin 8) (s : State) : Keeps s (execChCreate p s) := by
  apply State.runCmd_fixed
  intro c s; simp only; (repeat' split) <;> simp

@[simp] theorem State.cmdChan_fixed (s : State) (a2 : HCmd) : (State.cmdChan s a2).2.fixed = s.fixed := by
  simp only [State.cmdChan]
  repeat' first
    | rfl
    | (rename_i h; obtain ⟨_, rfl⟩ := Prod.ext_iff.mp h)
    | split
    | refine foldl_fixed _ (fun _ _ => ?_) _ _
    | refine Eq.trans (foldl_fixed _ (fun _ _ => ?_) _ _) ?_
    | simp

@[simp] theorem execChModify_fixed (p : Fin 8) (s : State) : Keeps s (execChModify p s) := by
  apply State.runCmd_fixed
  intro c s
  have hc := State.cmdChan_fixed s c
  simp only
  (repeat' split) <;> simp_all

@[simp] theorem execChDestroy_fixed (p : Fin 8) (s : State) : Keeps s (execChDestroy p s) := by
  apply State.runCmd_fixed
  intro c s
  have hc := State.cmdChan_fixed s c
  simp only
  (repeat' split) <;> simp_all

@[simp] theorem State.setObj_fixed (s : State) (a2 : Bool × Nat) (a3 : Nat) : (State.setObj s a2 a3).fixed = s.fixed := by
  simp [State.setObj]

@[simp] theorem State.noteEnable_fixed (s : State) (a2 : Bool × Nat) : (State.noteEnable s a2).fixed = s.fixed := by
  simp [State.noteEnable]

@[simp] theorem State.holdCmd_fixed (s : State) (a2 : HCmd) (a3 : HHeld) (a4 : Nat) : (State.holdCmd s a2 a3 a4).fixed = s.fixed := rfl

@[simp] theorem State.endHeld_fixed (s : State) (a2 : Bool × Nat) (a3 : Bool) (a4 : Nat) : (State.endHeld s a2 a3 a4).fixed = s.fixed := by
  simp [State.endHeld]

@[simp] theorem State.freeBacklog_fixed (s : State) (i n : Nat) : (s.freeBacklog i n).2.fixed = s.fixed := by
  induction n generalizing s with
  | zero => rfl
  | succ n ih =>
    unfold State.freeBacklog
    split
    · rfl
    · next h => simp [ih, State.blPop_fixed _ _ _ h]

@[simp] theorem State.chanDrain_fixed (s : State) (a2 : Nat) : (State.chanDrain s a2).2.fixed = s.fixed := by
  simp [State.chanDrain]

@[simp] theorem State.dropQueued_fixed (s : State) (a2 : Nat) (a3 : TxItem) : (State.dropQueued s a2 a3).fixed = s.fixed := by
  simp only [State.dropQueued]; (repeat' split) <;> first | rfl | simp

@[simp] theorem State.portFlush_fixed (s : State) (a2 : Nat) : (State.portFlush s a2).fixed = s.fixed := by
  simp [State.portFlush]

@[simp] theorem State.enterDrain_fixed (s : State) (a2 : Bool × Nat) : (State.enterDrain s a2).2.fixed = s.fixed := by
  simp [State.enterDrain]

@[simp] theorem State.enableObj_fixed (s : State) (a2 : HCmd) (a3 : Bool × Nat) : (State.enableObj s a2 a3).fixed = s.fixed := by
  simp only [State.enableObj]; (repeat' split) <;> first | rfl | simp

@[simp] theorem State.disableObj_fixed (s : State) (a2 : HCmd) (a3 : Bool × Nat) : (State.disableObj s a2 a3).fixed = s.fixed := by
  simp only [State.disableObj]; (repeat' split) <;> first | rfl | simp

@[simp] theorem execChEnable_fixed (p : Fin 8) (s : State) : Keeps s (execChEnable p s) := by
  apply State.runCmd_fixed
  intro c s
  have hc := State.cmdChan_fixed s c
  (repeat' split) <;> simp_all

@[simp] theorem execChDisable_fixed (p : Fin 8) (s : State) : Keeps s (execChDisable p s) := by
  apply State.runCmd_fixed
  intro c s
  have hc := State.cmdChan_fixed s c
  (repeat' split) <;> simp_all

@[simp] theorem State.portCmd_fixed (s : State) (p op : Nat) (f : HCmd → Nat → State → State)
    (hf : ∀ c n t, (f c n t).fixed = t.fixed) : Keeps s (s.portCmd p op f) := by
  unfold State.portCmd
  apply State.runCmd_fixed
  intro c s
  simp only
  split <;> simp [hf]

@[simp] theorem execPortEnable_fixed (p : Fin 8) (s : State) : Keeps s (execPortEnable p s) := by
  apply State.portCmd_fixed
  intro c n s; simp

@[simp] theorem execPortDisable_fixed (p : Fin 8) (s : State) : Keeps s (execPortDisable p s) := by
  apply State.portCmd_fixed
  intro c n s; simp

@[simp] theorem execPortOn_fixed (a1 : Fin 32) (s : State) : Keeps s (execPortOn a1 s) := by
  simp [execPortOn]

@[simp] theorem execEnableTimeout_fixed (a1 : Fin 32) (s : State) : Keeps s (execEnableTimeout a1 s) := by
  simp [execEnableTimeout]

@[simp] theorem State.drainEnd_fixed (s : State) (a2 : Bool × Nat) : (State.drainEnd s a2).fixed = s.fixed := by
  simp [State.drainEnd]

@[simp] theorem execPortDrainEnd_fixed (a1 : Fin 32) (s : State) : Keeps s (execPortDrainEnd a1 s) := by
  simp [execPortDrainEnd]

@[simp] theorem execChannelOn_fixed (a1 : Fin 16384) (s : State) : Keeps s (execChannelOn a1 s) := by
  simp [execChannelOn]

@[simp] theorem State.addFreed_fixed (s : State) (a2 : Nat) (a3 : Nat) : (State.addFreed s a2 a3).fixed = s.fixed := by
  simp only [State.addFreed]; (repeat' split) <;> first | rfl | simp

@[simp] theorem execChannelDrainEnd_fixed (a1 : Fin 16384) (s : State) : Keeps s (execChannelDrainEnd a1 s) := by
  simp [execChannelDrainEnd]

@[simp] theorem execLockgAcq_fixed (p : Fin 8) (s : State) : Keeps s (execLockgAcq p s) := by
  apply State.runLock_fixed
  intro c s; simp only; (repeat' split) <;> simp

@[simp] theorem execLockgRel_fixed (p : Fin 8) (s : State) : Keeps s (execLockgRel p s) := by
  apply State.runLock_fixed
  intro c s; simp

@[simp] theorem execLockgForce_fixed (p : Fin 8) (s : State) : Keeps s (execLockgForce p s) := by
  apply State.runLock_fixed
  intro c s; simp

@[simp] theorem execLockwAcq_fixed (p : Fin 8) (s : State) : Keeps s (execLockwAcq p s) := by
  apply State.runLock_fixed
  intro c s; simp only; (repeat' split) <;> simp [State.hostLock_fixed]

@[simp] theorem execLockwRel_fixed (p : Fin 8) (s : State) : Keeps s (execLockwRel p s) := by
  apply State.runLock_fixed
  intro c s; simp only; (repeat' split) <;> simp [State.hostLock_fixed]

@[simp] theorem execUndefinedCommand_fixed (a1 : Fin 8) (s : State) : Keeps s (execUndefinedCommand a1 s) := by
  simp only [execUndefinedCommand]; (repeat' split) <;> first | rfl | simp

@[simp] theorem State.ringOff_fixed (s : State) (a2 : Nat) : (State.ringOff s a2).fixed = s.fixed := by
  simp [State.ringOff]

@[simp] theorem State.ringCfgErr_fixed (s : State) (a2 : Nat) : (State.ringCfgErr s a2).fixed = s.fixed := rfl

@[simp] theorem State.hrCfgWrite_fixed (s : State) (a2 : Nat) (a3 : Nat) : (State.hrCfgWrite s a2 a3).fixed = s.fixed := by
  simp [State.hrCfgWrite]

@[simp] theorem execRingEnable_fixed (a1 : Fin 64) (a2 : Word) (s : State) : Keeps s (execRingEnable a1 a2 s) := by
  simp [execRingEnable]

@[simp] theorem State.partReset_fixed (s : State) (a2 : Nat) : (State.partReset s a2).fixed = s.fixed := by
  simp [State.partReset]

@[simp] theorem State.hpCtrlWrite_fixed (s : State) (a2 : Nat) (a3 : Nat) : (State.hpCtrlWrite s a2 a3).fixed = s.fixed := by
  simp [State.hpCtrlWrite]

@[simp] theorem execPartitionReset_fixed (a1 : Fin 8) (a2 : Word) (s : State) : Keeps s (execPartitionReset a1 a2 s) := by
  simp [execPartitionReset]

@[simp] theorem State.hrWrite_fixed (s : State) (a2 : Nat) (a3 : Nat) : (State.hrWrite s a2 a3).fixed = s.fixed := by
  simp [State.hrWrite]

@[simp] theorem State.chWrite_fixed (s : State) (a2 : Nat) (a3 : Nat) : (State.chWrite s a2 a3).fixed = s.fixed := by
  simp [State.chWrite]

end Sys2Proof.Machine
end

