-- ==== Sys2Proof/Laws/FrameCore.lean ====
section
/-!
SUPPORT. What the wellhead, the threads and the stroke leave alone.  Each lemma says that one definition keeps `State.fixed`.
-/

namespace Sys2Proof.Machine

@[simp] theorem State.setFlags_fixed (s : State) (a2 : Nat) (a3 : List (Nat × Bool)) : (State.setFlags s a2 a3).fixed = s.fixed := by
  simp [State.setFlags]

@[simp] theorem State.landFlags_fixed (s : State) (a2 : Nat) (a3 : Nat) : (State.landFlags s a2 a3).fixed = s.fixed := by
  simp [State.landFlags]

@[simp] theorem State.modWh_fixed (s : State) (a2 : WhSt → WhSt) : (State.modWh s a2).fixed = s.fixed := rfl

@[simp] theorem State.modRot_fixed (s : State) (a2 : RotSt → RotSt) : (State.modRot s a2).fixed = s.fixed := rfl

@[simp] theorem State.coalesceUp_fixed (s : State) (a2 : Ev) : (State.coalesceUp s a2).fixed = s.fixed := rfl

@[simp] theorem State.dropLog_fixed (s : State) (a2 : Ev) : (State.dropLog s a2).fixed = s.fixed := rfl

@[simp] theorem State.dropTrace_fixed (s : State) : (State.dropTrace s).fixed = s.fixed := rfl

@[simp] theorem State.toIntake_fixed (s : State) (a2 : Ev) : (State.toIntake s a2).fixed = s.fixed := by
  simp [State.toIntake]

@[simp] theorem State.whRecord_fixed (s : State) (a2 : Nat) (a3 : Nat) (a4 : Nat) : (State.whRecord s a2 a3 a4).fixed = s.fixed := by
  simp [State.whRecord]

@[simp] theorem State.assertFault_fixed (s : State) (a2 : Nat) : (State.assertFault s a2).fixed = s.fixed := by
  simp [State.assertFault]

@[simp] theorem State.faultKey_fixed (s : State) (a2 : Nat) : (State.faultKey s a2).fixed = s.fixed := by
  simp [State.faultKey]

@[simp] theorem State.classFour_fixed (s : State) (a2 : Nat) (a3 : Nat) (a4 : Nat) (a5 : Bool) : (State.classFour s a2 a3 a4 a5).fixed = s.fixed := rfl

@[simp] theorem State.rotSettle_fixed (s : State) : (State.rotSettle s).fixed = s.fixed := by
  simp [State.rotSettle]

@[simp] theorem State.shedLb_fixed (s : State) (lb : Nat) : (s.shedLb lb).fixed = s.fixed := by
  unfold State.shedLb
  extract_lets c s1 s2 s3 s4
  have h2 : s2.fixed = s.fixed := by
    simp only [s2]
    rw [foldl_fixed]
    · simp [s1]
    · intro _ _; simp
  have h4 : s4.fixed = s.fixed := by simp [s4, s3, h2]
  clear_value s4
  simp [h4]

@[simp] theorem State.shedTo_fixed (s : State) (l : List Nat) : (s.shedTo l).fixed = s.fixed := by
  induction l generalizing s with
  | nil => rfl
  | cons a l ih =>
    unfold State.shedTo
    simp [ih]

@[simp] theorem State.degrade_fixed (s : State) : (State.degrade s).fixed = s.fixed := by
  simp [State.degrade]

@[simp] theorem State.retire_fixed (s : State) (a2 : Nat) (a3 : Nat) (a4 : Nat) : (State.retire s a2 a3 a4).fixed = s.fixed := by
  simp [State.retire]

@[simp] theorem State.noteCause_fixed (s : State) (a2 : Nat) (a3 : Nat) (a4 : Nat) : (State.noteCause s a2 a3 a4).fixed = s.fixed := rfl

@[simp] theorem State.retireAction_fixed (s : State) (a2 : Nat) (a3 : Nat) (a4 : Nat) : (State.retireAction s a2 a3 a4).fixed = s.fixed := by
  simp only [State.retireAction, State.noteCause]; (repeat' split) <;> first | rfl | simp

@[simp] theorem State.whEvent_fixed (s : State) (a2 : Ev) : (State.whEvent s a2).fixed = s.fixed := by
  simp [State.whEvent]

@[simp] theorem execWellheadEvent_fixed (a1 : Option (Fin 10 × Word)) (s : State) : Keeps s (execWellheadEvent a1 s) := by
  simp only [execWellheadEvent]; (repeat' split) <;> first | rfl | simp

@[simp] theorem execFaultClearKey_fixed (a1 : Word) (s : State) : Keeps s (execFaultClearKey a1 s) := by
  simp [execFaultClearKey]

@[simp] theorem execHalvesDisagree_fixed (s : State) : Keeps s (execHalvesDisagree s) := by
  simp [execHalvesDisagree]

@[simp] theorem State.setClk_fixed (s : State) (a2 : Nat) (a3 : ClkMon) : (State.setClk s a2 a3).fixed = s.fixed := rfl

@[simp] theorem State.clkWindow_fixed (s : State) (a2 : Nat) (a3 : Nat) : (State.clkWindow s a2 a3).fixed = s.fixed := by
  simp [State.clkWindow]

@[simp] theorem execClockWindow_fixed (l : List Nat) (s : State) : Keeps s (execClockWindow l s) := by
  unfold execClockWindow
  extract_lets s1 seen
  have h1 : s1.fixed = s.fixed := foldl_fixed _ (fun _ _ => by simp) _ _
  rw [keeps_next, ← h1]
  rfl

@[simp] theorem State.startMig_fixed (s : State) (a2 : Nat) (a3 : Nat) (a4 : Bool) : (State.startMig s a2 a3 a4).fixed = s.fixed := rfl

@[simp] theorem execRotationStep_fixed (s : State) : Keeps s (execRotationStep s) := by
  simp only [execRotationStep]; (repeat' split) <;> first | rfl | simp

@[simp] theorem State.mirrorReads_fixed (s : State) (a2 : Nat) : (State.mirrorReads s a2).fixed = s.fixed := by
  simp [State.mirrorReads]

@[simp] theorem execMirrorDone_fixed (s : State) : Keeps s (execMirrorDone s) := by
  simp only [execMirrorDone]; (repeat' split) <;> first | rfl | simp

@[simp] theorem execCutOver_fixed (s : State) : Keeps s (execCutOver s) := by
  simp only [execCutOver]; (repeat' split) <;> first | rfl | simp

@[simp] theorem State.loseResults_fixed (s : State) (lb c v : Nat) : (s.loseResults lb c v).fixed = s.fixed := by
  unfold State.loseResults
  extract_lets s1
  have h1 : s1.fixed = s.fixed := by
    apply foldl_fixed
    intro s t
    extract_lets x h lost done s2 s3
    have h3 : s3.fixed = s.fixed := by
      simp only [s3]
      rw [foldl_fixed]
      · simp [s2]
      · intro _ _; simp
    clear_value s3
    simp [h3]
  clear_value s1
  split <;> simp [h1]

@[simp] theorem execDrainEnd_fixed (s : State) : Keeps s (execDrainEnd s) := by
  simp only [execDrainEnd]; (repeat' split) <;> first | rfl | simp

@[simp] theorem execSelfTestDone_fixed (a1 : Bool) (a2 : Word) (s : State) : Keeps s (execSelfTestDone a1 a2 s) := by
  simp only [execSelfTestDone]; (repeat' split) <;> first | rfl | simp

@[simp] theorem execEmergencyMigration_fixed (a1 : Fin 10) (s : State) : Keeps s (execEmergencyMigration a1 s) := by
  simp only [execEmergencyMigration, keeps_act]
  intro _
  (repeat' split) <;> simp

@[simp] theorem State.retestWrite_fixed (s : State) (a2 : Nat) : (State.retestWrite s a2).fixed = s.fixed := by
  simp [State.retestWrite]

@[simp] theorem execRetest_fixed (a1 : Word) (s : State) : Keeps s (execRetest a1 s) := by
  simp [execRetest]

@[simp] theorem execReadmissionDone_fixed (a1 : Bool) (s : State) : Keeps s (execReadmissionDone a1 s) := by
  simp only [execReadmissionDone]; (repeat' split) <;> first | rfl | simp

@[simp] theorem execScrubRead_fixed (a1 : Mem) (a2 : Nat) (s : State) : Keeps s (execScrubRead a1 a2 s) := by
  simp only [execScrubRead]; (repeat' split) <;> first | rfl | simp

@[simp] theorem State.stageRec_fixed (s : State) (a2 : Ev) : (State.stageRec s a2).fixed = s.fixed := rfl

@[simp] theorem State.admitAlarm_fixed (s : State) (a2 : Ev) : (State.admitAlarm s a2).fixed = s.fixed := by
  simp [State.admitAlarm]

@[simp] theorem State.flush_fixed (s : State) : (State.flush s).fixed = s.fixed := by
  simp [State.flush]

@[simp] theorem execLogIntake_fixed (s : State) : Keeps s (execLogIntake s) := by
  simp only [execLogIntake]; (repeat' split) <;> first | rfl | simp

@[simp] theorem State.openIncident_fixed (s : State) : (State.openIncident s).fixed = s.fixed := by
  simp only [State.openIncident]; (repeat' split) <;> first | rfl | simp

@[simp] theorem State.writeRec_fixed (s : State) (a2 : LogRec) : (State.writeRec s a2).fixed = s.fixed := by
  simp only [State.writeRec]; (repeat' split) <;> first | rfl | simp

@[simp] theorem execLogWrite_fixed (s : State) : Keeps s (execLogWrite s) := by
  simp only [execLogWrite]; (repeat' split) <;> first | rfl | simp

@[simp] theorem execGapMove_fixed (s : State) : Keeps s (execGapMove s) := by
  simp [execGapMove]

@[simp] theorem execIncidentClose_fixed (s : State) : Keeps s (execIncidentClose s) := by
  simp only [execIncidentClose]; (repeat' split) <;> first | rfl | simp

@[simp] theorem State.logSelWrite_fixed (s : State) (a2 : Nat) : (State.logSelWrite s a2).fixed = s.fixed := rfl

@[simp] theorem execLogRead_fixed (a1 : Word) (s : State) : Keeps s (execLogRead a1 s) := by
  simp [execLogRead]

@[simp] theorem execLogReadDone_fixed (s : State) : Keeps s (execLogReadDone s) := by
  simp [execLogReadDone]

@[simp] theorem State.whWrite_fixed (s : State) (a2 : Nat) (a3 : Nat) : (State.whWrite s a2 a3).fixed = s.fixed := by
  simp [State.whWrite]

@[simp] theorem State.winIssue_fixed (s : State) (a2 : Nat) (a3 : Nat) (a4 : Nat) (a5 : Nat) (a6 : Word) : (State.winIssue s a2 a3 a4 a5 a6).fixed = s.fixed := by
  simp [State.winIssue]

@[simp] theorem State.queuePut_fixed (s : State) (a2 : Nat) (a3 : Word) : (State.queuePut s a2 a3).fixed = s.fixed := rfl

@[simp] theorem State.emit_fixed (s : State) (x pc hint : Nat) (o : Out) : (s.emit x pc hint o).fixed = s.fixed := by
  cases o <;> simp [State.emit]

@[simp] theorem State.disagree_fixed (s : State) (a2 : Nat) (a3 : Nat) : (State.disagree s a2 a3).fixed = s.fixed := rfl

@[simp] theorem State.leadRec_fixed (s : State) (a2 : Nat) (a3 : Nat) (a4 : PairRec → PairRec) : (State.leadRec s a2 a3 a4).fixed = s.fixed := rfl

@[simp] theorem State.modTrailRec_fixed (s : State) (a2 : Nat) (a3 : PairRec → PairRec) : (State.modTrailRec s a2 a3).fixed = s.fixed := rfl

@[simp] theorem State.outside_fixed (s : State) (a2 : Nat) (a3 : Nat) (a4 : Nat) : (State.outside s a2 a3 a4).2.fixed = s.fixed := by
  simp only [State.outside]; (repeat' split) <;> first | rfl | simp

@[simp] theorem State.output_fixed (s : State) (a2 : Nat) (a3 : Nat) (a4 : Nat) (a5 : Out) : (State.output s a2 a3 a4 a5).fixed = s.fixed := by
  simp only [State.output]; (repeat' split) <;> first | rfl | simp

@[simp] theorem State.portPut_fixed (s : State) (a2 : Nat) (a3 : Nat) (a4 : Nat) (a5 : Nat) (a6 : Nat) (a7 : Nat) : (State.portPut s a2 a3 a4 a5 a6 a7).fixed = s.fixed := by
  simp [State.portPut]

@[simp] theorem State.bitPut_fixed (s : State) (a2 : Nat) (a3 : Nat) (a4 : Nat) (a5 : Option Bool) : (State.bitPut s a2 a3 a4 a5).fixed = s.fixed := by
  simp [State.bitPut]

@[simp] theorem writeLoc_fixed (s : State) (a2 : Nat) (a3 : Nat) (a4 : Bool) (a5 : Loc) (a6 : Nat) (a7 : Nat) : (writeLoc s a2 a3 a4 a5 a6 a7).fixed = s.fixed := by
  simp only [writeLoc]; (repeat' split) <;> first | rfl | simp

@[simp] theorem landLoc_fixed (s : State) (a2 : Nat) (a3 : Nat) (a4 : Nat) (a5 : Loc) (a6 : Nat) (a7 : Nat) : (landLoc s a2 a3 a4 a5 a6 a7).fixed = s.fixed := by
  simp only [landLoc]; (repeat' split) <;> first | rfl | simp

@[simp] theorem advance_fixed (s : State) (a2 : Nat) (a3 : List Opnd) (a4 : List (Nat × Nat)) : (advance s a2 a3 a4).fixed = s.fixed := by
  simp [advance]

@[simp] theorem State.wheelLoWrite_fixed (s : State) (a2 : Nat) (a3 : Nat) : (State.wheelLoWrite s a2 a3).fixed = s.fixed := rfl

@[simp] theorem State.wheelHiWrite_fixed (s : State) (a2 : Nat) (a3 : Nat) : (State.wheelHiWrite s a2 a3).fixed = s.fixed := rfl

@[simp] theorem State.wheelApply_fixed (s : State) (a2 : Nat) : (State.wheelApply s a2).fixed = s.fixed := rfl

@[simp] theorem execWheelLoWrite_fixed (a1 : Fin 8) (a2 : Word) (s : State) : Keeps s (execWheelLoWrite a1 a2 s) := by
  simp [execWheelLoWrite]

@[simp] theorem execWheelHiWrite_fixed (a1 : Fin 8) (a2 : Word) (s : State) : Keeps s (execWheelHiWrite a1 a2 s) := by
  simp [execWheelHiWrite]

@[simp] theorem execWheelApply_fixed (a1 : Fin 8) (s : State) : Keeps s (execWheelApply a1 s) := by
  simp [execWheelApply]

@[simp] theorem State.spendTurn_fixed (s : State) (a2 : Nat) : (State.spendTurn s a2).fixed = s.fixed := rfl

@[simp] theorem State.fetchBytes_fixed (s : State) (a2 : Nat) (a3 : Nat) (a4 : Nat) : (State.fetchBytes s a2 a3 a4).fixed = s.fixed := by
  simp [State.fetchBytes]

@[simp] theorem State.fetchTurn_fixed (s : State) (a2 : Nat) : (State.fetchTurn s a2).fixed = s.fixed := by
  simp [State.fetchTurn]

@[simp] theorem State.fetchRest_fixed (s : State) (a2 : Nat) (a3 : Nat) : (State.fetchRest s a2 a3).fixed = s.fixed := by
  simp [State.fetchRest]

@[simp] theorem State.bankSettle_fixed (s : State) (n : Nat) : (s.bankSettle n).fixed = s.fixed := by
  unfold State.bankSettle
  split
  · rw [foldl_fixed]
    · simp
    · intro _ _; simp
  · rfl

@[simp] theorem State.cutTo_fixed (s : State) (a2 : Nat) (a3 : BitVec 18) : (State.cutTo s a2 a3).fixed = s.fixed := by
  simp [State.cutTo]

@[simp] theorem State.pairSettle_fixed (s : State) (a2 : Nat) : (State.pairSettle s a2).fixed = s.fixed := by
  simp only [State.pairSettle]; (repeat' split) <;> first | rfl | simp

@[simp] theorem State.threadReset_fixed (s : State) (a2 : Nat) : (State.threadReset s a2).fixed = s.fixed := by
  simp [State.threadReset]

@[simp] theorem State.stopped_fixed (s : State) (a2 : Nat) (a3 : Nat) : (State.stopped s a2 a3).fixed = s.fixed := rfl

@[simp] theorem State.lateCut_fixed (s : State) (a2 : Nat) : (State.lateCut s a2).fixed = s.fixed := by
  simp only [State.lateCut]; (repeat' split) <;> first | rfl | simp

@[simp] theorem State.stopAct_fixed (s : State) (x : Nat) : (s.stopAct x).fixed = s.fixed := by
  unfold State.stopAct
  extract_lets t s1 s2
  have h2 : s2.fixed = s.fixed := by simp only [s2]; split <;> simp [s1]
  clear_value s2
  simp [h2]

@[simp] theorem State.askStop_fixed (s : State) (a2 : Nat) (a3 : StopReq) : (State.askStop s a2 a3).fixed = s.fixed := rfl

@[simp] theorem State.cmdErr_fixed (s : State) (a2 : Nat) : (State.cmdErr s a2).fixed = s.fixed := rfl

@[simp] theorem State.pendStart_fixed (s : State) (a2 : Nat) (a3 : Bool) : (State.pendStart s a2 a3).fixed = s.fixed := rfl

@[simp] theorem State.startCmd_fixed (s : State) (a2 : Nat) : (State.startCmd s a2).fixed = s.fixed := by
  simp only [State.startCmd]; (repeat' split) <;> first | rfl | simp

@[simp] theorem State.cancelStart_fixed (s : State) (a2 : Nat) : (State.cancelStart s a2).fixed = s.fixed := by
  simp only [State.cancelStart]; (repeat' split) <;> first | rfl | simp

@[simp] theorem State.stopCmd_fixed (s : State) (a2 : Nat) : (State.stopCmd s a2).fixed = s.fixed := by
  simp [State.stopCmd]

@[simp] theorem State.stepCmd_fixed (s : State) (a2 : Nat) : (State.stepCmd s a2).fixed = s.fixed := by
  simp [State.stepCmd]

@[simp] theorem State.resetCmd_fixed (s : State) (a2 : Nat) : (State.resetCmd s a2).fixed = s.fixed := by
  simp [State.resetCmd]

@[simp] theorem State.threadCmd_fixed (s : State) (a2 : Nat) (a3 : Nat) : (State.threadCmd s a2 a3).fixed = s.fixed := by
  simp only [State.threadCmd]; (repeat' split) <;> first | rfl | simp

@[simp] theorem State.tctrlWrite_fixed (s : State) (a2 : Nat) (a3 : Nat) : (State.tctrlWrite s a2 a3).fixed = s.fixed := by
  simp [State.tctrlWrite]

@[simp] theorem State.threadWrite_fixed (s : State) (a2 : Nat) (a3 : Nat) (a4 : Nat) : (State.threadWrite s a2 a3 a4).fixed = s.fixed := by
  simp only [State.threadWrite]; (repeat' split) <;> first | rfl | simp

@[simp] theorem State.boreWrite_fixed (s : State) (a2 : Nat) (a3 : Nat) (a4 : Nat) : (State.boreWrite s a2 a3 a4).fixed = s.fixed := by
  simp only [State.boreWrite]; (repeat' split) <;> first | rfl | simp

@[simp] theorem execStart_fixed (a1 : Fin 128) (a2 : Word) (s : State) : Keeps s (execStart a1 a2 s) := by
  simp [execStart]

@[simp] theorem execStop_fixed (a1 : Fin 128) (a2 : Word) (s : State) : Keeps s (execStop a1 a2 s) := by
  simp [execStop]

@[simp] theorem execStep_fixed (a1 : Fin 128) (a2 : Word) (s : State) : Keeps s (execStep a1 a2 s) := by
  simp [execStep]

@[simp] theorem execReset_fixed (a1 : Fin 128) (a2 : Word) (s : State) : Keeps s (execReset a1 a2 s) := by
  simp [execReset]

@[simp] theorem State.enterRun_fixed (s : State) (a2 : Nat) : (State.enterRun s a2).fixed = s.fixed := rfl

@[simp] theorem execThreadFirstTurn_fixed (a1 : Fin 128) (s : State) : Keeps s (execThreadFirstTurn a1 s) := by
  simp [execThreadFirstTurn]

@[simp] theorem execStopAtBoundary_fixed (a1 : Fin 128) (s : State) : Keeps s (execStopAtBoundary a1 s) := by
  simp [execStopAtBoundary]

@[simp] theorem State.stepEnd_fixed (s : State) (a2 : Nat) : (State.stepEnd s a2).fixed = s.fixed := by
  simp [State.stepEnd]

@[simp] theorem execStepComplete_fixed (a1 : Fin 128) (s : State) : Keeps s (execStepComplete a1 s) := by
  simp [execStepComplete]

@[simp] theorem State.trailerStart_fixed (s : State) (a2 : Nat) : (State.trailerStart s a2).fixed = s.fixed := rfl

@[simp] theorem execTrailerStart_fixed (a1 : Fin 16) (s : State) : Keeps s (execTrailerStart a1 s) := by
  simp [execTrailerStart]

@[simp] theorem State.pairMismatch_fixed (s : State) (a2 : Nat) : (State.pairMismatch s a2).fixed = s.fixed := by
  simp [State.pairMismatch]

@[simp] theorem execPairMismatch_fixed (a1 : Fin 16) (s : State) : Keeps s (execPairMismatch a1 s) := by
  simp [execPairMismatch]

@[simp] theorem State.enterVec_fixed (s : State) (a2 : Nat) (a3 : Nat) (a4 : BitVec 18) : (State.enterVec s a2 a3 a4).fixed = s.fixed := rfl

@[simp] theorem execInterruptEntry_fixed (a1 : Fin 128) (s : State) : Keeps s (execInterruptEntry a1 s) := by
  simp only [execInterruptEntry]; (repeat' split) <;> first | rfl | simp

@[simp] theorem execExceptionEntry_fixed (a1 : Fin 128) (s : State) : Keeps s (execExceptionEntry a1 s) := by
  simp only [execExceptionEntry]; (repeat' split) <;> first | rfl | simp

@[simp] theorem State.recordFault_fixed (s : State) (a2 : Nat) (a3 : Flt) : (State.recordFault s a2 a3).fixed = s.fixed := rfl

@[simp] theorem State.threadEvent_fixed (s : State) (a2 : Nat) (a3 : Nat) (a4 : Nat) : (State.threadEvent s a2 a3 a4).fixed = s.fixed := rfl

@[simp] theorem State.ill_fixed (s : State) (a2 : Nat) (a3 : Nat) (a4 : Nat) (a5 : Nat) (a6 : Option (Nat × Nat)) (a7 : Option Nat) : (State.ill s a2 a3 a4 a5 a6 a7).fixed = s.fixed := by
  simp [State.ill]

@[simp] theorem State.crcEnd_fixed (s : State) (a2 : Nat) (a3 : Nat) (a4 : Nat) (a5 : Nat) (a6 : Nat) (a7 : Nat) (a8 : Loc) (a9 : Loc) : (State.crcEnd s a2 a3 a4 a5 a6 a7 a8 a9).fixed = s.fixed := by
  simp only [State.crcEnd]; (repeat' split) <;> first | rfl | simp

@[simp] theorem State.landLong_fixed (s : State) (a2 : Nat) (a3 : LongRes) : (State.landLong s a2 a3).fixed = s.fixed := by
  simp only [State.landLong]; (repeat' split) <;> first | rfl | simp

@[simp] theorem State.landLongs_fixed (s : State) (x n : Nat) : (s.landLongs x n).fixed = s.fixed := by
  induction n generalizing s with
  | zero => rfl
  | succ n ih =>
    unfold State.landLongs
    split
    · rw [ih]; simp
    · rfl

@[simp] theorem landIf_fixed (a1 : LongOp → Bool) (a2 : Nat) (s : State) : Keeps s (landIf a1 a2 s) := by
  simp only [landIf]; (repeat' split) <;> first | rfl | simp

@[simp] theorem execLongResult_fixed (a1 : Fin 128) (s : State) : Keeps s (execLongResult a1 s) := by
  simp [execLongResult]

@[simp] theorem execBlockCrcDone_fixed (a1 : Fin 128) (s : State) : Keeps s (execBlockCrcDone a1 s) := by
  simp [execBlockCrcDone]

@[simp] theorem execChanResult_fixed (a1 : Fin 128) (s : State) : Keeps s (execChanResult a1 s) := by
  simp [execChanResult]

@[simp] theorem State.lvRead_fixed (s : State) (a2 : Nat) (a3 : Loc) (a4 : Nat) (a5 : Nat) : (State.lvRead s a2 a3 a4 a5).2.fixed = s.fixed := by
  simp only [State.lvRead]; (repeat' split) <;> first | rfl | simp

theorem thenRead_fixed (s : State) (r : Except (Nat × Nat) Nat × State) (k : Nat → State → Except (Nat × Nat) Nat × State)
    (hr : r.2.fixed = s.fixed) (hk : ∀ a t, t.fixed = s.fixed → (k a t).2.fixed = s.fixed) :
    (thenRead r k).2.fixed = s.fixed := by
  unfold thenRead
  split
  · exact hk _ _ hr
  · exact hr

@[simp] theorem State.lvElement_fixed (s : State) (l : LvOp) (i : Nat) : (s.lvElement l i).2.fixed = s.fixed := by
  unfold State.lvElement
  extract_lets e pack
  split
  · dsimp only
    exact thenRead_fixed _ _ _ (by simp) (fun a t ht => by simp [ht])
  · split
    · dsimp only
      rw [State.lvRead_fixed, State.lvRead_fixed]
    · dsimp only
      have h2 : ∀ t : State, (if lvHasB l.op then t.lvRead l.x l.b (e * i) e else (.ok 0, t)).2.fixed = t.fixed := by
        intro t; split <;> simp
      split
      · rw [State.lvRead_fixed, h2, State.lvRead_fixed]
      · split
        · rw [State.lvRead_fixed, h2, State.lvRead_fixed]
        · exact (h2 _).trans (State.lvRead_fixed _ _ _ _ _)

@[simp] theorem State.lvElements_fixed (s : State) (l : LvOp) (is : List Nat) : (s.lvElements l is).2.fixed = s.fixed := by
  induction is generalizing s l with
  | nil => rfl
  | cons i is ih =>
    unfold State.lvElements
    exact (ih _ _).trans (State.lvElement_fixed s l i)

@[simp] theorem State.lvGroupRead_fixed (s : State) (a2 : Nat) (a3 : Nat) : (State.lvGroupRead s a2 a3).fixed = s.fixed := by
  simp only [State.lvGroupRead]; (repeat' split) <;> first | rfl | simp

@[simp] theorem State.lvFault_fixed (s : State) (a2 : Nat) (a3 : LvOp) (a4 : Nat) (a5 : Nat) (a6 : Nat) : (State.lvFault s a2 a3 a4 a5 a6).fixed = s.fixed := by
  simp [State.lvFault]

@[simp] theorem State.lvCommit_fixed (s : State) (a2 : Nat) (a3 : LvOp) : (State.lvCommit s a2 a3).fixed = s.fixed := by
  simp only [State.lvCommit]; (repeat' split) <;> first | rfl | simp

@[simp] theorem State.landLv_fixed (s : State) (a2 : Nat) : (State.landLv s a2).fixed = s.fixed := by
  simp only [State.landLv]; (repeat' split) <;> first | rfl | simp

@[simp] theorem execLvCommit_fixed (a1 : Fin 8) (s : State) : Keeps s (execLvCommit a1 s) := by
  simp only [execLvCommit]; (repeat' split) <;> first | rfl | simp

@[simp] theorem State.landBore_fixed (s : State) (a2 : Nat) : (State.landBore s a2).fixed = s.fixed := by
  simp [State.landBore]

@[simp] theorem State.setCis_fixed (s : State) (a2 : Nat) (a3 : CisAcc) : (State.setCis s a2 a3).fixed = s.fixed := rfl

@[simp] theorem State.cisEnd_fixed (s : State) (a2 : Nat) (a3 : Nat) (a4 : Bool) : (State.cisEnd s a2 a3 a4).fixed = s.fixed := by
  simp [State.cisEnd]

@[simp] theorem State.cisStore_fixed (s : State) (x : Nat) (l : Loc) (i : Nat) (bs : List Nat) :
    (s.cisStore x l i bs).2.fixed = s.fixed := by
  unfold State.cisStore
  split
  · rfl
  · split
    · simp
    · simp

@[simp] theorem State.cisLoad_fixed (s : State) (a2 : Nat) (a3 : Loc) (a4 : Nat) (a5 : Nat) : (State.cisLoad s a2 a3 a4 a5).2.2.fixed = s.fixed := by
  simp only [State.cisLoad]; (repeat' split) <;> first | rfl | simp

@[simp] theorem State.cisPart_fixed (s : State) (a2 : Nat) (a3 : CisAcc) (a4 : Nat) : (State.cisPart s a2 a3 a4).fixed = s.fixed := by
  simp [State.cisPart]

@[simp] theorem execCisternPartLand_fixed (a1 : Fin 128) (a2 : Fin 8) (s : State) : Keeps s (execCisternPartLand a1 a2 s) := by
  simp only [execCisternPartLand]; (repeat' split) <;> first | rfl | simp

@[simp] theorem State.cisFault_fixed (s : State) (a2 : Nat) (a3 : CisAcc) : (State.cisFault s a2 a3).fixed = s.fixed := by
  simp only [State.cisFault]; (repeat' split) <;> first | rfl | simp

@[simp] theorem execCisternFault_fixed (a1 : Fin 128) (a2 : Fin 8) (s : State) : Keeps s (execCisternFault a1 a2 s) := by
  simp only [execCisternFault]; (repeat' split) <;> first | rfl | simp

@[simp] theorem execEccRewrite_fixed (a1 : Mem) (a2 : Nat) (s : State) : Keeps s (execEccRewrite a1 a2 s) := by
  simp [execEccRewrite]

@[simp] theorem State.modMram_fixed (s : State) (f : MramSt → MramSt) (h1 : (f s.mram).primed = s.mram.primed)
    (h2 : (f s.mram).recovery = s.mram.recovery) : (s.modMram f).fixed = s.fixed := by
  simp only [State.modMram, State.fixed, h1, h2]

@[simp] theorem State.mramPut_fixed (s : State) (a2 : Nat) (a3 : List Nat) : (State.mramPut s a2 a3).fixed = s.fixed := by
  simp [State.mramPut]

@[simp] theorem State.recRewrite_fixed (s : State) (a2 : List Nat) : (State.recRewrite s a2).fixed = s.fixed := by
  simp [State.recRewrite]

@[simp] theorem State.commitRec_fixed (s : State) : (State.commitRec s).fixed = s.fixed := by
  simp [State.commitRec]

@[simp] theorem State.setActive_fixed (s : State) (a2 : Nat) : (State.setActive s a2).fixed = s.fixed := by
  simp [State.setActive]

@[simp] theorem State.mrWrite_fixed (s : State) (a2 : Nat) (a3 : Nat) : (State.mrWrite s a2 a3).fixed = s.fixed := by
  simp [State.mrWrite]

@[simp] theorem execCommit_fixed (a1 : Word) (s : State) : Keeps s (execCommit a1 s) := by
  simp [execCommit]

@[simp] theorem State.modDbg_fixed (s : State) (a2 : DbgSt → DbgSt) : (State.modDbg s a2).fixed = s.fixed := rfl

@[simp] theorem State.tracePop_fixed (s : State) : (State.tracePop s).fixed = s.fixed := rfl

@[simp] theorem State.dbgWrite_fixed (s : State) (a2 : Nat) (a3 : Nat) : (State.dbgWrite s a2 a3).fixed = s.fixed := by
  simp [State.dbgWrite]

@[simp] theorem execPop_fixed (a1 : Word) (s : State) : Keeps s (execPop a1 s) := by
  simp [execPop]

@[simp] theorem State.tapInstr_fixed (s : State) (a2 : Nat) : (State.tapInstr s a2).fixed = s.fixed := rfl

@[simp] theorem execIdcode_fixed (s : State) : Keeps s (execIdcode s) := by
  simp [execIdcode]

@[simp] theorem execIjtag_fixed (s : State) : Keeps s (execIjtag s) := by
  simp [execIjtag]

@[simp] theorem execBypass_fixed (s : State) : Keeps s (execBypass s) := by
  simp [execBypass]

@[simp] theorem execTrst_fixed (s : State) : Keeps s (execTrst s) := by
  simp [execTrst]

@[simp] theorem execTestModeChange_fixed (s : State) : Keeps s (execTestModeChange s) := by
  simp [execTestModeChange]

@[simp] theorem State.govWrite_fixed (s : State) (a2 : Nat) (a3 : Nat) : (State.govWrite s a2 a3).fixed = s.fixed := by
  simp only [State.govWrite]; (repeat' split) <;> first | rfl | simp

@[simp] theorem State.valveWrite_fixed (s : State) (a2 : Nat) (a3 : Nat) (a4 : Nat) : (State.valveWrite s a2 a3 a4).fixed = s.fixed := by
  simp only [State.valveWrite]; (repeat' split) <;> first | rfl | simp

@[simp] theorem State.mfWrite_fixed (s : State) (a2 : Nat) (a3 : Nat) : (State.mfWrite s a2 a3).fixed = s.fixed := by
  simp only [State.mfWrite]; (repeat' split) <;> first | rfl | simp

@[simp] theorem State.unitWrite_fixed (s : State) (a2 : Nat) (a3 : Nat) : (State.unitWrite s a2 a3).fixed = s.fixed := by
  simp [State.unitWrite]

@[simp] theorem State.regWrite_fixed (s : State) (a2 : Nat) (a3 : Nat) (a4 : Nat) : (State.regWrite s a2 a3 a4).fixed = s.fixed := by
  simp [State.regWrite]

@[simp] theorem State.winApply_fixed (s : State) (a2 : WinWrite) : (State.winApply s a2).fixed = s.fixed := by
  simp [State.winApply]

@[simp] theorem State.showNow_fixed (s : State) : (State.showNow s).fixed = s.fixed := rfl

@[simp] theorem State.showGate_fixed (s : State) (a2 : Nat) : (State.showGate s a2).fixed = s.fixed := rfl

@[simp] theorem State.winLand_fixed (s : State) (a2 : WinWrite) : (State.winLand s a2).fixed = s.fixed := by
  simp only [State.winLand]; (repeat' split) <;> first | rfl | simp

@[simp] theorem State.landWindow_fixed (s : State) (a2 : Nat) : (State.landWindow s a2).fixed = s.fixed := by
  simp [State.landWindow]

@[simp] theorem execWindowWriteArrive_fixed (a1 : Fin 13) (s : State) : Keeps s (execWindowWriteArrive a1 s) := by
  simp only [execWindowWriteArrive]; (repeat' split) <;> first | rfl | simp

@[simp] theorem State.hostWrite_fixed (s : State) (a2 : Nat) (a3 : Nat) : (State.hostWrite s a2 a3).fixed = s.fixed := by
  simp [State.hostWrite]

@[simp] theorem execRegisterWrite_fixed (a1 : Fin 1048576) (a2 : Word) (a3 : Fin 16) (a4 : Fin 64) (s : State) : Keeps s (execRegisterWrite a1 a2 a3 a4 s) := by
  simp [execRegisterWrite]

@[simp] theorem State.atTurn_fixed (s : State) (a2 : Nat) : (State.atTurn s a2).fixed = s.fixed := by
  simp [State.atTurn]

@[simp] theorem State.offerRun_fixed (s : State) (a2 : Nat) : (State.offerRun s a2).2.fixed = s.fixed := by
  simp only [State.offerRun]; (repeat' split) <;> first | rfl | simp

@[simp] theorem State.offerOwn_fixed (s : State) (a2 : Nat) (a3 : Nat) : (State.offerOwn s a2 a3).2.fixed = s.fixed := by
  simp [State.offerOwn]

@[simp] theorem State.offerDonated_fixed (s : State) (a2 : Nat) (a3 : Nat) : (State.offerDonated s a2 a3).2.fixed = s.fixed := by
  simp only [State.offerDonated]
  repeat' first
    | rfl
    | (rename_i h; obtain ⟨_, rfl⟩ := Prod.ext_iff.mp h)
    | split
    | refine foldl_fixed _ (fun _ _ => ?_) _ _
    | refine Eq.trans (foldl_fixed _ (fun _ _ => ?_) _ _) ?_
    | simp

@[simp] theorem State.grantTurn_fixed (s : State) (a2 : Nat) (a3 : Nat) (a4 : Option TurnUse) : (State.grantTurn s a2 a3 a4).fixed = s.fixed := rfl

@[simp] theorem State.search_fixed (s : State) (lb n : Nat) (l : List Nat) : (s.search lb n l).2.fixed = s.fixed := by
  induction l generalizing s with
  | nil => rfl
  | cons a l ih =>
    unfold State.search
    have h := State.offerDonated_fixed s (16 * lb + a) n
    split
    · next e => rw [e] at h; exact h
    · next e => rw [e] at h; exact h
    · next e => rw [e] at h; rw [ih]; exact h

@[simp] theorem State.selectLb_fixed (s : State) (n lb : Nat) : (s.selectLb n lb).fixed = s.fixed := by
  unfold State.selectLb
  extract_lets s1 q x
  have h1 : s1.fixed = s.fixed := by simp [s1]
  clear_value s1
  split
  · exact h1
  · have ho := State.offerOwn_fixed s1 x n
    split
    · next h => rw [h] at ho; simpa [h1] using ho
    · next h => rw [h] at ho; simpa [h1] using ho
    · next h =>
      rw [h] at ho
      extract_lets s2
      have h2 : s2.fixed = s.fixed := by simp only [s2, State.modTh_fixed]; exact ho.trans h1
      clear_value s2
      have hs := State.search_fixed s2 lb n (searchOrder (s2.lb lb).donateLast q)
      split
      · next h => rw [h] at hs; simpa [h2] using hs
      · next h => rw [h] at hs; simpa [h2] using hs

@[simp] theorem State.strokeEnd_fixed (s : State) : s.strokeEnd.fixed = s.fixed := by
  unfold State.strokeEnd
  extract_lets s1 s2 s3 s4 s5
  have h1 : s1.fixed = s.fixed := foldl_fixed _ (fun _ _ => by simp) _ _
  have h2 : s2.fixed = s.fixed := (foldl_fixed _ (fun _ _ => by simp) _ _).trans h1
  have h3 : s3.fixed = s.fixed := (foldl_fixed _ (fun _ _ => by simp) _ _).trans h2
  have h4 : s4.fixed = s.fixed := (foldl_fixed _ (fun _ _ => by simp) _ _).trans h3
  have h5 : s5.fixed = s.fixed := (foldl_fixed _ (fun _ _ => by simp) _ _).trans h4
  clear_value s5
  simp [h5]

@[simp] theorem State.startIdle_fixed (s : State) (a2 : Nat) (a3 : Nat) : (State.startIdle s a2 a3).fixed = s.fixed := by
  simp [State.startIdle]

@[simp] theorem State.pairLate_fixed (s : State) (a2 : Nat) (a3 : Nat) : (State.pairLate s a2 a3).fixed = s.fixed := by
  simp [State.pairLate]

@[simp] theorem State.strokeLand_fixed (s : State) (n : Nat) : (s.strokeLand n).fixed = s.fixed := by
  unfold State.strokeLand
  extract_lets s1 s2 s3 s4 s5 s6 s7 s8 s9 s10 s11
  have h1 : s1.fixed = s.fixed := by simp [s1]
  have h2 : s2.fixed = s.fixed := (foldl_fixed _ (fun _ _ => by simp) _ _).trans h1
  have h5 : s5.fixed = s.fixed := by simp [s5, s4, s3, h2]
  have h6 : s6.fixed = s.fixed := (foldl_fixed _ (fun _ _ => by simp) _ _).trans h5
  have h7 : s7.fixed = s.fixed := (foldl_fixed _ (fun _ _ => by simp) _ _).trans h6
  have h8 : s8.fixed = s.fixed := (foldl_fixed _ (fun _ _ => by simp) _ _).trans h7
  have h9 : s9.fixed = s.fixed := by simp [s9, h8]
  have h10 : s10.fixed = s.fixed := (foldl_fixed _ (fun _ _ => by simp) _ _).trans h9
  have h11 : s11.fixed = s.fixed := by simp [s11, h10]
  exact (foldl_fixed _ (fun _ _ => by simp) _ _).trans h11

theorem State.gateOpen_fixed (s : State) (n tree unit : Nat) :
    (s.gateOpen n tree unit).fixed = (s.pending, n, s.locked, s.mram.primed, s.mram.recovery) := by
  unfold State.gateOpen
  extract_lets s0 s1 g s2 s3 s4
  have h1 : s1.pending = s.pending ∧ s1.locked = s.locked ∧ s1.mram.primed = s.mram.primed ∧
      s1.mram.recovery = s.mram.recovery := by
    have e := State.strokeEnd_fixed s
    have g := State.govGate_fixed { s.strokeEnd with strokes := n } n tree unit
    have v := State.vreqPresent_fixed { s with opened := true } s.govVstart
    simp only [State.fixed, Prod.mk.injEq] at e g v
    simp only [s1, s0]
    split <;> simp_all
  have h2 : s2.pending = s.pending ∧ s2.locked = s.locked ∧ s2.mram.primed = s.mram.primed ∧
      s2.mram.recovery = s.mram.recovery := by
    have e := State.showGate_fixed s1 n
    simp only [State.fixed, Prod.mk.injEq] at e
    simp only [s2, g]
    simp_all
  have h3 : s3.fixed = s2.fixed := foldl_fixed _ (fun _ _ => by simp) _ _
  clear_value s3
  have h4 : s4.fixed = (s.pending, n, s.locked, s.mram.primed, s.mram.recovery) := by
    simp only [s4, State.strokeLand_fixed]
    simp only [State.fixed, Prod.mk.injEq] at h3 ⊢
    simp [h2, h3]
  exact (foldl_fixed _ (fun _ _ => by simp) _ _).trans h4

theorem execStroke_fixed (s t : State) (tree : Nat) (unit : Fin 16) (h : execStroke tree unit s = .next t) :
    t.fixed = (s.pending, (if s.up 2 && s.inTree unit then s.nextGate else s.strokes), s.locked, s.mram.primed,
      s.mram.recovery) := by
  simp only [execStroke, State.act, Host.Outcome.next.injEq] at h
  rw [← h]
  split
  · exact State.gateOpen_fixed _ _ _ _
  · rfl

end Sys2Proof.Machine
end

