-- ==== Sys2Proof/Laws/FrameIssue.lean ====
section
/-!
SUPPORT. What the instructions leave alone.  Each lemma says that one definition keeps `State.fixed`.
-/

namespace Sys2Proof.Machine

@[simp] theorem State.raiseExc_fixed (s : State) (a2 : Nat) (a3 : Nat) (a4 : BitVec 18) : (State.raiseExc s a2 a3 a4).fixed = s.fixed := rfl

@[simp] theorem State.takeFault_fixed (s : State) (a2 : Nat) (a3 : Nat) (a4 : Dec) (a5 : Flt) : (State.takeFault s a2 a3 a4 a5).fixed = s.fixed := by
  simp only [State.takeFault]; (repeat' split) <;> first | rfl | simp

@[simp] theorem State.illBlock_fixed (s : State) (a2 : Ctx) : (State.illBlock s a2).fixed = s.fixed := by
  simp [State.illBlock]

@[simp] theorem State.readOps_fixed (s : State) (x pc : Nat) (d : Dec) (l : List (Opnd × Nat)) :
    (s.readOps x pc d l).2.fixed = s.fixed := by
  induction l generalizing s with
  | nil => rfl
  | cons p l ih =>
    obtain ⟨o, i⟩ := p
    unfold State.readOps
    extract_lets v
    clear_value v
    split
    next v2 s2 h =>
    have hs : s2.fixed = s.fixed := by
      split at h
      · have := (Prod.ext_iff.mp h).2
        dsimp only at this
        rw [← this]; simp
      · have := (Prod.ext_iff.mp h).2
        dsimp only at this
        rw [← this]
    have h2 := ih s2
    dsimp only
    rw [h2, hs]

@[simp] theorem State.readCond_fixed (s : State) (a2 : Nat) (a3 : Nat) (a4 : Dec) : (State.readCond s a2 a3 a4).2.fixed = s.fixed := by
  simp only [State.readCond]; (repeat' split) <;> first | rfl | simp

@[simp] theorem State.begun_fixed (s : State) (x : Nat) (d : Dec) : (s.begun x d).fixed = s.fixed := by
  simp [State.begun]

/-- The state that a stage hands on. -/
def Staged.state : Staged → State
  | .pass s => s
  | .fault _ s => s
  | .go _ s => s

@[simp] theorem State.stage_fixed (s : State) (x : Nat) (d : Dec) : (s.stage x d).state.fixed = s.fixed := by
  unfold State.stage
  extract_lets pc el s2 f
  have h2 : s2.fixed = s.fixed := by simp [s2]
  clear_value s2
  split
  · exact h2
  · have hc := State.readCond_fixed s2 x pc d
    generalize s2.readCond x pc d = r at hc
    obtain ⟨holds, s3⟩ := r
    dsimp only at hc ⊢
    split
    · simp [Staged.state, hc, h2]
    · split
      · simp [Staged.state, hc, h2]
      · simp [Staged.state, hc, h2]

theorem State.issueRun_fixed (s : State) (x : Nat) (d : Dec) (body : Body) (hb : ∀ c t, (body c t).Keeps) :
    (s.issueRun x d body).fixed = s.fixed := by
  have hs := State.stage_fixed s x d
  unfold State.issueRun
  extract_lets pc
  split
  · next h => rw [h] at hs; simpa [Staged.state] using hs
  · next h => rw [h] at hs; simpa [Staged.state] using hs
  · next c t h =>
    rw [h] at hs
    have hs : t.fixed = s.fixed := hs
    have := hb c t
    split
    · next g hg => rw [hg] at this; rw [this]; simp [hs]
    · next g hg => rw [hg] at this; rw [this]; simp [hs]
    · simp [hs]

theorem runSel_fixed (x : Nat) (sel : State → Dec → Bool) (body : Body) (s : State) (hb : ∀ c t, (body c t).Keeps) :
    Keeps s (runSel x sel body s) := by
  unfold runSel
  split
  · extract_lets t
    have ht : t.fixed = s.fixed := by simp [t]
    rw [keeps_act]
    intro _
    rw [State.issueRun_fixed _ _ _ _ hb, ht]
  · simp

theorem runThread_fixed (x op : Nat) (body : Body) (s : State) (hb : ∀ c t, (body c t).Keeps) :
    Keeps s (runThread x op body s) := runSel_fixed _ _ _ _ hb

@[simp] theorem State.noOp_fixed (s : State) (a2 : Nat) (a3 : Nat) : (State.noOp s a2 a3).fixed = s.fixed := by
  simp [State.noOp]

@[simp] theorem State.illegal_fixed (s : State) (a2 : Nat) (a3 : Nat) (a4 : Nat) (a5 : Nat) : (State.illegal s a2 a3 a4 a5).fixed = s.fixed := by
  simp [State.illegal]

@[simp] theorem State.fetchFault_fixed (s : State) (a2 : Nat) (a3 : Nat) : (State.fetchFault s a2 a3).fixed = s.fixed := by
  simp [State.fetchFault]

@[simp] theorem execIllegalInstruction_fixed (a1 : Fin 128) (s : State) : Keeps s (execIllegalInstruction a1 s) := by
  simp only [execIllegalInstruction]; (repeat' split) <;> first | rfl | simp

@[simp] theorem execUncorrectableFetch_fixed (a1 : Fin 128) (s : State) : Keeps s (execUncorrectableFetch a1 s) := by
  simp only [execUncorrectableFetch]; (repeat' split) <;> first | rfl | simp

@[simp] theorem Ctx.put_fixed (a1 : Ctx) (a2 : Nat) (a3 : Nat) (s : State) : (Ctx.put a1 a2 a3 s).fixed = s.fixed := by
  simp [Ctx.put]

@[simp] theorem State.flagsWith_fixed (s : State) (a2 : Nat) (a3 : Loc) (a4 : List (Nat × Bool)) : (State.flagsWith s a2 a3 a4).fixed = s.fixed := by
  simp only [State.flagsWith]; (repeat' split) <;> first | rfl | simp

@[simp] theorem Ctx.result_fixed (a1 : Ctx) (a2 : AluOut) (s : State) : (Ctx.result a1 a2 s).fixed = s.fixed := by
  simp [Ctx.result]

theorem dab_fixed (a1 : Alu) (a2 : Ctx) (s : State) : (dab a1 a2 s).Keeps := by
  simp [dab, Did.Keeps]

theorem da_fixed (a1 : Alu) (a2 : Ctx) (s : State) : (da a1 a2 s).Keeps := by
  simp [da, Did.Keeps]

theorem dd_fixed (a1 : Alu) (a2 : Ctx) (s : State) : (dd a1 a2 s).Keeps := by
  simp [dd, Did.Keeps]

@[simp] theorem Ctx.later_fixed (a1 : Ctx) (a2 : Nat) (a3 : LongOp) (s : State) : (Ctx.later a1 a2 a3 s).fixed = s.fixed := rfl

theorem mulAt_fixed (a1 : Nat) (a2 : Alu) (a3 : Ctx) (s : State) : (mulAt a1 a2 a3 s).Keeps := by
  simp [mulAt, Did.Keeps]

theorem divBy_fixed (a1 : Alu) (a2 : Ctx) (s : State) : (divBy a1 a2 s).Keeps := by
  simp only [divBy]; (repeat' split) <;> simp [Did.Keeps]

theorem flagsOnly_fixed (a1 : Ctx → List (Nat × Bool)) (a2 : Ctx) (s : State) : (flagsOnly a1 a2 s).Keeps := by
  simp [flagsOnly, Did.Keeps]

theorem nothing_fixed (a1 : Ctx) (s : State) : (nothing a1 s).Keeps := by
  simp [nothing, Did.Keeps]

@[simp] theorem execNop_fixed (x : Fin 128) (s : State) : Keeps s (execNop x s) := runThread_fixed _ _ _ _ nothing_fixed

@[simp] theorem execMov_fixed (x : Fin 128) (s : State) : Keeps s (execMov x s) := runThread_fixed _ _ _ _ (da_fixed _)

theorem swapBody_fixed (a1 : Ctx) (s : State) : (swapBody a1 s).Keeps := by
  simp [swapBody, Did.Keeps]

@[simp] theorem execSwap_fixed (x : Fin 128) (s : State) : Keeps s (execSwap x s) := runThread_fixed _ _ _ _ swapBody_fixed

@[simp] theorem execSel_fixed (x : Fin 128) (s : State) : Keeps s (execSel x s) := runThread_fixed _ _ _ _ (dab_fixed _)

@[simp] theorem execBmov_fixed (x : Fin 128) (s : State) : Keeps s (execBmov x s) := runThread_fixed _ _ _ _ (da_fixed _)

@[simp] theorem execBset_fixed (x : Fin 128) (s : State) : Keeps s (execBset x s) := runThread_fixed _ _ _ _ (dd_fixed _)

@[simp] theorem execBclr_fixed (x : Fin 128) (s : State) : Keeps s (execBclr x s) := runThread_fixed _ _ _ _ (dd_fixed _)

theorem bnotBody_fixed (c : Ctx) (s : State) : (bnotBody c s).Keeps := by
  unfold bnotBody
  split
  · simp [Did.Keeps]
  · exact dd_fixed _ _ _

@[simp] theorem execBnot_fixed (x : Fin 128) (s : State) : Keeps s (execBnot x s) := runThread_fixed _ _ _ _ bnotBody_fixed

@[simp] theorem execAdd_fixed (x : Fin 128) (s : State) : Keeps s (execAdd x s) := runThread_fixed _ _ _ _ (dab_fixed _)

@[simp] theorem execAdc_fixed (x : Fin 128) (s : State) : Keeps s (execAdc x s) := runThread_fixed _ _ _ _ (dab_fixed _)

@[simp] theorem execSub_fixed (x : Fin 128) (s : State) : Keeps s (execSub x s) := runThread_fixed _ _ _ _ (dab_fixed _)

@[simp] theorem execSbc_fixed (x : Fin 128) (s : State) : Keeps s (execSbc x s) := runThread_fixed _ _ _ _ (dab_fixed _)

@[simp] theorem execAdds_fixed (x : Fin 128) (s : State) : Keeps s (execAdds x s) := runThread_fixed _ _ _ _ (dab_fixed _)

@[simp] theorem execSubs_fixed (x : Fin 128) (s : State) : Keeps s (execSubs x s) := runThread_fixed _ _ _ _ (dab_fixed _)

@[simp] theorem execInc_fixed (x : Fin 128) (s : State) : Keeps s (execInc x s) := runThread_fixed _ _ _ _ (dd_fixed _)

@[simp] theorem execDec_fixed (x : Fin 128) (s : State) : Keeps s (execDec x s) := runThread_fixed _ _ _ _ (dd_fixed _)

@[simp] theorem execNeg_fixed (x : Fin 128) (s : State) : Keeps s (execNeg x s) := runThread_fixed _ _ _ _ (da_fixed _)

@[simp] theorem execAbs_fixed (x : Fin 128) (s : State) : Keeps s (execAbs x s) := runThread_fixed _ _ _ _ (da_fixed _)

@[simp] theorem execMin_fixed (x : Fin 128) (s : State) : Keeps s (execMin x s) := runThread_fixed _ _ _ _ (dab_fixed _)

@[simp] theorem execMax_fixed (x : Fin 128) (s : State) : Keeps s (execMax x s) := runThread_fixed _ _ _ _ (dab_fixed _)

@[simp] theorem execMinu_fixed (x : Fin 128) (s : State) : Keeps s (execMinu x s) := runThread_fixed _ _ _ _ (dab_fixed _)

@[simp] theorem execMaxu_fixed (x : Fin 128) (s : State) : Keeps s (execMaxu x s) := runThread_fixed _ _ _ _ (dab_fixed _)

@[simp] theorem execCmp_fixed (x : Fin 128) (s : State) : Keeps s (execCmp x s) := runThread_fixed _ _ _ _ (flagsOnly_fixed _)

@[simp] theorem execAnd_fixed (x : Fin 128) (s : State) : Keeps s (execAnd x s) := runThread_fixed _ _ _ _ (dab_fixed _)

@[simp] theorem execOr_fixed (x : Fin 128) (s : State) : Keeps s (execOr x s) := runThread_fixed _ _ _ _ (dab_fixed _)

@[simp] theorem execXor_fixed (x : Fin 128) (s : State) : Keeps s (execXor x s) := runThread_fixed _ _ _ _ (dab_fixed _)

@[simp] theorem execTst_fixed (x : Fin 128) (s : State) : Keeps s (execTst x s) := runThread_fixed _ _ _ _ (flagsOnly_fixed _)

@[simp] theorem execBtst_fixed (x : Fin 128) (s : State) : Keeps s (execBtst x s) := runThread_fixed _ _ _ _ (flagsOnly_fixed _)

@[simp] theorem execClz_fixed (x : Fin 128) (s : State) : Keeps s (execClz x s) := runThread_fixed _ _ _ _ (da_fixed _)

@[simp] theorem execPopc_fixed (x : Fin 128) (s : State) : Keeps s (execPopc x s) := runThread_fixed _ _ _ _ (da_fixed _)

@[simp] theorem execBswap_fixed (x : Fin 128) (s : State) : Keeps s (execBswap x s) := runThread_fixed _ _ _ _ (da_fixed _)

@[simp] theorem execBfx_fixed (x : Fin 128) (s : State) : Keeps s (execBfx x s) := runThread_fixed _ _ _ _ (dab_fixed _)

@[simp] theorem execBfi_fixed (x : Fin 128) (s : State) : Keeps s (execBfi x s) := runThread_fixed _ _ _ _ (dab_fixed _)

@[simp] theorem execShl_fixed (x : Fin 128) (s : State) : Keeps s (execShl x s) := runThread_fixed _ _ _ _ (dab_fixed _)

@[simp] theorem execShr_fixed (x : Fin 128) (s : State) : Keeps s (execShr x s) := runThread_fixed _ _ _ _ (dab_fixed _)

@[simp] theorem execSar_fixed (x : Fin 128) (s : State) : Keeps s (execSar x s) := runThread_fixed _ _ _ _ (dab_fixed _)

@[simp] theorem execRol_fixed (x : Fin 128) (s : State) : Keeps s (execRol x s) := runThread_fixed _ _ _ _ (dab_fixed _)

@[simp] theorem execMul_fixed (x : Fin 128) (s : State) : Keeps s (execMul x s) := runThread_fixed _ _ _ _ (mulAt_fixed _ _)

@[simp] theorem execMulh_fixed (x : Fin 128) (s : State) : Keeps s (execMulh x s) := runThread_fixed _ _ _ _ (mulAt_fixed _ _)

@[simp] theorem execMulhu_fixed (x : Fin 128) (s : State) : Keeps s (execMulhu x s) := runThread_fixed _ _ _ _ (mulAt_fixed _ _)

@[simp] theorem execDiv_fixed (x : Fin 128) (s : State) : Keeps s (execDiv x s) := runThread_fixed _ _ _ _ (divBy_fixed _)

@[simp] theorem execDivu_fixed (x : Fin 128) (s : State) : Keeps s (execDivu x s) := runThread_fixed _ _ _ _ (divBy_fixed _)

@[simp] theorem execRem_fixed (x : Fin 128) (s : State) : Keeps s (execRem x s) := runThread_fixed _ _ _ _ (divBy_fixed _)

@[simp] theorem execRemu_fixed (x : Fin 128) (s : State) : Keeps s (execRemu x s) := runThread_fixed _ _ _ _ (divBy_fixed _)

theorem branchBody_fixed (a1 : Nat) (a2 : Ctx) (s : State) : (branchBody a1 a2 s).Keeps := by
  simp [branchBody, Did.Keeps]

@[simp] theorem execBr_fixed (x : Fin 128) (s : State) : Keeps s (execBr x s) := runThread_fixed _ _ _ _ (branchBody_fixed _)

@[simp] theorem execBrs_fixed (x : Fin 128) (s : State) : Keeps s (execBrs x s) := runThread_fixed _ _ _ _ (branchBody_fixed _)

@[simp] theorem State.illStack_fixed (s : State) (a2 : Ctx) : (State.illStack s a2).fixed = s.fixed := by
  simp [State.illStack]

theorem callBody_fixed (a1 : Ctx) (s : State) : (callBody a1 s).Keeps := by
  simp only [callBody]; (repeat' split) <;> simp [Did.Keeps]

@[simp] theorem execCall_fixed (x : Fin 128) (s : State) : Keeps s (execCall x s) := runThread_fixed _ _ _ _ callBody_fixed

theorem retBody_fixed (a1 : Ctx) (s : State) : (retBody a1 s).Keeps := by
  simp only [retBody]; (repeat' split) <;> simp [Did.Keeps]

@[simp] theorem execRet_fixed (x : Fin 128) (s : State) : Keeps s (execRet x s) := runThread_fixed _ _ _ _ retBody_fixed

theorem trapBody_fixed (a1 : Ctx) (s : State) : (trapBody a1 s).Keeps := by
  simp only [trapBody]; (repeat' split) <;> simp [Did.Keeps]

@[simp] theorem execTrap_fixed (x : Fin 128) (s : State) : Keeps s (execTrap x s) := runThread_fixed _ _ _ _ trapBody_fixed

theorem idleBody_fixed (a1 : Ctx) (s : State) : (idleBody a1 s).Keeps := by
  simp [idleBody, Did.Keeps]

@[simp] theorem execIdle_fixed (x : Fin 128) (s : State) : Keeps s (execIdle x s) := runThread_fixed _ _ _ _ idleBody_fixed

theorem elasticOnly_fixed (a1 : Thread → Thread) (a2 : Ctx) (s : State) : (elasticOnly a1 a2 s).Keeps := by
  simp [elasticOnly, Did.Keeps]

@[simp] theorem execYield_fixed (x : Fin 128) (s : State) : Keeps s (execYield x s) := runThread_fixed _ _ _ _ (elasticOnly_fixed _)

@[simp] theorem execEi_fixed (x : Fin 128) (s : State) : Keeps s (execEi x s) := runThread_fixed _ _ _ _ (elasticOnly_fixed _)

@[simp] theorem execDi_fixed (x : Fin 128) (s : State) : Keeps s (execDi x s) := runThread_fixed _ _ _ _ (elasticOnly_fixed _)

theorem rstkdBody_fixed (a1 : Ctx) (s : State) : (rstkdBody a1 s).Keeps := by
  simp only [rstkdBody]; (repeat' split) <;> simp [Did.Keeps]

@[simp] theorem execRstkd_fixed (x : Fin 128) (s : State) : Keeps s (execRstkd x s) := runThread_fixed _ _ _ _ rstkdBody_fixed

theorem crcBody_fixed (a1 : Nat) (a2 : Ctx) (s : State) : (crcBody a1 a2 s).Keeps := by
  simp only [crcBody]; (repeat' split) <;> simp [Did.Keeps]

@[simp] theorem execCrc32_fixed (x : Fin 128) (s : State) : Keeps s (execCrc32 x s) := runThread_fixed _ _ _ _ (crcBody_fixed _)

@[simp] theorem execCrc32c_fixed (x : Fin 128) (s : State) : Keeps s (execCrc32c x s) := runThread_fixed _ _ _ _ (crcBody_fixed _)

theorem tagBody_fixed (a1 : Ctx) (s : State) : (tagBody a1 s).Keeps := by
  simp only [tagBody]; (repeat' split) <;> simp [Did.Keeps]

@[simp] theorem execTag_fixed (x : Fin 128) (s : State) : Keeps s (execTag x s) := runThread_fixed _ _ _ _ tagBody_fixed

@[simp] theorem execTadd_fixed (x : Fin 128) (s : State) : Keeps s (execTadd x s) :=
  runThread_fixed _ _ _ _ (by intro c t; simp [Did.Keeps])

@[simp] theorem execTsub_fixed (x : Fin 128) (s : State) : Keeps s (execTsub x s) :=
  runThread_fixed _ _ _ _ (by intro c t; simp [Did.Keeps])

@[simp] theorem execTcmp_fixed (x : Fin 128) (s : State) : Keeps s (execTcmp x s) :=
  runThread_fixed _ _ _ _ (flagsOnly_fixed _)

theorem tnowBody_fixed (a1 : Ctx) (s : State) : (tnowBody a1 s).Keeps := by
  simp [tnowBody, Did.Keeps]

@[simp] theorem execTnow_fixed (x : Fin 128) (s : State) : Keeps s (execTnow x s) := runThread_fixed _ _ _ _ tnowBody_fixed

theorem xchgBody_fixed (a1 : Ctx) (s : State) : (xchgBody a1 s).Keeps := by
  simp [xchgBody, Did.Keeps]

@[simp] theorem execXchg_fixed (x : Fin 128) (s : State) : Keeps s (execXchg x s) := runThread_fixed _ _ _ _ xchgBody_fixed

theorem casBody_fixed (a1 : Ctx) (s : State) : (casBody a1 s).Keeps := by
  simp [casBody, Did.Keeps]

@[simp] theorem execCas_fixed (x : Fin 128) (s : State) : Keeps s (execCas x s) := runThread_fixed _ _ _ _ casBody_fixed

theorem faddBody_fixed (a1 : Ctx) (s : State) : (faddBody a1 s).Keeps := by
  simp [faddBody, Did.Keeps]

@[simp] theorem execFadd_fixed (x : Fin 128) (s : State) : Keeps s (execFadd x s) := runThread_fixed _ _ _ _ faddBody_fixed

theorem lockwBody_fixed (a1 : Ctx) (s : State) : (lockwBody a1 s).Keeps := by
  simp [lockwBody, Did.Keeps]

@[simp] theorem execLockw_fixed (x : Fin 128) (s : State) : Keeps s (execLockw x s) := runThread_fixed _ _ _ _ lockwBody_fixed

theorem unlkwBody_fixed (a1 : Ctx) (s : State) : (unlkwBody a1 s).Keeps := by
  simp [unlkwBody, Did.Keeps]

@[simp] theorem execUnlkw_fixed (x : Fin 128) (s : State) : Keeps s (execUnlkw x s) := runThread_fixed _ _ _ _ unlkwBody_fixed

theorem lockgBody_fixed (a1 : Ctx) (s : State) : (lockgBody a1 s).Keeps := by
  simp only [lockgBody]; (repeat' split) <;> simp [Did.Keeps]

@[simp] theorem execLockg_fixed (x : Fin 128) (s : State) : Keeps s (execLockg x s) := runThread_fixed _ _ _ _ lockgBody_fixed

theorem unlkgBody_fixed (a1 : Ctx) (s : State) : (unlkgBody a1 s).Keeps := by
  simp only [unlkgBody]; (repeat' split) <;> simp [Did.Keeps]

@[simp] theorem execUnlkg_fixed (x : Fin 128) (s : State) : Keeps s (execUnlkg x s) := runThread_fixed _ _ _ _ unlkgBody_fixed

theorem notInPair_fixed (body : Body) (hb : ∀ c s, (body c s).Keeps) (c : Ctx) (s : State) :
    (notInPair body c s).Keeps := by
  unfold notInPair
  split
  · simp [Did.Keeps]
  · exact hb c s

@[simp] theorem State.cisStart_fixed (s : State) (a2 : Nat) (a3 : CisAcc) : (State.cisStart s a2 a3).fixed = s.fixed := by
  simp [State.cisStart]

theorem cisBody_fixed (a1 : Bool) (a2 : Nat) (a3 : Nat) (a4 : Ctx) (s : State) : (cisBody a1 a2 a3 a4 s).Keeps := by
  simp only [cisBody]; (repeat' split) <;> simp [Did.Keeps]

@[simp] theorem execCrd_fixed (x : Fin 128) (s : State) : Keeps s (execCrd x s) :=
  runThread_fixed _ _ _ _ (notInPair_fixed _ (cisBody_fixed _ _ _))

@[simp] theorem execCwr_fixed (x : Fin 128) (s : State) : Keeps s (execCwr x s) :=
  runThread_fixed _ _ _ _ (notInPair_fixed _ (cisBody_fixed _ _ _))

theorem chanBody_fixed (a1 : Ctx) (s : State) : (chanBody a1 s).Keeps := by
  simp only [chanBody]; (repeat' split) <;> simp [Did.Keeps]

theorem runChan_fixed (x k : Nat) (s : State) : Keeps s (runChan x k s) :=
  runSel_fixed _ _ _ _ (notInPair_fixed _ chanBody_fixed)

@[simp] theorem execCheck_fixed (x : Fin 128) (s : State) : Keeps s (execCheck x s) := runChan_fixed _ _ _

@[simp] theorem execBind_fixed (x : Fin 128) (s : State) : Keeps s (execBind x s) := runChan_fixed _ _ _

@[simp] theorem execUnbind_fixed (x : Fin 128) (s : State) : Keeps s (execUnbind x s) := runChan_fixed _ _ _

@[simp] theorem execTagget_fixed (x : Fin 128) (s : State) : Keeps s (execTagget x s) := runChan_fixed _ _ _

@[simp] theorem execTagput_fixed (x : Fin 128) (s : State) : Keeps s (execTagput x s) := runChan_fixed _ _ _

@[simp] theorem execAlloc_fixed (x : Fin 128) (s : State) : Keeps s (execAlloc x s) := runChan_fixed _ _ _

@[simp] theorem execFree_fixed (x : Fin 128) (s : State) : Keeps s (execFree x s) := runChan_fixed _ _ _

theorem pumpBody_fixed (a1 : Ctx) (s : State) : (pumpBody a1 s).Keeps := by
  simp only [pumpBody]; (repeat' split) <;> simp [Did.Keeps]

theorem runPump_fixed (x k : Nat) (s : State) : Keeps s (runPump x k s) := runSel_fixed _ _ _ _ pumpBody_fixed

@[simp] theorem execCopy_fixed (x : Fin 128) (s : State) : Keeps s (execCopy x s) := runPump_fixed _ _ _

@[simp] theorem execSendHost_fixed (x : Fin 128) (s : State) : Keeps s (execSendHost x s) := runPump_fixed _ _ _

@[simp] theorem execTx_fixed (x : Fin 128) (s : State) : Keeps s (execTx x s) := runPump_fixed _ _ _

@[simp] theorem execToValve_fixed (x : Fin 128) (s : State) : Keeps s (execToValve x s) := runPump_fixed _ _ _

@[simp] theorem execFromValve_fixed (x : Fin 128) (s : State) : Keeps s (execFromValve x s) := runPump_fixed _ _ _

@[simp] theorem execImageOut_fixed (x : Fin 128) (s : State) : Keeps s (execImageOut x s) := runPump_fixed _ _ _

@[simp] theorem execImageIn_fixed (x : Fin 128) (s : State) : Keeps s (execImageIn x s) := runPump_fixed _ _ _

@[simp] theorem execPumpTake_fixed (x : Fin 128) (s : State) : Keeps s (execPumpTake x s) := runPump_fixed _ _ _

@[simp] theorem execEvent_fixed (x : Fin 128) (s : State) : Keeps s (execEvent x s) := runPump_fixed _ _ _

theorem postBody_fixed (a1 : Ctx) (s : State) : (postBody a1 s).Keeps := by
  simp only [postBody]; (repeat' split) <;> simp [Did.Keeps]

@[simp] theorem execPost_fixed (x : Fin 128) (s : State) : Keeps s (execPost x s) := runThread_fixed _ _ _ _ postBody_fixed

@[simp] theorem State.illMetered_fixed (s : State) (a2 : Ctx) : (State.illMetered s a2).fixed = s.fixed := by
  simp [State.illMetered]

theorem ewaitBody_fixed (a1 : Ctx) (s : State) : (ewaitBody a1 s).Keeps := by
  simp [ewaitBody, Did.Keeps]

@[simp] theorem execEwait_fixed (x : Fin 128) (s : State) : Keeps s (execEwait x s) := runThread_fixed _ _ _ _ ewaitBody_fixed

theorem qputBody_fixed (a1 : Bool) (a2 : Ctx) (s : State) : (qputBody a1 a2 s).Keeps := by
  simp [qputBody, Did.Keeps]

@[simp] theorem execQput_fixed (x : Fin 128) (s : State) : Keeps s (execQput x s) := runThread_fixed _ _ _ _ (qputBody_fixed _)

@[simp] theorem execQputn_fixed (x : Fin 128) (s : State) : Keeps s (execQputn x s) := runThread_fixed _ _ _ _ (qputBody_fixed _)

@[simp] theorem State.queueTake_fixed (s : State) (a2 : Nat) : (State.queueTake s a2).2.fixed = s.fixed := by
  simp only [State.queueTake]; (repeat' split) <;> first | rfl | simp

theorem qgetBody_fixed (a1 : Bool) (a2 : Ctx) (s : State) : (qgetBody a1 a2 s).Keeps := by
  simp [qgetBody, Did.Keeps]

@[simp] theorem execQget_fixed (x : Fin 128) (s : State) : Keeps s (execQget x s) := runThread_fixed _ _ _ _ (qgetBody_fixed _)

@[simp] theorem execQgetn_fixed (x : Fin 128) (s : State) : Keeps s (execQgetn x s) := runThread_fixed _ _ _ _ (qgetBody_fixed _)

@[simp] theorem Ctx.schedTime_fixed (c : Ctx) (s : State) : (c.schedTime s).2.fixed = s.fixed := by
  simp only [Ctx.schedTime]; split <;> simp

theorem schedBody_fixed (a1 : Ctx) (s : State) : (schedBody a1 s).Keeps := by
  simp [schedBody, Did.Keeps]

@[simp] theorem execSched_fixed (x : Fin 128) (s : State) : Keeps s (execSched x s) := runThread_fixed _ _ _ _ schedBody_fixed

theorem unschedBody_fixed (a1 : Ctx) (s : State) : (unschedBody a1 s).Keeps := by
  simp [unschedBody, Did.Keeps]

@[simp] theorem execUnsched_fixed (x : Fin 128) (s : State) : Keeps s (execUnsched x s) := runThread_fixed _ _ _ _ unschedBody_fixed

theorem sysrdBody_fixed (a1 : Ctx) (s : State) : (sysrdBody a1 s).Keeps := by
  simp only [sysrdBody]; (repeat' split) <;> simp [Did.Keeps]

@[simp] theorem execSysrd_fixed (x : Fin 128) (s : State) : Keeps s (execSysrd x s) := runThread_fixed _ _ _ _ sysrdBody_fixed

theorem syswrBody_fixed (a1 : Ctx) (s : State) : (syswrBody a1 s).Keeps := by
  simp only [syswrBody]; (repeat' split) <;> simp [Did.Keeps]

@[simp] theorem execSyswr_fixed (x : Fin 128) (s : State) : Keeps s (execSyswr x s) := runThread_fixed _ _ _ _ syswrBody_fixed

theorem vecBody_fixed (a1 : Nat → Nat → Nat → Nat) (a2 : Ctx) (s : State) : (vecBody a1 a2 s).Keeps := by
  simp [vecBody, Did.Keeps]

theorem laneBody_fixed (f : Nat → Nat → Nat → Nat) (c : Ctx) (s : State) : (laneBody f c s).Keeps := vecBody_fixed _ c s

@[simp] theorem execVadd_fixed (x : Fin 128) (s : State) : Keeps s (execVadd x s) := runThread_fixed _ _ _ _ (laneBody_fixed _)

@[simp] theorem execVsub_fixed (x : Fin 128) (s : State) : Keeps s (execVsub x s) := runThread_fixed _ _ _ _ (laneBody_fixed _)

@[simp] theorem execVmin_fixed (x : Fin 128) (s : State) : Keeps s (execVmin x s) := runThread_fixed _ _ _ _ (laneBody_fixed _)

@[simp] theorem execVmax_fixed (x : Fin 128) (s : State) : Keeps s (execVmax x s) := runThread_fixed _ _ _ _ (laneBody_fixed _)

@[simp] theorem execVand_fixed (x : Fin 128) (s : State) : Keeps s (execVand x s) := runThread_fixed _ _ _ _ (vecBody_fixed _)

@[simp] theorem execVor_fixed (x : Fin 128) (s : State) : Keeps s (execVor x s) := runThread_fixed _ _ _ _ (vecBody_fixed _)

@[simp] theorem execVxor_fixed (x : Fin 128) (s : State) : Keeps s (execVxor x s) := runThread_fixed _ _ _ _ (vecBody_fixed _)

@[simp] theorem execVcmpeq_fixed (x : Fin 128) (s : State) : Keeps s (execVcmpeq x s) := runThread_fixed _ _ _ _ (laneBody_fixed _)

@[simp] theorem execVcmpgt_fixed (x : Fin 128) (s : State) : Keeps s (execVcmpgt x s) := runThread_fixed _ _ _ _ (laneBody_fixed _)

@[simp] theorem execVshl_fixed (x : Fin 128) (s : State) : Keeps s (execVshl x s) := runThread_fixed _ _ _ _ (laneBody_fixed _)

@[simp] theorem execVshr_fixed (x : Fin 128) (s : State) : Keeps s (execVshr x s) := runThread_fixed _ _ _ _ (laneBody_fixed _)

theorem vecOldBody_fixed (a1 : Nat → Nat → Nat → Nat) (a2 : Ctx) (s : State) : (vecOldBody a1 a2 s).Keeps := by
  simp [vecOldBody, Did.Keeps]

@[simp] theorem execVsel_fixed (x : Fin 128) (s : State) : Keeps s (execVsel x s) := runThread_fixed _ _ _ _ (vecOldBody_fixed _)

@[simp] theorem execTperm_fixed (x : Fin 128) (s : State) : Keeps s (execTperm x s) := runThread_fixed _ _ _ _ (vecBody_fixed _)

@[simp] theorem execTperm2_fixed (x : Fin 128) (s : State) : Keeps s (execTperm2 x s) := runThread_fixed _ _ _ _ (vecOldBody_fixed _)

@[simp] theorem execTlut_fixed (x : Fin 128) (s : State) : Keeps s (execTlut x s) := runThread_fixed _ _ _ _ (vecBody_fixed _)

@[simp] theorem execTlut16_fixed (x : Fin 128) (s : State) : Keeps s (execTlut16 x s) := runThread_fixed _ _ _ _ (vecBody_fixed _)

theorem lvsetlBody_fixed (a1 : Ctx) (s : State) : (lvsetlBody a1 s).Keeps := by
  simp [lvsetlBody, Did.Keeps]

@[simp] theorem execLvsetl_fixed (x : Fin 128) (s : State) : Keeps s (execLvsetl x s) := runThread_fixed _ _ _ _ lvsetlBody_fixed

theorem lvBody_fixed (a1 : Ctx) (s : State) : (lvBody a1 s).Keeps := by
  simp only [lvBody]; (repeat' split) <;> simp [Did.Keeps]

theorem runLv_fixed (x op : Nat) (s : State) : Keeps s (runLv x op s) :=
  runThread_fixed _ _ _ _ (notInPair_fixed _ lvBody_fixed)

@[simp] theorem execLvadd_fixed (x : Fin 128) (s : State) : Keeps s (execLvadd x s) := runLv_fixed _ _ _

@[simp] theorem execLvsub_fixed (x : Fin 128) (s : State) : Keeps s (execLvsub x s) := runLv_fixed _ _ _

@[simp] theorem execLvmul_fixed (x : Fin 128) (s : State) : Keeps s (execLvmul x s) := runLv_fixed _ _ _

@[simp] theorem execLvmac_fixed (x : Fin 128) (s : State) : Keeps s (execLvmac x s) := runLv_fixed _ _ _

@[simp] theorem execLvcmul_fixed (x : Fin 128) (s : State) : Keeps s (execLvcmul x s) := runLv_fixed _ _ _

@[simp] theorem execLvcmac_fixed (x : Fin 128) (s : State) : Keeps s (execLvcmac x s) := runLv_fixed _ _ _

@[simp] theorem execLvconj_fixed (x : Fin 128) (s : State) : Keeps s (execLvconj x s) := runLv_fixed _ _ _

@[simp] theorem execLvsum_fixed (x : Fin 128) (s : State) : Keeps s (execLvsum x s) := runLv_fixed _ _ _

@[simp] theorem execLvmaxi_fixed (x : Fin 128) (s : State) : Keeps s (execLvmaxi x s) := runLv_fixed _ _ _

@[simp] theorem execLvbfly_fixed (x : Fin 128) (s : State) : Keeps s (execLvbfly x s) := runLv_fixed _ _ _

@[simp] theorem execLvgath_fixed (x : Fin 128) (s : State) : Keeps s (execLvgath x s) := runLv_fixed _ _ _

@[simp] theorem execLvgathf_fixed (x : Fin 128) (s : State) : Keeps s (execLvgathf x s) := runLv_fixed _ _ _

@[simp] theorem execLvscat_fixed (x : Fin 128) (s : State) : Keeps s (execLvscat x s) := runLv_fixed _ _ _

@[simp] theorem execLvcopy_fixed (x : Fin 128) (s : State) : Keeps s (execLvcopy x s) := runLv_fixed _ _ _

end Sys2Proof.Machine
end

