-- ==== Sys2Proof/Laws/FramePrime.lean ====
section
/-!
SUPPORT. What priming, swaps and responses leave alone.  Each lemma says that one definition keeps `State.fixed`.
-/

namespace Sys2Proof.Machine

@[simp] theorem State.markImg_fixed (s : State) (k : Nat) (b : Bool) : (s.markImg k b).fixed = s.fixed := by
  unfold State.markImg
  apply State.modMram_fixed <;> split <;> rfl

@[simp] theorem State.mramRead_fixed (s : State) (a2 : Nat) (a3 : Nat) : (State.mramRead s a2 a3).fixed = s.fixed := by
  simp [State.mramRead]

@[simp] theorem State.zeroAll_fixed (s : State) : (State.zeroAll s).fixed = s.fixed := rfl

@[simp] theorem State.codePut_fixed (s : State) (a2 : Nat) (a3 : Nat) (a4 : Nat) (a5 : List Nat) : (State.codePut s a2 a3 a4 a5).fixed = s.fixed := by
  simp [State.codePut]

@[simp] theorem State.valvePut_fixed (s : State) (a2 : Nat) (a3 : Bool) (a4 : List Nat) : (State.valvePut s a2 a3 a4).fixed = s.fixed := rfl

@[simp] theorem State.loadEntry_fixed (s : State) (a2 : Nat) (a3 : ManEntry) : (State.loadEntry s a2 a3).fixed = s.fixed := by
  simp only [State.loadEntry]; (repeat' split) <;> first | rfl | simp

@[simp] theorem State.loadImage_fixed (s : State) (a2 : Nat) : (State.loadImage s a2).fixed = s.fixed := by
  simp [State.loadImage]

@[simp] theorem State.applyEntry_fixed (s : State) (a2 : Nat × Nat) : (State.applyEntry s a2).fixed = s.fixed := by
  simp [State.applyEntry]

@[simp] theorem State.applyPtable_fixed (s : State) : (State.applyPtable s).fixed = s.fixed := by
  simp [State.applyPtable]

@[simp] theorem State.noteFail_fixed (s : State) (k c : Nat) : (s.noteFail k c).fixed = s.fixed := by
  unfold State.noteFail
  apply State.modMram_fixed <;> split <;> rfl

@[simp] theorem State.tryImage_fixed (s : State) (a2 : Nat) : (State.tryImage s a2).2.fixed = s.fixed := by
  simp [State.tryImage]

@[simp] theorem State.logRecover_fixed (s : State) : (State.logRecover s).fixed = s.fixed := rfl

@[simp] theorem State.persDone_fixed (s : State) (a2 : Nat) (a3 : Nat) (a4 : Nat) (a5 : Nat) : (State.persDone s a2 a3 a4 a5).fixed = s.fixed := by
  simp only [State.persDone]; (repeat' split) <;> first | rfl | simp

/-- Priming changes RECOVERY alone of what is fixed. -/
theorem State.prime_fixed (s : State) (first : Nat) :
    (s.prime first).fixed = (s.pending, s.strokes, s.locked, s.mram.primed, (s.prime first).mram.recovery) := by
  have key : ∀ t : State, (t.pending, t.strokes, t.locked, t.mram.primed) = (s.pending, s.strokes, s.locked, s.mram.primed) →
      t.fixed = (s.pending, s.strokes, s.locked, s.mram.primed, t.mram.recovery) := by
    intro t h
    simp only [Prod.mk.injEq] at h
    simp only [State.fixed, h]
  apply key
  have four : ∀ t : State, t.fixed = s.fixed →
      (t.pending, t.strokes, t.locked, t.mram.primed) = (s.pending, s.strokes, s.locked, s.mram.primed) := by
    intro t h
    simp only [State.fixed, Prod.mk.injEq] at h
    simp [h]
  unfold State.prime
  extract_lets s1 done
  have h1 : s1.fixed = s.fixed := by simp only [s1]; rw [State.modMram_fixed _ _ rfl rfl, State.zeroAll_fixed]
  have hd : ∀ t img, t.fixed = s.fixed → (done t img).fixed = s.fixed := by
    intro t img ht
    simp only [done]
    rw [State.modMram_fixed _ _ rfl rfl, State.logRecover_fixed, ht]
  clear_value s1 done
  have ha := State.tryImage_fixed s1 first
  split
  · next h => rw [h] at ha; exact four _ (hd _ _ (ha.trans h1))
  · next h =>
    rw [h] at ha
    extract_lets s2
    have h2 : s2.fixed = s.fixed := by simp only [s2]; rw [State.modMram_fixed _ _ rfl rfl]; exact ha.trans h1
    clear_value s2
    have hb := State.tryImage_fixed s2 (1 - first)
    split
    · next h => rw [h] at hb; exact four _ (hd _ _ (hb.trans h2))
    · next t h =>
      rw [h] at hb
      have ht : t.fixed = s.fixed := hb.trans h2
      extract_lets id s3
      clear_value id
      have h3 : (s3.pending, s3.strokes, s3.locked, s3.mram.primed) = (s.pending, s.strokes, s.locked, s.mram.primed) := by
        have : t.zeroAll.applyPtable.fixed = s.fixed := by simp [ht]
        have := four _ this
        simpa [s3, State.modMram] using this
      clear_value s3
      split
      · have := State.persDone_fixed s3 ‹Nat› 10 0 0
        simp only [State.fixed, Prod.mk.injEq] at this h3 ⊢
        simp [this, h3]
      · exact h3

/-- PRIMING changes RECOVERY alone of what is fixed. -/
theorem execPriming_fixed (s t : State) (h : execPriming s = .next t) :
    t.fixed = (s.pending, s.strokes, s.locked, s.mram.primed, t.mram.recovery) := by
  have same : s.fixed = (s.pending, s.strokes, s.locked, s.mram.primed, s.mram.recovery) := rfl
  unfold execPriming at h
  split at h
  · simp only [State.act, Host.Outcome.next.injEq] at h
    subst h
    split
    · exact State.prime_fixed _ _
    · exact same
  · extract_lets s0 s1 at h
    have h0 : s0.fixed = s.fixed := by simp only [s0]; rw [State.modMram_fixed _ _ rfl rfl, State.mramRead_fixed]
    have h1 : s1.fixed = s.fixed := by simp only [s1]; rw [State.modMram_fixed _ _ rfl rfl, h0]
    clear_value s1
    simp only [State.act, Host.Outcome.next.injEq] at h
    subst h
    split
    · have := State.prime_fixed s1 s1.platActive
      simp only [State.fixed, Prod.mk.injEq] at h1
      rw [this]; simp [h1]
    · exact same

@[simp] theorem execPrimingClockMissing_fixed (a1 : Bool) (s : State) : Keeps s (execPrimingClockMissing a1 s) := by
  simp [execPrimingClockMissing]

@[simp] theorem State.startEntries_fixed (s : State) (img : Nat) (p : ManEntry → Bool) :
    (s.startEntries img p).fixed = s.fixed := by
  unfold State.startEntries
  apply foldl_fixed
  intro s e
  split <;> simp

@[simp] theorem State.primedRelease_fixed (s : State) : (State.primedRelease s).fixed = s.fixed := by
  simp [State.primedRelease]

/-- The act of PRIMED: PRIMED 1, RECOVERY 0, and the RWL lock where the release asks for it. -/
theorem State.primedAct_fixed (s : State) :
    ∃ k, s.primedAct.fixed = (s.pending, s.strokes, s.locked || k, true, false) := by
  unfold State.primedAct
  extract_lets img s1 us s2 s3
  have h1 : s1.fixed = s.fixed := by simp [s1]
  have h2 : s1.primedRelease.fixed = s.fixed := by simp [h1]
  refine ⟨s2.rwlLock, ?_⟩
  rw [State.modRot_fixed]
  simp only [State.fixed, Prod.mk.injEq] at h2
  simp [s3, s2, State.modMram, State.fixed, h2]

/-- PRIMED leaves the queue and the stroke count, and never lifts the RWL lock. -/
theorem execPrimed_fixed (s t : State) (h : execPrimed s = .next t) :
    t.fixed = s.fixed ∨ (s.mram.step = 8 ∧ s.mram.primed = false ∧
      ∃ k, t.fixed = (s.pending, s.strokes, s.locked || k, true, false)) := by
  obtain ⟨k, hk⟩ := State.primedAct_fixed s
  unfold execPrimed at h
  extract_lets s1 at h
  simp only [State.act, Host.Outcome.next.injEq] at h
  subst h
  split
  · next hc =>
    simp only [Bool.and_eq_true, beq_iff_eq, Bool.not_eq_true'] at hc
    refine .inr ⟨hc.1, hc.2, k, ?_⟩
    split
    · simp only [State.persDone_fixed, State.setActive_fixed]; exact hk
    · exact hk
  · exact .inl rfl

@[simp] theorem State.loadNext_fixed (s : State) : (State.loadNext s).fixed = s.fixed := by
  simp only [State.loadNext]; (repeat' split) <;> first | rfl | simp

@[simp] theorem execPersLoad_fixed (p : Fin 8) (s : State) : Keeps s (execPersLoad p s) := by
  apply State.runCmd_fixed
  intro c
  dsimp only
  (repeat' split) <;> simp

@[simp] theorem State.loadBack_fixed (s : State) (a2 : Nat) (a3 : Nat) (a4 : List Nat) : (State.loadBack s a2 a3 a4).fixed = s.fixed := by
  simp only [State.loadBack]; (repeat' split) <;> first | rfl | simp

@[simp] theorem State.ctCopy_fixed (s : State) (a2 : Nat) : (State.ctCopy s a2).fixed = s.fixed := by
  simp [State.ctCopy]

@[simp] theorem execPersLoadDone_fixed (s : State) : Keeps s (execPersLoadDone s) := by
  simp only [execPersLoadDone]; (repeat' split) <;> first | rfl | simp

@[simp] theorem execPersSwap_fixed (p : Fin 8) (s : State) : Keeps s (execPersSwap p s) := by
  apply State.runCmd_fixed
  intro c
  dsimp only
  (repeat' split) <;> simp

@[simp] theorem State.swapEntry_fixed (s : State) (a2 : Nat) (a3 : ManEntry) : (State.swapEntry s a2 a3).fixed = s.fixed := by
  simp only [State.swapEntry]; (repeat' split) <;> first | rfl | simp

@[simp] theorem State.armThread_fixed (s : State) (a2 : Nat) (a3 : Nat) : (State.armThread s a2 a3).fixed = s.fixed := by
  simp only [State.armThread]; (repeat' split) <;> first | rfl | simp

@[simp] theorem execSwapArmed_fixed (s : State) : Keeps s (execSwapArmed s) := by
  unfold execSwapArmed
  split
  · simp
  · extract_lets s1 s2 s3
    have h2 : s2.fixed = s.fixed :=
      (foldl_fixed _ (fun _ _ => by simp) _ _).trans (foldl_fixed _ (fun _ _ => by simp) _ _)
    have h3 : s3.fixed = s.fixed := by simp only [s3]; rw [State.modMram_fixed _ _ rfl rfl, h2]
    clear_value s3
    rw [keeps_act]
    intro _
    exact (foldl_fixed _ (fun _ _ => by simp) _ _).trans h3

@[simp] theorem execThreadCutOver_fixed (a1 : Fin 128) (s : State) : Keeps s (execThreadCutOver a1 s) := by
  simp only [execThreadCutOver]; (repeat' split) <;> first | rfl | simp

@[simp] theorem State.expireThread_fixed (s : State) (a2 : Nat) : (State.expireThread s a2).fixed = s.fixed := by
  simp [State.expireThread]

@[simp] theorem State.escalate_fixed (s : State) (a2 : Nat) : (State.escalate s a2).fixed = s.fixed := by
  simp [State.escalate]

@[simp] theorem execSwapTimeout_fixed (s : State) : Keeps s (execSwapTimeout s) := by
  simp only [execSwapTimeout]; (repeat' split) <;> first | rfl | simp

@[simp] theorem execPersSwapDone_fixed (s : State) : Keeps s (execPersSwapDone s) := by
  simp only [execPersSwapDone]; (repeat' split) <;> first | rfl | simp

@[simp] theorem State.freshLb_fixed (s : State) (lb b : Nat) : (s.freshLb lb b).fixed = s.fixed := by
  unfold State.freshLb
  extract_lets s1 s2 s3 s4 s5
  have h2 : s2.fixed = s.fixed := (foldl_fixed _ (fun _ _ => by simp) _ _).trans (by simp [s1])
  have h3 : s3.fixed = s.fixed := by rw [← h2]; rfl
  clear_value s3
  simp [s5, s4, h3]

@[simp] theorem State.returnLb_fixed (s : State) (a2 : Nat) (a3 : Nat) (a4 : Nat) : (State.returnLb s a2 a3 a4).fixed = s.fixed := by
  simp [State.returnLb]

@[simp] theorem execLbReturn_fixed (a1 : Fin 8) (s : State) : Keeps s (execLbReturn a1 s) := by
  simp only [execLbReturn]; (repeat' split) <;> first | rfl | simp

/-- A reset keeps the queue and clears the rest of what is fixed. -/
theorem State.coreReset_fixed (s : State) (test : Bool) : (s.coreReset test).fixed = (s.pending, 0, false, false, false) := rfl

theorem execBlockReset_fixed (test : Bool) (s t : State) (h : execBlockReset test s = .next t) :
    t.fixed = (s.pending, 0, false, false, false) := by
  simp only [execBlockReset, Host.Outcome.next.injEq] at h
  rw [← h, State.eventFree_fixed, State.coreReset_fixed]

theorem execAonReset_fixed (test : Bool) (s t : State) (h : execAonReset test s = .next t) :
    t.fixed = (s.pending, 0, false, false, false) := by
  simp only [execAonReset, Host.Outcome.next.injEq] at h
  rw [← h]; rfl

@[simp] theorem execDomainResetExit_fixed (a1 : Fin 13) (s : State) : Keeps s (execDomainResetExit a1 s) := by
  simp [execDomainResetExit]

@[simp] theorem execSupplyLoss_fixed (s : State) : Keeps s (execSupplyLoss s) := by
  simp [execSupplyLoss]

@[simp] theorem State.pieceError_fixed (s : State) (a2 : Nat) (a3 : Nat) : (State.pieceError s a2 a3).fixed = s.fixed := by
  simp [State.pieceError]

@[simp] theorem State.pieceData_fixed (s : State) (a2 : Nat) (a3 : Nat) (a4 : List Nat) : (State.pieceData s a2 a3 a4).fixed = s.fixed := by
  simp only [State.pieceData]; (repeat' split) <;> first | rfl | simp

@[simp] theorem State.pieceEnd_fixed (s : State) (a2 : Nat) : (State.pieceEnd s a2).fixed = s.fixed := by
  simp only [State.pieceEnd]; (repeat' split) <;> first | rfl | simp

@[simp] theorem State.deepPiece_fixed (s : State) (a2 : Nat) (a3 : Nat) (a4 : Bool) (a5 : List Nat) : (State.deepPiece s a2 a3 a4 a5).fixed = s.fixed := by
  simp only [State.deepPiece]; (repeat' split) <;> first | rfl | simp

@[simp] theorem State.deepAnswer_fixed (s : State) (a2 : Nat) (a3 : Nat) (a4 : Nat) (a5 : List Nat) : (State.deepAnswer s a2 a3 a4 a5).fixed = s.fixed := by
  simp only [State.deepAnswer]; (repeat' split) <;> first | rfl | simp

@[simp] theorem State.deepEnd_fixed (s : State) (a2 : Nat) : (State.deepEnd s a2).fixed = s.fixed := by
  simp only [State.deepEnd]; (repeat' split) <;> first | rfl | simp

@[simp] theorem State.recordAnswer_fixed (s : State) (a2 : Nat) (a3 : Nat) : (State.recordAnswer s a2 a3).fixed = s.fixed := by
  simp only [State.recordAnswer]; (repeat' split) <;> first | rfl | simp

@[simp] theorem State.answer_fixed (s : State) (a2 : MOwner) (a3 : Nat) (a4 : List Nat) : (State.answer s a2 a3 a4).fixed = s.fixed := by
  simp only [State.answer]; (repeat' split) <;> first | rfl | simp

@[simp] theorem execReadResponse_fixed (a1 : Fin 2) (a2 : Fin 512) (a3 : Fin 4) (a4 : List Byte) (s : State) : Keeps s (execReadResponse a1 a2 a3 a4 s) := by
  simp only [execReadResponse]; (repeat' split) <;> first | rfl | simp

@[simp] theorem execWriteAck_fixed (a1 : Fin 2) (a2 : Fin 512) (a3 : Fin 4) (s : State) : Keeps s (execWriteAck a1 a2 a3 s) := by
  simp only [execWriteAck]; (repeat' split) <;> first | rfl | simp

@[simp] theorem execResponseTimeout_fixed (a1 : Fin 2) (a2 : Fin 512) (s : State) : Keeps s (execResponseTimeout a1 a2 s) := by
  simp only [execResponseTimeout]; (repeat' split) <;> first | rfl | simp

end Sys2Proof.Machine
end

