-- ==== Sys2Proof/Laws/FrameExec.lean ====
section
/-!
SUPPORT. What every command leaves alone: the queue always, the stroke count but for STROKE and the resets, the RWL
lock, PRIMED and RECOVERY but for PRIMING, PRIMED and the resets.
-/

namespace Sys2Proof.Machine

/-- The five commands that change what is fixed. -/
def changesFixed (i : Instr) : Bool :=
  match i with
  | .stroke _ _ | .priming | .primed | .blockReset _ | .aonReset _ => true
  | _ => false

/-- Every other command keeps the queue, the stroke count, the RWL lock, PRIMED and RECOVERY. -/
theorem exec_keeps (i : Instr) (s : State) (h : changesFixed i = false) : Keeps s (exec i s) := by
  cases i <;> first
    | (simp [changesFixed] at h; done)
    | simp [exec]

end Sys2Proof.Machine
end

