-- ==== Sys2Proof/Laws/Tbl.lean ====
section
/-!
SUPPORT. Reading after writing in tables and byte memories, and the canonical form that every store keeps.
-/

namespace Sys2Proof.Machine

variable {α : Type}

@[simp] theorem tget_nil (d : α) (i : Nat) : tget d [] i = d := rfl

/-- A stored entry reads back, and no other entry changes. -/
theorem tget_tput (d : α) (t : Tbl α) (i j : Nat) (v : α) :
    tget d (tput t i v) j = if i = j then v else tget d t j := by
  induction t with
  | nil => simp [tput, tget]
  | cons p t ih =>
    obtain ⟨k, w⟩ := p
    unfold tput
    split
    · simp [tget]
    · split
      · next h => subst h; simp only [tget]; split <;> rfl
      · simp only [tget, ih]
        split
        · next h1 h2 => subst h2; simp [h1]
        · rfl

@[simp] theorem tget_tput_same (d : α) (t : Tbl α) (i : Nat) (v : α) : tget d (tput t i v) i = v := by
  simp [tget_tput]

theorem tget_tput_other (d : α) (t : Tbl α) (i j : Nat) (v : α) (h : i ≠ j) : tget d (tput t i v) j = tget d t j := by
  simp [tget_tput, h]

/-- A removed entry reads as the default, and no other entry changes. -/
theorem tget_tdel (d : α) (t : Tbl α) (i j : Nat) : tget d (tdel t i) j = if i = j then d else tget d t j := by
  induction t with
  | nil => simp [tdel, tget]
  | cons p t ih =>
    obtain ⟨k, w⟩ := p
    unfold tdel
    split
    · next h => subst h; simp only [ih, tget]; split <;> rfl
    · next h =>
      simp only [tget, ih]
      split
      · next h2 => subst h2; simp [Ne.symm h]
      · rfl

/-- The same for a store that lists only what differs from the default. -/
theorem tget_tset [DecidableEq α] (d : α) (t : Tbl α) (i j : Nat) (v : α) :
    tget d (tset d t i v) j = if i = j then v else tget d t j := by
  unfold tset
  split
  · next h => subst h; exact tget_tdel v t i j
  · exact tget_tput d t i j v

/-- A second store at the same key replaces the first. -/
@[simp] theorem tput_tput (t : Tbl α) (i : Nat) (v w : α) : tput (tput t i v) i w = tput t i w := by
  induction t with
  | nil => simp [tput]
  | cons p t ih =>
    obtain ⟨k, u⟩ := p
    by_cases h : i < k
    · simp [tput, h]
    · by_cases h2 : i = k
      · simp [tput, h2]
      · simp [tput, h, h2, ih]

theorem tfind_tput (t : Tbl α) (i j : Nat) (v : α) : tfind (tput t i v) j = if i = j then some v else tfind t j := by
  induction t with
  | nil => simp [tput, tfind]
  | cons p t ih =>
    obtain ⟨k, w⟩ := p
    unfold tput
    split
    · simp [tfind]
    · split
      · next h => subst h; simp only [tfind]; split <;> rfl
      · simp only [tfind, ih]
        split
        · next h1 h2 => subst h2; simp [h1]
        · rfl

/-! ### The canonical form -/

theorem wfFrom_le [DecidableEq α] (d : α) (t : Tbl α) (a b : Nat) (h : b ≤ a) (w : Tbl.wfFrom d a t = true) :
    Tbl.wfFrom d b t = true := by
  cases t with
  | nil => rfl
  | cons p t =>
    simp only [Tbl.wfFrom, Bool.and_eq_true, decide_eq_true_eq] at w ⊢
    exact ⟨⟨le_trans h w.1.1, w.1.2⟩, w.2⟩

theorem wfFrom_tdel [DecidableEq α] (d : α) (t : Tbl α) (i lo : Nat) (w : Tbl.wfFrom d lo t = true) :
    Tbl.wfFrom d lo (tdel t i) = true := by
  induction t generalizing lo with
  | nil => rfl
  | cons p t ih =>
    simp only [Tbl.wfFrom, Bool.and_eq_true, decide_eq_true_eq] at w
    unfold tdel
    split
    · exact wfFrom_le d _ (p.1 + 1) lo (by omega) (ih _ w.2)
    · simp only [Tbl.wfFrom, Bool.and_eq_true, decide_eq_true_eq]
      exact ⟨w.1, ih _ w.2⟩

theorem wfFrom_tput [DecidableEq α] (d : α) (t : Tbl α) (i lo : Nat) (v : α) (hv : v ≠ d) (hi : lo ≤ i)
    (w : Tbl.wfFrom d lo t = true) : Tbl.wfFrom d lo (tput t i v) = true := by
  induction t generalizing lo with
  | nil => simp [tput, Tbl.wfFrom, hv, hi]
  | cons p t ih =>
    simp only [Tbl.wfFrom, Bool.and_eq_true, decide_eq_true_eq] at w
    unfold tput
    split
    · next h =>
      simp only [Tbl.wfFrom, Bool.and_eq_true, decide_eq_true_eq]
      exact ⟨⟨hi, hv⟩, ⟨by omega, w.1.2⟩, w.2⟩
    · split
      · next h =>
        subst h
        simp only [Tbl.wfFrom, Bool.and_eq_true, decide_eq_true_eq]
        exact ⟨⟨hi, hv⟩, w.2⟩
      · simp only [Tbl.wfFrom, Bool.and_eq_true, decide_eq_true_eq]
        exact ⟨w.1, ih _ (by omega) w.2⟩

/-- A store keeps the canonical form. -/
theorem wf_tset [DecidableEq α] (d : α) (t : Tbl α) (i : Nat) (v : α) (w : Tbl.wf d t = true) :
    Tbl.wf d (tset d t i v) = true := by
  unfold tset
  split
  · exact wfFrom_tdel d t i 0 w
  · next h => exact wfFrom_tput d t i 0 v h (Nat.zero_le _) w

theorem wf_writeLE (t : Tbl Byte) (a n v : Nat) (w : Tbl.wf 0 t = true) : Tbl.wf 0 (writeLE t a n v) = true := by
  induction n generalizing t a v with
  | zero => exact w
  | succ n ih => exact ih _ _ _ (wf_tset 0 t a _ w)

theorem wf_writeBytes (t : Tbl Byte) (a : Nat) (bs : List Nat) (w : Tbl.wf 0 t = true) :
    Tbl.wf 0 (writeBytes t a bs) = true := by
  induction bs generalizing t a with
  | nil => exact w
  | cons b bs ih => exact ih _ _ (wf_tset 0 t a _ w)

/-! ### Bytes and little-endian words (R5) -/

theorem byteAt_tset (t : Tbl Byte) (a b : Nat) (v : Byte) : byteAt (tset 0 t a v) b = if a = b then v else byteAt t b :=
  tget_tset 0 t a b v

/-- A byte outside the stored bytes is unchanged; byte `i` of them is byte `i` of the value. -/
theorem byteAt_writeLE (t : Tbl Byte) (a n v b : Nat) :
    byteAt (writeLE t a n v) b = if a ≤ b ∧ b < a + n then BitVec.ofNat 8 (v / 256 ^ (b - a)) else byteAt t b := by
  induction n generalizing t a v with
  | zero =>
    simp only [writeLE]
    rw [if_neg (by omega)]
  | succ n ih =>
    simp only [writeLE]
    rw [ih, byteAt_tset]
    by_cases h : a = b
    · subst h
      rw [if_neg (by omega), if_pos rfl, if_pos (by omega)]
      simp
    · rw [if_neg h]
      by_cases h2 : a + 1 ≤ b ∧ b < a + 1 + n
      · rw [if_pos h2, if_pos (by omega), Nat.div_div_eq_div_mul]
        congr 2
        rw [show b - a = (b - (a + 1)) + 1 by omega, pow_succ, mul_comm]
      · rw [if_neg h2, if_neg (by omega)]

theorem readLE_lt (t : Tbl Byte) (a n : Nat) : readLE t a n < 256 ^ n := by
  induction n generalizing a with
  | zero => simp [readLE]
  | succ n ih =>
    simp only [readLE, pow_succ]
    have h1 := (byteAt t a).isLt
    have h2 := ih (a + 1)
    omega

/-- Two memories that agree on the bytes read give the same value. -/
theorem readLE_congr (t u : Tbl Byte) (a n : Nat) (h : ∀ i, i < n → byteAt t (a + i) = byteAt u (a + i)) :
    readLE t a n = readLE u a n := by
  induction n generalizing a with
  | zero => rfl
  | succ n ih =>
    simp only [readLE]
    rw [ih (a + 1) (fun i hi => by have := h (i + 1) (by omega); rwa [show a + 1 + i = a + (i + 1) by omega])]
    have := h 0 (by omega)
    simp only [Nat.add_zero] at this
    rw [this]

/-- A value that has been stored reads back, in the bytes that hold it. -/
theorem readLE_writeLE (t : Tbl Byte) (a n v : Nat) : readLE (writeLE t a n v) a n = v % 256 ^ n := by
  induction n generalizing t a v with
  | zero => simp [readLE, Nat.mod_one]
  | succ n ih =>
    simp only [readLE, writeLE]
    rw [ih, byteAt_writeLE, if_neg (by omega), byteAt_tset, if_pos rfl]
    rw [pow_succ, mul_comm (256 ^ n) 256, BitVec.toNat_ofNat]
    exact (Nat.mod_mul (x := v) (a := 256) (b := 256 ^ n)).symm

end Sys2Proof.Machine
end

