-- ==== Sys2Proof/Laws/State.lean ====
section
/-!
SUPPORT. What each named update of State leaves: every field but its own, and its own entry read back.
-/

namespace Sys2Proof.Machine

/-- `setTh` writes the field `threads` alone. -/
@[simp] theorem State.setTh_frame (s : State) (x : Nat) (t : Thread) :
    (s.setTh x t).pending = s.pending ∧ (s.setTh x t).strokes = s.strokes ∧ (s.setTh x t).opened = s.opened ∧
    (s.setTh x t).rank = s.rank ∧ (s.setTh x t).lbs = s.lbs ∧ (s.setTh x t).pbs = s.pbs ∧
    (s.setTh x t).gbits = s.gbits ∧ (s.setTh x t).gpend = s.gpend ∧ (s.setTh x t).winPend = s.winPend ∧
    (s.setTh x t).winFifo = s.winFifo ∧ (s.setTh x t).winDone = s.winDone ∧ (s.setTh x t).shown = s.shown ∧
    (s.setTh x t).shownNext = s.shownNext ∧ (s.setTh x t).ecc = s.ecc ∧ (s.setTh x t).eccDue = s.eccDue ∧
    (s.setTh x t).regs = s.regs ∧ (s.setTh x t).locked = s.locked ∧ (s.setTh x t).evq = s.evq ∧
    (s.setTh x t).draws = s.draws ∧ (s.setTh x t).pump = s.pump ∧ (s.setTh x t).locks = s.locks ∧
    (s.setTh x t).tb = s.tb ∧ (s.setTh x t).mf = s.mf ∧ (s.setTh x t).gov = s.gov ∧
    (s.setTh x t).valves = s.valves ∧ (s.setTh x t).pins = s.pins ∧ (s.setTh x t).flags = s.flags ∧
    (s.setTh x t).flagCycs = s.flagCycs ∧ (s.setTh x t).ports = s.ports ∧ (s.setTh x t).host = s.host ∧
    (s.setTh x t).wh = s.wh ∧ (s.setTh x t).dbg = s.dbg ∧ (s.setTh x t).mram = s.mram ∧
    (s.setTh x t).inReset = s.inReset ∧ (s.setTh x t).reg = s.reg ∧ (s.setTh x t).lb = s.lb ∧
    (s.setTh x t).pb = s.pb ∧ (s.setTh x t).valve = s.valve ∧ (s.setTh x t).port = s.port ∧
    (s.setTh x t).chan = s.chan ∧ (s.setTh x t).cell = s.cell ∧ (s.setTh x t).ring = s.ring ∧
    (s.setTh x t).part = s.part ∧ (s.setTh x t).ck = s.ck ∧ (s.setTh x t).up = s.up :=
  ⟨rfl, rfl, rfl, rfl, rfl, rfl, rfl, rfl, rfl, rfl, rfl, rfl, rfl, rfl, rfl, rfl, rfl, rfl, rfl, rfl, rfl, rfl, rfl, rfl, rfl, rfl, rfl, rfl, rfl, rfl, rfl, rfl, rfl, rfl, rfl, rfl, rfl, rfl, rfl, rfl, rfl, rfl, rfl, rfl, rfl⟩

/-- `modTh` writes the field `threads` alone. -/
@[simp] theorem State.modTh_frame (s : State) (x : Nat) (f : Thread → Thread) :
    (s.modTh x f).pending = s.pending ∧ (s.modTh x f).strokes = s.strokes ∧ (s.modTh x f).opened = s.opened ∧
    (s.modTh x f).rank = s.rank ∧ (s.modTh x f).lbs = s.lbs ∧ (s.modTh x f).pbs = s.pbs ∧
    (s.modTh x f).gbits = s.gbits ∧ (s.modTh x f).gpend = s.gpend ∧ (s.modTh x f).winPend = s.winPend ∧
    (s.modTh x f).winFifo = s.winFifo ∧ (s.modTh x f).winDone = s.winDone ∧ (s.modTh x f).shown = s.shown ∧
    (s.modTh x f).shownNext = s.shownNext ∧ (s.modTh x f).ecc = s.ecc ∧ (s.modTh x f).eccDue = s.eccDue ∧
    (s.modTh x f).regs = s.regs ∧ (s.modTh x f).locked = s.locked ∧ (s.modTh x f).evq = s.evq ∧
    (s.modTh x f).draws = s.draws ∧ (s.modTh x f).pump = s.pump ∧ (s.modTh x f).locks = s.locks ∧
    (s.modTh x f).tb = s.tb ∧ (s.modTh x f).mf = s.mf ∧ (s.modTh x f).gov = s.gov ∧
    (s.modTh x f).valves = s.valves ∧ (s.modTh x f).pins = s.pins ∧ (s.modTh x f).flags = s.flags ∧
    (s.modTh x f).flagCycs = s.flagCycs ∧ (s.modTh x f).ports = s.ports ∧ (s.modTh x f).host = s.host ∧
    (s.modTh x f).wh = s.wh ∧ (s.modTh x f).dbg = s.dbg ∧ (s.modTh x f).mram = s.mram ∧
    (s.modTh x f).inReset = s.inReset ∧ (s.modTh x f).reg = s.reg ∧ (s.modTh x f).lb = s.lb ∧
    (s.modTh x f).pb = s.pb ∧ (s.modTh x f).valve = s.valve ∧ (s.modTh x f).port = s.port ∧
    (s.modTh x f).chan = s.chan ∧ (s.modTh x f).cell = s.cell ∧ (s.modTh x f).ring = s.ring ∧
    (s.modTh x f).part = s.part ∧ (s.modTh x f).ck = s.ck ∧ (s.modTh x f).up = s.up :=
  ⟨rfl, rfl, rfl, rfl, rfl, rfl, rfl, rfl, rfl, rfl, rfl, rfl, rfl, rfl, rfl, rfl, rfl, rfl, rfl, rfl, rfl, rfl, rfl, rfl, rfl, rfl, rfl, rfl, rfl, rfl, rfl, rfl, rfl, rfl, rfl, rfl, rfl, rfl, rfl, rfl, rfl, rfl, rfl, rfl, rfl⟩

/-- `setLb` writes the field `lbs` alone. -/
@[simp] theorem State.setLb_frame (s : State) (n : Nat) (b : LBore) :
    (s.setLb n b).pending = s.pending ∧ (s.setLb n b).strokes = s.strokes ∧ (s.setLb n b).opened = s.opened ∧
    (s.setLb n b).rank = s.rank ∧ (s.setLb n b).threads = s.threads ∧ (s.setLb n b).pbs = s.pbs ∧
    (s.setLb n b).gbits = s.gbits ∧ (s.setLb n b).gpend = s.gpend ∧ (s.setLb n b).winPend = s.winPend ∧
    (s.setLb n b).winFifo = s.winFifo ∧ (s.setLb n b).winDone = s.winDone ∧ (s.setLb n b).shown = s.shown ∧
    (s.setLb n b).shownNext = s.shownNext ∧ (s.setLb n b).ecc = s.ecc ∧ (s.setLb n b).eccDue = s.eccDue ∧
    (s.setLb n b).regs = s.regs ∧ (s.setLb n b).locked = s.locked ∧ (s.setLb n b).evq = s.evq ∧
    (s.setLb n b).draws = s.draws ∧ (s.setLb n b).pump = s.pump ∧ (s.setLb n b).locks = s.locks ∧
    (s.setLb n b).tb = s.tb ∧ (s.setLb n b).mf = s.mf ∧ (s.setLb n b).gov = s.gov ∧
    (s.setLb n b).valves = s.valves ∧ (s.setLb n b).pins = s.pins ∧ (s.setLb n b).flags = s.flags ∧
    (s.setLb n b).flagCycs = s.flagCycs ∧ (s.setLb n b).ports = s.ports ∧ (s.setLb n b).host = s.host ∧
    (s.setLb n b).wh = s.wh ∧ (s.setLb n b).dbg = s.dbg ∧ (s.setLb n b).mram = s.mram ∧
    (s.setLb n b).inReset = s.inReset ∧ (s.setLb n b).reg = s.reg ∧ (s.setLb n b).th = s.th ∧
    (s.setLb n b).pb = s.pb ∧ (s.setLb n b).valve = s.valve ∧ (s.setLb n b).port = s.port ∧
    (s.setLb n b).chan = s.chan ∧ (s.setLb n b).cell = s.cell ∧ (s.setLb n b).ring = s.ring ∧
    (s.setLb n b).part = s.part ∧ (s.setLb n b).ck = s.ck ∧ (s.setLb n b).up = s.up :=
  ⟨rfl, rfl, rfl, rfl, rfl, rfl, rfl, rfl, rfl, rfl, rfl, rfl, rfl, rfl, rfl, rfl, rfl, rfl, rfl, rfl, rfl, rfl, rfl, rfl, rfl, rfl, rfl, rfl, rfl, rfl, rfl, rfl, rfl, rfl, rfl, rfl, rfl, rfl, rfl, rfl, rfl, rfl, rfl, rfl, rfl⟩

/-- `modLb` writes the field `lbs` alone. -/
@[simp] theorem State.modLb_frame (s : State) (n : Nat) (f : LBore → LBore) :
    (s.modLb n f).pending = s.pending ∧ (s.modLb n f).strokes = s.strokes ∧ (s.modLb n f).opened = s.opened ∧
    (s.modLb n f).rank = s.rank ∧ (s.modLb n f).threads = s.threads ∧ (s.modLb n f).pbs = s.pbs ∧
    (s.modLb n f).gbits = s.gbits ∧ (s.modLb n f).gpend = s.gpend ∧ (s.modLb n f).winPend = s.winPend ∧
    (s.modLb n f).winFifo = s.winFifo ∧ (s.modLb n f).winDone = s.winDone ∧ (s.modLb n f).shown = s.shown ∧
    (s.modLb n f).shownNext = s.shownNext ∧ (s.modLb n f).ecc = s.ecc ∧ (s.modLb n f).eccDue = s.eccDue ∧
    (s.modLb n f).regs = s.regs ∧ (s.modLb n f).locked = s.locked ∧ (s.modLb n f).evq = s.evq ∧
    (s.modLb n f).draws = s.draws ∧ (s.modLb n f).pump = s.pump ∧ (s.modLb n f).locks = s.locks ∧
    (s.modLb n f).tb = s.tb ∧ (s.modLb n f).mf = s.mf ∧ (s.modLb n f).gov = s.gov ∧
    (s.modLb n f).valves = s.valves ∧ (s.modLb n f).pins = s.pins ∧ (s.modLb n f).flags = s.flags ∧
    (s.modLb n f).flagCycs = s.flagCycs ∧ (s.modLb n f).ports = s.ports ∧ (s.modLb n f).host = s.host ∧
    (s.modLb n f).wh = s.wh ∧ (s.modLb n f).dbg = s.dbg ∧ (s.modLb n f).mram = s.mram ∧
    (s.modLb n f).inReset = s.inReset ∧ (s.modLb n f).reg = s.reg ∧ (s.modLb n f).th = s.th ∧
    (s.modLb n f).pb = s.pb ∧ (s.modLb n f).valve = s.valve ∧ (s.modLb n f).port = s.port ∧
    (s.modLb n f).chan = s.chan ∧ (s.modLb n f).cell = s.cell ∧ (s.modLb n f).ring = s.ring ∧
    (s.modLb n f).part = s.part ∧ (s.modLb n f).ck = s.ck ∧ (s.modLb n f).up = s.up :=
  ⟨rfl, rfl, rfl, rfl, rfl, rfl, rfl, rfl, rfl, rfl, rfl, rfl, rfl, rfl, rfl, rfl, rfl, rfl, rfl, rfl, rfl, rfl, rfl, rfl, rfl, rfl, rfl, rfl, rfl, rfl, rfl, rfl, rfl, rfl, rfl, rfl, rfl, rfl, rfl, rfl, rfl, rfl, rfl, rfl, rfl⟩

/-- `modPb` writes the field `pbs` alone. -/
@[simp] theorem State.modPb_frame (s : State) (n : Nat) (f : PBore → PBore) :
    (s.modPb n f).pending = s.pending ∧ (s.modPb n f).strokes = s.strokes ∧ (s.modPb n f).opened = s.opened ∧
    (s.modPb n f).rank = s.rank ∧ (s.modPb n f).threads = s.threads ∧ (s.modPb n f).lbs = s.lbs ∧
    (s.modPb n f).gbits = s.gbits ∧ (s.modPb n f).gpend = s.gpend ∧ (s.modPb n f).winPend = s.winPend ∧
    (s.modPb n f).winFifo = s.winFifo ∧ (s.modPb n f).winDone = s.winDone ∧ (s.modPb n f).shown = s.shown ∧
    (s.modPb n f).shownNext = s.shownNext ∧ (s.modPb n f).ecc = s.ecc ∧ (s.modPb n f).eccDue = s.eccDue ∧
    (s.modPb n f).regs = s.regs ∧ (s.modPb n f).locked = s.locked ∧ (s.modPb n f).evq = s.evq ∧
    (s.modPb n f).draws = s.draws ∧ (s.modPb n f).pump = s.pump ∧ (s.modPb n f).locks = s.locks ∧
    (s.modPb n f).tb = s.tb ∧ (s.modPb n f).mf = s.mf ∧ (s.modPb n f).gov = s.gov ∧
    (s.modPb n f).valves = s.valves ∧ (s.modPb n f).pins = s.pins ∧ (s.modPb n f).flags = s.flags ∧
    (s.modPb n f).flagCycs = s.flagCycs ∧ (s.modPb n f).ports = s.ports ∧ (s.modPb n f).host = s.host ∧
    (s.modPb n f).wh = s.wh ∧ (s.modPb n f).dbg = s.dbg ∧ (s.modPb n f).mram = s.mram ∧
    (s.modPb n f).inReset = s.inReset ∧ (s.modPb n f).reg = s.reg ∧ (s.modPb n f).th = s.th ∧
    (s.modPb n f).lb = s.lb ∧ (s.modPb n f).valve = s.valve ∧ (s.modPb n f).port = s.port ∧
    (s.modPb n f).chan = s.chan ∧ (s.modPb n f).cell = s.cell ∧ (s.modPb n f).ring = s.ring ∧
    (s.modPb n f).part = s.part ∧ (s.modPb n f).ck = s.ck ∧ (s.modPb n f).up = s.up :=
  ⟨rfl, rfl, rfl, rfl, rfl, rfl, rfl, rfl, rfl, rfl, rfl, rfl, rfl, rfl, rfl, rfl, rfl, rfl, rfl, rfl, rfl, rfl, rfl, rfl, rfl, rfl, rfl, rfl, rfl, rfl, rfl, rfl, rfl, rfl, rfl, rfl, rfl, rfl, rfl, rfl, rfl, rfl, rfl, rfl, rfl⟩

/-- `event` writes the field `evq` alone. -/
@[simp] theorem State.event_frame (s : State) (a b c d e : Nat) :
    (s.event a b c d e).pending = s.pending ∧ (s.event a b c d e).strokes = s.strokes ∧ (s.event a b c d e).opened = s.opened ∧
    (s.event a b c d e).rank = s.rank ∧ (s.event a b c d e).threads = s.threads ∧ (s.event a b c d e).lbs = s.lbs ∧
    (s.event a b c d e).pbs = s.pbs ∧ (s.event a b c d e).gbits = s.gbits ∧ (s.event a b c d e).gpend = s.gpend ∧
    (s.event a b c d e).winPend = s.winPend ∧ (s.event a b c d e).winFifo = s.winFifo ∧ (s.event a b c d e).winDone = s.winDone ∧
    (s.event a b c d e).shown = s.shown ∧ (s.event a b c d e).shownNext = s.shownNext ∧ (s.event a b c d e).ecc = s.ecc ∧
    (s.event a b c d e).eccDue = s.eccDue ∧ (s.event a b c d e).regs = s.regs ∧ (s.event a b c d e).locked = s.locked ∧
    (s.event a b c d e).draws = s.draws ∧ (s.event a b c d e).pump = s.pump ∧ (s.event a b c d e).locks = s.locks ∧
    (s.event a b c d e).tb = s.tb ∧ (s.event a b c d e).mf = s.mf ∧ (s.event a b c d e).gov = s.gov ∧
    (s.event a b c d e).valves = s.valves ∧ (s.event a b c d e).pins = s.pins ∧ (s.event a b c d e).flags = s.flags ∧
    (s.event a b c d e).flagCycs = s.flagCycs ∧ (s.event a b c d e).ports = s.ports ∧ (s.event a b c d e).host = s.host ∧
    (s.event a b c d e).wh = s.wh ∧ (s.event a b c d e).dbg = s.dbg ∧ (s.event a b c d e).mram = s.mram ∧
    (s.event a b c d e).inReset = s.inReset ∧ (s.event a b c d e).reg = s.reg ∧ (s.event a b c d e).th = s.th ∧
    (s.event a b c d e).lb = s.lb ∧ (s.event a b c d e).pb = s.pb ∧ (s.event a b c d e).valve = s.valve ∧
    (s.event a b c d e).port = s.port ∧ (s.event a b c d e).chan = s.chan ∧ (s.event a b c d e).cell = s.cell ∧
    (s.event a b c d e).ring = s.ring ∧ (s.event a b c d e).part = s.part ∧ (s.event a b c d e).ck = s.ck ∧
    (s.event a b c d e).up = s.up :=
  ⟨rfl, rfl, rfl, rfl, rfl, rfl, rfl, rfl, rfl, rfl, rfl, rfl, rfl, rfl, rfl, rfl, rfl, rfl, rfl, rfl, rfl, rfl, rfl, rfl, rfl, rfl, rfl, rfl, rfl, rfl, rfl, rfl, rfl, rfl, rfl, rfl, rfl, rfl, rfl, rfl, rfl, rfl, rfl, rfl, rfl, rfl⟩

/-- `alarmEvent` writes the field `evq` alone. -/
@[simp] theorem State.alarmEvent_frame (s : State) (a b c d : Nat) :
    (s.alarmEvent a b c d).pending = s.pending ∧ (s.alarmEvent a b c d).strokes = s.strokes ∧ (s.alarmEvent a b c d).opened = s.opened ∧
    (s.alarmEvent a b c d).rank = s.rank ∧ (s.alarmEvent a b c d).threads = s.threads ∧ (s.alarmEvent a b c d).lbs = s.lbs ∧
    (s.alarmEvent a b c d).pbs = s.pbs ∧ (s.alarmEvent a b c d).gbits = s.gbits ∧ (s.alarmEvent a b c d).gpend = s.gpend ∧
    (s.alarmEvent a b c d).winPend = s.winPend ∧ (s.alarmEvent a b c d).winFifo = s.winFifo ∧ (s.alarmEvent a b c d).winDone = s.winDone ∧
    (s.alarmEvent a b c d).shown = s.shown ∧ (s.alarmEvent a b c d).shownNext = s.shownNext ∧ (s.alarmEvent a b c d).ecc = s.ecc ∧
    (s.alarmEvent a b c d).eccDue = s.eccDue ∧ (s.alarmEvent a b c d).regs = s.regs ∧ (s.alarmEvent a b c d).locked = s.locked ∧
    (s.alarmEvent a b c d).draws = s.draws ∧ (s.alarmEvent a b c d).pump = s.pump ∧ (s.alarmEvent a b c d).locks = s.locks ∧
    (s.alarmEvent a b c d).tb = s.tb ∧ (s.alarmEvent a b c d).mf = s.mf ∧ (s.alarmEvent a b c d).gov = s.gov ∧
    (s.alarmEvent a b c d).valves = s.valves ∧ (s.alarmEvent a b c d).pins = s.pins ∧ (s.alarmEvent a b c d).flags = s.flags ∧
    (s.alarmEvent a b c d).flagCycs = s.flagCycs ∧ (s.alarmEvent a b c d).ports = s.ports ∧ (s.alarmEvent a b c d).host = s.host ∧
    (s.alarmEvent a b c d).wh = s.wh ∧ (s.alarmEvent a b c d).dbg = s.dbg ∧ (s.alarmEvent a b c d).mram = s.mram ∧
    (s.alarmEvent a b c d).inReset = s.inReset ∧ (s.alarmEvent a b c d).reg = s.reg ∧ (s.alarmEvent a b c d).th = s.th ∧
    (s.alarmEvent a b c d).lb = s.lb ∧ (s.alarmEvent a b c d).pb = s.pb ∧ (s.alarmEvent a b c d).valve = s.valve ∧
    (s.alarmEvent a b c d).port = s.port ∧ (s.alarmEvent a b c d).chan = s.chan ∧ (s.alarmEvent a b c d).cell = s.cell ∧
    (s.alarmEvent a b c d).ring = s.ring ∧ (s.alarmEvent a b c d).part = s.part ∧ (s.alarmEvent a b c d).ck = s.ck ∧
    (s.alarmEvent a b c d).up = s.up :=
  ⟨rfl, rfl, rfl, rfl, rfl, rfl, rfl, rfl, rfl, rfl, rfl, rfl, rfl, rfl, rfl, rfl, rfl, rfl, rfl, rfl, rfl, rfl, rfl, rfl, rfl, rfl, rfl, rfl, rfl, rfl, rfl, rfl, rfl, rfl, rfl, rfl, rfl, rfl, rfl, rfl, rfl, rfl, rfl, rfl, rfl, rfl⟩

/-- `traceEvent` writes the field `evq` alone. -/
@[simp] theorem State.traceEvent_frame (s : State) (a b c d : Nat) :
    (s.traceEvent a b c d).pending = s.pending ∧ (s.traceEvent a b c d).strokes = s.strokes ∧ (s.traceEvent a b c d).opened = s.opened ∧
    (s.traceEvent a b c d).rank = s.rank ∧ (s.traceEvent a b c d).threads = s.threads ∧ (s.traceEvent a b c d).lbs = s.lbs ∧
    (s.traceEvent a b c d).pbs = s.pbs ∧ (s.traceEvent a b c d).gbits = s.gbits ∧ (s.traceEvent a b c d).gpend = s.gpend ∧
    (s.traceEvent a b c d).winPend = s.winPend ∧ (s.traceEvent a b c d).winFifo = s.winFifo ∧ (s.traceEvent a b c d).winDone = s.winDone ∧
    (s.traceEvent a b c d).shown = s.shown ∧ (s.traceEvent a b c d).shownNext = s.shownNext ∧ (s.traceEvent a b c d).ecc = s.ecc ∧
    (s.traceEvent a b c d).eccDue = s.eccDue ∧ (s.traceEvent a b c d).regs = s.regs ∧ (s.traceEvent a b c d).locked = s.locked ∧
    (s.traceEvent a b c d).draws = s.draws ∧ (s.traceEvent a b c d).pump = s.pump ∧ (s.traceEvent a b c d).locks = s.locks ∧
    (s.traceEvent a b c d).tb = s.tb ∧ (s.traceEvent a b c d).mf = s.mf ∧ (s.traceEvent a b c d).gov = s.gov ∧
    (s.traceEvent a b c d).valves = s.valves ∧ (s.traceEvent a b c d).pins = s.pins ∧ (s.traceEvent a b c d).flags = s.flags ∧
    (s.traceEvent a b c d).flagCycs = s.flagCycs ∧ (s.traceEvent a b c d).ports = s.ports ∧ (s.traceEvent a b c d).host = s.host ∧
    (s.traceEvent a b c d).wh = s.wh ∧ (s.traceEvent a b c d).dbg = s.dbg ∧ (s.traceEvent a b c d).mram = s.mram ∧
    (s.traceEvent a b c d).inReset = s.inReset ∧ (s.traceEvent a b c d).reg = s.reg ∧ (s.traceEvent a b c d).th = s.th ∧
    (s.traceEvent a b c d).lb = s.lb ∧ (s.traceEvent a b c d).pb = s.pb ∧ (s.traceEvent a b c d).valve = s.valve ∧
    (s.traceEvent a b c d).port = s.port ∧ (s.traceEvent a b c d).chan = s.chan ∧ (s.traceEvent a b c d).cell = s.cell ∧
    (s.traceEvent a b c d).ring = s.ring ∧ (s.traceEvent a b c d).part = s.part ∧ (s.traceEvent a b c d).ck = s.ck ∧
    (s.traceEvent a b c d).up = s.up :=
  ⟨rfl, rfl, rfl, rfl, rfl, rfl, rfl, rfl, rfl, rfl, rfl, rfl, rfl, rfl, rfl, rfl, rfl, rfl, rfl, rfl, rfl, rfl, rfl, rfl, rfl, rfl, rfl, rfl, rfl, rfl, rfl, rfl, rfl, rfl, rfl, rfl, rfl, rfl, rfl, rfl, rfl, rfl, rfl, rfl, rfl, rfl⟩

/-- `lockViolation` writes the field `evq` alone. -/
@[simp] theorem State.lockViolation_frame (s : State) (a b : Nat) :
    (s.lockViolation a b).pending = s.pending ∧ (s.lockViolation a b).strokes = s.strokes ∧ (s.lockViolation a b).opened = s.opened ∧
    (s.lockViolation a b).rank = s.rank ∧ (s.lockViolation a b).threads = s.threads ∧ (s.lockViolation a b).lbs = s.lbs ∧
    (s.lockViolation a b).pbs = s.pbs ∧ (s.lockViolation a b).gbits = s.gbits ∧ (s.lockViolation a b).gpend = s.gpend ∧
    (s.lockViolation a b).winPend = s.winPend ∧ (s.lockViolation a b).winFifo = s.winFifo ∧ (s.lockViolation a b).winDone = s.winDone ∧
    (s.lockViolation a b).shown = s.shown ∧ (s.lockViolation a b).shownNext = s.shownNext ∧ (s.lockViolation a b).ecc = s.ecc ∧
    (s.lockViolation a b).eccDue = s.eccDue ∧ (s.lockViolation a b).regs = s.regs ∧ (s.lockViolation a b).locked = s.locked ∧
    (s.lockViolation a b).draws = s.draws ∧ (s.lockViolation a b).pump = s.pump ∧ (s.lockViolation a b).locks = s.locks ∧
    (s.lockViolation a b).tb = s.tb ∧ (s.lockViolation a b).mf = s.mf ∧ (s.lockViolation a b).gov = s.gov ∧
    (s.lockViolation a b).valves = s.valves ∧ (s.lockViolation a b).pins = s.pins ∧ (s.lockViolation a b).flags = s.flags ∧
    (s.lockViolation a b).flagCycs = s.flagCycs ∧ (s.lockViolation a b).ports = s.ports ∧ (s.lockViolation a b).host = s.host ∧
    (s.lockViolation a b).wh = s.wh ∧ (s.lockViolation a b).dbg = s.dbg ∧ (s.lockViolation a b).mram = s.mram ∧
    (s.lockViolation a b).inReset = s.inReset ∧ (s.lockViolation a b).reg = s.reg ∧ (s.lockViolation a b).th = s.th ∧
    (s.lockViolation a b).lb = s.lb ∧ (s.lockViolation a b).pb = s.pb ∧ (s.lockViolation a b).valve = s.valve ∧
    (s.lockViolation a b).port = s.port ∧ (s.lockViolation a b).chan = s.chan ∧ (s.lockViolation a b).cell = s.cell ∧
    (s.lockViolation a b).ring = s.ring ∧ (s.lockViolation a b).part = s.part ∧ (s.lockViolation a b).ck = s.ck ∧
    (s.lockViolation a b).up = s.up :=
  ⟨rfl, rfl, rfl, rfl, rfl, rfl, rfl, rfl, rfl, rfl, rfl, rfl, rfl, rfl, rfl, rfl, rfl, rfl, rfl, rfl, rfl, rfl, rfl, rfl, rfl, rfl, rfl, rfl, rfl, rfl, rfl, rfl, rfl, rfl, rfl, rfl, rfl, rfl, rfl, rfl, rfl, rfl, rfl, rfl, rfl, rfl⟩

/-- `gbitWrite` writes the field `gpend` alone. -/
@[simp] theorem State.gbitWrite_frame (s : State) (q r a : Nat) (v : Option Bool) :
    (s.gbitWrite q r a v).pending = s.pending ∧ (s.gbitWrite q r a v).strokes = s.strokes ∧ (s.gbitWrite q r a v).opened = s.opened ∧
    (s.gbitWrite q r a v).rank = s.rank ∧ (s.gbitWrite q r a v).threads = s.threads ∧ (s.gbitWrite q r a v).lbs = s.lbs ∧
    (s.gbitWrite q r a v).pbs = s.pbs ∧ (s.gbitWrite q r a v).gbits = s.gbits ∧ (s.gbitWrite q r a v).winPend = s.winPend ∧
    (s.gbitWrite q r a v).winFifo = s.winFifo ∧ (s.gbitWrite q r a v).winDone = s.winDone ∧ (s.gbitWrite q r a v).shown = s.shown ∧
    (s.gbitWrite q r a v).shownNext = s.shownNext ∧ (s.gbitWrite q r a v).ecc = s.ecc ∧ (s.gbitWrite q r a v).eccDue = s.eccDue ∧
    (s.gbitWrite q r a v).regs = s.regs ∧ (s.gbitWrite q r a v).locked = s.locked ∧ (s.gbitWrite q r a v).evq = s.evq ∧
    (s.gbitWrite q r a v).draws = s.draws ∧ (s.gbitWrite q r a v).pump = s.pump ∧ (s.gbitWrite q r a v).locks = s.locks ∧
    (s.gbitWrite q r a v).tb = s.tb ∧ (s.gbitWrite q r a v).mf = s.mf ∧ (s.gbitWrite q r a v).gov = s.gov ∧
    (s.gbitWrite q r a v).valves = s.valves ∧ (s.gbitWrite q r a v).pins = s.pins ∧ (s.gbitWrite q r a v).flags = s.flags ∧
    (s.gbitWrite q r a v).flagCycs = s.flagCycs ∧ (s.gbitWrite q r a v).ports = s.ports ∧ (s.gbitWrite q r a v).host = s.host ∧
    (s.gbitWrite q r a v).wh = s.wh ∧ (s.gbitWrite q r a v).dbg = s.dbg ∧ (s.gbitWrite q r a v).mram = s.mram ∧
    (s.gbitWrite q r a v).inReset = s.inReset ∧ (s.gbitWrite q r a v).reg = s.reg ∧ (s.gbitWrite q r a v).th = s.th ∧
    (s.gbitWrite q r a v).lb = s.lb ∧ (s.gbitWrite q r a v).pb = s.pb ∧ (s.gbitWrite q r a v).valve = s.valve ∧
    (s.gbitWrite q r a v).port = s.port ∧ (s.gbitWrite q r a v).chan = s.chan ∧ (s.gbitWrite q r a v).cell = s.cell ∧
    (s.gbitWrite q r a v).ring = s.ring ∧ (s.gbitWrite q r a v).part = s.part ∧ (s.gbitWrite q r a v).ck = s.ck ∧
    (s.gbitWrite q r a v).up = s.up :=
  ⟨rfl, rfl, rfl, rfl, rfl, rfl, rfl, rfl, rfl, rfl, rfl, rfl, rfl, rfl, rfl, rfl, rfl, rfl, rfl, rfl, rfl, rfl, rfl, rfl, rfl, rfl, rfl, rfl, rfl, rfl, rfl, rfl, rfl, rfl, rfl, rfl, rfl, rfl, rfl, rfl, rfl, rfl, rfl, rfl, rfl, rfl⟩

/-- `setEcc` writes the field `ecc` alone. -/
@[simp] theorem State.setEcc_frame (s : State) (m : Mem) (w : Nat) (e : Option EccState) :
    (s.setEcc m w e).pending = s.pending ∧ (s.setEcc m w e).strokes = s.strokes ∧ (s.setEcc m w e).opened = s.opened ∧
    (s.setEcc m w e).rank = s.rank ∧ (s.setEcc m w e).threads = s.threads ∧ (s.setEcc m w e).lbs = s.lbs ∧
    (s.setEcc m w e).pbs = s.pbs ∧ (s.setEcc m w e).gbits = s.gbits ∧ (s.setEcc m w e).gpend = s.gpend ∧
    (s.setEcc m w e).winPend = s.winPend ∧ (s.setEcc m w e).winFifo = s.winFifo ∧ (s.setEcc m w e).winDone = s.winDone ∧
    (s.setEcc m w e).shown = s.shown ∧ (s.setEcc m w e).shownNext = s.shownNext ∧ (s.setEcc m w e).eccDue = s.eccDue ∧
    (s.setEcc m w e).regs = s.regs ∧ (s.setEcc m w e).locked = s.locked ∧ (s.setEcc m w e).evq = s.evq ∧
    (s.setEcc m w e).draws = s.draws ∧ (s.setEcc m w e).pump = s.pump ∧ (s.setEcc m w e).locks = s.locks ∧
    (s.setEcc m w e).tb = s.tb ∧ (s.setEcc m w e).mf = s.mf ∧ (s.setEcc m w e).gov = s.gov ∧
    (s.setEcc m w e).valves = s.valves ∧ (s.setEcc m w e).pins = s.pins ∧ (s.setEcc m w e).flags = s.flags ∧
    (s.setEcc m w e).flagCycs = s.flagCycs ∧ (s.setEcc m w e).ports = s.ports ∧ (s.setEcc m w e).host = s.host ∧
    (s.setEcc m w e).wh = s.wh ∧ (s.setEcc m w e).dbg = s.dbg ∧ (s.setEcc m w e).mram = s.mram ∧
    (s.setEcc m w e).inReset = s.inReset ∧ (s.setEcc m w e).reg = s.reg ∧ (s.setEcc m w e).th = s.th ∧
    (s.setEcc m w e).lb = s.lb ∧ (s.setEcc m w e).pb = s.pb ∧ (s.setEcc m w e).valve = s.valve ∧
    (s.setEcc m w e).port = s.port ∧ (s.setEcc m w e).chan = s.chan ∧ (s.setEcc m w e).cell = s.cell ∧
    (s.setEcc m w e).ring = s.ring ∧ (s.setEcc m w e).part = s.part ∧ (s.setEcc m w e).ck = s.ck ∧
    (s.setEcc m w e).up = s.up :=
  ⟨rfl, rfl, rfl, rfl, rfl, rfl, rfl, rfl, rfl, rfl, rfl, rfl, rfl, rfl, rfl, rfl, rfl, rfl, rfl, rfl, rfl, rfl, rfl, rfl, rfl, rfl, rfl, rfl, rfl, rfl, rfl, rfl, rfl, rfl, rfl, rfl, rfl, rfl, rfl, rfl, rfl, rfl, rfl, rfl, rfl, rfl⟩

/-- `setReg` writes the field `regs` alone. -/
@[simp] theorem State.setReg_frame (s : State) (o v : Nat) :
    (s.setReg o v).pending = s.pending ∧ (s.setReg o v).strokes = s.strokes ∧ (s.setReg o v).opened = s.opened ∧
    (s.setReg o v).rank = s.rank ∧ (s.setReg o v).threads = s.threads ∧ (s.setReg o v).lbs = s.lbs ∧
    (s.setReg o v).pbs = s.pbs ∧ (s.setReg o v).gbits = s.gbits ∧ (s.setReg o v).gpend = s.gpend ∧
    (s.setReg o v).winPend = s.winPend ∧ (s.setReg o v).winFifo = s.winFifo ∧ (s.setReg o v).winDone = s.winDone ∧
    (s.setReg o v).shown = s.shown ∧ (s.setReg o v).shownNext = s.shownNext ∧ (s.setReg o v).ecc = s.ecc ∧
    (s.setReg o v).eccDue = s.eccDue ∧ (s.setReg o v).locked = s.locked ∧ (s.setReg o v).evq = s.evq ∧
    (s.setReg o v).draws = s.draws ∧ (s.setReg o v).pump = s.pump ∧ (s.setReg o v).locks = s.locks ∧
    (s.setReg o v).tb = s.tb ∧ (s.setReg o v).mf = s.mf ∧ (s.setReg o v).gov = s.gov ∧
    (s.setReg o v).valves = s.valves ∧ (s.setReg o v).pins = s.pins ∧ (s.setReg o v).flags = s.flags ∧
    (s.setReg o v).flagCycs = s.flagCycs ∧ (s.setReg o v).ports = s.ports ∧ (s.setReg o v).host = s.host ∧
    (s.setReg o v).wh = s.wh ∧ (s.setReg o v).dbg = s.dbg ∧ (s.setReg o v).mram = s.mram ∧
    (s.setReg o v).inReset = s.inReset ∧ (s.setReg o v).th = s.th ∧ (s.setReg o v).lb = s.lb ∧
    (s.setReg o v).pb = s.pb ∧ (s.setReg o v).valve = s.valve ∧ (s.setReg o v).port = s.port ∧
    (s.setReg o v).chan = s.chan ∧ (s.setReg o v).cell = s.cell ∧ (s.setReg o v).ring = s.ring ∧
    (s.setReg o v).part = s.part ∧ (s.setReg o v).ck = s.ck ∧ (s.setReg o v).up = s.up :=
  ⟨rfl, rfl, rfl, rfl, rfl, rfl, rfl, rfl, rfl, rfl, rfl, rfl, rfl, rfl, rfl, rfl, rfl, rfl, rfl, rfl, rfl, rfl, rfl, rfl, rfl, rfl, rfl, rfl, rfl, rfl, rfl, rfl, rfl, rfl, rfl, rfl, rfl, rfl, rfl, rfl, rfl, rfl, rfl, rfl, rfl⟩

/-- `modGov` writes the field `gov` alone. -/
@[simp] theorem State.modGov_frame (s : State) (f : GovSt → GovSt) :
    (s.modGov f).pending = s.pending ∧ (s.modGov f).strokes = s.strokes ∧ (s.modGov f).opened = s.opened ∧
    (s.modGov f).rank = s.rank ∧ (s.modGov f).threads = s.threads ∧ (s.modGov f).lbs = s.lbs ∧
    (s.modGov f).pbs = s.pbs ∧ (s.modGov f).gbits = s.gbits ∧ (s.modGov f).gpend = s.gpend ∧
    (s.modGov f).winPend = s.winPend ∧ (s.modGov f).winFifo = s.winFifo ∧ (s.modGov f).winDone = s.winDone ∧
    (s.modGov f).shown = s.shown ∧ (s.modGov f).shownNext = s.shownNext ∧ (s.modGov f).ecc = s.ecc ∧
    (s.modGov f).eccDue = s.eccDue ∧ (s.modGov f).regs = s.regs ∧ (s.modGov f).locked = s.locked ∧
    (s.modGov f).evq = s.evq ∧ (s.modGov f).draws = s.draws ∧ (s.modGov f).pump = s.pump ∧
    (s.modGov f).locks = s.locks ∧ (s.modGov f).tb = s.tb ∧ (s.modGov f).mf = s.mf ∧
    (s.modGov f).valves = s.valves ∧ (s.modGov f).pins = s.pins ∧ (s.modGov f).flags = s.flags ∧
    (s.modGov f).flagCycs = s.flagCycs ∧ (s.modGov f).ports = s.ports ∧ (s.modGov f).host = s.host ∧
    (s.modGov f).wh = s.wh ∧ (s.modGov f).dbg = s.dbg ∧ (s.modGov f).mram = s.mram ∧
    (s.modGov f).inReset = s.inReset ∧ (s.modGov f).reg = s.reg ∧ (s.modGov f).th = s.th ∧
    (s.modGov f).lb = s.lb ∧ (s.modGov f).pb = s.pb ∧ (s.modGov f).valve = s.valve ∧
    (s.modGov f).port = s.port ∧ (s.modGov f).chan = s.chan ∧ (s.modGov f).cell = s.cell ∧
    (s.modGov f).ring = s.ring ∧ (s.modGov f).part = s.part ∧ (s.modGov f).ck = s.ck ∧
    (s.modGov f).up = s.up :=
  ⟨rfl, rfl, rfl, rfl, rfl, rfl, rfl, rfl, rfl, rfl, rfl, rfl, rfl, rfl, rfl, rfl, rfl, rfl, rfl, rfl, rfl, rfl, rfl, rfl, rfl, rfl, rfl, rfl, rfl, rfl, rfl, rfl, rfl, rfl, rfl, rfl, rfl, rfl, rfl, rfl, rfl, rfl, rfl, rfl, rfl, rfl⟩

/-- `modMf` writes the field `mf` alone. -/
@[simp] theorem State.modMf_frame (s : State) (f : ManifoldSt → ManifoldSt) :
    (s.modMf f).pending = s.pending ∧ (s.modMf f).strokes = s.strokes ∧ (s.modMf f).opened = s.opened ∧
    (s.modMf f).rank = s.rank ∧ (s.modMf f).threads = s.threads ∧ (s.modMf f).lbs = s.lbs ∧
    (s.modMf f).pbs = s.pbs ∧ (s.modMf f).gbits = s.gbits ∧ (s.modMf f).gpend = s.gpend ∧
    (s.modMf f).winPend = s.winPend ∧ (s.modMf f).winFifo = s.winFifo ∧ (s.modMf f).winDone = s.winDone ∧
    (s.modMf f).shown = s.shown ∧ (s.modMf f).shownNext = s.shownNext ∧ (s.modMf f).ecc = s.ecc ∧
    (s.modMf f).eccDue = s.eccDue ∧ (s.modMf f).regs = s.regs ∧ (s.modMf f).locked = s.locked ∧
    (s.modMf f).evq = s.evq ∧ (s.modMf f).draws = s.draws ∧ (s.modMf f).pump = s.pump ∧
    (s.modMf f).locks = s.locks ∧ (s.modMf f).tb = s.tb ∧ (s.modMf f).gov = s.gov ∧
    (s.modMf f).valves = s.valves ∧ (s.modMf f).pins = s.pins ∧ (s.modMf f).flags = s.flags ∧
    (s.modMf f).flagCycs = s.flagCycs ∧ (s.modMf f).ports = s.ports ∧ (s.modMf f).host = s.host ∧
    (s.modMf f).wh = s.wh ∧ (s.modMf f).dbg = s.dbg ∧ (s.modMf f).mram = s.mram ∧
    (s.modMf f).inReset = s.inReset ∧ (s.modMf f).reg = s.reg ∧ (s.modMf f).th = s.th ∧
    (s.modMf f).lb = s.lb ∧ (s.modMf f).pb = s.pb ∧ (s.modMf f).valve = s.valve ∧
    (s.modMf f).port = s.port ∧ (s.modMf f).chan = s.chan ∧ (s.modMf f).cell = s.cell ∧
    (s.modMf f).ring = s.ring ∧ (s.modMf f).part = s.part ∧ (s.modMf f).ck = s.ck ∧
    (s.modMf f).up = s.up :=
  ⟨rfl, rfl, rfl, rfl, rfl, rfl, rfl, rfl, rfl, rfl, rfl, rfl, rfl, rfl, rfl, rfl, rfl, rfl, rfl, rfl, rfl, rfl, rfl, rfl, rfl, rfl, rfl, rfl, rfl, rfl, rfl, rfl, rfl, rfl, rfl, rfl, rfl, rfl, rfl, rfl, rfl, rfl, rfl, rfl, rfl, rfl⟩

/-- `modIn` writes the field `mf` alone. -/
@[simp] theorem State.modIn_frame (s : State) (i : Nat) (f : InStat → InStat) :
    (s.modIn i f).pending = s.pending ∧ (s.modIn i f).strokes = s.strokes ∧ (s.modIn i f).opened = s.opened ∧
    (s.modIn i f).rank = s.rank ∧ (s.modIn i f).threads = s.threads ∧ (s.modIn i f).lbs = s.lbs ∧
    (s.modIn i f).pbs = s.pbs ∧ (s.modIn i f).gbits = s.gbits ∧ (s.modIn i f).gpend = s.gpend ∧
    (s.modIn i f).winPend = s.winPend ∧ (s.modIn i f).winFifo = s.winFifo ∧ (s.modIn i f).winDone = s.winDone ∧
    (s.modIn i f).shown = s.shown ∧ (s.modIn i f).shownNext = s.shownNext ∧ (s.modIn i f).ecc = s.ecc ∧
    (s.modIn i f).eccDue = s.eccDue ∧ (s.modIn i f).regs = s.regs ∧ (s.modIn i f).locked = s.locked ∧
    (s.modIn i f).evq = s.evq ∧ (s.modIn i f).draws = s.draws ∧ (s.modIn i f).pump = s.pump ∧
    (s.modIn i f).locks = s.locks ∧ (s.modIn i f).tb = s.tb ∧ (s.modIn i f).gov = s.gov ∧
    (s.modIn i f).valves = s.valves ∧ (s.modIn i f).pins = s.pins ∧ (s.modIn i f).flags = s.flags ∧
    (s.modIn i f).flagCycs = s.flagCycs ∧ (s.modIn i f).ports = s.ports ∧ (s.modIn i f).host = s.host ∧
    (s.modIn i f).wh = s.wh ∧ (s.modIn i f).dbg = s.dbg ∧ (s.modIn i f).mram = s.mram ∧
    (s.modIn i f).inReset = s.inReset ∧ (s.modIn i f).reg = s.reg ∧ (s.modIn i f).th = s.th ∧
    (s.modIn i f).lb = s.lb ∧ (s.modIn i f).pb = s.pb ∧ (s.modIn i f).valve = s.valve ∧
    (s.modIn i f).port = s.port ∧ (s.modIn i f).chan = s.chan ∧ (s.modIn i f).cell = s.cell ∧
    (s.modIn i f).ring = s.ring ∧ (s.modIn i f).part = s.part ∧ (s.modIn i f).ck = s.ck ∧
    (s.modIn i f).up = s.up :=
  ⟨rfl, rfl, rfl, rfl, rfl, rfl, rfl, rfl, rfl, rfl, rfl, rfl, rfl, rfl, rfl, rfl, rfl, rfl, rfl, rfl, rfl, rfl, rfl, rfl, rfl, rfl, rfl, rfl, rfl, rfl, rfl, rfl, rfl, rfl, rfl, rfl, rfl, rfl, rfl, rfl, rfl, rfl, rfl, rfl, rfl, rfl⟩

/-- `modTb` writes the field `tb` alone. -/
@[simp] theorem State.modTb_frame (s : State) (f : TimeSt → TimeSt) :
    (s.modTb f).pending = s.pending ∧ (s.modTb f).strokes = s.strokes ∧ (s.modTb f).opened = s.opened ∧
    (s.modTb f).rank = s.rank ∧ (s.modTb f).threads = s.threads ∧ (s.modTb f).lbs = s.lbs ∧
    (s.modTb f).pbs = s.pbs ∧ (s.modTb f).gbits = s.gbits ∧ (s.modTb f).gpend = s.gpend ∧
    (s.modTb f).winPend = s.winPend ∧ (s.modTb f).winFifo = s.winFifo ∧ (s.modTb f).winDone = s.winDone ∧
    (s.modTb f).shown = s.shown ∧ (s.modTb f).shownNext = s.shownNext ∧ (s.modTb f).ecc = s.ecc ∧
    (s.modTb f).eccDue = s.eccDue ∧ (s.modTb f).regs = s.regs ∧ (s.modTb f).locked = s.locked ∧
    (s.modTb f).evq = s.evq ∧ (s.modTb f).draws = s.draws ∧ (s.modTb f).pump = s.pump ∧
    (s.modTb f).locks = s.locks ∧ (s.modTb f).mf = s.mf ∧ (s.modTb f).gov = s.gov ∧
    (s.modTb f).valves = s.valves ∧ (s.modTb f).pins = s.pins ∧ (s.modTb f).flags = s.flags ∧
    (s.modTb f).flagCycs = s.flagCycs ∧ (s.modTb f).ports = s.ports ∧ (s.modTb f).host = s.host ∧
    (s.modTb f).wh = s.wh ∧ (s.modTb f).dbg = s.dbg ∧ (s.modTb f).mram = s.mram ∧
    (s.modTb f).inReset = s.inReset ∧ (s.modTb f).reg = s.reg ∧ (s.modTb f).th = s.th ∧
    (s.modTb f).lb = s.lb ∧ (s.modTb f).pb = s.pb ∧ (s.modTb f).valve = s.valve ∧
    (s.modTb f).port = s.port ∧ (s.modTb f).chan = s.chan ∧ (s.modTb f).cell = s.cell ∧
    (s.modTb f).ring = s.ring ∧ (s.modTb f).part = s.part ∧ (s.modTb f).up = s.up :=
  ⟨rfl, rfl, rfl, rfl, rfl, rfl, rfl, rfl, rfl, rfl, rfl, rfl, rfl, rfl, rfl, rfl, rfl, rfl, rfl, rfl, rfl, rfl, rfl, rfl, rfl, rfl, rfl, rfl, rfl, rfl, rfl, rfl, rfl, rfl, rfl, rfl, rfl, rfl, rfl, rfl, rfl, rfl, rfl, rfl, rfl⟩

/-- `modCk` writes the field `tb` alone. -/
@[simp] theorem State.modCk_frame (s : State) (i : Nat) (f : CkSlot → CkSlot) :
    (s.modCk i f).pending = s.pending ∧ (s.modCk i f).strokes = s.strokes ∧ (s.modCk i f).opened = s.opened ∧
    (s.modCk i f).rank = s.rank ∧ (s.modCk i f).threads = s.threads ∧ (s.modCk i f).lbs = s.lbs ∧
    (s.modCk i f).pbs = s.pbs ∧ (s.modCk i f).gbits = s.gbits ∧ (s.modCk i f).gpend = s.gpend ∧
    (s.modCk i f).winPend = s.winPend ∧ (s.modCk i f).winFifo = s.winFifo ∧ (s.modCk i f).winDone = s.winDone ∧
    (s.modCk i f).shown = s.shown ∧ (s.modCk i f).shownNext = s.shownNext ∧ (s.modCk i f).ecc = s.ecc ∧
    (s.modCk i f).eccDue = s.eccDue ∧ (s.modCk i f).regs = s.regs ∧ (s.modCk i f).locked = s.locked ∧
    (s.modCk i f).evq = s.evq ∧ (s.modCk i f).draws = s.draws ∧ (s.modCk i f).pump = s.pump ∧
    (s.modCk i f).locks = s.locks ∧ (s.modCk i f).mf = s.mf ∧ (s.modCk i f).gov = s.gov ∧
    (s.modCk i f).valves = s.valves ∧ (s.modCk i f).pins = s.pins ∧ (s.modCk i f).flags = s.flags ∧
    (s.modCk i f).flagCycs = s.flagCycs ∧ (s.modCk i f).ports = s.ports ∧ (s.modCk i f).host = s.host ∧
    (s.modCk i f).wh = s.wh ∧ (s.modCk i f).dbg = s.dbg ∧ (s.modCk i f).mram = s.mram ∧
    (s.modCk i f).inReset = s.inReset ∧ (s.modCk i f).reg = s.reg ∧ (s.modCk i f).th = s.th ∧
    (s.modCk i f).lb = s.lb ∧ (s.modCk i f).pb = s.pb ∧ (s.modCk i f).valve = s.valve ∧
    (s.modCk i f).port = s.port ∧ (s.modCk i f).chan = s.chan ∧ (s.modCk i f).cell = s.cell ∧
    (s.modCk i f).ring = s.ring ∧ (s.modCk i f).part = s.part ∧ (s.modCk i f).up = s.up :=
  ⟨rfl, rfl, rfl, rfl, rfl, rfl, rfl, rfl, rfl, rfl, rfl, rfl, rfl, rfl, rfl, rfl, rfl, rfl, rfl, rfl, rfl, rfl, rfl, rfl, rfl, rfl, rfl, rfl, rfl, rfl, rfl, rfl, rfl, rfl, rfl, rfl, rfl, rfl, rfl, rfl, rfl, rfl, rfl, rfl, rfl⟩

/-- `modGcal` writes the field `tb` alone. -/
@[simp] theorem State.modGcal_frame (s : State) (g : Nat) (f : GCal → GCal) :
    (s.modGcal g f).pending = s.pending ∧ (s.modGcal g f).strokes = s.strokes ∧ (s.modGcal g f).opened = s.opened ∧
    (s.modGcal g f).rank = s.rank ∧ (s.modGcal g f).threads = s.threads ∧ (s.modGcal g f).lbs = s.lbs ∧
    (s.modGcal g f).pbs = s.pbs ∧ (s.modGcal g f).gbits = s.gbits ∧ (s.modGcal g f).gpend = s.gpend ∧
    (s.modGcal g f).winPend = s.winPend ∧ (s.modGcal g f).winFifo = s.winFifo ∧ (s.modGcal g f).winDone = s.winDone ∧
    (s.modGcal g f).shown = s.shown ∧ (s.modGcal g f).shownNext = s.shownNext ∧ (s.modGcal g f).ecc = s.ecc ∧
    (s.modGcal g f).eccDue = s.eccDue ∧ (s.modGcal g f).regs = s.regs ∧ (s.modGcal g f).locked = s.locked ∧
    (s.modGcal g f).evq = s.evq ∧ (s.modGcal g f).draws = s.draws ∧ (s.modGcal g f).pump = s.pump ∧
    (s.modGcal g f).locks = s.locks ∧ (s.modGcal g f).mf = s.mf ∧ (s.modGcal g f).gov = s.gov ∧
    (s.modGcal g f).valves = s.valves ∧ (s.modGcal g f).pins = s.pins ∧ (s.modGcal g f).flags = s.flags ∧
    (s.modGcal g f).flagCycs = s.flagCycs ∧ (s.modGcal g f).ports = s.ports ∧ (s.modGcal g f).host = s.host ∧
    (s.modGcal g f).wh = s.wh ∧ (s.modGcal g f).dbg = s.dbg ∧ (s.modGcal g f).mram = s.mram ∧
    (s.modGcal g f).inReset = s.inReset ∧ (s.modGcal g f).reg = s.reg ∧ (s.modGcal g f).th = s.th ∧
    (s.modGcal g f).lb = s.lb ∧ (s.modGcal g f).pb = s.pb ∧ (s.modGcal g f).valve = s.valve ∧
    (s.modGcal g f).port = s.port ∧ (s.modGcal g f).chan = s.chan ∧ (s.modGcal g f).cell = s.cell ∧
    (s.modGcal g f).ring = s.ring ∧ (s.modGcal g f).part = s.part ∧ (s.modGcal g f).up = s.up :=
  ⟨rfl, rfl, rfl, rfl, rfl, rfl, rfl, rfl, rfl, rfl, rfl, rfl, rfl, rfl, rfl, rfl, rfl, rfl, rfl, rfl, rfl, rfl, rfl, rfl, rfl, rfl, rfl, rfl, rfl, rfl, rfl, rfl, rfl, rfl, rfl, rfl, rfl, rfl, rfl, rfl, rfl, rfl, rfl, rfl, rfl⟩

/-- `modTsq` writes the field `tb` alone. -/
@[simp] theorem State.modTsq_frame (s : State) (n : Nat) (f : Tsq → Tsq) :
    (s.modTsq n f).pending = s.pending ∧ (s.modTsq n f).strokes = s.strokes ∧ (s.modTsq n f).opened = s.opened ∧
    (s.modTsq n f).rank = s.rank ∧ (s.modTsq n f).threads = s.threads ∧ (s.modTsq n f).lbs = s.lbs ∧
    (s.modTsq n f).pbs = s.pbs ∧ (s.modTsq n f).gbits = s.gbits ∧ (s.modTsq n f).gpend = s.gpend ∧
    (s.modTsq n f).winPend = s.winPend ∧ (s.modTsq n f).winFifo = s.winFifo ∧ (s.modTsq n f).winDone = s.winDone ∧
    (s.modTsq n f).shown = s.shown ∧ (s.modTsq n f).shownNext = s.shownNext ∧ (s.modTsq n f).ecc = s.ecc ∧
    (s.modTsq n f).eccDue = s.eccDue ∧ (s.modTsq n f).regs = s.regs ∧ (s.modTsq n f).locked = s.locked ∧
    (s.modTsq n f).evq = s.evq ∧ (s.modTsq n f).draws = s.draws ∧ (s.modTsq n f).pump = s.pump ∧
    (s.modTsq n f).locks = s.locks ∧ (s.modTsq n f).mf = s.mf ∧ (s.modTsq n f).gov = s.gov ∧
    (s.modTsq n f).valves = s.valves ∧ (s.modTsq n f).pins = s.pins ∧ (s.modTsq n f).flags = s.flags ∧
    (s.modTsq n f).flagCycs = s.flagCycs ∧ (s.modTsq n f).ports = s.ports ∧ (s.modTsq n f).host = s.host ∧
    (s.modTsq n f).wh = s.wh ∧ (s.modTsq n f).dbg = s.dbg ∧ (s.modTsq n f).mram = s.mram ∧
    (s.modTsq n f).inReset = s.inReset ∧ (s.modTsq n f).reg = s.reg ∧ (s.modTsq n f).th = s.th ∧
    (s.modTsq n f).lb = s.lb ∧ (s.modTsq n f).pb = s.pb ∧ (s.modTsq n f).valve = s.valve ∧
    (s.modTsq n f).port = s.port ∧ (s.modTsq n f).chan = s.chan ∧ (s.modTsq n f).cell = s.cell ∧
    (s.modTsq n f).ring = s.ring ∧ (s.modTsq n f).part = s.part ∧ (s.modTsq n f).up = s.up :=
  ⟨rfl, rfl, rfl, rfl, rfl, rfl, rfl, rfl, rfl, rfl, rfl, rfl, rfl, rfl, rfl, rfl, rfl, rfl, rfl, rfl, rfl, rfl, rfl, rfl, rfl, rfl, rfl, rfl, rfl, rfl, rfl, rfl, rfl, rfl, rfl, rfl, rfl, rfl, rfl, rfl, rfl, rfl, rfl, rfl, rfl⟩

/-- `modRep` writes the field `tb` alone. -/
@[simp] theorem State.modRep_frame (s : State) (n : Nat) (f : RepRing → RepRing) :
    (s.modRep n f).pending = s.pending ∧ (s.modRep n f).strokes = s.strokes ∧ (s.modRep n f).opened = s.opened ∧
    (s.modRep n f).rank = s.rank ∧ (s.modRep n f).threads = s.threads ∧ (s.modRep n f).lbs = s.lbs ∧
    (s.modRep n f).pbs = s.pbs ∧ (s.modRep n f).gbits = s.gbits ∧ (s.modRep n f).gpend = s.gpend ∧
    (s.modRep n f).winPend = s.winPend ∧ (s.modRep n f).winFifo = s.winFifo ∧ (s.modRep n f).winDone = s.winDone ∧
    (s.modRep n f).shown = s.shown ∧ (s.modRep n f).shownNext = s.shownNext ∧ (s.modRep n f).ecc = s.ecc ∧
    (s.modRep n f).eccDue = s.eccDue ∧ (s.modRep n f).regs = s.regs ∧ (s.modRep n f).locked = s.locked ∧
    (s.modRep n f).evq = s.evq ∧ (s.modRep n f).draws = s.draws ∧ (s.modRep n f).pump = s.pump ∧
    (s.modRep n f).locks = s.locks ∧ (s.modRep n f).mf = s.mf ∧ (s.modRep n f).gov = s.gov ∧
    (s.modRep n f).valves = s.valves ∧ (s.modRep n f).pins = s.pins ∧ (s.modRep n f).flags = s.flags ∧
    (s.modRep n f).flagCycs = s.flagCycs ∧ (s.modRep n f).ports = s.ports ∧ (s.modRep n f).host = s.host ∧
    (s.modRep n f).wh = s.wh ∧ (s.modRep n f).dbg = s.dbg ∧ (s.modRep n f).mram = s.mram ∧
    (s.modRep n f).inReset = s.inReset ∧ (s.modRep n f).reg = s.reg ∧ (s.modRep n f).th = s.th ∧
    (s.modRep n f).lb = s.lb ∧ (s.modRep n f).pb = s.pb ∧ (s.modRep n f).valve = s.valve ∧
    (s.modRep n f).port = s.port ∧ (s.modRep n f).chan = s.chan ∧ (s.modRep n f).cell = s.cell ∧
    (s.modRep n f).ring = s.ring ∧ (s.modRep n f).part = s.part ∧ (s.modRep n f).up = s.up :=
  ⟨rfl, rfl, rfl, rfl, rfl, rfl, rfl, rfl, rfl, rfl, rfl, rfl, rfl, rfl, rfl, rfl, rfl, rfl, rfl, rfl, rfl, rfl, rfl, rfl, rfl, rfl, rfl, rfl, rfl, rfl, rfl, rfl, rfl, rfl, rfl, rfl, rfl, rfl, rfl, rfl, rfl, rfl, rfl, rfl, rfl⟩

/-- `modPump` writes the field `pump` alone. -/
@[simp] theorem State.modPump_frame (s : State) (f : PumpSt → PumpSt) :
    (s.modPump f).pending = s.pending ∧ (s.modPump f).strokes = s.strokes ∧ (s.modPump f).opened = s.opened ∧
    (s.modPump f).rank = s.rank ∧ (s.modPump f).threads = s.threads ∧ (s.modPump f).lbs = s.lbs ∧
    (s.modPump f).pbs = s.pbs ∧ (s.modPump f).gbits = s.gbits ∧ (s.modPump f).gpend = s.gpend ∧
    (s.modPump f).winPend = s.winPend ∧ (s.modPump f).winFifo = s.winFifo ∧ (s.modPump f).winDone = s.winDone ∧
    (s.modPump f).shown = s.shown ∧ (s.modPump f).shownNext = s.shownNext ∧ (s.modPump f).ecc = s.ecc ∧
    (s.modPump f).eccDue = s.eccDue ∧ (s.modPump f).regs = s.regs ∧ (s.modPump f).locked = s.locked ∧
    (s.modPump f).evq = s.evq ∧ (s.modPump f).draws = s.draws ∧ (s.modPump f).locks = s.locks ∧
    (s.modPump f).tb = s.tb ∧ (s.modPump f).mf = s.mf ∧ (s.modPump f).gov = s.gov ∧
    (s.modPump f).valves = s.valves ∧ (s.modPump f).pins = s.pins ∧ (s.modPump f).flags = s.flags ∧
    (s.modPump f).flagCycs = s.flagCycs ∧ (s.modPump f).ports = s.ports ∧ (s.modPump f).host = s.host ∧
    (s.modPump f).wh = s.wh ∧ (s.modPump f).dbg = s.dbg ∧ (s.modPump f).mram = s.mram ∧
    (s.modPump f).inReset = s.inReset ∧ (s.modPump f).reg = s.reg ∧ (s.modPump f).th = s.th ∧
    (s.modPump f).lb = s.lb ∧ (s.modPump f).pb = s.pb ∧ (s.modPump f).valve = s.valve ∧
    (s.modPump f).port = s.port ∧ (s.modPump f).ring = s.ring ∧ (s.modPump f).part = s.part ∧
    (s.modPump f).ck = s.ck ∧ (s.modPump f).up = s.up :=
  ⟨rfl, rfl, rfl, rfl, rfl, rfl, rfl, rfl, rfl, rfl, rfl, rfl, rfl, rfl, rfl, rfl, rfl, rfl, rfl, rfl, rfl, rfl, rfl, rfl, rfl, rfl, rfl, rfl, rfl, rfl, rfl, rfl, rfl, rfl, rfl, rfl, rfl, rfl, rfl, rfl, rfl, rfl, rfl, rfl⟩

/-- `modCell` writes the field `pump` alone. -/
@[simp] theorem State.modCell_frame (s : State) (c : Nat) (f : Cell → Cell) :
    (s.modCell c f).pending = s.pending ∧ (s.modCell c f).strokes = s.strokes ∧ (s.modCell c f).opened = s.opened ∧
    (s.modCell c f).rank = s.rank ∧ (s.modCell c f).threads = s.threads ∧ (s.modCell c f).lbs = s.lbs ∧
    (s.modCell c f).pbs = s.pbs ∧ (s.modCell c f).gbits = s.gbits ∧ (s.modCell c f).gpend = s.gpend ∧
    (s.modCell c f).winPend = s.winPend ∧ (s.modCell c f).winFifo = s.winFifo ∧ (s.modCell c f).winDone = s.winDone ∧
    (s.modCell c f).shown = s.shown ∧ (s.modCell c f).shownNext = s.shownNext ∧ (s.modCell c f).ecc = s.ecc ∧
    (s.modCell c f).eccDue = s.eccDue ∧ (s.modCell c f).regs = s.regs ∧ (s.modCell c f).locked = s.locked ∧
    (s.modCell c f).evq = s.evq ∧ (s.modCell c f).draws = s.draws ∧ (s.modCell c f).locks = s.locks ∧
    (s.modCell c f).tb = s.tb ∧ (s.modCell c f).mf = s.mf ∧ (s.modCell c f).gov = s.gov ∧
    (s.modCell c f).valves = s.valves ∧ (s.modCell c f).pins = s.pins ∧ (s.modCell c f).flags = s.flags ∧
    (s.modCell c f).flagCycs = s.flagCycs ∧ (s.modCell c f).ports = s.ports ∧ (s.modCell c f).host = s.host ∧
    (s.modCell c f).wh = s.wh ∧ (s.modCell c f).dbg = s.dbg ∧ (s.modCell c f).mram = s.mram ∧
    (s.modCell c f).inReset = s.inReset ∧ (s.modCell c f).reg = s.reg ∧ (s.modCell c f).th = s.th ∧
    (s.modCell c f).lb = s.lb ∧ (s.modCell c f).pb = s.pb ∧ (s.modCell c f).valve = s.valve ∧
    (s.modCell c f).port = s.port ∧ (s.modCell c f).ring = s.ring ∧ (s.modCell c f).part = s.part ∧
    (s.modCell c f).ck = s.ck ∧ (s.modCell c f).up = s.up :=
  ⟨rfl, rfl, rfl, rfl, rfl, rfl, rfl, rfl, rfl, rfl, rfl, rfl, rfl, rfl, rfl, rfl, rfl, rfl, rfl, rfl, rfl, rfl, rfl, rfl, rfl, rfl, rfl, rfl, rfl, rfl, rfl, rfl, rfl, rfl, rfl, rfl, rfl, rfl, rfl, rfl, rfl, rfl, rfl, rfl⟩

/-- `modChan` writes the field `pump` alone. -/
@[simp] theorem State.modChan_frame (s : State) (c : Nat) (f : Chan → Chan) :
    (s.modChan c f).pending = s.pending ∧ (s.modChan c f).strokes = s.strokes ∧ (s.modChan c f).opened = s.opened ∧
    (s.modChan c f).rank = s.rank ∧ (s.modChan c f).threads = s.threads ∧ (s.modChan c f).lbs = s.lbs ∧
    (s.modChan c f).pbs = s.pbs ∧ (s.modChan c f).gbits = s.gbits ∧ (s.modChan c f).gpend = s.gpend ∧
    (s.modChan c f).winPend = s.winPend ∧ (s.modChan c f).winFifo = s.winFifo ∧ (s.modChan c f).winDone = s.winDone ∧
    (s.modChan c f).shown = s.shown ∧ (s.modChan c f).shownNext = s.shownNext ∧ (s.modChan c f).ecc = s.ecc ∧
    (s.modChan c f).eccDue = s.eccDue ∧ (s.modChan c f).regs = s.regs ∧ (s.modChan c f).locked = s.locked ∧
    (s.modChan c f).evq = s.evq ∧ (s.modChan c f).draws = s.draws ∧ (s.modChan c f).locks = s.locks ∧
    (s.modChan c f).tb = s.tb ∧ (s.modChan c f).mf = s.mf ∧ (s.modChan c f).gov = s.gov ∧
    (s.modChan c f).valves = s.valves ∧ (s.modChan c f).pins = s.pins ∧ (s.modChan c f).flags = s.flags ∧
    (s.modChan c f).flagCycs = s.flagCycs ∧ (s.modChan c f).ports = s.ports ∧ (s.modChan c f).host = s.host ∧
    (s.modChan c f).wh = s.wh ∧ (s.modChan c f).dbg = s.dbg ∧ (s.modChan c f).mram = s.mram ∧
    (s.modChan c f).inReset = s.inReset ∧ (s.modChan c f).reg = s.reg ∧ (s.modChan c f).th = s.th ∧
    (s.modChan c f).lb = s.lb ∧ (s.modChan c f).pb = s.pb ∧ (s.modChan c f).valve = s.valve ∧
    (s.modChan c f).port = s.port ∧ (s.modChan c f).ring = s.ring ∧ (s.modChan c f).part = s.part ∧
    (s.modChan c f).ck = s.ck ∧ (s.modChan c f).up = s.up :=
  ⟨rfl, rfl, rfl, rfl, rfl, rfl, rfl, rfl, rfl, rfl, rfl, rfl, rfl, rfl, rfl, rfl, rfl, rfl, rfl, rfl, rfl, rfl, rfl, rfl, rfl, rfl, rfl, rfl, rfl, rfl, rfl, rfl, rfl, rfl, rfl, rfl, rfl, rfl, rfl, rfl, rfl, rfl, rfl, rfl⟩

/-- `modMove` writes the field `pump` alone. -/
@[simp] theorem State.modMove_frame (s : State) (c : Nat) (f : Move → Move) :
    (s.modMove c f).pending = s.pending ∧ (s.modMove c f).strokes = s.strokes ∧ (s.modMove c f).opened = s.opened ∧
    (s.modMove c f).rank = s.rank ∧ (s.modMove c f).threads = s.threads ∧ (s.modMove c f).lbs = s.lbs ∧
    (s.modMove c f).pbs = s.pbs ∧ (s.modMove c f).gbits = s.gbits ∧ (s.modMove c f).gpend = s.gpend ∧
    (s.modMove c f).winPend = s.winPend ∧ (s.modMove c f).winFifo = s.winFifo ∧ (s.modMove c f).winDone = s.winDone ∧
    (s.modMove c f).shown = s.shown ∧ (s.modMove c f).shownNext = s.shownNext ∧ (s.modMove c f).ecc = s.ecc ∧
    (s.modMove c f).eccDue = s.eccDue ∧ (s.modMove c f).regs = s.regs ∧ (s.modMove c f).locked = s.locked ∧
    (s.modMove c f).evq = s.evq ∧ (s.modMove c f).draws = s.draws ∧ (s.modMove c f).locks = s.locks ∧
    (s.modMove c f).tb = s.tb ∧ (s.modMove c f).mf = s.mf ∧ (s.modMove c f).gov = s.gov ∧
    (s.modMove c f).valves = s.valves ∧ (s.modMove c f).pins = s.pins ∧ (s.modMove c f).flags = s.flags ∧
    (s.modMove c f).flagCycs = s.flagCycs ∧ (s.modMove c f).ports = s.ports ∧ (s.modMove c f).host = s.host ∧
    (s.modMove c f).wh = s.wh ∧ (s.modMove c f).dbg = s.dbg ∧ (s.modMove c f).mram = s.mram ∧
    (s.modMove c f).inReset = s.inReset ∧ (s.modMove c f).reg = s.reg ∧ (s.modMove c f).th = s.th ∧
    (s.modMove c f).lb = s.lb ∧ (s.modMove c f).pb = s.pb ∧ (s.modMove c f).valve = s.valve ∧
    (s.modMove c f).port = s.port ∧ (s.modMove c f).ring = s.ring ∧ (s.modMove c f).part = s.part ∧
    (s.modMove c f).ck = s.ck ∧ (s.modMove c f).up = s.up :=
  ⟨rfl, rfl, rfl, rfl, rfl, rfl, rfl, rfl, rfl, rfl, rfl, rfl, rfl, rfl, rfl, rfl, rfl, rfl, rfl, rfl, rfl, rfl, rfl, rfl, rfl, rfl, rfl, rfl, rfl, rfl, rfl, rfl, rfl, rfl, rfl, rfl, rfl, rfl, rfl, rfl, rfl, rfl, rfl, rfl⟩

/-- `modPumpLb` writes the field `pump` alone. -/
@[simp] theorem State.modPumpLb_frame (s : State) (c : Nat) (f : PumpLb → PumpLb) :
    (s.modPumpLb c f).pending = s.pending ∧ (s.modPumpLb c f).strokes = s.strokes ∧ (s.modPumpLb c f).opened = s.opened ∧
    (s.modPumpLb c f).rank = s.rank ∧ (s.modPumpLb c f).threads = s.threads ∧ (s.modPumpLb c f).lbs = s.lbs ∧
    (s.modPumpLb c f).pbs = s.pbs ∧ (s.modPumpLb c f).gbits = s.gbits ∧ (s.modPumpLb c f).gpend = s.gpend ∧
    (s.modPumpLb c f).winPend = s.winPend ∧ (s.modPumpLb c f).winFifo = s.winFifo ∧ (s.modPumpLb c f).winDone = s.winDone ∧
    (s.modPumpLb c f).shown = s.shown ∧ (s.modPumpLb c f).shownNext = s.shownNext ∧ (s.modPumpLb c f).ecc = s.ecc ∧
    (s.modPumpLb c f).eccDue = s.eccDue ∧ (s.modPumpLb c f).regs = s.regs ∧ (s.modPumpLb c f).locked = s.locked ∧
    (s.modPumpLb c f).evq = s.evq ∧ (s.modPumpLb c f).draws = s.draws ∧ (s.modPumpLb c f).locks = s.locks ∧
    (s.modPumpLb c f).tb = s.tb ∧ (s.modPumpLb c f).mf = s.mf ∧ (s.modPumpLb c f).gov = s.gov ∧
    (s.modPumpLb c f).valves = s.valves ∧ (s.modPumpLb c f).pins = s.pins ∧ (s.modPumpLb c f).flags = s.flags ∧
    (s.modPumpLb c f).flagCycs = s.flagCycs ∧ (s.modPumpLb c f).ports = s.ports ∧ (s.modPumpLb c f).host = s.host ∧
    (s.modPumpLb c f).wh = s.wh ∧ (s.modPumpLb c f).dbg = s.dbg ∧ (s.modPumpLb c f).mram = s.mram ∧
    (s.modPumpLb c f).inReset = s.inReset ∧ (s.modPumpLb c f).reg = s.reg ∧ (s.modPumpLb c f).th = s.th ∧
    (s.modPumpLb c f).lb = s.lb ∧ (s.modPumpLb c f).pb = s.pb ∧ (s.modPumpLb c f).valve = s.valve ∧
    (s.modPumpLb c f).port = s.port ∧ (s.modPumpLb c f).ring = s.ring ∧ (s.modPumpLb c f).part = s.part ∧
    (s.modPumpLb c f).ck = s.ck ∧ (s.modPumpLb c f).up = s.up :=
  ⟨rfl, rfl, rfl, rfl, rfl, rfl, rfl, rfl, rfl, rfl, rfl, rfl, rfl, rfl, rfl, rfl, rfl, rfl, rfl, rfl, rfl, rfl, rfl, rfl, rfl, rfl, rfl, rfl, rfl, rfl, rfl, rfl, rfl, rfl, rfl, rfl, rfl, rfl, rfl, rfl, rfl, rfl, rfl, rfl⟩

/-- `modHost` writes the field `host` alone. -/
@[simp] theorem State.modHost_frame (s : State) (f : HostSt → HostSt) :
    (s.modHost f).pending = s.pending ∧ (s.modHost f).strokes = s.strokes ∧ (s.modHost f).opened = s.opened ∧
    (s.modHost f).rank = s.rank ∧ (s.modHost f).threads = s.threads ∧ (s.modHost f).lbs = s.lbs ∧
    (s.modHost f).pbs = s.pbs ∧ (s.modHost f).gbits = s.gbits ∧ (s.modHost f).gpend = s.gpend ∧
    (s.modHost f).winPend = s.winPend ∧ (s.modHost f).winFifo = s.winFifo ∧ (s.modHost f).winDone = s.winDone ∧
    (s.modHost f).shown = s.shown ∧ (s.modHost f).shownNext = s.shownNext ∧ (s.modHost f).ecc = s.ecc ∧
    (s.modHost f).eccDue = s.eccDue ∧ (s.modHost f).regs = s.regs ∧ (s.modHost f).locked = s.locked ∧
    (s.modHost f).evq = s.evq ∧ (s.modHost f).draws = s.draws ∧ (s.modHost f).pump = s.pump ∧
    (s.modHost f).locks = s.locks ∧ (s.modHost f).tb = s.tb ∧ (s.modHost f).mf = s.mf ∧
    (s.modHost f).gov = s.gov ∧ (s.modHost f).valves = s.valves ∧ (s.modHost f).pins = s.pins ∧
    (s.modHost f).flags = s.flags ∧ (s.modHost f).flagCycs = s.flagCycs ∧ (s.modHost f).ports = s.ports ∧
    (s.modHost f).wh = s.wh ∧ (s.modHost f).dbg = s.dbg ∧ (s.modHost f).mram = s.mram ∧
    (s.modHost f).inReset = s.inReset ∧ (s.modHost f).reg = s.reg ∧ (s.modHost f).th = s.th ∧
    (s.modHost f).lb = s.lb ∧ (s.modHost f).pb = s.pb ∧ (s.modHost f).valve = s.valve ∧
    (s.modHost f).port = s.port ∧ (s.modHost f).chan = s.chan ∧ (s.modHost f).cell = s.cell ∧
    (s.modHost f).ck = s.ck ∧ (s.modHost f).up = s.up :=
  ⟨rfl, rfl, rfl, rfl, rfl, rfl, rfl, rfl, rfl, rfl, rfl, rfl, rfl, rfl, rfl, rfl, rfl, rfl, rfl, rfl, rfl, rfl, rfl, rfl, rfl, rfl, rfl, rfl, rfl, rfl, rfl, rfl, rfl, rfl, rfl, rfl, rfl, rfl, rfl, rfl, rfl, rfl, rfl, rfl⟩

/-- `modRing` writes the field `host` alone. -/
@[simp] theorem State.modRing_frame (s : State) (r : Nat) (f : HRing → HRing) :
    (s.modRing r f).pending = s.pending ∧ (s.modRing r f).strokes = s.strokes ∧ (s.modRing r f).opened = s.opened ∧
    (s.modRing r f).rank = s.rank ∧ (s.modRing r f).threads = s.threads ∧ (s.modRing r f).lbs = s.lbs ∧
    (s.modRing r f).pbs = s.pbs ∧ (s.modRing r f).gbits = s.gbits ∧ (s.modRing r f).gpend = s.gpend ∧
    (s.modRing r f).winPend = s.winPend ∧ (s.modRing r f).winFifo = s.winFifo ∧ (s.modRing r f).winDone = s.winDone ∧
    (s.modRing r f).shown = s.shown ∧ (s.modRing r f).shownNext = s.shownNext ∧ (s.modRing r f).ecc = s.ecc ∧
    (s.modRing r f).eccDue = s.eccDue ∧ (s.modRing r f).regs = s.regs ∧ (s.modRing r f).locked = s.locked ∧
    (s.modRing r f).evq = s.evq ∧ (s.modRing r f).draws = s.draws ∧ (s.modRing r f).pump = s.pump ∧
    (s.modRing r f).locks = s.locks ∧ (s.modRing r f).tb = s.tb ∧ (s.modRing r f).mf = s.mf ∧
    (s.modRing r f).gov = s.gov ∧ (s.modRing r f).valves = s.valves ∧ (s.modRing r f).pins = s.pins ∧
    (s.modRing r f).flags = s.flags ∧ (s.modRing r f).flagCycs = s.flagCycs ∧ (s.modRing r f).ports = s.ports ∧
    (s.modRing r f).wh = s.wh ∧ (s.modRing r f).dbg = s.dbg ∧ (s.modRing r f).mram = s.mram ∧
    (s.modRing r f).inReset = s.inReset ∧ (s.modRing r f).reg = s.reg ∧ (s.modRing r f).th = s.th ∧
    (s.modRing r f).lb = s.lb ∧ (s.modRing r f).pb = s.pb ∧ (s.modRing r f).valve = s.valve ∧
    (s.modRing r f).port = s.port ∧ (s.modRing r f).chan = s.chan ∧ (s.modRing r f).cell = s.cell ∧
    (s.modRing r f).ck = s.ck ∧ (s.modRing r f).up = s.up :=
  ⟨rfl, rfl, rfl, rfl, rfl, rfl, rfl, rfl, rfl, rfl, rfl, rfl, rfl, rfl, rfl, rfl, rfl, rfl, rfl, rfl, rfl, rfl, rfl, rfl, rfl, rfl, rfl, rfl, rfl, rfl, rfl, rfl, rfl, rfl, rfl, rfl, rfl, rfl, rfl, rfl, rfl, rfl, rfl, rfl⟩

/-- `modPart` writes the field `host` alone. -/
@[simp] theorem State.modPart_frame (s : State) (r : Nat) (f : HPart → HPart) :
    (s.modPart r f).pending = s.pending ∧ (s.modPart r f).strokes = s.strokes ∧ (s.modPart r f).opened = s.opened ∧
    (s.modPart r f).rank = s.rank ∧ (s.modPart r f).threads = s.threads ∧ (s.modPart r f).lbs = s.lbs ∧
    (s.modPart r f).pbs = s.pbs ∧ (s.modPart r f).gbits = s.gbits ∧ (s.modPart r f).gpend = s.gpend ∧
    (s.modPart r f).winPend = s.winPend ∧ (s.modPart r f).winFifo = s.winFifo ∧ (s.modPart r f).winDone = s.winDone ∧
    (s.modPart r f).shown = s.shown ∧ (s.modPart r f).shownNext = s.shownNext ∧ (s.modPart r f).ecc = s.ecc ∧
    (s.modPart r f).eccDue = s.eccDue ∧ (s.modPart r f).regs = s.regs ∧ (s.modPart r f).locked = s.locked ∧
    (s.modPart r f).evq = s.evq ∧ (s.modPart r f).draws = s.draws ∧ (s.modPart r f).pump = s.pump ∧
    (s.modPart r f).locks = s.locks ∧ (s.modPart r f).tb = s.tb ∧ (s.modPart r f).mf = s.mf ∧
    (s.modPart r f).gov = s.gov ∧ (s.modPart r f).valves = s.valves ∧ (s.modPart r f).pins = s.pins ∧
    (s.modPart r f).flags = s.flags ∧ (s.modPart r f).flagCycs = s.flagCycs ∧ (s.modPart r f).ports = s.ports ∧
    (s.modPart r f).wh = s.wh ∧ (s.modPart r f).dbg = s.dbg ∧ (s.modPart r f).mram = s.mram ∧
    (s.modPart r f).inReset = s.inReset ∧ (s.modPart r f).reg = s.reg ∧ (s.modPart r f).th = s.th ∧
    (s.modPart r f).lb = s.lb ∧ (s.modPart r f).pb = s.pb ∧ (s.modPart r f).valve = s.valve ∧
    (s.modPart r f).port = s.port ∧ (s.modPart r f).chan = s.chan ∧ (s.modPart r f).cell = s.cell ∧
    (s.modPart r f).ck = s.ck ∧ (s.modPart r f).up = s.up :=
  ⟨rfl, rfl, rfl, rfl, rfl, rfl, rfl, rfl, rfl, rfl, rfl, rfl, rfl, rfl, rfl, rfl, rfl, rfl, rfl, rfl, rfl, rfl, rfl, rfl, rfl, rfl, rfl, rfl, rfl, rfl, rfl, rfl, rfl, rfl, rfl, rfl, rfl, rfl, rfl, rfl, rfl, rfl, rfl, rfl⟩

/-- `modCmd` writes the field `host` alone. -/
@[simp] theorem State.modCmd_frame (s : State) (r : Nat) (f : HCmd → HCmd) :
    (s.modCmd r f).pending = s.pending ∧ (s.modCmd r f).strokes = s.strokes ∧ (s.modCmd r f).opened = s.opened ∧
    (s.modCmd r f).rank = s.rank ∧ (s.modCmd r f).threads = s.threads ∧ (s.modCmd r f).lbs = s.lbs ∧
    (s.modCmd r f).pbs = s.pbs ∧ (s.modCmd r f).gbits = s.gbits ∧ (s.modCmd r f).gpend = s.gpend ∧
    (s.modCmd r f).winPend = s.winPend ∧ (s.modCmd r f).winFifo = s.winFifo ∧ (s.modCmd r f).winDone = s.winDone ∧
    (s.modCmd r f).shown = s.shown ∧ (s.modCmd r f).shownNext = s.shownNext ∧ (s.modCmd r f).ecc = s.ecc ∧
    (s.modCmd r f).eccDue = s.eccDue ∧ (s.modCmd r f).regs = s.regs ∧ (s.modCmd r f).locked = s.locked ∧
    (s.modCmd r f).evq = s.evq ∧ (s.modCmd r f).draws = s.draws ∧ (s.modCmd r f).pump = s.pump ∧
    (s.modCmd r f).locks = s.locks ∧ (s.modCmd r f).tb = s.tb ∧ (s.modCmd r f).mf = s.mf ∧
    (s.modCmd r f).gov = s.gov ∧ (s.modCmd r f).valves = s.valves ∧ (s.modCmd r f).pins = s.pins ∧
    (s.modCmd r f).flags = s.flags ∧ (s.modCmd r f).flagCycs = s.flagCycs ∧ (s.modCmd r f).ports = s.ports ∧
    (s.modCmd r f).wh = s.wh ∧ (s.modCmd r f).dbg = s.dbg ∧ (s.modCmd r f).mram = s.mram ∧
    (s.modCmd r f).inReset = s.inReset ∧ (s.modCmd r f).reg = s.reg ∧ (s.modCmd r f).th = s.th ∧
    (s.modCmd r f).lb = s.lb ∧ (s.modCmd r f).pb = s.pb ∧ (s.modCmd r f).valve = s.valve ∧
    (s.modCmd r f).port = s.port ∧ (s.modCmd r f).chan = s.chan ∧ (s.modCmd r f).cell = s.cell ∧
    (s.modCmd r f).ck = s.ck ∧ (s.modCmd r f).up = s.up :=
  ⟨rfl, rfl, rfl, rfl, rfl, rfl, rfl, rfl, rfl, rfl, rfl, rfl, rfl, rfl, rfl, rfl, rfl, rfl, rfl, rfl, rfl, rfl, rfl, rfl, rfl, rfl, rfl, rfl, rfl, rfl, rfl, rfl, rfl, rfl, rfl, rfl, rfl, rfl, rfl, rfl, rfl, rfl, rfl, rfl⟩

/-- `modRec` writes the field `host` alone. -/
@[simp] theorem State.modRec_frame (s : State) (r : Nat) (f : HRec → HRec) :
    (s.modRec r f).pending = s.pending ∧ (s.modRec r f).strokes = s.strokes ∧ (s.modRec r f).opened = s.opened ∧
    (s.modRec r f).rank = s.rank ∧ (s.modRec r f).threads = s.threads ∧ (s.modRec r f).lbs = s.lbs ∧
    (s.modRec r f).pbs = s.pbs ∧ (s.modRec r f).gbits = s.gbits ∧ (s.modRec r f).gpend = s.gpend ∧
    (s.modRec r f).winPend = s.winPend ∧ (s.modRec r f).winFifo = s.winFifo ∧ (s.modRec r f).winDone = s.winDone ∧
    (s.modRec r f).shown = s.shown ∧ (s.modRec r f).shownNext = s.shownNext ∧ (s.modRec r f).ecc = s.ecc ∧
    (s.modRec r f).eccDue = s.eccDue ∧ (s.modRec r f).regs = s.regs ∧ (s.modRec r f).locked = s.locked ∧
    (s.modRec r f).evq = s.evq ∧ (s.modRec r f).draws = s.draws ∧ (s.modRec r f).pump = s.pump ∧
    (s.modRec r f).locks = s.locks ∧ (s.modRec r f).tb = s.tb ∧ (s.modRec r f).mf = s.mf ∧
    (s.modRec r f).gov = s.gov ∧ (s.modRec r f).valves = s.valves ∧ (s.modRec r f).pins = s.pins ∧
    (s.modRec r f).flags = s.flags ∧ (s.modRec r f).flagCycs = s.flagCycs ∧ (s.modRec r f).ports = s.ports ∧
    (s.modRec r f).wh = s.wh ∧ (s.modRec r f).dbg = s.dbg ∧ (s.modRec r f).mram = s.mram ∧
    (s.modRec r f).inReset = s.inReset ∧ (s.modRec r f).reg = s.reg ∧ (s.modRec r f).th = s.th ∧
    (s.modRec r f).lb = s.lb ∧ (s.modRec r f).pb = s.pb ∧ (s.modRec r f).valve = s.valve ∧
    (s.modRec r f).port = s.port ∧ (s.modRec r f).chan = s.chan ∧ (s.modRec r f).cell = s.cell ∧
    (s.modRec r f).ck = s.ck ∧ (s.modRec r f).up = s.up :=
  ⟨rfl, rfl, rfl, rfl, rfl, rfl, rfl, rfl, rfl, rfl, rfl, rfl, rfl, rfl, rfl, rfl, rfl, rfl, rfl, rfl, rfl, rfl, rfl, rfl, rfl, rfl, rfl, rfl, rfl, rfl, rfl, rfl, rfl, rfl, rfl, rfl, rfl, rfl, rfl, rfl, rfl, rfl, rfl, rfl⟩

/-- `modHmove` writes the field `host` alone. -/
@[simp] theorem State.modHmove_frame (s : State) (r : Nat) (f : HMove → HMove) :
    (s.modHmove r f).pending = s.pending ∧ (s.modHmove r f).strokes = s.strokes ∧ (s.modHmove r f).opened = s.opened ∧
    (s.modHmove r f).rank = s.rank ∧ (s.modHmove r f).threads = s.threads ∧ (s.modHmove r f).lbs = s.lbs ∧
    (s.modHmove r f).pbs = s.pbs ∧ (s.modHmove r f).gbits = s.gbits ∧ (s.modHmove r f).gpend = s.gpend ∧
    (s.modHmove r f).winPend = s.winPend ∧ (s.modHmove r f).winFifo = s.winFifo ∧ (s.modHmove r f).winDone = s.winDone ∧
    (s.modHmove r f).shown = s.shown ∧ (s.modHmove r f).shownNext = s.shownNext ∧ (s.modHmove r f).ecc = s.ecc ∧
    (s.modHmove r f).eccDue = s.eccDue ∧ (s.modHmove r f).regs = s.regs ∧ (s.modHmove r f).locked = s.locked ∧
    (s.modHmove r f).evq = s.evq ∧ (s.modHmove r f).draws = s.draws ∧ (s.modHmove r f).pump = s.pump ∧
    (s.modHmove r f).locks = s.locks ∧ (s.modHmove r f).tb = s.tb ∧ (s.modHmove r f).mf = s.mf ∧
    (s.modHmove r f).gov = s.gov ∧ (s.modHmove r f).valves = s.valves ∧ (s.modHmove r f).pins = s.pins ∧
    (s.modHmove r f).flags = s.flags ∧ (s.modHmove r f).flagCycs = s.flagCycs ∧ (s.modHmove r f).ports = s.ports ∧
    (s.modHmove r f).wh = s.wh ∧ (s.modHmove r f).dbg = s.dbg ∧ (s.modHmove r f).mram = s.mram ∧
    (s.modHmove r f).inReset = s.inReset ∧ (s.modHmove r f).reg = s.reg ∧ (s.modHmove r f).th = s.th ∧
    (s.modHmove r f).lb = s.lb ∧ (s.modHmove r f).pb = s.pb ∧ (s.modHmove r f).valve = s.valve ∧
    (s.modHmove r f).port = s.port ∧ (s.modHmove r f).chan = s.chan ∧ (s.modHmove r f).cell = s.cell ∧
    (s.modHmove r f).ck = s.ck ∧ (s.modHmove r f).up = s.up :=
  ⟨rfl, rfl, rfl, rfl, rfl, rfl, rfl, rfl, rfl, rfl, rfl, rfl, rfl, rfl, rfl, rfl, rfl, rfl, rfl, rfl, rfl, rfl, rfl, rfl, rfl, rfl, rfl, rfl, rfl, rfl, rfl, rfl, rfl, rfl, rfl, rfl, rfl, rfl, rfl, rfl, rfl, rfl, rfl, rfl⟩

/-- `setPstate` writes the field `host` alone. -/
@[simp] theorem State.setPstate_frame (s : State) (n v : Nat) :
    (s.setPstate n v).pending = s.pending ∧ (s.setPstate n v).strokes = s.strokes ∧ (s.setPstate n v).opened = s.opened ∧
    (s.setPstate n v).rank = s.rank ∧ (s.setPstate n v).threads = s.threads ∧ (s.setPstate n v).lbs = s.lbs ∧
    (s.setPstate n v).pbs = s.pbs ∧ (s.setPstate n v).gbits = s.gbits ∧ (s.setPstate n v).gpend = s.gpend ∧
    (s.setPstate n v).winPend = s.winPend ∧ (s.setPstate n v).winFifo = s.winFifo ∧ (s.setPstate n v).winDone = s.winDone ∧
    (s.setPstate n v).shown = s.shown ∧ (s.setPstate n v).shownNext = s.shownNext ∧ (s.setPstate n v).ecc = s.ecc ∧
    (s.setPstate n v).eccDue = s.eccDue ∧ (s.setPstate n v).regs = s.regs ∧ (s.setPstate n v).locked = s.locked ∧
    (s.setPstate n v).evq = s.evq ∧ (s.setPstate n v).draws = s.draws ∧ (s.setPstate n v).pump = s.pump ∧
    (s.setPstate n v).locks = s.locks ∧ (s.setPstate n v).tb = s.tb ∧ (s.setPstate n v).mf = s.mf ∧
    (s.setPstate n v).gov = s.gov ∧ (s.setPstate n v).valves = s.valves ∧ (s.setPstate n v).pins = s.pins ∧
    (s.setPstate n v).flags = s.flags ∧ (s.setPstate n v).flagCycs = s.flagCycs ∧ (s.setPstate n v).ports = s.ports ∧
    (s.setPstate n v).wh = s.wh ∧ (s.setPstate n v).dbg = s.dbg ∧ (s.setPstate n v).mram = s.mram ∧
    (s.setPstate n v).inReset = s.inReset ∧ (s.setPstate n v).reg = s.reg ∧ (s.setPstate n v).th = s.th ∧
    (s.setPstate n v).lb = s.lb ∧ (s.setPstate n v).pb = s.pb ∧ (s.setPstate n v).valve = s.valve ∧
    (s.setPstate n v).port = s.port ∧ (s.setPstate n v).chan = s.chan ∧ (s.setPstate n v).cell = s.cell ∧
    (s.setPstate n v).ck = s.ck ∧ (s.setPstate n v).up = s.up :=
  ⟨rfl, rfl, rfl, rfl, rfl, rfl, rfl, rfl, rfl, rfl, rfl, rfl, rfl, rfl, rfl, rfl, rfl, rfl, rfl, rfl, rfl, rfl, rfl, rfl, rfl, rfl, rfl, rfl, rfl, rfl, rfl, rfl, rfl, rfl, rfl, rfl, rfl, rfl, rfl, rfl, rfl, rfl, rfl, rfl⟩

/-- `modLocks` writes the field `locks` alone. -/
@[simp] theorem State.modLocks_frame (s : State) (f : LockSt → LockSt) :
    (s.modLocks f).pending = s.pending ∧ (s.modLocks f).strokes = s.strokes ∧ (s.modLocks f).opened = s.opened ∧
    (s.modLocks f).rank = s.rank ∧ (s.modLocks f).threads = s.threads ∧ (s.modLocks f).lbs = s.lbs ∧
    (s.modLocks f).pbs = s.pbs ∧ (s.modLocks f).gbits = s.gbits ∧ (s.modLocks f).gpend = s.gpend ∧
    (s.modLocks f).winPend = s.winPend ∧ (s.modLocks f).winFifo = s.winFifo ∧ (s.modLocks f).winDone = s.winDone ∧
    (s.modLocks f).shown = s.shown ∧ (s.modLocks f).shownNext = s.shownNext ∧ (s.modLocks f).ecc = s.ecc ∧
    (s.modLocks f).eccDue = s.eccDue ∧ (s.modLocks f).regs = s.regs ∧ (s.modLocks f).locked = s.locked ∧
    (s.modLocks f).evq = s.evq ∧ (s.modLocks f).draws = s.draws ∧ (s.modLocks f).pump = s.pump ∧
    (s.modLocks f).tb = s.tb ∧ (s.modLocks f).mf = s.mf ∧ (s.modLocks f).gov = s.gov ∧
    (s.modLocks f).valves = s.valves ∧ (s.modLocks f).pins = s.pins ∧ (s.modLocks f).flags = s.flags ∧
    (s.modLocks f).flagCycs = s.flagCycs ∧ (s.modLocks f).ports = s.ports ∧ (s.modLocks f).host = s.host ∧
    (s.modLocks f).wh = s.wh ∧ (s.modLocks f).dbg = s.dbg ∧ (s.modLocks f).mram = s.mram ∧
    (s.modLocks f).inReset = s.inReset ∧ (s.modLocks f).reg = s.reg ∧ (s.modLocks f).th = s.th ∧
    (s.modLocks f).lb = s.lb ∧ (s.modLocks f).pb = s.pb ∧ (s.modLocks f).valve = s.valve ∧
    (s.modLocks f).port = s.port ∧ (s.modLocks f).chan = s.chan ∧ (s.modLocks f).cell = s.cell ∧
    (s.modLocks f).ring = s.ring ∧ (s.modLocks f).part = s.part ∧ (s.modLocks f).ck = s.ck ∧
    (s.modLocks f).up = s.up :=
  ⟨rfl, rfl, rfl, rfl, rfl, rfl, rfl, rfl, rfl, rfl, rfl, rfl, rfl, rfl, rfl, rfl, rfl, rfl, rfl, rfl, rfl, rfl, rfl, rfl, rfl, rfl, rfl, rfl, rfl, rfl, rfl, rfl, rfl, rfl, rfl, rfl, rfl, rfl, rfl, rfl, rfl, rfl, rfl, rfl, rfl, rfl⟩

/-- `setLease` writes the field `locks` alone. -/
@[simp] theorem State.setLease_frame (s : State) (i : Nat) (e : Lease) :
    (s.setLease i e).pending = s.pending ∧ (s.setLease i e).strokes = s.strokes ∧ (s.setLease i e).opened = s.opened ∧
    (s.setLease i e).rank = s.rank ∧ (s.setLease i e).threads = s.threads ∧ (s.setLease i e).lbs = s.lbs ∧
    (s.setLease i e).pbs = s.pbs ∧ (s.setLease i e).gbits = s.gbits ∧ (s.setLease i e).gpend = s.gpend ∧
    (s.setLease i e).winPend = s.winPend ∧ (s.setLease i e).winFifo = s.winFifo ∧ (s.setLease i e).winDone = s.winDone ∧
    (s.setLease i e).shown = s.shown ∧ (s.setLease i e).shownNext = s.shownNext ∧ (s.setLease i e).ecc = s.ecc ∧
    (s.setLease i e).eccDue = s.eccDue ∧ (s.setLease i e).regs = s.regs ∧ (s.setLease i e).locked = s.locked ∧
    (s.setLease i e).evq = s.evq ∧ (s.setLease i e).draws = s.draws ∧ (s.setLease i e).pump = s.pump ∧
    (s.setLease i e).tb = s.tb ∧ (s.setLease i e).mf = s.mf ∧ (s.setLease i e).gov = s.gov ∧
    (s.setLease i e).valves = s.valves ∧ (s.setLease i e).pins = s.pins ∧ (s.setLease i e).flags = s.flags ∧
    (s.setLease i e).flagCycs = s.flagCycs ∧ (s.setLease i e).ports = s.ports ∧ (s.setLease i e).host = s.host ∧
    (s.setLease i e).wh = s.wh ∧ (s.setLease i e).dbg = s.dbg ∧ (s.setLease i e).mram = s.mram ∧
    (s.setLease i e).inReset = s.inReset ∧ (s.setLease i e).reg = s.reg ∧ (s.setLease i e).th = s.th ∧
    (s.setLease i e).lb = s.lb ∧ (s.setLease i e).pb = s.pb ∧ (s.setLease i e).valve = s.valve ∧
    (s.setLease i e).port = s.port ∧ (s.setLease i e).chan = s.chan ∧ (s.setLease i e).cell = s.cell ∧
    (s.setLease i e).ring = s.ring ∧ (s.setLease i e).part = s.part ∧ (s.setLease i e).ck = s.ck ∧
    (s.setLease i e).up = s.up :=
  ⟨rfl, rfl, rfl, rfl, rfl, rfl, rfl, rfl, rfl, rfl, rfl, rfl, rfl, rfl, rfl, rfl, rfl, rfl, rfl, rfl, rfl, rfl, rfl, rfl, rfl, rfl, rfl, rfl, rfl, rfl, rfl, rfl, rfl, rfl, rfl, rfl, rfl, rfl, rfl, rfl, rfl, rfl, rfl, rfl, rfl, rfl⟩

/-- `setGlock` writes the field `locks` alone. -/
@[simp] theorem State.setGlock_frame (s : State) (i : Nat) (e : GLock) :
    (s.setGlock i e).pending = s.pending ∧ (s.setGlock i e).strokes = s.strokes ∧ (s.setGlock i e).opened = s.opened ∧
    (s.setGlock i e).rank = s.rank ∧ (s.setGlock i e).threads = s.threads ∧ (s.setGlock i e).lbs = s.lbs ∧
    (s.setGlock i e).pbs = s.pbs ∧ (s.setGlock i e).gbits = s.gbits ∧ (s.setGlock i e).gpend = s.gpend ∧
    (s.setGlock i e).winPend = s.winPend ∧ (s.setGlock i e).winFifo = s.winFifo ∧ (s.setGlock i e).winDone = s.winDone ∧
    (s.setGlock i e).shown = s.shown ∧ (s.setGlock i e).shownNext = s.shownNext ∧ (s.setGlock i e).ecc = s.ecc ∧
    (s.setGlock i e).eccDue = s.eccDue ∧ (s.setGlock i e).regs = s.regs ∧ (s.setGlock i e).locked = s.locked ∧
    (s.setGlock i e).evq = s.evq ∧ (s.setGlock i e).draws = s.draws ∧ (s.setGlock i e).pump = s.pump ∧
    (s.setGlock i e).tb = s.tb ∧ (s.setGlock i e).mf = s.mf ∧ (s.setGlock i e).gov = s.gov ∧
    (s.setGlock i e).valves = s.valves ∧ (s.setGlock i e).pins = s.pins ∧ (s.setGlock i e).flags = s.flags ∧
    (s.setGlock i e).flagCycs = s.flagCycs ∧ (s.setGlock i e).ports = s.ports ∧ (s.setGlock i e).host = s.host ∧
    (s.setGlock i e).wh = s.wh ∧ (s.setGlock i e).dbg = s.dbg ∧ (s.setGlock i e).mram = s.mram ∧
    (s.setGlock i e).inReset = s.inReset ∧ (s.setGlock i e).reg = s.reg ∧ (s.setGlock i e).th = s.th ∧
    (s.setGlock i e).lb = s.lb ∧ (s.setGlock i e).pb = s.pb ∧ (s.setGlock i e).valve = s.valve ∧
    (s.setGlock i e).port = s.port ∧ (s.setGlock i e).chan = s.chan ∧ (s.setGlock i e).cell = s.cell ∧
    (s.setGlock i e).ring = s.ring ∧ (s.setGlock i e).part = s.part ∧ (s.setGlock i e).ck = s.ck ∧
    (s.setGlock i e).up = s.up :=
  ⟨rfl, rfl, rfl, rfl, rfl, rfl, rfl, rfl, rfl, rfl, rfl, rfl, rfl, rfl, rfl, rfl, rfl, rfl, rfl, rfl, rfl, rfl, rfl, rfl, rfl, rfl, rfl, rfl, rfl, rfl, rfl, rfl, rfl, rfl, rfl, rfl, rfl, rfl, rfl, rfl, rfl, rfl, rfl, rfl, rfl, rfl⟩

/-- `modValve` writes the field `valves` alone. -/
@[simp] theorem State.modValve_frame (s : State) (v : Nat) (f : ValveSt → ValveSt) :
    (s.modValve v f).pending = s.pending ∧ (s.modValve v f).strokes = s.strokes ∧ (s.modValve v f).opened = s.opened ∧
    (s.modValve v f).rank = s.rank ∧ (s.modValve v f).threads = s.threads ∧ (s.modValve v f).lbs = s.lbs ∧
    (s.modValve v f).pbs = s.pbs ∧ (s.modValve v f).gbits = s.gbits ∧ (s.modValve v f).gpend = s.gpend ∧
    (s.modValve v f).winPend = s.winPend ∧ (s.modValve v f).winFifo = s.winFifo ∧ (s.modValve v f).winDone = s.winDone ∧
    (s.modValve v f).shown = s.shown ∧ (s.modValve v f).shownNext = s.shownNext ∧ (s.modValve v f).ecc = s.ecc ∧
    (s.modValve v f).eccDue = s.eccDue ∧ (s.modValve v f).regs = s.regs ∧ (s.modValve v f).locked = s.locked ∧
    (s.modValve v f).evq = s.evq ∧ (s.modValve v f).draws = s.draws ∧ (s.modValve v f).pump = s.pump ∧
    (s.modValve v f).locks = s.locks ∧ (s.modValve v f).tb = s.tb ∧ (s.modValve v f).mf = s.mf ∧
    (s.modValve v f).gov = s.gov ∧ (s.modValve v f).pins = s.pins ∧ (s.modValve v f).flags = s.flags ∧
    (s.modValve v f).flagCycs = s.flagCycs ∧ (s.modValve v f).ports = s.ports ∧ (s.modValve v f).host = s.host ∧
    (s.modValve v f).wh = s.wh ∧ (s.modValve v f).dbg = s.dbg ∧ (s.modValve v f).mram = s.mram ∧
    (s.modValve v f).inReset = s.inReset ∧ (s.modValve v f).reg = s.reg ∧ (s.modValve v f).th = s.th ∧
    (s.modValve v f).lb = s.lb ∧ (s.modValve v f).pb = s.pb ∧ (s.modValve v f).port = s.port ∧
    (s.modValve v f).chan = s.chan ∧ (s.modValve v f).cell = s.cell ∧ (s.modValve v f).ring = s.ring ∧
    (s.modValve v f).part = s.part ∧ (s.modValve v f).ck = s.ck ∧ (s.modValve v f).up = s.up :=
  ⟨rfl, rfl, rfl, rfl, rfl, rfl, rfl, rfl, rfl, rfl, rfl, rfl, rfl, rfl, rfl, rfl, rfl, rfl, rfl, rfl, rfl, rfl, rfl, rfl, rfl, rfl, rfl, rfl, rfl, rfl, rfl, rfl, rfl, rfl, rfl, rfl, rfl, rfl, rfl, rfl, rfl, rfl, rfl, rfl, rfl⟩

/-- `modPin` writes the field `pins` alone. -/
@[simp] theorem State.modPin_frame (s : State) (n j : Nat) (f : PinSt → PinSt) :
    (s.modPin n j f).pending = s.pending ∧ (s.modPin n j f).strokes = s.strokes ∧ (s.modPin n j f).opened = s.opened ∧
    (s.modPin n j f).rank = s.rank ∧ (s.modPin n j f).threads = s.threads ∧ (s.modPin n j f).lbs = s.lbs ∧
    (s.modPin n j f).pbs = s.pbs ∧ (s.modPin n j f).gbits = s.gbits ∧ (s.modPin n j f).gpend = s.gpend ∧
    (s.modPin n j f).winPend = s.winPend ∧ (s.modPin n j f).winFifo = s.winFifo ∧ (s.modPin n j f).winDone = s.winDone ∧
    (s.modPin n j f).shown = s.shown ∧ (s.modPin n j f).shownNext = s.shownNext ∧ (s.modPin n j f).ecc = s.ecc ∧
    (s.modPin n j f).eccDue = s.eccDue ∧ (s.modPin n j f).regs = s.regs ∧ (s.modPin n j f).locked = s.locked ∧
    (s.modPin n j f).evq = s.evq ∧ (s.modPin n j f).draws = s.draws ∧ (s.modPin n j f).pump = s.pump ∧
    (s.modPin n j f).locks = s.locks ∧ (s.modPin n j f).tb = s.tb ∧ (s.modPin n j f).mf = s.mf ∧
    (s.modPin n j f).gov = s.gov ∧ (s.modPin n j f).valves = s.valves ∧ (s.modPin n j f).flags = s.flags ∧
    (s.modPin n j f).flagCycs = s.flagCycs ∧ (s.modPin n j f).ports = s.ports ∧ (s.modPin n j f).host = s.host ∧
    (s.modPin n j f).wh = s.wh ∧ (s.modPin n j f).dbg = s.dbg ∧ (s.modPin n j f).mram = s.mram ∧
    (s.modPin n j f).inReset = s.inReset ∧ (s.modPin n j f).reg = s.reg ∧ (s.modPin n j f).th = s.th ∧
    (s.modPin n j f).lb = s.lb ∧ (s.modPin n j f).pb = s.pb ∧ (s.modPin n j f).valve = s.valve ∧
    (s.modPin n j f).port = s.port ∧ (s.modPin n j f).chan = s.chan ∧ (s.modPin n j f).cell = s.cell ∧
    (s.modPin n j f).ring = s.ring ∧ (s.modPin n j f).part = s.part ∧ (s.modPin n j f).ck = s.ck ∧
    (s.modPin n j f).up = s.up :=
  ⟨rfl, rfl, rfl, rfl, rfl, rfl, rfl, rfl, rfl, rfl, rfl, rfl, rfl, rfl, rfl, rfl, rfl, rfl, rfl, rfl, rfl, rfl, rfl, rfl, rfl, rfl, rfl, rfl, rfl, rfl, rfl, rfl, rfl, rfl, rfl, rfl, rfl, rfl, rfl, rfl, rfl, rfl, rfl, rfl, rfl, rfl⟩

/-- `modPort` writes the field `ports` alone. -/
@[simp] theorem State.modPort_frame (s : State) (n : Nat) (f : PortSt → PortSt) :
    (s.modPort n f).pending = s.pending ∧ (s.modPort n f).strokes = s.strokes ∧ (s.modPort n f).opened = s.opened ∧
    (s.modPort n f).rank = s.rank ∧ (s.modPort n f).threads = s.threads ∧ (s.modPort n f).lbs = s.lbs ∧
    (s.modPort n f).pbs = s.pbs ∧ (s.modPort n f).gbits = s.gbits ∧ (s.modPort n f).gpend = s.gpend ∧
    (s.modPort n f).winPend = s.winPend ∧ (s.modPort n f).winFifo = s.winFifo ∧ (s.modPort n f).winDone = s.winDone ∧
    (s.modPort n f).shown = s.shown ∧ (s.modPort n f).shownNext = s.shownNext ∧ (s.modPort n f).ecc = s.ecc ∧
    (s.modPort n f).eccDue = s.eccDue ∧ (s.modPort n f).regs = s.regs ∧ (s.modPort n f).locked = s.locked ∧
    (s.modPort n f).evq = s.evq ∧ (s.modPort n f).draws = s.draws ∧ (s.modPort n f).pump = s.pump ∧
    (s.modPort n f).locks = s.locks ∧ (s.modPort n f).tb = s.tb ∧ (s.modPort n f).mf = s.mf ∧
    (s.modPort n f).gov = s.gov ∧ (s.modPort n f).valves = s.valves ∧ (s.modPort n f).pins = s.pins ∧
    (s.modPort n f).flags = s.flags ∧ (s.modPort n f).flagCycs = s.flagCycs ∧ (s.modPort n f).host = s.host ∧
    (s.modPort n f).wh = s.wh ∧ (s.modPort n f).dbg = s.dbg ∧ (s.modPort n f).mram = s.mram ∧
    (s.modPort n f).inReset = s.inReset ∧ (s.modPort n f).reg = s.reg ∧ (s.modPort n f).th = s.th ∧
    (s.modPort n f).lb = s.lb ∧ (s.modPort n f).pb = s.pb ∧ (s.modPort n f).valve = s.valve ∧
    (s.modPort n f).chan = s.chan ∧ (s.modPort n f).cell = s.cell ∧ (s.modPort n f).ring = s.ring ∧
    (s.modPort n f).part = s.part ∧ (s.modPort n f).ck = s.ck ∧ (s.modPort n f).up = s.up :=
  ⟨rfl, rfl, rfl, rfl, rfl, rfl, rfl, rfl, rfl, rfl, rfl, rfl, rfl, rfl, rfl, rfl, rfl, rfl, rfl, rfl, rfl, rfl, rfl, rfl, rfl, rfl, rfl, rfl, rfl, rfl, rfl, rfl, rfl, rfl, rfl, rfl, rfl, rfl, rfl, rfl, rfl, rfl, rfl, rfl, rfl⟩

/-- `modWh` writes the field `wh` alone. -/
@[simp] theorem State.modWh_frame (s : State) (f : WhSt → WhSt) :
    (s.modWh f).pending = s.pending ∧ (s.modWh f).strokes = s.strokes ∧ (s.modWh f).opened = s.opened ∧
    (s.modWh f).rank = s.rank ∧ (s.modWh f).threads = s.threads ∧ (s.modWh f).lbs = s.lbs ∧
    (s.modWh f).pbs = s.pbs ∧ (s.modWh f).gbits = s.gbits ∧ (s.modWh f).gpend = s.gpend ∧
    (s.modWh f).winPend = s.winPend ∧ (s.modWh f).winFifo = s.winFifo ∧ (s.modWh f).winDone = s.winDone ∧
    (s.modWh f).shown = s.shown ∧ (s.modWh f).shownNext = s.shownNext ∧ (s.modWh f).ecc = s.ecc ∧
    (s.modWh f).eccDue = s.eccDue ∧ (s.modWh f).regs = s.regs ∧ (s.modWh f).locked = s.locked ∧
    (s.modWh f).evq = s.evq ∧ (s.modWh f).draws = s.draws ∧ (s.modWh f).pump = s.pump ∧
    (s.modWh f).locks = s.locks ∧ (s.modWh f).tb = s.tb ∧ (s.modWh f).mf = s.mf ∧
    (s.modWh f).gov = s.gov ∧ (s.modWh f).valves = s.valves ∧ (s.modWh f).pins = s.pins ∧
    (s.modWh f).flags = s.flags ∧ (s.modWh f).flagCycs = s.flagCycs ∧ (s.modWh f).ports = s.ports ∧
    (s.modWh f).host = s.host ∧ (s.modWh f).dbg = s.dbg ∧ (s.modWh f).mram = s.mram ∧
    (s.modWh f).inReset = s.inReset ∧ (s.modWh f).reg = s.reg ∧ (s.modWh f).th = s.th ∧
    (s.modWh f).lb = s.lb ∧ (s.modWh f).pb = s.pb ∧ (s.modWh f).valve = s.valve ∧
    (s.modWh f).port = s.port ∧ (s.modWh f).chan = s.chan ∧ (s.modWh f).cell = s.cell ∧
    (s.modWh f).ring = s.ring ∧ (s.modWh f).part = s.part ∧ (s.modWh f).ck = s.ck :=
  ⟨rfl, rfl, rfl, rfl, rfl, rfl, rfl, rfl, rfl, rfl, rfl, rfl, rfl, rfl, rfl, rfl, rfl, rfl, rfl, rfl, rfl, rfl, rfl, rfl, rfl, rfl, rfl, rfl, rfl, rfl, rfl, rfl, rfl, rfl, rfl, rfl, rfl, rfl, rfl, rfl, rfl, rfl, rfl, rfl, rfl⟩

/-- `modRot` writes the field `wh` alone. -/
@[simp] theorem State.modRot_frame (s : State) (f : RotSt → RotSt) :
    (s.modRot f).pending = s.pending ∧ (s.modRot f).strokes = s.strokes ∧ (s.modRot f).opened = s.opened ∧
    (s.modRot f).rank = s.rank ∧ (s.modRot f).threads = s.threads ∧ (s.modRot f).lbs = s.lbs ∧
    (s.modRot f).pbs = s.pbs ∧ (s.modRot f).gbits = s.gbits ∧ (s.modRot f).gpend = s.gpend ∧
    (s.modRot f).winPend = s.winPend ∧ (s.modRot f).winFifo = s.winFifo ∧ (s.modRot f).winDone = s.winDone ∧
    (s.modRot f).shown = s.shown ∧ (s.modRot f).shownNext = s.shownNext ∧ (s.modRot f).ecc = s.ecc ∧
    (s.modRot f).eccDue = s.eccDue ∧ (s.modRot f).regs = s.regs ∧ (s.modRot f).locked = s.locked ∧
    (s.modRot f).evq = s.evq ∧ (s.modRot f).draws = s.draws ∧ (s.modRot f).pump = s.pump ∧
    (s.modRot f).locks = s.locks ∧ (s.modRot f).tb = s.tb ∧ (s.modRot f).mf = s.mf ∧
    (s.modRot f).gov = s.gov ∧ (s.modRot f).valves = s.valves ∧ (s.modRot f).pins = s.pins ∧
    (s.modRot f).flags = s.flags ∧ (s.modRot f).flagCycs = s.flagCycs ∧ (s.modRot f).ports = s.ports ∧
    (s.modRot f).host = s.host ∧ (s.modRot f).dbg = s.dbg ∧ (s.modRot f).mram = s.mram ∧
    (s.modRot f).inReset = s.inReset ∧ (s.modRot f).reg = s.reg ∧ (s.modRot f).th = s.th ∧
    (s.modRot f).lb = s.lb ∧ (s.modRot f).pb = s.pb ∧ (s.modRot f).valve = s.valve ∧
    (s.modRot f).port = s.port ∧ (s.modRot f).chan = s.chan ∧ (s.modRot f).cell = s.cell ∧
    (s.modRot f).ring = s.ring ∧ (s.modRot f).part = s.part ∧ (s.modRot f).ck = s.ck ∧
    (s.modRot f).up = s.up :=
  ⟨rfl, rfl, rfl, rfl, rfl, rfl, rfl, rfl, rfl, rfl, rfl, rfl, rfl, rfl, rfl, rfl, rfl, rfl, rfl, rfl, rfl, rfl, rfl, rfl, rfl, rfl, rfl, rfl, rfl, rfl, rfl, rfl, rfl, rfl, rfl, rfl, rfl, rfl, rfl, rfl, rfl, rfl, rfl, rfl, rfl, rfl⟩

/-- `modPair` writes the field `wh` alone. -/
@[simp] theorem State.modPair_frame (s : State) (k : Nat) (f : PairSt → PairSt) :
    (s.modPair k f).pending = s.pending ∧ (s.modPair k f).strokes = s.strokes ∧ (s.modPair k f).opened = s.opened ∧
    (s.modPair k f).rank = s.rank ∧ (s.modPair k f).threads = s.threads ∧ (s.modPair k f).lbs = s.lbs ∧
    (s.modPair k f).pbs = s.pbs ∧ (s.modPair k f).gbits = s.gbits ∧ (s.modPair k f).gpend = s.gpend ∧
    (s.modPair k f).winPend = s.winPend ∧ (s.modPair k f).winFifo = s.winFifo ∧ (s.modPair k f).winDone = s.winDone ∧
    (s.modPair k f).shown = s.shown ∧ (s.modPair k f).shownNext = s.shownNext ∧ (s.modPair k f).ecc = s.ecc ∧
    (s.modPair k f).eccDue = s.eccDue ∧ (s.modPair k f).regs = s.regs ∧ (s.modPair k f).locked = s.locked ∧
    (s.modPair k f).evq = s.evq ∧ (s.modPair k f).draws = s.draws ∧ (s.modPair k f).pump = s.pump ∧
    (s.modPair k f).locks = s.locks ∧ (s.modPair k f).tb = s.tb ∧ (s.modPair k f).mf = s.mf ∧
    (s.modPair k f).gov = s.gov ∧ (s.modPair k f).valves = s.valves ∧ (s.modPair k f).pins = s.pins ∧
    (s.modPair k f).flags = s.flags ∧ (s.modPair k f).flagCycs = s.flagCycs ∧ (s.modPair k f).ports = s.ports ∧
    (s.modPair k f).host = s.host ∧ (s.modPair k f).dbg = s.dbg ∧ (s.modPair k f).mram = s.mram ∧
    (s.modPair k f).inReset = s.inReset ∧ (s.modPair k f).reg = s.reg ∧ (s.modPair k f).th = s.th ∧
    (s.modPair k f).lb = s.lb ∧ (s.modPair k f).pb = s.pb ∧ (s.modPair k f).valve = s.valve ∧
    (s.modPair k f).port = s.port ∧ (s.modPair k f).chan = s.chan ∧ (s.modPair k f).cell = s.cell ∧
    (s.modPair k f).ring = s.ring ∧ (s.modPair k f).part = s.part ∧ (s.modPair k f).ck = s.ck ∧
    (s.modPair k f).up = s.up :=
  ⟨rfl, rfl, rfl, rfl, rfl, rfl, rfl, rfl, rfl, rfl, rfl, rfl, rfl, rfl, rfl, rfl, rfl, rfl, rfl, rfl, rfl, rfl, rfl, rfl, rfl, rfl, rfl, rfl, rfl, rfl, rfl, rfl, rfl, rfl, rfl, rfl, rfl, rfl, rfl, rfl, rfl, rfl, rfl, rfl, rfl, rfl⟩

/-- `setClk` writes the field `wh` alone. -/
@[simp] theorem State.setClk_frame (s : State) (k : Nat) (c : ClkMon) :
    (s.setClk k c).pending = s.pending ∧ (s.setClk k c).strokes = s.strokes ∧ (s.setClk k c).opened = s.opened ∧
    (s.setClk k c).rank = s.rank ∧ (s.setClk k c).threads = s.threads ∧ (s.setClk k c).lbs = s.lbs ∧
    (s.setClk k c).pbs = s.pbs ∧ (s.setClk k c).gbits = s.gbits ∧ (s.setClk k c).gpend = s.gpend ∧
    (s.setClk k c).winPend = s.winPend ∧ (s.setClk k c).winFifo = s.winFifo ∧ (s.setClk k c).winDone = s.winDone ∧
    (s.setClk k c).shown = s.shown ∧ (s.setClk k c).shownNext = s.shownNext ∧ (s.setClk k c).ecc = s.ecc ∧
    (s.setClk k c).eccDue = s.eccDue ∧ (s.setClk k c).regs = s.regs ∧ (s.setClk k c).locked = s.locked ∧
    (s.setClk k c).evq = s.evq ∧ (s.setClk k c).draws = s.draws ∧ (s.setClk k c).pump = s.pump ∧
    (s.setClk k c).locks = s.locks ∧ (s.setClk k c).tb = s.tb ∧ (s.setClk k c).mf = s.mf ∧
    (s.setClk k c).gov = s.gov ∧ (s.setClk k c).valves = s.valves ∧ (s.setClk k c).pins = s.pins ∧
    (s.setClk k c).flags = s.flags ∧ (s.setClk k c).flagCycs = s.flagCycs ∧ (s.setClk k c).ports = s.ports ∧
    (s.setClk k c).host = s.host ∧ (s.setClk k c).dbg = s.dbg ∧ (s.setClk k c).mram = s.mram ∧
    (s.setClk k c).inReset = s.inReset ∧ (s.setClk k c).reg = s.reg ∧ (s.setClk k c).th = s.th ∧
    (s.setClk k c).lb = s.lb ∧ (s.setClk k c).pb = s.pb ∧ (s.setClk k c).valve = s.valve ∧
    (s.setClk k c).port = s.port ∧ (s.setClk k c).chan = s.chan ∧ (s.setClk k c).cell = s.cell ∧
    (s.setClk k c).ring = s.ring ∧ (s.setClk k c).part = s.part ∧ (s.setClk k c).ck = s.ck :=
  ⟨rfl, rfl, rfl, rfl, rfl, rfl, rfl, rfl, rfl, rfl, rfl, rfl, rfl, rfl, rfl, rfl, rfl, rfl, rfl, rfl, rfl, rfl, rfl, rfl, rfl, rfl, rfl, rfl, rfl, rfl, rfl, rfl, rfl, rfl, rfl, rfl, rfl, rfl, rfl, rfl, rfl, rfl, rfl, rfl, rfl⟩

/-- `modDbg` writes the field `dbg` alone. -/
@[simp] theorem State.modDbg_frame (s : State) (f : DbgSt → DbgSt) :
    (s.modDbg f).pending = s.pending ∧ (s.modDbg f).strokes = s.strokes ∧ (s.modDbg f).opened = s.opened ∧
    (s.modDbg f).rank = s.rank ∧ (s.modDbg f).threads = s.threads ∧ (s.modDbg f).lbs = s.lbs ∧
    (s.modDbg f).pbs = s.pbs ∧ (s.modDbg f).gbits = s.gbits ∧ (s.modDbg f).gpend = s.gpend ∧
    (s.modDbg f).winPend = s.winPend ∧ (s.modDbg f).winFifo = s.winFifo ∧ (s.modDbg f).winDone = s.winDone ∧
    (s.modDbg f).shown = s.shown ∧ (s.modDbg f).shownNext = s.shownNext ∧ (s.modDbg f).ecc = s.ecc ∧
    (s.modDbg f).eccDue = s.eccDue ∧ (s.modDbg f).regs = s.regs ∧ (s.modDbg f).locked = s.locked ∧
    (s.modDbg f).evq = s.evq ∧ (s.modDbg f).draws = s.draws ∧ (s.modDbg f).pump = s.pump ∧
    (s.modDbg f).locks = s.locks ∧ (s.modDbg f).tb = s.tb ∧ (s.modDbg f).mf = s.mf ∧
    (s.modDbg f).gov = s.gov ∧ (s.modDbg f).valves = s.valves ∧ (s.modDbg f).pins = s.pins ∧
    (s.modDbg f).flags = s.flags ∧ (s.modDbg f).flagCycs = s.flagCycs ∧ (s.modDbg f).ports = s.ports ∧
    (s.modDbg f).host = s.host ∧ (s.modDbg f).wh = s.wh ∧ (s.modDbg f).mram = s.mram ∧
    (s.modDbg f).inReset = s.inReset ∧ (s.modDbg f).reg = s.reg ∧ (s.modDbg f).th = s.th ∧
    (s.modDbg f).lb = s.lb ∧ (s.modDbg f).pb = s.pb ∧ (s.modDbg f).valve = s.valve ∧
    (s.modDbg f).port = s.port ∧ (s.modDbg f).chan = s.chan ∧ (s.modDbg f).cell = s.cell ∧
    (s.modDbg f).ring = s.ring ∧ (s.modDbg f).part = s.part ∧ (s.modDbg f).ck = s.ck ∧
    (s.modDbg f).up = s.up :=
  ⟨rfl, rfl, rfl, rfl, rfl, rfl, rfl, rfl, rfl, rfl, rfl, rfl, rfl, rfl, rfl, rfl, rfl, rfl, rfl, rfl, rfl, rfl, rfl, rfl, rfl, rfl, rfl, rfl, rfl, rfl, rfl, rfl, rfl, rfl, rfl, rfl, rfl, rfl, rfl, rfl, rfl, rfl, rfl, rfl, rfl, rfl⟩

/-- `modMram` writes the field `mram` alone. -/
@[simp] theorem State.modMram_frame (s : State) (f : MramSt → MramSt) :
    (s.modMram f).pending = s.pending ∧ (s.modMram f).strokes = s.strokes ∧ (s.modMram f).opened = s.opened ∧
    (s.modMram f).rank = s.rank ∧ (s.modMram f).threads = s.threads ∧ (s.modMram f).lbs = s.lbs ∧
    (s.modMram f).pbs = s.pbs ∧ (s.modMram f).gbits = s.gbits ∧ (s.modMram f).gpend = s.gpend ∧
    (s.modMram f).winPend = s.winPend ∧ (s.modMram f).winFifo = s.winFifo ∧ (s.modMram f).winDone = s.winDone ∧
    (s.modMram f).shown = s.shown ∧ (s.modMram f).shownNext = s.shownNext ∧ (s.modMram f).ecc = s.ecc ∧
    (s.modMram f).eccDue = s.eccDue ∧ (s.modMram f).regs = s.regs ∧ (s.modMram f).locked = s.locked ∧
    (s.modMram f).evq = s.evq ∧ (s.modMram f).draws = s.draws ∧ (s.modMram f).pump = s.pump ∧
    (s.modMram f).locks = s.locks ∧ (s.modMram f).tb = s.tb ∧ (s.modMram f).mf = s.mf ∧
    (s.modMram f).gov = s.gov ∧ (s.modMram f).valves = s.valves ∧ (s.modMram f).pins = s.pins ∧
    (s.modMram f).flags = s.flags ∧ (s.modMram f).flagCycs = s.flagCycs ∧ (s.modMram f).ports = s.ports ∧
    (s.modMram f).host = s.host ∧ (s.modMram f).wh = s.wh ∧ (s.modMram f).dbg = s.dbg ∧
    (s.modMram f).inReset = s.inReset ∧ (s.modMram f).reg = s.reg ∧ (s.modMram f).th = s.th ∧
    (s.modMram f).lb = s.lb ∧ (s.modMram f).pb = s.pb ∧ (s.modMram f).valve = s.valve ∧
    (s.modMram f).port = s.port ∧ (s.modMram f).chan = s.chan ∧ (s.modMram f).cell = s.cell ∧
    (s.modMram f).ring = s.ring ∧ (s.modMram f).part = s.part ∧ (s.modMram f).ck = s.ck ∧
    (s.modMram f).up = s.up :=
  ⟨rfl, rfl, rfl, rfl, rfl, rfl, rfl, rfl, rfl, rfl, rfl, rfl, rfl, rfl, rfl, rfl, rfl, rfl, rfl, rfl, rfl, rfl, rfl, rfl, rfl, rfl, rfl, rfl, rfl, rfl, rfl, rfl, rfl, rfl, rfl, rfl, rfl, rfl, rfl, rfl, rfl, rfl, rfl, rfl, rfl, rfl⟩

/-- `setTh` changes that entry alone. -/
theorem State.th_setTh (s : State) (x : Nat) (t : Thread) (y : Nat) : (s.setTh x t).th y = if x = y then t else s.th y :=
  tget_tput _ _ _ _ _

@[simp] theorem State.th_setTh_same (s : State) (x : Nat) (t : Thread) : (s.setTh x t).th x = t := tget_tput_same _ _ _ _

/-- `modTh` changes that entry alone. -/
theorem State.th_modTh (s : State) (x : Nat) (f : Thread → Thread) (y : Nat) : (s.modTh x f).th y = if x = y then f (s.th x) else s.th y :=
  tget_tput _ _ _ _ _

@[simp] theorem State.th_modTh_same (s : State) (x : Nat) (f : Thread → Thread) : (s.modTh x f).th x = f (s.th x) := tget_tput_same _ _ _ _

/-- `setLb` changes that entry alone. -/
theorem State.lb_setLb (s : State) (x : Nat) (t : LBore) (y : Nat) : (s.setLb x t).lb y = if x = y then t else s.lb y :=
  tget_tput _ _ _ _ _

@[simp] theorem State.lb_setLb_same (s : State) (x : Nat) (t : LBore) : (s.setLb x t).lb x = t := tget_tput_same _ _ _ _

/-- `modLb` changes that entry alone. -/
theorem State.lb_modLb (s : State) (x : Nat) (f : LBore → LBore) (y : Nat) : (s.modLb x f).lb y = if x = y then f (s.lb x) else s.lb y :=
  tget_tput _ _ _ _ _

@[simp] theorem State.lb_modLb_same (s : State) (x : Nat) (f : LBore → LBore) : (s.modLb x f).lb x = f (s.lb x) := tget_tput_same _ _ _ _

/-- `modPb` changes that entry alone. -/
theorem State.pb_modPb (s : State) (x : Nat) (f : PBore → PBore) (y : Nat) : (s.modPb x f).pb y = if x = y then f (s.pb x) else s.pb y :=
  tget_tput _ _ _ _ _

@[simp] theorem State.pb_modPb_same (s : State) (x : Nat) (f : PBore → PBore) : (s.modPb x f).pb x = f (s.pb x) := tget_tput_same _ _ _ _

/-- `modValve` changes that entry alone. -/
theorem State.valve_modValve (s : State) (x : Nat) (f : ValveSt → ValveSt) (y : Nat) : (s.modValve x f).valve y = if x = y then f (s.valve x) else s.valve y :=
  tget_tput _ _ _ _ _

@[simp] theorem State.valve_modValve_same (s : State) (x : Nat) (f : ValveSt → ValveSt) : (s.modValve x f).valve x = f (s.valve x) := tget_tput_same _ _ _ _

/-- `modPort` changes that entry alone. -/
theorem State.port_modPort (s : State) (x : Nat) (f : PortSt → PortSt) (y : Nat) : (s.modPort x f).port y = if x = y then f (s.port x) else s.port y :=
  tget_tput _ _ _ _ _

@[simp] theorem State.port_modPort_same (s : State) (x : Nat) (f : PortSt → PortSt) : (s.modPort x f).port x = f (s.port x) := tget_tput_same _ _ _ _

/-- `modChan` changes that entry alone. -/
theorem State.chan_modChan (s : State) (x : Nat) (f : Chan → Chan) (y : Nat) : (s.modChan x f).chan y = if x = y then f (s.chan x) else s.chan y :=
  tget_tput _ _ _ _ _

@[simp] theorem State.chan_modChan_same (s : State) (x : Nat) (f : Chan → Chan) : (s.modChan x f).chan x = f (s.chan x) := tget_tput_same _ _ _ _

/-- `modCell` changes that entry alone. -/
theorem State.cell_modCell (s : State) (x : Nat) (f : Cell → Cell) (y : Nat) : (s.modCell x f).cell y = if x = y then f (s.cell x) else s.cell y :=
  tget_tput _ _ _ _ _

@[simp] theorem State.cell_modCell_same (s : State) (x : Nat) (f : Cell → Cell) : (s.modCell x f).cell x = f (s.cell x) := tget_tput_same _ _ _ _

/-- `modRing` changes that entry alone. -/
theorem State.ring_modRing (s : State) (x : Nat) (f : HRing → HRing) (y : Nat) : (s.modRing x f).ring y = if x = y then f (s.ring x) else s.ring y :=
  tget_tput _ _ _ _ _

@[simp] theorem State.ring_modRing_same (s : State) (x : Nat) (f : HRing → HRing) : (s.modRing x f).ring x = f (s.ring x) := tget_tput_same _ _ _ _

/-- `modPart` changes that entry alone. -/
theorem State.part_modPart (s : State) (x : Nat) (f : HPart → HPart) (y : Nat) : (s.modPart x f).part y = if x = y then f (s.part x) else s.part y :=
  tget_tput _ _ _ _ _

@[simp] theorem State.part_modPart_same (s : State) (x : Nat) (f : HPart → HPart) : (s.modPart x f).part x = f (s.part x) := tget_tput_same _ _ _ _

/-- `modCk` changes that entry alone. -/
theorem State.ck_modCk (s : State) (x : Nat) (f : CkSlot → CkSlot) (y : Nat) : (s.modCk x f).ck y = if x = y then f (s.ck x) else s.ck y :=
  tget_tput _ _ _ _ _

@[simp] theorem State.ck_modCk_same (s : State) (x : Nat) (f : CkSlot → CkSlot) : (s.modCk x f).ck x = f (s.ck x) := tget_tput_same _ _ _ _

@[simp] theorem State.modTh_modTh (s : State) (x : Nat) (f g : Thread → Thread) :
    (s.modTh x f).modTh x g = s.modTh x (fun t => g (f t)) := by
  simp [State.modTh, State.setTh, State.th]

@[simp] theorem State.modLb_modLb (s : State) (x : Nat) (f g : LBore → LBore) :
    (s.modLb x f).modLb x g = s.modLb x (fun t => g (f t)) := by
  simp [State.modLb, State.setLb, State.lb]

@[simp] theorem State.modValve_modValve (s : State) (x : Nat) (f g : ValveSt → ValveSt) :
    (s.modValve x f).modValve x g = s.modValve x (fun t => g (f t)) := by
  simp [State.modValve, State.valve]

@[simp] theorem State.modPort_modPort (s : State) (x : Nat) (f g : PortSt → PortSt) :
    (s.modPort x f).modPort x g = s.modPort x (fun t => g (f t)) := by
  simp [State.modPort, State.port]

@[simp] theorem State.modPair_modPair (s : State) (x : Nat) (f g : PairSt → PairSt) :
    (s.modPair x f).modPair x g = s.modPair x (fun t => g (f t)) := by
  simp [State.modPair, State.pair]

/-- The image word of a register after a write of it, and of every other register. -/
theorem State.reg_setReg (s : State) (o v p : Nat) : (s.setReg o v).reg p = if o = p then v % 2 ^ 32 else s.reg p := by
  unfold State.setReg State.reg
  simp only [tfind_tput]
  by_cases h : o = p
  · simp [h]
  · simp [h]

@[simp] theorem State.reg_setReg_same (s : State) (o v : Nat) : (s.setReg o v).reg o = v % 2 ^ 32 := by
  rw [State.reg_setReg, if_pos rfl]

@[simp] theorem State.reg_setReg_other (s : State) (o v p : Nat) (h : p ≠ o) : (s.setReg o v).reg p = s.reg p := by
  rw [State.reg_setReg, if_neg (Ne.symm h)]

end Sys2Proof.Machine
end

