-- ==== Sys2Proof/Laws/Ops.lean ====
section
/-!
SUPPORT. What the shared operations can do: fields of a written word, flags, turns, ECC reads, lock abandonment.
-/

namespace Sys2Proof.Machine

/-! ### Fields of a word -/

theorem div_pow_congr (a b m k : Nat) (h : a / 2 ^ m = b / 2 ^ m) (hk : m ≤ k) : a / 2 ^ k = b / 2 ^ k := by
  have e : 2 ^ k = 2 ^ m * 2 ^ (k - m) := by rw [← pow_add]; congr 1; omega
  rw [e, ← Nat.div_div_eq_div_mul, ← Nat.div_div_eq_div_mul, h]

theorem putBits_low (w c : Nat) : putBits w 2 0 c / 2 ^ 3 = w / 2 ^ 3 := by
  unfold putBits bits
  norm_num
  omega

/-- A row that spells the CMD field of a register leaves the fields above it. -/
@[simp] theorem bit_putBits_low (w c k : Nat) (h : 3 ≤ k) : bit (putBits w 2 0 c) k = bit w k := by
  unfold bit
  rw [div_pow_congr _ _ 3 k (putBits_low w c) h]

@[simp] theorem bits_putBits_low (w c hi lo : Nat) (h : 3 ≤ lo) : bits (putBits w 2 0 c) hi lo = bits w hi lo := by
  unfold bits
  rw [div_pow_congr _ _ 3 lo (putBits_low w c) h]

@[simp] theorem bits_putBits_self (w c : Nat) : bits (putBits w 2 0 c) 2 0 = c % 8 := by
  unfold putBits bits
  norm_num
  omega

/-- Setting one bit. -/
@[simp] theorem bit_putBits_one (w k : Nat) : bit (putBits w k k 1) k = true := by
  unfold bit putBits bits
  have e : k + 1 - k = 1 := by omega
  rw [e]
  have hp : 0 < 2 ^ k := by positivity
  have hm : w / 2 ^ k % 2 ^ 1 * 2 ^ k ≤ w := by
    calc w / 2 ^ k % 2 ^ 1 * 2 ^ k ≤ w / 2 ^ k * 2 ^ k := Nat.mul_le_mul_right _ (Nat.mod_le _ _)
      _ ≤ w := Nat.div_mul_le_self _ _
  have hd : (w - w / 2 ^ k % 2 ^ 1 * 2 ^ k + 1 % 2 ^ 1 * 2 ^ k) / 2 ^ k = w / 2 ^ k - w / 2 ^ k % 2 ^ 1 + 1 := by
    rw [show 1 % 2 ^ 1 * 2 ^ k = 2 ^ k * 1 by norm_num, Nat.add_mul_div_left _ _ hp,
      Nat.mul_comm (w / 2 ^ k % 2 ^ 1), Nat.sub_mul_div]
  rw [hd]
  simp
  omega

theorem foldl_rest {α β : Type} (g : State → β) (f : State → α → State) (h : ∀ s a, g (f s a) = g s) (l : List α) (s : State) :
    g (l.foldl f s) = g s := by
  induction l generalizing s with
  | nil => rfl
  | cons a l ih => simp [ih, h]

/-! ### Check bits (R144-R146) -/

/-- An error that an instruction in the pipe meets is marked, and its count and its record wait, no more. -/
theorem State.eccPipe_rest (s : State) (m : Mem) (w : Nat) :
    { s.eccPipe m w with ecc := s.ecc, eccDue := s.eccDue, evq := s.evq } = s := by
  unfold State.eccPipe State.eccEventAt State.eventAt State.countLater State.setEcc
  split
  · rfl
  · split <;> rfl
  · rfl

/-- A word written in part leaves a mark fewer, and the count and the record of an error that it met, no more. -/
@[simp] theorem State.eccPart_rest (s : State) (m : Mem) (w : Nat) :
    { s.eccPart m w with ecc := s.ecc, eccDue := s.eccDue, evq := s.evq } = s := by
  unfold State.eccPart
  split
  · rfl
  · rfl
  · rfl
  · have h := State.eccPipe_rest s m w
    generalize s.eccPipe m w = t at h ⊢
    unfold State.setEcc
    exact h

theorem State.eccPart_threads (s : State) (m : Mem) (w : Nat) : (s.eccPart m w).threads = s.threads := by
  have h := congrArg State.threads (State.eccPart_rest s m w)
  exact h

/-- So does a write of any length. -/
@[simp] theorem State.eccWrite_rest (s : State) (m : Mem) (a n : Nat) :
    { s.eccWrite m a n with ecc := s.ecc, eccDue := s.eccDue, evq := s.evq } = s := by
  let g : State → State := fun t => { t with ecc := s.ecc, eccDue := s.eccDue, evq := s.evq }
  have h : g (s.eccWrite m a n) = g s := by
    unfold State.eccWrite
    split
    · rfl
    · rw [foldl_rest g]
      intro t k
      split
      · rfl
      · calc g (t.eccPart m k) = g { t.eccPart m k with ecc := t.ecc, eccDue := t.eccDue, evq := t.evq } := rfl
          _ = g t := by rw [State.eccPart_rest]
  exact h

theorem State.eccWrite_th (s : State) (m : Mem) (a n : Nat) : (s.eccWrite m a n).th = s.th := by
  have h := congrArg State.threads (State.eccWrite_rest s m a n)
  funext x
  unfold State.th
  rw [show (s.eccWrite m a n).threads = s.threads from h]

theorem State.eccWrite_lb (s : State) (m : Mem) (a n : Nat) : (s.eccWrite m a n).lb = s.lb := by
  have h := congrArg State.lbs (State.eccWrite_rest s m a n)
  funext x
  unfold State.lb
  rw [show (s.eccWrite m a n).lbs = s.lbs from h]

/-! ### Flags (R20, R146) -/

theorem State.eccPart_th (s : State) (m : Mem) (w : Nat) : (s.eccPart m w).th = s.th := by
  funext x
  unfold State.th
  rw [State.eccPart_threads]

/-- A flag write changes bit space of its thread alone, and drops the flag from the older results still on their way. -/
theorem State.setFlag_th (s : State) (x a y : Nat) (v : Bool) (h : y ≠ x) : (s.setFlag x a v).th y = s.th y := by
  unfold State.setFlag
  split
  · rfl
  · rw [State.th_modTh, if_neg (Ne.symm h), State.eccPart_th]

theorem State.setFlag_self (s : State) (x a : Nat) (v : Bool) :
    ∃ b d, (s.setFlag x a v).th x = { s.th x with bits := b, flagsDue := d } := by
  unfold State.setFlag
  split
  · exact ⟨_, _, rfl⟩
  · rw [State.th_modTh_same, State.eccPart_th]
    unfold Thread.setFlag
    split
    · exact ⟨_, _, rfl⟩
    · exact ⟨_, _, rfl⟩

@[simp] theorem State.setFlag_rest (s : State) (x a : Nat) (v : Bool) :
    { s.setFlag x a v with threads := s.threads, ecc := s.ecc, eccDue := s.eccDue, evq := s.evq } = s := by
  unfold State.setFlag
  split
  · rfl
  · have h := State.eccPart_rest s (.privBits x) (a / 32)
    calc _ = { { s.eccPart (.privBits x) (a / 32) with ecc := s.ecc, eccDue := s.eccDue, evq := s.evq } with
                threads := s.threads, ecc := s.ecc, eccDue := s.eccDue, evq := s.evq } := rfl
      _ = s := by rw [h]

/-- A flag reads back what was written, where its word is not uncorrectable and the bit is not reserved. -/
theorem State.setFlag_flag (s : State) (x a b : Nat) (v : Bool) (hu : s.isUe (.privBits x) (a / 32) = false)
    (ha : privReserved a = false) :
    ((s.setFlag x a v).th x).flag b = if a = b then v else (s.th x).flag b := by
  unfold State.setFlag
  rw [hu]
  simp only [Bool.false_eq_true, if_false, State.th_modTh_same, State.eccPart_th, Thread.setFlag, Thread.flag, ha, tget_tset]
  by_cases h : a = b
  · subst h; simp [ha]
  · simp [h]

/-! ### Writing the memories of a bore (R74, R76, R146) -/

/-- A well write changes the well of its thread, and the check bits of the words that it covers. -/
theorem State.wellPut_th (s : State) (x a n v y : Nat) :
    (s.wellPut x a n v).th y = if x = y then { s.th x with well := writeLE (s.th x).well a n v } else s.th y := by
  unfold State.wellPut
  rw [State.eccWrite_th, State.th_modTh]

theorem State.wellPut_rest (s : State) (x a n v : Nat) :
    { s.wellPut x a n v with threads := s.threads, ecc := s.ecc, eccDue := s.eccDue, evq := s.evq } = s := by
  have h := State.eccWrite_rest (s.modTh x (fun t => { t with well := writeLE t.well a n v })) (.well x) a n
  unfold State.wellPut
  calc _ = { { State.eccWrite (s.modTh x (fun t => { t with well := writeLE t.well a n v })) (.well x) a n with
                ecc := (s.modTh x (fun t => { t with well := writeLE t.well a n v })).ecc
                eccDue := (s.modTh x (fun t => { t with well := writeLE t.well a n v })).eccDue
                evq := (s.modTh x (fun t => { t with well := writeLE t.well a n v })).evq } with
              threads := s.threads, ecc := s.ecc, eccDue := s.eccDue, evq := s.evq } := rfl
    _ = s := by rw [h]; rfl

/-- The canonical form of a well stays. -/
theorem State.wellPut_wf (s : State) (x a n v y : Nat) (h : Tbl.wf 0 (s.th y).well = true) :
    Tbl.wf 0 ((s.wellPut x a n v).th y).well = true := by
  rw [State.wellPut_th]
  split
  · subst y; exact wf_writeLE _ _ _ _ h
  · exact h

theorem State.resPut_lb (s : State) (m a n v k : Nat) :
    (s.resPut m a n v).lb k = if m = k then { s.lb m with res := writeLE (s.lb m).res a n v } else s.lb k := by
  unfold State.resPut
  rw [State.eccWrite_lb, State.lb_modLb]

theorem State.resPut_wf (s : State) (m a n v k : Nat) (h : Tbl.wf 0 (s.lb k).res = true) :
    Tbl.wf 0 ((s.resPut m a n v).lb k).res = true := by
  rw [State.resPut_lb]
  split
  · subst k; exact wf_writeLE _ _ _ _ h
  · exact h

/-! ### Lock abandonment (R489) -/

/-- Abandonment changes the lock unit and raises events, no more. -/
theorem State.abandon_rest (s : State) (who : Nat → Bool) :
    { s.abandon who with locks := s.locks, evq := s.evq } = s := by
  let g : State → State := fun t => { t with locks := s.locks, evq := s.evq }
  have alarm : ∀ (t : State) (b : Nat), g (t.lockAlarm b) = g t := fun _ _ => rfl
  have report : ∀ (t : State) (m c l a : Nat), g (t.lockReport m c l a) = g t := fun _ _ _ _ _ => rfl
  have unit : ∀ (t : State) (f : LockSt → LockSt), g (t.modLocks f) = g t := fun _ _ => rfl
  have lease : ∀ (t : State) (i : Nat) (e : Lease), g (t.setLease i e) = g t := fun _ _ _ => rfl
  have glock : ∀ (t : State) (i : Nat) (e : GLock), g (t.setGlock i e) = g t := fun _ _ _ => rfl
  have h : g (s.abandon who) = g s := by
    unfold State.abandon
    rw [foldl_rest g, foldl_rest g]
    · intro t e
      rw [alarm, report, unit, lease]
    · intro t e
      rw [alarm, report, unit, glock]
  exact h

@[simp] theorem State.abandon_threads (s : State) (who : Nat → Bool) : (s.abandon who).threads = s.threads := by
  have h := congrArg State.threads (State.abandon_rest s who)
  exact h

@[simp] theorem State.abandon_th (s : State) (who : Nat → Bool) : (s.abandon who).th = s.th := by
  funext x
  unfold State.th
  rw [State.abandon_threads]

/-! ### Commands of BORE_TCTRL (R95) -/

/-- CLASS, the modes and CMD_ERR as an accepted write of BORE_TCTRL stores them. -/
def Thread.modes (t : Thread) (n w : Nat) : Thread :=
  { t with cls := bit w 4, rsTrap := bit w 5, dzTrap := bit w 6, imask := BitVec.ofNat 8 (Sys2Proof.bits w 15 8)
           cmdErr := t.cmdErr && !(bit w 16 && t.freshCmd.held n == 0) }

/-- A write that may change CLASS stores the modes and runs its command. -/
theorem State.tctrlWrite_ok (s : State) (x w : Nat) (h : (bit w 4 != (s.th x).cls && (s.th x).busy) = false) :
    s.tctrlWrite x w = (s.modTh x (fun t => t.modes s.strokes w)).threadCmd x (bits w 2 0) := by
  unfold State.tctrlWrite
  dsimp only
  rw [h]
  by_cases hb : (bit w 16 && (s.th x).freshCmd.held s.strokes == 0) = true
  · simp only [hb, if_true, Bool.false_eq_true, if_false, State.modTh_modTh, Thread.modes]
    congr 1
    simp [State.modTh, State.setTh, hb]
  · simp only [hb, Bool.false_eq_true, if_false, Thread.modes]
    congr 1
    simp [State.modTh, State.setTh, hb]

end Sys2Proof.Machine
end

