-- ==== Sys2Proof/Laws/Issue.lean ====
section
/-!
SUPPORT. What an instruction of a thread does around its own operation: the context that it operates with, and the next
state by what its operation answers.
-/

namespace Sys2Proof.Machine

/-- The context of an instruction that operates. -/
theorem State.stage_go {s t : State} {x : Nat} {d : Dec} {c : Ctx} (h : s.stage x d = .go c t) :
    c.x = x ∧ c.pc = (s.th x).pc.toNat ∧ c.dec = d := by
  unfold State.stage at h
  dsimp only at h
  split at h
  · cases h
  · split at h
    · cases h
    · split at h
      · cases h
      · cases h
        exact ⟨rfl, rfl, rfl⟩

theorem Operates.x_eq {s t : State} {i : Instr} {x : Nat} {c : Ctx} (h : Operates s i x c t) : c.x = x :=
  (State.stage_go h.staged).1

/-- A command whose instruction is the next one of its thread issues it. -/
theorem runSel_issues {s : State} {x : Nat} {d : Dec} {sel : State → Dec → Bool} {body : Body} (hf : s.fetch x = .ok d)
    (hg : s.hasTurn x .issue = true) (hs : sel (s.landBore (lbOf x)) d = true)
    (hi : (s.landBore (lbOf x)).mayIssue x d = true) :
    runSel x sel body s = .next ((s.landBore (lbOf x)).issueRun x d body) := by
  unfold runSel
  simp [hf, hg, hs, hi, State.act]

/-- What an instruction that operates does, by what its operation answers. -/
def Did.after (c : Ctx) (t : State) : Did → State
  | .run g => g (c.landed t)
  | .stay g => g t
  | .fault f => t.takeFault c.x c.pc c.dec f

theorem State.issueRun_go {s t : State} {x : Nat} {d : Dec} {c : Ctx} {body : Body} (h : s.stage x d = .go c t) :
    s.issueRun x d body = (body c t).after c t := by
  obtain ⟨hx, hp, hd⟩ := State.stage_go h
  unfold State.issueRun
  rw [h]
  subst hd
  dsimp only
  cases body c t <;> simp [Did.after, Ctx.landed, hx, hp]

/-- The same for the commands that name an opcode. -/
theorem Operates.run {s t : State} {i : Instr} {x : Nat} {c : Ctx} (h : Operates s i x c t) (op : Nat) (body : Body)
    (hop : (c.dec.op == op) = true) : runThread x op body s = .next ((body c t).after c t) := by
  unfold runThread
  rw [runSel_issues h.issued.fetched h.issued.granted hop h.issued.issues, State.issueRun_go h.staged]

theorem Operates.opcode {s t : State} {i : Instr} {x : Nat} {c : Ctx} (h : Operates s i x c t) {y : Fin 128} {op : Nat}
    (hi : threadRow i = some (y, op, none)) : (c.dec.op == op) = true := by
  have := h.issued.named
  unfold rowSel at this
  rw [hi] at this
  exact this

/-- SETF writes the flags of a result (R179). -/
theorem Ctx.result_eq (c : Ctx) (o : AluOut) (t : State) : c.result o (c.landed t) = c.result2 t o.r o.c o.v := by
  unfold Ctx.result Ctx.result2 State.flagsWith Loc.delay Ctx.wrote
  cases c.dec.setf with
  | false => rfl
  | true => cases (c.op 0).loc <;> rfl

theorem Ctx.writes_eq (c : Ctx) (o : AluOut) : c.writes o = c.laterWrites o.r o.c o.v := by
  unfold Ctx.writes Ctx.laterWrites
  split
  · simp [flagWritesAt, flagWrites, zcvn, flagZ, flagC, flagV, flagN]
  · rfl

/-- Overflow is a sum outside the signed range (R179). -/
theorem outside_eq (w : Nat) (v : Int) : outside w v = overflows w v := by
  unfold outside overflows
  congr 1
  apply Bool.eq_iff_iff.mpr
  simp only [decide_eq_true_eq]
  omega

/-! ### What reading leaves (R128, R145) -/

/-- `s` with the ECC records, the events and the wellhead of `u`. -/
def State.besides (s u : State) : State :=
  { s with ecc := u.ecc, eccDue := u.eccDue, regs := u.regs, pbs := u.pbs, evq := u.evq, wh := u.wh }

theorem State.countEccOn_besides (s u : State) (b : Nat) (m : Mem) (ue : Bool) :
    (s.countEccOn b m ue).besides u = s.besides u := by
  unfold State.countEccOn
  split
  · split <;> rfl
  · split <;> rfl

theorem State.countUe_besides (s u : State) (m : Mem) : (s.countUe m).besides u = s.besides u := by
  unfold State.countUe
  split
  · rfl
  · exact State.countEccOn_besides s u _ m true

theorem State.eccEventAt_besides (s u : State) (q cls : Nat) (m : Mem) (w : Nat) (r : Reader) :
    (s.eccEventAt q cls m w r).besides u = s.besides u := rfl

theorem State.setEcc_besides (s u : State) (m : Mem) (w : Nat) (e : Option EccState) :
    (s.setEcc m w e).besides u = s.besides u := rfl

/-- A read that meets an error counts it, marks the word and reports it, no more. -/
theorem State.eccRead_besides (s u : State) (r : Reader) (m : Mem) (w : Nat) :
    (s.eccRead r m w).besides u = s.besides u := by
  unfold State.eccRead State.eccEvent State.countEcc
  split
  · rfl
  · rw [State.eccEventAt_besides, State.countUe_besides]
  · rw [State.eccEventAt_besides, State.countEccOn_besides, State.setEcc_besides]

/-- So does a read in the pipe, whose count waits for the RETIRE stage. -/
theorem State.eccPipe_besides (s u : State) (m : Mem) (w : Nat) : (s.eccPipe m w).besides u = s.besides u := by
  unfold State.eccPipe
  split
  · rfl
  · rw [State.eccEventAt_besides]
    split <;> rfl
  · rfl

theorem State.eccCorrect_besides (s u : State) (ws : List (Mem × Nat)) : (s.eccCorrect ws).besides u = s.besides u := by
  unfold State.eccCorrect
  split
  · rfl
  · refine foldl_rest (fun t => t.besides u) _ (fun t k => ?_) _ _
    split
    · rfl
    · exact State.eccRead_besides t u _ _ _

theorem State.pipeCorrect_besides (s u : State) (ws : List (Mem × Nat)) : (s.pipeCorrect ws).besides u = s.besides u := by
  unfold State.pipeCorrect
  split
  · rfl
  · refine foldl_rest (fun t => t.besides u) _ (fun t k => ?_) _ _
    split
    · rfl
    · exact State.eccPipe_besides t u _ _

/-- A value from outside a pair changes the pair's record alone (R505). -/
theorem State.outside_besides (s u : State) (x pc v : Nat) : (s.outside x pc v).2.besides u = s.besides u := by
  unfold State.outside State.leadRec State.modTrailRec State.modPair
  repeat' split
  all_goals rfl

theorem State.readOps_besides (s u : State) (x pc : Nat) (d : Dec) (os : List (Opnd × Nat)) :
    (s.readOps x pc d os).2.besides u = s.besides u := by
  induction os generalizing s with
  | nil => rfl
  | cons o os ih =>
    unfold State.readOps
    dsimp only
    split
    · rw [ih, State.outside_besides]
    · exact ih s

theorem State.readCond_besides (s u : State) (x pc : Nat) (d : Dec) : (s.readCond x pc d).2.besides u = s.besides u := by
  unfold State.readCond
  split
  · rfl
  · dsimp only
    rw [State.pipeCorrect_besides]
    split
    · exact State.outside_besides s u _ _ _
    · rfl

/-- Up to OPERATE an instruction changes its thread's PC, queue and turn, the records of corrected words and of its
pair. -/
theorem State.stage_besides {s t : State} {x : Nat} {d : Dec} {c : Ctx} (h : s.stage x d = .go c t) (u : State) :
    t.besides u = ((s.fetchRest x d.len).begun x d).besides u := by
  unfold State.stage at h
  dsimp only at h
  split at h
  · cases h
  · split at h
    · cases h
    · split at h
      · cases h
      · cases h
        rw [State.readOps_besides, State.pipeCorrect_besides, State.readCond_besides]

theorem State.fetchRest_besides (s u : State) (x n : Nat) : (s.fetchRest x n).besides u = s.besides u :=
  State.eccCorrect_besides s u _

/-! ### The post-increments (R120, R122) -/

/-- Advancing pointers writes the well of the thread, no more. -/
theorem advance_rest (s : State) (x : Nat) (ops : List Opnd) (w : List (Nat × Nat)) :
    { advance s x ops w with threads := s.threads, ecc := s.ecc, eccDue := s.eccDue, evq := s.evq } = s := by
  let g : State → State := fun t => { t with threads := s.threads, ecc := s.ecc, eccDue := s.eccDue, evq := s.evq }
  have h : g (advance s x ops w) = g s := by
    unfold advance
    dsimp only
    rw [foldl_rest g]
    intro t k
    split
    · rfl
    · generalize (t.wellWord x (4 * k) - _ + _) = v
      calc g _ = g { t.wellPut x (4 * k) 4 v with threads := t.threads, ecc := t.ecc, eccDue := t.eccDue, evq := t.evq } := rfl
        _ = g t := by rw [State.wellPut_rest]
  exact h

theorem advance_th (s : State) (x : Nat) (ops : List Opnd) (w : List (Nat × Nat)) (y : Nat) :
    { (advance s x ops w).th y with well := (s.th y).well } = s.th y := by
  let g : State → Thread := fun t => { t.th y with well := (s.th y).well }
  have h : g (advance s x ops w) = g s := by
    unfold advance
    dsimp only
    rw [foldl_rest g]
    intro t k
    split
    · rfl
    · simp only [g, State.wellPut_th]
      split
      · subst y; rfl
      · rfl
  exact h

theorem Ctx.landed_rest (c : Ctx) (t : State) :
    { c.landed t with threads := t.threads, ecc := t.ecc, eccDue := t.eccDue, evq := t.evq } = t :=
  advance_rest t c.x c.ops (c.dec.wellDests c.ops)

theorem Ctx.landed_th (c : Ctx) (t : State) (x : Nat) : { (c.landed t).th x with well := (t.th x).well } = t.th x :=
  advance_th t c.x c.ops (c.dec.wellDests c.ops) x

theorem Ctx.landed_elastic (c : Ctx) (t : State) (x : Nat) : (c.landed t).elastic x = t.elastic x := by
  have h : ((c.landed t).th x).st = (t.th x).st := by rw [← Ctx.landed_th c t x]
  unfold State.elastic
  rw [h]

theorem Ctx.landed_rs (c : Ctx) (t : State) (x : Nat) : ((c.landed t).th x).rs = (t.th x).rs := by rw [← Ctx.landed_th c t x]

theorem Ctx.landed_tb (c : Ctx) (t : State) : (c.landed t).tb = t.tb := by
  have h := congrArg State.tb (Ctx.landed_rest c t)
  exact h

theorem Ctx.landed_regs (c : Ctx) (t : State) : (c.landed t).regs = t.regs := by
  have h := congrArg State.regs (Ctx.landed_rest c t)
  exact h

/-! ### Outside a pair of threads (R505) -/

theorem pairOf_none {s : State} {x : Nat} (h : s.pairOf x = none) : s.leads x = none ∧ s.trails x = none := by
  unfold State.pairOf at h
  cases h1 : s.leads x <;> simp_all

theorem outside_none {s : State} {x : Nat} (h : s.pairOf x = none) (pc v : Nat) : s.outside x pc v = (v, s) := by
  unfold State.outside
  simp [pairOf_none h]

theorem output_none {s : State} {x : Nat} (h : s.pairOf x = none) (pc hint : Nat) (o : Out) :
    s.output x pc hint o = s.emit x pc hint o := by
  unfold State.output
  simp [pairOf_none h]

theorem actor_none {s : State} {x : Nat} (h : s.pairOf x = none) : s.actor x = x := by
  unfold State.actor
  simp [pairOf_none h]

end Sys2Proof.Machine
end

