-- ==== Sys2Proof/WellFormed.lean ====
section
/-!
DEFINITION. What the spec asks of the operands of a command beyond their types.  The step runs every term; a sender on the
real signals can send only well-formed ones.
-/

namespace Sys2Proof

/-- Words of 32 bits in a memory (R66, R107, R111, R405, R399, R446, R537); a code store has two banks. -/
def Machine.Mem.wordOk (m : Machine.Mem) (w : Nat) : Bool :=
  match m with
  | .well x => decide (x < 128) && decide (w < 0x400)
  | .reservoir b => decide (b < 8) && decide (w < 0x20000)
  | .code b k => decide (b < 8) && decide (k < 2) && decide (w < 0x10000)
  | .privBits x => decide (x < 128) && decide (w < 128)
  | .sharedBits b => decide (b < 8) && decide (w < 256)
  | .globalBits => decide (w < 128)
  | .cistern => decide (w < 0x200000)
  | .cellMap => decide (w < 0x20000)
  | .channels => decide (w < 0x40000)
  | .routes => decide (w < 4752)
  | .mram => decide (w < 0x400000)

/-- The positions of a received frame lie in it (R295, R298). -/
def RxFrame.ok (f : RxFrame) : Bool :=
  f.er.all (fun i => decide (i ≤ f.bytes.length)) && decide (f.kept ≤ f.bytes.length) &&
  (f.early.map (fun k => decide (k ≤ f.bytes.length))).getD true

/-- An identifier of a master port: 8 bits on the host port, 9 on the cistern port (R561). -/
def portId (port : Fin 2) (id : Fin 512) : Bool := port.val == 1 || decide (id.val < 256)

/-- The command is one that a sender can send. -/
def Instr.wellFormed (i : Instr) : Bool :=
  match i with
  | .stroke _ _ => true
  | .depthDecrease => true
  | .paceWrite _ => true
  | .paceApply => true
  | .snap _ => true
  | .msReport => true
  | .vreqAckRise => true
  | .vreqAckFall => true
  | .downRequest => true
  | .vreqTimeout => true
  | .refLost => true
  | .refRestored => true
  | .wheelLoWrite _ _ => true
  | .wheelHiWrite _ _ => true
  | .wheelApply _ => true
  | .start _ _ => true
  | .stop _ _ => true
  | .step _ _ => true
  | .reset _ _ => true
  | .threadFirstTurn _ => true
  | .stopAtBoundary _ => true
  | .stepComplete _ => true
  | .interruptEntry _ => true
  | .exceptionEntry _ => true
  | .illegalInstruction _ => true
  | .uncorrectableFetch _ => true
  | .eccRewrite m w => m.wordOk w
  | .longResult _ => true
  | .blockCrcDone _ => true
  | .lvCommit _ => true
  | .cisternPartLand _ _ => true
  | .cisternFault _ _ => true
  | .windowWriteArrive _ => true
  | .nop _ => true
  | .mov _ => true
  | .swap _ => true
  | .sel _ => true
  | .bmov _ => true
  | .bset _ => true
  | .bclr _ => true
  | .bnot _ => true
  | .add _ => true
  | .adc _ => true
  | .sub _ => true
  | .sbc _ => true
  | .adds _ => true
  | .subs _ => true
  | .inc _ => true
  | .dec _ => true
  | .neg _ => true
  | .abs _ => true
  | .min _ => true
  | .max _ => true
  | .minu _ => true
  | .maxu _ => true
  | .cmp _ => true
  | .and _ => true
  | .or _ => true
  | .xor _ => true
  | .tst _ => true
  | .btst _ => true
  | .clz _ => true
  | .popc _ => true
  | .bswap _ => true
  | .bfx _ => true
  | .bfi _ => true
  | .shl _ => true
  | .shr _ => true
  | .sar _ => true
  | .rol _ => true
  | .mul _ => true
  | .mulh _ => true
  | .mulhu _ => true
  | .div _ => true
  | .divu _ => true
  | .rem _ => true
  | .remu _ => true
  | .br _ => true
  | .brs _ => true
  | .call _ => true
  | .ret _ => true
  | .trap _ => true
  | .idle _ => true
  | .yield _ => true
  | .ei _ => true
  | .di _ => true
  | .rstkd _ => true
  | .crc32 _ => true
  | .crc32c _ => true
  | .tag _ => true
  | .tadd _ => true
  | .tsub _ => true
  | .tcmp _ => true
  | .tnow _ => true
  | .xchg _ => true
  | .cas _ => true
  | .fadd _ => true
  | .lockw _ => true
  | .unlkw _ => true
  | .lockg _ => true
  | .unlkg _ => true
  | .crd _ => true
  | .cwr _ => true
  | .check _ => true
  | .bind _ => true
  | .unbind _ => true
  | .tagget _ => true
  | .tagput _ => true
  | .alloc _ => true
  | .free _ => true
  | .chanResult _ => true
  | .copy _ => true
  | .sendHost _ => true
  | .tx _ => true
  | .toValve _ => true
  | .fromValve _ => true
  | .imageOut _ => true
  | .imageIn _ => true
  | .pumpTake _ => true
  | .event _ => true
  | .moveComplete _ => true
  | .post _ => true
  | .ewait _ => true
  | .qput _ => true
  | .qputn _ => true
  | .qget _ => true
  | .qgetn _ => true
  | .sched _ => true
  | .unsched _ => true
  | .sysrd _ => true
  | .syswr _ => true
  | .vadd _ => true
  | .vsub _ => true
  | .vmin _ => true
  | .vmax _ => true
  | .vand _ => true
  | .vor _ => true
  | .vxor _ => true
  | .vcmpeq _ => true
  | .vcmpgt _ => true
  | .vshl _ => true
  | .vshr _ => true
  | .vsel _ => true
  | .tperm _ => true
  | .tperm2 _ => true
  | .tlut _ => true
  | .tlut16 _ => true
  | .lvsetl _ => true
  | .lvadd _ => true
  | .lvsub _ => true
  | .lvmul _ => true
  | .lvmac _ => true
  | .lvcmul _ => true
  | .lvcmac _ => true
  | .lvconj _ => true
  | .lvsum _ => true
  | .lvmaxi _ => true
  | .lvbfly _ => true
  | .lvgath _ => true
  | .lvgathf _ => true
  | .lvscat _ => true
  | .lvcopy _ => true
  | .eventEntry _ => true
  | .routeDelivery _ => true
  | .stormWindow => true
  | .stormRearm _ _ => true
  | .triggerArrive _ _ => true
  | .txholdChange _ => true
  | .tscapCapture _ => true
  | .extoutPulse _ => true
  | .stretcherEnd _ => true
  | .routeWrite _ _ => true
  | .gateWrite _ _ => true
  | .signaturePass => true
  | .goldenWrite _ => true
  | .extInEdge _ _ => true
  | .branch _ => true
  | .countLoad _ => true
  | .countReload _ => true
  | .countDec _ => true
  | .countLoop _ => true
  | .shiftSend _ => true
  | .shiftSample _ => true
  | .shiftFill _ => true
  | .shiftDiscard _ => true
  | .move _ => true
  | .take _ => true
  | .give _ => true
  | .await _ => true
  | .awaitPass _ => true
  | .awaitTimeout _ => true
  | .queueStallEnd _ => true
  | .signalSet _ => true
  | .signalClear _ => true
  | .signalEvent _ => true
  | .signalSetEvent _ => true
  | .mark _ => true
  | .valveIllegal _ => true
  | .valveStart _ _ => true
  | .valveStop _ _ => true
  | .restart _ _ => true
  | .clrCounts _ _ => true
  | .clkdivWrite _ _ => true
  | .qcfgWrite _ _ => true
  | .progWrite _ _ _ => true
  | .kWrite _ _ _ => true
  | .swapSafe _ _ => true
  | .swapIdle _ _ => true
  | .swapForced _ _ => true
  | .swapCancel _ _ => true
  | .valveSwap _ _ => true
  | .txEntryReady _ => true
  | .rxEntryArrive _ => true
  | .putCreditReturn _ => true
  | .pinIn _ _ _ => true
  | .samplePoint _ => true
  | .chatterWindow _ _ => true
  | .stuck _ _ => true
  | .pinSampleWrite _ _ => true
  | .pinCondWrite _ _ _ => true
  | .chatterRearm _ _ => true
  | .stuckClear _ _ => true
  | .pinOwnWrite _ _ => true
  | .pinFlagsWrite _ _ => true
  | .portModeWrite _ _ => true
  | .rxFrame _ f => f.ok
  | .frameRecord _ => true
  | .cellReserve _ => true
  | .pauseTimer _ => true
  | .txFrame _ _ underrun => (underrun.map (fun k => decide (k < 16320))).getD true
  | .txFrameDone _ => true
  | .launch _ => true
  | .gateEntry _ => true
  | .gateCtrlWrite _ _ => true
  | .gateCtrlApply _ => true
  | .exactWrite _ _ _ => true
  | .dupAgeOut _ => true
  | .flush _ _ => true
  | .clear _ _ => true
  | .tbIncWrite _ _ => true
  | .rateLoWrite _ => true
  | .rateHiWrite _ => true
  | .rateApply => true
  | .adjAuto _ => true
  | .adjStep _ => true
  | .adjSlew _ => true
  | .adjSet _ => true
  | .timeStep => true
  | .slewStart => true
  | .slewEnd => true
  | .hostSnapshot _ _ => true
  | .snapshotCapture _ => true
  | .calTable _ _ => true
  | .groupTimeSync _ _ => true
  | .schedArrive _ => true
  | .scheduleFire _ => true
  | .unschedApply _ => true
  | .repHeadWrite _ _ => true
  | .cycleStart _ => true
  | .ckDone _ => true
  | .ckEnable _ _ => true
  | .ckDisable _ _ => true
  | .ppsInEdge _ _ => true
  | .ppsOutRise => true
  | .ppsOutFall => true
  | .pumpTrigger _ _ => true
  | .spillVisit _ => true
  | .refill => true
  | .dcEnable _ => true
  | .dcReady => true
  | .crHeadWrite _ _ => true
  | .qdepthWrite _ _ => true
  | .poll _ => true
  | .pollReturn _ err data => err.val != 0 || data.length == 64
  | .dbHint => true
  | .submissionFetch _ => true
  | .send _ => true
  | .rxPost _ => true
  | .badSubmission _ => true
  | .cmdNop _ => true
  | .chCreate _ => true
  | .chModify _ => true
  | .chDestroy _ => true
  | .chEnable _ => true
  | .chDisable _ => true
  | .portEnable _ => true
  | .portDisable _ => true
  | .persLoad _ => true
  | .persSwap _ => true
  | .lockgAcq _ => true
  | .lockgRel _ => true
  | .lockgForce _ => true
  | .lockwAcq _ => true
  | .lockwRel _ => true
  | .undefinedCommand _ => true
  | .completionWrite _ => true
  | .coalesceTimeout _ => true
  | .portOn _ => true
  | .enableTimeout _ => true
  | .portDrainEnd _ => true
  | .channelOn _ => true
  | .channelDrainEnd _ => true
  | .partitionReset _ _ => true
  | .ringEnable _ _ => true
  | .readResponse port id _ data => portId port id && decide (data.length ≤ 256)
  | .writeAck port id _ => portId port id
  | .responseTimeout port id => portId port id
  | .registerWrite _ _ _ _ => true
  | .leaseExpiry _ => true
  | .lockRewrite _ => true
  | .whLockAcquire _ => true
  | .whLockRelease _ => true
  | .whLockForce _ => true
  | .wellheadEvent _ => true
  | .faultClearKey _ => true
  | .halvesDisagree => true
  | .clockWindow counts => counts.length == 13
  | .trailerStart _ => true
  | .pairMismatch _ => true
  | .rotationStep => true
  | .mirrorDone => true
  | .cutOver => true
  | .drainEnd => true
  | .selfTestDone _ _ => true
  | .emergencyMigration _ => true
  | .retest _ => true
  | .readmissionDone _ => true
  | .lbReturn _ => true
  | .scrubRead m w => m.wordOk w
  | .logIntake => true
  | .logWrite => true
  | .gapMove => true
  | .incidentClose => true
  | .logRead _ => true
  | .logReadDone => true
  | .aonReset _ => true
  | .blockReset _ => true
  | .domainResetExit _ => true
  | .priming => true
  | .primed => true
  | .commit _ => true
  | .threadCutOver _ => true
  | .swapTimeout => true
  | .persSwapDone => true
  | .testModeChange => true
  | .idcode => true
  | .bypass => true
  | .ijtag => true
  | .trst => true
  | .pop _ => true
  | .supplyLoss => true
  | .swapArmed => true
  | .persLoadDone => true
  | .primingClockMissing _ => true

end Sys2Proof
end

