-- ==== Sys2Proof/Tests/Slice0.lean ====
section
/-!
SUPPORT. Tests of the model: ill-formed terms that the check refuses, values from the spec and from public standards, and
for every clause of an obligation that has hypotheses a state and operands that meet all of them together.
-/

namespace Sys2Proof.Tests

open Sys2Proof Sys2Proof.Machine

-- One thread elaborates these theorems: their evaluations wait for the kernel.
set_option Elab.async false

/-! ### Ill-formed terms -/

/-- A frame of 64 zero bytes. -/
def plainFrame : RxFrame :=
  { bytes := List.replicate 64 0, er := [], kept := 64, early := none, stepped := false, overlap := false, tap := 0, egressTap := 0, egressEdges := 0 }

theorem test_wf_well : (Instr.eccRewrite (.well 127) 0x3FF).wellFormed = true ∧ (Instr.eccRewrite (.well 127) 0x400).wellFormed = false ∧
    (Instr.eccRewrite (.well 128) 0).wellFormed = false := by decide
theorem test_wf_reservoir : (Instr.scrubRead (.reservoir 8) 0).wellFormed = false ∧
    (Instr.scrubRead (.reservoir 7) 0x20000).wellFormed = false := by decide
theorem test_wf_code : (Instr.eccRewrite (.code 7 2) 0).wellFormed = false ∧ (Instr.eccRewrite (.code 7 1) 0x10000).wellFormed = false := by decide
theorem test_wf_bits : (Instr.scrubRead (.privBits 0) 128).wellFormed = false ∧ (Instr.scrubRead (.sharedBits 0) 256).wellFormed = false ∧
    (Instr.scrubRead .globalBits 128).wellFormed = false := by decide
theorem test_wf_pump : (Instr.scrubRead .cistern 0x200000).wellFormed = false ∧ (Instr.scrubRead .cellMap 0x20000).wellFormed = false ∧
    (Instr.scrubRead .channels 0x40000).wellFormed = false := by decide
theorem test_wf_routes_mram : (Instr.scrubRead .routes 4752).wellFormed = false ∧ (Instr.eccRewrite .mram 0x400000).wellFormed = false := by decide
theorem test_wf_rxFrame : (Instr.rxFrame 0 plainFrame).wellFormed = true ∧ (Instr.rxFrame 0 { plainFrame with kept := 65 }).wellFormed = false ∧
    (Instr.rxFrame 0 { plainFrame with er := [65] }).wellFormed = false := by decide
theorem test_wf_txFrame : (Instr.txFrame 0 0 (some 16320)).wellFormed = false ∧ (Instr.txFrame 0 0 none).wellFormed = true := by decide
theorem test_wf_poll : (Instr.pollReturn 0 0 []).wellFormed = false ∧ (Instr.pollReturn 0 1 []).wellFormed = true := by decide
theorem test_wf_ids : (Instr.writeAck 0 256 0).wellFormed = false ∧ (Instr.writeAck 1 511 0).wellFormed = true ∧
    (Instr.responseTimeout 0 256).wellFormed = false ∧ (Instr.readResponse 0 256 0 []).wellFormed = false := by decide
theorem test_wf_response : (Instr.readResponse 0 0 0 (List.replicate 257 0)).wellFormed = false := by decide +kernel
theorem test_wf_clockWindow : (Instr.clockWindow []).wellFormed = false ∧ (Instr.clockWindow (List.replicate 13 0)).wellFormed = true := by decide

/-! ### Helpers -/

/-- A metered thread and an elastic one. -/
def metered : Thread := { st := .metered }
def elastic : Thread := { st := .elastic, cls := true }

/-- Thread L0 as given, with the bytes of its next instruction and the turn to issue it. -/
def code (t : Thread) (bs : List Nat) : State :=
  { threads := [(0, t)]
    lbs := [(0, { code0 := writeBytes [] 0 bs, turn := some (0, .issue) })] }

/-- What an instruction operates with: its context and the state. -/
def goes (s : State) (i : Instr) (x : Nat) : Option (Ctx × State) :=
  match s.fetch x with
  | .ok d =>
    if rowSel i (s.landBore (lbOf x)) d && s.hasTurn x .issue && (s.landBore (lbOf x)).mayIssue x d then
      match (s.landBore (lbOf x)).stage x d with
      | .go c t => some (c, t)
      | _ => none
    else none
  | _ => none

theorem operates_of_goes {s : State} {i : Instr} {x : Nat} {c : Ctx} {t : State} (h : goes s i x = some (c, t)) :
    Operates s i x c t := by
  unfold goes at h
  split at h
  · split at h
    · rename_i d hd hc
      simp only [Bool.and_eq_true] at hc
      split at h
      · rename_i c' t' hs
        cases h
        have hdd := (State.stage_go hs).2.2
        subst hdd
        exact ⟨⟨hd, hc.1.1, hc.1.2, hc.2⟩, hs⟩
      · cases h
    · cases h
  · cases h

/-- An instruction operates, and its context is as `p` says. -/
theorem meets {s : State} {i : Instr} {x : Nat} (p : Ctx → State → Bool)
    (h : (match goes s i x with | some (c, t) => p c t | none => false) = true) :
    ∃ c t, Operates s i x c t ∧ p c t = true := by
  split at h
  · rename_i c t hg
    exact ⟨c, t, operates_of_goes hg, h⟩
  · cases h

/-- Any decoded instruction. -/
def anyDec : Dec :=
  { op := 0, cond := 0, guard := none, size := 4, lane := 32, atom := false, setf := false, fixed := 0, specs := [], len := 1 }

/-! ### Values -/

/-- The published check values of CRC-32 and CRC-32C over the digits 1 to 9 (R202). -/
theorem test_crc_check : crcBytes poly32 0xFFFFFFFF [49, 50, 51, 52, 53, 54, 55, 56, 57] ^^^ 0xFFFFFFFF = 0xCBF43926 ∧
    crc32cFinal [49, 50, 51, 52, 53, 54, 55, 56, 57] = 0xE3069283 := by decide +kernel
/-- The digest of the empty string, and its first word for "abc" (FIPS 180-4). -/
theorem test_sha256 : sha256 [] = 0xE3B0C44298FC1C149AFBF4C8996FB92427AE41E4649B934CA495991B7852B855 ∧
    sha256 [97, 98, 99] = 0xBA7816BF8F01CFEA414140DE5DAE2223B00361A396177A9CB410FF61F20015AD := by decide +kernel
/-- The table's words give no bits: no word spells a command. -/
theorem test_no_words : decodeTableWord 16 0x1234 = none ∧ State.reset.withFetchWord 16 0x1234 = State.reset := by decide
/-- Pending commands leave the queue in order. -/
theorem test_step_order : (match step { State.reset with pending := [.stormWindow, .gapMove] } with
    | .next t => decide (t.pending = [.gapMove]) | _ => false) = true := by decide +kernel
/-- The empty queue: one TCLK edge of 5 ns while TB_INC is 0. -/
theorem test_idle_edge : (match step State.reset with | .next t => decide (t.tb.elapsed = 5 * 2 ^ 26) | _ => false) = true := by
  decide +kernel
/-- ADD of the 32-bit words 0xFFFFFFFF and 1 gives 0 (R183). -/
theorem test_add_wraps : (match exec (.add 0) (code { metered with well := writeLE [] 0x44 4 0xFFFFFFFF }
      [0x02, 0x00, 0x40, 0x00, 0x44, 0xA1]) with
    | .next t => decide (readLE (t.th 0).well 0x40 4 = 0) | _ => false) = true := by decide +kernel

/-! ### Free choices and searches -/

/-- Where every index will do, the first of the search is picked. -/
theorem pickFrom_first (n start : Nat) (ok : Nat → Bool) (hn : 0 < n) (h : ∀ i, ok i = true) :
    pickFrom n start ok = some (start % n) := by
  obtain ⟨k, rfl⟩ := Nat.exists_eq_succ_of_ne_zero (Nat.pos_iff_ne_zero.mp hn)
  simp [pickFrom, List.range_succ_eq_map, h]

theorem freeSlot_none {s : State} (h : s.slotsUsed = []) : s.freeSlot = some (Config.pick s.draws % 512) := by
  unfold State.freeSlot
  simp only [h]
  rw [pickFrom_first 512 _ (fun i => !([] : List Nat).contains i) (by decide) (fun _ => rfl)]
  rfl

/-- The state once a cell is taken. -/
def taken (s : State) (c : Nat) : State :=
  let s := { s with draws := s.draws + 1 }
  let s := s.modCell c (fun _ => { used := true })
  s.modPump (fun p => { p with low := min p.low s.freeCells })

theorem takeCell_first {s : State} (h : s.pump.cells = [] ∧ s.pump.returned = [] ∧ s.pump.poisoned = [] ∧ s.ecc = []) :
    s.takeCell = some (Config.pick s.draws % 32768, taken s (Config.pick s.draws % 32768)) := by
  have hc : ∀ c, s.cellFree c = true := by
    intro c
    simp [State.cellFree, State.cell, State.isUe, State.eccOf, h]
  unfold State.takeCell
  rw [pickFrom_first _ _ _ (by decide) hc]
  rfl

theorem allocBuf_one {s : State} {hdr : Cell} {len : Nat} (hl : max 1 (ceilDiv len 256) = 0 + 1)
    (h : s.pump.cells = [] ∧ s.pump.returned = [] ∧ s.pump.poisoned = [] ∧ s.ecc = []) (hr : s.rxReserve = 512) :
    s.allocBuf len hdr = some (Config.pick s.draws % 32768,
      (taken s (Config.pick s.draws % 32768)).linkCells { hdr with len := len } [Config.pick s.draws % 32768]) := by
  have hf : ¬ s.freeCells < s.rxReserve + (0 + 1) := by
    simp [State.freeCells, h, hr]
  unfold State.allocBuf
  rw [hl]
  simp only [if_neg hf]
  simp only [State.takeCells, takeCell_first h]
  rfl

theorem someGetD {α : Type} {o : Option α} {d : α} (h : o.isSome = true) : o = some (o.getD d) := by
  cases o with
  | none => cases h
  | some v => rfl

theorem lockTake_isSome {s : State} {m us sp lb a w : Nat} (h : s.locks.leases = []) : (s.lockTake m us sp lb a w).isSome = true := by
  unfold State.lockTake
  rw [pickFrom_first _ _ _ (by decide) (fun i => by simp [State.lease, h])]
  rfl

/-! ### States that meet the hypotheses of the obligations -/

/-- A CRC state stays inside 32 bits. -/
theorem crcShift_lt (poly : Nat) (hp : poly < 2 ^ 32) (k st : Nat) (h : st < 2 ^ 32) : crcShift poly k st < 2 ^ 32 := by
  induction k generalizing st with
  | zero => exact h
  | succ k ih =>
    refine ih _ ?_
    split
    · exact Nat.xor_lt_two_pow (by omega) hp
    · omega

theorem crc32cFinal_lt (bs : List Nat) : crc32cFinal bs < 2 ^ 32 := by
  have h : ∀ (l : List Nat) (st : Nat), st < 2 ^ 32 → crcBytes poly32c st l < 2 ^ 32 := by
    intro l
    induction l with
    | nil => intro st hs; exact hs
    | cons b l ih =>
      intro st hs
      refine ih _ (crcShift_lt _ (by decide) _ _ (Nat.xor_lt_two_pow hs ?_))
      have : b % 256 < 256 := Nat.mod_lt _ (by decide)
      omega
  exact Nat.xor_lt_two_pow (h bs _ (by decide)) (by decide)

/-- Port n receives a frame: what RX_FRAME asks holds. -/
theorem receives_of {s : State} {n : Fin 32} {f : RxFrame}
    (h : (s.laneMode n && s.pstate n == 2 && s.up (3 + n.val / 4) && !(s.port n).rxOn &&
      ((s.ringPair n).map (fun m => s.egressFits n m f)).getD true && (!f.stepped || s.stepHeld)) = true) : Receives s n f := by
  simp only [Bool.and_eq_true, Bool.or_eq_true, Bool.not_eq_true', beq_iff_eq] at h
  obtain ⟨⟨⟨⟨⟨h1, h2⟩, h3⟩, h4⟩, h5⟩, h6⟩ := h
  exact ⟨h1, h2, h3, h4, fun m hm => by simpa [hm] using h5, fun hs => h6.resolve_left (by simp [hs])⟩

theorem txFree_of {s : State} {n : Fin 32}
    (h : (s.laneMode n && s.pstate n == 2 && s.up (3 + n.val / 4) && (s.port n).tx.isNone && s.laneIdle n && !s.txHeld n) = true) :
    TxFree s n := by
  simp only [Bool.and_eq_true, Bool.not_eq_true', beq_iff_eq, Option.isNone_iff_eq_none] at h
  obtain ⟨⟨⟨⟨⟨h1, h2⟩, h3⟩, h4⟩, h5⟩, h6⟩ := h
  exact ⟨h1, h2, h3, h4, h5, h6⟩

/-- What stage FETCH to OPERATE answers for an instruction that issues. -/
def staged (s : State) (i : Instr) (x : Nat) : Option (Dec × Staged) :=
  match s.fetch x with
  | .ok d =>
    if rowSel i (s.landBore (lbOf x)) d && s.hasTurn x .issue && (s.landBore (lbOf x)).mayIssue x d then
      some (d, (s.landBore (lbOf x)).stage x d)
    else none
  | _ => none

theorem issues_of_staged {s : State} {i : Instr} {x : Nat} {d : Dec} {r : Staged} (h : staged s i x = some (d, r)) :
    Issues s i x d ∧ (s.landBore (lbOf x)).stage x d = r := by
  unfold staged at h
  split at h
  · rename_i d' hd
    split at h
    · rename_i hc
      cases h
      simp only [Bool.and_eq_true] at hc
      exact ⟨⟨hd, hc.1.1, hc.1.2, hc.2⟩, rfl⟩
    · cases h
  · cases h

theorem witness_OperandsReadAndFaulted_1 : ∃ (i : Instr) (x : Fin 128) (o : Nat) (k : Option Nat) (d : Dec) (s t : State),
    threadRow i = some (x, o, k) ∧ Issues s i x d ∧ (s.landBore (lbOf x)).stage x d = .pass t := by
  have h : (match staged (code metered [0x20]) (.nop 0) 0 with | some (_, .pass _) => true | _ => false) = true := by
    decide +kernel
  split at h
  · rename_i d t hs
    exact ⟨.nop 0, 0, 0, none, d, _, t, rfl, issues_of_staged hs⟩
  · cases h

/-- A thread whose pointer at well word 4 leaves every space. -/
def lost : State := code { elastic with well := writeLE [] 16 4 0xFFFFFFFF } [0x02, 0x00, 0x40, 0x10, 0x04, 0x00, 0xA1]

theorem witness_OperandsReadAndFaulted_2 : ∃ (i : Instr) (x : Fin 128) (o : Nat) (k : Option Nat) (d : Dec) (f : Flt)
    (s t : State), threadRow i = some (x, o, k) ∧ Issues s i x d ∧ (s.landBore (lbOf x)).stage x d = .fault f t := by
  have h : (match staged lost (.add 0) 0 with | some (_, .fault _ _) => true | _ => false) = true := by decide +kernel
  split at h
  · rename_i d f t hs
    exact ⟨.add 0, 0, 2, none, d, f, _, t, rfl, issues_of_staged hs⟩
  · cases h

theorem witness_ActionSchedule_3 : ∃ (e : Nat) (s : State), s.schedFirst = some e :=
  ⟨4095, { tb := { sched := [(4095, { time := 0, epoch := 0, act := 0, lb := 0, arrived := true, rebased := false, skipped := false
                                      staleEpoch := false, late := false, lateBy := none, dueEdge := none
                                      cancel := none })] } }, by decide +kernel⟩

theorem witness_ReliefRotationAndReadmission_0 : ∃ (v : Nat) (s : State), s.wh.rot.ahead = [] ∧ s.nextVictim = some v :=
  ⟨7, { pbs := [(0, { role := 1 }), (1, { role := 1 }), (2, { role := 1 }), (3, { role := 1 }), (4, { role := 1 }),
                (5, { role := 1 }), (6, { role := 1, lb := 6 })] }, by decide +kernel, by decide +kernel⟩

theorem witness_ReliefRotationAndReadmission_1 : ∃ (b : Nat) (s : State), s.longestIdle = some b :=
  ⟨9, { pbs := [(8, { role := 0 }), (9, { role := 1 })] }, by decide +kernel⟩

theorem witness_MemoriesKeepBytesAndCheckBits_6 : ∃ (a n w : Nat), a ≤ 4 * w ∧ 4 * w + 4 ≤ a + n :=
  ⟨0x7FFFFC, 4, 0x1FFFFF, by decide, by decide⟩

/-! A platform record: its CHECK is the CRC of the bytes before it. -/

theorem readBytes_congr (t u : Tbl Byte) (a n : Nat) (h : ∀ i, i < n → byteAt t (a + i) = byteAt u (a + i)) :
    readBytes t a n = readBytes u a n := by
  induction n generalizing a with
  | zero => rfl
  | succ n ih =>
    simp only [readBytes]
    rw [ih (a + 1) (fun i hi => by have := h (i + 1) (by omega); rwa [show a + 1 + i = a + (i + 1) by omega])]
    have := h 0 (by omega)
    simp only [Nat.add_zero] at this
    rw [this]

/-- A record's CHECK stored. -/
def checked (m : Tbl Byte) (c : Nat) : Tbl Byte :=
  writeLE m (recBase c + 0xFFC) 4 (crc32cFinal (readBytes m (recBase c) 0xFFC))

theorem byteAt_checked (m : Tbl Byte) (c b : Nat) (h : b < recBase c + 0xFFC ∨ recBase c + 0x1000 ≤ b) :
    byteAt (checked m c) b = byteAt m b := by
  unfold checked
  rw [byteAt_writeLE, if_neg (by omega)]

theorem check_checked (m : Tbl Byte) (c : Nat) :
    crc32cFinal (readBytes (checked m c) (recBase c) 0xFFC) = readLE (checked m c) (recBase c + 0xFFC) 4 := by
  rw [readBytes_congr (checked m c) m (recBase c) 0xFFC (fun i hi => byteAt_checked m c _ (by omega))]
  unfold checked
  rw [readLE_writeLE, Nat.mod_eq_of_lt]
  exact crc32cFinal_lt _

theorem check_congr (t u : Tbl Byte) (c : Nat)
    (h : ∀ b, recBase c ≤ b → b < recBase c + 0x1000 → byteAt t b = byteAt u b)
    (hu : crc32cFinal (readBytes u (recBase c) 0xFFC) = readLE u (recBase c + 0xFFC) 4) :
    crc32cFinal (readBytes t (recBase c) 0xFFC) = readLE t (recBase c + 0xFFC) 4 := by
  rw [readBytes_congr t u (recBase c) 0xFFC (fun i hi => h _ (by omega) (by omega)), hu]
  exact (readLE_congr t u (recBase c + 0xFFC) 4 (fun i hi => h _ (by omega) (by omega))).symm

/-- Both copies with their MAGIC, copy 1 with PSEQ 1. -/
def bare : Tbl Byte := writeLE (writeLE (writeLE [] (recBase 0) 4 platMagic) (recBase 1) 4 platMagic) (recBase 1 + 4) 4 1

/-- Both copies with their CHECK. -/
@[irreducible] def records : Tbl Byte := checked (checked bare 0) 1

/-- A block about to prime with the MRAM `m`. -/
def primingWith (m : Tbl Byte) : State := { mram := { step := 1, clocksSeen := true, mem := m } }

theorem recChoose_some (s : State) (h : s.recValid 0 = true) : ∃ c, s.recChoose = some c := by
  unfold State.recChoose
  rw [h]
  cases s.recValid 1 <;> exact ⟨_, rfl⟩

theorem recValid_of (m : Tbl Byte) (c : Nat) (hm : readLE m (recBase c + 0) 4 = platMagic)
    (hk : crc32cFinal (readBytes m (recBase c) 0xFFC) = readLE m (recBase c + 0xFFC) 4) :
    (primingWith m).recValid c = true := by
  have hu : (primingWith m).mramUe (recBase c) 0x1000 = false := rfl
  have he : (primingWith m).mram.mem = m := rfl
  unfold State.recValid State.recWord
  rw [he, hm, hu, hk]
  simp

theorem records_word (c o : Nat) (h : o + 4 ≤ 0xFFC) : readLE records (recBase c + o) 4 = readLE bare (recBase c + o) 4 := by
  unfold records
  refine readLE_congr _ _ _ _ (fun i hi => ?_)
  rw [byteAt_checked _ 1 _ (by unfold recBase; omega), byteAt_checked _ 0 _ (by unfold recBase; omega)]

theorem records_check (c : Nat) (hc : c = 0 ∨ c = 1) :
    crc32cFinal (readBytes records (recBase c) 0xFFC) = readLE records (recBase c + 0xFFC) 4 := by
  unfold records
  rcases hc with rfl | rfl
  · refine check_congr (checked (checked bare 0) 1) (checked bare 0) 0 (fun b _ hb => ?_) (check_checked bare 0)
    refine byteAt_checked (checked bare 0) 1 b (.inl ?_)
    unfold recBase at *
    omega
  · exact check_checked (checked bare 0) 1

theorem records_valid (c : Nat) (hc : c = 0 ∨ c = 1) : (primingWith records).recValid c = true := by
  refine recValid_of records c ?_ (records_check c hc)
  rw [records_word c 0 (by omega)]
  rcases hc with rfl | rfl <;> decide +kernel

theorem recWord_of (m : Tbl Byte) (c o : Nat) : (primingWith m).recWord c o = readLE m (recBase c + o) 4 := rfl

theorem records_pseq : readLE records (recBase 1 + 4) 4 = 1 ∧ readLE records (recBase 0 + 4) 4 = 0 := by
  rw [records_word 1 4 (by omega), records_word 0 4 (by omega)]
  decide +kernel

theorem witness_ResetsRecordAndTest_3 : ∃ (k : Nat) (s : State), s.recValid 0 = true ∧ s.recValid 1 = true ∧ 0 < k ∧ k < 2 ^ 31 ∧
    s.recWord 1 4 = (s.recWord 0 4 + k) % 2 ^ 32 := by
  have h0 := records_valid 0 (.inl rfl)
  have h1 := records_valid 1 (.inr rfl)
  have w0 := (recWord_of records 0 4).trans records_pseq.2
  have w1 := (recWord_of records 1 4).trans records_pseq.1
  generalize primingWith records = s at h0 h1 w0 w1
  exact ⟨1, s, h0, h1, by decide, by decide, by rw [w0, w1]; decide⟩

theorem primingWith_ready (m : Tbl Byte) : (primingWith m).primeReady = true ∧ (primingWith m).mram.rerun = none ∧
    ∀ k ∈ (primingWith m).ecc, k.mem ≠ .mram :=
  ⟨rfl, rfl, by intro k hk; cases hk⟩

theorem witness_PrimingAndPrimed_0 : ∃ (c img : Nat) (s u : State), s.primeReady = true ∧ s.mram.rerun = none ∧
    (∀ k ∈ s.ecc, k.mem ≠ .mram) ∧ s.recChoose = some c ∧ u = { s with mram := { s.mram with copy := some c } } ∧
    img = u.platActive := by
  obtain ⟨c, hc⟩ := recChoose_some (primingWith records) (records_valid 0 (.inl rfl))
  have h := primingWith_ready records
  generalize primingWith records = s at hc h
  exact ⟨c, _, s, _, h.1, h.2.1, h.2.2, hc, rfl, rfl⟩


theorem meets_OperandsReadAndFaulted_0 : ∃ c t, Operates (code metered [0x02, 0x00, 0x40, 0xA3, 0xA3]) (.add 0) 0 c t ∧
    (fun _ _ => true : Ctx → State → Bool) c t = true := meets _ (by decide +kernel)
theorem meets_DestinationFormsAndFrames_0 : ∃ c t, Operates (code metered [0x02, 0x00, 0x40, 0xA3, 0xA3]) (.add 0) 0 c t ∧
    (fun _ _ => true : Ctx → State → Bool) c t = true := meets _ (by decide +kernel)
theorem meets_DestinationFormsAndFrames_1 : ∃ c t, Operates (code elastic [0xED, 0x00, 0x13, 0x00, 0x40, 0x00, 0x80, 0x00, 0xC0]) (.tlut16 0) 0 c t ∧
    (fun _ _ => true : Ctx → State → Bool) c t = true := meets _ (by decide +kernel)
theorem meets_MoveBitAndLogicResults_0 : ∃ c t, Operates (code metered [0x00]) (.nop 0) 0 c t ∧
    (fun _ _ => true : Ctx → State → Bool) c t = true := meets _ (by decide +kernel)
theorem meets_MoveBitAndLogicResults_1 : ∃ c t, Operates (code metered [0x01, 0x00, 0x40, 0xA3]) (.mov 0) 0 c t ∧
    (fun _ _ => true : Ctx → State → Bool) c t = true := meets _ (by decide +kernel)
theorem meets_MoveBitAndLogicResults_2 : ∃ c t, Operates (code metered [0x1D, 0x00, 0x40, 0x00, 0x44]) (.swap 0) 0 c t ∧
    (fun _ _ => true : Ctx → State → Bool) c t = true := meets _ (by decide +kernel)
theorem meets_MoveBitAndLogicResults_3 : ∃ c t, Operates (code metered [0x19, 0x00, 0x40, 0xA3, 0xA3]) (.sel 0) 0 c t ∧
    (fun _ _ => true : Ctx → State → Bool) c t = true := meets _ (by decide +kernel)
theorem meets_MoveBitAndLogicResults_4 : ∃ c t, Operates (code metered [0x12, 0x00, 0x40, 0xA3]) (.bmov 0) 0 c t ∧
    (fun _ _ => true : Ctx → State → Bool) c t = true := meets _ (by decide +kernel)
theorem meets_MoveBitAndLogicResults_5 : ∃ c t, Operates (code metered [0x13, 0x00, 0x40]) (.bset 0) 0 c t ∧
    (fun _ _ => true : Ctx → State → Bool) c t = true := meets _ (by decide +kernel)
theorem meets_MoveBitAndLogicResults_6 : ∃ c t, Operates (code metered [0x14, 0x00, 0x40]) (.bclr 0) 0 c t ∧
    (fun _ _ => true : Ctx → State → Bool) c t = true := meets _ (by decide +kernel)
theorem meets_MoveBitAndLogicResults_7 : ∃ c t, Operates (code metered [0x15, 0x80, 0x0F, 0x01]) (.bnot 0) 0 c t ∧
    (fun c _ => decide ((c.op 0).loc = .bit 0x10F) : Ctx → State → Bool) c t = true := meets _ (by decide +kernel)
theorem meets_MoveBitAndLogicResults_8 : ∃ c t, Operates (code metered [0x15, 0x00, 0x40]) (.bnot 0) 0 c t ∧
    (fun c _ => decide ((c.op 0).loc = .well 0x40) : Ctx → State → Bool) c t = true := meets _ (by decide +kernel)
theorem meets_MoveBitAndLogicResults_9 : ∃ c t, Operates (code metered [0x04, 0x00, 0x40, 0xA3, 0xA3]) (.and 0) 0 c t ∧
    (fun _ _ => true : Ctx → State → Bool) c t = true := meets _ (by decide +kernel)
theorem meets_MoveBitAndLogicResults_10 : ∃ c t, Operates (code metered [0x05, 0x00, 0x40, 0xA3, 0xA3]) (.or 0) 0 c t ∧
    (fun _ _ => true : Ctx → State → Bool) c t = true := meets _ (by decide +kernel)
theorem meets_MoveBitAndLogicResults_11 : ∃ c t, Operates (code metered [0x06, 0x00, 0x40, 0xA3, 0xA3]) (.xor 0) 0 c t ∧
    (fun _ _ => true : Ctx → State → Bool) c t = true := meets _ (by decide +kernel)
theorem meets_MoveBitAndLogicResults_12 : ∃ c t, Operates (code metered [0x0C, 0xA3, 0xA3]) (.tst 0) 0 c t ∧
    (fun _ _ => true : Ctx → State → Bool) c t = true := meets _ (by decide +kernel)
theorem meets_MoveBitAndLogicResults_13 : ∃ c t, Operates (code metered [0x1C, 0xA3, 0xA3]) (.btst 0) 0 c t ∧
    (fun _ _ => true : Ctx → State → Bool) c t = true := meets _ (by decide +kernel)
theorem meets_MoveBitAndLogicResults_14 : ∃ c t, Operates (code metered [0xEC, 0x00, 0x0F, 0x00, 0x40, 0xA3]) (.clz 0) 0 c t ∧
    (fun _ _ => true : Ctx → State → Bool) c t = true := meets _ (by decide +kernel)
theorem meets_MoveBitAndLogicResults_15 : ∃ c t, Operates (code metered [0xEC, 0x00, 0x10, 0x00, 0x40, 0xA3]) (.popc 0) 0 c t ∧
    (fun _ _ => true : Ctx → State → Bool) c t = true := meets _ (by decide +kernel)
theorem meets_MoveBitAndLogicResults_16 : ∃ c t, Operates (code metered [0xEC, 0x00, 0x11, 0x00, 0x40, 0xA3]) (.bswap 0) 0 c t ∧
    (fun _ _ => true : Ctx → State → Bool) c t = true := meets _ (by decide +kernel)
theorem meets_MoveBitAndLogicResults_17 : ∃ c t, Operates (code metered [0xEC, 0x00, 0x12, 0x00, 0x40, 0x70, 0x78, 0x56, 0x34, 0x12, 0x60, 0x1F, 0x8B]) (.bfx 0) 0 c t ∧
    (fun c _ => decide (bits (c.val 2) 5 0 < c.w ∧ bits (c.val 2) 5 0 = 31) : Ctx → State → Bool) c t = true := meets _ (by decide +kernel)
theorem meets_MoveBitAndLogicResults_18 : ∃ c t, Operates (code metered [0xEC, 0x00, 0x12, 0x00, 0x40, 0x70, 0x78, 0x56, 0x34, 0x12, 0x60, 0x20, 0x8B]) (.bfx 0) 0 c t ∧
    (fun c _ => decide (c.w ≤ bits (c.val 2) 5 0) : Ctx → State → Bool) c t = true := meets _ (by decide +kernel)
theorem meets_MoveBitAndLogicResults_19 : ∃ c t, Operates (code metered [0xEC, 0x00, 0x13, 0x00, 0x40, 0x50, 0x00, 0x60, 0x1F, 0x0F]) (.bfi 0) 0 c t ∧
    (fun c _ => decide (bits (c.val 2) 5 0 < c.w ∧ min (bits (c.val 2) 13 8 + 1) (c.w - bits (c.val 2) 5 0) = 1 ∧ c.val 0 = 0 ∧ c.val 1 = 0) : Ctx → State → Bool) c t = true := meets _ (by decide +kernel)
theorem meets_MoveBitAndLogicResults_20 : ∃ c t, Operates (code metered [0xEC, 0x00, 0x13, 0x00, 0x40, 0x50, 0x00, 0x60, 0x3F, 0x00]) (.bfi 0) 0 c t ∧
    (fun c _ => decide (c.w ≤ bits (c.val 2) 5 0) : Ctx → State → Bool) c t = true := meets _ (by decide +kernel)
theorem meets_AdditionResultsAndFlags_0 : ∃ c t, Operates (code metered [0x02, 0x00, 0x40, 0xA3, 0xA3]) (.add 0) 0 c t ∧
    (fun _ _ => true : Ctx → State → Bool) c t = true := meets _ (by decide +kernel)
theorem meets_AdditionResultsAndFlags_1 : ∃ c t, Operates (code metered [0xEC, 0x00, 0x06, 0x00, 0x40, 0xA3, 0xA3]) (.adc 0) 0 c t ∧
    (fun _ _ => true : Ctx → State → Bool) c t = true := meets _ (by decide +kernel)
theorem meets_AdditionResultsAndFlags_2 : ∃ c t, Operates (code metered [0x03, 0x00, 0x40, 0xA3, 0xA3]) (.sub 0) 0 c t ∧
    (fun _ _ => true : Ctx → State → Bool) c t = true := meets _ (by decide +kernel)
theorem meets_AdditionResultsAndFlags_3 : ∃ c t, Operates (code metered [0xEC, 0x00, 0x07, 0x00, 0x40, 0xA3, 0xA3]) (.sbc 0) 0 c t ∧
    (fun _ _ => true : Ctx → State → Bool) c t = true := meets _ (by decide +kernel)
theorem meets_AdditionResultsAndFlags_4 : ∃ c t, Operates (code metered [0xEC, 0x00, 0x08, 0x00, 0x40, 0xA3, 0xA3]) (.adds 0) 0 c t ∧
    (fun _ _ => true : Ctx → State → Bool) c t = true := meets _ (by decide +kernel)
theorem meets_AdditionResultsAndFlags_5 : ∃ c t, Operates (code metered [0xEC, 0x00, 0x09, 0x00, 0x40, 0xA3, 0xA3]) (.subs 0) 0 c t ∧
    (fun _ _ => true : Ctx → State → Bool) c t = true := meets _ (by decide +kernel)
theorem meets_AdditionResultsAndFlags_6 : ∃ c t, Operates (code metered [0x17, 0x00, 0x40]) (.inc 0) 0 c t ∧
    (fun _ _ => true : Ctx → State → Bool) c t = true := meets _ (by decide +kernel)
theorem meets_AdditionResultsAndFlags_7 : ∃ c t, Operates (code metered [0x18, 0x00, 0x40]) (.dec 0) 0 c t ∧
    (fun _ _ => true : Ctx → State → Bool) c t = true := meets _ (by decide +kernel)
theorem meets_AdditionResultsAndFlags_8 : ∃ c t, Operates (code metered [0x16, 0x00, 0x40, 0xA3]) (.neg 0) 0 c t ∧
    (fun _ _ => true : Ctx → State → Bool) c t = true := meets _ (by decide +kernel)
theorem meets_AdditionResultsAndFlags_9 : ∃ c t, Operates (code metered [0xEC, 0x00, 0x0E, 0x00, 0x40, 0x70, 0x00, 0x00, 0x00, 0x80]) (.abs 0) 0 c t ∧
    (fun c _ => decide (c.val 1 < 2 ^ c.w ∧ 0 < c.w ∧ c.val 1 = 2 ^ 31) : Ctx → State → Bool) c t = true := meets _ (by decide +kernel)
theorem meets_AdditionResultsAndFlags_10 : ∃ c t, Operates (code metered [0xEC, 0x00, 0x0A, 0x00, 0x40, 0xA3, 0xA3]) (.min 0) 0 c t ∧
    (fun _ _ => true : Ctx → State → Bool) c t = true := meets _ (by decide +kernel)
theorem meets_AdditionResultsAndFlags_11 : ∃ c t, Operates (code metered [0xEC, 0x00, 0x0B, 0x00, 0x40, 0xA3, 0xA3]) (.max 0) 0 c t ∧
    (fun _ _ => true : Ctx → State → Bool) c t = true := meets _ (by decide +kernel)
theorem meets_AdditionResultsAndFlags_12 : ∃ c t, Operates (code metered [0xEC, 0x00, 0x0C, 0x00, 0x40, 0xA3, 0xA3]) (.minu 0) 0 c t ∧
    (fun _ _ => true : Ctx → State → Bool) c t = true := meets _ (by decide +kernel)
theorem meets_AdditionResultsAndFlags_13 : ∃ c t, Operates (code metered [0xEC, 0x00, 0x0D, 0x00, 0x40, 0xA3, 0xA3]) (.maxu 0) 0 c t ∧
    (fun _ _ => true : Ctx → State → Bool) c t = true := meets _ (by decide +kernel)
theorem meets_AdditionResultsAndFlags_14 : ∃ c t, Operates (code metered [0x0B, 0xA3, 0xA3]) (.cmp 0) 0 c t ∧
    (fun _ _ => true : Ctx → State → Bool) c t = true := meets _ (by decide +kernel)
theorem meets_ShiftResultsAndCarry_0 : ∃ c t, Operates (code metered [0x07, 0x00, 0x40, 0x50, 0x09, 0x50, 0x00]) (.shl 0) 0 c t ∧
    (fun c _ => decide (c.val 2 = 0) : Ctx → State → Bool) c t = true := meets _ (by decide +kernel)
theorem meets_ShiftResultsAndCarry_1 : ∃ c t, Operates (code metered [0x07, 0x00, 0x40, 0x50, 0x09, 0x50, 0x1F]) (.shl 0) 0 c t ∧
    (fun c _ => decide (0 < c.val 2 ∧ c.val 2 < c.w ∧ c.val 2 = 31) : Ctx → State → Bool) c t = true := meets _ (by decide +kernel)
theorem meets_ShiftResultsAndCarry_2 : ∃ c t, Operates (code metered [0x07, 0x00, 0x40, 0x50, 0x09, 0x50, 0x01]) (.shl 0) 0 c t ∧
    (fun c _ => decide (0 < c.val 2 ∧ c.val 2 < c.w ∧ c.val 2 = 1) : Ctx → State → Bool) c t = true := meets _ (by decide +kernel)
theorem meets_ShiftResultsAndCarry_3 : ∃ c t, Operates (code metered [0x07, 0x00, 0x40, 0x50, 0x09, 0x50, 0x20]) (.shl 0) 0 c t ∧
    (fun c _ => decide (0 < c.val 2 ∧ c.w ≤ c.val 2 ∧ c.val 2 = c.w) : Ctx → State → Bool) c t = true := meets _ (by decide +kernel)
theorem meets_ShiftResultsAndCarry_4 : ∃ c t, Operates (code metered [0x08, 0x00, 0x40, 0x50, 0x09, 0x50, 0x00]) (.shr 0) 0 c t ∧
    (fun c _ => decide (c.val 2 = 0) : Ctx → State → Bool) c t = true := meets _ (by decide +kernel)
theorem meets_ShiftResultsAndCarry_5 : ∃ c t, Operates (code metered [0x08, 0x00, 0x40, 0x50, 0x09, 0x50, 0x1F]) (.shr 0) 0 c t ∧
    (fun c _ => decide (0 < c.val 2 ∧ c.val 2 < c.w ∧ c.val 2 = 31) : Ctx → State → Bool) c t = true := meets _ (by decide +kernel)
theorem meets_ShiftResultsAndCarry_6 : ∃ c t, Operates (code metered [0x08, 0x00, 0x40, 0x50, 0x09, 0x50, 0x01]) (.shr 0) 0 c t ∧
    (fun c _ => decide (0 < c.val 2 ∧ c.val 2 < c.w ∧ c.val 2 = 1) : Ctx → State → Bool) c t = true := meets _ (by decide +kernel)
theorem meets_ShiftResultsAndCarry_7 : ∃ c t, Operates (code metered [0x08, 0x00, 0x40, 0x50, 0x09, 0x50, 0x20]) (.shr 0) 0 c t ∧
    (fun c _ => decide (0 < c.val 2 ∧ c.w ≤ c.val 2 ∧ c.val 2 = c.w) : Ctx → State → Bool) c t = true := meets _ (by decide +kernel)
theorem meets_ShiftResultsAndCarry_8 : ∃ c t, Operates (code metered [0x09, 0x00, 0x40, 0x50, 0x09, 0x50, 0x00]) (.sar 0) 0 c t ∧
    (fun c _ => decide (c.val 2 = 0) : Ctx → State → Bool) c t = true := meets _ (by decide +kernel)
theorem meets_ShiftResultsAndCarry_9 : ∃ c t, Operates (code metered [0x09, 0x00, 0x40, 0x50, 0x09, 0x50, 0x1F]) (.sar 0) 0 c t ∧
    (fun c _ => decide (0 < c.val 2 ∧ c.val 2 < c.w ∧ c.val 2 = 31) : Ctx → State → Bool) c t = true := meets _ (by decide +kernel)
theorem meets_ShiftResultsAndCarry_10 : ∃ c t, Operates (code metered [0x09, 0x00, 0x40, 0x50, 0x09, 0x50, 0x01]) (.sar 0) 0 c t ∧
    (fun c _ => decide (0 < c.val 2 ∧ c.val 2 < c.w ∧ c.val 2 = 1) : Ctx → State → Bool) c t = true := meets _ (by decide +kernel)
theorem meets_ShiftResultsAndCarry_11 : ∃ c t, Operates (code metered [0x09, 0x00, 0x40, 0x50, 0x09, 0x50, 0x20]) (.sar 0) 0 c t ∧
    (fun c _ => decide (0 < c.val 2 ∧ c.w ≤ c.val 2 ∧ c.val 2 = c.w) : Ctx → State → Bool) c t = true := meets _ (by decide +kernel)
theorem meets_ShiftResultsAndCarry_12 : ∃ c t, Operates (code metered [0x0A, 0x00, 0x40, 0x50, 0x09, 0x50, 0x20]) (.rol 0) 0 c t ∧
    (fun c _ => decide (c.val 1 < 2 ^ c.w ∧ c.val 2 = c.w) : Ctx → State → Bool) c t = true := meets _ (by decide +kernel)
theorem meets_MultiplyAndDivideLaunches_0 : ∃ c t, Operates (code metered [0x0D, 0x00, 0x40, 0xA3, 0xA3]) (.mul 0) 0 c t ∧
    (fun _ _ => true : Ctx → State → Bool) c t = true := meets _ (by decide +kernel)
theorem meets_MultiplyAndDivideLaunches_1 : ∃ c t, Operates (code metered [0xEC, 0x00, 0x04, 0x00, 0x40, 0xA3, 0xA3]) (.mulh 0) 0 c t ∧
    (fun _ _ => true : Ctx → State → Bool) c t = true := meets _ (by decide +kernel)
theorem meets_MultiplyAndDivideLaunches_2 : ∃ c t, Operates (code metered [0xEC, 0x00, 0x05, 0x00, 0x40, 0xA3, 0xA3]) (.mulhu 0) 0 c t ∧
    (fun _ _ => true : Ctx → State → Bool) c t = true := meets _ (by decide +kernel)
theorem meets_MultiplyAndDivideLaunches_3 : ∃ c t, Operates (code metered [0xEC, 0x00, 0x00, 0x00, 0x40, 0xA3, 0xA3]) (.div 0) 0 c t ∧
    (fun c _ => decide (c.val 2 ≠ 0) : Ctx → State → Bool) c t = true := meets _ (by decide +kernel)
theorem meets_MultiplyAndDivideLaunches_4 : ∃ c t, Operates (code metered [0xEC, 0x00, 0x01, 0x00, 0x40, 0xA3, 0xA3]) (.divu 0) 0 c t ∧
    (fun c _ => decide (c.val 2 ≠ 0) : Ctx → State → Bool) c t = true := meets _ (by decide +kernel)
theorem meets_MultiplyAndDivideLaunches_5 : ∃ c t, Operates (code metered [0xEC, 0x00, 0x02, 0x00, 0x40, 0xA3, 0xA3]) (.rem 0) 0 c t ∧
    (fun c _ => decide (c.val 2 ≠ 0) : Ctx → State → Bool) c t = true := meets _ (by decide +kernel)
theorem meets_MultiplyAndDivideLaunches_6 : ∃ c t, Operates (code metered [0xEC, 0x00, 0x03, 0x00, 0x40, 0xA3, 0xA3]) (.remu 0) 0 c t ∧
    (fun c _ => decide (c.val 2 ≠ 0) : Ctx → State → Bool) c t = true := meets _ (by decide +kernel)
theorem meets_MultiplyAndDivideLaunches_7 : ∃ c t, Operates (code metered [0xEC, 0x00, 0x00, 0x00, 0x40, 0x50, 0x09, 0x50, 0x00]) (.div 0) 0 c t ∧
    (fun c t => decide (c.val 2 = 0 ∧ t.elastic 0 = false) : Ctx → State → Bool) c t = true := meets _ (by decide +kernel)
theorem meets_MultiplyAndDivideLaunches_8 : ∃ c t, Operates (code metered [0xEC, 0x00, 0x02, 0x00, 0x40, 0x50, 0x09, 0x50, 0x00]) (.rem 0) 0 c t ∧
    (fun c t => decide (c.val 2 = 0 ∧ t.elastic 0 = false) : Ctx → State → Bool) c t = true := meets _ (by decide +kernel)
theorem meets_MultiplyAndDivideLaunches_9 : ∃ c t, Operates (code elastic [0xEC, 0x00, 0x03, 0x00, 0x40, 0x50, 0x09, 0x50, 0x00]) (.remu 0) 0 c t ∧
    (fun c t => decide (c.val 2 = 0 ∧ t.elastic 0 = true) : Ctx → State → Bool) c t = true := meets _ (by decide +kernel)
theorem meets_ControlTransfers_0 : ∃ c t, Operates (code metered [0x0E, 0x00, 0x00]) (.br 0) 0 c t ∧
    (fun _ _ => true : Ctx → State → Bool) c t = true := meets _ (by decide +kernel)
theorem meets_ControlTransfers_1 : ∃ c t, Operates (code metered [0x0F, 0x00]) (.brs 0) 0 c t ∧
    (fun _ _ => true : Ctx → State → Bool) c t = true := meets _ (by decide +kernel)
theorem meets_ControlTransfers_2 : ∃ c t, Operates (code { metered with rs := List.replicate 7 5 } [0x10, 0x00, 0x00]) (.call 0) 0 c t ∧
    (fun _ t => decide ((t.th 0).rs.length < 8 ∧ ((t.th 0).rs.length = 7 → (t.th 0).rsTrap = true → t.elastic 0 = false)) : Ctx → State → Bool) c t = true := meets _ (by decide +kernel)
theorem meets_ControlTransfers_3 : ∃ c t, Operates (code { elastic with rs := List.replicate 7 5, rsTrap := true } [0x10, 0x00, 0x00]) (.call 0) 0 c t ∧
    (fun _ t => decide ((t.th 0).rs.length = 7 ∧ (t.th 0).rsTrap = true ∧ t.elastic 0 = true) : Ctx → State → Bool) c t = true := meets _ (by decide +kernel)
theorem meets_ControlTransfers_4 : ∃ c t, Operates (code { metered with rs := List.replicate 8 5 } [0x10, 0x00, 0x00]) (.call 0) 0 c t ∧
    (fun _ t => decide ((t.th 0).rs.length = 8 ∧ ((t.th 0).rsTrap = false ∨ t.elastic 0 = true)) : Ctx → State → Bool) c t = true := meets _ (by decide +kernel)
theorem meets_ControlTransfers_5 : ∃ c t, Operates (code { metered with rs := [5] } [0x11]) (.ret 0) 0 c t ∧
    (fun _ t => decide ((t.th 0).rs = [5] ∧ bit (5 : Word).toNat 18 = false) : Ctx → State → Bool) c t = true := meets _ (by decide +kernel)
theorem meets_ControlTransfers_6 : ∃ c t, Operates (code { elastic with rs := [0x40005] } [0x11]) (.ret 0) 0 c t ∧
    (fun _ t => decide ((t.th 0).rs = [0x40005] ∧ bit (0x40005 : Word).toNat 18 = true) : Ctx → State → Bool) c t = true := meets _ (by decide +kernel)
theorem meets_ControlTransfers_7 : ∃ c t, Operates (code { elastic with rsTrap := true } [0x11]) (.ret 0) 0 c t ∧
    (fun _ t => decide ((t.th 0).rs = [] ∧ (t.th 0).rsTrap = true ∧ t.elastic 0 = true) : Ctx → State → Bool) c t = true := meets _ (by decide +kernel)
theorem meets_ControlTransfers_8 : ∃ c t, Operates (code metered [0x11]) (.ret 0) 0 c t ∧
    (fun _ t => decide ((t.th 0).rs = [] ∧ (t.th 0).rsTrap = false) : Ctx → State → Bool) c t = true := meets _ (by decide +kernel)
theorem meets_ControlTransfers_9 : ∃ c t, Operates (code { metered with rsTrap := true } [0x11]) (.ret 0) 0 c t ∧
    (fun _ t => decide ((t.th 0).rs = [] ∧ (t.th 0).rsTrap = true ∧ t.elastic 0 = false) : Ctx → State → Bool) c t = true := meets _ (by decide +kernel)
theorem meets_ControlTransfers_10 : ∃ c t, Operates (code elastic [0xEC, 0x00, 0x41]) (.ei 0) 0 c t ∧
    (fun _ t => decide (t.elastic 0 = true) : Ctx → State → Bool) c t = true := meets _ (by decide +kernel)
theorem meets_ControlTransfers_11 : ∃ c t, Operates (code elastic [0xEC, 0x00, 0x42]) (.di 0) 0 c t ∧
    (fun _ t => decide (t.elastic 0 = true) : Ctx → State → Bool) c t = true := meets _ (by decide +kernel)
theorem meets_ControlTransfers_12 : ∃ c t, Operates (code metered [0xEC, 0x00, 0x40]) (.yield 0) 0 c t ∧
    (fun _ t => decide (t.elastic 0 = false) : Ctx → State → Bool) c t = true := meets _ (by decide +kernel)
theorem meets_TrapIdleYieldAndStackSpill_0 : ∃ c t, Operates (code elastic [0x1E, 0x00]) (.trap 0) 0 c t ∧
    (fun _ t => decide (t.elastic 0 = true) : Ctx → State → Bool) c t = true := meets _ (by decide +kernel)
theorem meets_TrapIdleYieldAndStackSpill_1 : ∃ c t, Operates (code metered [0x1E, 0x00]) (.trap 0) 0 c t ∧
    (fun _ t => decide (t.elastic 0 = false) : Ctx → State → Bool) c t = true := meets _ (by decide +kernel)
theorem meets_TrapIdleYieldAndStackSpill_2 : ∃ c t, Operates (code metered [0x1F, 0x00, 0x00]) (.idle 0) 0 c t ∧
    (fun _ _ => true : Ctx → State → Bool) c t = true := meets _ (by decide +kernel)
theorem meets_TrapIdleYieldAndStackSpill_3 : ∃ c t, Operates (code elastic [0xEC, 0x00, 0x40]) (.yield 0) 0 c t ∧
    (fun _ t => decide (t.elastic 0 = true) : Ctx → State → Bool) c t = true := meets _ (by decide +kernel)
theorem meets_TrapIdleYieldAndStackSpill_4 : ∃ c t, Operates (code { metered with rs := [4, 5] } [0xEC, 0x00, 0x43, 0x00, 0x40]) (.rstkd 0) 0 c t ∧
    (fun c t => decide (bit (c.val 0) 31 = false ∧ (t.th 0).rs = [4] ++ [5]) : Ctx → State → Bool) c t = true := meets _ (by decide +kernel)
theorem meets_TrapIdleYieldAndStackSpill_5 : ∃ c t, Operates (code metered [0xEC, 0x00, 0x43, 0x00, 0x40]) (.rstkd 0) 0 c t ∧
    (fun c t => decide (bit (c.val 0) 31 = false ∧ (t.th 0).rs = []) : Ctx → State → Bool) c t = true := meets _ (by decide +kernel)
theorem meets_TrapIdleYieldAndStackSpill_6 : ∃ c t, Operates (code { metered with well := [(0x43, 0x80)], rs := List.replicate 7 5 } [0xEC, 0x00, 0x43, 0x00, 0x40]) (.rstkd 0) 0 c t ∧
    (fun c t => decide (bit (c.val 0) 31 = true ∧ (t.th 0).rs.length < 8) : Ctx → State → Bool) c t = true := meets _ (by decide +kernel)
theorem meets_TrapIdleYieldAndStackSpill_7 : ∃ c t, Operates (code { metered with well := [(0x43, 0x80)], rs := List.replicate 8 5 } [0xEC, 0x00, 0x43, 0x00, 0x40]) (.rstkd 0) 0 c t ∧
    (fun c t => decide (bit (c.val 0) 31 = true ∧ 8 ≤ (t.th 0).rs.length) : Ctx → State → Bool) c t = true := meets _ (by decide +kernel)
theorem meets_ChecksumTagAndTime_0 : ∃ c t, Operates (code metered [0xEC, 0x00, 0x14, 0x00, 0x40, 0x50, 0x09, 0x50, 0x00]) (.crc32 0) 0 c t ∧
    (fun c _ => decide (c.val 2 = 0) : Ctx → State → Bool) c t = true := meets _ (by decide +kernel)
theorem meets_ChecksumTagAndTime_1 : ∃ c t, Operates (code metered [0xEC, 0x00, 0x15, 0x00, 0x40, 0x50, 0x09, 0x50, 0x04]) (.crc32c 0) 0 c t ∧
    (fun c _ => decide (0 < c.val 2 ∧ c.val 2 ≤ c.dec.size ∧ c.val 2 = c.dec.size) : Ctx → State → Bool) c t = true := meets _ (by decide +kernel)
theorem meets_ChecksumTagAndTime_2 : ∃ c t, Operates (code metered [0xEC, 0x00, 0x14, 0x00, 0x40, 0x01, 0x00, 0x50, 0x05]) (.crc32 0) 0 c t ∧
    (fun c t => decide (c.dec.size < c.val 2 ∧ 0 < c.val 2 ∧ (t.th 0).longs = []) : Ctx → State → Bool) c t = true := meets _ (by decide +kernel)
theorem meets_ChecksumTagAndTime_3 : ∃ c t, Operates (code metered [0x1B, 0x00, 0x40, 0x50, 0x09, 0x60, 0xFF, 0x3F]) (.tag 0) 0 c t ∧
    (fun c _ => decide (c.val 2 ≤ 16383) : Ctx → State → Bool) c t = true := meets _ (by decide +kernel)
theorem meets_ChecksumTagAndTime_4 : ∃ c t, Operates (code metered [0x1B, 0x00, 0x40, 0x50, 0x09, 0x60, 0x00, 0x40]) (.tag 0) 0 c t ∧
    (fun c _ => decide (16383 < c.val 2) : Ctx → State → Bool) c t = true := meets _ (by decide +kernel)
theorem meets_ChecksumTagAndTime_5 : ∃ c t, Operates (code metered [0xEC, 0x00, 0x18, 0x00, 0x40, 0xA3, 0xA3]) (.tadd 0) 0 c t ∧
    (fun _ _ => true : Ctx → State → Bool) c t = true := meets _ (by decide +kernel)
theorem meets_ChecksumTagAndTime_6 : ∃ c t, Operates (code metered [0xEC, 0x00, 0x19, 0x00, 0x40, 0xA3, 0xA3]) (.tsub 0) 0 c t ∧
    (fun _ _ => true : Ctx → State → Bool) c t = true := meets _ (by decide +kernel)
theorem meets_ChecksumTagAndTime_7 : ∃ c t, Operates (code metered [0xE8, 0xEC, 0x00, 0x1A, 0xA3, 0xA3]) (.tcmp 0) 0 c t ∧
    (fun c _ => decide (c.dec.setf = true) : Ctx → State → Bool) c t = true := meets _ (by decide +kernel)
theorem meets_ChecksumTagAndTime_8 : ∃ c t, Operates (code metered [0xEC, 0x00, 0x1B, 0x00, 0x40]) (.tnow 0) 0 c t ∧
    (fun c t => decide ((c.landed t).pairOf 0 = none) : Ctx → State → Bool) c t = true := meets _ (by decide +kernel)
theorem meets_AtomicAndLockInstructions_0 : ∃ c t, Operates (code metered [0xEC, 0x00, 0x24, 0x00, 0x40, 0x40, 0x00, 0x01, 0xA3]) (.xchg 0) 0 c t ∧
    (fun _ _ => true : Ctx → State → Bool) c t = true := meets _ (by decide +kernel)
theorem meets_AtomicAndLockInstructions_1 : ∃ c t, Operates (code metered [0xEC, 0x00, 0x25, 0x00, 0x40, 0x40, 0x00, 0x01, 0xA3]) (.cas 0) 0 c t ∧
    (fun c _ => decide (c.val 1 = c.val 0) : Ctx → State → Bool) c t = true := meets _ (by decide +kernel)
theorem meets_AtomicAndLockInstructions_2 : ∃ c t, Operates (code { metered with well := [(0x40, 1)] } [0xEC, 0x00, 0x25, 0x00, 0x40, 0x40, 0x00, 0x01, 0xA3]) (.cas 0) 0 c t ∧
    (fun c _ => decide (c.val 1 ≠ c.val 0) : Ctx → State → Bool) c t = true := meets _ (by decide +kernel)
theorem meets_AtomicAndLockInstructions_3 : ∃ c t, Operates (code metered [0xEC, 0x00, 0x26, 0x00, 0x40, 0x40, 0x00, 0x01, 0xA3]) (.fadd 0) 0 c t ∧
    (fun _ _ => true : Ctx → State → Bool) c t = true := meets _ (by decide +kernel)
theorem meets_AtomicAndLockInstructions_4 : ∃ c t, Operates (code metered [0xEC, 0x00, 0x20, 0x00, 0x44, 0x40, 0x00, 0x01]) (.lockw 0) 0 c t ∧
    (fun c t => decide ((c.op 1).loc = .res 0x100 ∧ (c.landed t).pairOf 0 = none) : Ctx → State → Bool) c t = true := meets _ (by decide +kernel)
theorem meets_AtomicAndLockInstructions_5 : ∃ c t, Operates (code metered [0xEC, 0x00, 0x21, 0x40, 0x00, 0x01]) (.unlkw 0) 0 c t ∧
    (fun c t => decide ((c.op 0).loc = .res 0x100 ∧ (c.landed t).pairOf 0 = none) : Ctx → State → Bool) c t = true := meets _ (by decide +kernel)
theorem meets_AtomicAndLockInstructions_6 : ∃ c t, Operates (code metered [0xEC, 0x00, 0x22, 0x00, 0x40, 0x60, 0xFF, 0x03]) (.lockg 0) 0 c t ∧
    (fun c t => decide (c.val 1 ≤ 1023 ∧ (c.landed t).pairOf 0 = none) : Ctx → State → Bool) c t = true := meets _ (by decide +kernel)
theorem meets_AtomicAndLockInstructions_7 : ∃ c t, Operates (code metered [0xEC, 0x00, 0x23, 0x60, 0xFF, 0x03]) (.unlkg 0) 0 c t ∧
    (fun c t => decide (c.val 0 ≤ 1023 ∧ (c.landed t).pairOf 0 = none) : Ctx → State → Bool) c t = true := meets _ (by decide +kernel)
theorem meets_AtomicAndLockInstructions_8 : ∃ c t, Operates (code metered [0xEC, 0x00, 0x22, 0x00, 0x40, 0x60, 0x00, 0x04]) (.lockg 0) 0 c t ∧
    (fun c _ => decide (1023 < c.val 1) : Ctx → State → Bool) c t = true := meets _ (by decide +kernel)
theorem meets_AtomicAndLockInstructions_9 : ∃ c t, Operates (code metered [0xEC, 0x00, 0x23, 0x60, 0x00, 0x04]) (.unlkg 0) 0 c t ∧
    (fun c _ => decide (1023 < c.val 0) : Ctx → State → Bool) c t = true := meets _ (by decide +kernel)
theorem meets_LaunchingInstructions_0 : ∃ c t, Operates (code { metered with well := [(0x13, 0x40)] } [0xEC, 0x00, 0x28, 0x07, 0x03, 0x00, 0x40, 0x10, 0x04, 0x00]) (.crd 0) 0 c t ∧
    (fun c t => decide (t.pairOf 0 = none ∧ (t.th 0).cis.find? (fun b => b.idx == bits c.dec.fixed 10 8) = none ∧ (c.op 1).loc = .cis 0 ∧ (c.op 0).loc = .well 0x40) : Ctx → State → Bool) c t = true := meets _ (by decide +kernel)
theorem meets_LaunchingInstructions_1 : ∃ c t, Operates (code { metered with well := [(0x13, 0x40)] } [0xEC, 0x00, 0x29, 0x07, 0x03, 0x10, 0x04, 0x00, 0x00, 0x40]) (.cwr 0) 0 c t ∧
    (fun c t => decide (t.pairOf 0 = none ∧ (t.th 0).cis.find? (fun b => b.idx == bits c.dec.fixed 10 8) = none ∧ (c.op 0).loc = .cis 0 ∧ (c.op 1).loc = .well 0x40) : Ctx → State → Bool) c t = true := meets _ (by decide +kernel)
theorem meets_LaunchingInstructions_2 : ∃ c t, Operates (code { metered with well := [(0x13, 0x40)], cis := [{ rd := true, idx := 3, win := 0, off := 0, n := 8, loc := .well 0x80, issued := 0, pc := 0, done := 0, bad := false }] } [0xEC, 0x00, 0x28, 0x07, 0x03, 0x00, 0x40, 0x10, 0x04, 0x00]) (.crd 0) 0 c t ∧
    (fun c t => decide (t.pairOf 0 = none ∧ ((t.th 0).cis.find? (fun b => b.idx == bits c.dec.fixed 10 8)).isSome = true) : Ctx → State → Bool) c t = true := meets _ (by decide +kernel)
theorem meets_LaunchingInstructions_3 : ∃ c t, Operates (code metered [0xEC, 0x00, 0x2B, 0x00, 0x00, 0x40, 0xA3, 0xA3]) (.check 0) 0 c t ∧
    (fun c t => decide (t.pairOf 0 = none ∧ chanFault t 0 0 (c.val 1) (c.val 2) = none) : Ctx → State → Bool) c t = true := meets _ (by decide +kernel)
theorem meets_LaunchingInstructions_4 : ∃ c t, Operates (code metered [0xEC, 0x00, 0x2B, 0x01, 0x00, 0x40, 0xA3, 0xA3]) (.bind 0) 0 c t ∧
    (fun c t => decide (t.pairOf 0 = none ∧ chanFault t 0 1 (c.val 1) (c.val 2) = none) : Ctx → State → Bool) c t = true := meets _ (by decide +kernel)
theorem meets_LaunchingInstructions_5 : ∃ c t, Operates (code metered [0xEC, 0x00, 0x2B, 0x02, 0x00, 0x40, 0xA3, 0xA3]) (.unbind 0) 0 c t ∧
    (fun c t => decide (t.pairOf 0 = none ∧ chanFault t 0 2 (c.val 1) (c.val 2) = none) : Ctx → State → Bool) c t = true := meets _ (by decide +kernel)
theorem meets_LaunchingInstructions_6 : ∃ c t, Operates (code { metered with cwin := [(3, some 0)] } [0xEC, 0x00, 0x2B, 0x03, 0x00, 0x40, 0xA3, 0xA3]) (.tagget 0) 0 c t ∧
    (fun c t => decide (t.pairOf 0 = none ∧ chanFault t 0 3 (c.val 1) (c.val 2) = none) : Ctx → State → Bool) c t = true := meets _ (by decide +kernel)
theorem meets_LaunchingInstructions_7 : ∃ c t, Operates (code metered [0xEC, 0x00, 0x2B, 0x04, 0x00, 0x40, 0xA3, 0xA3]) (.tagput 0) 0 c t ∧
    (fun c t => decide (t.pairOf 0 = none ∧ chanFault t 0 4 (c.val 1) (c.val 2) = none) : Ctx → State → Bool) c t = true := meets _ (by decide +kernel)
theorem meets_LaunchingInstructions_8 : ∃ c t, Operates (code metered [0xEC, 0x00, 0x2B, 0x05, 0x00, 0x40, 0xA3, 0xA3]) (.alloc 0) 0 c t ∧
    (fun c t => decide (t.pairOf 0 = none ∧ chanFault t 0 5 (c.val 1) (c.val 2) = none) : Ctx → State → Bool) c t = true := meets _ (by decide +kernel)
theorem meets_LaunchingInstructions_9 : ∃ c t, Operates (code metered [0xEC, 0x00, 0x2B, 0x06, 0x00, 0x40, 0xA3, 0xA3]) (.free 0) 0 c t ∧
    (fun c t => decide (t.pairOf 0 = none ∧ chanFault t 0 6 (c.val 1) (c.val 2) = none) : Ctx → State → Bool) c t = true := meets _ (by decide +kernel)
theorem meets_LaunchingInstructions_10 : ∃ c t, Operates (code { metered with well := [(0, 1)] } [0xEC, 0x00, 0x2A, 0x70, 0x00, 0x00]) (.copy 0) 0 c t ∧
    (fun c t => decide (t.pumpRefused 0 (bits c.dec.fixed 2 0) (bits c.dec.fixed 7 4) = false ∧ (c.landed t).pairOf 0 = none) : Ctx → State → Bool) c t = true := meets _ (by decide +kernel)
theorem meets_LaunchingInstructions_11 : ∃ c t, Operates (code { metered with well := [(0, 2)] } [0xEC, 0x00, 0x2A, 0x70, 0x00, 0x00]) (.sendHost 0) 0 c t ∧
    (fun c t => decide (t.pumpRefused 0 (bits c.dec.fixed 2 0) (bits c.dec.fixed 7 4) = false ∧ (c.landed t).pairOf 0 = none) : Ctx → State → Bool) c t = true := meets _ (by decide +kernel)
theorem meets_LaunchingInstructions_12 : ∃ c t, Operates (code { metered with well := [(0, 3)] } [0xEC, 0x00, 0x2A, 0x70, 0x00, 0x00]) (.tx 0) 0 c t ∧
    (fun c t => decide (t.pumpRefused 0 (bits c.dec.fixed 2 0) (bits c.dec.fixed 7 4) = false ∧ (c.landed t).pairOf 0 = none) : Ctx → State → Bool) c t = true := meets _ (by decide +kernel)
theorem meets_LaunchingInstructions_13 : ∃ c t, Operates (code { metered with well := [(0, 4)] } [0xEC, 0x00, 0x2A, 0x70, 0x00, 0x00]) (.toValve 0) 0 c t ∧
    (fun c t => decide (t.pumpRefused 0 (bits c.dec.fixed 2 0) (bits c.dec.fixed 7 4) = false ∧ (c.landed t).pairOf 0 = none) : Ctx → State → Bool) c t = true := meets _ (by decide +kernel)
theorem meets_LaunchingInstructions_14 : ∃ c t, Operates (code { metered with well := [(0, 5)] } [0xEC, 0x00, 0x2A, 0x70, 0x00, 0x00]) (.fromValve 0) 0 c t ∧
    (fun c t => decide (t.pumpRefused 0 (bits c.dec.fixed 2 0) (bits c.dec.fixed 7 4) = false ∧ (c.landed t).pairOf 0 = none) : Ctx → State → Bool) c t = true := meets _ (by decide +kernel)
theorem meets_LaunchingInstructions_15 : ∃ c t, Operates (code { metered with well := [(0, 6)] } [0xEC, 0x00, 0x2A, 0x70, 0x00, 0x00]) (.imageOut 0) 0 c t ∧
    (fun c t => decide (t.pumpRefused 0 (bits c.dec.fixed 2 0) (bits c.dec.fixed 7 4) = false ∧ (c.landed t).pairOf 0 = none) : Ctx → State → Bool) c t = true := meets _ (by decide +kernel)
theorem meets_LaunchingInstructions_16 : ∃ c t, Operates (code { metered with well := [(0, 7)] } [0xEC, 0x00, 0x2A, 0x70, 0x00, 0x00]) (.imageIn 0) 0 c t ∧
    (fun c t => decide (t.pumpRefused 0 (bits c.dec.fixed 2 0) (bits c.dec.fixed 7 4) = false ∧ (c.landed t).pairOf 0 = none) : Ctx → State → Bool) c t = true := meets _ (by decide +kernel)
theorem meets_LaunchingInstructions_17 : ∃ c t, Operates (code { metered with well := [(0, 8)] } [0xEC, 0x00, 0x2A, 0x70, 0x00, 0x00]) (.pumpTake 0) 0 c t ∧
    (fun c t => decide (t.pumpRefused 0 (bits c.dec.fixed 2 0) (bits c.dec.fixed 7 4) = false ∧ (c.landed t).pairOf 0 = none) : Ctx → State → Bool) c t = true := meets _ (by decide +kernel)
theorem meets_LaunchingInstructions_18 : ∃ c t, Operates (code { metered with well := [(0, 9)] } [0xEC, 0x00, 0x2A, 0x70, 0x00, 0x00]) (.event 0) 0 c t ∧
    (fun c t => decide (t.pumpRefused 0 (bits c.dec.fixed 2 0) (bits c.dec.fixed 7 4) = false ∧ (c.landed t).pairOf 0 = none) : Ctx → State → Bool) c t = true := meets _ (by decide +kernel)
theorem meets_LaunchingInstructions_19 : ∃ c t, Operates ({ code metered [0xEC, 0x00, 0x2A, 0x00, 0x00, 0x00] with regs := [(0x70100, 0)] }) (.copy 0) 0 c t ∧
    (fun c t => decide (t.pumpRefused 0 (bits c.dec.fixed 2 0) (bits c.dec.fixed 7 4) = true) : Ctx → State → Bool) c t = true := meets _ (by decide +kernel)
theorem meets_EventQueueAndSystemInstructions_0 : ∃ c t, Operates (code metered [0x1A, 0x60, 0x00, 0x03]) (.post 0) 0 c t ∧
    (fun c t => decide (t.postOwnBad 0 (c.val 0 % 1024) = none ∧ t.postMine 0 (c.val 0 % 1024) = true ∧ (c.landed t).pairOf 0 = none ∧ ((c.landed t).lb 0).shed = false) : Ctx → State → Bool) c t = true := meets _ (by decide +kernel)
theorem meets_EventQueueAndSystemInstructions_1 : ∃ c t, Operates ({ code metered [0x1A, 0x60, 0x00, 0x03] with lbs := [(0, { code0 := writeBytes [] 0 [0x1A, 0x60, 0x00, 0x03], turn := some (0, .issue), shed := true })] }) (.post 0) 0 c t ∧
    (fun c t => decide (t.postOwnBad 0 (c.val 0 % 1024) = none ∧ t.postMine 0 (c.val 0 % 1024) = true ∧ (c.landed t).pairOf 0 = none ∧ ((c.landed t).lb 0).shed = true) : Ctx → State → Bool) c t = true := meets _ (by decide +kernel)
theorem meets_EventQueueAndSystemInstructions_2 : ∃ c t, Operates ({ code metered [0x1A, 0x60, 0x00, 0x03] with ecc := [{ mem := .routes, word := 4736, state := .uncorrectable }] }) (.post 0) 0 c t ∧
    (fun c t => decide (t.postOwnBad 0 (c.val 0 % 1024) = some 4736) : Ctx → State → Bool) c t = true := meets _ (by decide +kernel)
theorem meets_EventQueueAndSystemInstructions_3 : ∃ c t, Operates (code metered [0x1A, 0x60, 0x10, 0x03]) (.post 0) 0 c t ∧
    (fun c t => decide (t.postOwnBad 0 (c.val 0 % 1024) = none ∧ t.postMine 0 (c.val 0 % 1024) = false) : Ctx → State → Bool) c t = true := meets _ (by decide +kernel)
theorem meets_EventQueueAndSystemInstructions_4 : ∃ c t, Operates (code elastic [0xEC, 0x00, 0x33, 0xA3]) (.ewait 0) 0 c t ∧
    (fun c t => decide ((c.landed t).elastic 0 = true) : Ctx → State → Bool) c t = true := meets _ (by decide +kernel)
theorem meets_EventQueueAndSystemInstructions_5 : ∃ c t, Operates (code metered [0xEC, 0x00, 0x33, 0xA3]) (.ewait 0) 0 c t ∧
    (fun c t => decide ((c.landed t).elastic 0 = false) : Ctx → State → Bool) c t = true := meets _ (by decide +kernel)
theorem meets_EventQueueAndSystemInstructions_6 : ∃ c t, Operates (code { elastic with well := [(0xFFC, 0x30)] } [0xEC, 0x00, 0x38, 0x90, 0x10, 0xA3]) (.qput 0) 0 c t ∧
    (fun c t => decide ((c.op 0).loc = .port (0x30010 + 0x200 * 0) ∧ (c.landed t).pairOf 0 = none ∧ t.elastic 0 = true ∧ ((c.landed t).valve 0).credit ≠ 0) : Ctx → State → Bool) c t = true := meets _ (by decide +kernel)
theorem meets_EventQueueAndSystemInstructions_7 : ∃ c t, Operates ({ code { metered with well := [(0xFFC, 0x30)] } [0xEC, 0x00, 0x39, 0x90, 0x10, 0xA3] with valves := [(0, { credit := 0 })] }) (.qputn 0) 0 c t ∧
    (fun c t => decide ((c.op 0).loc = .port (0x30010 + 0x200 * 0) ∧ (c.landed t).pairOf 0 = none ∧ ((c.landed t).valve 0).credit = 0) : Ctx → State → Bool) c t = true := meets _ (by decide +kernel)
theorem meets_EventQueueAndSystemInstructions_8 : ∃ c t, Operates ({ code { elastic with well := [(0xFFC, 0x30)] } [0xEC, 0x00, 0x3A, 0x00, 0x40, 0x90, 0x14] with valves := [(0, { rxReady := [7] })] }) (.qget 0) 0 c t ∧
    (fun c t => decide ((c.op 1).loc = .port (0x30014 + 0x200 * 0) ∧ (c.landed t).pairOf 0 = none ∧ ((c.landed t).valve 0).rxReady = [7] ∧ t.elastic 0 = true) : Ctx → State → Bool) c t = true := meets _ (by decide +kernel)
theorem meets_EventQueueAndSystemInstructions_9 : ∃ c t, Operates (code { metered with well := [(0xFFC, 0x30)] } [0xEC, 0x00, 0x3B, 0x00, 0x40, 0x90, 0x14]) (.qgetn 0) 0 c t ∧
    (fun c t => decide ((c.op 1).loc = .port (0x30014 + 0x200 * 0) ∧ (c.landed t).pairOf 0 = none ∧ ((c.landed t).valve 0).rxReady = []) : Ctx → State → Bool) c t = true := meets _ (by decide +kernel)
theorem meets_EventQueueAndSystemInstructions_10 : ∃ c t, Operates (code metered [0xEC, 0x00, 0x30, 0x00, 0x44, 0xA3, 0xA3]) (.sched 0) 0 c t ∧
    (fun c t => decide ((c.landed t).pairOf 0 = none) : Ctx → State → Bool) c t = true := meets _ (by decide +kernel)
theorem meets_EventQueueAndSystemInstructions_11 : ∃ c t, Operates (code metered [0xEC, 0x00, 0x31, 0xA3]) (.unsched 0) 0 c t ∧
    (fun c t => decide ((c.landed t).pairOf 0 = none) : Ctx → State → Bool) c t = true := meets _ (by decide +kernel)
theorem meets_EventQueueAndSystemInstructions_12 : ∃ c t, Operates (code metered [0xEC, 0x00, 0x48, 0x00, 0x40, 0x70, 0xFC, 0xFF, 0x0F, 0x00]) (.sysrd 0) 0 c t ∧
    (fun c t => decide (c.val 1 < 2 ^ 20 ∧ c.val 1 % 4 = 0 ∧ (c.landed t).pairOf 0 = none) : Ctx → State → Bool) c t = true := meets _ (by decide +kernel)
theorem meets_EventQueueAndSystemInstructions_13 : ∃ c t, Operates (code metered [0xEC, 0x00, 0x49, 0x70, 0x00, 0x08, 0x01, 0x00, 0xA3]) (.syswr 0) 0 c t ∧
    (fun c t => decide (c.val 0 < 2 ^ 20 ∧ c.val 0 % 4 = 0 ∧ (c.landed t).pairOf 0 = none ∧ protectedUnit (c.val 0) = false) : Ctx → State → Bool) c t = true := meets _ (by decide +kernel)
theorem meets_EventQueueAndSystemInstructions_14 : ∃ c t, Operates (code metered [0xEC, 0x00, 0x49, 0x70, 0x04, 0x20, 0x00, 0x00, 0xA3]) (.syswr 0) 0 c t ∧
    (fun c t => decide (c.val 0 < 2 ^ 20 ∧ c.val 0 % 4 = 0 ∧ (c.landed t).pairOf 0 = none ∧ protectedUnit (c.val 0) = true) : Ctx → State → Bool) c t = true := meets _ (by decide +kernel)
theorem meets_EventQueueAndSystemInstructions_15 : ∃ c t, Operates (code metered [0xEC, 0x00, 0x48, 0x00, 0x40, 0x70, 0x00, 0x00, 0x10, 0x00]) (.sysrd 0) 0 c t ∧
    (fun c _ => decide (2 ^ 20 ≤ c.val 1 ∨ c.val 1 % 4 ≠ 0) : Ctx → State → Bool) c t = true := meets _ (by decide +kernel)
theorem meets_EventQueueAndSystemInstructions_16 : ∃ c t, Operates (code metered [0xEC, 0x00, 0x49, 0x70, 0x02, 0x00, 0x00, 0x00, 0xA3]) (.syswr 0) 0 c t ∧
    (fun c _ => decide (2 ^ 20 ≤ c.val 0 ∨ c.val 0 % 4 ≠ 0) : Ctx → State → Bool) c t = true := meets _ (by decide +kernel)
theorem meets_VectorResultsAndLaunches_0 : ∃ c t, Operates (code metered [0xE4, 0xED, 0x00, 0x00, 0x00, 0x40, 0x00, 0x80, 0x00, 0xC0]) (.vadd 0) 0 c t ∧
    (fun c _ => decide (c.dec.lane ∈ [8, 16, 32]) : Ctx → State → Bool) c t = true := meets _ (by decide +kernel)
theorem meets_VectorResultsAndLaunches_1 : ∃ c t, Operates (code metered [0xE5, 0xED, 0x00, 0x01, 0x00, 0x40, 0x00, 0x80, 0x00, 0xC0]) (.vsub 0) 0 c t ∧
    (fun c _ => decide (c.dec.lane ∈ [8, 16, 32]) : Ctx → State → Bool) c t = true := meets _ (by decide +kernel)
theorem meets_VectorResultsAndLaunches_2 : ∃ c t, Operates (code metered [0xE6, 0xED, 0x00, 0x08, 0x00, 0x40, 0x00, 0x80, 0x00, 0xC0]) (.vcmpgt 0) 0 c t ∧
    (fun c _ => decide (c.dec.lane ∈ [8, 16, 32]) : Ctx → State → Bool) c t = true := meets _ (by decide +kernel)
theorem meets_VectorResultsAndLaunches_3 : ∃ c t, Operates (code metered [0xED, 0x00, 0x04, 0x00, 0x40, 0x00, 0x80, 0x00, 0xC0]) (.vand 0) 0 c t ∧
    (fun _ _ => true : Ctx → State → Bool) c t = true := meets _ (by decide +kernel)
theorem meets_VectorResultsAndLaunches_4 : ∃ c t, Operates (code metered [0xED, 0x00, 0x05, 0x00, 0x40, 0x00, 0x80, 0x00, 0xC0]) (.vor 0) 0 c t ∧
    (fun _ _ => true : Ctx → State → Bool) c t = true := meets _ (by decide +kernel)
theorem meets_VectorResultsAndLaunches_5 : ∃ c t, Operates (code metered [0xED, 0x00, 0x06, 0x00, 0x40, 0x00, 0x80, 0x00, 0xC0]) (.vxor 0) 0 c t ∧
    (fun _ _ => true : Ctx → State → Bool) c t = true := meets _ (by decide +kernel)
theorem meets_VectorResultsAndLaunches_6 : ∃ c t, Operates (code metered [0xED, 0x00, 0x0B, 0x00, 0x40, 0x00, 0x80, 0x00, 0xC0]) (.vsel 0) 0 c t ∧
    (fun _ _ => true : Ctx → State → Bool) c t = true := meets _ (by decide +kernel)
theorem meets_VectorResultsAndLaunches_7 : ∃ c t, Operates (code metered [0xED, 0x00, 0x10, 0x00, 0x40, 0x00, 0x80, 0x00, 0xC0]) (.tperm 0) 0 c t ∧
    (fun _ _ => true : Ctx → State → Bool) c t = true := meets _ (by decide +kernel)
theorem meets_VectorResultsAndLaunches_8 : ∃ c t, Operates (code metered [0xED, 0x00, 0x13, 0x00, 0x40, 0x00, 0x80, 0x00, 0xC0]) (.tlut16 0) 0 c t ∧
    (fun _ _ => true : Ctx → State → Bool) c t = true := meets _ (by decide +kernel)
theorem meets_VectorResultsAndLaunches_9 : ∃ c t, Operates (code metered [0xED, 0x00, 0x20, 0xA3]) (.lvsetl 0) 0 c t ∧
    (fun _ _ => true : Ctx → State → Bool) c t = true := meets _ (by decide +kernel)
theorem meets_VectorResultsAndLaunches_10 : ∃ c t, Operates ({ code { metered with well := [(0xFF4, 16)] } [0xED, 0x00, 0x21, 0x40, 0x00, 0x01, 0x40, 0x00, 0x02, 0x40, 0x00, 0x03] with lbs := [(0, { code0 := writeBytes [] 0 [0xED, 0x00, 0x21, 0x40, 0x00, 0x01, 0x40, 0x00, 0x02, 0x40, 0x00, 0x03], turn := some (0, .issue), lvEn := true })] }) (.lvadd 0) 0 c t ∧
    (fun _ t => decide (t.pairOf 0 = none ∧ (t.lb 0).lv = none) : Ctx → State → Bool) c t = true := meets _ (by decide +kernel)
theorem meets_VectorResultsAndLaunches_11 : ∃ c t, Operates ({ code { metered with well := [(0xFF4, 16)] } [0xED, 0x00, 0x33, 0x40, 0x00, 0x01, 0x40, 0x00, 0x02] with lbs := [(0, { code0 := writeBytes [] 0 [0xED, 0x00, 0x33, 0x40, 0x00, 0x01, 0x40, 0x00, 0x02], turn := some (0, .issue), lvEn := true })] }) (.lvcopy 0) 0 c t ∧
    (fun _ t => decide (t.pairOf 0 = none ∧ (t.lb 0).lv = none) : Ctx → State → Bool) c t = true := meets _ (by decide +kernel)
theorem meets_VectorResultsAndLaunches_12 : ∃ c t, Operates ({ code { metered with well := [(0xFF4, 16)] } [0xED, 0x00, 0x21, 0x40, 0x00, 0x01, 0x40, 0x00, 0x02, 0x40, 0x00, 0x03] with lbs := [(0, { code0 := writeBytes [] 0 [0xED, 0x00, 0x21, 0x40, 0x00, 0x01, 0x40, 0x00, 0x02, 0x40, 0x00, 0x03], turn := some (0, .issue), lvEn := true, lv := some { x := 1, pc := 0, op := 0x21, vl := 16, d := .well 0, a := .well 0, b := .well 0, issued := 0, due := 0xFFFF, elems := [], fault := none } })] }) (.lvadd 0) 0 c t ∧
    (fun _ t => decide (t.pairOf 0 = none ∧ (t.lb 0).lv.isSome = true) : Ctx → State → Bool) c t = true := meets _ (by decide +kernel)
theorem meets_VectorResultsAndLaunches_13 : ∃ c t, Operates ({ code { metered with well := [(0xFF4, 16)] } [0xED, 0x00, 0x21, 0x40, 0x00, 0x01, 0x40, 0x00, 0x02, 0x40, 0x00, 0x03] with lbs := [(0, { code0 := writeBytes [] 0 [0xED, 0x00, 0x21, 0x40, 0x00, 0x01, 0x40, 0x00, 0x02, 0x40, 0x00, 0x03], turn := some (0, .issue), lvEn := true })], regs := [(0x02080, 0x10100)], wh := { pairs := [(0, { running := true })] } }) (.lvadd 0) 0 c t ∧
    (fun _ t => decide (t.pairOf 0 = some 0 ∧ (t.pair 0).diff = none) : Ctx → State → Bool) c t = true := meets _ (by decide +kernel)
theorem meets_VectorResultsAndLaunches_14 : ∃ c t, Operates ({ code { metered with well := [(0x13, 0x40)] } [0xEC, 0x00, 0x28, 0x07, 0x03, 0x00, 0x40, 0x10, 0x04, 0x00] with regs := [(0x02080, 0x10100)], wh := { pairs := [(0, { running := true })] } }) (.crd 0) 0 c t ∧
    (fun _ t => decide (t.pairOf 0 = some 0 ∧ (t.pair 0).diff = none) : Ctx → State → Bool) c t = true := meets _ (by decide +kernel)

theorem witness_GovernorCommands_0 : ∃ (s : State), (0 < s.gov.depth) ∧ (2 ^ bits (s.reg 0x0100C) 28 24 ≤ s.gov.good) :=
  ⟨{ gov := { depth := 1, good := 65536 } }, by decide, by decide⟩
theorem witness_GovernorCommands_2 : ∃ (c : Nat) (s : State), (s.gov.paceCross = some c) ∧ (s.nextGate % 16 = 0) ∧ (c + 4 ≤ s.nextGate) :=
  ⟨12, { opened := true, strokes := 15, gov := { paceCross := some 12 } }, by decide, by decide, by decide⟩
theorem witness_GovernorCommands_4 : ∃ (s : State), (s.gov.msAt + 1000000 * 2 ^ 48 ≤ s.tb.counted) :=
  ⟨{ tb := { counted := 1000000 * 2 ^ 48 } }, by decide⟩
theorem witness_GovernorCommands_5 : ∃ (s : State), (s.gov.req = true) :=
  ⟨{ gov := { req := true } }, by decide⟩
theorem witness_GovernorCommands_6 : ∃ (s : State), (s.gov.busy = true) ∧ (s.gov.req = false) ∧ (s.gov.target = s.gov.code) :=
  ⟨{ gov := { busy := true } }, by decide, by decide, by decide⟩
theorem witness_GovernorCommands_7 : ∃ (s : State), (s.gov.busy = true) ∧ (s.gov.req = false) ∧ (s.gov.target ≠ s.gov.code) ∧ (bits (s.reg 0x01024) 6 0 ≤ s.gov.target) ∧ (s.gov.target ≤ bits (s.reg 0x01024) 14 8) :=
  ⟨{ gov := { busy := true, target := 21 } }, by decide, by decide, by decide, by decide, by decide⟩
theorem witness_GovernorCommands_9 : ∃ (s : State), (bit (s.reg 0x01000) 0 = true) ∧ (s.gov.depth = 0) ∧ (s.gov.busy = false) ∧ (s.gov.holdover = false) ∧ (2 ^ bits (s.reg 0x01028) 12 8 ≤ s.gov.downGood) ∧ (s.gov.ackAt + bits (s.reg 0x01028) 31 16 * (1000 * 2 ^ 48) ≤ s.tb.counted) ∧ (bits (s.reg 0x01024) 6 0 < s.gov.code) ∧ (s.gov.code ≤ bits (s.reg 0x01024) 14 8 + 1) :=
  ⟨{ gov := { downGood := 1048576 }, regs := [(0x01000, 0x14A3)], tb := { counted := 1000000000 * 2 ^ 48 } }, by decide, by decide, by decide, by decide, by decide, by decide, by decide, by decide⟩
theorem witness_GovernorCommands_10 : ∃ (a : Nat) (s : State), (s.gov.req = true) ∧ (s.gov.reqAt = some a) ∧ (bits (s.reg 0x01030) 15 0 ≠ 0) ∧ (a + bits (s.reg 0x01030) 15 0 * 67108864000 ≤ s.tb.elapsed) :=
  ⟨0, { gov := { req := true, reqAt := some 0 }, tb := { elapsed := 6710886400000 } }, by decide, by decide, by decide, by decide⟩
theorem witness_GovernorCommands_11 : ∃ (s : State), (s.tclkLost = true) ∧ (s.gov.holdover = false) :=
  ⟨{ wh := { clks := [(2, { lost := true })] } }, by decide, by decide⟩
theorem witness_GovernorCommands_12 : ∃ (s : State), (s.tclkLost = false) ∧ (s.gov.holdover = true) :=
  ⟨{ gov := { holdover := true } }, by decide, by decide⟩
theorem witness_WheelAndThreadCommands_2 : ∃ (n : Fin 8) (c : Nat) (s : State), ((s.lb n).wheelArm = some c) ∧ (s.nextGate % 16 = 0) ∧ (c + 4 ≤ s.nextGate) :=
  ⟨0, 12, { opened := true, strokes := 15, lbs := [(0, { wheelArm := some 12 })] }, by decide, by decide, by decide⟩
theorem witness_WheelAndThreadCommands_3 : ∃ (x : Fin 128) (s : State), ((s.th x).st = .stopped) ∧ ((s.th x).startReq = none) ∧ (s.enabledPair x = none) :=
  ⟨127, {}, by decide, by decide, by decide⟩
theorem witness_WheelAndThreadCommands_4 : ∃ (x : Fin 128) (w : Word) (s : State), ((s.th x).running = true) ∧ (bit w.toNat 4 = (s.th x).cls) :=
  ⟨0, 0, { threads := [(0, { st := .metered })] }, by decide, by decide⟩
theorem witness_WheelAndThreadCommands_5 : ∃ (x : Fin 128) (w : Word) (s : State), ((s.th x).st = .stopped) ∧ ((s.th x).startReq = none) ∧ (bit w.toNat 4 = true) :=
  ⟨127, 0x13, {}, by decide, by decide, by decide⟩
theorem witness_WheelAndThreadCommands_6 : ∃ (x : Fin 128) (w : Word) (s : State), ((s.th x).running = true) ∧ (bit w.toNat 4 = (s.th x).cls) :=
  ⟨0, 0x10, { threads := [(0, { st := .elastic, cls := true })] }, by decide, by decide⟩
theorem witness_WheelAndThreadCommands_7 : ∃ (x : Fin 128) (s : State), ((s.th x).st = .stopped) ∧ ((s.th x).startReq = none) ∧ (s.pairOf x = none) :=
  ⟨0, {}, by decide, by decide, by decide⟩
theorem witness_ThreadStartsStopsAndEntries_0 : ∃ (x : Fin 128) (g : Nat) (b : Bool) (s : State), (s.hasTurn x .first = true) ∧ ((s.th x).startReq = some (g, b)) :=
  ⟨0, 4, false, { threads := [(0, { startReq := some (4, false) })], lbs := [(0, { turn := some (0, .first) })] }, by decide, by decide⟩
theorem witness_ThreadStartsStopsAndEntries_1 : ∃ (x : Fin 128) (s : State), ((s.th x).stopReq = .stop) ∧ (s.stopDue x = true) ∧ ((s.th x).cutOver = none) ∧ (s.pairOf x = none) :=
  ⟨0, { threads := [(0, { st := .metered, atStop := true, stopReq := .stop })] }, by decide, by decide, by decide, by decide⟩
theorem witness_ThreadStartsStopsAndEntries_2 : ∃ (x : Fin 128) (s : State), ((s.th x).stepping = true) ∧ ((s.th x).stepIssued = true) ∧ ((s.th x).running = true) ∧ ((s.th x).owed = 0) ∧ ((s.th x).idle = 0) ∧ ((s.th x).exc = none) ∧ (s.pairOf x = none) ∧ ((s.th x).stopReq ≠ .reset) ∧ ((s.th x).cutOver = none) :=
  ⟨0, { threads := [(0, { st := .elastic, stepping := true, stepIssued := true })] }, by decide, by decide, by decide, by decide, by decide, by decide, by decide, by decide, by decide⟩
theorem witness_ThreadStartsStopsAndEntries_4 : ∃ (k : Fin 16) (a : Nat) (s : State), ((s.pair k).trailAt = some a) ∧ (a ≤ s.strokes) :=
  ⟨15, 16, { strokes := 16, wh := { pairs := [(15, { trailAt := some 16 })] } }, by decide, by decide⟩
theorem witness_ThreadStartsStopsAndEntries_5 : ∃ (k : Fin 16) (d : Nat) (s : State), ((s.pair k).diff = some d) ∧ ((s.th (s.pairLead k)).running = true) ∧ ((s.th (s.pairTrail k)).running = true) ∧ ((s.th (s.pairLead k)).stopReq = .none) ∧ ((s.th (s.pairTrail k)).stopReq = .none) :=
  ⟨0, 1, { regs := [(0x02080, 0x10100)], threads := [(0, { st := .metered }), (1, { st := .metered })], wh := { pairs := [(0, { running := true, diff := some 1 })] } }, by decide, by decide, by decide, by decide, by decide⟩
theorem witness_ThreadStartsStopsAndEntries_6 : ∃ (x : Fin 128) (i : Nat) (s : State), (s.irqOf x = some i) ∧ ((s.th x).exc = none) ∧ (s.hasTurn x .accept = true) ∧ (s.isUe (.privBits x) 0 = false) :=
  ⟨0, 0, { threads := [(0, { st := .elastic, ie := true, imask := 1, pl := 8 })], gbits := [(0x3C00, true)], lbs := [(0, { turn := some (0, .accept) })] }, by decide, by decide, by decide, by decide⟩
theorem witness_ThreadStartsStopsAndEntries_7 : ∃ (x : Fin 128) (v : Nat) (ret : BitVec 18) (s : State), ((s.th x).exc = some (v, ret)) ∧ (v < 8) ∧ (s.hasTurn x .accept = true) ∧ (s.isUe (.privBits x) 0 = false) :=
  ⟨0, 7, 5, { threads := [(0, { st := .elastic, exc := some (7, 5) })], lbs := [(0, { turn := some (0, .accept) })] }, by decide, by decide, by decide, by decide⟩
theorem witness_IllegalFormsByClass_0 : ∃ (x : Fin 128) (cause : Nat) (at_ : Nat) (occupied : Nat) (s : State) (u : State), (s.fetch x = .illegal cause at_ occupied) ∧ (s.hasTurn x .issue = true) ∧ (s.cutDue x = false) ∧ (u = s.landBore (lbOf x)) ∧ (u.ecc = []) ∧ ((u.th x).st = .metered) :=
  ⟨0, 3, 1, 2, code metered [0xE2, 0xE3], _, by decide, by decide, by decide, rfl, by decide, by decide⟩
theorem witness_IllegalFormsByClass_1 : ∃ (x : Fin 128) (cause : Nat) (at_ : Nat) (occupied : Nat) (s : State) (u : State), (s.fetch x = .illegal cause at_ occupied) ∧ (s.hasTurn x .issue = true) ∧ (s.cutDue x = false) ∧ (u = s.landBore (lbOf x)) ∧ (u.ecc = []) ∧ ((u.th x).st = .elastic) :=
  ⟨0, 3, 1, 2, code elastic [0xE2, 0xE3], _, by decide, by decide, by decide, rfl, by decide, by decide⟩
theorem witness_IllegalFormsByClass_2 : ∃ (x : Fin 128) (i : Nat) (s : State) (u : State), (s.fetch x = .ue i) ∧ (s.hasTurn x .issue = true) ∧ (s.cutDue x = false) ∧ (u = s.landBore (lbOf x)) ∧ ((u.th x).st = .metered) ∧ (u.isUe (.privBits x) 0 = false) :=
  ⟨0, 0, { code metered [0] with ecc := [{ mem := .code 0 0, word := 0, state := .uncorrectable }] }, _, by decide, by decide, by decide, rfl, by decide, by decide⟩
theorem witness_IllegalFormsByClass_3 : ∃ (x : Fin 128) (i : Nat) (s : State) (u : State), (s.fetch x = .ue i) ∧ (s.hasTurn x .issue = true) ∧ (s.cutDue x = false) ∧ (u = s.landBore (lbOf x)) ∧ ((u.th x).st = .elastic) :=
  ⟨0, 0, { code elastic [0] with ecc := [{ mem := .code 0 0, word := 0, state := .uncorrectable }] }, _, by decide, by decide, by decide, rfl, by decide⟩
theorem witness_OperandsReadAndFaulted_3 : ∃ (x : Fin 128) (f : Flt) (s : State), ((s.th x).st = .elastic) ∧ (f.word = none) ∧ (bit (s.th x).tfault.toNat 31 = false) :=
  ⟨0, { cause := 1, space := 0, addr := 0xFFF, half := 0, detail := 0, word := none }, code elastic [], by decide, by decide, by decide⟩
theorem witness_OperandsReadAndFaulted_4 : ∃ (x : Fin 128) (pc : Nat) (d : Dec) (f : Flt) (s : State) (t : State), ((s.th x).st = .metered) ∧ (f.word = none) ∧ (s.isUe (.privBits x) 0 = false) ∧ (t = s.takeFault x pc d f) :=
  ⟨0, 0, anyDec, { cause := 1, space := 0, addr := 0xFFF, half := 0, detail := 0, word := none }, code metered [], _, by decide, by decide, by decide, rfl⟩
theorem witness_DestinationFormsAndFrames_2 : ∃ (x : Nat) (pc : Nat) (a : Nat) (n : Nat) (v : Nat) (at_ : Bool) (s : State) (t : State), (a < 0x1000) ∧ (t = writeLoc s x pc at_ (.bit a) n v) :=
  ⟨0, 0, 0xFFF, 0, 0, false, {}, _, by decide, rfl⟩
theorem witness_DestinationFormsAndFrames_3 : ∃ (x : Nat) (pc : Nat) (a : Nat) (n : Nat) (v : Nat) (at_ : Bool) (s : State) (t : State), (0x1000 ≤ a) ∧ (a < 0x3000) ∧ (t = writeLoc s x pc at_ (.bit a) n v) :=
  ⟨0, 0, 0x1000, 0, 0, false, {}, _, by decide, by decide, rfl⟩
theorem witness_DestinationFormsAndFrames_3b : ∃ (x : Nat) (pc : Nat) (a : Nat) (n : Nat) (v : Nat) (at_ : Bool) (s : State) (t : State), (0x1000 ≤ a) ∧ (a < 0x3000) ∧ (t = writeLoc s x pc at_ (.bit a) n v) :=
  ⟨0, 0, 0x2FFF, 0, 0, false, {}, _, by decide, by decide, rfl⟩
theorem witness_DestinationFormsAndFrames_4 : ∃ (x : Nat) (a : Nat) (s : State), (0x3000 ≤ a) ∧ (s.pairOf x = none) :=
  ⟨0, 0x3000, {}, by decide, by decide⟩
theorem witness_DestinationFormsAndFrames_5 : ∃ (x : Nat) (s : State), (s.pairOf x = none) :=
  ⟨0, {}, by decide⟩
theorem witness_LongResultsAndVectorCommits_0 : ∃ (x : Fin 128) (l : LongRes) (ws : List LocWrite) (s : State), ((s.th x).longDue = some l) ∧ (l.op = .arith ws) :=
  ⟨0, { op := .arith [{ loc := .well 0, n := 4, v := 7 }], left := 0, perStroke := false, issued := 0, pc := 0 }, [{ loc := .well 0, n := 4, v := 7 }], { threads := [(0, { longs := [{ op := .arith [{ loc := .well 0, n := 4, v := 7 }], left := 0, perStroke := false, issued := 0, pc := 0 }] })] }, by decide, rfl⟩
theorem witness_LongResultsAndVectorCommits_1 : ∃ (x : Fin 128) (l : LongRes) (p : Nat) (st : Nat) (k : Nat) (src : Loc) (dst : Loc) (bs : List Nat) (s : State), (s.ecc = []) ∧ ((s.th x).longDue = some l) ∧ (l.op = .crc p st k src dst) ∧ (((∃ a, src = .well a ∧ bs = readBytes (s.th x).well a k) ∨ (∃ a, src = .res a ∧ bs = readBytes (s.lb (lbOf x)).res a k) ∨ (∃ a, src = .code a ∧ bs = readBytes (s.codeOf x) a k))) :=
  ⟨0, { op := .crc 0xEDB88320 0 5 (.well 8) (.well 0), left := 0, perStroke := false, issued := 0, pc := 0 }, 0xEDB88320, 0, 5, .well 8, .well 0, [0, 0, 0, 0, 0], { threads := [(0, { longs := [{ op := .crc 0xEDB88320 0 5 (.well 8) (.well 0), left := 0, perStroke := false, issued := 0, pc := 0 }] })] }, by decide, by decide, rfl, .inl ⟨8, rfl, by decide⟩⟩
theorem witness_LongResultsAndVectorCommits_2 : ∃ (x : Fin 128) (l : LongRes) (op : Nat) (a : Nat) (b : Nat) (dst : Loc) (r : Nat × State) (s : State), ((s.th x).longDue = some l) ∧ (l.op = .chan op a b dst) ∧ (r = chanEffect (s.modTh x (fun t => { t with longs := t.longs.erase l })) x op a b) :=
  ⟨0, { op := .chan 5 64 0 (.well 0), left := 0, perStroke := false, issued := 0, pc := 0 }, 5, 64, 0, .well 0, _, { threads := [(0, { longs := [{ op := .chan 5 64 0 (.well 0), left := 0, perStroke := false, issued := 0, pc := 0 }] })] }, by decide, rfl, rfl⟩
theorem witness_LongResultsAndVectorCommits_3 : ∃ (n : Fin 8) (l : LvOp) (s : State), ((s.lb n).lv = some l) ∧ (l.due ≤ s.strokes) ∧ (l.fault = none) :=
  ⟨0, { x := 0, pc := 0, op := 0x21, vl := 16, d := .res 0, a := .res 64, b := .res 128, issued := 0, due := 7, elems := [], fault := none }, { strokes := 7, lbs := [(0, { lv := some { x := 0, pc := 0, op := 0x21, vl := 16, d := .res 0, a := .res 64, b := .res 128, issued := 0, due := 7, elems := [], fault := none } })] }, by decide, by decide, by decide⟩
theorem witness_LongResultsAndVectorCommits_4 : ∃ (n : Fin 8) (l : LvOp) (i : Nat) (c : Nat) (p : Nat) (r : Nat) (s : State) (t : State) (u : State), ((s.lb n).lv = some l) ∧ (l.due ≤ s.strokes) ∧ (l.fault = some (i, c, p)) ∧ ((l.op ≠ 0x31 ∨ i = 0)) ∧ (r = i + 2 ^ 8 * c + 2 ^ 12 * l.pc + 2 ^ 31) ∧ (t = l.writes.foldl (fun t w => landLoc t l.x l.pc l.issued w.loc w.n w.v) s) ∧ (u = (if bit (t.wellWord l.x 0xFE8) 31 then t.wellPut l.x 0xFE8 4 (t.wellWord l.x 0xFE8 ||| 2 ^ 30) else (t.wellPut l.x 0xFE8 4 r).wellPut l.x 0xFEC 4 p)) :=
  ⟨0, { x := 0, pc := 0, op := 0x21, vl := 16, d := .res 0, a := .res 64, b := .res 128, issued := 0, due := 7, elems := [], fault := some (5, 1, 0) }, 5, 1, 0, _, { strokes := 7, lbs := [(0, { lv := some { x := 0, pc := 0, op := 0x21, vl := 16, d := .res 0, a := .res 64, b := .res 128, issued := 0, due := 7, elems := [], fault := some (5, 1, 0) } })] }, _, _, by decide, by decide, by decide, by decide, rfl, rfl, rfl⟩
theorem witness_LongResultsAndVectorCommits_5 : ∃ (n : Fin 8) (l : LvOp) (i : Nat) (c : Nat) (p : Nat) (s : State) (t : State), ((s.lb n).lv = some l) ∧ (l.due ≤ s.strokes) ∧ (l.fault = some (i, c, p)) ∧ (l.op = 0x31) ∧ (0 < i) ∧ (t = l.writes.foldl (fun t w => landLoc t l.x l.pc l.issued w.loc w.n w.v) s) :=
  ⟨0, { x := 0, pc := 0, op := 0x31, vl := 16, d := .res 0, a := .res 64, b := .res 128, issued := 0, due := 7, elems := [], fault := some (1, 1, 0) }, 1, 1, 0, { strokes := 7, lbs := [(0, { lv := some { x := 0, pc := 0, op := 0x31, vl := 16, d := .res 0, a := .res 64, b := .res 128, issued := 0, due := 7, elems := [], fault := some (1, 1, 0) } })] }, _, by decide, by decide, by decide, by decide, by decide, rfl⟩
theorem witness_LongResultsAndVectorCommits_6 : ∃ (op : Nat) (a : Nat) (b : Nat) (d : Nat) (r : Int), ((op, r) ∈ [(0x21, sgn 16 a + sgn 16 b), (0x22, sgn 16 a - sgn 16 b), (0x23, rne (sgn 16 a * sgn 16 b) 15), (0x24, rne (sgn 16 d * 2 ^ 15 + sgn 16 a * sgn 16 b) 15)]) :=
  ⟨0x24, 0x8000, 0x8000, 0x7FFF, rne (sgn 16 0x7FFF * 2 ^ 15 + sgn 16 0x8000 * sgn 16 0x8000) 15, by decide⟩
theorem witness_LongResultsAndVectorCommits_7 : ∃ (k : Nat) (n : Int) (q : Int), (0 < k) ∧ (rne n k = q) :=
  ⟨1, 3, rne 3 1, by decide, by decide⟩
theorem witness_ChannelAndCisternAccess_0 : ∃ (h : Nat) (i : Nat) (s : State), (s.checkHandle 1 h = (.ok i, s)) :=
  ⟨mkHandle 0 5, 0, { pump := { chans := [(0, { kind := 2, gen := 5 })] } }, by decide⟩
theorem witness_ChannelAndCisternAccess_1 : ∃ (x : Nat) (a : Nat) (w : Nat) (h : Nat) (s : State) (t : State), (s.checkBref (lbOf x) a = .ok h) ∧ (s.winOf x w = none) ∧ ((s.cell h).bound = false) ∧ (t = (chanEffect s x 1 a w).2) :=
  ⟨0, 0x80000000, 7, 0, { pump := { cells := [(0, { used := true, head := true, last := true, owner := 8, len := 256 })] } }, _, by decide, by decide, by decide, rfl⟩
theorem witness_ChannelAndCisternAccess_2 : ∃ (x : Nat) (a : Nat) (w : Nat) (h : Nat) (s : State), (s.checkBref (lbOf x) a = .ok h) ∧ ((s.winOf x w).isSome = true) :=
  ⟨0, 0x80000000, 0, 0, { pump := { cells := [(0, { used := true, head := true, last := true, owner := 8, len := 256 })] }, threads := [(0, { cwin := [(0, some 0x80000000)] })] }, by decide, by decide⟩
theorem witness_ChannelAndCisternAccess_3 : ∃ (x : Nat) (a : Nat) (w : Nat) (h : Nat) (s : State), (s.checkBref (lbOf x) a = .ok h) ∧ (s.winOf x w = none) ∧ ((s.cell h).bound = true) :=
  ⟨0, 0x80000000, 0, 0, { pump := { cells := [(0, { used := true, head := true, last := true, owner := 8, bound := true, len := 256 })] } }, by decide, by decide, by decide⟩
theorem witness_ChannelAndCisternAccess_4 : ∃ (x : Nat) (w : Nat) (b : Nat) (h : Nat) (s : State) (t : State), (s.winBusy x w = false) ∧ (s.winOf x w = some h) ∧ (t = (chanEffect s x 2 w b).2) :=
  ⟨0, 0, 0, 0, { pump := { cells := [(0, { used := true, head := true, last := true, owner := 8, bound := true, len := 256 })] }, threads := [(0, { cwin := [(0, some 0x80000000)] })] }, _, by decide, by decide, rfl⟩
theorem witness_ChannelAndCisternAccess_5 : ∃ (x : Nat) (w : Nat) (s : State), (s.winBusy x w = true) :=
  ⟨0, 0, { strokes := 6, pump := { cells := [(0, { used := true, head := true, last := true, owner := 8, bound := true, len := 256 })] }, threads := [(0, { cwin := [(0, some 0x80000000)], cis := [{ rd := true, idx := 3, win := 0, off := 0, n := 8, loc := .well 0x40, issued := 0, pc := 0, done := 0, bad := false }] })] }, by decide⟩
theorem witness_ChannelAndCisternAccess_6 : ∃ (x : Nat) (w : Nat) (h : Nat) (s : State), (s.winOf x w = some h) :=
  ⟨0, 0, 0, { pump := { cells := [(0, { used := true, head := true, last := true, owner := 8, bound := true, len := 256 })] }, threads := [(0, { cwin := [(0, some 0x80000000)] })] }, by decide⟩
theorem witness_ChannelAndCisternAccess_7 : ∃ (x : Nat) (w : Nat) (h : Nat) (s : State), (s.winOf x w = some h) :=
  ⟨0, 0, 0, { pump := { cells := [(0, { used := true, head := true, last := true, owner := 8, bound := true, len := 256 })] }, threads := [(0, { cwin := [(0, some 0x80000000)] })] }, by decide⟩
theorem witness_ChannelAndCisternAccess_8 : ∃ (n : Nat), ((n = 0 ∨ 16320 < n)) :=
  ⟨16321, by decide⟩
theorem witness_ChannelAndCisternAccess_8b : ∃ (n : Nat), ((n = 0 ∨ 16320 < n)) :=
  ⟨0, by decide⟩
theorem witness_ChannelAndCisternAccess_9 : ∃ (x : Nat) (a : Nat) (h : Nat) (s : State), (s.checkBref (lbOf x) a = .ok h) ∧ ((s.cell h).bound = true) :=
  ⟨0, 0x80000000, 0, { pump := { cells := [(0, { used := true, head := true, last := true, owner := 8, bound := true, len := 256 })] } }, by decide, by decide⟩
theorem witness_ChannelAndCisternAccess_10 : ∃ (x : Nat) (a : Nat) (h : Nat) (s : State), (s.checkBref (lbOf x) a = .ok h) ∧ ((s.cell h).bound = false) :=
  ⟨0, 0x80000000, 0, { pump := { cells := [(0, { used := true, head := true, last := true, owner := 8, len := 256 })] } }, by decide, by decide⟩
theorem witness_ChannelAndCisternAccess_11 : ∃ (x : Nat) (op : Nat) (a : Nat) (s : State), (op = 1 ∨ op = 6) ∧ ((∀ h, s.checkBref (lbOf x) a ≠ .ok h)) :=
  ⟨0, 6, 0x80000000, {}, by decide, by intro h e; cases h <;> cases e⟩
theorem witness_ChannelAndCisternAccess_12 : ∃ (x : Fin 128) (k : Fin 8) (c : CisAcc) (h : Nat) (a : Nat) (n : Nat) (s : State), (s.ecc = []) ∧ (s.leads x = none) ∧ ((s.th x).cis.find? (fun d => d.idx == k.val) = some c) ∧ (s.winOf x c.win = some h) ∧ (c.off + c.n ≤ (s.cell h).len) ∧ (c.issued + 6 ≤ s.strokes) ∧ (c.bad = false) ∧ (c.rd = true) ∧ (c.loc = .well a) ∧ (n = c.n - c.done) ∧ (n ≤ 4 - (c.off + c.done) % 4) :=
  ⟨0, 3, { rd := true, idx := 3, win := 0, off := 0, n := 8, loc := .well 0x40, issued := 0, pc := 0, done := 4, bad := false }, 0, 0x40, _, { strokes := 6, pump := { cells := [(0, { used := true, head := true, last := true, owner := 8, bound := true, len := 256 })] }, threads := [(0, { cwin := [(0, some 0x80000000)], cis := [{ rd := true, idx := 3, win := 0, off := 0, n := 8, loc := .well 0x40, issued := 0, pc := 0, done := 4, bad := false }] })] }, by decide, by decide, by decide, by decide, by decide, by decide, by decide, by decide, by decide, rfl, by decide⟩
theorem witness_ChannelAndCisternAccess_13 : ∃ (x : Fin 128) (k : Fin 8) (c : CisAcc) (h : Nat) (a : Nat) (n : Nat) (s : State), (s.ecc = []) ∧ (s.leads x = none) ∧ ((s.th x).cis.find? (fun d => d.idx == k.val) = some c) ∧ (s.winOf x c.win = some h) ∧ (c.off + c.n ≤ (s.cell h).len) ∧ (c.issued + 6 ≤ s.strokes) ∧ (c.bad = false) ∧ (c.rd = true) ∧ (c.loc = .well a) ∧ (n = 4 - (c.off + c.done) % 4) ∧ (n < c.n - c.done) :=
  ⟨0, 3, { rd := true, idx := 3, win := 0, off := 1, n := 8, loc := .well 0x40, issued := 0, pc := 0, done := 0, bad := false }, 0, 0x40, _, { strokes := 6, pump := { cells := [(0, { used := true, head := true, last := true, owner := 8, bound := true, len := 256 })] }, threads := [(0, { cwin := [(0, some 0x80000000)], cis := [{ rd := true, idx := 3, win := 0, off := 1, n := 8, loc := .well 0x40, issued := 0, pc := 0, done := 0, bad := false }] })] }, by decide, by decide, by decide, by decide, by decide, by decide, by decide, by decide, by decide, rfl, by decide⟩
theorem witness_ChannelAndCisternAccess_14 : ∃ (x : Fin 128) (k : Fin 8) (c : CisAcc) (h : Nat) (a : Nat) (n : Nat) (s : State), (s.ecc = []) ∧ (s.leads x = none) ∧ ((s.th x).cis.find? (fun d => d.idx == k.val) = some c) ∧ (s.winOf x c.win = some h) ∧ (c.off + c.n ≤ (s.cell h).len) ∧ (c.issued + 6 ≤ s.strokes) ∧ (c.bad = false) ∧ (c.rd = false) ∧ (c.loc = .well a) ∧ (n = c.n - c.done) ∧ (n ≤ 4 - (c.off + c.done) % 4) :=
  ⟨0, 3, { rd := false, idx := 3, win := 0, off := 252, n := 4, loc := .well 0x40, issued := 0, pc := 0, done := 0, bad := false }, 0, 0x40, _, { strokes := 6, pump := { cells := [(0, { used := true, head := true, last := true, owner := 8, bound := true, len := 256 })] }, threads := [(0, { cwin := [(0, some 0x80000000)], cis := [{ rd := false, idx := 3, win := 0, off := 252, n := 4, loc := .well 0x40, issued := 0, pc := 0, done := 0, bad := false }] })] }, by decide, by decide, by decide, by decide, by decide, by decide, by decide, by decide, by decide, rfl, by decide⟩
theorem witness_ChannelAndCisternAccess_15 : ∃ (x : Fin 128) (k : Fin 8) (c : CisAcc) (s : State), (s.ecc = []) ∧ (s.leads x = none) ∧ ((s.th x).cis.find? (fun d => d.idx == k.val) = some c) ∧ (c.issued + 2 ≤ s.strokes) ∧ ((s.winOf x c.win = none ∨ ∃ h, s.winOf x c.win = some h ∧ (s.cell h).len < c.off + c.n)) :=
  ⟨0, 3, { rd := true, idx := 3, win := 0, off := 249, n := 8, loc := .well 0x40, issued := 0, pc := 0, done := 0, bad := false }, { strokes := 2, pump := { cells := [(0, { used := true, head := true, last := true, owner := 8, bound := true, len := 256 })] }, threads := [(0, { cwin := [(0, some 0x80000000)], cis := [{ rd := true, idx := 3, win := 0, off := 249, n := 8, loc := .well 0x40, issued := 0, pc := 0, done := 0, bad := false }] })] }, by decide, by decide, by decide, by decide, .inr ⟨0, by decide⟩⟩
theorem witness_GateCountsAndPaceGovernor_0 : ∃ (unit : Fin 16) (s : State), (s.up 2 = true) ∧ ((unit.val < 14 ∧ (10 ≤ unit.val ∨ (s.pb unit).role ≠ 4))) :=
  ⟨0, {}, by decide, by decide⟩
theorem witness_GateCountsAndPaceGovernor_1 : ∃ (unit : Fin 16) (s : State), ((s.up 2 = false ∨ 14 ≤ unit.val ∨ unit.val < 10 ∧ (s.pb unit).role = 4)) :=
  ⟨0, { inReset := [2] }, by decide⟩
theorem witness_GateCountsAndPaceGovernor_1b : ∃ (unit : Fin 16) (s : State), ((s.up 2 = false ∨ 14 ≤ unit.val ∨ unit.val < 10 ∧ (s.pb unit).role = 4)) :=
  ⟨14, {}, by decide⟩
theorem witness_GateCountsAndPaceGovernor_1c : ∃ (unit : Fin 16) (s : State), ((s.up 2 = false ∨ 14 ≤ unit.val ∨ unit.val < 10 ∧ (s.pb unit).role = 4)) :=
  ⟨9, { pbs := [(9, { role := 4 })] }, by decide⟩
theorem witness_GateCountsAndPaceGovernor_2 : ∃ (n : Nat) (tree : Nat) (unit : Nat) (slack : Nat) (s : State) (t : State), (s.gov.depth = 0) ∧ (s.gov.paceCross = none) ∧ (tree ≤ s.gov.len) ∧ (slack = min 1275 ((s.gov.slackLen - tree) / 5 * 5)) ∧ (bits (s.reg 0x01008) 15 8 ≤ slack) ∧ (bits (s.reg 0x01008) 23 16 ≤ slack) ∧ (t = s.govGate n tree unit) :=
  ⟨1, 1480, 0, _, { gov := { len := 1600 } }, _, by decide, by decide, by decide, rfl, by decide, by decide, rfl⟩
theorem witness_GateCountsAndPaceGovernor_3 : ∃ (n : Nat) (tree : Nat) (unit : Nat) (s : State) (t : State), (s.gov.depth = 0) ∧ (s.gov.paceCross = none) ∧ (s.gov.len < tree) ∧ (s.paceAt 255 ≠ s.gov.pace) ∧ (s.gov.noRise ≤ n) ∧ (s.gov.busy = true) ∧ (s.gov.target + 1 ≤ bits (s.reg 0x01024) 14 8) ∧ (bits (s.reg 0x01024) 6 0 ≤ s.gov.target + 1) ∧ (t = s.govGate n tree unit) :=
  ⟨64, 1601, 3, { gov := { len := 1600, noRise := 64, busy := true } }, _, by decide, by decide, by decide, by decide, by decide, by decide, by decide, by decide, rfl⟩
theorem witness_GateCountsAndPaceGovernor_4 : ∃ (n : Nat) (tree : Nat) (unit : Nat) (s : State) (t : State), (s.gov.depth = 0) ∧ (s.gov.paceCross = none) ∧ (s.gov.len < tree) ∧ (s.paceAt 255 = s.paceAt 0) ∧ (t = s.govGate n tree unit) :=
  ⟨1, 1601, 0, { regs := [(0x0100C, 800)], gov := { len := 1600 } }, _, by decide, by decide, by decide, by decide, rfl⟩
theorem witness_SelectGrantsTurns_0 : ∃ (n : Nat) (lb : Nat) (q : Nat) (s : State) (t : State), ((s.lb lb).shed = false) ∧ (q = wheelOwner (s.lb lb).liveLo.toNat (s.lb lb).liveHi.toNat (n % 16)) ∧ ((s.th (16 * lb + q)).startReq = none) ∧ ((s.th (16 * lb + q)).st = .metered) ∧ ((s.th (16 * lb + q)).yielding = false) ∧ ((s.th (16 * lb + q)).idle = 0) ∧ ((s.th (16 * lb + q)).owed = 0) ∧ ((s.th (16 * lb + q)).exc = none) ∧ ((s.th (16 * lb + q)).stopReq = .none) ∧ ((s.th (16 * lb + q)).longs = []) ∧ (t = s.selectLb n lb) :=
  ⟨0, 0, 0, { threads := [(0, { st := .metered })] }, _, by decide, by decide, by decide, by decide, by decide, by decide, by decide, by decide, by decide, by decide, rfl⟩
theorem witness_SelectGrantsTurns_2 : ∃ (n : Nat) (lb : Nat) (q : Nat) (k : Nat) (s : State) (t : State), (s.ecc = []) ∧ ((s.lb lb).shed = false) ∧ (q = wheelOwner (s.lb lb).liveLo.toNat (s.lb lb).liveHi.toNat (n % 16)) ∧ ((s.th (16 * lb + q)).startReq = none) ∧ ((s.th (16 * lb + q)).st = .metered) ∧ ((s.th (16 * lb + q)).yielding = false) ∧ ((s.th (16 * lb + q)).idle = 0) ∧ (0 < (s.th (16 * lb + q)).owed) ∧ ((s.th (16 * lb + q)).longs = []) ∧ (k = (if (s.th (16 * lb + q)).fetched.length = 0 then 32 else min 16 (32 - (s.th (16 * lb + q)).fetched.length))) ∧ (t = s.selectLb n lb) :=
  ⟨0, 0, 0, 32, { threads := [(0, { st := .metered, owed := 1 })] }, _, by decide, by decide, by decide, by decide, by decide, by decide, by decide, by decide, by decide, by decide, rfl⟩
theorem witness_SelectGrantsTurns_2b : ∃ (n : Nat) (lb : Nat) (q : Nat) (k : Nat) (s : State) (t : State), (s.ecc = []) ∧ ((s.lb lb).shed = false) ∧ (q = wheelOwner (s.lb lb).liveLo.toNat (s.lb lb).liveHi.toNat (n % 16)) ∧ ((s.th (16 * lb + q)).startReq = none) ∧ ((s.th (16 * lb + q)).st = .metered) ∧ ((s.th (16 * lb + q)).yielding = false) ∧ ((s.th (16 * lb + q)).idle = 0) ∧ (0 < (s.th (16 * lb + q)).owed) ∧ ((s.th (16 * lb + q)).longs = []) ∧ (k = (if (s.th (16 * lb + q)).fetched.length = 0 then 32 else min 16 (32 - (s.th (16 * lb + q)).fetched.length))) ∧ (t = s.selectLb n lb) :=
  ⟨0, 0, 0, 1, { threads := [(0, { st := .metered, owed := 1, fetched := List.replicate 31 (0, false) })] }, _, by decide, by decide, by decide, by decide, by decide, by decide, by decide, by decide, by decide, by decide, rfl⟩
theorem witness_SelectGrantsTurns_3 : ∃ (n : Nat) (lb : Nat) (q : Nat) (s : State) (t : State), ((s.lb lb).shed = false) ∧ (q = wheelOwner (s.lb lb).liveLo.toNat (s.lb lb).liveHi.toNat (n % 16)) ∧ ((s.th (16 * lb + q)).startReq = none) ∧ ((s.th (16 * lb + q)).st = .stopped) ∧ ((∀ r, r < 16 → (s.th (16 * lb + r)).cls = false)) ∧ (t = s.selectLb n lb) :=
  ⟨0, 0, 0, {}, _, by decide, by decide, by decide, by decide, by decide, rfl⟩
theorem witness_SelectGrantsTurns_4 : ∃ (n : Nat) (lb : Nat) (q : Nat) (r : Nat) (v : Nat × BitVec 18) (s : State) (t : State), ((s.lb lb).shed = false) ∧ (q = wheelOwner (s.lb lb).liveLo.toNat (s.lb lb).liveHi.toNat (n % 16)) ∧ ((s.th (16 * lb + q)).startReq = none) ∧ ((s.th (16 * lb + q)).st = .stopped) ∧ (r < 16) ∧ (r ≠ q) ∧ ((∀ p, p < 16 → p ≠ r → (s.th (16 * lb + p)).cls = false)) ∧ ((s.th (16 * lb + r)).cls = true) ∧ ((s.th (16 * lb + r)).startReq = none) ∧ ((s.th (16 * lb + r)).st = .elastic) ∧ ((s.th (16 * lb + r)).yielding = false) ∧ ((s.th (16 * lb + r)).idle = 0) ∧ ((s.th (16 * lb + r)).owed = 0) ∧ ((s.th (16 * lb + r)).exc = some v) ∧ ((s.th (16 * lb + r)).longs = []) ∧ (t = s.selectLb n lb) :=
  ⟨0, 0, 0, 15, (7, 0), { threads := [(15, { st := .elastic, cls := true, exc := some (7, 0) })] }, _, by decide, by decide, by decide, by decide, by decide, by decide, by decide, by decide, by decide, by decide, by decide, by decide, by decide, by decide, by decide, rfl⟩
theorem witness_SelectGrantsTurns_5 : ∃ (n : Nat) (lb : Nat) (s : State) (t : State), ((s.lb lb).shed = true) ∧ (t = s.selectLb n lb) :=
  ⟨0, 7, { lbs := [(7, { shed := true })] }, _, by decide, rfl⟩
theorem witness_WritesOnTheirWay_0 : ∃ (n : Nat) (q : Nat) (w : ResWrite) (s : State), (s.ecc = []) ∧ ((s.lb n).resPend = [w]) ∧ (w.due ≤ q) :=
  ⟨0, 2, { due := 2, x := 0, addr := 0x7FFFC, n := 4, v := 1, atom := false }, { lbs := [(0, { resPend := [{ due := 2, x := 0, addr := 0x7FFFC, n := 4, v := 1, atom := false }] })] }, by decide, by decide, by decide⟩
theorem witness_WritesOnTheirWay_3 : ∃ (n : Nat) (q : Nat) (s : State), ((∀ w ∈ (s.lb n).resPend, q < w.due)) :=
  ⟨0, 1, { lbs := [(0, { resPend := [{ due := 2, x := 0, addr := 0x7FFFC, n := 4, v := 1, atom := false }] })] }, by decide⟩
theorem witness_WritesOnTheirWay_4 : ∃ (q : Nat) (w : GBitWrite) (s : State), (s.gpend = [w]) ∧ (w.at_ ≤ q) :=
  ⟨3, { at_ := 3, rank := 0, addr := 0xFFF, v := true }, { gpend := [{ at_ := 3, rank := 0, addr := 0xFFF, v := true }] }, by decide, by decide⟩
theorem witness_WritesOnTheirWay_5 : ∃ (d : Fin 13) (w : WinWrite) (s : State), (s.up d = true) ∧ (w.at_ < s.strokes) ∧ (s.winFifo.find? (fun v => regDomain v.off == some d.val) = some w) :=
  ⟨3, { due := 0, rank := 0, x := 0, pc := 0, off := 0x20000, v := 1 }, { strokes := 1, inReset := [], winFifo := [{ due := 0, rank := 0, x := 0, pc := 0, off := 0x20000, v := 1 }] }, by decide, by decide, by decide⟩
theorem witness_WritesOnTheirWay_6 : ∃ (off : Fin 1048576) (s : State) (t : State), (off.val % 4 = 0) ∧ (off.val ≠ 0x6002C) ∧ ((∀ v ∈ s.winDone, v.off = off.val → v.cyc ≠ s.strokes + s.tb.edges)) ∧ (t = s.modHost (fun h => { h with rsErr := 0 })) :=
  ⟨0xFFFFC, {}, _, by decide, by decide, by decide, rfl⟩
theorem witness_WritesOnTheirWay_8 : ∃ (off : Fin 1048576) (b : Fin 16) (n : Fin 64), ((off.val % 4 ≠ 0 ∨ b ≠ 15 ∨ n ≠ 0)) :=
  ⟨1048575, 15, 0, by decide⟩
theorem witness_WritesOnTheirWay_8b : ∃ (off : Fin 1048576) (b : Fin 16) (n : Fin 64), ((off.val % 4 ≠ 0 ∨ b ≠ 15 ∨ n ≠ 0)) :=
  ⟨0, 7, 0, by decide⟩
theorem witness_WritesOnTheirWay_8c : ∃ (off : Fin 1048576) (b : Fin 16) (n : Fin 64), ((off.val % 4 ≠ 0 ∨ b ≠ 15 ∨ n ≠ 0)) :=
  ⟨0, 15, 63, by decide⟩
theorem witness_WritesOnTheirWay_9 : ∃ (off : Nat) (s : State), (s.locked = true) ∧ (rwlMask off ≠ 0) ∧ ((bit (s.reg 0x70000) 1 = true → off ≠ 0x70030 ∧ off ≠ 0x70034 ∧ off ≠ 0x70038)) :=
  ⟨0x01008, { locked := true }, by decide, by decide, by decide⟩
theorem witness_WritesOnTheirWay_11 : ∃ (off : Nat), (regAt off = none) :=
  ⟨0x0E000, by decide⟩
theorem witness_EventsRoutedAndDelivered_0 : ∃ (src : Fin 1024) (e : SrcEvent) (s : State), (s.mf.entryQ.find? (fun e => e.src == src.val) = some e) ∧ (e.from_ ≤ s.strokes) ∧ (e.src ∉ s.mf.pulsesNow) ∧ (e.ev = true) ∧ (pulseSource e.src = true) :=
  ⟨1007, { src := 1007, ev := true, rising := true, level := true, from_ := 3 }, { strokes := 3, mf := { entryQ := [{ src := 1007, ev := true, rising := true, level := true, from_ := 3 }] } }, by decide, by decide, by decide, by decide, by decide⟩
theorem witness_EventsRoutedAndDelivered_2 : ∃ (src : Fin 1024) (e : SrcEvent) (s : State), (s.mf.entryQ.find? (fun e => e.src == src.val) = some e) ∧ (e.from_ ≤ s.strokes) ∧ (e.src ∉ s.mf.pulsesNow) ∧ (pulseSource e.src = false) ∧ (e.ev = false) :=
  ⟨0x2C0, { src := 704, ev := false, rising := true, level := true, from_ := 3 }, { strokes := 3, mf := { entryQ := [{ src := 704, ev := false, rising := true, level := true, from_ := 3 }] } }, by decide, by decide, by decide, by decide, by decide⟩
theorem witness_EventsRoutedAndDelivered_1 : ∃ (src : Fin 1024) (e : SrcEvent) (s : State), (s.mf.entryQ.find? (fun e => e.src == src.val) = some e) ∧ (e.from_ ≤ s.strokes) ∧ (e.src ∉ s.mf.pulsesNow) ∧ (e.ev = true) ∧ (pulseSource e.src = false) :=
  ⟨0x2C0, { src := 704, ev := true, rising := true, level := true, from_ := 3 }, { strokes := 3, mf := { entryQ := [{ src := 704, ev := true, rising := true, level := true, from_ := 3 }] } }, by decide, by decide, by decide, by decide, by decide⟩
theorem witness_EventsRoutedAndDelivered_9 : ∃ (k : Fin 16) (level : Bool) (s : State), (tget false s.mf.extIn k ≠ level) :=
  ⟨15, true, {}, by decide⟩
theorem witness_EventsRoutedAndDelivered_10 : ∃ (i : Fin 1024) (p : Pulse) (s : State), (s.mf.pulses = [p]) ∧ (p.input = i) ∧ (p.due ≤ s.strokes) ∧ (s.mf.moves = []) ∧ (s.mf.contrib = []) ∧ ((s.inStat i).level = false) ∧ (s.strokes / s.stormWin = s.mf.window) ∧ (s.ecc = []) ∧ (bit (s.reg 0xF0000) 0 = false) :=
  ⟨1023, { input := 1023, src := 0x3EF, due := 3 }, { strokes := 3, regs := [(0x50008, 0x00100001)], mf := { pulses := [{ input := 1023, src := 0x3EF, due := 3 }] } }, by decide, by decide, by decide, by decide, by decide, by decide, by decide, by decide, by decide⟩
theorem witness_ConsumersAndManifoldControl_0 : ∃ (v : Fin 128) (e : Cross (Nat × Nat)) (s : State), (s.mf.trigX.find? (fun c => c.val == (v.val, 0)) = some e) ∧ (e.at_ < s.strokes) :=
  ⟨127, { val := (127, 0), at_ := 0, edge := 0 }, { strokes := 1, mf := { trigX := [{ val := (127, 0), at_ := 0, edge := 0 }] } }, by decide, by decide⟩
theorem witness_ConsumersAndManifoldControl_1 : ∃ (v : Fin 128) (e : Cross (Nat × Nat)) (s : State), (s.mf.trigX.find? (fun c => c.val == (v.val, 1)) = some e) ∧ (e.at_ < s.strokes) :=
  ⟨127, { val := (127, 1), at_ := 0, edge := 0 }, { strokes := 1, mf := { trigX := [{ val := (127, 1), at_ := 0, edge := 0 }] } }, by decide, by decide⟩
theorem witness_ConsumersAndManifoldControl_3 : ∃ (n : Fin 32) (e : Cross (Nat × Bool)) (s : State), (s.mf.holdX.find? (fun e => e.val.1 == n.val) = some e) ∧ (e.at_ < s.strokes) :=
  ⟨31, { val := (31, true), at_ := 0, edge := 0 }, { strokes := 1, mf := { holdX := [{ val := (31, true), at_ := 0, edge := 0 }] } }, by decide, by decide⟩
theorem witness_ConsumersAndManifoldControl_4 : ∃ (k : Fin 16) (e : Cross Nat) (s : State), (s.mf.capX.find? (fun c => c.val == k.val) = some e) ∧ (e.at_ < s.strokes) ∧ (e.edge + 2 ≤ s.tb.edges) ∧ ((tget {} s.mf.caps k : Capture).valid = false) :=
  ⟨15, { val := 15, at_ := 0, edge := 0 }, { strokes := 1, tb := { edges := 2 }, mf := { capX := [{ val := 15, at_ := 0, edge := 0 }] } }, by decide, by decide, by decide, by decide⟩
theorem witness_ConsumersAndManifoldControl_5 : ∃ (k : Fin 16) (e : Cross Nat) (s : State), (s.mf.capX.find? (fun c => c.val == k.val) = some e) ∧ (e.at_ < s.strokes) ∧ (e.edge + 2 ≤ s.tb.edges) ∧ ((tget {} s.mf.caps k : Capture).valid = true) :=
  ⟨15, { val := 15, at_ := 0, edge := 0 }, { strokes := 1, tb := { edges := 2 }, mf := { capX := [{ val := 15, at_ := 0, edge := 0 }], caps := [(15, { valid := true })] } }, by decide, by decide, by decide, by decide⟩
theorem witness_ConsumersAndManifoldControl_6 : ∃ (k : Fin 16) (e : Cross Nat) (s : State), (s.mf.extX.find? (fun c => c.val == k.val) = some e) ∧ (e.at_ < s.strokes) ∧ (e.edge + 2 ≤ s.tb.edges) ∧ ((∀ q, tfind s.mf.stretch k = some q → q ≤ s.tb.edges)) :=
  ⟨15, { val := 15, at_ := 0, edge := 0 }, { strokes := 1, tb := { edges := 2 }, mf := { extX := [{ val := 15, at_ := 0, edge := 0 }] } }, by decide, by decide, by decide, by intro q h; cases h⟩
theorem witness_ConsumersAndManifoldControl_7 : ∃ (k : Fin 16) (q : Nat) (e : Cross Nat) (s : State), (s.mf.extX.find? (fun c => c.val == k.val) = some e) ∧ (e.at_ < s.strokes) ∧ (e.edge + 2 ≤ s.tb.edges) ∧ (tfind s.mf.stretch k = some q) ∧ (s.tb.edges < q) :=
  ⟨15, 3, { val := 15, at_ := 0, edge := 0 }, { strokes := 1, tb := { edges := 2 }, mf := { extX := [{ val := 15, at_ := 0, edge := 0 }], stretch := [(15, 3)] } }, by decide, by decide, by decide, by decide, by decide⟩
theorem witness_ConsumersAndManifoldControl_8 : ∃ (k : Fin 16) (e : Nat) (s : State), (tfind s.mf.stretch k = some e) ∧ (e ≤ s.tb.edges) :=
  ⟨15, 9, { tb := { edges := 9 }, mf := { stretch := [(15, 9)] } }, by decide, by decide⟩
theorem witness_ConsumersAndManifoldControl_11 : ∃ (s : State), (s.strokes / s.stormWin ≠ s.mf.window) :=
  ⟨{ strokes := 0xFFFF, regs := [(0x50008, 0xFFFF0001)] }, by decide⟩
theorem witness_ConsumersAndManifoldControl_12 : ∃ (i : Fin 1024) (w : Word) (s : State), (bit w.toNat 8 = false) ∧ (bit w.toNat 9 = false) ∧ (s.mf.contrib = []) ∧ ((s.inStat i).level = false) ∧ (bit ((s.inStat i).fresh.held s.strokes) 2 = false) :=
  ⟨1023, 0x4FF, {}, by decide, by decide, by decide, by decide, by decide⟩
theorem witness_ConsumersAndManifoldControl_14 : ∃ (r : Fin 2048) (w : Word) (g : Nat) (s : State), (g = (tget 0 s.mf.gatesHeld r).toNat) ∧ (routeBad w.toNat g = false) :=
  ⟨2047, 0x800003EF, _, {}, rfl, by decide⟩
theorem witness_ConsumersAndManifoldControl_15 : ∃ (r : Fin 2048) (w : Word) (g : Nat) (s : State), (g = (tget 0 s.mf.gatesHeld r).toNat) ∧ (routeBad w.toNat g = true) :=
  ⟨2047, 0xC0000000, _, {}, rfl, by decide⟩
theorem witness_ConsumersAndManifoldControl_20 : ∃ (v : Nat) (b : Nat) (s : State), (s.mf.sigDone = some (v, b)) ∧ (s.mf.stale = false) ∧ (s.mf.goldenAt ≤ b) ∧ (v = s.reg 0x50010) :=
  ⟨7, 9, { regs := [(0x50010, 7)], mf := { sigDone := some (7, 9), stale := false, goldenAt := 9 } }, by decide, by decide, by decide, by decide⟩
theorem witness_ConsumersAndManifoldControl_21 : ∃ (v : Nat) (b : Nat) (s : State), (s.mf.sigDone = some (v, b)) ∧ (s.mf.stale = false) ∧ (s.mf.goldenAt ≤ b) ∧ (v ≠ s.reg 0x50010) :=
  ⟨7, 9, { mf := { sigDone := some (7, 9), stale := false } }, by decide, by decide, by decide, by decide⟩
theorem witness_ValveInstructions_0 : ∃ (v : Fin 128) (w : Nat) (s : State), (ValveAt s v w) ∧ (vOp w = 0) :=
  ⟨127, 66060288, { valves := [(127, { run := true, prog0 := [(0, 66060288)] })] }, ⟨by decide, by decide, by decide, by decide, by decide⟩, by decide⟩
theorem witness_ValveInstructions_2 : ∃ (v : Fin 128) (w : Nat) (s : State), (ValveAt s v w) ∧ (vOp w = 1) ∧ (bits (vParam w) 7 6 = 0) :=
  ⟨127, 871366656, { valves := [(127, { run := true, prog0 := [(0, 871366656)] })] }, ⟨by decide, by decide, by decide, by decide, by decide⟩, by decide, by decide⟩
theorem witness_ValveInstructions_2b : ∃ (v : Fin 128) (w : Nat) (s : State), (ValveAt s v w) ∧ (vOp w = 1) ∧ (bits (vParam w) 7 6 = 0) :=
  ⟨127, 602931200, { valves := [(127, { run := true, prog0 := [(0, 602931200)] })] }, ⟨by decide, by decide, by decide, by decide, by decide⟩, by decide, by decide⟩
theorem witness_ValveInstructions_3 : ∃ (v : Fin 128) (w : Nat) (s : State), (ValveAt s v w) ∧ (vOp w = 1) ∧ (bits (vParam w) 7 6 = 1) :=
  ⟨127, 603979776, { valves := [(127, { run := true, prog0 := [(0, 603979776)] })] }, ⟨by decide, by decide, by decide, by decide, by decide⟩, by decide, by decide⟩
theorem witness_ValveInstructions_4 : ∃ (v : Fin 128) (w : Nat) (s : State), (ValveAt s v w) ∧ (vOp w = 1) ∧ (bits (vParam w) 7 6 = 2) :=
  ⟨127, 671088640, { valves := [(127, { run := true, prog0 := [(0, 671088640)] })] }, ⟨by decide, by decide, by decide, by decide, by decide⟩, by decide, by decide⟩
theorem witness_ValveInstructions_5 : ∃ (v : Fin 128) (w : Nat) (k : Nat) (s : State), (ValveAt s v w) ∧ (vOp w = 1) ∧ (bits (vParam w) 7 6 = 3) ∧ (k = (if bit (vParam w) 8 then (s.valve v).k1 else (s.valve v).k0)) :=
  ⟨127, 738197504, _, { valves := [(127, { run := true, prog0 := [(0, 738197504)] })] }, ⟨by decide, by decide, by decide, by decide, by decide⟩, by decide, by decide, rfl⟩
theorem witness_ValveInstructions_6 : ∃ (v : Fin 128) (w : Nat) (s : State), (ValveAt s v w) ∧ (vOp w = 7) :=
  ⟨127, 4026531840, { valves := [(127, { run := true, prog0 := [(0, 4026531840)] })] }, ⟨by decide, by decide, by decide, by decide, by decide⟩, by decide⟩
theorem witness_ValveInstructions_7 : ∃ (v : Fin 128) (w : Nat) (pc : Nat) (s : State) (t : State), (t = s.vNext v w pc) :=
  ⟨127, 66060288, 64, { valves := [(127, { run := true, prog0 := [(0, 66060288)] })] }, _, rfl⟩
theorem witness_ValveInstructions_8 : ∃ (v : Fin 128) (w : Nat) (s : State), (ValveAt s v w) ∧ (vOp w = 2) ∧ (bits (vParam w) 8 7 = 0) :=
  ⟨127, 1082130432, { valves := [(127, { run := true, prog0 := [(0, 1082130432)] })] }, ⟨by decide, by decide, by decide, by decide, by decide⟩, by decide, by decide⟩
theorem witness_ValveInstructions_9 : ∃ (v : Fin 128) (w : Nat) (s : State), (ValveAt s v w) ∧ (vOp w = 2) ∧ (bits (vParam w) 8 7 = 1) :=
  ⟨127, 1216348160, { valves := [(127, { run := true, prog0 := [(0, 1216348160)] })] }, ⟨by decide, by decide, by decide, by decide, by decide⟩, by decide, by decide⟩
theorem witness_ValveInstructions_10 : ∃ (v : Fin 128) (w : Nat) (s : State), (ValveAt s v w) ∧ (vOp w = 2) ∧ (bits (vParam w) 8 7 = 2) :=
  ⟨127, 1375731712, { valves := [(127, { run := true, prog0 := [(0, 1375731712)] })] }, ⟨by decide, by decide, by decide, by decide, by decide⟩, by decide, by decide⟩
theorem witness_ValveInstructions_11 : ∃ (v : Fin 128) (w : Nat) (s : State), (ValveAt s v w) ∧ (vOp w = 2) ∧ (bits (vParam w) 8 7 = 3) :=
  ⟨127, 1508900864, { valves := [(127, { run := true, prog0 := [(0, 1508900864)] })] }, ⟨by decide, by decide, by decide, by decide, by decide⟩, by decide, by decide⟩
theorem witness_ValveInstructions_12 : ∃ (v : Nat) (n : Nat) (s : State) (t : State), (bit (s.vreg v 8) 0 = false) ∧ (n ≤ 32) ∧ (t = s.vDiscard v n) :=
  ⟨127, 32, {}, _, by decide, by decide, rfl⟩
theorem witness_ValveInstructions_13 : ∃ (v : Nat) (n : Nat) (b : Bool) (s : State) (t : State), (bit (s.vreg v 8) 1 = true) ∧ (n ≤ 32) ∧ (t = s.vFill v n b) :=
  ⟨127, 32, true, { regs := [(valveBase 127 + 8, 2)] }, _, by decide, by decide, rfl⟩
theorem witness_ValveInstructions_14 : ∃ (v : Fin 128) (w : Nat) (s : State), (ValveAt s v w) ∧ (vOp w = 3) :=
  ⟨127, 2075131904, { valves := [(127, { run := true, prog0 := [(0, 2075131904)] })] }, ⟨by decide, by decide, by decide, by decide, by decide⟩, by decide⟩
theorem witness_ValveInstructions_16 : ∃ (v : Fin 128) (w : Nat) (s : State), (ValveAt s v w) ∧ (vOp w = 6) ∧ (bits (vParam w) 8 7 = 0) :=
  ⟨127, 3228565504, { valves := [(127, { run := true, prog0 := [(0, 3228565504)] })] }, ⟨by decide, by decide, by decide, by decide, by decide⟩, by decide, by decide⟩
theorem witness_ValveInstructions_17 : ∃ (v : Fin 128) (w : Nat) (s : State), (ValveAt s v w) ∧ (vOp w = 6) ∧ (bits (vParam w) 8 7 = 1) :=
  ⟨127, 3362783232, { valves := [(127, { run := true, prog0 := [(0, 3362783232)] })] }, ⟨by decide, by decide, by decide, by decide, by decide⟩, by decide, by decide⟩
theorem witness_ValveInstructions_18 : ∃ (v : Fin 128) (w : Nat) (s : State), (ValveAt s v w) ∧ (vOp w = 6) ∧ (bits (vParam w) 8 7 = 2) :=
  ⟨127, 3497000960, { valves := [(127, { run := true, prog0 := [(0, 3497000960)] })] }, ⟨by decide, by decide, by decide, by decide, by decide⟩, by decide, by decide⟩
theorem witness_ValveInstructions_19 : ∃ (v : Fin 128) (w : Nat) (s : State), (ValveAt s v w) ∧ (vOp w = 6) ∧ (bits (vParam w) 8 7 = 3) :=
  ⟨127, 3631218688, { valves := [(127, { run := true, prog0 := [(0, 3631218688)] })] }, ⟨by decide, by decide, by decide, by decide, by decide⟩, by decide, by decide⟩
theorem witness_ValveWaitsAndQueues_0 : ∃ (v : Fin 128) (w : Nat) (e : Word) (es : List Word) (s : State), (ValveAt s v w) ∧ (vOp w = 4) ∧ (bit (vParam w) 8 = false) ∧ ((s.valve v).txReady = e :: es) :=
  ⟨127, 2147483648, 7, [], { valves := [(127, { run := true, prog0 := [(0, 2147483648)], txReady := [7] })] }, ⟨by decide, by decide, by decide, by decide, by decide⟩, by decide, by decide, by decide⟩
theorem witness_ValveWaitsAndQueues_1 : ∃ (v : Fin 128) (w : Nat) (s : State), (ValveAt s v w) ∧ (vOp w = 4) ∧ (bit (vParam w) 8 = false) ∧ ((s.valve v).txReady = []) ∧ (bit (vParam w) 7 = false) :=
  ⟨127, 2147483648, { valves := [(127, { run := true, prog0 := [(0, 2147483648)] })] }, ⟨by decide, by decide, by decide, by decide, by decide⟩, by decide, by decide, by decide, by decide⟩
theorem witness_ValveWaitsAndQueues_2 : ∃ (v : Fin 128) (w : Nat) (s : State), (ValveAt s v w) ∧ (vOp w = 4) ∧ (bit (vParam w) 8 = true) ∧ (((s.valve v).rxCross.filter (fun c => !c.val.2)).length + (s.valve v).rxReady.length < s.rxDepth v) :=
  ⟨127, 2415919104, { valves := [(127, { run := true, prog0 := [(0, 2415919104)] })] }, ⟨by decide, by decide, by decide, by decide, by decide⟩, by decide, by decide, by decide⟩
theorem witness_ValveWaitsAndQueues_3 : ∃ (v : Fin 128) (w : Nat) (s : State), (ValveAt s v w) ∧ (vOp w = 4) ∧ (bit (vParam w) 8 = true) ∧ (s.rxDepth v ≤ ((s.valve v).rxCross.filter (fun c => !c.val.2)).length + (s.valve v).rxReady.length) ∧ (bit (vParam w) 7 = false) :=
  ⟨127, 2415919104, { valves := [(127, { run := true, prog0 := [(0, 2415919104)], rxCross := [{ val := (1, false), at_ := 0 }, { val := (2, false), at_ := 0 }], rxReady := [3, 4] })] }, ⟨by decide, by decide, by decide, by decide, by decide⟩, by decide, by decide, by decide, by decide⟩
theorem witness_ValveWaitsAndQueues_4 : ∃ (v : Fin 128) (i : Instr) (w : Nat) (s : State), (ValveAt s v w) ∧ (vOp w = 4) ∧ (bit (vParam w) 7 = true) ∧ ((i = .take v ∧ bit (vParam w) 8 = false ∧ (s.valve v).txReady = [] ∨ i = .give v ∧ bit (vParam w) 8 = true ∧ s.rxDepth v ≤ ((s.valve v).rxCross.filter (fun c => !c.val.2)).length + (s.valve v).rxReady.length)) :=
  ⟨127, .take 127, 2281701376, { valves := [(127, { run := true, prog0 := [(0, 2281701376)] })] }, ⟨by decide, by decide, by decide, by decide, by decide⟩, by decide, by decide, .inl ⟨rfl, by decide, by decide⟩⟩
theorem witness_ValveWaitsAndQueues_4b : ∃ (v : Fin 128) (i : Instr) (w : Nat) (s : State), (ValveAt s v w) ∧ (vOp w = 4) ∧ (bit (vParam w) 7 = true) ∧ ((i = .take v ∧ bit (vParam w) 8 = false ∧ (s.valve v).txReady = [] ∨ i = .give v ∧ bit (vParam w) 8 = true ∧ s.rxDepth v ≤ ((s.valve v).rxCross.filter (fun c => !c.val.2)).length + (s.valve v).rxReady.length)) :=
  ⟨127, .give 127, 2550136832, { valves := [(127, { run := true, prog0 := [(0, 2550136832)], rxCross := [{ val := (1, false), at_ := 0 }, { val := (2, false), at_ := 0 }], rxReady := [3, 4] })] }, ⟨by decide, by decide, by decide, by decide, by decide⟩, by decide, by decide, .inr ⟨rfl, by decide, by decide⟩⟩
theorem witness_ValveWaitsAndQueues_5 : ∃ (v : Fin 128) (w : Nat) (e : Word) (es : List Word) (s : State), ((s.valve v).word = w) ∧ ((s.valve v).run = true) ∧ ((s.valve v).stalled = true) ∧ (vOp w = 4) ∧ (bit (vParam w) 8 = false) ∧ ((s.valve v).txReady = e :: es) :=
  ⟨127, 2281701376, 7, [], { valves := [(127, { run := true, prog0 := [(0, 2281701376)], stalled := true, txReady := [7] })] }, by decide, by decide, by decide, by decide, by decide, by decide⟩
theorem witness_ValveWaitsAndQueues_6 : ∃ (v : Fin 128) (w : Nat) (s : State), ((s.valve v).word = w) ∧ ((s.valve v).run = true) ∧ ((s.valve v).stalled = true) ∧ (vOp w = 4) ∧ (bit (vParam w) 8 = true) ∧ (((s.valve v).rxCross.filter (fun c => !c.val.2)).length + (s.valve v).rxReady.length < s.rxDepth v) :=
  ⟨127, 2550136832, { valves := [(127, { run := true, prog0 := [(0, 2550136832)], stalled := true })] }, by decide, by decide, by decide, by decide, by decide, by decide⟩
theorem witness_ValveWaitsAndQueues_7 : ∃ (v : Fin 128) (w : Nat) (s : State), (ValveAt s v w) ∧ (vOp w = 5) ∧ (bits (vParam w) 8 6 ∈ [0, 1]) ∧ (bit (vParam w) 5 = false) :=
  ⟨127, 2691694592, { valves := [(127, { run := true, prog0 := [(0, 2691694592)] })] }, ⟨by decide, by decide, by decide, by decide, by decide⟩, by decide, by decide, by decide⟩
theorem witness_ValveWaitsAndQueues_7b : ∃ (v : Fin 128) (w : Nat) (s : State), (ValveAt s v w) ∧ (vOp w = 5) ∧ (bits (vParam w) 8 6 ∈ [0, 1]) ∧ (bit (vParam w) 5 = false) :=
  ⟨127, 2758803456, { valves := [(127, { run := true, prog0 := [(0, 2758803456)] })] }, ⟨by decide, by decide, by decide, by decide, by decide⟩, by decide, by decide, by decide⟩
theorem witness_ValveWaitsAndQueues_8 : ∃ (v : Fin 128) (w : Nat) (s : State), ((s.valve v).word = w) ∧ ((s.valve v).run = true) ∧ ((s.valve v).stalled = true) ∧ (vOp w = 5) ∧ (bits (vParam w) 8 6 = 2) ∧ ((s.pin (v / 4) (bits (vParam w) 2 0)).cond ≠ (s.valve v).edge0) :=
  ⟨127, 2825912320, { valves := [(127, { run := true, prog0 := [(0, 2825912320)], stalled := true, edge0 := true })] }, by decide, by decide, by decide, by decide, by decide, by decide⟩
theorem witness_ValveWaitsAndQueues_9 : ∃ (v : Fin 128) (w : Nat) (s : State), ((s.valve v).word = w) ∧ ((s.valve v).run = true) ∧ ((s.valve v).stalled = true) ∧ (vOp w = 5) ∧ (bits (vParam w) 8 6 = 4) ∧ (s.pflag v (bits (vParam w) 2 0) = true) :=
  ⟨127, 2960130048, { valves := [(127, { run := true, prog0 := [(0, 2960130048)], stalled := true })], flags := [(31, 128)] }, by decide, by decide, by decide, by decide, by decide, by decide⟩
theorem witness_ValveWaitsAndQueues_12 : ∃ (v : Fin 128) (w : Nat) (s : State), ((s.valve v).word = w) ∧ ((s.valve v).run = true) ∧ ((s.valve v).stalled = true) ∧ (vOp w = 5) ∧ (s.vAwait v (bits (vParam w) 8 6) (bits (vParam w) 2 0) false (s.pflag v (bits (vParam w) 2 0)) = false) ∧ (bit (vParam w) 5 = true) ∧ ((s.valve v).k1 ≤ 1) :=
  ⟨127, 2725249024, { valves := [(127, { run := true, prog0 := [(0, 2725249024)], stalled := true, k1 := 1 })] }, by decide, by decide, by decide, by decide, by decide, by decide, by decide⟩
theorem witness_ValveWaitsAndQueues_13 : ∃ (v : Fin 128) (w : Nat) (s : State), (s.up (3 + v / 16) = true) ∧ ((s.valve v).run = true) ∧ ((s.valve v).stalled = false) ∧ ((s.valve v).word = w) ∧ (vIllegal w (s.txDepth v) (s.rxDepth v) = true) :=
  ⟨127, 3759144960, { valves := [(127, { run := true, prog0 := [(0, 3759144960)] })] }, by decide, by decide, by decide, by decide, by decide⟩
theorem witness_ValveRegistersAndSwap_0 : ∃ (v : Fin 128) (w : Word) (s : State), (bit w.toNat 1 = false) ∧ (bit w.toNat 2 = false) ∧ (bit w.toNat 16 = false) ∧ ((s.valve v).run = false) ∧ ((s.laneMode (v / 4) = false ∨ 2 ≤ v.val % 4)) :=
  ⟨126, 1, { regs := [(portBase 31, 1)] }, by decide, by decide, by decide, by decide, .inr (by decide)⟩
theorem witness_ValveRegistersAndSwap_0b : ∃ (v : Fin 128) (w : Word) (s : State), (bit w.toNat 1 = false) ∧ (bit w.toNat 2 = false) ∧ (bit w.toNat 16 = false) ∧ ((s.valve v).run = false) ∧ ((s.laneMode (v / 4) = false ∨ 2 ≤ v.val % 4)) :=
  ⟨1, 1, {}, by decide, by decide, by decide, by decide, .inl (by decide)⟩
theorem witness_ValveRegistersAndSwap_1 : ∃ (v : Fin 128) (s : State), (s.laneMode (v / 4) = true) ∧ (v.val % 4 < 2) :=
  ⟨125, { regs := [(portBase 31, 1)] }, by decide, by decide⟩
theorem witness_ValveRegistersAndSwap_2 : ∃ (w : Word), (bit w.toNat 1 = false) ∧ (bit w.toNat 2 = false) ∧ (bit w.toNat 16 = false) :=
  ⟨1, by decide, by decide, by decide⟩
theorem witness_ValveRegistersAndSwap_3 : ∃ (w : Word), (bit w.toNat 0 = false) ∧ (bit w.toNat 2 = false) ∧ (bit w.toNat 16 = false) :=
  ⟨0x3F02, by decide, by decide, by decide⟩
theorem witness_ValveRegistersAndSwap_4 : ∃ (w : Word), (bit w.toNat 0 = false) ∧ (bit w.toNat 1 = false) ∧ (bit w.toNat 16 = false) :=
  ⟨4, by decide, by decide, by decide⟩
theorem witness_ValveRegistersAndSwap_6 : ∃ (v : Fin 128) (w : Word) (s : State), ((s.valve v).run = false) ∧ (bits w.toNat 1 0 ≠ 3) ∧ (bits w.toNat 1 0 ≠ bits (s.vreg v 0x0C) 1 0) :=
  ⟨127, 2, {}, by decide, by decide, by decide⟩
theorem witness_ValveRegistersAndSwap_7 : ∃ (v : Fin 128) (i : Instr) (w : Word) (n : Fin 2) (k : Fin 64) (s : State), ((i = .qcfgWrite v w ∧ ((s.valve v).run = true ∨ bits w.toNat 1 0 = 3) ∨ i = .kWrite v n w ∧ (s.valve v).run = true ∨ i = .progWrite v k w ∧ (bit (s.vreg v 0) 3 = true ∨ (s.valve v).swap.isSome = true))) :=
  ⟨127, .qcfgWrite 127 3, 3, 0, 0, {}, .inl ⟨rfl, .inr (by decide)⟩⟩
theorem witness_ValveRegistersAndSwap_7b : ∃ (v : Fin 128) (i : Instr) (w : Word) (n : Fin 2) (k : Fin 64) (s : State), ((i = .qcfgWrite v w ∧ ((s.valve v).run = true ∨ bits w.toNat 1 0 = 3) ∨ i = .kWrite v n w ∧ (s.valve v).run = true ∨ i = .progWrite v k w ∧ (bit (s.vreg v 0) 3 = true ∨ (s.valve v).swap.isSome = true))) :=
  ⟨127, .kWrite 127 1 3, 3, 1, 0, { valves := [(127, { run := true, prog0 := [(0, 0)] })] }, .inr (.inl ⟨rfl, by decide⟩)⟩
theorem witness_ValveRegistersAndSwap_7c : ∃ (v : Fin 128) (i : Instr) (w : Word) (n : Fin 2) (k : Fin 64) (s : State), ((i = .qcfgWrite v w ∧ ((s.valve v).run = true ∨ bits w.toNat 1 0 = 3) ∨ i = .kWrite v n w ∧ (s.valve v).run = true ∨ i = .progWrite v k w ∧ (bit (s.vreg v 0) 3 = true ∨ (s.valve v).swap.isSome = true))) :=
  ⟨127, .progWrite 127 63 3, 3, 0, 63, { regs := [(valveBase 127, 8)] }, .inr (.inr ⟨rfl, .inl (by decide)⟩)⟩
theorem witness_ValveRegistersAndSwap_8 : ∃ (v : Fin 128) (s : State), (bit (s.vreg v 0) 3 = false) ∧ ((s.valve v).swap = none) :=
  ⟨127, {}, by decide, by decide⟩
theorem witness_ValveRegistersAndSwap_9 : ∃ (v : Fin 128) (s : State), ((s.valve v).run = false) :=
  ⟨127, {}, by decide⟩
theorem witness_ValveRegistersAndSwap_10 : ∃ (v : Fin 128) (i : Instr) (m : Nat) (w : Word), ((i, m) ∈ [(.swapSafe v w, 1), (.swapIdle v w, 2), (.swapForced v w, 3)]) :=
  ⟨127, .swapForced 127 0x13F03, 3, 0x13F03, by simp⟩
theorem witness_ValveRegistersAndSwap_12 : ∃ (v : Fin 128) (r : SwapReq) (s : State), ((s.valve v).swap = some r) ∧ ((s.valve v).run = false) :=
  ⟨127, { mode := 3, entry := 63, clear := true }, { valves := [(127, { swap := some { mode := 3, entry := 63, clear := true } })] }, by decide, by decide⟩
theorem witness_ValveRegistersAndSwap_13 : ∃ (v : Fin 128) (c : Cross Word) (cs : List (Cross Word)) (s : State), ((s.valve v).txCross = c :: cs) ∧ (c.at_ < s.strokes) :=
  ⟨127, { val := 7, at_ := 0 }, [], { strokes := 1, valves := [(127, { txCross := [{ val := 7, at_ := 0 }] })] }, by decide, by decide⟩
theorem witness_ValveRegistersAndSwap_14 : ∃ (v : Fin 128) (c : Cross (Word × Bool)) (cs : List (Cross (Word × Bool))) (s : State), ((s.valve v).rxCross = c :: cs) ∧ (c.at_ + 2 ≤ s.strokes) ∧ (c.val.2 = false) :=
  ⟨127, { val := (7, false), at_ := 0 }, [], { strokes := 2, valves := [(127, { rxCross := [{ val := (7, false), at_ := 0 }] })] }, by decide, by decide, by decide⟩
theorem witness_ValveRegistersAndSwap_17 : ∃ (v : Fin 128) (q : Nat) (qs : List Nat) (s : State), ((s.valve v).creditBack = q :: qs) ∧ (q + 2 ≤ s.strokes) :=
  ⟨127, 0, [], { strokes := 2, valves := [(127, { creditBack := [0] })] }, by decide, by decide⟩
theorem witness_PinsConditionedAndDriven_1 : ∃ (n : Nat) (j : Nat) (c : Nat) (s : State) (t : State), (s.pcond n j = c) ∧ ((s.pin n j).condWrite = false) ∧ ((s.pin n j).rearm = false) ∧ ((s.pin n j).stuckClr = false) ∧ ((s.pin n j).frozen = false) ∧ ((s.pin n j).forced = false) ∧ (bits c 15 8 = 0) ∧ ((s.pin n j).raw ≠ (s.pin n j).filt) ∧ ((s.pin n j).filt = (s.pin n j).cond) ∧ (max 1 (bits c 7 0) ≤ (s.pin n j).fcnt + 1) ∧ (t = s.samplePin n j) :=
  ⟨31, 7, 3, { pins := [(255, { raw := true, fcnt := 2 })], regs := [(portBase 31 + 0x720 + 28, 3)] }, _, rfl, by decide, by decide, by decide, by decide, by decide, by decide, by decide, by decide, by decide, rfl⟩
theorem witness_PinsConditionedAndDriven_2 : ∃ (n : Nat) (j : Nat) (c : Nat) (s : State) (t : State), (s.pcond n j = c) ∧ ((s.pin n j).condWrite = false) ∧ ((s.pin n j).rearm = false) ∧ ((s.pin n j).stuckClr = false) ∧ ((s.pin n j).frozen = false) ∧ ((s.pin n j).forced = false) ∧ ((s.pin n j).raw ≠ (s.pin n j).filt) ∧ ((s.pin n j).filt = (s.pin n j).cond) ∧ ((s.pin n j).fcnt + 1 < max 1 (bits c 7 0)) ∧ (t = s.samplePin n j) :=
  ⟨31, 7, 255, { pins := [(255, { raw := true, fcnt := 253 })], regs := [(portBase 31 + 0x720 + 28, 255)] }, _, rfl, by decide, by decide, by decide, by decide, by decide, by decide, by decide, by decide, rfl⟩
theorem witness_PinsConditionedAndDriven_3 : ∃ (n : Fin 32) (s : State), (s.up (3 + n.val / 4) = true) :=
  ⟨31, {}, by decide⟩
theorem witness_PinsConditionedAndDriven_4 : ∃ (n : Fin 32) (j : Fin 8) (s : State), ((s.pin n j).condWrite = false) ∧ (2 ^ (bits (s.pcond n j) 19 16 + 4) ≤ (s.pin n j).chatSamples) :=
  ⟨31, 7, { pins := [(255, { chatSamples := 524288 })], regs := [(portBase 31 + 0x720 + 28, 983040)] }, by decide, by decide⟩
theorem witness_PinsConditionedAndDriven_5 : ∃ (n : Fin 32) (j : Fin 8) (c : Nat) (s : State), (s.pcond n j = c) ∧ (0 < bits c 31 24) ∧ (bits c 31 24 * 65536 ≤ (s.pin n j).stuckCnt) ∧ ((s.pin n j).stuckFired = false) ∧ (bit c 21 = true) ∧ ((s.pin n j).condWrite = false) ∧ ((s.pin n j).stuckClr = false) :=
  ⟨31, 7, 0x01200000, { pins := [(255, { stuckCnt := 65536 })], regs := [(portBase 31 + 0x720 + 28, 18874368)] }, rfl, by decide, by decide, by decide, by decide, by decide, by decide⟩
theorem witness_PinsConditionedAndDriven_12 : ∃ (n : Fin 32) (s : State), (s.laneMode n = false) :=
  ⟨31, {}, by decide⟩
theorem witness_FramesAreFilteredStoredAndCounted_1 : ∃ (n : Fin 32) (f : RxFrame) (bs : List Nat) (s : State), (Receives s n f) ∧ (s.ringPair n = none) ∧ (bs = f.bytes.map (·.toNat)) ∧ (bs.length ≤ f.kept) ∧ (18 ≤ bs.length) ∧ (netAt bs 12 2 ≠ 0x8808) ∧ (s.accepts n bs = false) :=
  ⟨31, { bytes := List.replicate 64 0, er := [], kept := 64, early := none, stepped := false, overlap := false, tap := 0, egressTap := 0, egressEdges := 0 }, _, { regs := [(194560, 5)], host := { pstate := [(31, 2)] } }, receives_of (by decide +kernel), by decide +kernel, rfl, by decide +kernel, by decide +kernel, by decide +kernel, by decide +kernel⟩
theorem witness_FramesAreFilteredStoredAndCounted_2 : ∃ (n : Fin 32) (f : RxFrame) (bs : List Nat) (h : Nat) (cs : List Nat) (s : State) (u : State), (Receives s n f) ∧ (s.ringPair n = none) ∧ (bs = f.bytes.map (·.toNat)) ∧ (bs.length ≤ f.kept) ∧ (f.er = []) ∧ (64 ≤ bs.length) ∧ (bs.length ≤ s.maxLen n) ∧ (bs.length ≤ 16000) ∧ (fcsGood bs = true) ∧ (netAt bs 12 2 ≠ 0x8808) ∧ (s.accepts n bs = true) ∧ (bit (s.rxBind n) 7 = true) ∧ (tfind s.pump.rxResv n = some h) ∧ (s.takeCells (max 1 (ceilDiv bs.length 256) - 1) = some (cs, u)) :=
  ⟨31, { bytes := List.replicate 60 0 ++ [8, 137, 18, 4], er := [], kept := 64, early := none, stepped := false, overlap := false, tap := 0, egressTap := 0, egressEdges := 0 }, _, 32767, [], { regs := [(194560, 5), (194568, 1), (0x70800 + 16 * 31, 128)], host := { pstate := [(31, 2)] }, pump := { rxResv := [(31, 32767)] } }, _, receives_of (by decide +kernel), by decide +kernel, rfl, by decide +kernel, by decide +kernel, by decide +kernel, by decide +kernel, by decide +kernel, by decide +kernel, by decide +kernel, by decide +kernel, by decide +kernel, by decide +kernel, rfl⟩
theorem witness_FramesAreFilteredStoredAndCounted_3 : ∃ (n : Fin 32) (f : RxFrame) (bs : List Nat) (h : Nat) (k : Nat) (cs : List Nat) (s : State) (u : State), (Receives s n f) ∧ (s.ringPair n = none) ∧ (bs = f.bytes.map (·.toNat)) ∧ (min bs.length 16000 ≤ f.kept) ∧ (f.er = []) ∧ (18 ≤ bs.length) ∧ (netAt bs 12 2 ≠ 0x8808) ∧ (s.accepts n bs = true) ∧ (k = (if 16000 < bs.length then 6 else if s.maxLen n < bs.length then 5 else if bs.length < 64 then 3 else 2)) ∧ ((k = 2 → fcsGood bs = false)) ∧ (s.deliverBad n = false) ∧ (bit (s.rxBind n) 7 = true) ∧ (tfind s.pump.rxResv n = some h) ∧ (s.takeCells (max 1 (ceilDiv (min bs.length 16000) 256) - 1) = some (cs, u)) :=
  ⟨31, { bytes := List.replicate 64 0, er := [], kept := 64, early := none, stepped := false, overlap := false, tap := 0, egressTap := 0, egressEdges := 0 }, _, 32767, 2, [], { regs := [(194560, 5), (194568, 1), (0x70800 + 16 * 31, 128)], host := { pstate := [(31, 2)] }, pump := { rxResv := [(31, 32767)] } }, _, receives_of (by decide +kernel), by decide +kernel, rfl, by decide +kernel, by decide +kernel, by decide +kernel, by decide +kernel, by decide +kernel, by decide +kernel, by decide +kernel, by decide +kernel, by decide +kernel, by decide +kernel, rfl⟩
theorem witness_FramesAreFilteredStoredAndCounted_4 : ∃ (n : Fin 32) (f : RxFrame) (bs : List Nat) (s : State), (Receives s n f) ∧ (s.ringPair n = none) ∧ (bs = f.bytes.map (·.toNat)) ∧ (18 ≤ bs.length) ∧ (netAt bs 12 2 ≠ 0x8808) ∧ (s.accepts n bs = true) ∧ (tfind s.pump.rxResv n = none) :=
  ⟨31, { bytes := List.replicate 64 0, er := [], kept := 64, early := none, stepped := false, overlap := false, tap := 0, egressTap := 0, egressEdges := 0 }, _, { regs := [(194560, 5), (194568, 1)], host := { pstate := [(31, 2)] } }, receives_of (by decide +kernel), by decide +kernel, rfl, by decide +kernel, by decide +kernel, by decide +kernel, by decide +kernel⟩
theorem witness_FramesAreFilteredStoredAndCounted_5 : ∃ (n : Fin 32) (f : RxFrame) (bs : List Nat) (s : State), (Receives s n f) ∧ (s.ringPair n = none) ∧ (bs = f.bytes.map (·.toNat)) ∧ (netAt bs 12 2 = 0x8808) ∧ (netAt bs 14 2 = 1) ∧ (fcsGood bs = true) ∧ (64 ≤ bs.length) ∧ (bs.length ≤ s.maxLen n) ∧ ((daOf bs = 0x010000C28001 ∨ s.ownAddr n (daOf bs) = true)) :=
  ⟨31, { bytes := [1, 0x80, 0xC2, 0, 0, 1, 0, 0, 0, 0, 0, 0, 0x88, 8, 0, 1] ++ List.replicate 44 0 ++ [38, 107, 174, 10], er := [], kept := 64, early := none, stepped := false, overlap := false, tap := 0, egressTap := 0, egressEdges := 0 }, _, { regs := [(194560, 5)], host := { pstate := [(31, 2)] } }, receives_of (by decide +kernel), by decide +kernel, rfl, by decide +kernel, by decide +kernel, by decide +kernel, by decide +kernel, by decide +kernel, .inl (by decide +kernel)⟩
theorem witness_FramesForwardedRecordedAndPaused_6 : ∃ (n : Fin 32) (e : FrameEnd) (es : List FrameEnd) (lb : Nat) (base : Nat) (size : Nat) (tl : Nat) (s : State), ((s.port n).ends = e :: es) ∧ ((∃ q, e.at_ = some q ∧ q + 3 ≤ s.strokes)) ∧ (e.deliver = true) ∧ (e.defer = false) ∧ (bit (s.rxBind n) 7 = true) ∧ (lb = bits (s.rxBind n) 2 0) ∧ ((s.lb lb).shed = false) ∧ ((base, size) = ringAt (s.reg (0x70804 + 16 * n.val))) ∧ (tl = s.rxTailOf n) ∧ ((tl % 512 + 512 - s.rxHeadOf n) % 512 ≠ size) :=
  ⟨31, { head := 32767, status := 64, ts := 0, epoch := 0, tag := 0, deliver := true, defer := false, at_ := some 0 }, [], 7, 0, 256, 0, { strokes := 3, regs := [(0x70800 + 16 * 31, 135)], ports := [(31, { ends := [{ head := 32767, status := 64, ts := 0, epoch := 0, tag := 0, deliver := true, defer := false, at_ := some 0 }] })] }, by decide +kernel, ⟨0, by decide +kernel⟩, by decide +kernel, by decide +kernel, by decide +kernel, by decide +kernel, by decide +kernel, by decide +kernel, by decide +kernel, by decide +kernel⟩
theorem witness_FramesForwardedRecordedAndPaused_7 : ∃ (n : Fin 32) (e : FrameEnd) (es : List FrameEnd) (base : Nat) (size : Nat) (tl : Nat) (s : State), ((s.port n).ends = e :: es) ∧ ((∃ q, e.at_ = some q ∧ q + 3 ≤ s.strokes)) ∧ (e.deliver = true) ∧ (e.defer = false) ∧ (bit (s.rxBind n) 7 = true) ∧ ((base, size) = ringAt (s.reg (0x70804 + 16 * n.val))) ∧ (tl = s.rxTailOf n) ∧ (((tl % 512 + 512 - s.rxHeadOf n) % 512 = size ∨ (s.lb (bits (s.rxBind n) 2 0)).shed = true)) :=
  ⟨31, { head := 32767, status := 64, ts := 0, epoch := 0, tag := 0, deliver := true, defer := false, at_ := some 0 }, [], 0, 256, 256, { strokes := 3, regs := [(0x70800 + 16 * 31, 128)], ports := [(31, { ends := [{ head := 32767, status := 64, ts := 0, epoch := 0, tag := 0, deliver := true, defer := false, at_ := some 0 }] })], pump := { rxTail := [(31, 256)] } }, by decide +kernel, ⟨0, by decide +kernel⟩, by decide +kernel, by decide +kernel, by decide +kernel, by decide +kernel, by decide +kernel, .inl (by decide +kernel)⟩
theorem witness_FramesForwardedRecordedAndPaused_7b : ∃ (n : Fin 32) (e : FrameEnd) (es : List FrameEnd) (base : Nat) (size : Nat) (tl : Nat) (s : State), ((s.port n).ends = e :: es) ∧ ((∃ q, e.at_ = some q ∧ q + 3 ≤ s.strokes)) ∧ (e.deliver = true) ∧ (e.defer = false) ∧ (bit (s.rxBind n) 7 = true) ∧ ((base, size) = ringAt (s.reg (0x70804 + 16 * n.val))) ∧ (tl = s.rxTailOf n) ∧ (((tl % 512 + 512 - s.rxHeadOf n) % 512 = size ∨ (s.lb (bits (s.rxBind n) 2 0)).shed = true)) :=
  ⟨31, { head := 32767, status := 64, ts := 0, epoch := 0, tag := 0, deliver := true, defer := false, at_ := some 0 }, [], 0, 256, 0, { strokes := 3, regs := [(0x70800 + 16 * 31, 135)], ports := [(31, { ends := [{ head := 32767, status := 64, ts := 0, epoch := 0, tag := 0, deliver := true, defer := false, at_ := some 0 }] })], lbs := [(7, { shed := true })] }, by decide +kernel, ⟨0, by decide +kernel⟩, by decide +kernel, by decide +kernel, by decide +kernel, by decide +kernel, by decide +kernel, .inr (by decide +kernel)⟩
theorem witness_FramesForwardedRecordedAndPaused_8 : ∃ (n : Fin 32) (e : FrameEnd) (es : List FrameEnd) (s : State), ((s.port n).ends = e :: es) ∧ ((∃ q, e.at_ = some q ∧ q + 3 ≤ s.strokes)) ∧ ((e.deliver = false ∨ bit (s.rxBind n) 7 = false)) ∧ (e.defer = false) :=
  ⟨31, { head := 32767, status := 64, ts := 0, epoch := 0, tag := 0, deliver := false, defer := false, at_ := some 0 }, [], { strokes := 3, regs := [(0x70800 + 16 * 31, 128)], ports := [(31, { ends := [{ head := 32767, status := 64, ts := 0, epoch := 0, tag := 0, deliver := false, defer := false, at_ := some 0 }] })] }, by decide +kernel, ⟨0, by decide +kernel⟩, .inl rfl, by decide +kernel⟩
theorem witness_FramesForwardedRecordedAndPaused_8b : ∃ (n : Fin 32) (e : FrameEnd) (es : List FrameEnd) (s : State), ((s.port n).ends = e :: es) ∧ ((∃ q, e.at_ = some q ∧ q + 3 ≤ s.strokes)) ∧ ((e.deliver = false ∨ bit (s.rxBind n) 7 = false)) ∧ (e.defer = false) :=
  ⟨31, { head := 32767, status := 64, ts := 0, epoch := 0, tag := 0, deliver := true, defer := false, at_ := some 0 }, [], { strokes := 3, regs := [(0x70800 + 16 * 31, 0)], ports := [(31, { ends := [{ head := 32767, status := 64, ts := 0, epoch := 0, tag := 0, deliver := true, defer := false, at_ := some 0 }] })] }, by decide +kernel, ⟨0, by decide +kernel⟩, .inr (by decide +kernel), by decide +kernel⟩
theorem witness_FramesTransmitted_6 : ∃ (n : Fin 32) (c : TxCur) (h : Nat) (f : Nat) (v : Nat) (b : Bool) (s : State), ((s.port n).tx = some c) ∧ (c.item = .deferred h f v b) ∧ ((s.port n).txTill.getD 0 ≤ s.tb.elapsed) :=
  ⟨31, { item := .deferred 32767 30 0 false, bytes := [], bad := false, err := 0, ts := none, tsLost := false, seq := 0 }, 32767, 30, 0, false, { ports := [(31, { tx := some { item := .deferred 32767 30 0 false, bytes := [], bad := false, err := 0, ts := none, tsLost := false, seq := 0 } })] }, by decide +kernel, by decide +kernel, by decide +kernel⟩
theorem witness_FramesTransmitted_7 : ∃ (n : Fin 32) (c : TxCur) (k : Nat) (m : Move) (s : State), ((s.port n).tx = some c) ∧ (c.item = .move k) ∧ (s.move k = some m) ∧ ((s.port n).txTill.getD 0 ≤ s.tb.elapsed) :=
  ⟨31, { item := .move 511, bytes := [], bad := false, err := 0, ts := none, tsLost := false, seq := 0 }, 511, { slot := 511, by_ := .thread 0 0 0, w0 := 3, src := 0, dst := 0, aux := 0, issued := 0, phase := .queued, head := some 32767, ch := some 0 }, { regs := [(194560, 5)], host := { pstate := [(31, 2)] }, pump := { cells := [(32767, { used := true, head := true, last := true, len := 60, tgen := true })], moves := [{ slot := 511, by_ := .thread 0 0 0, w0 := 3, src := 0, dst := 0, aux := 0, issued := 0, phase := .queued, head := some 32767, ch := some 0 }] }, ports := [(31, { tx := some { item := .move 511, bytes := [], bad := false, err := 0, ts := none, tsLost := false, seq := 0 } })] }, by decide +kernel, by decide +kernel, by decide +kernel, by decide +kernel⟩
theorem witness_FramesTransmitted_8 : ∃ (k : Fin 512) (m : Move) (at_ : Nat) (s : State), (s.move k = some m) ∧ (m.phase = .launch) ∧ (m.launch = some at_) :=
  ⟨511, { slot := 511, by_ := .thread 0 0 0, w0 := 3, src := 0, dst := 0, aux := 0, issued := 0, phase := .launch, head := some 32767, ch := some 0, launch := some 0 }, 0, { regs := [(194560, 5)], host := { pstate := [(31, 2)] }, pump := { cells := [(32767, { used := true, head := true, last := true, len := 60, tgen := true })], moves := [{ slot := 511, by_ := .thread 0 0 0, w0 := 3, src := 0, dst := 0, aux := 0, issued := 0, phase := .launch, head := some 32767, ch := some 0, launch := some 0 }] }, ports := [(31, { queues := [(7, [.move 511])] })] }, by decide +kernel, by decide +kernel, by decide +kernel⟩
theorem witness_FramesTransmitted_9 : ∃ (k : Fin 512) (m : HMove) (at_ : Nat) (s : State), (s.move k = none) ∧ (s.hmove k = some m) ∧ (m.phase = .launch) ∧ (m.launch = some at_) :=
  ⟨511, { slot := 511, kind := .send, r := 1, idx := 0, irq := false, ch := 0, len := 60, tag := 0, addr := 0, launch := some 0, head := some 5, phase := .launch }, 0, { host := { moves := [{ slot := 511, kind := .send, r := 1, idx := 0, irq := false, ch := 0, len := 60, tag := 0, addr := 0, launch := some 0, head := some 5, phase := .launch }] } }, by decide +kernel, by decide +kernel, by decide +kernel, by decide +kernel⟩
theorem witness_GateScheduleAndPortRegisters_0 : ∃ (run : List Nat) (ns : Nat), (ns < (run.map gateDur).sum) :=
  ⟨[64], 63, by decide +kernel⟩
theorem witness_GateScheduleAndPortRegisters_3 : ∃ (n : Fin 32) (w : Nat) (s : State), (s.gateDue n = true) ∧ (w = s.preg n 0x020) :=
  ⟨31, _, { regs := [(194592, 0x00010001), (194816, 64)], tb := { gcopies := [(7, { time := 2000 * 2 ^ 48 })], elapsed := 2000 * 2 ^ 26 }, ports := [(31, { gateHeld := some 0 })] }, by decide +kernel, rfl⟩
theorem witness_GateScheduleAndPortRegisters_5 : ∃ (n : Fin 32) (e : DupEntry) (es : List DupEntry) (s : State), ((s.port n).dup = e :: es) :=
  ⟨31, { key := 0, dupFwd := true, pending := false, made := 0 }, [], { ports := [(31, { dup := [{ key := 0, dupFwd := true, pending := false, made := 0 }] })] }, by decide +kernel⟩
theorem witness_GateScheduleAndPortRegisters_8 : ∃ (n : Fin 32) (w : Word) (s : State), ((s.pstate n ≠ 0 ∨ bits w.toNat 2 1 = 3)) :=
  ⟨31, 0, { host := { pstate := [(31, 1)] } }, .inl (by decide +kernel)⟩
theorem witness_GateScheduleAndPortRegisters_8b : ∃ (n : Fin 32) (w : Word) (s : State), ((s.pstate n ≠ 0 ∨ bits w.toNat 2 1 = 3)) :=
  ⟨31, 6, {}, .inr (by decide +kernel)⟩
theorem witness_GateScheduleAndPortRegisters_9 : ∃ (n : Fin 32) (w : Word) (s : State), (s.pstate n = 0) ∧ (bits w.toNat 2 1 ≠ 3) :=
  ⟨31, 0xFF05, {}, by decide +kernel, by decide +kernel⟩
theorem witness_TimebaseRateStepsAndSlews_0 : ∃ (k : Fin 9) (off : Nat), (off = (if k.val = 0 then 0x60000 else 0x61800 + 16 * (k.val - 1))) :=
  ⟨8, _, rfl⟩
theorem witness_TimebaseRateStepsAndSlews_2 : ∃ (w : Word) (a : Int) (s : State), (a = sgn 40 (s.reg 0x60004 + 2 ^ 32 * bits w.toNat 7 0)) :=
  ⟨0x80, _, {}, rfl⟩
theorem witness_TimebaseRateStepsAndSlews_3 : ∃ (a : Int) (s : State), (s.tb.rateArm = some a) :=
  ⟨-281474976710, { tb := { rateArm := some (-281474976710) } }, by decide +kernel⟩
theorem witness_TimebaseRateStepsAndSlews_4 : ∃ (w : Word) (i : Instr) (m : Nat) (d : Int) (s : State), ((i, m) ∈ [(.adjAuto w, 0), (.adjStep w, 1), (.adjSlew w, 2)]) ∧ (s.tb.req = none) ∧ (s.reg 0x60028 < 1000000000) ∧ (d = sgn 64 (s.reg 0x60020 + 2 ^ 32 * s.reg 0x60024) * (1000000000 * 2 ^ 48) + ((s.reg 0x60028 * 2 ^ 48 + bits w.toNat 15 0 * 2 ^ 32 : Nat) : Int)) :=
  ⟨0xFFFF, .adjAuto 0xFFFF, 0, _, { regs := [(0x60028, 999999999)] }, by simp, by decide +kernel, by decide +kernel, rfl⟩
theorem witness_TimebaseRateStepsAndSlews_4b : ∃ (w : Word) (i : Instr) (m : Nat) (d : Int) (s : State), ((i, m) ∈ [(.adjAuto w, 0), (.adjStep w, 1), (.adjSlew w, 2)]) ∧ (s.tb.req = none) ∧ (s.reg 0x60028 < 1000000000) ∧ (d = sgn 64 (s.reg 0x60020 + 2 ^ 32 * s.reg 0x60024) * (1000000000 * 2 ^ 48) + ((s.reg 0x60028 * 2 ^ 48 + bits w.toNat 15 0 * 2 ^ 32 : Nat) : Int)) :=
  ⟨0xFFFF, .adjStep 0xFFFF, 1, _, { regs := [(0x60028, 999999999)] }, by simp, by decide +kernel, by decide +kernel, rfl⟩
theorem witness_TimebaseRateStepsAndSlews_4c : ∃ (w : Word) (i : Instr) (m : Nat) (d : Int) (s : State), ((i, m) ∈ [(.adjAuto w, 0), (.adjStep w, 1), (.adjSlew w, 2)]) ∧ (s.tb.req = none) ∧ (s.reg 0x60028 < 1000000000) ∧ (d = sgn 64 (s.reg 0x60020 + 2 ^ 32 * s.reg 0x60024) * (1000000000 * 2 ^ 48) + ((s.reg 0x60028 * 2 ^ 48 + bits w.toNat 15 0 * 2 ^ 32 : Nat) : Int)) :=
  ⟨0xFFFF, .adjSlew 0xFFFF, 2, _, { regs := [(0x60028, 999999999)] }, by simp, by decide +kernel, by decide +kernel, rfl⟩
theorem witness_TimebaseRateStepsAndSlews_5 : ∃ (s : State), (s.tb.req = none) ∧ (s.reg 0x60028 < 1000000000) :=
  ⟨{ regs := [(0x60028, 999999999)] }, by decide +kernel, by decide +kernel⟩
theorem witness_TimebaseRateStepsAndSlews_6 : ∃ (w : Word) (i : Instr) (s : State), (i ∈ [.adjAuto w, .adjStep w, .adjSlew w, .adjSet w]) ∧ (s.tb.req.isSome = true) :=
  ⟨0, .adjSet 0, { tb := { req := some (.set 0) } }, by simp, by decide +kernel⟩
theorem witness_TimebaseRateStepsAndSlews_7 : ∃ (d : Int) (s : State), (s.tb.req = some (.step d)) ∧ (s.tclkRuns = true) :=
  ⟨-1, { tb := { req := some (.step (-1)) } }, by decide +kernel, by decide +kernel⟩
theorem witness_TimebaseRateStepsAndSlews_8 : ∃ (v : Nat) (s : State), (s.tb.req = some (.set v)) ∧ (s.tclkRuns = true) ∧ (v < 2 ^ 64 * (1000000000 * 2 ^ 48)) ∧ (v ≠ s.tclkEdge.tb.now) :=
  ⟨7, { tb := { req := some (.set 7) } }, by decide +kernel, by decide +kernel, by decide +kernel, by decide +kernel⟩
theorem witness_TimebaseRateStepsAndSlews_10 : ∃ (d : Int) (s : State), (s.tb.req = some (.slew d)) :=
  ⟨-5, { tb := { req := some (.slew (-5)) } }, by decide +kernel⟩
theorem witness_TimebaseRateStepsAndSlews_11 : ∃ (x : Int) (s : State), (s.tclkRuns = true) ∧ (s.tb.slewing = true) ∧ (x = Int.tdiv ((s.inc : Int) * s.tb.slw) (2 ^ 26)) ∧ ((s.tb.remain = x ∨ s.tb.remain.natAbs < x.natAbs)) :=
  ⟨_, { tb := { slewing := true } }, by decide +kernel, by decide +kernel, rfl, .inl (by decide +kernel)⟩
theorem witness_TimebaseRateStepsAndSlews_11b : ∃ (x : Int) (s : State), (s.tclkRuns = true) ∧ (s.tb.slewing = true) ∧ (x = Int.tdiv ((s.inc : Int) * s.tb.slw) (2 ^ 26)) ∧ ((s.tb.remain = x ∨ s.tb.remain.natAbs < x.natAbs)) :=
  ⟨_, { regs := [(0x60000, 0x40000000)], tb := { slewing := true, slw := 2 ^ 40, remain := 1 } }, by decide +kernel, by decide +kernel, rfl, .inr (by decide +kernel)⟩
theorem witness_TimebaseRateStepsAndSlews_13 : ∃ (p : Fin 8) (s : State), ((s.hsnap p).req = true) :=
  ⟨7, { tb := { snaps := [(7, { req := true })] } }, by decide +kernel⟩
theorem witness_InterpolatorsPpsAndCycleKeeper_0 : ∃ (g : Fin 8) (taps : Fin 256) (s : State), (8192 ≤ (s.gcal g).captures) ∧ (0 < taps.val) :=
  ⟨7, 1, { tb := { gcals := [(7, { captures := 8192 })] } }, by decide +kernel, by decide +kernel⟩
theorem witness_InterpolatorsPpsAndCycleKeeper_3 : ∃ (sub : Fin 256) (l : Bool) (s : State), (l ≠ s.tb.ppsIn) ∧ (bit (s.reg 0x60300) 1 = true) ∧ (l ≠ bit (s.reg 0x60300) 2) ∧ ((∀ d, s.tb.ppsSince = some d → (500000000 * 2 ^ 48 : Nat) ≤ d + (sub.val * 2 ^ 44 : Nat))) :=
  ⟨255, true, { regs := [(0x60300, 2)] }, by decide +kernel, by decide +kernel, by decide +kernel, by intro d h; cases h⟩
theorem witness_InterpolatorsPpsAndCycleKeeper_4 : ∃ (sub : Fin 256) (l : Bool) (s : State), (l ≠ s.tb.ppsIn) ∧ ((bit (s.reg 0x60300) 1 = false ∨ l = bit (s.reg 0x60300) 2 ∨ ∃ d, s.tb.ppsSince = some d ∧ d + (sub.val * 2 ^ 44 : Nat) < (500000000 * 2 ^ 48 : Nat))) :=
  ⟨255, true, {}, by decide +kernel, .inl (by decide +kernel)⟩
theorem witness_InterpolatorsPpsAndCycleKeeper_4b : ∃ (sub : Fin 256) (l : Bool) (s : State), (l ≠ s.tb.ppsIn) ∧ ((bit (s.reg 0x60300) 1 = false ∨ l = bit (s.reg 0x60300) 2 ∨ ∃ d, s.tb.ppsSince = some d ∧ d + (sub.val * 2 ^ 44 : Nat) < (500000000 * 2 ^ 48 : Nat))) :=
  ⟨255, true, { regs := [(0x60300, 6)] }, by decide +kernel, .inr (.inl (by decide +kernel))⟩
theorem witness_InterpolatorsPpsAndCycleKeeper_4c : ∃ (sub : Fin 256) (l : Bool) (s : State), (l ≠ s.tb.ppsIn) ∧ ((bit (s.reg 0x60300) 1 = false ∨ l = bit (s.reg 0x60300) 2 ∨ ∃ d, s.tb.ppsSince = some d ∧ d + (sub.val * 2 ^ 44 : Nat) < (500000000 * 2 ^ 48 : Nat))) :=
  ⟨255, true, { regs := [(0x60300, 2)], tb := { ppsSince := some 0 } }, by decide +kernel, .inr (.inr ⟨0, by decide +kernel⟩)⟩
theorem witness_InterpolatorsPpsAndCycleKeeper_5 : ∃ (s : State), (s.tb.ppsPoint = true) :=
  ⟨{ tb := { ppsPoint := true } }, by decide +kernel⟩
theorem witness_InterpolatorsPpsAndCycleKeeper_6 : ∃ (s : State), (s.tb.ppsOut = true) :=
  ⟨{ tb := { ppsOut := true } }, by decide +kernel⟩
theorem witness_InterpolatorsPpsAndCycleKeeper_7 : ∃ (i : Fin 128) (s : State), (bit (s.ckCfg i) 0 = false) ∧ (0 < s.ckP i) :=
  ⟨127, { regs := [(0x64004 + 32 * 127, 1)] }, by decide +kernel, by decide +kernel⟩
theorem witness_InterpolatorsPpsAndCycleKeeper_9 : ∃ (i : Fin 128) (p : Nat) (lag : Nat) (c : Nat) (due : Int) (k : Int) (s : State), ((s.ck i).next = some (due, k)) ∧ ((s.ck i).busy = false) ∧ (due ≤ (s.tb.now : Int)) ∧ ((s.ck i).doneEdge < s.tb.edges) ∧ (p = s.reg (0x64004 + 32 * i.val)) ∧ (lag = (if (s.ck i).realigned then 0 else ((s.tb.now : Int) - ((s.ck i).base + k * (p * 2 ^ 48 : Nat))).toNat)) ∧ (lag ≤ bits (s.reg (0x64000 + 32 * i.val)) 11 8 * p * 2 ^ 48) ∧ (c = min lag (p * bits (s.reg (0x64000 + 32 * i.val)) 7 4 / 16 * 2 ^ 48)) :=
  ⟨127, 1000, _, _, 1000 * 2 ^ 48, 1, { regs := [(0x64000 + 32 * 127, 273), (0x64004 + 32 * 127, 1000)], tb := { now := 2000 * 2 ^ 48, edges := 1, cks := [(127, { next := some (1000 * 2 ^ 48, 1) })] } }, by decide +kernel, by decide +kernel, by decide +kernel, by decide +kernel, by decide +kernel, rfl, by decide +kernel, rfl⟩
theorem witness_InterpolatorsPpsAndCycleKeeper_10 : ∃ (i : Fin 128) (p : Nat) (lag : Nat) (due : Int) (k : Int) (j : Int) (s : State), ((s.ck i).next = some (due, k)) ∧ ((s.ck i).busy = false) ∧ (due ≤ (s.tb.now : Int)) ∧ ((s.ck i).doneEdge < s.tb.edges) ∧ (p = s.reg (0x64004 + 32 * i.val)) ∧ ((s.ck i).realigned = false) ∧ (lag = ((s.tb.now : Int) - ((s.ck i).base + k * (p * 2 ^ 48 : Nat))).toNat) ∧ (bits (s.reg (0x64000 + 32 * i.val)) 11 8 * p * 2 ^ 48 < lag) ∧ (0 < p) ∧ ((s.ck i).workEnd ≤ (s.ck i).base + j * (p * 2 ^ 48 : Nat)) ∧ ((s.ck i).base + (j - 1) * (p * 2 ^ 48 : Nat) < (s.ck i).workEnd) :=
  ⟨127, 1000, _, 1000 * 2 ^ 48, 1, 0, { regs := [(0x64000 + 32 * 127, 273), (0x64004 + 32 * 127, 1000)], tb := { now := 2000 * 2 ^ 48 + 1, edges := 1, cks := [(127, { next := some (1000 * 2 ^ 48, 1) })] } }, by decide +kernel, by decide +kernel, by decide +kernel, by decide +kernel, by decide +kernel, by decide +kernel, rfl, by decide +kernel, by decide +kernel, by decide +kernel, by decide +kernel⟩
theorem witness_InterpolatorsPpsAndCycleKeeper_11 : ∃ (w : Word) (i : Nat) (s : State), (i = bits w.toNat 6 0) ∧ ((s.ck i).busy = true) :=
  ⟨127, 127, { tb := { cks := [(127, { busy := true })] } }, by decide +kernel, by decide +kernel⟩
theorem witness_InterpolatorsPpsAndCycleKeeper_12 : ∃ (w : Word) (i : Nat) (s : State), (i = bits w.toNat 6 0) ∧ ((s.ck i).busy = false) :=
  ⟨127, 127, {}, by decide +kernel, by decide +kernel⟩
theorem witness_ActionSchedule_0 : ∃ (e : Fin 4096) (n : SchedEntry) (s : State), (s.sched e = some n) ∧ (n.arrived = false) ∧ (n.epoch = s.tb.epoch) :=
  ⟨4095, { time := 0, epoch := 0, act := 2147483648, lb := 7, arrived := false, rebased := false, skipped := false, staleEpoch := false, late := false, lateBy := none, dueEdge := none, cancel := none }, { tb := { sched := [(4095, { time := 0, epoch := 0, act := 2147483648, lb := 7, arrived := false, rebased := false, skipped := false, staleEpoch := false, late := false, lateBy := none, dueEdge := none, cancel := none })] } }, by decide +kernel, by decide +kernel, by decide +kernel⟩
theorem witness_ActionSchedule_1 : ∃ (e : Fin 4096) (n : SchedEntry) (k : Nat) (v : Nat) (s : State), (s.sched e = some n) ∧ (n.arrived = false) ∧ (k = (s.tb.epoch + 256 - n.epoch) % 256) ∧ (k ≠ 0) ∧ (k ≤ 16) ∧ (bit n.act.toNat 9 = true) ∧ (v = shiftT n.time (((List.range k).map (fun i => (tget ((0 : Int), 0) s.tb.log ((n.epoch + 1 + i) % 16)).1)).sum)) :=
  ⟨4095, { time := 0, epoch := 0, act := 512, lb := 7, arrived := false, rebased := false, skipped := false, staleEpoch := false, late := false, lateBy := none, dueEdge := none, cancel := none }, 16, _, { tb := { epoch := 16, sched := [(4095, { time := 0, epoch := 0, act := 512, lb := 7, arrived := false, rebased := false, skipped := false, staleEpoch := false, late := false, lateBy := none, dueEdge := none, cancel := none })] } }, by decide +kernel, by decide +kernel, by decide +kernel, by decide +kernel, by decide +kernel, by decide +kernel, rfl⟩
theorem witness_ActionSchedule_2 : ∃ (e : Fin 4096) (n : SchedEntry) (k : Nat) (s : State), (s.sched e = some n) ∧ (n.arrived = false) ∧ (k = (s.tb.epoch + 256 - n.epoch) % 256) ∧ (k ≠ 0) ∧ ((bit n.act.toNat 9 = false ∨ 16 < k)) :=
  ⟨4095, { time := 0, epoch := 0, act := 512, lb := 7, arrived := false, rebased := false, skipped := false, staleEpoch := false, late := false, lateBy := none, dueEdge := none, cancel := none }, 17, { tb := { epoch := 17, sched := [(4095, { time := 0, epoch := 0, act := 512, lb := 7, arrived := false, rebased := false, skipped := false, staleEpoch := false, late := false, lateBy := none, dueEdge := none, cancel := none })] } }, by decide +kernel, by decide +kernel, by decide +kernel, by decide +kernel, .inr (by decide +kernel)⟩
theorem witness_ActionSchedule_2b : ∃ (e : Fin 4096) (n : SchedEntry) (k : Nat) (s : State), (s.sched e = some n) ∧ (n.arrived = false) ∧ (k = (s.tb.epoch + 256 - n.epoch) % 256) ∧ (k ≠ 0) ∧ ((bit n.act.toNat 9 = false ∨ 16 < k)) :=
  ⟨4095, { time := 0, epoch := 0, act := 0, lb := 7, arrived := false, rebased := false, skipped := false, staleEpoch := false, late := false, lateBy := none, dueEdge := none, cancel := none }, 1, { tb := { epoch := 1, sched := [(4095, { time := 0, epoch := 0, act := 0, lb := 7, arrived := false, rebased := false, skipped := false, staleEpoch := false, late := false, lateBy := none, dueEdge := none, cancel := none })] } }, by decide +kernel, by decide +kernel, by decide +kernel, by decide +kernel, .inl (by decide +kernel)⟩
theorem witness_ActionSchedule_4 : ∃ (e : Fin 4096) (n : SchedEntry) (s : State), (s.sched e = some n) ∧ (n.arrived = true) ∧ ((s.lb n.lb).shed = false) ∧ (n.late = false) ∧ (n.time ≤ s.tb.now) ∧ (n.skipped = false) ∧ (n.staleEpoch = false) ∧ (bit n.act.toNat 10 = false) ∧ (s.schedFirst = some e.val) ∧ (s.tb.fired < 4) :=
  ⟨4095, { time := 0, epoch := 0, act := 2147483648, lb := 7, arrived := true, rebased := false, skipped := false, staleEpoch := false, late := false, lateBy := none, dueEdge := none, cancel := none }, { tb := { sched := [(4095, { time := 0, epoch := 0, act := 2147483648, lb := 7, arrived := true, rebased := false, skipped := false, staleEpoch := false, late := false, lateBy := none, dueEdge := none, cancel := none })], fired := 3 } }, by decide +kernel, by decide +kernel, by decide +kernel, by decide +kernel, by decide +kernel, by decide +kernel, by decide +kernel, by decide +kernel, by decide +kernel, by decide +kernel⟩
theorem witness_ActionSchedule_5 : ∃ (e : Fin 4096) (n : SchedEntry) (l : Nat) (s : State), (s.sched e = some n) ∧ (n.arrived = true) ∧ ((s.lb n.lb).shed = false) ∧ (n.late = true) ∧ (n.lateBy = some l) ∧ (bits (s.reg 0x60010) 23 0 < l) ∧ (bit n.act.toNat 8 = false) ∧ (((s.repRing n.lb).tail + 32 - (s.repRing n.lb).head) % 32 ≠ 16) :=
  ⟨4095, { time := 0, epoch := 0, act := 2147483648, lb := 7, arrived := true, rebased := false, skipped := false, staleEpoch := false, late := true, lateBy := some 0xFFFFFF, dueEdge := none, cancel := none }, 0xFFFFFF, { regs := [(0x60010, 0xFFFFFE)], tb := { sched := [(4095, { time := 0, epoch := 0, act := 2147483648, lb := 7, arrived := true, rebased := false, skipped := false, staleEpoch := false, late := true, lateBy := some 0xFFFFFF, dueEdge := none, cancel := none })] } }, by decide +kernel, by decide +kernel, by decide +kernel, by decide +kernel, by decide +kernel, by decide +kernel, by decide +kernel, by decide +kernel⟩
theorem witness_ActionSchedule_7 : ∃ (e : Fin 4096) (n : SchedEntry) (q : Nat) (k : Nat) (s : State), (s.sched e = some n) ∧ (n.cancel = some (q, k)) ∧ (2 ≤ k) ∧ ((∀ d, n.dueEdge = some d → d = s.tb.edges)) :=
  ⟨4095, { time := 0, epoch := 0, act := 0x80000000, lb := 7, arrived := true, rebased := false, skipped := false, staleEpoch := false, late := false, lateBy := none, dueEdge := none, cancel := some (0, 2) }, 0, 2, { tb := { edges := 5, sched := [(4095, { time := 0, epoch := 0, act := 0x80000000, lb := 7, arrived := true, rebased := false, skipped := false, staleEpoch := false, late := false, lateBy := none, dueEdge := none, cancel := some (0, 2) })] } }, by decide +kernel, by decide +kernel, by decide +kernel, by intro d h; cases h <;> rfl⟩
theorem witness_ActionSchedule_7b : ∃ (e : Fin 4096) (n : SchedEntry) (q : Nat) (k : Nat) (s : State), (s.sched e = some n) ∧ (n.cancel = some (q, k)) ∧ (2 ≤ k) ∧ ((∀ d, n.dueEdge = some d → d = s.tb.edges)) :=
  ⟨4095, { time := 0, epoch := 0, act := 0x80000000, lb := 7, arrived := true, rebased := false, skipped := false, staleEpoch := false, late := false, lateBy := none, dueEdge := some 5, cancel := some (0, 2) }, 0, 2, { tb := { edges := 5, sched := [(4095, { time := 0, epoch := 0, act := 0x80000000, lb := 7, arrived := true, rebased := false, skipped := false, staleEpoch := false, late := false, lateBy := none, dueEdge := some 5, cancel := some (0, 2) })] } }, by decide +kernel, by decide +kernel, by decide +kernel, by intro d h; cases h <;> rfl⟩
theorem witness_ActionSchedule_8 : ∃ (w : Word) (h : Nat), (h = bits w.toNat 4 0) :=
  ⟨31, _, rfl⟩
theorem witness_MovesComplete_0 : ∃ (k : Fin 512) (m : Move) (x : Nat) (q : Nat) (j : Nat) (s : State), (s.move k = some m) ∧ (m.phase = .done) ∧ (s.landed m = true) ∧ (m.by_ = .thread x q j) ∧ (m.err = 0) ∧ (m.crec = false) ∧ ((m.op = 3 → m.tsreq = false)) ∧ (m.ckdone = false) ∧ (bit (s.reg 0xF0000) 1 = false) ∧ (s.isUe (.privBits x) ((0x020 + j) / 32) = false) :=
  ⟨511, { slot := 511, by_ := .thread 127 7 7, w0 := 1, src := 0, dst := 0x20, aux := 0, issued := 0, phase := .done }, 127, 7, 7, { pump := { moves := [{ slot := 511, by_ := .thread 127 7 7, w0 := 1, src := 0, dst := 0x20, aux := 0, issued := 0, phase := .done }] } }, by decide +kernel, by decide +kernel, by decide +kernel, by decide +kernel, by decide +kernel, by decide +kernel, by decide +kernel, by decide +kernel, by decide +kernel, by decide +kernel⟩
theorem witness_MovesComplete_2 : ∃ (k : Fin 512) (m : Move) (x : Nat) (q : Nat) (j : Nat) (base : Nat) (size : Nat) (tl : Nat) (v : Nat) (s : State), (s.move k = some m) ∧ (m.phase = .done) ∧ (s.landed m = true) ∧ ((s.lb (lbOf x)).resPend = []) ∧ (m.by_ = .thread x q j) ∧ ((m.crec = true ∨ m.err ≠ 0)) ∧ (m.ts = none) ∧ (m.tsLost = false) ∧ (m.late = false) ∧ ((base, size) = ringAt (s.reg (0x70110 + 0x40 * lbOf x))) ∧ (tl = (s.pumpLb (lbOf x)).crTail) ∧ (v = m.err + 2 ^ 8 * j + 2 ^ 12 * q + 2 ^ 20 * slotOf x + 2 ^ 32 * (m.result % 2 ^ 32)) :=
  ⟨511, { slot := 511, by_ := .thread 127 7 7, w0 := 257, src := 0, dst := 0x20, aux := 0, issued := 0, phase := .done }, 127, 7, 7, 0, 256, 0, _, { pump := { moves := [{ slot := 511, by_ := .thread 127 7 7, w0 := 257, src := 0, dst := 0x20, aux := 0, issued := 0, phase := .done }] } }, by decide +kernel, by decide +kernel, by decide +kernel, by decide +kernel, by decide +kernel, .inl (by decide +kernel), by decide +kernel, by decide +kernel, by decide +kernel, by decide +kernel, by decide +kernel, rfl⟩
theorem witness_MovesComplete_2b : ∃ (k : Fin 512) (m : Move) (x : Nat) (q : Nat) (j : Nat) (base : Nat) (size : Nat) (tl : Nat) (v : Nat) (s : State), (s.move k = some m) ∧ (m.phase = .done) ∧ (s.landed m = true) ∧ ((s.lb (lbOf x)).resPend = []) ∧ (m.by_ = .thread x q j) ∧ ((m.crec = true ∨ m.err ≠ 0)) ∧ (m.ts = none) ∧ (m.tsLost = false) ∧ (m.late = false) ∧ ((base, size) = ringAt (s.reg (0x70110 + 0x40 * lbOf x))) ∧ (tl = (s.pumpLb (lbOf x)).crTail) ∧ (v = m.err + 2 ^ 8 * j + 2 ^ 12 * q + 2 ^ 20 * slotOf x + 2 ^ 32 * (m.result % 2 ^ 32)) :=
  ⟨511, { slot := 511, by_ := .thread 127 7 7, w0 := 1, src := 0, dst := 0x20, aux := 0, issued := 0, phase := .done, err := 7 }, 127, 7, 7, 0, 256, 0, _, { pump := { moves := [{ slot := 511, by_ := .thread 127 7 7, w0 := 1, src := 0, dst := 0x20, aux := 0, issued := 0, phase := .done, err := 7 }] } }, by decide +kernel, by decide +kernel, by decide +kernel, by decide +kernel, by decide +kernel, .inr (by decide +kernel), by decide +kernel, by decide +kernel, by decide +kernel, by decide +kernel, by decide +kernel, rfl⟩
theorem witness_MovesComplete_3 : ∃ (k : Fin 512) (m : Move) (sp : Nat) (a : Nat) (dp : Nat) (d : Nat) (rd : State → Nat → Nat → Byte) (s : State), (s.move k = some m) ∧ (m.phase = .ready) ∧ (m.op = 1) ∧ (m.moved = 0) ∧ (m.err = 0) ∧ (m.crec = false) ∧ (m.ckdone = false) ∧ (s.ecc = []) ∧ ((s.lb m.lb).resPend = []) ∧ (m.ptr m.src m.len = some (sp, a)) ∧ (m.ptr m.dst m.len = some (dp, d)) ∧ (rd = (fun u sp b => if sp = 0 then byteAt (u.th m.thread).well b else byteAt (u.lb m.lb).res b)) :=
  ⟨511, { slot := 511, by_ := .thread 127 7 7, w0 := 2097153, src := 0, dst := 0x20, aux := 0, issued := 0, phase := .ready }, 0, 0, 0, 32, _, { pump := { moves := [{ slot := 511, by_ := .thread 127 7 7, w0 := 2097153, src := 0, dst := 0x20, aux := 0, issued := 0, phase := .ready }] } }, by decide +kernel, by decide +kernel, by decide +kernel, by decide +kernel, by decide +kernel, by decide +kernel, by decide +kernel, by decide +kernel, by decide +kernel, by decide +kernel, by decide +kernel, rfl⟩
theorem witness_TriggersSpillAndPumpRegisters_0 : ∃ (lb : Fin 8) (k : Fin 8) (i : Nat) (w : Nat) (q : Nat) (a : Nat) (slot : Nat) (s : State), (i = 8 * lb.val + k.val) ∧ (i ∈ s.mf.ptrgX) ∧ (w = s.reg (0x70120 + 0x40 * lb.val + 4 * k.val)) ∧ (q = bits w 26 24) ∧ (a = bits w 18 4 * 16) ∧ (bit w 31 = true) ∧ (s.trigBusy lb k q = false) ∧ (s.ecc = []) ∧ (s.freeSlot = some slot) :=
  ⟨7, 7, 63, _, 7, 0, _, { mf := { ptrgX := [63] }, regs := [(0x70104 + 0x40 * 7, 0x40000000), (0x70120 + 0x40 * 7 + 4 * 7, 0x87000000)] }, by decide +kernel, by decide +kernel, rfl, by decide +kernel, by decide +kernel, by decide +kernel, by decide +kernel, by decide +kernel, freeSlot_none rfl⟩
theorem witness_TriggersSpillAndPumpRegisters_1 : ∃ (lb : Fin 8) (k : Fin 8) (i : Nat) (w : Nat) (s : State), (i = 8 * lb.val + k.val) ∧ (i ∈ s.mf.ptrgX) ∧ (w = s.reg (0x70120 + 0x40 * lb.val + 4 * k.val)) ∧ (bit w 31 = true) ∧ (s.trigBusy lb k (bits w 26 24) = true) :=
  ⟨7, 7, 63, _, { mf := { ptrgX := [63] }, regs := [(0x70104 + 0x40 * 7, 0), (0x70120 + 0x40 * 7 + 4 * 7, 0x87000000)] }, by decide +kernel, by decide +kernel, rfl, by decide +kernel, by decide +kernel⟩
theorem witness_TriggersSpillAndPumpRegisters_2 : ∃ (lb : Fin 8) (k : Fin 8) (i : Nat) (s : State), (i = 8 * lb.val + k.val) ∧ (i ∈ s.mf.ptrgX) ∧ (bit (s.reg (0x70120 + 0x40 * lb.val + 4 * k.val)) 31 = false) :=
  ⟨7, 7, 63, { mf := { ptrgX := [63] } }, by decide +kernel, by decide +kernel, by decide +kernel⟩
theorem witness_TriggersSpillAndPumpRegisters_3 : ∃ (ch : Fin 16384) (b : Nat) (k : Nat) (d : Nat) (s : State) (u : State), (s.spillOn = true) ∧ (s.pump.spill = none) ∧ (s.spillPick = some ch.val) ∧ (s.spillable ch = some b) ∧ (s.freeSlot = some k) ∧ (s.dcPop = some (d, u)) :=
  ⟨16383, 0x80000064, _, 0, { regs := [(0x70000, 1), (0x70010, 0xFFFFFFFF), (0x70038, 1)], pump := { dcReady := true, cells := [(100, { used := true, head := true, last := true, refs := 1, link := 0x80000065 }), (101, { used := true, head := true, last := true, refs := 1 })], chans := [(16383, { spill := true, blCount := 2, blHead := 0x80000064, blTail := 0x80000065 })] } }, _, by decide +kernel, by decide +kernel, by decide +kernel, by decide +kernel, freeSlot_none rfl, rfl⟩
theorem witness_TriggersSpillAndPumpRegisters_4 : ∃ (ch : Fin 16384) (b : Nat) (k : Nat) (s : State), (s.spillOn = true) ∧ (s.pump.spill = none) ∧ (s.spillPick = some ch.val) ∧ (s.spillable ch = some b) ∧ (s.freeSlot = some k) ∧ (s.dcPop = none) :=
  ⟨16383, 0x80000064, _, { regs := [(0x70000, 1), (0x70010, 0xFFFFFFFF), (0x70038, 1)], pump := { dcReady := true, dcNext := 1, cells := [(100, { used := true, head := true, last := true, refs := 1, link := 0x80000065 }), (101, { used := true, head := true, last := true, refs := 1 })], chans := [(16383, { spill := true, blCount := 2, blHead := 0x80000064, blTail := 0x80000065 })] } }, by decide +kernel, by decide +kernel, by decide +kernel, by decide +kernel, freeSlot_none rfl, by decide +kernel⟩
theorem witness_TriggersSpillAndPumpRegisters_6 : ∃ (m : Move) (d : Nat) (c : Cell) (s : State), (s.pump.moves.find? (fun m => m.phase == .refill && m.head.isNone) = some m) ∧ (m.deep = some d) ∧ (c = tget {} s.pump.dcHdr (d % 2 ^ 22)) ∧ (d < 2 ^ 22) ∧ (s.freeCells < s.rxReserve + max 1 (ceilDiv c.len 256)) :=
  ⟨{ slot := 511, by_ := .thread 0 0 0, w0 := 8, src := 0, dst := 0, aux := 0, issued := 0, phase := .refill, deep := some 4194303 }, 4194303, {}, { regs := [(0x70014, 32768)], pump := { moves := [{ slot := 511, by_ := .thread 0 0 0, w0 := 8, src := 0, dst := 0, aux := 0, issued := 0, phase := .refill, deep := some 4194303 }] } }, by decide +kernel, by decide +kernel, by decide +kernel, by decide +kernel, by decide +kernel⟩
theorem witness_TriggersSpillAndPumpRegisters_5 : ∃ (m : Move) (h : Nat) (d : Nat) (c : Cell) (s : State) (u : State), (s.pump.moves.find? (fun m => m.phase == .refill && m.head.isNone) = some m) ∧ (m.deep = some d) ∧ (c = tget {} s.pump.dcHdr (d % 2 ^ 22)) ∧ (d < 2 ^ 22) ∧ (s.allocBuf c.len { c with next := 0, last := false } = some (h, u)) :=
  ⟨{ slot := 511, by_ := .thread 0 0 0, w0 := 8, src := 0, dst := 0, aux := 0, issued := 0, phase := .refill, deep := some 4194303 }, _, 4194303, {}, { pump := { moves := [{ slot := 511, by_ := .thread 0 0 0, w0 := 8, src := 0, dst := 0, aux := 0, issued := 0, phase := .refill, deep := some 4194303 }] } }, _, by decide +kernel, by decide +kernel, by decide +kernel, by decide +kernel, allocBuf_one rfl ⟨rfl, rfl, rfl, rfl⟩ rfl⟩
theorem witness_TriggersSpillAndPumpRegisters_8 : ∃ (s : State), (s.pump.dcBuilding = true) ∧ (0 < bits (s.reg 0x70038) 22 0) :=
  ⟨{ regs := [(0x70038, 1)], pump := { dcBuilding := true } }, by decide +kernel, by decide +kernel⟩
theorem witness_TriggersSpillAndPumpRegisters_10 : ∃ (lb : Fin 8) (w : Word) (h : Nat) (d : Nat) (size : Nat) (base : Nat) (s : State), (h = bits w.toNat 8 0) ∧ ((base, size) = ringAt (s.reg (0x70110 + 0x40 * lb.val))) ∧ (d = ((s.pumpLb lb).crTail % 512 + 512 - h) % 512) :=
  ⟨7, 511, _, _, 256, 0, {}, rfl, by decide +kernel, rfl⟩
theorem witness_TriggersSpillAndPumpRegisters_11 : ∃ (r : Fin 24) (w : Word) (off : Nat) (v : Nat), (off = (if r.val < 16 then 0x70100 + 0x40 * (r.val / 2) + 4 * (r.val % 2) else 0x70040 + 4 * (r.val - 16))) ∧ (v = (if r.val < 16 then min 64 (bits w.toNat 6 0) + 2 ^ 8 * min 64 (bits w.toNat 14 8) + 2 ^ 16 * min 64 (bits w.toNat 22 16) + 2 ^ 24 * min 64 (bits w.toNat 30 24) else min 64 (bits w.toNat 6 0))) :=
  ⟨23, 127, _, _, rfl, rfl⟩
theorem witness_TriggersSpillAndPumpRegisters_11b : ∃ (r : Fin 24) (w : Word) (off : Nat) (v : Nat), (off = (if r.val < 16 then 0x70100 + 0x40 * (r.val / 2) + 4 * (r.val % 2) else 0x70040 + 4 * (r.val - 16))) ∧ (v = (if r.val < 16 then min 64 (bits w.toNat 6 0) + 2 ^ 8 * min 64 (bits w.toNat 14 8) + 2 ^ 16 * min 64 (bits w.toNat 22 16) + 2 ^ 24 * min 64 (bits w.toNat 30 24) else min 64 (bits w.toNat 6 0))) :=
  ⟨15, 0xFFFFFFFF, _, _, rfl, rfl⟩
theorem witness_FramesForwardedRecordedAndPaused_13 : ∃ (n : Fin 32) (c : Nat) (s : State) (u : State), (bit (s.rxBind n) 7 = true) ∧ (s.laneMode n = true) ∧ (tfind s.pump.rxResv n = none) ∧ (s.takeCell = some (c, u)) :=
  ⟨31, _, { regs := [(0x2F800, 5), (0x70800 + 16 * 31, 128)] }, _, by decide +kernel, by decide +kernel, by decide +kernel, takeCell_first ⟨rfl, rfl, rfl, rfl⟩⟩
theorem witness_PollsFetchesAndRingEnable_0 : ∃ (p : Fin 8) (s : State), (s.up 0 = true) ∧ (s.pollsOn = true) ∧ (s.hpEn p = true) ∧ ((s.part p).polling = false) ∧ ((s.part p).pollAt + s.pollInterval p ≤ s.tb.elapsed) :=
  ⟨7, { regs := [(590304, 1)], tb := { elapsed := 2 ^ 50 }, mram := { primed := true } }, by decide +kernel, by decide +kernel, by decide +kernel, by decide +kernel, by decide +kernel⟩
theorem witness_PollsFetchesAndRingEnable_1 : ∃ (s : State), (s.up 0 = true) ∧ (s.pollsOn = true) :=
  ⟨{ mram := { primed := true } }, by decide +kernel, by decide +kernel⟩
theorem witness_PollsFetchesAndRingEnable_2 : ∃ (p : Fin 8) (c : MCmd) (s : State), (s.host.mcmds.find? (fun c => c.issued && c.owner == .poll p) = some c) :=
  ⟨7, { port := 0, id := 511, issued := true, write := false, addr := 0, bytes := 64, data := [], part := 7, owner := .poll 7, at_ := 0, warned := false }, { host := { mcmds := [{ port := 0, id := 511, issued := true, write := false, addr := 0, bytes := 64, data := [], part := 7, owner := .poll 7, at_ := 0, warned := false }] } }, by decide +kernel⟩
theorem witness_PollsFetchesAndRingEnable_3 : ∃ (p : Fin 8) (e : Fin 4) (c : MCmd) (s : State), (e ≠ 0) ∧ (s.host.mcmds.find? (fun c => c.issued && c.owner == .poll p) = some c) :=
  ⟨7, 3, { port := 0, id := 511, issued := true, write := false, addr := 0, bytes := 64, data := [], part := 7, owner := .poll 7, at_ := 0, warned := false }, { host := { mcmds := [{ port := 0, id := 511, issued := true, write := false, addr := 0, bytes := 64, data := [], part := 7, owner := .poll 7, at_ := 0, warned := false }] } }, by decide +kernel, by decide +kernel⟩
theorem witness_PollsFetchesAndRingEnable_4 : ∃ (r : Fin 64) (n : Nat) (s : State), (s.up 0 = true) ∧ (s.fetchPick (r.val / 8) = some r.val) ∧ (n = s.fetchRoom r) :=
  ⟨63, 1, { regs := [(458844, 64), (590304, 1), (595936, 0x4401)], host := { rings := [(63, { sqTail := 1 })] } }, by decide +kernel, by decide +kernel, by decide +kernel⟩
theorem witness_PollsFetchesAndRingEnable_5 : ∃ (r : Fin 64) (s : State), (s.ringEn r = false) :=
  ⟨63, {}, by decide +kernel⟩
theorem witness_PollsFetchesAndRingEnable_6 : ∃ (r : Fin 64) (s : State), (s.ringEn r = true) :=
  ⟨63, { regs := [(595936, 1)] }, by decide +kernel⟩
theorem witness_DataSubmissions_0 : ∃ (r : Fin 64) (q : Sub) (i : Nat) (h : Nat) (k : Nat) (len : Nat) (c : Chan) (s : State) (u : State), (s.host.subs.find? (fun q => q.r == r.val) = some q) ∧ (q.op = 1) ∧ (q.bad = false) ∧ (s.checkHandle 0 (q.w 1) = (.ok i, s)) ∧ (c = s.chan i) ∧ (c.kind = 2) ∧ (c.state = 2) ∧ (c.ring = q.r) ∧ ((s.lb c.lb).shed = false) ∧ (bits (q.w 0) 9 8 = 0) ∧ (len = bits (q.w 2) 13 0) ∧ (1 ≤ len) ∧ (len ≤ 16320) ∧ (s.allocBuf len { refs := 1, tofs12 := c.tofs12 } = some (h, u)) ∧ (s.freeSlot = some k) :=
  ⟨57, { r := 57, idx := 4095, words := [1, mkHandle 16383 0, 1] }, 16383, _, _, 1, _, { regs := [(595744, 1)], pump := { chans := [(16383, { kind := 2, state := 2, ring := 57 })] }, host := { subs := [{ r := 57, idx := 4095, words := [1, mkHandle 16383 0, 1] }] } }, _, by decide +kernel, by decide +kernel, by decide +kernel, rfl, rfl, by decide +kernel, by decide +kernel, by decide +kernel, by decide +kernel, by decide +kernel, by decide +kernel, by decide +kernel, by decide +kernel, allocBuf_one rfl ⟨rfl, rfl, rfl, rfl⟩ rfl, freeSlot_none rfl⟩
theorem witness_DataSubmissions_1 : ∃ (r : Fin 64) (q : Sub) (i : Nat) (k : Nat) (len : Nat) (c : Chan) (s : State), (s.host.subs.find? (fun q => q.r == r.val) = some q) ∧ (q.op = 1) ∧ (q.bad = false) ∧ (s.checkHandle 0 (q.w 1) = (.ok i, s)) ∧ (c = s.chan i) ∧ (c.kind = 2) ∧ (c.state = 2) ∧ (c.ring = q.r) ∧ ((s.lb c.lb).shed = false) ∧ (s.ringEn q.r = true) ∧ (len = bits (q.w 2) 13 0) ∧ (((bits (q.w 0) 9 8 ≠ 0 ∧ k = 0x0B) ∨ (bits (q.w 0) 9 8 = 0 ∧ (len < 1 ∨ 16320 < len) ∧ k = 9) ∨ (bits (q.w 0) 9 8 = 0 ∧ 1 ≤ len ∧ len ≤ 16320 ∧ s.freeCells < s.rxReserve + max 1 (ceilDiv len 256) ∧ k = 5))) :=
  ⟨57, { r := 57, idx := 4095, words := [0x101, mkHandle 16383 0, 1] }, 16383, 11, 1, _, { regs := [(595744, 1)], pump := { chans := [(16383, { kind := 2, state := 2, ring := 57 })] }, host := { subs := [{ r := 57, idx := 4095, words := [0x101, mkHandle 16383 0, 1] }] } }, by decide +kernel, by decide +kernel, by decide +kernel, rfl, rfl, by decide +kernel, by decide +kernel, by decide +kernel, by decide +kernel, by decide +kernel, by decide +kernel, .inl ⟨by decide +kernel, rfl⟩⟩
theorem witness_DataSubmissions_1b : ∃ (r : Fin 64) (q : Sub) (i : Nat) (k : Nat) (len : Nat) (c : Chan) (s : State), (s.host.subs.find? (fun q => q.r == r.val) = some q) ∧ (q.op = 1) ∧ (q.bad = false) ∧ (s.checkHandle 0 (q.w 1) = (.ok i, s)) ∧ (c = s.chan i) ∧ (c.kind = 2) ∧ (c.state = 2) ∧ (c.ring = q.r) ∧ ((s.lb c.lb).shed = false) ∧ (s.ringEn q.r = true) ∧ (len = bits (q.w 2) 13 0) ∧ (((bits (q.w 0) 9 8 ≠ 0 ∧ k = 0x0B) ∨ (bits (q.w 0) 9 8 = 0 ∧ (len < 1 ∨ 16320 < len) ∧ k = 9) ∨ (bits (q.w 0) 9 8 = 0 ∧ 1 ≤ len ∧ len ≤ 16320 ∧ s.freeCells < s.rxReserve + max 1 (ceilDiv len 256) ∧ k = 5))) :=
  ⟨57, { r := 57, idx := 4095, words := [1, mkHandle 16383 0, 0] }, 16383, 9, 0, _, { regs := [(595744, 1)], pump := { chans := [(16383, { kind := 2, state := 2, ring := 57 })] }, host := { subs := [{ r := 57, idx := 4095, words := [1, mkHandle 16383 0, 0] }] } }, by decide +kernel, by decide +kernel, by decide +kernel, rfl, rfl, by decide +kernel, by decide +kernel, by decide +kernel, by decide +kernel, by decide +kernel, by decide +kernel, .inr (.inl ⟨by decide +kernel, .inl (by decide), rfl⟩)⟩
theorem witness_DataSubmissions_1c : ∃ (r : Fin 64) (q : Sub) (i : Nat) (k : Nat) (len : Nat) (c : Chan) (s : State), (s.host.subs.find? (fun q => q.r == r.val) = some q) ∧ (q.op = 1) ∧ (q.bad = false) ∧ (s.checkHandle 0 (q.w 1) = (.ok i, s)) ∧ (c = s.chan i) ∧ (c.kind = 2) ∧ (c.state = 2) ∧ (c.ring = q.r) ∧ ((s.lb c.lb).shed = false) ∧ (s.ringEn q.r = true) ∧ (len = bits (q.w 2) 13 0) ∧ (((bits (q.w 0) 9 8 ≠ 0 ∧ k = 0x0B) ∨ (bits (q.w 0) 9 8 = 0 ∧ (len < 1 ∨ 16320 < len) ∧ k = 9) ∨ (bits (q.w 0) 9 8 = 0 ∧ 1 ≤ len ∧ len ≤ 16320 ∧ s.freeCells < s.rxReserve + max 1 (ceilDiv len 256) ∧ k = 5))) :=
  ⟨57, { r := 57, idx := 4095, words := [1, mkHandle 16383 0, 16320] }, 16383, 5, 16320, _, { regs := [(595744, 1), (0x70014, 32705)], pump := { chans := [(16383, { kind := 2, state := 2, ring := 57 })] }, host := { subs := [{ r := 57, idx := 4095, words := [1, mkHandle 16383 0, 16320] }] } }, by decide +kernel, by decide +kernel, by decide +kernel, rfl, rfl, by decide +kernel, by decide +kernel, by decide +kernel, by decide +kernel, by decide +kernel, by decide +kernel, .inr (.inr ⟨by decide +kernel, by decide, by decide, by decide +kernel, rfl⟩)⟩
theorem witness_DataSubmissions_2 : ∃ (r : Fin 64) (q : Sub) (i : Nat) (k : Nat) (c : Chan) (j : Instr) (s : State), ((j = .send r ∧ q.op = 1 ∨ j = .rxPost r ∧ q.op = 2)) ∧ (s.host.subs.find? (fun q => q.r == r.val) = some q) ∧ (q.bad = false) ∧ (s.ringEn q.r = true) ∧ (s.checkHandle 0 (q.w 1) = (.ok i, s)) ∧ (c = s.chan i) ∧ (((c.kind ∉ [1, 2, 5] ∧ k = 3) ∨ (c.kind ∈ [1, 2, 5] ∧ (c.state ≠ 2 ∨ c.ring ≠ q.r ∨ (s.lb c.lb).shed = true) ∧ k = 4))) :=
  ⟨57, { r := 57, idx := 4095, words := [1, mkHandle 16383 0, 1] }, 16383, 3, _, .send 57, { regs := [(595744, 1)], pump := { chans := [(16383, { kind := 3, state := 2, ring := 57 })] }, host := { subs := [{ r := 57, idx := 4095, words := [1, mkHandle 16383 0, 1] }] } }, .inl ⟨rfl, by decide +kernel⟩, by decide +kernel, by decide +kernel, by decide +kernel, rfl, rfl, .inl ⟨by decide +kernel, rfl⟩⟩
theorem witness_DataSubmissions_2b : ∃ (r : Fin 64) (q : Sub) (i : Nat) (k : Nat) (c : Chan) (j : Instr) (s : State), ((j = .send r ∧ q.op = 1 ∨ j = .rxPost r ∧ q.op = 2)) ∧ (s.host.subs.find? (fun q => q.r == r.val) = some q) ∧ (q.bad = false) ∧ (s.ringEn q.r = true) ∧ (s.checkHandle 0 (q.w 1) = (.ok i, s)) ∧ (c = s.chan i) ∧ (((c.kind ∉ [1, 2, 5] ∧ k = 3) ∨ (c.kind ∈ [1, 2, 5] ∧ (c.state ≠ 2 ∨ c.ring ≠ q.r ∨ (s.lb c.lb).shed = true) ∧ k = 4))) :=
  ⟨57, { r := 57, idx := 4095, words := [2, mkHandle 16383 0, 1] }, 16383, 4, _, .rxPost 57, { regs := [(595744, 1)], pump := { chans := [(16383, { kind := 2, state := 3, ring := 57 })] }, host := { subs := [{ r := 57, idx := 4095, words := [2, mkHandle 16383 0, 1] }] } }, .inr ⟨rfl, by decide +kernel⟩, by decide +kernel, by decide +kernel, by decide +kernel, rfl, rfl, .inr ⟨by decide +kernel, .inl (by decide +kernel), rfl⟩⟩
theorem witness_DataSubmissions_3 : ∃ (r : Fin 64) (q : Sub) (i : Nat) (len : Nat) (c : Chan) (s : State), (s.host.subs.find? (fun q => q.r == r.val) = some q) ∧ (q.op = 2) ∧ (q.bad = false) ∧ (s.checkHandle 0 (q.w 1) = (.ok i, s)) ∧ (c = s.chan i) ∧ (c.kind ∈ [1, 2, 5]) ∧ (c.state = 2) ∧ (c.ring = q.r) ∧ ((s.lb c.lb).shed = false) ∧ (len = bits (q.w 2) 13 0) ∧ (1 ≤ len) ∧ (len ≤ 16320) ∧ (c.blCount = 0) :=
  ⟨57, { r := 57, idx := 4095, words := [2, mkHandle 16383 0, 16320] }, 16383, 16320, _, { regs := [(595744, 1)], pump := { chans := [(16383, { kind := 2, state := 2, ring := 57 })] }, host := { subs := [{ r := 57, idx := 4095, words := [2, mkHandle 16383 0, 16320] }] } }, by decide +kernel, by decide +kernel, by decide +kernel, rfl, rfl, by decide +kernel, by decide +kernel, by decide +kernel, by decide +kernel, by decide +kernel, by decide +kernel, by decide +kernel, by decide +kernel⟩
theorem witness_DataSubmissions_4 : ∃ (r : Fin 64) (q : Sub) (s : State), (s.host.subs.find? (fun q => q.r == r.val) = some q) ∧ (s.ringEn q.r = true) ∧ (((q.op ≠ 1 ∧ q.op ≠ 2) ∨ bits (q.w 0) 31 11 ≠ 0 ∨ bits (q.w 2) 31 14 ≠ 0 ∨ bits (q.w 6) 31 30 ≠ 0 ∨ (q.op = 2 ∧ bits (q.w 0) 9 8 ≠ 0) ∨ (bit (q.w 0) 9 = false ∧ (q.w 6 ≠ 0 ∨ q.w 7 ≠ 0)))) :=
  ⟨57, { r := 57, idx := 4095, words := [0x801, mkHandle 16383 0, 1] }, { regs := [(595744, 1)], pump := { chans := [(16383, { kind := 2, state := 2, ring := 57 })] }, host := { subs := [{ r := 57, idx := 4095, words := [0x801, mkHandle 16383 0, 1] }] } }, by decide +kernel, by decide +kernel, .inr (.inl (by decide +kernel))⟩
theorem witness_CompletionsInterruptsAndResponses_0 : ∃ (r : Fin 64) (c : HRec) (s : State), (s.recNext r = some c) ∧ (c.slot = none) ∧ (s.up 0 = true) ∧ (s.cqRoom r = true) :=
  ⟨63, { id := 9, r := 63, w0 := 0, w1 := 0, w2 := 0, w3 := 0, irq := true, slot := none, after := none }, { host := { recs := [{ id := 9, r := 63, w0 := 0, w1 := 0, w2 := 0, w3 := 0, irq := true, slot := none, after := none }] } }, by decide +kernel, by decide +kernel, by decide +kernel, by decide +kernel⟩
theorem witness_CompletionsInterruptsAndResponses_1 : ∃ (r : Fin 64) (c : HRec) (s : State), (s.recNext r = some c) ∧ (c.waited = false) ∧ (s.up 0 = true) ∧ (s.cqRoom r = false) :=
  ⟨63, { id := 9, r := 63, w0 := 0, w1 := 0, w2 := 0, w3 := 0, irq := true, slot := none, after := none }, { regs := [(595936, 0x4400)], host := { recs := [{ id := 9, r := 63, w0 := 0, w1 := 0, w2 := 0, w3 := 0, irq := true, slot := none, after := none }], rings := [(63, { cqCount := 15 })] } }, by decide +kernel, by decide +kernel, by decide +kernel, by decide +kernel⟩
theorem witness_CompletionsInterruptsAndResponses_2 : ∃ (r : Fin 64) (s : State), (0 < (s.ring r).coCount) ∧ ((s.ring r).coSince + bits (s.reg (0x91014 + 32 * r.val)) 27 16 * 67108864000 ≤ s.tb.elapsed) :=
  ⟨63, { tb := { elapsed := 2 ^ 60 }, host := { rings := [(63, { coCount := 1 })] } }, by decide +kernel, by decide +kernel⟩
theorem witness_CompletionsInterruptsAndResponses_4 : ∃ (id : Fin 512) (c : MCmd) (d : HRec) (s : State), (s.cmdOf 0 id true = some c) ∧ (s.up 0 = true) ∧ (c.owner = .record d.id) ∧ (s.host.recs.find? (fun e => e.id == d.id) = some d) ∧ (d.slot = none) :=
  ⟨511, { port := 0, id := 511, issued := true, write := true, addr := 0, bytes := 16, data := [], part := 7, owner := .record 9, at_ := 0, warned := false }, { id := 9, r := 63, w0 := 0, w1 := 0, w2 := 0, w3 := 0, irq := true, slot := none, after := none }, { host := { mcmds := [{ port := 0, id := 511, issued := true, write := true, addr := 0, bytes := 16, data := [], part := 7, owner := .record 9, at_ := 0, warned := false }], recs := [{ id := 9, r := 63, w0 := 0, w1 := 0, w2 := 0, w3 := 0, irq := true, slot := none, after := none }] } }, by decide +kernel, by decide +kernel, by decide +kernel, by decide +kernel, by decide +kernel⟩
theorem witness_CompletionsInterruptsAndResponses_5 : ∃ (id : Fin 512) (e : Fin 4) (c : MCmd) (d : HRec) (s : State), (e ≠ 0) ∧ (s.cmdOf 0 id true = some c) ∧ (s.up 0 = true) ∧ (c.owner = .record d.id) ∧ (s.host.recs.find? (fun e => e.id == d.id) = some d) ∧ (d.slot = none) :=
  ⟨511, 3, { port := 0, id := 511, issued := true, write := true, addr := 0, bytes := 16, data := [], part := 7, owner := .record 9, at_ := 0, warned := false }, { id := 9, r := 63, w0 := 0, w1 := 0, w2 := 0, w3 := 0, irq := true, slot := none, after := none }, { host := { mcmds := [{ port := 0, id := 511, issued := true, write := true, addr := 0, bytes := 16, data := [], part := 7, owner := .record 9, at_ := 0, warned := false }], recs := [{ id := 9, r := 63, w0 := 0, w1 := 0, w2 := 0, w3 := 0, irq := true, slot := none, after := none }] } }, by decide +kernel, by decide +kernel, by decide +kernel, by decide +kernel, by decide +kernel, by decide +kernel⟩
theorem witness_CompletionsInterruptsAndResponses_6 : ∃ (id : Fin 512) (c : MCmd) (r : Nat) (n : Nat) (data : List Byte) (s : State), (s.cmdOf 0 id false = some c) ∧ (s.up 0 = true) ∧ (c.owner = .fetch r (s.ring r).sqHead n (s.ring r).gen) ∧ (s.ringEn r = true) ∧ (r % 8 ≠ 0) ∧ (c.bytes = 32 * n) ∧ (c.addr % 16 + c.bytes ≤ data.length) :=
  ⟨511, { port := 0, id := 511, issued := true, write := false, addr := 0, bytes := 256, data := [], part := 7, owner := .fetch 63 0 8 0, at_ := 0, warned := false }, 63, 8, List.replicate 256 0, { regs := [(595936, 1)], host := { mcmds := [{ port := 0, id := 511, issued := true, write := false, addr := 0, bytes := 256, data := [], part := 7, owner := .fetch 63 0 8 0, at_ := 0, warned := false }] } }, by decide +kernel, by decide +kernel, by decide +kernel, by decide +kernel, by decide +kernel, by decide +kernel, by decide +kernel⟩
theorem witness_CompletionsInterruptsAndResponses_7 : ∃ (id : Fin 512) (e : Fin 4) (c : MCmd) (r : Nat) (f : Nat) (n : Nat) (s : State), (e ≠ 0) ∧ (s.cmdOf 0 id false = some c) ∧ (s.up 0 = true) ∧ (c.owner = .fetch r f n (s.ring r).gen) ∧ (s.ringEn r = true) :=
  ⟨511, 1, { port := 0, id := 511, issued := true, write := false, addr := 0, bytes := 256, data := [], part := 7, owner := .fetch 63 0 8 0, at_ := 0, warned := false }, 63, 0, 8, { regs := [(595936, 1)], host := { mcmds := [{ port := 0, id := 511, issued := true, write := false, addr := 0, bytes := 256, data := [], part := 7, owner := .fetch 63 0 8 0, at_ := 0, warned := false }] } }, by decide +kernel, by decide +kernel, by decide +kernel, by decide +kernel, by decide +kernel⟩
theorem witness_CompletionsInterruptsAndResponses_8 : ∃ (port : Fin 2) (id : Fin 512) (c : MCmd) (s : State), (s.host.mcmds.find? (fun c => c.issued && c.port == port.val && c.id == id.val) = some c) ∧ (c.warned = false) ∧ (c.at_ + 67108864000000 ≤ s.tb.elapsed) :=
  ⟨0, 511, { port := 0, id := 511, issued := true, write := false, addr := 0, bytes := 256, data := [], part := 7, owner := .fetch 63 0 8 0, at_ := 0, warned := false }, { tb := { elapsed := 67108864000000 }, host := { mcmds := [{ port := 0, id := 511, issued := true, write := false, addr := 0, bytes := 256, data := [], part := 7, owner := .fetch 63 0 8 0, at_ := 0, warned := false }] } }, by decide +kernel, by decide +kernel, by decide +kernel⟩
theorem witness_CommandsAnsweredAtOnce_0 : ∃ (p : Fin 8) (i : Instr) (op : Nat) (masks : List Nat) (right : State → Bool) (s : State), ((i, op, masks, right) ∈ [(.cmdNop p, 0x40, [], fun _ => true), (.chCreate p, 0x41, entryMasks 0, fun s => bit (s.hpRights p) 8), (.chModify p, 0x42, entryMasks (2 ^ 32 - 1), fun s => bit (s.hpRights p) 8), (.chDestroy p, 0x43, [2 ^ 32 - 1], fun s => bit (s.hpRights p) 8), (.chEnable p, 0x44, [2 ^ 32 - 1], fun _ => true), (.chDisable p, 0x45, [2 ^ 32 - 1], fun _ => true), (.portEnable p, 0x48, [31], fun _ => true), (.portDisable p, 0x49, [31], fun _ => true), (.lockgAcq p, 0x58, [1023, 0, 16383], fun s => bit (s.hpRights p) 10), (.lockgRel p, 0x59, [1023], fun s => bit (s.hpRights p) 10), (.lockgForce p, 0x5A, [1023], fun s => bit (s.hpRights p) 10 && p.val == 0), (.lockwAcq p, 0x5B, [2 ^ 32 - 1, 7, 16383], fun s => bit (s.hpRights p) 10), (.lockwRel p, 0x5C, [2 ^ 32 - 1, 7], fun s => bit (s.hpRights p) 10)]) :=
  ⟨7, .cmdNop 7, 0x40, [], fun _ => true, {}, by simp⟩
theorem witness_CommandsAnsweredAtOnce_1 : ∃ (p : Fin 8) (c : HCmd) (s : State), (Commanded s p c.op c) ∧ (c.op ∉ [0x40, 0x41, 0x42, 0x43, 0x44, 0x45, 0x48, 0x49, 0x50, 0x51, 0x58, 0x59, 0x5A, 0x5B, 0x5C]) :=
  ⟨7, { id := 0, r := 56, idx := 4095, words := [82], held := .fresh }, { regs := [(590308, 1535), (590312, 0xFFFFFFFF), (595712, 1)], host := { cmds := [{ id := 0, r := 56, idx := 4095, words := [82], held := .fresh }] } }, ⟨by decide +kernel, by decide +kernel, by decide +kernel, by decide +kernel, by decide +kernel, by decide +kernel, by decide +kernel, by decide +kernel⟩, by decide +kernel⟩
theorem witness_CommandsAnsweredAtOnce_2 : ∃ (p : Fin 8) (c : HCmd) (s : State), (Commanded s p 0x40 c) ∧ (c.clean [] = true) ∧ (s.host.cmds.find? (fun d => d.r == c.r) = some c) ∧ ((∀ d ∈ s.host.cmds, d.id = c.id → d = c)) :=
  ⟨7, { id := 0, r := 56, idx := 4095, words := [64], held := .fresh }, { regs := [(590308, 1535), (590312, 0xFFFFFFFF), (595712, 1)], host := { cmds := [{ id := 0, r := 56, idx := 4095, words := [64], held := .fresh }] } }, ⟨by decide +kernel, by decide +kernel, by decide +kernel, by decide +kernel, by decide +kernel, by decide +kernel, by decide +kernel, by decide +kernel⟩, by decide +kernel, by decide +kernel, by decide +kernel⟩
theorem witness_CommandsAnsweredAtOnce_3 : ∃ (p : Fin 8) (c : HCmd) (d : HCmd) (s : State), (Commanded s p 0x40 c) ∧ (c.clean [] = true) ∧ (s.host.cmds.find? (fun d => d.r == c.r) = some d) ∧ (d.held ≠ .nop) ∧ (d.id ≠ c.id) :=
  ⟨7, { id := 0, r := 56, idx := 4095, words := [64], held := .fresh }, { id := 1, r := 56, idx := 4095, words := [64], held := .load }, { regs := [(590308, 1535), (590312, 0xFFFFFFFF), (595712, 1)], host := { cmds := [{ id := 1, r := 56, idx := 4095, words := [64], held := .load }, { id := 0, r := 56, idx := 4095, words := [64], held := .fresh }] } }, ⟨by decide +kernel, by decide +kernel, by decide +kernel, by decide +kernel, by decide +kernel, by decide +kernel, by decide +kernel, by decide +kernel⟩, by decide +kernel, by decide +kernel, by decide +kernel, by decide +kernel⟩
theorem witness_ChannelsCreatedModifiedDestroyed_1 : ∃ (p : Fin 8) (c : HCmd) (i : Nat) (s : State), (Commanded s p 0x41 c) ∧ (c.clean (entryMasks 0) = true) ∧ (bit (s.hpRights p) 8 = true) ∧ (s.entryCheck p (c.entry p) = 0) ∧ (s.chPick p = some i) :=
  ⟨7, { id := 0, r := 56, idx := 4095, words := [65, 0, 2, 956301312], held := .fresh }, 16383, { regs := [(590308, 1535), (590312, 0xFFFFFFFF), (595712, 1), (0x80100 + 28, 0x3FFF3FFF)], host := { cmds := [{ id := 0, r := 56, idx := 4095, words := [65, 0, 2, 956301312], held := .fresh }] } }, ⟨by decide +kernel, by decide +kernel, by decide +kernel, by decide +kernel, by decide +kernel, by decide +kernel, by decide +kernel, by decide +kernel⟩, by decide +kernel, by decide +kernel, by decide +kernel, by decide +kernel⟩
theorem witness_ChannelsCreatedModifiedDestroyed_2 : ∃ (p : Fin 8) (c : HCmd) (k : Nat) (s : State), (Commanded s p 0x41 c) ∧ (c.clean (entryMasks 0) = true) ∧ (bit (s.hpRights p) 8 = true) ∧ ((k = s.entryCheck p (c.entry p) ∧ k ≠ 0 ∨ s.entryCheck p (c.entry p) = 0 ∧ s.chPick p = none ∧ k = 4)) :=
  ⟨7, { id := 0, r := 56, idx := 4095, words := [65, 0, 6, 956301312], held := .fresh }, 6, { regs := [(590308, 1535), (590312, 0xFFFFFFFF), (595712, 1), (0x80100 + 28, 0x3FFF3FFF)], host := { cmds := [{ id := 0, r := 56, idx := 4095, words := [65, 0, 6, 956301312], held := .fresh }] } }, ⟨by decide +kernel, by decide +kernel, by decide +kernel, by decide +kernel, by decide +kernel, by decide +kernel, by decide +kernel, by decide +kernel⟩, by decide +kernel, by decide +kernel, .inl (by decide +kernel)⟩
theorem witness_ChannelsCreatedModifiedDestroyed_2b : ∃ (p : Fin 8) (c : HCmd) (k : Nat) (s : State), (Commanded s p 0x41 c) ∧ (c.clean (entryMasks 0) = true) ∧ (bit (s.hpRights p) 8 = true) ∧ ((k = s.entryCheck p (c.entry p) ∧ k ≠ 0 ∨ s.entryCheck p (c.entry p) = 0 ∧ s.chPick p = none ∧ k = 4)) :=
  ⟨7, { id := 0, r := 56, idx := 4095, words := [65, 0, 2, 956301312], held := .fresh }, 4, { regs := [(590308, 1535), (590312, 0xFFFFFFFF), (595712, 1), (0x80100 + 28, 1)], host := { cmds := [{ id := 0, r := 56, idx := 4095, words := [65, 0, 2, 956301312], held := .fresh }] } }, ⟨by decide +kernel, by decide +kernel, by decide +kernel, by decide +kernel, by decide +kernel, by decide +kernel, by decide +kernel, by decide +kernel⟩, by decide +kernel, by decide +kernel, .inr (by decide +kernel)⟩
theorem witness_ChannelsCreatedModifiedDestroyed_3 : ∃ (p : Fin 8) (c : HCmd) (i : Nat) (s : State), (Commanded s p 0x42 c) ∧ (c.clean (entryMasks (2 ^ 32 - 1)) = true) ∧ (bit (s.hpRights p) 8 = true) ∧ (s.checkHandle 0 (c.w 1) = (.ok i, s)) ∧ ((s.chan i).hp = p.val) ∧ ((s.chan i).state = 0) ∧ (s.entryCheck p (c.entry p) = 0) :=
  ⟨7, { id := 0, r := 56, idx := 4095, words := [66, mkHandle 16383 0, 2, 956301312], held := .fresh }, 16383, { regs := [(590308, 1535), (590312, 0xFFFFFFFF), (595712, 1)], host := { cmds := [{ id := 0, r := 56, idx := 4095, words := [66, mkHandle 16383 0, 2, 956301312], held := .fresh }] }, pump := { chans := [(16383, { kind := 2, hp := 7, ring := 57, state := 0 })] } }, ⟨by decide +kernel, by decide +kernel, by decide +kernel, by decide +kernel, by decide +kernel, by decide +kernel, by decide +kernel, by decide +kernel⟩, by decide +kernel, by decide +kernel, rfl, by decide +kernel, by decide +kernel, by decide +kernel⟩
theorem witness_ChannelsCreatedModifiedDestroyed_4 : ∃ (p : Fin 8) (c : HCmd) (i : Nat) (s : State), (Commanded s p 0x42 c) ∧ (c.clean (entryMasks (2 ^ 32 - 1)) = true) ∧ (bit (s.hpRights p) 8 = true) ∧ (s.checkHandle 0 (c.w 1) = (.ok i, s)) ∧ ((s.chan i).hp = p.val) ∧ ((s.chan i).state ≠ 0) :=
  ⟨7, { id := 0, r := 56, idx := 4095, words := [66, mkHandle 16383 0, 2, 956301312], held := .fresh }, 16383, { regs := [(590308, 1535), (590312, 0xFFFFFFFF), (595712, 1)], host := { cmds := [{ id := 0, r := 56, idx := 4095, words := [66, mkHandle 16383 0, 2, 956301312], held := .fresh }] }, pump := { chans := [(16383, { kind := 2, hp := 7, ring := 57, state := 2 })] } }, ⟨by decide +kernel, by decide +kernel, by decide +kernel, by decide +kernel, by decide +kernel, by decide +kernel, by decide +kernel, by decide +kernel⟩, by decide +kernel, by decide +kernel, rfl, by decide +kernel, by decide +kernel⟩
theorem witness_ChannelsCreatedModifiedDestroyed_5 : ∃ (p : Fin 8) (c : HCmd) (i : Nat) (s : State), (Commanded s p 0x43 c) ∧ (c.clean [2 ^ 32 - 1] = true) ∧ (bit (s.hpRights p) 8 = true) ∧ (s.checkHandle 0 (c.w 1) = (.ok i, s)) ∧ ((s.chan i).hp = p.val) :=
  ⟨7, { id := 0, r := 56, idx := 4095, words := [67, mkHandle 16383 0], held := .fresh }, 16383, { regs := [(590308, 1535), (590312, 0xFFFFFFFF), (595712, 1)], host := { cmds := [{ id := 0, r := 56, idx := 4095, words := [67, mkHandle 16383 0], held := .fresh }] }, pump := { chans := [(16383, { kind := 2, hp := 7, ring := 57, state := 0 })] } }, ⟨by decide +kernel, by decide +kernel, by decide +kernel, by decide +kernel, by decide +kernel, by decide +kernel, by decide +kernel, by decide +kernel⟩, by decide +kernel, by decide +kernel, rfl, by decide +kernel⟩
theorem witness_ChannelsCreatedModifiedDestroyed_6 : ∃ (p : Fin 8) (i : Instr) (op : Nat) (j : Nat) (masks : List Nat) (c : HCmd) (s : State), ((i, op, masks) ∈ [(.chModify p, 0x42, entryMasks (2 ^ 32 - 1)), (.chDestroy p, 0x43, [2 ^ 32 - 1]), (.chEnable p, 0x44, [2 ^ 32 - 1]), (.chDisable p, 0x45, [2 ^ 32 - 1])]) ∧ (Commanded s p op c) ∧ (c.clean masks = true) ∧ ((op = 0x42 ∨ op = 0x43 → bit (s.hpRights p) 8 = true)) ∧ (s.checkHandle 0 (c.w 1) = (.ok j, s)) ∧ ((s.chan j).hp ≠ p.val) :=
  ⟨7, .chModify 7, 66, 16383, entryMasks (2 ^ 32 - 1), { id := 0, r := 56, idx := 4095, words := [66, mkHandle 16383 0, 2, 956301312], held := .fresh }, { regs := [(590308, 1535), (590312, 0xFFFFFFFF), (595712, 1)], host := { cmds := [{ id := 0, r := 56, idx := 4095, words := [66, mkHandle 16383 0, 2, 956301312], held := .fresh }] }, pump := { chans := [(16383, { kind := 2, hp := 6, ring := 57, state := 0 })] } }, by simp, ⟨by decide +kernel, by decide +kernel, by decide +kernel, by decide +kernel, by decide +kernel, by decide +kernel, by decide +kernel, by decide +kernel⟩, by decide +kernel, by decide +kernel, rfl, by decide +kernel⟩
theorem witness_ChannelsCreatedModifiedDestroyed_6b : ∃ (p : Fin 8) (i : Instr) (op : Nat) (j : Nat) (masks : List Nat) (c : HCmd) (s : State), ((i, op, masks) ∈ [(.chModify p, 0x42, entryMasks (2 ^ 32 - 1)), (.chDestroy p, 0x43, [2 ^ 32 - 1]), (.chEnable p, 0x44, [2 ^ 32 - 1]), (.chDisable p, 0x45, [2 ^ 32 - 1])]) ∧ (Commanded s p op c) ∧ (c.clean masks = true) ∧ ((op = 0x42 ∨ op = 0x43 → bit (s.hpRights p) 8 = true)) ∧ (s.checkHandle 0 (c.w 1) = (.ok j, s)) ∧ ((s.chan j).hp ≠ p.val) :=
  ⟨7, .chDisable 7, 69, 16383, [2 ^ 32 - 1], { id := 0, r := 56, idx := 4095, words := [69, mkHandle 16383 0], held := .fresh }, { regs := [(590308, 1535), (590312, 0xFFFFFFFF), (595712, 1)], host := { cmds := [{ id := 0, r := 56, idx := 4095, words := [69, mkHandle 16383 0], held := .fresh }] }, pump := { chans := [(16383, { kind := 2, hp := 6, ring := 57, state := 0 })] } }, by simp, ⟨by decide +kernel, by decide +kernel, by decide +kernel, by decide +kernel, by decide +kernel, by decide +kernel, by decide +kernel, by decide +kernel⟩, by decide +kernel, by decide +kernel, rfl, by decide +kernel⟩
theorem witness_EnableAndDisable_0 : ∃ (p : Fin 8) (i : Instr) (c : HCmd) (o : Bool × Nat) (s : State), ((i = .chEnable p ∧ Commanded s p 0x44 c ∧ c.clean [2 ^ 32 - 1] = true ∧ s.checkHandle 0 (c.w 1) = (.ok o.2, s) ∧ (s.chan o.2).hp = p.val ∧ o.1 = false ∨ i = .portEnable p ∧ Commanded s p 0x48 c ∧ c.clean [31] = true ∧ o = (true, c.w 1 % 32) ∧ bit (s.hpPorts p) (c.w 1 % 32) = true)) :=
  ⟨7, .chEnable 7, { id := 0, r := 56, idx := 4095, words := [68, mkHandle 16383 0], held := .fresh }, (false, 16383), { regs := [(590308, 1535), (590312, 0xFFFFFFFF), (595712, 1)], host := { cmds := [{ id := 0, r := 56, idx := 4095, words := [68, mkHandle 16383 0], held := .fresh }] }, pump := { chans := [(16383, { kind := 2, hp := 7, ring := 57, state := 0 })] } }, .inl ⟨rfl, ⟨by decide +kernel, by decide +kernel, by decide +kernel, by decide +kernel, by decide +kernel, by decide +kernel, by decide +kernel, by decide +kernel⟩, by decide +kernel, rfl, by decide +kernel, rfl⟩⟩
theorem witness_EnableAndDisable_0b : ∃ (p : Fin 8) (i : Instr) (c : HCmd) (o : Bool × Nat) (s : State), ((i = .chEnable p ∧ Commanded s p 0x44 c ∧ c.clean [2 ^ 32 - 1] = true ∧ s.checkHandle 0 (c.w 1) = (.ok o.2, s) ∧ (s.chan o.2).hp = p.val ∧ o.1 = false ∨ i = .portEnable p ∧ Commanded s p 0x48 c ∧ c.clean [31] = true ∧ o = (true, c.w 1 % 32) ∧ bit (s.hpPorts p) (c.w 1 % 32) = true)) :=
  ⟨7, .portEnable 7, { id := 0, r := 56, idx := 4095, words := [72, 31], held := .fresh }, (true, 31), { regs := [(590308, 1535), (590312, 0xFFFFFFFF), (595712, 1)], host := { cmds := [{ id := 0, r := 56, idx := 4095, words := [72, 31], held := .fresh }], pstate := [(31, 2)] } }, .inr ⟨rfl, ⟨by decide +kernel, by decide +kernel, by decide +kernel, by decide +kernel, by decide +kernel, by decide +kernel, by decide +kernel, by decide +kernel⟩, by decide +kernel, rfl, by decide +kernel⟩⟩
theorem witness_EnableAndDisable_1 : ∃ (p : Fin 8) (i : Instr) (c : HCmd) (o : Bool × Nat) (s : State), ((i = .chDisable p ∧ Commanded s p 0x45 c ∧ c.clean [2 ^ 32 - 1] = true ∧ s.checkHandle 0 (c.w 1) = (.ok o.2, s) ∧ (s.chan o.2).hp = p.val ∧ o.1 = false ∨ i = .portDisable p ∧ Commanded s p 0x49 c ∧ c.clean [31] = true ∧ o = (true, c.w 1 % 32) ∧ bit (s.hpPorts p) (c.w 1 % 32) = true)) ∧ (s.objState o < 5) ∧ ((∀ d ∈ s.host.cmds, d.id = c.id → d = c)) :=
  ⟨7, .chDisable 7, { id := 0, r := 56, idx := 4095, words := [69, mkHandle 16383 0], held := .fresh }, (false, 16383), { regs := [(590308, 1535), (590312, 0xFFFFFFFF), (595712, 1)], host := { cmds := [{ id := 0, r := 56, idx := 4095, words := [69, mkHandle 16383 0], held := .fresh }] }, pump := { chans := [(16383, { kind := 2, hp := 7, ring := 57, state := 0 })] } }, .inl ⟨rfl, ⟨by decide +kernel, by decide +kernel, by decide +kernel, by decide +kernel, by decide +kernel, by decide +kernel, by decide +kernel, by decide +kernel⟩, by decide +kernel, rfl, by decide +kernel, rfl⟩, by decide +kernel, by decide +kernel⟩
theorem witness_EnableAndDisable_1b : ∃ (p : Fin 8) (i : Instr) (c : HCmd) (o : Bool × Nat) (s : State), ((i = .chDisable p ∧ Commanded s p 0x45 c ∧ c.clean [2 ^ 32 - 1] = true ∧ s.checkHandle 0 (c.w 1) = (.ok o.2, s) ∧ (s.chan o.2).hp = p.val ∧ o.1 = false ∨ i = .portDisable p ∧ Commanded s p 0x49 c ∧ c.clean [31] = true ∧ o = (true, c.w 1 % 32) ∧ bit (s.hpPorts p) (c.w 1 % 32) = true)) ∧ (s.objState o < 5) ∧ ((∀ d ∈ s.host.cmds, d.id = c.id → d = c)) :=
  ⟨7, .portDisable 7, { id := 0, r := 56, idx := 4095, words := [73, 31], held := .fresh }, (true, 31), { regs := [(590308, 1535), (590312, 0xFFFFFFFF), (595712, 1)], host := { cmds := [{ id := 0, r := 56, idx := 4095, words := [73, 31], held := .fresh }], pstate := [(31, 2)] } }, .inr ⟨rfl, ⟨by decide +kernel, by decide +kernel, by decide +kernel, by decide +kernel, by decide +kernel, by decide +kernel, by decide +kernel, by decide +kernel⟩, by decide +kernel, rfl, by decide +kernel⟩, by decide +kernel, by decide +kernel⟩
theorem witness_EnableAndDisable_2 : ∃ (n : Fin 32) (i : Instr) (v : Nat) (k : Nat) (s : State), (s.pstate n = 1) ∧ ((i = .portOn n ∧ s.up (3 + n.val / 4) = true ∧ (s.laneMode n && (s.port n).rxOn) = false ∧ v = 2 ∧ k = 0 ∨ i = .enableTimeout n ∧ tget 0 s.host.penAt n + 2 * 67108864000000 ≤ s.tb.elapsed ∧ v = 0 ∧ k = 9)) :=
  ⟨31, .portOn 31, 2, 0, { host := { pstate := [(31, 1)] } }, by decide +kernel, .inl ⟨rfl, by decide +kernel, by decide +kernel, rfl, rfl⟩⟩
theorem witness_EnableAndDisable_2b : ∃ (n : Fin 32) (i : Instr) (v : Nat) (k : Nat) (s : State), (s.pstate n = 1) ∧ ((i = .portOn n ∧ s.up (3 + n.val / 4) = true ∧ (s.laneMode n && (s.port n).rxOn) = false ∧ v = 2 ∧ k = 0 ∨ i = .enableTimeout n ∧ tget 0 s.host.penAt n + 2 * 67108864000000 ≤ s.tb.elapsed ∧ v = 0 ∧ k = 9)) :=
  ⟨31, .enableTimeout 31, 0, 9, { tb := { elapsed := 2 * 67108864000000 }, host := { pstate := [(31, 1)] } }, by decide +kernel, .inr ⟨rfl, by decide +kernel, rfl, rfl⟩⟩
theorem witness_EnableAndDisable_3 : ∃ (ch : Fin 16384) (v : Nat) (k : Nat) (s : State), ((s.chan ch).state = 1) ∧ ((s.entryCheck (s.chan ch).hp (s.chan ch) = 0 ∧ v = 2 ∧ k = 0 ∨ s.entryCheck (s.chan ch).hp (s.chan ch) ≠ 0 ∧ v = 0 ∧ k = 3)) :=
  ⟨16383, 2, 0, { regs := [(590308, 255)], pump := { chans := [(16383, { kind := 2, hp := 7, ring := 57, state := 1 })] } }, by decide +kernel, .inl (by decide +kernel)⟩
theorem witness_EnableAndDisable_3b : ∃ (ch : Fin 16384) (v : Nat) (k : Nat) (s : State), ((s.chan ch).state = 1) ∧ ((s.entryCheck (s.chan ch).hp (s.chan ch) = 0 ∧ v = 2 ∧ k = 0 ∨ s.entryCheck (s.chan ch).hp (s.chan ch) ≠ 0 ∧ v = 0 ∧ k = 3)) :=
  ⟨16383, 0, 3, { regs := [(590308, 0)], pump := { chans := [(16383, { kind := 2, hp := 7, ring := 57, state := 1 })] } }, by decide +kernel, .inr (by decide +kernel)⟩
theorem witness_EnableAndDisable_4 : ∃ (n : Fin 32) (s : State), ((s.pstate n = 3 ∨ s.pstate n = 4)) ∧ ((s.port n).tx = none) ∧ ((s.port n).ends = []) ∧ ((s.port n).rxOn = false) ∧ ((s.port n).txTill.getD 0 ≤ s.tb.elapsed) :=
  ⟨31, { host := { pstate := [(31, 4)] } }, .inr (by decide +kernel), by decide +kernel, by decide +kernel, by decide +kernel, by decide +kernel⟩
theorem witness_EnableAndDisable_4b : ∃ (n : Fin 32) (s : State), ((s.pstate n = 3 ∨ s.pstate n = 4)) ∧ ((s.port n).tx = none) ∧ ((s.port n).ends = []) ∧ ((s.port n).rxOn = false) ∧ ((s.port n).txTill.getD 0 ≤ s.tb.elapsed) :=
  ⟨31, { host := { pstate := [(31, 3)] } }, .inl (by decide +kernel), by decide +kernel, by decide +kernel, by decide +kernel, by decide +kernel⟩
theorem witness_EnableAndDisable_5 : ∃ (ch : Fin 16384) (s : State), (((s.chan ch).state = 3 ∨ (s.chan ch).state = 4)) ∧ (s.inflight ch = 0) ∧ ((∀ q ∈ s.host.posts, q.ch ≠ ch.val)) ∧ ((∀ d ∈ s.host.cmds, ∀ e ∈ s.host.cmds, d.id = e.id → d = e)) :=
  ⟨16383, { pump := { chans := [(16383, { kind := 2, state := 3 })] } }, .inl (by decide +kernel), by decide +kernel, by decide +kernel, by decide +kernel⟩
theorem witness_LockCommandsAndLeases_0 : ∃ (p : Fin 8) (c : HCmd) (n : Nat) (g : GLock) (s : State), (Commanded s p 0x58 c) ∧ (c.clean [1023, 0, 16383] = true) ∧ (s.rank ≤ 9 + p.val) ∧ (bit (s.hpRights p) 10 = true) ∧ (n = c.w 1) ∧ (g = s.glock n) :=
  ⟨7, { id := 0, r := 56, idx := 4095, words := [88, 1023, 0, 16000], held := .fresh }, _, _, { regs := [(590308, 1535), (590312, 0xFFFFFFFF), (595712, 1)], host := { cmds := [{ id := 0, r := 56, idx := 4095, words := [88, 1023, 0, 16000], held := .fresh }] } }, ⟨by decide +kernel, by decide +kernel, by decide +kernel, by decide +kernel, by decide +kernel, by decide +kernel, by decide +kernel, by decide +kernel⟩, by decide +kernel, by decide +kernel, by decide +kernel, rfl, rfl⟩
theorem witness_LockCommandsAndLeases_1 : ∃ (p : Fin 8) (c : HCmd) (n : Nat) (g : GLock) (s : State), (Commanded s p 0x59 c) ∧ (c.clean [1023] = true) ∧ (s.rank ≤ 9 + p.val) ∧ (bit (s.hpRights p) 10 = true) ∧ (n = c.w 1) ∧ (g = s.glock n) :=
  ⟨7, { id := 0, r := 56, idx := 4095, words := [89, 1023], held := .fresh }, _, _, { regs := [(590308, 1535), (590312, 0xFFFFFFFF), (595712, 1)], host := { cmds := [{ id := 0, r := 56, idx := 4095, words := [89, 1023], held := .fresh }] } }, ⟨by decide +kernel, by decide +kernel, by decide +kernel, by decide +kernel, by decide +kernel, by decide +kernel, by decide +kernel, by decide +kernel⟩, by decide +kernel, by decide +kernel, by decide +kernel, rfl, rfl⟩
theorem witness_LockCommandsAndLeases_2 : ∃ (c : HCmd) (n : Nat) (g : GLock) (s : State), (Commanded s 0 0x5A c) ∧ (c.clean [1023] = true) ∧ (s.rank ≤ 9) ∧ (bit (s.hpRights 0) 10 = true) ∧ (n = c.w 1) ∧ (g = s.glock n) :=
  ⟨{ id := 0, r := 0, idx := 4095, words := [0x5A, 1023], held := .fresh }, _, _, { regs := [(0x90104, 0x400), (0x91000, 1)], host := { cmds := [{ id := 0, r := 0, idx := 4095, words := [0x5A, 1023], held := .fresh }] } }, ⟨by decide +kernel, by decide +kernel, by decide +kernel, by decide +kernel, by decide +kernel, by decide +kernel, by decide +kernel, by decide +kernel⟩, by decide +kernel, by decide +kernel, by decide +kernel, rfl, rfl⟩
theorem witness_LockCommandsAndLeases_3 : ∃ (p : Fin 8) (c : HCmd) (sp : Nat) (lb : Nat) (a : Nat) (w : Nat) (s : State) (u : State), (Commanded s p 0x5B c) ∧ (c.clean [2 ^ 32 - 1, 7, 16383] = true) ∧ (s.rank ≤ 9 + p.val) ∧ (bit (s.hpRights p) 10 = true) ∧ (c.lockWord = some (sp, lb, a)) ∧ (1 ≤ c.w 3) ∧ (c.w 3 ≤ 16000) ∧ (w = s.lockRead sp lb a) ∧ (s.eccOf (lockMem sp lb) (a / 4) = none) ∧ (bit w 8 = false) ∧ (s.lockTake (128 + p.val) (c.w 3) sp lb a w = some u) :=
  ⟨7, { id := 0, r := 56, idx := 4095, words := [91, 0x2007FFFC, 7, 16000], held := .fresh }, 1, 7, 0x7FFFC, _, { regs := [(590308, 1535), (590312, 0xFFFFFFFF), (595712, 1)], host := { cmds := [{ id := 0, r := 56, idx := 4095, words := [91, 0x2007FFFC, 7, 16000], held := .fresh }] } }, _, ⟨by decide +kernel, by decide +kernel, by decide +kernel, by decide +kernel, by decide +kernel, by decide +kernel, by decide +kernel, by decide +kernel⟩, by decide +kernel, by decide +kernel, by decide +kernel, by decide +kernel, by decide +kernel, by decide +kernel, rfl, by decide +kernel, by decide +kernel, someGetD (d := {}) (lockTake_isSome rfl)⟩
theorem witness_LockCommandsAndLeases_4 : ∃ (m : Nat) (us : Nat) (sp : Nat) (lb : Nat) (a : Nat) (w : Nat) (s : State) (u : State), (s.lockTake m us sp lb a w = some u) :=
  ⟨143, 16000, 1, 7, 0x7FFFC, 0, {}, _, someGetD (d := {}) (lockTake_isSome rfl)⟩
theorem witness_LockCommandsAndLeases_5 : ∃ (p : Fin 8) (c : HCmd) (sp : Nat) (lb : Nat) (a : Nat) (i : Nat) (w : Nat) (s : State), (Commanded s p 0x5C c) ∧ (c.clean [2 ^ 32 - 1, 7] = true) ∧ (s.rank ≤ 9 + p.val) ∧ (bit (s.hpRights p) 10 = true) ∧ (c.lockWord = some (sp, lb, a)) ∧ (w = s.lockRead sp lb a) ∧ (s.eccOf (lockMem sp lb) (a / 4) = none) ∧ (i = bits w 21 12) :=
  ⟨7, { id := 0, r := 56, idx := 4095, words := [92, 0x2007FFFC, 7], held := .fresh }, 1, 7, 0x7FFFC, 0, _, { regs := [(590308, 1535), (590312, 0xFFFFFFFF), (595712, 1)], host := { cmds := [{ id := 0, r := 56, idx := 4095, words := [92, 0x2007FFFC, 7], held := .fresh }] } }, ⟨by decide +kernel, by decide +kernel, by decide +kernel, by decide +kernel, by decide +kernel, by decide +kernel, by decide +kernel, by decide +kernel⟩, by decide +kernel, by decide +kernel, by decide +kernel, by decide +kernel, rfl, by decide +kernel, by decide +kernel⟩
theorem witness_LockCommandsAndLeases_6 : ∃ (k : Fin 2048) (e : Lease) (s : State), (k.val < 1024) ∧ (e = s.lease k) ∧ (s.rank = 0) ∧ (e.st = .live) ∧ (e.expires ≤ s.tb.elapsed) :=
  ⟨1023, _, { locks := { leases := [(1023, { space := 2, addr := 0x7FFFFC, st := .live, value := 0 })] } }, by decide +kernel, rfl, by decide +kernel, by decide +kernel, by decide +kernel⟩
theorem witness_LockCommandsAndLeases_7 : ∃ (k : Fin 2048) (n : Nat) (at_ : Nat) (g : GLock) (s : State), (1024 ≤ k.val) ∧ (n = k.val - 1024) ∧ (g = s.glock n) ∧ (s.rank = 0) ∧ (g.held = true) ∧ (g.st = .live) ∧ (g.expires = some at_) ∧ (at_ ≤ s.tb.elapsed) :=
  ⟨2047, _, 0, _, { locks := { groups := [(1023, { held := true, st := .live, expires := some 0 })] } }, by decide +kernel, rfl, rfl, by decide +kernel, by decide +kernel, by decide +kernel, by decide +kernel, by decide +kernel⟩
theorem witness_LockCommandsAndLeases_9 : ∃ (k : Fin 2048) (e : Lease) (s : State), (k.val < 1024) ∧ (e = s.lease k) ∧ ((e.st = .expired ∨ e.st = .abandoned)) ∧ (s.ecc = []) ∧ (e.space = 2) ∧ (readLE s.pump.cis e.addr 4 = e.value) :=
  ⟨1023, _, { locks := { leases := [(1023, { space := 2, addr := 0x7FFFFC, st := .expired, value := 0 })] } }, by decide +kernel, rfl, .inl (by decide +kernel), by decide +kernel, by decide +kernel, by decide +kernel⟩
theorem witness_LockCommandsAndLeases_10 : ∃ (k : Fin 2048) (n : Nat) (g : GLock) (s : State), (1024 ≤ k.val) ∧ (n = k.val - 1024) ∧ (g = s.glock n) ∧ (g.held = true) ∧ ((g.st = .expired ∨ g.st = .abandoned)) :=
  ⟨2047, _, _, { locks := { groups := [(1023, { held := true, st := .abandoned })] } }, by decide +kernel, rfl, rfl, by decide +kernel, .inr (by decide +kernel)⟩
theorem witness_LockCommandsAndLeases_11 : ∃ (w : Word) (n : Nat) (c : Nat) (op : Nat) (i : Instr) (s : State) (u : State), (n = bits w.toNat 9 0) ∧ ((i = .whLockAcquire w ∧ op = 1 ∧ (c, u) = s.groupAcquire 144 none n ∨ i = .whLockRelease w ∧ op = 2 ∧ (c, u) = s.groupRelease 144 n 0 ∨ i = .whLockForce w ∧ op = 3 ∧ (c, u) = s.groupForce 144 n)) :=
  ⟨1023, 1023, _, 1, .whLockAcquire 1023, {}, _, by decide +kernel, .inl ⟨rfl, rfl, rfl⟩⟩
theorem witness_LockCommandsAndLeases_12 : ∃ (n : Nat) (g : GLock) (s : State), (g = s.glock n) ∧ (bit (s.gcfg n) 16 = true) ∧ (g.held = false) :=
  ⟨1023, _, { regs := [(0xA0080 + 124, 65536)] }, rfl, by decide +kernel, by decide +kernel⟩
theorem witness_DestinationFormsAndFrames_0 : ∃ (x : Nat) (pc : Nat) (a : Nat) (n : Nat) (v : Nat) (at_ : Bool) (s : State) (t : State), (t = writeLoc s x pc at_ (.well a) n v) :=
  ⟨127, 0, 0xFFC, 4, 1, false, {}, _, rfl⟩
theorem witness_DestinationFormsAndFrames_1 : ∃ (x : Nat) (pc : Nat) (a : Nat) (n : Nat) (v : Nat) (at_ : Bool) (s : State) (t : State), (t = writeLoc s x pc at_ (.res a) n v) :=
  ⟨127, 0, 0x7FFFC, 4, 1, false, {}, _, rfl⟩
theorem witness_EventActionsFaultsClocksAndPairs_1 : ∃ (e : Ev) (es : List Ev) (a : Nat) (s : State), (s.evq = e :: es) ∧ (e.at_ ≤ s.strokes) ∧ (e.trace = false) ∧ (a = s.action e.cls) ∧ (bit a 1 = false) ∧ ((e.cls = 3 → s.inStep e.arg0 = false)) :=
  ⟨{ unit := 11, cls := 14, typ := 14, alarm := false, trace := false, arg0 := 0, arg1 := 0, force := true }, [], _, { evq := [{ unit := 11, cls := 14, typ := 14, alarm := false, trace := false, arg0 := 0, arg1 := 0, force := true }] }, by decide +kernel, by decide +kernel, by decide +kernel, rfl, by decide +kernel, by decide +kernel⟩
theorem witness_EventActionsFaultsClocksAndPairs_5 : ∃ (s : State), (bit (s.action 3) 1 = true) ∧ (s.wh.rot.mig = none) :=
  ⟨{ regs := [(0x02014, 0x2000)] }, by decide +kernel, by decide +kernel⟩
theorem witness_EventActionsFaultsClocksAndPairs_6 : ∃ (w : Word), (w.toNat % 256 = 0xA5) :=
  ⟨0xA5, by decide +kernel⟩
theorem witness_EventActionsFaultsClocksAndPairs_7 : ∃ (w : Word) (k : Nat) (s : State), (w.toNat % 256 = 0x5A) ∧ (s.wh.key = some k) ∧ (s.tb.elapsed ≤ k + 67108864000000) ∧ (s.mram.primed = true) ∧ (s.dbg.testMode = false) ∧ (s.wh.fault = true) ∧ (s.wh.halvesOk = true) ∧ (s.wh.byHalves = false) ∧ ((∀ l, s.wh.lastFault = some l → l + 67108864000000 ≤ s.tb.elapsed)) :=
  ⟨0x5A, 0, { mram := { primed := true }, tb := { elapsed := 67108864000000 }, wh := { key := some 0, lastFault := some 0 } }, by decide +kernel, by decide +kernel, by decide +kernel, by decide +kernel, by decide +kernel, by decide +kernel, by decide +kernel, by decide +kernel, by intro l h; cases h; decide⟩
theorem witness_EventActionsFaultsClocksAndPairs_8 : ∃ (w : Word) (s : State), (w.toNat % 256 ≠ 0xA5) ∧ ((w.toNat % 256 ≠ 0x5A ∨ s.wh.key = none ∨ (∃ k, s.wh.key = some k ∧ k + 67108864000000 < s.tb.elapsed) ∨ s.wh.fault = false ∨ s.wh.byHalves = true ∨ s.wh.halvesOk = false ∨ ∃ l, s.wh.lastFault = some l ∧ s.tb.elapsed < l + 67108864000000)) :=
  ⟨0, {}, by decide +kernel, .inl (by decide)⟩
theorem witness_EventActionsFaultsClocksAndPairs_8b : ∃ (w : Word) (s : State), (w.toNat % 256 ≠ 0xA5) ∧ ((w.toNat % 256 ≠ 0x5A ∨ s.wh.key = none ∨ (∃ k, s.wh.key = some k ∧ k + 67108864000000 < s.tb.elapsed) ∨ s.wh.fault = false ∨ s.wh.byHalves = true ∨ s.wh.halvesOk = false ∨ ∃ l, s.wh.lastFault = some l ∧ s.tb.elapsed < l + 67108864000000)) :=
  ⟨0x5A, { tb := { elapsed := 67108863999999 }, wh := { key := some 0, lastFault := some 0 } }, by decide +kernel, .inr (.inr (.inr (.inr (.inr (.inr ⟨0, by decide⟩)))))⟩
theorem witness_EventActionsFaultsClocksAndPairs_8c : ∃ (w : Word) (s : State), (w.toNat % 256 ≠ 0xA5) ∧ ((w.toNat % 256 ≠ 0x5A ∨ s.wh.key = none ∨ (∃ k, s.wh.key = some k ∧ k + 67108864000000 < s.tb.elapsed) ∨ s.wh.fault = false ∨ s.wh.byHalves = true ∨ s.wh.halvesOk = false ∨ ∃ l, s.wh.lastFault = some l ∧ s.tb.elapsed < l + 67108864000000)) :=
  ⟨0x5A, {}, by decide +kernel, .inr (.inl rfl)⟩
theorem witness_EventActionsFaultsClocksAndPairs_8d : ∃ (w : Word) (s : State), (w.toNat % 256 ≠ 0xA5) ∧ ((w.toNat % 256 ≠ 0x5A ∨ s.wh.key = none ∨ (∃ k, s.wh.key = some k ∧ k + 67108864000000 < s.tb.elapsed) ∨ s.wh.fault = false ∨ s.wh.byHalves = true ∨ s.wh.halvesOk = false ∨ ∃ l, s.wh.lastFault = some l ∧ s.tb.elapsed < l + 67108864000000)) :=
  ⟨0x5A, { tb := { elapsed := 67108864000001 }, wh := { key := some 0 } }, by decide +kernel, .inr (.inr (.inl ⟨0, by decide⟩))⟩
theorem witness_EventActionsFaultsClocksAndPairs_10 : ∃ (counts : List Nat), (counts.length = 13) :=
  ⟨List.replicate 13 64, by decide +kernel⟩
theorem witness_EventActionsFaultsClocksAndPairs_11 : ∃ (k : Fin 16) (a : Nat) (s : State), ((s.pair k).trailAt = some a) ∧ (a ≤ s.strokes) :=
  ⟨15, 16, { strokes := 16, wh := { pairs := [(15, { trailAt := some 16 })] } }, by decide +kernel, by decide +kernel⟩
theorem witness_EventActionsFaultsClocksAndPairs_12 : ∃ (k : Fin 16) (kind : Nat) (a : Nat) (b : Nat) (s : State), ((s.pair k).diff = some kind) ∧ (a = s.pairLead k) ∧ (b = s.pairTrail k) ∧ (a ≠ b) :=
  ⟨15, 4, 0, 1, { regs := [(0x02080 + 120, 0x10100)], wh := { pairs := [(15, { diff := some 4 })] } }, by decide +kernel, by decide +kernel, by decide +kernel, by decide +kernel⟩
theorem witness_ReliefRotationAndReadmission_2 : ∃ (v : Nat) (b : Nat) (s : State), (s.nextVictim = some v) ∧ (s.longestIdle = some b) ∧ (s.mram.primed = true) ∧ (s.rotRuns = true) ∧ (s.wh.rot.mig = none) ∧ (s.wh.rot.emergencies = []) ∧ (s.wh.rot.testing = none) ∧ (s.up 2 = true) ∧ (s.wh.rot.lastAt + 67108864000000 ≤ s.tb.elapsed) :=
  ⟨0, 8, { regs := [(0x02010, 1), (0x0201C, 1)], tb := { elapsed := 67108864000000 }, mram := { primed := true }, pbs := [(8, { role := 1 }), (9, { role := 1, since := 5 })] }, by decide +kernel, by decide +kernel, by decide +kernel, by decide +kernel, by decide +kernel, by decide +kernel, by decide +kernel, by decide +kernel, by decide +kernel⟩
theorem witness_ReliefRotationAndReadmission_3 : ∃ (m : Migr) (s : State), (s.wh.rot.mig = some m) ∧ (m.phase = .mirror) ∧ (m.begun + 17552 ≤ s.strokes) ∧ (s.ecc = []) :=
  ⟨{ victim := 0, target := 9, lb := 0, phase := .mirror, emergency := false, again := false, begun := 0 }, { wh := { rot := { mig := some { victim := 0, target := 9, lb := 0, phase := .mirror, emergency := false, again := false, begun := 0 } } }, strokes := 17552 }, by decide +kernel, by decide +kernel, by decide +kernel, by decide +kernel⟩
theorem witness_ReliefRotationAndReadmission_5 : ∃ (m : Migr) (c : Nat) (s : State), (s.wh.rot.mig = some m) ∧ (m.phase = .frontEnd c) ∧ (c ≤ s.strokes) ∧ (m.victim ≠ m.target) :=
  ⟨{ victim := 0, target := 9, lb := 0, phase := .frontEnd 16, emergency := false, again := false, begun := 0 }, 16, { wh := { rot := { mig := some { victim := 0, target := 9, lb := 0, phase := .frontEnd 16, emergency := false, again := false, begun := 0 } } }, strokes := 16 }, by decide +kernel, by decide +kernel, by decide +kernel, by decide +kernel⟩
theorem witness_ReliefRotationAndReadmission_6 : ∃ (m : Migr) (c : Nat) (s : State), (s.wh.rot.mig = some m) ∧ (m.phase = .drain c) ∧ (s.draining m.lb c = false) ∧ (m.emergency = false) ∧ (m.again = false) ∧ ((s.pb m.victim).doomed = false) :=
  ⟨{ victim := 0, target := 9, lb := 0, phase := .drain 16, emergency := false, again := false, begun := 0 }, 16, { wh := { rot := { mig := some { victim := 0, target := 9, lb := 0, phase := .drain 16, emergency := false, again := false, begun := 0 } } }, strokes := 16 }, by decide +kernel, by decide +kernel, by decide +kernel, by decide +kernel, by decide +kernel, by decide +kernel⟩
theorem witness_ReliefRotationAndReadmission_7 : ∃ (m : Migr) (c : Nat) (s : State), (s.wh.rot.mig = some m) ∧ (m.phase = .drain c) ∧ ((s.pb m.victim).role = 2) ∧ ((s.draining m.lb c = true ∧ c + 4200 < s.strokes ∨ s.draining m.lb c = false ∧ m.emergency = true)) :=
  ⟨{ victim := 0, target := 9, lb := 0, phase := .drain 16, emergency := false, again := false, begun := 0 }, 16, { wh := { rot := { mig := some { victim := 0, target := 9, lb := 0, phase := .drain 16, emergency := false, again := false, begun := 0 } } }, strokes := 4217, pbs := [(0, { role := 2 })], threads := [(0, { longs := [{ op := .arith [], left := 1, perStroke := false, issued := 0, pc := 0 }] })] }, by decide +kernel, by decide +kernel, by decide +kernel, .inl (by decide +kernel)⟩
theorem witness_ReliefRotationAndReadmission_7b : ∃ (m : Migr) (c : Nat) (s : State), (s.wh.rot.mig = some m) ∧ (m.phase = .drain c) ∧ ((s.pb m.victim).role = 2) ∧ ((s.draining m.lb c = true ∧ c + 4200 < s.strokes ∨ s.draining m.lb c = false ∧ m.emergency = true)) :=
  ⟨{ victim := 0, target := 9, lb := 0, phase := .drain 16, emergency := true, again := false, begun := 0 }, 16, { wh := { rot := { mig := some { victim := 0, target := 9, lb := 0, phase := .drain 16, emergency := true, again := false, begun := 0 } } }, pbs := [(0, { role := 2 })] }, by decide +kernel, by decide +kernel, by decide +kernel, .inr (by decide +kernel)⟩
theorem witness_ReliefRotationAndReadmission_8 : ∃ (b : Nat) (a : Nat) (s : State), (s.wh.rot.testing = some (b, a)) :=
  ⟨9, 0, { wh := { rot := { testing := some (9, 0) } } }, by decide +kernel⟩
theorem witness_ReliefRotationAndReadmission_9 : ∃ (b : Nat) (a : Nat) (s : State), (s.wh.rot.testing = some (b, a)) :=
  ⟨9, 0, { wh := { rot := { testing := some (9, 0) } } }, by decide +kernel⟩
theorem witness_ReliefRotationAndReadmission_10 : ∃ (b : Fin 10) (d : Nat) (s : State), (s.wh.rot.mig = none) ∧ (b.val ∈ s.wh.rot.emergencies) ∧ (s.longestIdle = some d) :=
  ⟨9, 8, { wh := { rot := { emergencies := [9] } }, pbs := [(8, { role := 1 })] }, by decide +kernel, by decide +kernel, by decide +kernel⟩
theorem witness_ReliefRotationAndReadmission_11 : ∃ (b : Fin 10) (s : State), (s.wh.rot.mig = none) ∧ (b.val ∈ s.wh.rot.emergencies) ∧ (s.longestIdle = none) ∧ (s.wh.rot.testing = none) :=
  ⟨9, { wh := { rot := { emergencies := [9] } }, pbs := [(8, { role := 4 }), (9, { role := 0 })] }, by decide +kernel, by decide +kernel, by decide +kernel, by decide +kernel⟩
theorem witness_ReliefRotationAndReadmission_12 : ∃ (w : Word) (b : Nat), (b = bits w.toNat 3 0) :=
  ⟨9, _, rfl⟩
theorem witness_ReliefRotationAndReadmission_13 : ∃ (b : Nat) (a : Nat) (s : State), (s.wh.rot.retest = some (b, a)) ∧ ((s.pb b).readmitted < bits (s.reg 0x0201C) 19 16) :=
  ⟨9, 0, { regs := [(0x0201C, 0x10000)], wh := { rot := { retest := some (9, 0) } } }, by decide +kernel, by decide +kernel⟩
theorem witness_ReliefRotationAndReadmission_14 : ∃ (b : Nat) (a : Nat) (pass : Bool) (s : State), (s.wh.rot.retest = some (b, a)) ∧ ((pass = false ∨ bits (s.reg 0x0201C) 19 16 ≤ (s.pb b).readmitted)) :=
  ⟨9, 0, false, { wh := { rot := { retest := some (9, 0) } } }, by decide +kernel, .inl rfl⟩
theorem witness_WellLogAndScrubbing_0 : ∃ (u : Nat) (e : Ev) (s : State), (s.intakeNext = some (u, e)) :=
  ⟨11, { unit := 11, cls := 14, typ := 14, alarm := false, trace := false, arg0 := 0, arg1 := 0, force := true }, { wh := { intake := [(11, [{ unit := 11, cls := 14, typ := 14, alarm := false, trace := false, arg0 := 0, arg1 := 0, force := true }])] } }, by decide +kernel⟩
theorem witness_WellLogAndScrubbing_1 : ∃ (u : Nat) (e : Ev) (s : State), (s.intakeNext = some (u, e)) ∧ (s.wh.coalesce = []) ∧ (s.wh.gaps = []) :=
  ⟨11, { unit := 11, cls := 14, typ := 14, alarm := false, trace := false, arg0 := 0, arg1 := 0, force := true }, { wh := { intake := [(11, [{ unit := 11, cls := 14, typ := 14, alarm := false, trace := false, arg0 := 0, arg1 := 0, force := true }])] } }, by decide +kernel, by decide +kernel, by decide +kernel⟩
theorem witness_WellLogAndScrubbing_2 : ∃ (s : State), (s.wh.staging.length ≤ 512) ∧ (s.wh.coalesce.length + s.wh.gaps.length ≤ 512) :=
  ⟨{ wh := { coalesce := [(0, 1)], gaps := [(11, (1, 0))] } }, by decide +kernel, by decide +kernel⟩
theorem witness_WellLogAndScrubbing_4 : ∃ (r : LogRec) (rs : List LogRec) (s : State), (s.wh.staging = r :: rs) ∧ (s.wh.coalesce = []) ∧ (s.wh.gaps = []) ∧ (bit (s.action r.ev.cls) 3 = false) ∧ (s.wh.open_ = none) :=
  ⟨{ ev := { unit := 11, cls := 14, typ := 14, alarm := false, trace := false, arg0 := 0, arg1 := 0, force := true }, inc := false, seq := 0, ns := 0, sec := 0, epoch := 0, strokes := 0 }, [], { wh := { staging := [{ ev := { unit := 11, cls := 14, typ := 14, alarm := false, trace := false, arg0 := 0, arg1 := 0, force := true }, inc := false, seq := 0, ns := 0, sec := 0, epoch := 0, strokes := 0 }], ringNext := 32765 } }, by decide +kernel, by decide +kernel, by decide +kernel, by decide +kernel, by decide +kernel⟩
theorem witness_WellLogAndScrubbing_5 : ∃ (r : LogRec) (rs : List LogRec) (i : Nat) (s : State), (s.wh.staging = r :: rs) ∧ (s.wh.coalesce = []) ∧ (s.wh.gaps = []) ∧ (bit (s.action r.ev.cls) 3 = true) ∧ (s.wh.open_ = none) ∧ (s.incidentSlot = some i) :=
  ⟨{ ev := { unit := 11, cls := 1, typ := 14, alarm := false, trace := false, arg0 := 0, arg1 := 0, force := true }, inc := false, seq := 0, ns := 0, sec := 0, epoch := 0, strokes := 0 }, [], 0, { wh := { staging := [{ ev := { unit := 11, cls := 1, typ := 14, alarm := false, trace := false, arg0 := 0, arg1 := 0, force := true }, inc := false, seq := 0, ns := 0, sec := 0, epoch := 0, strokes := 0 }] } }, by decide +kernel, by decide +kernel, by decide +kernel, by decide +kernel, by decide +kernel, by decide +kernel⟩
theorem witness_WellLogAndScrubbing_6 : ∃ (r : LogRec) (rs : List LogRec) (i : Nat) (m : Nat) (s : State), (s.wh.staging = r :: rs) ∧ (s.wh.coalesce = []) ∧ (s.wh.gaps = []) ∧ (s.wh.open_ = some i) ∧ (i < 8) ∧ (m = (s.incident i).written) :=
  ⟨{ ev := { unit := 11, cls := 14, typ := 14, alarm := false, trace := false, arg0 := 0, arg1 := 0, force := true }, inc := false, seq := 0, ns := 0, sec := 0, epoch := 0, strokes := 0 }, [], 7, 4096, { wh := { staging := [{ ev := { unit := 11, cls := 14, typ := 14, alarm := false, trace := false, arg0 := 0, arg1 := 0, force := true }, inc := false, seq := 0, ns := 0, sec := 0, epoch := 0, strokes := 0 }], open_ := some 7, incidents := [(7, { written := 4096 })] } }, by decide +kernel, by decide +kernel, by decide +kernel, by decide +kernel, by decide +kernel, by decide +kernel⟩
theorem witness_WellLogAndScrubbing_8 : ∃ (i : Nat) (s : State), (s.incidentSlot = some i) :=
  ⟨7, { wh := { incidents := [(0, { used := true, endedAt := 8 }), (1, { used := true, endedAt := 7 }), (2, { used := true, endedAt := 6 }), (3, { used := true, endedAt := 5 }), (4, { used := true, endedAt := 4 }), (5, { used := true, endedAt := 3 }), (6, { used := true, endedAt := 2 }), (7, { used := true, endedAt := 1 })] } }, by decide +kernel⟩
theorem witness_WellLogAndScrubbing_9 : ∃ (s : State), (256 ≤ s.wh.writes) :=
  ⟨{ wh := { writes := 256, gap := 0 } }, by decide +kernel⟩
theorem witness_WellLogAndScrubbing_10 : ∃ (i : Nat) (s : State), (s.wh.open_ = some i) ∧ (i < 8) ∧ (s.wh.lastInc + bits (s.reg 0x02100) 9 0 * 67108864000000 ≤ s.tb.elapsed) :=
  ⟨7, { tb := { elapsed := 2 ^ 60 }, wh := { open_ := some 7 } }, by decide +kernel, by decide +kernel, by decide +kernel⟩
theorem witness_WellLogAndScrubbing_12 : ∃ (s : State), (s.wh.reading = true) :=
  ⟨{ wh := { reading := true } }, by decide +kernel⟩
theorem witness_WellLogAndScrubbing_14 : ∃ (m : Mem) (s : State), (m ≠ .routes) ∧ ((∀ lb, m.lbore = some lb → (s.lb lb).shed = false)) ∧ (s.mram.primed = true) :=
  ⟨.cistern, { mram := { primed := true } }, by decide +kernel, by decide +kernel, by decide +kernel⟩
theorem witness_WellLogAndScrubbing_7 : ∃ (r : LogRec) (rs : List LogRec) (s : State), (s.wh.staging = r :: rs) ∧ (s.wh.coalesce = []) ∧ (s.wh.gaps = []) ∧ (bit (s.action r.ev.cls) 3 = true) ∧ (s.wh.open_ = none) ∧ ((∀ i, i < 8 → s.retained i = true)) :=
  ⟨{ ev := { unit := 11, cls := 1, typ := 14, alarm := false, trace := false, arg0 := 0, arg1 := 0, force := true }, inc := false, seq := 0, ns := 0, sec := 0, epoch := 0, strokes := 0 }, [], { regs := [(8512, 262144), (8516, 262144), (8520, 262144), (8524, 262144), (8528, 262144), (8532, 262144), (8536, 262144), (8540, 262144)], wh := { staging := [{ ev := { unit := 11, cls := 1, typ := 14, alarm := false, trace := false, arg0 := 0, arg1 := 0, force := true }, inc := false, seq := 0, ns := 0, sec := 0, epoch := 0, strokes := 0 }], ringNext := 32765 } }, by decide +kernel, by decide +kernel, by decide +kernel, by decide +kernel, by decide +kernel, (by intro i h; interval_cases i <;> decide +kernel)⟩
theorem witness_WellLogAndScrubbing_13 : ∃ (m : Mem) (lb : Nat) (s : State), (m.lbore = some lb) ∧ ((s.lb lb).shed = true) :=
  ⟨.reservoir 7, 7, { lbs := [(7, { shed := true })] }, by decide +kernel, by decide +kernel⟩
theorem witness_ResetsRecordAndTest_2 : ∃ (d : Fin 13) (s : State), (d.val ∈ s.inReset) :=
  ⟨12, { inReset := [12] }, by decide +kernel⟩
theorem witness_ResetsRecordAndTest_4 : ∃ (c : Nat) (s : State), (c = (match s.mram.copy with | some d => 1 - d | none => 0)) :=
  ⟨0, {}, by decide +kernel⟩
theorem witness_ResetsRecordAndTest_6 : ∃ (s : State), (s.up 2 = true) :=
  ⟨{}, by decide +kernel⟩
theorem witness_PrimingAndPrimed_1 : ∃ (s : State) (u : State), (s.primeReady = true) ∧ (s.mram.rerun = none) ∧ ((∀ k ∈ s.ecc, k.mem ≠ .mram)) ∧ (s.recChoose = none) ∧ (u = { s with mram := { s.mram with copy := none } }) ∧ (u.imgFault 0 ≠ 0) ∧ (u.imgFault 1 ≠ 0) :=
  ⟨{ mram := { step := 1, clocksSeen := true } }, _, by decide +kernel, by decide +kernel, (by intro k h; cases h), by decide +kernel, rfl, by decide +kernel, by decide +kernel⟩
theorem witness_PrimingAndPrimed_2 : ∃ (id : Nat) (img : Nat) (s : State), (s.mram.rerun = some (id, img)) ∧ (s.mram.step = 7) ∧ (s.mram.primed = false) ∧ ((∀ k ∈ s.ecc, k.mem ≠ .mram)) ∧ (s.imgFault img = 0) :=
  ⟨0, 0, { mram := { rerun := some (0, 0), step := 7, mem := writeLE (writeLE (writeLE (writeLE (writeLE (writeLE (writeLE (writeLE (writeLE (writeLE (writeLE (writeLE (writeLE (writeLE (writeLE (writeLE (writeLE ([]) 0 4 1095447346) 4 4 1) 8 4 768) 12 4 256) 20 4 192) 24 4 1) 28 4 0) 32 4 0) 192 4 8323077) 64 4 1120186595) 68 4 337443992) 72 4 3371498394) 76 4 616132505) 80 4 3829509671) 84 4 1284741988) 88 4 463050148) 92 4 1438143096 } }, by decide +kernel, by decide +kernel, by decide +kernel, (by intro k h; cases h), by decide +kernel⟩
theorem witness_PrimingAndPrimed_3 : ∃ (i : Nat) (e : ManEntry), (e.kind = 1) ∧ (i < e.w3) :=
  ⟨3, { kind := 1, target := 7, w1 := 0x3FFFC, w2 := 0, w3 := 4 }, by decide +kernel, by decide +kernel⟩
theorem witness_PrimingAndPrimed_4 : ∃ (s : State), (s.mram.primed = false) ∧ (s.mram.recovery = false) ∧ (s.mram.step < 2) ∧ (s.mram.clocksSeen = false) ∧ (s.mram.missAt + 671088640000000 ≤ s.tb.elapsed) ∧ (s.mram.resetAt + 671088640000000 ≤ s.tb.elapsed) :=
  ⟨{ tb := { elapsed := 671088640000000 } }, by decide +kernel, by decide +kernel, by decide +kernel, by decide +kernel, by decide +kernel, by decide +kernel⟩
theorem witness_PrimingAndPrimed_5 : ∃ (s : State) (u : State), (s.mram.step = 8) ∧ (s.mram.primed = false) ∧ (s.mram.rerun = none) ∧ (u = s.startEntries s.mram.image (fun _ => true)) :=
  ⟨{ mram := { step := 8 } }, _, by decide +kernel, by decide +kernel, by decide +kernel, rfl⟩
theorem witness_PrimingAndPrimed_6 : ∃ (img : Nat) (x : Nat) (e : ManEntry) (s : State), (s.manifest img = [e]) ∧ (e.kind = 5) ∧ (e.target = x) ∧ ((s.th x).stopped = true) ∧ ((s.th x).startReq = none) ∧ (s.enabledPair x = none) :=
  ⟨0, 127, { kind := 5, target := 127, w1 := 0, w2 := 0, w3 := 0 }, { mram := { mem := writeLE (writeLE (writeLE (writeLE (writeLE (writeLE (writeLE (writeLE (writeLE (writeLE (writeLE (writeLE (writeLE (writeLE (writeLE (writeLE (writeLE ([]) 0 4 1095447346) 4 4 1) 8 4 768) 12 4 256) 20 4 192) 24 4 1) 28 4 0) 32 4 0) 192 4 8323077) 64 4 1120186595) 68 4 337443992) 72 4 3371498394) 76 4 616132505) 80 4 3829509671) 84 4 1284741988) 88 4 463050148) 92 4 1438143096 } }, by decide +kernel, by decide +kernel, by decide +kernel, by decide +kernel, by decide +kernel, by decide +kernel⟩
theorem witness_PrimingAndPrimed_7 : ∃ (id : Nat) (img : Nat) (c : HCmd) (s : State), (s.mram.step = 8) ∧ (s.mram.primed = false) ∧ (s.mram.rerun = some (id, img)) ∧ (s.mram.image < 2) ∧ (s.cmdById id = some c) ∧ (s.ringEn c.r = true) ∧ (c.gen = (s.ring c.r).gen) :=
  ⟨0, 0, { id := 0, r := 0, idx := 4095, words := [81], held := .swap }, { regs := [(590084, 512), (593920, 1)], host := { cmds := [{ id := 0, r := 0, idx := 4095, words := [81], held := .swap }] }, mram := { step := 8, rerun := some (0, 0) } }, by decide +kernel, by decide +kernel, by decide +kernel, by decide +kernel, by decide +kernel, by decide +kernel, by decide +kernel⟩
theorem witness_PersonalityLoadSwapAndReturn_0 : ∃ (p : Fin 8) (op : Nat) (i : Instr) (masks : List Nat) (c : HCmd) (s : State), ((i, op, masks) ∈ [(.persLoad p, 0x50, [1, 2 ^ 32 - 1, 0, 2 ^ 32 - 1, 2 ^ 32 - 1]), (.persSwap p, 0x51, [1, 0x3FF])]) ∧ (Commanded { s with mram := { s.mram with recovery := false } } p op c) :=
  ⟨0, 0x50, .persLoad 0, [1, 2 ^ 32 - 1, 0, 2 ^ 32 - 1, 2 ^ 32 - 1], { id := 0, r := 0, idx := 4095, words := [80, 2, 256], held := .fresh }, { regs := [(590084, 512), (593920, 1)], host := { cmds := [{ id := 0, r := 0, idx := 4095, words := [80, 2, 256], held := .fresh }] }, mram := { recovery := true } }, by simp, ⟨by decide +kernel, by decide +kernel, by decide +kernel, by decide +kernel, by decide +kernel, by decide +kernel, by decide +kernel, by decide +kernel⟩⟩
theorem witness_PersonalityLoadSwapAndReturn_1 : ∃ (p : Fin 8) (img : Nat) (len : Nat) (addr : Nat) (c : HCmd) (s : State), (Commanded { s with mram := { s.mram with recovery := false } } p 0x50 c) ∧ (c.clean [1, 2 ^ 32 - 1, 0, 2 ^ 32 - 1, 2 ^ 32 - 1] = true) ∧ (s.canPers p = true) ∧ (img = c.w 1 % 2) ∧ (s.persRefused img = false) ∧ (len = c.w 2) ∧ (addr = c.w 4 + 2 ^ 32 * c.w 5) :=
  ⟨0, 1, 0x600000, 0, { id := 0, r := 0, idx := 4095, words := [80, 1, 0x600000], held := .fresh }, { regs := [(590084, 512), (593920, 1)], host := { cmds := [{ id := 0, r := 0, idx := 4095, words := [80, 1, 0x600000], held := .fresh }] } }, ⟨by decide +kernel, by decide +kernel, by decide +kernel, by decide +kernel, by decide +kernel, by decide +kernel, by decide +kernel, by decide +kernel⟩, by decide +kernel, by decide +kernel, by decide +kernel, by decide +kernel, by decide +kernel, by decide +kernel⟩
theorem witness_PersonalityLoadSwapAndReturn_2 : ∃ (l : LoadSt) (c : HCmd) (s : State), (s.mram.load = some l) ∧ (s.cmdById l.cmd = some c) ∧ (s.ringEn c.r = true) ∧ (c.gen = (s.ring c.r).gen) :=
  ⟨{ image := 1, cmd := 0, len := 256, addr := 0, got := 256, bad := false }, { id := 0, r := 0, idx := 4095, words := [80, 1, 256], held := .load }, { regs := [(590084, 512), (593920, 1)], host := { cmds := [{ id := 0, r := 0, idx := 4095, words := [80, 1, 256], held := .load }] }, mram := { load := some { image := 1, cmd := 0, len := 256, addr := 0, got := 256, bad := false } } }, by decide +kernel, by decide +kernel, by decide +kernel, by decide +kernel⟩
theorem witness_PersonalityLoadSwapAndReturn_3 : ∃ (p : Fin 8) (img : Nat) (ms : Nat) (c : HCmd) (s : State), (Commanded s p 0x51 c) ∧ (c.clean [1, 0x3FF] = true) ∧ (s.canPers p = true) ∧ (img = c.w 1 % 2) ∧ (ms = bits (c.w 2) 9 0) :=
  ⟨0, 1, 1000, { id := 0, r := 0, idx := 4095, words := [81, 1, 1000], held := .fresh }, { regs := [(590084, 512), (593920, 1)], host := { cmds := [{ id := 0, r := 0, idx := 4095, words := [81, 1, 1000], held := .fresh }] }, mram := { primed := true } }, ⟨by decide +kernel, by decide +kernel, by decide +kernel, by decide +kernel, by decide +kernel, by decide +kernel, by decide +kernel, by decide +kernel⟩, by decide +kernel, by decide +kernel, by decide +kernel, by decide +kernel⟩
theorem witness_PersonalityLoadSwapAndReturn_4 : ∃ (p : Fin 8) (c : HCmd) (s : State), (Commanded { s with mram := { s.mram with recovery := false } } p 0x51 c) ∧ (c.clean [1, 0x3FF] = true) ∧ (s.canPers p = true) ∧ (1 ≤ bits (c.w 2) 9 0) ∧ (bits (c.w 2) 9 0 ≤ 1000) ∧ (s.mram.recovery = true) ∧ (s.mram.rerun = none) ∧ (s.mram.load = none) :=
  ⟨0, { id := 0, r := 0, idx := 4095, words := [81, 1, 1000], held := .fresh }, { regs := [(590084, 512), (593920, 1)], host := { cmds := [{ id := 0, r := 0, idx := 4095, words := [81, 1, 1000], held := .fresh }] }, mram := { recovery := true } }, ⟨by decide +kernel, by decide +kernel, by decide +kernel, by decide +kernel, by decide +kernel, by decide +kernel, by decide +kernel, by decide +kernel⟩, by decide +kernel, by decide +kernel, by decide +kernel, by decide +kernel, by decide +kernel, by decide +kernel, by decide +kernel⟩
theorem witness_PersonalityLoadSwapAndReturn_5 : ∃ (w : SwapSt) (s : State), (s.mram.swap = some w) ∧ (w.armed = none) :=
  ⟨{ image := 1, cmd := 0, timeoutMs := 1000, armed := none, expired := false, timedOut := 0 }, { mram := { swap := some { image := 1, cmd := 0, timeoutMs := 1000, armed := none, expired := false, timedOut := 0 } } }, by decide +kernel, by decide +kernel⟩
theorem witness_PersonalityLoadSwapAndReturn_6 : ∃ (x : Fin 128) (o : BitVec 18) (n : BitVec 18) (s : State), ((s.th x).cutOver = some (o, n)) ∧ ((s.th x).pc = o) ∧ (s.hasTurn x .issue = true) :=
  ⟨127, 0, 64, { threads := [(127, { st := .metered, cutOver := some (0, 64) })], lbs := [(7, { turn := some (15, .issue) })] }, by decide +kernel, by decide +kernel, by decide +kernel⟩
theorem witness_PersonalityLoadSwapAndReturn_7 : ∃ (w : SwapSt) (a : Nat) (s : State), (s.mram.swap = some w) ∧ (w.armed = some a) ∧ (w.expired = false) ∧ (a + w.timeoutMs * 67108864000000 ≤ s.tb.elapsed) :=
  ⟨{ image := 1, cmd := 0, timeoutMs := 1000, armed := some 0, expired := false, timedOut := 0 }, 0, { tb := { elapsed := 67108864000000 * 1000 }, mram := { swap := some { image := 1, cmd := 0, timeoutMs := 1000, armed := some 0, expired := false, timedOut := 0 } } }, by decide +kernel, by decide +kernel, by decide +kernel, by decide +kernel⟩
theorem witness_PersonalityLoadSwapAndReturn_8 : ∃ (w : SwapSt) (c : HCmd) (s : State), (s.mram.swap = some w) ∧ (w.armed ≠ none) ∧ (s.swapComplete w.image = true) ∧ (w.image < 2) ∧ (s.cmdById w.cmd = some c) ∧ (s.ringEn c.r = true) ∧ (c.gen = (s.ring c.r).gen) :=
  ⟨{ image := 1, cmd := 0, timeoutMs := 1000, armed := some 0, expired := false, timedOut := 0 }, { id := 0, r := 0, idx := 4095, words := [81, 1, 1000], held := .swap }, { regs := [(590084, 512), (593920, 1)], host := { cmds := [{ id := 0, r := 0, idx := 4095, words := [81, 1, 1000], held := .swap }] }, mram := { swap := some { image := 1, cmd := 0, timeoutMs := 1000, armed := some 0, expired := false, timedOut := 0 } } }, by decide +kernel, by decide +kernel, by decide +kernel, by decide +kernel, by decide +kernel, by decide +kernel, by decide +kernel⟩
theorem witness_PersonalityLoadSwapAndReturn_9 : ∃ (lb : Fin 8) (b : Nat) (s : State), (s.longestIdle = some b) ∧ (s.mram.primed = true) ∧ (s.mram.swap = none) ∧ (s.up 12 = true) ∧ (s.returnNext = some lb.val) ∧ (s.inService.length < s.mayCarry) ∧ (s.imgFault s.platActive = 0) :=
  ⟨7, 7, { mram := { primed := true, mem := writeLE (writeLE (writeLE (writeLE (writeLE (writeLE (writeLE (writeLE (writeLE (writeLE (writeLE (writeLE (writeLE (writeLE (writeLE (writeLE (writeLE ([]) 0 4 1095447346) 4 4 1) 8 4 768) 12 4 256) 20 4 192) 24 4 1) 28 4 0) 32 4 0) 192 4 8323077) 64 4 1120186595) 68 4 337443992) 72 4 3371498394) 76 4 616132505) 80 4 3829509671) 84 4 1284741988) 88 4 463050148) 92 4 1438143096 }, regs := [(0x02020, 0x76543210)], pbs := [(7, { role := 1 }), (8, { role := 1 })], lbs := [(7, { shed := true })] }, by decide +kernel, by decide +kernel, by decide +kernel, by decide +kernel, by decide +kernel, by decide +kernel, by decide +kernel⟩
theorem witness_PersonalityLoadSwapAndReturn_10 : ∃ (lb : Fin 8) (b : Nat) (s : State), (s.longestIdle = some b) ∧ (s.mram.primed = true) ∧ (s.mram.swap = none) ∧ (s.up 12 = true) ∧ (s.returnNext = some lb.val) ∧ (s.inService.length < s.mayCarry) ∧ (s.imgFault s.platActive ≠ 0) :=
  ⟨7, 7, { mram := { primed := true }, regs := [(0x02020, 0x76543210)], pbs := [(7, { role := 1 }), (8, { role := 1 })], lbs := [(7, { shed := true })] }, by decide +kernel, by decide +kernel, by decide +kernel, by decide +kernel, by decide +kernel, by decide +kernel, by decide +kernel⟩
theorem witness_StepRunsTheFrontCommand_0 : ∃ (c : Instr) (cs : List Instr) (s : State), (s.pending = c :: cs) :=
  ⟨.stormWindow, [], { pending := [.stormWindow] }, rfl⟩
theorem witness_StepRunsTheFrontCommand_1 : ∃ (s : State), (s.pending = []) :=
  ⟨{}, rfl⟩
theorem witness_ResetLeavesTheBlockUnprimed_9 : ∃ (b : _), (b < 8) :=
  ⟨7, by decide +kernel⟩
theorem witness_LockedAndUnassignedRegisters_0 : ∃ (o : Fin 1048576) (s : State), (s.locked = true) ∧ (rwlMask o ≠ 0) ∧ (o.val % 4 = 0) ∧ ((o.val = 0x70030 ∨ o.val = 0x70034 ∨ o.val = 0x70038 → bit (s.reg 0x70000) 1 = false)) :=
  ⟨0x60000, { locked := true }, by decide +kernel, by decide +kernel, by decide +kernel, by decide +kernel⟩
theorem witness_LockedAndUnassignedRegisters_2 : ∃ (o : Nat), (regAt o = none) :=
  ⟨0xFFFFC, by decide +kernel⟩
theorem witness_LockedAndUnassignedRegisters_3 : ∃ (o : Fin 1048576), (regAt o = none) ∧ (o.val % 4 = 0) :=
  ⟨0xFFFFC, by decide +kernel, by decide +kernel⟩
theorem witness_LockedAndUnassignedRegisters_4 : ∃ (w : WinWrite), (regAt w.off = none) :=
  ⟨{ due := 0, rank := 0, x := 0, pc := 0, off := 0xFFFFC, v := 1 }, by decide +kernel⟩
theorem witness_MemoriesKeepBytesAndCheckBits_0 : ∃ (x : Nat) (a : Nat) (n : Nat) (v : Nat) (s : State) (t : State), (t = s.wellPut x a n v) :=
  ⟨127, 0xFFC, 4, 1, {}, _, rfl⟩
theorem witness_MemoriesKeepBytesAndCheckBits_1 : ∃ (lb : Nat) (a : Nat) (n : Nat) (v : Nat) (s : State) (t : State), (t = s.resPut lb a n v) :=
  ⟨7, 0x7FFFC, 4, 1, {}, _, rfl⟩
theorem witness_MemoriesKeepBytesAndCheckBits_2 : ∃ (m : Mem) (w : Nat) (s : State), (s.eccOf m w = some .rewriting) :=
  ⟨.cistern, 2097151, { ecc := [{ mem := .cistern, word := 2097151, state := .rewriting }] }, by decide +kernel⟩
theorem witness_MemoriesKeepBytesAndCheckBits_3 : ∃ (r : Reader) (m : Mem) (w : Nat) (s : State) (t : State), ((s.eccOf m w = some .correctable ∨ s.eccOf m w = some .rewriting)) ∧ (t = s.eccRead r m w) :=
  ⟨.thread, .cistern, 2097151, { ecc := [{ mem := .cistern, word := 2097151, state := .correctable }] }, _, .inl (by decide +kernel), rfl⟩
theorem witness_MemoriesKeepBytesAndCheckBits_3b : ∃ (r : Reader) (m : Mem) (w : Nat) (s : State) (t : State), ((s.eccOf m w = some .correctable ∨ s.eccOf m w = some .rewriting)) ∧ (t = s.eccRead r m w) :=
  ⟨.thread, .cistern, 2097151, { ecc := [{ mem := .cistern, word := 2097151, state := .rewriting }] }, _, .inr (by decide +kernel), rfl⟩
theorem witness_MemoriesKeepBytesAndCheckBits_4 : ∃ (r : Reader) (m : Mem) (w : Nat) (s : State) (t : State), (s.eccOf m w = some .uncorrectable) ∧ (t = s.eccRead r m w) :=
  ⟨.thread, .cistern, 2097151, { ecc := [{ mem := .cistern, word := 2097151, state := .uncorrectable }] }, _, by decide +kernel, rfl⟩
theorem witness_MemoriesKeepBytesAndCheckBits_5 : ∃ (m : Mem) (w : Nat) (s : State), (s.eccOf m w = none) :=
  ⟨.cistern, 2097151, {}, by decide +kernel⟩
theorem witness_CountAndLockOverRuns_0 : ∃ (is : List Instr) (s : State) (t : State), (Runs s is t) ∧ ((∀ c ∈ is, (∀ tree unit, c ≠ .stroke tree unit) ∧ ∀ b, c ≠ .blockReset b ∧ c ≠ .aonReset b)) :=
  ⟨[.stormWindow], {}, _, .cons .stormWindow [] _ _ _ rfl (.nil _), by intro c h; simp only [List.mem_singleton] at h; subst h; exact ⟨fun _ _ => by simp, fun _ => by simp⟩⟩
theorem witness_CountAndLockOverRuns_1 : ∃ (is : List Instr) (s : State) (t : State), (Runs s is t) ∧ ((∀ c ∈ is, ∀ b, c ≠ .blockReset b ∧ c ≠ .aonReset b)) ∧ (s.locked = true) :=
  ⟨[.stormWindow], { locked := true }, _, .cons .stormWindow [] _ _ _ rfl (.nil _), by intro c h; simp only [List.mem_singleton] at h; subst h; exact fun _ => by simp, by decide +kernel⟩
theorem witness_PrimedAndRecoveryExclude_0 : ∃ (s : State) (t : State), (s.Safe) ∧ (step s = .next t) :=
  ⟨{ pending := [.stormWindow], mram := { primed := true } }, _, by simp [State.Safe], rfl⟩
theorem witness_PrimedAndRecoveryExclude_1 : ∃ (is : List Instr) (s : State) (t : State), (s.Safe) ∧ (Runs s is t) :=
  ⟨[.stormWindow], { mram := { primed := true } }, _, by simp [State.Safe], .cons .stormWindow [] _ _ _ rfl (.nil _)⟩
theorem witness_FramesForwardedRecordedAndPaused_0 : ∃ (n : Fin 32) (m : Nat) (f : RxFrame) (bs : List Nat) (cfg : Nat) (s : State), (Receives s n f) ∧ (s.ringPair n = some m) ∧ (s.ptKind n = 1) ∧ (cfg = s.preg (min n.val m) 0x014) ∧ (bit cfg 7 = true) ∧ (bit cfg 9 = false) ∧ (bs = f.bytes.map (·.toNat)) ∧ (bs.length ≤ 16000) ∧ (f.er = []) ∧ (f.early = none) ∧ (18 ≤ bs.length) ∧ (bs.length ≤ s.maxLen m) ∧ (fcsGood bs = true) ∧ (s.txBusy m = false) ∧ (s.txHeld m = false) ∧ (s.pausedClass m (bits cfg 14 12) = false) ∧ (s.gateAdmits m (bits cfg 14 12) (s.maxLen m) = true) ∧ (s.ownAddr n (saOf bs) = false) ∧ ((s.ownAddr n (daOf bs) = true → bit (bs.getD 0 0) 0 = true ∨ bit cfg 10 = true)) :=
  ⟨31, 30, { bytes := List.replicate 60 0 ++ [8, 137, 18, 4], er := [], kept := 64, early := none, stepped := false, overlap := false, tap := 0, egressTap := 0, egressEdges := 40 }, _, _, { regs := [(192512, 5), (192532, 191), (194560, 5), (194580, 190)], host := { pstate := [(30, 2), (31, 2)] } }, receives_of (by decide +kernel), by decide +kernel, by decide +kernel, rfl, by decide +kernel, by decide +kernel, rfl, by decide +kernel, by decide +kernel, by decide +kernel, by decide +kernel, by decide +kernel, by decide +kernel, by decide +kernel, by decide +kernel, by decide +kernel, by decide +kernel, by decide +kernel, by decide +kernel⟩
theorem witness_FramesForwardedRecordedAndPaused_1 : ∃ (n : Fin 32) (m : Nat) (f : RxFrame) (bs : List Nat) (cfg : Nat) (s : State), (Receives s n f) ∧ (s.ringPair n = some m) ∧ (s.ptKind n = 1) ∧ (cfg = s.preg (min n.val m) 0x014) ∧ (bit cfg 7 = true) ∧ (bit cfg 9 = false) ∧ (bs = f.bytes.map (·.toNat)) ∧ (bs.length ≤ 16000) ∧ (f.early = none) ∧ (18 ≤ bs.length) ∧ (bs.length ≤ s.maxLen m) ∧ ((fcsGood bs = false ∨ ∃ j ∈ f.er, j < bs.length)) ∧ (s.txBusy m = false) ∧ (s.txHeld m = false) ∧ (s.pausedClass m (bits cfg 14 12) = false) ∧ (s.gateAdmits m (bits cfg 14 12) (s.maxLen m) = true) ∧ (s.ownAddr n (saOf bs) = false) ∧ ((s.ownAddr n (daOf bs) = true → bit (bs.getD 0 0) 0 = true ∨ bit cfg 10 = true)) :=
  ⟨31, 30, { bytes := List.replicate 64 0, er := [], kept := 64, early := none, stepped := false, overlap := false, tap := 0, egressTap := 0, egressEdges := 40 }, _, _, { regs := [(192512, 5), (192532, 191), (194560, 5), (194580, 190)], host := { pstate := [(30, 2), (31, 2)] } }, receives_of (by decide +kernel), by decide +kernel, by decide +kernel, rfl, by decide +kernel, by decide +kernel, rfl, by decide +kernel, by decide +kernel, by decide +kernel, by decide +kernel, .inl (by decide +kernel), by decide +kernel, by decide +kernel, by decide +kernel, by decide +kernel, by decide +kernel, by decide +kernel⟩
theorem witness_FramesForwardedRecordedAndPaused_1b : ∃ (n : Fin 32) (m : Nat) (f : RxFrame) (bs : List Nat) (cfg : Nat) (s : State), (Receives s n f) ∧ (s.ringPair n = some m) ∧ (s.ptKind n = 1) ∧ (cfg = s.preg (min n.val m) 0x014) ∧ (bit cfg 7 = true) ∧ (bit cfg 9 = false) ∧ (bs = f.bytes.map (·.toNat)) ∧ (bs.length ≤ 16000) ∧ (f.early = none) ∧ (18 ≤ bs.length) ∧ (bs.length ≤ s.maxLen m) ∧ ((fcsGood bs = false ∨ ∃ j ∈ f.er, j < bs.length)) ∧ (s.txBusy m = false) ∧ (s.txHeld m = false) ∧ (s.pausedClass m (bits cfg 14 12) = false) ∧ (s.gateAdmits m (bits cfg 14 12) (s.maxLen m) = true) ∧ (s.ownAddr n (saOf bs) = false) ∧ ((s.ownAddr n (daOf bs) = true → bit (bs.getD 0 0) 0 = true ∨ bit cfg 10 = true)) :=
  ⟨31, 30, { bytes := List.replicate 60 0 ++ [8, 137, 18, 4], er := [63], kept := 64, early := none, stepped := false, overlap := false, tap := 0, egressTap := 0, egressEdges := 40 }, _, _, { regs := [(192512, 5), (192532, 191), (194560, 5), (194580, 190)], host := { pstate := [(30, 2), (31, 2)] } }, receives_of (by decide +kernel), by decide +kernel, by decide +kernel, rfl, by decide +kernel, by decide +kernel, rfl, by decide +kernel, by decide +kernel, by decide +kernel, by decide +kernel, .inr ⟨63, by decide +kernel⟩, by decide +kernel, by decide +kernel, by decide +kernel, by decide +kernel, by decide +kernel, by decide +kernel⟩
theorem witness_FramesForwardedRecordedAndPaused_2 : ∃ (n : Fin 32) (m : Nat) (k : Nat) (f : RxFrame) (bs : List Nat) (cfg : Nat) (s : State), (Receives s n f) ∧ (s.ringPair n = some m) ∧ (s.ptKind n = 1) ∧ (cfg = s.preg (min n.val m) 0x014) ∧ (bit cfg 7 = true) ∧ (bit cfg 8 = false) ∧ (bit cfg 9 = false) ∧ (s.rate n = 2) ∧ (bs = f.bytes.map (·.toNat)) ∧ (f.early = some k) ∧ (25 ≤ k) ∧ (18 ≤ bs.length) ∧ (bs.length ≤ s.maxLen m) ∧ (s.txBusy m = false) ∧ (s.txHeld m = false) ∧ (s.pausedClass m (bits cfg 14 12) = false) ∧ (s.gateAdmits m (bits cfg 14 12) (s.maxLen m) = true) ∧ (s.ownAddr n (saOf bs) = false) ∧ ((s.ownAddr n (daOf bs) = true → bit (bs.getD 0 0) 0 = true ∨ bit cfg 10 = true)) :=
  ⟨31, 30, 25, { bytes := List.replicate 60 0 ++ [8, 137, 18, 4], er := [], kept := 64, early := some 25, stepped := false, overlap := false, tap := 0, egressTap := 0, egressEdges := 40 }, _, _, { regs := [(192512, 5), (192532, 191), (194560, 5), (194580, 190)], host := { pstate := [(30, 2), (31, 2)] } }, receives_of (by decide +kernel), by decide +kernel, by decide +kernel, rfl, by decide +kernel, by decide +kernel, by decide +kernel, by decide +kernel, rfl, by decide +kernel, by decide +kernel, by decide +kernel, by decide +kernel, by decide +kernel, by decide +kernel, by decide +kernel, by decide +kernel, by decide +kernel, by decide +kernel⟩
theorem witness_FramesForwardedRecordedAndPaused_2b : ∃ (n : Fin 32) (m : Nat) (k : Nat) (f : RxFrame) (bs : List Nat) (cfg : Nat) (s : State), (Receives s n f) ∧ (s.ringPair n = some m) ∧ (s.ptKind n = 1) ∧ (cfg = s.preg (min n.val m) 0x014) ∧ (bit cfg 7 = true) ∧ (bit cfg 8 = false) ∧ (bit cfg 9 = false) ∧ (s.rate n = 2) ∧ (bs = f.bytes.map (·.toNat)) ∧ (f.early = some k) ∧ (25 ≤ k) ∧ (18 ≤ bs.length) ∧ (bs.length ≤ s.maxLen m) ∧ (s.txBusy m = false) ∧ (s.txHeld m = false) ∧ (s.pausedClass m (bits cfg 14 12) = false) ∧ (s.gateAdmits m (bits cfg 14 12) (s.maxLen m) = true) ∧ (s.ownAddr n (saOf bs) = false) ∧ ((s.ownAddr n (daOf bs) = true → bit (bs.getD 0 0) 0 = true ∨ bit cfg 10 = true)) :=
  ⟨31, 30, 64, { bytes := List.replicate 60 0 ++ [8, 137, 18, 4], er := [], kept := 64, early := some 64, stepped := false, overlap := false, tap := 0, egressTap := 0, egressEdges := 40 }, _, _, { regs := [(192512, 5), (192532, 191), (194560, 5), (194580, 190)], host := { pstate := [(30, 2), (31, 2)] } }, receives_of (by decide +kernel), by decide +kernel, by decide +kernel, rfl, by decide +kernel, by decide +kernel, by decide +kernel, by decide +kernel, rfl, by decide +kernel, by decide +kernel, by decide +kernel, by decide +kernel, by decide +kernel, by decide +kernel, by decide +kernel, by decide +kernel, by decide +kernel, by decide +kernel⟩
theorem witness_FramesForwardedRecordedAndPaused_3 : ∃ (n : Fin 32) (m : Nat) (f : RxFrame) (bs : List Nat) (cfg : Nat) (s : State), (Receives s n f) ∧ (s.ringPair n = some m) ∧ (s.ptKind n = 1) ∧ (cfg = s.preg (min n.val m) 0x014) ∧ (bit cfg 7 = true) ∧ (bit cfg 8 = true) ∧ (bit cfg 9 = false) ∧ (s.rate n = 2) ∧ (bs = f.bytes.map (·.toNat)) ∧ (24 ≤ bs.length) ∧ (s.txBusy m = false) ∧ (s.txHeld m = false) ∧ (s.pausedClass m (bits cfg 14 12) = false) ∧ (s.gateAdmits m (bits cfg 14 12) (s.maxLen m) = true) ∧ (s.ownAddr n (saOf bs) = true) :=
  ⟨31, 30, { bytes := List.replicate 64 0, er := [], kept := 64, early := none, stepped := false, overlap := false, tap := 0, egressTap := 0, egressEdges := 5 }, _, _, { regs := [(192512, 5), (192532, 447), (194560, 5), (194580, 446)], host := { pstate := [(30, 2), (31, 2)] }, ports := [(31, { exact := [(0, 2 ^ 48 + 2 ^ 49)] })] }, receives_of (by decide +kernel), by decide +kernel, by decide +kernel, rfl, by decide +kernel, by decide +kernel, by decide +kernel, by decide +kernel, rfl, by decide +kernel, by decide +kernel, by decide +kernel, by decide +kernel, by decide +kernel, by decide +kernel⟩
theorem witness_FramesForwardedRecordedAndPaused_4 : ∃ (n : Nat) (m : Nat) (bs : List Nat) (s : State), (s.namedPair n m = true) ∧ (bit (s.pairCfg n m) 7 = true) ∧ (s.ptKind n ≠ 3) ∧ ((s.txBusy m = true ∨ s.txHeld m = true ∨ s.pausedClass m (bits (s.pairCfg n m) 14 12) = true ∨ s.gateAdmits m (bits (s.pairCfg n m) 14 12) (s.maxLen m) = false)) ∧ (s.fwdRefused n (s.pairCfg n m) (s.ptKind n) bs = false) :=
  ⟨31, 30, List.replicate 64 0, { regs := [(192512, 5), (192532, 191), (194560, 5), (194580, 190)], host := { pstate := [(30, 2), (31, 2)] }, ports := [(30, { tx := some { item := .move 0, bytes := [], bad := false, err := 0, ts := none, tsLost := false, seq := 0 } })] }, by decide +kernel, by decide +kernel, by decide +kernel, .inl (by decide +kernel), by decide +kernel⟩
theorem witness_FramesForwardedRecordedAndPaused_4b : ∃ (n : Nat) (m : Nat) (bs : List Nat) (s : State), (s.namedPair n m = true) ∧ (bit (s.pairCfg n m) 7 = true) ∧ (s.ptKind n ≠ 3) ∧ ((s.txBusy m = true ∨ s.txHeld m = true ∨ s.pausedClass m (bits (s.pairCfg n m) 14 12) = true ∨ s.gateAdmits m (bits (s.pairCfg n m) 14 12) (s.maxLen m) = false)) ∧ (s.fwdRefused n (s.pairCfg n m) (s.ptKind n) bs = false) :=
  ⟨31, 30, List.replicate 64 0, { regs := [(192512, 5), (192532, 191), (194560, 5), (194580, 190)], host := { pstate := [(30, 2), (31, 2)] }, mf := { txhold := [(30, true)] } }, by decide +kernel, by decide +kernel, by decide +kernel, .inr (.inl (by decide +kernel)), by decide +kernel⟩
theorem witness_FramesForwardedRecordedAndPaused_5 : ∃ (n : Fin 32) (m : Nat) (f : RxFrame) (bs : List Nat) (cfg : Nat) (s : State), (Receives s n f) ∧ (s.ringPair n = some m) ∧ (s.ptKind n = 1) ∧ (cfg = s.preg (min n.val m) 0x014) ∧ (bit cfg 7 = true) ∧ (bs = f.bytes.map (·.toNat)) ∧ (s.fwdRefused n cfg 1 bs = false) ∧ (s.txBusy m = false) ∧ (s.pausedClass m (bits cfg 14 12) = false) ∧ (s.gateAdmits m (bits cfg 14 12) (s.maxLen m) = false) :=
  ⟨31, 30, { bytes := List.replicate 60 0 ++ [8, 137, 18, 4], er := [], kept := 64, early := none, stepped := false, overlap := false, tap := 0, egressTap := 0, egressEdges := 40 }, _, _, { regs := [(192512, 5), (192532, 191), (194560, 5), (194580, 190), (192768, 0xFE0000FF)], host := { pstate := [(30, 2), (31, 2)] }, ports := [(30, { gateEn := true, gateWord := some 0xFE0000FF, gateLen := 1, gateWords := [0xFE0000FF] })] }, receives_of (by decide +kernel), by decide +kernel, by decide +kernel, rfl, by decide +kernel, rfl, by decide +kernel, by decide +kernel, by decide +kernel, by decide +kernel⟩
theorem witness_FramesForwardedRecordedAndPaused_9 : ∃ (n : Fin 32) (e : FrameEnd) (es : List FrameEnd) (s : State), ((s.port n).ends = e :: es) ∧ ((∃ q, e.at_ = some q ∧ q + 3 ≤ s.strokes)) ∧ (e.deliver = false) ∧ (e.defer = true) ∧ (s.pstate (s.ptPartner n) = 2) :=
  ⟨31, { head := 32767, status := 64, ts := 0, epoch := 0, tag := 0, deliver := false, defer := true, at_ := some 0 }, [], { strokes := 3, regs := [(0x70800 + 16 * 31, 128)], ports := [(31, { ends := [{ head := 32767, status := 64, ts := 0, epoch := 0, tag := 0, deliver := false, defer := true, at_ := some 0 }] })], host := { pstate := [(0, 2)] } }, by decide +kernel, ⟨0, by decide +kernel⟩, by decide +kernel, by decide +kernel, by decide +kernel⟩
theorem witness_FramesForwardedRecordedAndPaused_10 : ∃ (n : Fin 32) (e : FrameEnd) (es : List FrameEnd) (s : State), ((s.port n).ends = e :: es) ∧ ((e.at_ = none ∨ ∃ q, e.at_ = some q ∧ s.strokes < q + 3)) :=
  ⟨31, { head := 32767, status := 64, ts := 0, epoch := 0, tag := 0, deliver := true, defer := false, at_ := some 1 }, [], { strokes := 3, regs := [(0x70800 + 16 * 31, 128)], ports := [(31, { ends := [{ head := 32767, status := 64, ts := 0, epoch := 0, tag := 0, deliver := true, defer := false, at_ := some 1 }] })] }, by decide +kernel, .inr ⟨1, rfl, by decide⟩⟩
theorem witness_FramesForwardedRecordedAndPaused_10b : ∃ (n : Fin 32) (e : FrameEnd) (es : List FrameEnd) (s : State), ((s.port n).ends = e :: es) ∧ ((e.at_ = none ∨ ∃ q, e.at_ = some q ∧ s.strokes < q + 3)) :=
  ⟨31, { head := 32767, status := 64, ts := 0, epoch := 0, tag := 0, deliver := true, defer := false, at_ := none }, [], { strokes := 3, regs := [(0x70800 + 16 * 31, 128)], ports := [(31, { ends := [{ head := 32767, status := 64, ts := 0, epoch := 0, tag := 0, deliver := true, defer := false, at_ := none }] })] }, by decide +kernel, .inl rfl⟩
theorem witness_FramesForwardedRecordedAndPaused_11 : ∃ (n : Nat) (p : PortSt) (s : State), (s.ports = [(n, p)]) ∧ (p.rxOn = true) ∧ (p.rxTill ≤ s.tb.elapsed) :=
  ⟨31, { rxOn := true, rxTill := 5, ends := [{ head := 32767, status := 64, ts := 0, epoch := 0, tag := 0, deliver := true, defer := false, at_ := none }] }, { tb := { elapsed := 5 }, ports := [(31, { rxOn := true, rxTill := 5, ends := [{ head := 32767, status := 64, ts := 0, epoch := 0, tag := 0, deliver := true, defer := false, at_ := none }] })] }, by decide +kernel, by decide +kernel, by decide +kernel⟩
theorem witness_FramesTransmitted_0 : ∃ (n : Fin 32) (c : Nat) (h : Nat) (b : Nat) (k : Nat) (i : TxItem) (rest : List (Nat × TxItem)) (data : List Nat) (s : State), (TxFree s n) ∧ (i = .move k) ∧ (s.txHeads n = (c, i) :: rest) ∧ (s.pausedClass n c = false) ∧ (s.gateAdmits n c (s.wireLen n (s.itemLen i)) = true) ∧ (h = s.itemHead i) ∧ (b = s.itemLen i) ∧ (14 ≤ b) ∧ (b ≤ s.maxLen n - 4) ∧ (s.bufUe h 0 b = none) ∧ ((s.cell h).bad = false) ∧ (((s.cell h).tgen = true ∨ s.tagNow h = (s.cell h).tag)) ∧ ((s.itemAsks n i).2.1 = none) ∧ (data = s.bufRead h 0 b ++ (if s.padEn n then List.replicate (60 - b) 0 else [])) :=
  ⟨31, 7, _, _, 511, .move 511, [], _, { regs := [(194560, 5)], host := { pstate := [(31, 2)] }, pump := { cells := [(32767, { used := true, head := true, last := true, len := 60, tgen := true })], moves := [{ slot := 511, by_ := .thread 0 0 0, w0 := 3, src := 0, dst := 0, aux := 0, issued := 0, phase := .queued, head := some 32767, ch := some 0 }] }, ports := [(31, { queues := [(7, [.move 511])] })] }, txFree_of (by decide +kernel), by decide +kernel, by decide +kernel, by decide +kernel, by decide +kernel, rfl, rfl, by decide +kernel, by decide +kernel, by decide +kernel, by decide +kernel, .inl (by decide +kernel), by decide +kernel, rfl⟩
theorem witness_FramesTransmitted_0b : ∃ (n : Fin 32) (c : Nat) (h : Nat) (b : Nat) (k : Nat) (i : TxItem) (rest : List (Nat × TxItem)) (data : List Nat) (s : State), (TxFree s n) ∧ (i = .move k) ∧ (s.txHeads n = (c, i) :: rest) ∧ (s.pausedClass n c = false) ∧ (s.gateAdmits n c (s.wireLen n (s.itemLen i)) = true) ∧ (h = s.itemHead i) ∧ (b = s.itemLen i) ∧ (14 ≤ b) ∧ (b ≤ s.maxLen n - 4) ∧ (s.bufUe h 0 b = none) ∧ ((s.cell h).bad = false) ∧ (((s.cell h).tgen = true ∨ s.tagNow h = (s.cell h).tag)) ∧ ((s.itemAsks n i).2.1 = none) ∧ (data = s.bufRead h 0 b ++ (if s.padEn n then List.replicate (60 - b) 0 else [])) :=
  ⟨31, 7, _, _, 511, .move 511, [], _, { regs := [(194560, 5)], host := { pstate := [(31, 2)] }, pump := { cells := [(32767, { used := true, head := true, last := true, len := 14, tgen := true })], moves := [{ slot := 511, by_ := .thread 0 0 0, w0 := 3, src := 0, dst := 0, aux := 0, issued := 0, phase := .queued, head := some 32767, ch := some 0 }] }, ports := [(31, { queues := [(7, [.move 511])] })] }, txFree_of (by decide +kernel), by decide +kernel, by decide +kernel, by decide +kernel, by decide +kernel, rfl, rfl, by decide +kernel, by decide +kernel, by decide +kernel, by decide +kernel, .inl (by decide +kernel), by decide +kernel, rfl⟩
theorem witness_FramesTransmitted_1 : ∃ (n : Fin 32) (c : Nat) (h : Nat) (b : Nat) (g : Nat) (v : Nat) (ev : Bool) (i : TxItem) (rest : List (Nat × TxItem)) (s : State), (TxFree s n) ∧ (i = .deferred h g v ev) ∧ (s.txHeads n = (c, i) :: rest) ∧ (s.pausedClass n c = false) ∧ (s.gateAdmits n c (s.wireLen n (s.itemLen i)) = true) ∧ (b = s.itemLen i) ∧ (14 ≤ b) ∧ (b ≤ s.maxLen n - 4) ∧ (s.bufUe h 0 b = none) ∧ ((s.cell h).bad = false) ∧ (((s.cell h).tgen = true ∨ s.tagNow h = (s.cell h).tag)) ∧ ((s.itemAsks n i).2.1 = none) ∧ ((60 ≤ b ∨ s.padEn n = false)) :=
  ⟨31, 7, 32767, _, 30, 0, false, .deferred 32767 30 0 false, [], { regs := [(194560, 5)], host := { pstate := [(31, 2)] }, pump := { cells := [(32767, { used := true, head := true, last := true, len := 64, tgen := true })], moves := [{ slot := 511, by_ := .thread 0 0 0, w0 := 3, src := 0, dst := 0, aux := 0, issued := 0, phase := .queued, head := some 32767, ch := some 0 }] }, ports := [(31, { queues := [(7, [.deferred 32767 30 0 false])] })] }, txFree_of (by decide +kernel), by decide +kernel, by decide +kernel, by decide +kernel, by decide +kernel, rfl, by decide +kernel, by decide +kernel, by decide +kernel, by decide +kernel, .inl (by decide +kernel), by decide +kernel, .inl (by decide +kernel)⟩
theorem witness_FramesTransmitted_2 : ∃ (n : Fin 32) (c : Nat) (h : Nat) (b : Nat) (i : TxItem) (rest : List (Nat × TxItem)) (data : List Nat) (s : State), (TxFree s n) ∧ (s.txHeads n = (c, i) :: rest) ∧ (s.pausedClass n c = false) ∧ (s.gateAdmits n c (s.wireLen n (s.itemLen i)) = true) ∧ (h = s.itemHead i) ∧ (b = s.itemLen i) ∧ (14 ≤ b) ∧ (b ≤ s.maxLen n - 4) ∧ (s.bufUe h 0 b = none) ∧ ((s.itemAsks n i).2.1 = none) ∧ (data = s.bufRead h 0 b ++ (if s.padEn n then List.replicate (60 - b) 0 else [])) :=
  ⟨31, 7, _, _, .move 511, [], _, { regs := [(194560, 5)], host := { pstate := [(31, 2)] }, pump := { cells := [(32767, { used := true, head := true, last := true, len := 60, tgen := true })], moves := [{ slot := 511, by_ := .thread 0 0 0, w0 := 3, src := 0, dst := 0, aux := 0, issued := 0, phase := .queued, head := some 32767, ch := some 0 }] }, ports := [(31, { queues := [(7, [.move 511])] })] }, txFree_of (by decide +kernel), by decide +kernel, by decide +kernel, by decide +kernel, rfl, rfl, by decide +kernel, by decide +kernel, by decide +kernel, by decide +kernel, rfl⟩
theorem witness_FramesTransmitted_3 : ∃ (n : Fin 32) (c : Nat) (h : Nat) (b : Nat) (i : TxItem) (rest : List (Nat × TxItem)) (data : List Nat) (s : State), (TxFree s n) ∧ (s.txHeads n = (c, i) :: rest) ∧ (s.pausedClass n c = false) ∧ (s.gateAdmits n c (s.wireLen n (s.itemLen i)) = true) ∧ (h = s.itemHead i) ∧ (b = s.itemLen i) ∧ (14 ≤ b) ∧ (b ≤ s.maxLen n - 4) ∧ (s.bufUe h 0 b = none) ∧ ((s.cell h).tgen = false) ∧ (s.tagNow h ≠ (s.cell h).tag) ∧ ((s.itemAsks n i).2.1 = none) ∧ (data = s.bufRead h 0 b ++ (if s.padEn n then List.replicate (60 - b) 0 else [])) :=
  ⟨31, 7, _, _, .move 511, [], _, { regs := [(194560, 5)], host := { pstate := [(31, 2)] }, pump := { cells := [(32767, { used := true, head := true, last := true, len := 60, tag := 1 })], moves := [{ slot := 511, by_ := .thread 0 0 0, w0 := 3, src := 0, dst := 0, aux := 0, issued := 0, phase := .queued, head := some 32767, ch := some 0 }] }, ports := [(31, { queues := [(7, [.move 511])] })] }, txFree_of (by decide +kernel), by decide +kernel, by decide +kernel, by decide +kernel, rfl, rfl, by decide +kernel, by decide +kernel, by decide +kernel, by decide +kernel, by decide +kernel, by decide +kernel, rfl⟩
theorem witness_FramesTransmitted_4 : ∃ (n : Fin 32) (c : Nat) (b : Nat) (i : TxItem) (rest : List (Nat × TxItem)) (s : State), (TxFree s n) ∧ (s.txHeads n = (c, i) :: rest) ∧ (s.pausedClass n c = false) ∧ (s.gateAdmits n c (s.wireLen n (s.itemLen i)) = true) ∧ (b = s.itemLen i) ∧ ((b < 14 ∨ s.maxLen n - 4 < b)) :=
  ⟨31, 7, _, .move 511, [], { regs := [(194560, 5)], host := { pstate := [(31, 2)] }, pump := { cells := [(32767, { used := true, head := true, last := true, len := 13 })], moves := [{ slot := 511, by_ := .thread 0 0 0, w0 := 3, src := 0, dst := 0, aux := 0, issued := 0, phase := .queued, head := some 32767, ch := some 0 }] }, ports := [(31, { queues := [(7, [.move 511])] })] }, txFree_of (by decide +kernel), by decide +kernel, by decide +kernel, by decide +kernel, rfl, .inl (by decide +kernel)⟩
theorem witness_FramesTransmitted_4b : ∃ (n : Fin 32) (c : Nat) (b : Nat) (i : TxItem) (rest : List (Nat × TxItem)) (s : State), (TxFree s n) ∧ (s.txHeads n = (c, i) :: rest) ∧ (s.pausedClass n c = false) ∧ (s.gateAdmits n c (s.wireLen n (s.itemLen i)) = true) ∧ (b = s.itemLen i) ∧ ((b < 14 ∨ s.maxLen n - 4 < b)) :=
  ⟨31, 7, _, .move 511, [], { regs := [(194560, 5)], host := { pstate := [(31, 2)] }, pump := { cells := [(32767, { used := true, head := true, last := true, len := 1523 })], moves := [{ slot := 511, by_ := .thread 0 0 0, w0 := 3, src := 0, dst := 0, aux := 0, issued := 0, phase := .queued, head := some 32767, ch := some 0 }] }, ports := [(31, { queues := [(7, [.move 511])] })] }, txFree_of (by decide +kernel), by decide +kernel, by decide +kernel, by decide +kernel, rfl, .inr (by decide +kernel)⟩
theorem witness_FramesTransmitted_5 : ∃ (n : Fin 32) (c : Nat) (i : TxItem) (s : State), (TxFree s n) ∧ (s.txHeads n = [(c, i)]) ∧ (s.pausedClass n c = false) ∧ (s.gateAdmits n c (s.wireLen n (s.itemLen i)) = false) ∧ (i ∉ (s.port n).guarded) :=
  ⟨31, 7, .move 511, { regs := [(194560, 5), (194816, 0x7F0000FF)], host := { pstate := [(31, 2)] }, pump := { cells := [(32767, { used := true, head := true, last := true, len := 60, tgen := true })], moves := [{ slot := 511, by_ := .thread 0 0 0, w0 := 3, src := 0, dst := 0, aux := 0, issued := 0, phase := .queued, head := some 32767, ch := some 0 }] }, ports := [(31, { queues := [(7, [.move 511])], gateEn := true, gateWord := some 0x7F0000FF, gateLen := 1, gateWords := [0x7F0000FF] })] }, txFree_of (by decide +kernel), by decide +kernel, by decide +kernel, by decide +kernel, by decide +kernel⟩
theorem witness_FramesTransmitted_10 : ∃ (n : Fin 32) (s : State), ((s.txHeld n = true ∨ s.laneIdle n = false)) :=
  ⟨31, { mf := { txhold := [(31, true)] } }, .inl (by decide +kernel)⟩
theorem witness_FramesTransmitted_10b : ∃ (n : Fin 32) (s : State), ((s.txHeld n = true ∨ s.laneIdle n = false)) :=
  ⟨31, { ports := [(31, { txTill := some 1 })] }, .inr (by decide +kernel)⟩
theorem witness_FramesTransmitted_11 : ∃ (n : Nat) (s : State), (s.laneMode n = false) :=
  ⟨31, {}, by decide +kernel⟩
theorem witness_FramesTransmitted_12 : ∃ (n : Nat) (w : List Nat) (s : State), (s.laneMode n = true) ∧ (s.rate n = 2) ∧ ((s.port n).wire = w) ∧ (w ≠ []) ∧ ((s.port n).wireHalf = none) ∧ ((s.port n).wirePoison = false) :=
  ⟨31, [7], { regs := [(194560, 5)], ports := [(31, { wire := [7] })] }, by decide +kernel, by decide +kernel, by decide +kernel, by decide +kernel, by decide +kernel, by decide +kernel⟩
theorem witness_GateScheduleAndPortRegisters_1 : ∃ (n : Fin 32) (k : Nat) (i : Nat) (left : Nat) (idx : Nat) (s : State), ((s.port n).gateEn = true) ∧ (s.gateSelect n (s.port n).gateWords (s.groupTime n) = some (k, i, left)) ∧ (idx = ((s.port n).gateStart + i) % 256) ∧ (((s.port n).gateWord = none ∨ (s.port n).gateCyc ≠ k ∨ (s.port n).gateIdx ≠ idx)) :=
  ⟨31, 0, 0, 64, 255, { regs := [(195836, 64)], ports := [(31, { gateEn := true, gateStart := 255, gateLen := 1, gateWords := [64] })] }, by decide +kernel, by decide +kernel, by decide +kernel, .inl (by decide +kernel)⟩
theorem witness_GovernorCommands_8 : ∃ (s : State), (s.gov.busy = true) ∧ (s.gov.req = false) ∧ (bits (s.reg 0x01024) 6 0 ≤ bits (s.reg 0x01024) 14 8) :=
  ⟨{ gov := { busy := true } }, by decide +kernel, by decide +kernel, by decide +kernel⟩
theorem witness_ThreadStartsStopsAndEntries_3 : ∃ (x : Fin 128) (s : State), ((s.th x).stepping = true) ∧ ((s.th x).stepIssued = true) ∧ ((s.th x).running = true) ∧ ((s.th x).owed = 0) ∧ ((s.th x).idle = 0) ∧ ((s.th x).exc = none) ∧ ((s.th x).stopReq = .reset) :=
  ⟨0, { threads := [(0, { st := .elastic, stepping := true, stepIssued := true, stopReq := .reset })] }, by decide +kernel, by decide +kernel, by decide +kernel, by decide +kernel, by decide +kernel, by decide +kernel, by decide +kernel⟩
theorem witness_SelectGrantsTurns_1 : ∃ (n : Nat) (lb : Nat) (q : Nat) (s : State) (t : State), ((s.lb lb).shed = false) ∧ (q = wheelOwner (s.lb lb).liveLo.toNat (s.lb lb).liveHi.toNat (n % 16)) ∧ ((s.th (16 * lb + q)).startReq = none) ∧ ((s.th (16 * lb + q)).st = .metered) ∧ ((s.th (16 * lb + q)).yielding = false) ∧ ((s.th (16 * lb + q)).idle = 0) ∧ ((s.th (16 * lb + q)).owed = 0) ∧ ((s.th (16 * lb + q)).exc = none) ∧ ((s.th (16 * lb + q)).stopReq ≠ .none) ∧ ((s.th (16 * lb + q)).longs = []) ∧ (t = s.selectLb n lb) :=
  ⟨0, 0, 0, { threads := [(0, { st := .metered, stopReq := .stop })] }, _, by decide +kernel, by decide +kernel, by decide +kernel, by decide +kernel, by decide +kernel, by decide +kernel, by decide +kernel, by decide +kernel, by decide +kernel, by decide +kernel, rfl⟩
theorem witness_SelectGrantsTurns_1b : ∃ (n : Nat) (lb : Nat) (q : Nat) (s : State) (t : State), ((s.lb lb).shed = false) ∧ (q = wheelOwner (s.lb lb).liveLo.toNat (s.lb lb).liveHi.toNat (n % 16)) ∧ ((s.th (16 * lb + q)).startReq = none) ∧ ((s.th (16 * lb + q)).st = .metered) ∧ ((s.th (16 * lb + q)).yielding = false) ∧ ((s.th (16 * lb + q)).idle = 0) ∧ ((s.th (16 * lb + q)).owed = 0) ∧ ((s.th (16 * lb + q)).exc = none) ∧ ((s.th (16 * lb + q)).stopReq ≠ .none) ∧ ((s.th (16 * lb + q)).longs = []) ∧ (t = s.selectLb n lb) :=
  ⟨0, 0, 0, { threads := [(0, { st := .metered, stopReq := .reset })] }, _, by decide +kernel, by decide +kernel, by decide +kernel, by decide +kernel, by decide +kernel, by decide +kernel, by decide +kernel, by decide +kernel, by decide +kernel, by decide +kernel, rfl⟩
theorem witness_WritesOnTheirWay_1 : ∃ (n : Nat) (a : Nat) (k : Nat) (v : Nat) (w : ResWrite) (s : State), (s.ecc = []) ∧ ((s.lb n).resPend = [w]) ∧ (w.atom = false) ∧ (w.x ≠ 128) ∧ (0 < k) ∧ (a % 4 + k ≤ 4) ∧ (v < 256 ^ k) :=
  ⟨0, 0x7FFFD, 2, 65535, { due := 2, x := 0, addr := 0x7FFFC, n := 4, v := 1, atom := false }, { lbs := [(0, { resPend := [{ due := 2, x := 0, addr := 0x7FFFC, n := 4, v := 1, atom := false }] })] }, by decide +kernel, by decide +kernel, by decide +kernel, by decide +kernel, by decide +kernel, by decide +kernel, by decide +kernel⟩
theorem witness_WritesOnTheirWay_2 : ∃ (n : Nat) (a : Nat) (k : Nat) (v : Nat) (w : ResWrite) (s : State), ((s.lb n).resPend = [w]) ∧ (w.atom = true) ∧ (w.addr < 4 * (a / 4) + 4) ∧ (4 * (a / 4) < w.addr + w.n) ∧ (0 < k) ∧ (a % 4 + k ≤ 4) ∧ (v < 256 ^ k) :=
  ⟨0, 0x7FFFC, 4, 7, { due := 2, x := 0, addr := 0x7FFFC, n := 4, v := 1, atom := true }, { lbs := [(0, { resPend := [{ due := 2, x := 0, addr := 0x7FFFC, n := 4, v := 1, atom := true }] })] }, by decide +kernel, by decide +kernel, by decide +kernel, by decide +kernel, by decide +kernel, by decide +kernel, by decide +kernel⟩
theorem witness_WritesOnTheirWay_7 : ∃ (off : Fin 1048576) (w : Word) (v : WinWrite) (s : State) (t : State), (off.val % 4 = 0) ∧ (0x20000 ≤ off.val) ∧ (off.val < 0x50000) ∧ (¬(0x30000 ≤ off.val ∧ off.val % 0x200 = 0)) ∧ (s.winDone = [v]) ∧ (v.off = off.val) ∧ (v.cyc = s.strokes + s.tb.edges) ∧ ((s.locked = true → rwlMask off = 0)) ∧ (t = (s.modHost (fun h => { h with rsErr := 0 })).regWrite 0 off w.toNat) :=
  ⟨0x20000, 0, { due := 0, rank := 7, x := 0, pc := 0, off := 0x20000, v := 1, cyc := 0 }, { winDone := [{ due := 0, rank := 7, x := 0, pc := 0, off := 0x20000, v := 1, cyc := 0 }] }, _, by decide +kernel, by decide +kernel, by decide +kernel, by decide +kernel, by decide +kernel, by decide +kernel, by decide +kernel, by decide +kernel, rfl⟩
theorem witness_WritesOnTheirWay_10 : ∃ (off : Nat) (s : State), (s.locked = true) ∧ (rwlMask off ≠ 0) ∧ (bit (s.reg 0x70000) 1 = true) ∧ ((off = 0x70030 ∨ off = 0x70034 ∨ off = 0x70038)) :=
  ⟨0x70030, { locked := true, regs := [(0x70000, 2)] }, by decide +kernel, by decide +kernel, by decide +kernel, .inl rfl⟩
theorem witness_WritesOnTheirWay_10b : ∃ (off : Nat) (s : State), (s.locked = true) ∧ (rwlMask off ≠ 0) ∧ (bit (s.reg 0x70000) 1 = true) ∧ ((off = 0x70030 ∨ off = 0x70034 ∨ off = 0x70038)) :=
  ⟨0x70038, { locked := true, regs := [(0x70000, 2)] }, by decide +kernel, by decide +kernel, by decide +kernel, .inr (.inr rfl)⟩
theorem witness_EventsRoutedAndDelivered_3 : ∃ (src : Fin 1024) (e : SrcEvent) (s : State), (s.mf.entryQ.find? (fun e => e.src == src.val) = some e) ∧ ((s.strokes < e.from_ ∨ e.src ∈ s.mf.pulsesNow)) :=
  ⟨1007, { src := 1007, ev := true, rising := true, level := true, from_ := 4 }, { strokes := 3, mf := { entryQ := [{ src := 1007, ev := true, rising := true, level := true, from_ := 4 }] } }, by decide +kernel, .inl (by decide +kernel)⟩
theorem witness_EventsRoutedAndDelivered_3b : ∃ (src : Fin 1024) (e : SrcEvent) (s : State), (s.mf.entryQ.find? (fun e => e.src == src.val) = some e) ∧ ((s.strokes < e.from_ ∨ e.src ∈ s.mf.pulsesNow)) :=
  ⟨1007, { src := 1007, ev := true, rising := true, level := true, from_ := 3 }, { strokes := 3, mf := { entryQ := [{ src := 1007, ev := true, rising := true, level := true, from_ := 3 }], pulsesNow := [1007] } }, by decide +kernel, .inr (by decide +kernel)⟩
theorem witness_EventsRoutedAndDelivered_4 : ∃ (e : SrcEvent) (s : State), (s.mf.entryQ = [e]) ∧ (coreSource e.src = true) ∧ (e.from_ ≤ s.strokes) ∧ (e.src ∉ s.mf.pulsesNow) ∧ (e.ev = true) :=
  ⟨{ src := 895, ev := true, rising := true, level := true, from_ := 3 }, { strokes := 3, mf := { entryQ := [{ src := 895, ev := true, rising := true, level := true, from_ := 3 }] } }, by decide +kernel, by decide +kernel, by decide +kernel, by decide +kernel, by decide +kernel⟩
theorem witness_EventsRoutedAndDelivered_5 : ∃ (e : SrcEvent) (r : Nat) (s : State), (s.ecc = []) ∧ (s.mf.entered = [e]) ∧ (s.mf.entryQ = []) ∧ (s.routeNums = [r]) ∧ (reservedSource e.src = false) ∧ (bit (s.route r) 28 = false) :=
  ⟨{ src := 1007, ev := true, rising := true, level := true, from_ := 3 }, 2047, { mf := { routes := [(2047, 2214527983#32)], entered := [{ src := 1007, ev := true, rising := true, level := true, from_ := 3 }] } }, by decide +kernel, by decide +kernel, by decide +kernel, by decide +kernel, by decide +kernel, by decide +kernel⟩
theorem witness_EventsRoutedAndDelivered_6 : ∃ (e : SrcEvent) (r : Nat) (s : State), (s.ecc = []) ∧ (s.pulseRoute r e.src e.rising = true) ∧ (bit (s.route r) 29 = false) :=
  ⟨{ src := 1007, ev := true, rising := true, level := true, from_ := 3 }, 2047, { mf := { routes := [(2047, 2214527983#32)] } }, by decide +kernel, by decide +kernel, by decide +kernel⟩
theorem witness_EventsRoutedAndDelivered_7 : ∃ (e : SrcEvent) (r : Nat) (s : State), (s.ecc = []) ∧ (s.pulseRoute r e.src e.rising = true) ∧ (bit (s.route r) 29 = true) ∧ (pulseSource (bits (s.gate r) 9 0) = false) ∧ (reservedSource (bits (s.gate r) 9 0) = false) :=
  ⟨{ src := 1007, ev := true, rising := true, level := true, from_ := 3 }, 2047, { mf := { routes := [(2047, 2751398895#32)], gates := [(2047, 0x2C0)] } }, by decide +kernel, by decide +kernel, by decide +kernel, by decide +kernel, by decide +kernel⟩
theorem witness_EventsRoutedAndDelivered_8 : ∃ (e : SrcEvent) (r : Nat) (s : State), (s.ecc = []) ∧ (s.pulseRoute r e.src e.rising = false) :=
  ⟨{ src := 1006, ev := true, rising := true, level := true, from_ := 3 }, 2047, { mf := { routes := [(2047, 2214527983#32)] } }, by decide +kernel, by decide +kernel⟩
theorem witness_ConsumersAndManifoldControl_2 : ∃ (v : Fin 128) (k : Fin 2) (e : Cross (Nat × Nat)) (s : State), (s.mf.trigX.find? (fun c => c.val == (v.val, k.val)) = some e) ∧ (s.strokes ≤ e.at_) :=
  ⟨127, 1, { val := (127, 1), at_ := 1, edge := 0 }, { strokes := 1, mf := { trigX := [{ val := (127, 1), at_ := 1, edge := 0 }] } }, by decide +kernel, by decide +kernel⟩
theorem witness_ConsumersAndManifoldControl_9 : ∃ (e : Cross (Nat × Bool)) (s : State), (s.mf.levX = [e]) ∧ (e.at_ < s.strokes) ∧ (e.edge + 3 ≤ s.tb.edges) :=
  ⟨{ val := (15, true), at_ := 0, edge := 0 }, { strokes := 1, tb := { edges := 3 }, mf := { levX := [{ val := (15, true), at_ := 0, edge := 0 }] } }, by decide +kernel, by decide +kernel, by decide +kernel⟩
theorem witness_ConsumersAndManifoldControl_13 : ∃ (i : Fin 1024) (s : State), (bit ((s.inStat i).fresh.held s.strokes) 2 = true) :=
  ⟨1023, { mf := { ins := [(1023, { fresh := { at_ := 0, mask := 4 } })] } }, by decide +kernel⟩
theorem witness_ConsumersAndManifoldControl_17 : ∃ (s : State), (s.ecc = []) ∧ (s.mf.sigDone = none) ∧ (s.mf.sigPos + 1 < 4752) :=
  ⟨{ mf := { sigPos := 4750 } }, by decide +kernel, by decide +kernel, by decide +kernel⟩
theorem witness_ConsumersAndManifoldControl_18 : ∃ (s : State), (s.ecc = []) ∧ (s.mf.sigDone = none) ∧ (s.mf.sigPos = 4751) :=
  ⟨{ mf := { sigPos := 4751 } }, by decide +kernel, by decide +kernel, by decide +kernel⟩
theorem witness_ValveInstructions_20 : ∃ (v : Nat) (k : Nat) (b : Bool) (s : State) (t : State), ((tget {} s.flagCycs (v / 4) : FlagCyc).at_ ≠ s.strokes + s.tb.edges) ∧ (t = s.setPflag v k b) :=
  ⟨127, 7, true, { strokes := 1 }, _, by decide +kernel, rfl⟩
theorem witness_ValveInstructions_21 : ∃ (u : Nat) (v : Nat) (s : State), ((tget {} s.flagCycs (v / 4) : FlagCyc).at_ ≠ s.strokes + s.tb.edges) ∧ (u / 4 = v / 4) ∧ (u % 4 < v % 4) :=
  ⟨126, 127, { strokes := 1 }, by decide +kernel, by decide +kernel, by decide +kernel⟩
theorem witness_ValveWaitsAndQueues_10 : ∃ (u : Fin 128) (v : Fin 128) (w : Nat) (x : Nat) (pc : Nat) (s : State) (t : State), ((tget {} s.flagCycs (v / 4) : FlagCyc).at_ ≠ s.strokes + s.tb.edges) ∧ (u.val / 4 = v.val / 4) ∧ (u.val % 4 < v.val % 4) ∧ (s.pflag v (bits (vParam w) 2 0) = true) ∧ (t = (s.setPflag u (bits (vParam w) 2 0) false).vEnd u pc x) ∧ ((t.valve v).word = w) ∧ ((t.valve v).run = true) ∧ ((t.valve v).stalled = true) ∧ (vOp w = 5) ∧ (bits (vParam w) 8 6 = 4) :=
  ⟨126, 127, 2960130048, 0, 0, { strokes := 1, flags := [(31, 128)], valves := [(127, { run := true, stalled := true, prog0 := [(0, 2960130048)] })] }, _, by decide +kernel, by decide +kernel, by decide +kernel, by decide +kernel, rfl, by decide +kernel, by decide +kernel, by decide +kernel, by decide +kernel, by decide +kernel⟩
theorem witness_ValveWaitsAndQueues_11 : ∃ (v : Fin 128) (w : Nat) (s : State), ((s.valve v).word = w) ∧ ((s.valve v).run = true) ∧ ((s.valve v).stalled = true) ∧ (vOp w = 5) ∧ (s.vAwait v (bits (vParam w) 8 6) (bits (vParam w) 2 0) false (s.pflag v (bits (vParam w) 2 0)) = false) ∧ (bit (vParam w) 5 = true) ∧ (1 < (s.valve v).k1) :=
  ⟨127, 2725249024, { valves := [(127, { run := true, prog0 := [(0, 2725249024)], stalled := true, k1 := 2 })] }, by decide +kernel, by decide +kernel, by decide +kernel, by decide +kernel, by decide +kernel, by decide +kernel, by decide +kernel⟩
theorem witness_ValveRegistersAndSwap_15 : ∃ (v : Fin 128) (c : Cross (Word × Bool)) (cs : List (Cross (Word × Bool))) (s : State), ((s.valve v).rxCross = c :: cs) ∧ (c.at_ + 2 ≤ s.strokes) ∧ (c.val.2 = true) ∧ ((s.valve v).rxReady ≠ []) :=
  ⟨127, { val := (7, true), at_ := 0 }, [], { strokes := 2, valves := [(127, { rxCross := [{ val := (7, true), at_ := 0 }], rxReady := [9] })] }, by decide +kernel, by decide +kernel, by decide +kernel, by decide +kernel⟩
theorem witness_ValveRegistersAndSwap_16 : ∃ (v : Fin 128) (c : Cross (Word × Bool)) (cs : List (Cross (Word × Bool))) (s : State), ((s.valve v).rxCross = c :: cs) ∧ (c.at_ + 2 ≤ s.strokes) ∧ (c.val.2 = true) ∧ ((s.valve v).rxReady = []) :=
  ⟨127, { val := (7, true), at_ := 0 }, [], { strokes := 2, valves := [(127, { rxCross := [{ val := (7, true), at_ := 0 }] })] }, by decide +kernel, by decide +kernel, by decide +kernel, by decide +kernel⟩
theorem witness_ValveRegistersAndSwap_18 : ∃ (v : Nat) (s : State), (bit ((s.valve v).fresh.held (s.strokes + s.tb.edges)) 17 = true) :=
  ⟨127, { valves := [(127, { illop := true, fresh := { at_ := 0, mask := 2 ^ 17 } })] }, by decide +kernel⟩
theorem witness_PinsConditionedAndDriven_7 : ∃ (n : Fin 32) (s : State), ((∀ j, j < 8 → s.stuckDue n j = false)) :=
  ⟨31, {}, by decide +kernel⟩
theorem witness_PinsConditionedAndDriven_9 : ∃ (n : Fin 32) (j : Fin 8) (s : State), (s.stuckDue n j = false) :=
  ⟨31, 7, {}, by decide +kernel⟩
theorem witness_PinsConditionedAndDriven_10 : ∃ (n : Fin 32) (s : State), ((∀ j, j < 8 → s.stuckDue n j = false)) :=
  ⟨31, {}, by decide +kernel⟩
theorem witness_PinsConditionedAndDriven_11 : ∃ (n : Fin 32) (s : State), ((∀ j, j < 8 → s.stuckDue n j = false)) :=
  ⟨31, {}, by decide +kernel⟩
theorem witness_PinsConditionedAndDriven_8 : ∃ (n : Fin 32) (j : Fin 8) (s : State), (s.stuckDue n j = true) :=
  ⟨31, 7, { pins := [(255, { stuckCnt := 65536 })], regs := [(0x2F800 + 0x720 + 28, 0x01200000)] }, by decide +kernel⟩
theorem witness_PinsConditionedAndDriven_13 : ∃ (n : Fin 32) (s : State), ((tget {} s.flagCycs n : FlagCyc).at_ ≠ s.strokes + s.tb.edges) :=
  ⟨31, { strokes := 1 }, by decide +kernel⟩
theorem witness_PinsConditionedAndDriven_14 : ∃ (n : Fin 32) (c : FlagCyc) (s : State), (c = tget {} s.flagCycs n) ∧ (c.at_ = s.strokes + s.tb.edges) ∧ (c.last < 4) :=
  ⟨31, { last := 3 }, { flagCycs := [(31, { last := 3 })] }, by decide +kernel, by decide +kernel, by decide +kernel⟩
theorem witness_TimebaseRateStepsAndSlews_9 : ∃ (v : Nat) (s : State), (s.tb.req = some (.set v)) ∧ (s.tclkRuns = true) ∧ (v = s.tclkEdge.tb.now) :=
  ⟨0, { tb := { req := some (.set 0) } }, by decide +kernel, by decide +kernel, by decide +kernel⟩
theorem witness_TimebaseRateStepsAndSlews_14 : ∃ (n : Nat) (p : Nat) (e : Nat) (c : TimeCross) (s : State), (s.tb.timeX = [c]) ∧ (c.due ≤ n) ∧ ((s.hsnap p).await = some e) ∧ (e ≤ c.edge) :=
  ⟨2, 7, 3, { due := 2, time := 7, epoch := 1, edge := 3 }, { tb := { timeX := [{ due := 2, time := 7, epoch := 1, edge := 3 }], snaps := [(7, { await := some 3 })] } }, by decide +kernel, by decide +kernel, by decide +kernel, by decide +kernel⟩
theorem witness_InterpolatorsPpsAndCycleKeeper_2 : ∃ (g : Nat), (0 < g) :=
  ⟨1, by decide +kernel⟩
theorem witness_ActionSchedule_6 : ∃ (e : Fin 4096) (n : SchedEntry) (q : Nat) (k : Nat) (s : State), (s.sched e = some n) ∧ (n.cancel = some (q, k)) ∧ ((k < 2 ∨ ∃ d, n.dueEdge = some d ∧ d ≠ s.tb.edges)) :=
  ⟨4095, { time := 0, epoch := 0, act := 0x80000000, lb := 7, arrived := true, rebased := false, skipped := false, staleEpoch := false, late := false, lateBy := none, dueEdge := none, cancel := some (0, 1) }, 0, 1, { tb := { sched := [(4095, { time := 0, epoch := 0, act := 0x80000000, lb := 7, arrived := true, rebased := false, skipped := false, staleEpoch := false, late := false, lateBy := none, dueEdge := none, cancel := some (0, 1) })] } }, by decide +kernel, by decide +kernel, .inl (by decide)⟩
theorem witness_ActionSchedule_6b : ∃ (e : Fin 4096) (n : SchedEntry) (q : Nat) (k : Nat) (s : State), (s.sched e = some n) ∧ (n.cancel = some (q, k)) ∧ ((k < 2 ∨ ∃ d, n.dueEdge = some d ∧ d ≠ s.tb.edges)) :=
  ⟨4095, { time := 0, epoch := 0, act := 0x80000000, lb := 7, arrived := true, rebased := false, skipped := false, staleEpoch := false, late := false, lateBy := none, dueEdge := some 1, cancel := some (0, 2) }, 0, 2, { tb := { sched := [(4095, { time := 0, epoch := 0, act := 0x80000000, lb := 7, arrived := true, rebased := false, skipped := false, staleEpoch := false, late := false, lateBy := none, dueEdge := some 1, cancel := some (0, 2) })] } }, by decide +kernel, by decide +kernel, .inr ⟨1, rfl, by decide⟩⟩
theorem witness_MovesComplete_1 : ∃ (k : Fin 512) (m : Move) (s : State), (s.move k = some m) ∧ ((s.landed m = false ∨ (m.phase ≠ .done ∧ m.phase ≠ .ready))) :=
  ⟨511, { slot := 511, by_ := .thread 127 7 7, w0 := 1, src := 0, dst := 0x20, aux := 0, issued := 0, phase := .valve }, { pump := { moves := [{ slot := 511, by_ := .thread 127 7 7, w0 := 1, src := 0, dst := 0x20, aux := 0, issued := 0, phase := .valve }] } }, by decide +kernel, .inr (by decide +kernel)⟩
theorem witness_MovesComplete_1b : ∃ (k : Fin 512) (m : Move) (s : State), (s.move k = some m) ∧ ((s.landed m = false ∨ (m.phase ≠ .done ∧ m.phase ≠ .ready))) :=
  ⟨511, { slot := 511, by_ := .thread 127 7 7, w0 := 1, src := 0, dst := 0x20, aux := 0, issued := 0, phase := .done }, { lbs := [(7, { resPend := [{ due := 2, x := 128, addr := 0, n := 4, v := 1, atom := false }] })], pump := { moves := [{ slot := 511, by_ := .thread 127 7 7, w0 := 1, src := 0, dst := 0x20, aux := 0, issued := 0, phase := .done }] } }, by decide +kernel, .inl (by decide +kernel)⟩
theorem witness_TriggersSpillAndPumpRegisters_9 : ∃ (s : State), (bits (s.reg 0x70038) 22 0 = 0) :=
  ⟨{}, by decide +kernel⟩
theorem witness_LockCommandsAndLeases_8 : ∃ (s : State), (s.rank ≠ 0) :=
  ⟨{ rank := 1 }, by decide +kernel⟩
theorem witness_EventActionsFaultsClocksAndPairs_2 : ∃ (d : Ev) (e : Ev) (s : State), (s.evq = [d, e]) ∧ (s.strokes < d.at_) ∧ (e.at_ ≤ s.strokes) :=
  ⟨{ unit := 11, cls := 14, typ := 14, alarm := false, trace := false, arg0 := 0, arg1 := 0, force := true, at_ := 4 }, { unit := 11, cls := 14, typ := 14, alarm := false, trace := false, arg0 := 0, arg1 := 0, force := true, at_ := 0 }, { evq := [{ unit := 11, cls := 14, typ := 14, alarm := false, trace := false, arg0 := 0, arg1 := 0, force := true, at_ := 4 }, { unit := 11, cls := 14, typ := 14, alarm := false, trace := false, arg0 := 0, arg1 := 0, force := true, at_ := 0 }] }, by decide +kernel, by decide +kernel, by decide +kernel⟩
theorem witness_EventActionsFaultsClocksAndPairs_3 : ∃ (e : Ev) (s : State), (s.evq = [e]) ∧ (s.strokes < e.at_) :=
  ⟨{ unit := 11, cls := 14, typ := 14, alarm := false, trace := false, arg0 := 0, arg1 := 0, force := true, at_ := 4 }, { evq := [{ unit := 11, cls := 14, typ := 14, alarm := false, trace := false, arg0 := 0, arg1 := 0, force := true, at_ := 4 }] }, by decide +kernel, by decide +kernel⟩
theorem witness_EventActionsFaultsClocksAndPairs_4 : ∃ (b : Fin 10) (m : Migr) (s : State), (s.wh.rot.mig = some m) ∧ (m.victim = b) ∧ (m.target ≠ b) :=
  ⟨8, { victim := 8, target := 9, lb := 0, phase := .mirror, emergency := false, again := false, begun := 0 }, { wh := { rot := { mig := some { victim := 8, target := 9, lb := 0, phase := .mirror, emergency := false, again := false, begun := 0 } } } }, by decide +kernel, by decide +kernel, by decide +kernel⟩
theorem witness_ReliefRotationAndReadmission_4 : ∃ (m : Migr) (s : State), (s.wh.rot.mig = some m) ∧ (s.strokes < m.begun + 17552) :=
  ⟨{ victim := 0, target := 9, lb := 0, phase := .mirror, emergency := false, again := false, begun := 0 }, { strokes := 17551, wh := { rot := { mig := some { victim := 0, target := 9, lb := 0, phase := .mirror, emergency := false, again := false, begun := 0 } } } }, by decide +kernel, by decide +kernel⟩
theorem witness_LockedAndUnassignedRegisters_1 : ∃ (o : Fin 1048576) (s : State), (s.locked = true) ∧ (o.val = 0x70030 ∨ o.val = 0x70034 ∨ o.val = 0x70038) ∧ (bit (s.reg 0x70000) 1 = true) :=
  ⟨458800, { locked := true, regs := [(0x70000, 2)] }, by decide +kernel, by decide +kernel, by decide +kernel⟩
theorem witness_LockedAndUnassignedRegisters_1b : ∃ (o : Fin 1048576) (s : State), (s.locked = true) ∧ (o.val = 0x70030 ∨ o.val = 0x70034 ∨ o.val = 0x70038) ∧ (bit (s.reg 0x70000) 1 = true) :=
  ⟨458808, { locked := true, regs := [(0x70000, 2)] }, by decide +kernel, by decide +kernel, by decide +kernel⟩
theorem witness_MemoriesKeepBytesAndCheckBits_7 : ∃ (m : Mem) (a : Nat) (n : Nat) (w : Nat) (s : State), (w ∈ partWords a n) ∧ (s.eccOf m w = some .uncorrectable) :=
  ⟨.cistern, 0x7FFFFD, 2, 2097151, { ecc := [{ mem := .cistern, word := 2097151, state := .uncorrectable }] }, by decide +kernel, by decide +kernel⟩
theorem witness_MemoriesKeepBytesAndCheckBits_8 : ∃ (m : Mem) (a : Nat) (n : Nat) (w : Nat) (s : State), (w ∈ partWords a n) ∧ (s.eccOf m w ≠ some .uncorrectable) :=
  ⟨.cistern, 0x7FFFFD, 2, 2097151, {}, by decide +kernel, by decide +kernel⟩

end Sys2Proof.Tests
end

/-!
SUPPORT. The register slave port at a locked RWL field (R12, R415) and at an unassigned offset (R15), and the proof of
O54.
-/

namespace Sys2Proof.Machine

/-! ### A word through the register slave port (R569) -/

/-- The register slave port answers without FAULT. -/
def State.rsOk (s : State) : State := s.modHost (fun h => { h with rsErr := 0 })

@[simp] theorem State.rsOk_locked (s : State) : s.rsOk.locked = s.locked := rfl

@[simp] theorem State.rsOk_reg (s : State) : s.rsOk.reg = s.reg := rfl

/-- No FAULT at an aligned offset, and no request of the timebase unit for the write to wait for (R345). -/
theorem exec_registerWrite_word (o : Fin 1048576) (w : Word) (s : State) (aligned : o.val % 4 = 0)
    (noAdj : o.val ≠ 0x6002C) : exec (.registerWrite o w 15 0) s = .next (s.rsOk.hostWrite o w.toNat) := by
  have accepted : slaveFault o 15 0 = false := by simp [slaveFault, aligned]
  change execRegisterWrite o w 15 0 s = _
  simp [execRegisterWrite, State.rsOk, accepted, noAdj]

/-! ### Locked RWL fields (R12, R415) -/

/-- DC_BASE and DC_SLOTS, whose writes set CFG_ERR while DC_EN is 1 (R415). -/
abbrev IsDcField (o : Nat) : Prop := o = 0x70030 ∨ o = 0x70034 ∨ o = 0x70038

theorem IsDcField.aligned {o : Nat} (dc : IsDcField o) : o % 4 = 0 := by
  obtain rfl | rfl | rfl := dc <;> rfl

theorem IsDcField.rwlMask_ne_zero {o : Nat} (dc : IsDcField o) : rwlMask o ≠ 0 := by
  obtain rfl | rfl | rfl := dc <;> decide

theorem ne_adjCtl_of_rwlMask_ne_zero {o : Nat} (field : rwlMask o ≠ 0) : o ≠ 0x6002C := by
  rintro rfl
  exact field rfl

/-- The lock discards the write, so no core write of the same cycle has to follow it (R137). -/
theorem State.hostWrite_of_locked (s : State) {o : Nat} (w : Nat) (lock : s.locked = true) (field : rwlMask o ≠ 0) :
    s.hostWrite o w = s.regWrite 0 o w := by
  simp [State.hostWrite, lock, field]

/-- The report of a locked field, and CFG_ERR with it for DC_BASE and DC_SLOTS in use (R12, R415). -/
theorem State.regWrite_of_locked (s : State) (who : Nat) {o : Nat} (w : Nat) (lock : s.locked = true)
    (field : rwlMask o ≠ 0) :
    s.regWrite who o w =
      if bit (s.reg 0x70000) 1 = true ∧ IsDcField o then (s.lockViolation who o).pumpCfgErr
      else s.lockViolation who o := by
  simp [State.regWrite, lock, field, or_assoc]

theorem bit_or_two_pow_self (v k : Nat) : bit (v ||| 2 ^ k) k = true := by
  have h : (v ||| 2 ^ k).testBit k = true := by simp
  simpa [bit, Nat.testBit_eq_decide_div_mod_eq] using h

theorem State.pumpCfgErr_alarm (s : State) : bit s.pumpCfgErr.pump.alarm 9 = true :=
  bit_or_two_pow_self s.pump.alarm 9

/-- A discarded write reports and sets CFG_ERR, and changes nothing else. -/
theorem State.rsOk_lockViolation_pumpCfgErr_frame (s : State) (who o : Nat) :
    { (s.rsOk.lockViolation who o).pumpCfgErr with pump := s.pump, evq := s.evq, host := s.host } = s := by
  simp only [State.rsOk, State.modHost, State.lockViolation, State.event, State.eventAt, State.pumpCfgErr,
    State.pumpAlarm, State.modPump, State.alarmEvent]

/-! ### Unassigned offsets (R15) -/

theorem ne_adjCtl_of_unassigned {o : Nat} (gap : regAt o = none) : o ≠ 0x6002C := by
  rintro rfl
  exact absurd gap (by decide)

theorem State.view_of_unassigned (s : State) {o : Nat} (gap : regAt o = none) : s.view o = 0 := by
  simp [State.view, State.viewNat, gap]

/-- Whatever writes the image lays over a register, there is none to show. -/
theorem State.image_of_unassigned (s : State) {o : Nat} (gap : regAt o = none) : s.image o = 0 := by
  unfold State.image
  split <;> exact State.view_of_unassigned _ gap

/-- No RWL field lies at an unassigned offset, and no unit takes the write. -/
theorem State.regWrite_of_unassigned (s : State) (who : Nat) {o : Nat} (w : Nat) (gap : regAt o = none) :
    s.regWrite who o w = s := by
  simp [State.regWrite, rwlMask, State.unitWrite, gap]

theorem State.winApply_of_unassigned (s : State) (w : WinWrite) (gap : regAt w.off = none) : s.winApply w = s :=
  s.regWrite_of_unassigned _ _ gap

/-- The core writes that are applied again are to the same offset, so they do nothing either. -/
theorem State.hostWrite_of_unassigned (s : State) {o : Nat} (w : Nat) (gap : regAt o = none) : s.hostWrite o w = s := by
  unfold State.hostWrite
  rw [s.regWrite_of_unassigned 0 w gap]
  refine List.foldlRecOn (motive := fun t => t = s) _ _ rfl ?_
  rintro t rfl v redone
  have same : v.off = o := by
    split at redone
    · simp at redone
    · simp only [List.mem_filter, Bool.and_eq_true, beq_iff_eq] at redone
      obtain ⟨-, ⟨⟨⟨same, -⟩, -⟩, -⟩, -⟩ := redone
      exact same
  exact t.winApply_of_unassigned v (same ▸ gap)

/-! ### O54 -/

theorem exec_registerWrite_of_locked (o : Fin 1048576) (w : Word) (s : State) (lock : s.locked = true)
    (field : rwlMask o ≠ 0) (aligned : o.val % 4 = 0) (quiet : IsDcField o → bit (s.reg 0x70000) 1 = false) :
    exec (.registerWrite o w 15 0) s = .next (s.rsOk.lockViolation 0 o) := by
  have lock' : s.rsOk.locked = true := by simpa using lock
  have noCfgErr : ¬(bit (s.rsOk.reg 0x70000) 1 = true ∧ IsDcField o) := by
    rintro ⟨en, dc⟩
    simp [quiet dc] at en
  rw [exec_registerWrite_word o w s aligned (ne_adjCtl_of_rwlMask_ne_zero field),
    State.hostWrite_of_locked _ _ lock' field, State.regWrite_of_locked _ _ _ lock' field, if_neg noCfgErr]

theorem exec_registerWrite_of_locked_dcField (o : Fin 1048576) (w : Word) (s : State) (lock : s.locked = true)
    (dc : IsDcField o) (en : bit (s.reg 0x70000) 1 = true) :
    exec (.registerWrite o w 15 0) s = .next (s.rsOk.lockViolation 0 o).pumpCfgErr := by
  have lock' : s.rsOk.locked = true := by simpa using lock
  have cfgErr : bit (s.rsOk.reg 0x70000) 1 = true ∧ IsDcField o := ⟨by simpa using en, dc⟩
  have field := dc.rwlMask_ne_zero
  rw [exec_registerWrite_word o w s dc.aligned (ne_adjCtl_of_rwlMask_ne_zero field),
    State.hostWrite_of_locked _ _ lock' field, State.regWrite_of_locked _ _ _ lock' field, if_pos cfgErr]

theorem exec_registerWrite_of_unassigned (o : Fin 1048576) (w : Word) (s : State) (gap : regAt o = none)
    (aligned : o.val % 4 = 0) : exec (.registerWrite o w 15 0) s = .next s.rsOk := by
  rw [exec_registerWrite_word o w s aligned (ne_adjCtl_of_unassigned gap), State.hostWrite_of_unassigned _ _ gap]

/-- Settles O54: the lock answers the write with its report, CFG_ERR joining it where R415 asks for it, and at an unassigned offset neither the write, nor
any core write to be applied after it, finds a register. -/
theorem lockedAndUnassignedRegisters : Obligations.LockedAndUnassignedRegisters := by
  unfold Obligations.LockedAndUnassignedRegisters
  refine ⟨fun o w s lock field aligned quiet => ?locked, fun o w s lock dc en => ?dcField,
    fun o s gap => ?read, fun o w s gap aligned => ?write, fun w s gap => ?coreWrite⟩
  case locked => exact exec_registerWrite_of_locked o w s lock field aligned quiet
  case dcField =>
    exact ⟨_, exec_registerWrite_of_locked_dcField o w s lock dc en, rfl, State.pumpCfgErr_alarm _,
      s.rsOk_lockViolation_pumpCfgErr_frame 0 o⟩
  case read => exact ⟨s.view_of_unassigned gap, s.image_of_unassigned gap⟩
  case write => exact exec_registerWrite_of_unassigned o w s gap aligned
  case coreWrite => exact s.winApply_of_unassigned w gap

end Sys2Proof.Machine

/-!
SUPPORT. What the shifts and the multiplications and divisions compute and how their results reach d (R189-R195), and
the proofs of O9 and O10.
-/

namespace Sys2Proof.Machine

/-! ### How the result of a computation reaches d -/

section Bodies

variable {s t : State} {i : Instr} {x : Nat} {c : Ctx} {y : Fin 128} {op : Nat} {f : Alu} {o : AluOut}

/-- d := f(a, b), where neither the old d nor the flags C and G matter. -/
theorem Operates.runThread_dab (h : Operates s i x c t) (row : threadRow i = some (y, op, none))
    (out : ∀ d cy g, f c.w (c.val 1) (c.val 2) d cy g = o) :
    runThread x op (dab f) s = .next (c.result2 t o.r o.c o.v) := by
  rw [h.run op _ (h.opcode row)]
  simp only [dab, Did.after, Ctx.alu, out, Ctx.result_eq]

theorem Ctx.later_writes_landed (c : Ctx) (t : State) (left : Nat) (o : AluOut) :
    c.later left (.arith (c.writes o)) (c.landed t) =
      c.launched t left (.arith (c.laterWrites o.r o.c o.v)) := by
  rw [Ctx.writes_eq]
  rfl

/-- Multiplications launch (R191). -/
theorem Operates.runThread_mulAt (h : Operates s i x c t) (row : threadRow i = some (y, op, none)) (left : Nat)
    (out : ∀ d cy g, f c.w (c.val 1) (c.val 2) d cy g = o) :
    runThread x op (mulAt left f) s = .next (c.launched t left (.arith (c.laterWrites o.r o.c o.v))) := by
  rw [h.run op _ (h.opcode row)]
  simp only [mulAt, Did.after, Ctx.alu, out, Ctx.later_writes_landed]

/-- Divisions by another divisor than 0 launch (R192). -/
theorem Operates.runThread_divBy (h : Operates s i x c t) (row : threadRow i = some (y, op, none))
    (divisor : c.val 2 ≠ 0) (out : ∀ d cy g, f c.w (c.val 1) (c.val 2) d cy g = o) :
    runThread x op (divBy f) s = .next (c.launched t 10 (.arith (c.laterWrites o.r o.c o.v))) := by
  rw [h.run op _ (h.opcode row)]
  simp only [divBy, if_neg divisor, Did.after, Ctx.alu, out, Ctx.later_writes_landed]

end Bodies

/-! ### Shifts and rotates (R189) -/

section Shifts

variable {w a n d : Nat} {cy g : Bool}

theorem aluShl_of_zero (zero : n = 0) : aluShl w a n d cy g = { r := a, c := false, v := false } := if_pos zero

theorem aluShl_of_lt (pos : 0 < n) (lt : n < w) :
    aluShl w a n d cy g = { r := a * 2 ^ n % 2 ^ w, c := bit a (w - n), v := false } := by
  simp [aluShl, pos.ne', lt]

theorem aluShl_of_le (pos : 0 < n) (le : w ≤ n) :
    aluShl w a n d cy g = { r := 0, c := decide (n = w) && bit a 0, v := false } := by
  simp [aluShl, pos.ne', le.not_gt]

theorem aluShr_of_zero (zero : n = 0) : aluShr w a n d cy g = { r := a, c := false, v := false } := if_pos zero

theorem aluShr_of_lt (pos : 0 < n) (lt : n < w) :
    aluShr w a n d cy g = { r := a / 2 ^ n, c := bit a (n - 1), v := false } := by
  simp [aluShr, pos.ne', lt]

theorem aluShr_of_le (pos : 0 < n) (le : w ≤ n) :
    aluShr w a n d cy g = { r := 0, c := decide (n = w) && bit a (w - 1), v := false } := by
  simp [aluShr, pos.ne', le.not_gt]

theorem aluSar_of_zero (zero : n = 0) : aluSar w a n d cy g = { r := a, c := false, v := false } := if_pos zero

theorem aluSar_of_lt (pos : 0 < n) (lt : n < w) :
    aluSar w a n d cy g = { r := wrap w (sgn w a / 2 ^ n), c := bit a (n - 1), v := false } := by
  simp [aluSar, pos.ne', lt]

/-- From the operand size on, every bit of the result and C are the sign. -/
theorem aluSar_of_le (pos : 0 < n) (le : w ≤ n) :
    aluSar w a n d cy g =
      { r := if bit a (w - 1) then 2 ^ w - 1 else 0, c := bit a (w - 1), v := false } := by
  simp [aluSar, pos.ne', le.not_gt]

/-- A count that is a multiple of the operand size is no exception: the part that goes round is then empty. -/
theorem aluRol_eq {k : Nat} (count : k = n % w) (fits : a < 2 ^ w) :
    aluRol w a n d cy g =
      { r := a * 2 ^ k % 2 ^ w + a / 2 ^ (w - k), c := bit (a * 2 ^ k % 2 ^ w + a / 2 ^ (w - k)) 0, v := false } := by
  have still : k = 0 → a = a * 2 ^ k % 2 ^ w + a / 2 ^ (w - k) := by
    rintro rfl
    simp [Nat.mod_eq_of_lt fits, Nat.div_eq_of_lt fits]
  have result : (if k = 0 then a else a * 2 ^ k % 2 ^ w + a / 2 ^ (w - k)) =
      a * 2 ^ k % 2 ^ w + a / 2 ^ (w - k) := ite_eq_right_iff.mpr still
  simp only [aluRol, ← count, result]

end Shifts

theorem exec_shl (x : Fin 128) (s : State) : exec (.shl x) s = runThread x 0x007 (dab aluShl) s := rfl

theorem exec_shr (x : Fin 128) (s : State) : exec (.shr x) s = runThread x 0x008 (dab aluShr) s := rfl

theorem exec_sar (x : Fin 128) (s : State) : exec (.sar x) s = runThread x 0x009 (dab aluSar) s := rfl

theorem exec_rol (x : Fin 128) (s : State) : exec (.rol x) s = runThread x 0x00A (dab aluRol) s := rfl

/-- Settles O9: the result and C of a shift by the branch that its count takes, 0, below the operand size or from it on,
and of a rotate by its count modulo the operand size. -/
theorem shiftResultsAndCarry : Obligations.ShiftResultsAndCarry := by
  unfold Obligations.ShiftResultsAndCarry
  simp only [exec_shl, exec_shr, exec_sar, exec_rol]
  refine ⟨fun x c s t h zero => ?shlZero, fun x c s t h pos lt => ?shlBelow, fun x c s t h pos le => ?shlFrom,
    fun x c s t h zero => ?shrZero, fun x c s t h pos lt => ?shrBelow, fun x c s t h pos le => ?shrFrom,
    fun x c s t h zero => ?sarZero, fun x c s t h pos lt => ?sarBelow, fun x c s t h pos le => ?sarFrom,
    fun x k r c s t h count fits result => ?rol⟩
  case shlZero => rw [h.runThread_dab rfl fun _ _ _ => aluShl_of_zero zero]
  case shlBelow => rw [h.runThread_dab rfl fun _ _ _ => aluShl_of_lt pos lt]
  case shlFrom => rw [h.runThread_dab rfl fun _ _ _ => aluShl_of_le pos le]
  case shrZero => rw [h.runThread_dab rfl fun _ _ _ => aluShr_of_zero zero]
  case shrBelow => rw [h.runThread_dab rfl fun _ _ _ => aluShr_of_lt pos lt]
  case shrFrom => rw [h.runThread_dab rfl fun _ _ _ => aluShr_of_le pos le]
  case sarZero => rw [h.runThread_dab rfl fun _ _ _ => aluSar_of_zero zero]
  case sarBelow => rw [h.runThread_dab rfl fun _ _ _ => aluSar_of_lt pos lt]
  case sarFrom => rw [h.runThread_dab rfl fun _ _ _ => aluSar_of_le pos le]
  case rol =>
    subst result
    rw [h.runThread_dab rfl fun _ _ _ => aluRol_eq count fits]

/-! ### Multiplications and divisions (R191, R192) -/

section Products

variable {w a b d : Nat} {cy g : Bool}

/-- C says that the unsigned product does not fit, V that the signed one does not. -/
theorem aluMul_eq : aluMul w a b d cy g =
    { r := a * b % 2 ^ w, c := decide (2 ^ w - 1 < a * b), v := overflows w (sgn w a * sgn w b) } := by
  have carry : 2 ^ w ≤ a * b ↔ 2 ^ w - 1 < a * b := by
    have := Nat.two_pow_pos w
    omega
  simp only [aluMul, outside_eq, carry]

theorem aluMulh_eq : aluMulh w a b d cy g =
    { r := wrap w (sgn w a * sgn w b / 2 ^ w), c := false, v := false } := by
  simp [aluMulh, plain]

theorem aluMulhu_eq : aluMulhu w a b d cy g = { r := a * b / 2 ^ w, c := false, v := false } := rfl

theorem aluDiv_of_ne_zero (divisor : b ≠ 0) : aluDiv w a b d cy g =
    { r := wrap w (Int.tdiv (sgn w a) (sgn w b)), c := false
      v := decide (sgn w a = -(2 ^ (w - 1)) ∧ sgn w b = -1) } := if_neg divisor

theorem aluRem_of_ne_zero (divisor : b ≠ 0) :
    aluRem w a b d cy g = { r := wrap w (Int.tmod (sgn w a) (sgn w b)), c := false, v := false } := if_neg divisor

theorem aluDivu_of_ne_zero (divisor : b ≠ 0) : aluDivu w a b d cy g =
    { r := a / b, c := false, v := false } := by
  simp [aluDivu, divisor, plain]

theorem aluRemu_of_ne_zero (divisor : b ≠ 0) : aluRemu w a b d cy g =
    { r := a % b, c := false, v := false } := by
  simp [aluRemu, divisor, plain]

end Products

theorem exec_mul (x : Fin 128) (s : State) : exec (.mul x) s = runThread x 0x00D (mulAt 2 aluMul) s := rfl

theorem exec_mulh (x : Fin 128) (s : State) : exec (.mulh x) s = runThread x 0x104 (mulAt 3 aluMulh) s := rfl

theorem exec_mulhu (x : Fin 128) (s : State) : exec (.mulhu x) s = runThread x 0x105 (mulAt 3 aluMulhu) s := rfl

theorem exec_div (x : Fin 128) (s : State) : exec (.div x) s = runThread x 0x100 (divBy aluDiv) s := rfl

theorem exec_divu (x : Fin 128) (s : State) : exec (.divu x) s = runThread x 0x101 (divBy aluDivu) s := rfl

theorem exec_rem (x : Fin 128) (s : State) : exec (.rem x) s = runThread x 0x102 (divBy aluRem) s := rfl

theorem exec_remu (x : Fin 128) (s : State) : exec (.remu x) s = runThread x 0x103 (divBy aluRemu) s := rfl

/-! ### Divisions by zero (R192, R193) -/

/-- `i` is a division of Lx that gives `z a` where it divides `a` by zero. -/
def DividesByZero (x : Fin 128) (i : Instr) (z : Nat → Nat) : Prop :=
  ∃ op f, threadRow i = some (x, op, none) ∧ (∀ s, exec i s = runThread x op (divBy f) s) ∧
    ∀ w a d cy g, f w a 0 d cy g = { r := z a, c := false, v := false }

theorem dividesByZero_of_quotient {x : Fin 128} {i : Instr} (quotient : i ∈ [.div x, .divu x]) :
    DividesByZero x i (fun _ => 0) := by
  simp only [List.mem_cons, List.not_mem_nil, or_false] at quotient
  obtain rfl | rfl := quotient
  · exact ⟨0x100, aluDiv, rfl, exec_div x, fun _ _ _ _ _ => rfl⟩
  · exact ⟨0x101, aluDivu, rfl, exec_divu x, fun _ _ _ _ _ => rfl⟩

theorem dividesByZero_of_remainder {x : Fin 128} {i : Instr} (remainder : i ∈ [.rem x, .remu x]) :
    DividesByZero x i id := by
  simp only [List.mem_cons, List.not_mem_nil, or_false] at remainder
  obtain rfl | rfl := remainder
  · exact ⟨0x102, aluRem, rfl, exec_rem x, fun _ _ _ _ _ => rfl⟩
  · exact ⟨0x103, aluRemu, rfl, exec_remu x, fun _ _ _ _ _ => rfl⟩

section ByZero

variable {x : Fin 128} {i : Instr} {z : Nat → Nat} {c : Ctx} {s t : State}

/-- A metered thread gets DZ with the result, at the 10th turn. -/
theorem DividesByZero.exec_metered (div : DividesByZero x i z) (h : Operates s i x c t) (zero : c.val 2 = 0)
    (metered : t.elastic x = false) :
    exec i s = .next (c.launched t 10 (.arith (c.laterWrites (z (c.val 1)) false false ++
      [{ loc := .bit 4, n := 1, v := 1 }]))) := by
  obtain ⟨op, f, row, same, out⟩ := div
  rw [same, h.run op _ (h.opcode row)]
  simp only [divBy, zero, h.x_eq, metered, if_true, Bool.false_eq_true, if_false, Did.after, Ctx.alu, out,
    Ctx.writes_eq]
  rfl

/-- The DZ of an elastic thread, and DIV_ZERO for it where the thread takes it, come in the WRITE stage. -/
theorem DividesByZero.exec_elastic (div : DividesByZero x i z) (h : Operates s i x c t) (zero : c.val 2 = 0)
    (elastic : t.elastic x = true) {u : State}
    (written : u = (c.result2 t (z (c.val 1)) false false).setFlag x 4 true) :
    exec i s = .next (if (u.th x).dzTrap then
      u.modTh x (fun v => { v with exc := some (4, BitVec.ofNat 18 (c.pc + c.dec.len)) }) else u) := by
  obtain ⟨op, f, row, same, out⟩ := div
  rw [same, h.run op _ (h.opcode row), written]
  simp only [divBy, zero, h.x_eq, elastic, if_true, Did.after, Ctx.alu, out, Ctx.result_eq]
  rfl

end ByZero

/-- Settles O10: products and quotients launch with the result that R191 and R192 give, and a division by zero ends
according to the class of its thread (R193). -/
theorem multiplyAndDivideLaunches : Obligations.MultiplyAndDivideLaunches := by
  unfold Obligations.MultiplyAndDivideLaunches
  simp only [exec_mul, exec_mulh, exec_mulhu, exec_div, exec_divu, exec_rem, exec_remu]
  refine ⟨fun x p c s t h product => ?mul, fun x c s t h => ?mulh, fun x c s t h => ?mulhu,
    fun x c s t h divisor => ?div, fun x c s t h divisor => ?divu, fun x c s t h divisor => ?rem,
    fun x c s t h divisor => ?remu, fun x i c s t quotient h zero metered => ?quotientByZero,
    fun x i c s t remainder h zero metered => ?remainderByZero,
    fun x i r c s t u division h zero elastic quotient remainder written => ?elasticByZero⟩
  case mul =>
    subst product
    rw [h.runThread_mulAt rfl 2 fun _ _ _ => aluMul_eq]
  case mulh => rw [h.runThread_mulAt rfl 3 fun _ _ _ => aluMulh_eq]
  case mulhu => rw [h.runThread_mulAt rfl 3 fun _ _ _ => aluMulhu_eq]
  case div => rw [h.runThread_divBy rfl divisor fun _ _ _ => aluDiv_of_ne_zero divisor]
  case divu => rw [h.runThread_divBy rfl divisor fun _ _ _ => aluDivu_of_ne_zero divisor]
  case rem => rw [h.runThread_divBy rfl divisor fun _ _ _ => aluRem_of_ne_zero divisor]
  case remu => rw [h.runThread_divBy rfl divisor fun _ _ _ => aluRemu_of_ne_zero divisor]
  case quotientByZero => exact (dividesByZero_of_quotient quotient).exec_metered h zero metered
  case remainderByZero => exact (dividesByZero_of_remainder remainder).exec_metered h zero metered
  case elasticByZero =>
    have kind : i ∈ [.div x, .divu x] ∨ i ∈ [.rem x, .remu x] := by
      simpa only [List.mem_cons, List.not_mem_nil, or_false, or_assoc] using division
    obtain kind | kind := kind
    · rw [quotient kind] at written
      exact (dividesByZero_of_quotient kind).exec_elastic h zero elastic written
    · rw [remainder kind] at written
      exact (dividesByZero_of_remainder kind).exec_elastic h zero elastic written

end Sys2Proof.Machine

/-!
SUPPORT. Every command completes; the queue, the stroke count, the RWL lock and the two modes of priming over runs; and the
proofs of O56, O57 and O58.
-/

namespace Sys2Proof.Machine

/-! ### Completion -/

/-- The block goes on: neither a fault nor a refusal. -/
def Completes (r : Result) : Prop := ∃ t, r = .next t

@[simp] theorem completes_next (t : State) : Completes (.next t) := ⟨t, rfl⟩

@[simp] theorem completes_act (s t : State) (c : Bool) : Completes (s.act c t) := ⟨_, rfl⟩

@[simp] theorem completes_ite (p : Prop) [Decidable p] (a b : Result) (ha : Completes a) (hb : Completes b) :
    Completes (if p then a else b) := by split <;> assumption

@[simp] theorem runSel_completes (x : Nat) (sel : State → Dec → Bool) (body : Body) (s : State) :
    Completes (runSel x sel body s) := by
  unfold runSel
  split <;> simp

@[simp] theorem runThread_completes (x op : Nat) (body : Body) (s : State) : Completes (runThread x op body s) :=
  runSel_completes _ _ _ _

@[simp] theorem runCmd_completes (s : State) (p op : Nat) (masks : List Nat) (right : Bool) (f : HCmd → State → State) :
    Completes (s.runCmd p op masks right f) := by
  unfold State.runCmd
  split <;> simp

@[simp] theorem runLock_completes (s : State) (p op : Nat) (masks : List Nat) (right : Bool) (f : HCmd → State → State) :
    Completes (s.runLock p op masks right f) := by
  unfold State.runLock
  split <;> simp

theorem landIf_completes (p : LongOp → Bool) (x : Nat) (s : State) : Completes (landIf p x s) := by
  unfold landIf
  split <;> simp

/-- GATE_ENTRY opens no further gate, drops the gate word, or enters the word that it selects (R311). -/
theorem execGateEntry_completes (n : Fin 32) (s : State) : Completes (execGateEntry n s) := by
  unfold execGateEntry
  extract_lets p
  generalize s.gateSelect n p.gateWords (s.groupTime n) = selected
  refine completes_ite _ _ _ (completes_next _) ?_
  cases selected with
  | none => exact completes_next _
  | some g => exact completes_ite _ _ _ (completes_next _) (completes_next _)

/-- Every row of a thread instruction runs the next instruction of its thread where it is the row's, by a body of its own. -/
theorem exec_of_threadRow {i : Instr} {x : Fin 128} {o : Nat} {k : Option Nat} (row : threadRow i = some (x, o, k)) :
    ∃ body, ∀ s, exec i s = runSel x (rowSel i) body s := by
  cases i <;> first
    | (cases row; done)
    | (cases row; exact ⟨_, fun _ => rfl⟩)

/-- The remaining rows answer at once, act under a condition, or first look for what they concern. -/
theorem exec_completes (i : Instr) (s : State) : Completes (exec i s) := by
  cases row : threadRow i with
  | some r =>
    obtain ⟨body, run⟩ := exec_of_threadRow row
    rw [run]
    exact runSel_completes _ _ _ _
  | none =>
    cases i <;> try (cases row; done)
    all_goals simp only [exec, execAwait, execBadSubmission, execBlockCrcDone, execCellReserve, execChanResult, execCisternFault,
      execCisternPartLand, execCompletionWrite, execCutOver, execCycleStart, execDrainEnd, execDupAgeOut,
      execEventEntry, execExceptionEntry, execExtoutPulse, execFrameRecord, execGateEntry_completes, execGive,
      execIllegalInstruction, execInterruptEntry, execLaunch, execLbReturn, execLeaseExpiry, execLockRewrite,
      execLogIntake, execLogWrite, execLongResult, execLvCommit, execMirrorDone, execMoveComplete, execPersLoadDone,
      execPersSwapDone, execPollReturn, execPriming, execPutCreditReturn, execQueueStallEnd, execReadResponse,
      execReadmissionDone, execRefill, execRegisterWrite, execResponseTimeout, execRotationStep, execRxEntryArrive,
      execRxPost, execSchedArrive, execScheduleFire, execScrubRead, execSelfTestDone, execSend, execSlewStart,
      execSpillVisit, execStretcherEnd, execSwapArmed, execSwapTimeout, execTake, execThreadCutOver, execTimeStep,
      execTriggerArrive, execTscapCapture, execTxEntryReady, execTxFrame, execTxFrameDone, execTxholdChange,
      execUncorrectableFetch, execUndefinedCommand, execWellheadEvent, execWindowWriteArrive, execWriteAck,
      landIf_completes, runLock_completes, runCmd_completes, execCmdNop, execChCreate, execChModify, execChDestroy,
      execChEnable, execChDisable, execPortEnable, execPortDisable, State.portCmd, execPersLoad, execPersSwap,
      execLockgAcq, execLockgRel, execLockgForce, execLockwAcq, execLockwRel]
    all_goals repeat' first
      | with_reducible exact completes_next _
      | with_reducible exact completes_act _ _ _
      | split
    all_goals exact completes_next _

/-! ### What a command leaves (R352, R546) -/

theorem exec_pending {i : Instr} {s t : State} (h : exec i s = .next t) : t.pending = s.pending := by
  cases fixed : changesFixed i with
  | false => exact congrArg (·.1) (exec_keeps i s fixed t h)
  | true =>
    cases i <;> try (cases fixed; done)
    case stroke tree unit => exact congrArg (·.1) (execStroke_fixed s t tree unit h)
    case blockReset test => exact congrArg (·.1) (execBlockReset_fixed test s t h)
    case aonReset test => exact congrArg (·.1) (execAonReset_fixed test s t h)
    case priming => exact congrArg (·.1) (execPriming_fixed s t h)
    case primed =>
      obtain keeps | ⟨-, -, _, primes⟩ := execPrimed_fixed s t h
      · exact congrArg (·.1) keeps
      · exact congrArg (·.1) primes

/-- Settles O56: every row completes, and none touches the queue. -/
theorem commandsCompleteAndLeaveTheQueue : Obligations.CommandsCompleteAndLeaveTheQueue := by
  unfold Obligations.CommandsCompleteAndLeaveTheQueue
  intro c s
  obtain ⟨t, h⟩ := exec_completes c s
  exact ⟨t, h, exec_pending h⟩

/-- The two commands that take a count of strokes or a lock back to its reset value. -/
def IsReset (i : Instr) : Prop := ∃ test, i = .blockReset test ∨ i = .aonReset test

theorem exec_strokes {i : Instr} {s t : State} (h : exec i s = .next t) (noStroke : ∀ tree unit, i ≠ .stroke tree unit)
    (noReset : ¬IsReset i) : t.strokes = s.strokes := by
  cases fixed : changesFixed i with
  | false => exact congrArg (·.2.1) (exec_keeps i s fixed t h)
  | true =>
    cases i <;> try (cases fixed; done)
    case stroke tree unit => exact absurd rfl (noStroke tree unit)
    case blockReset test => exact absurd ⟨test, .inl rfl⟩ noReset
    case aonReset test => exact absurd ⟨test, .inr rfl⟩ noReset
    case priming => exact congrArg (·.2.1) (execPriming_fixed s t h)
    case primed =>
      obtain keeps | ⟨-, -, _, primes⟩ := execPrimed_fixed s t h
      · exact congrArg (·.2.1) keeps
      · exact congrArg (·.2.1) primes

theorem exec_locked {i : Instr} {s t : State} (h : exec i s = .next t) (noReset : ¬IsReset i) (lock : s.locked = true) :
    t.locked = true := by
  cases fixed : changesFixed i with
  | false => exact (congrArg (·.2.2.1) (exec_keeps i s fixed t h)).trans lock
  | true =>
    cases i <;> try (cases fixed; done)
    case stroke tree unit => exact (congrArg (·.2.2.1) (execStroke_fixed s t tree unit h)).trans lock
    case blockReset test => exact absurd ⟨test, .inl rfl⟩ noReset
    case aonReset test => exact absurd ⟨test, .inr rfl⟩ noReset
    case priming => exact (congrArg (·.2.2.1) (execPriming_fixed s t h)).trans lock
    case primed =>
      obtain keeps | ⟨-, -, k, primes⟩ := execPrimed_fixed s t h
      · exact (congrArg (·.2.2.1) keeps).trans lock
      · have joined : t.locked = (s.locked || k) := congrArg (·.2.2.1) primes
        simp [joined, lock]

/-- What every command of a run keeps, the run keeps. -/
theorem Runs.keeps {p : State → Prop} {is : List Instr} {s t : State} (run : Runs s is t)
    (step : ∀ i ∈ is, ∀ u v, exec i u = .next v → p u → p v) (start : p s) : p t := by
  induction run with
  | nil s => exact start
  | cons i is s u v h _ ih =>
    exact ih (fun j mem => step j (List.mem_cons_of_mem _ mem)) (step i List.mem_cons_self s u h start)

/-- Settles O57, by induction over the run: a command that is neither a stroke nor a reset keeps the count, and one that
is no reset keeps a set lock. -/
theorem countAndLockOverRuns : Obligations.CountAndLockOverRuns := by
  unfold Obligations.CountAndLockOverRuns
  have noReset {i : Instr} (h : ∀ b, i ≠ .blockReset b ∧ i ≠ .aonReset b) : ¬IsReset i := by
    rintro ⟨test, rfl | rfl⟩
    · exact (h test).1 rfl
    · exact (h test).2 rfl
  refine ⟨fun is s t run quiet => ?count, fun is s t run quiet lock => ?lock⟩
  case count =>
    refine run.keeps (p := fun u => u.strokes = s.strokes) (fun i mem u v h same => ?_) rfl
    obtain ⟨noStroke, keep⟩ := quiet i mem
    exact (exec_strokes h noStroke (noReset keep)).trans same
  case lock =>
    exact run.keeps (p := fun u => u.locked = true) (fun i mem u v h => exec_locked h (noReset (quiet i mem))) lock

/-! ### PRIMED and RECOVERY (R546, R547) -/

theorem safe_of_fixed {s t : State} (same : t.fixed = s.fixed) (safe : s.Safe) : t.Safe := by
  have primed : t.mram.primed = s.mram.primed := congrArg (·.2.2.2.1) same
  have recovery : t.mram.recovery = s.mram.recovery := congrArg (·.2.2.2.2) same
  rwa [State.Safe, primed, recovery]

/-- A primed block does not prime again. -/
theorem execPriming_of_primed {s : State} (primed : s.mram.primed = true) : execPriming s = .next s := by
  unfold execPriming
  split
  · simp [State.act, primed]
  · simp [State.act, State.primeReady, primed]

theorem exec_safe {i : Instr} {s t : State} (h : exec i s = .next t) (safe : s.Safe) : t.Safe := by
  cases fixed : changesFixed i with
  | false => exact safe_of_fixed (exec_keeps i s fixed t h) safe
  | true =>
    cases i <;> try (cases fixed; done)
    case stroke tree unit =>
      have same := execStroke_fixed s t tree unit h
      have primed : t.mram.primed = s.mram.primed := congrArg (·.2.2.2.1) same
      have recovery : t.mram.recovery = s.mram.recovery := congrArg (·.2.2.2.2) same
      rwa [State.Safe, primed, recovery]
    case blockReset test =>
      have primed : t.mram.primed = false := congrArg (·.2.2.2.1) (execBlockReset_fixed test s t h)
      simp [State.Safe, primed]
    case aonReset test =>
      have primed : t.mram.primed = false := congrArg (·.2.2.2.1) (execAonReset_fixed test s t h)
      simp [State.Safe, primed]
    case priming =>
      cases was : s.mram.primed with
      | true =>
        cases (execPriming_of_primed was).symm.trans h
        exact safe
      | false =>
        have primed : t.mram.primed = s.mram.primed := congrArg (·.2.2.2.1) (execPriming_fixed s t h)
        simp [State.Safe, primed, was]
    case primed =>
      obtain keeps | ⟨-, -, _, primes⟩ := execPrimed_fixed s t h
      · exact safe_of_fixed keeps safe
      · have recovery : t.mram.recovery = false := congrArg (·.2.2.2.2) primes
        simp [State.Safe, recovery]

/-- Settles O58: only PRIMING sets RECOVERY, where PRIMED is 0, and PRIMED, which sets PRIMED, clears RECOVERY. -/
theorem primedAndRecoveryExclude : Obligations.PrimedAndRecoveryExclude := by
  unfold Obligations.PrimedAndRecoveryExclude
  refine ⟨fun s t safe h => ?step, fun is s t safe run => ?run⟩
  case step =>
    unfold step at h
    split at h
    · cases h
      exact safe_of_fixed s.tclkEdge_fixed safe
    · exact exec_safe h safe
  case run => exact run.keeps (fun i _ u v h => exec_safe h) safe

end Sys2Proof.Machine

/-!
SUPPORT. The pace governor (chapter 02): when each of its commands acts and what it leaves, and the proof of O1.
-/

namespace Sys2Proof.Machine

/-! ### Commands under a condition -/

/-- A command whose condition holds acts. -/
theorem State.act_of {s t : State} {c : Bool} (holds : c = true) : s.act c t = .next t := by
  rw [holds]
  rfl

theorem answers_of_act {i : Instr} {s t : State} {c : Bool} {p : State → Prop} (run : exec i s = s.act c t)
    (holds : c = true) (post : p t) : Answers i s p :=
  ⟨t, run.trans (State.act_of holds), post⟩

/-! ### The voltage request bus (R54-R60) -/

section Bus

variable {s : State}

theorem State.vreqClamp_of_mem {c : Nat} (low : s.govVmin ≤ c) (high : c ≤ s.govVmax) : s.vreqClamp c = c := by
  unfold State.vreqClamp
  omega

theorem State.vreqClamp_mem (c : Nat) (range : s.govVmin ≤ s.govVmax) :
    s.govVmin ≤ s.vreqClamp c ∧ s.vreqClamp c ≤ s.govVmax := by
  unfold State.vreqClamp
  omega

theorem State.vreqNext_of_target_eq (same : s.gov.target = s.gov.code) : s.vreqNext = s := by
  simp [State.vreqNext, same]

/-- A newer target within VMIN to VMAX is presented on the free bus (R57). -/
theorem State.vreqNext_of_target_ne (free : s.gov.busy = false) (newer : s.gov.target ≠ s.gov.code)
    (low : s.govVmin ≤ s.gov.target) (high : s.gov.target ≤ s.govVmax) :
    s.vreqNext = s.modGov (fun g => { g with
      code := g.target, req := true, busy := true, reqAt := some s.tb.elapsed }) := by
  have inRange := State.vreqClamp_of_mem low high
  simp [State.vreqNext, State.vreqPresent, free, newer, inRange, State.modGov]

/-- What VREQ_ACK_FALL newly presents lies in VMIN to VMAX (R54). -/
theorem State.vreqNext_code_mem (idle : s.gov.req = false) (range : s.govVmin ≤ s.govVmax) (asks : s.vreqNext.gov.req = true) :
    s.govVmin ≤ s.vreqNext.gov.code ∧ s.vreqNext.gov.code ≤ s.govVmax := by
  unfold State.vreqNext at asks ⊢
  split
  · exact State.vreqClamp_mem _ range
  · next still =>
    rw [if_neg still, idle] at asks
    cases asks

end Bus

/-! ### O1 -/

theorem clampPace_lt (w : Nat) : clampPace w < 2 ^ 32 := by
  unfold clampPace
  omega

theorem clampPace_eq (w : Nat) : clampPace w = max 800 (min 1600 (w % 2048)) := by
  simp [clampPace, bits]

/-- Settles O1: each command acts where its condition holds, by the lemmas on the voltage request bus and by what the
governor writes. -/
theorem governorCommands : Obligations.GovernorCommands := by
  unfold Obligations.GovernorCommands
  refine ⟨fun s deep good => ?depthDecrease, fun w s => ?paceWrite, fun c s cross boundary late => ?paceApply,
    fun w s => ?snap, fun s due => ?msReport, fun s req => ?ackRise, fun s busy idle same => ?ackFallSame,
    fun s busy idle newer low high => ?ackFallNewer, fun s busy idle range => ?ackFallRange,
    fun s en zero free grid good wait above top => ?downRequest, fun a s req asked enabled late => ?vreqTimeout,
    fun s lost grid => ?refLost, fun s back hold => ?refRestored⟩
  case depthDecrease => exact State.act_of (by simp [State.canRecover, State.govWin, deep, good])
  case paceWrite =>
    refine ⟨_, rfl, ?_, fun o other => State.reg_setReg_other s _ _ _ other, rfl, rfl⟩
    exact (State.reg_setReg_same s _ _).trans ((Nat.mod_eq_of_lt (clampPace_lt _)).trans (clampPace_eq _))
  case paceApply =>
    rw [← clampPace_eq]
    exact State.act_of (by simp [State.paceDue, cross, boundaryAt, boundary, late])
  case snap =>
    refine ⟨_, rfl, ?_⟩
    have asks : bit (putBits w.toNat 2 2 1) 2 = true := bit_putBits_one _ _
    simp only [State.govCtrlWrite, asks, if_true]
    exact ⟨rfl, fun o other => State.reg_setReg_other s _ _ _ other, rfl⟩
  case msReport => exact State.act_of (decide_eq_true due)
  case ackRise => exact State.act_of req
  case ackFallSame =>
    have acts : exec .vreqAckFall s = .next (s.modGov (fun g => { g with busy := false })).vreqNext :=
      State.act_of (by simp [busy, idle])
    exact acts.trans (congrArg Host.Outcome.next (State.vreqNext_of_target_eq same))
  case ackFallNewer =>
    have acts : exec .vreqAckFall s = .next (s.modGov (fun g => { g with busy := false })).vreqNext :=
      State.act_of (by simp [busy, idle])
    exact acts.trans (congrArg Host.Outcome.next (State.vreqNext_of_target_ne rfl newer low high))
  case ackFallRange =>
    exact answers_of_act rfl (by simp [busy, idle])
      (State.vreqNext_code_mem (s := s.modGov (fun g => { g with busy := false })) idle range)
  case downRequest =>
    have may : s.canDown = true := by
      have waited : s.gov.ackAt + usTime (bits (s.reg 0x01028) 31 16) ≤ s.tb.counted := by
        rwa [usTime, Nat.mul_assoc]
      simp [State.canDown, State.govVmin, State.govVmax, en, zero, free, grid, good, waited, above, top]
    have inRange : s.vreqClamp (s.gov.code - 1) = s.gov.code - 1 :=
      State.vreqClamp_of_mem (by unfold State.govVmin; omega) (by unfold State.govVmax; omega)
    have acts : exec .downRequest s = .next (s.vreqPresent (s.gov.code - 1)) := State.act_of may
    rw [acts, State.vreqPresent, inRange]
    rfl
  case vreqTimeout =>
    exact State.act_of (by simp [State.vreqLate, asked, req, enabled, usUnits, late])
  case refLost => exact State.act_of (by simp [lost, grid])
  case refRestored => exact State.act_of (by simp [back, hold])

end Sys2Proof.Machine

/-!
SUPPORT. The step, the state after reset and the worked decodes: the proofs of O51, O52 and O53.
-/

namespace Sys2Proof.Machine

/-- Settles O51, by the two cases of the queue. -/
theorem stepRunsTheFrontCommand : Obligations.StepRunsTheFrontCommand := by
  unfold Obligations.StepRunsTheFrontCommand
  refine ⟨fun c cs s front => ?_, fun s empty => ?_⟩
  · simp [step, front]
  · simp [step, empty]

/-- Settles O52: reset leaves the tables empty, so that each entry has its default. -/
theorem resetLeavesTheBlockUnprimed : Obligations.ResetLeavesTheBlockUnprimed := by
  unfold Obligations.ResetLeavesTheBlockUnprimed
  refine ⟨rfl, rfl, rfl, rfl, rfl, rfl, rfl, rfl, rfl, fun b carries => ?bores, rfl, rfl, fun x => ⟨rfl, rfl⟩, fun v => rfl,
    fun i => ⟨rfl, rfl⟩, fun o => rfl, ?safe, rfl⟩
  case bores =>
    interval_cases b <;> exact ⟨rfl, rfl, rfl⟩
  case safe => rintro ⟨primed, -⟩; cases primed

/-- Settles O53: reading the bytes that chapter 05 writes out. -/
theorem workedDecodesAreRead : Obligations.WorkedDecodesAreRead := by
  unfold Obligations.WorkedDecodesAreRead
  exact ⟨⟨_, rfl, rfl, rfl, rfl, rfl, rfl⟩, ⟨_, rfl, rfl, rfl, rfl, rfl, rfl⟩, ⟨_, rfl, rfl, rfl, rfl, rfl⟩,
    ⟨_, rfl, rfl, rfl, rfl, rfl⟩, rfl, ⟨_, rfl, rfl, rfl, rfl, rfl⟩, rfl⟩

end Sys2Proof.Machine

/-!
SUPPORT. Commands of threads and of the slot wheel (chapter 03), and the proof of O2.
-/

namespace Sys2Proof.Machine

/-! ### One thread or one bore changes -/

theorem State.modTh_changes (s : State) (x : Nat) (f : Thread → Thread) :
    (s.modTh x f).th x = f (s.th x) ∧ (∀ y, y ≠ x → (s.modTh x f).th y = s.th y) ∧
      { s.modTh x f with threads := s.threads } = s :=
  ⟨State.th_modTh_same s x f, fun y other => by rw [State.th_modTh, if_neg (Ne.symm other)], rfl⟩

theorem State.modLb_changes (s : State) (n : Nat) (f : LBore → LBore) :
    (s.modLb n f).lb n = f (s.lb n) ∧ (∀ m, m ≠ n → (s.modLb n f).lb m = s.lb m) ∧
      { s.modLb n f with lbs := s.lbs } = s :=
  ⟨State.lb_modLb_same s n f, fun m other => by rw [State.lb_modLb, if_neg (Ne.symm other)], rfl⟩

/-! ### Flag writes (R20) -/

/-- Several flag writes are flag writes of one thread. -/
theorem State.foldl_setFlag_rest (s : State) (x : Nat) (v : Bool) (fs : List Nat) :
    { fs.foldl (fun t a => t.setFlag x a v) s with
      threads := s.threads, ecc := s.ecc, eccDue := s.eccDue, evq := s.evq } = s := by
  let g : State → State := fun t => { t with threads := s.threads, ecc := s.ecc, eccDue := s.eccDue, evq := s.evq }
  have kept : g (fs.foldl (fun t a => t.setFlag x a v) s) = g s :=
    foldl_rest g (fun t a => t.setFlag x a v) (fun t a => (congrArg g (State.setFlag_rest t x a v) :)) fs s
  exact kept

theorem State.foldl_setFlag_th (s : State) (x y : Nat) (v : Bool) (fs : List Nat) (other : y ≠ x) :
    (fs.foldl (fun t a => t.setFlag x a v) s).th y = s.th y :=
  foldl_rest (fun t => t.th y) _ (fun t a => State.setFlag_th t x a y v other) fs s

theorem State.foldl_setFlag_self (s : State) (x : Nat) (v : Bool) (fs : List Nat) :
    ∃ b d, (fs.foldl (fun t a => t.setFlag x a v) s).th x = { s.th x with bits := b, flagsDue := d } := by
  induction fs generalizing s with
  | nil => exact ⟨_, _, rfl⟩
  | cons a fs ih =>
    obtain ⟨b, d, rest⟩ := ih (s.setFlag x a v)
    obtain ⟨c, e, one⟩ := State.setFlag_self s x a v
    exact ⟨b, d, by rw [List.foldl_cons, rest, one]⟩

/-! ### RESET (R94) -/

/-- A RESET empties the return stack, discards the results on their way, and clears the bits that they would have set. -/
theorem State.threadReset_self (s : State) (x : Nat) :
    ∃ b d, (s.threadReset x).th x = { s.th x with
      rs := [], ie := false, pl := 8, longs := [], cis := [], stopCause := 3, bits := b, flagsDue := d } := by
  unfold State.threadReset
  extract_lets done s1 s2 s3
  have cleared : ∃ b d, s2.th x = { s1.th x with bits := b, flagsDue := d } := State.foldl_setFlag_self s1 x false done
  have released : ∃ b d, s3.th x = { s1.th x with bits := b, flagsDue := d } := by
    obtain ⟨b, d, eq⟩ := cleared
    unfold s3
    split
    · obtain ⟨c, e, one⟩ := State.setFlag_self (s2.modLb (lbOf x) (fun b => { b with lv := none })) x flagLVDONE false
      refine ⟨c, e, one.trans ?_⟩
      rw [show (s2.modLb (lbOf x) (fun b => { b with lv := none })).th x = s2.th x from rfl, eq]
    · exact ⟨b, d, eq⟩
  obtain ⟨b, d, eq⟩ := released
  refine ⟨b, d, ?_⟩
  have begun : s1.th x = { s.th x with rs := [], ie := false, pl := 8, longs := [], cis := [], stopCause := 3 } :=
    State.th_modTh_same s x _
  rw [State.abandon_th, eq, begun]

theorem State.threadReset_th (s : State) (x y : Nat) (other : y ≠ x) : (s.threadReset x).th y = s.th y := by
  unfold State.threadReset
  extract_lets done s1 s2 s3
  have cleared : s2.th y = s1.th y := State.foldl_setFlag_th s1 x y false done other
  have released : s3.th y = s2.th y := by
    unfold s3
    split
    · exact State.setFlag_th _ x _ y _ other
    · rfl
  rw [State.abandon_th, released, cleared, State.th_modTh, if_neg (Ne.symm other)]

theorem State.threadReset_rest (s : State) (x : Nat) :
    { s.threadReset x with
      threads := s.threads, lbs := s.lbs, locks := s.locks, ecc := s.ecc, eccDue := s.eccDue, evq := s.evq } = s := by
  let g : State → State := fun t => { t with
    threads := s.threads, lbs := s.lbs, locks := s.locks, ecc := s.ecc, eccDue := s.eccDue, evq := s.evq }
  unfold State.threadReset
  extract_lets done s1 s2 s3
  have cleared : g s2 = g s1 := (congrArg g (State.foldl_setFlag_rest s1 x false done) :)
  have released : g s3 = g s2 := by
    unfold s3
    split
    · exact (congrArg g (State.setFlag_rest (s2.modLb (lbOf x) (fun b => { b with lv := none })) x flagLVDONE false) :)
    · rfl
  have abandoned : g (s3.abandon (· == x)) = g s3 := (congrArg g (State.abandon_rest s3 _) :)
  exact abandoned.trans (released.trans cleared)

/-! ### BORE_TCTRL (R92-R95, R106) -/

/-- A thread in no running pair. -/
theorem State.pairSettle_of_pairOf_none {s : State} {x : Nat} (alone : s.pairOf x = none) : s.pairSettle x = s := by
  obtain ⟨leads, trails⟩ := pairOf_none alone
  simp [State.pairSettle, leads, trails]

theorem State.cancelStart_of_pairOf_none {s : State} {x : Nat} (alone : s.pairOf x = none) :
    s.cancelStart x = s.modTh x (fun t => { t with startReq := none }) := by
  have leads : (s.modTh x (fun t => { t with startReq := none })).leads x = none := (pairOf_none alone).1
  have still : (s.modTh x (fun t => { t with startReq := none })).pairOf x = none := alone
  simp only [State.cancelStart, leads]
  exact State.pairSettle_of_pairOf_none still

section Tctrl

variable {s : State} {x : Nat}

/-- A write that keeps CLASS, or finds the thread at rest, is taken. -/
theorem State.tctrlWrite_putBits (w k : Nat) (code : k < 8) (ok : bit w 4 = (s.th x).cls ∨ (s.th x).busy = false) :
    s.tctrlWrite x (putBits w 2 0 k) = (s.modTh x (fun t => t.modes s.strokes (putBits w 2 0 k))).threadCmd x k := by
  have taken : (bit (putBits w 2 0 k) 4 != (s.th x).cls && (s.th x).busy) = false := by
    obtain same | rest := ok
    · simp [same]
    · simp [rest]
  rw [State.tctrlWrite_ok s x _ taken, bits_putBits_self, Nat.mod_eq_of_lt code]

theorem Thread.modes_putBits (t : Thread) (n w k : Nat) : t.modes n (putBits w 2 0 k) = t.modes n w := by
  simp [Thread.modes]

theorem Thread.not_busy {t : Thread} (still : t.st = .stopped) (quiet : t.startReq = none) : t.busy = false := by
  simp [Thread.busy, Thread.stopped, still, quiet]

theorem State.startCmd_of_stopped (still : (s.th x).st = .stopped) (quiet : (s.th x).startReq = none)
    (noPair : s.enabledPair x = none) : s.startCmd x = s.pendStart x false := by
  simp [State.startCmd, Thread.stopped, still, quiet, noPair]

theorem State.stopCmd_of_running (runs : (s.th x).running = true) : s.stopCmd x = s.askStop x .stop := by
  simp [State.stopCmd, runs]

theorem State.stepCmd_of_stopped (still : (s.th x).st = .stopped) (quiet : (s.th x).startReq = none)
    (elastic : (s.th x).cls = true) : s.stepCmd x = s.pendStart x true := by
  simp [State.stepCmd, Thread.stopped, still, quiet, elastic]

theorem State.resetCmd_of_running (runs : (s.th x).running = true) : s.resetCmd x = s.askStop x .reset := by
  simp [State.resetCmd, runs]

theorem State.resetCmd_of_stopped (still : (s.th x).st = .stopped) (alone : s.pairOf x = none) :
    s.resetCmd x = (s.modTh x (fun t => { t with startReq := none })).threadReset x := by
  simp [State.resetCmd, Thread.running, Thread.stopped, still, State.cancelStart_of_pairOf_none alone]

end Tctrl

/-- A command of BORE_TCTRL that only changes its thread: `u` is the thread with the modes stored, before the command. -/
theorem answers_of_threadCmd {i : Instr} {s : State} {x k : Nat} {w : Word} {f : Thread → Thread} {v : Thread} (code : k < 8)
    (run : exec i s = .next (s.tctrlWrite x (putBits w.toNat 2 0 k)))
    (ok : bit w.toNat 4 = (s.th x).cls ∨ (s.th x).busy = false)
    (cmd : ∀ u : State, u = s.modTh x (fun t => t.modes s.strokes w.toNat) → u.threadCmd x k = u.modTh x f)
    (result : v = f ((s.th x).modes s.strokes w.toNat)) :
    Answers i s (fun t => t.th x = v ∧ (∀ y, y ≠ x → t.th y = s.th y) ∧ { t with threads := s.threads } = s) := by
  refine ⟨_, run, ?_⟩
  simp only [State.tctrlWrite_putBits _ k code ok, Thread.modes_putBits]
  rw [cmd _ rfl, State.modTh_modTh, result]
  exact State.modTh_changes s x _

/-! ### O2 -/

/-- Settles O2: the wheel by what its writes store, and each command of BORE_TCTRL by the modes that the write stores and
the request that the command leaves. -/
theorem wheelAndThreadCommands : Obligations.WheelAndThreadCommands := by
  unfold Obligations.WheelAndThreadCommands
  refine ⟨fun n w s => ?wheelLo, fun n w s => ?wheelHi, fun n c s armed boundary late => ?wheelApply,
    fun x w s still quiet noPair => ?start, fun x w s runs same => ?stop, fun x w s still quiet elastic => ?step,
    fun x w s runs same => ?resetRunning, fun x w s still quiet alone => ?resetStopped⟩
  case wheelLo =>
    refine ⟨_, rfl, ?_⟩
    simpa [State.wheelLoWrite] using s.modLb_changes n (fun b => { b with wheelLo := w })
  case wheelHi =>
    refine ⟨_, rfl, ?_⟩
    simpa [State.wheelHiWrite] using s.modLb_changes n (fun b => { b with wheelHi := w, wheelArm := some s.strokes })
  case wheelApply =>
    exact answers_of_act rfl (by simp [State.wheelDue, armed, boundaryAt, boundary, late]) (s.modLb_changes n _)
  case start =>
    refine answers_of_threadCmd (f := fun t => { t with startReq := some (s.strokes + 4, false) }) (by decide) rfl
      (.inr (Thread.not_busy still quiet)) (fun u eq => ?_) ?_
    · subst eq
      exact State.startCmd_of_stopped (by simpa [Thread.modes] using still) (by simpa [Thread.modes] using quiet) noPair
    · rfl
  case stop =>
    refine answers_of_threadCmd
      (f := fun t => { t with stopReq := if t.stopReq = .none ∨ StopReq.stop = .reset then .stop else t.stopReq })
      (by decide) rfl (.inl same) (fun u eq => ?_) ?_
    · subst eq
      exact State.stopCmd_of_running (by simpa [Thread.modes, Thread.running] using runs)
    · simp [Thread.modes, same]
  case step =>
    refine answers_of_threadCmd (f := fun t => { t with startReq := some (s.strokes + 4, true) }) (by decide) rfl
      (.inr (Thread.not_busy still quiet)) (fun u eq => ?_) ?_
    · subst eq
      exact State.stepCmd_of_stopped (by simpa [Thread.modes] using still) (by simpa [Thread.modes] using quiet)
        (by simpa [Thread.modes] using elastic)
    · simp [Thread.modes, elastic]
  case resetRunning =>
    refine answers_of_threadCmd
      (f := fun t => { t with stopReq := if t.stopReq = .none ∨ StopReq.reset = .reset then .reset else t.stopReq })
      (by decide) rfl (.inl same) (fun u eq => ?_) ?_
    · subst eq
      exact State.resetCmd_of_running (by simpa [Thread.modes, Thread.running] using runs)
    · simp [Thread.modes, same]
  case resetStopped =>
    generalize modes : (fun t : Thread => t.modes s.strokes (putBits w.toNat 2 0 4)) = f
    have run : exec (.reset x w) s =
        .next (((s.modTh x f).modTh x (fun t => { t with startReq := none })).threadReset x) := by
      have written := State.tctrlWrite_putBits w.toNat 4 (by decide) (.inr (Thread.not_busy still quiet))
      rw [modes] at written
      refine congrArg Host.Outcome.next (written.trans (State.resetCmd_of_stopped ?_ alone))
      rw [State.th_modTh_same, ← modes]
      exact still
    refine ⟨_, run, ?_⟩
    rw [State.modTh_modTh]
    obtain ⟨b, d, self⟩ := (s.modTh x (fun t => { f t with startReq := none })).threadReset_self x
    rw [self, State.th_modTh_same, ← modes]
    refine ⟨rfl, rfl, rfl, rfl, rfl, still, rfl, rfl, rfl, fun y other => ?_, ?_⟩
    · rw [State.threadReset_th _ _ _ other, State.th_modTh, if_neg (Ne.symm other)]
    · let g : State → State := fun t => { t with
        threads := s.threads, lbs := s.lbs, locks := s.locks, ecc := s.ecc, eccDue := s.eccDue, evq := s.evq }
      have kept (m : State) (same : g m = s) : g (m.threadReset x) = s := (congrArg g (m.threadReset_rest x) :).trans same
      exact kept _ rfl

end Sys2Proof.Machine

/-!
SUPPORT. How threads fetch, start, stop and enter vectors (chapter 03, R504, R507), and the proof of O3.
-/

namespace Sys2Proof.Machine

/-! ### Reads beside the pipe (R145) -/

/-- A count of an ECC error changes a counter of a physical bore or of the image, no more. -/
theorem State.countEccOn_rest (s : State) (b : Nat) (m : Mem) (ue : Bool) :
    { s.countEccOn b m ue with regs := s.regs, pbs := s.pbs } = s := by
  unfold State.countEccOn
  split
  · split <;> rfl
  · split <;> rfl

theorem State.countUe_rest (s : State) (m : Mem) : { s.countUe m with regs := s.regs, pbs := s.pbs } = s := by
  unfold State.countUe
  split
  · rfl
  · exact State.countEccOn_rest s _ m true

/-- A read beside the pipe leaves a mark, a count and a record where it meets an error, no more. -/
theorem State.eccRead_rest (s : State) (r : Reader) (m : Mem) (w : Nat) :
    { s.eccRead r m w with ecc := s.ecc, regs := s.regs, pbs := s.pbs, evq := s.evq } = s := by
  let g : State → State := fun t => { t with ecc := s.ecc, regs := s.regs, pbs := s.pbs, evq := s.evq }
  unfold State.eccRead
  split
  · rfl
  · exact (congrArg g (State.countUe_rest s m) :)
  · exact (congrArg g (State.countEccOn_rest (s.setEcc m w (some .rewriting)) _ m false) :)

theorem State.eccCorrect_rest (s : State) (ws : List (Mem × Nat)) :
    { s.eccCorrect ws with ecc := s.ecc, regs := s.regs, pbs := s.pbs, evq := s.evq } = s := by
  let g : State → State := fun t => { t with ecc := s.ecc, regs := s.regs, pbs := s.pbs, evq := s.evq }
  have kept : g (s.eccCorrect ws) = g s := by
    unfold State.eccCorrect
    split
    · rfl
    · refine foldl_rest g 
        (fun t (k : Mem × Nat) => if t.isUe k.1 k.2 then t else t.eccRead .thread k.1 k.2) (fun t k => ?_) _ s
      split
      · rfl
      · exact (congrArg g (State.eccRead_rest t .thread k.1 k.2) :)
  exact kept

theorem State.eccCorrect_th (s : State) (ws : List (Mem × Nat)) : (s.eccCorrect ws).th = s.th := by
  have threads : (s.eccCorrect ws).threads = s.threads := (congrArg State.threads (State.eccCorrect_rest s ws) :)
  funext y
  simp only [State.th, threads]

theorem State.eccCorrect_lb (s : State) (ws : List (Mem × Nat)) : (s.eccCorrect ws).lb = s.lb := by
  have lbs : (s.eccCorrect ws).lbs = s.lbs := (congrArg State.lbs (State.eccCorrect_rest s ws) :)
  funext n
  simp only [State.lb, lbs]

/-! ### FETCH (R85-R88) -/

/-- FETCH adds the next code bytes to the prefetch queue of its thread. -/
theorem State.fetchBytes_fetched (s : State) (x a n : Nat) :
    ((s.fetchBytes x a n).th x).fetched.map (·.1) =
      (s.th x).fetched.map (·.1) ++ (List.range n).map (fun i => byteAt (s.codeOf x) ((a + i) % 2 ^ 18)) := by
  have code : (s.eccCorrect (s.codeWords x a n)).codeOf x = s.codeOf x := by
    simp only [State.codeOf, State.bankOf, State.eccCorrect_lb, State.eccCorrect_th]
  simp [State.fetchBytes, State.eccCorrect_th, State.codeByte, codeAddr, code, Function.comp_def]

theorem State.fetchBytes_self (s : State) (x a n : Nat) :
    (s.fetchBytes x a n).th x = { s.th x with fetched := ((s.fetchBytes x a n).th x).fetched } := by
  simp only [State.fetchBytes, State.th_modTh_same, State.eccCorrect_th]

theorem State.fetchBytes_th (s : State) (x a n y : Nat) (other : y ≠ x) : (s.fetchBytes x a n).th y = s.th y := by
  rw [State.fetchBytes, State.th_modTh, if_neg (Ne.symm other), State.eccCorrect_th]

theorem State.fetchBytes_rest (s : State) (x a n : Nat) :
    { s.fetchBytes x a n with threads := s.threads, ecc := s.ecc, regs := s.regs, pbs := s.pbs, evq := s.evq } = s := by
  let g : State → State := fun t => { t with
    threads := s.threads, ecc := s.ecc, regs := s.regs, pbs := s.pbs, evq := s.evq }
  exact (congrArg g (State.eccCorrect_rest s (s.codeWords x a n)) :)

theorem State.fetchBytes_lb (s : State) (x a n : Nat) : (s.fetchBytes x a n).lb = s.lb :=
  State.eccCorrect_lb s _

/-- The flushed queue of a thread is loaded with 32 bytes (R86, R87). -/
theorem State.fetchTurn_of_flushed {s : State} {x : Nat} (flushed : (s.th x).fetched = []) :
    s.fetchTurn x = s.fetchBytes x (s.th x).pc.toNat 32 := by
  simp [State.fetchTurn, flushed]

/-! ### Turns (R110) -/

theorem State.spendTurn_self (s : State) (x : Nat) :
    (s.spendTurn x).th x = { s.th x with turns := (s.th x).turns + 1, stalled := false } :=
  (State.th_modTh_same s x (fun t => { t with turns := t.turns + 1, stalled := false }) :)

theorem State.spendTurn_th (s : State) (x y : Nat) (other : y ≠ x) : (s.spendTurn x).th y = s.th y :=
  ((s.modTh_changes x (fun t => { t with turns := t.turns + 1, stalled := false })).2.1 y other :)

theorem State.spendTurn_lb_self (s : State) (x : Nat) :
    (s.spendTurn x).lb (lbOf x) = { s.lb (lbOf x) with turn := none } :=
  (State.lb_modLb_same s (lbOf x) (fun b => { b with turn := none }) :)

theorem State.spendTurn_lb (s : State) (x n : Nat) (other : n ≠ lbOf x) : (s.spendTurn x).lb n = s.lb n :=
  ((s.modLb_changes (lbOf x) (fun b => { b with turn := none })).2.1 n other :)

/-! ### Entries (R96, R100, R102) -/

/-- The pushed entry is the newest of at most 8, and RSO may be set (R96, R98). -/
theorem Thread.push_eq (t : Thread) (e : Word) :
    ∃ b d, t.push e = { t with rs := e :: t.rs.take 7, bits := b, flagsDue := d } := by
  unfold Thread.push
  split
  · next shallow => exact ⟨t.bits, t.flagsDue, by rw [List.take_of_length_le (by omega)]⟩
  · unfold Thread.setFlag
    split
    · exact ⟨_, _, rfl⟩
    · exact ⟨_, _, rfl⟩

/-- What an entry leaves. -/
theorem Thread.enter_eq (t : Thread) (v : Nat) (ret : BitVec 18) (fl : Nat) :
    ∃ b d, t.enter v ret fl = { t with
      rs := t.frame ret fl :: t.rs.take 7, bits := b, flagsDue := d, ie := false, pl := if 8 ≤ v then v - 8 else t.pl
      pc := BitVec.ofNat 18 (t.vbase.toNat * 256 + 16 * v), owed := 1, idle := 0, exc := none, stalled := false
      fetched := [] } := by
  obtain ⟨b, d, pushed⟩ := t.push_eq (t.frame ret fl)
  exact ⟨b, d, by rw [Thread.enter, pushed]⟩

/-- The entry of a thread whose flag word can be read (R102). -/
theorem State.enterVec_self {s : State} {x : Nat} (v : Nat) (ret : BitVec 18) (readable : s.isUe (.privBits x) 0 = false) :
    ∃ b d, (s.enterVec x v ret).th x = { s.th x with
      rs := (s.th x).frame ret (s.th x).nibble :: (s.th x).rs.take 7, bits := b, flagsDue := d, ie := false
      pl := if 8 ≤ v then v - 8 else (s.th x).pl
      pc := BitVec.ofNat 18 ((s.th x).vbase.toNat * 256 + 16 * v), owed := 1, idle := 0, exc := none, stalled := false
      fetched := [], stepIssued := (s.th x).stepping } := by
  obtain ⟨b, d, entered⟩ := Thread.enter_eq (s.th x) v ret (s.th x).nibble
  refine ⟨b, d, ?_⟩
  simp only [State.enterVec, readable, State.th_modTh_same, Bool.false_eq_true, if_false, entered]

theorem State.enterVec_th (s : State) (x v : Nat) (ret : BitVec 18) (y : Nat) (other : y ≠ x) :
    (s.enterVec x v ret).th y = s.th y :=
  (s.modTh_changes x _).2.1 y other

/-! ### Stops (R93, R94, R106, R551, R552) -/

theorem State.bankSettle_th (s : State) (n y : Nat) :
    { (s.bankSettle n).th y with newBank := (s.th y).newBank } = s.th y := by
  let g : State → Thread := fun t => { t.th y with newBank := (s.th y).newBank }
  have kept : g (s.bankSettle n) = g s := by
    unfold State.bankSettle
    split
    · refine foldl_rest g (fun t q => t.modTh (16 * n + q) (fun u => { u with newBank := false })) (fun t q => ?_) _ _
      simp only [g, State.th_modTh]
      split
      · subst y; rfl
      · rfl
    · rfl
  exact kept

/-- A late cut-over moves a thread to the new bank, no more (R552). -/
theorem State.lateCut_th (s : State) (x y : Nat) :
    { (s.lateCut x).th y with
      cutOver := (s.th y).cutOver, newBank := (s.th y).newBank, pc := (s.th y).pc, fetched := (s.th y).fetched } = s.th y := by
  let g : Thread → Thread := fun t => { t with
    cutOver := (s.th y).cutOver, newBank := (s.th y).newBank, pc := (s.th y).pc, fetched := (s.th y).fetched }
  have kept : g ((s.lateCut x).th y) = g (s.th y) := by
    unfold State.lateCut
    split
    · split
      · next c _ _ =>
        refine (congrArg g (State.bankSettle_th (s.modTh x (fun t => { t with
          cutOver := none, newBank := true, pc := c.2, fetched := [] })) (lbOf x) y) :).trans ?_
        rw [State.th_modTh]
        split
        · subst y; rfl
        · rfl
      · rfl
    · rfl
  exact kept

theorem State.lateCut_keeps (s : State) (x y : Nat) : ((s.lateCut x).th y).st = (s.th y).st ∧
    ((s.lateCut x).th y).stopCause = (s.th y).stopCause ∧ ((s.lateCut x).th y).rs = (s.th y).rs ∧
    ((s.lateCut x).th y).well = (s.th y).well := by
  have cut := s.lateCut_th x y
  generalize (s.lateCut x).th y = t at cut
  rw [← cut]
  exact ⟨rfl, rfl, rfl, rfl⟩

theorem State.stopped_th (s : State) (x cause y : Nat) (other : y ≠ x) : (s.stopped x cause).th y = s.th y := by
  rw [State.stopped, State.th_modTh, if_neg (Ne.symm other)]

theorem State.lateCut_of_cutOver_none {s : State} {x : Nat} (none_ : (s.th x).cutOver = none) : s.lateCut x = s := by
  simp [State.lateCut, none_]

/-- A pair runs no more once both of its threads have stopped, and nothing else changes. -/
theorem State.pairSettle_cases (s : State) (x : Nat) : s.pairSettle x = s ∨
    ∃ k, s.pairSettle x = s.modPair k (fun p => { p with running := false, recs := [], diff := none }) := by
  unfold State.pairSettle
  split
  · exact .inl rfl
  · next k _ =>
    dsimp only
    split
    · exact .inr ⟨k, rfl⟩
    · exact .inl rfl

theorem State.pairSettle_th (s : State) (x : Nat) : (s.pairSettle x).th = s.th := by
  obtain same | ⟨k, settled⟩ := s.pairSettle_cases x
  · rw [same]
  · rw [settled]
    rfl

theorem State.pairSettle_rest (s : State) (x : Nat) : { s.pairSettle x with wh := s.wh } = s := by
  obtain same | ⟨k, settled⟩ := s.pairSettle_cases x
  · rw [same]
  · rw [settled]
    rfl

theorem State.pair_modPair (s : State) (k j : Nat) (f : PairSt → PairSt) :
    (s.modPair k f).pair j = if k = j then f (s.pair k) else s.pair j :=
  tget_tput _ _ _ _ _

/-- A pair that settles keeps its MISMATCH. -/
theorem State.pairSettle_pair (s : State) (x k : Nat) :
    ((s.pairSettle x).pair k).mismatch = (s.pair k).mismatch ∧
      ((s.pair k).recs = [] → ((s.pairSettle x).pair k).recs = []) := by
  obtain same | ⟨j, settled⟩ := s.pairSettle_cases x
  · rw [same]
    exact ⟨rfl, id⟩
  · rw [settled, State.pair_modPair]
    split
    · next here => exact here ▸ ⟨rfl, fun _ => rfl⟩
    · exact ⟨rfl, id⟩

/-! ### O3 -/

section Entry

variable {s : State} {x : Fin 128} {v : Nat} {ret : BitVec 18}

/-- What an accepted entry leaves in its thread (R96, R100, R102). -/
theorem State.spendTurn_enterVec_self (readable : s.isUe (.privBits x) 0 = false) :
    ∃ b d, (((s.spendTurn x).enterVec x v ret).th x) = { s.th x with
      rs := (s.th x).frame ret (s.th x).nibble :: (s.th x).rs.take 7, bits := b, flagsDue := d, ie := false
      pl := if 8 ≤ v then v - 8 else (s.th x).pl
      pc := BitVec.ofNat 18 ((s.th x).vbase.toNat * 256 + 16 * v), owed := 1, idle := 0, exc := none, stalled := false
      fetched := [], stepIssued := (s.th x).stepping, turns := (s.th x).turns + 1 } := by
  obtain ⟨b, d, entered⟩ := State.enterVec_self (s := s.spendTurn x) v ret readable
  rw [State.spendTurn_self] at entered
  exact ⟨b, d, entered⟩

theorem State.spendTurn_enterVec_th (y : Nat) (other : y ≠ x) : ((s.spendTurn x).enterVec x v ret).th y = s.th y :=
  (State.enterVec_th _ _ _ _ y other).trans (State.spendTurn_th s x y other)

end Entry

/-- What is asked of a running thread is asked of it alone; the STOP of the wellhead gives way to a RESET only. -/
theorem State.askStop_th (s : State) (x y : Nat) (r : StopReq) : (s.askStop x r).th y =
    if x = y then { s.th x with stopReq := if (s.th x).stopReq = .none ∨ r = .reset then r else (s.th x).stopReq }
    else s.th y :=
  State.th_modTh _ _ _ _

/-- A stop of a thread outside a pair that is not cutting over and that no RESET has asked for. -/
theorem State.stopAct_of_quiet {s : State} {x : Nat} (alone : s.pairOf x = none) (noCut : (s.th x).cutOver = none)
    (noReset : (s.th x).stopReq ≠ .reset) : s.stopAct x = s.stopped x ((s.th x).stopReq.cause (s.th x).stopCause) := by
  have still : (s.stopped x ((s.th x).stopReq.cause (s.th x).stopCause)).pairOf x = none := alone
  have cut : ((s.stopped x ((s.th x).stopReq.cause (s.th x).stopCause)).th x).cutOver = none := by
    rw [State.stopped, State.th_modTh_same]
    exact noCut
  unfold State.stopAct
  dsimp only
  split
  · contradiction
  · rw [State.lateCut_of_cutOver_none cut, State.pairSettle_of_pairOf_none still]

/-! ### Pairs (R504, R507) -/

@[simp] theorem State.pair_modPair_same (s : State) (k : Nat) (f : PairSt → PairSt) :
    (s.modPair k f).pair k = f (s.pair k) :=
  tget_tput_same _ _ _ _

theorem State.trailerStart_of_trailAt {s : State} {k a : Nat} (at_ : (s.pair k).trailAt = some a) :
    s.trailerStart k = (s.modPair k (fun p => { p with trailAt := none })).modTh (s.pairTrail k)
      (fun t => { t with startReq := some (a + 4, false) }) := by
  simp only [State.trailerStart, at_, Option.getD_some]

/-- Pair k with its mismatch marked and both its running threads asked to stop (R507). -/
def State.stopPair (s : State) (k : Nat) : State :=
  (((s.modPair k (fun p => { p with
    mismatch := true, fresh := p.fresh.set s.moment 2, diff := none, recs := [], trailAt := none })).askStop
      (s.pairLead k) .wellhead).askStop (s.pairTrail k) .wellhead).pairSettle (s.pairLead k)

theorem State.askStop_wellhead (s : State) (x y : Nat) : ((s.askStop x .wellhead).th y).stopReq =
    if x = y ∧ (s.th y).stopReq = .none then .wellhead else (s.th y).stopReq := by
  rw [State.askStop_th]
  by_cases here : x = y
  · subst here
    simp
  · simp [here]

theorem State.askStop_keeps (s : State) (x y : Nat) (r : StopReq) :
    { (s.askStop x r).th y with stopReq := (s.th y).stopReq } = s.th y := by
  rw [State.askStop_th]
  split
  · subst y; rfl
  · rfl

theorem State.askStop_running (s : State) (x y : Nat) (r : StopReq) :
    ((s.askStop x r).th y).running = (s.th y).running :=
  (congrArg Thread.running (s.askStop_keeps x y r) :)

theorem State.askStop_lastPc (s : State) (x y : Nat) (r : StopReq) :
    ((s.askStop x r).th y).lastPc = (s.th y).lastPc :=
  (congrArg Thread.lastPc (s.askStop_keeps x y r) :)

section Mismatch

variable {s : State} {k : Nat}

theorem State.stopPair_th (leadFree : (s.th (s.pairLead k)).stopReq = .none)
    (trailFree : (s.th (s.pairTrail k)).stopReq = .none) :
    ((s.stopPair k).th (s.pairLead k)).stopReq = .wellhead ∧ ((s.stopPair k).th (s.pairTrail k)).stopReq = .wellhead ∧
      ∀ y, y ≠ s.pairLead k → y ≠ s.pairTrail k → (s.stopPair k).th y = s.th y := by
  have same (u : State) (th : u.th = s.th) :
      (((u.askStop (s.pairLead k) .wellhead).askStop (s.pairTrail k) .wellhead).th (s.pairLead k)).stopReq = .wellhead ∧
      (((u.askStop (s.pairLead k) .wellhead).askStop (s.pairTrail k) .wellhead).th (s.pairTrail k)).stopReq = .wellhead ∧
      ∀ y, y ≠ s.pairLead k → y ≠ s.pairTrail k →
        ((u.askStop (s.pairLead k) .wellhead).askStop (s.pairTrail k) .wellhead).th y = s.th y := by
    refine ⟨?_, ?_, fun y notLead notTrail => ?_⟩
    · simp [State.askStop_wellhead, th, leadFree]
    · simp [State.askStop_wellhead, th, trailFree]
    · rw [State.askStop_th, if_neg (Ne.symm notTrail), State.askStop_th, if_neg (Ne.symm notLead), th]
  unfold State.stopPair
  rw [State.pairSettle_th]
  exact same _ rfl

theorem State.stopPair_mismatch : ((s.stopPair k).pair k).mismatch = true ∧ ((s.stopPair k).pair k).recs = [] := by
  unfold State.stopPair
  obtain ⟨mismatch, recs⟩ := State.pairSettle_pair (((s.modPair k (fun p => { p with
    mismatch := true, fresh := p.fresh.set s.moment 2, diff := none, recs := [], trailAt := none })).askStop
      (s.pairLead k) .wellhead).askStop (s.pairTrail k) .wellhead) (s.pairLead k) k
  have marked := s.pair_modPair_same k (fun p => { p with
    mismatch := true, fresh := p.fresh.set s.moment 2, diff := none, recs := [], trailAt := none })
  exact ⟨mismatch.trans (congrArg PairSt.mismatch marked :), recs (congrArg PairSt.recs marked :)⟩

theorem State.stopPair_rest (s : State) (k : Nat) : { s.stopPair k with threads := s.threads, wh := s.wh } = s := by
  let g : State → State := fun t => { t with threads := s.threads, wh := s.wh }
  unfold State.stopPair
  exact (congrArg g (State.pairSettle_rest _ _) :)

/-- The threads of a pair that runs are asked to stop; the report and the order of the rotation follow (R507). -/
theorem State.pairMismatch_of_running (leadRuns : (s.th (s.pairLead k)).running = true)
    (trailRuns : (s.th (s.pairTrail k)).running = true) :
    s.pairMismatch k = ((s.stopPair k).event 0 5 5 k
      (Config.detailCode 5 ((s.pair k).diff.getD 0) ((s.th (s.pairLead k)).lastPc).toNat).toNat).modRot
        (fun r => { r with ahead := r.ahead ++ ([(s.stopPair k).carrier (lbOf (s.pairLead k)),
          (s.stopPair k).carrier (lbOf (s.pairTrail k))].filter (fun c => !r.ahead.contains c)) }) := by
  have lastPc : ((s.stopPair k).th (s.pairLead k)).lastPc = (s.th (s.pairLead k)).lastPc := by
    unfold State.stopPair
    rw [State.pairSettle_th, State.askStop_lastPc, State.askStop_lastPc]
    rfl
  unfold State.pairMismatch
  extract_lets a b kind s1 stop s2 s3
  have halted : s2 = s.stopPair k := by
    have trailRuns' : ((s1.askStop a .wellhead).th b).running = true := (State.askStop_running s1 a b _).trans trailRuns
    simp only [s2, stop]
    rw [if_pos (show (s1.th a).running = true from leadRuns), if_pos trailRuns']
    rfl
  unfold s3
  rw [halted, lastPc]
  rfl

end Mismatch

/-- Settles O3: a first turn by FETCH into a flushed queue, stops and steps by what `stopped` leaves, a mismatch by
`stopPair`, and entries by `Thread.enter`. -/
theorem threadStartsStopsAndEntries : Obligations.ThreadStartsStopsAndEntries := by
  unfold Obligations.ThreadStartsStopsAndEntries
  refine ⟨fun x g b s turn req => ?firstTurn, fun x s asked due noCut alone => ?stop,
    fun x s steps issued runs owed idle noExc alone noReset noCut => ?stepEnds,
    fun x s steps issued runs owed idle noExc reset => ?stepEndsInReset, fun k a s at_ due => ?trailer,
    fun k d s diff leadRuns trailRuns leadFree trailFree => ?mismatch,
    fun x i s line noExc turn readable => ?interrupt, fun x v ret s exc small turn readable => ?exception⟩
  case firstTurn =>
    have flushed : (((s.enterRun x).spendTurn x).th x).fetched = [] := by
      rw [State.spendTurn_self, State.enterRun, State.th_modTh_same]
    refine answers_of_act rfl (by simp [turn, req]) ?_
    rw [State.fetchTurn_of_flushed flushed]
    generalize began : (s.enterRun x).spendTurn x = u at flushed
    have self : u.th x = { s.th x with
        st := if (s.th x).cls then .elastic else .metered, stepping := b, stepIssued := false, startReq := none
        lastPc := (s.th x).pc, owed := 0, idle := 0, exc := none, turns := (s.th x).turns + 1, stalled := false
        fetched := [] } := by
      rw [← began, State.spendTurn_self, State.enterRun, State.th_modTh_same, req]
      rfl
    have code : u.codeOf x = s.codeOf x := by
      rw [State.codeOf, State.bankOf, self, ← began, State.spendTurn_lb_self]
      rfl
    refine ⟨?_, ?_, ?_, fun y other => ?_, fun n other => ?_, ?_, ?_⟩
    · rw [State.fetchBytes_self, self]
    · rw [State.fetchBytes_fetched, flushed, code, self]
      rfl
    · rw [State.fetchBytes_lb, ← began, State.spendTurn_lb_self]
      rfl
    · rw [State.fetchBytes_th _ _ _ _ _ other, ← began, State.spendTurn_th _ _ _ other]
      exact (s.modTh_changes x _).2.1 y other
    · rw [State.fetchBytes_lb, ← began, State.spendTurn_lb _ _ _ other]
      rfl
    · have rank : u.rank = lbOf x + 1 := by rw [← began]; rfl
      exact (congrArg State.rank (State.fetchBytes_rest u x (u.th x).pc.toNat 32) :).trans rank
    · let g : State → State := fun t => { t with threads := s.threads, lbs := s.lbs, rank := s.rank, ecc := s.ecc
                                                 regs := s.regs, pbs := s.pbs, evq := s.evq }
      have base : g u = s := by rw [← began]; rfl
      exact (congrArg g (State.fetchBytes_rest u x (u.th x).pc.toNat 32) :).trans base
  case stop =>
    refine answers_of_act rfl due ?_
    rw [State.stopAct_of_quiet alone noCut (by simp [asked]), asked]
    exact s.modTh_changes x _
  case stepEnds =>
    refine answers_of_act rfl (by simp [State.stepDue, Thread.atBoundary, steps, issued, runs, owed, idle, noExc]) ?_
    have stopped (cause : Nat) : ((s.stopped x cause).th x).st = .stopped ∧ ((s.stopped x cause).th x).stopCause = cause ∧
        ((s.stopped x cause).th x).stepping = false ∧ ((s.stopped x cause).th x).well = (s.th x).well ∧
        ((s.stopped x cause).th x).pc = (s.th x).pc ∧ (∀ y, y ≠ x.val → (s.stopped x cause).th y = s.th y) ∧
        { s.stopped x cause with threads := s.threads } = s := by
      obtain ⟨self, others, rest⟩ : (s.stopped x cause).th x = _ ∧ _ ∧ _ := s.modTh_changes x _
      rw [self]
      exact ⟨rfl, rfl, rfl, rfl, rfl, others, rest⟩
    unfold State.stepEnd
    split
    · have still : (s.stopped x 2).pairOf x = none := alone
      rw [State.pairSettle_of_pairOf_none still]
      exact stopped 2
    · rw [State.stopAct_of_quiet alone noCut noReset]
      exact stopped _
  case stepEndsInReset =>
    refine answers_of_act rfl (by simp [State.stepDue, Thread.atBoundary, steps, issued, runs, owed, idle, noExc]) ?_
    have acts : s.stepEnd x = (((s.stopped x 3).threadReset x).lateCut x).pairSettle x := by
      simp only [State.stepEnd, State.stopAct, reset, StopReq.cause, reduceCtorEq, if_false]
    obtain ⟨st, cause, rs, -⟩ := ((s.stopped x 3).threadReset x).lateCut_keeps x x
    obtain ⟨b, d, self⟩ := (s.stopped x 3).threadReset_self x
    rw [acts, State.pairSettle_th, st, cause, rs, self]
    refine ⟨?_, rfl, rfl, fun y other => ?_⟩
    · rw [State.stopped, State.th_modTh_same]
    · obtain ⟨st, -, -, well⟩ := ((s.stopped x 3).threadReset x).lateCut_keeps x y
      rw [st, well, State.threadReset_th _ _ _ other, State.stopped_th _ _ _ _ other]
      exact ⟨rfl, rfl⟩
  case trailer =>
    refine answers_of_act rfl (by simp [State.trailerDue, at_, due]) ?_
    rw [State.trailerStart_of_trailAt at_]
    exact ⟨State.th_modTh_same _ _ _, (congrArg PairSt.trailAt (s.pair_modPair_same k (fun p => { p with trailAt := none })) :),
      (State.modTh_changes _ _ _).2.1, rfl⟩
  case mismatch =>
    refine answers_of_act rfl (by simp [diff]) ?_
    rw [State.pairMismatch_of_running leadRuns trailRuns]
    obtain ⟨leadStops, trailStops, others⟩ := State.stopPair_th leadFree trailFree
    let g : State → State := fun t => { t with threads := s.threads, wh := s.wh, evq := s.evq }
    obtain ⟨marked, cleared⟩ := State.stopPair_mismatch (s := s) (k := k)
    have rest := s.stopPair_rest k
    generalize s.stopPair k = u at *
    refine ⟨marked, cleared, leadStops, trailStops, ?_, others, (congrArg g rest :)⟩
    have evq : u.evq = s.evq := (congrArg State.evq rest :)
    simp [State.modRot, State.modWh, State.event, State.eventAt, evq, diff]
  case interrupt =>
    have run : exec (.interruptEntry x) s = s.act (s.hasTurn x .accept && (s.th x).exc.isNone)
        ((s.spendTurn x).enterVec x (8 + i) (s.th x).pc) := by
      simp only [exec, execInterruptEntry, line]
    refine answers_of_act run (by simp [turn, noExc]) ?_
    obtain ⟨b, d, entered⟩ := State.spendTurn_enterVec_self (v := 8 + i) (ret := (s.th x).pc) readable
    rw [entered]
    exact ⟨rfl, rfl, by simp, rfl, rfl, rfl, rfl, fun y other => State.spendTurn_enterVec_th y other, rfl, rfl⟩
  case exception =>
    have run : exec (.exceptionEntry x) s = s.act (s.hasTurn x .accept) ((s.spendTurn x).enterVec x v ret) := by
      simp only [exec, execExceptionEntry, exc]
    refine answers_of_act run turn ?_
    obtain ⟨b, d, entered⟩ := State.spendTurn_enterVec_self (v := v) (ret := ret) readable
    rw [entered]
    exact ⟨rfl, rfl, by simp [small.not_ge], rfl, rfl, rfl, rfl, rfl, fun y other => State.spendTurn_enterVec_th y other, rfl,
      rfl⟩

end Sys2Proof.Machine

/-!
SUPPORT. Turns that issue nothing: illegal forms and uncorrectable code by class of thread (R83, R88, R102, R175), and the
proof of O4.
-/

namespace Sys2Proof.Machine

/-! ### Check bits (R144-R146) -/

theorem State.eccOf_setEcc_same (s : State) (m : Mem) (w : Nat) (e : Option EccState) : (s.setEcc m w e).eccOf m w = e := by
  have gone : (s.ecc.filter (fun k => !(k.mem == m && k.word == w))).find? (fun k => k.mem == m && k.word == w) = none := by
    simp only [List.find?_eq_none, List.mem_filter]
    rintro k ⟨-, kept⟩ here
    rw [here] at kept
    cases kept
  cases e with
  | none => simp only [State.eccOf, State.setEcc, gone, Option.map_none]
  | some e =>
    simp only [State.eccOf, State.setEcc, List.find?_append, gone]
    simp

theorem State.eccOf_setEcc_other (s : State) (m n : Mem) (w v : Nat) (e : Option EccState) (other : (n, v) ≠ (m, w)) :
    (s.setEcc m w e).eccOf n v = s.eccOf n v := by
  have apart (k : EccMark) : (k.mem == n && k.word == v) = true → (!(k.mem == m && k.word == w)) = true := by
    simp only [Bool.and_eq_true, beq_iff_eq, Bool.not_eq_true', Bool.and_eq_false_iff, beq_eq_false_iff_ne]
    rintro ⟨rfl, rfl⟩
    by_contra! same
    exact other (Prod.ext same.1 same.2)
  have kept : (s.ecc.filter (fun k => !(k.mem == m && k.word == w))).find? (fun k => k.mem == n && k.word == v) =
      s.ecc.find? (fun k => k.mem == n && k.word == v) := by
    rw [List.find?_filter]
    congr 1
    funext k
    cases found : (k.mem == n && k.word == v) with
    | false => simp
    | true => simp [apart k found]
  cases e with
  | none => simp only [State.eccOf, State.setEcc, kept]
  | some e =>
    have new : (m == n && w == v) = false := by
      simp only [Bool.and_eq_false_iff, beq_eq_false_iff_ne]
      by_contra! same
      exact other (Prod.ext same.1.symm same.2.symm)
    simp only [State.eccOf, State.setEcc, List.find?_append, kept, List.find?_singleton, new]
    simp

theorem State.eccOf_of_ecc {s t : State} (same : t.ecc = s.ecc) (m : Mem) (w : Nat) : t.eccOf m w = s.eccOf m w := by
  simp only [State.eccOf, same]

theorem State.isUe_of_ecc {s t : State} (same : t.ecc = s.ecc) (m : Mem) (w : Nat) : t.isUe m w = s.isUe m w := by
  simp only [State.isUe, State.eccOf_of_ecc same]

theorem State.eccOf_of_clean {s : State} (clean : s.ecc = []) (m : Mem) (w : Nat) : s.eccOf m w = none := by
  simp [State.eccOf, clean]

theorem State.isUe_of_clean {s : State} (clean : s.ecc = []) (m : Mem) (w : Nat) : s.isUe m w = false := by
  simp [State.isUe, State.eccOf_of_clean clean]

/-- A read leaves an uncorrectable word uncorrectable, and makes none (R145, R146). -/
theorem State.isUe_eccRead (s : State) (r : Reader) (m n : Mem) (w v : Nat) : (s.eccRead r m w).isUe n v = s.isUe n v := by
  unfold State.eccRead
  split
  · rfl
  · exact State.isUe_of_ecc (congrArg State.ecc (State.countUe_rest s m) :) n v
  · next e notUe mark =>
    have marked := State.isUe_of_ecc (t := (s.setEcc m w (some .rewriting)).countEcc m false)
      (congrArg State.ecc (State.countEccOn_rest (s.setEcc m w (some .rewriting)) _ m false) :) n v
    refine marked.trans ?_
    by_cases here : (n, v) = (m, w)
    · cases here
      have fine : e ≠ .uncorrectable := notUe
      simp [State.isUe, State.eccOf_setEcc_same, mark, fine]
    · simp only [State.isUe, State.eccOf_setEcc_other _ _ _ _ _ _ here]

theorem State.isUe_eccCorrect (s : State) (ws : List (Mem × Nat)) (n : Mem) (v : Nat) :
    (s.eccCorrect ws).isUe n v = s.isUe n v := by
  unfold State.eccCorrect
  split
  · rfl
  · refine foldl_rest (fun t => t.isUe n v)
      (fun t (k : Mem × Nat) => if t.isUe k.1 k.2 then t else t.eccRead .thread k.1 k.2) (fun t k => ?_) _ s
    split
    · rfl
    · exact State.isUe_eccRead _ _ _ _ _ _

theorem State.eccCorrect_of_clean {s : State} (clean : s.ecc = []) (ws : List (Mem × Nat)) : s.eccCorrect ws = s := by
  simp [State.eccCorrect, clean]

theorem State.eccPart_of_clean {s : State} (clean : s.ecc = []) (m : Mem) (w : Nat) : s.eccPart m w = s := by
  simp [State.eccPart, State.eccOf_of_clean clean]

/-- A flag write of a thread whose words are clean changes its thread alone. -/
theorem State.setFlag_of_clean {s : State} (clean : s.ecc = []) (x a : Nat) (v : Bool) :
    s.setFlag x a v = s.modTh x (fun t => t.setFlag a v) := by
  simp [State.setFlag, State.isUe_of_clean clean, State.eccPart_of_clean clean]

/-! ### A turn that issues (R74, R85, R110) -/

section Turn

variable (s : State) (x : Nat) (f : Thread → Thread)

/-- A turn in which Lx changes by `f`, and FETCH adds to its queue. -/
theorem State.turn_self : ∃ q, (((s.spendTurn x).modTh x f).fetchTurn x).th x =
    { f { s.th x with turns := (s.th x).turns + 1, stalled := false } with fetched := q } := by
  refine ⟨((((s.spendTurn x).modTh x f).fetchTurn x).th x).fetched, ?_⟩
  have fetch := State.fetchBytes_self ((s.spendTurn x).modTh x f) x
  have spent : ((s.spendTurn x).modTh x f).th x = f { s.th x with turns := (s.th x).turns + 1, stalled := false } := by
    rw [State.th_modTh_same, State.spendTurn_self]
  rw [spent] at fetch
  exact fetch _ _

theorem State.turn_th (y : Nat) (other : y ≠ x) : (((s.spendTurn x).modTh x f).fetchTurn x).th y = s.th y := by
  rw [State.fetchTurn, State.fetchBytes_th _ _ _ _ _ other, State.th_modTh, if_neg (Ne.symm other),
    State.spendTurn_th _ _ _ other]

theorem State.turn_rest : { ((s.spendTurn x).modTh x f).fetchTurn x with
    threads := s.threads, lbs := s.lbs, rank := s.rank, ecc := s.ecc, regs := s.regs, pbs := s.pbs, evq := s.evq } = s := by
  let g : State → State := fun t => { t with
    threads := s.threads, lbs := s.lbs, rank := s.rank, ecc := s.ecc, regs := s.regs, pbs := s.pbs, evq := s.evq }
  exact (congrArg g (State.fetchBytes_rest ((s.spendTurn x).modTh x f) x _ _) :)

theorem State.turn_rest_of_clean (clean : s.ecc = []) :
    { ((s.spendTurn x).modTh x f).fetchTurn x with threads := s.threads, lbs := s.lbs, rank := s.rank } = s := by
  have clean' : ((s.spendTurn x).modTh x f).ecc = [] := clean
  rw [State.fetchTurn, State.fetchBytes, State.eccCorrect_of_clean clean']
  rfl

theorem State.isUe_turn (m : Mem) (w : Nat) : (((s.spendTurn x).modTh x f).fetchTurn x).isUe m w = s.isUe m w :=
  State.isUe_eccCorrect ((s.spendTurn x).modTh x f) _ m w

end Turn

theorem State.fetchRest_th (s : State) (x n : Nat) : (s.fetchRest x n).th = s.th := State.eccCorrect_th s _

theorem State.fetchRest_rest (s : State) (x n : Nat) :
    { s.fetchRest x n with ecc := s.ecc, regs := s.regs, pbs := s.pbs, evq := s.evq } = s := State.eccCorrect_rest s _

theorem State.fetchRest_of_clean {s : State} (clean : s.ecc = []) (x n : Nat) : s.fetchRest x n = s :=
  State.eccCorrect_of_clean clean _

/-! ### The no-op of a metered thread (R83) -/

section NoOp

variable {s : State} {x : Nat}

/-- A no-op over `n` bytes moves the PC and counts its turn. -/
theorem State.noOp_self (n : Nat) : ∃ q, (s.noOp x n).th x = { s.th x with
    lastPc := (s.th x).pc, pc := BitVec.ofNat 18 ((s.th x).pc.toNat + n), turns := (s.th x).turns + 1, stalled := false
    turnsAt := (s.th x).turnsAt.filter (fun k => s.strokes < k + 4) ++ [s.strokes], fetched := q } :=
  State.turn_self s x (fun t => (t.pass n).issuedAt s.strokes)

/-- What ILL leaves of its thread (R83). -/
theorem State.ill_self (cause extra pc : Nat) (place : Option (Nat × Nat)) (head : Option Nat) :
    ∃ b d, (s.ill x cause extra pc place head).th x = { s.th x with bits := b, flagsDue := d } :=
  State.setFlag_self s x flagILL true

theorem State.ill_flag (cause extra pc : Nat) (place : Option (Nat × Nat)) (head : Option Nat)
    (readable : s.isUe (.privBits x) 0 = false) : ((s.ill x cause extra pc place head).th x).flag 5 = true :=
  (State.setFlag_flag s x flagILL 5 true readable rfl).trans (if_pos rfl)

theorem State.ill_th (cause extra pc : Nat) (place : Option (Nat × Nat)) (head : Option Nat) (y : Nat) (other : y ≠ x) :
    (s.ill x cause extra pc place head).th y = s.th y :=
  State.setFlag_th s x flagILL y true other

theorem State.ill_rest (cause extra pc : Nat) (place : Option (Nat × Nat)) (head : Option Nat) :
    { s.ill x cause extra pc place head with threads := s.threads, ecc := s.ecc, eccDue := s.eccDue, evq := s.evq } = s :=
  State.setFlag_rest s x flagILL true

end NoOp

/-! ### Entries in place of an instruction (R88, R102, R175) -/

/-- An entry at a turn, whatever the flag word holds. -/
theorem State.spendTurn_enterVec_any (s : State) (x v : Nat) (ret : BitVec 18) :
    ∃ e b d, ((s.spendTurn x).enterVec x v ret).th x = { s.th x with
      rs := e :: (s.th x).rs.take 7, bits := b, flagsDue := d, ie := false
      pl := if 8 ≤ v then v - 8 else (s.th x).pl
      pc := BitVec.ofNat 18 ((s.th x).vbase.toNat * 256 + 16 * v), owed := 1, idle := 0, exc := none, stalled := false
      fetched := [], stepIssued := (s.th x).stepping, turns := (s.th x).turns + 1 } := by
  generalize fl : (if (s.spendTurn x).isUe (.privBits x) 0 then 0 else ((s.spendTurn x).th x).nibble) = flags
  obtain ⟨b, d, entered⟩ := Thread.enter_eq ((s.spendTurn x).th x) v ret flags
  rw [State.spendTurn_self] at entered
  have self : ((s.spendTurn x).enterVec x v ret).th x = _ := State.th_modTh_same _ _ _
  rw [fl, State.spendTurn_self, entered] at self
  exact ⟨_, _, _, self⟩

/-- The return stack of an entry has one entry more, up to 8. -/
theorem length_cons_take (e : Word) (rs : List Word) : (e :: rs.take 7).length = min 8 (rs.length + 1) := by
  simp
  omega

/-! ### O4 -/

section Cases

variable {u : State} {x : Nat}

/-- A thread that the entry of vector `v` takes (R102). -/
theorem State.entry_post (s u : State) (x v : Nat) (ret : BitVec 18) (same : s.th = u.th) :
    let t := (s.spendTurn x).enterVec x v ret
    (t.th x).pc = BitVec.ofNat 18 ((u.th x).vbase.toNat * 256 + 16 * v) ∧ (t.th x).ie = false ∧ (t.th x).owed = 1 ∧
      (t.th x).rs.length = min 8 ((u.th x).rs.length + 1) ∧ (t.th x).well = (u.th x).well ∧
      (∀ y, y ≠ x → t.th y = u.th y) := by
  obtain ⟨e, b, d, entered⟩ := s.spendTurn_enterVec_any x v ret
  dsimp only
  rw [entered, ← same]
  exact ⟨rfl, rfl, rfl, length_cons_take _ _, rfl,
    fun y other => (State.enterVec_th _ _ _ _ y other).trans (State.spendTurn_th s x y other)⟩

theorem State.entry_rest (s : State) (x v : Nat) (ret : BitVec 18) :
    { (s.spendTurn x).enterVec x v ret with threads := s.threads, lbs := s.lbs, rank := s.rank } = s := rfl

/-- The no-op with ILL of a metered thread (R83, R88, R175). -/
theorem State.noOp_ill_post (s u : State) (x n cause pc : Nat) (head : Option Nat) (same : s.th = u.th)
    (readable : s.isUe (.privBits x) 0 = false) :
    let t := (s.noOp x n).ill x cause 0 pc none head
    (t.th x).pc = BitVec.ofNat 18 ((u.th x).pc.toNat + n) ∧ (t.th x).flag 5 = true ∧
      (t.th x).turns = (u.th x).turns + 1 ∧ (t.th x).well = (u.th x).well ∧ (∀ y, y ≠ x → t.th y = u.th y) := by
  obtain ⟨q, passed⟩ := State.noOp_self (s := s) (x := x) n
  obtain ⟨b, d, self⟩ := State.ill_self (s := s.noOp x n) (x := x) cause 0 pc none head
  have readable' : (s.noOp x n).isUe (.privBits x) 0 = false := (State.isUe_turn s x _ _ _).trans readable
  have flag := State.ill_flag (s := s.noOp x n) cause 0 pc none head readable'
  dsimp only
  refine ⟨?_, flag, ?_, ?_, fun y other => ?_⟩
  · rw [self, passed, ← same]
  · rw [self, passed, ← same]
  · rw [self, passed, ← same]
  · rw [State.ill_th _ _ _ _ _ _ other, ← same]
    exact State.turn_th s x _ y other

theorem State.illegal_of_metered (cause at_ occupied : Nat) (clean : u.ecc = []) (metered : (u.th x).st = .metered) :
    u.illegal x cause at_ occupied =
      (u.noOp x occupied).ill x cause 0 (u.th x).pc.toNat none (some (u.nextByte x 0).1.toNat) := by
  simp [State.illegal, State.fetchRest_of_clean clean, State.elastic, metered]

theorem State.illegal_of_elastic (cause at_ occupied : Nat) (clean : u.ecc = []) (elastic : (u.th x).st = .elastic) :
    u.illegal x cause at_ occupied = (u.spendTurn x).enterVec x 0 (u.th x).pc := by
  simp [State.illegal, State.fetchRest_of_clean clean, State.elastic, elastic]

/-- The read of the code up to byte `i`, with the report of the uncorrectable word (R88). -/
def State.fetchSeen (u : State) (x i : Nat) : State :=
  ((u.fetchRest x i).countLater (.code (lbOf x) (u.bankOf x)) true).eccEventAt (u.fetchRest x i).retireAt 1
    (.code (lbOf x) (u.bankOf x)) (codeAddr (u.th x).pc.toNat i / 4) .thread

theorem State.fetchSeen_th (x i : Nat) : (u.fetchSeen x i).th = u.th := u.fetchRest_th x i

theorem State.fetchSeen_rest (u : State) (x i : Nat) :
    { u.fetchSeen x i with
      ecc := u.ecc, eccDue := u.eccDue, regs := u.regs, pbs := u.pbs, evq := u.evq } = u := by
  let g : State → State := fun t => { t with
    ecc := u.ecc, eccDue := u.eccDue, regs := u.regs, pbs := u.pbs, evq := u.evq }
  exact (congrArg g (u.fetchRest_rest x i) :)

theorem State.isUe_fetchSeen (x i : Nat) (m : Mem) (w : Nat) : (u.fetchSeen x i).isUe m w = u.isUe m w :=
  State.isUe_eccCorrect u _ m w

theorem State.fetchFault_of_metered (i : Nat) (metered : (u.th x).st = .metered) :
    u.fetchFault x i = ((u.fetchSeen x i).noOp x (i + 1)).ill x 0x45 0 (u.th x).pc.toNat := by
  have class_ : (u.fetchSeen x i).elastic x = false := by
    simp [State.elastic, State.fetchSeen_th, metered]
  exact if_neg (Bool.eq_false_iff.mp class_)

theorem State.fetchFault_of_elastic (i : Nat) (elastic : (u.th x).st = .elastic) :
    u.fetchFault x i = ((u.fetchSeen x i).spendTurn x).enterVec x 1 (u.th x).pc := by
  have class_ : (u.fetchSeen x i).elastic x = true := by
    simp [State.elastic, State.fetchSeen_th, elastic]
  exact if_pos class_

end Cases

/-- Settles O4: by class, an illegal form or an uncorrectable code word is a no-op with ILL or an entry. -/
theorem illegalFormsByClass : Obligations.IllegalFormsByClass := by
  unfold Obligations.IllegalFormsByClass
  have illegal {x : Fin 128} {cause at_ occupied : Nat} {s u : State} (found : s.fetch x = .illegal cause at_ occupied)
      (land : u = s.landBore (lbOf x)) : exec (.illegalInstruction x) s =
        s.act (s.hasTurn x .issue && !s.cutDue x) (u.illegal x cause at_ occupied) := by
    simp only [exec, execIllegalInstruction, found, land]
  have fetchFault {x : Fin 128} {i : Nat} {s u : State} (found : s.fetch x = .ue i) (land : u = s.landBore (lbOf x)) :
      exec (.uncorrectableFetch x) s = s.act (s.hasTurn x .issue && !s.cutDue x) (u.fetchFault x i) := by
    simp only [exec, execUncorrectableFetch, found, land]
  refine ⟨fun x cause at_ occupied s u found turn noCut land clean metered => ?illegalMetered,
    fun x cause at_ occupied s u found turn noCut land clean elastic => ?illegalElastic,
    fun x i s u found turn noCut land metered readable => ?fetchMetered,
    fun x i s u found turn noCut land elastic => ?fetchElastic⟩
  case illegalMetered =>
    refine answers_of_act (illegal found land) (by simp [turn, noCut]) ?_
    rw [State.illegal_of_metered _ _ _ clean metered]
    obtain ⟨pc, ill, turns, well, others⟩ := State.noOp_ill_post u u x occupied cause (u.th x).pc.toNat
      (some (u.nextByte x 0).1.toNat) rfl (State.isUe_of_clean clean _ _)
    have passed := State.turn_rest_of_clean u x (fun t => (t.pass occupied).issuedAt u.strokes) clean
    have clean' : (u.noOp x occupied).ecc = [] := (congrArg State.ecc passed :).trans clean
    have evq : (u.noOp x occupied).evq = u.evq := (congrArg State.evq passed :)
    have strokes : (u.noOp x occupied).strokes = u.strokes := (congrArg State.strokes passed :)
    let g : State → State := fun t => { t with threads := u.threads, lbs := u.lbs, rank := u.rank, evq := u.evq }
    refine ⟨pc, ill, turns, well, ?_, others, ?_⟩
    · simp [State.ill, State.setFlag_of_clean clean', State.eventAt, evq, State.retireAt, strokes]
    · rw [State.ill, State.setFlag_of_clean clean']
      exact (congrArg g passed :)
  case illegalElastic =>
    refine answers_of_act (illegal found land) (by simp [turn, noCut]) ?_
    rw [State.illegal_of_elastic _ _ _ clean elastic]
    obtain ⟨pc, ie, owed, rs, well, others⟩ := State.entry_post u u x 0 (u.th x).pc rfl
    exact ⟨by simpa using pc, ie, owed, rs, well, others, rfl⟩
  case fetchMetered =>
    refine answers_of_act (fetchFault found land) (by simp [turn, noCut]) ?_
    rw [State.fetchFault_of_metered _ metered]
    obtain ⟨pc, ill, turns, well, others⟩ := State.noOp_ill_post (u.fetchSeen x i) u x (i + 1) 0x45 (u.th x).pc.toNat none
      (u.fetchSeen_th x i) ((u.isUe_fetchSeen x i _ _).trans readable)
    let g : State → State := fun t => { t with
      threads := u.threads, lbs := u.lbs, rank := u.rank, pbs := u.pbs, ecc := u.ecc, eccDue := u.eccDue, regs := u.regs
      evq := u.evq }
    refine ⟨pc, ill, turns, well, others, ?_⟩
    calc _ = g ((u.fetchSeen x i).noOp x (i + 1)) := 
          (congrArg g (State.ill_rest (s := (u.fetchSeen x i).noOp x (i + 1)) (x := x) 0x45 0 (u.th x).pc.toNat none none) :)
      _ = g (u.fetchSeen x i) := 
          (congrArg g (State.turn_rest (u.fetchSeen x i) x (fun t => (t.pass (i + 1)).issuedAt (u.fetchSeen x i).strokes)) :)
      _ = u := (congrArg g (u.fetchSeen_rest x i) :)
  case fetchElastic =>
    refine answers_of_act (fetchFault found land) (by simp [turn, noCut]) ?_
    rw [State.fetchFault_of_elastic _ elastic]
    obtain ⟨pc, ie, owed, rs, well, others⟩ := State.entry_post (u.fetchSeen x i) u x 1 (u.th x).pc (u.fetchSeen_th x i)
    let g : State → State := fun t => { t with
      threads := u.threads, lbs := u.lbs, rank := u.rank, pbs := u.pbs, ecc := u.ecc, eccDue := u.eccDue, regs := u.regs
      evq := u.evq }
    have entered := congrArg g ((u.fetchSeen x i).entry_rest x 1 (u.th x).pc)
    exact ⟨by simpa using pc, ie, owed, rs, well, others, entered.trans (congrArg g (u.fetchSeen_rest x i) :)⟩

end Sys2Proof.Machine

/-!
SUPPORT. Every instruction up to OPERATE, and what faulting operands leave (R74, R77, R85, R128, R147, R151), and the proof
of O5.
-/

namespace Sys2Proof.Machine

/-! ### The turn of an instruction (R74, R85, R110) -/

theorem State.th_of_threads {s t : State} (same : t.threads = s.threads) : t.th = s.th := by
  funext y
  simp only [State.th, same]

theorem State.lb_of_lbs {s t : State} (same : t.lbs = s.lbs) : t.lb = s.lb := by
  funext n
  simp only [State.lb, same]

theorem State.turn_lb_self (s : State) (x : Nat) (f : Thread → Thread) :
    (((s.spendTurn x).modTh x f).fetchTurn x).lb (lbOf x) = { s.lb (lbOf x) with turn := none } := by
  rw [State.fetchTurn, State.fetchBytes_lb]
  exact State.spendTurn_lb_self s x

theorem State.turn_lb (s : State) (x : Nat) (f : Thread → Thread) (n : Nat) (other : n ≠ lbOf x) :
    (((s.spendTurn x).modTh x f).fetchTurn x).lb n = s.lb n := by
  rw [State.fetchTurn, State.fetchBytes_lb]
  exact State.spendTurn_lb s x n other

theorem State.turn_rank (s : State) (x : Nat) (f : Thread → Thread) :
    (((s.spendTurn x).modTh x f).fetchTurn x).rank = lbOf x + 1 :=
  (congrArg State.rank (State.fetchBytes_rest ((s.spendTurn x).modTh x f) x _ _) :)

/-- How a thread's instruction moves it on: past its bytes, with the turn among those that issue. -/
def Thread.issued (t : Thread) (n strokes : Nat) : Thread :=
  { (t.pass n).issuedAt strokes with stepIssued := t.stepping }

theorem State.begun_eq (s : State) (x : Nat) (d : Dec) :
    s.begun x d = ((s.spendTurn x).modTh x (fun t => t.issued d.len s.strokes)).fetchTurn x := rfl

/-- FETCH adds to the queue what the instruction has left of it (R85). -/
theorem State.begun_fetched (s : State) (x : Nat) (d : Dec) (q k : Nat) (left : q = ((s.th x).fetched.drop d.len).length)
    (room : k = if q = 0 then 32 else min 16 (32 - q)) :
    ((s.begun x d).th x).fetched.map (·.1) = ((s.th x).fetched.drop d.len).map (·.1) ++
      (List.range k).map (fun j => byteAt (s.codeOf x) ((((s.begun x d).th x).pc.toNat + q + j) % 2 ^ 18)) := by
  generalize moved : (s.spendTurn x).modTh x (fun t => t.issued d.len s.strokes) = u
  have self : u.th x = { s.th x with turns := (s.th x).turns + 1, stalled := false }.issued d.len s.strokes := by
    rw [← moved, State.th_modTh_same, State.spendTurn_self]
  have queue : (u.th x).fetched = (s.th x).fetched.drop d.len := by rw [self]; rfl
  have code : u.codeOf x = s.codeOf x := by
    have bore : u.lb (lbOf x) = { s.lb (lbOf x) with turn := none } := by
      rw [← moved]
      exact State.spendTurn_lb_self s x
    rw [State.codeOf, State.bankOf, self, bore]
    rfl
  have fetch : s.begun x d = u.fetchBytes x ((u.th x).pc.toNat + q) k := by
    rw [State.begun_eq, moved, State.fetchTurn, queue, ← left, ← room]
  have pc : ((s.begun x d).th x).pc = (u.th x).pc := by
    rw [fetch, State.fetchBytes_self]
  rw [pc, fetch, State.fetchBytes_fetched, queue, code]

/-! ### Up to OPERATE (R74, R128) -/

section Stage

variable {s t : State} {x : Nat} {d : Dec} {c : Ctx}

theorem State.stage_th (h : s.stage x d = .go c t) : t.th = ((s.fetchRest x d.len).begun x d).th :=
  State.th_of_threads (congrArg State.threads (State.stage_besides h s) :)

theorem State.stage_lb (h : s.stage x d = .go c t) : t.lb = ((s.fetchRest x d.len).begun x d).lb :=
  State.lb_of_lbs (congrArg State.lbs (State.stage_besides h s) :)

theorem State.stage_rank (h : s.stage x d = .go c t) : t.rank = lbOf x + 1 :=
  (congrArg State.rank (State.stage_besides h s) :).trans (State.turn_rank _ _ _)

theorem State.fetchRest_lb (s : State) (x n : Nat) : (s.fetchRest x n).lb = s.lb := State.eccCorrect_lb s _

theorem State.fetchRest_strokes (s : State) (x n : Nat) : (s.fetchRest x n).strokes = s.strokes :=
  (congrArg State.strokes (s.fetchRest_rest x n) :)

theorem State.fetchRest_codeOf (s : State) (x n : Nat) : (s.fetchRest x n).codeOf x = s.codeOf x := by
  simp only [State.codeOf, State.bankOf, State.fetchRest_lb, State.fetchRest_th]

/-- The thread of an instruction that operates. -/
theorem State.stage_self (h : s.stage x d = .go c t) : t.th x = { s.th x with
    pc := BitVec.ofNat 18 ((s.th x).pc.toNat + d.len), lastPc := (s.th x).pc, turns := (s.th x).turns + 1
    stalled := false, stepIssued := (s.th x).stepping, fetched := (t.th x).fetched
    turnsAt := (s.th x).turnsAt.filter (fun k => s.strokes < k + 4) ++ [s.strokes] } := by
  obtain ⟨q, self⟩ := State.turn_self (s.fetchRest x d.len) x (fun t => t.issued d.len (s.fetchRest x d.len).strokes)
  have fetched : t.th x = _ := (congrFun (State.stage_th h) x).trans self
  rw [State.fetchRest_th, State.fetchRest_strokes] at fetched
  rw [fetched]
  rfl

theorem State.stage_fetched (h : s.stage x d = .go c t) (q k : Nat) (left : q = ((s.th x).fetched.drop d.len).length)
    (room : k = if q = 0 then 32 else min 16 (32 - q)) :
    (t.th x).fetched.map (·.1) = ((s.th x).fetched.drop d.len).map (·.1) ++
      (List.range k).map (fun j => byteAt (s.codeOf x) (((t.th x).pc.toNat + q + j) % 2 ^ 18)) := by
  have fetched := (s.fetchRest x d.len).begun_fetched x d q k (by rw [State.fetchRest_th]; exact left) room
  rw [State.fetchRest_th, State.fetchRest_codeOf] at fetched
  rw [State.stage_th h]
  exact fetched

theorem State.stage_th_other (h : s.stage x d = .go c t) (y : Nat) (other : y ≠ x) : t.th y = s.th y := by
  rw [State.stage_th h, State.begun_eq, State.turn_th _ _ _ _ other, State.fetchRest_th]

theorem State.stage_lb_self (h : s.stage x d = .go c t) : t.lb (lbOf x) = { s.lb (lbOf x) with turn := none } := by
  rw [State.stage_lb h, State.begun_eq, State.turn_lb_self, State.fetchRest_lb]

theorem State.stage_lb_other (h : s.stage x d = .go c t) (n : Nat) (other : n ≠ lbOf x) : t.lb n = s.lb n := by
  rw [State.stage_lb h, State.begun_eq, State.turn_lb _ _ _ _ other, State.fetchRest_lb]

/-- What else can change up to OPERATE: records of corrected words, and the record of a running pair. -/
theorem State.stage_rest (h : s.stage x d = .go c t) :
    { t with threads := s.threads, lbs := s.lbs, rank := s.rank, ecc := s.ecc, eccDue := s.eccDue, regs := s.regs
             pbs := s.pbs, evq := s.evq, wh := s.wh } = s := by
  let g : State → State := fun t => { t with
    threads := s.threads, lbs := s.lbs, rank := s.rank, ecc := s.ecc, eccDue := s.eccDue, regs := s.regs
    pbs := s.pbs, evq := s.evq, wh := s.wh }
  calc g t = g ((s.fetchRest x d.len).begun x d) := (congrArg g (State.stage_besides h s) :)
    _ = g (s.fetchRest x d.len) :=
      (congrArg g (State.turn_rest (s.fetchRest x d.len) x (fun t => t.issued d.len (s.fetchRest x d.len).strokes)) :)
    _ = s := (congrArg g (s.fetchRest_rest x d.len) :)

end Stage

/-! ### Conditions and faults (R77, R102, R147, R151) -/

/-- A row issues its instruction through the same steps, whatever its operation. -/
theorem Issues.exec {s : State} {i : Instr} {x : Fin 128} {o : Nat} {k : Option Nat} {d : Dec}
    (row : threadRow i = some (x, o, k)) (h : Issues s i x d) :
    ∃ body, exec i s = .next ((s.landBore (lbOf x)).issueRun x d body) := by
  obtain ⟨body, run⟩ := exec_of_threadRow row
  exact ⟨body, (run s).trans (runSel_issues h.fetched h.granted h.named h.issues)⟩

theorem State.issueRun_pass {s t : State} {x : Nat} {d : Dec} (body : Body) (h : s.stage x d = .pass t) :
    s.issueRun x d body = t.modTh x (fun u => u.passes d) := by
  simp only [State.issueRun, h]

theorem State.issueRun_fault {s t : State} {x : Nat} {d : Dec} {f : Flt} (body : Body) (h : s.stage x d = .fault f t) :
    s.issueRun x d body = t.takeFault x (s.th x).pc.toNat d f := by
  simp only [State.issueRun, h]

theorem State.modTh_congr {s : State} {x : Nat} {f g : Thread → Thread} (same : f (s.th x) = g (s.th x)) :
    s.modTh x f = s.modTh x g := by
  rw [State.modTh, State.modTh, same]

section Fault

variable {s : State} {x pc : Nat} {d : Dec} {f : Flt}

theorem State.recordFault_elastic : (s.recordFault x f).elastic x = s.elastic x := by
  simp [State.elastic, State.recordFault]

/-- The exception of an elastic thread, with BORE_TFAULT free (R102, R147). -/
theorem State.takeFault_of_elastic (elastic : (s.th x).st = .elastic) (noWord : f.word = none)
    (free : bit (s.th x).tfault.toNat 31 = false) :
    s.takeFault x pc d f = s.modTh x (fun u => { u with
      tfault := BitVec.ofNat 32 f.layout, freshFault := u.freshFault.set s.strokes (2 ^ 31)
      exc := some (if f.cause = 2 then 1 else 2, BitVec.ofNat 18 pc) }) := by
  have class_ : (s.recordFault x f).elastic x = true := by
    rw [State.recordFault_elastic]
    simp [State.elastic, elastic]
  have acts : s.takeFault x pc d f = (s.recordFault x f).raiseExc x (if f.cause = 2 then 1 else 2) (BitVec.ofNat 18 pc) := by
    simp only [State.takeFault, noWord, class_, if_true]
  rw [acts, State.raiseExc, State.recordFault, State.modTh_modTh]
  exact State.modTh_congr (by simp [free])

/-- The consequence for a metered thread (R83, R147). -/
theorem State.takeFault_of_metered (metered : (s.th x).st = .metered) (noWord : f.word = none) :
    s.takeFault x pc d f = ((s.recordFault x f).ill x (if f.cause = 2 then 0x40 else 0x41) 0 pc
      (some (f.space, f.addr))).modTh x (fun t => t.passes d) := by
  have class_ : (s.recordFault x f).elastic x = false := by
    rw [State.recordFault_elastic]
    simp [State.elastic, metered]
  simp only [State.takeFault, noWord, class_, Bool.false_eq_true, if_false]

theorem Thread.passes_eq (t : Thread) (d : Dec) : ∃ o i, t.passes d = { t with owed := o, idle := i } := by
  unfold Thread.passes
  split
  · exact ⟨_, _, rfl⟩
  · split
    · exact ⟨_, _, rfl⟩
    · exact ⟨_, _, rfl⟩

theorem State.recordFault_self : (s.recordFault x f).th x = { s.th x with
    tfault := if bit (s.th x).tfault.toNat 31 then (s.th x).tfault ||| 0x40000000#32 else BitVec.ofNat 32 f.layout
    freshFault := (s.th x).freshFault.set s.strokes (if bit (s.th x).tfault.toNat 31 then 2 ^ 30 else 2 ^ 31) } :=
  State.th_modTh_same s x _

theorem State.setFlag_evq_of_none {a : Nat} {v : Bool} (none_ : s.eccOf (.privBits x) (a / 32) = none) :
    (s.setFlag x a v).evq = s.evq := by
  have notUe : s.isUe (.privBits x) (a / 32) = false := by simp [State.isUe, none_]
  simp [State.setFlag, notUe, State.eccPart, none_]

end Fault

/-- Settles O5: by what `stage` leaves, and by the branch of `issueRun` that a false condition or a fault takes. -/
theorem operandsReadAndFaulted : Obligations.OperandsReadAndFaulted := by
  unfold Obligations.OperandsReadAndFaulted
  refine ⟨fun i x c s t u h land => ?operates, fun i x o k d s t row h passes => ?pass,
    fun i x o k d f s t row h faults => ?fault, fun x pc d f s elastic noWord free => ?elastic,
    fun x pc d f s t metered noWord readable taken => ?metered⟩
  case operates =>
    have staged := h.staged
    rw [← land] at staged
    obtain ⟨thread, pc, -⟩ := State.stage_go staged
    exact ⟨thread, pc, State.stage_self staged, State.stage_fetched staged, State.stage_th_other staged,
      State.stage_lb_self staged, State.stage_lb_other staged, State.stage_rank staged, State.stage_rest staged⟩
  case pass =>
    obtain ⟨body, run⟩ := h.exec row
    rw [run, State.issueRun_pass body passes]
  case fault =>
    obtain ⟨body, run⟩ := h.exec row
    rw [run, State.issueRun_fault body faults]
  case elastic => exact State.takeFault_of_elastic elastic noWord free
  case metered =>
    rw [State.takeFault_of_metered metered noWord] at taken
    generalize ill : (s.recordFault x f).ill x (if f.cause = 2 then 0x40 else 0x41) 0 pc (some (f.space, f.addr)) = u at taken
    obtain ⟨o, i, passed⟩ := (u.th x).passes_eq d
    obtain ⟨b, e, marked⟩ : ∃ b e, u.th x = { (s.recordFault x f).th x with bits := b, flagsDue := e } := by
      rw [← ill]
      exact State.ill_self _ _ _ _ _
    have self : t.th x = { u.th x with owed := o, idle := i } := by
      rw [taken, State.th_modTh_same, passed]
    have flag (a : Nat) : (t.th x).flag a = if 5 = a then true else (s.th x).flag a := by
      have readable' : (s.recordFault x f).isUe (.privBits x) 0 = false := readable
      have written := State.setFlag_flag (s.recordFault x f) x flagILL a true readable' rfl
      rw [State.recordFault_self] at written
      rw [self]
      subst ill
      exact written
    have evq : t.evq = ((s.recordFault x f).setFlag x flagILL true).evq ++ [{
        unit := 7, cls := 10, typ := 0x20, alarm := false, trace := false
        arg0 := x + 2 ^ 8 * (if f.cause = 2 then 0x40 else 0x41), arg1 := pc, at_ := s.strokes + 4
        place := some (f.space, f.addr) }] := by
      rw [taken, ← ill]
      rfl
    refine ⟨by rw [flag, if_pos rfl], ?well, ?exc, fun a other => by rw [flag, if_neg (Ne.symm other)], fun full => ?overrun, ?last,
      fun fine => ?count, fun y other => ?others, ?rest⟩
    case well => rw [self, marked, State.recordFault_self]
    case exc => rw [self, marked, State.recordFault_self]
    case overrun => rw [self, marked, State.recordFault_self, if_pos full]
    case last => rw [evq, List.getLast?_concat]
    case count =>
      have fine' : (s.recordFault x f).eccOf (.privBits x) (flagILL / 32) = none := fine
      rw [evq, State.setFlag_evq_of_none fine', List.length_append]
      rfl
    case others =>
      rw [taken, State.th_modTh, if_neg (Ne.symm other), ← ill, State.ill_th _ _ _ _ _ _ other]
      exact (s.modTh_changes x _).2.1 y other
    case rest =>
      let g : State → State := fun t => { t with threads := s.threads, ecc := s.ecc, eccDue := s.eccDue, evq := s.evq }
      subst taken ill
      exact (congrArg g (State.setFlag_rest (s.recordFault x f) x flagILL true) :)

end Sys2Proof.Machine

/-!
SUPPORT. What the moves, the bit and logic instructions and the additions compute (R183-R188), and the proofs of O7 and O8.
-/

namespace Sys2Proof.Machine

/-! ### How a result reaches d at once -/

section Results

variable {s t : State} {i : Instr} {x : Fin 128} {c : Ctx} {op r : Nat} {f : Alu} {cy ov : Bool}

/-- An instruction of thread row `op` that operates is its body on the operands read. -/
theorem Operates.exec_body {body : Body} (h : Operates s i x c t) (row : threadRow i = some (x, op, none))
    (run : exec i s = runThread x op body s) : exec i s = .next ((body c t).after c t) := by
  rw [run, h.run op body (h.opcode row)]

/-- d := f(a, b). -/
theorem Operates.exec_dab (h : Operates s i x c t) (row : threadRow i = some (x, op, none))
    (run : exec i s = runThread x op (dab f) s)
    (out : f c.w (c.val 1) (c.val 2) (c.val 0) ((t.th x).flag 1) ((t.th x).flag 0x00F) = { r := r, c := cy, v := ov }) :
    exec i s = .next (c.result2 t r cy ov) := by
  rw [h.exec_body row run]
  simp only [dab, Did.after, Ctx.alu, h.x_eq, flagC, flagG, out, Ctx.result_eq]

/-- d := f(a). -/
theorem Operates.exec_da (h : Operates s i x c t) (row : threadRow i = some (x, op, none))
    (run : exec i s = runThread x op (da f) s)
    (out : ∀ k g, f c.w (c.val 1) 0 (c.val 0) k g = { r := r, c := cy, v := ov }) :
    exec i s = .next (c.result2 t r cy ov) := by
  rw [h.exec_body row run]
  simp only [da, Did.after, Ctx.alu, out, Ctx.result_eq]

/-- d := f(d). -/
theorem Operates.exec_dd (h : Operates s i x c t) (row : threadRow i = some (x, op, none))
    (run : exec i s = runThread x op (dd f) s)
    (out : ∀ k g, f c.w 0 0 (c.val 0) k g = { r := r, c := cy, v := ov }) :
    exec i s = .next (c.result2 t r cy ov) := by
  rw [h.exec_body row run]
  simp only [dd, Did.after, Ctx.alu, out, Ctx.result_eq]

/-- Only flags. -/
theorem Operates.exec_flagsOnly {fl : Ctx → List (Nat × Bool)} {fs : List (Nat × Bool)} (h : Operates s i x c t)
    (row : threadRow i = some (x, op, none)) (run : exec i s = runThread x op (flagsOnly fl) s) (out : fl c = fs) :
    exec i s = .next ((c.landed t).setFlags x fs) := by
  rw [h.exec_body row run]
  simp only [flagsOnly, Did.after, h.x_eq, out, Ctx.landed]

end Results

/-! ### Bits of numbers -/

theorem bit_eq_testBit (v k : Nat) : bit v k = v.testBit k := by
  rw [bit, Nat.testBit_eq_decide_div_mod_eq, beq_eq_decide]

/-- The field of `w` from `lo` on, `n` bits wide, replaced by the low bits of `f`. -/
theorem bit_replaced (w f lo n k : Nat) :
    bit (w - w / 2 ^ lo % 2 ^ n * 2 ^ lo + f % 2 ^ n * 2 ^ lo) k =
      if lo ≤ k ∧ k < lo + n then bit f (k - lo) else bit w k := by
  have low : w % 2 ^ lo < 2 ^ lo := Nat.mod_lt _ (Nat.two_pow_pos lo)
  have field : f % 2 ^ n < 2 ^ n := Nat.mod_lt _ (Nat.two_pow_pos n)
  have parts : w - w / 2 ^ lo % 2 ^ n * 2 ^ lo + f % 2 ^ n * 2 ^ lo =
      2 ^ lo * (2 ^ n * (w / 2 ^ lo / 2 ^ n) + f % 2 ^ n) + w % 2 ^ lo := by
    have outer := Nat.div_add_mod w (2 ^ lo)
    have inner := Nat.div_add_mod (w / 2 ^ lo) (2 ^ n)
    generalize w / 2 ^ lo / 2 ^ n = h at *
    generalize w / 2 ^ lo % 2 ^ n = m at *
    rw [← inner] at outer
    rw [Nat.mul_add, Nat.mul_comm (2 ^ lo) m] at outer
    have split : w = 2 ^ lo * (2 ^ n * h) + m * 2 ^ lo + w % 2 ^ lo := outer.symm
    generalize w % 2 ^ lo = l at *
    subst split
    rw [show 2 ^ lo * (2 ^ n * h) + m * 2 ^ lo + l - m * 2 ^ lo = 2 ^ lo * (2 ^ n * h) + l by omega]
    ring
  rw [parts, bit_eq_testBit, bit_eq_testBit, bit_eq_testBit, Nat.testBit_two_pow_mul_add _ low,
    Nat.testBit_two_pow_mul_add _ field]
  by_cases below : k < lo
  · simp [below, below.not_ge]
  · have above : lo ≤ k := not_lt.mp below
    simp only [if_neg below, above, true_and]
    by_cases inside : k < lo + n
    · rw [if_pos (by omega), if_pos inside, Nat.testBit_mod_two_pow, decide_eq_true (by omega), Bool.true_and]
    · rw [if_neg (by omega), if_neg inside, Nat.div_div_eq_div_mul, ← pow_add, Nat.testBit_div_two_pow]
      congr 1
      omega

theorem clz_eq_takeWhile (a : Nat) : ∀ w, clz a w = ((List.range w).takeWhile (fun k => !bit a (w - 1 - k))).length
  | 0 => rfl
  | w + 1 => by
    have shifted : ∀ k, w - 1 - k = w - (k + 1) := fun k => by omega
    rw [clz, List.range_succ_eq_map, List.takeWhile_cons, List.takeWhile_map]
    cases top : bit a w
    · simp only [clz_eq_takeWhile a w, shifted]
      simp [top, Function.comp_def]
    · simp [top]

theorem popc_eq_countP (a : Nat) : ∀ w, popc a w = (List.range w).countP (bit a)
  | 0 => rfl
  | w + 1 => by
    rw [popc, List.range_succ, List.countP_append, popc_eq_countP a w, List.countP_singleton, b2n, Nat.add_comm]

section Fields

variable {w a b d pos : Nat} {cy g : Bool}

theorem aluBfx_of_lt {top : Nat} (at_ : pos = bits b 5 0) (inside : pos < w) (last : top = min (pos + bits b 13 8) (w - 1)) :
    aluBfx w a b d cy g = { r := if bit b 15 then wrap w (sgn (top + 1 - pos) (bits a top pos)) else bits a top pos
                            c := false, v := false } := by
  have highest : min (pos + (bits b 13 8 + 1)) w - 1 = top := by omega
  have width : top - pos + 1 = top + 1 - pos := by omega
  simp only [aluBfx, ← at_, if_neg inside.not_ge, highest, width, plain]

theorem aluBfx_of_le (outside : w ≤ bits b 5 0) : aluBfx w a b d cy g = { r := 0, c := false, v := false } := by
  simp only [aluBfx, if_pos outside, plain]

theorem aluBfi_of_lt {n v : Nat} (at_ : pos = bits b 5 0) (inside : pos < w) (width : n = min (bits b 13 8 + 1) (w - pos))
    (result : ∀ k, bit v k = if pos ≤ k ∧ k < pos + n then bit a (k - pos) else bit d k) :
    aluBfi w a b d cy g = { r := v, c := false, v := false } := by
  have wide : pos + n - 1 + 1 - pos = n := by omega
  have same : d - bits d (pos + n - 1) pos * 2 ^ pos + a % 2 ^ n * 2 ^ pos = v := by
    refine Nat.eq_of_testBit_eq fun k => ?_
    rw [bits, wide, ← bit_eq_testBit, ← bit_eq_testBit, bit_replaced, result]
  simp only [aluBfi, ← at_, if_neg inside.not_ge, ← width, same, plain]

theorem aluBfi_of_le (outside : w ≤ bits b 5 0) : aluBfi w a b d cy g = { r := d, c := false, v := false } := by
  simp only [aluBfi, if_pos outside, plain]

end Fields

/-- Settles O7: each result by its computation, the counts and the fields by the lemmas above. -/
theorem moveBitAndLogicResults : Obligations.MoveBitAndLogicResults := by
  unfold Obligations.MoveBitAndLogicResults
  refine ⟨fun x c s t h => ?nop, fun x c s t h => ?mov, fun x c s t h => ?swap, fun x c s t h => ?sel,
    fun x c s t h => ?bmov, fun x c s t h => ?bset, fun x c s t h => ?bclr, fun x a c s t h at_ => ?bnotBit,
    fun x c s t h other => ?bnot, fun x c s t h => ?and, fun x c s t h => ?or, fun x c s t h => ?xor,
    fun x c s t h => ?tst, fun x b c s t h out => ?btst, fun x c s t h => ?clz, fun x c s t h => ?popc,
    fun x c s t h => ?bswap, fun x pos top c s t h at_ inside last => ?bfx, fun x c s t h outside => ?bfxOutside,
    fun x pos n v c s t h at_ inside width result => ?bfi, fun x c s t h outside => ?bfiOutside⟩
  case nop => exact h.exec_body (body := nothing) rfl rfl
  case mov => exact h.exec_da (f := aluMov) rfl rfl fun _ _ => rfl
  case swap =>
    rw [h.exec_body (body := swapBody) rfl rfl]
    rfl
  case sel =>
    refine h.exec_dab (f := aluSel) rfl rfl ?_
    cases (t.th x).flag 0x00F <;> rfl
  case bmov =>
    refine h.exec_da (f := aluBmov) rfl rfl fun _ _ => ?_
    simp only [aluBmov, plain, ne_eq, ite_not]
  case bset => exact h.exec_dd (f := aluBset) rfl rfl fun _ _ => rfl
  case bclr => exact h.exec_dd (f := aluBclr) rfl rfl fun _ _ => rfl
  case bnotBit =>
    rw [h.exec_body (body := bnotBody) rfl rfl, bnotBody, at_, ← h.x_eq]
    rfl
  case bnot =>
    have body : bnotBody c t = dd aluBnot c t := by
      unfold bnotBody
      split
      · next a at_ => exact absurd at_ (other a)
      · rfl
    rw [h.exec_body (body := bnotBody) rfl rfl, body]
    simp only [dd, Did.after, Ctx.alu, aluBnot, plain]
    exact congrArg Host.Outcome.next (Ctx.result_eq _ _ _)
  case and => exact h.exec_dab (f := aluAnd) rfl rfl rfl
  case or => exact h.exec_dab (f := aluOr) rfl rfl rfl
  case xor => exact h.exec_dab (f := aluXor) rfl rfl rfl
  case tst => exact h.exec_flagsOnly (fl := tstFlags) rfl rfl rfl
  case btst =>
    subst out
    exact h.exec_flagsOnly (fl := btstFlags) rfl rfl rfl
  case clz =>
    refine h.exec_da (f := aluClz) rfl rfl fun _ _ => ?_
    rw [aluClz, clz_eq_takeWhile]
  case popc =>
    refine h.exec_da (f := aluPopc) rfl rfl fun _ _ => ?_
    rw [aluPopc, popc_eq_countP, plain]
  case bswap =>
    have bytes : c.w / 8 = c.dec.size := Nat.mul_div_cancel_left _ (by decide)
    refine h.exec_da (f := aluBswap) rfl rfl fun _ _ => ?_
    rw [aluBswap, bytes, plain]
  case bfx => exact h.exec_dab (f := aluBfx) rfl rfl (aluBfx_of_lt at_ inside last)
  case bfxOutside => exact h.exec_dab (f := aluBfx) rfl rfl (aluBfx_of_le outside)
  case bfi => exact h.exec_dab (f := aluBfi) rfl rfl (aluBfi_of_lt at_ inside width result)
  case bfiOutside => exact h.exec_dab (f := aluBfi) rfl rfl (aluBfi_of_le outside)

/-! ### Additions and comparisons (R185, R186) -/

theorem decide_two_pow_le (w n : Nat) : decide (2 ^ w ≤ n) = decide (2 ^ w - 1 < n) := by
  have pos : 0 < 2 ^ w := Nat.two_pow_pos w
  exact decide_eq_decide.mpr (by omega)

theorem aluAdds_eq {w a b d : Nat} {cy g : Bool} {e : Int} (sum : e = sgn w a + sgn w b) :
    aluAdds w a b d cy g = { r := wrap w (clampS w e), c := false, v := overflows w e } := by
  simp only [aluAdds, outside_eq, sum]

theorem aluSubs_eq {w a b d : Nat} {cy g : Bool} {e : Int} (diff : e = sgn w a - sgn w b) :
    aluSubs w a b d cy g = { r := wrap w (clampS w e), c := false, v := overflows w e } := by
  simp only [aluSubs, outside_eq, diff]

/-- The magnitude of a number that fits is the number or what is left of it to 2^w. -/
theorem natAbs_sgn {w a : Nat} (fits : a < 2 ^ w) :
    (if 0 ≤ sgn w a then a else wrap w (-(a : Int))) = (sgn w a).natAbs := by
  have pos : 0 < 2 ^ (w - 1) := Nat.two_pow_pos _
  rw [sgn, Nat.mod_eq_of_lt fits]
  by_cases low : a < 2 ^ (w - 1)
  · simp [low]
  · have negative : ¬(0 : Int) ≤ a - (2 ^ w : Nat) := by omega
    have complement : -(a : Int) % (2 ^ w : Nat) = (2 ^ w : Nat) - a := by
      rw [← Int.add_emod_right, show -(a : Int) + (2 ^ w : Nat) = (2 ^ w : Nat) - a by ring]
      exact Int.emod_eq_of_lt (by omega) (by omega)
    simp only [if_neg low, if_neg negative, wrap, complement]
    omega

/-- Settles O8: each sum, difference and choice by its computation, with its carry and its overflow. -/
theorem additionResultsAndFlags : Obligations.AdditionResultsAndFlags := by
  unfold Obligations.AdditionResultsAndFlags
  refine ⟨fun x c s t h => ?add, fun x k c s t h carry => ?adc, fun x c s t h => ?sub, fun x k c s t h borrow => ?sbc,
    fun x e c s t h sum => ?adds, fun x e c s t h diff => ?subs, fun x c s t h => ?inc, fun x c s t h => ?dec,
    fun x c s t h => ?neg, fun x c s t h fits _ => ?abs, fun x c s t h => ?min, fun x c s t h => ?max,
    fun x c s t h => ?minu, fun x c s t h => ?maxu, fun x c s t h => ?cmp⟩
  case add =>
    refine h.exec_dab (f := aluAdd) rfl rfl ?_
    rw [aluAdd, decide_two_pow_le, outside_eq]
  case adc =>
    refine h.exec_dab (f := aluAdc) rfl rfl ?_
    rw [aluAdc, decide_two_pow_le, outside_eq, carry]
  case sub =>
    refine h.exec_dab (f := aluSub) rfl rfl ?_
    rw [aluSub, outside_eq]
  case sbc =>
    refine h.exec_dab (f := aluSbc) rfl rfl ?_
    rw [aluSbc, outside_eq, borrow]
  case adds => exact h.exec_dab (f := aluAdds) rfl rfl (aluAdds_eq sum)
  case subs => exact h.exec_dab (f := aluSubs) rfl rfl (aluSubs_eq diff)
  case inc => exact h.exec_dd (f := aluInc) rfl rfl fun _ _ => rfl
  case dec => exact h.exec_dd (f := aluDec) rfl rfl fun _ _ => rfl
  case neg =>
    refine h.exec_da (f := aluNeg) rfl rfl fun _ _ => ?_
    simp only [aluNeg, zero_sub, ne_eq, Nat.pos_iff_ne_zero]
  case abs =>
    refine h.exec_da (f := aluAbs) rfl rfl fun _ _ => ?_
    rw [aluAbs, natAbs_sgn fits]
  case min =>
    refine h.exec_dab (f := aluMin) rfl rfl ?_
    simp only [aluMin, plain, ← not_lt, ite_not]
  case max =>
    refine h.exec_dab (f := aluMax) rfl rfl ?_
    simp only [aluMax, plain, ← not_lt, ite_not]
  case minu =>
    refine h.exec_dab (f := aluMinu) rfl rfl ?_
    rw [aluMinu, Nat.min_def, plain]
  case maxu =>
    refine h.exec_dab (f := aluMaxu) rfl rfl ?_
    rw [aluMaxu, Nat.max_comm, Nat.max_def, plain]
  case cmp =>
    refine h.exec_flagsOnly (fl := cmpFlags) rfl rfl ?_
    rw [cmpFlags, aluSub, outside_eq]
    rfl

end Sys2Proof.Machine

/-!
SUPPORT. The WRITE of a destination and what an instruction with one result leaves (R74, R76, R115, R116, R124, R128,
R136, R180), and the proof of O6.
-/

namespace Sys2Proof.Machine

/-! ### The WRITE of a destination -/

/-- A bit of a thread is written, but for a reserved bit and for a 0 under a hardware event of the same stroke (R128). -/
theorem Thread.writeBit_flag (t : Thread) (n a b v : Nat) : (t.writeBit n a (v % 2 == 1)).flag b =
    if b = a ∧ privReserved a = false ∧ ¬(v % 2 = 0 ∧ bit (t.freshBits.held n) a = true) then v % 2 == 1 else t.flag b := by
  have even : (!(v % 2 == 1)) = decide (v % 2 = 0) := by
    obtain h | h := Nat.mod_two_eq_zero_or_one v <;> simp [h]
  rw [Thread.writeBit, even]
  by_cases held : v % 2 = 0 ∧ bit (t.freshBits.held n) a = true
  · simp [held]
  · rw [if_neg (by simpa using held), Thread.setFlag]
    by_cases reserved : privReserved a = true
    · simp [reserved]
    · by_cases same : b = a
      · simp [Thread.flag, reserved, held, same, tget_tset]
      · simp [Thread.flag, reserved, same, tget_tset, Ne.symm same]

theorem Thread.writeBit_rest (t : Thread) (n a : Nat) (v : Bool) :
    { t.writeBit n a v with bits := t.bits, flagsDue := t.flagsDue } = t := by
  unfold Thread.writeBit
  split
  · rfl
  · unfold Thread.setFlag
    split <;> rfl

/-- What a write of a bit of a thread does, where its word of check bits is taken care of. -/
theorem State.bitWrite_private (s : State) (x : Nat) {a : Nat} (v : Option Bool) (low : a < 0x1000) :
    s.bitWrite x a v = (s.eccPart (.privBits x) (a / 32)).modTh x
      (fun t => t.writeBit s.strokes a (v.getD (!(t.flag a)))) := by
  simp only [State.bitWrite, bitWord, if_pos low]

theorem State.bitWrite_shared (s : State) (x : Nat) {a : Nat} (v : Option Bool) (from_ : 0x1000 ≤ a) (below : a < 0x3000) :
    s.bitWrite x a v = (s.eccPart (.sharedBits (lbOf x)) ((a - 0x1000) / 32)).modLb (lbOf x)
      (fun b => { b with shared := tset false b.shared a (v.getD (!(tget false b.shared a))) }) := by
  simp only [State.bitWrite, bitWord, if_neg from_.not_gt, if_pos below]

theorem State.eccPart_lb (s : State) (m : Mem) (w : Nat) : (s.eccPart m w).lb = s.lb :=
  State.lb_of_lbs (congrArg State.lbs (State.eccPart_rest s m w) :)

/-! ### What goes out of the core (R116, R136, R505) -/

/-- A bit for all to see or a write of the port window goes out: what is on its way grows, and a pair notes it. -/
theorem State.output_rest {s : State} {x pc hint : Nat} {o : Out}
    (sent : ∀ t : State, t.strokes = s.strokes → { t.emit x pc hint o with gpend := t.gpend, winPend := t.winPend } = t) :
    { s.output x pc hint o with gpend := s.gpend, winPend := s.winPend, wh := s.wh } = s := by
  let g : State → State := fun t => { t with gpend := s.gpend, winPend := s.winPend, wh := s.wh }
  have emitted (t : State) (same : t.strokes = s.strokes) : g (t.emit x pc hint o) = g t := (congrArg g (sent t same) :)
  have kept : g (s.output x pc hint o) = g s := by
    unfold State.output
    split
    · rfl
    · split
      · exact emitted s rfl
      · split
        · split
          · exact emitted _ rfl
          · rfl
        · rfl
  exact kept

theorem State.output_gbit_rest (s : State) (x pc a : Nat) (v : Option Bool) :
    { s.output x pc 0 (.gbit a v) with gpend := s.gpend, winPend := s.winPend, wh := s.wh } = s :=
  State.output_rest fun _ _ => rfl

theorem State.winIssue_of_lt {s : State} {due : Nat} (later : s.strokes < due) (x pc off : Nat) (v : Word) :
    s.winIssue x pc due off v =
      { s with winPend := s.winPend ++ [{ due := due, rank := lbOf x, x := x, pc := pc, off := off, v := v }] } := by
  simp only [State.winIssue, if_neg later.not_ge]

theorem State.output_win_rest {s : State} {hint : Nat} (later : s.strokes < hint) (x pc off : Nat) (v : Word) :
    { s.output x pc hint (.win off v) with gpend := s.gpend, winPend := s.winPend, wh := s.wh } = s :=
  State.output_rest fun t same => by
    rw [show t.emit x pc hint (.win off v) = t.winIssue x pc hint off v from rfl,
      State.winIssue_of_lt (by rw [same]; exact later)]

theorem State.output_win_strokes {s : State} {hint : Nat} (later : s.strokes < hint) (x pc off : Nat) (v : Word) :
    (s.output x pc hint (.win off v)).strokes = s.strokes :=
  (congrArg State.strokes (State.output_win_rest later x pc off v) :)

theorem State.portPut_rest (s : State) (x pc off n v : Nat) :
    { s.portPut x pc (s.strokes + 3) off n v with gpend := s.gpend, winPend := s.winPend, wh := s.wh } = s := by
  let g : State → State := fun t => { t with gpend := s.gpend, winPend := s.winPend, wh := s.wh }
  have later : s.strokes < s.strokes + 3 := by omega
  have low := State.output_win_rest later x pc off (BitVec.ofNat 32 v)
  have kept : g (s.portPut x pc (s.strokes + 3) off n v) = g s := by
    unfold State.portPut
    extract_lets t
    split
    · have high : t.strokes < s.strokes + 3 := by
        rw [State.output_win_strokes later]
        exact later
      have sent : g (t.output x pc (s.strokes + 3) (.win (off + 4) (BitVec.ofNat 32 (v / 2 ^ 32)))) = g t :=
        (congrArg g (State.output_win_rest high x pc (off + 4) (BitVec.ofNat 32 (v / 2 ^ 32))) :)
      exact sent.trans low
    · exact low
  exact kept

/-! ### What one result leaves -/

/-- From `u` to `r` the instruction of `c` changed the memories of the bores at its destination and at the pointers that
advance alone, of the flags Z, C, V, N and TAGF, and no other thread. -/
structure Ctx.Frame (c : Ctx) (u r : State) : Prop where
  well : ∀ y b, ¬ c.writesWell y b → byteAt (r.th y).well b = byteAt (u.th y).well b
  bores : ∀ n, (r.lb n).res = (u.lb n).res ∧ (r.lb n).code0 = (u.lb n).code0 ∧ (r.lb n).code1 = (u.lb n).code1
  flags : ∀ a, 4 ≤ a → a ≠ 0x008 → (c.op 0).loc ≠ .bit a → (r.th c.x).flag a = (u.th c.x).flag a
  rs : (r.th c.x).rs = (u.th c.x).rs
  ie : (r.th c.x).ie = (u.th c.x).ie
  pl : (r.th c.x).pl = (u.th c.x).pl
  others : ∀ y, y ≠ c.x → r.th y = u.th y
  rest : { r with threads := u.threads, lbs := u.lbs, rank := u.rank, gpend := u.gpend, winPend := u.winPend, ecc := u.ecc
                  eccDue := u.eccDue, regs := u.regs, pbs := u.pbs, evq := u.evq, wh := u.wh } = u

theorem Ctx.Frame.trans {c : Ctx} {u s r : State} (h : c.Frame u s) (k : c.Frame s r) : c.Frame u r where
  well y b out := (k.well y b out).trans (h.well y b out)
  bores n :=
    have ⟨res, code0, code1⟩ := k.bores n
    have ⟨res', code0', code1'⟩ := h.bores n
    ⟨res.trans res', code0.trans code0', code1.trans code1'⟩
  flags a from_ noTag other := (k.flags a from_ noTag other).trans (h.flags a from_ noTag other)
  rs := k.rs.trans h.rs
  ie := k.ie.trans h.ie
  pl := k.pl.trans h.pl
  others y other := (k.others y other).trans (h.others y other)
  rest :=
    let g : State → State := fun r => { r with
      threads := u.threads, lbs := u.lbs, rank := u.rank, gpend := u.gpend, winPend := u.winPend, ecc := u.ecc
      eccDue := u.eccDue, regs := u.regs, pbs := u.pbs, evq := u.evq, wh := u.wh }
    ((congrArg g k.rest :) : g r = g s).trans h.rest

section Frame

variable {c : Ctx} {u r : State}

/-- A change of nothing but what the frame leaves open. -/
theorem Ctx.Frame.of_same (threads : r.threads = u.threads) (lbs : r.lbs = u.lbs)
    (rest : { r with threads := u.threads, lbs := u.lbs, rank := u.rank, gpend := u.gpend, winPend := u.winPend, ecc := u.ecc
                     eccDue := u.eccDue, regs := u.regs, pbs := u.pbs, evq := u.evq, wh := u.wh } = u) : c.Frame u r where
  well y b _ := by rw [State.th_of_threads threads]
  bores n := by rw [State.lb_of_lbs lbs]; exact ⟨rfl, rfl, rfl⟩
  flags a _ _ _ := by rw [State.th_of_threads threads]
  rs := by rw [State.th_of_threads threads]
  ie := by rw [State.th_of_threads threads]
  pl := by rw [State.th_of_threads threads]
  others y _ := by rw [State.th_of_threads threads]
  rest := rest

/-- A write of one thread's well. -/
theorem Ctx.Frame.wellPut (u : State) {a n : Nat} (v : Nat) (inside : ∀ b, a ≤ b → b < a + n → c.writesWell c.x b) :
    c.Frame u (u.wellPut c.x a n v) := by
  have th (y : Nat) := State.wellPut_th u c.x a n v y
  have bore : (u.wellPut c.x a n v).lb = u.lb := State.lb_of_lbs (congrArg State.lbs (State.wellPut_rest u c.x a n v) :)
  refine ⟨fun y b out => ?_, fun k => ?_, fun b _ _ _ => ?_, ?_, ?_, ?_, fun y other => ?_, ?_⟩
  · rw [th]
    split
    · next same =>
      subst same
      rw [byteAt_writeLE, if_neg fun within => out (inside b within.1 within.2)]
    · rfl
  · rw [bore]
    exact ⟨rfl, rfl, rfl⟩
  · rw [th, if_pos rfl]
    rfl
  · rw [th, if_pos rfl]
  · rw [th, if_pos rfl]
  · rw [th, if_pos rfl]
  · rw [th, if_neg (Ne.symm other)]
  · let g : State → State := fun r => { r with
      threads := u.threads, lbs := u.lbs, rank := u.rank, gpend := u.gpend, winPend := u.winPend, ecc := u.ecc
      eccDue := u.eccDue, regs := u.regs, pbs := u.pbs, evq := u.evq, wh := u.wh }
    exact (congrArg g (State.wellPut_rest u c.x a n v) :)

/-- A change of the thread's bit space and of what is on its way to it. -/
theorem Ctx.Frame.modTh (f : Thread → Thread) (bits : ∃ b d, f (u.th c.x) = { u.th c.x with bits := b, flagsDue := d })
    (flags : ∀ a, 4 ≤ a → a ≠ 0x008 → (c.op 0).loc ≠ .bit a → (f (u.th c.x)).flag a = (u.th c.x).flag a) :
    c.Frame u (u.modTh c.x f) := by
  obtain ⟨b, d, self⟩ := bits
  have th (y : Nat) : (u.modTh c.x f).th y = if c.x = y then f (u.th c.x) else u.th y := State.th_modTh u c.x f y
  refine ⟨fun y b _ => ?_, fun _ => ⟨rfl, rfl, rfl⟩, fun a from_ noTag other => ?_, ?_, ?_, ?_, fun y other => ?_, rfl⟩
  · rw [th]
    split
    · next same => rw [self, ← same]
    · rfl
  · rw [th, if_pos rfl]
    exact flags a from_ noTag other
  · rw [th, if_pos rfl, self]
  · rw [th, if_pos rfl, self]
  · rw [th, if_pos rfl, self]
  · rw [th, if_neg (Ne.symm other)]

theorem Ctx.Frame.eccPart (u : State) (m : Mem) (w : Nat) : c.Frame u (u.eccPart m w) := by
  refine .of_same (State.eccPart_threads u m w) (congrArg State.lbs (State.eccPart_rest u m w) :) ?_
  let g : State → State := fun r => { r with
    threads := u.threads, lbs := u.lbs, rank := u.rank, gpend := u.gpend, winPend := u.winPend, ecc := u.ecc
    eccDue := u.eccDue, regs := u.regs, pbs := u.pbs, evq := u.evq, wh := u.wh }
  exact (congrArg g (State.eccPart_rest u m w) :)

theorem Ctx.Frame.refl (c : Ctx) (u : State) : c.Frame u u := .of_same rfl rfl rfl

/-- A flag among Z, C, V, N and TAGF. -/
theorem Ctx.Frame.setFlag (u : State) {a : Nat} (v : Bool) (open_ : a < 4 ∨ a = 0x008) : c.Frame u (u.setFlag c.x a v) := by
  unfold State.setFlag
  split
  · exact .refl c u
  · refine (Ctx.Frame.eccPart u (.privBits c.x) (a / 32)).trans (.modTh _ ?_ fun b from_ noTag _ => ?_)
    · unfold Thread.setFlag
      split
      · exact ⟨_, _, rfl⟩
      · exact ⟨_, _, rfl⟩
    · have other : a ≠ b := by omega
      unfold Thread.setFlag
      split
      · rfl
      · simp only [Thread.flag, tget_tset, if_neg other]

theorem Ctx.Frame.setFlags (u : State) (fs : List (Nat × Bool)) (open_ : ∀ f ∈ fs, f.1 < 4) : c.Frame u (u.setFlags c.x fs) := by
  induction fs generalizing u with
  | nil => exact .refl c u
  | cons f fs ih =>
    obtain ⟨low, rest⟩ := List.forall_mem_cons.mp open_
    exact (Ctx.Frame.setFlag u f.2 (.inl low)).trans (ih _ rest)

/-- The pointers that advance (R120, R122). -/
theorem Ctx.Frame.landed (c : Ctx) (u : State) : c.Frame u (c.landed u) := by
  unfold Ctx.landed advance
  extract_lets ks
  have pointers : ∀ k ∈ ks.eraseDups, ∀ b, 4 * k ≤ b → b < 4 * k + 4 → c.writesWell c.x b := fun k mem b low high => by
    obtain ⟨⟨k', n⟩, inc, rfl⟩ := List.mem_map.mp (List.mem_eraseDups.mp mem)
    obtain ⟨o, mem, inc⟩ := List.mem_filterMap.mp inc
    exact ⟨rfl, .inr ⟨o, mem, _, n, inc, low, high⟩⟩
  generalize ks.eraseDups = l at pointers
  induction l generalizing u with
  | nil => exact .refl c u
  | cons k l ih =>
    obtain ⟨first, rest⟩ := List.forall_mem_cons.mp pointers
    refine Ctx.Frame.trans ?_ (ih _ rest)
    dsimp only
    split
    · exact .refl c u
    · exact .wellPut u _ first

theorem Ctx.Frame.modLb (n : Nat) (f : LBore → LBore) (kept : (f (u.lb n)).res = (u.lb n).res ∧
    (f (u.lb n)).code0 = (u.lb n).code0 ∧ (f (u.lb n)).code1 = (u.lb n).code1) : c.Frame u (u.modLb n f) where
  well _ _ _ := rfl
  bores m := by
    rw [State.lb_modLb]
    split
    · next same => exact same ▸ kept
    · exact ⟨rfl, rfl, rfl⟩
  flags _ _ _ _ := rfl
  rs := rfl
  ie := rfl
  pl := rfl
  others _ _ := rfl
  rest := rfl

/-- What goes out of the core. -/
theorem Ctx.Frame.of_output (out : { r with gpend := u.gpend, winPend := u.winPend, wh := u.wh } = u) : c.Frame u r := by
  refine .of_same (congrArg State.threads out :) (congrArg State.lbs out :) ?_
  let g : State → State := fun r => { r with
    threads := u.threads, lbs := u.lbs, rank := u.rank, gpend := u.gpend, winPend := u.winPend, ecc := u.ecc
    eccDue := u.eccDue, regs := u.regs, pbs := u.pbs, evq := u.evq, wh := u.wh }
  exact (congrArg g out :)

/-- The result, form by form of d. -/
theorem Ctx.Frame.put (c : Ctx) (v : Nat) (u : State) : c.Frame u (c.put 0 v u) := by
  unfold Ctx.put writeLoc
  split
  case h_1 a at_ => exact .wellPut u v fun b low high => ⟨rfl, .inl ⟨a, at_, low, high⟩⟩
  case h_2 a at_ => exact .modLb _ _ ⟨rfl, rfl, rfl⟩
  case h_3 a at_ =>
    unfold State.bitPut
    split
    · next below =>
      by_cases low : a < 0x1000
      · rw [State.bitWrite_private u c.x _ low]
        refine (Ctx.Frame.eccPart u _ _).trans (.modTh _ ?_ fun b _ _ other => ?_)
        · unfold Thread.writeBit Thread.setFlag
          split
          · exact ⟨_, _, rfl⟩
          · split
            · exact ⟨_, _, rfl⟩
            · exact ⟨_, _, rfl⟩
        · have other : b ≠ a := fun same => other (same ▸ at_)
          rw [Option.getD_some, Thread.writeBit_flag, if_neg (by simp [other])]
      · rw [State.bitWrite_shared u c.x _ (not_lt.mp low) below]
        exact (Ctx.Frame.eccPart u _ _).trans (.modLb _ _ ⟨rfl, rfl, rfl⟩)
    · exact .of_output (State.output_gbit_rest u c.x c.pc a _)
  case h_4 off at_ => exact .of_output (State.portPut_rest u c.x c.pc off _ v)
  case h_5 => exact .refl c u
  case h_6 => exact .refl c u
  case h_7 => exact .refl c u

/-- The flags of a result, at the distance of the result (R178, R179). -/
theorem Ctx.Frame.flagsWith (u : State) (l : Loc) (fs : List (Nat × Bool)) (open_ : ∀ f ∈ fs, f.1 < 4) :
    c.Frame u (u.flagsWith c.x l fs) := by
  unfold State.flagsWith
  split
  · exact .setFlags u fs open_
  · exact .modTh _ ⟨_, _, rfl⟩ fun _ _ _ _ => rfl

theorem Ctx.Frame.result (c : Ctx) (o : AluOut) (u : State) : c.Frame u (c.result o u) := by
  unfold Ctx.result
  extract_lets t
  split
  · exact (Ctx.Frame.put c o.r u).trans (.flagsWith t _ _ (by simp [flagWrites, flagZ, flagC, flagV, flagN]))
  · exact .put c o.r u

/-- The turn of the instruction up to OPERATE. -/
theorem Ctx.Frame.stage {d : Dec} (h : u.stage c.x d = .go c r) : c.Frame u r := by
  have self := State.stage_self h
  refine ⟨fun y b _ => ?_, fun n => ?_, fun a _ _ _ => ?_, ?_, ?_, ?_, fun y other => State.stage_th_other h y other, ?_⟩
  · by_cases same : y = c.x
    · rw [same, self]
    · rw [State.stage_th_other h y same]
  · by_cases same : n = lbOf c.x
    · rw [same, State.stage_lb_self h]
      exact ⟨rfl, rfl, rfl⟩
    · rw [State.stage_lb_other h n same]
      exact ⟨rfl, rfl, rfl⟩
  · rw [self]
    rfl
  · rw [self]
  · rw [self]
  · rw [self]
  · let g : State → State := fun r => { r with
      threads := u.threads, lbs := u.lbs, rank := u.rank, gpend := u.gpend, winPend := u.winPend, ecc := u.ecc
      eccDue := u.eccDue, regs := u.regs, pbs := u.pbs, evq := u.evq, wh := u.wh }
    exact (congrArg g (State.stage_rest h) :)

end Frame

/-- A body that writes one result and flags. -/
def Body.OneResult (body : Body) : Prop := ∀ (c : Ctx) (t : State), ∃ g, body c t = .run g ∧ ∀ u, c.Frame u (g u)

theorem dab_oneResult (f : Alu) : (dab f).OneResult := fun c _ => ⟨_, rfl, fun u => .result c _ u⟩

theorem da_oneResult (f : Alu) : (da f).OneResult := fun c _ => ⟨_, rfl, fun u => .result c _ u⟩

theorem dd_oneResult (f : Alu) : (dd f).OneResult := fun c _ => ⟨_, rfl, fun u => .result c _ u⟩

theorem flagsOnly_oneResult {f : Ctx → List (Nat × Bool)} (open_ : ∀ c, ∀ b ∈ f c, b.1 < 4) : (flagsOnly f).OneResult :=
  fun c _ => ⟨_, rfl, fun u => .setFlags u _ (open_ c)⟩

theorem put_oneResult (f : Ctx → Nat) : Body.OneResult (fun c _ => .run (c.put 0 (f c))) :=
  fun c _ => ⟨_, rfl, fun u => .put c _ u⟩

theorem tagBody_oneResult : tagBody.OneResult := fun c t => by
  unfold tagBody
  split
  · exact ⟨_, rfl, fun u => .setFlag u true (.inr rfl)⟩
  · exact ⟨_, rfl, fun u => .put c _ u⟩

theorem cmp_oneResult : (flagsOnly cmpFlags).OneResult :=
  flagsOnly_oneResult fun c => by simp [cmpFlags, flagWrites, flagZ, flagC, flagV, flagN]

theorem tst_oneResult : (flagsOnly tstFlags).OneResult :=
  flagsOnly_oneResult fun c => by simp [tstFlags, flagWrites, flagZ, flagC, flagV, flagN]

theorem btst_oneResult : (flagsOnly btstFlags).OneResult :=
  flagsOnly_oneResult fun c => by simp [btstFlags, flagZ, flagC]

/-- TCMP writes its flags under SETF alone. -/
theorem tcmp_oneResult :
    (flagsOnly (fun c => if c.dec.setf then timeCmp (c.time 0) (c.time 1) else [])).OneResult :=
  flagsOnly_oneResult fun c b mem => by
    split at mem
    · revert b
      simp [timeCmp, flagZ, flagC, flagV, flagN]
    · simp at mem

/-- An instruction whose body writes one result and flags leaves the rest as the turn finds it. -/
theorem Operates.frame {s t u : State} {i : Instr} {x : Fin 128} {c : Ctx} {op : Nat} (h : Operates s i x c t)
    (begins : u = s.landBore (lbOf x)) (body : Body) (row : threadRow i = some (x, op, none))
    (run : exec i s = runThread x op body s) (one : body.OneResult) : Answers i s (c.Frame u) := by
  obtain ⟨g, does, frame⟩ := one c t
  refine ⟨_, h.exec_body row run, ?_⟩
  have staged : u.stage c.x c.dec = .go c t := by
    rw [begins, h.x_eq]
    exact h.staged
  rw [does]
  exact ((Ctx.Frame.stage staged).trans (.landed c t)).trans (frame _)

/-- Settles O6: each form of d by the write that it makes, and what is left alone by the frame of each part of an
instruction: its turn, its pointers, its result and its flags. -/
theorem destinationFormsAndFrames : Obligations.DestinationFormsAndFrames := by
  unfold Obligations.DestinationFormsAndFrames
  refine ⟨fun x pc a n v at_ s t eq => ?well, fun x pc a n v at_ s t eq => ?res, fun x pc a n v at_ s t low eq => ?priv,
    fun x pc a n v at_ s t from_ below eq => ?shared, fun x pc a n v at_ s from_ alone => ?global,
    fun x pc off v at_ s alone => ?port, fun x i c s t u mem h begins => ?frames⟩
  case well =>
    subst eq
    have th (y : Nat) := s.wellPut_th x a n v y
    refine ⟨fun b => ?_, ?_, fun y other => ?_, s.wellPut_rest x a n v⟩
    · rw [writeLoc, th, if_pos rfl, byteAt_writeLE]
    · rw [writeLoc, th, if_pos rfl]
    · rw [writeLoc, th, if_neg (Ne.symm other)]
  case res =>
    subst eq
    exact s.modLb_changes (lbOf x) _
  case priv =>
    have wrote : t = (s.eccPart (.privBits x) (a / 32)).modTh x (fun u => u.writeBit s.strokes a (v % 2 == 1)) := by
      rw [eq, writeLoc, State.bitPut, if_pos (by omega), State.bitWrite_private s x _ low]
      rfl
    have th (y : Nat) : t.th y = if x = y then (s.th x).writeBit s.strokes a (v % 2 == 1) else s.th y := by
      rw [wrote, State.th_modTh, State.eccPart_th]
    refine ⟨fun b => ?_, ?_, fun y other => ?_, ?_⟩
    · rw [th, if_pos rfl, Thread.writeBit_flag]
    · rw [th, if_pos rfl]
      exact Thread.writeBit_rest _ _ _ _
    · rw [th, if_neg (Ne.symm other)]
    · let g : State → State := fun t => { t with threads := s.threads, ecc := s.ecc, eccDue := s.eccDue, evq := s.evq }
      rw [wrote]
      exact (congrArg g (s.eccPart_rest (.privBits x) (a / 32)) :)
  case shared =>
    have wrote : t = (s.eccPart (.sharedBits (lbOf x)) ((a - 0x1000) / 32)).modLb (lbOf x)
        (fun b => { b with shared := tset false b.shared a (v % 2 == 1) }) := by
      rw [eq, writeLoc, State.bitPut, if_pos below, State.bitWrite_shared s x _ from_ below]
      rfl
    have bore (m : Nat) : t.lb m = if lbOf x = m then
        { s.lb (lbOf x) with shared := tset false (s.lb (lbOf x)).shared a (v % 2 == 1) } else s.lb m := by
      rw [wrote, State.lb_modLb, State.eccPart_lb]
    refine ⟨fun b => ?_, ?_, fun m other => ?_, ?_⟩
    · rw [bore, if_pos rfl, tget_tset]
      simp only [eq_comm]
    · rw [bore, if_pos rfl]
    · rw [bore, if_neg (Ne.symm other)]
    · let g : State → State := fun t => { t with lbs := s.lbs, ecc := s.ecc, eccDue := s.eccDue, evq := s.evq }
      rw [wrote]
      exact (congrArg g (s.eccPart_rest (.sharedBits (lbOf x)) ((a - 0x1000) / 32)) :)
  case global =>
    rw [writeLoc, State.bitPut, if_neg from_.not_gt, output_none alone]
    rfl
  case port =>
    have one (t : State) (same : t.strokes = s.strokes) (alone : t.pairOf x = none) (o : Nat) (w : Word) :
        t.output x pc (s.strokes + 3) (.win o w) = { t with winPend := t.winPend ++
          [{ due := s.strokes + 3, rank := lbOf x, x := x, pc := pc, off := o, v := w }] } := by
      rw [output_none alone, show t.emit x pc (s.strokes + 3) (.win o w) = t.winIssue x pc (s.strokes + 3) o w from rfl,
        State.winIssue_of_lt (by omega)]
    constructor
    · rw [writeLoc, State.portPut, one s rfl alone, if_neg (by decide)]
    · have first := one s rfl alone off (BitVec.ofNat 32 v)
      have second := one _ (congrArg State.strokes first :) ((congrArg (State.pairOf · x) first).trans alone) (off + 4)
        (BitVec.ofNat 32 (v / 2 ^ 32))
      rw [writeLoc, State.portPut, if_pos rfl, second, first]
      simp only [List.append_assoc, List.singleton_append]
  case frames =>
    have frame : Answers i s (c.Frame u) := by
      revert i
      simp only [List.forall_mem_cons, List.not_mem_nil, false_imp_iff, implies_true, and_true]
      exact ⟨fun h => h.frame begins _ rfl rfl (da_oneResult aluMov),
        fun h => h.frame begins _ rfl rfl (dab_oneResult aluSel),
        fun h => h.frame begins _ rfl rfl (da_oneResult aluBmov),
        fun h => h.frame begins _ rfl rfl (dd_oneResult aluBset),
        fun h => h.frame begins _ rfl rfl (dd_oneResult aluBclr),
        fun h => h.frame begins _ rfl rfl (dab_oneResult aluAdd),
        fun h => h.frame begins _ rfl rfl (dab_oneResult aluAdc),
        fun h => h.frame begins _ rfl rfl (dab_oneResult aluSub),
        fun h => h.frame begins _ rfl rfl (dab_oneResult aluSbc),
        fun h => h.frame begins _ rfl rfl (dab_oneResult aluAdds),
        fun h => h.frame begins _ rfl rfl (dab_oneResult aluSubs),
        fun h => h.frame begins _ rfl rfl (dd_oneResult aluInc),
        fun h => h.frame begins _ rfl rfl (dd_oneResult aluDec),
        fun h => h.frame begins _ rfl rfl (da_oneResult aluNeg),
        fun h => h.frame begins _ rfl rfl (da_oneResult aluAbs),
        fun h => h.frame begins _ rfl rfl (dab_oneResult aluMin),
        fun h => h.frame begins _ rfl rfl (dab_oneResult aluMax),
        fun h => h.frame begins _ rfl rfl (dab_oneResult aluMinu),
        fun h => h.frame begins _ rfl rfl (dab_oneResult aluMaxu), fun h => h.frame begins _ rfl rfl cmp_oneResult,
        fun h => h.frame begins _ rfl rfl (dab_oneResult aluAnd),
        fun h => h.frame begins _ rfl rfl (dab_oneResult aluOr),
        fun h => h.frame begins _ rfl rfl (dab_oneResult aluXor), fun h => h.frame begins _ rfl rfl tst_oneResult,
        fun h => h.frame begins _ rfl rfl btst_oneResult, fun h => h.frame begins _ rfl rfl (da_oneResult aluClz),
        fun h => h.frame begins _ rfl rfl (da_oneResult aluPopc),
        fun h => h.frame begins _ rfl rfl (da_oneResult aluBswap),
        fun h => h.frame begins _ rfl rfl (dab_oneResult aluBfx),
        fun h => h.frame begins _ rfl rfl (dab_oneResult aluBfi),
        fun h => h.frame begins _ rfl rfl (dab_oneResult aluShl),
        fun h => h.frame begins _ rfl rfl (dab_oneResult aluShr),
        fun h => h.frame begins _ rfl rfl (dab_oneResult aluSar),
        fun h => h.frame begins _ rfl rfl (dab_oneResult aluRol), fun h => h.frame begins _ rfl rfl tagBody_oneResult,
        fun h => h.frame begins _ rfl rfl (put_oneResult _), fun h => h.frame begins _ rfl rfl (put_oneResult _),
        fun h => h.frame begins _ rfl rfl tcmp_oneResult,
        fun h => h.frame begins (laneBody laneAdd) rfl rfl (put_oneResult _),
        fun h => h.frame begins (laneBody laneSub) rfl rfl (put_oneResult _),
        fun h => h.frame begins (laneBody laneMin) rfl rfl (put_oneResult _),
        fun h => h.frame begins (laneBody laneMax) rfl rfl (put_oneResult _),
        fun h => h.frame begins (vecBody _) rfl rfl (put_oneResult _),
        fun h => h.frame begins (vecBody _) rfl rfl (put_oneResult _),
        fun h => h.frame begins (vecBody _) rfl rfl (put_oneResult _),
        fun h => h.frame begins (laneBody laneEq) rfl rfl (put_oneResult _),
        fun h => h.frame begins (laneBody laneGt) rfl rfl (put_oneResult _),
        fun h => h.frame begins (laneBody laneShl) rfl rfl (put_oneResult _),
        fun h => h.frame begins (laneBody laneShr) rfl rfl (put_oneResult _),
        fun h => h.frame begins (vecOldBody _) rfl rfl (put_oneResult _),
        fun h => h.frame begins (vecBody _) rfl rfl (put_oneResult _),
        fun h => h.frame begins (vecOldBody _) rfl rfl (put_oneResult _),
        fun h => h.frame begins (vecBody _) rfl rfl (put_oneResult _),
        fun h => h.frame begins (vecBody _) rfl rfl (put_oneResult _)⟩
    obtain ⟨r, run, left⟩ := frame
    refine ⟨r, run, left.well, left.bores, ?_, ?_, ?_, ?_, fun y other => left.others y (h.x_eq ▸ other), left.rest⟩
    · simpa only [h.x_eq] using left.flags
    · simpa only [h.x_eq] using left.rs
    · simpa only [h.x_eq] using left.ie
    · simpa only [h.x_eq] using left.pl

end Sys2Proof.Machine

/-!
SUPPORT. Branches, calls, thread control and the return stack from below (R86, R90, R96-R98, R196-R201), and the proofs of
O11 and O12.
-/

namespace Sys2Proof.Machine

/-! ### Branches and the return stack (R96-R98, R200) -/

section Control

variable {s t : State} {x : Fin 128} {c : Ctx} {op b : Nat} {i : Instr}

/-- A branch leaves the PC at its target, with a fill turn to come. -/
theorem Operates.exec_branch (h : Operates s i x c t) (row : threadRow i = some (x, op, none))
    (run : exec i s = runThread x op (branchBody b) s) :
    exec i s = .next ((c.landed t).modTh x (fun u => { u with pc := c.target b, owed := 1, fetched := [] })) := by
  rw [h.exec_body row run, ← h.x_eq]
  rfl

theorem Operates.exec_call (h : Operates s (.call x) x c t) :
    exec (.call x) s = .next ((callBody c t).after c t) := h.exec_body rfl rfl

/-- CALL but at the limit in trap mode on an elastic thread pushes the return address and branches. -/
theorem Operates.exec_call_push (h : Operates s (.call x) x c t)
    (noTrap : ((t.th x).rsTrap && t.elastic x && (t.th x).rs.length == 7) = false)
    (noIll : ((t.th x).rsTrap && !t.elastic x && (t.th x).rs.length == 8) = false) :
    exec (.call x) s = .next ((c.landed t).modTh x (fun u => (u.push (BitVec.ofNat 32 c.next.toNat)).branch (c.target 16))) := by
  have elastic : ((c.landed t).modTh x
      (fun u => (u.push (BitVec.ofNat 32 c.next.toNat)).branch (c.target 16))).elastic x = t.elastic x := by
    rw [← c.landed_elastic t, State.elastic, State.th_modTh_same, Thread.push, State.elastic]
    split
    · rfl
    · unfold Thread.setFlag
      split <;> rfl
  rw [h.exec_call]
  simp only [callBody, h.x_eq, noTrap, Bool.false_eq_true, if_false, Did.after, elastic, noIll]

theorem Thread.push_of_lt {u : Thread} (room : u.rs.length < 8) (e : Word) : u.push e = { u with rs := e :: u.rs } :=
  if_pos room

/-- A full stack drops its oldest entry and notes it (R98). -/
theorem Thread.push_of_full {u : Thread} (full : u.rs.length = 8) (e : Word) :
    (u.push e).rs = e :: u.rs.take 7 ∧ (u.push e).flag 6 = true := by
  simp [Thread.push, full, Thread.setFlag, Thread.flag, privReserved, flagRSO, tget_tset]

theorem Operates.exec_ret (h : Operates s (.ret x) x c t) :
    exec (.ret x) s = .next ((retBody c t).after c t) := h.exec_body rfl rfl

/-- RET takes the top of the return stack and branches to it. -/
theorem Operates.exec_ret_pop {e : Word} {es : List Word} (h : Operates s (.ret x) x c t) (top : (t.th x).rs = e :: es) :
    exec (.ret x) s = .next ((c.landed t).modTh x (fun u =>
      let u := ({ u with rs := es } : Thread).branch (BitVec.ofNat 18 e.toNat)
      if bit e.toNat 18 then u.restore e else u)) := by
  rw [h.exec_ret]
  simp only [retBody, h.x_eq, top, Did.after]

theorem Thread.setFlag_flag (u : Thread) {a : Nat} (v : Bool) (free : privReserved a = false) (b : Nat) :
    (u.setFlag a v).flag b = if a = b then v else u.flag b := by
  simp only [Thread.setFlag, free, Bool.false_eq_true, if_false, Thread.flag, tget_tset]
  by_cases same : a = b
  · simp [← same, free]
  · simp [same]

/-- An INT frame restores IE, PL and the flags Z, C, V and N (R97). -/
theorem Thread.restore_flag (u : Thread) (e : Word) (a : Nat) : (u.restore e).flag a =
    if a < 4 then bit e.toNat (24 + a) else u.flag a := by
  rw [Thread.restore, Thread.setFlag_flag _ _ (by decide), Thread.setFlag_flag _ _ (by decide),
    Thread.setFlag_flag _ _ (by decide), Thread.setFlag_flag _ _ (by decide)]
  match a with
  | 0 | 1 | 2 | 3 => rfl
  | a + 4 => simp [flagZ, flagC, flagV, flagN, Thread.flag]

theorem Thread.restore_rest (u : Thread) (e : Word) : (u.restore e).rs = u.rs ∧ (u.restore e).pc = u.pc ∧
    (u.restore e).ie = bit e.toNat 19 ∧ (u.restore e).pl = Sys2Proof.bits e.toNat 23 20 ∧ (u.restore e).owed = u.owed ∧
    (u.restore e).fetched = u.fetched := ⟨rfl, rfl, rfl, rfl, rfl, rfl⟩

/-- YIELD, EI and DI on an elastic thread. -/
theorem Operates.exec_elasticOnly {f : Thread → Thread} (h : Operates s i x c t) (row : threadRow i = some (x, op, none))
    (run : exec i s = runThread x op (elasticOnly f) s) :
    exec i s = .next (if t.elastic x then (c.landed t).modTh x f else c.landed t) := by
  rw [h.exec_body row run]
  simp only [elasticOnly, Did.after, h.x_eq]

end Control

/-- Settles O11: branches by their target, CALL by what it pushes, RET by what it takes from the return stack or finds
there, and the interrupt enable by the class of the thread. -/
theorem controlTransfers : Obligations.ControlTransfers := by
  unfold Obligations.ControlTransfers
  refine ⟨fun x c s t h => ?br, fun x c s t h => ?brs, fun x c s t h room noTrap => ?call,
    fun x c s t h last trap elastic => ?callTrap, fun x c s t h full noTrap => ?callFull,
    fun x e es c s t h top plain => ?ret, fun x e es c s t h top frame => ?retFrame,
    fun x c s t h empty trap elastic => ?retTrap, fun x c s t h empty noTrap => ?retEmpty,
    fun x c s t h empty trap metered => ?retIll, fun x c s t h elastic => ?ei, fun x c s t h elastic => ?di,
    fun x i c s t mem h metered => ?meteredNop⟩
  case br => exact h.exec_branch rfl rfl
  case brs => exact h.exec_branch rfl rfl
  case call =>
    have trapFree : ((t.th x).rsTrap && t.elastic x && (t.th x).rs.length == 7) = false := by
      by_cases last : (t.th x).rs.length = 7
      · cases trap : (t.th x).rsTrap
        · rfl
        · simp [noTrap last trap]
      · simp [last]
    have held : ((c.landed t).th x).rs.length < 8 := by rw [c.landed_rs]; exact room
    rw [h.exec_call_push trapFree (by simp [room.ne])]
    exact congrArg Host.Outcome.next (State.modTh_congr (by rw [Thread.push_of_lt held]; rfl))
  case callTrap =>
    rw [h.exec_call]
    simp only [callBody, h.x_eq, trap, elastic, last, Bool.and_self, beq_self_eq_true, if_true, Did.after]
    rfl
  case callFull =>
    have quiet : ((t.th x).rsTrap && !t.elastic x && (t.th x).rs.length == 8) = false := by
      obtain noTrap | elastic := noTrap
      · simp [noTrap]
      · simp [elastic]
    refine ⟨_, h.exec_call_push (by simp [full]) quiet, ?_⟩
    obtain ⟨rs, flag⟩ := Thread.push_of_full (u := (c.landed t).th x) (by rw [c.landed_rs]; exact full)
      (BitVec.ofNat 32 c.next.toNat)
    rw [State.th_modTh_same]
    refine ⟨?_, flag, rfl⟩
    rw [← c.landed_rs]
    exact rs
  case ret =>
    rw [h.exec_ret_pop top]
    simp only [plain, Bool.false_eq_true, if_false, Thread.branch]
  case retFrame =>
    refine ⟨_, h.exec_ret_pop top, ?_⟩
    simp only [State.th_modTh_same, frame, if_true]
    obtain ⟨rs, pc, ie, pl, owed, fetched⟩ := Thread.restore_rest
      (({ (c.landed t).th x with rs := es } : Thread).branch (BitVec.ofNat 18 e.toNat)) e
    refine ⟨rs, pc, ie, pl, owed, fetched, fun k small => ?_, fun a from_ => ?_⟩
    · rw [Thread.restore_flag, if_pos small]
    · rw [Thread.restore_flag, if_neg from_.not_gt]
      rfl
  case retTrap =>
    rw [h.exec_ret]
    simp only [retBody, h.x_eq, empty, trap, elastic, Bool.and_self, if_true, Did.after]
    rfl
  case retEmpty =>
    rw [h.exec_ret]
    simp only [retBody, h.x_eq, empty, noTrap, Bool.false_and, Bool.false_eq_true, if_false, Did.after]
    rfl
  case retIll =>
    rw [h.exec_ret]
    simp only [retBody, h.x_eq, empty, trap, metered, Bool.and_false, Bool.false_eq_true, if_false, if_true, Did.after,
      State.illStack]
    rfl
  case ei => rw [h.exec_elasticOnly rfl rfl, if_pos elastic]
  case di => rw [h.exec_elasticOnly rfl rfl, if_pos elastic]
  case meteredNop =>
    have still (f : Thread → Thread) : Host.Outcome.next (if t.elastic x then (c.landed t).modTh x f else c.landed t) =
        (.next (c.landed t) : Result) := by rw [if_neg (by simp [metered])]
    simp only [List.mem_cons, List.not_mem_nil, or_false] at mem
    obtain rfl | rfl | rfl := mem
    · exact (h.exec_elasticOnly rfl rfl).trans (still _)
    · exact (h.exec_elasticOnly rfl rfl).trans (still _)
    · exact (h.exec_elasticOnly rfl rfl).trans (still _)

/-! ### Traps, idling and the return stack from below (R90, R198, R201) -/

theorem Operates.exec_rstkd {s t : State} {x : Fin 128} {c : Ctx} (h : Operates s (.rstkd x) x c t) :
    exec (.rstkd x) s = .next ((rstkdBody c t).after c t) := h.exec_body rfl rfl

/-- Settles O12: TRAP by class, and RSTKD by what the direction bit asks for and what the stack holds. -/
theorem trapIdleYieldAndStackSpill : Obligations.TrapIdleYieldAndStackSpill := by
  unfold Obligations.TrapIdleYieldAndStackSpill
  refine ⟨fun x c s t h elastic => ?trap, fun x c s t h metered => ?trapMetered, fun x c s t h => ?idle,
    fun x c s t h elastic => ?yield, fun x es e c s t h take bottom => ?take, fun x c s t h take empty => ?takeEmpty,
    fun x c s t h put room => ?put, fun x c s t h put full => ?putFull⟩
  case trap =>
    rw [h.exec_body (body := trapBody) rfl rfl]
    simp only [trapBody, h.x_eq, elastic, if_true, Did.after]
    rfl
  case trapMetered =>
    rw [h.exec_body (body := trapBody) rfl rfl]
    simp only [trapBody, h.x_eq, metered, Bool.false_eq_true, if_false, Did.after]
    rfl
  case idle =>
    rw [h.exec_body (body := idleBody) rfl rfl, ← h.x_eq]
    rfl
  case yield => rw [h.exec_elasticOnly rfl rfl, if_pos elastic]
  case take =>
    rw [h.exec_rstkd]
    simp only [rstkdBody, h.x_eq, take, Bool.not_false, if_true, bottom, List.getLast?_concat, Did.after, Ctx.landed]
  case takeEmpty =>
    rw [h.exec_rstkd]
    simp only [rstkdBody, h.x_eq, take, Bool.not_false, if_true, empty, List.getLast?_nil, Did.after, Ctx.landed, flagRSU]
  case put =>
    rw [h.exec_rstkd]
    simp only [rstkdBody, h.x_eq, put, Bool.not_true, Bool.false_eq_true, if_false, if_pos room, Did.after, Ctx.landed]
  case putFull =>
    rw [h.exec_rstkd]
    simp only [rstkdBody, h.x_eq, put, Bool.not_true, Bool.false_eq_true, if_false, if_neg full.not_gt, Did.after, Ctx.landed,
      flagRSO]

end Sys2Proof.Machine

/-!
SUPPORT. Checksums, tags and times, atomic and lock instructions, and the instructions that launch work (R114, R138, R142,
R202-R217, R424-R427, R441, R480-R486), and the proofs of O13, O14 and O15.
-/

namespace Sys2Proof.Machine

/-- An instruction that operates is the body of its row on the operands read. -/
theorem Operates.exec_row {s t : State} {i : Instr} {x : Nat} {c : Ctx} {body : Body} (h : Operates s i x c t)
    (run : exec i s = runSel x (rowSel i) body s) : exec i s = .next ((body c t).after c t) := by
  obtain ⟨fetched, named, granted, issues⟩ := h.issued
  rw [run, runSel_issues fetched granted named issues, State.issueRun_go h.staged]

/-! ### Checksums, tags and times (R202-R208) -/

theorem crcZeros_eq_foldl (p : Nat) : ∀ n st, crcZeros p n st = (List.replicate n 0).foldl (crcStep p) st
  | 0, _ => rfl
  | n + 1, st => crcZeros_eq_foldl p n (crcStep p st 0)

theorem tagUpdate_eq (d a n : Nat) :
    tagUpdate d a n = d ^^^ (toBytes 4 a ++ List.replicate n 0).foldl (crcStep 0x82F63B78) 0 := by
  rw [tagUpdate, crcZeros_eq_foldl, List.foldl_append]
  rfl

section Crc

variable {s t : State} {i : Instr} {x : Fin 128} {c : Ctx} {p : Nat}

/-- CRC32 and CRC32C differ in their polynomial alone. -/
theorem Operates.exec_crc (h : Operates s i x c t) (row : (i, p) ∈ [(.crc32 x, 0xEDB88320), (.crc32c x, 0x82F63B78)]) :
    exec i s = .next ((crcBody p c t).after c t) := by
  simp only [List.mem_cons, Prod.mk.injEq, List.not_mem_nil, or_false] at row
  obtain ⟨rfl, rfl⟩ | ⟨rfl, rfl⟩ := row
  · exact h.exec_row rfl
  · exact h.exec_row rfl

theorem Thread.crcBusy_of_free {u : Thread} (free : ∀ l ∈ u.longs, ∀ a b d e f, l.op ≠ .crc a b d e f) :
    u.crcBusy = false := by
  rw [Thread.crcBusy, List.any_eq_false]
  intro l mem
  split
  · next a b d e f busy => exact absurd busy (free l mem a b d e f)
  · simp

end Crc

/-- Settles O13: a checksum by the branch that its length takes, a tag by its bytes, times by their arithmetic. -/
theorem checksumTagAndTime : Obligations.ChecksumTagAndTime := by
  unfold Obligations.ChecksumTagAndTime
  refine ⟨fun x i c s t mem h none_ => ?crcNone, fun x i p c s t row h pos short => ?crcPipe,
    fun x i p c s t row h long pos free => ?crcBeside, fun x c s t h small => ?tag, fun x c s t h large => ?tagFault,
    fun x c s t h => ?tadd, fun x c s t h => ?tsub, fun x c s t h setf => ?tcmp, fun x c s t h alone => ?tnow⟩
  case crcNone =>
    obtain ⟨p, row⟩ : ∃ p, (i, p) ∈ [(.crc32 x, 0xEDB88320), (.crc32c x, 0x82F63B78)] := by
      simpa [exists_or] using mem
    rw [h.exec_crc row]
    simp only [crcBody, none_, if_true, Did.after, id_eq]
  case crcPipe =>
    rw [h.exec_crc row]
    simp only [crcBody, if_neg pos.ne', if_pos short, Did.after, crcBytes, Ctx.wrote]
  case crcBeside =>
    rw [h.exec_crc row]
    simp only [crcBody, if_neg pos.ne', if_neg long.not_ge, h.x_eq, Thread.crcBusy_of_free free, Bool.false_eq_true, if_false,
      Did.after]
    rfl
  case tag =>
    rw [h.exec_row (body := tagBody) rfl]
    simp only [tagBody, if_neg small.not_gt, Did.after, tagUpdate_eq, Ctx.wrote]
  case tagFault =>
    rw [h.exec_row (body := tagBody) rfl]
    simp only [tagBody, if_pos large, Did.after, h.x_eq, flagTAGF]
  case tadd => exact h.exec_row (body := fun c _ => .run (c.put 0 (timeAdd (c.time 1) (c.time 2)))) rfl
  case tsub => exact h.exec_row (body := fun c _ => .run (c.put 0 (timeSub (c.time 1) (c.time 2)))) rfl
  case tcmp =>
    refine h.exec_flagsOnly (fl := fun c => if c.dec.setf then timeCmp (c.time 0) (c.time 1) else []) rfl rfl ?_
    simp only [setf, if_true]
    rfl
  case tnow =>
    rw [h.exec_row (body := tnowBody) rfl]
    simp only [tnowBody, Did.after, h.x_eq, outside_none alone, State.coreNow, c.landed_tb t, Ctx.wrote]

/-! ### Atomic access and locks (R209-R214) -/

theorem Ctx.threadLease_landed (c : Ctx) (t : State) (x : Nat) :
    (c.landed t).threadLease x = t.reg (0xA0040 + 4 * lbOf x) := by
  rw [State.threadLease, State.reg, c.landed_regs]
  rfl

theorem Ctx.lockAddr_res {c : Ctx} {k a : Nat} (at_ : (c.op k).loc = .res a) : c.lockAddr k = a := by
  rw [Ctx.lockAddr, at_]

/-- Settles O14: the three atomic accesses by their writes, a lock instruction by the lock unit's answer. -/
theorem atomicAndLockInstructions : Obligations.AtomicAndLockInstructions := by
  unfold Obligations.AtomicAndLockInstructions
  refine ⟨fun x c s t h => ?xchg, fun x c s t h same => ?casSame, fun x c s t h other => ?casOther,
    fun x c s t h => ?fadd, fun x a r c s t h at_ alone answer => ?lockw, fun x a c s t h at_ alone => ?unlkw,
    fun x r c s t h small alone answer => ?lockg, fun x c s t h small alone => ?unlkg,
    fun x i n c s t row h large => ?number⟩
  case xchg => exact h.exec_row (body := xchgBody) rfl
  case casSame =>
    rw [h.exec_row (body := casBody) rfl]
    simp only [casBody, if_pos same, Did.after]
  case casOther =>
    rw [h.exec_row (body := casBody) rfl]
    simp only [casBody, if_neg other, Did.after, Ctx.wrote]
  case fadd => exact h.exec_row (body := faddBody) rfl
  case lockw =>
    rw [h.exec_row (body := lockwBody) rfl, answer]
    simp only [lockwBody, Did.after, Ctx.lockAddr_res at_, h.x_eq, actor_none alone, outside_none alone, output_none alone,
      State.emit, c.threadLease_landed t x]
  case unlkw =>
    rw [h.exec_row (body := unlkwBody) rfl]
    simp only [unlkwBody, Did.after, Ctx.lockAddr_res at_, h.x_eq, output_none alone, State.emit, actor_none alone]
  case lockg =>
    rw [h.exec_row (body := lockgBody) rfl, answer]
    simp only [lockgBody, if_neg small.not_gt, Did.after, h.x_eq, actor_none alone, outside_none alone, output_none alone,
      State.emit, c.threadLease_landed t x]
  case unlkg =>
    rw [h.exec_row (body := unlkgBody) rfl]
    simp only [unlkgBody, if_neg small.not_gt, Did.after, h.x_eq, output_none alone, State.emit, actor_none alone]
  case number =>
    simp only [List.mem_cons, Prod.mk.injEq, List.not_mem_nil, or_false] at row
    obtain ⟨rfl, rfl⟩ | ⟨rfl, rfl⟩ := row
    · rw [h.exec_row (body := lockgBody) rfl]
      simp only [lockgBody, if_pos large, Did.after, h.x_eq, Flt.none_]
    · rw [h.exec_row (body := unlkgBody) rfl]
      simp only [unlkgBody, if_pos large, Did.after, h.x_eq, Flt.none_]

/-! ### CRD, CWR, CHAN and PUMP (R114, R138-R142, R215-R217) -/

section Launches

variable {s t : State} {i : Instr} {x : Fin 128} {c : Ctx} {k : Nat} {body : Body}

/-- Outside a pair the body is what it is; in a running pair it is a disagreement (R506). -/
theorem notInPair_of_none (alone : t.pairOf c.x = none) : notInPair body c t = body c t := by
  rw [notInPair, alone]

/-- A cistern access that finds its index free starts, with its local side where the operand is no bit variable. -/
theorem Operates.exec_cisBody {rd : Bool} {ci li p : Nat} (h : Operates s i x c t)
    (run : exec i s = runSel x (rowSel i) (notInPair (cisBody rd ci li)) s) (alone : t.pairOf x = none)
    (free : (t.th x).cis.find? (fun b => b.idx == bits c.dec.fixed 10 8) = none) (ptr : (c.op ci).loc = .cis p)
    (noBit : ∀ b, (c.op li).loc ≠ .bit b) :
    exec i s = .next ((c.landed t).cisStart x
      { rd := rd, idx := bits c.dec.fixed 10 8, win := bits p 28 26, off := bits p 25 0, n := bits c.dec.fixed 5 0 + 1
        loc := (c.op li).loc, issued := (c.landed t).strokes, pc := c.pc, done := 0, bad := false }) := by
  rw [h.exec_row run, notInPair_of_none (by rw [h.x_eq]; exact alone)]
  simp only [cisBody, h.x_eq, State.cisOf, free, Option.isSome_none, Bool.false_eq_true, if_false, Did.after, Ctx.cisPtr, ptr]

/-- An index that still has an access is refused with ILL (R142). -/
theorem Operates.exec_cisBody_busy {rd : Bool} {ci li : Nat} (h : Operates s i x c t)
    (run : exec i s = runSel x (rowSel i) (notInPair (cisBody rd ci li)) s) (alone : t.pairOf x = none)
    (busy : ((t.th x).cis.find? (fun b => b.idx == bits c.dec.fixed 10 8)).isSome = true) :
    exec i s = .next (t.ill x 0x42 0 c.pc) := by
  rw [h.exec_row run, notInPair_of_none (by rw [h.x_eq]; exact alone)]
  simp only [cisBody, h.x_eq, State.cisOf, busy, if_true, Did.after, State.illBlock]

/-- The operation code of a CHAN instruction stands in its fixed bits. -/
theorem Operates.chan_fixed (h : Operates s i x c t) (row : threadRow i = some (x, 0x12B, some k)) : c.dec.fixed = k := by
  have named := h.issued.named
  simp only [rowSel, row, if_true, Bool.and_eq_true, beq_iff_eq] at named
  exact named.2

/-- A CHAN operation that its window allows comes 3 turns later (R441). -/
theorem Operates.exec_chan (h : Operates s i x c t) (row : threadRow i = some (x, 0x12B, some k))
    (run : exec i s = runSel x (rowSel i) (notInPair chanBody) s) (alone : t.pairOf x = none)
    (allowed : chanFault t x k (c.val 1) (c.val 2) = none) :
    exec i s = .next (c.launched t 3 (.chan k (c.val 1) (c.val 2) (c.op 0).loc)) := by
  rw [h.exec_row run, notInPair_of_none (by rw [h.x_eq]; exact alone)]
  simp only [chanBody, h.x_eq, h.chan_fixed row, allowed, Did.after]
  rfl

/-- The nine rows of PUMP have one body. -/
theorem exec_pump (mem : i ∈ [.copy x, .sendHost x, .tx x, .toValve x, .fromValve x, .imageOut x, .imageIn x, .pumpTake x,
    .event x]) (s : State) : exec i s = runSel x (rowSel i) pumpBody s := by
  simp only [List.mem_cons, List.not_mem_nil, or_false] at mem
  obtain rfl | rfl | rfl | rfl | rfl | rfl | rfl | rfl | rfl := mem <;> rfl

end Launches

/-- Settles O15: a cistern access by its index, CHAN by its row, PUMP by whether its queue takes the descriptor. -/
theorem launchingInstructions : Obligations.LaunchingInstructions := by
  unfold Obligations.LaunchingInstructions
  refine ⟨fun x p k a c s t h alone index free ptr noBit acc => ?crd,
    fun x p k a c s t h alone index free ptr noBit acc => ?cwr, fun x i c s t mem h alone busy => ?busy,
    fun x i k c s t row h alone allowed => ?chan, fun x i q k c s t mem h queue index taken alone => ?pump,
    fun x i c s t mem h refused => ?refused⟩
  case crd =>
    subst index acc
    exact h.exec_cisBody rfl alone free ptr noBit
  case cwr =>
    subst index acc
    exact h.exec_cisBody rfl alone free ptr noBit
  case busy =>
    simp only [List.mem_cons, List.not_mem_nil, or_false] at mem
    obtain rfl | rfl := mem
    · exact h.exec_cisBody_busy (rd := true) (ci := 1) (li := 0) rfl alone busy
    · exact h.exec_cisBody_busy (rd := false) (ci := 0) (li := 1) rfl alone busy
  case chan =>
    simp only [List.mem_cons, Prod.mk.injEq, List.not_mem_nil, or_false] at row
    obtain ⟨rfl, rfl⟩ | ⟨rfl, rfl⟩ | ⟨rfl, rfl⟩ | ⟨rfl, rfl⟩ | ⟨rfl, rfl⟩ | ⟨rfl, rfl⟩ | ⟨rfl, rfl⟩ := row <;>
      exact h.exec_chan rfl rfl alone allowed
  case pump =>
    subst queue index
    rw [h.exec_row (exec_pump mem s)]
    simp only [pumpBody, h.x_eq, taken, Bool.false_eq_true, if_false, Did.after, output_none alone, State.emit,
      actor_none alone, pdoneBit]
  case refused =>
    rw [h.exec_row (exec_pump mem s)]
    simp only [pumpBody, h.x_eq, refused, if_true, Did.after, State.illBlock]

end Sys2Proof.Machine

/-!
SUPPORT. Posts and waits, valve queues, the action schedule and system registers from threads (R83, R218-R225, R384), and
the proof of O16.
-/

namespace Sys2Proof.Machine

/-! ### The route memory (R402) -/

/-- A counted error of the route memory changes its counter alone among the registers. -/
theorem State.countEccOn_routes_reg (s : State) (b : Nat) (ue : Bool) {o : Nat} (other : o ≠ 0x50024) :
    (s.countEccOn b .routes ue).reg o = s.reg o := by
  simp [State.countEccOn, Mem.lbore, Mem.counterReg, State.reg, tfind_tput, Ne.symm other]

theorem State.eccRead_routes_reg (s : State) (r : Reader) (w : Nat) {o : Nat} (other : o ≠ 0x50024) :
    (s.eccRead r .routes w).reg o = s.reg o := by
  unfold State.eccRead
  split
  · rfl
  · exact s.countEccOn_routes_reg (s.holder .routes) true other
  · exact (s.setEcc .routes w (some .rewriting)).countEccOn_routes_reg ((s.setEcc .routes w (some .rewriting)).holder .routes) false other

/-- A read of the route memory changes no bore, no pair, no stroke count, and of the registers the error counter alone. -/
theorem State.routeRead_keeps (s : State) (w : Nat) : (s.routeRead w).lb = s.lb ∧ (s.routeRead w).wh = s.wh ∧
    (s.routeRead w).strokes = s.strokes ∧ ∀ o, o ≠ 0x50024 → (s.routeRead w).reg o = s.reg o := by
  have lbs : (s.eccRead .manifold .routes w).lb = s.lb :=
    State.lb_of_lbs (congrArg State.lbs (s.eccRead_rest .manifold .routes w) :)
  have wh : (s.eccRead .manifold .routes w).wh = s.wh := (congrArg State.wh (s.eccRead_rest .manifold .routes w) :)
  have strokes : (s.eccRead .manifold .routes w).strokes = s.strokes :=
    (congrArg State.strokes (s.eccRead_rest .manifold .routes w) :)
  have reg (o : Nat) (other : o ≠ 0x50024) := s.eccRead_routes_reg .manifold w other
  unfold State.routeRead
  split
  · exact ⟨rfl, rfl, rfl, fun _ _ => rfl⟩
  · dsimp only
    split
    · exact ⟨lbs, wh, strokes, reg⟩
    · exact ⟨lbs, wh, strokes, reg⟩

/-- The pairs that run follow from the wellhead and the words of the pairs. -/
theorem State.pairOf_of_same {s t : State} (x : Nat) (wh : t.wh = s.wh)
    (words : ∀ k, t.reg (0x02080 + 8 * k) = s.reg (0x02080 + 8 * k)) : t.pairOf x = s.pairOf x := by
  have pair : t.pair = s.pair := funext fun k => by rw [State.pair, wh, State.pair]
  simp only [State.pairOf, State.leads, State.trails, State.pairLead, State.pairTrail, State.pairWord, words, pair]

theorem State.pairOf_routeRead (s : State) (w x : Nat) : (s.routeRead w).pairOf x = s.pairOf x := by
  obtain ⟨-, wh, -, reg⟩ := s.routeRead_keeps w
  exact State.pairOf_of_same x wh fun k => reg _ (by omega)

/-! ### Elastic threads and the WRITE of a destination -/

theorem Thread.setFlag_st (u : Thread) (a : Nat) (v : Bool) : (u.setFlag a v).st = u.st := by
  unfold Thread.setFlag
  split <;> rfl

theorem Thread.writeBit_st (u : Thread) (n a : Nat) (v : Bool) : (u.writeBit n a v).st = u.st :=
  (congrArg Thread.st (u.writeBit_rest n a v) :)

theorem State.portPut_th (s : State) (x pc off n v : Nat) : (s.portPut x pc (s.strokes + 3) off n v).th = s.th :=
  State.th_of_threads (congrArg State.threads (s.portPut_rest x pc off n v) :)

theorem State.output_gbit_th (s : State) (x pc a : Nat) (v : Option Bool) : (s.output x pc 0 (.gbit a v)).th = s.th :=
  State.th_of_threads (congrArg State.threads (s.output_gbit_rest x pc a v) :)

/-- No destination makes a thread run or stop. -/
theorem State.writeLoc_elastic (s : State) (x pc : Nat) (at_ : Bool) (l : Loc) (n v y : Nat) :
    (writeLoc s x pc at_ l n v).elastic y = s.elastic y := by
  unfold State.elastic writeLoc
  split
  case h_1 a =>
    rw [State.wellPut_th]
    split
    · next same => rw [same]
    · rfl
  case h_2 a => rfl
  case h_3 a =>
    unfold State.bitPut
    split
    · next below =>
      by_cases low : a < 0x1000
      · rw [State.bitWrite_private s x _ low, State.th_modTh, State.eccPart_th]
        split
        · next same => rw [Thread.writeBit_st, same]
        · rfl
      · rw [State.bitWrite_shared s x _ (not_lt.mp low) below,
          show (State.modLb _ _ _).th = (s.eccPart _ _).th from rfl, State.eccPart_th]
    · rw [State.output_gbit_th]
  case h_4 off => rw [State.portPut_th]
  case h_5 => rfl
  case h_6 => rfl
  case h_7 => rfl

/-! ### O16 -/

section Instructions

variable {s t : State} {x : Fin 128} {c : Ctx} {i : Instr}

theorem Ctx.illMetered_of_elastic (elastic : s.elastic c.x = true) : s.illMetered c = s := by
  rw [State.illMetered, if_pos elastic]

theorem Ctx.valve_port {k v base : Nat} (at_ : (c.op k).loc = .port (base + 0x200 * v)) (low : 0x30000 ≤ base)
    (high : base < 0x30200) : c.valve k = v := by
  rw [Ctx.valve, at_]
  show (base + 0x200 * v - 0x30000) / 0x200 = v
  omega

theorem State.output_qput {w : Word} {v pc : Nat} (alone : s.pairOf x = none) :
    s.output x pc 0 (.qput v w) = s.queuePut v w := by
  rw [output_none alone, State.emit]

/-- POST of a source of its own, whose owner word reads (R219, R384). -/
theorem Operates.exec_post (h : Operates s (.post x) x c t) (readable : t.postOwnBad x (c.val 0 % 1024) = none)
    (mine : t.postMine x (c.val 0 % 1024) = true) (alone : (c.landed t).pairOf x = none) :
    exec (.post x) s = .next (if ((c.landed t).lb (lbOf x)).shed then
        (c.landed t).routeRead (postOwnWord (postOwnIdx (lbOf x) (c.val 0 % 16)))
      else ((c.landed t).routeRead (postOwnWord (postOwnIdx (lbOf x) (c.val 0 % 16)))).raiseAt (c.val 0 % 1024) true
        (bit (c.val 0) 16) (bit (c.val 0) 16) ((c.landed t).strokes + 1)) := by
  have index : c.val 0 % 1024 % 16 = c.val 0 % 16 := Nat.mod_mod_of_dvd _ (by decide)
  have source (b : Bool) : (c.val 0 % 1024 + 2 ^ 16 * b2n b) % 1024 = c.val 0 % 1024 := by
    cases b <;> simp only [b2n, if_true, if_false, Bool.false_eq_true] <;> omega
  have level (b : Bool) : bit (c.val 0 % 1024 + 2 ^ 16 * b2n b) 16 = b := by
    have small : c.val 0 % 1024 < 2 ^ 16 := lt_trans (Nat.mod_lt _ (by decide)) (by decide)
    rw [bit, Nat.add_mul_div_left _ _ (by decide), Nat.div_eq_of_lt small]
    cases b <;> rfl
  obtain ⟨lb, -, strokes, -⟩ := (c.landed t).routeRead_keeps (postOwnWord (postOwnIdx (lbOf x) (c.val 0 % 16)))
  have still := ((c.landed t).pairOf_routeRead (postOwnWord (postOwnIdx (lbOf x) (c.val 0 % 16))) x).trans alone
  rw [h.exec_row (body := postBody) rfl]
  simp only [postBody, h.x_eq, readable, mine, if_true, Did.after, index, output_none still, State.emit, lb, source, level,
    strokes]

/-- QPUT and QPUTN hand their word to the queue of the valve (R220). -/
theorem Operates.exec_qput {block : Bool} {v : Nat} (h : Operates s i x c t)
    (run : exec i s = runSel x (rowSel i) (qputBody block) s) (at_ : (c.op 0).loc = .port (0x30010 + 0x200 * v))
    (alone : (c.landed t).pairOf x = none) (free : block = false ∨ t.elastic x = true) :
    exec i s = .next ((c.landed t).queuePut v (BitVec.ofNat 32 (c.val 1))) := by
  have own : c.valve 0 = v := Ctx.valve_port at_ (by decide) (by decide)
  rw [h.exec_row run]
  simp only [qputBody, Did.after, h.x_eq, State.output_qput alone, own]
  obtain rfl | elastic := free
  · rfl
  · have class_ : ((c.landed t).queuePut v (BitVec.ofNat 32 (c.val 1))).elastic c.x = true := by
      rw [h.x_eq]
      exact (c.landed_elastic t x).trans elastic
    rw [Ctx.illMetered_of_elastic class_, ite_self]

/-- The value that stands for what a queue gave, 2^32 for an empty queue (R505). -/
def queueValue (w : Option Word) : Nat := (w.map BitVec.toNat).getD (2 ^ 32)

/-- A QGET writes the word that it has, and nothing for an empty queue. -/
def Ctx.putWord (c : Ctx) (v : Nat) (s : State) : State := if v < 2 ^ 32 then c.put 0 v s else s

theorem Ctx.putWord_some (c : Ctx) (w : Word) (s : State) : c.putWord (queueValue (some w)) s = c.put 0 w.toNat s :=
  if_pos w.isLt

theorem Ctx.putWord_none (c : Ctx) (s : State) : c.putWord (queueValue none) s = s := if_neg (Nat.lt_irrefl _)

theorem qgetBody_eq (block : Bool) (c : Ctx) (t : State) : qgetBody block c t = .run (fun s =>
    let a := if (s.trails c.x).isSome then (none, s) else s.queueTake (c.valve 1)
    let r := a.2.outside c.x c.pc (queueValue a.1)
    if block then (c.putWord r.1 r.2).illMetered c else c.putWord r.1 r.2) := rfl

/-- QGET and QGETN outside a pair take from the queue of the valve (R220). -/
theorem Operates.exec_qget {block : Bool} {v : Nat} (h : Operates s i x c t)
    (run : exec i s = runSel x (rowSel i) (qgetBody block) s) (at_ : (c.op 1).loc = .port (0x30014 + 0x200 * v))
    (alone : (c.landed t).pairOf x = none) :
    exec i s = .next (
      let r : State := match ((c.landed t).valve v).rxReady with
        | w :: ws => c.put 0 w.toNat ((c.landed t).modValve v (fun q => { q with rxReady := ws }))
        | [] => (c.landed t).modValve v (fun q => { q with nUnderrun := min 255 (q.nUnderrun + 1) })
      if block then r.illMetered c else r) := by
  have own : c.valve 1 = v := Ctx.valve_port at_ (by decide) (by decide)
  have quiet (f : ValveSt → ValveSt) (w : Nat) : ((c.landed t).modValve v f).outside x c.pc w =
      (w, (c.landed t).modValve v f) := by
    have still : ((c.landed t).modValve v f).pairOf x = none := alone
    exact outside_none still c.pc w
  rw [h.exec_row run]
  simp only [qgetBody_eq, Did.after, h.x_eq, (pairOf_none alone).2, Option.isSome_none, Bool.false_eq_true, if_false, own,
    State.queueTake]
  cases ((c.landed t).valve v).rxReady with
  | nil => simp only [quiet, Ctx.putWord_none, sat255]
  | cons w ws => simp only [quiet, Ctx.putWord_some]

/-- Outside a pair the time of a SCHED is read and nothing is noted. -/
theorem Ctx.schedTime_of_none (alone : s.pairOf c.x = none) : c.schedTime s = ((c.schedTime s).1, s) := by
  unfold Ctx.schedTime
  rw [outside_none alone]
  split <;> rfl

end Instructions

/-- Settles O16: POST by who owns its source, the queues by what the valve holds, the schedule and the system registers by
their units. -/
theorem eventQueueAndSystemInstructions : Obligations.EventQueueAndSystemInstructions := by
  unfold Obligations.EventQueueAndSystemInstructions
  refine ⟨fun x c s t h readable mine alone open_ => ?post, fun x c s t h readable mine alone shed => ?postShed,
    fun x w c s t h bad => ?postBad, fun x c s t h readable other => ?postOther, fun x c s t h elastic => ?ewait,
    fun x c s t h metered => ?ewaitMetered, fun x i v c s t mem h at_ alone elastic credit => ?qput,
    fun x v c s t h at_ alone full => ?qputFull, fun x i v w ws c s t mem h at_ alone holds elastic => ?qget,
    fun x v c s t h at_ alone empty => ?qgetEmpty, fun x r e c s t h alone time answer => ?sched,
    fun x c s t h alone => ?unsched, fun x c s t h small word alone => ?sysrd,
    fun x c s t h small word alone open_ => ?syswr, fun x c s t h small word alone protected_ => ?syswrProtected,
    fun x i u c s t row h bad => ?sysBad⟩
  case post => rw [h.exec_post readable mine alone, if_neg (by simp [open_])]
  case postShed => rw [h.exec_post readable mine alone, if_pos shed]
  case postBad =>
    rw [h.exec_row (body := postBody) rfl]
    simp only [postBody, h.x_eq, bad, Did.after]
  case postOther =>
    have small : c.val 0 % 1024 % 2 ^ 20 = c.val 0 % 1024 := by omega
    rw [h.exec_row (body := postBody) rfl]
    simp only [postBody, h.x_eq, readable, other, Bool.false_eq_true, if_false, Did.after, Flt.none_, small]
  case ewait =>
    rw [h.exec_row (body := ewaitBody) rfl]
    simp only [ewaitBody, Did.after]
    rw [Ctx.illMetered_of_elastic (h.x_eq ▸ elastic)]
  case ewaitMetered =>
    rw [h.exec_row (body := ewaitBody) rfl]
    simp only [ewaitBody, Did.after, State.illMetered, h.x_eq, metered, Bool.false_eq_true, if_false, State.illBlock]
  case qput =>
    have taken : (c.landed t).queuePut v (BitVec.ofNat 32 (c.val 1)) = (c.landed t).modValve v (fun q => { q with
        credit := q.credit - 1, txCross := q.txCross ++ [⟨BitVec.ofNat 32 (c.val 1), (c.landed t).strokes, 0⟩] }) := by
      simp only [State.queuePut, State.modValve, if_neg credit]
    rw [← taken]
    simp only [List.mem_cons, List.not_mem_nil, or_false] at mem
    obtain rfl | rfl := mem
    · exact h.exec_qput (block := true) rfl at_ alone (.inr elastic)
    · exact h.exec_qput (block := false) rfl at_ alone (.inl rfl)
  case qputFull =>
    rw [h.exec_qput (block := false) rfl at_ alone (.inl rfl)]
    simp only [State.queuePut, State.modValve, if_pos full, sat255]
  case qget =>
    simp only [List.mem_cons, List.not_mem_nil, or_false] at mem
    obtain rfl | rfl := mem
    · have class_ : (c.put 0 w.toNat ((c.landed t).modValve v (fun q => { q with rxReady := ws }))).elastic c.x = true := by
        rw [Ctx.put, State.writeLoc_elastic, h.x_eq]
        exact (c.landed_elastic t x).trans elastic
      rw [h.exec_qget (block := true) rfl at_ alone]
      simp only [holds, if_true]
      rw [Ctx.illMetered_of_elastic class_]
    · rw [h.exec_qget (block := false) rfl at_ alone]
      simp only [holds, Bool.false_eq_true, if_false]
  case qgetEmpty =>
    rw [h.exec_qget (block := false) rfl at_ alone]
    simp only [empty, Bool.false_eq_true, if_false]
  case sched =>
    rw [h.exec_row (body := schedBody) rfl, answer, time]
    simp only [schedBody, Did.after]
    rw [Ctx.schedTime_of_none (h.x_eq ▸ alone)]
    simp only [h.x_eq, outside_none alone, output_none alone, State.emit]
  case unsched =>
    rw [h.exec_row (body := unschedBody) rfl]
    simp only [unschedBody, Did.after, h.x_eq, output_none alone, State.emit]
  case sysrd =>
    rw [h.exec_row (body := sysrdBody) rfl]
    simp only [sysrdBody, sysBad, small.not_ge, decide_false, word, bne_self_eq_false, Bool.or_self, Bool.false_eq_true,
      if_false, Did.after, h.x_eq, outside_none alone, Ctx.wrote]
  case syswr =>
    rw [h.exec_row (body := syswrBody) rfl]
    simp only [syswrBody, sysBad, small.not_ge, decide_false, word, bne_self_eq_false, Bool.or_self, Bool.false_eq_true,
      if_false, Did.after, h.x_eq, output_none alone, State.emit, open_]
    rw [State.winIssue_of_lt (Nat.lt_add_of_pos_right (by decide))]
  case syswrProtected =>
    rw [h.exec_row (body := syswrBody) rfl]
    simp only [syswrBody, sysBad, small.not_ge, decide_false, word, bne_self_eq_false, Bool.or_self, Bool.false_eq_true,
      if_false, if_true, Did.after, h.x_eq, output_none alone, State.emit, protected_, State.sysViolation, sysWho]
    rfl
  case sysBad =>
    have refused : sysBad u = true := by
      rw [sysBad, Bool.or_eq_true, decide_eq_true_iff, bne_iff_ne]
      exact bad
    simp only [List.mem_cons, Prod.mk.injEq, List.not_mem_nil, or_false] at row
    obtain ⟨rfl, rfl⟩ | ⟨rfl, rfl⟩ := row
    · rw [h.exec_row (body := sysrdBody) rfl]
      simp only [sysrdBody, refused, if_true, Did.after, h.x_eq, Flt.none_]
    · rw [h.exec_row (body := syswrBody) rfl]
      simp only [syswrBody, refused, if_true, Did.after, h.x_eq, Flt.none_]

end Sys2Proof.Machine

/-!
SUPPORT. Short vectors lane by lane, the permutes, and the launch of long vectors (R78, R226-R241, R506), and the proof of
O17.
-/

namespace Sys2Proof.Machine

/-! ### Lanes (R229-R234) -/

theorem lane_lt (l v k : Nat) : lane l v k < 2 ^ l := Nat.mod_lt _ (Nat.two_pow_pos l)

theorem lane_ofLanes (l : Nat) : ∀ (vs : List Nat) (k : Nat) (inside : k < vs.length),
    lane l (ofLanes l vs) k = vs[k] % 2 ^ l
  | v :: vs, 0, _ => by
    rw [ofLanes, lane, Nat.mul_zero, pow_zero, Nat.div_one, Nat.add_mul_mod_self_left, Nat.mod_mod, List.getElem_cons_zero]
  | v :: vs, k + 1, inside => by
    have rest : (v % 2 ^ l + 2 ^ l * ofLanes l vs) / 2 ^ l = ofLanes l vs := by
      rw [Nat.add_mul_div_left _ _ (Nat.two_pow_pos l), Nat.div_eq_of_lt (Nat.mod_lt _ (Nat.two_pow_pos l)), Nat.zero_add]
    have ih := lane_ofLanes l vs k (Nat.lt_of_succ_lt_succ inside)
    rw [lane] at ih
    rw [ofLanes, lane, Nat.mul_succ, Nat.add_comm (l * k), pow_add, ← Nat.div_div_eq_div_mul, rest, ih,
      List.getElem_cons_succ]

theorem ofLanes_lt (l : Nat) : ∀ vs : List Nat, ofLanes l vs < 2 ^ (l * vs.length)
  | [] => by simp [ofLanes]
  | v :: vs => by
    have ih := ofLanes_lt l vs
    have low : v % 2 ^ l < 2 ^ l := Nat.mod_lt _ (Nat.two_pow_pos l)
    rw [ofLanes, List.length_cons, Nat.mul_succ, Nat.add_comm (l * vs.length), pow_add]
    calc v % 2 ^ l + 2 ^ l * ofLanes l vs < 2 ^ l + 2 ^ l * ofLanes l vs := Nat.add_lt_add_right low _
      _ = 2 ^ l * (ofLanes l vs + 1) := by ring
      _ ≤ 2 ^ l * 2 ^ (l * vs.length) := Nat.mul_le_mul_left _ ih

/-- A vector of `n` lanes that are given one by one. -/
theorem ofLanes_range {l n : Nat} (whole : l * n = 128) {f : Nat → Nat} (small : ∀ k, f k < 2 ^ l) :
    ofLanes l ((List.range n).map f) < 2 ^ 128 ∧ ∀ k, k < n → lane l (ofLanes l ((List.range n).map f)) k = f k := by
  refine ⟨?_, fun k inside => ?_⟩
  · have bound := ofLanes_lt l ((List.range n).map f)
    rwa [List.length_map, List.length_range, whole] at bound
  · rw [lane_ofLanes l _ k (by simpa using inside), List.getElem_map, List.getElem_range, Nat.mod_eq_of_lt (small k)]

section Lanes

variable {l a b : Nat}

/-- A difference of two lanes wraps (R229). -/
theorem laneSub_eq (small : b < 2 ^ l) : laneSub l a b = (a + (2 ^ l - b)) % 2 ^ l := by
  have shifted : ((a : Int) - b) % ((2 ^ l : Nat) : Int) = (((a + (2 ^ l - b)) % 2 ^ l : Nat) : Int) := by
    rw [Int.natCast_mod, Nat.cast_add, Nat.cast_sub small.le, ← Int.add_emod_right]
    congr 1
    ring
  rw [laneSub, wrap, shifted, Int.toNat_natCast]

theorem laneMin_eq : laneMin l a b = if sgn l b < sgn l a then b else a := by
  simp only [laneMin, ← not_lt, ite_not]

theorem laneMax_eq : laneMax l a b = if sgn l a < sgn l b then b else a := by
  simp only [laneMax, ← not_lt, ite_not]

theorem laneShl_eq : laneShl l a b = if b < l then a * 2 ^ b % 2 ^ l else 0 := by
  simp only [laneShl, ← not_lt, ite_not]

theorem laneShr_eq : laneShr l a b = if b < l then a / 2 ^ b else 0 := by
  simp only [laneShr, ← not_lt, ite_not]

end Lanes

section Vectors

variable {s t : State} {x : Fin 128} {c : Ctx} {i : Instr}

/-- A short vector instruction writes its vector of results. -/
theorem Operates.exec_lanes {f g : Nat → Nat → Nat → Nat} {l : Nat} (h : Operates s i x c t)
    (run : exec i s = runSel x (rowSel i) (laneBody f) s) (width : l = c.dec.lane) (whole : l ∈ [8, 16, 32])
    (same : ∀ a b, a < 2 ^ l → b < 2 ^ l → f l a b = g l a b ∧ g l a b < 2 ^ l) :
    ∃ v, exec i s = .next (c.wrote t v) ∧ v < 2 ^ 128 ∧
      ∀ k, k < 128 / l → lane l v k = g l (lane l (c.vec l 1) k) (lane l (c.vec l 2) k) := by
  have full : l * (128 / l) = 128 := by
    simp only [List.mem_cons, List.not_mem_nil, or_false] at whole
    obtain rfl | rfl | rfl := whole <;> rfl
  have each (k : Nat) := same (lane l (c.vec l 1) k) (lane l (c.vec l 2) k) (lane_lt ..) (lane_lt ..)
  have result : lanewise l (f l) (c.vec l 1) (c.vec l 2) =
      ofLanes l ((List.range (128 / l)).map (fun k => g l (lane l (c.vec l 1) k) (lane l (c.vec l 2) k))) := by
    rw [lanewise]
    simp only [each]
  obtain ⟨bound, lanes⟩ := ofLanes_range full fun k => (each k).2
  refine ⟨_, ?_, bound, lanes⟩
  rw [h.exec_row run, ← result, width]
  rfl

end Vectors

/-! ### Launches (R78, R228, R241, R506) -/

/-- Only the cisterns, CHAN and the long vectors answer a running pair by a disagreement (R506); of them the long vectors
have one body. -/
theorem exec_launch {i : Instr} {x : Fin 128} {n : Nat} {o : Option Nat} (row : threadRow i = some (x, n, o))
    (range : 0x221 ≤ n ∧ n ≤ 0x233 ∨ n = 0x128 ∨ n = 0x129 ∨ n = 0x12B) :
    ∃ body, (∀ s, exec i s = runSel x (rowSel i) (notInPair body) s) ∧ (0x221 ≤ n → body = lvBody) := by
  cases i
  case lvadd | lvsub | lvmul | lvmac | lvcmul | lvcmac | lvconj | lvsum | lvmaxi | lvbfly | lvgath | lvgathf | lvscat |
      lvcopy => cases row; exact ⟨lvBody, fun _ => rfl, fun _ => rfl⟩
  case crd => cases row; exact ⟨_, fun _ => rfl, fun high => absurd high (by decide)⟩
  case cwr => cases row; exact ⟨_, fun _ => rfl, fun high => absurd high (by decide)⟩
  case check | bind | unbind | tagget | tagput | alloc | free =>
    cases row; exact ⟨chanBody, fun _ => rfl, fun high => absurd high (by decide)⟩
  all_goals cases row <;> omega

/-- A cistern access, a CHAN operation or a long vector in a running pair is a disagreement (R506). -/
theorem notInPair_of_some {t : State} {c : Ctx} {k : Nat} (body : Body) (paired : t.pairOf c.x = some k) :
    notInPair body c t = .stay (fun s => s.disagree k 4) := by
  rw [notInPair, paired]

theorem State.disagree_of_none {s : State} {k kind : Nat} (fresh : (s.pair k).diff = none) :
    s.disagree k kind = s.modPair k (fun p => { p with diff := some kind }) := by
  simp [State.disagree, State.modPair, fresh]

theorem lvDistance_eq {op : Nat} (page : 0x21 ≤ op) (n : Nat) :
    lvDistance op n = 6 + (n + (if op ≤ 0x24 then 15 else 3)) / (if op ≤ 0x24 then 16 else 4) := by
  by_cases real : op ≤ 0x24
  · simp [lvDistance, lvReal, page, real, ceilDiv]
  · simp [lvDistance, lvReal, real, ceilDiv]

/-- The rows of the long vectors. -/
theorem threadRow_lv {i : Instr} {x : Fin 128} {op : Nat} (mem : (i, op) ∈ [(.lvadd x, 0x21), (.lvsub x, 0x22),
    (.lvmul x, 0x23), (.lvmac x, 0x24), (.lvcmul x, 0x25), (.lvcmac x, 0x26), (.lvconj x, 0x27), (.lvsum x, 0x28),
    (.lvmaxi x, 0x29), (.lvbfly x, 0x2A), (.lvgath x, 0x30), (.lvgathf x, 0x31), (.lvscat x, 0x32), (.lvcopy x, 0x33)]) :
    threadRow i = some (x, 0x200 + op, none) ∧ 0x21 ≤ op ∧ op ≤ 0x33 := by
  revert mem
  generalize same : (i, op) = p
  intro mem
  have rows : ∀ p ∈ [(Instr.lvadd x, 0x21), (.lvsub x, 0x22), (.lvmul x, 0x23), (.lvmac x, 0x24), (.lvcmul x, 0x25),
      (.lvcmac x, 0x26), (.lvconj x, 0x27), (.lvsum x, 0x28), (.lvmaxi x, 0x29), (.lvbfly x, 0x2A), (.lvgath x, 0x30),
      (.lvgathf x, 0x31), (.lvscat x, 0x32), (.lvcopy x, 0x33)],
      threadRow p.1 = some (x, 0x200 + p.2, none) ∧ 0x21 ≤ p.2 ∧ p.2 ≤ 0x33 := by
    simp [threadRow]
  simpa [← same] using rows p mem

/-- Settles O17: short vectors by their lanes, permutes by their bytes, long vectors by the one body of their rows. -/
theorem vectorResultsAndLaunches : Obligations.VectorResultsAndLaunches := by
  unfold Obligations.VectorResultsAndLaunches
  refine ⟨fun x i f l c s t h width whole row => ?lanes, fun x c s t h => ?vand, fun x c s t h => ?vor,
    fun x c s t h => ?vxor, fun x c s t h => ?vsel, fun x i f c s t h row => ?permutes, fun x c s t h => ?tlut16,
    fun x c s t h => ?lvsetl, fun x i op d l c s t mem h alone idle distance launch => ?launch,
    fun x i o n c s t row low high h alone busy => ?busy, fun x i o n k c s t row range h paired fresh => ?paired⟩
  case lanes =>
    have pos : 0 < 2 ^ l := Nat.two_pow_pos l
    simp only [List.mem_cons, Prod.mk.injEq, List.not_mem_nil, or_false] at row
    obtain ⟨rfl, rfl⟩ | ⟨rfl, rfl⟩ | ⟨rfl, rfl⟩ | ⟨rfl, rfl⟩ | ⟨rfl, rfl⟩ | ⟨rfl, rfl⟩ | ⟨rfl, rfl⟩ | ⟨rfl, rfl⟩ := row
    · exact h.exec_lanes (f := laneAdd) (g := fun l a b => (a + b) % 2 ^ l) rfl width whole
        fun a b _ _ => ⟨rfl, Nat.mod_lt _ pos⟩
    · exact h.exec_lanes (f := laneSub) (g := fun l a b => (a + (2 ^ l - b)) % 2 ^ l) rfl width whole
        fun a b _ small => ⟨laneSub_eq small, Nat.mod_lt _ pos⟩
    · exact h.exec_lanes (f := laneMin) (g := fun l a b => if sgn l b < sgn l a then b else a) rfl width whole
        fun a b la lb => ⟨laneMin_eq, by split <;> assumption⟩
    · exact h.exec_lanes (f := laneMax) (g := fun l a b => if sgn l a < sgn l b then b else a) rfl width whole
        fun a b la lb => ⟨laneMax_eq, by split <;> assumption⟩
    · exact h.exec_lanes (f := laneEq) (g := fun l a b => if a = b then 2 ^ l - 1 else 0) rfl width whole
        fun a b _ _ => ⟨rfl, by split <;> omega⟩
    · exact h.exec_lanes (f := laneGt) (g := fun l a b => if sgn l b < sgn l a then 2 ^ l - 1 else 0) rfl width whole
        fun a b _ _ => ⟨rfl, by split <;> omega⟩
    · exact h.exec_lanes (f := laneShl) (g := fun l a b => if b < l then a * 2 ^ b % 2 ^ l else 0) rfl width whole
        fun a b _ _ => ⟨laneShl_eq, by split; exacts [Nat.mod_lt _ pos, pos]⟩
    · exact h.exec_lanes (f := laneShr) (g := fun l a b => if b < l then a / 2 ^ b else 0) rfl width whole
        fun a b la _ => ⟨laneShr_eq, by split; exacts [(Nat.div_le_self _ _).trans_lt la, pos]⟩
  case vand => exact h.exec_row (body := vecBody (fun _ a b => a &&& b)) rfl
  case vor => exact h.exec_row (body := vecBody (fun _ a b => a ||| b)) rfl
  case vxor => exact h.exec_row (body := vecBody (fun _ a b => a ^^^ b)) rfl
  case vsel =>
    refine ⟨_, h.exec_row (body := vecOldBody vselOp) rfl, fun k inside => ?_⟩
    simp only [vselOp, bit_eq_testBit, Nat.testBit_or, Nat.testBit_and, Nat.testBit_xor, Nat.testBit_two_pow_sub_one, inside,
      decide_true, Bool.true_xor]
    cases (c.val 0).testBit k <;> simp
  case permutes =>
    simp only [List.mem_cons, Prod.mk.injEq, List.not_mem_nil, or_false] at row
    obtain ⟨rfl, rfl⟩ | ⟨rfl, rfl⟩ | ⟨rfl, rfl⟩ := row
    · refine ⟨_, h.exec_row (body := vecBody (fun _ a t => tperm a t)) rfl, ofLanes_range rfl fun k => ?_⟩
      dsimp only
      split
      · decide
      · exact lane_lt ..
    · refine ⟨_, h.exec_row (body := vecOldBody tperm2) rfl, ofLanes_range rfl fun k => ?_⟩
      dsimp only
      split
      · decide
      · split <;> exact lane_lt ..
    · exact ⟨_, h.exec_row (body := vecBody (fun _ a t => tlut a t)) rfl, ofLanes_range rfl fun k => lane_lt ..⟩
  case tlut16 =>
    refine ⟨_, h.exec_row (body := vecBody (fun _ a t => tlut16 a t)) rfl, ofLanes_range rfl fun k => ?_⟩
    dsimp only
    split
    · decide
    · exact lane_lt ..
  case lvsetl =>
    have kept : max 1 (min 256 (c.val 0)) = if c.val 0 = 0 then 1 else if 256 < c.val 0 then 256 else c.val 0 := by
      split <;> [skip; split] <;> omega
    rw [h.exec_row (body := lvsetlBody) rfl, lvsetlBody, kept, h.x_eq]
    rfl
  case launch =>
    obtain ⟨row, low, high⟩ := threadRow_lv mem
    obtain ⟨body, run, same⟩ := exec_launch row (.inl ⟨by omega, by omega⟩)
    obtain rfl := same (by omega)
    have code : c.dec.op - 0x200 = op := by
      rw [beq_iff_eq.mp (h.opcode row)]
      omega
    rw [h.exec_row (run s), notInPair_of_none (by rw [h.x_eq]; exact alone), launch, distance, ← lvDistance_eq low]
    simp only [lvBody, h.x_eq, idle, Option.isSome_none, Bool.false_eq_true, if_false, Did.after, code, State.vl]
    rfl
  case busy =>
    obtain ⟨body, run, same⟩ := exec_launch row (.inl ⟨low, high⟩)
    obtain rfl := same low
    rw [h.exec_row (run s), notInPair_of_none (by rw [h.x_eq]; exact alone)]
    simp only [lvBody, h.x_eq, busy, if_true, Did.after, State.illBlock]
  case paired =>
    obtain ⟨body, run, -⟩ := exec_launch row range
    rw [h.exec_row (run s), notInPair_of_some body (by rw [h.x_eq]; exact paired), Did.after,
      State.disagree_of_none fresh]

end Sys2Proof.Machine

/-!
SUPPORT. Results at a distance in turns and the commit of long vectors (R78, R79, R195, R202, R203, R238-R249, R441), and
the proof of O18.
-/

namespace Sys2Proof.Machine

/-! ### Rounding and saturation (R238) -/

theorem satQ_eq (v : Int) : satQ v = wrap 16 (max (-32768) (min 32767 v)) := rfl

/-- The nearest multiple of 2^k, an even one where two are as near. -/
theorem rne_spec {n q : Int} {k : Nat} (pos : 0 < k) (result : rne n k = q) :
    2 * |n - q * 2 ^ k| ≤ 2 ^ k ∧ (2 * |n - q * 2 ^ k| = 2 ^ k → q % 2 = 0) := by
  have unit : (0 : Int) < 2 ^ k := by positivity
  have parts := Int.mul_ediv_add_emod n (2 ^ k)
  have low := Int.emod_nonneg n unit.ne'
  have high := Int.emod_lt_of_pos n unit
  unfold rne at result
  simp only [Nat.cast_pow, Nat.cast_ofNat, if_neg pos.ne'] at result
  generalize n / 2 ^ k = d at *
  generalize n % 2 ^ k = r at *
  have down : n - d * 2 ^ k = r := by rw [← parts]; ring
  have up : n - (d + 1) * 2 ^ k = -(2 ^ k - r) := by rw [← parts]; ring
  generalize (2 : Int) ^ k = m at *
  split at result
  · rw [← result, down, abs_of_nonneg low]
    omega
  · split at result
    · rw [← result, up, abs_neg, abs_of_nonneg (by omega)]
      omega
    · split at result
      · next even =>
        rw [← result, down, abs_of_nonneg low]
        omega
      · next odd =>
        rw [← result, up, abs_neg, abs_of_nonneg (by omega)]
        omega

/-! ### Results at their distance (R79, R195) -/

section Landing

variable {s : State} {x : Fin 128} {l : LongRes}

/-- The first due result lands where the command names its kind. -/
theorem landIf_of_due {p : LongOp → Bool} (due : (s.th x).longDue = some l) (kind : p l.op = true) :
    landIf p x s = .next (s.landLong x l) := by
  rw [landIf, due]
  exact State.act_of kind

theorem exec_longResult_of_due {ws : List LocWrite} (due : (s.th x).longDue = some l) (kind : l.op = .arith ws) :
    exec (.longResult x) s = .next (s.landLong x l) := by
  show execLongResult x s = _
  rw [execLongResult, landIf_of_due due (by rw [kind])]

theorem exec_blockCrcDone_of_due {p st k : Nat} {src dst : Loc} (due : (s.th x).longDue = some l) (kind : l.op = .crc p st k src dst) :
    exec (.blockCrcDone x) s = .next (s.landLong x l) := by
  show execBlockCrcDone x s = _
  rw [execBlockCrcDone, landIf_of_due due (by rw [kind])]

theorem exec_chanResult_of_due {op a b : Nat} {dst : Loc} (due : (s.th x).longDue = some l) (kind : l.op = .chan op a b dst) :
    exec (.chanResult x) s = .next (s.landLong x l) := by
  show execChanResult x s = _
  rw [execChanResult, landIf_of_due due (by rw [kind])]

/-- The bytes over which a block CRC runs. -/
def State.crcSpan (s : State) (x k : Nat) : Loc → List Nat
  | .well a => readBytes (s.th x).well a k
  | .res a => readBytes (s.lb (lbOf x)).res a k
  | .code a => readBytes (s.codeOf x) a k
  | _ => []

/-- A block CRC over readable words writes the checksum of its span (R203). -/
theorem State.crcEnd_of_clean {t : State} (clean : t.ecc = []) {src : Loc} {y k : Nat} (pc issued p st : Nat) (dst : Loc)
    (memory : ∃ a, src = .well a ∨ src = .res a ∨ src = .code a) :
    t.crcEnd y pc issued p st k src dst = landLoc t y pc issued dst 4 ((t.crcSpan y k src).foldl (crcStep p) st) := by
  have readable (m : Mem) (ws : List Nat) : ws.find? (fun w => t.isUe m w) = none := by
    simp [State.isUe_of_clean clean]
  obtain ⟨a, rfl | rfl | rfl⟩ := memory
  · simp only [State.crcEnd, Loc.mem, readable, State.eccCorrect_of_clean clean, crcBytes, State.crcSpan]
  · simp only [State.crcEnd, Loc.mem, readable, State.eccCorrect_of_clean clean, crcBytes, State.crcSpan]
  · simp only [State.crcEnd, Loc.mem, readable, State.eccCorrect_of_clean clean, crcBytes, State.crcSpan]

/-- The pending results of a thread are no part of what a block CRC reads. -/
theorem State.crcSpan_erase (s : State) (x k : Nat) (l : LongRes) (src : Loc) :
    (s.modTh x (fun t => { t with longs := t.longs.erase l })).crcSpan x k src = s.crcSpan x k src := by
  cases src with
  | well a => rw [State.crcSpan, State.th_modTh_same]; rfl
  | res a => rfl
  | code a =>
    rw [State.crcSpan, State.codeOf, State.bankOf, State.th_modTh_same]
    rfl
  | _ => rfl

end Landing

/-! ### Commits of long vectors (R243-R249) -/

theorem exec_lvCommit_of_due {s : State} {n : Fin 8} {l : LvOp} (busy : (s.lb n).lv = some l) (due : l.due ≤ s.strokes) :
    exec (.lvCommit n) s = .next (s.lvCommit n l) := by
  show execLvCommit n s = _
  simp only [execLvCommit, State.lvDue, busy, if_pos due]

/-- Settles O18: results by their kind, commits by their fault, elements by saturation and rounding. -/
theorem longResultsAndVectorCommits : Obligations.LongResultsAndVectorCommits := by
  unfold Obligations.LongResultsAndVectorCommits
  refine ⟨fun x l ws s due kind => ?arith, fun x l p st k src dst bs s clean due kind span => ?crc,
    fun x l op a b dst r s due kind answer => ?chan, fun n l s busy due whole => ?commit,
    fun n l i c p r s t u busy due fault stops record written recorded => ?commitFault,
    fun n l i c p s t busy due fault gather later written => ?commitShort, fun op a b d r mem => ?elements,
    fun k n q pos result => rne_spec pos result⟩
  case arith =>
    rw [exec_longResult_of_due due kind]
    simp only [State.landLong, kind]
  case crc =>
    rw [exec_blockCrcDone_of_due due kind]
    have memory : ∃ a, src = .well a ∨ src = .res a ∨ src = .code a := by
      obtain ⟨a, at_, -⟩ | ⟨a, at_, -⟩ | ⟨a, at_, -⟩ := span
      · exact ⟨a, .inl at_⟩
      · exact ⟨a, .inr (.inl at_)⟩
      · exact ⟨a, .inr (.inr at_)⟩
    have bytes : s.crcSpan x k src = bs := by
      obtain ⟨a, rfl, rfl⟩ | ⟨a, rfl, rfl⟩ | ⟨a, rfl, rfl⟩ := span <;> rfl
    simp only [State.landLong, kind]
    have still : (s.modTh x (fun t => { t with longs := t.longs.erase l })).ecc = [] := clean
    rw [State.crcEnd_of_clean still _ _ _ _ _ memory, State.crcSpan_erase, bytes]
  case chan =>
    rw [exec_chanResult_of_due due kind]
    simp only [State.landLong, kind, answer]
  case commit =>
    rw [exec_lvCommit_of_due busy due]
    simp only [State.lvCommit, whole, flagLVDONE]
  case commitFault =>
    have full : ¬(l.op = 0x31 ∧ 0 < i) := fun h => stops.elim (· h.1) (fun zero => absurd h.2 (by omega))
    rw [exec_lvCommit_of_due busy due]
    simp only [State.lvCommit, fault, if_neg full, State.lvFault, ← written, ← record, ← recorded, State.threadEvent, flagVF,
      flagLVDONE]
    rfl
  case commitShort =>
    rw [exec_lvCommit_of_due busy due]
    simp only [State.lvCommit, fault, if_pos (And.intro gather later), ← written, flagLVDONE]
  case elements =>
    simp only [List.mem_cons, Prod.mk.injEq, List.not_mem_nil, or_false] at mem
    obtain ⟨rfl, rfl⟩ | ⟨rfl, rfl⟩ | ⟨rfl, rfl⟩ | ⟨rfl, rfl⟩ := mem
    · exact satQ_eq _
    · exact satQ_eq _
    · exact satQ_eq _
    · exact satQ_eq _

end Sys2Proof.Machine

/-!
SUPPORT. CHAN operations and the parts of cistern accesses (R18, R114, R138-R141, R216, R410-R422, R441), and the proof of
O19.
-/

namespace Sys2Proof.Machine

/-! ### CHAN operations (R421, R422, R441) -/

/-- What a window of a thread holds once it is written. -/
theorem State.winOf_modTh_cwin (s : State) (x w : Nat) (v : Option Word) :
    (s.modTh x (fun t => { t with cwin := tput t.cwin w v })).winOf x w = v.map (fun b => b.toNat % 2 ^ 15) := by
  rw [State.winOf, State.th_modTh_same, tget_tput_same]

/-- A buffer reference that does not check answers 7 (R421). -/
theorem State.checkBref_eq_error {s : State} {lb b : Nat} (bad : ∀ h, s.checkBref lb b ≠ .ok h) :
    s.checkBref lb b = .error 7 := by
  unfold State.checkBref at bad ⊢
  dsimp only at bad ⊢
  split
  · next good => exact absurd (if_pos good) (bad _)
  · rfl

/-! ### Parts of a cistern access (R139-R141) -/

section Parts

variable {s : State} {x : Fin 128} {k : Fin 8} {c : CisAcc} {h a n : Nat}

theorem State.bufUe_of_clean (clean : s.ecc = []) (b off m : Nat) : s.bufUe b off m = none := by
  simp [State.bufUe, clean]

theorem State.eccNarrow_of_clean (clean : s.ecc = []) (r : Reader) (m : Mem) (b d : Nat) : s.eccNarrow r m b d = s := by
  simp [State.eccNarrow, clean]

theorem State.mirror_of_leads_none {y : Nat} (free : s.leads y = none) (loc : Loc) (m v : Nat) : s.mirror y loc m v = s := by
  rw [State.mirror, free]

theorem State.hwFlag_of_clean (clean : s.ecc = []) (r : Reader) (y b : Nat) :
    s.hwFlag r y b = s.modTh y (fun t => t.hwSet s.strokes b) := by
  rw [State.hwFlag, State.isUe_of_clean clean, State.eccNarrow_of_clean clean]
  rfl

/-- A done bit of a thread that leads no pair is a flag of the hardware, no more (R505). -/
theorem State.doneBit_of_clean (clean : s.ecc = []) {y : Nat} (free : s.leads y = none) (r : Reader) (b : Nat) :
    s.doneBit r y b = s.hwFlag r y b := by
  have still : (s.hwFlag r y b).leads y = none := by
    rw [State.hwFlag_of_clean clean]
    exact free
  rw [State.doneBit, State.mirror_of_leads_none still]

theorem State.eccWrite_of_clean (clean : s.ecc = []) (m : Mem) (b d : Nat) : s.eccWrite m b d = s := by
  simp [State.eccWrite, clean]

theorem State.wellPut_of_clean (clean : s.ecc = []) (y b m v : Nat) :
    s.wellPut y b m v = s.modTh y (fun t => { t with well := writeLE t.well b m v }) := by
  rw [State.wellPut, State.eccWrite_of_clean]
  exact clean

/-- A write by the hardware into the well of a thread that leads no pair. -/
theorem State.pumpWell_of_clean (clean : s.ecc = []) {y : Nat} (free : s.leads y = none) (r : Reader) (b m v : Nat) :
    s.pumpWell r y b m v = s.wellPut y b m v := by
  have still : (s.wellPut y b m v).leads y = none := by
    rw [State.wellPut_of_clean clean]
    exact free
  rw [State.pumpWell, State.eccNarrow_of_clean clean, State.mirror_of_leads_none still]

theorem State.bufWrite_of_clean (clean : s.ecc = []) (b off : Nat) (bs : List Nat) :
    ∃ f, s.bufWrite b off bs = s.modPump f := by
  refine ⟨fun p => { p with cis := State.bufWrite.go (s.bufCells b) p.cis off bs }, ?_⟩
  unfold State.bufWrite
  rw [if_pos (show (State.modPump s _).ecc.isEmpty = true by simp [State.modPump, clean])]

/-- An access of valid bytes of a bound buffer, over readable words, is no fault (R138, R140). -/
theorem State.cisBad_of_clean (clean : s.ecc = []) (window : s.winOf x c.win = some h)
    (valid : c.off + c.n ≤ (s.cell h).len) : s.cisBad x c = false := by
  simp [State.cisBad, window, valid.not_gt, State.bufUe_of_clean clean]

theorem State.cisHeld_of_well (at_ : c.loc = .well a) : s.cisHeld x c = false := by
  rw [State.cisHeld, at_]
  cases c.rd <;> rfl

/-- The part of an access that comes next lands no sooner than 6 strokes after issue (R141). -/
theorem exec_cisternPartLand_of_well (clean : s.ecc = []) (acc : (s.th x).cis.find? (fun d => d.idx == k.val) = some c)
    (window : s.winOf x c.win = some h) (valid : c.off + c.n ≤ (s.cell h).len) (ready : c.issued + 6 ≤ s.strokes)
    (at_ : c.loc = .well a) : exec (.cisternPartLand x k) s = .next (s.cisPart x c h) := by
  show execCisternPartLand x k s = _
  simp only [execCisternPartLand, State.cisOf, acc, window, State.cisBad_of_clean clean window valid, State.cisHeld_of_well at_,
    ready, decide_true, Bool.not_false, Bool.and_self]
  exact State.act_of rfl

/-- The end of an access whose parts all landed sets CDONEk (R141). -/
theorem State.cisEnd_of_clean (clean : s.ecc = []) (free : s.leads x = none) (j : Nat) : s.cisEnd x j false =
    (s.modTh x (fun t => { t with cis := t.cis.filter (fun d => d.idx != j) })).hwFlag .thread x (0x010 + j) := by
  show (s.modTh x (fun t => { t with cis := t.cis.filter (fun d => d.idx != j) })).doneBit .thread x (cdoneBit j) = _
  generalize ended : s.modTh x (fun t => { t with cis := t.cis.filter (fun d => d.idx != j) }) = u
  have clean' : u.ecc = [] := by rw [← ended]; exact clean
  have free' : u.leads x = none := by rw [← ended]; exact free
  rw [State.doneBit_of_clean clean' free', cdoneBit]

/-- A failed access sets CERRk before CDONEk (R140). -/
theorem State.cisEnd_error_of_clean (clean : s.ecc = []) (free : s.leads x = none) (j : Nat) : s.cisEnd x j true =
    ((s.modTh x (fun t => { t with cis := t.cis.filter (fun d => d.idx != j) })).hwFlag .thread x (0x018 + j)).hwFlag .thread x
      (0x010 + j) := by
  show ((s.modTh x (fun t => { t with cis := t.cis.filter (fun d => d.idx != j) })).doneBit .thread x (cerrBit j)).doneBit
    .thread x (cdoneBit j) = _
  generalize ended : s.modTh x (fun t => { t with cis := t.cis.filter (fun d => d.idx != j) }) = u
  have clean' : u.ecc = [] := by rw [← ended]; exact clean
  have free' : u.leads x = none := by rw [← ended]; exact free
  rw [State.doneBit_of_clean clean' free', cerrBit, cdoneBit]
  generalize flagged : u.hwFlag .thread x (0x018 + j) = v
  rw [State.hwFlag_of_clean clean'] at flagged
  have clean'' : v.ecc = [] := by rw [← flagged]; exact clean'
  have free'' : v.leads x = none := by rw [← flagged]; exact free'
  rw [State.doneBit_of_clean clean'' free'']

/-- The local side of a CRD in the well (R216). -/
theorem State.cisStore_well (clean : s.ecc = []) (free : s.leads x = none) (i : Nat) (bs : List Nat) :
    s.cisStore x (.well a) i bs = (true, s.wellPut x (a + i) bs.length (ofBytes bs)) := by
  have readable : (partWords (a + i) bs.length).find? (fun w => s.isUe (.well x) w) = none := by
    simp [State.isUe_of_clean clean]
  simp only [State.cisStore, Loc.mem, readable, if_true, State.pumpWell_of_clean clean free]

/-- The local side of a CWR in the well. -/
theorem State.cisLoad_well (clean : s.ecc = []) (i m : Nat) :
    s.cisLoad x (.well a) i m = (true, readBytes (s.th x).well (a + i) m, s) := by
  have readable : (wordsOf (a + i) m).find? (fun w => s.isUe (.well x) w) = none := by
    simp [State.isUe_of_clean clean]
  simp only [State.cisLoad, Loc.mem, readable, if_true, State.eccCorrect_of_clean clean]

theorem State.bufRead_length (b off m : Nat) : (s.bufRead b off m).length = m := by
  simp [State.bufRead]

/-- The bytes that the next part of an access moves: up to the next 32-bit boundary of the buffer (R139). -/
def CisAcc.part (c : CisAcc) : Nat := min (c.n - c.done) (4 - (c.off + c.done) % 4)

/-- What a part of a CRD into the well leaves. -/
theorem State.cisPart_read (clean : s.ecc = []) (free : s.leads x = none) (rd : c.rd = true) (good : c.bad = false)
    (at_ : c.loc = .well a) : s.cisPart x c h =
      let t := s.wellPut x (a + c.done) c.part (ofBytes (s.bufRead h (c.off + c.done) c.part))
      if c.done + c.part < c.n then t.setCis x { c with done := c.done + c.part } else t.cisEnd x c.idx false := by
  simp only [State.cisPart, rd, if_true, State.eccCorrect_of_clean clean, at_, State.cisStore_well clean free,
    State.bufRead_length, good, Bool.not_true, Bool.or_self]
  rfl

/-- What a part of a CWR from the well leaves. -/
theorem State.cisPart_write (clean : s.ecc = []) (wr : c.rd = false) (good : c.bad = false)
    (at_ : c.loc = .well a) : s.cisPart x c h =
      let t := s.bufWrite h (c.off + c.done) (readBytes (s.th x).well (a + c.done) c.part)
      if c.done + c.part < c.n then t.setCis x { c with done := c.done + c.part } else t.cisEnd x c.idx false := by
  simp only [State.cisPart, wr, Bool.false_eq_true, if_false, if_true, at_, State.cisLoad_well clean, good, Bool.not_true,
    Bool.or_self]
  rfl

theorem CisAcc.part_last (last : n = c.n - c.done) (fits : n ≤ 4 - (c.off + c.done) % 4) :
    c.part = n ∧ ¬c.done + n < c.n := by
  rw [CisAcc.part, ← last, Nat.min_eq_left fits]
  omega

theorem CisAcc.part_more (width : n = 4 - (c.off + c.done) % 4) (more : n < c.n - c.done) :
    c.part = n ∧ c.done + n < c.n := by
  rw [CisAcc.part, ← width, Nat.min_eq_right more.le]
  omega

end Parts

/-- Settles O19: CHAN operations by their checks, the parts of an access by what they move, and a fault by what it
reports. -/
theorem channelAndCisternAccess : Obligations.ChannelAndCisternAccess := by
  unfold Obligations.ChannelAndCisternAccess
  refine ⟨fun x h b i s valid => ?check, fun x a w h s t ref free unbound done => ?bind,
    fun x a w h s ref taken => ?bindTaken, fun x a w h s ref free bound => ?bindBound,
    fun x w b h s t idle window done => ?unbind, fun x w b s busy => ?unbindBusy, fun x w b h s window => ?tagget,
    fun x w b h s window => ?tagput, fun x n b s size => ?alloc, fun x a b h s ref bound => ?freeBound,
    fun x a b h s ref unbound => ?free, fun x op a b s row bad => ?badRef,
    fun x k c h a n s clean free acc window valid ready good rd at_ last fits => ?readLast,
    fun x k c h a n s clean free acc window valid ready good rd at_ width more => ?readMore,
    fun x k c h a n s clean free acc window valid ready good wr at_ last fits => ?writeLast,
    fun x k c s clean free acc ready bad => ?fault⟩
  case check =>
    show chanCheck s h = _
    rw [chanCheck, valid]
  case bind =>
    have effect : chanEffect s x 1 a w = ((s.cell h).len * 2 ^ 16,
        (s.modCell h (fun c => { c with bound := true })).modTh x
          (fun t => { t with cwin := tput t.cwin w (some (BitVec.ofNat 32 a)) })) := by
      show chanBind s x a w = _
      simp only [chanBind, ref, free, Option.isSome_none, Bool.false_eq_true, if_false, unbound, State.cell_modCell_same]
    rw [done, effect]
    refine ⟨rfl, ?_, ?_, fun y other => ?_, fun j other => ?_, rfl⟩
    · show ((s.modCell h (fun c => { c with bound := true })).cell h).bound = true
      rw [State.cell_modCell_same]
    · rw [State.winOf_modTh_cwin, Option.map_some, BitVec.toNat_ofNat]
    · rw [State.th_modTh, if_neg (Ne.symm other)]
      rfl
    · show (s.modCell h (fun c => { c with bound := true })).cell j = s.cell j
      rw [State.cell_modCell, if_neg (Ne.symm other)]
  case bindTaken =>
    show chanBind s x a w = _
    simp only [chanBind, ref, taken, if_true]
  case bindBound =>
    show chanBind s x a w = _
    simp only [chanBind, ref, free, Option.isSome_none, Bool.false_eq_true, if_false, bound, if_true]
  case unbind =>
    have effect : chanEffect s x 2 w b = (0, (s.modCell h (fun c => { c with bound := false })).modTh x
        (fun t => { t with cwin := tput t.cwin w none })) := by
      show chanUnbind s x w = _
      simp only [chanUnbind, idle, Bool.false_eq_true, if_false, window]
    rw [done, effect]
    refine ⟨rfl, ?_, ?_, rfl⟩
    · show ((s.modCell h (fun c => { c with bound := false })).cell h).bound = false
      rw [State.cell_modCell_same]
    · rw [State.winOf_modTh_cwin, Option.map_none]
  case unbindBusy =>
    show chanUnbind s x w = _
    rw [chanUnbind, if_pos busy]
  case tagget =>
    show chanTagget s x w = _
    rw [chanTagget, window]
  case tagput =>
    show chanTagput s x w b = _
    rw [chanTagput, window]
  case alloc =>
    show chanAlloc s x n b = _
    rw [chanAlloc, if_pos (by omega)]
  case freeBound =>
    show chanFree s x a = _
    simp only [chanFree, ref, bound, if_true]
  case free =>
    show chanFree s x a = _
    simp only [chanFree, ref, unbound, Bool.false_eq_true, if_false]
  case badRef =>
    have error := State.checkBref_eq_error bad
    obtain rfl | rfl := row
    · show chanBind s x a b = _
      rw [chanBind, error]
    · show chanFree s x a = _
      rw [chanFree, error]
  case readLast =>
    obtain ⟨width, final⟩ := CisAcc.part_last last fits
    rw [exec_cisternPartLand_of_well clean acc window valid ready at_, State.cisPart_read clean free rd good at_]
    simp only [width, if_neg final]
    rw [State.wellPut_of_clean clean, State.cisEnd_of_clean (by exact clean) (by exact free)]
  case readMore =>
    obtain ⟨same, more⟩ := CisAcc.part_more width more
    rw [exec_cisternPartLand_of_well clean acc window valid ready at_, State.cisPart_read clean free rd good at_]
    simp only [same, if_pos more]
  case writeLast =>
    obtain ⟨width, final⟩ := CisAcc.part_last last fits
    rw [exec_cisternPartLand_of_well clean acc window valid ready at_, State.cisPart_write clean wr good at_]
    simp only [width, if_neg final]
    obtain ⟨f, stored⟩ := State.bufWrite_of_clean clean h (c.off + c.done) (readBytes (s.th x).well (a + c.done) n)
    rw [stored, State.cisEnd_of_clean (by exact clean) (by exact free)]
  case fault =>
    have isBad : s.cisBad x c = true := by
      obtain none_ | ⟨h, window, beyond⟩ := bad
      · simp [State.cisBad, none_]
      · simp [State.cisBad, window, beyond]
    have run : exec (.cisternFault x k) s = .next (s.cisFault x c) := by
      show execCisternFault x k s = _
      simp only [execCisternFault, State.cisOf, acc, isBad, ready, decide_true, Bool.and_self]
      exact State.act_of rfl
    have quiet : s.cisFault x c = (s.cisEnd x c.idx true).threadEvent 0x22 (x + 2 ^ 8 * c.win) (c.off % 2 ^ 14) := by
      unfold State.cisFault
      simp only [State.bufUe_of_clean clean]
      cases s.winOf x c.win <;> rfl
    rw [run, quiet, State.cisEnd_error_of_clean clean free]
    rfl

end Sys2Proof.Machine

/-!
SUPPORT. Writes on their way to memory and to registers (R12, R116, R117, R129, R133, R136, R137, R225, R415, R566, R569),
and the proof of O22.
-/

namespace Sys2Proof.Machine

/-! ### Reservoir writes (R129, R133, R209) -/

section Reservoir

variable {s : State} {n a k v q : Nat} {w : ResWrite}

theorem State.resPut_of_clean (clean : s.ecc = []) (n a k v : Nat) :
    s.resPut n a k v = s.modLb n (fun b => { b with res := writeLE b.res a k v }) := by
  rw [State.resPut, State.eccWrite_of_clean]
  exact clean

theorem State.modLb_congr {f g : LBore → LBore} (same : f (s.lb n) = g (s.lb n)) : s.modLb n f = s.modLb n g := by
  rw [State.modLb, State.modLb, same]

/-- The write that alone is on its way lands at its stroke. -/
theorem State.landRes_singleton (clean : s.ecc = []) (only : (s.lb n).resPend = [w]) (due : w.due ≤ q) :
    s.landRes n q = s.modLb n (fun b => { b with resPend := [], res := writeLE b.res w.addr w.n w.v }) := by
  have moved : s.landRes n q = (s.modLb n (fun b => { b with resPend := b.resPend.filter (fun w => !(w.due ≤ q)) })).resPut
      n w.addr w.n w.v := by
    simp [State.landRes, only, due]
  rw [moved, State.resPut_of_clean (by exact clean), State.modLb_modLb]
  exact State.modLb_congr (by simp [only, due])

/-- Writes that are not due change neither the memory nor what is on its way. -/
theorem State.landRes_early (early : ∀ w ∈ (s.lb n).resPend, q < w.due) :
    ((s.landRes n q).lb n).res = (s.lb n).res ∧ ((s.landRes n q).lb n).resPend = (s.lb n).resPend := by
  have none_ : (s.lb n).resPend.filter (fun w => w.due ≤ q) = [] := by
    simpa [List.filter_eq_nil_iff] using early
  have all_ : (s.lb n).resPend.filter (fun w => !(w.due ≤ q)) = (s.lb n).resPend := by
    simpa [List.filter_eq_self] using early
  unfold State.landRes
  split
  · exact ⟨rfl, rfl⟩
  · simp only [none_, List.foldl_nil, State.lb_modLb_same]
    exact ⟨trivial, all_⟩

theorem wordsOf_of_within (pos : 0 < k) (within : a % 4 + k ≤ 4) : wordsOf a k = [a / 4] := by
  have one : (a + k - 1) / 4 + 1 - a / 4 = 1 := by omega
  rw [wordsOf, one]
  simp

/-- A write of the service port within one word, where something is on its way. -/
theorem State.resServe_of_within (pend : (s.lb n).resPend ≠ []) (pos : 0 < k) (within : a % 4 + k ≤ 4)
    (fits : v < 256 ^ k) : s.resServe n a k v = s.serveWord n a k v := by
  have start : max a (4 * (a / 4)) = a := by omega
  have width : min (a + k) (4 * (a / 4) + 4) - a = k := by omega
  have some_ : (s.lb n).resPend.isEmpty = false := by simpa using pend
  simp only [State.resServe, some_, Bool.false_eq_true, if_false, wordsOf_of_within pos within, List.foldl_cons,
    List.foldl_nil, start, width, Nat.sub_self, pow_zero, Nat.div_one, Nat.mod_eq_of_lt fits]

end Reservoir

/-! ### Global bits and registers (R12, R136, R137, R566) -/

/-- The write of a global bit that alone is on its way. -/
theorem State.landGbits_singleton {s : State} {q : Nat} {w : GBitWrite} (only : s.gpend = [w]) (due : w.at_ ≤ q) :
    s.landGbits q = { s with gbits := tset false s.gbits w.addr (w.applyTo (tget false s.gbits w.addr)), gpend := [] } := by
  simp [State.landGbits, only, due]

/-- Settles O22: writes of one's own way by what they reach, a register by the unit behind it or by its lock. -/
theorem writesOnTheirWay : Obligations.WritesOnTheirWay := by
  unfold Obligations.WritesOnTheirWay
  refine ⟨fun n q w s clean only due => ?land, fun n a k v w s clean only free thread pos within fits => ?serve,
    fun n a k v w s only atom after before pos within fits => ?serveHeld, fun n q s early => State.landRes_early early,
    fun q w s only due => ?global, fun d w s up crossed first => ?window, fun off w s t aligned noAdj alone ok => ?register,
    fun off w v s t aligned low high noCtl only same cycle lock ok => ?both, fun off w b n s bad => ?refused,
    fun who off w s lock field quiet => ?locked, fun who off w s lock field en dc => ?lockedDc,
    fun who off w s gap => s.regWrite_of_unassigned who w gap⟩
  case land =>
    rw [State.landRes_singleton clean only due]
    exact s.modLb_changes n _
  case serve =>
    have holders : (s.lb n).holders (a / 4) = [] := by simp [LBore.holders, only, free]
    rw [State.resServe_of_within (by simp [only]) pos within fits, State.serveWord, holders]
    dsimp only
    rw [State.resPut_of_clean (by exact clean), State.modLb_modLb, State.lb_modLb_same]
    simp [only, free, thread]
  case serveHeld =>
    have holders : (s.lb n).holders (a / 4) = [w] := by simp [LBore.holders, only, atom, after, before]
    rw [State.resServe_of_within (by simp [only]) pos within fits, State.serveWord, holders]
    dsimp only
    rw [State.lb_modLb_same, only]
    rfl
  case global =>
    rw [State.landGbits_singleton only due]
    refine ⟨rfl, fun a => ?_⟩
    rw [tget_tset, GBitWrite.applyTo]
    by_cases same : a = w.addr
    · rw [same, if_pos rfl]
    · rw [if_neg (Ne.symm same), if_neg same]
  case window =>
    show execWindowWriteArrive d s = _
    simp only [execWindowWriteArrive, first, up, crossed, decide_true, Bool.and_self]
    exact State.act_of rfl
  case register =>
    subst ok
    have none_ : (s.rsOk.winDone.filter (fun v => v.off == off.val && v.cyc == s.rsOk.moment && decide (0x20000 ≤ off.val) &&
        decide (off.val < 0x50000) && !(decide (0x30000 ≤ off.val) && off.val % 0x200 == 0))) = [] := by
      refine List.filter_eq_nil_iff.mpr fun v mem => ?_
      by_cases same : v.off = off.val
      · simp [alone v mem same, State.moment, State.rsOk, State.modHost]
      · simp [same]
    rw [exec_registerWrite_word off w s aligned noAdj]
    simp only [State.hostWrite, none_, ite_self, List.foldl_nil]
    rfl
  case both =>
    subst ok
    have noAdj : off.val ≠ 0x6002C := by omega
    have open_ : (s.rsOk.locked && rwlMask off != 0) = false := by
      cases lk : s.locked
      · simp [State.rsOk, State.modHost, lk]
      · simp [lock lk]
    have one : (s.rsOk.winDone.filter (fun v => v.off == off.val && v.cyc == s.rsOk.moment && decide (0x20000 ≤ off.val) &&
        decide (off.val < 0x50000) && !(decide (0x30000 ≤ off.val) && off.val % 0x200 == 0))) = [v] := by
      have counted : (decide (0x30000 ≤ off.val) && off.val % 0x200 == 0) = false := by
        rw [Bool.and_eq_false_iff]
        by_cases from_ : 0x30000 ≤ off.val
        · exact .inr (by simpa using fun page => noCtl ⟨from_, page⟩)
        · exact .inl (by simpa using from_)
      simp [State.rsOk, State.modHost, only, same, cycle, State.moment, low, high, counted]
    rw [exec_registerWrite_word off w s aligned noAdj]
    simp only [State.hostWrite, open_, Bool.false_eq_true, if_false, one, List.foldl_cons, List.foldl_nil, State.winApply,
      sysWho, same]
    rfl
  case refused =>
    have fault : slaveFault off b n = true := by
      obtain odd | strobes | long := bad
      · simp [slaveFault, odd]
      · have partial_ : b.val ≠ 15 := fun same => strobes (Fin.ext same)
        simp [slaveFault, partial_]
      · have beats : n.val ≠ 0 := fun same => long (Fin.ext same)
        simp [slaveFault, beats]
    show execRegisterWrite off w b n s = _
    rw [execRegisterWrite, if_pos fault]
  case locked =>
    have other : ¬(bit (s.reg 0x70000) 1 = true ∧ IsDcField off) := fun ⟨en, dc⟩ => by
      obtain ⟨h0, h1, h2⟩ := quiet en
      obtain same | same | same := dc
      · exact h0 same
      · exact h1 same
      · exact h2 same
    exact (s.regWrite_of_locked who w lock field).trans (if_neg other)
  case lockedDc => exact (s.regWrite_of_locked who w lock field).trans (if_pos ⟨en, dc⟩)

end Sys2Proof.Machine

/-!
SUPPORT. Events in the manifold: entry, routes and delivery (R380-R398), and the proof of O23.
-/

namespace Sys2Proof.Machine

/-! ### Entry (R380, R381) -/

section Entry

variable {s : State} {e : SrcEvent}

theorem State.mayEnter_of (crossed : e.from_ ≤ s.strokes) (fresh : e.src ∉ s.mf.pulsesNow) : s.mayEnter e = true := by
  simp [State.mayEnter, crossed, fresh]

theorem exec_eventEntry {src : Fin 1024} (first : s.mf.entryQ.find? (fun e => e.src == src.val) = some e) :
    exec (.eventEntry src) s = s.act (s.mayEnter e) (s.enterEvent e) := by
  show execEventEntry src s = _
  rw [execEventEntry, first]

end Entry

/-! ### Routes (R385, R390-R392) -/

theorem State.eccRead_of_clean {s : State} (clean : s.ecc = []) (r : Reader) (m : Mem) (w : Nat) : s.eccRead r m w = s := by
  rw [State.eccRead, State.eccOf_of_clean clean]

theorem State.routeRead_of_clean {s : State} (clean : s.ecc = []) (w : Nat) : s.routeRead w = s := by
  rw [State.routeRead, if_pos (by simp [clean])]

section Routes

variable {s : State} {e : SrcEvent} {r : Nat}

theorem State.routeBy_of_clean (clean : s.ecc = []) : s.routeBy e r =
    if s.pulseRoute r e.src e.rising && s.gateTerm r then
      s.modMf (fun m => { m with
        pulses := m.pulses ++ [{ input := bits (s.route r) 25 16, src := e.src, due := s.strokes + s.hop r }] })
    else s := by
  have look : s.routeLook r e.src = s := by
    unfold State.routeLook
    split
    · rw [State.routeRead_of_clean clean, State.routeRead_of_clean clean]
    · rfl
  rw [State.routeBy, look]

/-- A manifold whose only route carries pulses has no level to sample (R385). -/
theorem State.sampleLevels_of_pulseRoute (only : s.routeNums = [r]) (pulse : bit (s.route r) 28 = false) :
    s.sampleLevels = s := by
  simp [State.sampleLevels, only, pulse]

theorem State.enterCore_of_empty (empty : s.mf.entryQ = []) : s.enterCore = s := by
  simp [State.enterCore, empty]

end Routes

/-! ### Delivery (R394, R395, R398) -/

section Delivery

theorem State.inStat_modIn (s : State) (i j : Nat) (f : InStat → InStat) :
    (s.modIn i f).inStat j = if i = j then f (s.inStat i) else s.inStat j := tget_tput _ _ _ _ _

theorem State.inStat_modIn_same (s : State) (i : Nat) (f : InStat → InStat) : (s.modIn i f).inStat i = f (s.inStat i) :=
  tget_tput_same _ _ _ _

theorem State.modIn_modIn (s : State) (i : Nat) (f g : InStat → InStat) :
    (s.modIn i f).modIn i g = s.modIn i (fun x => g (f x)) := by
  simp [State.modIn, State.modMf]

variable {s : State} {i : Nat} {p : Pulse}

theorem State.combined_of_no_contrib (none_ : s.mf.contrib = []) (i : Nat) : s.combined i = false := by
  simp [State.combined, none_]

/-- The pulse that alone is on its way reaches its input. -/
theorem State.deliver_single (only : s.mf.pulses = [p]) (input : p.input = i) (due : p.due ≤ s.strokes)
    (still : s.mf.moves = []) :
    s.deliver i = (s.modMf (fun m => { m with pulses := [] })).deliverTo i [p.src] none := by
  have taken : s.modMf (fun m => { m with
      pulses := m.pulses.filter (fun p => !(p.input == i && decide (p.due ≤ s.strokes)))
      moves := m.moves.filter (fun x => !(bits (s.route x.route) 25 16 == i && decide (x.due ≤ s.strokes)))
      contrib := [].foldl (fun c (x : LevelMove) => tset false c x.route x.v) m.contrib }) =
      s.modMf (fun m => { m with pulses := [] }) := by
    simp [State.modMf, only, still, input, due]
  simp only [State.deliver, only, still, List.filter_cons, input, beq_self_eq_true, due, decide_true, Bool.and_self, if_true,
    List.filter_nil, List.map_cons, List.map_nil, List.head?_nil, Option.map_none]
  rw [taken]

/-- One pulse at an input that takes part in no level route: dropped under the storm guard, tripping it, or passed on to
the consumer (R398). -/
theorem State.deliverTo_pulse (window : s.strokes / s.stormWin = s.mf.window) (none_ : s.mf.contrib = [])
    (low : (s.inStat i).level = false) (quiet : bit (s.reg 0xF0000) 0 = false) (src : Nat) :
    s.deliverTo i [src] none =
      let v := s.modIn i (fun x => { x with last := some s.strokes })
      if (s.inStat i).storm then v.modIn i (fun x => { x with dropped := min 65535 (x.dropped + 1) })
      else if s.stormMax < (s.inStat i).inWindow + 1 then
        ((v.inLatch i 4 (fun x => { x with storm := true, dropped := min 65535 (x.dropped + 1) })).mfAlarm 0).event
          3 12 0x21 i src
      else (v.modIn i (fun x => { x with inWindow := x.inWindow + 1, level := false, count := 1 })).consume i 1 false := by
  have same : s.stormWindow = s := by rw [State.stormWindow, if_pos window]
  have still : (s.modIn i (fun x => { x with last := some s.strokes })).combined i = false :=
    State.combined_of_no_contrib none_ i
  have bound : (s.modIn i (fun x => { x with last := some s.strokes })).stormMax = s.stormMax := rfl
  simp [State.deliverTo, same, State.combined_of_no_contrib none_, low, b2n, State.inStat_modIn_same, still, bound, quiet]

/-- A pulse at a consumer other than a global bit crosses out (R386, R387, R433). -/
theorem State.consume_pulse (other : 0x280 ≤ i) (bound : i < 0x400) : s.consume i 1 false = s.modMf (fun m => { m with
    trigX := m.trigX ++ (if 0x280 ≤ i ∧ i < 0x380 then [⟨((i - 0x280) / 2, i % 2), s.strokes, 0⟩] else [])
    ptrgX := m.ptrgX ++ (if 0x380 ≤ i ∧ i < 0x3C0 then [i - 0x380] else [])
    capX := m.capX ++ (if 0x3E0 ≤ i ∧ i < 0x3F0 then [⟨i - 0x3E0, s.strokes, 0⟩] else [])
    extX := m.extX ++ (if 0x3F0 ≤ i then [⟨i - 0x3F0, s.strokes, 0⟩] else []) }) := by
  unfold State.consume
  simp only [Nat.zero_lt_one, if_true, Bool.false_eq_true, if_false, if_neg other.not_gt, other, true_and]
  split
  · next trig =>
    simp [State.modMf, show ¬0x380 ≤ i by omega, show ¬0x3E0 ≤ i by omega, show ¬0x3F0 ≤ i by omega]
  · split
    · next trig ptrg =>
      simp [State.modMf, ptrg, show 0x380 ≤ i by omega, show ¬0x3E0 ≤ i by omega, show ¬0x3F0 ≤ i by omega]
    · split
      · next trig ptrg hold =>
        simp [State.modMf, ptrg, show ¬0x3E0 ≤ i by omega, show ¬0x3F0 ≤ i by omega]
      · split
        · next trig ptrg hold cap =>
          simp [State.modMf, ptrg, cap, show 0x3E0 ≤ i by omega, show ¬0x3F0 ≤ i by omega]
        · next trig ptrg hold cap =>
          simp [State.modMf, ptrg, cap, show 0x3F0 ≤ i by omega]

/-- A pulse at a global bit writes it 1 in manifold rank, and notes a write of the threads that it overrides (R395). -/
theorem State.consume_bit (clean : s.ecc = []) (low : i < 0x280) : s.consume i 1 false =
    let t := s.gbitWrite s.strokes 8 (s.bitinTarget i) (some true)
    if s.gbitAfterThreads (s.bitinTarget i) then t.inLatch i 2 (fun x => { x with ovr := true }) else t := by
  have readable : s.isUe .routes (bitmapWord i) = false := State.isUe_of_clean clean _ _
  have writable : s.isUe .globalBits (bitWord 0 (s.bitinTarget i)).2 = false := State.isUe_of_clean clean _ _
  simp only [State.consume, if_pos low, readable, State.routeRead_of_clean clean, Bool.false_eq_true, if_false, State.mfWriteBit,
    writable, State.eccRead_of_clean clean, Nat.zero_lt_one, decide_true, Bool.true_and, Bool.true_or]

/-- What a pulse that passes the guard leaves at its input, and what it brings to the consumer. -/
structure Passed (s : State) (i : Nat) (t : State) : Prop where
  pulses : t.mf.pulses = []
  count : (t.inStat i).count = 1
  inWindow : (t.inStat i).inWindow = (s.inStat i).inWindow + 1
  others : ∀ j, j ≠ i → t.inStat j = s.inStat j
  bits : i < 0x280 → t.gpend = s.gpend ++ [{ at_ := s.strokes, rank := 8, addr := s.bitinTarget i, v := some true }] ∧
    (t.inStat i).ovr = ((s.inStat i).ovr || s.gbitAfterThreads (s.bitinTarget i))
  noBits : 0x280 ≤ i → t.gpend = s.gpend ∧ (t.inStat i).ovr = (s.inStat i).ovr
  trigX : t.mf.trigX = s.mf.trigX ++ (if 0x280 ≤ i ∧ i < 0x380 then [⟨((i - 0x280) / 2, i % 2), s.strokes, 0⟩] else [])
  ptrgX : t.mf.ptrgX = s.mf.ptrgX ++ (if 0x380 ≤ i ∧ i < 0x3C0 then [i - 0x380] else [])
  capX : t.mf.capX = s.mf.capX ++ (if 0x3E0 ≤ i ∧ i < 0x3F0 then [⟨i - 0x3E0, s.strokes, 0⟩] else [])
  extX : t.mf.extX = s.mf.extX ++ (if 0x3F0 ≤ i then [⟨i - 0x3F0, s.strokes, 0⟩] else [])
  rest : { t with mf := s.mf, gpend := s.gpend } = s

/-- The state in which a pulse that passes the guard meets its consumer. -/
def State.passing (s : State) (i : Nat) : State := (s.modMf (fun m => { m with pulses := [] })).modIn i (fun x => { x with
  last := some s.strokes, inWindow := x.inWindow + 1, level := false, count := 1 })

theorem State.passing_inStat (s : State) (i j : Nat) : (s.passing i).inStat j = if i = j then { s.inStat i with
    last := some s.strokes, inWindow := (s.inStat i).inWindow + 1, level := false, count := 1 } else s.inStat j :=
  State.inStat_modIn _ _ _ _

theorem append_if_neg {α : Type} {p : Prop} [Decidable p] {l k m : List α} (out : ¬p) (same : k = l) :
    k = l ++ (if p then m else []) := by
  rw [if_neg out, List.append_nil, same]

theorem State.passing_consume (clean : s.ecc = []) (bound : i < 0x400) : Passed s i ((s.passing i).consume i 1 false) := by
  have self := (s.passing_inStat i i).trans (if_pos rfl)
  have others (j : Nat) (other : j ≠ i) := (s.passing_inStat i j).trans (if_neg (Ne.symm other))
  have strokes : (s.passing i).strokes = s.strokes := rfl
  have pulses : (s.passing i).mf.pulses = [] := rfl
  have trigX : (s.passing i).mf.trigX = s.mf.trigX := rfl
  have ptrgX : (s.passing i).mf.ptrgX = s.mf.ptrgX := rfl
  have capX : (s.passing i).mf.capX = s.mf.capX := rfl
  have extX : (s.passing i).mf.extX = s.mf.extX := rfl
  have gpend : (s.passing i).gpend = s.gpend := rfl
  have rest : { s.passing i with mf := s.mf, gpend := s.gpend } = s := rfl
  by_cases low : i < 0x280
  · have target : (s.passing i).bitinTarget i = s.bitinTarget i := rfl
    have busy : (s.passing i).gbitAfterThreads (s.bitinTarget i) = s.gbitAfterThreads (s.bitinTarget i) := rfl
    have consumed := State.consume_bit (s := s.passing i) (i := i) clean low
    rw [consumed, strokes, target, busy]
    generalize s.passing i = u at *
    have written : (u.gbitWrite s.strokes 8 (s.bitinTarget i) (some true)).gpend =
        s.gpend ++ [{ at_ := s.strokes, rank := 8, addr := s.bitinTarget i, v := some true }] := by rw [← gpend]; rfl
    have noTrig : ¬(0x280 ≤ i ∧ i < 0x380) := by omega
    have noPtrg : ¬(0x380 ≤ i ∧ i < 0x3C0) := by omega
    have noCap : ¬(0x3E0 ≤ i ∧ i < 0x3F0) := by omega
    have noExt : ¬0x3F0 ≤ i := by omega
    cases before : s.gbitAfterThreads (s.bitinTarget i) with
    | false =>
      refine ⟨pulses, ?_, ?_, others, fun _ => ⟨written, ?_⟩, fun high => absurd low high.not_gt, append_if_neg noTrig trigX,
        append_if_neg noPtrg ptrgX, append_if_neg noCap capX, append_if_neg noExt extX, rest⟩
      · show (u.inStat i).count = 1
        rw [self]
      · show (u.inStat i).inWindow = _
        rw [self]
      · show (u.inStat i).ovr = _
        rw [self, before, Bool.or_false]
    | true =>
      have latched (j : Nat) : ((u.gbitWrite s.strokes 8 (s.bitinTarget i) (some true)).inLatch i 2
          (fun x => { x with ovr := true })).inStat j = if i = j then { u.inStat i with
            ovr := true, fresh := (u.inStat i).fresh.set u.strokes 2 } else u.inStat j := State.inStat_modIn _ _ _ _
      refine ⟨pulses, ?_, ?_, fun j other => ?_, fun _ => ⟨written, ?_⟩, fun high => absurd low high.not_gt,
        append_if_neg noTrig trigX, append_if_neg noPtrg ptrgX, append_if_neg noCap capX, append_if_neg noExt extX, rest⟩
      · rw [if_pos rfl, latched, if_pos rfl, self]
      · rw [if_pos rfl, latched, if_pos rfl, self]
      · rw [if_pos rfl, latched, if_neg (Ne.symm other), others j other]
      · rw [if_pos rfl, latched, if_pos rfl, before, Bool.or_true]
  · have consumed := State.consume_pulse (s := s.passing i) (i := i) (not_lt.mp low) bound
    rw [consumed, strokes]
    generalize s.passing i = u at *
    refine ⟨pulses, ?_, ?_, fun j other => ?_, fun h => absurd h low, fun _ => ⟨gpend, ?_⟩, ?_, ?_, ?_, ?_, rest⟩
    · show (u.inStat i).count = 1
      rw [self]
    · show (u.inStat i).inWindow = _
      rw [self]
    · show u.inStat j = s.inStat j
      rw [others j other]
    · show (u.inStat i).ovr = (s.inStat i).ovr
      rw [self]
    · rw [← trigX]
      rfl
    · rw [← ptrgX]
      rfl
    · rw [← capX]
      rfl
    · rw [← extX]
      rfl

/-- The storm guard of an input trips: the delivery is dropped and reported (R398). -/
def State.trip (v : State) (i src : Nat) : State :=
  ((v.inLatch i 4 (fun x => { x with storm := true, dropped := min 65535 (x.dropped + 1) })).mfAlarm 0).event 3 12 0x21 i src

theorem State.trip_inStat (v : State) (i src : Nat) : (v.trip i src).inStat i = { v.inStat i with
    storm := true, dropped := min 65535 ((v.inStat i).dropped + 1), fresh := (v.inStat i).fresh.set v.strokes 4 } := by
  have ins : (v.trip i src).mf.ins =
      (v.inLatch i 4 (fun x => { x with storm := true, dropped := min 65535 (x.dropped + 1) })).mf.ins := rfl
  have self := State.inStat_modIn_same v i (fun x => { x with
    storm := true, dropped := min 65535 (x.dropped + 1), fresh := x.fresh.set v.strokes 4 })
  rw [State.inStat, ins]
  exact self

theorem State.trip_keeps (v : State) (i src : Nat) : (v.trip i src).mf.alarm = v.mf.alarm ||| 1 ∧
    (v.trip i src).mf.trigX = v.mf.trigX ∧ (v.trip i src).mf.ptrgX = v.mf.ptrgX ∧
    ((v.trip i src).evq.getLast?).map (fun e => (e.cls, e.typ, e.arg0, e.arg1)) = some (12, 0x21, i, src) ∧
    { v.trip i src with mf := v.mf, evq := v.evq } = v :=
  ⟨rfl, rfl, rfl, by simp [State.trip, State.event, State.eventAt], by cases v; rfl⟩

/-- The state in which a pulse meets the guard. -/
def State.met (s : State) (i : Nat) : State :=
  (s.modMf (fun m => { m with pulses := [] })).modIn i (fun x => { x with last := some s.strokes })

theorem State.met_inStat (s : State) (i : Nat) : (s.met i).inStat i = { s.inStat i with last := some s.strokes } := by
  rw [State.met, State.inStat_modIn_same]
  rfl

theorem State.met_keeps (s : State) (i : Nat) : (s.met i).mf.alarm = s.mf.alarm ∧ (s.met i).mf.trigX = s.mf.trigX ∧
    (s.met i).mf.ptrgX = s.mf.ptrgX ∧ (s.met i).mf.pulses = [] ∧ (∀ t, { s.met i with mf := s.mf, evq := t } = { s with evq := t }) :=
  ⟨rfl, rfl, rfl, rfl, fun _ => rfl⟩

/-- ROUTE_DELIVERY of the pulse that alone is on its way. -/
theorem exec_routeDelivery_pulse {i : Fin 1024} (only : s.mf.pulses = [p]) (input : p.input = i) (due : p.due ≤ s.strokes)
    (still : s.mf.moves = []) (none_ : s.mf.contrib = []) (low : (s.inStat i).level = false)
    (window : s.strokes / s.stormWin = s.mf.window) (quiet : bit (s.reg 0xF0000) 0 = false) :
    exec (.routeDelivery i) s = .next (
      if (s.inStat i).storm then (s.met i).modIn i (fun x => { x with dropped := min 65535 (x.dropped + 1) })
      else if s.stormMax < (s.inStat i).inWindow + 1 then (s.met i).trip i p.src
      else (s.passing i).consume i 1 false) := by
  have ready : s.dueFor i = true := by simp [State.dueFor, only, input, due]
  have guarded := State.deliverTo_pulse (s := s.modMf (fun m => { m with pulses := [] })) (i := i) window none_ low quiet p.src
  show s.act (s.dueFor i) (s.deliver i) = _
  rw [State.act_of ready, State.deliver_single only input due still, guarded]
  have passing : ((s.modMf (fun m => { m with pulses := [] })).modIn i (fun x => { x with last := some s.strokes })).modIn i
      (fun x => { x with inWindow := x.inWindow + 1, level := false, count := 1 }) = s.passing i := State.modIn_modIn _ _ _ _
  have strokes : (s.modMf (fun m => { m with pulses := [] })).strokes = s.strokes := rfl
  simp only [strokes, passing]
  rfl

end Delivery

/-- Settles O23: entry by what lets an event in, a route by its gate term, a delivery by the guard and the consumer. -/
theorem eventsRoutedAndDelivered : Obligations.EventsRoutedAndDelivered := by
  unfold Obligations.EventsRoutedAndDelivered
  refine ⟨fun src e s first crossed fresh ev pulse => ?pulse, fun src e s first crossed fresh ev level => ?event,
    fun src e s first crossed fresh level noEv => ?level, fun src e s first late => ?late,
    fun e s only core crossed fresh ev => ?core, fun e r s clean entered empty only free pulse => ?stroke,
    fun e r s clean on plain => ?route, fun e r s clean on gated level free => ?gate, fun e r s clean off => ?off,
    fun k level s changed => ?edge,
    fun i p s only input due still none_ low window clean quiet => ⟨fun open_ fits => ?pass, fun open_ excess => ?trip,
      fun storm => ?storm⟩⟩
  case pulse =>
    rw [exec_eventEntry first, State.act_of (State.mayEnter_of crossed fresh)]
    simp only [State.enterEvent, State.modMf, pulse, ev, if_true]
  case event =>
    rw [exec_eventEntry first, State.act_of (State.mayEnter_of crossed fresh)]
    simp only [State.enterEvent, State.modMf, level, ev, if_true, Bool.false_eq_true, if_false]
  case level =>
    rw [exec_eventEntry first, State.act_of (State.mayEnter_of crossed fresh)]
    simp only [State.enterEvent, State.modMf, level, noEv, Bool.false_eq_true, if_false]
  case late =>
    have closed : s.mayEnter e = false := by
      obtain early | again := late
      · simp [State.mayEnter, early]
      · simp [State.mayEnter, again]
    rw [exec_eventEntry first, closed]
    rfl
  case core =>
    have entered : s.enterCore = s.enterEvent e := by
      simp [State.enterCore, only, core, State.mayEnter_of crossed fresh]
    rw [entered]
    simp [State.enterEvent, State.modMf, ev, only]
  case stroke =>
    have looked : (s.routeBy e r).mf.routes = s.mf.routes := by
      rw [State.routeBy_of_clean clean]
      split <;> rfl
    have only' : ((s.routeBy e r).modMf (fun m => { m with entered := [] })).routeNums = [r] := by
      rw [← only]
      exact congrArg (List.map (·.1)) looked
    have pulse' : bit (((s.routeBy e r).modMf (fun m => { m with entered := [] })).route r) 28 = false := by
      rw [← pulse]
      exact congrArg (fun t : Tbl Word => bit (tget 0 t r).toNat 28) looked
    simp only [State.routeStroke, State.enterCore_of_empty empty, entered, List.foldl_cons, List.foldl_nil, free,
      Bool.false_eq_true, if_false, only]
    exact State.sampleLevels_of_pulseRoute only' pulse'
  case route =>
    rw [State.routeBy_of_clean clean, on]
    simp only [State.gateTerm, plain, Bool.false_eq_true, if_false, Bool.and_self, if_true, State.hop, State.modMf]
  case gate =>
    rw [State.routeBy_of_clean clean, on]
    simp only [State.gateTerm, gated, if_true, State.srcLevel, free, level, Bool.false_eq_true, if_false, State.hop, State.modMf,
      Bool.true_and, bne_iff_ne, ne_eq, ite_not]
    split <;> rfl
  case off => rw [State.routeBy_of_clean clean, off, Bool.false_and, if_neg Bool.false_ne_true]
  case edge =>
    show s.act _ _ = _
    rw [State.act_of (by simpa using changed)]
    rfl
  case pass =>
    refine ⟨_, exec_routeDelivery_pulse only input due still none_ low window quiet, ?_⟩
    simp only [open_, Bool.false_eq_true, if_false, if_neg fits.not_gt]
    obtain ⟨pulses, count, inWindow, others, bits, noBits, trigX, ptrgX, capX, extX, rest⟩ :=
      State.passing_consume (s := s) clean i.isLt
    exact ⟨pulses, count, inWindow, others, bits, noBits, trigX, ptrgX, capX, extX, rest⟩
  case trip =>
    refine ⟨_, exec_routeDelivery_pulse only input due still none_ low window quiet, ?_⟩
    simp only [open_, Bool.false_eq_true, if_false, if_pos excess]
    obtain ⟨alarm, trigX, ptrgX, last, rest⟩ := (s.met i).trip_keeps i p.src
    obtain ⟨alarm', trigX', ptrgX', -, rest'⟩ := s.met_keeps i
    rw [State.trip_inStat, State.met_inStat]
    refine ⟨rfl, rfl, ?_, last, trigX.trans trigX', ptrgX.trans ptrgX', ?_⟩
    · rw [alarm, alarm']
    · let g : State → State := fun t => { t with mf := s.mf, evq := s.evq }
      exact ((congrArg g rest :) : _ = g (s.met i)).trans (rest' s.evq)
  case storm =>
    refine ⟨_, exec_routeDelivery_pulse only input due still none_ low window quiet, ?_⟩
    rw [if_pos storm]
    obtain ⟨-, -, -, pulses, rest⟩ := s.met_keeps i
    refine ⟨?_, pulses, rest s.evq⟩
    simp only [State.inStat_modIn_same, State.met_inStat]

end Sys2Proof.Machine

/-!
SUPPORT. The consumers of the manifold and its registers (R386-R401), and the proof of O24.
-/

namespace Sys2Proof.Machine

/-! ### Tables and fields -/

theorem tfind_tdel {α : Type} (t : Tbl α) (i j : Nat) : tfind (tdel t i) j = if i = j then none else tfind t j := by
  induction t with
  | nil => simp [tdel, tfind]
  | cons e t ih =>
    obtain ⟨k, v⟩ := e
    by_cases h : k = i
    · subst h
      simp only [tdel, if_true, ih, tfind]
      split <;> rfl
    · simp only [tdel, if_neg h, tfind, ih]
      by_cases hk : k = j
      · simp [hk, show ¬i = j from fun c => h (hk.trans c.symm)]
      · simp [hk]

/-- A function of all entries of a table that keeps its default. -/
theorem tget_map {α : Type} (d : α) (f : α → α) (keeps : f d = d) (t : Tbl α) (i : Nat) :
    tget d (t.map (fun e => (e.1, f e.2))) i = f (tget d t i) := by
  induction t with
  | nil => exact keeps.symm
  | cons e t ih =>
    obtain ⟨k, v⟩ := e
    simp only [List.map_cons, tget, ih]
    split <;> rfl

/-- A field that is written leaves the bits below it. -/
theorem bit_putBits_below {i lo hi : Nat} (below : i < lo) (w f : Nat) : bit (putBits w hi lo f) i = bit w i := by
  obtain ⟨k, rfl⟩ : ∃ k, lo = i + 1 + k := ⟨lo - (i + 1), by omega⟩
  have unit : 2 ^ (i + 1 + k) = 2 ^ i * (2 * 2 ^ k) := by ring
  have field : bits w hi (i + 1 + k) * 2 ^ (i + 1 + k) ≤ w :=
    (Nat.mul_le_mul_right _ (Nat.mod_le _ _)).trans (Nat.div_mul_le_self _ _)
  have low : (w - bits w hi (i + 1 + k) * 2 ^ (i + 1 + k)) / 2 ^ i % 2 = w / 2 ^ i % 2 := by
    rw [unit, show bits w hi (i + 1 + k) * (2 ^ i * (2 * 2 ^ k)) = 2 ^ i * (2 * (bits w hi (i + 1 + k) * 2 ^ k)) by ring] at *
    rw [Nat.sub_mul_div]
    have : 2 * (bits w hi (i + 1 + k) * 2 ^ k) ≤ w / 2 ^ i := by
      rw [Nat.le_div_iff_mul_le (by positivity), mul_comm]
      exact field
    omega
  have high (n c : Nat) : (n + c * 2 ^ (i + 1 + k)) / 2 ^ i % 2 = n / 2 ^ i % 2 := by
    rw [unit, show c * (2 ^ i * (2 * 2 ^ k)) = 2 ^ i * (2 * (c * 2 ^ k)) by ring, Nat.add_mul_div_left _ _ (by positivity)]
    omega
  rw [bit, putBits, high, low]
  rfl

/-! ### Consumers (R386-R390) -/

section Consumers

variable {s : State}

theorem exec_triggerArrive {v : Fin 128} {k : Fin 2} {e : Cross (Nat × Nat)}
    (first : s.mf.trigX.find? (fun c => c.val == (v.val, k.val)) = some e) :
    exec (.triggerArrive v k) s = s.act (e.outG s) { s.modMf (fun m => { m with trigX := m.trigX.erase e }) with
      valves := tput s.valves v.val
        (if (s.valve v).trig k then (s.valve v).setOvr s.moment k else (s.valve v).setTrig k true) } := by
  show execTriggerArrive v k s = _
  rw [execTriggerArrive, first]
  rfl

theorem exec_txholdChange {n : Fin 32} {e : Cross (Nat × Bool)}
    (first : s.mf.holdX.find? (fun e => e.val.1 == n.val) = some e) :
    exec (.txholdChange n) s = s.act (e.outG s) (s.modMf (fun m => { m with
      holdX := m.holdX.erase e, txhold := tset false m.txhold n.val e.val.2 })) := by
  show execTxholdChange n s = _
  rw [execTxholdChange, first]

theorem exec_tscapCapture {k : Fin 16} {e : Cross Nat} (first : s.mf.capX.find? (fun c => c.val == k.val) = some e)
    (out : e.outT s = true) : exec (.tscapCapture k) s = .next (
      let s1 := s.modMf (fun m => { m with capX := m.capX.erase e })
      if (tget {} s.mf.caps k.val : Capture).valid then s1.inLatch (0x3E0 + k.val) 2 (fun x => { x with ovr := true })
      else s1.modMf (fun m => { m with
        caps := tput m.caps k.val { time := s.tb.now, epoch := s.tb.epoch, valid := true
                                    fresh := ({} : Fresh).set s.strokes 1 } })) := by
  show execTscapCapture k s = _
  rw [execTscapCapture, first]
  exact State.act_of out

theorem exec_extoutPulse {k : Fin 16} {e : Cross Nat} (first : s.mf.extX.find? (fun c => c.val == k.val) = some e)
    (out : e.outT s = true) : exec (.extoutPulse k) s = .next (
      let s1 := s.modMf (fun m => { m with extX := m.extX.erase e })
      if s.stretching k.val then s1.inLatch (0x3F0 + k.val) 2 (fun x => { x with ovr := true })
      else s1.modMf (fun m => { m with
        stretch := tput m.stretch k.val (s.tb.edges + bits (s.reg 0x5000C) 7 0) })) := by
  show execExtoutPulse k s = _
  rw [execExtoutPulse, first]
  exact State.act_of out

theorem Cross.outT_of {α : Type} {e : Cross α} (stroke : e.at_ < s.strokes) (edges : e.edge + 2 ≤ s.tb.edges) :
    e.outT s = true := by
  simp [Cross.outT, stroke, edges]

theorem State.inStat_inLatch_same (s : State) (i m : Nat) (f : InStat → InStat) :
    (s.inLatch i m f).inStat i = { f (s.inStat i) with fresh := (s.inStat i).fresh.set s.strokes m } :=
  State.inStat_modIn_same _ _ _

theorem State.extOut_iff (s : State) (k : Nat) : s.extOut k = true ↔
    tget false s.mf.extLevel k = true ∨ ∃ q, tfind s.mf.stretch k = some q ∧ s.tb.edges < q := by
  rw [State.extOut, Bool.or_eq_true, State.stretching]
  cases tfind s.mf.stretch k <;> simp

theorem State.not_stretching {k : Nat} (ended : ∀ q, tfind s.mf.stretch k = some q → q ≤ s.tb.edges) :
    s.stretching k = false := by
  cases found : tfind s.mf.stretch k with
  | none => simp [State.stretching, found]
  | some q => simp [State.stretching, found, (ended q found)]

end Consumers

/-! ### Storm guard (R398) -/

section Storm

variable {s : State} {i : Nat}

theorem State.stormWindow_of_next (next : s.strokes / s.stormWin ≠ s.mf.window) : s.stormWindow = s.modMf (fun m => { m with
    window := s.strokes / s.stormWin, ins := m.ins.map (fun e => (e.1, { e.2 with inWindow := 0 })) }) :=
  if_neg next

theorem State.inStat_stormWindow (s : State) (i : Nat) :
    s.stormWindow.inStat i = s.inStat i ∨ s.stormWindow.inStat i = { s.inStat i with inWindow := 0 } := by
  by_cases same : s.strokes / s.stormWin = s.mf.window
  · rw [State.stormWindow, if_pos same]
    exact .inl rfl
  · rw [State.stormWindow_of_next same]
    exact .inr (tget_map ({} : InStat) (fun x => { x with inWindow := 0 }) rfl s.mf.ins i)

theorem State.stormWindow_keeps (s : State) : s.stormWindow.mf.contrib = s.mf.contrib ∧
    { s.stormWindow with mf := s.mf } = s := by
  unfold State.stormWindow
  dsimp only
  split <;> exact ⟨rfl, rfl⟩

/-- An input without a pulse and without a level meets no delivery. -/
theorem State.deliverTo_nothing (none_ : s.mf.contrib = []) (low : (s.inStat i).level = false) :
    s.deliverTo i [] none = s.stormWindow := by
  have level : (s.stormWindow.inStat i).level = false := by
    obtain h | h := s.inStat_stormWindow i
    · rw [h, low]
    · rw [h, ← low]
  have still : s.stormWindow.combined i = false :=
    State.combined_of_no_contrib (s.stormWindow_keeps.1.trans none_) i
  simp [State.deliverTo, level, still]

/-- A rearmed input without a level is as after reset, but for its flags (R398). -/
theorem State.stormRearm_of_quiet (none_ : s.mf.contrib = []) (low : (s.inStat i).level = false) :
    (s.stormRearm i).inStat i = { s.inStat i with storm := false, dropped := 0, inWindow := 0 } ∧
    { s.stormRearm i with mf := s.mf } = s := by
  have cleared := State.inStat_modIn_same s i (fun x => { x with storm := false, dropped := 0, inWindow := 0 })
  have rest : { s.modIn i (fun x => { x with storm := false, dropped := 0, inWindow := 0 }) with mf := s.mf } = s := rfl
  have none' : (s.modIn i (fun x => { x with storm := false, dropped := 0, inWindow := 0 })).mf.contrib = [] := none_
  rw [State.stormRearm]
  generalize s.modIn i (fun x => { x with storm := false, dropped := 0, inWindow := 0 }) = u at *
  rw [State.deliverTo_nothing none' (by rw [cleared, ← low])]
  constructor
  · obtain h | h := u.inStat_stormWindow i <;> rw [h, cleared]
  · let g : State → State := fun t => { t with mf := s.mf }
    exact ((congrArg g u.stormWindow_keeps.2 :) : _ = g u).trans rest

theorem State.inStatWrite_arm (s : State) (i w : Nat) : s.inStatWrite i (putBits w 10 10 1) =
    let h := (s.inStat i).fresh.held s.strokes
    let u := s.modIn i (fun x => { x with
      coincident := x.coincident && (!bit w 8 || bit h 0), ovr := x.ovr && (!bit w 9 || bit h 1) })
    if bit h 2 then u else u.stormRearm i := by
  simp only [State.inStatWrite, bit_putBits_one, bit_putBits_below (show 8 < 10 by decide),
    bit_putBits_below (show 9 < 10 by decide), Bool.true_and]
  cases bit ((s.inStat i).fresh.held s.strokes) 2 <;> rfl

end Storm

/-! ### Routes and the signature (R399-R401) -/

section Registers

variable {s : State} {r w g : Nat}

/-- The pair of a route as ROUTE_WRITE stores it (R386). -/
def State.routeStore (s : State) (r w g : Nat) : State :=
  (((s.setEcc .routes (routeWord r) none).setEcc .routes (routeWord r + 1) none).modMf (fun m => { m with
    routes := tset 0 m.routes r (BitVec.ofNat 32 w), gates := tset 0 m.gates r (BitVec.ofNat 32 g) })).mfTouch

/-- What a route that has changed still has on its way ends with it. -/
def State.routeRenew (u : State) (r : Nat) : State := u.modMf (fun m => { m with
  carry := tset false m.carry r false, contrib := tset false m.contrib r false
  moves := m.moves.filter (fun x => x.route != r) })

/-- An illegal pair is reported. -/
def State.routeReport (u : State) (r : Nat) : State :=
  (u.modMf (fun m => { m with routeErr := 2 ^ 31 + r, freshErr := m.freshErr.set u.strokes (2 ^ 31) })).mfAlarm 3

theorem State.routeWrite_cases (s : State) (r w : Nat) : ∃ u,
    (u = s.routeStore r w (tget 0 s.mf.gatesHeld r).toNat ∨
      u = (s.routeStore r w (tget 0 s.mf.gatesHeld r).toNat).routeRenew r) ∧
    s.routeWrite r w = if routeBad w (tget 0 s.mf.gatesHeld r).toNat then u.routeReport r else u := by
  refine ⟨_, ?_, rfl⟩
  split
  · exact .inl rfl
  · exact .inr rfl

theorem State.routeReport_keeps (u : State) (r : Nat) : (u.routeReport r).mf.routes = u.mf.routes ∧
    (u.routeReport r).mf.gates = u.mf.gates ∧ (u.routeReport r).mf.routeErr = 2 ^ 31 + r ∧
    (u.routeReport r).mf.alarm = u.mf.alarm ||| 8 := by
  rw [State.routeReport]
  obtain ⟨m, same⟩ : ∃ m : Nat, m = 2 ^ 31 := ⟨_, rfl⟩
  rw [← same]
  exact ⟨rfl, rfl, rfl, rfl⟩

/-- What the pair's own store and its renewal leave alike. -/
theorem State.routeStore_keeps (s : State) (r w g : Nat) :
    (s.routeStore r w g).mf.routes = tset 0 s.mf.routes r (BitVec.ofNat 32 w) ∧
    (s.routeStore r w g).mf.gates = tset 0 s.mf.gates r (BitVec.ofNat 32 g) ∧ (s.routeStore r w g).mf.stale = true ∧
    (s.routeStore r w g).mf.alarm = s.mf.alarm ∧ { s.routeStore r w g with mf := s.mf, ecc := s.ecc } = s :=
  ⟨rfl, rfl, rfl, rfl, by simp [State.routeStore, State.mfTouch, State.modMf, State.setEcc]⟩

theorem State.routeRenew_keeps (u : State) (r : Nat) : (u.routeRenew r).mf.routes = u.mf.routes ∧
    (u.routeRenew r).mf.gates = u.mf.gates ∧ (u.routeRenew r).mf.stale = u.mf.stale ∧
    (u.routeRenew r).mf.alarm = u.mf.alarm ∧ ∀ m e, { u.routeRenew r with mf := m, ecc := e } = { u with mf := m, ecc := e } :=
  ⟨rfl, rfl, rfl, rfl, fun _ _ => rfl⟩

theorem State.routeStored {u : State} (stored : u = s.routeStore r w g ∨ u = (s.routeStore r w g).routeRenew r) :
    u.mf.routes = tset 0 s.mf.routes r (BitVec.ofNat 32 w) ∧ u.mf.gates = tset 0 s.mf.gates r (BitVec.ofNat 32 g) ∧
    u.mf.stale = true ∧ u.mf.alarm = s.mf.alarm ∧ { u with mf := s.mf, ecc := s.ecc } = s := by
  have store := s.routeStore_keeps r w g
  obtain rfl | rfl := stored
  · exact store
  · generalize s.routeStore r w g = v at *
    obtain ⟨routes, gates, stale, alarm, rest⟩ := store
    obtain ⟨routes', gates', stale', alarm', rest'⟩ := v.routeRenew_keeps r
    exact ⟨routes'.trans routes, gates'.trans gates, stale'.trans stale, alarm'.trans alarm, (rest' _ _).trans rest⟩

/-- The pair of a route after its tables are written. -/
theorem State.route_of_tset {t : State} (hw : w < 2 ^ 32) (hg : g < 2 ^ 32)
    (routes : t.mf.routes = tset 0 s.mf.routes r (BitVec.ofNat 32 w))
    (gates : t.mf.gates = tset 0 s.mf.gates r (BitVec.ofNat 32 g)) :
    t.route r = w ∧ t.gate r = g ∧ ∀ q, q ≠ r → t.route q = s.route q ∧ t.gate q = s.gate q := by
  refine ⟨?_, ?_, fun q other => ⟨?_, ?_⟩⟩
  · rw [State.route, routes, tget_tset, if_pos rfl, BitVec.toNat_ofNat, Nat.mod_eq_of_lt hw]
  · rw [State.gate, gates, tget_tset, if_pos rfl, BitVec.toNat_ofNat, Nat.mod_eq_of_lt hg]
  · rw [State.route, routes, tget_tset, if_neg (Ne.symm other), State.route]
  · rw [State.gate, gates, tget_tset, if_neg (Ne.symm other), State.gate]

theorem State.sigStep_of_clean (clean : s.ecc = []) (begun : s.mf.sigDone = none) : s.sigStep =
    let c := (toBytes 4 (s.sigWord s.mf.sigPos)).foldl (crcStep 0x82F63B78) s.mf.sigCrc
    if s.mf.sigPos + 1 < 4752 then s.modMf (fun m => { m with sigPos := m.sigPos + 1, sigCrc := c })
    else s.modMf (fun m => { m with
      sigPos := 0, sigCrc := 0xFFFFFFFF, sigDone := some (c ^^^ 0xFFFFFFFF, m.passStart), passStart := s.strokes + 1 }) := by
  have pass : s.sigPass = s := by rw [State.sigPass, begun]
  rw [State.sigStep, pass, State.routeRead_of_clean clean]
  rfl

/-- A signature that differs from the golden value (R400). -/
def State.sigMismatch (s : State) (v : Nat) : State :=
  (((((s.modMf (fun m => { m with sigDone := none })).modMf (fun m => { m with
    sigLast := v, passes := (m.passes + 1) % 65536 })).modMf (fun m => { m with lastMatch := false })).mfAlarm 1).event
      3 8 0x20 v (s.reg 0x50010))

/-- A signature that is judged: no route is stale, and the golden value stood before the pass began (R400). -/
theorem exec_signaturePass_judged {v b : Nat} (done : s.mf.sigDone = some (v, b)) (settled : s.mf.stale = false)
    (golden : s.mf.goldenAt ≤ b) : exec .signaturePass s = .next (
      if v = s.reg 0x50010 then s.modMf (fun m => { m with
        sigDone := none, sigLast := v, passes := (m.passes + 1) % 65536, lastMatch := true })
      else s.sigMismatch v) := by
  have reg : ((s.modMf (fun m => { m with sigDone := none })).modMf (fun m => { m with
    sigLast := v, passes := (m.passes + 1) % 65536 })).reg 0x50010 = s.reg 0x50010 := rfl
  show s.act s.mf.sigDone.isSome s.sigPass = _
  rw [State.act_of (by rw [done]; rfl), State.sigPass, done]
  simp only [State.sigEnd, reg]
  rw [if_neg (by show ¬s.mf.stale = true; simp [settled]), if_neg (by exact golden.not_gt)]
  by_cases same : v = s.reg 0x50010
  · rw [if_pos same, if_pos same]
    rfl
  · rw [if_neg same, if_neg same]
    rfl

theorem State.sigMismatch_keeps (s : State) (v : Nat) : (s.sigMismatch v).mf.sigLast = v ∧
    (s.sigMismatch v).mf.lastMatch = false ∧ (s.sigMismatch v).mf.alarm = s.mf.alarm ||| 2 ∧
    ((s.sigMismatch v).evq.getLast?).map (fun e => (e.cls, e.typ, e.arg0, e.arg1)) = some (8, 0x20, v, s.reg 0x50010) ∧
    { s.sigMismatch v with mf := s.mf, evq := s.evq } = s :=
  ⟨rfl, rfl, rfl, by simp [State.sigMismatch, State.event, State.eventAt],
    by simp [State.sigMismatch, State.event, State.eventAt, State.mfAlarm, State.modMf, State.alarmEvent]⟩

end Registers

/-- Settles O24: each consumer by its equation, the guard by its window, the signature by its pass. -/
theorem consumersAndManifoldControl : Obligations.ConsumersAndManifoldControl := by
  unfold Obligations.ConsumersAndManifoldControl
  refine ⟨fun v e s first out => ?trig0, fun v e s first out => ?trig1, fun v k e s first late => ?early,
    fun n e s first out => ?hold, fun k e s first stroke edges empty => ?capture, fun k e s first stroke edges full => ?ovr,
    fun k e s first stroke edges ended => ?pulse, fun k q e s first stroke edges found running => ?merged,
    fun k e s found ended => ?ended, fun e s only stroke edges => ?level, fun k s => s.extOut_iff k, fun s next => ?window,
    fun i w s low8 low9 none_ low held => ?rearm, fun i w s held => ?held, fun r w g s hg good => ?good,
    fun r w g s hg bad => ?bad, fun r w s => ?gate, fun s clean begun more => ?step, fun s clean begun last => ?done,
    fun s => ⟨fun r hr => ?routeWord, fun i hi => ?bitWord, fun k hk => ?trigWord⟩,
    fun v b s done settled golden same => ?golden_, fun v b s done settled golden differs => ?mismatch, fun w s => ?golden⟩
  case trig0 =>
    have out' : e.outG s = true := by simpa [Cross.outG] using out
    refine ⟨_, (exec_triggerArrive (k := 0) first).trans (State.act_of out'), ?_, fun u other => ?_, rfl, rfl⟩
    · refine Eq.trans (tget_tput_same _ _ _ _) ?_
      simp [ValveSt.trig, ValveSt.setOvr, ValveSt.setTrig, State.moment]
    · exact tget_tput_other _ _ _ _ _ (Ne.symm other)
  case trig1 =>
    have out' : e.outG s = true := by simpa [Cross.outG] using out
    refine ⟨_, (exec_triggerArrive (k := 1) first).trans (State.act_of out'), ?_, fun u other => ?_, rfl, rfl⟩
    · refine Eq.trans (tget_tput_same _ _ _ _) ?_
      simp [ValveSt.trig, ValveSt.setOvr, ValveSt.setTrig, State.moment]
    · exact tget_tput_other _ _ _ _ _ (Ne.symm other)
  case early =>
    have inside : e.outG s = false := by simpa [Cross.outG] using late
    rw [exec_triggerArrive first, inside]
    rfl
  case hold =>
    have out' : e.outG s = true := by simpa [Cross.outG] using out
    refine ⟨_, (exec_txholdChange first).trans (State.act_of out'), ?_, fun m other => ?_, rfl, rfl⟩
    · exact (tget_tset _ _ _ _ _).trans (if_pos rfl)
    · exact (tget_tset _ _ _ _ _).trans (if_neg (Ne.symm other))
  case capture =>
    refine ⟨_, exec_tscapCapture first (Cross.outT_of stroke edges), ?_⟩
    simp only [empty, Bool.false_eq_true, if_false, State.modMf, tget_tput_same, true_and]
  case ovr =>
    refine ⟨_, exec_tscapCapture first (Cross.outT_of stroke edges), ?_⟩
    simp only [full, if_true]
    exact ⟨rfl, congrArg InStat.ovr (State.inStat_inLatch_same _ _ _ _), rfl, rfl⟩
  case pulse =>
    refine ⟨_, exec_extoutPulse first (Cross.outT_of stroke edges), ?_⟩
    simp only [State.not_stretching ended, Bool.false_eq_true, if_false, State.modMf, tfind_tput, if_true]
    exact ⟨trivial, trivial⟩
  case merged =>
    refine ⟨_, exec_extoutPulse first (Cross.outT_of stroke edges), ?_⟩
    have busy : s.stretching k = true := by simp [State.stretching, found, running]
    simp only [busy, if_true]
    exact ⟨rfl, congrArg InStat.ovr (State.inStat_inLatch_same _ _ _ _), rfl⟩
  case ended =>
    have run : exec (.stretcherEnd k) s = .next (s.modMf (fun m => { m with stretch := tdel m.stretch k.val })) := by
      show execStretcherEnd k s = _
      rw [execStretcherEnd, found]
      exact State.act_of (decide_eq_true ended)
    exact ⟨_, run, (tfind_tdel _ _ _).trans (if_pos rfl), rfl⟩
  case level => simp [State.extLevels, only, stroke, edges, State.modMf]
  case window =>
    refine ⟨_, rfl, ?_⟩
    rw [State.stormWindow_of_next next]
    exact ⟨rfl, fun i => tget_map ({} : InStat) (fun x => { x with inWindow := 0 }) rfl s.mf.ins i, rfl⟩
  case rearm =>
    have rearmed := State.inStatWrite_arm s i w.toNat
    simp only [low8, low9, held, Bool.not_false, Bool.true_or, Bool.and_true, Bool.false_eq_true, if_false] at rearmed
    refine ⟨_, rfl, ?_⟩
    rw [rearmed]
    have self := State.inStat_modIn_same s i (fun x => { x with coincident := x.coincident, ovr := x.ovr })
    have rest : { s.modIn i (fun x => { x with coincident := x.coincident, ovr := x.ovr }) with mf := s.mf } = s := rfl
    have none' : (s.modIn i (fun x => { x with coincident := x.coincident, ovr := x.ovr })).mf.contrib = [] := none_
    generalize s.modIn i (fun x => { x with coincident := x.coincident, ovr := x.ovr }) = u at *
    obtain ⟨input, rest'⟩ := State.stormRearm_of_quiet none' (low := by rw [self, ← low])
    refine ⟨by rw [input, self], ?_⟩
    let g : State → State := fun t => { t with mf := s.mf }
    exact ((congrArg g rest' :) : _ = g u).trans rest
  case held =>
    refine ⟨_, rfl, ?_⟩
    rw [State.inStatWrite_arm]
    simp only [held, if_true, State.inStat_modIn_same, true_and]
    rfl
  case good =>
    subst hg
    obtain ⟨u, stored, run⟩ := s.routeWrite_cases r w.toNat
    rw [good, if_neg Bool.false_ne_true] at run
    obtain ⟨routes, gates, stale, alarm, rest⟩ := State.routeStored stored
    obtain ⟨route, gate, others⟩ := State.route_of_tset w.isLt (tget 0 s.mf.gatesHeld r).isLt routes gates
    exact ⟨u, congrArg Host.Outcome.next run, route, gate, others, stale, alarm, rest⟩
  case bad =>
    subst hg
    obtain ⟨u, stored, run⟩ := s.routeWrite_cases r w.toNat
    rw [bad, if_pos rfl] at run
    obtain ⟨routes, gates, -, alarm, -⟩ := State.routeStored stored
    obtain ⟨routes', gates', err, alarm'⟩ := u.routeReport_keeps r
    obtain ⟨route, gate, -⟩ := State.route_of_tset w.isLt (tget 0 s.mf.gatesHeld r).isLt (routes'.trans routes)
      (gates'.trans gates)
    refine ⟨_, congrArg Host.Outcome.next run, route, ?_, err, by rw [alarm', alarm]⟩
    rw [State.routeOn, route, gate, bad, Bool.not_true, Bool.and_false, Bool.false_and, Bool.false_and]
  case gate =>
    refine ⟨_, rfl, ?_, rfl, rfl, rfl, rfl⟩
    refine (tget_tset _ _ _ _ _).trans ((if_pos rfl).trans ?_)
    exact (BitVec.ofNat_toNat 32 w).trans (BitVec.setWidth_eq w)
  case step =>
    rw [State.sigStep_of_clean clean begun]
    exact if_pos more
  case done =>
    rw [State.sigStep_of_clean clean begun, last]
    rfl
  case routeWord =>
    simp [State.sigWord, show 2 * r < 4096 by omega, show 2 * r + 1 < 4096 by omega, show (2 * r + 1) / 2 = r by omega]
  case bitWord => simp [State.sigWord, show 4096 + i < 4736 by omega]
  case trigWord => simp [State.sigWord, show ¬4736 + k < 4096 by omega]
  case golden_ => exact (exec_signaturePass_judged done settled golden).trans (congrArg Host.Outcome.next (if_pos same))
  case mismatch =>
    have run := (exec_signaturePass_judged done settled golden).trans (congrArg Host.Outcome.next (if_neg differs))
    obtain ⟨last, match_, alarm, event, rest⟩ := s.sigMismatch_keeps v
    exact ⟨_, run, match_, last, alarm, event, rest⟩
  case golden =>
    refine ⟨_, rfl, ?_, rfl, fun o other => ?_, rfl⟩
    · exact (State.reg_setReg_same _ _ _).trans (by rw [Nat.mod_eq_of_lt w.isLt])
    · exact State.reg_setReg_other _ _ _ _ other

end Sys2Proof.Machine

/-!
SUPPORT. The valves' instructions (chapter 08), and the proofs of O25 and O26.
-/

namespace Sys2Proof.Machine

/-! ### The valve cycle (R255, R259) -/

section Cycle

variable {s : State} {v : Fin 128} {w : Nat}

theorem ValveAt.ready (h : ValveAt s v w) {p : Nat → Bool} (op : p w = true) : s.vReady v p = true := by
  obtain ⟨clocked, runs, free, word, legal⟩ := h
  have clocked' : s.up (3 + portOfValve v / 4) = true := by
    rw [show 3 + portOfValve v / 4 = 3 + v / 16 by rw [portOfValve, Nat.div_div_eq_div_mul]]
    exact clocked
  simp [State.vReady, clocked', runs, free, word, legal, op]

/-- An instruction that ends in its first cycle (R259). -/
theorem ValveAt.vRun (h : ValveAt s v w) {p : Nat → Bool} (op : p w = true) (f : State → State) (target : Nat → Option Nat) :
    s.vRun v p f target = .next ((f s).vNext v w ((target w).getD ((s.valve v).pc + 1))) := by
  rw [State.vRun, State.act_of (h.ready op), h.word]
  rfl

theorem ValveAt.isCount (op : vOp w = 1) {a : Nat} (act : bits (vParam w) 7 6 = a) : isCount a w = true := by
  simp [Machine.isCount, op, act]

theorem ValveAt.isShift (op : vOp w = 2) {a : Nat} (act : bits (vParam w) 8 7 = a) : isShift a w = true := by
  simp [Machine.isShift, op, act]

theorem ValveAt.isSignal (op : vOp w = 6) {a : Nat} (act : bits (vParam w) 8 7 = a) : isSignal a w = true := by
  simp [Machine.isSignal, op, act]

theorem countReg_eq_zero_iff (w : Nat) : countReg w = 0 ↔ bit (vParam w) 8 = false := by
  simp only [countReg, bits, bit, beq_eq_false_iff_ne]
  omega

/-- The counter that COUNT names (R260). -/
theorem ValveSt.setK_countReg (x : ValveSt) (w c : Nat) :
    x.setK (countReg w) c = if bit (vParam w) 8 then { x with k1 := c } else { x with k0 := c } := by
  by_cases first : countReg w = 0
  · rw [ValveSt.setK, if_pos first, (countReg_eq_zero_iff w).mp first]
    rfl
  · have second : bit (vParam w) 8 = true := by simpa [countReg_eq_zero_iff] using first
    rw [ValveSt.setK, if_neg first, if_pos second]

theorem ValveSt.k_countReg (x : ValveSt) (w : Nat) : x.k (countReg w) = if bit (vParam w) 8 then x.k1 else x.k0 := by
  by_cases first : countReg w = 0
  · rw [ValveSt.k, if_pos first, (countReg_eq_zero_iff w).mp first]
    rfl
  · have second : bit (vParam w) 8 = true := by simpa [countReg_eq_zero_iff] using first
    rw [ValveSt.k, if_neg first, if_pos second]

end Cycle

/-! ### Pin effects (R257) -/

section PinEffects

/-- What two bits of an instruction word do to a pin that the valve owns. -/
def pinEffect (f : Nat) (p : PinSt) : PinSt :=
  match f with
  | 1 => { p with out := false, oe := true }
  | 2 => { p with out := true, oe := true }
  | 3 => { p with oe := false }
  | _ => p

/-- The effect of an instruction word on pin `j` of its port. -/
def State.pinStep (s : State) (v w j : Nat) : State :=
  match vPin w j with
  | 1 => s.pinDrive v j false
  | 2 => s.pinDrive v j true
  | 3 => s.pinOe v j false
  | _ => s

variable (s : State) (v w : Nat)

theorem State.pinOe_rest (j : Nat) (e : Bool) : { s.pinOe v j e with pins := s.pins } = s := by
  unfold State.pinOe
  split <;> rfl

theorem State.pinOut_rest (j : Nat) (l : Bool) : { s.pinOut v j l with pins := s.pins } = s := by
  unfold State.pinOut
  split <;> rfl

theorem State.pinDrive_rest (j : Nat) (l : Bool) : { s.pinDrive v j l with pins := s.pins } = s := by
  let g : State → State := fun t => { t with pins := s.pins }
  exact ((congrArg g ((s.pinOut v j l).pinOe_rest v j true) :) : _ = g _).trans (s.pinOut_rest v j l)

theorem State.pinStep_rest (j : Nat) : { s.pinStep v w j with pins := s.pins } = s := by
  unfold State.pinStep
  split
  · exact s.pinDrive_rest v j false
  · exact s.pinDrive_rest v j true
  · exact s.pinOe_rest v j false
  · rfl

theorem State.owns_of_rest {s t : State} (rest : { t with pins := s.pins } = s) (v j : Nat) : t.owns v j = s.owns v j := by
  rw [← rest]
  rfl

theorem State.pins_pinOe (j k : Nat) (e : Bool) : tget {} (s.pinOe v j e).pins k =
    if s.owns v j = true ∧ 8 * (v / 4) + j = k then { (tget {} s.pins k : PinSt) with oe := e } else tget {} s.pins k := by
  unfold State.pinOe
  cases own : s.owns v j with
  | false => simp
  | true =>
    refine (tget_tput _ _ _ _ _).trans ?_
    by_cases same : 8 * (v / 4) + j = k
    · subst same
      simp [State.pin, portOfValve]
    · simp [portOfValve, same]

theorem State.pins_pinOut (j k : Nat) (l : Bool) : tget {} (s.pinOut v j l).pins k =
    if s.owns v j = true ∧ 8 * (v / 4) + j = k then { (tget {} s.pins k : PinSt) with out := l } else tget {} s.pins k := by
  unfold State.pinOut
  cases own : s.owns v j with
  | false => simp
  | true =>
    refine (tget_tput _ _ _ _ _).trans ?_
    by_cases same : 8 * (v / 4) + j = k
    · subst same
      simp [State.pin, portOfValve]
    · simp [portOfValve, same]

theorem State.pins_pinDrive (j k : Nat) (l : Bool) : tget {} (s.pinDrive v j l).pins k =
    if s.owns v j = true ∧ 8 * (v / 4) + j = k then { (tget {} s.pins k : PinSt) with out := l, oe := true }
    else tget {} s.pins k := by
  rw [State.pinDrive, State.pins_pinOe, State.owns_of_rest (s.pinOut_rest v j l), State.pins_pinOut]
  split <;> rfl

theorem State.pins_pinStep (j k : Nat) : tget {} (s.pinStep v w j).pins k =
    if s.owns v j = true ∧ 8 * (v / 4) + j = k then pinEffect (vPin w j) (tget {} s.pins k) else tget {} s.pins k := by
  unfold State.pinStep pinEffect
  split
  · exact s.pins_pinDrive v j k false
  · exact s.pins_pinDrive v j k true
  · exact s.pins_pinOe v j k false
  · exact (ite_self _).symm

/-- The first `n` pins of the port have met the word's effects, and nothing else has changed. -/
theorem State.pinSteps (n : Nat) (few : n ≤ 8) :
    let t := (List.range n).foldl (fun s j => s.pinStep v w j) s
    { t with pins := s.pins } = s ∧ ∀ k, tget {} t.pins k =
      if k / 8 = v / 4 ∧ k % 8 < n ∧ s.owns v (k % 8) = true then pinEffect (vPin w (k % 8)) (tget {} s.pins k)
      else tget {} s.pins k := by
  induction n with
  | zero => exact ⟨rfl, fun k => by simp⟩
  | succ n ih =>
    obtain ⟨rest, pins⟩ := ih (by omega)
    rw [List.range_succ, List.foldl_append, List.foldl_cons, List.foldl_nil]
    generalize (List.range n).foldl (fun s j => s.pinStep v w j) s = u at *
    constructor
    · let g : State → State := fun t => { t with pins := s.pins }
      exact ((congrArg g (u.pinStep_rest v w n) :) : _ = g u).trans rest
    · intro k
      rw [State.pins_pinStep, State.owns_of_rest rest, pins]
      by_cases here : 8 * (v / 4) + n = k
      · have row : k / 8 = v / 4 := by omega
        have column : k % 8 = n := by omega
        simp [here, row, column]
      · by_cases row : k / 8 = v / 4
        · have column : k % 8 < n + 1 ↔ k % 8 < n := by omega
          simp [here, row, column]
        · simp [here, row]

theorem State.pinFx_spec : { s.pinFx v w with pins := s.pins } = s ∧ ∀ k, tget {} (s.pinFx v w).pins k =
    if k / 8 = v / 4 ∧ s.owns v (k % 8) = true then pinEffect (vPin w (k % 8)) (tget {} s.pins k)
    else tget {} s.pins k := by
  obtain ⟨rest, pins⟩ := s.pinSteps v w 8 le_rfl
  have column (k : Nat) : k % 8 < 8 := Nat.mod_lt _ (by decide)
  simp only [column, true_and] at pins
  exact ⟨rest, pins⟩

theorem State.pinFx_valves : (s.pinFx v w).valves = s.valves := by
  have h := congrArg State.valves (s.pinFx_spec v w).1
  exact h

theorem State.pinFx_vreg (o : Nat) : (s.pinFx v w).vreg v o = s.vreg v o := by
  conv_rhs => rw [← (s.pinFx_spec v w).1]
  rfl

end PinEffects

/-! ### SHIFT and MOVE (R261, R262) -/

section Shift

variable (x : ValveSt) (n : Nat) (b : Bool)

theorem ValveSt.nextTx_low : (x.nextTx false).2 = { x with txn := min 32 (x.txn + 1), txw := x.txw >>> 1 } := rfl

/-- Bits that leave by the low end (R261). -/
theorem ValveSt.discard_low : let y := (List.range n).foldl (fun x _ => (ValveSt.nextTx x false).2) x
    y.txw = x.txw >>> n ∧ (x.txn ≤ 32 → y.txn = min 32 (x.txn + n)) := by
  induction n with
  | zero => simp
  | succ n ih =>
    obtain ⟨txw, txn⟩ := ih
    rw [List.range_succ, List.foldl_append, List.foldl_cons, List.foldl_nil, ValveSt.nextTx_low]
    dsimp only
    refine ⟨?_, fun bound => ?_⟩
    · rw [txw, ← BitVec.shiftRight_add]
    · rw [txn bound]
      omega

theorem shiftLeft_or_ones (x : BitVec 32) (n : Nat) (b : Bool) :
    (x <<< n ||| (if b then BitVec.ofNat 32 (2 ^ n - 1) else 0#32)) <<< 1 ||| BitVec.ofNat 32 (b2n b) =
      x <<< (n + 1) ||| (if b then BitVec.ofNat 32 (2 ^ (n + 1) - 1) else 0#32) := by
  apply BitVec.eq_of_getLsbD_eq
  intro i hi
  cases b with
  | false =>
    simp only [Bool.false_eq_true, if_false, BitVec.or_zero, b2n, BitVec.shiftLeft_add]
  | true =>
    simp only [b2n, if_true, BitVec.getLsbD_or, BitVec.getLsbD_shiftLeft, BitVec.getLsbD_ofNat, Nat.testBit_two_pow_sub_one]
    by_cases first : i = 0
    · subst first
      simp
    · have one : Nat.testBit 1 i = false := by simp [Nat.testBit, Nat.shiftRight_eq_div_pow, Nat.div_eq_of_lt (Nat.one_lt_two_pow first)]
      by_cases low : i < n + 1
      · simp [first, low, show i - 1 < n by omega, show i - 1 < 32 by omega, hi]
      · simp [first, low, hi, show ¬i - 1 < n by omega, show i - 1 - n = i - (n + 1) by omega, one, show i - 1 < 32 by omega]

/-- Bits that enter by the low end (R261). -/
theorem ValveSt.fill_high : ((List.range n).foldl (fun x _ => ValveSt.putRx x true b) x).rxw =
    (x.rxw <<< n) ||| (if b then BitVec.ofNat 32 (2 ^ n - 1) else 0) := by
  induction n with
  | zero => cases b <;> simp
  | succ n ih =>
    rw [List.range_succ, List.foldl_append, List.foldl_cons, List.foldl_nil]
    show _ <<< 1 ||| BitVec.ofNat 32 (b2n b) = _
    rw [ih]
    exact shiftLeft_or_ones _ _ _

theorem vXform_bytes (w : Word) :
    vXform 2 w = w.extractLsb' 0 8 ++ w.extractLsb' 8 8 ++ w.extractLsb' 16 8 ++ w.extractLsb' 24 8 := by
  apply BitVec.eq_of_toNat_eq
  have bound := w.isLt
  simp only [vXform, toBytes, ofBytes, List.reverse_cons, List.reverse_nil, List.nil_append, List.cons_append,
    BitVec.toNat_append, BitVec.extractLsb'_toNat, BitVec.toNat_ofNat, Nat.shiftRight_eq_div_pow]
  rw [← Nat.shiftLeft_add_eq_or_of_lt (Nat.mod_lt _ (by decide)), ← Nat.shiftLeft_add_eq_or_of_lt (Nat.mod_lt _ (by decide)),
    ← Nat.shiftLeft_add_eq_or_of_lt (Nat.mod_lt _ (by decide))]
  generalize w.toNat = n at *
  norm_num [Nat.shiftLeft_eq, Nat.div_div_eq_div_mul]
  omega

theorem vXform_halves (w : Word) : vXform 3 w = w.rotateLeft 16 := by
  apply BitVec.eq_of_getLsbD_eq
  intro i hi
  have low : w.toNat % 65536 < 2 ^ 16 := Nat.mod_lt _ (by decide)
  rw [BitVec.getLsbD_rotateLeft, vXform]
  have split : w.toNat / 65536 + 65536 * (w.toNat % 65536) = 2 ^ 16 * (w.toNat % 2 ^ 16) + w.toNat / 2 ^ 16 := by omega
  have high : w.toNat / 2 ^ 16 < 2 ^ 16 := by have := w.isLt; omega
  rw [split, BitVec.getLsbD_ofNat, Nat.testBit_two_pow_mul_add _ high]
  by_cases h : i < 16
  · rw [if_pos h, Nat.testBit_div_two_pow]
    simp [h, hi, BitVec.getLsbD, Nat.add_comm]
  · rw [if_neg h, Nat.testBit_mod_two_pow]
    simp [h, hi, BitVec.getLsbD, show i - 16 < 16 by omega]

end Shift

/-! ### Port flags (R266, R267) -/

section Flags

variable {s : State} {v k : Nat}

/-- The first write of a cycle starts from the flags as they stand. -/
theorem State.flagCyc_of_new (new_ : (tget {} s.flagCycs (v / 4) : FlagCyc).at_ ≠ s.strokes + s.tb.edges) :
    s.flagCyc (v / 4) (v % 4) = { at_ := s.moment, last := v % 4, start := tget 0 s.flags (v / 4) } :=
  if_neg (fun h => new_ h.1)

theorem State.pflag_setPflag (s : State) (v j k : Nat) (b : Bool) : (s.setPflag v k b).pflag v j =
    bit (if b then { s.flagCyc (v / 4) (v % 4) with set := (s.flagCyc (v / 4) (v % 4)).set ||| 2 ^ k }
      else { s.flagCyc (v / 4) (v % 4) with clr := (s.flagCyc (v / 4) (v % 4)).clr ||| 2 ^ k } : FlagCyc).flags j := by
  refine congrArg (bit · j) ((tget_tset _ _ _ _ _).trans (if_pos rfl))

theorem FlagCyc.bit_flags (c : FlagCyc) (j : Nat) : bit c.flags j = (bit c.set j || bit c.start j && !bit c.clr j) := by
  simp only [bit_eq_testBit, FlagCyc.flags, Nat.testBit_or, Nat.testBit_xor, Nat.testBit_and]
  cases c.start.testBit j <;> cases c.clr.testBit j <;> cases c.set.testBit j <;> rfl

/-- The first write of a cycle to a flag (R266). -/
theorem State.setPflag_of_new (new_ : (tget {} s.flagCycs (v / 4) : FlagCyc).at_ ≠ s.strokes + s.tb.edges) (b : Bool)
    (j : Nat) : (s.setPflag v k b).pflag v j = if j = k then b else s.pflag v j := by
  rw [State.pflag_setPflag, State.flagCyc_of_new new_, FlagCyc.bit_flags]
  cases b <;> by_cases same : j = k <;> simp [bit_eq_testBit, same, Ne.symm, State.pflag, portOfValve]

/-- The record of a port's cycle after its first write. -/
theorem State.flagCyc_setPflag {u : Nat} (b : Bool)
    (new_ : (tget {} s.flagCycs (u / 4) : FlagCyc).at_ ≠ s.strokes + s.tb.edges) {j : Nat} (order : u % 4 < j) :
    (s.setPflag u k b).flagCyc (u / 4) j = {
      at_ := s.moment, last := j, start := tget 0 s.flags (u / 4)
      set := if b then 2 ^ k else 0, clr := if b then 0 else 2 ^ k } := by
  have record : (tget {} (s.setPflag u k b).flagCycs (u / 4) : FlagCyc) = {
      at_ := s.moment, last := u % 4, start := tget 0 s.flags (u / 4)
      set := if b then 2 ^ k else 0, clr := if b then 0 else 2 ^ k } := by
    refine (tget_tput_same _ _ _ _).trans ?_
    rw [portOfValve, State.flagCyc_of_new new_]
    cases b <;> simp
  rw [State.flagCyc, record]
  exact if_pos ⟨rfl, order⟩

/-- A later valve of the port writes a flag in the same cycle: a set prevails (R266). -/
theorem State.setPflag_twice {u : Nat} {b c : Bool}
    (new_ : (tget {} s.flagCycs (v / 4) : FlagCyc).at_ ≠ s.strokes + s.tb.edges) (port : u / 4 = v / 4)
    (order : u % 4 < v % 4) : ((s.setPflag u k b).setPflag v k c).pflag v k = (b || c) := by
  rw [← port] at new_
  rw [State.pflag_setPflag, ← port, State.flagCyc_setPflag b new_ order, FlagCyc.bit_flags]
  cases b <;> cases c <;> simp [bit_eq_testBit]

end Flags

/-! ### Each instruction between its check and its end -/

section Instructions

variable {s : State} {v : Fin 128} {w : Nat} (h : ValveAt s v w)
include h

theorem exec_branch (op : vOp w = 0) : exec (.branch v) s = .next (s.vNext v w
    (if s.vCond v (bits (vParam w) 8 6) then bits (vParam w) 5 0 else (s.valve v).pc + 1)) := by
  show execBranch v s = _
  rw [execBranch, h.vRun (by simp [op])]
  split <;> rfl

theorem exec_countLoad (op : vOp w = 1) (act : bits (vParam w) 7 6 = 0) : exec (.countLoad v) s = .next
    ((s.modValve v (fun x => if bit (vParam w) 8 then { x with k1 := bits (vParam w) 5 0 }
      else { x with k0 := bits (vParam w) 5 0 })).vNext v w ((s.valve v).pc + 1)) := by
  show execCountLoad v s = _
  rw [execCountLoad, h.vRun (ValveAt.isCount op act)]
  simp only [h.word, ValveSt.setK_countReg]
  rfl

theorem exec_countReload (op : vOp w = 1) (act : bits (vParam w) 7 6 = 1) : exec (.countReload v) s = .next
    ((s.modValve v (fun x => if bit (vParam w) 8 then { x with k1 := bits (s.vreg v 0x40) 31 16 }
      else { x with k0 := bits (s.vreg v 0x40) 15 0 })).vNext v w ((s.valve v).pc + 1)) := by
  have source : (if countReg w = 0 then bits (s.vreg v 0x40) 15 0 else bits (s.vreg v 0x40) 31 16) =
      if bit (vParam w) 8 then bits (s.vreg v 0x40) 31 16 else bits (s.vreg v 0x40) 15 0 := by
    rw [if_congr (countReg_eq_zero_iff w) rfl rfl]
    cases bit (vParam w) 8 <;> rfl
  show execCountReload v s = _
  rw [execCountReload, h.vRun (ValveAt.isCount op act)]
  simp only [h.word, ValveSt.setK_countReg, source]
  cases bit (vParam w) 8 <;> rfl

theorem exec_countDec (op : vOp w = 1) (act : bits (vParam w) 7 6 = 2) : exec (.countDec v) s = .next
    ((s.modValve v (fun x => if bit (vParam w) 8 then { x with k1 := x.k1 - 1 }
      else { x with k0 := x.k0 - 1 })).vNext v w ((s.valve v).pc + 1)) := by
  show execCountDec v s = _
  rw [execCountDec, h.vRun (ValveAt.isCount op act)]
  simp only [h.word, ValveSt.setK_countReg, ValveSt.k_countReg]
  cases bit (vParam w) 8 <;> rfl

theorem exec_countLoop (op : vOp w = 1) (act : bits (vParam w) 7 6 = 3) {k : Nat}
    (hk : k = if bit (vParam w) 8 then (s.valve v).k1 else (s.valve v).k0) : exec (.countLoop v) s = .next
    ((s.modValve v (fun x => if bit (vParam w) 8 then { x with k1 := k - 1 } else { x with k0 := k - 1 })).vNext v w
      (if k - 1 = 0 then (s.valve v).pc + 1 else bits (vParam w) 5 0)) := by
  have counter : (s.valve v).k (countReg w) = k := by rw [ValveSt.k_countReg, hk]
  have change : s.modValve v (fun x => x.setK (countReg x.word) (x.k (countReg x.word) - 1)) =
      s.modValve v (fun x => if bit (vParam w) 8 then { x with k1 := k - 1 } else { x with k0 := k - 1 }) := by
    simp only [State.modValve, h.word, ValveSt.setK_countReg, counter]
  show execCountLoop v s = _
  rw [execCountLoop, h.vRun (ValveAt.isCount op act)]
  rw [change, counter]
  by_cases last : k ≤ 1
  · rw [if_pos last, if_pos (by omega)]
    rfl
  · rw [if_neg last, if_neg (by omega)]
    rfl

theorem exec_mark (op : vOp w = 7) : exec (.mark v) s = .next
    ((s.vNext v w ((s.valve v).pc + 1)).modValve v (fun x => { x with safe := bit (vParam w) 8 })) := by
  show execMark v s = _
  rw [execMark, State.act_of (h.ready (by simp [op])), h.word]
  rfl

theorem exec_shiftSend (op : vOp w = 2) (act : bits (vParam w) 8 7 = 0) : exec (.shiftSend v) s = .next
    ((s.vSend v (vShiftN (vParam w))).vNext v w ((s.valve v).pc + 1)) := by
  show execShiftSend v s = _
  rw [execShiftSend, h.vRun (ValveAt.isShift op act), h.word]
  rfl

theorem exec_shiftSample (op : vOp w = 2) (act : bits (vParam w) 8 7 = 1) : exec (.shiftSample v) s = .next
    ((s.vSample v (vShiftN (vParam w))).vNext v w ((s.valve v).pc + 1)) := by
  show execShiftSample v s = _
  rw [execShiftSample, h.vRun (ValveAt.isShift op act), h.word]
  rfl

theorem exec_shiftFill (op : vOp w = 2) (act : bits (vParam w) 8 7 = 2) : exec (.shiftFill v) s = .next
    ((s.vFill v (vShiftN (vParam w)) (bit (vParam w) 5)).vNext v w ((s.valve v).pc + 1)) := by
  show execShiftFill v s = _
  rw [execShiftFill, h.vRun (ValveAt.isShift op act), h.word]
  rfl

theorem exec_shiftDiscard (op : vOp w = 2) (act : bits (vParam w) 8 7 = 3) : exec (.shiftDiscard v) s = .next
    ((s.vDiscard v (vShiftN (vParam w))).vNext v w ((s.valve v).pc + 1)) := by
  show execShiftDiscard v s = _
  rw [execShiftDiscard, h.vRun (ValveAt.isShift op act), h.word]
  rfl

theorem exec_move (op : vOp w = 3) : exec (.move v) s = .next
    ((s.vDst v (bits (vParam w) 8 6) (vXform (bits (vParam w) 2 0) (s.vSrc v (bits (vParam w) 5 3)))).vNext v w
      ((s.valve v).pc + 1)) := by
  show execValveMove v s = _
  rw [execValveMove, h.vRun (by simp [op])]
  simp only [h.word]
  rfl

theorem exec_signalSet (op : vOp w = 6) (act : bits (vParam w) 8 7 = 0) : exec (.signalSet v) s = .next
    ((s.setPflag v (bits (vParam w) 2 0) true).vNext v w ((s.valve v).pc + 1)) := by
  show execSignalSet v s = _
  rw [execSignalSet, h.vRun (ValveAt.isSignal op act), State.vFlag, h.word]
  rfl

theorem exec_signalClear (op : vOp w = 6) (act : bits (vParam w) 8 7 = 1) : exec (.signalClear v) s = .next
    ((s.setPflag v (bits (vParam w) 2 0) false).vNext v w ((s.valve v).pc + 1)) := by
  show execSignalClear v s = _
  rw [execSignalClear, h.vRun (ValveAt.isSignal op act), State.vFlag, h.word]
  rfl

theorem exec_signalEvent (op : vOp w = 6) (act : bits (vParam w) 8 7 = 2) : exec (.signalEvent v) s = .next
    ((s.raiseClock (0x100 + 2 * v + bits (vParam w) 2 0 % 2)).vNext v w ((s.valve v).pc + 1)) := by
  show execSignalEvent v s = _
  rw [execSignalEvent, h.vRun (ValveAt.isSignal op act), State.vRaise, h.word]
  rfl

theorem exec_signalSetEvent (op : vOp w = 6) (act : bits (vParam w) 8 7 = 3) : exec (.signalSetEvent v) s = .next
    (((s.setPflag v (bits (vParam w) 2 0) true).raiseClock (0x100 + 2 * v + bits (vParam w) 2 0 % 2)).vNext v w
      ((s.valve v).pc + 1)) := by
  have word : ((s.setPflag v (bits (vParam w) 2 0) true).valve v).word = w := h.word
  show execSignalSetEvent v s = _
  rw [execSignalSetEvent, h.vRun (ValveAt.isSignal op act), State.vFlag, h.word, State.vRaise, word]
  rfl

end Instructions

/-- What every instruction that ends leaves (R259). -/
theorem State.vNext_spec (s : State) (v w pc : Nat) :
    (s.vNext v w pc).valve v = { s.valve v with
      pc := pc % 64, stalled := false, dwell := bits w 19 16, safe := false, cycled := (s.valve v).swap.isSome
      div := s.vreg v 4 % 65536 } ∧ (∀ u, u ≠ v → (s.vNext v w pc).valve u = s.valve u) ∧
    (∀ k, tget {} (s.vNext v w pc).pins k = if k / 8 = v / 4 ∧ s.owns v (k % 8) = true
      then pinEffect (vPin w (k % 8)) (tget {} s.pins k) else tget {} s.pins k) ∧
    { s.vNext v w pc with valves := s.valves, pins := s.pins } = s := by
  obtain ⟨rest, pins⟩ := s.pinFx_spec v w
  have valve (u : Nat) : (s.pinFx v w).valve u = s.valve u := by rw [State.valve, s.pinFx_valves v w, State.valve]
  have div := s.pinFx_vreg v w 4
  rw [State.vNext]
  generalize s.pinFx v w = t at *
  refine ⟨?_, fun u other => ?_, pins, ?_⟩
  · rw [State.vEnd, State.valve_modValve_same, valve, div]
    rfl
  · rw [State.vEnd, State.valve_modValve, if_neg (Ne.symm other), valve]
  · let g : State → State := fun t => { t with valves := s.valves }
    exact (congrArg g rest :)

/-- Settles O25: each instruction is one operation between its check and its end; the operations by their bits. -/
theorem valveInstructions : Obligations.ValveInstructions := by
  unfold Obligations.ValveInstructions
  refine ⟨fun v w s h op => exec_branch h op, fun v s => ?cond, fun v w s h op act => exec_countLoad h op act,
    fun v w s h op act => exec_countReload h op act, fun v w s h op act => exec_countDec h op act,
    fun v w k s h op act hk => exec_countLoop h op act hk, fun v w s h op => exec_mark h op, fun v w pc s t ht => ?next,
    fun v w s h op act => exec_shiftSend h op act, fun v w s h op act => exec_shiftSample h op act,
    fun v w s h op act => exec_shiftFill h op act, fun v w s h op act => exec_shiftDiscard h op act,
    fun v n s t order _ ht => ?discarded, fun v n b s t order _ ht => ?filled, fun v w s h op => exec_move h op,
    fun w => ⟨rfl, rfl, vXform_halves w, vXform_bytes w⟩, fun v w s h op act => exec_signalSet h op act,
    fun v w s h op act => exec_signalClear h op act, fun v w s h op act => exec_signalEvent h op act,
    fun v w s h op act => exec_signalSetEvent h op act, fun v k b s t new_ ht => ?flag,
    fun u v k b c s new_ port order => State.setPflag_twice new_ port order⟩
  case cond =>
    refine ⟨rfl, rfl, rfl, ?_, ?_, rfl, rfl, ?_⟩ <;> exact beq_eq_decide _ _
  case next =>
    obtain ⟨valve, others, pins, rest⟩ := s.vNext_spec v w pc
    subst ht
    refine ⟨valve, others, fun k foreign => ?_, fun j pin own => ?_, rest⟩
    · rw [pins, if_neg]
      rintro ⟨row, own⟩
      have owner : s.pinOwner (v / 4) (k % 8) = v % 4 := by simpa [State.owns, portOfValve] using own
      exact foreign.elim (fun h => h owner) (fun h => h row)
    · have own' : s.owns v j = true := by simpa [State.owns, portOfValve] using own
      have row : (8 * (v.val / 4) + j) / 8 = v.val / 4 := by omega
      have column : (8 * (v.val / 4) + j) % 8 = j := by omega
      rw [State.pin, pins, row, column, if_pos ⟨rfl, own'⟩]
      rfl
  case discarded =>
    subst ht
    obtain ⟨txw, txn⟩ := (s.valve v).discard_low n
    rw [State.vDiscard, State.valve_modValve_same, order]
    exact ⟨txw, txn, rfl⟩
  case filled =>
    subst ht
    rw [State.vFill, State.valve_modValve_same, order]
    exact ⟨(s.valve v).fill_high n b, rfl⟩
  case flag =>
    subst ht
    refine ⟨?_, fun j other => ?_, fun n other => ?_, rfl⟩
    · rw [State.setPflag_of_new new_, if_pos rfl]
    · rw [State.setPflag_of_new new_, if_neg other]
    · exact (tget_tset _ _ _ _ _).trans (if_neg (Ne.symm other))

end Sys2Proof.Machine

/-!
SUPPORT. The valves' queues and waits (chapter 08), and the proof of O26.
-/

namespace Sys2Proof.Machine

/-! ### TAKE and GIVE (R263, R264) -/

section Queues

variable {s : State} {v : Fin 128} {w : Nat}

theorem exec_take_ready (h : ValveAt s v w) (op : vOp w = 4) (dir : bit (vParam w) 8 = false) {e : Word} {es : List Word}
    (ready : (s.valve v).txReady = e :: es) : exec (.take v) s = .next ((s.modValve v (fun x => { x with
      txReady := es, txw := e, lastTake := e, txn := 0
      creditBack := x.creditBack ++ [s.strokes] })).vNext v w ((s.valve v).pc + 1)) := by
  have taken : s.modValve v (ValveSt.take s.strokes) = s.modValve v (fun x => { x with
      txReady := es, txw := e, lastTake := e, txn := 0, creditBack := x.creditBack ++ [s.strokes] }) := by
    simp only [State.modValve, ValveSt.take, ready]
  show execTake v s = _
  rw [execTake]
  simp only [ready, List.isEmpty_cons, Bool.not_false, if_true, taken, h.word]
  rw [State.act_of (h.ready (by simp [op, dir]))]
  rfl

theorem exec_take_stale (h : ValveAt s v w) (op : vOp w = 4) (dir : bit (vParam w) 8 = false)
    (empty : (s.valve v).txReady = []) (go : bit (vParam w) 7 = false) :
    exec (.take v) s = .next ((s.modValve v (fun x => { x with
      txw := x.lastTake, txn := 0, stale := true, nStale := min 255 (x.nStale + 1)
      fresh := x.fresh.set (s.strokes + s.tb.edges) (2 ^ 18) })).vNext v w ((s.valve v).pc + 1)) := by
  show execTake v s = _
  rw [execTake]
  simp only [empty, List.isEmpty_nil, Bool.not_true, Bool.false_eq_true, if_false, h.word, go]
  rw [State.act_of (h.ready (by simp [op, dir]))]
  rfl

theorem exec_take_stall (h : ValveAt s v w) (op : vOp w = 4) (dir : bit (vParam w) 8 = false)
    (empty : (s.valve v).txReady = []) (wait : bit (vParam w) 7 = true) :
    exec (.take v) s = .next ((s.pinFx v w).vStall v) := by
  show execTake v s = _
  rw [execTake]
  simp only [empty, List.isEmpty_nil, Bool.not_true, Bool.false_eq_true, if_false, h.word, wait, if_true]
  exact State.act_of (h.ready (by simp [op, dir]))

theorem exec_give_room (h : ValveAt s v w) (op : vOp w = 4) (dir : bit (vParam w) 8 = true)
    (room : (s.valve v).rxHeld < s.rxDepth v) : exec (.give v) s = .next ((s.modValve v (fun x => { x with
      rxCross := x.rxCross ++ [⟨(x.rxw, false), s.strokes, 0⟩], rxw := 0, rxn := 0 })).vNext v w ((s.valve v).pc + 1)) := by
  show execGive v s = _
  rw [execGive]
  simp only [if_pos room, h.word]
  rw [State.act_of (h.ready (by simp [op, dir]))]
  rfl

theorem exec_give_over (h : ValveAt s v w) (op : vOp w = 4) (dir : bit (vParam w) 8 = true)
    (full : s.rxDepth v ≤ (s.valve v).rxHeld) (go : bit (vParam w) 7 = false) :
    exec (.give v) s = .next ((s.modValve v (fun x => { x with
      rxCross := x.rxCross ++ [⟨(x.rxw, true), s.strokes, 0⟩], rxw := 0, rxn := 0, overwrite := true
      nOverwrite := min 255 (x.nOverwrite + 1), fresh := x.fresh.set (s.strokes + s.tb.edges) (2 ^ 19) })).vNext v w
        ((s.valve v).pc + 1)) := by
  show execGive v s = _
  rw [execGive]
  simp only [if_neg full.not_gt, h.word, go, Bool.false_eq_true, if_false]
  rw [State.act_of (h.ready (by simp [op, dir]))]
  rfl

theorem exec_give_stall (h : ValveAt s v w) (op : vOp w = 4) (dir : bit (vParam w) 8 = true)
    (full : s.rxDepth v ≤ (s.valve v).rxHeld) (wait : bit (vParam w) 7 = true) :
    exec (.give v) s = .next ((s.pinFx v w).vStall v) := by
  show execGive v s = _
  rw [execGive]
  simp only [if_neg full.not_gt, h.word, wait, if_true]
  exact State.act_of (h.ready (by simp [op, dir]))

end Queues

/-! ### The later cycles of an instruction that waits -/

section Waits

variable {s : State} {v : Fin 128} {w : Nat} (word : (s.valve v).word = w) (runs : (s.valve v).run = true)
  (stalled : (s.valve v).stalled = true)
include word runs stalled

theorem exec_queueStallEnd_take (op : vOp w = 4) (dir : bit (vParam w) 8 = false) {e : Word} {es : List Word}
    (ready : (s.valve v).txReady = e :: es) : exec (.queueStallEnd v) s = .next ((s.modValve v (fun x => { x with
      txReady := es, txw := e, lastTake := e, txn := 0
      creditBack := x.creditBack ++ [s.strokes] })).vEnd v ((s.valve v).pc + 1) w) := by
  have taken : s.modValve v (ValveSt.take s.strokes) = s.modValve v (fun x => { x with
      txReady := es, txw := e, lastTake := e, txn := 0, creditBack := x.creditBack ++ [s.strokes] }) := by
    simp only [State.modValve, ValveSt.take, ready]
  show execQueueStallEnd v s = _
  rw [execQueueStallEnd]
  simp only [word, dir, Bool.false_eq_true, if_false, taken]
  exact State.act_of (by simp [runs, stalled, op, ready])

theorem exec_queueStallEnd_give (op : vOp w = 4) (dir : bit (vParam w) 8 = true)
    (room : (s.valve v).rxHeld < s.rxDepth v) : exec (.queueStallEnd v) s = .next ((s.modValve v (fun x => { x with
      rxCross := x.rxCross ++ [⟨(x.rxw, false), s.strokes, 0⟩], rxw := 0, rxn := 0 })).vEnd v ((s.valve v).pc + 1) w) := by
  show execQueueStallEnd v s = _
  rw [execQueueStallEnd]
  simp only [word, dir, if_true]
  exact State.act_of (by simp [runs, stalled, op, room])

theorem State.awaiting_of (op : vOp w = 5) : s.awaiting v = true := by
  simp [State.awaiting, word, runs, stalled, op]

omit word runs stalled in
theorem State.awaitTrue_next (word : (s.valve v).word = w) : s.awaitTrue v false true =
    s.vAwait v (bits (vParam w) 8 6) (bits (vParam w) 2 0) false (s.pflag v (bits (vParam w) 2 0)) := by
  rw [State.awaitTrue, word]
  rfl

/-- An AWAIT whose condition is true ends (R265). -/
theorem exec_awaitPass (op : vOp w = 5) (pass : s.mayPass v = true) : exec (.awaitPass v) s = .next (s.awaitEnd v) := by
  show s.act _ _ = _
  exact State.act_of (by rw [State.awaiting_of word runs stalled op, pass, Bool.and_self])

omit runs stalled in
theorem State.awaitEnd_of_flag (source : bits (vParam w) 8 6 = 4) :
    s.awaitEnd v = (s.setPflag v (bits (vParam w) 2 0) false).vEnd v ((s.valve v).pc + 1) w := by
  rw [State.awaitEnd, word]
  simp only [source]

omit runs stalled in
theorem State.awaitEnd_of_level (source : bits (vParam w) 8 6 ∈ [0, 1, 2]) :
    s.awaitEnd v = s.vEnd v ((s.valve v).pc + 1) w := by
  rw [State.awaitEnd, word]
  simp only [List.mem_cons, List.not_mem_nil, or_false] at source
  obtain h | h | h := source <;> simp only [h]

/-- A wait without a timeout, or with cycles left, goes on; its last cycle ends it (R265). -/
theorem exec_await_again (op : vOp w = 5) (again : s.awaitTrue v false true = false) (timed : bit (vParam w) 5 = true)
    (more : 1 < (s.valve v).k1) :
    exec (.await v) s = .next ((s.modValve v (fun x => { x with k1 := x.k1 - 1 })).vStall v) := by
  have waits : s.vReady v (fun w => vOp w == 5) = false := by simp [State.vReady, stalled]
  have goOn : (s.awaiting v && s.mayWait v && !s.awaitLast v) = true := by
    simp [State.awaiting_of word runs stalled op, State.mayWait, again, State.awaitLast, more]
  show execAwait v s = _
  rw [execAwait]
  simp only [waits, Bool.false_eq_true, if_false]
  rw [State.act_of goOn, State.awaitFalse, word, if_pos timed]
  simp only [if_neg more.not_ge]

theorem exec_awaitTimeout (op : vOp w = 5) (again : s.awaitTrue v false true = false) (timed : bit (vParam w) 5 = true)
    (last : (s.valve v).k1 ≤ 1) :
    exec (.awaitTimeout v) s = .next ((s.modValve v (fun x => { x with k1 := 0 })).vEnd v ((s.valve v).pc + 1) w) := by
  have ends : (s.awaiting v && s.mayWait v && s.awaitLast v) = true := by
    simp [State.awaiting_of word runs stalled op, State.mayWait, again, State.awaitLast, last, word, timed]
  have zero : s.modValve v (fun x => { x with k1 := x.k1 - 1 }) = s.modValve v (fun x => { x with k1 := 0 }) := by
    simp only [State.modValve, Nat.sub_eq_zero_of_le last]
  show s.act _ _ = _
  rw [State.act_of ends, State.awaitFalse, word, if_pos timed, zero]
  simp only [if_pos last]

end Waits

/-! ### The first cycle of AWAIT -/

section Await

variable (s : State) (v w : Nat)

/-- An AWAIT has had its pin effects and has seen its input. -/
def State.awaitStart : State :=
  (s.pinFx v w).modValve v (fun x => { x with edge0 := s.condIn v (bits (vParam w) 2 0) })

theorem pinEffect_cond (f : Nat) (p : PinSt) : (pinEffect f p).cond = p.cond := by
  unfold pinEffect
  split <;> rfl

theorem State.awaitStart_spec : (∀ j, (s.awaitStart v w).condIn v j = s.condIn v j) ∧
    (s.awaitStart v w).valve v = { s.valve v with edge0 := s.condIn v (bits (vParam w) 2 0) } ∧
    (∀ u, u ≠ v → (s.awaitStart v w).valve u = s.valve u) ∧
    { s.awaitStart v w with valves := s.valves, pins := s.pins } = s := by
  obtain ⟨rest, pins⟩ := s.pinFx_spec v w
  have valve (u : Nat) : (s.pinFx v w).valve u = s.valve u := by rw [State.valve, s.pinFx_valves v w, State.valve]
  rw [State.awaitStart]
  generalize s.pinFx v w = t at *
  refine ⟨fun j => ?_, ?_, fun u other => ?_, ?_⟩
  · show (tget {} t.pins (8 * (v / 4) + j) : PinSt).cond = (tget {} s.pins (8 * (v / 4) + j) : PinSt).cond
    rw [pins]
    split
    · exact pinEffect_cond _ _
    · rfl
  · rw [State.valve_modValve_same, valve]
  · rw [State.valve_modValve, if_neg (Ne.symm other), valve]
  · let g : State → State := fun t => { t with valves := s.valves }
    exact (congrArg g rest :)

end Await

theorem exec_await_first {s : State} {v : Fin 128} {w : Nat} (h : ValveAt s v w) (op : vOp w = 5) :
    exec (.await v) s = .next (if (s.awaitStart v w).awaitTrue v true false then (s.awaitStart v w).awaitEnd v
      else (s.awaitStart v w).awaitFalse v) := by
  show execAwait v s = _
  rw [execAwait]
  simp only [h.ready (p := fun w => vOp w == 5) (by simp [op]), if_true, h.word]
  rfl

/-- An AWAIT of a level in its first cycle: it ends, or it stalls where it stands (R265). -/
theorem exec_await_level {s : State} {v : Fin 128} {w : Nat} (h : ValveAt s v w) (op : vOp w = 5)
    (source : bits (vParam w) 8 6 ∈ [0, 1]) (untimed : bit (vParam w) 5 = false) :
    exec (.await v) s = .next (if s.condIn v (bits (vParam w) 2 0) == (bits (vParam w) 8 6 == 1)
      then (s.awaitStart v w).vStall v else (s.awaitStart v w).vEnd v ((s.valve v).pc + 1) w) := by
  obtain ⟨cond, valve, -, -⟩ := s.awaitStart_spec v w
  have word : ((s.awaitStart v w).valve v).word = w := by
    rw [valve, ← h.word]
    rfl
  have pc : ((s.awaitStart v w).valve v).pc = (s.valve v).pc := by rw [valve]
  have end_ : (s.awaitStart v w).awaitEnd v = (s.awaitStart v w).vEnd v ((s.valve v).pc + 1) w := by
    rw [State.awaitEnd_of_level word (by simp only [List.mem_cons, List.not_mem_nil, or_false] at *; omega), pc]
  have stall : (s.awaitStart v w).awaitFalse v = (s.awaitStart v w).vStall v := by
    rw [State.awaitFalse, word, if_neg (by simp [untimed])]
  have true_ : (s.awaitStart v w).awaitTrue v true false =
      !(s.condIn v (bits (vParam w) 2 0) == (bits (vParam w) 8 6 == 1)) := by
    rw [State.awaitTrue, word]
    simp only [List.mem_cons, List.not_mem_nil, or_false] at source
    obtain h0 | h1 := source
    · simp [h0, State.vAwait, cond]
    · simp [h1, State.vAwait, cond]
  rw [exec_await_first h op, true_, end_, stall]
  cases s.condIn v (bits (vParam w) 2 0) == (bits (vParam w) 8 6 == 1) <;> rfl

theorem exec_valveIllegal {s : State} {v : Fin 128} {w : Nat} (clocked : s.up (3 + v / 16) = true)
    (runs : (s.valve v).run = true) (free : (s.valve v).stalled = false) (word : (s.valve v).word = w)
    (illegal : vIllegal w (s.txDepth v) (s.rxDepth v) = true) :
    exec (.valveIllegal v) s = .next (((s.vNext v w ((s.valve v).pc + 1)).modValve v (fun x => { x with
      illop := true, fresh := x.fresh.set (s.strokes + s.tb.edges) (2 ^ 17) })).event 9 14 0x20 v (s.valve v).pc) := by
  have clocked' : s.up (3 + portOfValve v / 4) = true := by
    rw [show 3 + portOfValve v / 4 = 3 + v / 16 by rw [portOfValve, Nat.div_div_eq_div_mul]]
    exact clocked
  show s.act _ _ = _
  rw [word, State.act_of (by simp [clocked', runs, free, illegal])]
  rfl

/-- Settles O26: a take and a give by their queues, a wait by its source, an illegal word by its fault. -/
theorem valveWaitsAndQueues : Obligations.ValveWaitsAndQueues := by
  unfold Obligations.ValveWaitsAndQueues
  refine ⟨fun v w e es s h op dir ready => exec_take_ready h op dir ready,
    fun v w s h op dir empty go => exec_take_stale h op dir empty go, fun v w s h op dir room => exec_give_room h op dir room,
    fun v w s h op dir full go => exec_give_over h op dir full go, fun v i w s h op wait form => ?stall,
    fun v w e es s word runs stalled op dir ready => exec_queueStallEnd_take word runs stalled op dir ready,
    fun v w s word runs stalled op dir room => exec_queueStallEnd_give word runs stalled op dir room,
    fun v w s h op source untimed => ?level, fun v w s word runs stalled op source edge => ?edge,
    fun v w s word runs stalled op source flag => ?flag,
    fun u v w x pc s t new_ port order flag ht word runs stalled op source => ?shared,
    fun v w s word runs stalled op again timed more => ?again, fun v w s word runs stalled op again timed last => ?timeout,
    fun v w s clocked runs free word illegal => exec_valveIllegal clocked runs free word illegal⟩
  case stall =>
    obtain ⟨rfl, dir, empty⟩ | ⟨rfl, dir, full⟩ := form
    · exact exec_take_stall h op dir empty wait
    · exact exec_give_stall h op dir full wait
  case level =>
    obtain ⟨-, valve, others, rest⟩ := s.awaitStart_spec v w
    refine ⟨_, exec_await_level h op source untimed, ?_⟩
    show (_ = (s.condIn v (bits (vParam w) 2 0) == (bits (vParam w) 8 6 == 1))) ∧ _
    generalize s.awaitStart v w = t at *
    let g : State → State := fun t => { t with valves := s.valves, pins := s.pins }
    cases s.condIn v (bits (vParam w) 2 0) == (bits (vParam w) 8 6 == 1) with
    | true =>
      simp only [if_true, State.vStall, State.valve_modValve_same, valve]
      refine ⟨trivial, fun _ => trivial, fun h => by simp at h, fun u other => ?_, rest⟩
      rw [State.valve_modValve, if_neg (Ne.symm other), others u other]
    | false =>
      simp only [Bool.false_eq_true, if_false, State.vEnd, State.valve_modValve_same]
      refine ⟨trivial, fun h => by simp at h, fun _ => trivial, fun u other => ?_, rest⟩
      rw [State.valve_modValve, if_neg (Ne.symm other), others u other]
  case edge =>
    have pass : s.awaitTrue v false true = true := by
      rw [State.awaitTrue_next word, source]
      have differs : (s.condIn v (bits (vParam w) 2 0) != (s.valve v).edge0) = true := bne_iff_ne.mpr edge
      simp [State.vAwait, differs]
    rw [exec_awaitPass word runs stalled op (by rw [State.mayPass, pass, Bool.or_true]),
      State.awaitEnd_of_level word (by simp [source])]
  case flag =>
    have pass : s.awaitTrue v false true = true := by
      rw [State.awaitTrue_next word, source, flag]
      rfl
    rw [exec_awaitPass word runs stalled op (by rw [State.mayPass, pass, Bool.or_true]), State.awaitEnd_of_flag word source]
  case shared =>
    have start : (t.flagCyc (v / 4) (v % 4)).start = tget 0 s.flags (v / 4) := by
      rw [← port] at new_
      have record := State.flagCyc_setPflag (k := bits (vParam w) 2 0) false new_ order
      rw [port] at record
      subst ht
      exact congrArg FlagCyc.start record
    have pass : t.awaitTrue v false false = true := by
      rw [State.awaitTrue, word, source]
      show bit (t.flagCyc (v / 4) (v % 4)).start _ = true
      rw [start]
      exact flag
    rw [exec_awaitPass word runs stalled op (by rw [State.mayPass, pass, Bool.true_or]), State.awaitEnd_of_flag word source]
  case again =>
    exact exec_await_again word runs stalled op ((State.awaitTrue_next word).trans again) timed more
  case timeout =>
    exact exec_awaitTimeout word runs stalled op ((State.awaitTrue_next word).trans again) timed last

end Sys2Proof.Machine

/-!
SUPPORT. The valves' registers, the swap of a program and the queues' crossings (chapter 08), and the proof of O27.
-/

namespace Sys2Proof.Machine

/-! ### Fields of a word -/

section Fields

variable {w hi lo f : Nat}

/-- A word with a field written: what stands above the field, the field, what stands below it. -/
theorem putBits_eq (order : lo ≤ hi) :
    putBits w hi lo f = w / 2 ^ (hi + 1) * 2 ^ (hi + 1) + (f % 2 ^ (hi + 1 - lo) * 2 ^ lo + w % 2 ^ lo) := by
  have unit : 2 ^ (hi + 1) = 2 ^ lo * 2 ^ (hi + 1 - lo) := by rw [← pow_add]; congr 1; omega
  have low := Nat.div_add_mod w (2 ^ lo)
  have high := Nat.div_add_mod (w / 2 ^ lo) (2 ^ (hi + 1 - lo))
  rw [putBits, bits, unit, ← Nat.div_div_eq_div_mul]
  generalize w / 2 ^ lo / 2 ^ (hi + 1 - lo) = a at *
  generalize w / 2 ^ lo % 2 ^ (hi + 1 - lo) = b at *
  rw [← high] at low
  have sum : w = a * (2 ^ lo * 2 ^ (hi + 1 - lo)) + b * 2 ^ lo + w % 2 ^ lo := by
    calc w = 2 ^ lo * (2 ^ (hi + 1 - lo) * a + b) + w % 2 ^ lo := low.symm
      _ = _ := by ring
  omega

theorem putBits_field_lt (order : lo ≤ hi) : f % 2 ^ (hi + 1 - lo) * 2 ^ lo + w % 2 ^ lo < 2 ^ (hi + 1) := by
  have unit : 2 ^ (hi + 1) = 2 ^ (hi + 1 - lo) * 2 ^ lo := by rw [← pow_add]; congr 1; omega
  have field : f % 2 ^ (hi + 1 - lo) + 1 ≤ 2 ^ (hi + 1 - lo) := Nat.mod_lt _ (by positivity)
  have low : w % 2 ^ lo < 2 ^ lo := Nat.mod_lt _ (by positivity)
  calc f % 2 ^ (hi + 1 - lo) * 2 ^ lo + w % 2 ^ lo < (f % 2 ^ (hi + 1 - lo) + 1) * 2 ^ lo := by rw [Nat.add_mul]; omega
    _ ≤ 2 ^ (hi + 1) := unit ▸ Nat.mul_le_mul_right _ field

theorem putBits_div (order : lo ≤ hi) : putBits w hi lo f / 2 ^ (hi + 1) = w / 2 ^ (hi + 1) := by
  rw [putBits_eq order, Nat.add_comm, Nat.add_mul_div_right _ _ (by positivity), Nat.div_eq_of_lt (putBits_field_lt order),
    Nat.zero_add]

theorem bit_putBits_above (order : lo ≤ hi) {k : Nat} (above : hi < k) : bit (putBits w hi lo f) k = bit w k := by
  rw [bit, div_pow_congr _ _ _ _ (putBits_div order) above, bit]

theorem bits_putBits_above (order : lo ≤ hi) {k n : Nat} (above : hi < n) : bits (putBits w hi lo f) k n = bits w k n := by
  rw [bits, div_pow_congr _ _ _ _ (putBits_div order) above, bits]

theorem bits_putBits_same (order : lo ≤ hi) : bits (putBits w hi lo f) hi lo = f % 2 ^ (hi + 1 - lo) := by
  have unit : 2 ^ (hi + 1) = 2 ^ (hi + 1 - lo) * 2 ^ lo := by rw [← pow_add]; congr 1; omega
  have low : w % 2 ^ lo < 2 ^ lo := Nat.mod_lt _ (by positivity)
  rw [bits, putBits_eq order, unit, ← Nat.mul_assoc, ← Nat.add_assoc, ← Nat.add_mul, Nat.add_comm,
    Nat.add_mul_div_right _ _ (by positivity), Nat.div_eq_of_lt low, Nat.zero_add, Nat.mul_add_mod_self_right, Nat.mod_mod]

theorem bit_putBits_zero (w k : Nat) : bit (putBits w k k 0) k = false := by
  have h := bits_putBits_same (w := w) (f := 0) (le_refl k)
  rw [bits, show k + 1 - k = 1 by omega, pow_one] at h
  rw [bit, h]
  rfl

theorem bit_mod {n k : Nat} (below : k < n) (w : Nat) : bit (w % 2 ^ n) k = bit w k := by
  rw [bit_eq_testBit, bit_eq_testBit, Nat.testBit_mod_two_pow, decide_eq_true below, Bool.true_and]

theorem bits_mod {n k j : Nat} (below : k < n) (w : Nat) : bits (w % 2 ^ n) k j = bits w k j := by
  refine Nat.eq_of_testBit_eq fun i => ?_
  simp only [bits, Nat.testBit_mod_two_pow, Nat.testBit_div_two_pow]
  by_cases inside : i < k + 1 - j
  · simp [show i + j < n by omega]
  · simp [inside]

theorem testBit_mix {k : Nat} (below : k < 32) (old m v : Nat) :
    (mix old m v).testBit k = if m.testBit k then v.testBit k else old.testBit k := by
  rw [mix, BitVec.testBit_toNat]
  simp only [BitVec.getLsbD_or, BitVec.getLsbD_and, BitVec.getLsbD_not, BitVec.getLsbD_ofNat, below, decide_true, Bool.true_and]
  cases m.testBit k <;> simp

theorem mix_lt (old m v : Nat) : mix old m v < 2 ^ 32 := BitVec.isLt _

/-- A field of a register that the mask covers holds what is written. -/
theorem bits_mix {m : Nat} (below : hi < 32) (covered : ∀ i, lo ≤ i → i ≤ hi → m.testBit i = true) (old v : Nat) :
    bits (mix old m v) hi lo = bits v hi lo := by
  refine Nat.eq_of_testBit_eq fun i => ?_
  simp only [bits, Nat.testBit_mod_two_pow, Nat.testBit_div_two_pow]
  by_cases inside : i < hi + 1 - lo
  · rw [testBit_mix (by omega), covered (i + lo) (by omega) (by omega), if_pos rfl]
  · simp [inside]

end Fields

/-! ### Registers of a valve (R253, R256, R271, R281, R282) -/

section Registers

variable {s : State} {v : Nat}

theorem State.vreg_setReg (s : State) (v o p n : Nat) :
    (s.setReg (valveBase v + o) n).vreg v p = if o = p then n % 2 ^ 32 else s.vreg v p := by
  rw [State.vreg, State.reg_setReg, State.vreg]
  exact if_congr (by omega) rfl rfl

/-- VALVE_CTRL as a write stores it, and what its keys clear (R281, R289). -/
def State.ctrlStore (s : State) (v w : Nat) : State :=
  (s.setReg (valveBase v) (mix (s.vreg v 0) 0x3F08 w)).modValve v (fun x => { x with
    cfgErr := x.cfgErr && (!bit w 16 || bit (x.fresh.held s.moment) 0)
    nOverflow := if bit w 2 then 0 else x.nOverflow
    nUnderrun := if bit w 2 then 0 else x.nUnderrun
    nStale := if bit w 2 then 0 else x.nStale
    nOverwrite := if bit w 2 then 0 else x.nOverwrite })

/-- EN goes to 1. -/
def State.ctrlStart (s : State) (v : Nat) (was : Bool) : State :=
  let s := s.setReg (valveBase v) (putBits (s.vreg v 0) 0 0 1)
  if was then s
  else s.modValve v (fun x => { x with
    run := true, stalled := false, dwell := 0, safe := false, div := s.vreg v 4 % 65536 })

theorem State.valveCtrlWrite_eq (s : State) (v w : Nat) : s.valveCtrlWrite v w =
    if s.laneMode (portOfValve v) && v % 4 < 2 && bit w 0 then s.valveCfgErr v
    else
      let u := if bit w 0 then s.ctrlStore v w else (s.ctrlStore v w).valveStop v
      let u := if bit w 1 then (if (s.valve v).run && bit w 0 then u.valveCfgErr v else u.valveRestart v) else u
      if bit w 0 then u.ctrlStart v (s.valve v).run else u := rfl

/-- A write of VALVE_CTRL leaves valve `v` as `x` and the register as `c`, and nothing else changes. -/
structure CtrlWrite (s : State) (v : Nat) (t : State) (x : ValveSt) (c : Nat) : Prop where
  self : t.valve v = x
  others : ∀ u, u ≠ v → t.valve u = s.valve u
  ctrl : t.vreg v 0 = c
  regs : ∀ o, o ≠ valveBase v → t.reg o = s.reg o
  rest : { t with valves := s.valves, regs := s.regs } = s

variable {u : State} {x : ValveSt} {c : Nat}

/-- One more change of the valve. -/
theorem CtrlWrite.modValve (h : CtrlWrite s v u x c) (f : ValveSt → ValveSt) : CtrlWrite s v (u.modValve v f) (f x) c where
  self := by rw [State.valve_modValve_same, h.self]
  others a other := by rw [State.valve_modValve, if_neg (Ne.symm other), h.others a other]
  ctrl := h.ctrl
  regs := h.regs
  rest := h.rest

/-- One more change of the register. -/
theorem CtrlWrite.setReg (h : CtrlWrite s v u x c) (n : Nat) :
    CtrlWrite s v (u.setReg (valveBase v) n) x (n % 2 ^ 32) where
  self := h.self
  others := h.others
  ctrl := (u.vreg_setReg v 0 0 n).trans (if_pos rfl)
  regs o other := (State.reg_setReg_other _ _ _ _ other).trans (h.regs o other)
  rest := h.rest

theorem CtrlWrite.refl (s : State) (v : Nat) : CtrlWrite s v s (s.valve v) (s.vreg v 0) :=
  ⟨rfl, fun _ _ => rfl, rfl, fun _ _ => rfl, rfl⟩

theorem State.ctrlStore_spec (s : State) (v w : Nat) : CtrlWrite s v (s.ctrlStore v w) { s.valve v with
    cfgErr := (s.valve v).cfgErr && (!bit w 16 || bit ((s.valve v).fresh.held s.moment) 0)
    nOverflow := if bit w 2 then 0 else (s.valve v).nOverflow
    nUnderrun := if bit w 2 then 0 else (s.valve v).nUnderrun
    nStale := if bit w 2 then 0 else (s.valve v).nStale
    nOverwrite := if bit w 2 then 0 else (s.valve v).nOverwrite } (mix (s.vreg v 0) 0x3F08 w) := by
  have h := ((CtrlWrite.refl s v).setReg (mix (s.vreg v 0) 0x3F08 w)).modValve (fun x => { x with
    cfgErr := x.cfgErr && (!bit w 16 || bit (x.fresh.held s.moment) 0)
    nOverflow := if bit w 2 then 0 else x.nOverflow
    nUnderrun := if bit w 2 then 0 else x.nUnderrun
    nStale := if bit w 2 then 0 else x.nStale
    nOverwrite := if bit w 2 then 0 else x.nOverwrite })
  rw [Nat.mod_eq_of_lt (mix_lt _ _ _)] at h
  exact h

/-- Without its keys a write of VALVE_CTRL leaves the valve as it was. -/
theorem State.ctrlStore_plain {w : Nat} (keys : bit w 2 = false) (err : bit w 16 = false) :
    CtrlWrite s v (s.ctrlStore v w) (s.valve v) (mix (s.vreg v 0) 0x3F08 w) := by
  have h := s.ctrlStore_spec v w
  simp only [keys, err, Bool.false_eq_true, if_false, Bool.not_false, Bool.true_or, Bool.and_true] at h
  exact h

theorem CtrlWrite.stop (h : CtrlWrite s v u x c) : CtrlWrite s v (u.valveStop v)
    { x with run := false, stalled := false, dwell := 0, safe := false } (putBits c 0 0 0 % 2 ^ 32) := by
  have h' := (h.setReg (putBits (u.vreg v 0) 0 0 0)).modValve (fun x => { x with
    run := false, stalled := false, dwell := 0, safe := false })
  rw [h.ctrl] at h'
  rw [State.valveStop, h.ctrl]
  exact h'

/-- RESTART clears the valve's words, counters and triggers (R281). -/
theorem CtrlWrite.restart (h : CtrlWrite s v u x c) : CtrlWrite s v (u.valveRestart v) { x with
    pc := bits c 13 8, txw := 0, rxw := 0, txn := 0, rxn := 0, k0 := 0, k1 := 0, lastTake := 0
    trig0 := false, trig1 := false, stalled := false } c := by
  rw [State.valveRestart, h.ctrl]
  exact h.modValve _

theorem CtrlWrite.start (h : CtrlWrite s v u x c) : CtrlWrite s v (u.ctrlStart v false) { x with
    run := true, stalled := false, dwell := 0, safe := false, div := s.vreg v 4 % 65536 }
    (putBits c 0 0 1 % 2 ^ 32) := by
  have div : (u.setReg (valveBase v) (putBits c 0 0 1)).vreg v 4 = s.vreg v 4 := by
    rw [State.vreg, State.reg_setReg_other _ _ _ _ (by omega), h.regs _ (by omega), State.vreg]
  rw [State.ctrlStart, h.ctrl]
  simp only [div, Bool.false_eq_true, if_false]
  exact (h.setReg _).modValve _

variable {w : Nat}

/-- VALVE_START of a valve that stands (R281). -/
theorem State.valveCtrlWrite_start (en : bit w 0 = true) (keep : bit w 1 = false) (keys : bit w 2 = false)
    (err : bit w 16 = false) (stands : (s.valve v).run = false)
    (free : s.laneMode (portOfValve v) = false ∨ 2 ≤ v % 4) : CtrlWrite s v (s.valveCtrlWrite v w) { s.valve v with
      run := true, stalled := false, dwell := 0, safe := false, div := s.vreg v 4 % 65536 }
      (putBits (mix (s.vreg v 0) 0x3F08 w) 0 0 1 % 2 ^ 32) := by
  have lane : (s.laneMode (portOfValve v) && v % 4 < 2 && bit w 0) = false := by
    obtain h | h := free
    · simp [h]
    · simp [show ¬v % 4 < 2 by omega]
  rw [State.valveCtrlWrite_eq, lane]
  simp only [en, keep, stands, Bool.false_eq_true, if_false, if_true]
  exact (State.ctrlStore_plain keys err).start

theorem State.valveCtrlWrite_stop (en : bit w 0 = false) (keep : bit w 1 = false) (keys : bit w 2 = false)
    (err : bit w 16 = false) : CtrlWrite s v (s.valveCtrlWrite v w) { s.valve v with
      run := false, stalled := false, dwell := 0, safe := false }
      (putBits (mix (s.vreg v 0) 0x3F08 w) 0 0 0 % 2 ^ 32) := by
  rw [State.valveCtrlWrite_eq]
  simp only [en, keep, Bool.and_false, Bool.false_eq_true, if_false]
  exact (State.ctrlStore_plain keys err).stop

theorem State.valveCtrlWrite_restart (en : bit w 0 = false) (key : bit w 1 = true) (keys : bit w 2 = false)
    (err : bit w 16 = false) : CtrlWrite s v (s.valveCtrlWrite v w) { s.valve v with
      run := false, stalled := false, dwell := 0, safe := false, pc := bits w 13 8, txw := 0, rxw := 0, txn := 0
      rxn := 0, k0 := 0, k1 := 0, lastTake := 0, trig0 := false, trig1 := false }
      (putBits (mix (s.vreg v 0) 0x3F08 w) 0 0 0 % 2 ^ 32) := by
  have pc : bits (putBits (mix (s.vreg v 0) 0x3F08 w) 0 0 0 % 2 ^ 32) 13 8 = bits w 13 8 := by
    rw [bits_mod (by decide), bits_putBits_above le_rfl (by decide), bits_mix (by decide)]
    decide
  have h := (State.ctrlStore_plain (s := s) (v := v) keys err).stop.restart
  rw [pc] at h
  rw [State.valveCtrlWrite_eq]
  simp only [en, key, Bool.and_false, Bool.false_eq_true, if_false, if_true]
  exact h

theorem State.valveCtrlWrite_clear (en : bit w 0 = false) (keep : bit w 1 = false) (key : bit w 2 = true) :
    ∃ x c, CtrlWrite s v (s.valveCtrlWrite v w) x c ∧
      x.nOverflow = 0 ∧ x.nUnderrun = 0 ∧ x.nStale = 0 ∧ x.nOverwrite = 0 := by
  rw [State.valveCtrlWrite_eq]
  simp only [en, keep, Bool.and_false, Bool.false_eq_true, if_false]
  have h := s.ctrlStore_spec v w
  simp only [key, if_true] at h
  exact ⟨_, _, h.stop, rfl, rfl, rfl, rfl⟩

/-- A write of VALVE_QCFG that changes the depths empties the queues (R270, R271). -/
theorem State.qcfgWrite_of_new (stands : (s.valve v).run = false) (legal : bits w 1 0 ≠ 3)
    (new_ : bits w 1 0 ≠ bits (s.vreg v 0x0C) 1 0) : bits ((s.qcfgWrite v w).vreg v 0x0C) 1 0 = bits w 1 0 ∧
    (s.qcfgWrite v w).valve v = { s.valve v with
      txCross := [], txReady := [], rxCross := [], rxReady := [], creditBack := []
      credit := if bits w 1 0 = 0 then 4 else if bits w 1 0 = 1 then 8 else 0 } ∧
    { s.qcfgWrite v w with valves := s.valves, regs := s.regs } = s := by
  have stored : bits ((s.setReg (valveBase v + 0x0C) (mix 0 0x33 w)).vreg v 0x0C) 1 0 = bits w 1 0 := by
    rw [State.vreg_setReg, if_pos rfl, bits_mod (by decide), bits_mix (by decide)]
    decide
  have depth : (s.setReg (valveBase v + 0x0C) (mix 0 0x33 w)).txDepth v =
      if bits w 1 0 = 0 then 4 else if bits w 1 0 = 1 then 8 else 0 := by
    rw [State.txDepth, stored]
    split
    · next h => simp [h]
    · next h => simp [h]
    · next h0 h1 => rw [if_neg h0, if_neg h1]
  have run : s.qcfgWrite v w = (s.setReg (valveBase v + 0x0C) (mix 0 0x33 w)).modValve v (fun x => { x with
      txCross := [], txReady := [], rxCross := [], rxReady := [], creditBack := []
      credit := (s.setReg (valveBase v + 0x0C) (mix 0 0x33 w)).txDepth v }) := by
    have open_ : ((s.valve v).run || bits w 1 0 == 3) = false := by simp [stands, legal]
    rw [State.qcfgWrite, open_]
    exact if_neg (Ne.symm new_)
  rw [run, State.valve_modValve_same, depth]
  exact ⟨stored, rfl, rfl⟩

/-- A write of VALVE_PROG_SEL (R283, R286). -/
theorem State.progSelWrite_spec (m : Nat) (few : m < 4) : (s.progSelWrite v (putBits w 1 0 m)).valve v = { s.valve v with
      cycled := false
      swap := if m = 0 then none else some { mode := m, entry := bits w 13 8, clear := bit w 16 } } ∧
    { s.progSelWrite v (putBits w 1 0 m) with valves := s.valves, regs := s.regs } = s := by
  have mode : bits (putBits w 1 0 m) 1 0 = m := (bits_putBits_same (by decide)).trans (Nat.mod_eq_of_lt few)
  have entry : bits (putBits w 1 0 m) 13 8 = bits w 13 8 := bits_putBits_above (by decide) (by decide)
  have clear : bit (putBits w 1 0 m) 16 = bit w 16 := bit_putBits_above (by decide) (by decide)
  refine ⟨?_, rfl⟩
  rw [State.progSelWrite, State.valve_modValve_same, mode, entry, clear]
  rfl

/-- The swap of a valve that stands (R283, R284). -/
theorem exec_valveSwap_of_stopped {v : Fin 128} {left : Fin 16} {r : SwapReq} (request : (s.valve v).swap = some r)
    (stands : (s.valve v).run = false) : exec (.valveSwap v left) s = .next (s.valveSwap v false) := by
  have due : (s.valve v).swapDue = true := by simp [ValveSt.swapDue, request, stands]
  show s.act (s.valve v).swapDue _ = _
  rw [State.act_of due, stands]
  rfl

theorem exec_rxEntryArrive {v : Fin 128} {c : Cross (Word × Bool)} {cs : List (Cross (Word × Bool))}
    (first : (s.valve v).rxCross = c :: cs) (arrived : c.at_ + 2 ≤ s.strokes) :
    exec (.rxEntryArrive v) s = .next (s.modValve v (fun x => { x with
      rxCross := cs
      rxReady := if c.val.2 then (if x.rxReady.isEmpty then [] else x.rxReady.dropLast ++ [c.val.1])
        else x.rxReady ++ [c.val.1] })) := by
  have in_ : c.inCore s = true := decide_eq_true arrived
  show execRxEntryArrive v s = _
  rw [execRxEntryArrive, first]
  simp only [State.act_of in_, State.modValve, ValveSt.rxArrive, first]

end Registers

/-- Settles O27: a write of each register by its fields, the swap by its request, each crossing by its stroke. -/
theorem valveRegistersAndSwap : Obligations.ValveRegistersAndSwap := by
  unfold Obligations.ValveRegistersAndSwap
  refine ⟨fun v w s restart clear err stands free => ?start, fun v w s lane first => ?lane, fun v w s restart clear err => ?stop,
    fun v w s en clear err => ?restart, fun v w s en restart err => ?clear, fun v w s => ?div,
    fun v w s stands legal new_ => ⟨_, rfl, State.qcfgWrite_of_new stands legal new_⟩, fun v i w n k s refused => ?refused,
    fun v k w s open_ none_ => ?prog, fun v n w s stands => ?counter, fun v i m w s form => ?request, fun v w s => ?cancel,
    fun v left r s request stands => ?swap, fun v c cs s first out => ?tx, fun v c cs s first arrived plain => ?rx,
    fun v c cs s first arrived mark some_ => ?replace, fun v c cs s first arrived mark none_ => ?gone,
    fun v q qs s first back => ?credit, fun v w s held => ?held⟩
  case start =>
    have h := State.valveCtrlWrite_start (s := s) (v := v) (w := putBits w.toNat 0 0 1) (bit_putBits_one _ _)
      ((bit_putBits_above le_rfl (by decide)).trans restart) ((bit_putBits_above le_rfl (by decide)).trans clear)
      ((bit_putBits_above le_rfl (by decide)).trans err) stands free
    refine ⟨_, rfl, h.self, h.others, ?_, h.regs, h.rest⟩
    rw [h.ctrl, bit_mod (by decide), bit_putBits_one]
  case lane =>
    have refused : (s.laneMode (portOfValve v) && v.val % 4 < 2 && bit (putBits w.toNat 0 0 1) 0) = true := by
      simpa [first, portOfValve] using lane
    show Host.Outcome.next (s.valveCtrlWrite v (putBits w.toNat 0 0 1)) = _
    rw [State.valveCtrlWrite_eq, if_pos refused]
    rfl
  case stop =>
    have h := State.valveCtrlWrite_stop (s := s) (v := v) (w := putBits w.toNat 0 0 0) (bit_putBits_zero _ _)
      ((bit_putBits_above le_rfl (by decide)).trans restart) ((bit_putBits_above le_rfl (by decide)).trans clear)
      ((bit_putBits_above le_rfl (by decide)).trans err)
    refine ⟨_, rfl, h.self, h.others, ?_, h.regs, h.rest⟩
    rw [h.ctrl, bit_mod (by decide), bit_putBits_zero]
  case restart =>
    have h := State.valveCtrlWrite_restart (s := s) (v := v) (w := putBits w.toNat 1 1 1)
      ((bit_putBits_below (by decide) _ _).trans en) (bit_putBits_one _ _)
      ((bit_putBits_above le_rfl (by decide)).trans clear) ((bit_putBits_above le_rfl (by decide)).trans err)
    rw [bits_putBits_above le_rfl (by decide)] at h
    exact ⟨_, rfl, h.self, h.others, h.rest⟩
  case clear =>
    obtain ⟨x, c, h, overflow, underrun, stale, overwrite⟩ := State.valveCtrlWrite_clear (s := s) (v := v)
      (w := putBits w.toNat 2 2 1) ((bit_putBits_below (by decide) _ _).trans en)
      ((bit_putBits_below (by decide) _ _).trans restart) (bit_putBits_one _ _)
    refine ⟨_, rfl, ?_⟩
    dsimp only
    rw [h.self]
    exact ⟨overflow, underrun, stale, overwrite, h.others, h.rest⟩
  case div =>
    refine ⟨_, rfl, ?_, rfl, rfl⟩
    rw [State.vreg_setReg, if_pos rfl]
    simp only [bits]
    omega
  case refused =>
    obtain ⟨rfl, running | three⟩ | ⟨rfl, running⟩ | ⟨rfl, locked⟩ := refused
    · show Host.Outcome.next (s.qcfgWrite v w.toNat) = _
      rw [State.qcfgWrite, running]
      rfl
    · show Host.Outcome.next (s.qcfgWrite v w.toNat) = _
      rw [State.qcfgWrite, if_pos (by simp [three])]
      rfl
    · show Host.Outcome.next (s.kWrite v n w.toNat) = _
      rw [State.kWrite, if_pos running]
      rfl
    · show Host.Outcome.next (s.progWrite v k w.toNat) = _
      rw [State.progWrite, if_pos (by simpa using locked)]
      rfl
  case prog =>
    have run : s.progWrite v k w.toNat = s.modValve v (fun x =>
        if x.bank then { x with prog0 := tset 0 x.prog0 k w } else { x with prog1 := tset 0 x.prog1 k w }) := by
      have word : BitVec.ofNat 32 w.toNat = w := (BitVec.ofNat_toNat 32 w).trans (BitVec.setWidth_eq w)
      rw [State.progWrite, if_neg (by simp [open_, none_]), word]
    refine ⟨_, congrArg Host.Outcome.next run, ?_⟩
    dsimp only
    rw [State.valve_modValve_same]
    cases bank : (s.valve v).bank with
    | true => exact ⟨fun j => (tget_tset _ _ _ _ _).trans (if_congr eq_comm rfl rfl), rfl, rfl⟩
    | false => exact ⟨fun j => (tget_tset _ _ _ _ _).trans (if_congr eq_comm rfl rfl), rfl, rfl⟩
  case counter =>
    show Host.Outcome.next (s.kWrite v n w.toNat) = _
    rw [State.kWrite, if_neg (by simp [stands])]
    refine congrArg (fun f => Host.Outcome.next (s.modValve v f)) (funext fun x => ?_)
    exact if_congr Fin.val_eq_zero_iff rfl rfl
  case request =>
    simp only [List.mem_cons, Prod.mk.injEq, List.not_mem_nil, or_false] at form
    obtain ⟨rfl, rfl⟩ | ⟨rfl, rfl⟩ | ⟨rfl, rfl⟩ := form
    · exact ⟨_, rfl, State.progSelWrite_spec 1 (by decide)⟩
    · exact ⟨_, rfl, State.progSelWrite_spec 2 (by decide)⟩
    · exact ⟨_, rfl, State.progSelWrite_spec 3 (by decide)⟩
  case cancel => exact ⟨_, rfl, State.progSelWrite_spec 0 (by decide)⟩
  case swap =>
    refine ⟨_, exec_valveSwap_of_stopped request stands, ?_⟩
    dsimp only
    rw [State.valveSwap, State.valve_modValve_same, request]
    cases cleared : r.clear with
    | true => simp [State.modValve, cleared]
    | false => simp [State.modValve, cleared]
  case tx =>
    show execTxEntryReady v s = _
    rw [execTxEntryReady, first]
    exact State.act_of (decide_eq_true out)
  case rx =>
    rw [exec_rxEntryArrive first arrived]
    simp only [plain, Bool.false_eq_true, if_false]
  case replace =>
    rw [exec_rxEntryArrive first arrived]
    simp only [State.modValve, mark, if_true, List.isEmpty_iff, if_neg some_]
  case gone =>
    rw [exec_rxEntryArrive first arrived]
    simp only [State.modValve, mark, if_true, none_, List.isEmpty_nil]
  case credit =>
    show execPutCreditReturn v s = _
    rw [execPutCreditReturn, first]
    exact State.act_of (decide_eq_true back)
  case held =>
    have held' : bit ((s.valve v).fresh.held s.moment) 17 = true := held
    rw [State.valveStatusWrite, State.valve_modValve_same]
    simp [held']

end Sys2Proof.Machine

/-!
SUPPORT. Input conditioning and the pin registers (chapter 08), and the proof of O28.
-/

namespace Sys2Proof.Machine

/-! ### Pins of a port -/

section Pins

variable {s : State} {n j : Nat}

theorem State.pin_modPin_same (s : State) (n j : Nat) (f : PinSt → PinSt) : (s.modPin n j f).pin n j = f (s.pin n j) :=
  tget_tput_same _ _ _ _

theorem State.pins_modPin (s : State) (n j k : Nat) (f : PinSt → PinSt) : tget {} (s.modPin n j f).pins k =
    if 8 * n + j = k then f (s.pin n j) else tget {} s.pins k := tget_tput _ _ _ _ _

/-- One pass over the eight pins of a port in which each step changes its own pin alone. -/
theorem State.foldPins {n : Nat} (F : Nat → PinSt → PinSt) (step : State → Nat → State)
    (each : ∀ t j, j < 8 → { t with pins := s.pins } = s → t.pin n j = s.pin n j → step t j = t ∧ F j (s.pin n j) = s.pin n j ∨
      step t j = t.modPin n j (fun _ => F j (s.pin n j))) :
    { (List.range 8).foldl step s with pins := s.pins } = s ∧ ∀ k, tget {} ((List.range 8).foldl step s).pins k =
      if k / 8 = n then F (k % 8) (tget {} s.pins k) else tget {} s.pins k := by
  have partial_ : ∀ m, m ≤ 8 → { (List.range m).foldl step s with pins := s.pins } = s ∧
      ∀ k, tget {} ((List.range m).foldl step s).pins k =
        if k / 8 = n ∧ k % 8 < m then F (k % 8) (tget {} s.pins k) else tget {} s.pins k := by
    intro m
    induction m with
    | zero => exact fun _ => ⟨rfl, fun k => by simp⟩
    | succ m ih =>
      intro few
      obtain ⟨rest, pins⟩ := ih (by omega)
      rw [List.range_succ, List.foldl_append, List.foldl_cons, List.foldl_nil]
      generalize (List.range m).foldl step s = u at *
      have row : (8 * n + m) / 8 = n := by omega
      have column : (8 * n + m) % 8 = m := by omega
      have same : u.pin n m = s.pin n m := by
        rw [State.pin, pins, column]
        simp [State.pin]
      have split (k : Nat) : (k / 8 = n ∧ k % 8 < m + 1) ↔ (k / 8 = n ∧ k % 8 < m) ∨ 8 * n + m = k := by omega
      obtain ⟨run, fixed⟩ | run := each u m (by omega) rest same
      · rw [run]
        refine ⟨rest, fun k => ?_⟩
        rw [pins, if_congr (split k) rfl rfl]
        by_cases here : 8 * n + m = k
        · subst here
          rw [column] at *
          rw [if_neg (by omega), if_pos (.inr rfl)]
          exact fixed.symm
        · simp [here]
      · rw [run]
        refine ⟨rest, fun k => ?_⟩
        rw [State.pins_modPin, pins, if_congr (split k) rfl rfl]
        by_cases here : 8 * n + m = k
        · subst here
          rw [column]
          simp [State.pin]
        · simp [here]
  obtain ⟨rest, pins⟩ := partial_ 8 le_rfl
  have column (k : Nat) : k % 8 < 8 := Nat.mod_lt _ (by decide)
  simp only [column, and_true] at pins
  exact ⟨rest, pins⟩

theorem State.pin_of_pins {t : State} {F : Nat → PinSt → PinSt}
    (pins : ∀ k, tget {} t.pins k = if k / 8 = n then F (k % 8) (tget {} s.pins k) else tget {} s.pins k) (few : j < 8) :
    t.pin n j = F j (s.pin n j) := by
  have row : (8 * n + j) / 8 = n := by omega
  have column : (8 * n + j) % 8 = j := by omega
  rw [State.pin, pins, row, column, if_pos rfl, State.pin]

theorem State.condTo_spec (s : State) (n j : Nat) (l : Bool) : (s.condTo n j l).pin n j = { s.pin n j with cond := l } ∧
    (∀ k, k ≠ 8 * n + j → tget {} (s.condTo n j l).pins k = (tget {} s.pins k : PinSt)) ∧
    (s.condTo n j l).mf.entryQ = s.mf.entryQ ++ (if (s.pin n j).cond = l then [] else
      [{ src := 8 * n + j, ev := true, rising := l, level := l, from_ := s.strokes + 2 }]) ∧
    (s.condTo n j l).evq = s.evq ∧ { s.condTo n j l with pins := s.pins, mf := s.mf } = s := by
  unfold State.condTo
  by_cases same : (s.pin n j).cond = l
  · simp only [if_pos same, List.append_nil]
    refine ⟨?_, fun _ _ => trivial, trivial, trivial, trivial⟩
    rw [← same]
  · simp only [if_neg same]
    refine ⟨s.pin_modPin_same n j (fun p => { p with cond := l }), fun k other => ?_, rfl, rfl, rfl⟩
    exact (s.pins_modPin n j k (fun p => { p with cond := l })).trans (if_neg (Ne.symm other))

end Pins

/-! ### A sample (R275-R280) -/

section Sample

variable {s : State} {n j : Nat}

/-- A pin on which no restart waits, whose limiter and detector let its level through. -/
structure PinCalm (p : PinSt) : Prop where
  condWrite : p.condWrite = false
  rearm : p.rearm = false
  stuckClr : p.stuckClr = false
  frozen : p.frozen = false
  forced : p.forced = false

/-- The end of a chatter window changes the limiter's counts alone. -/
theorem PinCalm.window (calm : PinCalm (s.pin n j)) : ∃ u : State, (if s.chatterDue n j then s.chatterWindow n j else s) = u ∧
    u.mf = s.mf ∧ u.strokes = s.strokes ∧ u.pcond n j = s.pcond n j ∧ PinCalm (u.pin n j) ∧
    (u.pin n j).raw = (s.pin n j).raw ∧ (u.pin n j).filt = (s.pin n j).filt ∧ (u.pin n j).cond = (s.pin n j).cond ∧
    (u.pin n j).fcnt = (s.pin n j).fcnt := by
  obtain ⟨condWrite, rearm, stuckClr, frozen, forced⟩ := calm
  split
  · refine ⟨_, rfl, rfl, rfl, rfl, ?_⟩
    rw [State.chatterWindow, State.pin_modPin_same]
    exact ⟨⟨condWrite, rearm, stuckClr, frozen, forced⟩, rfl, rfl, rfl, rfl⟩
  · exact ⟨_, rfl, rfl, rfl, rfl, ⟨condWrite, rearm, stuckClr, frozen, forced⟩, rfl, rfl, rfl, rfl⟩

/-- The sample of a calm pin: filter, limiter without a bound, detector, level (R276-R280). -/
def State.sampleCalm (u : State) (n j : Nat) (passes act : Bool) (cnt : Nat) (l : Bool) : State :=
  ((u.modPin n j (fun p => { p with
    fcnt := if passes then 0 else cnt, filt := if passes then p.raw else p.filt
    chatSamples := p.chatSamples + 1 })).modPin n j (fun p => { p with
      stuckCnt := if act then p.stuckCnt + 1 else 0
      stuckFired := p.stuckFired && act
      forced := p.forced && act })).condTo n j l

theorem State.sampleCalm_spec (u : State) (n j : Nat) (passes act : Bool) (cnt : Nat) (l : Bool) :
    ((u.sampleCalm n j passes act cnt l).pin n j).filt = (if passes then (u.pin n j).raw else (u.pin n j).filt) ∧
    ((u.sampleCalm n j passes act cnt l).pin n j).cond = l ∧
    ((u.sampleCalm n j passes act cnt l).pin n j).fcnt = (if passes then 0 else cnt) ∧
    (u.sampleCalm n j passes act cnt l).mf.entryQ = u.mf.entryQ ++ (if (u.pin n j).cond = l then [] else
      [{ src := 8 * n + j, ev := true, rising := l, level := l, from_ := u.strokes + 2 }]) := by
  obtain ⟨pin, -, entryQ, -, -⟩ := State.condTo_spec ((u.modPin n j (fun p => { p with
    fcnt := if passes then 0 else cnt, filt := if passes then p.raw else p.filt
    chatSamples := p.chatSamples + 1 })).modPin n j (fun p => { p with
      stuckCnt := if act then p.stuckCnt + 1 else 0
      stuckFired := p.stuckFired && act
      forced := p.forced && act })) n j l
  rw [State.pin_modPin_same, State.pin_modPin_same] at pin entryQ
  refine ⟨?_, ?_, ?_, entryQ⟩ <;> rw [State.sampleCalm, pin]

/-- The sample of a calm pin whose level differs from the filtered one. -/
theorem State.samplePin_of_calm (calm : PinCalm (s.pin n j)) (changed : (s.pin n j).raw ≠ (s.pin n j).filt)
    (free : condFilt (s.pcond n j) ≤ (s.pin n j).fcnt + 1 → condEdges (s.pcond n j) = 0) :
    ∃ (u : State) (act : Bool), u.mf = s.mf ∧ u.strokes = s.strokes ∧ (u.pin n j).raw = (s.pin n j).raw ∧
      (u.pin n j).filt = (s.pin n j).filt ∧ (u.pin n j).cond = (s.pin n j).cond ∧
      s.samplePin n j = u.sampleCalm n j (decide (condFilt (s.pcond n j) ≤ (s.pin n j).fcnt + 1)) act ((s.pin n j).fcnt + 1)
        (if condFilt (s.pcond n j) ≤ (s.pin n j).fcnt + 1 then (s.pin n j).raw else (s.pin n j).filt) := by
  obtain ⟨u, window, mf, strokes, pcond, calm', raw, filt, cond, fcnt⟩ := calm.window
  obtain ⟨condWrite, rearm, stuckClr, frozen, forced⟩ := calm
  obtain ⟨-, -, -, frozen', forced'⟩ := calm'
  refine ⟨u, (if condFilt (s.pcond n j) ≤ (s.pin n j).fcnt + 1 then (s.pin n j).raw else (s.pin n j).filt) ==
    condPol (s.pcond n j), mf, strokes, raw, filt, cond, ?_⟩
  unfold State.samplePin
  simp only [condWrite, rearm, stuckClr, Bool.false_eq_true, if_false, window, raw, filt, fcnt,
    State.pin_modPin_same, Bool.false_and, Bool.or_false, ne_eq, changed, not_false_eq_true, decide_true, Bool.true_and]
  by_cases long : condFilt (s.pcond n j) ≤ (s.pin n j).fcnt + 1
  · have edge : (u.modPin n j (fun p => { p with fcnt := 0, filt := p.raw, chatSamples := p.chatSamples + 1 })).chatterEdge n j =
        u.modPin n j (fun p => { p with fcnt := 0, filt := p.raw, chatSamples := p.chatSamples + 1 }) := by
      have edges : condEdges ((u.modPin n j (fun p => { p with
          fcnt := 0, filt := p.raw, chatSamples := p.chatSamples + 1 })).pcond n j) = 0 := by
        rw [← free long, ← pcond]
        rfl
      rw [State.chatterEdge, State.pin_modPin_same]
      simp only [frozen', edges, Bool.false_eq_true, if_false, if_true]
    simp only [long, decide_true, if_true, edge, State.pin_modPin_same, frozen', forced', Bool.false_eq_true, if_false,
      Bool.false_and, raw, State.sampleCalm]
  · simp only [long, decide_false, if_false, State.pin_modPin_same, frozen', forced', Bool.false_eq_true, Bool.false_and, filt]
    rfl

end Sample

/-! ### The stuck detector (R279, R280) -/

section Stuck

variable {s : State} {n j : Nat}

/-- A detection, up to the level that it forces. -/
def State.stuckNote (s : State) (n j : Nat) : State :=
  let u := s.modPin n j (fun p => { p with stuck := true, stuckFired := true, forced := condForce (s.pcond n j) })
  (if !(s.pin n j).stuck then u.raiseAt (srcStuck (n / 4)) true true true (u.strokes + 2) else u).event
    8 14 0x20 (n + 256 * j + 4096) 0

theorem State.stuckNote_spec (s : State) (n j : Nat) : (s.stuckNote n j).pin n j = { s.pin n j with
      stuck := true, stuckFired := true, forced := condForce (s.pcond n j) } ∧
    (∀ k, k ≠ 8 * n + j → tget {} (s.stuckNote n j).pins k = (tget {} s.pins k : PinSt)) ∧
    ((s.stuckNote n j).evq.getLast?).map (fun e => (e.cls, e.typ, e.arg0)) = some (14, 0x20, n + 256 * j + 4096) ∧
    { s.stuckNote n j with pins := s.pins, mf := s.mf, evq := s.evq } = s := by
  have self := s.pin_modPin_same n j (fun p => { p with
    stuck := true, stuckFired := true, forced := condForce (s.pcond n j) })
  have others (k : Nat) (other : k ≠ 8 * n + j) := (s.pins_modPin n j k (fun p => { p with
    stuck := true, stuckFired := true, forced := condForce (s.pcond n j) })).trans (if_neg (Ne.symm other))
  have rest : { s.modPin n j (fun p => { p with
    stuck := true, stuckFired := true, forced := condForce (s.pcond n j) }) with pins := s.pins } = s := rfl
  rw [State.stuckNote]
  dsimp only
  generalize s.modPin n j (fun p => { p with
    stuck := true, stuckFired := true, forced := condForce (s.pcond n j) }) = u at *
  have last (v : State) : ((v.event 8 14 0x20 (n + 256 * j + 4096) 0).evq.getLast?).map (fun e => (e.cls, e.typ, e.arg0)) =
      some (14, 0x20, n + 256 * j + 4096) := by simp [State.event, State.eventAt]
  let g : State → State := fun t => { t with mf := s.mf, evq := s.evq }
  cases (s.pin n j).stuck with
  | true => exact ⟨self, others, last _, (congrArg g rest :)⟩
  | false => exact ⟨self, others, last _, (congrArg g rest :)⟩

theorem State.stuckLatch_eq (s : State) (n j : Nat) : s.stuckLatch n j =
    if condForce (s.pcond n j) then (s.stuckNote n j).condTo n j (!condPol (s.pcond n j)) else s.stuckNote n j := rfl

/-- A detection that forces the level (R279, R280). -/
theorem State.stuckLatch_forced (force : condForce (s.pcond n j) = true) :
    (s.stuckLatch n j).pin n j = { s.pin n j with
      stuck := true, stuckFired := true, forced := true, cond := !condPol (s.pcond n j) } ∧
    (∀ k, k ≠ 8 * n + j → tget {} (s.stuckLatch n j).pins k = (tget {} s.pins k : PinSt)) ∧
    ((s.stuckLatch n j).evq.getLast?).map (fun e => (e.cls, e.typ, e.arg0)) = some (14, 0x20, n + 256 * j + 4096) ∧
    { s.stuckLatch n j with pins := s.pins, mf := s.mf, evq := s.evq } = s := by
  obtain ⟨pin, others, last, rest⟩ := s.stuckNote_spec n j
  obtain ⟨pin', others', -, evq, rest'⟩ := (s.stuckNote n j).condTo_spec n j (!condPol (s.pcond n j))
  rw [State.stuckLatch_eq, if_pos force]
  generalize s.stuckNote n j = u at *
  refine ⟨?_, fun k other => (others' k other).trans (others k other), by rw [evq, last], ?_⟩
  · rw [pin', pin, force]
  · let g : State → State := fun t => { t with pins := s.pins, mf := s.mf, evq := s.evq }
    exact ((congrArg g rest' :) : _ = g u).trans rest

/-- What has been detected is not due again (R279). -/
theorem State.stuckSettle_stuckLatch (s : State) (n j : Nat) : (s.stuckLatch n j).stuckSettle n j = s.stuckLatch n j := by
  obtain ⟨pin, -, -, -⟩ := s.stuckNote_spec n j
  have fired : ((s.stuckLatch n j).pin n j).stuckFired = true := by
    rw [State.stuckLatch_eq]
    split
    · rw [((s.stuckNote n j).condTo_spec n j _).1, pin]
    · rw [pin]
  rw [State.stuckSettle, if_neg (by simp [State.stuckDue, fired])]

theorem State.stuckSettle_of_not_due (idle : s.stuckDue n j = false) : s.stuckSettle n j = s :=
  if_neg (by simp [idle])

/-- Whether a detection is due depends on the pin and its control register alone. -/
theorem State.stuckDue_of_same {t : State} (reg : t.pcond n j = s.pcond n j) (pin : t.pin n j = s.pin n j) :
    t.stuckDue n j = s.stuckDue n j := by
  simp only [State.stuckDue, reg, pin]

end Stuck

/-! ### Register writes -/

section Writes

variable {s : State} {n : Nat}

theorem State.pcond_setReg (s : State) {n o : Nat} (v : Nat) {j : Nat} (other : ∀ i, o ≠ portBase n + 0x720 + 4 * i) :
    (s.setReg o v).pcond n j = s.pcond n j := by
  refine State.reg_setReg_other _ _ _ _ ?_
  have := other j
  omega

/-- The counts of a pin restart (R275). -/
def pinRestart (p : PinSt) : PinSt :=
  { p with fcnt := 0, chatSamples := 0, chatCount := 0, stuckCnt := 0, stuckFired := false }

/-- A write of PIN_SAMPLE while no detection is due (R275). -/
theorem State.pinSampleWrite_spec (idle : ∀ j, j < 8 → s.stuckDue n j = false) (w : Nat) :
    (s.pinSampleWrite n w).preg n 0x704 = w % 256 ∧ (∀ j, j < 8 → (s.pinSampleWrite n w).pin n j = { s.pin n j with
      fcnt := 0, chatSamples := 0, chatCount := 0, stuckCnt := 0, stuckFired := false }) ∧
    { s.pinSampleWrite n w with pins := s.pins, regs := s.regs } = s := by
  have stored : (s.setReg (portBase n + 0x704) (bits w 7 0)).preg n 0x704 = w % 256 := by
    refine (State.reg_setReg_same _ _ _).trans ?_
    simp only [bits]
    omega
  have pcond (j : Nat) : (s.setReg (portBase n + 0x704) (bits w 7 0)).pcond n j = s.pcond n j :=
    s.pcond_setReg _ (fun i => by omega)
  have pin (j : Nat) : (s.setReg (portBase n + 0x704) (bits w 7 0)).pin n j = s.pin n j := rfl
  have base : { s.setReg (portBase n + 0x704) (bits w 7 0) with regs := s.regs } = s := rfl
  have run : s.pinSampleWrite n w = (List.range 8).foldl (fun s j => (s.stuckSettle n j).modPin n j pinRestart)
      (s.setReg (portBase n + 0x704) (bits w 7 0)) := rfl
  rw [run]
  generalize s.setReg (portBase n + 0x704) (bits w 7 0) = u at *
  obtain ⟨rest, pins⟩ := State.foldPins (s := u) (n := n) (fun _ => pinRestart)
    (fun s j => (s.stuckSettle n j).modPin n j pinRestart) (fun t j few rest same => .inr (by
        have reg : t.pcond n j = u.pcond n j := by
          rw [← rest]
          rfl
        have due : t.stuckDue n j = false := by
          rw [State.stuckDue_of_same (reg.trans (pcond j)) (same.trans (pin j)), idle j few]
        simp only [State.stuckSettle_of_not_due due, State.modPin, same]))
  generalize (List.range 8).foldl _ u = t at *
  refine ⟨?_, fun j few => (State.pin_of_pins (F := fun _ => pinRestart) pins few).trans (by rw [pin]; rfl), ?_⟩
  · rw [← stored, ← rest]
    rfl
  · let g : State → State := fun t => { t with pins := s.pins, regs := s.regs }
    exact ((congrArg g rest :) : _ = g u).trans (congrArg (fun t : State => { t with pins := s.pins }) base :)

/-- What a write of PIN_ALARM does to pin `j` (R278, R279). -/
def alarmEffect (now w j : Nat) (p : PinSt) : PinSt :=
  let q := if bit w j && !bit (p.fresh.held now) 0 then { p with chatter := false, rearm := p.rearm || p.frozen } else p
  if bit w (8 + j) && !bit (p.fresh.held now) 1 then { q with stuck := false, stuckClr := true } else q

theorem State.groupLevels_keeps (s t : State) (g : Nat) : (s.groupLevels t g).pins = t.pins ∧
    ∀ m, { s.groupLevels t g with mf := m } = { t with mf := m } := by
  unfold State.groupLevels
  dsimp only
  split <;> split <;> exact ⟨rfl, fun _ => rfl⟩

theorem State.modPin_modPin (s : State) (n j : Nat) (f g : PinSt → PinSt) :
    (s.modPin n j f).modPin n j g = s.modPin n j (fun p => g (f p)) := by
  simp only [State.modPin, State.pin, tget_tput_same, tput_tput]

/-- One pin of a write of PIN_ALARM. -/
def State.alarmStep (s : State) (n w j : Nat) : State :=
  let s := s.stuckSettle n j
  let h := (s.pin n j).fresh.held s.moment
  let s := if bit w j && !bit h 0 then s.modPin n j (fun p => { p with chatter := false, rearm := p.rearm || p.frozen }) else s
  if bit w (8 + j) && !bit h 1 then s.modPin n j (fun p => { p with stuck := false, stuckClr := true }) else s

theorem State.alarmStep_of_idle {t : State} {j : Nat} (w : Nat) (idle : t.stuckDue n j = false) :
    t.alarmStep n w j = t ∧ alarmEffect t.moment w j (t.pin n j) = t.pin n j ∨
      t.alarmStep n w j = t.modPin n j (fun _ => alarmEffect t.moment w j (t.pin n j)) := by
  simp only [State.alarmStep, State.stuckSettle_of_not_due idle, alarmEffect]
  by_cases chat : (bit w j && !bit ((t.pin n j).fresh.held t.moment) 0) = true
  · by_cases stuck : (bit w (8 + j) && !bit ((t.pin n j).fresh.held t.moment) 1) = true
    · simp only [if_pos chat, if_pos stuck, State.modPin_modPin]
      exact .inr rfl
    · simp only [if_pos chat, if_neg stuck]
      exact .inr rfl
  · by_cases stuck : (bit w (8 + j) && !bit ((t.pin n j).fresh.held t.moment) 1) = true
    · simp only [if_neg chat, if_pos stuck]
      exact .inr rfl
    · simp only [if_neg chat, if_neg stuck]
      exact .inl ⟨trivial, trivial⟩

/-- A write of PIN_ALARM while no detection is due (R278, R279). -/
theorem State.pinAlarmWrite_spec (idle : ∀ j, j < 8 → s.stuckDue n j = false) (w : Nat) :
    (∀ j, j < 8 → (s.pinAlarmWrite n w).pin n j = alarmEffect s.moment w j (s.pin n j)) ∧
    { s.pinAlarmWrite n w with pins := s.pins, mf := s.mf } = s := by
  obtain ⟨rest, pins⟩ := State.foldPins (s := s) (n := n) (alarmEffect s.moment w) (fun s j => s.alarmStep n w j)
    (fun t j few rest same => by
      have reg : t.pcond n j = s.pcond n j := by
        rw [← rest]
        rfl
      have moment : t.moment = s.moment := by
        rw [← rest]
        rfl
      have step := State.alarmStep_of_idle (t := t) (n := n) w ((State.stuckDue_of_same reg same).trans (idle j few))
      rw [same, moment] at step
      exact step)
  have run : s.pinAlarmWrite n w = s.groupLevels ((List.range 8).foldl (fun s j => s.alarmStep n w j) s) (n / 4) := rfl
  rw [run]
  generalize (List.range 8).foldl (fun s j => s.alarmStep n w j) s = t at *
  obtain ⟨pins', rest'⟩ := s.groupLevels_keeps t (n / 4)
  constructor
  · intro j few
    rw [State.pin, pins']
    exact State.pin_of_pins pins few
  · let g : State → State := fun t => { t with pins := s.pins }
    exact ((congrArg g (rest' s.mf) :) : _ = g { t with mf := s.mf }).trans
      (congrArg (fun t : State => { t with mf := s.mf }) rest :)

theorem testBit_bits (v hi lo k : Nat) : (bits v hi lo).testBit k = (decide (k < hi + 1 - lo) && v.testBit (k + lo)) := by
  rw [bits, Nat.testBit_mod_two_pow, Nat.testBit_div_two_pow]

theorem bits_putBits_below {w hi lo k i f : Nat} (below : k < lo) : bits (putBits w hi lo f) k i = bits w k i := by
  refine Nat.eq_of_testBit_eq fun b => ?_
  simp only [bits, Nat.testBit_mod_two_pow, Nat.testBit_div_two_pow]
  by_cases inside : b < k + 1 - i
  · rw [← bit_eq_testBit, bit_putBits_below (by omega), bit_eq_testBit]
  · simp [inside]

/-- One pin of a write of PIN_OWN outside frame-lane mode (R253). -/
def State.ownStep (s : State) (n w j : Nat) : State :=
  let o := ownerOf false j (bits w (3 * j + 2) (3 * j))
  let s := s.setReg (portBase n + 0x700) (putBits (s.preg n 0x700) (3 * j + 2) (3 * j) o)
  if o = 4 then s.modPin n j (fun p => { p with oe := false }) else s

theorem ownerOf_free (j v : Nat) : ownerOf false j v = min 4 v := by
  unfold ownerOf
  simp only [Bool.false_and, Bool.false_eq_true, if_false]
  split <;> omega

theorem State.ownStep_spec (s : State) (n w j : Nat) (few : j < 8) :
    (s.ownStep n w j).pinOwner n j = min 4 (bits w (3 * j + 2) (3 * j)) ∧
    (∀ i, i < j → (s.ownStep n w j).pinOwner n i = s.pinOwner n i) ∧
    (s.ownStep n w j).pin n j = (if 4 ≤ bits w (3 * j + 2) (3 * j) then { s.pin n j with oe := false } else s.pin n j) ∧
    (∀ i, i ≠ j → (s.ownStep n w j).pin n i = s.pin n i) ∧
    { s.ownStep n w j with pins := s.pins, regs := s.regs } = s := by
  have field : min 4 (bits w (3 * j + 2) (3 * j)) % 2 ^ (3 * j + 2 + 1 - 3 * j) = min 4 (bits w (3 * j + 2) (3 * j)) := by
    rw [show 3 * j + 2 + 1 - 3 * j = 3 by omega]
    omega
  have stored (i : Nat) (h : 3 * i + 2 < 32) : (s.setReg (portBase n + 0x700) (putBits (s.preg n 0x700) (3 * j + 2) (3 * j)
      (min 4 (bits w (3 * j + 2) (3 * j))))).pinOwner n i =
      bits (putBits (s.preg n 0x700) (3 * j + 2) (3 * j) (min 4 (bits w (3 * j + 2) (3 * j)))) (3 * i + 2) (3 * i) := by
    rw [State.pinOwner, State.preg, State.reg_setReg_same, bits_mod h]
  have own := stored j (by omega)
  rw [bits_putBits_same (by omega), field] at own
  have older (i : Nat) (before : i < j) := (stored i (by omega)).trans (bits_putBits_below (by omega))
  have pin (i : Nat) : (s.setReg (portBase n + 0x700) (putBits (s.preg n 0x700) (3 * j + 2) (3 * j)
    (min 4 (bits w (3 * j + 2) (3 * j))))).pin n i = s.pin n i := rfl
  have rest : { s.setReg (portBase n + 0x700) (putBits (s.preg n 0x700) (3 * j + 2) (3 * j)
    (min 4 (bits w (3 * j + 2) (3 * j)))) with regs := s.regs } = s := rfl
  simp only [State.ownStep, ownerOf_free]
  generalize s.setReg (portBase n + 0x700) (putBits (s.preg n 0x700) (3 * j + 2) (3 * j)
    (min 4 (bits w (3 * j + 2) (3 * j)))) = u at *
  by_cases free : 4 ≤ bits w (3 * j + 2) (3 * j)
  · rw [if_pos (by omega), if_pos free]
    refine ⟨own, older, ?_, fun i other => ?_, (congrArg (fun t : State => { t with pins := s.pins }) rest :)⟩
    · rw [State.pin_modPin_same, pin]
    · rw [State.pin, State.pins_modPin, if_neg (by omega)]
      exact pin i
  · rw [if_neg (by omega), if_neg free]
    exact ⟨own, older, pin j, fun i _ => pin i, congrArg (fun t : State => { t with pins := s.pins }) rest⟩

theorem State.pinOwnWrite_spec (plain : s.laneMode n = false) (w : Nat) :
    (∀ j, j < 8 → (s.pinOwnWrite n w).pinOwner n j = min 4 (bits w (3 * j + 2) (3 * j)) ∧
      (s.pinOwnWrite n w).pin n j =
        if 4 ≤ bits w (3 * j + 2) (3 * j) then { s.pin n j with oe := false } else s.pin n j) ∧
    { s.pinOwnWrite n w with pins := s.pins, regs := s.regs } = s := by
  have partial_ : ∀ m, m ≤ 8 → (∀ j, j < m → ((List.range m).foldl (fun s j => s.ownStep n w j) s).pinOwner n j =
        min 4 (bits w (3 * j + 2) (3 * j)) ∧ ((List.range m).foldl (fun s j => s.ownStep n w j) s).pin n j =
        if 4 ≤ bits w (3 * j + 2) (3 * j) then { s.pin n j with oe := false } else s.pin n j) ∧
      (∀ j, m ≤ j → ((List.range m).foldl (fun s j => s.ownStep n w j) s).pin n j = s.pin n j) ∧
      { (List.range m).foldl (fun s j => s.ownStep n w j) s with pins := s.pins, regs := s.regs } = s := by
    intro m
    induction m with
    | zero => exact fun _ => ⟨fun j h => absurd h (Nat.not_lt_zero j), fun _ _ => rfl, rfl⟩
    | succ m ih =>
      intro few
      obtain ⟨done, left, rest⟩ := ih (by omega)
      rw [List.range_succ, List.foldl_append, List.foldl_cons, List.foldl_nil]
      generalize (List.range m).foldl (fun s j => s.ownStep n w j) s = u at *
      obtain ⟨own, older, pin, others, rest'⟩ := u.ownStep_spec n w m (by omega)
      refine ⟨fun j before => ?_, fun j after => (others j (by omega)).trans (left j (by omega)), ?_⟩
      · by_cases last : j = m
        · subst last
          rw [left j le_rfl] at pin
          exact ⟨own, pin⟩
        · obtain ⟨owner, pin'⟩ := done j (by omega)
          exact ⟨(older j (by omega)).trans owner, (others j last).trans pin'⟩
      · let g : State → State := fun t => { t with pins := s.pins, regs := s.regs }
        exact ((congrArg g rest' :) : _ = g u).trans rest
  have run : s.pinOwnWrite n w = (List.range 8).foldl (fun s j => s.ownStep n w j) s := by
    rw [State.pinOwnWrite, plain]
    rfl
  obtain ⟨done, -, rest⟩ := partial_ 8 le_rfl
  rw [run]
  exact ⟨done, rest⟩

/-- A write of PIN_FLAGS, after what the valves set in its cycle (R267). -/
theorem State.bit_pinFlagsWrite (s : State) (n w k : Nat) (few : k < 8) :
    bit (tget 0 (s.pinFlagsWrite n w).flags n) k = (bit w k || bit (s.flagCyc n 4).set k) := by
  have flags : tget 0 (s.pinFlagsWrite n w).flags n =
      ({ s.flagCyc n 4 with clr := 255, set := (s.flagCyc n 4).set ||| bits w 7 0 } : FlagCyc).flags :=
    (tget_tset _ _ _ _ _).trans (if_pos rfl)
  have all : (255 : Nat).testBit k = true := by
    rw [show 255 = 2 ^ 8 - 1 by rfl, Nat.testBit_two_pow_sub_one, decide_eq_true few]
  rw [flags, FlagCyc.bit_flags]
  simp only [bit_eq_testBit, all, Bool.not_true, Bool.and_false, Bool.or_false, Nat.testBit_or, bits, Nat.testBit_mod_two_pow,
    Nat.pow_zero, Nat.div_one, few, decide_true, Bool.true_and]
  exact Bool.or_comm _ _

end Writes

/-- Settles O28: a sample by filter, limiter and detector, a write of a port's pins pin by pin. -/
theorem pinsConditionedAndDriven : Obligations.PinsConditionedAndDriven := by
  unfold Obligations.PinsConditionedAndDriven
  refine ⟨fun n j l s => ?in_, fun n j c s t hc condWrite rearm stuckClr frozen forced free changed settled long ht => ?passes,
    fun n j c s t hc condWrite rearm stuckClr frozen forced changed settled short ht => ?waits, fun n s clocked => ?sample,
    fun n j s calm due => ?window, fun n j c s hc on due fired force calm clear => ?stuck, fun n w s => ?origin,
    fun n w s idle => ⟨_, rfl, State.pinSampleWrite_spec idle w.toNat⟩, fun n j w s due => ?first, fun n j w s idle => ?cond,
    fun n w s idle => ?rearm, fun n w s idle => ?clear, fun n w s plain => ⟨_, rfl, State.pinOwnWrite_spec plain w.toNat⟩,
    fun n w s new_ => ?flags, fun n w c s hc now last => ?merged⟩
  case in_ =>
    refine ⟨_, rfl, State.pin_modPin_same s n j (fun p => { p with raw := l }), fun k other => ?_, rfl⟩
    exact (State.pins_modPin s n j k (fun p => { p with raw := l })).trans (if_neg (Ne.symm other))
  case passes =>
    subst ht hc
    obtain ⟨u, act, mf, strokes, raw, filt, cond, run⟩ :=
      State.samplePin_of_calm ⟨condWrite, rearm, stuckClr, frozen, forced⟩ changed (fun _ => free)
    obtain ⟨filt', cond', fcnt', entryQ⟩ := u.sampleCalm_spec n j true act ((s.pin n j).fcnt + 1) (s.pin n j).raw
    have long' : condFilt (s.pcond n j) ≤ (s.pin n j).fcnt + 1 := long
    rw [if_pos long', decide_eq_true long'] at run
    rw [if_neg (by rw [cond, ← settled]; exact Ne.symm changed)] at entryQ
    rw [run]
    refine ⟨by rw [filt', if_pos rfl, raw], cond', fcnt', by rw [entryQ, mf, strokes]⟩
  case waits =>
    subst ht hc
    have short' : ¬condFilt (s.pcond n j) ≤ (s.pin n j).fcnt + 1 := short.not_ge
    obtain ⟨u, act, mf, strokes, raw, filt, cond, run⟩ :=
      State.samplePin_of_calm ⟨condWrite, rearm, stuckClr, frozen, forced⟩ changed (fun long => absurd long short')
    obtain ⟨filt', cond', fcnt', entryQ⟩ := u.sampleCalm_spec n j false act ((s.pin n j).fcnt + 1) (s.pin n j).filt
    rw [if_neg short', decide_eq_false short'] at run
    have level : (u.pin n j).cond = (s.pin n j).filt := cond.trans settled.symm
    have still : (u.sampleCalm n j false act ((s.pin n j).fcnt + 1) (s.pin n j).filt).mf = u.mf := by
      rw [State.sampleCalm, State.condTo, if_pos (by rw [State.pin_modPin_same, State.pin_modPin_same]; exact level)]
      rfl
    rw [run]
    exact ⟨by rw [filt', if_neg (by decide), filt], cond'.trans settled, fcnt', still.trans mf⟩
  case sample =>
    show s.act _ _ = _
    rw [State.act_of clocked]
    refine congrArg (fun f => Host.Outcome.next ((List.range 8).foldl f s)) (funext fun t => funext fun j => ?_)
    rw [State.stuckSettle]
    split <;> rfl
  case window =>
    have full : s.chatterDue n j = true := by
      rw [State.chatterDue, calm]
      exact decide_eq_true due
    exact State.act_of full
  case stuck =>
    subst hc
    have found : s.stuckDue n j = true := by
      simp [State.stuckDue, condStuck, on, due, fired, calm, clear]
    obtain ⟨pin, others, last, rest⟩ := State.stuckLatch_forced (n := n) (j := j) force
    refine ⟨_, State.act_of found, ?_⟩
    generalize s.stuckLatch n j = u at *
    have self := u.pin_modPin_same n j (fun p => { p with fresh := p.fresh.set s.moment 2 })
    rw [pin] at self
    refine ⟨by rw [self], by rw [self], by rw [self]; rfl, last, fun k other => ?_, rest⟩
    exact ((u.pins_modPin n j k _).trans (if_neg (Ne.symm other))).trans (others k other)
  case origin =>
    have low : bits w.toNat 7 0 = w.toNat % 256 := by
      simp only [bits]
      omega
    have at_ : portBase n + 0x704 = 0x20000 + 0x800 * n.val + 0x704 := rfl
    show Host.Outcome.next (s.pinSampleWrite n w.toNat) = _
    rw [State.pinSampleWrite, low, at_]
    rfl
  case first =>
    show Host.Outcome.next (s.pinCondWrite n j w.toNat) = Host.Outcome.next ((s.stuckLatch n j).pinCondWrite n j w.toNat)
    rw [State.pinCondWrite, State.pinCondWrite, State.stuckSettle_stuckLatch, State.stuckSettle, if_pos due]
  case cond =>
    have run : s.pinCondWrite n j w.toNat = (s.setReg (portBase n + 0x720 + 4 * j) (mix 0 0xFF3FFFFF w.toNat)).modPin n j
        (fun p => { p with condWrite := true }) := by rw [State.pinCondWrite, State.stuckSettle_of_not_due idle]
    refine ⟨_, congrArg Host.Outcome.next run, ?_, State.pin_modPin_same _ _ _ _, rfl⟩
    have masked : mix 0 0xFF3FFFFF w.toNat = (w &&& 0xFF3FFFFF#32).toNat := by simp [mix]
    have at_ : portBase n + (0x720 + 4 * j.val) = portBase n + 0x720 + 4 * j.val := by omega
    rw [← masked]
    refine (congrArg _ at_).trans ((State.reg_setReg_same _ _ _).trans (Nat.mod_eq_of_lt (mix_lt _ _ _)))
  case rearm =>
    obtain ⟨pins, rest⟩ := State.pinAlarmWrite_spec idle (bits w.toNat 7 0)
    refine ⟨_, rfl, fun j few => (pins j few).trans ?_, rest⟩
    have low : bit (bits w.toNat 7 0) j = bit w.toNat j := by
      simp [bit_eq_testBit, testBit_bits, few]
    have high : bit (bits w.toNat 7 0) (8 + j) = false := by
      simp [bit_eq_testBit, testBit_bits]
    simp only [alarmEffect, low, high, Bool.false_and, Bool.false_eq_true, if_false]
    rfl
  case clear =>
    obtain ⟨pins, rest⟩ := State.pinAlarmWrite_spec idle (bits w.toNat 15 8 * 256)
    refine ⟨_, rfl, fun j few => (pins j few).trans ?_, rest⟩
    have low : bit (bits w.toNat 15 8 * 256) j = false := by
      rw [bit_eq_testBit, show 256 = 2 ^ 8 by rfl, Nat.testBit_mul_two_pow, decide_eq_false (by omega), Bool.false_and]
    have high : bit (bits w.toNat 15 8 * 256) (8 + j) = bit w.toNat (8 + j) := by
      rw [bit_eq_testBit, show 256 = 2 ^ 8 by rfl, Nat.testBit_mul_two_pow]
      simp [bit_eq_testBit, testBit_bits, few, Nat.add_comm]
    simp only [alarmEffect, low, high, Bool.false_and, Bool.false_eq_true, if_false]
    rfl
  case flags =>
    refine ⟨_, rfl, fun k few => (s.bit_pinFlagsWrite n w.toNat k few).trans ?_, rfl⟩
    have none_ : s.flagCyc n 4 = { at_ := s.moment, last := 4, start := tget 0 s.flags n } := if_neg (fun h => new_ h.1)
    rw [none_]
    simp [bit_eq_testBit]
  case merged =>
    subst hc
    refine ⟨_, rfl, fun k few => (s.bit_pinFlagsWrite n w.toNat k few).trans ?_, rfl⟩
    have joined : s.flagCyc n 4 = { (tget {} s.flagCycs n : FlagCyc) with last := 4 } := if_pos ⟨now, last⟩
    rw [joined]

end Sys2Proof.Machine

/-!
SUPPORT. Cells of the cistern as the ports and the pump use them (R410-R413): what the work on them leaves unchanged.
-/

namespace Sys2Proof.Machine

/-! ### Work on the pump's memories -/

/-- `t` differs from `s` in the pump, its draws, its check bits and the events alone. -/
def PumpWork (s t : State) : Prop := { t with pump := s.pump, draws := s.draws, ecc := s.ecc, evq := s.evq } = s

section Work

variable {s t u : State}

theorem PumpWork.refl (s : State) : PumpWork s s := rfl

theorem PumpWork.eq (h : PumpWork s t) : { t with pump := s.pump, draws := s.draws, ecc := s.ecc, evq := s.evq } = s := h

theorem PumpWork.trans (h : PumpWork s t) (k : PumpWork t u) : PumpWork s u := by
  let g : State → State := fun v => { v with pump := s.pump, draws := s.draws, ecc := s.ecc, evq := s.evq }
  exact ((congrArg g k :) : _ = g t).trans h

theorem PumpWork.ports (h : PumpWork s t) : t.ports = s.ports :=
  (congrArg State.ports h.eq :)
theorem PumpWork.mf (h : PumpWork s t) : t.mf = s.mf :=
  (congrArg State.mf h.eq :)
theorem PumpWork.regs (h : PumpWork s t) : t.regs = s.regs :=
  (congrArg State.regs h.eq :)
theorem PumpWork.tb (h : PumpWork s t) : t.tb = s.tb :=
  (congrArg State.tb h.eq :)
theorem PumpWork.host (h : PumpWork s t) : t.host = s.host :=
  (congrArg State.host h.eq :)

theorem PumpWork.port (h : PumpWork s t) (n : Nat) : t.port n = s.port n := by rw [State.port, h.ports, State.port]

theorem PumpWork.modPump (s : State) (f : PumpSt → PumpSt) : PumpWork s (s.modPump f) := rfl
theorem PumpWork.modCell (s : State) (c : Nat) (f : Cell → Cell) : PumpWork s (s.modCell c f) := rfl
theorem PumpWork.pumpAlarm (s : State) (b : Nat) : PumpWork s (s.pumpAlarm b) := by
  cases s
  rfl

theorem PumpWork.foldl {α : Type} (f : State → α → State) (each : ∀ s a, PumpWork s (f s a)) (l : List α) (s : State) :
    PumpWork s (l.foldl f s) := by
  induction l generalizing s with
  | nil => exact PumpWork.refl s
  | cons a l ih => exact (each s a).trans (ih (f s a))

theorem PumpWork.returnCells (s : State) (cs : List Nat) : PumpWork s (s.returnCells cs) :=
  PumpWork.foldl (fun s c => (s.modCell c (fun _ => {})).modPump (fun p => { p with returned := p.returned ++ [c] }))
    (fun _ _ => rfl) cs s

theorem PumpWork.takeCell {c : Nat} (h : s.takeCell = some (c, t)) : PumpWork s t := by
  unfold State.takeCell at h
  split at h
  · cases h
  · cases h
    rfl

theorem PumpWork.takeCells {n : Nat} {cs : List Nat} (h : s.takeCells n = some (cs, t)) : PumpWork s t := by
  induction n generalizing s cs with
  | zero =>
    cases h
    exact PumpWork.refl _
  | succ n ih =>
    simp only [State.takeCells, Option.bind_eq_some_iff, Option.map_eq_some_iff, Prod.mk.injEq] at h
    obtain ⟨⟨c, u⟩, first, ⟨ds, v⟩, more, -, rfl⟩ := h
    exact (PumpWork.takeCell first).trans (ih more)

theorem PumpWork.linkGo (hdr : Cell) (cs : List Nat) : ∀ (first : Bool) (s : State), PumpWork s (State.linkCells.go hdr s first cs) := by
  induction cs with
  | nil => exact fun _ s => PumpWork.refl s
  | cons c cs ih =>
    intro first s
    cases cs with
    | nil => exact PumpWork.modCell _ _ _
    | cons d cs => exact (PumpWork.modCell _ _ _).trans (ih false _)

theorem PumpWork.linkCells (s : State) (hdr : Cell) (cs : List Nat) : PumpWork s (s.linkCells hdr cs) := by
  cases cs with
  | nil => exact PumpWork.refl s
  | cons c cs => exact PumpWork.linkGo hdr (c :: cs) true s

theorem PumpWork.bufWrite (s : State) (h off : Nat) (bs : List Nat) : PumpWork s (s.bufWrite h off bs) := by
  unfold State.bufWrite
  dsimp only
  split
  · rfl
  · refine PumpWork.trans (PumpWork.modPump s _) (PumpWork.foldl _ (fun u i => ?_) _ _)
    split
    · rfl
    · exact PumpWork.refl u

end Work

/-! ### Taking cells -/

/-- Two states whose free cells are the same. -/
structure SameCells (s t : State) : Prop where
  draws : t.draws = s.draws
  cells : t.pump.cells = s.pump.cells
  returned : t.pump.returned = s.pump.returned
  poisoned : t.pump.poisoned = s.pump.poisoned
  low : t.pump.low = s.pump.low
  ecc : t.ecc = s.ecc

section Take

variable {s t u : State}

theorem SameCells.cellFree (h : SameCells s t) (c : Nat) : t.cellFree c = s.cellFree c := by
  simp only [State.cellFree, State.cell, State.isUe, State.eccOf, h.cells, h.returned, h.poisoned, h.ecc]

theorem SameCells.freeCells (h : SameCells s t) : t.freeCells = s.freeCells := by
  simp only [State.freeCells, h.cells, h.returned, h.poisoned]

theorem SameCells.takeCell_none (h : SameCells s t) (none_ : s.takeCell = none) : t.takeCell = none := by
  unfold State.takeCell at *
  rw [h.draws, show t.cellFree = s.cellFree from funext h.cellFree]
  split at none_
  · rfl
  · cases none_

theorem SameCells.takeCell {c : Nat} (h : SameCells s t) (some_ : s.takeCell = some (c, u)) :
    ∃ v, t.takeCell = some (c, v) ∧ SameCells u v := by
  unfold State.takeCell at *
  rw [h.draws, show t.cellFree = s.cellFree from funext h.cellFree]
  split at some_
  · cases some_
  · next found =>
    cases some_
    simp only
    have noted : SameCells ({ s with draws := s.draws + 1 }.modCell c (fun _ => { used := true }))
        ({ t with draws := s.draws + 1 }.modCell c (fun _ => { used := true })) :=
      ⟨rfl, congrArg (fun cells => tput cells c ({ used := true } : Cell)) h.cells, h.returned, h.poisoned, h.low, h.ecc⟩
    have free := noted.freeCells
    refine ⟨_, rfl, noted.draws, noted.cells, noted.returned, noted.poisoned, ?_, noted.ecc⟩
    exact congrArg₂ min noted.low free

theorem SameCells.takeCells {n : Nat} {cs : List Nat} (h : SameCells s t) (some_ : s.takeCells n = some (cs, u)) :
    ∃ v, t.takeCells n = some (cs, v) ∧ SameCells u v := by
  induction n generalizing s t cs with
  | zero =>
    cases some_
    exact ⟨t, rfl, h⟩
  | succ n ih =>
    simp only [State.takeCells, Option.bind_eq_some_iff, Option.map_eq_some_iff, Prod.mk.injEq] at some_
    obtain ⟨⟨c, u₁⟩, first, ⟨ds, u₂⟩, more, rfl, rfl⟩ := some_
    obtain ⟨v₁, first', same⟩ := h.takeCell first
    obtain ⟨v₂, more', same'⟩ := ih same more
    exact ⟨v₂, by simp [State.takeCells, first', more'], same'⟩

end Take

end Sys2Proof.Machine

/-!
SUPPORT. Received frames (R300-R306, R316-R323, R338, R413): what a frame does outside HSR and PRP, and the proof of O29.
-/

namespace Sys2Proof.Machine

/-! ### Counters of a port (R338) -/

section Counters

variable {s : State} {n : Nat}

theorem State.port_portCount (s : State) (n k d m : Nat) : (s.portCount n k d).port m = if n = m then
    { s.port n with cnt := tset 0 (s.port n).cnt k ((tget 0 (s.port n).cnt k + d) % 2 ^ 32) } else s.port m :=
  State.port_modPort _ _ _ _

theorem tget_count (c : Tbl Nat) (k d j : Nat) : tget 0 (tset 0 c k ((tget 0 c k + d) % 2 ^ 32)) j =
    if k = j then (tget 0 c j + d) % 2 ^ 32 else tget 0 c j := by
  rw [tget_tset]
  split
  · next same => rw [same]
  · rfl

end Counters

/-! ### A frame outside the duplicate tables -/

section Frame

variable (s : State) (n : Nat) (f : RxFrame)

/-- The SFD of a frame: its tap, its source and the lane (R298, R355). -/
def State.rxSfd : State :=
  let i := s.rxInfo n f
  let s := s.countTap (groupOf n) f.tap
  (s.raiseLevel (srcFs n) true true).modPort n (fun p => { p with
    rxOn := true, rxTill := s.tb.elapsed + i.len * s.byteUnits n })

/-- The frame end of a frame that no duplicate table meets (R303-R306, R413). -/
def State.rxClose (a : State) (n m : Nat) (f : RxFrame) (i : RxInfo) (fw : Fwd) (ti ei : Nat) (guarded paused : Bool) : State :=
  let bs := f.bytes.map (·.toNat)
  let fate := a.rxFate n bs i false (min n m)
  let b := if i.pause && bit (a.preg n 0x00C) 0 then a.modPort n (fun p => { p with pauseX := some (netAt bs 16 2) }) else a
  let b := if i.ovr then b.modPort n (fun p => { p with rxOverrun := true, fresh := p.fresh.set b.moment 2 }) else b
  let defer := (match fw with | .deferred _ => true | _ => false) && i.flagCounter.isNone
  let status := rxStatus i bs fate false (if defer then fw else match fw with | .deferred _ => .none | _ => fw) f.early.isSome
    (entryBad f i)
  if fate.filtered && !defer then
    (b.portCount n 9 1).unreserve n
  else
    let (cells, b) := b.rxCells n (min i.len 16000)
    match cells with
    | none =>
      let own := fate.counts.filter (fun k => k == 4 || k == 9 || k == 10 || k == 11 || k == 12)
      let b := own.foldl (fun s k => s.portCount n k 1) b
      if fate.filtered then b else (b.portCount n 14 1).portCount n 13 1
    | some cs =>
      let b := fate.counts.foldl (fun s k => s.portCount n k 1) b
      let b := if fate.counts.contains 0 then b.portCount n 1 i.len else b
      let b := if fate.deliver || fate.filtered then b else b.portCount n 13 1
      let b := if defer then b.portCount m 24 1 else b
      b.rxStore n f i cs status ti ei fate.deliver defer guarded paused

/-- A frame meets its egress (R307, R312, R324). -/
def State.rxMeet (a : State) (n m : Nat) (pair : Bool) (fw : Fwd) : State :=
  let b := if (a.deferWhy n m fw).1 then a.portCount m 21 1 else a
  let b := if (a.deferWhy n m fw).2 then b.portCount m 31 1 else b
  if pair then b.holdLocal n m else b

/-- The state in which a frame's forwarding is decided. -/
def State.rxDecide : State := (s.rxSfd n f).modPort n (fun p => { p with lastKey := none })

/-- What the bypass does with a frame outside the duplicate tables (R317). -/
def State.rxFwd (m : Nat) : Fwd :=
  if (s.ringPair n).isSome then (s.rxSfd n f).decideFwd n m (f.bytes.map (·.toNat)) false else .none

/-- A frame of a port that is in no HSR or PRP pair: the SFD, the egress, the frame end. -/
theorem State.rxFrame_plain (plain : (s.ringPair n).isSome → s.ptKind n ≠ 2 ∧ s.ptKind n ≠ 3) {m : Nat}
    (partner : m = (s.ringPair n).getD n) :
    s.rxFrame n f =
      (((s.rxDecide n f).rxMeet n m (s.ringPair n).isSome (s.rxFwd n f m)).fwdSend n m f (s.rxInfo n f) (s.stamp n f.tap false)
        s.tb.epoch (s.rxFwd n f m)).rxClose n m f (s.rxInfo n f) (s.rxFwd n f m) (s.stamp n f.tap false) s.tb.epoch
        ((s.rxDecide n f).deferWhy n m (s.rxFwd n f m)).1 ((s.rxDecide n f).deferWhy n m (s.rxFwd n f m)).2 := by
  have same : (s.rxSfd n f).ringPair n = s.ringPair n := rfl
  have kind' : (s.rxSfd n f).ptKind n = s.ptKind n := rfl
  unfold State.rxFrame
  extract_lets bs i ti ei s1 s2 pair m' low kind hsr co hit fw s3 made key0 key defer
  have hpair : pair = s.ringPair n := same
  have hm : m' = m := by rw [partner, ← hpair]
  have hkind : kind ≠ 2 ∧ kind ≠ 3 := by
    cases found : s.ringPair n with
    | none => simp [kind, hpair, found]
    | some k =>
      have := plain (by rw [found]; rfl)
      have here : kind = s.ptKind n := by
        simp only [kind, hpair, found, Option.isSome_some, if_true]
        exact kind'
      rw [here]
      exact this
  obtain ⟨notHsr, notPrp⟩ := hkind
  have hhsr : hsr = none := by simp [hsr, notHsr]
  have hhit : hit = false := by simp [hit, co, hhsr, State.coincident]
  have hkey : key = none := by simp [key, key0, notHsr, notPrp]
  have hfw : fw = s.rxFwd n f m := by
    simp only [fw, hpair, hhit, hm]
    rfl
  have hs3 : s3 = s.rxDecide n f := by
    simp only [s3, hhsr, State.hsrNote]
    rfl
  have hmade : made = false := by simp [made, hhsr]
  have hrule : (hit && kind == 2) = false := by rw [hhit, Bool.false_and]
  clear_value s3 made key fw hsr hit kind m' pair
  subst hm hfw hs3 hmade hkey hpair
  rw [State.rxMeet]
  generalize s.rxDecide n f = a
  rcases a.deferWhy n m' (s.rxFwd n f m') with ⟨guarded, paused⟩
  dsimp -zeta only
  extract_lets s4 s5 s6 s7 dup fate s8 s9 s10 s11 status
  have hstatus : status = rxStatus i bs fate false _ f.early.isSome (entryBad f i) :=
    congrArg (fun r => rxStatus i bs fate r _ f.early.isSome (entryBad f i)) hrule
  rw [hstatus]
  rfl

theorem exec_rxFrame {s : State} {n : Fin 32} {f : RxFrame} (h : Receives s n f) :
    exec (.rxFrame n f) s = .next (s.rxFrame n f) := by
  obtain ⟨lane, on, clocked, idle, egress, step⟩ := h
  have fits : ((s.ringPair n).map (fun m => s.egressFits n m f)).getD true = true := by
    cases found : s.ringPair n with
    | none => rfl
    | some m => exact egress m found
  have held : (!f.stepped || s.stepHeld) = true := by
    cases stepped : f.stepped with
    | false => rfl
    | true => exact step stepped
  refine State.act_of ?_
  rw [lane, on, clocked, idle, fits, held]
  rfl

end Frame

/-! ### What a frame leaves at its port -/

/-- `t` has the port `n` as `p` and every other port as in `s`. -/
structure PortIs (s : State) (n : Nat) (t : State) (p : PortSt) : Prop where
  self : t.port n = p
  others : ∀ m, m ≠ n → t.port m = s.port m

/-- A counter of a port goes up (R338). -/
def PortSt.count (p : PortSt) (k d : Nat) : PortSt := { p with cnt := tset 0 p.cnt k ((tget 0 p.cnt k + d) % 2 ^ 32) }

theorem PortSt.cnt_count (p : PortSt) (k d j : Nat) : tget 0 (p.count k d).cnt j =
    if k = j then (tget 0 p.cnt j + d) % 2 ^ 32 else tget 0 p.cnt j := tget_count _ _ _ _

@[simp] theorem PortSt.pause_count (p : PortSt) (k d : Nat) : (p.count k d).pause = p.pause := rfl
@[simp] theorem PortSt.pauseX_count (p : PortSt) (k d : Nat) : (p.count k d).pauseX = p.pauseX := rfl

section PortIs

variable {s t u : State} {n : Nat} {p : PortSt}

theorem PortIs.refl (s : State) (n : Nat) : PortIs s n s (s.port n) := ⟨rfl, fun _ _ => rfl⟩

theorem PortIs.modPort (h : PortIs s n t p) (f : PortSt → PortSt) : PortIs s n (t.modPort n f) (f p) where
  self := by rw [State.port_modPort_same, h.self]
  others m other := by rw [State.port_modPort, if_neg (Ne.symm other), h.others m other]

theorem PortIs.count (h : PortIs s n t p) (k d : Nat) : PortIs s n (t.portCount n k d) (p.count k d) :=
  h.modPort (fun p => p.count k d)

theorem PortIs.counts (h : PortIs s n t p) (ks : List Nat) :
    PortIs s n (ks.foldl (fun s k => s.portCount n k 1) t) (ks.foldl (fun p k => p.count k 1) p) := by
  induction ks generalizing t p with
  | nil => exact h
  | cons k ks ih => exact ih (h.count k 1)

theorem PortIs.work (h : PortIs s n t p) (k : PumpWork t u) : PortIs s n u p where
  self := by rw [k.port, h.self]
  others m other := by rw [k.port, h.others m other]

end PortIs

/-! ### The frame end -/

section Close

variable {s : State} {n : Nat} {f : RxFrame}

theorem PumpWork.unreserve (s : State) (n : Nat) : PumpWork s (s.unreserve n) := by
  unfold State.unreserve
  split
  · exact (PumpWork.modPump s _).trans (PumpWork.returnCells _ _)
  · exact PumpWork.refl s

theorem PumpWork.rxCells (s : State) (n l : Nat) : PumpWork s (s.rxCells n l).2 := by
  unfold State.rxCells
  split
  · dsimp only
    split
    · exact PumpWork.pumpAlarm s 0
    · exact PumpWork.refl s
  · dsimp only
    split
    · next found => exact (PumpWork.modPump s _).trans (PumpWork.takeCells found)
    · exact ((PumpWork.modPump s _).trans (PumpWork.returnCells _ _)).trans (PumpWork.pumpAlarm _ 0)

theorem State.returnCells_rest (s : State) (cs : List Nat) : { s.returnCells cs with pump := s.pump } = s := by
  unfold State.returnCells
  induction cs generalizing s with
  | nil => rfl
  | cons c cs ih => exact (congrArg (fun t : State => { t with pump := s.pump }) (ih _) :)

/-- A port without a reserved cell holds none after it gives it up. -/
theorem State.unreserve_spec (s : State) (n : Nat) : tfind (s.unreserve n).pump.rxResv n = none ∧
    { s.unreserve n with pump := s.pump } = s := by
  unfold State.unreserve
  split
  · next h found =>
    constructor
    · exact (tfind_tdel _ _ _).trans (if_pos rfl)
    · exact (congrArg (fun t : State => { t with pump := s.pump }) (State.returnCells_rest _ [h]) :)
  · next none_ => exact ⟨none_, rfl⟩

theorem State.rxCells_of_none (none_ : tfind s.pump.rxResv n = none) (l : Nat) :
    s.rxCells n l = (none, if bit (s.rxBind n) 7 && s.takeCell.isNone then s.pumpAlarm 0 else s) := by
  have found : (if bit (s.rxBind n) 7 = true then tfind s.pump.rxResv n else none) = none := by
    rw [none_, ite_self]
  rw [State.rxCells, found]

/-- The cells of a frame, where the pool holds enough of them (R413). -/
theorem State.rxCells_of_some {b u : State} {h l : Nat} {cs : List Nat} (bound : bit (s.rxBind n) 7 = true)
    (resv : tfind s.pump.rxResv n = some h) (cells : s.takeCells (max 1 (ceilDiv l 256) - 1) = some (cs, u))
    (same : SameCells s b) (regs : b.regs = s.regs) (resv' : b.pump.rxResv = s.pump.rxResv) :
    (b.rxCells n l).1 = some (h :: cs) := by
  have bind : b.rxBind n = s.rxBind n := by rw [State.rxBind, State.reg, regs, State.rxBind, State.reg]
  have same' : SameCells s (b.modPump (fun p => { p with rxResv := tdel p.rxResv n })) :=
    ⟨same.draws, same.cells, same.returned, same.poisoned, same.low, same.ecc⟩
  obtain ⟨v, taken, -⟩ := same'.takeCells cells
  rw [State.rxCells, bind, if_pos bound, resv', resv]
  simp only [taken]

/-- A PAUSE frame's time waits for the frame end, and a loss at the receive crossing is noted (R306, R26). -/
def State.rxMark (a : State) (n : Nat) (i : RxInfo) (bs : List Nat) : State :=
  let b := if i.pause && bit (a.preg n 0x00C) 0 then a.modPort n (fun p => { p with pauseX := some (netAt bs 16 2) }) else a
  if i.ovr then b.modPort n (fun p => { p with rxOverrun := true, fresh := p.fresh.set b.moment 2 }) else b

/-- `t` differs from `s` in the ports, the manifold and the time alone. -/
def PortWork (s t : State) : Prop := { t with ports := s.ports, mf := s.mf, tb := s.tb } = s

theorem PortWork.eq {s t : State} (h : PortWork s t) : { t with ports := s.ports, mf := s.mf, tb := s.tb } = s := h

theorem PortWork.trans {s t u : State} (h : PortWork s t) (k : PortWork t u) : PortWork s u := by
  let g : State → State := fun v => { v with ports := s.ports, mf := s.mf, tb := s.tb }
  exact ((congrArg g k.eq :) : _ = g t).trans h

theorem PortWork.modPort (s : State) (n : Nat) (f : PortSt → PortSt) : PortWork s (s.modPort n f) := rfl
theorem PortWork.countTap (s : State) (g tap : Nat) : PortWork s (s.countTap g tap) := rfl
theorem PortWork.raiseLevel (s : State) (src : Nat) (ev level : Bool) : PortWork s (s.raiseLevel src ev level) := rfl

theorem PortWork.sameCells {s t : State} (h : PortWork s t) : SameCells s t :=
  ⟨(congrArg State.draws h.eq :), (congrArg (fun v : State => v.pump.cells) h.eq :),
    (congrArg (fun v : State => v.pump.returned) h.eq :), (congrArg (fun v : State => v.pump.poisoned) h.eq :),
    (congrArg (fun v : State => v.pump.low) h.eq :), (congrArg State.ecc h.eq :)⟩

theorem PortWork.regs {s t : State} (h : PortWork s t) : t.regs = s.regs := (congrArg State.regs h.eq :)
theorem PortWork.pump {s t : State} (h : PortWork s t) : t.pump = s.pump := (congrArg State.pump h.eq :)

theorem PortWork.preg {s t : State} (h : PortWork s t) (n o : Nat) : t.preg n o = s.preg n o := by
  rw [State.preg, State.reg, h.regs, State.preg, State.reg]

theorem PortWork.rxSfd (s : State) (n : Nat) (f : RxFrame) : PortWork s (s.rxSfd n f) :=
  ((PortWork.countTap s _ _).trans (PortWork.raiseLevel _ _ _ _)).trans (PortWork.modPort _ _ _)

theorem PortWork.rxDecide (s : State) (n : Nat) (f : RxFrame) : PortWork s (s.rxDecide n f) :=
  (PortWork.rxSfd s n f).trans (PortWork.modPort _ _ _)

/-- What a frame has changed at its port before its fate is known. -/
structure RxReady (s : State) (n : Nat) (i : RxInfo) (bs : List Nat) (b : State) (p : PortSt) : Prop where
  port : PortIs s n b p
  cnt : p.cnt = (s.port n).cnt
  ends : p.ends = (s.port n).ends
  exact_ : p.exact = (s.port n).exact
  pause : p.pause = (s.port n).pause
  pauseX : p.pauseX = if i.pause && bit (s.preg n 0x00C) 0 then some (netAt bs 16 2) else (s.port n).pauseX
  rest : PortWork s b

theorem State.rxDecide_port (s : State) (n : Nat) (f : RxFrame) : ∃ p, PortIs s n (s.rxDecide n f) p ∧
    p.cnt = (s.port n).cnt ∧ p.ends = (s.port n).ends ∧ p.exact = (s.port n).exact ∧ p.pause = (s.port n).pause ∧
    p.pauseX = (s.port n).pauseX := by
  have base : PortIs s n ((s.countTap (groupOf n) f.tap).raiseLevel (srcFs n) true true) (s.port n) := ⟨rfl, fun _ _ => rfl⟩
  unfold State.rxDecide State.rxSfd
  exact ⟨_, (base.modPort _).modPort _, rfl, rfl, rfl, rfl, rfl⟩

theorem State.rxMark_ready (s : State) (n : Nat) (f : RxFrame) (i : RxInfo) (bs : List Nat) :
    ∃ p, RxReady s n i bs ((s.rxDecide n f).rxMark n i bs) p := by
  obtain ⟨p, port, cnt, ends, exact_, pause, pauseX⟩ := s.rxDecide_port n f
  have rest := PortWork.rxDecide s n f
  rw [State.rxMark, rest.preg]
  generalize s.rxDecide n f = a at *
  have paused : ∃ q, RxReady s n i bs (if i.pause && bit (s.preg n 0x00C) 0 then
        a.modPort n (fun p => { p with pauseX := some (netAt bs 16 2) }) else a) q := by
    by_cases timed : (i.pause && bit (s.preg n 0x00C) 0) = true
    · rw [if_pos timed]
      exact ⟨_, port.modPort _, cnt, ends, exact_, pause, (if_pos timed).symm, rest.trans (PortWork.modPort _ _ _)⟩
    · rw [if_neg timed]
      exact ⟨p, port, cnt, ends, exact_, pause, pauseX.trans (if_neg timed).symm, rest⟩
  obtain ⟨q, port', cnt', ends', exact', pause', pauseX', rest'⟩ := paused
  generalize (if (i.pause && bit (s.preg n 0x00C) 0) = true then _ else a) = b at *
  split
  · exact ⟨_, port'.modPort _, cnt', ends', exact', pause', pauseX', rest'.trans (PortWork.modPort _ _ _)⟩
  · exact ⟨q, port', cnt', ends', exact', pause', pauseX', rest'⟩

/-- The fate of a frame depends on its registers and on its address entries. -/
theorem State.rxFate_of_same {a : State} (rest : PortWork s a) (entries : (a.port n).exact = (s.port n).exact) (bs : List Nat) (i : RxInfo) (dup : Bool) (low : Nat) :
    a.rxFate n bs i dup low = s.rxFate n bs i dup low := by
  have accepts : a.accepts n bs = s.accepts n bs := by
    simp only [State.accepts, State.exactHits, State.hashHit, entries, rest.preg]
    rfl
  simp only [State.rxFate, rest.preg, accepts, State.deliverBad]

/-- A frame of a port outside the ring (R300-R306). -/
theorem State.rxFrame_alone (alone : s.ringPair n = none) : s.rxFrame n f =
    (s.rxDecide n f).rxClose n n f (s.rxInfo n f) .none (s.stamp n f.tap false) s.tb.epoch false false := by
  have fwd : s.rxFwd n f n = .none := by rw [State.rxFwd, alone]; rfl
  rw [State.rxFrame_plain s n f (m := n) (by simp [alone]) (by rw [alone]; rfl), fwd, alone]
  rfl

/-- A rejected frame is counted, and its reserved cell goes back (R302, R413). -/
theorem State.rxClose_filtered {a : State} {i : RxInfo} {ti ei : Nat}
    (filtered : (a.rxFate n (f.bytes.map (·.toNat)) i false n).filtered = true) :
    a.rxClose n n f i .none ti ei false false =
      ((a.rxMark n i (f.bytes.map (·.toNat))).portCount n 9 1).unreserve n := by
  unfold State.rxClose
  rw [Nat.min_self]
  simp only [filtered, Bool.false_and, Bool.not_false, Bool.and_self, if_true]
  rfl

/-- A frame without cells is counted as lost (R413). -/
theorem State.rxClose_lost {a : State} {i : RxInfo} {ti ei : Nat}
    (kept : (a.rxFate n (f.bytes.map (·.toNat)) i false n).filtered = false)
    (none_ : ((a.rxMark n i (f.bytes.map (·.toNat))).rxCells n (min i.len 16000)).1 = none) :
    a.rxClose n n f i .none ti ei false false =
      (((((a.rxFate n (f.bytes.map (·.toNat)) i false n).counts.filter
        (fun k => k == 4 || k == 9 || k == 10 || k == 11 || k == 12)).foldl (fun s k => s.portCount n k 1)
        ((a.rxMark n i (f.bytes.map (·.toNat))).rxCells n (min i.len 16000)).2).portCount n 14 1).portCount n 13 1) := by
  unfold State.rxClose
  rw [Nat.min_self]
  extract_lets bs fate b1 b defer status
  have open_ : ¬(fate.filtered && !defer) = true := by rw [show fate.filtered = false from kept]; simp
  have cells : (b.rxCells n (min i.len 16000)).1 = none := none_
  have kept' : fate.filtered = false := kept
  rw [if_neg open_]
  change _ = (((fate.counts.filter _).foldl _ (b.rxCells n (min i.len 16000)).2).portCount n 14 1).portCount n 13 1
  generalize b.rxCells n (min i.len 16000) = r at *
  obtain ⟨cs, u⟩ := r
  subst cells
  dsimp only
  rw [kept']
  rfl

/-- The counters of a frame that finds its cells (R305, R338). -/
def State.rxCount (b : State) (n : Nat) (i : RxInfo) (fate : RxFate) : State :=
  let b := fate.counts.foldl (fun s k => s.portCount n k 1) b
  let b := if fate.counts.contains 0 then b.portCount n 1 i.len else b
  if fate.deliver || fate.filtered then b else b.portCount n 13 1

/-- The same, of the port's own record. -/
def PortSt.rxCount (p : PortSt) (i : RxInfo) (fate : RxFate) : PortSt :=
  let p := fate.counts.foldl (fun p k => p.count k 1) p
  let p := if fate.counts.contains 0 then p.count 1 i.len else p
  if fate.deliver || fate.filtered then p else p.count 13 1

theorem PortIs.rxCount {t : State} {p : PortSt} (h : PortIs s n t p) (i : RxInfo) (fate : RxFate) :
    PortIs s n (t.rxCount n i fate) (p.rxCount i fate) := by
  have counts := h.counts fate.counts
  unfold State.rxCount PortSt.rxCount
  dsimp only
  cases fate.counts.contains 0 <;> cases fate.deliver || fate.filtered
  · exact counts.count 13 1
  · exact counts
  · exact (counts.count 1 i.len).count 13 1
  · exact counts.count 1 i.len

/-- A frame that finds its cells is stored (R303-R305, R413). -/
theorem State.rxClose_stored {a : State} {i : RxInfo} {ti ei : Nat} {cs : List Nat}
    (kept : (a.rxFate n (f.bytes.map (·.toNat)) i false n).filtered = false)
    (cells : ((a.rxMark n i (f.bytes.map (·.toNat))).rxCells n (min i.len 16000)).1 = some cs) :
    a.rxClose n n f i .none ti ei false false =
      (((a.rxMark n i (f.bytes.map (·.toNat))).rxCells n (min i.len 16000)).2.rxCount n i
        (a.rxFate n (f.bytes.map (·.toNat)) i false n)).rxStore n f i cs
        (rxStatus i (f.bytes.map (·.toNat)) (a.rxFate n (f.bytes.map (·.toNat)) i false n) false .none f.early.isSome
          (entryBad f i)) ti ei (a.rxFate n (f.bytes.map (·.toNat)) i false n).deliver false false false := by
  unfold State.rxClose
  rw [Nat.min_self]
  extract_lets bs fate b1 b defer status
  have open_ : ¬(fate.filtered && !defer) = true := by rw [show fate.filtered = false from kept]; simp
  have cells' : (b.rxCells n (min i.len 16000)).1 = some cs := cells
  rw [if_neg open_]
  change _ = ((b.rxCells n (min i.len 16000)).2.rxCount n i fate).rxStore n f i cs _ ti ei fate.deliver false false false
  generalize b.rxCells n (min i.len 16000) = r at *
  obtain ⟨ds, u⟩ := r
  subst cells'
  rfl

/-- The frame-end record of a stored frame. -/
theorem PortIs.rxStore {t : State} {p : PortSt} (h : PortIs s n t p) (i : RxInfo) (cs : List Nat) (status ti ei : Nat)
    (deliver defer guarded paused : Bool) :
    PortIs s n (t.rxStore n f i cs status ti ei deliver defer guarded paused) { p with ends := p.ends ++
      [{ head := cs.headD 0, status := status, ts := ti, epoch := ei, tag := tagOf (rxHeader i deliver defer) (f.bytes.map (·.toNat))
         deliver := deliver, defer := defer, guarded := guarded, paused := paused }] } := by
  unfold State.rxStore
  exact ((h.work (PumpWork.linkCells _ _ _)).work (PumpWork.bufWrite _ _ _ _)).modPort _

end Close

/-! ### What a frame is (R303-R306) -/

section Info

variable {s : State} {n : Nat} {f : RxFrame} {bs : List Nat} (hbs : bs = f.bytes.map (·.toNat))
include hbs

theorem State.rxInfo_len : (s.rxInfo n f).len = bs.length := by
  rw [hbs]
  rfl

/-- The fate of a frame with another EtherType than that of control frames. -/
theorem State.rxInfo_plain (other : netAt bs 12 2 ≠ 0x8808) : (s.rxInfo n f).ctrl = false ∧ (s.rxInfo n f).pause = false := by
  subst hbs
  simp [State.rxInfo, other]

theorem State.rxInfo_kept (room : min bs.length 16000 ≤ f.kept) : (s.rxInfo n f).ovr = false := by
  subst hbs
  exact decide_eq_false room.not_gt

/-- The flags of a frame without a lane error or a loss (R305). -/
theorem State.rxInfo_clean (clean : f.er = []) (room : min bs.length 16000 ≤ f.kept) : (s.rxInfo n f).poison = false ∧
    (s.rxInfo n f).laneEr = false := by
  subst hbs
  have lost : ¬f.kept < min (f.bytes.map (·.toNat)).length 16000 := room.not_gt
  constructor
  · simp [State.rxInfo, clean, List.range_succ]
  · simp only [State.rxInfo, clean, List.any_nil, Bool.false_or, decide_eq_false lost]

theorem State.rxInfo_counter (clean : f.er = []) (room : min bs.length 16000 ≤ f.kept) : (s.rxInfo n f).flagCounter =
    if 16000 < bs.length then some 6 else if s.maxLen n < bs.length then some 5 else if bs.length < 64 then some 3
    else if fcsGood bs then none else some 2 := by
  obtain ⟨poison, laneEr⟩ := State.rxInfo_clean (s := s) (n := n) hbs clean room
  rw [RxInfo.flagCounter, poison, laneEr]
  subst hbs
  simp only [State.rxInfo, decide_eq_true_eq, Bool.false_eq_true, if_false]
  by_cases trunc : 16000 < (f.bytes.map (·.toNat)).length
  · simp only [if_pos trunc]
  · simp only [if_neg trunc, decide_eq_false trunc, Bool.not_false, Bool.true_and]
    cases fcsGood (f.bytes.map (·.toNat)) <;> rfl

omit hbs in
theorem State.rxFate_reject {i : RxInfo} (long : 18 ≤ i.len) (ctrl : i.ctrl = false) (pause : i.pause = false)
    (reject : s.accepts n bs = false) (low : Nat) :
    s.rxFate n bs i false low = { counts := [9], deliver := false, filtered := true, dup := false } := by
  simp [State.rxFate, long.not_gt, ctrl, pause, reject]

omit hbs in
theorem State.rxFate_accept {i : RxInfo} (long : 18 ≤ i.len) (ctrl : i.ctrl = false) (pause : i.pause = false)
    (accept : s.accepts n bs = true) (low : Nat) :
    s.rxFate n bs i false low = match i.flagCounter with
      | none => { counts := [0], deliver := true, filtered := false, dup := false }
      | some k => { counts := [k], deliver := s.deliverBad n, filtered := false, dup := false } := by
  simp only [State.rxFate, long.not_gt, ctrl, pause, accept, if_false, Bool.false_eq_true, Bool.not_true, Bool.false_and] <;> rfl

end Info

/-! ### The frames of O29 -/

section Fates

variable {s : State} {n : Fin 32} {f : RxFrame} {bs : List Nat} (h : Receives s n f) (alone : s.ringPair n = none)
  (hbs : bs = f.bytes.map (·.toNat))
include h alone hbs

/-- A rejected frame (R302). -/
theorem exec_rxFrame_reject (long : 18 ≤ bs.length) (other : netAt bs 12 2 ≠ 0x8808) (reject : s.accepts n bs = false) :
    ∃ t p, exec (.rxFrame n f) s = .next t ∧ PortIs s n t p ∧
      p.cnt = ((s.port n).count 9 1).cnt ∧ p.ends = (s.port n).ends ∧ tfind t.pump.rxResv n = none ∧
      { t with ports := s.ports, pump := s.pump, mf := s.mf, tb := s.tb } = s := by
  obtain ⟨ctrl, pause⟩ := State.rxInfo_plain (s := s) (n := n) hbs other
  have len := State.rxInfo_len (s := s) (n := n) hbs
  have entries : ((s.rxDecide n f).port n).exact = (s.port n).exact := by
    obtain ⟨p, port, -, -, exact_, -⟩ := s.rxDecide_port n f
    rw [port.self, exact_]
  have fate := State.rxFate_reject (s := s) (n := n) (bs := bs) (by rw [len]; exact long) ctrl pause reject n
  rw [← State.rxFate_of_same (PortWork.rxDecide s n f) entries] at fate
  have run := State.rxClose_filtered (a := s.rxDecide n f) (n := n) (f := f) (i := s.rxInfo n f) (ti := s.stamp n f.tap false)
    (ei := s.tb.epoch) (by rw [← hbs, fate])
  rw [← hbs] at run
  obtain ⟨p, ready⟩ := s.rxMark_ready n f (s.rxInfo n f) bs
  generalize (s.rxDecide n f).rxMark n (s.rxInfo n f) bs = b at *
  obtain ⟨resv, rest⟩ := (b.portCount n 9 1).unreserve_spec n
  refine ⟨_, p.count 9 1, (exec_rxFrame h).trans (congrArg Host.Outcome.next ((State.rxFrame_alone alone).trans run)),
    (ready.port.count 9 1).work (PumpWork.unreserve _ _), ?_, ready.ends, resv, ?_⟩
  · rw [PortSt.count, PortSt.count, ready.cnt]
  · let g : State → State := fun t => { t with ports := s.ports, mf := s.mf, tb := s.tb }
    exact ((congrArg (fun t : State => { t with ports := s.ports, pump := s.pump, mf := s.mf, tb := s.tb }) rest :) :
      _ = { b with ports := s.ports, pump := s.pump, mf := s.mf, tb := s.tb }).trans
      ((congrArg (fun t : State => { t with pump := s.pump }) ready.rest.eq :))

omit h alone in
/-- The fate of a frame, as the state in which its end comes finds it. -/
theorem State.rxDecide_fate (i : RxInfo) : (s.rxDecide n f).rxFate n (f.bytes.map (·.toNat)) i false n =
    s.rxFate n bs i false n := by
  obtain ⟨p, port, -, -, exact_, -⟩ := s.rxDecide_port n f
  rw [State.rxFate_of_same (PortWork.rxDecide s n f) (by rw [port.self, exact_]), hbs]

/-- A frame that is kept and finds its cells (R303-R305, R413). -/
theorem exec_rxFrame_stored {fate : RxFate} {hd : Nat} {cs : List Nat} {u : State}
    (hfate : s.rxFate n bs (s.rxInfo n f) false n = fate) (kept : fate.filtered = false)
    (bound : bit (s.rxBind n) 7 = true) (resv : tfind s.pump.rxResv n = some hd)
    (cells : s.takeCells (max 1 (ceilDiv (min bs.length 16000) 256) - 1) = some (cs, u)) :
    ∃ t b p, exec (.rxFrame n f) s = .next t ∧ RxReady s n (s.rxInfo n f) bs b p ∧
      PortIs s n t { p.rxCount (s.rxInfo n f) fate with ends := (p.rxCount (s.rxInfo n f) fate).ends ++ [{
        head := hd, status := rxStatus (s.rxInfo n f) bs fate false .none f.early.isSome (entryBad f (s.rxInfo n f))
        ts := s.stamp n f.tap false, epoch := s.tb.epoch, tag := tagOf (rxHeader (s.rxInfo n f) fate.deliver false) bs
        deliver := fate.deliver, defer := false, guarded := false, paused := false }] } := by
  subst hbs
  have len := State.rxInfo_len (s := s) (n := n) (f := f) rfl
  have fate' := (State.rxDecide_fate (s := s) (n := n) (f := f) rfl (s.rxInfo n f)).trans hfate
  obtain ⟨p, ready⟩ := s.rxMark_ready n f (s.rxInfo n f) (f.bytes.map (·.toNat))
  have found := State.rxCells_of_some bound resv cells ready.rest.sameCells ready.rest.regs (by rw [ready.rest.pump])
  have run := State.rxClose_stored (a := s.rxDecide n f) (n := n) (f := f) (i := s.rxInfo n f) (ti := s.stamp n f.tap false)
    (ei := s.tb.epoch) (cs := hd :: cs) (by rw [fate', kept]) (by rw [len]; exact found)
  rw [fate', len] at run
  generalize (s.rxDecide n f).rxMark n (s.rxInfo n f) (f.bytes.map (·.toNat)) = b at *
  have port := (ready.port.work (PumpWork.rxCells b n (min (f.bytes.map (·.toNat)).length 16000))).rxCount (s.rxInfo n f) fate
  exact ⟨_, b, p, (exec_rxFrame h).trans (congrArg Host.Outcome.next ((State.rxFrame_alone alone).trans run)), ready,
    port.rxStore (f := f) (s.rxInfo n f) (hd :: cs) _ _ _ fate.deliver false false false⟩

/-- A frame that is kept and finds no cell (R413). -/
theorem exec_rxFrame_lost {fate : RxFate} (hfate : s.rxFate n bs (s.rxInfo n f) false n = fate) (kept : fate.filtered = false)
    (none_ : ∀ b : State, SameCells s b → b.regs = s.regs → b.pump.rxResv = s.pump.rxResv →
      (b.rxCells n (min bs.length 16000)).1 = none) :
    ∃ t b p, exec (.rxFrame n f) s = .next t ∧ RxReady s n (s.rxInfo n f) bs b p ∧
      t.pump = (b.rxCells n (min bs.length 16000)).2.pump ∧
      PortIs s n t (((fate.counts.filter (fun k => k == 4 || k == 9 || k == 10 || k == 11 || k == 12)).foldl
        (fun p k => p.count k 1) p |>.count 14 1).count 13 1) := by
  subst hbs
  have len := State.rxInfo_len (s := s) (n := n) (f := f) rfl
  have fate' := (State.rxDecide_fate (s := s) (n := n) (f := f) rfl (s.rxInfo n f)).trans hfate
  obtain ⟨p, ready⟩ := s.rxMark_ready n f (s.rxInfo n f) (f.bytes.map (·.toNat))
  have found := none_ _ ready.rest.sameCells ready.rest.regs (by rw [ready.rest.pump])
  have run := State.rxClose_lost (a := s.rxDecide n f) (n := n) (f := f) (i := s.rxInfo n f) (ti := s.stamp n f.tap false)
    (ei := s.tb.epoch) (by rw [fate', kept]) (by rw [len]; exact found)
  rw [fate', len] at run
  generalize (s.rxDecide n f).rxMark n (s.rxInfo n f) (f.bytes.map (·.toNat)) = b at *
  have port := (ready.port.work (PumpWork.rxCells b n (min (f.bytes.map (·.toNat)).length 16000))).counts
    (fate.counts.filter (fun k => k == 4 || k == 9 || k == 10 || k == 11 || k == 12))
  have pump (l : List Nat) (v : State) : (l.foldl (fun s k => s.portCount n k 1) v).pump = v.pump := by
    induction l generalizing v with
    | nil => rfl
    | cons k l ih => exact ih _
  exact ⟨_, b, p, (exec_rxFrame h).trans (congrArg Host.Outcome.next ((State.rxFrame_alone alone).trans run)), ready,
    pump _ _, (port.count 14 1).count 13 1⟩

end Fates

/-- The fields of a good frame's status word (R303). -/
theorem rxStatus_good {i : RxInfo} {bs : List Nat} {fate : RxFate} (flags : i.fcsBad = false ∧ i.runt = false ∧
      i.giant = false ∧ i.trunc = false ∧ i.laneEr = false ∧ i.poison = false) (dup : fate.dup = false)
    (short : i.len ≤ 16000) (early : Bool) :
    bits (rxStatus i bs fate false .none early false) 13 0 = i.len ∧
    bits (rxStatus i bs fate false .none early false) 26 16 = 0 := by
  obtain ⟨fcsBad, runt, giant, trunc, laneEr, poison⟩ := flags
  simp only [rxStatus, fcsBad, runt, giant, trunc, laneEr, poison, dup, b2n, Nat.min_eq_left short, bits]
  generalize (if (eventMsg (bodyOf bs)).isSome = true then 1 else 0) = a
  generalize (if (hsrSeq bs).isSome = true then 1 else 0) = b
  generalize (if (prpSeq bs).isSome = true then 1 else 0) = c
  generalize (if i.ovr = true then 1 else 0) = d
  norm_num
  omega

/-- The words of a whole frame pass the entry check (R439). -/
theorem entryBad_of_kept {f : RxFrame} (i : RxInfo) (whole : f.bytes.length ≤ f.kept) : entryBad f i = false := by
  simp [entryBad, whole, List.take_of_length_le, Nat.sub_eq_zero_of_le]

/-- The filter decision, rule by rule (R302). -/
theorem State.accepts_iff (s : State) (n : Nat) (bs : List Nat) : s.accepts n bs = true ↔
    (∀ p ∈ (s.port n).exact, bit p.2 48 = true → p.2 % 2 ^ 48 = daOf bs → bit p.2 50 = false) ∧
    (bit (s.preg n 0x008) 0 = true ∨ (daOf bs = 2 ^ 48 - 1 ∧ bit (s.preg n 0x008) 2 = true) ∨
     (daOf bs ≠ 2 ^ 48 - 1 ∧ ((∃ p ∈ (s.port n).exact, bit p.2 48 = true ∧ p.2 % 2 ^ 48 = daOf bs) ∨
      (bit (bs.getD 0 0) 0 = true ∧ (bit (s.preg n 0x008) 1 = true ∨ s.hashHit n bs = true))))) := by
  have hits : (s.exactHits n (daOf bs)).any (fun e => bit e 50) = false ↔
      ∀ p ∈ (s.port n).exact, bit p.2 48 = true → p.2 % 2 ^ 48 = daOf bs → bit p.2 50 = false := by
    simp [State.exactHits, List.any_eq_false]
  have some_ : (!(s.exactHits n (daOf bs)).isEmpty) = true ↔
      ∃ p ∈ (s.port n).exact, bit p.2 48 = true ∧ p.2 % 2 ^ 48 = daOf bs := by
    simp only [State.exactHits, Bool.not_eq_true', List.isEmpty_eq_false_iff_exists_mem, List.mem_filter, List.mem_map,
      Bool.and_eq_true, beq_iff_eq]
    exact ⟨fun ⟨_, ⟨p, mem, e⟩, valid, addr⟩ => ⟨p, mem, e ▸ valid, e ▸ addr⟩,
      fun ⟨p, mem, valid, addr⟩ => ⟨_, ⟨p, mem, rfl⟩, valid, addr⟩⟩
  rw [← hits, ← some_, State.accepts]
  generalize (s.exactHits n (daOf bs)).isEmpty = empty
  generalize (2 ^ 48 - 1 : Nat) = all
  cases (s.exactHits n (daOf bs)).any (fun e => bit e 50) with
  | true => simp
  | false =>
    by_cases broadcast : daOf bs = all
    · cases bit (s.preg n 0x008) 0 <;> simp [broadcast]
    · cases bit (s.preg n 0x008) 0 <;> cases empty <;> simp [broadcast]

/-- The counters of a good frame. -/
theorem PortSt.rxCount_good (p : PortSt) (i : RxInfo) (k : Nat) :
    tget 0 (p.rxCount i { counts := [0], deliver := true, filtered := false, dup := false }).cnt k =
      if k = 0 then (tget 0 p.cnt 0 + 1) % 2 ^ 32 else if k = 1 then (tget 0 p.cnt 1 + i.len) % 2 ^ 32 else tget 0 p.cnt k := by
  have counted : p.rxCount i { counts := [0], deliver := true, filtered := false, dup := false } =
      (p.count 0 1).count 1 i.len := by simp [PortSt.rxCount]
  rw [counted, PortSt.cnt_count, PortSt.cnt_count]
  by_cases first : k = 0
  · simp [first]
  · by_cases second : k = 1
    · simp [second]
    · simp [first, second, Ne.symm]

/-- The counters of a frame with a flag, which is discarded. -/
theorem PortSt.rxCount_flagged (p : PortSt) (i : RxInfo) {k : Nat} (other : k ≠ 0) :
    p.rxCount i { counts := [k], deliver := false, filtered := false, dup := false } = (p.count k 1).count 13 1 := by
  have none_ : [k].contains 0 = false := by simp [Ne.symm other]
  simp only [PortSt.rxCount, List.foldl_cons, List.foldl_nil, none_, Bool.or_self, Bool.false_eq_true, if_false]

section Stored

variable {s : State} {n : Fin 32} {f : RxFrame} {bs : List Nat} (h : Receives s n f) (alone : s.ringPair n = none)
  (hbs : bs = f.bytes.map (·.toNat))
include h alone hbs

omit h alone in
theorem State.rxInfo_good (room : bs.length ≤ f.kept) (clean : f.er = []) (long : 64 ≤ bs.length) (fits : bs.length ≤ s.maxLen n)
    (short : bs.length ≤ 16000) (fcs : fcsGood bs = true) : (s.rxInfo n f).flagCounter = none ∧
    (s.rxInfo n f).fcsBad = false ∧ (s.rxInfo n f).runt = false ∧ (s.rxInfo n f).giant = false ∧
    (s.rxInfo n f).trunc = false ∧ (s.rxInfo n f).laneEr = false ∧ (s.rxInfo n f).poison = false := by
  have room' : min bs.length 16000 ≤ f.kept := (Nat.min_le_left _ _).trans room
  obtain ⟨poison, laneEr⟩ := State.rxInfo_clean (s := s) (n := n) hbs clean room'
  have counter := State.rxInfo_counter (s := s) (n := n) hbs clean room'
  rw [if_neg short.not_gt, if_neg fits.not_gt, if_neg long.not_gt, if_pos fcs] at counter
  refine ⟨counter, ?_, ?_, ?_, ?_, laneEr, poison⟩ <;> subst hbs
  · simp only [State.rxInfo, fcs, Bool.not_true, Bool.and_false]
  · exact decide_eq_false long.not_gt
  · exact decide_eq_false fits.not_gt
  · exact decide_eq_false short.not_gt

/-- A good frame is delivered with its record (R303, R304). -/
theorem exec_rxFrame_good {hd : Nat} {cs : List Nat} {u : State} (room : bs.length ≤ f.kept) (clean : f.er = [])
    (long : 64 ≤ bs.length) (fits : bs.length ≤ s.maxLen n) (short : bs.length ≤ 16000) (fcs : fcsGood bs = true)
    (other : netAt bs 12 2 ≠ 0x8808) (accept : s.accepts n bs = true) (bound : bit (s.rxBind n) 7 = true)
    (resv : tfind s.pump.rxResv n = some hd)
    (cells : s.takeCells (max 1 (ceilDiv bs.length 256) - 1) = some (cs, u)) :
    ∃ t q e, exec (.rxFrame n f) s = .next t ∧ PortIs s n t q ∧ q.ends = (s.port n).ends ++ [e] ∧
      (e.head = hd ∧ e.deliver = true ∧ e.defer = false ∧ bits e.status 13 0 = bs.length ∧ bits e.status 26 16 = 0 ∧
        e.tag = crc32cFinal ((bs.drop 12).take (bs.length - 4 - 12))) ∧
      ∀ k, tget 0 q.cnt k = if k = 0 then (tget 0 (s.port n).cnt 0 + 1) % 2 ^ 32
        else if k = 1 then (tget 0 (s.port n).cnt 1 + bs.length) % 2 ^ 32 else tget 0 (s.port n).cnt k := by
  have len := State.rxInfo_len (s := s) (n := n) hbs
  obtain ⟨ctrl, pause⟩ := State.rxInfo_plain (s := s) (n := n) hbs other
  obtain ⟨counter, flags⟩ := State.rxInfo_good (s := s) (n := n) hbs room clean long fits short fcs
  have fate := State.rxFate_accept (s := s) (n := n) (bs := bs) (by rw [len]; omega) ctrl pause accept n
  rw [counter] at fate
  obtain ⟨t, b, p, run, ready, port⟩ := exec_rxFrame_stored h alone hbs fate rfl bound resv
    (by rw [Nat.min_eq_left short]; exact cells)
  have whole : f.bytes.length ≤ f.kept := by
    rw [hbs, List.length_map] at room
    exact room
  obtain ⟨length, zero⟩ := rxStatus_good (bs := bs) (fate := { counts := [0], deliver := true, filtered := false, dup := false })
    flags rfl (by rw [len]; exact short) f.early.isSome
  have header : tagOf (rxHeader (s.rxInfo n f) true false) bs = crc32cFinal ((bs.drop 12).take (bs.length - 4 - 12)) := by
    have hi : max 12 (bs.length - 4) = bs.length - 4 := by omega
    simp only [tagOf, Cell.tagSpan, rxHeader, flags.2.2.2.1, len, Nat.min_eq_left short, Bool.not_false, if_true, hi,
      if_neg (show ¬bs.length - 4 ≤ 12 by omega)]
  have counts := p.rxCount_good (s.rxInfo n f)
  have ends : (p.rxCount (s.rxInfo n f) { counts := [0], deliver := true, filtered := false, dup := false }).ends =
      (s.port n).ends := ready.ends
  rw [entryBad_of_kept _ whole] at port
  generalize p.rxCount (s.rxInfo n f) { counts := [0], deliver := true, filtered := false, dup := false } = q at *
  refine ⟨t, _, _, run, port, congrArg (· ++ _) ends, ⟨rfl, rfl, rfl, length.trans len, zero, header⟩, fun k => ?_⟩
  rw [← ready.cnt, ← len]
  exact counts k

/-- A frame with a flag is discarded and counted (R305). -/
theorem exec_rxFrame_flagged {hd k : Nat} {cs : List Nat} {u : State} (room : min bs.length 16000 ≤ f.kept) (clean : f.er = [])
    (long : 18 ≤ bs.length) (other : netAt bs 12 2 ≠ 0x8808) (accept : s.accepts n bs = true)
    (hk : k = if 16000 < bs.length then 6 else if s.maxLen n < bs.length then 5 else if bs.length < 64 then 3 else 2)
    (fcs : k = 2 → fcsGood bs = false) (discard : s.deliverBad n = false) (bound : bit (s.rxBind n) 7 = true)
    (resv : tfind s.pump.rxResv n = some hd)
    (cells : s.takeCells (max 1 (ceilDiv (min bs.length 16000) 256) - 1) = some (cs, u)) :
    ∃ t q e, exec (.rxFrame n f) s = .next t ∧ PortIs s n t q ∧ q.ends = (s.port n).ends ++ [e] ∧
      (e.head = hd ∧ e.deliver = false ∧ e.defer = false) ∧ q.cnt = (((s.port n).count k 1).count 13 1).cnt := by
  have len := State.rxInfo_len (s := s) (n := n) hbs
  obtain ⟨ctrl, pause⟩ := State.rxInfo_plain (s := s) (n := n) hbs other
  have counter : (s.rxInfo n f).flagCounter = some k := by
    rw [State.rxInfo_counter (s := s) (n := n) hbs clean room, hk]
    by_cases trunc : 16000 < bs.length
    · simp only [if_pos trunc]
    · by_cases giant : s.maxLen n < bs.length
      · simp only [if_neg trunc, if_pos giant]
      · by_cases runt : bs.length < 64
        · simp only [if_neg trunc, if_neg giant, if_pos runt]
        · have bad := fcs (by rw [hk, if_neg trunc, if_neg giant, if_neg runt])
          simp only [if_neg trunc, if_neg giant, if_neg runt, bad, Bool.false_eq_true, if_false]
  have notGood : k ≠ 0 := by
    rw [hk]
    split
    · decide
    · split
      · decide
      · split <;> decide
  have fate := State.rxFate_accept (s := s) (n := n) (bs := bs) (by rw [len]; exact long) ctrl pause accept n
  simp only [counter, discard] at fate
  obtain ⟨t, b, p, run, ready, port⟩ := exec_rxFrame_stored h alone hbs fate rfl bound resv cells
  rw [PortSt.rxCount_flagged _ _ notGood] at port
  refine ⟨t, _, _, run, port, congrArg (· ++ _) ready.ends, ⟨rfl, rfl, rfl⟩, ?_⟩
  show ((p.count k 1).count 13 1).cnt = _
  rw [PortSt.count, PortSt.count, ready.cnt]
  rfl

/-- An accepted frame without a reserved cell (R413). -/
theorem exec_rxFrame_noCell (long : 18 ≤ bs.length) (other : netAt bs 12 2 ≠ 0x8808) (accept : s.accepts n bs = true)
    (none_ : tfind s.pump.rxResv n = none) : ∃ t q, exec (.rxFrame n f) s = .next t ∧ PortIs s n t q ∧
      q.ends = (s.port n).ends ∧ q.cnt = (((s.port n).count 14 1).count 13 1).cnt ∧
      (bit (s.rxBind n) 7 = true → s.takeCell = none → bit t.pump.alarm 0 = true) := by
  have len := State.rxInfo_len (s := s) (n := n) hbs
  obtain ⟨ctrl, pause⟩ := State.rxInfo_plain (s := s) (n := n) hbs other
  have fate := State.rxFate_accept (s := s) (n := n) (bs := bs) (by rw [len]; exact long) ctrl pause accept n
  have plain : (s.rxFate n bs (s.rxInfo n f) false n).filtered = false ∧
      (s.rxFate n bs (s.rxInfo n f) false n).counts.filter
        (fun k => k == 4 || k == 9 || k == 10 || k == 11 || k == 12) = [] := by
    rw [fate]
    cases counter : (s.rxInfo n f).flagCounter with
    | none => exact ⟨rfl, rfl⟩
    | some k =>
      refine ⟨rfl, ?_⟩
      have few : k ∈ [6, 5, 3, 8, 7, 2] := by
        unfold RxInfo.flagCounter at counter
        split_ifs at counter <;> simp_all
      simp only [List.mem_cons, List.not_mem_nil, or_false] at few
      obtain rfl | rfl | rfl | rfl | rfl | rfl := few <;> rfl
  obtain ⟨kept, own⟩ := plain
  obtain ⟨t, b, p, run, ready, pump, port⟩ := exec_rxFrame_lost h alone hbs rfl kept
    (fun b _ _ resv => by rw [State.rxCells_of_none (resv ▸ none_)])
  rw [own] at port
  refine ⟨t, _, run, port, ready.ends, ?_, fun bound empty => ?_⟩
  · show ((p.count 14 1).count 13 1).cnt = _
    rw [PortSt.count, PortSt.count, ready.cnt]
    rfl
  · have bind : b.rxBind n = s.rxBind n := by rw [State.rxBind, State.reg, ready.rest.regs, State.rxBind, State.reg]
    have resv : tfind b.pump.rxResv n = none := by rw [ready.rest.pump]; exact none_
    rw [pump, State.rxCells_of_none resv, bind, bound, ready.rest.sameCells.takeCell_none empty]
    show bit (b.pump.alarm ||| 2 ^ 0) 0 = true
    simp [bit_eq_testBit]

omit h alone in
/-- What a PAUSE frame is (R306). -/
theorem State.rxInfo_pause (ctrl : netAt bs 12 2 = 0x8808) (code : netAt bs 14 2 = 1) (fcs : fcsGood bs = true)
    (long : 64 ≤ bs.length) (fits : bs.length ≤ s.maxLen n) (addr : daOf bs = 0x010000C28001 ∨ s.ownAddr n (daOf bs) = true) :
    (s.rxInfo n f).pause = true := by
  subst hbs
  have addr' : (daOf (f.bytes.map (·.toNat)) == 0x010000C28001 || s.ownAddr n (daOf (f.bytes.map (·.toNat)))) = true := by
    simpa using addr
  simp only [State.rxInfo, ctrl, code, fcs, long, fits, addr', beq_self_eq_true, decide_true, Bool.and_self]

omit h alone hbs in
/-- The fate of a PAUSE frame counts it once in its counter. -/
theorem State.rxFate_pause {i : RxInfo} (long : 18 ≤ i.len) (pause : i.pause = true) (low : Nat) :
    (s.rxFate n bs i false low).filtered = false ∧
    (s.rxFate n bs i false low = { counts := [10, 0], deliver := true, filtered := false, dup := false } ∨
      s.rxFate n bs i false low = { counts := [10], deliver := false, filtered := false, dup := false }) := by
  rw [State.rxFate, if_neg long.not_gt, if_pos pause]
  dsimp only
  cases bit (s.preg n 0x00C) 0 && bit (s.preg n 0x00C) 1
  · exact ⟨rfl, .inr rfl⟩
  · exact ⟨rfl, .inl rfl⟩

omit h alone hbs in
theorem PortSt.rxCount_pause (p : PortSt) (i : RxInfo) {fate : RxFate}
    (hfate : fate = { counts := [10, 0], deliver := true, filtered := false, dup := false } ∨
      fate = { counts := [10], deliver := false, filtered := false, dup := false }) :
    tget 0 (p.rxCount i fate).cnt 10 = (tget 0 p.cnt 10 + 1) % 2 ^ 32 ∧ (p.rxCount i fate).pause = p.pause ∧
      (p.rxCount i fate).pauseX = p.pauseX := by
  obtain rfl | rfl := hfate
  · have counted : p.rxCount i { counts := [10, 0], deliver := true, filtered := false, dup := false } =
        ((p.count 10 1).count 0 1).count 1 i.len := by simp [PortSt.rxCount]
    simp [counted, PortSt.cnt_count]
  · have counted : p.rxCount i { counts := [10], deliver := false, filtered := false, dup := false } =
        (p.count 10 1).count 13 1 := by simp [PortSt.rxCount]
    simp [counted, PortSt.cnt_count]

/-- A PAUSE frame (R306). -/
theorem exec_rxFrame_pause (long : 18 ≤ bs.length) (pause : (s.rxInfo n f).pause = true) :
    ∃ t q, exec (.rxFrame n f) s = .next t ∧ PortIs s n t q ∧ q.pause = (s.port n).pause ∧
      q.pauseX = (if bit (s.preg n 0x00C) 0 then some (netAt bs 16 2) else (s.port n).pauseX) ∧
      tget 0 q.cnt 10 = (tget 0 (s.port n).cnt 10 + 1) % 2 ^ 32 := by
  subst hbs
  have len := State.rxInfo_len (s := s) (n := n) (f := f) rfl
  have fate' := State.rxDecide_fate (s := s) (n := n) (f := f) rfl (s.rxInfo n f)
  obtain ⟨kept, form⟩ := State.rxFate_pause (s := s) (n := n) (bs := f.bytes.map (·.toNat)) (by rw [len]; exact long) pause n
  obtain ⟨p, ready⟩ := s.rxMark_ready n f (s.rxInfo n f) (f.bytes.map (·.toNat))
  have pauseX := ready.pauseX
  rw [pause, Bool.true_and] at pauseX
  have run := (exec_rxFrame h).trans (congrArg Host.Outcome.next (State.rxFrame_alone (s := s) (n := n) (f := f) alone))
  cases found : (((s.rxDecide n f).rxMark n (s.rxInfo n f) (f.bytes.map (·.toNat))).rxCells n (min (s.rxInfo n f).len 16000)).1 with
  | none =>
    have lost := State.rxClose_lost (a := s.rxDecide n f) (n := n) (f := f) (i := s.rxInfo n f) (ti := s.stamp n f.tap false)
      (ei := s.tb.epoch) (by rw [fate']; exact kept) found
    rw [lost, fate'] at run
    have own : (s.rxFate n (f.bytes.map (·.toNat)) (s.rxInfo n f) false n).counts.filter
        (fun k => k == 4 || k == 9 || k == 10 || k == 11 || k == 12) = [10] := by
      obtain form | form := form <;> rw [form] <;> rfl
    rw [own] at run
    refine ⟨_, _, run, (((ready.port.work (PumpWork.rxCells _ n _)).counts [10]).count 14 1).count 13 1, ?_, ?_, ?_⟩
    · simpa using ready.pause
    · simpa using pauseX
    · simp [PortSt.cnt_count, ready.cnt]
  | some cs =>
    have stored := State.rxClose_stored (a := s.rxDecide n f) (n := n) (f := f) (i := s.rxInfo n f)
      (ti := s.stamp n f.tap false) (ei := s.tb.epoch) (by rw [fate']; exact kept) found
    rw [stored, fate'] at run
    have port := (ready.port.work (PumpWork.rxCells _ n (min (s.rxInfo n f).len 16000))).rxCount (s.rxInfo n f)
      (s.rxFate n (f.bytes.map (·.toNat)) (s.rxInfo n f) false n)
    obtain ⟨count, pause', pauseX'⟩ := p.rxCount_pause (s.rxInfo n f) form
    exact ⟨_, _, run, port.rxStore (f := f) _ _ _ _ _ _ _ _ _, pause'.trans ready.pause, pauseX'.trans pauseX,
      count.trans (by rw [ready.cnt])⟩

end Stored

/-- Settles O29: the filter by its rules, a frame by its fate and the cells that it finds. -/
theorem framesAreFilteredStoredAndCounted : Obligations.FramesAreFilteredStoredAndCounted := by
  unfold Obligations.FramesAreFilteredStoredAndCounted
  refine ⟨fun n bs s => s.accepts_iff n bs, fun n f bs s h alone hbs room long other reject => ?reject,
    fun n f bs hd cs s u h alone hbs room clean long fits short fcs other accept bound resv cells => ?good,
    fun n f bs hd k cs s u h alone hbs room clean long other accept hk fcs discard bound resv cells => ?flagged,
    fun n f bs s h alone hbs long other accept none_ => ?lost,
    fun n f bs s h alone hbs ctrl code fcs long fits addr => ?paused⟩
  case reject =>
    obtain ⟨t, p, run, port, cnt, ends, resv, rest⟩ := exec_rxFrame_reject h alone hbs long other reject
    refine ⟨t, run, ?_, fun k other => ?_, ?_, resv, port.others, rest⟩
    · rw [port.self, cnt, PortSt.cnt_count, if_pos rfl]
    · rw [port.self, cnt, PortSt.cnt_count, if_neg (Ne.symm other)]
    · rw [port.self, ends]
  case good =>
    obtain ⟨t, q, e, run, port, ends, record, counts⟩ :=
      exec_rxFrame_good h alone hbs room clean long fits short fcs other accept bound resv cells
    refine ⟨t, run, ?_, ?_, ?_, fun k high => ?_, port.others⟩ <;> rw [port.self]
    · exact ⟨e, ends, record⟩
    · exact counts 0
    · exact counts 1
    · rw [counts, if_neg (by omega), if_neg (by omega)]
  case flagged =>
    obtain ⟨t, q, e, run, port, ends, record, counts⟩ :=
      exec_rxFrame_flagged h alone hbs room clean long other accept hk fcs discard bound resv cells
    have notLost : k ≠ 13 := by
      rw [hk]
      split
      · decide
      · split
        · decide
        · split <;> decide
    refine ⟨t, run, ?_, ?_, ?_, fun j notK not13 => ?_⟩ <;> rw [port.self]
    · exact ⟨e, ends, record⟩
    · rw [counts, PortSt.cnt_count, if_neg (Ne.symm notLost), PortSt.cnt_count, if_pos rfl]
    · rw [counts, PortSt.cnt_count, if_pos rfl, PortSt.cnt_count, if_neg notLost]
    · rw [counts, PortSt.cnt_count, if_neg (Ne.symm not13), PortSt.cnt_count, if_neg (Ne.symm notK)]
  case lost =>
    obtain ⟨t, q, run, port, ends, counts, alarm⟩ := exec_rxFrame_noCell h alone hbs long other accept none_
    refine ⟨t, run, ?_, ?_, ?_, alarm⟩ <;> rw [port.self]
    · exact ends
    · rw [counts, PortSt.cnt_count, if_neg (by decide), PortSt.cnt_count, if_pos rfl]
    · rw [counts, PortSt.cnt_count, if_pos rfl, PortSt.cnt_count, if_neg (by decide)]
  case paused =>
    obtain ⟨t, q, run, port, pause, pauseX, count⟩ := exec_rxFrame_pause h alone hbs (by omega)
      (State.rxInfo_pause hbs ctrl code fcs long fits addr)
    refine ⟨t, run, ?_, ?_, ?_⟩ <;> rw [port.self]
    · exact pauseX
    · exact pause
    · exact count

end Sys2Proof.Machine

/-!
SUPPORT. Frame-end records, the reserved cell, ring forwarding and PAUSE (R306, R307, R312, R316-R323, R434, R435), and the
proof of O30.
-/

namespace Sys2Proof.Machine

/-! ### Whole words of the reservoir -/

section Words

theorem mem_wordsOf {a n w : Nat} (pos : 0 < n) : w ∈ wordsOf a n ↔ a / 4 ≤ w ∧ w ≤ (a + n - 1) / 4 := by
  simp only [wordsOf, List.mem_map, List.mem_range]
  constructor
  · rintro ⟨i, small, rfl⟩
    omega
  · rintro ⟨low, high⟩
    exact ⟨w - a / 4, by omega, by omega⟩

/-- A range of whole words covers each of its words. -/
theorem covers_of_aligned {a n w : Nat} (start : a % 4 = 0) (size : n % 4 = 0) (pos : 0 < n) (mem : w ∈ wordsOf a n) :
    a ≤ 4 * w ∧ 4 * w + 4 ≤ a + n := by
  rw [mem_wordsOf pos] at mem
  omega

theorem partWords_of_aligned {a n : Nat} (start : a % 4 = 0) (size : n % 4 = 0) (pos : 0 < n) : partWords a n = [] := by
  rw [partWords, List.filter_eq_nil_iff]
  intro w mem
  simp [covers_of_aligned start size pos mem]

/-- `t` differs from `s` in the bores' memories, the check bits and the wellhead alone. -/
def LbWork (s t : State) : Prop := { t with lbs := s.lbs, ecc := s.ecc, wh := s.wh } = s

variable {s t u : State}

theorem LbWork.eq (h : LbWork s t) : { t with lbs := s.lbs, ecc := s.ecc, wh := s.wh } = s := h

theorem LbWork.refl (s : State) : LbWork s s := rfl

theorem LbWork.trans (h : LbWork s t) (k : LbWork t u) : LbWork s u := by
  let g : State → State := fun v => { v with lbs := s.lbs, ecc := s.ecc, wh := s.wh }
  exact ((congrArg g k.eq :) : _ = g t).trans h

theorem LbWork.foldl {α : Type} (f : State → α → State) (l : List α) (each : ∀ s, ∀ a ∈ l, LbWork s (f s a)) (s : State) :
    LbWork s (l.foldl f s) := by
  induction l generalizing s with
  | nil => exact LbWork.refl s
  | cons a l ih => exact (each s a (by simp)).trans (ih (fun s b mem => each s b (by simp [mem])) (f s a))

theorem LbWork.eccWrite {a n : Nat} (start : a % 4 = 0) (size : n % 4 = 0) (pos : 0 < n) (s : State) (m : Mem) :
    LbWork s (s.eccWrite m a n) := by
  unfold State.eccWrite
  split
  · exact LbWork.refl s
  · refine LbWork.foldl _ _ (fun t w mem => ?_) s
    rw [if_pos (by simpa using covers_of_aligned start size pos mem)]
    rfl

theorem LbWork.resPut {a n : Nat} (start : a % 4 = 0) (size : n % 4 = 0) (pos : 0 < n) (s : State) (lb v : Nat) :
    LbWork s (s.resPut lb a n v) :=
  LbWork.trans (t := s.modLb lb (fun b => { b with res := writeLE b.res a n v })) rfl (LbWork.eccWrite start size pos _ _)

theorem LbWork.serveWord {a : Nat} (start : a % 4 = 0) (s : State) (lb v : Nat) : LbWork s (s.serveWord lb a 4 v) := by
  unfold State.serveWord
  split
  · exact LbWork.trans (t := s.modLb lb _) rfl (LbWork.resPut start rfl (by decide) _ _ _)
  · rfl

theorem LbWork.resServe {a n : Nat} (start : a % 4 = 0) (size : n % 4 = 0) (pos : 0 < n) (s : State) (lb v : Nat) :
    LbWork s (s.resServe lb a n v) := by
  unfold State.resServe
  split
  · exact LbWork.resPut start size pos s lb v
  · refine LbWork.foldl _ _ (fun t w mem => ?_) s
    obtain ⟨low, high⟩ := covers_of_aligned start size pos mem
    have lo : max a (4 * w) = 4 * w := by omega
    have k : min (a + n) (4 * w + 4) - 4 * w = 4 := by omega
    simp only [lo, k]
    exact LbWork.serveWord (by omega) t lb _

theorem LbWork.mirror (s : State) (x : Nat) (loc : Loc) (n v : Nat) : LbWork s (s.mirror x loc n v) := by
  unfold State.mirror
  split
  · rfl
  · exact LbWork.refl s

theorem LbWork.mirrorRes (s : State) (lb a n v : Nat) : LbWork s (s.mirrorRes lb a n v) := by
  refine LbWork.foldl _ _ (fun t k _ => ?_) s
  split
  · exact LbWork.mirror _ _ _ _ _
  · exact LbWork.refl t

/-- The service port writes whole words of a reservoir. -/
theorem LbWork.pumpRes {a n : Nat} (start : a % 4 = 0) (size : n % 4 = 0) (pos : 0 < n) (s : State) (r : Reader) (lb v : Nat) :
    LbWork s (s.pumpRes r lb a n v) := by
  have same : s.eccNarrow r (.reservoir lb) a n = s := by
    rw [State.eccNarrow, partWords_of_aligned start size pos]
    split <;> rfl
  rw [State.pumpRes, same]
  exact (LbWork.resServe start size pos s lb v).trans (LbWork.mirrorRes _ _ _ _ _)

theorem LbWork.pump (h : LbWork s t) : t.pump = s.pump := (congrArg State.pump h.eq :)
theorem LbWork.ports (h : LbWork s t) : t.ports = s.ports := (congrArg State.ports h.eq :)
theorem LbWork.mf (h : LbWork s t) : t.mf = s.mf := (congrArg State.mf h.eq :)
theorem LbWork.strokes (h : LbWork s t) : t.strokes = s.strokes := (congrArg State.strokes h.eq :)

end Words

/-! ### References and cells (R407, R412, R413) -/

section Cells

variable {s : State} {n : Nat}

theorem State.returnCells_returned (s : State) (cs : List Nat) : (s.returnCells cs).pump.returned = s.pump.returned ++ cs := by
  unfold State.returnCells
  induction cs generalizing s with
  | nil => simp
  | cons c cs ih =>
    rw [List.foldl_cons, ih]
    show (s.pump.returned ++ [c]) ++ cs = _
    simp

theorem State.dropRef_shared {h : Nat} (shared : 2 ≤ (s.cell h).refs) :
    s.dropRef h = s.modCell h (fun c => { c with refs := c.refs - 1 }) := by
  rw [State.dropRef, if_pos (by omega)]
  rfl

theorem State.dropRef_last {h : Nat} (last : (s.cell h).refs ≤ 1) : s.dropRef h = s.returnCells (s.bufCells h) := by
  rw [State.dropRef, if_neg (by omega)]

theorem State.dropRef_rest (s : State) (h : Nat) : { s.dropRef h with pump := s.pump } = s := by
  unfold State.dropRef
  dsimp only
  split
  · rfl
  · exact s.returnCells_rest _

/-- Dropping a reference changes cells and what is returned alone. -/
theorem State.dropRef_pump (s : State) (h : Nat) : (s.dropRef h).pump.rxTail = s.pump.rxTail ∧
    (s.dropRef h).pump.rxDrops = s.pump.rxDrops ∧ (s.dropRef h).pump.alarm = s.pump.alarm := by
  have back (cs : List Nat) (t : State) : (t.returnCells cs).pump.rxTail = t.pump.rxTail ∧
      (t.returnCells cs).pump.rxDrops = t.pump.rxDrops ∧ (t.returnCells cs).pump.alarm = t.pump.alarm := by
    unfold State.returnCells
    induction cs generalizing t with
    | nil => exact ⟨rfl, rfl, rfl⟩
    | cons c cs ih => exact ih _
  unfold State.dropRef
  dsimp only
  split
  · exact ⟨rfl, rfl, rfl⟩
  · exact back _ s

theorem State.takeCell_spec {c : Nat} {u : State} (h : s.takeCell = some (c, u)) : s.cellFree c = true ∧
    u.cell c = { used := true } ∧ (∀ d, d ≠ c → u.cell d = s.cell d) ∧ u.pump.rxResv = s.pump.rxResv ∧
    { u with pump := s.pump, draws := s.draws } = s := by
  unfold State.takeCell at h
  split at h
  · cases h
  · next found =>
    cases h
    refine ⟨List.find?_some found, ?_, fun d other => ?_, rfl, rfl⟩
    · exact tget_tput_same _ _ _ _
    · exact tget_tput_other _ _ _ _ _ (Ne.symm other)

end Cells

/-! ### FRAME_RECORD (R323, R434, R435) -/

section Record

variable {s : State} {n : Fin 32} {e : FrameEnd} {es : List FrameEnd}

theorem exec_frameRecord (first : (s.port n).ends = e :: es) (crossed : ∃ q, e.at_ = some q ∧ q + 3 ≤ s.strokes) :
    exec (.frameRecord n) s = .next (
      let s1 := s.modPort n (fun p => { p with ends := es })
      let s2 := if e.deliver && bit (s.rxBind n) 7 then s1.recordWrite n e else s1.recordSink e
      if !e.defer then s2 else if s.pstate (s.ptPartner n) = 2 then s2.deferQueue n (s.ptPartner n) e else s2.dropRef e.head) := by
  obtain ⟨q, at_, due⟩ := crossed
  show execFrameRecord n s = _
  rw [execFrameRecord, first]
  exact State.act_of (by rw [at_]; exact decide_eq_true due)

theorem exec_frameRecord_write (first : (s.port n).ends = e :: es) (crossed : ∃ q, e.at_ = some q ∧ q + 3 ≤ s.strokes)
    (deliver : e.deliver = true) (now : e.defer = false) (bound : bit (s.rxBind n) 7 = true) :
    exec (.frameRecord n) s = .next ((s.modPort n (fun p => { p with ends := es })).recordWrite n e) := by
  rw [exec_frameRecord first crossed, deliver, bound, now]
  rfl

theorem exec_frameRecord_early (first : (s.port n).ends = e :: es)
    (early : e.at_ = none ∨ ∃ q, e.at_ = some q ∧ s.strokes < q + 3) : exec (.frameRecord n) s = .next s := by
  have closed : ((e.at_.map (fun q => decide (q + 3 ≤ s.strokes))).getD false) = false := by
    obtain none_ | ⟨q, at_, late⟩ := early
    · rw [none_]
      rfl
    · rw [at_]
      exact decide_eq_false late.not_ge
  show execFrameRecord n s = _
  rw [execFrameRecord, first]
  simp only [closed]
  rfl

/-- A record that finds its place in the frame ring (R434, R435). -/
theorem State.recordWrite_delivered {lb base size tl : Nat} (hlb : lb = bits (s.rxBind n) 2 0) (serves : (s.lb lb).shed = false)
    (ring : (base, size) = ringAt (s.reg (0x70804 + 16 * n))) (tail : tl = s.rxTailOf n)
    (room : (tl % 512 + 512 - s.rxHeadOf n) % 512 ≠ size) :
    (s.recordWrite n e).rxTailOf n = tl + 1 ∧ ((s.recordWrite n e).cell e.head).owner = 8 + lb ∧
    (s.recordWrite n e).ports = s.ports ∧
    (s.recordWrite n e).mf.entryQ = s.mf.entryQ ++ [{ src := 0x2C1 + 2 * n, ev := true, rising := true, level := true
                                                      from_ := s.strokes + 1 }] ∧
    { s.recordWrite n e with pump := s.pump, mf := s.mf, lbs := s.lbs, ecc := s.ecc, wh := s.wh } = s := by
  have aligned : (base + 32 * (tl % size)) % 4 = 0 := by
    have hbase : base = bits (s.reg (0x70804 + 16 * n)) 18 4 * 16 := congrArg Prod.fst ring
    omega
  have run : s.recordWrite n e = ((((s.modCell e.head (fun c => { c with owner := 8 + lb })).pumpRes .pump lb
      (base + 32 * (tl % size)) 32 (e.record n ((s.modCell e.head (fun c => { c with owner := 8 + lb })).bufCells e.head).length)).modPump
        (fun p => { p with rxTail := tset 0 p.rxTail n (tl + 1) })).raiseCore (srcFe n)) := by
    unfold State.recordWrite
    rw [← ring, ← hlb, ← tail]
    exact if_neg (by rw [serves]; simpa using room)
  rw [run]
  have owner : ((s.modCell e.head (fun c => { c with owner := 8 + lb })).cell e.head).owner = 8 + lb := by
    rw [State.cell_modCell_same]
  have rest : { s.modCell e.head (fun c => { c with owner := 8 + lb }) with pump := s.pump } = s := rfl
  have work := LbWork.pumpRes aligned (n := 32) rfl (by decide) (s.modCell e.head (fun c => { c with owner := 8 + lb })) .pump lb
    (e.record n ((s.modCell e.head (fun c => { c with owner := 8 + lb })).bufCells e.head).length)
  generalize (s.modCell e.head (fun c => { c with owner := 8 + lb })).pumpRes .pump lb (base + 32 * (tl % size)) 32 _ = v at *
  generalize s.modCell e.head (fun c => { c with owner := 8 + lb }) = u at *
  have ports : u.ports = s.ports := (congrArg State.ports rest :)
  have mf : u.mf = s.mf := (congrArg State.mf rest :)
  have strokes : u.strokes = s.strokes := (congrArg State.strokes rest :)
  refine ⟨?_, ?_, work.ports.trans ports, ?_, ?_⟩
  · show tget 0 (tset 0 v.pump.rxTail n (tl + 1)) n = _
    rw [tget_tset, if_pos rfl]
  · show (tget {} v.pump.cells e.head : Cell).owner = _
    rw [work.pump]
    exact owner
  · have queue : v.mf.entryQ = s.mf.entryQ := congrArg ManifoldSt.entryQ (work.mf.trans mf)
    have time : v.strokes = s.strokes := work.strokes.trans strokes
    rw [← queue, ← time]
    rfl
  · let g : State → State := fun t => { t with pump := s.pump, mf := s.mf, lbs := s.lbs, ecc := s.ecc, wh := s.wh }
    exact ((congrArg g work.eq :) : _ = g u).trans (congrArg (fun t : State => { t with mf := s.mf, lbs := s.lbs, ecc := s.ecc, wh := s.wh }) rest :)

/-- What a dropped record leaves counted (R435). -/
def State.dropCount (s : State) (n : Nat) : State :=
  ((s.modPump (fun p => { p with rxDrops := tset 0 p.rxDrops n (satInc 16 (tget 0 p.rxDrops n)) })).pumpAlarm 7).portCount n 13 1

theorem State.dropCount_spec (s : State) (n : Nat) :
    ((s.dropCount n).pump.rxTail = s.pump.rxTail ∧
      (s.dropCount n).pump.rxDrops = tset 0 s.pump.rxDrops n (satInc 16 (tget 0 s.pump.rxDrops n)) ∧
      (s.dropCount n).pump.alarm = s.pump.alarm ||| 2 ^ 7) ∧
    (s.dropCount n).port n = (s.port n).count 13 1 ∧
    { s.dropCount n with ports := s.ports, pump := s.pump, evq := s.evq } = s := by
  refine ⟨⟨?_, ?_, ?_⟩, ?port, ?rest⟩
  case port =>
    rw [State.dropCount, State.port_portCount, if_pos rfl]
    generalize kept : (s.modPump _).pumpAlarm 7 = u
    have ports : u.ports = s.ports := by
      rw [← kept]
      exact (PumpWork.pumpAlarm _ 7).ports
    rw [State.port, ports]
    rfl
  case rest =>
    let g : State → State := fun u => { u with ports := s.ports, pump := s.pump, evq := s.evq }
    have count (u : State) : g (u.portCount n 13 1) = g u := rfl
    have alarm (u : State) : g (u.pumpAlarm 7) = g u := rfl
    exact (count _).trans (alarm _)
  all_goals simp [State.dropCount, State.pumpAlarm, State.modPump, State.portCount, State.modPort, State.alarmEvent]

/-- A record whose ring is full, or whose bore is out of service, goes to the sump (R435, R516). -/
theorem State.recordWrite_dropped {base size tl : Nat} (ring : (base, size) = ringAt (s.reg (0x70804 + 16 * n)))
    (tail : tl = s.rxTailOf n) (full : (tl % 512 + 512 - s.rxHeadOf n) % 512 = size ∨ (s.lb (bits (s.rxBind n) 2 0)).shed = true) :
    (s.recordWrite n e).rxTailOf n = tl ∧ tget 0 (s.recordWrite n e).pump.rxDrops n =
      (if tget 0 s.pump.rxDrops n < 65535 then tget 0 s.pump.rxDrops n + 1 else 65535) ∧
    bit (s.recordWrite n e).pump.alarm 7 = true ∧ (s.recordWrite n e).port n = (s.port n).count 13 1 ∧
    { s.recordWrite n e with ports := s.ports, pump := s.pump, evq := s.evq } = s := by
  have run : s.recordWrite n e = (s.dropCount n).dropRef e.head := by
    unfold State.recordWrite
    rw [← ring, ← tail]
    exact if_pos (by simpa using full)
  rw [run]
  obtain ⟨⟨hTail, hDrops, hAlarm⟩, port, rest⟩ := s.dropCount_spec n
  generalize s.dropCount n = u at *
  obtain ⟨rxTail, rxDrops, alarm⟩ := u.dropRef_pump e.head
  have drop := u.dropRef_rest e.head
  generalize u.dropRef e.head = t at *
  refine ⟨?_, ?_, ?_, ?_, ?_⟩
  · rw [State.rxTailOf, rxTail, hTail, tail]
    rfl
  · rw [rxDrops, hDrops]
    refine (tget_tset _ _ _ _ _).trans ((if_pos rfl).trans ?_)
    unfold satInc
    split <;> split <;> omega
  · rw [alarm, hAlarm]
    rw [bit_eq_testBit, Nat.testBit_or, Nat.testBit_two_pow_self, Bool.or_true]
  · have ports : t.ports = u.ports := (congrArg State.ports drop :)
    rw [State.port, ports]
    exact port
  · let g : State → State := fun t => { t with ports := s.ports, pump := s.pump, evq := s.evq }
    exact ((congrArg g drop :) : _ = g u).trans rest

end Record

/-! ### What a lane is left driving -/

section Drives

/-- Port `m` has driven `w` and its counters `cs` have counted one, the others none. -/
structure Drives (m : Nat) (w : List Nat) (poison : Bool) (cs : List Nat) (s t : State) : Prop where
  wire : (t.port m).wire = w
  poison : (t.port m).wirePoison = poison
  cnt : ∀ j, tget 0 (t.port m).cnt j =
    if j ∈ cs then (tget 0 (s.port m).cnt j + 1) % 2 ^ 32 else tget 0 (s.port m).cnt j

variable {m : Nat} {w : List Nat} {po : Bool} {cs : List Nat} {s t u : State}

theorem Drives.count (h : Drives m w po cs s t) {k : Nat} (new : k ∉ cs) : Drives m w po (k :: cs) s (t.portCount m k 1) := by
  obtain ⟨wire, poison, cnt⟩ := h
  have port := (t.port_portCount m k 1 m).trans (if_pos rfl)
  refine ⟨by rw [port]; exact wire, by rw [port]; exact poison, fun j => ?_⟩
  rw [port, tget_count, cnt j]
  by_cases same : k = j
  · subst same
    simp [new]
  · simp [same, Ne.symm same]

/-- The bypass drives its wire over what was driven before. -/
theorem Drives.drive {v : List Nat} {po' : Bool} (h : Drives m v po' cs s t) (n : Nat) (w : List Nat) (half : Option Nat) (po : Bool) :
    Drives m w po cs s (t.bypassDrive n m (w, half) po) := by
  obtain ⟨-, -, cnt⟩ := h
  refine ⟨?_, ?_, fun j => ?_⟩
  · rw [State.bypassDrive, State.port_modPort_same]
  · rw [State.bypassDrive, State.port_modPort_same]
  · rw [State.bypassDrive, State.port_modPort_same, State.port_modPort]
    by_cases same : n = m
    · subst same
      rw [if_pos rfl]
      exact cnt j
    · rw [if_neg same]
      exact cnt j

theorem Drives.of_port (port : t.port m = s.port m) : Drives m (s.port m).wire (s.port m).wirePoison [] s t :=
  ⟨by rw [port], by rw [port], fun j => by rw [port]; simp⟩

theorem Drives.before (h : Drives m w po cs t u) (cnt : (t.port m).cnt = (s.port m).cnt) : Drives m w po cs s u :=
  ⟨h.wire, h.poison, fun j => by rw [h.cnt j, cnt]⟩

theorem Drives.after (h : Drives m w po cs s t) (port : u.port m = t.port m) : Drives m w po cs s u :=
  ⟨by rw [port]; exact h.wire, by rw [port]; exact h.poison, fun j => by rw [port]; exact h.cnt j⟩

end Drives

/-! ### The frame's own four check bytes (R299) -/

theorem toBytes_ofBytes {l : List Nat} (small : ∀ b ∈ l, b < 256) : toBytes l.length (ofBytes l) = l := by
  induction l with
  | nil => rfl
  | cons b l ih =>
    have low : b < 256 := small b (by simp)
    rw [List.length_cons, toBytes, ofBytes]
    have first : (b + 256 * ofBytes l) % 256 = b := by omega
    have rest : (b + 256 * ofBytes l) / 256 = ofBytes l := by omega
    rw [first, rest, ih (fun c mem => small c (by simp [mem]))]

/-- A frame with a good FCS is its own sealed body. -/
theorem sealed_bodyOf {bs : List Nat} (good : fcsGood bs = true) (small : ∀ b ∈ bs, b < 256) : sealed_ (bodyOf bs) = bs := by
  simp only [fcsGood, Bool.and_eq_true, decide_eq_true_eq, beq_iff_eq] at good
  obtain ⟨four, fcs⟩ := good
  have length : (bs.drop (bs.length - 4)).length = 4 := by
    rw [List.length_drop]
    omega
  have back := toBytes_ofBytes (l := bs.drop (bs.length - 4)) (fun b mem => small b (List.mem_of_mem_drop mem))
  rw [length, fcs] at back
  rw [sealed_, back]
  exact List.take_append_drop _ _

theorem frameBytes_lt (f : RxFrame) : ∀ b ∈ f.bytes.map (·.toNat), b < 256 := by
  intro b mem
  obtain ⟨x, -, rfl⟩ := List.mem_map.mp mem
  exact x.isLt

/-! ### The bypass of a pair (R316-R321) -/

section Bypass

variable {s a : State} {n m : Nat} {f : RxFrame} {bs : List Nat} {i : RxInfo} {ti ei : Nat}

theorem State.port_countTap (s : State) (g tap m : Nat) : (s.countTap g tap).port m = s.port m := rfl

theorem State.fwdSend_whole (hbs : bs = f.bytes.map (·.toNat)) (early : f.early = none) (plain : bit (a.pairCfg n m) 9 = false)
    (fits : bs.length ≤ a.maxLen m) (j : Nat) : a.fwdSend n m f i ti ei (.sent j) =
      if i.fcsBad || i.rxEr then
        (((a.countTap (groupOf m) f.egressTap).portCount m 22 1).bypassDrive n m (poisoned (bodyOf bs), none) true).portCount m 25 1
      else ((a.countTap (groupOf m) f.egressTap).portCount m 22 1).bypassDrive n m (sealed_ (bodyOf bs), none) false := by
  have edit : a.fwdEdit n m f bs.length ti ei = none := by
    rw [State.fwdEdit, plain]
    rfl
  have short : ¬ a.maxLen m < bs.length := by omega
  unfold State.fwdSend
  rw [← hbs, early]
  dsimp only [Option.getD_none, Option.isSome_none]
  rw [edit]
  simp only [short, decide_false, Bool.false_and, Bool.false_eq_true, if_false, State.editCount, Option.map_none,
    Option.getD_none]

/-- A frame that ends early where reception stopped is cut after what has been sent (R318). -/
theorem State.fwdSend_early (hbs : bs = f.bytes.map (·.toNat)) {k : Nat} (early : f.early = some k)
    (plain : bit (a.pairCfg n m) 9 = false) (through : bit (a.pairCfg n m) 8 = false) (rate : a.rate n = 2) (started : 25 ≤ k)
    (fits : bs.length ≤ a.maxLen m) (j : Nat) : a.fwdSend n m f i ti ei (.sent j) =
      ((a.countTap (groupOf m) f.egressTap).bypassDrive n m (poisoned (bs.take (k - 25)), none) true).portCount m 23 1 := by
  have edit : a.fwdEdit n m f k ti ei = none := by
    rw [State.fwdEdit, plain]
    rfl
  have delay : fwdTransfers (a.pairCfg n m) 2 = 25 := by
    rw [fwdTransfers, through]
    rfl
  have sfd : sfdBy (a.pairCfg n m) 2 k = true := by
    rw [sfdBy, delay]
    simpa using started
  have sent : sentBy (a.pairCfg n m) 2 k = k - 25 := by
    rw [sentBy, delay]
    rfl
  have short : ¬ a.maxLen m < bs.length := by omega
  have whole : bodyOf bs ++ bs.drop (bodyOf bs).length = bs := by
    have length : (bodyOf bs).length = bs.length - 4 := by
      rw [bodyOf, List.length_take]
      omega
    rw [length]
    exact List.take_append_drop _ _
  unfold State.fwdSend
  rw [← hbs, early, rate]
  dsimp only [Option.getD_some, Option.isSome_some]
  rw [edit, sfd, sent]
  simp only [short, decide_false, Bool.false_and, Bool.not_true, Bool.and_false, Bool.false_eq_true, if_false, State.editCount,
    Option.map_none, Option.getD_none, Bool.not_false, Bool.and_true, if_true, whole, cutWire]

/-- A frame refused after its start is cut after 21 bytes (R318). -/
theorem State.fwdSend_cut (hbs : bs = f.bytes.map (·.toNat)) (plain : bit (a.pairCfg n m) 9 = false)
    (through : bit (a.pairCfg n m) 8 = true) (rate : a.rate n = 2) (long : 24 ≤ bs.length) (j : Nat) :
    a.fwdSend n m f i ti ei (.cut j) =
      ((a.countTap (groupOf m) f.egressTap).bypassDrive n m (poisoned (bs.take 21), none) true).portCount m 23 1 := by
  have sent : sentBy (a.pairCfg n m) 2 (min bs.length 24) = 21 := by
    rw [sentBy, fwdTransfers, through, plain, min_eq_right long]
    rfl
  unfold State.fwdSend
  rw [← hbs, rate]
  dsimp only
  rw [sent]
  rfl

/-- What is left of the reception leaves the egress alone, but for a deferral counted there (R317). -/
theorem State.rxClose_egress {fw : Fwd} (other : m ≠ n) (guarded paused : Bool) :
    (a.rxClose n m f i fw ti ei guarded paused).port m = a.port m ∨
    ((∃ j, fw = .deferred j) ∧ (a.rxClose n m f i fw ti ei guarded paused).port m = (a.port m).count 24 1) := by
  have count (b : State) (k d : Nat) : (b.portCount n k d).port m = b.port m :=
    (b.port_portCount n k d m).trans (if_neg other.symm)
  have counts (ks : List Nat) (b : State) : (ks.foldl (fun s k => s.portCount n k 1) b).port m = b.port m := by
    induction ks generalizing b with
    | nil => rfl
    | cons k ks ih => rw [List.foldl_cons, ih, count]
  have work {b u : State} (h : PumpWork b u) : u.port m = b.port m := h.port m
  have store (b : State) (cs : List Nat) (status : Nat) (deliver defer : Bool) :
      (b.rxStore n f i cs status ti ei deliver defer guarded paused).port m = b.port m := by
    unfold State.rxStore
    dsimp only
    rw [State.port_modPort, if_neg other.symm, work (PumpWork.bufWrite _ _ _ _), work (PumpWork.linkCells _ _ _)]
  have mark : (a.rxMark n i (f.bytes.map (·.toNat))).port m = a.port m := by
    unfold State.rxMark
    dsimp only
    split <;> split <;> simp only [State.port_modPort, if_neg other.symm]
  unfold State.rxClose
  extract_lets bs fate b1 b defer status
  have hb : b.port m = a.port m := mark
  have hdefer : defer = true → ∃ j, fw = .deferred j := by
    cases fw <;> simp [defer]
  have cellsWork := PumpWork.rxCells b n (min i.len 16000)
  clear_value b defer fate status
  clear mark
  split
  · exact .inl (((work (PumpWork.unreserve _ n)).trans (count _ _ _)).trans hb)
  generalize b.rxCells n (min i.len 16000) = r at *
  obtain ⟨cells, u⟩ := r
  have hu : u.port m = a.port m := (work cellsWork).trans hb
  cases cells with
  | none =>
    refine .inl ?_
    dsimp only
    split
    · exact (counts _ u).trans hu
    · rw [count, count, counts, hu]
  | some cs =>
    dsimp -zeta only
    extract_lets u1 u2 u3 u4
    have hu1 : u1.port m = a.port m := (counts _ u).trans hu
    have hu2 : u2.port m = a.port m := by
      simp only [u2]
      split
      · rw [count, hu1]
      · exact hu1
    have hu3 : u3.port m = a.port m := by
      simp only [u3]
      split
      · exact hu2
      · rw [count, hu2]
    rw [store]
    cases deferred : defer with
    | false =>
      refine .inl ?_
      simp only [u4, deferred]
      exact hu3
    | true =>
      refine .inr ⟨hdefer deferred, ?_⟩
      simp only [u4, deferred, if_true]
      rw [State.port_portCount, if_pos rfl, hu3]
      rfl

theorem State.ringPair_ne (pair : s.ringPair n = some m) : m ≠ n := by
  unfold State.ringPair at pair
  dsimp only at pair
  split at pair
  · next formed =>
    cases pair
    simp only [State.namedPair, Bool.and_eq_true, bne_iff_ne] at formed
    exact formed.1.1.1.1.1.1.1.1.1
  · cases pair

theorem State.port_rxSfd (other : m ≠ n) : (s.rxSfd n f).port m = s.port m :=
  (State.port_modPort _ _ _ _).trans (if_neg other.symm)

theorem State.gateAdmits_congr (preg : ∀ k o, a.preg k o = s.preg k o) (port : a.port m = s.port m)
    (copies : a.tb.gcopies = s.tb.gcopies) (c l : Nat) : a.gateAdmits m c l = s.gateAdmits m c l := by
  have time : a.groupTime m = s.groupTime m := by rw [State.groupTime, copies, State.groupTime]
  have base (t : Nat) : a.gateBase m t = s.gateBase m t := by rw [State.gateBase, preg, preg, State.gateBase]
  have place : a.gateSelect m = s.gateSelect m := by
    funext words t
    rw [State.gateSelect, base, State.gateSelect]
  have byte : a.byteNs m = s.byteNs m := by rw [State.byteNs, State.rate, preg, State.byteNs, State.rate]
  unfold State.gateAdmits
  rw [port, time, byte, place]

/-- What the decision of R317 reads: registers, the egress port, the ingress port's addresses, the group's time, TXHOLD. -/
theorem State.decideFwd_congr (preg : ∀ k o, a.preg k o = s.preg k o) (port : a.port m = s.port m)
    (entries : (a.port n).exact = (s.port n).exact) (copies : a.tb.gcopies = s.tb.gcopies)
    (elapsed : a.tb.elapsed = s.tb.elapsed) (held : a.mf.txhold = s.mf.txhold) (hit : Bool) :
    a.decideFwd n m bs hit = s.decideFwd n m bs hit := by
  have cfg : a.pairCfg n m = s.pairCfg n m := preg _ _
  have kind : a.ptKind n = s.ptKind n := by rw [State.ptKind, preg, State.ptKind]
  have busy : a.txBusy m = s.txBusy m := by rw [State.txBusy, port, elapsed, State.txBusy]
  have txHeld : a.txHeld m = s.txHeld m := by rw [State.txHeld, held, State.txHeld]
  have paused (c : Nat) : a.pausedClass m c = s.pausedClass m c := by
    rw [State.pausedClass, port, preg, State.pausedClass]
  have fits : a.maxLen m = s.maxLen m := by rw [State.maxLen, preg, State.maxLen]
  have own (x : Nat) : a.ownAddr n x = s.ownAddr n x := by
    rw [State.ownAddr, State.exactHits, entries, State.ownAddr, State.exactHits]
  have refused : a.fwdRefused n (s.pairCfg n m) (s.ptKind n) bs = s.fwdRefused n (s.pairCfg n m) (s.ptKind n) bs := by
    rw [State.fwdRefused, own, own, State.fwdRefused]
  rw [State.decideFwd, cfg, kind, busy, txHeld, paused, fits, State.gateAdmits_congr preg port copies, refused,
    State.decideFwd]

theorem State.decideFwd_rxSfd (other : m ≠ n) (bs : List Nat) (hit : Bool) :
    (s.rxSfd n f).decideFwd n m bs hit = s.decideFwd n m bs hit := by
  refine State.decideFwd_congr (PortWork.rxSfd s n f).preg (State.port_rxSfd other) ?_ rfl rfl rfl hit
  rw [State.rxSfd, State.port_modPort_same]
  rfl

theorem State.rxFwd_pair (pair : s.ringPair n = some m) : s.rxFwd n f m = s.decideFwd n m (f.bytes.map (·.toNat)) false := by
  rw [State.rxFwd, pair]
  exact State.decideFwd_rxSfd (State.ringPair_ne pair) _ _

end Bypass

section Pair

variable {s : State} {n : Fin 32} {m : Nat} {f : RxFrame} {bs : List Nat} (h : Receives s n f) (pair : s.ringPair n = some m)
  (kind : s.ptKind n = 1) (hbs : bs = f.bytes.map (·.toNat))

include pair kind hbs in
theorem State.rxFrame_pair : s.rxFrame n f =
    (((s.rxDecide n f).rxMeet n m true (s.decideFwd n m bs false)).fwdSend n m f (s.rxInfo n f) (s.stamp n f.tap false)
      s.tb.epoch (s.decideFwd n m bs false)).rxClose n m f (s.rxInfo n f) (s.decideFwd n m bs false) (s.stamp n f.tap false)
      s.tb.epoch ((s.rxDecide n f).deferWhy n m (s.decideFwd n m bs false)).1
      ((s.rxDecide n f).deferWhy n m (s.decideFwd n m bs false)).2 := by
  have run := State.rxFrame_plain (s := s) (n := n.val) (f := f) (fun _ => by rw [kind]; decide) (m := m) (by rw [pair]; rfl)
  rw [State.rxFwd_pair pair, ← hbs, pair] at run
  exact run

include h pair kind hbs in
/-- A frame that the bypass starts leaves its egress as `fwdSend` drives it. -/
theorem exec_rxFrame_started {w : List Nat} {po : Bool} {cs : List Nat}
    (now : ∀ j, s.decideFwd n m bs false ≠ .deferred j)
    (drives : ∀ a, PortWork s a → Drives m w po cs a
      (a.fwdSend n m f (s.rxInfo n f) (s.stamp n f.tap false) s.tb.epoch (s.decideFwd n m bs false))) :
    Answers (.rxFrame n f) s (fun t => Drives m w po cs s t) := by
  have other := State.ringPair_ne pair
  refine ⟨_, exec_rxFrame h, ?_⟩
  dsimp only
  rw [State.rxFrame_pair pair kind hbs]
  have why (a : State) : a.deferWhy n m (s.decideFwd n m bs false) = (false, false) := by
    cases hfw : s.decideFwd n m bs false with
    | deferred j => exact absurd hfw (now j)
    | none => rfl
    | sent j => rfl
    | cut j => rfl
  have meet : (s.rxDecide n f).rxMeet n m true (s.decideFwd n m bs false) = (s.rxDecide n f).holdLocal n m := by
    unfold State.rxMeet
    rw [why]
    rfl
  have hold (a : State) : PortWork a (a.holdLocal n m) ∧ ((a.holdLocal n m).port m).cnt = (a.port m).cnt := by
    unfold State.holdLocal
    split
    · refine ⟨PortWork.modPort _ _ _, ?_⟩
      rw [State.port_modPort_same]
    · exact ⟨rfl, rfl⟩
  obtain ⟨work, cnt⟩ := hold (s.rxDecide n f)
  have port : (s.rxDecide n f).port m = s.port m := by
    rw [State.rxDecide, State.port_modPort, if_neg other.symm, State.port_rxSfd other]
  rw [meet, why]
  have driven := drives _ ((PortWork.rxDecide s n f).trans work)
  refine Drives.after (driven.before (by rw [cnt, port])) ?_
  obtain same | ⟨⟨j, deferred⟩, -⟩ := State.rxClose_egress other false false
  · exact same
  · exact absurd deferred (now j)

end Pair

end Sys2Proof.Machine

/-!
SUPPORT. The clauses of O30: forwarding of a pair, reception's end, the reserved cell; and its proof.
-/

namespace Sys2Proof.Machine

section Decision

variable {s : State} {n m : Nat} {bs : List Nat}

/-- A pass-through frame that no rule of R317 refuses. -/
theorem State.fwdRefused_false {cfg : Nat} (long : 18 ≤ bs.length) (source : s.ownAddr n (saOf bs) = false)
    (dest : s.ownAddr n (daOf bs) = true → bit (bs.getD 0 0) 0 = true ∨ bit cfg 10 = true) :
    s.fwdRefused n cfg 1 bs = false := by
  have dest' : (s.ownAddr n (daOf bs) && !bit (bs.getD 0 0) 0 && !bit cfg 10) = false := by
    cases own : s.ownAddr n (daOf bs) with
    | false => rfl
    | true => 
      obtain group | any := dest own
      · rw [group, Bool.not_true, Bool.and_false, Bool.false_and]
      · rw [any, Bool.not_true, Bool.and_false]
  have short : ¬ bs.length < 18 := by omega
  rw [State.fwdRefused, source, dest']
  simp [short]

variable (through : bit (s.pairCfg n m) 7 = true)

include through in
theorem State.decideFwd_start (other : s.ptKind n ≠ 3) (free : s.txBusy m = false) (held : s.txHeld m = false)
    (running : s.pausedClass m (bits (s.pairCfg n m) 14 12) = false)
    (admits : s.gateAdmits m (bits (s.pairCfg n m) 14 12) (s.maxLen m) = true) :
    s.decideFwd n m bs false = if s.fwdRefused n (s.pairCfg n m) (s.ptKind n) bs = false then .sent m
      else if bit (s.pairCfg n m) 8 then .cut m else .none := by
  unfold State.decideFwd
  dsimp only
  rw [through, free, held, running, admits]
  simp [other]

include through in
/-- An egress that is busy, held, paused or closed defers what is not refused (R317). -/
theorem State.decideFwd_deferred (other : s.ptKind n ≠ 3)
    (stopped : s.txBusy m = true ∨ s.txHeld m = true ∨ s.pausedClass m (bits (s.pairCfg n m) 14 12) = true ∨
      s.gateAdmits m (bits (s.pairCfg n m) 14 12) (s.maxLen m) = false)
    (open_ : s.fwdRefused n (s.pairCfg n m) (s.ptKind n) bs = false) : s.decideFwd n m bs false = .deferred m := by
  have closed : (!s.txBusy m && !s.txHeld m && !s.pausedClass m (bits (s.pairCfg n m) 14 12) &&
      s.gateAdmits m (bits (s.pairCfg n m) 14 12) (s.maxLen m)) = false := by
    obtain h | h | h | h := stopped <;> simp [h]
  unfold State.decideFwd
  dsimp only
  rw [closed, through, open_]
  simp [other]

end Decision

/-- A deferred frame drives nothing yet. -/
theorem State.fwdSend_deferred (a : State) (n m : Nat) (f : RxFrame) (i : RxInfo) (ti ei j : Nat) :
    a.fwdSend n m f i ti ei (.deferred j) = a := rfl

/-! ### A ring pair forwards (R316-R321) -/

section Forward

variable {s : State} {n : Fin 32} {m : Nat} {f : RxFrame} {bs : List Nat} (h : Receives s n f) (pair : s.ringPair n = some m)
  (kind : s.ptKind n = 1) (hbs : bs = f.bytes.map (·.toNat)) (through : bit (s.pairCfg n m) 7 = true)
  (plain : bit (s.pairCfg n m) 9 = false) (free : s.txBusy m = false) (held : s.txHeld m = false)
  (running : s.pausedClass m (bits (s.pairCfg n m) 14 12) = false)
  (admits : s.gateAdmits m (bits (s.pairCfg n m) 14 12) (s.maxLen m) = true)

include kind through free held running admits in
theorem State.decideFwd_sent (long : 18 ≤ bs.length) (source : s.ownAddr n (saOf bs) = false)
    (dest : s.ownAddr n (daOf bs) = true → bit (bs.getD 0 0) 0 = true ∨ bit (s.pairCfg n m) 10 = true) :
    s.decideFwd n m bs false = .sent m := by
  rw [State.decideFwd_start through (by rw [kind]; decide) free held running admits, kind,
    State.fwdRefused_false long source dest]
  rfl

include h pair kind hbs through plain free held running admits

theorem exec_rxFrame_whole (whole : f.early = none) (long : 18 ≤ bs.length) (fits : bs.length ≤ s.maxLen m)
    (source : s.ownAddr n (saOf bs) = false)
    (dest : s.ownAddr n (daOf bs) = true → bit (bs.getD 0 0) 0 = true ∨ bit (s.pairCfg n m) 10 = true) :
    Answers (.rxFrame n f) s (fun t => if (s.rxInfo n f).fcsBad || (s.rxInfo n f).rxEr
      then Drives m (poisoned (bodyOf bs)) true [25, 22] s t else Drives m (sealed_ (bodyOf bs)) false [22] s t) := by
  have sent := State.decideFwd_sent (bs := bs) kind through free held running admits long source dest
  have now (j : Nat) : s.decideFwd n m bs false ≠ .deferred j := by simp [sent]
  have run (a : State) (work : PortWork s a) := State.fwdSend_whole (a := a) (n := n) (i := s.rxInfo n f)
    (ti := s.stamp n f.tap false) (ei := s.tb.epoch) hbs whole ((congrArg (bit · 9) (work.preg _ _)).trans plain)
    (fits.trans_eq (by simp only [State.maxLen, work.preg])) m
  have counted (a : State) : Drives m (a.port m).wire (a.port m).wirePoison [22] a
      ((a.countTap (groupOf m) f.egressTap).portCount m 22 1) :=
    (Drives.of_port (State.port_countTap _ _ _ _)).count (by simp)
  split
  · next bad =>
    refine exec_rxFrame_started h pair kind hbs now fun a work => ?_
    rw [sent, run a work, if_pos bad]
    exact ((counted a).drive n _ _ true).count (by simp)
  · next good =>
    refine exec_rxFrame_started h pair kind hbs now fun a work => ?_
    rw [sent, run a work, if_neg good]
    exact (counted a).drive n _ _ false

theorem exec_rxFrame_early {k : Nat} (store : bit (s.pairCfg n m) 8 = false) (rate : s.rate n = 2) (early : f.early = some k)
    (started : 25 ≤ k) (long : 18 ≤ bs.length) (fits : bs.length ≤ s.maxLen m)
    (source : s.ownAddr n (saOf bs) = false)
    (dest : s.ownAddr n (daOf bs) = true → bit (bs.getD 0 0) 0 = true ∨ bit (s.pairCfg n m) 10 = true) :
    Answers (.rxFrame n f) s (fun t => Drives m (poisoned (bs.take (k - 25))) true [23] s t) := by
  have sent := State.decideFwd_sent (bs := bs) kind through free held running admits long source dest
  refine exec_rxFrame_started h pair kind hbs (fun j => by simp [sent]) fun a work => ?_
  rw [sent, State.fwdSend_early hbs early ((congrArg (bit · 9) (work.preg _ _)).trans plain)
    ((congrArg (bit · 8) (work.preg _ _)).trans store) ((by rw [State.rate, work.preg]; exact rate)) started
    (fits.trans_eq (by simp only [State.maxLen, work.preg]))]
  exact ((Drives.of_port (State.port_countTap _ _ _ _)).drive n _ _ true).count (by simp)

theorem exec_rxFrame_refused (cut : bit (s.pairCfg n m) 8 = true) (rate : s.rate n = 2) (long : 24 ≤ bs.length)
    (source : s.ownAddr n (saOf bs) = true) :
    Answers (.rxFrame n f) s (fun t => Drives m (poisoned (bs.take 21)) true [23] s t) := by
  have refused : s.fwdRefused n (s.pairCfg n m) (s.ptKind n) bs = true := by
    rw [State.fwdRefused, source]
    rfl
  have cuts : s.decideFwd n m bs false = .cut m := by
    rw [State.decideFwd_start through (by rw [kind]; decide) free held running admits, refused, cut]
    rfl
  refine exec_rxFrame_started h pair kind hbs (fun j => by simp [cuts]) fun a work => ?_
  rw [cuts, State.fwdSend_cut hbs ((congrArg (bit · 9) (work.preg _ _)).trans plain)
    ((congrArg (bit · 8) (work.preg _ _)).trans cut) ((by rw [State.rate, work.preg]; exact rate)) long]
  exact ((Drives.of_port (State.port_countTap _ _ _ _)).drive n _ _ true).count (by simp)

omit plain held admits in
/-- A frame that its egress's gate holds counts the guard there and drives nothing (R317, R338). -/
theorem exec_rxFrame_guarded (open_ : s.fwdRefused n (s.pairCfg n m) (s.ptKind n) bs = false)
    (closed : s.gateAdmits m (bits (s.pairCfg n m) 14 12) (s.maxLen m) = false) :
    Answers (.rxFrame n f) s (fun t => tget 0 (t.port m).cnt 21 = (tget 0 (s.port m).cnt 21 + 1) % 2 ^ 32 ∧
      (t.port m).wire = (s.port m).wire) := by
  have other := State.ringPair_ne pair
  have deferred : s.decideFwd n m bs false = .deferred m :=
    State.decideFwd_deferred through (by rw [kind]; decide) (.inr (.inr (.inr closed))) open_
  refine ⟨_, exec_rxFrame h, ?_⟩
  dsimp only
  rw [State.rxFrame_pair pair kind hbs, deferred]
  have port : (s.rxDecide n f).port m = s.port m := by
    rw [State.rxDecide, State.port_modPort, if_neg other.symm, State.port_rxSfd other]
  have work := PortWork.rxDecide s n f
  have copies : (s.rxDecide n f).tb.gcopies = s.tb.gcopies := rfl
  have elapsed : (s.rxDecide n f).tb.elapsed = s.tb.elapsed := rfl
  generalize s.rxDecide n f = a at *
  have why : a.deferWhy n m (.deferred m) = (true, false) := by
    have cfg : a.pairCfg n m = s.pairCfg n m := work.preg _ _
    have busy : a.txBusy m = false := by rw [State.txBusy, port, elapsed]; exact free
    have paused : a.pausedClass m (bits (s.pairCfg n m) 14 12) = false := by
      rw [State.pausedClass, port, work.preg]
      exact running
    have admits : a.gateAdmits m (bits (s.pairCfg n m) 14 12) (a.maxLen m) = false := by
      rw [State.gateAdmits_congr work.preg port copies, State.maxLen, work.preg]
      exact closed
    unfold State.deferWhy
    dsimp only
    rw [cfg, busy, paused, admits]
    rfl
  have meet : a.rxMeet n m true (.deferred m) = (a.portCount m 21 1).holdLocal n m := by
    rw [State.rxMeet, why]
    rfl
  have hold (u : State) : ((u.holdLocal n m).port m).cnt = (u.port m).cnt ∧ ((u.holdLocal n m).port m).wire = (u.port m).wire := by
    unfold State.holdLocal
    split
    · rw [State.port_modPort_same]
      exact ⟨rfl, rfl⟩
    · exact ⟨rfl, rfl⟩
  obtain ⟨cnt, wire⟩ := hold (a.portCount m 21 1)
  have counted : tget 0 (((a.portCount m 21 1).holdLocal n m).port m).cnt 21 = (tget 0 (s.port m).cnt 21 + 1) % 2 ^ 32 := by
    rw [cnt, State.port_portCount, if_pos rfl, tget_count, if_pos rfl, port]
  have same : (((a.portCount m 21 1).holdLocal n m).port m).wire = (s.port m).wire := by
    rw [wire, State.port_portCount, if_pos rfl, port]
  rw [meet, State.fwdSend_deferred]
  obtain left | ⟨-, left⟩ := State.rxClose_egress (a := (a.portCount m 21 1).holdLocal n m) (f := f) (i := s.rxInfo n f)
    (ti := s.stamp n f.tap false) (ei := s.tb.epoch) (fw := .deferred m) other (a.deferWhy n m (.deferred m)).1
    (a.deferWhy n m (.deferred m)).2
  · rw [left]
    exact ⟨counted, same⟩
  · rw [left, PortSt.cnt_count, if_neg (by decide)]
    exact ⟨counted, same⟩

end Forward

/-! ### The end of reception and the reserved cell (R306, R413) -/

theorem State.rxEnds_single {s : State} {n : Nat} {p : PortSt} (only : s.ports = [(n, p)]) (on : p.rxOn = true)
    (due : p.rxTill ≤ s.tb.elapsed) :
    s.rxEnds = { s.raiseLevel (srcFs n) false false with
      ports := tput s.ports n { p with
        rxOn := false
        ends := p.ends.map (fun r => if r.at_.isNone then { r with at_ := some s.strokes } else r)
        pause := p.pauseX.getD p.pause, pauseAt := if p.pauseX.isSome then p.rxTill else p.pauseAt, pauseX := none } } := by
  have list : s.ports.filter (fun e => e.2.rxOn && decide (e.2.rxTill ≤ s.tb.elapsed)) = [(n, p)] := by
    rw [only]
    simp [on, due]
  rw [State.rxEnds, list]
  rfl

theorem exec_cellReserve {s u : State} {n : Fin 32} {c : Nat} (bound : bit (s.rxBind n) 7 = true) (lane : s.laneMode n = true)
    (empty : tfind s.pump.rxResv n = none) (taken : s.takeCell = some (c, u)) : exec (.cellReserve n) s =
      .next ((u.modCell c (fun e => { e with resv := true })).modPump (fun p => { p with rxResv := tput p.rxResv n c })) := by
  show execCellReserve n s = _
  rw [execCellReserve, bound, lane, empty, taken]
  rfl

/-- Settles O30: the ring forwards, cuts or defers by the one decision of R317; a record finds its place or is dropped. -/
theorem framesForwardedRecordedAndPaused : Obligations.FramesForwardedRecordedAndPaused := by
  unfold Obligations.FramesForwardedRecordedAndPaused
  refine ⟨fun n m f bs cfg s h pair kind hcfg through plain hbs room clean early long fits fcs free held running admits source dest =>
      ?good,
    fun n m f bs cfg s h pair kind hcfg through plain hbs room early long fits bad free held running admits source dest => ?bad,
    fun n m k f bs cfg s h pair kind hcfg through store plain rate hbs early started long fits free held running admits source dest =>
      ?early,
    fun n m f bs cfg s h pair kind hcfg through cut plain rate hbs long free held running admits source => ?cut,
    fun n m bs s named through other stopped open_ => State.decideFwd_deferred through other stopped open_,
    fun n m f bs cfg s h pair kind hcfg through hbs open_ free running closed => ?guarded,
    fun n e es lb base size tl s first crossed deliver now bound hlb serves ring tail room => ?recorded,
    fun n e es base size tl s first crossed deliver now bound ring tail full => ?dropped,
    fun n e es s first crossed sink now => ?sunk,
    fun n e es s first crossed sink later on => ?queued,
    fun n e es s first early => exec_frameRecord_early first early,
    fun n p s only on due => ?ends,
    fun h s => ⟨State.dropRef_shared, fun last => ?freed⟩,
    fun n c s u bound lane empty taken => ?reserve, fun n s => ?timer⟩
  case good =>
    subst hcfg
    obtain ⟨t, run, driven⟩ := exec_rxFrame_whole h pair kind hbs through plain free held running admits early long fits source dest
    have small : ¬ 16000 < bs.length := by omega
    have fine : ((s.rxInfo n f).fcsBad || (s.rxInfo n f).rxEr) = false := by
      rw [State.rxInfo, clean, ← hbs, fcs]
      simp
    rw [if_neg (by rw [fine]; decide), sealed_bodyOf fcs (by rw [hbs]; exact frameBytes_lt f)] at driven
    obtain ⟨wire, poison, cnt⟩ := driven
    exact ⟨t, run, wire, poison, (cnt 22).trans (if_pos (by simp)), fun k other => (cnt k).trans (if_neg (by simpa using other))⟩
  case bad =>
    subst hcfg
    obtain ⟨t, run, driven⟩ := exec_rxFrame_whole h pair kind hbs through plain free held running admits early long fits source dest
    have damaged : ((s.rxInfo n f).fcsBad || (s.rxInfo n f).rxEr) = true := by
      rw [State.rxInfo, ← hbs]
      obtain fcs | ⟨j, mem, inside⟩ := bad
      · simp [fcs, room]
      · have er : f.er.any (fun i => decide (i < bs.length)) = true := List.any_eq_true.mpr ⟨j, mem, decide_eq_true inside⟩
        simp only [er, Bool.or_true]
    rw [if_pos damaged] at driven
    obtain ⟨wire, poison, cnt⟩ := driven
    exact ⟨t, run, wire, poison, (cnt 22).trans (if_pos (by simp)), (cnt 25).trans (if_pos (by simp))⟩
  case early =>
    subst hcfg
    obtain ⟨t, run, wire, poison, cnt⟩ := exec_rxFrame_early h pair kind hbs through plain free held running admits store rate early
      started long fits source dest
    exact ⟨t, run, wire, poison, (cnt 23).trans (if_pos (by simp))⟩
  case cut =>
    subst hcfg
    obtain ⟨t, run, wire, poison, cnt⟩ := exec_rxFrame_refused h pair kind hbs through plain free held running admits cut rate long
      source
    exact ⟨t, run, wire, poison, (cnt 23).trans (if_pos (by simp))⟩
  case guarded =>
    subst hcfg
    exact exec_rxFrame_guarded h pair kind hbs through free running (by rw [kind]; exact open_) closed
  case recorded =>
    refine ⟨_, exec_frameRecord_write first crossed deliver now bound, ?_⟩
    have rest : { s.modPort n (fun p => { p with ends := es }) with ports := s.ports } = s := rfl
    have port : (s.modPort n (fun p => { p with ends := es })).port n = { s.port n with ends := es } := State.port_modPort_same _ _ _
    obtain ⟨tail', owner, ports, queue, rest'⟩ := State.recordWrite_delivered (s := s.modPort n (fun p => { p with ends := es }))
      (e := e) hlb serves ring tail room
    refine ⟨?_, tail', owner, queue, ?_⟩
    · rw [State.port, ports]
      exact congrArg PortSt.ends port
    · exact (congrArg (fun t : State => { t with ports := s.ports }) rest' :)
  case dropped =>
    refine ⟨_, exec_frameRecord_write first crossed deliver now bound, ?_⟩
    have port : (s.modPort n (fun p => { p with ends := es })).port n = { s.port n with ends := es } := State.port_modPort_same _ _ _
    obtain ⟨tail', drops, alarm, port', rest'⟩ := State.recordWrite_dropped (s := s.modPort n (fun p => { p with ends := es }))
      (e := e) ring tail full
    rw [port] at port'
    refine ⟨?_, tail', drops, alarm, ?_, ?_⟩
    · rw [port']
      rfl
    · rw [port', PortSt.cnt_count, if_pos rfl]
    · exact (congrArg (fun t : State => { t with ports := s.ports }) rest' :)
  case sunk =>
    rw [exec_frameRecord first crossed, now]
    dsimp only [State.recordSink]
    rw [now]
    obtain no | unbound := sink
    · rw [no]
      rfl
    · rw [unbound, Bool.and_false]
      rfl
  case queued =>
    rw [exec_frameRecord first crossed, sink, later, on]
    dsimp only [State.recordSink]
    rw [later]
    rfl
  case ends =>
    rw [State.rxEnds_single only on due]
    refine ⟨(tget_tput_same _ _ _ _).trans ?_, rfl⟩
    simp only [Option.isNone_iff_eq_none]
    cases p.pauseX <;> rfl
  case freed =>
    rw [State.dropRef_last last]
    exact State.returnCells_returned _ _
  case reserve =>
    obtain ⟨free, cell, others, resv, rest⟩ := State.takeCell_spec taken
    refine ⟨_, exec_cellReserve bound lane empty taken, free, ?_, ?_, ?_, fun d other => ?_, ?_⟩
    · exact (tfind_tput _ _ _ _).trans (if_pos rfl)
    · exact (congrArg Cell.resv (State.cell_modCell_same u c (fun e => { e with resv := true })) :)
    · exact (congrArg Cell.used ((State.cell_modCell_same u c (fun e => { e with resv := true })).trans (by rw [cell])) :)
    · exact ((State.cell_modCell u c (fun e => { e with resv := true }) d).trans (if_neg (Ne.symm other))).trans (others d other)
    · exact rest
  case timer =>
    show execPauseTimer n s = _
    unfold execPauseTimer
    dsimp only
    split
    · next due => exact State.act_of (by simpa using due)
    · next idle =>
      unfold State.act
      rw [if_neg (by simpa using idle)]

end Sys2Proof.Machine

/-!
SUPPORT. The transmitter (R298, R308-R312, R321, R337, R338), and the proof of O31.
-/

namespace Sys2Proof.Machine

/-! ### What a frame on its way out keeps -/

section Carries

/-- `t` has the buffers, the registers and port `n`'s queues of `s`, and its counters but those in `ks`. -/
structure Carries (n : Nat) (ks : List Nat) (s t : State) : Prop where
  links : ∀ d, ((t.cell d).last, (t.cell d).next, (t.cell d).len, (t.cell d).fcsb) =
    ((s.cell d).last, (s.cell d).next, (s.cell d).len, (s.cell d).fcsb)
  cis : t.pump.cis = s.pump.cis
  regs : t.regs = s.regs
  queues : (t.port n).queues = (s.port n).queues
  cnt : ∀ j, j ∉ ks → tget 0 (t.port n).cnt j = tget 0 (s.port n).cnt j

variable {n : Nat} {ks ls : List Nat} {s t u : State}

theorem Carries.refl (n : Nat) (ks : List Nat) (s : State) : Carries n ks s s := ⟨fun _ => rfl, rfl, rfl, rfl, fun _ _ => rfl⟩

theorem Carries.trans (h : Carries n ks s t) (k : Carries n ls t u) : Carries n (ks ++ ls) s u where
  links d := (k.links d).trans (h.links d)
  cis := k.cis.trans h.cis
  regs := k.regs.trans h.regs
  queues := k.queues.trans h.queues
  cnt j out := by
    rw [List.mem_append, not_or] at out
    rw [k.cnt j out.2, h.cnt j out.1]

theorem State.chain_congr (links : ∀ d, (t.cell d).last = (s.cell d).last ∧ (t.cell d).next = (s.cell d).next) (k h : Nat) :
    t.chain k h = s.chain k h := by
  induction k generalizing h with
  | zero => rfl
  | succ k ih => rw [State.chain, State.chain, (links h).1, (links h).2, ih]

theorem Carries.read (k : Carries n ks s t) (h o b : Nat) : t.bufRead h o b = s.bufRead h o b := by
  have cells : t.bufCells h = s.bufCells h := State.chain_congr (fun d => by
    have link := k.links d
    simp only [Prod.mk.injEq] at link
    exact ⟨link.1, link.2.1⟩) 64 h
  rw [State.bufRead, State.bufRead, cells, k.cis]

theorem Carries.deferredLen (k : Carries n ks s t) (h f v : Nat) (b : Bool) :
    t.itemLen (.deferred h f v b) = s.itemLen (.deferred h f v b) := by
  have link := k.links h
  simp only [Prod.mk.injEq] at link
  obtain ⟨-, -, len, fcsb⟩ := link
  show (if (t.cell h).fcsb then (t.cell h).len - 4 else (t.cell h).len) = if (s.cell h).fcsb then (s.cell h).len - 4 else (s.cell h).len
  rw [len, fcsb]

theorem Carries.preg (k : Carries n ks s t) (m o : Nat) : t.preg m o = s.preg m o := by
  rw [State.preg, State.preg, State.reg, State.reg, k.regs]

theorem Carries.of (cells : t.pump.cells = s.pump.cells) (cis : t.pump.cis = s.pump.cis) (regs : t.regs = s.regs)
    (ports : t.ports = s.ports) : Carries n [] s t := by
  have cell (d : Nat) : t.cell d = s.cell d := by rw [State.cell, cells, State.cell]
  have port : t.port n = s.port n := by rw [State.port, ports, State.port]
  exact ⟨fun d => by rw [cell], cis, regs, by rw [port], fun j _ => by rw [port]⟩

/-- A change of a cell's tag or of its BAD keeps the buffers. -/
theorem Carries.modCell (s : State) (h : Nat) {f : Cell → Cell}
    (keeps : ∀ c, ((f c).last, (f c).next, (f c).len, (f c).fcsb) = (c.last, c.next, c.len, c.fcsb)) :
    Carries n [] s (s.modCell h f) where
  links d := by
    rw [State.cell_modCell]
    split
    · next same =>
      subst same
      exact keeps _
    · rfl
  cis := rfl
  regs := rfl
  queues := rfl
  cnt _ _ := rfl

theorem Carries.portCount (s : State) (n k d : Nat) : Carries n [k] s (s.portCount n k d) where
  links _ := rfl
  cis := rfl
  regs := rfl
  queues := by rw [State.port_portCount, if_pos rfl]
  cnt j out := by
    rw [State.port_portCount, if_pos rfl, tget_count, if_neg (by simpa [eq_comm] using out)]

theorem Carries.modPort (s : State) (m : Nat) {f : PortSt → PortSt} (queues : ∀ p, (f p).queues = p.queues)
    (cnt : ∀ p, (f p).cnt = p.cnt) : Carries n [] s (s.modPort m f) where
  links _ := rfl
  cis := rfl
  regs := rfl
  queues := by
    rw [State.port_modPort]
    split
    · next same => rw [queues, same]
    · rfl
  cnt j _ := by
    rw [State.port_modPort]
    split
    · next same => rw [cnt, same]
    · rfl

/-- A count on another port, or of counter `k` here. -/
theorem Carries.countAny (s : State) (m k d : Nat) : Carries n [k] s (s.portCount m k d) where
  links _ := rfl
  cis := rfl
  regs := rfl
  queues := by
    rw [State.port_portCount]
    split
    · next same => rw [same]
    · rfl
  cnt j out := by
    rw [State.port_portCount]
    split
    · next same => rw [same, tget_count, if_neg (by simpa [eq_comm] using out)]
    · rfl

theorem Carries.dupAdd (s : State) (low key : Nat) (pending : Bool) : Carries n [30] s (s.dupAdd low key pending) := by
  unfold State.dupAdd
  dsimp only
  split
  · exact ((Carries.modPort s low (by intro p; rfl) (by intro p; rfl)).trans (Carries.countAny _ low 30 1)).trans
      (Carries.modPort _ low (by intro p; rfl) (by intro p; rfl))
  · exact (Carries.refl n [30] s).trans (Carries.modPort _ low (by intro p; rfl) (by intro p; rfl))

theorem Carries.dupConfirm (s : State) (low key : Nat) : Carries n [30] s (s.dupConfirm low key) := by
  unfold State.dupConfirm
  split
  · exact (Carries.refl n [30] s).trans (Carries.modPort _ low (by intro p; rfl) (by intro p; rfl))
  · exact Carries.dupAdd s low key false

theorem Carries.txNote (s : State) (m : Nat) (i : TxItem) (data : List Nat) : Carries n [30] s (s.txNote m i data) := by
  unfold State.txNote
  split
  · split
    · exact Carries.dupConfirm _ _ _
    · exact Carries.refl _ _ _
  · exact Carries.refl _ _ _

theorem Carries.tbAlarm (s : State) (b : Nat) : Carries n [] s (s.tbAlarm b) := Carries.of rfl rfl rfl rfl

theorem Carries.modTsq (s : State) (m : Nat) (f : Tsq → Tsq) : Carries n [] s (s.modTsq m f) := Carries.of rfl rfl rfl rfl

theorem Carries.txStamp (s : State) (m : Nat) (asked : Bool) (v : Nat) : Carries n [] s (s.txStamp m asked v).2.2 := by
  unfold State.txStamp
  split
  · unfold State.tsqPut
    dsimp only
    split
    · dsimp only
      exact (Carries.modTsq s m _).trans (Carries.modTsq _ m _)
    · dsimp only
      exact ((Carries.modTsq s m _).trans (Carries.modTsq _ m _)).trans (Carries.tbAlarm _ 2)
  · exact Carries.refl _ _ _

theorem Carries.tagFault (s : State) (h : Nat) (ch : Option Nat) : Carries n [] s (s.tagFault h ch) := by
  unfold State.tagFault
  extract_lets bref u v w
  have bad : Carries n [] s u := Carries.modCell s h (by intro c; rfl)
  have counted : Carries n [] u v := by
    cases ch with
    | none => exact Carries.refl _ _ _
    | some i => exact Carries.of rfl rfl rfl rfl
  have total : Carries n [] v w := Carries.of rfl rfl rfl rfl
  clear_value u v w
  exact ((bad.trans counted).trans total).trans (Carries.of rfl rfl rfl rfl)

theorem Carries.tagCheck (s : State) (h : Nat) (ch : Option Nat) : Carries n [] s (s.tagCheck h ch).2 := by
  unfold State.tagCheck State.tagCheckAs
  split
  · dsimp only
    exact Carries.modCell s h (by intro c; rfl)
  · split
    · exact Carries.refl _ _ _
    · exact Carries.tagFault s h ch

/-- The tag check answers from TGEN and the tag (R410). -/
theorem State.tagCheck_fst (s : State) (h : Nat) (ch : Option Nat) :
    (s.tagCheck h ch).1 = ((s.cell h).tgen || decide (s.tagNow h = (s.cell h).tag)) := by
  unfold State.tagCheck State.tagCheckAs
  split
  · next generated => rw [generated, Bool.true_or]
  · next fixed =>
    rw [Bool.eq_false_iff.mpr fixed, Bool.false_or]
    split
    · next right => rw [decide_eq_true right]
    · next wrong => rw [decide_eq_false wrong]

/-- Buffers are read from the pump and its check bits alone. -/
theorem State.bufUe_congr (pump : t.pump = s.pump) (ecc : t.ecc = s.ecc) (h o b : Nat) : t.bufUe h o b = s.bufUe h o b := by
  have cell (d : Nat) : t.cell d = s.cell d := by rw [State.cell, pump, State.cell]
  have cells : t.bufCells h = s.bufCells h := State.chain_congr (fun d => by rw [cell]; exact ⟨rfl, rfl⟩) 64 h
  have addr : t.bufAddr h = s.bufAddr h := by
    funext x
    rw [State.bufAddr, State.bufAddr, cells]
  have ue : t.isUe .cistern = s.isUe .cistern := by
    funext w
    rw [State.isUe, State.eccOf, ecc, State.isUe, State.eccOf]
  unfold State.bufUe
  rw [ecc, addr, ue]

theorem State.tagNow_congr (pump : t.pump = s.pump) (h : Nat) : t.tagNow h = s.tagNow h := by
  have cell (d : Nat) : t.cell d = s.cell d := by rw [State.cell, pump, State.cell]
  have cells : t.bufCells h = s.bufCells h := State.chain_congr (fun d => by rw [cell]; exact ⟨rfl, rfl⟩) 64 h
  rw [State.tagNow, State.tagNow, cell, State.bufRead, State.bufRead, cells, pump]

end Carries

/-! ### The transmitter sends (R310, R321, R337) -/

section Send

/-- What a frame on its way out counts. -/
def State.txCounted (u : State) (n : Nat) (ok under poison : Bool) (len : Nat) : State :=
  let u := if ok then u else u.portCount n 18 1
  let u := if under then u.portCount n 19 1 else u
  if poison then u.portCount n 17 1 else (u.portCount n 15 1).portCount n 16 (len + 4)

variable {s u v : State} {n : Nat} {i : TxItem} {tap : Nat} {under : Option Nat}

/-- The checks of a buffer without an uncorrectable word (R310). -/
theorem State.txCheck_of_none {h b : Nat} (clean : s.bufUe h 0 b = none) (ch : Option Nat) (skip : Bool) :
    s.txCheck h b ch skip = if skip then (true, s) else s.tagCheck h ch := by
  rw [State.txCheck, clean]

theorem Carries.txCheck {h b : Nat} (clean : s.bufUe h 0 b = none) (ch : Option Nat) (skip : Bool) :
    Carries n [] s (s.txCheck h b ch skip).2 := by
  rw [State.txCheck_of_none clean]
  split
  · exact Carries.refl _ _ _
  · exact Carries.tagCheck s h ch

/-- The bytes of a frame as they leave: padded, and cut at an underrun. -/
def State.txData (s : State) (n : Nat) (raw : List Nat) : Option Nat → List Nat
  | some k => (if s.padEn n then raw ++ List.replicate (60 - raw.length) 0 else raw).take k
  | none => if s.padEn n then raw ++ List.replicate (60 - raw.length) 0 else raw

/-- What the transmitter does with a frame that carries no one-step edit. -/
theorem State.txSend_spec {asked ok : Bool} {ch : Option Nat} (asks : s.itemAsks n i = (asked, none, ch))
    (clean : s.bufUe (s.itemHead i) 0 (s.itemLen i) = none)
    (check : (s.countTap (groupOf n) tap).txCheck (s.itemHead i) (s.itemLen i) ch under.isSome = (ok, u))
    {raw sent : List Nat} (hraw : raw = u.bufRead (s.itemHead i) 0 (s.itemLen i)) (hsent : sent = u.txData n raw under)
    {poison : Bool} (hpoison : poison = ((!ok || (s.cell (s.itemHead i)).bad) || under.isSome)) :
    ∃ w till cur, Carries n [30] (u.txCounted n ok under.isSome poison sent.length) w ∧ (s.txSend n i tap under).port n =
      { w.port n with
        wire := if poison then poisoned sent else w.txOut i raw sent, wirePoison := poison, wireHalf := none
        txTill := some till, tx := some cur } := by
  have hok : ((s.countTap (groupOf n) tap).txCheck (s.itemHead i) (s.itemLen i) ch under.isSome).1 = ok := by rw [check]
  have hu : ((s.countTap (groupOf n) tap).txCheck (s.itemHead i) (s.itemLen i) ch under.isSome).2 = u := by rw [check]
  unfold State.txSend
  rw [asks]
  extract_lets h b te s1 ue was
  dsimp -zeta only
  extract_lets raw' data data1 edit u1 data2 data3 bad poison' u2 u3 u4 u5 err u6 out
  have hue : ue = none := clean
  have hraw' : raw' = raw := by
    rw [hraw, ← hu]
  have hdata3 : data3 = sent := by
    have data1_ : data1 = u.txData n raw none := by
      simp only [data1, data, hraw', State.txData, s1, h, b, hu]
    rw [hsent]
    cases under with
    | none => exact data1_
    | some k => exact congrArg (List.take k) data1_
  have hpoison' : poison' = poison := by
    rw [hpoison]
    simp only [poison', bad, hue, Option.isSome_none, Bool.or_false, s1, h, b, hok]
    rfl
  have hu6 : Carries n [30] (u.txCounted n ok under.isSome poison sent.length) u6 := by
    have counted : u4 = u.txCounted n ok under.isSome poison sent.length := by
      simp only [u4, u3, u2, u1, edit, hpoison', hdata3, State.editCount, State.txCounted, s1, h, b, hok, hu]
    rw [← counted]
    exact (Carries.txNote u4 n i data3).trans (ls := []) (Carries.of rfl rfl rfl rfl)
  have stamped := Carries.txStamp (n := n) u6 n asked (timeVal te u6.tb.epoch)
  have hout : out = if poison' then poisoned data3 else (u6.txStamp n asked (timeVal te u6.tb.epoch)).2.2.txOut i raw' data3 := rfl
  clear_value out u6 err data3 poison' raw'
  subst hdata3 hpoison' hraw'
  generalize u6.txStamp n asked (timeVal te u6.tb.epoch) = r at *
  refine ⟨r.2.2, r.2.2.tb.elapsed + (8 + out.length) * r.2.2.byteUnits n,
    { item := i, bytes := out, bad := bad, err := err, ts := if r.1 then some (te, r.2.2.tb.epoch) else none,
      tsLost := asked && !r.1, seq := r.2.1 }, (hu6.trans stamped :), ?_⟩
  rw [State.port_modPort_same, hout]

end Send

end Sys2Proof.Machine

/-!
SUPPORT. TX_FRAME, TX_FRAME_DONE and LAUNCH, case by case, and the proof of O31.
-/

namespace Sys2Proof.Machine

section TxFrame

variable {s : State} {n : Fin 32} {tap : Fin 256} {under : Option Nat} {c : Nat} {i : TxItem} {rest : List (Nat × TxItem)}

/-- The head of class `c` has been taken from its queue. -/
def State.txTaken (s : State) (n c : Nat) (i : TxItem) : State :=
  (s.setTxQueue n c ((s.txQueue n c).drop 1)).modPort n (fun p => { p with guarded := p.guarded.erase i, paused := p.paused.erase i })

theorem State.port_txTaken (s : State) (n c : Nat) (i : TxItem) : (s.txTaken n c i).port n =
    { s.port n with
      queues := tset [] (s.port n).queues c ((s.txQueue n c).drop 1)
      guarded := (s.port n).guarded.erase i, paused := (s.port n).paused.erase i } := by
  rw [State.txTaken, State.port_modPort_same, State.setTxQueue, State.port_modPort_same]

theorem exec_txFrame (h : TxFree s n) (heads : s.txHeads n = (c, i) :: rest) (running : s.pausedClass n c = false)
    (admits : s.gateAdmits n c (s.wireLen n (s.itemLen i)) = true) : exec (.txFrame n tap under) s = .next (
      if s.itemLen i < 14 then (s.txTaken n c i).txEnd n i 0 9 false none false 0
      else if s.maxLen n - 4 < s.itemLen i then ((s.txTaken n c i).txEnd n i 0 9 false none false 0).portCount n 20 1
      else (s.txTaken n c i).txSend n i tap under) := by
  obtain ⟨lane, on, clocked, done, idle, free⟩ := h
  have hold : s.itemHold n c i = .free := by rw [State.itemHold, running, admits]; rfl
  show execTxFrame n tap under s = _
  unfold execTxFrame
  rw [lane, on, clocked, done, idle, free, heads, State.txPick]
  dsimp only
  rw [if_pos hold]
  rfl

/-- A frame with a good length, without an edit and without an uncorrectable word (R310). -/
theorem exec_txFrame_sends (h : TxFree s n) (heads : s.txHeads n = (c, i) :: rest) (running : s.pausedClass n c = false)
    (admits : s.gateAdmits n c (s.wireLen n (s.itemLen i)) = true) (long : 14 ≤ s.itemLen i)
    (fits : s.itemLen i ≤ s.maxLen n - 4) (clean : s.bufUe (s.itemHead i) 0 (s.itemLen i) = none)
    (plain : (s.itemAsks n i).2.1 = none) {raw sent : List Nat} (hraw : raw = s.bufRead (s.itemHead i) 0 (s.itemLen i))
    (hsent : sent = s.txData n raw under) {ok poison : Bool}
    (hok : ok = (under.isSome || (s.tagCheck (s.itemHead i) (s.itemAsks n i).2.2).1))
    (hpoison : poison = ((!ok || (s.cell (s.itemHead i)).bad) || under.isSome)) : ∃ t u w,
      exec (.txFrame n tap under) s = .next t ∧ Carries n [] (s.txTaken n c i) u ∧
      Carries n [30] (u.txCounted n ok under.isSome poison sent.length) w ∧
      (t.port n).wire = (if poison then poisoned sent else w.txOut i raw sent) ∧ (t.port n).wirePoison = poison ∧
      (t.port n).tx.isSome = true ∧ (t.port n).queues = (w.port n).queues ∧ (t.port n).cnt = (w.port n).cnt := by
  have asks : (s.txTaken n c i).itemAsks n i = ((s.itemAsks n i).1, none, (s.itemAsks n i).2.2) := by
    rw [← plain]
    rfl
  have clean' : (s.txTaken n c i).bufUe ((s.txTaken n c i).itemHead i) 0 ((s.txTaken n c i).itemLen i) = none := clean
  generalize taps : (s.txTaken n c i).countTap (groupOf n) tap = v
  have tapped : Carries n [] (s.txTaken n c i) v := by
    rw [← taps]
    exact Carries.of rfl rfl rfl rfl
  have pump : v.pump = s.pump := by
    rw [← taps]
    rfl
  have ecc : v.ecc = s.ecc := by
    rw [← taps]
    rfl
  have cleanTap : v.bufUe (s.itemHead i) 0 (s.itemLen i) = none := (State.bufUe_congr pump ecc _ _ _).trans clean
  have checked := Carries.txCheck (n := n) cleanTap (s.itemAsks n i).2.2 under.isSome
  have answer : (v.txCheck (s.itemHead i) (s.itemLen i) (s.itemAsks n i).2.2 under.isSome).1 = ok := by
    rw [State.txCheck_of_none cleanTap, hok]
    cases under with
    | some k => rfl
    | none =>
      refine (State.tagCheck_fst _ _ _).trans ((State.tagCheck_fst _ _ _).trans ?_).symm
      rw [State.tagNow_congr pump, State.cell, State.cell, pump]
  have reads := (tapped.trans checked).read (s.itemHead i) 0 (s.itemLen i)
  have pads : (v.txCheck (s.itemHead i) (s.itemLen i) (s.itemAsks n i).2.2 under.isSome).2.padEn n = s.padEn n := by
    rw [State.padEn, (tapped.trans checked).preg]
    rfl
  obtain ⟨w, till, cur, carries, port⟩ := State.txSend_spec (s := s.txTaken n c i) (tap := tap) (under := under) asks clean'
    (ok := ok) (u := (v.txCheck (s.itemHead i) (s.itemLen i) (s.itemAsks n i).2.2 under.isSome).2)
    (by rw [taps, ← answer]; rfl) (raw := raw) (sent := sent) (hraw.trans reads.symm)
    (by
      rw [hsent]
      cases under <;> simp only [State.txData, pads])
    (poison := poison) hpoison
  refine ⟨(s.txTaken n c i).txSend n i tap under, _, w, (exec_txFrame h heads running admits).trans ?_, tapped.trans checked, carries, ?_⟩
  · rw [if_neg (by omega), if_neg (by omega)]
  · rw [port]
    exact ⟨rfl, rfl, rfl, rfl, rfl⟩

/-- What has been counted for a frame that leaves. -/
theorem State.cnt_txCounted (u : State) (n : Nat) (ok under poison : Bool) (len j : Nat) :
    tget 0 ((u.txCounted n ok under poison len).port n).cnt j =
      if (j = 18 ∧ ok = false) ∨ (j = 19 ∧ under = true) ∨ (j = 17 ∧ poison = true) ∨ (j = 15 ∧ poison = false) then
        (tget 0 (u.port n).cnt j + 1) % 2 ^ 32
      else if j = 16 ∧ poison = false then (tget 0 (u.port n).cnt j + (len + 4)) % 2 ^ 32
      else tget 0 (u.port n).cnt j := by
  have count (v : State) (k d : Nat) : tget 0 ((v.portCount n k d).port n).cnt j =
      if k = j then (tget 0 (v.port n).cnt j + d) % 2 ^ 32 else tget 0 (v.port n).cnt j := by
    rw [State.port_portCount, if_pos rfl, tget_count]
  unfold State.txCounted
  cases ok <;> cases under <;> cases poison <;> simp only [count, if_true, Bool.false_eq_true, if_false] <;> grind

theorem Carries.txCounted (u : State) (n : Nat) (ok under poison : Bool) (len : Nat) :
    Carries n [18, 19, 17, 15, 16] u (u.txCounted n ok under poison len) := by
  have checked : Carries n [18] u (if ok then u else u.portCount n 18 1) := by
    split
    · exact Carries.refl _ _ _
    · exact Carries.portCount u n 18 1
  unfold State.txCounted
  generalize (if ok then u else u.portCount n 18 1) = v at *
  have cut : Carries n [19] v (if under then v.portCount n 19 1 else v) := by
    split
    · exact Carries.portCount v n 19 1
    · exact Carries.refl _ _ _
  dsimp only
  generalize (if under then v.portCount n 19 1 else v) = w at *
  refine (checked.trans cut).trans (ls := [17, 15, 16]) ?_
  split
  · exact (Carries.portCount w n 17 1).trans (Carries.refl n [15, 16] _)
  · exact (Carries.refl n [17] w).trans ((Carries.portCount w n 15 1).trans (Carries.portCount _ n 16 _))

/-- A frame that is sent: its bytes, its poison and what it counts, from the state it is sent in. -/
theorem exec_txFrame_sent (h : TxFree s n) (heads : s.txHeads n = (c, i) :: rest) (running : s.pausedClass n c = false)
    (admits : s.gateAdmits n c (s.wireLen n (s.itemLen i)) = true) (long : 14 ≤ s.itemLen i)
    (fits : s.itemLen i ≤ s.maxLen n - 4) (clean : s.bufUe (s.itemHead i) 0 (s.itemLen i) = none)
    (plain : (s.itemAsks n i).2.1 = none) {raw sent : List Nat} (hraw : raw = s.bufRead (s.itemHead i) 0 (s.itemLen i))
    (hsent : sent = s.txData n raw under) {ok poison : Bool}
    (hok : ok = (under.isSome || ((s.cell (s.itemHead i)).tgen || decide (s.tagNow (s.itemHead i) = (s.cell (s.itemHead i)).tag))))
    (hpoison : poison = ((!ok || (s.cell (s.itemHead i)).bad) || under.isSome)) :
    Answers (.txFrame n tap under) s (fun t =>
      (∃ w : State, (t.port n).wire = (if poison then poisoned sent else w.txOut i raw sent) ∧
        (∀ h o b, w.bufRead h o b = s.bufRead h o b) ∧
        (∀ h f v b, w.itemLen (.deferred h f v b) = s.itemLen (.deferred h f v b))) ∧
      (t.port n).wirePoison = poison ∧ (t.port n).tx.isSome = true ∧
      (t.port n).queues = tset [] (s.port n).queues c ((s.txQueue n c).drop 1) ∧
      ∀ j, j ≠ 30 → tget 0 (t.port n).cnt j =
        if (j = 18 ∧ ok = false) ∨ (j = 19 ∧ under.isSome = true) ∨ (j = 17 ∧ poison = true) ∨ (j = 15 ∧ poison = false) then
          (tget 0 (s.port n).cnt j + 1) % 2 ^ 32
        else if j = 16 ∧ poison = false then (tget 0 (s.port n).cnt j + (sent.length + 4)) % 2 ^ 32
        else tget 0 (s.port n).cnt j) := by
  obtain ⟨t, u, w, run, before, after, wire, lane, tx, queues, cnt⟩ := exec_txFrame_sends (under := under) (tap := tap) h heads
    running admits long fits clean plain hraw hsent (hok.trans (by rw [State.tagCheck_fst])) hpoison
  have counted := Carries.txCounted u n ok under.isSome poison sent.length
  refine ⟨t, run, ⟨w, wire, fun h o b => ?_, fun h f v b => ?_⟩, lane, tx, ?_, fun j other => ?_⟩
  · rw [after.read, counted.read, before.read]
    rfl
  · rw [after.deferredLen, counted.deferredLen, before.deferredLen]
    rfl
  · rw [queues, after.queues, counted.queues, before.queues, State.port_txTaken]
  · have same : tget 0 (u.port n).cnt j = tget 0 (s.port n).cnt j := by
      rw [before.cnt j (by simp), State.port_txTaken]
    rw [cnt, after.cnt j (by simpa using other), State.cnt_txCounted, same]

theorem State.txData_none (s : State) (n h b : Nat) : s.txData n (s.bufRead h 0 b) none =
    s.bufRead h 0 b ++ (if s.padEn n then List.replicate (60 - b) 0 else []) := by
  rw [State.txData, State.bufRead_length]
  split
  · rfl
  · exact (List.append_nil _).symm

theorem State.txData_some (s : State) (n h b k : Nat) : s.txData n (s.bufRead h 0 b) (some k) =
    (s.bufRead h 0 b ++ (if s.padEn n then List.replicate (60 - b) 0 else [])).take k :=
  congrArg (List.take k) (s.txData_none n h b)

/-- A deferred frame leaves with the check bytes it came with (R337). -/
theorem State.txOut_deferred {w : State} {h f v b : Nat} {e : Bool} {data : List Nat} (len : b = w.itemLen (.deferred h f v e)) :
    w.txOut (.deferred h f v e) data data = data ++ w.bufRead h b 4 := by
  have small : ∀ x ∈ w.bufRead h b 4, x < 256 := by
    intro x mem
    simp only [State.bufRead, List.mem_map] at mem
    obtain ⟨i, -, rfl⟩ := mem
    exact BitVec.isLt _
  have back := toBytes_ofBytes small
  rw [State.bufRead_length] at back
  show data ++ toBytes 4 (ofBytes (w.bufRead h (w.itemLen (.deferred h f v e)) 4) ^^^ fcsOf data ^^^ fcsOf data) = _
  rw [← len, Nat.xor_assoc, Nat.xor_self, Nat.xor_zero, back]

/-! ### A frame ends (R360, R428, R458) -/

theorem State.ports_dropRef (s : State) (h : Nat) : (s.dropRef h).ports = s.ports :=
  (congrArg State.ports (s.dropRef_rest h) :)

theorem State.ports_resetSettle (s : State) (p : Nat) : (s.resetSettle p).ports = s.ports := by
  unfold State.resetSettle
  split
  · rfl
  · split
    · rfl
    · rfl

theorem State.ports_postRecord (s : State) (r w0 w1 w2 w3 : Nat) (irq : Bool) (slot after : Option Nat) (stale : Bool) :
    (s.postRecord r w0 w1 w2 w3 irq slot after stale).ports = s.ports := by
  unfold State.postRecord
  split
  · unfold State.recFinish
    split
    · rfl
    · next k =>
      dsimp only
      split
      · rw [State.ports_resetSettle]
        rfl
      · rfl
  · rfl

theorem State.ports_txEnd (s : State) (n : Nat) (i : TxItem) (sent err : Nat) (bad : Bool) (ts : Option (Nat × Nat)) (lost : Bool)
    (seq : Nat) : (s.txEnd n i sent err bad ts lost seq).ports = s.ports := by
  cases i with
  | deferred h f v e => exact s.ports_dropRef _
  | move k =>
    unfold State.txEnd
    dsimp -zeta only
    cases found : s.move k with
    | some m =>
      dsimp only
      cases m.ch with
      | none => exact s.ports_dropRef _
      | some c =>
        dsimp only
        split
        · exact s.ports_dropRef _
        · exact s.ports_dropRef _
    | none =>
      cases held : s.hmove k with
      | none => rfl
        | some m =>
        dsimp -zeta only
        extract_lets hd u v w stale words x
        have hu : u.ports = s.ports := s.ports_dropRef _
        have hv : v.ports = s.ports := by
          simp only [v]
          split
          · exact hu
          · exact hu
        have hx : x.ports = s.ports := by
          simp only [x]
          split
          · exact hv
          · exact hv
        rw [State.ports_postRecord]
        exact hx

theorem exec_txFrameDone {cur : TxCur} (on : (s.port n).tx = some cur) (gone : (s.port n).txTill.getD 0 ≤ s.tb.elapsed) :
    exec (.txFrameDone n) s = .next ((s.modPort n (fun p => { p with tx := none })).txEnd n cur.item (cur.bytes.length - 4)
      cur.err cur.bad cur.ts cur.tsLost cur.seq) := by
  show execTxFrameDone n s = _
  unfold execTxFrameDone
  rw [on]
  exact State.act_of (by simpa using gone)

theorem State.move_modMove_same {s : State} {k : Nat} {m : Move} (found : s.move k = some m) (f : Move → Move)
    (keeps : ∀ m, (f m).slot = m.slot) : (s.modMove k f).move k = some (f m) := by
  have slot : m.slot = k := by simpa using List.find?_some found
  have hit (e : Move) : ((if e.slot = k then f e else e).slot == k) = (e.slot == k) := by
    split
    · rw [keeps]
    · rfl
  show (s.pump.moves.map (fun m => if m.slot = k then f m else m)).find? (fun m => m.slot == k) = _
  rw [List.find?_map]
  have same : ((fun m : Move => m.slot == k) ∘ fun m => if m.slot = k then f m else m) = fun m => m.slot == k := by
    funext e
    exact hit e
  rw [same]
  have found' : s.pump.moves.find? (fun m => m.slot == k) = some m := found
  rw [found', Option.map_some, if_pos slot]

theorem State.moves_dropRef (s : State) (h : Nat) : (s.dropRef h).pump.moves = s.pump.moves := by
  have back (cs : List Nat) (t : State) : (t.returnCells cs).pump.moves = t.pump.moves := by
    unfold State.returnCells
    induction cs generalizing t with
    | nil => rfl
    | cons c cs ih => exact ih _
  unfold State.dropRef
  dsimp only
  split
  · rfl
  · exact back _ s

/-- A move whose frame has left. -/
def endedMove (m : Move) (err : Nat) (ts : Option (Nat × Nat)) (lost : Bool) (seq sent : Nat) : Move :=
  { m with phase := .done, err := err, ts := ts, tsLost := lost
           result := if m.tsreq then seq else if err = 0 then 0 else sent }

/-- The move of a frame that has left is done (R428). -/
theorem State.move_txEnd {s : State} {k : Nat} {m : Move} (found : s.move k = some m) (n sent err : Nat) (bad : Bool)
    (ts : Option (Nat × Nat)) (lost : Bool) (seq : Nat) : (s.txEnd n (.move k) sent err bad ts lost seq).move k = some
      { m with phase := .done, err := err, ts := ts, tsLost := lost
               result := if m.tsreq then seq else if err = 0 then 0 else sent } := by
  unfold State.txEnd
  dsimp only
  rw [found]
  dsimp only
  generalize s.itemHead (.move k) = h
  have kept : (s.dropRef h).move k = some m := by
    rw [State.move, State.moves_dropRef]
    exact found
  generalize s.dropRef h = u at *
  show _ = some (endedMove m err ts lost seq sent)
  cases m.ch with
  | none => exact State.move_modMove_same kept (endedMove · err ts lost seq sent) (fun _ => rfl)
  | some c =>
    dsimp only
    split
    · exact State.move_modMove_same kept (endedMove · err ts lost seq sent) (fun _ => rfl)
    · exact State.move_modMove_same (s := u.modChan c _) kept (endedMove · err ts lost seq sent) (fun _ => rfl)

end TxFrame

/-- Settles O31: the transmitter's pick, its checks and what each outcome leaves on the wire and in the counters. -/
theorem framesTransmitted : Obligations.FramesTransmitted := by
  unfold Obligations.FramesTransmitted
  refine ⟨fun n tap c h b k i rest data s free item heads running admits hh hb long fits clean good tag plain hdata => ?sent,
    fun n tap c h b g v ev i rest s free item heads running admits hb long fits clean good tag plain pads => ?deferred,
    fun n tap c h b k i rest data s free heads running admits hh hb long fits clean plain hdata => ?underrun,
    fun n tap c h b i rest data s free heads running admits hh hb long fits clean fixed wrong plain hdata => ?wrong,
    fun n tap u c b i rest s free heads running admits hb bad => ?refused,
    fun n tap u c i s free heads running closed fresh => ?held,
    fun n cur h f v b s on item gone => ?doneDeferred, fun n cur k m s on item found gone => ?doneMove,
    fun k m at_ s found phase launch => ?launchMove, fun k m at_ s none_ found phase launch => ?launchHost,
    fun n tap u s stopped => ?stopped, fun n s pins => ?pins, fun n w s lane rate wire some_ half clean => ?lane⟩
  case sent =>
    subst hh hb
    obtain ⟨t, run, ⟨w, wire, -, -⟩, lane, tx, queues, cnt⟩ := exec_txFrame_sent (under := none) (tap := tap) free heads running admits
      long fits clean plain rfl rfl (ok := true) (by simpa using tag) (poison := false) (by simp [good])
    rw [State.txData_none, ← hdata] at wire cnt
    refine ⟨t, run, ?_, lane, tx, ?_, fun d other => ?_, ?_, ?_⟩
    · rw [wire, item]
      rfl
    · rw [State.txQueue, queues, tget_tset, if_pos rfl]
    · rw [State.txQueue, queues, tget_tset, if_neg (Ne.symm other), State.txQueue]
    · rw [cnt 15 (by decide)]
      simp
    · rw [cnt 16 (by decide)]
      simp
  case deferred =>
    subst hb item
    have tag' : true = (false || ((s.cell h).tgen || decide (s.tagNow h = (s.cell h).tag))) := by simpa using tag
    obtain ⟨t, run, ⟨w, wire, read, len⟩, lane, -, -, -⟩ := exec_txFrame_sent (under := none) (tap := tap) free heads running admits
      long fits clean plain rfl rfl (ok := true) tag' (poison := false) (by simp [State.itemHead, good])
    have pad : (if s.padEn n then List.replicate (60 - s.itemLen (.deferred h g v ev)) 0 else []) = ([] : List Nat) := by
      obtain whole | off := pads
      · rw [Nat.sub_eq_zero_of_le whole]
        simp
      · rw [off]
        rfl
    rw [State.txData_none, pad, List.append_nil] at wire
    exact ⟨t, run, wire.trans ((State.txOut_deferred (len h g v ev).symm).trans (by rw [read]; rfl)), lane⟩
  case underrun =>
    subst hh hb
    obtain ⟨t, run, ⟨w, wire, -, -⟩, lane, -, -, cnt⟩ := exec_txFrame_sent (under := some k) (tap := tap) free heads running admits
      long fits clean plain rfl rfl (ok := true) rfl (poison := true) (by simp)
    rw [State.txData_some, ← hdata] at wire
    exact ⟨t, run, wire, lane, by simpa using cnt 17 (by decide), by simpa using cnt 19 (by decide)⟩
  case wrong =>
    subst hh hb
    obtain ⟨t, run, ⟨w, wire, -, -⟩, lane, -, -, cnt⟩ := exec_txFrame_sent (under := none) (tap := tap) free heads running admits
      long fits clean plain rfl rfl (ok := false) (by simp [fixed, wrong]) (poison := true) (by simp)
    rw [State.txData_none, ← hdata] at wire
    exact ⟨t, run, wire, lane, by simpa using cnt 17 (by decide), by simpa using cnt 18 (by decide)⟩
  case refused =>
    subst hb
    have ports := State.ports_txEnd (s.txTaken n c i) n i 0 9 false none false 0
    have port : ((s.txTaken n c i).txEnd n i 0 9 false none false 0).port n = (s.txTaken n c i).port n := by
      rw [State.port, ports, State.port]
    rw [State.port_txTaken] at port
    refine ⟨_, exec_txFrame free heads running admits, ?_⟩
    dsimp only
    by_cases short : s.itemLen i < 14
    · rw [if_pos short, if_pos short, State.txQueue, port]
      exact ⟨rfl, free.done, (tget_tset _ _ _ _ _).trans (if_pos rfl), rfl⟩
    · rw [if_neg short, if_neg short, if_pos (bad.resolve_left short), State.txQueue, State.port_portCount, if_pos rfl, port]
      exact ⟨rfl, free.done, (tget_tset _ _ _ _ _).trans (if_pos rfl), (tget_count _ _ _ _).trans (if_pos rfl)⟩
  case held =>
    obtain ⟨lane, on, clocked, done, idle, unheld⟩ := free
    have hold : s.itemHold n c i = .guarded := by rw [State.itemHold, running, closed]; rfl
    refine ⟨(s.modPort n (fun p => { p with guarded := p.guarded ++ [i] })).portCount n 21 1, ?_, ?_, ?_, ?_, rfl⟩
    · show execTxFrame n tap u s = _
      unfold execTxFrame
      rw [lane, on, clocked, done, idle, unheld, heads, State.txPick]
      dsimp only
      rw [if_pos (by decide), if_neg (by rw [hold]; decide), hold, State.countHeld, if_neg (by simpa using fresh)]
      rfl
    · rw [State.port_portCount, if_pos rfl, tget_count, if_pos rfl, State.port_modPort_same]
    · rw [State.txQueue, State.port_portCount, if_pos rfl, State.port_modPort_same, State.txQueue]
    · rw [State.port_portCount, if_pos rfl, State.port_modPort_same]
      exact done
  case doneDeferred =>
    rw [exec_txFrameDone on gone, item]
    rfl
  case doneMove =>
    refine ⟨_, exec_txFrameDone on gone, ?_, ?_⟩
    · rw [State.port, State.ports_txEnd]
      exact congrArg PortSt.tx (State.port_modPort_same _ _ _)
    · rw [item]
      exact State.move_txEnd (s := s.modPort n (fun p => { p with tx := none })) found _ _ _ _ _ _ _
  case launchMove =>
    show execLaunch k s = _
    unfold execLaunch
    rw [found]
    dsimp only
    rw [phase, launch, State.act]
    by_cases due : at_ ≤ s.tb.now <;> simp [due]
  case launchHost =>
    show execLaunch k s = _
    unfold execLaunch
    rw [none_, found]
    dsimp only
    rw [phase, launch, State.act]
    by_cases due : at_ ≤ s.tb.now <;> simp [due]
  case stopped =>
    show execTxFrame n tap u s = _
    unfold execTxFrame
    rw [if_neg]
    obtain held | busy := stopped
    · simp [held]
    · simp [busy]
  case pins =>
    rw [State.laneSent]
    simp [pins]
  case lane =>
    unfold State.laneSent
    dsimp only
    rw [lane, rate, wire, half, clean, if_neg (by simpa using some_)]
    have one (l : List Nat) : l.flatMap (byteXfers 2 false) = l.map (fun b => (⟨b, true, false⟩ : LaneXfer)) := by
      rw [List.map_eq_flatMap]
      rfl
    have parts : List.replicate 7 0x55 ++ [0xD5] ++ w =
        (List.replicate 7 0x55 ++ [0xD5] ++ w.take (w.length - 4)) ++ w.drop (w.length - 4) := by
      rw [List.append_assoc _ (w.take _), List.take_append_drop]
    rw [one, one, Option.map_none, Option.getD_none, List.append_nil, ← List.map_append, ← parts, if_pos rfl, Nat.mul_one]
    rfl

end Sys2Proof.Machine

/-!
SUPPORT. The gate schedule (R311, R313) and the registers of a port page (R292, R326, R338, R340), and the proof of O32.
-/

namespace Sys2Proof.Machine

section Gate

/-- The entry that a time selects is the one that its sum of durations reaches (R311). -/
theorem gatePlace_spec (run : List Nat) (ns i : Nat) (inside : ns < (run.map gateDur).sum) :
    ∃ j, j < run.length ∧ (gatePlace run ns i).1 = i + j ∧ ((run.take j).map gateDur).sum ≤ ns ∧
      ns + (gatePlace run ns i).2 = ((run.take (j + 1)).map gateDur).sum := by
  induction run generalizing ns i with
  | nil => exact absurd inside (Nat.not_lt_zero ns)
  | cons w ws ih =>
    rw [gatePlace]
    by_cases here : ns < gateDur w
    · refine ⟨0, Nat.succ_pos _, ?_, Nat.zero_le _, ?_⟩
      · rw [if_pos here]
        rfl
      · rw [if_pos here]
        simp
        omega
    · rw [List.map_cons, List.sum_cons] at inside
      obtain ⟨j, small, place, before, left⟩ := ih (ns - gateDur w) (i + 1) (by omega)
      refine ⟨j + 1, Nat.succ_lt_succ small, ?_, ?_, ?_⟩
      · rw [if_neg here, place]
        omega
      · rw [List.take_succ_cons, List.map_cons, List.sum_cons]
        omega
      · rw [if_neg here, List.take_succ_cons, List.map_cons, List.sum_cons]
        omega

variable {s : State} {n : Fin 32}

theorem exec_gateEntry {k i left idx : Nat} (on : (s.port n).gateEn = true)
    (place : s.gateSelect n (s.port n).gateWords (s.groupTime n) = some (k, i, left)) (hidx : idx = ((s.port n).gateStart + i) % 256)
    (new : (s.port n).gateWord = none ∨ (s.port n).gateCyc ≠ k ∨ (s.port n).gateIdx ≠ idx) :
    exec (.gateEntry n) s = .next (s.modPort n (fun p => { p with
      gateIdx := idx, gateCyc := k, gateWord := some (BitVec.ofNat 32 (s.preg n (0x100 + 4 * idx)))
      gateWords := p.gateWords.set i (s.preg n (0x100 + 4 * idx)) })) := by
  subst hidx
  have changed : ((s.port n).gateWord.isSome && (s.port n).gateCyc == k && (s.port n).gateIdx == ((s.port n).gateStart + i) % 256) = false := by
    obtain none_ | cyc | idx := new
    · rw [none_]
      rfl
    · rw [beq_eq_false_iff_ne.mpr cyc, Bool.and_false, Bool.false_and]
    · rw [beq_eq_false_iff_ne.mpr idx, Bool.and_false]
  show execGateEntry n s = _
  unfold execGateEntry
  generalize s.gateSelect n = select at *
  simp only [on, place, Bool.not_true, Bool.false_eq_true, if_false, changed]

end Gate

/-! ### The held control and the page's small registers -/

section Page

variable {s : State} {n : Nat}

theorem State.preg_setReg_same (s : State) (n o v : Nat) : (s.setReg (portBase n + o) v).preg n o = v % 2 ^ 32 :=
  State.reg_setReg_same s _ v

theorem State.gateCtrlWrite_spec (s : State) (n w : Nat) :
    bit ((s.gateCtrlWrite n w).preg n 0x020) 0 = bit w 0 ∧ bits ((s.gateCtrlWrite n w).preg n 0x020) 15 8 = bits w 15 8 ∧
    bits ((s.gateCtrlWrite n w).preg n 0x020) 24 16 = max 1 (min 256 (bits w 24 16)) := by
  have en : b2n (bit w 0) < 2 := by cases bit w 0 <;> decide
  have start : bits w 15 8 < 256 := Nat.mod_lt _ (by decide)
  have value : (s.gateCtrlWrite n w).preg n 0x020 =
      b2n (bit w 0) + bits w 15 8 * 2 ^ 8 + min 256 (max 1 (bits w 24 16)) * 2 ^ 16 := by
    refine (State.preg_setReg_same s n 0x020 _).trans (Nat.mod_eq_of_lt ?_)
    omega
  rw [value]
  refine ⟨?_, ?_, ?_⟩
  · have low : (b2n (bit w 0) + bits w 15 8 * 2 ^ 8 + min 256 (max 1 (bits w 24 16)) * 2 ^ 16) / 2 ^ 0 % 2 = b2n (bit w 0) := by omega
    rw [bit, low]
    cases bit w 0 <;> rfl
  · rw [bits]
    omega
  · rw [bits]
    omega

theorem State.dupCfgWrite_flush (s : State) (n w : Nat) : s.dupCfgWrite n (putBits w 17 17 1) =
    (s.setReg (portBase n + 0x018) (min 1000 (max 1 (bits w 9 0)) + 2 ^ 16 * bits w 16 16)).modPort n (fun p => { p with dup := [] }) := by
  have flush : bit (putBits w 17 17 1) 17 = true := bit_putBits_one w 17
  have age : bits (putBits w 17 17 1) 9 0 = bits w 9 0 := bits_putBits_below (by decide)
  have rule : bits (putBits w 17 17 1) 16 16 = bits w 16 16 := bits_putBits_below (by decide)
  unfold State.dupCfgWrite
  dsimp only
  rw [flush, age, rule, if_pos rfl]

/-- What the age and the rule of a duplicate table hold after a write (R340). -/
theorem dupCfg_value {x y v : Nat} (age : x < 1024) (rule : y < 2) (value : v = (min 1000 (max 1 x) + 2 ^ 16 * y) % 2 ^ 32) :
    bits v 9 0 = max 1 (min 1000 x) ∧ bits v 16 16 = y := by
  have small : v = min 1000 (max 1 x) + 2 ^ 16 * y := value.trans (Nat.mod_eq_of_lt (by omega))
  constructor
  · rw [small, bits]
    omega
  · rw [small, bits]
    omega

theorem State.exactWrite_port (s : State) (n e w : Nat) : (s.exactWrite n e w).port n =
    { s.port n with exact := tset 0 (s.port n).exact e (s.preg n (0x500 + 8 * e) + 2 ^ 32 * (w % 2 ^ 19)) } := by
  have word : (s.setReg (portBase n + 0x504 + 8 * e) (w % 2 ^ 19)).preg n (0x500 + 8 * e) = s.preg n (0x500 + 8 * e) :=
    State.reg_setReg_other s _ _ _ (by omega)
  unfold State.exactWrite
  dsimp only
  rw [word]
  exact State.port_modPort_same _ _ _

end Page

/-! ### PORT_MODE (R253, R292, R315) -/

section Mode

/-- `t` differs from `s` in ports, registers, valves and pins alone, and not in the register at `o`. -/
def ModeWork (o : Nat) (s t : State) : Prop :=
  t.reg o = s.reg o ∧ { t with ports := s.ports, regs := s.regs, valves := s.valves, pins := s.pins } = s

variable {o n : Nat} {s t u : State}

theorem ModeWork.refl (o : Nat) (s : State) : ModeWork o s s := ⟨rfl, rfl⟩

theorem ModeWork.trans (h : ModeWork o s t) (k : ModeWork o t u) : ModeWork o s u := by
  let g : State → State := fun v => { v with ports := s.ports, regs := s.regs, valves := s.valves, pins := s.pins }
  exact ⟨k.1.trans h.1, ((congrArg g k.2 :) : _ = g t).trans h.2⟩

theorem ModeWork.setReg (s : State) {p : Nat} (other : o ≠ p) (v : Nat) : ModeWork o s (s.setReg p v) :=
  ⟨State.reg_setReg_other s p v o other, rfl⟩

theorem ModeWork.modPort (s : State) (m : Nat) (f : PortSt → PortSt) : ModeWork o s (s.modPort m f) := ⟨rfl, rfl⟩

theorem ModeWork.valveStop (s : State) (v : Nat) (other : o ≠ valveBase v) : ModeWork o s (s.valveStop v) :=
  (ModeWork.setReg s other _).trans ⟨rfl, rfl⟩

/-- `t` has the valves and the ports of `s`, and differs from it as `ModeWork` says. -/
structure OwnWork (o : Nat) (s t : State) : Prop where
  valves : t.valves = s.valves
  work : ModeWork o s t

/-- A relation that holds of each step holds of a fold. -/
theorem foldl_rel {α : Type} {R : State → State → Prop} (refl : ∀ s, R s s) (trans : ∀ {s t u}, R s t → R t u → R s u)
    {f : State → α → State} (step : ∀ s a, R s (f s a)) (l : List α) (s : State) : R s (l.foldl f s) := by
  induction l generalizing s with
  | nil => exact refl s
  | cons a l ih => exact trans (step s a) (ih (f s a))

theorem OwnWork.pinOwnWrite (other : o ≠ portBase n + 0x700) (s : State) (w : Nat) : OwnWork o s (s.pinOwnWrite n w) := by
  unfold State.pinOwnWrite
  refine foldl_rel (R := OwnWork o) (fun s => ⟨rfl, ModeWork.refl o s⟩) (fun h k => ⟨k.valves.trans h.valves, h.work.trans k.work⟩)
    (fun t j => ?_) _ s
  dsimp only
  split
  · exact ⟨rfl, (ModeWork.setReg t other _).trans ⟨rfl, rfl⟩⟩
  · exact ⟨rfl, ModeWork.setReg t other _⟩

theorem ModeWork.pairRateCheck (s : State) (n : Nat) : ModeWork o s (s.pairRateCheck n) ∧ (s.pairRateCheck n).valves = s.valves ∧
    ∀ m, ((s.pairRateCheck n).port m).wire = (s.port m).wire := by
  have mark (t : State) (k m : Nat) : ((t.portCfgErr k).port m).wire = (t.port m).wire := by
    rw [State.portCfgErr, State.port_modPort]
    split
    · next same => rw [same]
    · rfl
  unfold State.pairRateCheck
  dsimp only
  split
  · exact ⟨(ModeWork.modPort s _ _).trans (ModeWork.modPort _ _ _), rfl, fun m => (mark _ _ m).trans (mark _ _ m)⟩
  · exact ⟨ModeWork.refl o s, rfl, fun _ => rfl⟩

/-- Entering frame-lane mode stops V0 and V1 of the port and reads PIN_OWN again (R253). -/
theorem State.enterLane_spec (s : State) (n : Nat) (page : n < 32) : ModeWork (portBase n) s (s.enterLane n) ∧
    ((s.enterLane n).valve (4 * n)).run = false ∧ ((s.enterLane n).valve (4 * n + 1)).run = false := by
  have apart (v : Nat) : portBase n ≠ valveBase v := by
    rw [portBase, valveBase]
    omega
  have halted (t : State) (v : Nat) : ((t.valveStop v).valve v).run = false :=
    (congrArg ValveSt.run (State.valve_modValve_same _ v _) :)
  unfold State.enterLane
  dsimp only
  have stop : ModeWork (portBase n) s ((s.valveStop (4 * n)).valveStop (4 * n + 1)) :=
    (ModeWork.valveStop s _ (apart _)).trans (ModeWork.valveStop _ _ (apart _))
  have low : (((s.valveStop (4 * n)).valveStop (4 * n + 1)).valve (4 * n)).run = false := by
    have same : ((s.valveStop (4 * n)).valveStop (4 * n + 1)).valve (4 * n) = (s.valveStop (4 * n)).valve (4 * n) :=
      (State.valve_modValve _ _ _ _).trans (if_neg (by omega))
    rw [same]
    exact halted s _
  have high := halted (s.valveStop (4 * n)) (4 * n + 1)
  generalize (s.valveStop (4 * n)).valveStop (4 * n + 1) = u at *
  obtain ⟨valves, work⟩ := OwnWork.pinOwnWrite (o := portBase n) (n := n) (by omega) u (u.preg n 0x700)
  refine ⟨stop.trans work, ?_, ?_⟩
  · rw [State.valve, valves]
    exact low
  · rw [State.valve, valves]
    exact high

/-- A write of PORT_MODE that is taken (R292, R340). -/
theorem State.portModeWrite_spec (s : State) (n w : Nat) (page : n < 32) (off : s.pstate n = 0) (rate : bits w 2 1 ≠ 3) :
    (s.portModeWrite n w).laneMode n = bit w 0 ∧ (s.portModeWrite n w).rate n = bits w 2 1 ∧
    bits ((s.portModeWrite n w).preg n 0) 15 8 = max 2 (bits w 15 8) ∧
    (bit w 0 = false → ((s.portModeWrite n w).port n).wire = []) ∧
    (bit w 0 = true → s.laneMode n = false → ((s.portModeWrite n w).valve (4 * n)).run = false ∧
      ((s.portModeWrite n w).valve (4 * n + 1)).run = false) ∧
    { s.portModeWrite n w with ports := s.ports, regs := s.regs, valves := s.valves, pins := s.pins } = s := by
  unfold State.portModeWrite
  rw [if_neg (by simp [off, rate])]
  extract_lets was u v x
  have small : bits w 2 0 < 8 := Nat.mod_lt _ (by decide)
  have high : bits w 15 8 < 256 := Nat.mod_lt _ (by decide)
  have value : u.reg (portBase n) = bits w 2 0 + 2 ^ 8 * max 2 (bits w 15 8) :=
    (State.reg_setReg_same s _ _).trans (Nat.mod_eq_of_lt (by omega))
  have rest : { u with ports := s.ports, regs := s.regs, valves := s.valves, pins := s.pins } = s := rfl
  have mode (t : State) (same : t.reg (portBase n) = u.reg (portBase n)) : t.laneMode n = bit w 0 := by
    have low : (bits w 2 0 + 2 ^ 8 * max 2 (bits w 15 8)) % 2 = w % 2 := by
      rw [bits]
      omega
    show bit (t.reg (portBase n)) 0 = _
    rw [same, value, bit, bit, pow_zero, Nat.div_one, Nat.div_one, low]
  have hv : ModeWork (portBase n) u v ∧ (bit w 0 = true → was = false → (v.valve (4 * n)).run = false ∧
      (v.valve (4 * n + 1)).run = false) := by
    simp only [v, mode u rfl]
    split
    · next enters =>
      obtain ⟨work, stop⟩ := u.enterLane_spec n page
      exact ⟨work, fun _ _ => stop⟩
    · next stays => exact ⟨ModeWork.refl _ _, fun lane pins => absurd (by rw [pins, lane]; rfl) stays⟩
  obtain ⟨work, stop⟩ := hv
  have hx : ModeWork (portBase n) u x ∧ (bit w 0 = false → (x.port n).wire = []) ∧ x.valves = v.valves := by
    simp only [x, mode v work.1]
    split
    · next lane => exact ⟨work, fun pins => absurd lane (by rw [pins]; decide), rfl⟩
    · refine ⟨work.trans (ModeWork.modPort _ _ _), fun _ => ?_, rfl⟩
      rw [State.port_modPort_same]
  have hwas : was = s.laneMode n := rfl
  clear_value was u v x
  obtain ⟨work', wire, valves⟩ := hx
  obtain ⟨check, same, kept⟩ := ModeWork.pairRateCheck (o := portBase n) x n
  obtain ⟨reg, final⟩ := work'.trans check
  have word : (x.pairRateCheck n).preg n 0 = bits w 2 0 + 2 ^ 8 * max 2 (bits w 15 8) := reg.trans value
  refine ⟨mode _ reg, ?_, ?_, fun pins => (kept n).trans (wire pins), fun lane pins => ?_, ?_⟩
  · rw [State.rate, word]
    simp only [bits] at *
    omega
  · rw [word]
    simp only [bits] at *
    omega
  · rw [State.valve, State.valve, same, valves]
    exact stop lane (hwas.trans pins)
  · let g : State → State := fun t => { t with ports := s.ports, regs := s.regs, valves := s.valves, pins := s.pins }
    exact ((congrArg g final :) : _ = g u).trans rest

end Mode

/-- Settles O32: the gate's place in its schedule, and each port register's write. -/
theorem gateScheduleAndPortRegisters : Obligations.GateScheduleAndPortRegisters := by
  unfold Obligations.GateScheduleAndPortRegisters
  refine ⟨fun run ns inside => ?place, fun n k i left idx s on place hidx new => exec_gateEntry on place hidx new,
    fun n w s => ⟨_, rfl, ?held⟩, fun n w s due hw => ⟨_, State.act_of due, ?apply⟩, fun n e w s => ⟨_, rfl, ?exact_⟩,
    fun n e es s first => ?age, fun n w s => ⟨_, rfl, ?flush⟩, fun n w s => ⟨_, rfl, ?counters⟩,
    fun n w s bad => if_pos bad |> congrArg Host.Outcome.next, fun n w s off rate => ⟨_, rfl, ?mode⟩⟩
  case place =>
    obtain ⟨j, small, place, before, left⟩ := gatePlace_spec run ns 0 inside
    rw [Nat.zero_add] at place
    rw [place]
    exact ⟨small, before, left⟩
  case held =>
    obtain ⟨on, start, length⟩ := s.gateCtrlWrite_spec n w.toNat
    exact ⟨State.port_modPort_same _ _ _, on, start, length, fun o other => State.reg_setReg_other s _ _ _ (by rw [portBase]; omega), rfl⟩
  case apply =>
    subst hw
    rw [State.port_modPort_same]
    refine ⟨rfl, rfl, rfl, rfl, rfl, fun closed => ?_, fun m other => (State.port_modPort _ _ _ _).trans (if_neg (Ne.symm other)), rfl⟩
    dsimp only
    rw [closed, Bool.false_and, if_neg (by decide)]
  case exact_ =>
    refine ⟨?_, fun f other => ?_, rfl⟩
    · rw [State.exactWrite_port, tget_tset, if_pos rfl]
    · rw [State.exactWrite_port, tget_tset, if_neg (fun same => other same.symm)]
  case age =>
    show execDupAgeOut n s = _
    rw [execDupAgeOut, first]
    dsimp only
    rw [State.act]
    by_cases due : e.made + s.dupAge n ≤ s.tb.elapsed
    · exact congrArg Host.Outcome.next ((if_pos (decide_eq_true due)).trans (if_pos due).symm)
    · exact congrArg Host.Outcome.next ((if_neg (by simpa using due)).trans (if_neg due).symm)
  case flush =>
    rw [State.dupCfgWrite_flush]
    have low : bits w.toNat 16 16 < 2 := Nat.mod_lt _ (by decide)
    obtain ⟨age, rule⟩ := dupCfg_value (Nat.mod_lt _ (by decide) : bits w.toNat 9 0 < 1024) low rfl
    refine ⟨State.port_modPort_same _ _ _, ?_, ?_, rfl⟩
    · exact (congrArg (bits · 9 0) (State.preg_setReg_same s n 0x018 _)).trans age
    · have word := (congrArg (bits · 16 16) (State.preg_setReg_same s n 0x018
        (min 1000 (max 1 (bits w.toNat 9 0)) + 2 ^ 16 * bits w.toNat 16 16))).trans rule
      exact congrArg (· == 1) word
  case counters =>
    rw [State.cntCtrlWrite, bit_putBits_one, if_pos rfl]
    dsimp only
    rw [State.port_modPort_same]
    exact ⟨fun k => rfl, rfl, rfl⟩
  case mode => exact s.portModeWrite_spec n w.toNat n.isLt off rate

end Sys2Proof.Machine

/-!
SUPPORT. Rate writes, adjustment requests, the step instant, the slew and snapshots (R343-R351, R366, R374), and the proof of
O33.
-/

namespace Sys2Proof.Machine

/-! ### Times (R341) -/

section Times

theorem timeMod_pos : (0 : Int) < (timeMod : Int) := by
  rw [timeMod, secT]
  norm_num

theorem shiftT_add (t : Nat) (a b : Int) : shiftT (shiftT t a) b = shiftT t (a + b) := by
  have pos := timeMod_pos
  unfold shiftT
  generalize (timeMod : Int) = m at *
  have back : (((((t : Int) + a) % m).toNat : Nat) : Int) = ((t : Int) + a) % m :=
    Int.toNat_of_nonneg (Int.emod_nonneg _ (by omega))
  rw [back, Int.emod_add_emod, Int.add_assoc]

/-- A time moved to a valid instant is that instant. -/
theorem shiftT_sub {v : Nat} (valid : v < timeMod) (t : Nat) : shiftT t ((v : Int) - t) = v := by
  have there : (t : Int) + ((v : Int) - t) = v := by omega
  rw [shiftT, there, Int.emod_eq_of_lt (by omega) (by exact_mod_cast valid), Int.toNat_natCast]

end Times

/-! ### Adjustment requests (R346-R349) -/

section Adjust

variable {s : State} {w : Nat}

theorem State.adjCtlWrite_busy (busy : s.tb.req.isSome = true) : s.adjCtlWrite w = s.tbAlarm 1 := by
  rw [State.adjCtlWrite, if_pos busy]

/-- What an accepted write of ADJ_CTL requests: the mode that it names, and for AUTO the smaller change slewed. -/
inductive Requests (s : State) (mode frac : Nat) : AdjReq → Prop where
  | set : mode = 3 → Requests s mode frac (.set (s.adjTime frac))
  | slew : mode = 2 ∨ mode = 0 ∧ (s.adjDelta frac).natAbs < s.stepMin * nsT → (s.adjDelta frac).natAbs < secT →
      Requests s mode frac (.slew (s.adjDelta frac))
  | step : mode = 1 ∨ mode = 0 ∧ s.stepMin * nsT ≤ (s.adjDelta frac).natAbs → s.adjDelta frac ≠ 0 →
      Requests s mode frac (.step (s.adjDelta frac))

theorem State.adjCtlWrite_taken {q : AdjReq} (idle : s.tb.req = none) (valid : s.reg 0x60028 < 1000000000)
    (asks : Requests s (bits w 17 16) (bits w 15 0) q) :
    (s.adjCtlWrite w).tb = { s.tb with req := some q, slewing := false, slw := 0, remain := 0 } ∧
    { s.adjCtlWrite w with tb := s.tb, regs := s.regs } = s := by
  have free : ¬ s.tb.req.isSome = true := by simp [idle]
  have reg (o : Nat) (other : o ≠ 0x6002C) : (s.setReg 0x6002C (w % 2 ^ 18)).reg o = s.reg o := State.reg_setReg_other s _ _ o other
  have delta (f : Nat) : (s.setReg 0x6002C (w % 2 ^ 18)).adjDelta f = s.adjDelta f := by
    rw [State.adjDelta, reg 0x60020 (by decide), reg 0x60024 (by decide), reg 0x60028 (by decide), State.adjDelta]
  have time (f : Nat) : (s.setReg 0x6002C (w % 2 ^ 18)).adjTime f = s.adjTime f := by
    rw [State.adjTime, reg 0x60020 (by decide), reg 0x60024 (by decide), reg 0x60028 (by decide), State.adjTime]
  have least : (s.setReg 0x6002C (w % 2 ^ 18)).stepMin = s.stepMin := by
    rw [State.stepMin, reg 0x6000C (by decide), State.stepMin]
  have rest : { s.setReg 0x6002C (w % 2 ^ 18) with regs := s.regs } = s := rfl
  have tb : (s.setReg 0x6002C (w % 2 ^ 18)).tb = s.tb := rfl
  have valid' : ¬ 1000000000 ≤ (s.setReg 0x6002C (w % 2 ^ 18)).reg 0x60028 := by
    rw [reg 0x60028 (by decide)]
    omega
  have chosen : q = (if bits w 17 16 = 3 then .set (s.adjTime (bits w 15 0)) else
        if bits w 17 16 = 2 ∨ (bits w 17 16 = 0 ∧ (s.adjDelta (bits w 15 0)).natAbs < s.stepMin * nsT) then
          .slew (s.adjDelta (bits w 15 0)) else .step (s.adjDelta (bits w 15 0))) ∧
      ¬ ((bits w 17 16 ≠ 3 ∧ (bits w 17 16 = 2 ∨ (bits w 17 16 = 0 ∧ (s.adjDelta (bits w 15 0)).natAbs < s.stepMin * nsT)) ∧
          secT ≤ (s.adjDelta (bits w 15 0)).natAbs) ∨
        (bits w 17 16 ≠ 3 ∧ ¬ (bits w 17 16 = 2 ∨ (bits w 17 16 = 0 ∧ (s.adjDelta (bits w 15 0)).natAbs < s.stepMin * nsT)) ∧
          s.adjDelta (bits w 15 0) = 0)) := by
    cases asks with
    | set mode => simp [mode]
    | slew mode small =>
      generalize s.stepMin * nsT = least at *
      generalize secT = second at *
      have other : bits w 17 16 ≠ 3 := by omega
      simp only [other, mode, if_false, if_true, ne_eq, not_false_iff, true_and, not_true, false_and, or_false, small.not_ge]
    | step mode moves =>
      generalize s.stepMin * nsT = least at *
      generalize secT = second at *
      have other : bits w 17 16 ≠ 3 := by omega
      have big : ¬ (bits w 17 16 = 2 ∨ (bits w 17 16 = 0 ∧ (s.adjDelta (bits w 15 0)).natAbs < least)) := by omega
      simp [other, big, moves]
  unfold State.adjCtlWrite
  rw [if_neg free]
  dsimp only
  rw [delta, time, least, if_neg (not_or.mpr ⟨valid', chosen.2⟩), ← chosen.1]
  exact ⟨rfl, rfl⟩

end Adjust

/-! ### Tables whose entries a step changes -/

section Tables

variable {α : Type}

theorem tfind_map (f : α → α) (t : Tbl α) (i : Nat) : tfind (t.map (fun e => (e.1, f e.2))) i = (tfind t i).map f := by
  induction t with
  | nil => rfl
  | cons e t ih =>
    obtain ⟨k, v⟩ := e
    simp only [List.map_cons, tfind, ih]
    split
    · rfl
    · rfl

/-- A filter keeps the entry found when it keeps it. -/
theorem tfind_filter {p : Nat × α → Bool} {t : Tbl α} {i : Nat} {v : α} (found : tfind t i = some v) (keeps : p (i, v) = true) :
    tfind (t.filter p) i = some v := by
  induction t with
  | nil => cases found
  | cons e t ih =>
    obtain ⟨k, w⟩ := e
    rw [tfind] at found
    by_cases here : k = i
    · subst here
      rw [if_pos rfl, Option.some.injEq] at found
      subst found
      rw [List.filter_cons_of_pos keeps, tfind, if_pos rfl]
    · rw [if_neg here] at found
      by_cases stays : p (k, w) = true
      · rw [List.filter_cons_of_pos stays, tfind, if_neg here]
        exact ih found
      · rw [List.filter_cons_of_neg stays]
        exact ih found

theorem tget_range {n i : Nat} (inside : i < n) (d : α) (f : Nat → α) : tget d ((List.range n).map (fun i => (i, f i))) i = f i := by
  have general (k : Nat) : ∀ m, k ≤ i → i < k + m → tget d ((List.range' k m).map (fun i => (i, f i))) i = f i := by
    intro m
    induction m generalizing k with
    | zero => omega
    | succ m ih =>
      intro low high
      rw [List.range'_succ, List.map_cons, tget]
      split
      · next here => rw [here]
      · exact ih (k + 1) (by omega) (by omega)
  rw [List.range_eq_range']
  exact general 0 n (Nat.zero_le i) (by omega)

end Tables

/-! ### The step instant (R349, R366, R367, R374) -/

section Step

variable {s t : State}

/-- `t` differs from `s` in the time base, the manifold and the ports alone. -/
def TimeWork (s t : State) : Prop := { t with tb := s.tb, mf := s.mf, ports := s.ports } = s

theorem TimeWork.eq (h : TimeWork s t) : { t with tb := s.tb, mf := s.mf, ports := s.ports } = s := h

theorem TimeWork.trans {u : State} (h : TimeWork s t) (k : TimeWork t u) : TimeWork s u := by
  let g : State → State := fun v => { v with tb := s.tb, mf := s.mf, ports := s.ports }
  exact ((congrArg g k.eq :) : _ = g t).trans h

theorem TimeWork.modTb (s : State) (f : TimeSt → TimeSt) : TimeWork s (s.modTb f) := rfl

theorem State.rxEnds_work (s : State) : s.rxEnds.tb = s.tb ∧ TimeWork s s.rxEnds := by
  unfold State.rxEnds
  refine foldl_rel (R := fun s t => t.tb = s.tb ∧ TimeWork s t) (fun s => ⟨rfl, rfl⟩)
    (fun h k => ⟨k.1.trans h.1, h.2.trans k.2⟩) (fun s e => ?_) _ s
  exact ⟨rfl, rfl⟩

theorem State.extLevels_work (s : State) : s.extLevels.tb = s.tb ∧ TimeWork s s.extLevels := by
  unfold State.extLevels
  dsimp only
  split
  · exact ⟨rfl, rfl⟩
  · exact ⟨rfl, rfl⟩

/-- The end of an edge leaves the time base as the schedule's edge leaves it. -/
theorem State.edgeEnd_work (s : State) : s.schedEdge.extLevels.rxEnds.tb = s.schedEdge.tb ∧ TimeWork s s.schedEdge.extLevels.rxEnds := by
  obtain ⟨levels, work⟩ := s.schedEdge.extLevels_work
  obtain ⟨ends, work'⟩ := s.schedEdge.extLevels.rxEnds_work
  exact ⟨ends.trans levels, (TimeWork.modTb s _).trans (work.trans work')⟩

/-- An entry that no removal names stays at an edge. -/
theorem State.sched_schedEdge {e : Nat} {n : SchedEntry} (found : s.sched e = some n) (stays : n.cancel = none) :
    s.schedEdge.sched e = some (n.edge s.tb.now s.tb.edges s.strokes) := by
  have mapped : tfind (s.tb.sched.map (fun e => (e.1, e.2.edge s.tb.now s.tb.edges s.strokes))) e =
      some (n.edge s.tb.now s.tb.edges s.strokes) := by
    rw [tfind_map (fun n : SchedEntry => n.edge s.tb.now s.tb.edges s.strokes), show tfind s.tb.sched e = some n from found]
    rfl
  refine tfind_filter mapped ?_
  have none_ : (n.edge s.tb.now s.tb.edges s.strokes).cancel = none := by
    unfold SchedEntry.edge
    dsimp only
    split
    · dsimp only
      rw [stays]
      rfl
    · rw [stays]
      rfl
  simp [none_, SchedEntry.removable]

/-- A TCLK edge that comes is the advance and the schedule's edge. -/
theorem State.tclkEdge_runs (runs : s.tclkRuns = true) : s.tclkEdge = s.tclkAdvance.schedEdge.extLevels.rxEnds := by
  rw [State.tclkEdge, if_pos runs]

theorem State.tclkEdge_now (runs : s.tclkRuns = true) : s.tclkEdge.tb.now = s.tclkAdvance.tb.now := by
  rw [State.tclkEdge_runs runs, (State.edgeEnd_work _).1]
  rfl

/-- The state in which a step's delta is added: one edge later, with the request taken. -/
def State.stepFrom (s : State) : State := s.tclkAdvance.modTb (fun t => { t with req := none })

theorem State.stepFrom_now (s : State) : s.stepFrom.tb.now = shiftT s.tb.now ((baseAdvance s.inc s.tb.adj : Int) + s.slewPart) := rfl

theorem State.tclkAdvance_work (s : State) : TimeWork s s.tclkAdvance := rfl

theorem State.stepFrom_work (s : State) : TimeWork s s.stepFrom := rfl

theorem exec_timeStep_step {d : Int} (asked : s.tb.req = some (.step d)) (runs : s.tclkRuns = true) :
    exec .timeStep s = .next (s.stepFrom.tbStep d).schedEdge.extLevels.rxEnds := by
  show execTimeStep s = _
  unfold execTimeStep
  rw [asked]
  exact State.act_of runs

theorem exec_timeStep_set {v : Nat} (asked : s.tb.req = some (.set v)) (runs : s.tclkRuns = true) :
    exec .timeStep s = .next (if (v : Int) - s.stepFrom.tb.now = 0 then s.stepFrom.tbAlarm 1
      else s.stepFrom.tbStep ((v : Int) - s.stepFrom.tb.now)).schedEdge.extLevels.rxEnds := by
  show execTimeStep s = _
  unfold execTimeStep
  rw [asked]
  exact State.act_of runs

/-- What a step leaves at the end of its edge. -/
structure Stepped (s t : State) (d : Int) : Prop where
  now : t.tb.now = shiftT s.stepFrom.tb.now d
  epoch : t.tb.epoch = (s.tb.epoch + 1) % 256
  log : tget ((0 : Int), 0) t.tb.log ((s.tb.epoch + 1) % 256 % 16) = (d, (s.tb.epoch + 1) % 256)
  req : t.tb.req = none
  slots : ∀ i, i < 128 → t.ck i = (s.ck i).step ((t.tb.now : Int) - s.stepFrom.tb.now)
  sched : ∀ e n, s.sched e = some n → n.arrived = true → n.cancel = none →
    t.sched e = some ((n.step s.stepFrom.tb.now t.tb.now d ((s.tb.epoch + 1) % 256)).edge t.tb.now t.tb.edges t.strokes)
  work : TimeWork s t

theorem SchedEntry.cancel_step (n : SchedEntry) (old new : Nat) (d : Int) (e : Nat) : (n.step old new d e).cancel = n.cancel := by
  unfold SchedEntry.step
  split
  · rfl
  · split
    · rfl
    · split
      · rfl
      · rfl

theorem State.tbStep_stepped (s : State) (d : Int) : Stepped s (s.stepFrom.tbStep d).schedEdge.extLevels.rxEnds d := by
  obtain ⟨tb, work⟩ := (s.stepFrom.tbStep d).edgeEnd_work
  have whole : TimeWork s (s.stepFrom.tbStep d).schedEdge.extLevels.rxEnds :=
    s.stepFrom_work.trans ((TimeWork.modTb _ _).trans work)
  have strokes : (s.stepFrom.tbStep d).schedEdge.extLevels.rxEnds.strokes = s.strokes := (congrArg State.strokes whole.eq :)
  have now : (s.stepFrom.tbStep d).schedEdge.tb.now = (s.stepFrom.tbStep d).tb.now := rfl
  have edges : (s.stepFrom.tbStep d).schedEdge.tb.edges = (s.stepFrom.tbStep d).tb.edges := rfl
  refine ⟨by rw [tb]; rfl, by rw [tb]; rfl, by rw [tb]; exact tget_tput_same _ _ _ _, by rw [tb]; rfl, fun i small => ?_,
    fun e n found arrived stays => ?_, whole⟩
  · rw [State.ck, tb]
    exact tget_range small _ _
  · have stepped : (s.stepFrom.tbStep d).sched e =
        some (n.step s.stepFrom.tb.now (s.stepFrom.tbStep d).tb.now d ((s.tb.epoch + 1) % 256)) := by
      refine (tfind_map (fun n : SchedEntry => n.step s.stepFrom.tb.now (s.stepFrom.tbStep d).tb.now d ((s.tb.epoch + 1) % 256))
        s.stepFrom.tb.sched e).trans ?_
      rw [show tfind s.stepFrom.tb.sched e = some n from found]
      rfl
    have edge := State.sched_schedEdge stepped ((n.cancel_step _ _ _ _).trans stays)
    rw [State.sched, tb, strokes, now, edges]
    exact edge

/-- A pending entry of absolute time that follows the step (R367). -/
theorem SchedEntry.step_relative {n : SchedEntry} (arrived : n.arrived = true) (onTime : n.late = false)
    (follows : bit n.act.toNat 9 = true) (old new : Nat) (d : Int) (e edges strokes : Nat) :
    ∃ r, (n.step old new d e).edge new edges strokes = r ∧ r.time = shiftT n.time d ∧ r.epoch = e ∧ r.rebased = true ∧
      r.act = n.act ∧ r.lb = n.lb := by
  have step : n.step old new d e = { n with time := shiftT n.time d, epoch := e, rebased := true } := by
    rw [SchedEntry.step, if_neg (by simp [arrived]), if_pos follows]
  rw [step]
  unfold SchedEntry.edge
  dsimp only
  rw [onTime]
  exact ⟨_, rfl, rfl, rfl, rfl, rfl, rfl⟩

/-- A pending entry whose time a step forward passes over is skipped (R367). -/
theorem SchedEntry.step_skipped {n : SchedEntry} (arrived : n.arrived = true) (onTime : n.late = false)
    (stays : bit n.act.toNat 9 = false) {old new : Nat} {d : Int} (forward : 0 < d) (after : old < n.time) (passed : n.time ≤ new)
    (e edges strokes : Nat) : ∃ r, (n.step old new d e).edge new edges strokes = r ∧ r.time = n.time ∧ r.skipped = true ∧
      r.lateBy = some ((new - n.time) / 2 ^ 48) := by
  have step : n.step old new d e = { n with skipped := true, lateBy := some (latenessAt new n.time) } := by
    rw [SchedEntry.step, if_neg (by simp [arrived]), if_neg (by simp [stays]), if_pos ⟨after, passed, forward⟩]
  rw [step]
  unfold SchedEntry.edge
  dsimp only
  rw [onTime]
  exact ⟨_, rfl, rfl, rfl, rfl⟩

end Step

/-! ### Rates and slews (R345, R348) -/

section Rates

variable {s : State}

theorem State.rateHiWrite_spec {w : Nat} {a : Int} (ha : a = sgn 40 (s.reg 0x60004 + 2 ^ 32 * bits w 7 0)) :
    (s.rateHiWrite w).tb.rateArm = some (max (-281474976710) (min 281474976710 a)) ∧ (s.rateHiWrite w).tb.adj = s.tb.adj ∧
    (a.natAbs ≤ 281474976710 → (s.rateHiWrite w).tb.alarm = s.tb.alarm) ∧
    (281474976710 < a.natAbs → (s.rateHiWrite w).tb.alarm = s.tb.alarm ||| 1) ∧
    { s.rateHiWrite w with regs := s.regs, tb := s.tb, evq := s.evq } = s := by
  have alarm (t : State) : (t.tbAlarm 0).tb.rateArm = t.tb.rateArm ∧ (t.tbAlarm 0).tb.adj = t.tb.adj ∧
      (t.tbAlarm 0).tb.alarm = t.tb.alarm ||| 1 ∧ { t.tbAlarm 0 with tb := s.tb, evq := s.evq } = { t with tb := s.tb, evq := s.evq } :=
    ⟨rfl, rfl, rfl, rfl⟩
  unfold State.rateHiWrite adjLimit
  rw [← ha]
  extract_lets a' c v u1 u2 r
  have hr : r = if c = a' then u2 else u2.tbAlarm 0 := rfl
  have arm : u2.tb.rateArm = some c := rfl
  have adj : u2.tb.adj = s.tb.adj := rfl
  have before : u2.tb.alarm = s.tb.alarm := rfl
  have rest : { u2 with regs := s.regs, tb := s.tb } = s := rfl
  have hc : c = max (-281474976710) (min 281474976710 a) := rfl
  have hsame : a' = a := rfl
  clear_value r a' c v u1 u2
  subst hsame hc hr
  let g : State → State := fun t => { t with regs := s.regs, tb := s.tb, evq := s.evq }
  split
  · next inside => exact ⟨arm, adj, fun _ => before, fun far => absurd inside (by omega), (congrArg g rest : _ = g s)⟩
  · next outside =>
    obtain ⟨arm', adj', alarm', rest'⟩ := alarm u2
    refine ⟨arm'.trans arm, adj'.trans adj, fun near => absurd (by omega) outside, fun _ => by rw [alarm', before], ?_⟩
    exact ((congrArg g rest' :) : _ = g u2).trans (congrArg g rest : _ = g s)

/-- The extra advance of the last edge of a slew is what remains (R348). -/
theorem State.slewPart_last (slewing : s.tb.slewing = true) (last : s.tb.remain = extraAdvance s.inc s.tb.slw ∨
    s.tb.remain.natAbs < (extraAdvance s.inc s.tb.slw).natAbs) : s.slewPart = s.tb.remain ∧ s.slewLast = true := by
  unfold State.slewPart State.slewLast
  rw [slewing, if_pos rfl]
  dsimp only
  obtain same | less := last
  · rw [← same]
    simp
  · rw [if_pos less]
    exact ⟨rfl, by simpa using less.le⟩

end Rates

/-! ### Snapshots (R350, R351) -/

/-- A snapshot when the time of edge `edge` reaches the core in stroke `n`. -/
def snapLand (h : HSnap) (edge n : Nat) : HSnap :=
  if (h.await.map (fun e => decide (e ≤ edge))).getD false then { h with await := none, valid := true, strokes := n % 2 ^ 64 } else h

theorem State.landTime_single {s : State} {c : TimeCross} {n : Nat} (only : s.tb.timeX = [c]) (due : c.due ≤ n) :
    s.landTime n = s.modTb (fun t => { t with
      coreTime := c.time, coreEpoch := c.epoch, timeX := []
      snaps := t.snaps.map (fun h =>
        if (h.2.await.map (fun e => decide (e ≤ c.edge))).getD false then
          (h.1, { h.2 with await := none, valid := true, strokes := n % 2 ^ 64 })
        else h) }) := by
  unfold State.landTime
  rw [only]
  simp [due, State.modTb, only]

/-- The three relative requests write ADJ_CTL with their mode (R346). -/
theorem exec_adjust {w : Word} {i : Instr} {m : Nat} (member : (i, m) ∈ [(.adjAuto w, 0), (.adjStep w, 1), (.adjSlew w, 2)])
    (s : State) : bits (putBits w.toNat 17 16 m) 17 16 = m ∧ exec i s = .next (s.adjCtlWrite (putBits w.toNat 17 16 m)) := by
  simp only [List.mem_cons, Prod.mk.injEq, List.not_mem_nil, or_false] at member
  obtain ⟨rfl, rfl⟩ | ⟨rfl, rfl⟩ | ⟨rfl, rfl⟩ := member
  · exact ⟨(bits_putBits_same (by decide)).trans rfl, rfl⟩
  · exact ⟨(bits_putBits_same (by decide)).trans rfl, rfl⟩
  · exact ⟨(bits_putBits_same (by decide)).trans rfl, rfl⟩

/-- Settles O33: requests become steps and slews, a step moves what follows it, snapshots cross with the time. -/
theorem timebaseRateStepsAndSlews : Obligations.TimebaseRateStepsAndSlews := by
  unfold Obligations.TimebaseRateStepsAndSlews
  refine ⟨fun k w off s hoff => ⟨fun open_ => ?inc, fun locked => ?incLocked⟩, fun w s => ⟨_, rfl, ?rateLo⟩,
    fun w a s ha => ⟨_, rfl, ?rateHi⟩, fun a s armed => ?rateApply, fun w i m d s member idle valid hd => ⟨fun slew small => ?slew,
      fun step moves => ?step⟩, fun w s idle valid => ⟨_, rfl, ?set⟩, fun w i s member busy => ?busy,
    fun d s asked runs => ⟨_, exec_timeStep_step asked runs, ?timeStep⟩,
    fun v s asked runs valid differs => ?setNow, fun v s asked runs same => ?setSame, fun d s asked => ?slewStart,
    fun x s runs slewing hx last => ?slewEnd, fun p w s => ⟨_, rfl, ?snapshot⟩, fun p s asked => ⟨_, State.act_of asked, ?capture⟩,
    fun n p e c s only due await edge => ?land⟩
  case inc =>
    subst hoff
    refine ⟨_, congrArg Host.Outcome.next (if_neg (by rw [open_]; decide)), ?_, fun o other => State.reg_setReg_other s _ _ _ other, rfl⟩
    exact (State.reg_setReg_same s _ _).trans (Nat.mod_eq_of_lt w.isLt)
  case incLocked =>
    subst hoff
    exact congrArg Host.Outcome.next (if_pos locked)
  case rateLo =>
    exact ⟨(State.reg_setReg_same s _ _).trans (Nat.mod_eq_of_lt w.isLt), rfl, fun o other => State.reg_setReg_other s _ _ _ other, rfl⟩
  case rateHi => exact s.rateHiWrite_spec ha
  case rateApply =>
    show execRateApply s = _
    refine (State.act_of (by rw [armed]; rfl)).trans ?_
    simp only [State.modTb, armed, Option.getD_some]
  case slew =>
    obtain ⟨mode, run⟩ := exec_adjust member s
    have frac : bits (putBits w.toNat 17 16 m) 15 0 = bits w.toNat 15 0 := bits_putBits_below (by decide)
    refine ⟨_, run, State.adjCtlWrite_taken idle valid ?_⟩
    have delta : d = s.adjDelta (bits (putBits w.toNat 17 16 m) 15 0) := by
      rw [frac]
      exact hd
    subst delta
    rw [mode]
    exact .slew slew small
  case step =>
    obtain ⟨mode, run⟩ := exec_adjust member s
    have frac : bits (putBits w.toNat 17 16 m) 15 0 = bits w.toNat 15 0 := bits_putBits_below (by decide)
    refine ⟨_, run, State.adjCtlWrite_taken idle valid ?_⟩
    have delta : d = s.adjDelta (bits (putBits w.toNat 17 16 m) 15 0) := by
      rw [frac]
      exact hd
    subst delta
    rw [mode]
    exact .step step moves
  case set =>
    have mode : bits (putBits w.toNat 17 16 3) 17 16 = 3 := (bits_putBits_same (by decide)).trans rfl
    have frac : bits (putBits w.toNat 17 16 3) 15 0 = bits w.toNat 15 0 := bits_putBits_below (by decide)
    have taken := State.adjCtlWrite_taken (w := putBits w.toNat 17 16 3) idle valid (.set mode)
    rw [frac] at taken
    exact taken
  case busy =>
    have run : exec i s = .next (s.tbAlarm 1) := by
      simp only [List.mem_cons, List.not_mem_nil, or_false] at member
      obtain rfl | rfl | rfl | rfl := member
      · exact congrArg Host.Outcome.next (State.adjCtlWrite_busy busy)
      · exact congrArg Host.Outcome.next (State.adjCtlWrite_busy busy)
      · exact congrArg Host.Outcome.next (State.adjCtlWrite_busy busy)
      · exact congrArg Host.Outcome.next (State.adjCtlWrite_busy busy)
    exact ⟨_, run, rfl, rfl⟩
  case timeStep =>
    obtain ⟨now, epoch, log, req, slots, sched, work⟩ := s.tbStep_stepped d
    refine ⟨?_, epoch, log, req, fun i small => ?_, fun e n found arrived onTime kept follows => ?_,
      fun e n found arrived onTime kept stays forward after passed => ?_, work⟩
    · rw [now, State.stepFrom_now, shiftT_add]
    · rw [slots i small, State.tclkEdge_now runs]
      rfl
    · obtain ⟨r, edge, facts⟩ := SchedEntry.step_relative arrived onTime follows s.stepFrom.tb.now
        (s.stepFrom.tbStep d).schedEdge.extLevels.rxEnds.tb.now d ((s.tb.epoch + 1) % 256)
        (s.stepFrom.tbStep d).schedEdge.extLevels.rxEnds.tb.edges (s.stepFrom.tbStep d).schedEdge.extLevels.rxEnds.strokes
      exact ⟨r, (sched e n found arrived kept).trans (congrArg some edge), facts⟩
    · rw [State.tclkEdge_now runs] at after
      obtain ⟨r, edge, facts⟩ := SchedEntry.step_skipped arrived onTime stays (old := s.stepFrom.tb.now) forward after passed
        ((s.tb.epoch + 1) % 256) (s.stepFrom.tbStep d).schedEdge.extLevels.rxEnds.tb.edges
        (s.stepFrom.tbStep d).schedEdge.extLevels.rxEnds.strokes
      exact ⟨r, (sched e n found arrived kept).trans (congrArg some edge), facts⟩
  case setNow =>
    have moves : ¬ (v : Int) - s.stepFrom.tb.now = 0 := by
      rw [State.tclkEdge_now runs] at differs
      have same : s.stepFrom.tb.now = s.tclkAdvance.tb.now := rfl
      omega
    obtain ⟨now, epoch, -, req, -, -, work⟩ := s.tbStep_stepped ((v : Int) - s.stepFrom.tb.now)
    refine ⟨_, exec_timeStep_set asked runs, ?_⟩
    rw [if_neg moves]
    exact ⟨now.trans (shiftT_sub valid _), epoch, req, work⟩
  case setSame =>
    have stays : (v : Int) - s.stepFrom.tb.now = 0 := by
      rw [State.tclkEdge_now runs] at same
      have same' : s.stepFrom.tb.now = s.tclkAdvance.tb.now := rfl
      omega
    obtain ⟨tb, -⟩ := (s.stepFrom.tbAlarm 1).edgeEnd_work
    refine ⟨_, exec_timeStep_set asked runs, ?_⟩
    rw [if_pos stays]
    dsimp only
    rw [tb]
    refine ⟨same.trans (State.tclkEdge_now runs) |>.symm, rfl, rfl, ?_⟩
    show bit (s.stepFrom.tb.alarm ||| 2 ^ 1) 1 = true
    rw [bit_eq_testBit, Nat.testBit_or, Nat.testBit_two_pow_self, Bool.or_true]
  case slewStart =>
    show execSlewStart s = _
    unfold execSlewStart
    rw [asked]
    rfl
  case slewEnd =>
    subst hx
    obtain ⟨part, ends⟩ := State.slewPart_last slewing last
    refine ⟨_, State.act_of (by rw [ends, runs]; rfl), ?_⟩
    obtain ⟨tb, work⟩ := s.tclkAdvance.edgeEnd_work
    rw [State.tclkEdge_runs runs, tb]
    refine ⟨?_, ?_, ?_, rfl, (s.tclkAdvance_work.trans work).eq⟩
    · exact congrArg (fun x => shiftT s.tb.now ((baseAdvance s.inc s.tb.adj : Int) + x)) part
    · show (s.tb.slewing && !s.slewLast) = false
      rw [ends, Bool.not_true, Bool.and_false]
    · show s.tb.remain - s.slewPart = 0
      rw [part, Int.sub_self]
  case snapshot =>
    rw [State.hsnapWrite, bit_putBits_one, if_pos rfl]
    exact ⟨tget_tput_same _ _ _ _, fun q other => tget_tput_other _ _ _ _ _ (Ne.symm other), rfl⟩
  case capture => exact ⟨tget_tput_same _ _ _ _, fun q other => tget_tput_other _ _ _ _ _ (Ne.symm other), rfl⟩
  case land =>
    rw [State.landTime_single only due]
    refine ⟨?_, rfl, rfl, rfl⟩
    have crossed (h : Nat × HSnap) : (if (h.2.await.map (fun e => decide (e ≤ c.edge))).getD false then
        (h.1, { h.2 with await := none, valid := true, strokes := n % 2 ^ 64 }) else h) = (h.1, snapLand h.2 c.edge n) := by
      unfold snapLand
      split
      · rfl
      · rfl
    show (tget {} (s.tb.snaps.map _) p : HSnap) = _
    rw [List.map_congr_left (fun h _ => crossed h), tget_map {} (snapLand · c.edge n) rfl]
    show snapLand (s.hsnap p) c.edge n = _
    unfold snapLand
    rw [await]
    exact if_pos (decide_eq_true edge)

end Sys2Proof.Machine

/-!
SUPPORT. Interpolators, group copies, PPS and the cycle keeper (R355, R356, R359, R369-R376), and the proof of O34.
-/

namespace Sys2Proof.Machine

/-! ### Group copies (R359) -/

/-- A group copy advances by whole GCLK edges and keeps the rest of the period as its phase. -/
theorem GCopy.advance_spec (c : GCopy) {g : Nat} (runs : 0 < g) (rate : Int) (tick : Nat) : ∃ k : Int,
    (c.advance g rate tick).time = shiftT c.time (k * baseAdvance g rate) ∧
    c.phase + tick = k * g + (c.advance g rate tick).phase ∧ 0 ≤ (c.advance g rate tick).phase ∧
    (c.advance g rate tick).phase < g := by
  have rest := Int.emod_add_mul_ediv (c.phase + tick) g
  have low := Int.emod_nonneg (c.phase + tick) (by omega : (g : Int) ≠ 0)
  have high := Int.emod_lt_of_pos (c.phase + tick) (by omega : (0 : Int) < g)
  refine ⟨(c.phase + tick) / g, ?_⟩
  rw [GCopy.advance, if_neg (by omega)]
  dsimp only
  rw [Int.mul_comm] at rest
  exact ⟨rfl, by omega, by omega, by omega⟩

/-! ### The grid of a slot (R369-R372) -/

section Grid

variable {s : State} {i : Nat}

theorem nsT_pos : 0 < nsT := by
  rw [nsT]
  norm_num

/-- The first grid point at or after an instant. -/
theorem State.ckFirst_spec (period : 0 < s.ckP i) (t : Int) : t ≤ s.ckGrid i (s.ckFirst i t) ∧
    s.ckGrid i (s.ckFirst i t - 1) < t := by
  have pos : 0 < s.ckP i * nsT := Nat.mul_pos period nsT_pos
  unfold State.ckGrid State.ckFirst
  generalize s.ckP i * nsT = m at *
  generalize (s.ck i).base = b at *
  have split := Int.emod_add_mul_ediv (b - t) m
  have low := Int.emod_nonneg (b - t) (by omega : (m : Int) ≠ 0)
  have high := Int.emod_lt_of_pos (b - t) (by omega : (0 : Int) < m)
  generalize (b - t) / (m : Int) = q at *
  have first : (0 - q) * (m : Int) = -(m * q) := by ring
  have before : (0 - q - 1) * (m : Int) = -(m * q) - m := by ring
  rw [first, before]
  constructor <;> omega

/-- The first grid point is the only one with the instant in its period. -/
theorem State.ckFirst_unique (period : 0 < s.ckP i) {t j : Int} (after : t ≤ s.ckGrid i j) (before : s.ckGrid i (j - 1) < t) :
    s.ckFirst i t = j := by
  obtain ⟨low, high⟩ := State.ckFirst_spec (s := s) period t
  have pos : 0 < s.ckP i * nsT := Nat.mul_pos period nsT_pos
  unfold State.ckGrid at *
  generalize s.ckFirst i t = q at *
  generalize s.ckP i * nsT = m at *
  generalize (s.ck i).base = b at *
  have up : (j - 1) * (m : Int) < q * m := by omega
  have down : (q - 1) * (m : Int) < j * m := by omega
  have posm : (0 : Int) < m := by omega
  have := lt_of_mul_lt_mul_right up posm.le
  have := lt_of_mul_lt_mul_right down posm.le
  omega

/-- What CK_CFG holds after a write (R369). -/
theorem ckCfg_value {x f l : Nat} (limit : l < 16) {v : Nat}
    (value : v = (x % 2 + 16 * max 1 (min 8 f) + 256 * max 1 l) % 2 ^ 32) :
    v % 2 = x % 2 ∧ bits v 7 4 = max 1 (min 8 f) ∧ bits v 11 8 = max 1 l := by
  have small : v = x % 2 + 16 * max 1 (min 8 f) + 256 * max 1 l := value.trans (Nat.mod_eq_of_lt (by omega))
  refine ⟨?_, ?_, ?_⟩
  · rw [small]
    omega
  · rw [small, bits]
    omega
  · rw [small, bits]
    omega

end Grid

/-! ### The commands -/

section Commands

variable {s : State}

/-- A TCLK unit's source raised at an edge enters two strokes later. -/
theorem State.entryQ_raiseLevel (s : State) (src : Nat) (ev level : Bool) : (s.raiseLevel src ev level).mf.entryQ =
    s.mf.entryQ ++ [{ src := src, ev := ev, rising := level, level := level, from_ := s.strokes + 2 }] := rfl

theorem State.groupTime_of (s : State) (g : Nat) (v : GCopy) (n : Nat) :
    (s.modTb (fun t => { t with gcopies := tset {} t.gcopies g v })).groupTime n =
      (if g = n / 4 then v else tget {} s.tb.gcopies (n / 4) : GCopy).time := by
  have same : (s.modTb (fun t => { t with gcopies := tset {} t.gcopies g v })).tb.gcopies = tset {} s.tb.gcopies g v := rfl
  rw [State.groupTime, same, groupOf, tget_tset]

theorem exec_groupTimeSync (s : State) (g : Fin 8) (tap : Fin 256) : ∃ v : GCopy, v.time = s.interp g tap ∧
    exec (.groupTimeSync g tap) s = .next (s.modTb (fun t => { t with gcopies := tset {} t.gcopies g v })) := ⟨_, rfl, rfl⟩

theorem State.gcal_modGcal_same (s : State) (g : Nat) (f : GCal → GCal) : (s.modGcal g f).gcal g = f (s.gcal g) :=
  tget_tput_same _ _ _ _

theorem State.gcal_modGcal_other (s : State) {g h : Nat} (f : GCal → GCal) (other : h ≠ g) : (s.modGcal g f).gcal h = s.gcal h :=
  tget_tput_other _ _ _ _ _ (Ne.symm other)

/-- A table with an empty tap stalls its interpolator (R355). -/
theorem State.calStall (s : State) (g : Nat) :
    ((s.modGcal g (fun c => { c with stall := true, captures := 0, counts := [] })).tbAlarm 3).gcal g =
      { s.gcal g with stall := true, captures := 0, counts := [] } ∧
    bit ((s.modGcal g (fun c => { c with stall := true, captures := 0, counts := [] })).tbAlarm 3).tb.alarm 3 = true ∧
    (∀ h, h ≠ g → ((s.modGcal g (fun c => { c with stall := true, captures := 0, counts := [] })).tbAlarm 3).gcal h = s.gcal h) ∧
    { (s.modGcal g (fun c => { c with stall := true, captures := 0, counts := [] })).tbAlarm 3 with tb := s.tb, evq := s.evq } = s := by
  let x : State → State := fun t => { t with tb := s.tb, evq := s.evq }
  have alarmed (u : State) : (u.tbAlarm 3).tb.gcals = u.tb.gcals ∧ (u.tbAlarm 3).tb.alarm = u.tb.alarm ||| 2 ^ 3 ∧
      x (u.tbAlarm 3) = x u := ⟨rfl, rfl, rfl⟩
  obtain ⟨gcals, alarm, rest⟩ := alarmed (s.modGcal g (fun c => { c with stall := true, captures := 0, counts := [] }))
  refine ⟨?_, ?_, fun h other => ?_, rest.trans rfl⟩
  · rw [State.gcal, gcals]
    exact State.gcal_modGcal_same _ _ _
  · rw [alarm, bit_eq_testBit, Nat.testBit_or, Nat.testBit_two_pow_self, Bool.or_true]
  · rw [State.gcal, gcals]
    exact State.gcal_modGcal_other _ _ other

theorem exec_calTable {g : Fin 8} {taps : Fin 256} (full : 8192 ≤ (s.gcal g).captures) (some_ : 0 < taps.val) :
    exec (.calTable g taps) s = .next
      (if ((List.range taps.val).map (fun t => tget 0 (s.gcal g).counts t)).any (· == 0) then
        (s.modGcal g (fun c => { c with stall := true, captures := 0, counts := [] })).tbAlarm 3
      else s.modGcal g (fun c => { c with
        stall := false, valid := true, captures := 0, counts := []
        table := (List.range taps.val).map (fun t => tget 0 (s.gcal g).counts t) })) :=
  State.act_of (by rw [decide_eq_true full, decide_eq_true some_]; rfl)

theorem exec_ppsInEdge {sub : Fin 256} {l ok : Bool} (change : l ≠ s.tb.ppsIn)
    (hok : ok = (bit (s.reg 0x60300) 1 && (l != bit (s.reg 0x60300) 2) &&
      (s.tb.ppsSince.map (fun d => decide ((ppsGap : Int) ≤ d + (sub.val * 2 ^ 44 : Nat)))).getD true)) :
    exec (.ppsInEdge sub l) s = .next ((if ok then (s.modTb (fun t => { t with ppsIn := l })).modTb (fun t => { t with
      ppsInTime := round16 (t.now + sub.val * 2 ^ 44) % timeMod, ppsInEpoch := t.epoch
      ppsInCount := t.ppsInCount + 1, ppsSince := some (-(sub.val * 2 ^ 44 : Nat)) })
      else s.modTb (fun t => { t with ppsIn := l })).raiseLevel srcPpsIn ok l) := by
  subst hok
  exact State.act_of (by simpa using change)

/-- The second that PPS takes from an edge of pps_in (R374). -/
def TimeSt.ppsTaken (b : TimeSt) (sub : Nat) (l : Bool) : TimeSt :=
  { b with
    ppsIn := l, ppsInTime := round16 (b.now + sub * 2 ^ 44) % timeMod, ppsInEpoch := b.epoch
    ppsInCount := b.ppsInCount + 1, ppsSince := some (-(sub * 2 ^ 44 : Nat)) }

theorem exec_ppsInEdge_taken {sub : Fin 256} {l : Bool} (change : l ≠ s.tb.ppsIn) (on : bit (s.reg 0x60300) 1 = true)
    (edge : l ≠ bit (s.reg 0x60300) 2) (apart : ∀ d, s.tb.ppsSince = some d → (ppsGap : Int) ≤ d + (sub.val * 2 ^ 44 : Nat)) :
    exec (.ppsInEdge sub l) s = .next ((s.modTb (·.ppsTaken sub l)).raiseLevel srcPpsIn true l) := by
  have gap : (s.tb.ppsSince.map (fun d => decide ((ppsGap : Int) ≤ d + (sub.val * 2 ^ 44 : Nat)))).getD true = true := by
    cases since : s.tb.ppsSince with
    | none => rfl
    | some d => exact decide_eq_true (apart d since)
  rw [exec_ppsInEdge change (ok := true) (by rw [on, bne_iff_ne.mpr edge, gap]; rfl)]
  rfl

theorem exec_ppsInEdge_ignored {sub : Fin 256} {l : Bool} (change : l ≠ s.tb.ppsIn) (ignored : bit (s.reg 0x60300) 1 = false ∨
    l = bit (s.reg 0x60300) 2 ∨ ∃ d, s.tb.ppsSince = some d ∧ d + (sub.val * 2 ^ 44 : Nat) < (ppsGap : Int)) :
    exec (.ppsInEdge sub l) s = .next ((s.modTb (fun t => { t with ppsIn := l })).raiseLevel srcPpsIn false l) := by
  refine exec_ppsInEdge change (ok := false) ?_
  obtain off | wrong | ⟨d, since, soon⟩ := ignored
  · rw [off]
    rfl
  · rw [wrong, bne_self_eq_false, Bool.and_false]
    rfl
  · rw [since, Option.map_some, Option.getD_some, decide_eq_false (not_le.mpr soon), Bool.and_false]

theorem exec_cycleStart {i : Fin 128} {due k : Int} (next : (s.ck i).next = some (due, k)) (free : (s.ck i).busy = false)
    (now : due ≤ (s.tb.now : Int)) (apart : (s.ck i).doneEdge < s.tb.edges) : exec (.cycleStart i) s = .next
      (if bits (s.ckCfg i) 11 8 * s.ckP i * nsT < s.ckLag i k then s.ckRealign i k else s.ckStart i k) := by
  show execCycleStart i s = _
  unfold execCycleStart
  rw [next]
  exact State.act_of (by rw [free, decide_eq_true now, decide_eq_true apart]; rfl)

theorem State.ck_modCk_other (s : State) {i k : Nat} (f : CkSlot → CkSlot) (other : k ≠ i) : (s.modCk i f).ck k = s.ck k :=
  tget_tput_other _ _ _ _ _ (Ne.symm other)

theorem State.ckP_eq (s : State) (i : Nat) : s.ckP i = s.reg (0x64004 + 32 * i) := by
  have place : ckBase i + 4 = 0x64004 + 32 * i := by
    rw [ckBase]
    omega
  rw [State.ckP, place]

/-- A cycle starts (R370, R371). -/
theorem State.ckStart_spec (s : State) (i : Nat) (k : Int) : (s.ckStart i k).ck i = { s.ck i with
      busy := true, catching := decide (0 < s.ckLag i k), realigned := false, lag := min (s.ckLag i k / nsT) (2 ^ 32 - 1)
      count := wrap 32 k
      next := some ((s.tb.now : Int) + (s.ckP i * nsT : Nat) - (min (s.ckLag i k) (s.ckP i * bits (s.ckCfg i) 7 4 / 16 * nsT) : Nat), k + 1) } ∧
    (∀ j, j ≠ i → (s.ckStart i k).ck j = s.ck j) ∧ { s.ckStart i k with tb := s.tb, mf := s.mf } = s := by
  unfold State.ckStart
  exact ⟨tget_tput_same _ _ _ _, fun j other => tget_tput_other _ _ _ _ _ (Ne.symm other), rfl⟩

/-- A slot beyond its limit realigns to the grid (R372). -/
theorem State.ckRealign_spec (s : State) (i : Nat) (k : Int) : (s.ckRealign i k).ck i = { s.ck i with
      next := some (s.ckGrid i (s.ckFirst i (s.ck i).workEnd), s.ckFirst i (s.ck i).workEnd), realigned := true, phaseLost := true
      fresh := (s.ck i).fresh.set s.tb.edges 256
      missed := min 65535 ((s.ck i).missed + (s.ckFirst i (s.ck i).workEnd - k).toNat) } ∧
    bit (s.ckRealign i k).tb.alarm 5 = true ∧ (∀ j, j ≠ i → (s.ckRealign i k).ck j = s.ck j) ∧
    { s.ckRealign i k with tb := s.tb, evq := s.evq } = s := by
  let g : State → State := fun t => { t with tb := s.tb, evq := s.evq }
  have alarmed (u : State) : (u.tbAlarm 5).tb.cks = u.tb.cks ∧ (u.tbAlarm 5).tb.alarm = u.tb.alarm ||| 2 ^ 5 ∧
      g (u.tbAlarm 5) = g u := ⟨rfl, rfl, rfl⟩
  have told (u : State) (c : Nat) : (u.event 2 13 0x20 i c).tb = u.tb ∧ g (u.event 2 13 0x20 i c) = g u := ⟨rfl, rfl⟩
  generalize made : s.ckRealign i k = r
  obtain ⟨u, passed, hu, hr⟩ : ∃ u passed, u = s.modCk i (fun c => { c with
        next := some (s.ckGrid i (s.ckFirst i (s.ck i).workEnd), s.ckFirst i (s.ck i).workEnd), realigned := true, phaseLost := true
        fresh := c.fresh.set s.tb.edges 256, missed := min 65535 (c.missed + (s.ckFirst i (s.ck i).workEnd - k).toNat) }) ∧
      r = (u.tbAlarm 5).event 2 13 0x20 i passed := ⟨_, _, rfl, made.symm⟩
  obtain ⟨cks', alarm', rest'⟩ := alarmed u
  obtain ⟨tb, rest''⟩ := told (u.tbAlarm 5) passed
  rw [← hr] at tb rest''
  have slot (l : Nat) : r.ck l = u.ck l := by rw [State.ck, tb, cks', State.ck]
  refine ⟨(slot i).trans (by rw [hu, State.ck_modCk_same]), ?_, fun l other => (slot l).trans (by rw [hu, State.ck_modCk_other _ _ other]), ?_⟩
  · rw [tb, alarm', bit_eq_testBit, Nat.testBit_or, Nat.testBit_two_pow_self, Bool.or_true]
  · exact (rest''.trans rest').trans (by rw [hu]; rfl)

theorem State.ckFirst_setReg (s : State) (i v : Nat) (t : Int) : (s.setReg (ckBase i) v).ckFirst i t = s.ckFirst i t ∧
    ∀ k, (s.setReg (ckBase i) v).ckGrid i k = s.ckGrid i k := by
  have period : (s.setReg (ckBase i) v).ckP i = s.ckP i := State.reg_setReg_other s _ _ _ (by omega)
  refine ⟨?_, fun k => ?_⟩
  · rw [State.ckFirst, period]
    rfl
  · rw [State.ckGrid, period]
    rfl

/-- A write that enables a slot puts it on its grid (R369). -/
theorem State.ckCfgWrite_enable {i w : Nat} (on : bit w 0 = true) (off : bit (s.ckCfg i) 0 = false) : s.ckCfgWrite i w =
    (s.setReg (ckBase i) (w % 2 + 16 * max 1 (min 8 (bits w 7 4)) + 256 * max 1 (bits w 11 8))).modCk i (fun c => { c with
      next := some (s.ckGrid i (s.ckFirst i s.tb.now), s.ckFirst i s.tb.now), realigned := false }) := by
  unfold State.ckCfgWrite
  dsimp only
  rw [on, off, if_pos (by decide), (State.ckFirst_setReg s i _ _).1, (State.ckFirst_setReg s i _ 0).2]
  rfl

theorem State.ckCfgWrite_disable {i w : Nat} (off : bit w 0 = false) : s.ckCfgWrite i w =
    (s.setReg (ckBase i) (w % 2 + 16 * max 1 (min 8 (bits w 7 4)) + 256 * max 1 (bits w 11 8))).modCk i (fun c => { c with
      next := none }) := by
  unfold State.ckCfgWrite
  dsimp only
  rw [off]
  rfl

theorem State.ckCfgWrite_value (s : State) (i w : Nat) {f : CkSlot → CkSlot} :
    ((s.setReg (ckBase i) (w % 2 + 16 * max 1 (min 8 (bits w 7 4)) + 256 * max 1 (bits w 11 8))).modCk i f).ckCfg i % 2 = w % 2 ∧
    bits (((s.setReg (ckBase i) (w % 2 + 16 * max 1 (min 8 (bits w 7 4)) + 256 * max 1 (bits w 11 8))).modCk i f).ckCfg i) 7 4 =
      max 1 (min 8 (bits w 7 4)) ∧
    bits (((s.setReg (ckBase i) (w % 2 + 16 * max 1 (min 8 (bits w 7 4)) + 256 * max 1 (bits w 11 8))).modCk i f).ckCfg i) 11 8 =
      max 1 (bits w 11 8) :=
  ckCfg_value (Nat.mod_lt _ (by decide)) (State.reg_setReg_same s _ _)

theorem bit_zero_eq {x y : Nat} (same : x % 2 = y % 2) : bit x 0 = bit y 0 := by
  rw [bit, bit, pow_zero, Nat.div_one, Nat.div_one, same]

end Commands

/-- Settles O34: calibration, group copies, PPS edges and the slots on their grid. -/
theorem interpolatorsPpsAndCycleKeeper : Obligations.InterpolatorsPpsAndCycleKeeper := by
  unfold Obligations.InterpolatorsPpsAndCycleKeeper
  refine ⟨fun g taps s full some_ => ⟨_, exec_calTable full some_, ?table⟩, fun g tap s => ?sync,
    fun c g tick rate runs => c.advance_spec runs rate tick, fun sub l s change on edge apart => ?ppsIn,
    fun sub l s change ignored => ?ppsIgnored, fun s point => ⟨_, State.act_of point, rfl, rfl, rfl⟩, fun s out => ?ppsFall,
    fun i w s off period => ⟨_, rfl, ?enable⟩, fun i w s => ⟨_, rfl, ?disable⟩,
    fun i p lag c due k s next free now apart hp hlag within hc => ?start,
    fun i p lag due k j s next free now apart hp fresh hlag beyond period after before => ?realign,
    fun w i s hi busy => ⟨_, rfl, ?done⟩, fun w i s hi idle => ⟨_, rfl, ?doneErr⟩⟩
  case table =>
    generalize hcounts : (List.range taps.val).map (fun k => tget 0 (s.gcal g).counts k) = counts
    have zero : counts.any (· == 0) = true ↔ ∃ k, k < taps.val ∧ tget 0 (s.gcal g).counts k = 0 := by
      rw [← hcounts]
      simp
    by_cases empty : counts.any (· == 0) = true
    · obtain ⟨cal, alarm, others, rest⟩ := State.calStall s g
      rw [if_pos empty]
      obtain ⟨k, small, none_⟩ := zero.mp empty
      refine ⟨fun every => absurd none_ (every k small), fun _ => ?_, ?_, others, rest⟩
      · rw [cal]
        exact ⟨rfl, rfl, rfl, alarm⟩
      · rw [cal]
    · rw [if_neg empty]
      refine ⟨fun _ => ?_, fun bad => absurd (zero.mpr bad) empty, ?_, fun h other => State.gcal_modGcal_other _ _ other, rfl⟩
      · rw [State.gcal_modGcal_same]
        exact ⟨rfl, rfl, rfl, rfl⟩
      · rw [State.gcal_modGcal_same]
  case sync =>
    obtain ⟨v, time, run⟩ := exec_groupTimeSync s g tap
    refine ⟨_, run, fun n here => ?_, fun n other => ?_, rfl, rfl⟩
    · rw [State.groupTime_of, if_pos here.symm, time]
    · rw [State.groupTime_of, if_neg (Ne.symm other)]
      rfl
  case ppsIn => exact ⟨_, exec_ppsInEdge_taken change on edge apart, rfl, rfl, rfl⟩
  case ppsIgnored => exact ⟨_, exec_ppsInEdge_ignored change ignored, rfl, rfl⟩
  case ppsFall =>
    by_cases due : s.reg 0x60308 * 1000 * nsT ≤ s.tb.ppsAge
    · refine ⟨_, State.act_of (by rw [out, decide_eq_true due]; rfl), fun _ => ⟨rfl, rfl⟩, fun early => absurd due ?_⟩
      exact not_le.mpr early
    · refine ⟨s, congrArg Host.Outcome.next (if_neg (by rw [out, decide_eq_false due]; decide)), fun late => absurd late due, fun _ => rfl⟩
  case enable =>
    have on : bit (putBits w.toNat 0 0 1) 0 = true := bit_putBits_one _ 0
    have size : bits (putBits w.toNat 0 0 1) 7 4 = bits w.toNat 7 4 := bits_putBits_above (by decide) (by decide)
    have limit : bits (putBits w.toNat 0 0 1) 11 8 = bits w.toNat 11 8 := bits_putBits_above (by decide) (by decide)
    rw [State.ckCfgWrite_enable on off]
    obtain ⟨flag, catching, lags⟩ := s.ckCfgWrite_value i (putBits w.toNat 0 0 1) (f := fun c => { c with
      next := some (s.ckGrid i (s.ckFirst i s.tb.now), s.ckFirst i s.tb.now), realigned := false })
    obtain ⟨low, high⟩ := State.ckFirst_spec period (s.tb.now : Int)
    refine ⟨(bit_zero_eq flag).trans on, catching.trans (by rw [size]), lags.trans (by rw [limit]), ⟨s.ckFirst i s.tb.now, ?_, low, high⟩, ?_, fun k other =>
      State.ck_modCk_other _ _ other, rfl⟩
    · rw [State.ck_modCk_same]
    · rw [State.ck_modCk_same]
      rfl
  case disable =>
    have off : bit (putBits w.toNat 0 0 0) 0 = false := bit_putBits_zero _ 0
    rw [State.ckCfgWrite_disable off]
    obtain ⟨flag, -, -⟩ := s.ckCfgWrite_value i (putBits w.toNat 0 0 0) (f := fun c => { c with next := none })
    refine ⟨(bit_zero_eq flag).trans off, ?_, fun k other => State.ck_modCk_other _ _ other, rfl⟩
    rw [State.ck_modCk_same]
    rfl
  case start =>
    rw [← State.ckP_eq] at hp
    subst hp
    have lag' : s.ckLag i k = lag := hlag.symm
    refine ⟨_, (exec_cycleStart next free now apart).trans (congrArg Host.Outcome.next (if_neg ?_)), ?_⟩
    · rw [lag', not_lt]
      exact within
    obtain ⟨slot, others, rest⟩ := s.ckStart_spec i k
    rw [lag', show min lag (s.ckP i * bits (s.ckCfg i) 7 4 / 16 * nsT) = c from hc.symm] at slot
    exact ⟨slot, others, rfl, rest⟩
  case realign =>
    rw [← State.ckP_eq] at hp
    subst hp
    have lag' : s.ckLag i k = lag := by
      rw [State.ckLag, fresh]
      exact hlag.symm
    have first : s.ckFirst i (s.ck i).workEnd = j := State.ckFirst_unique period after before
    refine ⟨_, (exec_cycleStart next free now apart).trans (congrArg Host.Outcome.next (if_pos ?_)), ?_⟩
    · rw [lag']
      exact beyond
    obtain ⟨slot, alarm, others, rest⟩ := s.ckRealign_spec i k
    rw [first] at slot
    exact ⟨slot, alarm, others, rest⟩
  case done =>
    subst hi
    rw [State.ckDone, if_pos busy]
    exact ⟨tget_tput_same _ _ _ _, fun l other => tget_tput_other _ _ _ _ _ (Ne.symm other), rfl, rfl⟩
  case doneErr =>
    subst hi
    rw [State.ckDone, if_neg (by rw [idle]; decide)]
    exact ⟨State.ck_modCk_same _ _ _, fun l other => State.ck_modCk_other _ _ other, rfl⟩

end Sys2Proof.Machine

/-!
SUPPORT. The action schedule (R222, R363-R368), and the proof of O35.
-/

namespace Sys2Proof.Machine

/-! ### The first entry due (R363) -/

section First

/-- What the search for the first due entry has found among the entries it has seen. -/
def Least (ok : SchedEntry → Bool) (seen : Tbl SchedEntry) : Option (Nat × Nat) → Prop
  | none => ∀ p ∈ seen, ok p.2 = false
  | some (t, e) => (∃ n, (e, n) ∈ seen ∧ ok n = true ∧ n.time = t) ∧ ∀ p ∈ seen, ok p.2 = true → t ≤ p.2.time

/-- One entry more. -/
def leastStep (ok : SchedEntry → Bool) (b : Option (Nat × Nat)) (x : Nat × SchedEntry) : Option (Nat × Nat) :=
  if ok x.2 then
    match b with
    | none => some (x.2.time, x.1)
    | some (t, _) => if x.2.time < t then some (x.2.time, x.1) else b
  else b

variable {ok : SchedEntry → Bool} {seen : Tbl SchedEntry} {b : Option (Nat × Nat)} {x : Nat × SchedEntry}

theorem Least.step (h : Least ok seen b) : Least ok (seen ++ [x]) (leastStep ok b x) := by
  unfold leastStep
  by_cases due : ok x.2 = true
  · rw [if_pos due]
    match b, h with
    | none, none_ =>
      refine ⟨⟨x.2, by simp, due, rfl⟩, fun p mem ready => ?_⟩
      rw [List.mem_append, List.mem_singleton] at mem
      obtain old | rfl := mem
      · exact absurd ready (by rw [none_ p old]; decide)
      · exact le_rfl
    | some (t, e), ⟨⟨n, mem, ready, time⟩, least⟩ =>
      dsimp only
      by_cases sooner : x.2.time < t
      · rw [if_pos sooner]
        refine ⟨⟨x.2, by simp, due, rfl⟩, fun p mem ready => ?_⟩
        rw [List.mem_append, List.mem_singleton] at mem
        obtain old | rfl := mem
        · exact sooner.le.trans (least p old ready)
        · exact le_rfl
      · rw [if_neg sooner]
        refine ⟨⟨n, by simp [mem], ready, time⟩, fun p mem ready => ?_⟩
        rw [List.mem_append, List.mem_singleton] at mem
        obtain old | rfl := mem
        · exact least p old ready
        · exact not_lt.mp sooner
  · rw [if_neg due]
    match b, h with
    | none, none_ =>
      intro p mem
      rw [List.mem_append, List.mem_singleton] at mem
      obtain old | rfl := mem
      · exact none_ p old
      · simpa using due
    | some (t, e), ⟨⟨n, mem, ready, time⟩, least⟩ =>
      refine ⟨⟨n, by simp [mem], ready, time⟩, fun p mem ready => ?_⟩
      rw [List.mem_append, List.mem_singleton] at mem
      obtain old | rfl := mem
      · exact least p old ready
      · exact absurd ready due

theorem Least.foldl (h : Least ok seen b) (l : Tbl SchedEntry) : Least ok (seen ++ l) (l.foldl (leastStep ok) b) := by
  induction l generalizing seen b with
  | nil => simpa using h
  | cons x l ih =>
    have next := ih (h.step (x := x))
    rwa [List.append_assoc] at next

theorem State.schedFirst_spec {s : State} {e : Nat} (first : s.schedFirst = some e) : ∃ n, (e, n) ∈ s.tb.sched ∧
    s.schedDue n = true ∧ s.schedDrop n = false ∧
    ∀ p ∈ s.tb.sched, s.schedDue p.2 = true → s.schedDrop p.2 = false → n.time ≤ p.2.time := by
  have found : Least (fun n => s.schedDue n && !s.schedDrop n) s.tb.sched
      (s.tb.sched.foldl (leastStep (fun n => s.schedDue n && !s.schedDrop n)) none) :=
    Least.foldl (seen := []) (b := none) (fun p mem => absurd mem List.not_mem_nil) s.tb.sched
  have run : s.schedFirst = (s.tb.sched.foldl (leastStep (fun n => s.schedDue n && !s.schedDrop n)) none).map (·.2) := rfl
  rw [run] at first
  generalize s.tb.sched.foldl (leastStep (fun n => s.schedDue n && !s.schedDrop n)) none = b at *
  match b, found with
  | none, _ => cases first
  | some (t, e'), ⟨⟨n, mem, ready, time⟩, least⟩ =>
    cases first
    rw [Bool.and_eq_true, Bool.not_eq_true'] at ready
    subst time
    exact ⟨n, mem, ready.1, ready.2, fun p mem due drop => least p mem (by show (s.schedDue p.2 && !s.schedDrop p.2) = true; rw [due, drop]; rfl)⟩

end First

/-! ### Firing (R363-R365) -/

section Fire

variable {s : State} {e : Fin 4096} {n : SchedEntry}

theorem exec_scheduleFire (found : s.sched e = some n) (due : s.schedDue n = true)
    (turn : s.schedDrop n = true ∨ (s.schedFirst = some e.val ∧ s.tb.fired < 4)) :
    exec (.scheduleFire e) s = .next (s.schedFire e n) := by
  show execScheduleFire e s = _
  unfold execScheduleFire
  rw [found]
  refine State.act_of ?_
  obtain drop | ⟨first, few⟩ := turn
  · rw [due, drop]
    rfl
  · rw [due, first, decide_eq_true few, beq_self_eq_true, Bool.and_self, Bool.or_true]
    rfl

theorem State.schedDue_of (arrived : n.arrived = true) (serves : (s.lb n.lb).shed = false)
    (time : n.lateBy.isSome = true ∨ (n.late = false ∧ n.time ≤ s.tb.now)) : s.schedDue n = true := by
  rw [State.schedDue, SchedEntry.dueAt, arrived, serves]
  obtain late | ⟨onTime, now⟩ := time
  · rw [late]
    rfl
  · rw [onTime, decide_eq_true now, Bool.not_false, Bool.and_self, Bool.or_true]
    rfl

/-- An entry that owes no record fires its source and is gone. -/
theorem State.schedFire_plain (keep : s.schedDrop n = false) (silent : n.reports = false) : s.schedFire e n =
    (s.modTb (fun t => { t with sched := tdel t.sched e, fired := t.fired + 1 })).raiseClock (srcSch (8 * n.lb + bits n.act.toNat 2 0)) := by
  unfold State.schedFire
  dsimp only
  rw [keep, silent]
  rfl

/-- A dropped entry leaves its record where the ring has room. -/
theorem State.schedFire_dropped (drop : s.schedDrop n = true) (late : n.late = true) : s.schedFire e n =
    (s.modTb (fun t => { t with sched := tdel t.sched e })).fireRecord e n := by
  have reports : n.reports = true := by
    rw [SchedEntry.reports, late, Bool.or_true, Bool.true_or, Bool.true_or]
  unfold State.schedFire
  dsimp only
  rw [drop, reports]
  rfl

/-- The record of a dropped entry, `l` ns late, in its ring. -/
def RepRing.dropped (r : RepRing) (n : SchedEntry) (e l : Nat) : RepRing :=
  { r with
    tail := (r.tail + 1) % 32
    recs := tput r.recs (r.tail % 16) (BitVec.ofNat 32 (e + 2 ^ 16 * bits n.act.toNat 31 16),
      BitVec.ofNat 32 (min l 0xFFFFFF + 2 ^ 25 + 2 ^ 26 * b2n n.skipped + 2 ^ 27 * b2n n.rebased + 2 ^ 28 * b2n n.staleEpoch)) }

theorem State.fireRecord_room {l : Nat} (room : ((s.repRing n.lb).tail + 32 - (s.repRing n.lb).head) % 32 ≠ 16)
    (drop : s.schedDrop n = true) (late : n.lateBy = some l) (k : Nat) :
    s.fireRecord k n = (s.modRep n.lb (·.dropped n k l)).raiseLevel (srcRep n.lb) true true := by
  unfold State.fireRecord
  rw [if_neg room, drop, late]
  dsimp only [Option.getD_some]
  rw [Bool.not_true, Bool.and_false]
  rfl

theorem State.repRing_report (s : State) (lb src : Nat) (f : RepRing → RepRing) :
    ((s.modRep lb f).raiseLevel src true true).repRing lb = f (s.repRing lb) := tget_tput_same _ _ _ _

/-- A record changes its ring and raises its source alone. -/
theorem State.report_rest (u : State) (lb src : Nat) (f : RepRing → RepRing) (x : TimeSt) (y : ManifoldSt) :
    ((u.modRep lb f).raiseLevel src true true).tb.sched = u.tb.sched ∧
    ((u.modRep lb f).raiseLevel src true true).tb.fired = u.tb.fired ∧
    ((u.modRep lb f).raiseLevel src true true).mf.entryQ =
      u.mf.entryQ ++ [{ src := src, ev := true, rising := true, level := true, from_ := u.strokes + 2 }] ∧
    { (u.modRep lb f).raiseLevel src true true with tb := x, mf := y } = { u with tb := x, mf := y } := ⟨rfl, rfl, rfl, rfl⟩

theorem exec_schedArrive (found : s.sched e = some n) (new : n.arrived = false) :
    exec (.schedArrive e) s = .next (s.modTb (fun t => { t with sched := tput t.sched e (s.schedArrive n) })) := by
  show execSchedArrive e s = _
  unfold execSchedArrive
  rw [found]
  exact State.act_of (by rw [new]; rfl)

theorem SchedEntry.removable_iff {q k : Nat} (cancel : n.cancel = some (q, k)) (d : Nat) : n.removable d = true ↔
    2 ≤ k ∧ ∀ x, n.dueEdge = some x → x = d := by
  rw [SchedEntry.removable, cancel]
  cases n.dueEdge with
  | none => simp
  | some x => simp

end Fire

/-- Settles O35: entries arrive rebased or stale, the first due one fires, late ones leave a record. -/
theorem actionSchedule : Obligations.ActionSchedule := by
  unfold Obligations.ActionSchedule
  refine ⟨fun e n s found new epoch => ⟨_, exec_schedArrive found new, ?arrive⟩,
    fun e n k v s found new hk other near follows hv => ⟨_, exec_schedArrive found new, ?rebased⟩,
    fun e n k s found new hk other stale => ⟨_, exec_schedArrive found new, ?stale⟩, fun e s first => State.schedFirst_spec first,
    fun e n s found arrived serves onTime now unskipped current silent first few => ?fire,
    fun e n l s found arrived serves late lateBy beyond may room => ?drop, fun e n q k s found cancel stays => ?stays,
    fun e n q k s found cancel two due => ?removed, fun lb w h s hh => ⟨_, rfl, ?head⟩⟩
  case arrive =>
    have entry : s.schedArrive n = { n with arrived := true, late := decide (n.time ≤ s.tb.now) } := by
      have same : (s.tb.epoch + 256 - n.epoch) % 256 = 0 := by omega
      unfold State.schedArrive
      dsimp only
      rw [if_pos same]
    refine ⟨(tfind_tput _ _ _ _).trans ((if_pos rfl).trans (congrArg some entry)), fun f other => ?_, rfl⟩
    exact (tfind_tput _ _ _ _).trans (if_neg (Ne.symm other))
  case rebased =>
    refine (tfind_tput _ _ _ _).trans ((if_pos rfl).trans (congrArg some ?_))
    subst hv hk
    unfold State.schedArrive
    dsimp only
    rw [if_neg other, if_pos ⟨follows, near⟩]
    rfl
  case stale =>
    refine (tfind_tput _ _ _ _).trans ((if_pos rfl).trans (congrArg some ?_))
    subst hk
    unfold State.schedArrive
    dsimp only
    rw [if_neg other, if_neg]
    rintro ⟨follows, near⟩
    obtain stays | far := stale
    · exact absurd follows (by rw [stays]; decide)
    · omega
  case fire =>
    have keep : s.schedDrop n = false := by rw [State.schedDrop, onTime]; rfl
    have quiet : n.reports = false := by rw [SchedEntry.reports, silent, onTime, unskipped, current]; rfl
    refine ⟨_, (exec_scheduleFire found (State.schedDue_of arrived serves (.inr ⟨onTime, now⟩)) (.inr ⟨first, few⟩)).trans
      (congrArg Host.Outcome.next (State.schedFire_plain keep quiet)), ?_, rfl, fun f other => ?_, rfl, fun lb => rfl, rfl⟩
    · exact (tfind_tdel _ _ _).trans (if_pos rfl)
    · exact (tfind_tdel _ _ _).trans (if_neg (Ne.symm other))
  case drop =>
    have dropped : s.schedDrop n = true := by
      rw [State.schedDrop, late, may, lateBy]
      exact decide_eq_true beyond
    have run := (exec_scheduleFire found (State.schedDue_of arrived serves (.inl (by rw [lateBy]; rfl))) (.inl dropped)).trans
      (congrArg Host.Outcome.next ((State.schedFire_dropped dropped late).trans
        (State.fireRecord_room (s := s.modTb (fun t => { t with sched := tdel t.sched e })) room dropped lateBy _)))
    have ring := (s.modTb (fun t => { t with sched := tdel t.sched e })).repRing_report n.lb (srcRep n.lb) (·.dropped n e l)
    obtain ⟨sched, fired, queue, rest⟩ := (s.modTb (fun t => { t with sched := tdel t.sched e })).report_rest n.lb (srcRep n.lb)
      (·.dropped n e l) s.tb s.mf
    refine ⟨_, run, ?_, fired, congrArg RepRing.tail ring, ?_, queue, rest⟩
    · rw [State.sched, sched]
      exact (tfind_tdel _ _ _).trans (if_pos rfl)
    · rw [ring]
      exact (tfind_tput _ _ _ _).trans (if_pos rfl)
  case stays =>
    refine congrArg Host.Outcome.next (if_neg ?_)
    rw [found, Option.map_some, Option.getD_some, SchedEntry.removable_iff cancel]
    rintro ⟨two, due⟩
    obtain few | ⟨d, edge, passed⟩ := stays
    · omega
    · exact passed (due d edge)
  case removed =>
    refine ⟨_, State.act_of ?_, ?_, fun f other => ?_, rfl⟩
    · rw [found, Option.map_some, Option.getD_some, SchedEntry.removable_iff cancel]
      exact ⟨two, due⟩
    · exact (tfind_tdel _ _ _).trans (if_pos rfl)
    · exact (tfind_tdel _ _ _).trans (if_neg (Ne.symm other))
  case head =>
    subst hh
    unfold State.repHeadWrite
    dsimp only
    split
    · next beyond => exact ⟨fun within => absurd beyond (by omega), fun _ => rfl, fun b other => rfl, rfl⟩
    · next within =>
      refine ⟨fun _ => ?_, fun beyond => absurd beyond within, fun b other => ?_, ?_⟩
      · split
        · exact tget_tput_same _ _ _ _
        · exact tget_tput_same _ _ _ _
      · split
        · exact tget_tput_other _ _ _ _ _ (Ne.symm other)
        · exact tget_tput_other _ _ _ _ _ (Ne.symm other)
      · split
        · rfl
        · rfl

end Sys2Proof.Machine

/-!
SUPPORT. What the master ports are asked (R563, R568), triggers, spill, refill and the pump's registers (R415-R417, R424,
R432, R433, R445), and the proof of O37.
-/

namespace Sys2Proof.Machine

/-! ### Commands of the master ports -/

section Ask

variable {s t : State}

/-- A command as `Asked` sees it: what is asked does not change when the command is issued. -/
def MCmd.asks (c : MCmd) : Nat × Bool × Nat × Nat × MOwner := (c.port, c.write, c.addr, c.bytes, c.owner)

theorem kick_asks (now : Nat) (cs : List MCmd) (acc : List MCmd) (next : Nat) :
    (kick now acc cs next).1.map MCmd.asks = (acc ++ cs).map MCmd.asks := by
  induction cs generalizing acc next with
  | nil => simp [kick]
  | cons c cs ih =>
    rw [kick]
    split
    · rw [ih]
      simp
    · split
      · rw [ih]
        simp [MCmd.asks]
      · rw [ih]
        simp

theorem asked_iff (t : State) (port : Nat) (write : Bool) (addr bytes : Nat) (o : MOwner) :
    Asked t port write addr bytes o ↔ (port, write, addr, bytes, o) ∈ t.host.mcmds.map MCmd.asks := by
  simp only [Asked, MCmd.asks, List.mem_map, Prod.mk.injEq]

theorem State.asks_ask (s : State) (port id : Nat) (write : Bool) (addr n : Nat) (data : List Nat) (part : Nat) (o : MOwner) :
    (s.ask port id write addr n data part o).host.mcmds.map MCmd.asks =
      s.host.mcmds.map MCmd.asks ++ [(port, write, addr, n, o)] := by
  refine (kick_asks _ _ _ _).trans ?_
  show (s.host.mcmds ++ [_]).map MCmd.asks = _
  rw [List.map_append]
  rfl

/-- What has been asked is among the commands. -/
theorem State.asked_ask (s : State) (port id : Nat) (write : Bool) (addr n : Nat) (data : List Nat) (part : Nat) (o : MOwner) :
    Asked (s.ask port id write addr n data part o) port write addr n o := by
  rw [asked_iff, State.asks_ask]
  simp

/-- `t` differs from `s` in the host unit alone. -/
def HostWork (s t : State) : Prop := { t with host := s.host } = s

theorem HostWork.eq (h : HostWork s t) : { t with host := s.host } = s := h

theorem HostWork.trans {u : State} (h : HostWork s t) (k : HostWork t u) : HostWork s u := by
  let g : State → State := fun v => { v with host := s.host }
  exact ((congrArg g k.eq :) : _ = g t).trans h

theorem HostWork.ask (s : State) (port id : Nat) (write : Bool) (addr n : Nat) (data : List Nat) (part : Nat) (o : MOwner) :
    HostWork s (s.ask port id write addr n data part o) := rfl

theorem HostWork.askAll (s : State) (port id : Nat) (write : Bool) (addr n : Nat) (data : List Nat) (part : Nat)
    (own : Nat → MOwner) : HostWork s (s.askAll port id write addr n data part own) := by
  unfold State.askAll
  exact foldl_rel (R := HostWork) (fun s => rfl) HostWork.trans (fun s p => HostWork.ask s _ _ _ _ _ _ _ _) _ s

theorem HostWork.pump (h : HostWork s t) : t.pump = s.pump := (congrArg State.pump h.eq :)
theorem HostWork.regs (h : HostWork s t) : t.regs = s.regs := (congrArg State.regs h.eq :)

end Ask

/-! ### Alarms of the pump -/

theorem State.pumpAlarm_spec (s : State) (b : Nat) : bit (s.pumpAlarm b).pump.alarm b = true ∧
    (s.pumpAlarm b).pump = { s.pump with alarm := s.pump.alarm ||| 2 ^ b, fresh := s.pump.fresh.set s.strokes (2 ^ b) } ∧
    { s.pumpAlarm b with pump := s.pump, evq := s.evq } = s := by
  have pump : (s.pumpAlarm b).pump =
      { s.pump with alarm := s.pump.alarm ||| 2 ^ b, fresh := s.pump.fresh.set s.strokes (2 ^ b) } := by
    simp [State.pumpAlarm, State.modPump, State.alarmEvent]
  refine ⟨?_, pump, ?_⟩
  · rw [pump]
    show bit (s.pump.alarm ||| 2 ^ b) b = true
    rw [bit_eq_testBit, Nat.testBit_or, Nat.testBit_two_pow_self, Bool.or_true]
  · simp [State.pumpAlarm, State.modPump, State.alarmEvent]

/-! ### Triggers (R433) -/

section Triggers

variable {s : State} {lb k : Fin 8} {w : Nat}

theorem exec_pumpTrigger (due : 8 * lb.val + k.val ∈ s.mf.ptrgX) (word : w = s.reg (0x70120 + 0x40 * lb.val + 4 * k.val))
    (clean : s.ecc = [] ∨ bit w 31 = false ∨ s.trigBusy lb k (bits w 26 24) = true) :
    exec (.pumpTrigger lb k) s = .next (
      let taken := s.modMf (fun m => { m with ptrgX := m.ptrgX.erase (8 * lb.val + k.val) })
      let rd (o : Nat) := readLE (s.lb lb).res (bits w 18 4 * 16 + o) 4
      if !bit w 31 then taken
      else if s.trigBusy lb k (bits w 26 24) then taken.inLatch (0x380 + (8 * lb.val + k.val)) 2 (fun x => { x with ovr := true })
      else taken.submit (.trigger lb (bits w 26 24) k) (rd 0) (rd 4) (rd 8) (rd 12) (s.strokes - 1) 0) := by
  refine (State.act_of (by simpa using due)).trans (congrArg Host.Outcome.next ?_)
  dsimp only
  rw [← word]
  split
  · rfl
  · next on =>
    split
    · rfl
    · next idle =>
      have clean : s.ecc = [] := by
        rcases clean with clean | off | busy
        · exact clean
        · exact absurd (by rw [off]; rfl) on
        · exact absurd busy idle
      have none_ : (wordsOf (bits w 18 4 * 16) 16).find? (fun w => s.isUe (.reservoir lb) w) = none := by
        rw [List.find?_eq_none]
        intro a _
        rw [State.isUe_of_clean clean]
        decide
      rw [none_]
      rfl

theorem State.submit_free {slot : Nat} (free : s.freeSlot = some slot) (b : MoveBy) (w0 src dst aux issued err : Nat) :
    (s.submit b w0 src dst aux issued err).pump.moves = s.pump.moves ++
      [{ slot := slot, by_ := b, w0 := w0, src := src, dst := dst, aux := aux, issued := issued, err := err }] ∧
    (s.submit b w0 src dst aux issued err).mf = s.mf ∧
    { s.submit b w0 src dst aux issued err with pump := s.pump, draws := s.draws } = s := by
  unfold State.submit
  rw [free]
  exact ⟨rfl, rfl, rfl⟩

end Triggers

/-! ### Spill (R416) -/

section Spill

variable {s t u : State}

/-- The spill mode, the alarm of its start and the place of the deep cistern stay. -/
structure SpillKeeps (s t : State) : Prop where
  spilling : t.pump.spilling = s.pump.spilling
  alarm : bit s.pump.alarm 1 = true → bit t.pump.alarm 1 = true
  base : t.dcBase = s.dcBase

theorem SpillKeeps.trans (h : SpillKeeps s t) (k : SpillKeeps t u) : SpillKeeps s u :=
  ⟨k.spilling.trans h.spilling, fun on => k.alarm (h.alarm on), k.base.trans h.base⟩

theorem SpillKeeps.of (spilling : t.pump.spilling = s.pump.spilling) (alarm : t.pump.alarm = s.pump.alarm) (regs : t.regs = s.regs) :
    SpillKeeps s t := by
  refine ⟨spilling, fun on => by rw [alarm]; exact on, ?_⟩
  rw [State.dcBase, State.dcBase, State.reg, State.reg, State.reg, State.reg, regs]

theorem SpillKeeps.refl (s : State) : SpillKeeps s s := .of rfl rfl rfl

theorem SpillKeeps.pumpAlarm (s : State) (b : Nat) : SpillKeeps s (s.pumpAlarm b) := by
  refine ⟨?_, fun on => ?_, ?_⟩
  · simp [State.pumpAlarm, State.modPump, State.alarmEvent]
  · have alarm : (s.pumpAlarm b).pump.alarm = s.pump.alarm ||| 2 ^ b := by
      simp [State.pumpAlarm, State.modPump, State.alarmEvent]
    rw [bit_eq_testBit] at on
    rw [alarm, bit_eq_testBit, Nat.testBit_or, on, Bool.true_or]
  · rw [State.dcBase, State.dcBase, State.reg, State.reg, State.reg, State.reg, (PumpWork.pumpAlarm s b).regs]

theorem SpillKeeps.tagCheck (s : State) (h : Nat) (ch : Option Nat) : SpillKeeps s (s.tagCheck h ch).2 := by
  unfold State.tagCheck State.tagCheckAs
  split
  · exact .of rfl rfl rfl
  · split
    · exact .refl _
    · unfold State.tagFault
      extract_lets bref v w x
      have marked : SpillKeeps s v := .of rfl rfl rfl
      have counted : SpillKeeps v w := by
        cases ch with
        | none => exact .refl _
        | some i => exact .of rfl rfl rfl
      have total : SpillKeeps w x := .of rfl rfl rfl
      clear_value v w x
      exact ((marked.trans counted).trans total).trans ((SpillKeeps.pumpAlarm x 4).trans (.of rfl rfl rfl))

theorem State.reg_eccRead_cistern (s : State) (r : Reader) (w : Nat) {o : Nat} (other : o ≠ 0x7001C) :
    (s.eccRead r .cistern w).reg o = s.reg o := by
  have counted (u : State) (ue : Bool) : (u.countEcc .cistern ue).reg o = u.reg o := by
    simp only [State.countEcc, State.countEccOn, Mem.lbore, Mem.counterReg, State.reg]
    rw [tfind_tput, if_neg (Ne.symm other)]
  unfold State.eccRead
  split
  · rfl
  · exact counted s true
  · exact counted (s.setEcc .cistern w (some .rewriting)) false

theorem SpillKeeps.eccRead (s : State) (r : Reader) (w : Nat) : SpillKeeps s (s.eccRead r .cistern w) := by
  have pump : (s.eccRead r .cistern w).pump = s.pump := (congrArg State.pump (s.eccRead_rest r .cistern w) :)
  refine ⟨by rw [pump], fun on => by rw [pump]; exact on, ?_⟩
  rw [State.dcBase, s.reg_eccRead_cistern r w (by decide), s.reg_eccRead_cistern r w (by decide), State.dcBase]

/-- The deep cistern's next slot. -/
theorem SpillKeeps.dcPop {d : Nat} (h : s.dcPop = some (d, t)) : SpillKeeps s t := by
  unfold State.dcPop at h
  split at h
  · cases h
    exact .of rfl rfl rfl
  · split at h
    · cases h
      exact .of rfl rfl rfl
    · cases h

/-- Spill begins, unless it is on. -/
def State.spillStart (s : State) : State :=
  if s.pump.spilling then s else (s.modPump (fun p => { p with spilling := true })).pumpAlarm 1

theorem State.spillStart_spec (s : State) : s.spillStart.pump.spilling = true ∧
    (s.pump.spilling = false → bit s.spillStart.pump.alarm 1 = true) ∧ s.spillStart.dcBase = s.dcBase ∧
    s.spillStart.pump.spill = s.pump.spill ∧ s.spillStart.pump.dcStack = s.pump.dcStack ∧
    s.spillStart.pump.dcNext = s.pump.dcNext ∧ s.spillStart.dcSlots = s.dcSlots ∧
    { s.spillStart with pump := s.pump, evq := s.evq } = s := by
  unfold State.spillStart
  split
  · next on => exact ⟨on, fun off => absurd on (by rw [off]; decide), rfl, rfl, rfl, rfl, rfl, rfl⟩
  · refine ⟨?_, fun _ => ?_, ?_, ?_, ?_, ?_, ?_, ?_⟩
    · simp [State.pumpAlarm, State.modPump, State.alarmEvent]
    · have alarm : ((s.modPump (fun p => { p with spilling := true })).pumpAlarm 1).pump.alarm = s.pump.alarm ||| 2 ^ 1 := by
        simp [State.pumpAlarm, State.modPump, State.alarmEvent]
      rw [alarm, bit_eq_testBit, Nat.testBit_or, Nat.testBit_two_pow_self, Bool.or_true]
    all_goals simp [State.pumpAlarm, State.modPump, State.alarmEvent, State.dcBase, State.dcSlots, State.reg]

/-- The slot that the deep cistern gives depends on its stack and its next slot alone. -/
theorem State.dcPop_congr (stack : t.pump.dcStack = s.pump.dcStack) (next : t.pump.dcNext = s.pump.dcNext)
    (slots : t.dcSlots = s.dcSlots) : t.dcPop.map Prod.fst = s.dcPop.map Prod.fst := by
  unfold State.dcPop
  rw [stack, next, slots]
  split
  · rfl
  · split
    · rfl
    · rfl

/-- What a spilled buffer's head is checked for on its way (R416). -/
def State.spillCheck (s : State) (h ch : Nat) : State :=
  let u := (s.tagCheck h (some ch)).2
  match u.bufUe h 0 (u.cell h).len with
  | some w => (u.eccRead .pump .cistern w).modCell h (fun c => { c with bad := true })
  | none => u

theorem SpillKeeps.spillCheck (s : State) (h ch : Nat) : SpillKeeps s (s.spillCheck h ch) := by
  unfold State.spillCheck
  dsimp only
  have tagged := SpillKeeps.tagCheck s h (some ch)
  split
  · exact (tagged.trans (SpillKeeps.eccRead _ _ _)).trans (.of rfl rfl rfl)
  · exact tagged

/-- The buffer `h` of channel `ch` goes to the deep slot `d`. -/
def State.spillGo (s : State) (ch k h d : Nat) : State :=
  let w := s.spillCheck h ch
  let u := { w with draws := w.draws + 1 }
  let u := (u.modPump (fun p => { p with
    spill := some { slot := k, ch := ch, head := h, deep := d }, spillNext := (ch + 1) % 16384 })).noteSlots
  let at_ := u.dcBase + 16384 * d
  let c := u.cell h
  (u.askAll 1 k true at_ c.len (u.bufRead h 0 c.len) 0 (.deep spillSlot)).ask 1 k true (at_ + 0x3FC0) 16
    (c.words.flatMap (toBytes 4)) 0 (.deep spillSlot 0x3FC0)

theorem State.spillGo_spec (s : State) (ch k h d : Nat) : SpillKeeps s (s.spillGo ch k h d) ∧
    (s.spillGo ch k h d).pump.spill = some { slot := k, ch := ch, head := h, deep := d } ∧
    (s.spillGo ch k h d).pump.spillNext = (ch + 1) % 16384 ∧
    Asked (s.spillGo ch k h d) 1 true (s.dcBase + 16384 * d + 0x3FC0) 16 (.deep spillSlot 0x3FC0) := by
  have checked := SpillKeeps.spillCheck s h ch
  unfold State.spillGo
  extract_lets w u v at_ c
  have drawn : SpillKeeps w u := .of rfl rfl rfl
  have noted : SpillKeeps u v := .of rfl rfl rfl
  have keeps : SpillKeeps s v := (checked.trans drawn).trans noted
  have spill : v.pump.spill = some { slot := k, ch := ch, head := h, deep := d } := rfl
  have next : v.pump.spillNext = (ch + 1) % 16384 := rfl
  have place : at_ = s.dcBase + 16384 * d := congrArg (· + 16384 * d) keeps.base
  clear_value v at_ c
  subst place
  have work := (HostWork.askAll v 1 k true (s.dcBase + 16384 * d) c.len (v.bufRead h 0 c.len) 0 (.deep spillSlot)).trans
    (HostWork.ask (v.askAll 1 k true (s.dcBase + 16384 * d) c.len (v.bufRead h 0 c.len) 0 (.deep spillSlot)) 1 k true
      (s.dcBase + 16384 * d + 0x3FC0) 16 (c.words.flatMap (toBytes 4)) 0 (.deep spillSlot 0x3FC0))
  refine ⟨keeps.trans (.of (by rw [work.pump]) (by rw [work.pump]) work.regs), by rw [work.pump, spill], by rw [work.pump, next],
    State.asked_ask _ _ _ _ _ _ _ _ _⟩

theorem exec_spillVisit {ch : Fin 16384} {b k : Nat} (on : s.spillOn = true) (idle : s.pump.spill = none)
    (pick : s.spillPick = some ch.val) (found : s.spillable ch = some b) (slot : s.freeSlot = some k) :
    exec (.spillVisit ch) s = .next (match s.spillStart.dcPop with
      | none => (s.spillStart.modPump (fun p => { p with dcFull := true, spilling := false })).pumpAlarm 2
      | some (d, u) => u.spillGo ch k (b % 2 ^ 15) d) := by
  show execSpillVisit ch s = _
  unfold execSpillVisit
  rw [found, slot]
  refine (State.act_of (by rw [on, idle, pick, beq_self_eq_true]; rfl)).trans ?_
  rfl

end Spill

/-! ### Refill (R417) -/

section Refill

variable {s u : State}

theorem State.moves_takeCells {n : Nat} {cs : List Nat} (h : s.takeCells n = some (cs, u)) : u.pump.moves = s.pump.moves := by
  induction n generalizing s cs with
  | zero =>
    cases h
    rfl
  | succ n ih =>
    simp only [State.takeCells, Option.bind_eq_some_iff, Option.map_eq_some_iff, Prod.mk.injEq] at h
    obtain ⟨⟨c, v⟩, first, ⟨ds, w⟩, more, -, rfl⟩ := h
    refine (ih more).trans ?_
    unfold State.takeCell at first
    split at first
    · cases first
    · cases first
      rfl

theorem State.moves_linkGo (hdr : Cell) (cs : List Nat) :
    ∀ (first : Bool) (s : State), (State.linkCells.go hdr s first cs).pump.moves = s.pump.moves := by
  induction cs with
  | nil => exact fun _ _ => rfl
  | cons c cs ih =>
    intro first s
    cases cs with
    | nil => rfl
    | cons d cs => exact ih false _

theorem State.moves_allocBuf {len h : Nat} {hdr : Cell} (found : s.allocBuf len hdr = some (h, u)) :
    u.pump.moves = s.pump.moves := by
  unfold State.allocBuf at found
  dsimp only at found
  split at found
  · cases found
  · split at found
    · next cells =>
      cases found
      exact (State.moves_linkGo _ _ _ _).trans (State.moves_takeCells cells)
    · cases found

/-- The deep reference of slot `d` names its header. -/
theorem State.hdr_deepRef (s : State) {d : Nat} (small : d < 2 ^ 22) :
    s.hdr (deepRef d) = tget {} s.pump.dcHdr (d % 2 ^ 22) := by
  have deep : isDeep (deepRef d) = true := by
    rw [isDeep, deepRef, bits, beq_iff_eq]
    omega
  have slot : bits (deepRef d) 21 0 = d % 2 ^ 22 := by
    rw [deepRef, bits]
    omega
  rw [State.hdr, if_pos deep, slot]

theorem exec_refill {m : Move} (found : s.pump.moves.find? (fun m => m.phase == .refill && m.head.isNone) = some m) :
    exec .refill s = (match s.allocBuf (s.hdr (deepRef (m.deep.getD 0))).len
        { s.hdr (deepRef (m.deep.getD 0)) with next := 0, last := false } with
      | none => .next s
      | some (h, u) =>
        let v := u.modMove m.slot (fun n => { n with head := some h,
                                                     data := List.replicate (s.hdr (deepRef (m.deep.getD 0))).len 0 })
        .next (v.askAll 1 m.slot false (v.dcBase + 16384 * m.deep.getD 0) (s.hdr (deepRef (m.deep.getD 0))).len [] 0
          (.deep m.slot))) := by
  show execRefill s = _
  unfold execRefill
  rw [found] <;> rfl

end Refill

/-! ### The pump's registers (R415, R424, R445) -/

section Registers

variable (s : State)

/-- Spill stays on where nothing ends it (R416). -/
theorem State.spillStop_spec : s.spillStop = { s with pump := { s.pump with
    spilling := s.pump.spilling && bit (s.reg 0x70000) 0 && s.pump.dcReady && decide (s.freeCells < s.resumeWm) } } := by
  have free : decide (s.freeCells < s.resumeWm) = !decide (s.resumeWm ≤ s.freeCells) := by
    simp only [← Nat.not_le, decide_not]
  unfold State.spillStop
  rw [free]
  cases on : s.pump.spilling <;> cases bit (s.reg 0x70000) 0 <;> cases s.pump.dcReady <;>
    cases decide (s.resumeWm ≤ s.freeCells) <;> simp [State.modPump, ← on]

theorem State.pmpCtrlWrite_on {w : Nat} (on : bit w 1 = true) : s.pmpCtrlWrite w =
    { s.setReg 0x70000 (bits w 1 0) with pump := (
      if bit (s.reg 0x70000) 1 then { s.pump with
        spilling := s.pump.spilling && bit w 0 && s.pump.dcReady && decide (s.freeCells < s.resumeWm) }
      else { s.pump with dcBuilding := true, dcReady := false, spilling := false }) } := by
  have kept : (s.setReg 0x70000 (bits w 1 0)).reg 0x70010 = s.reg 0x70010 := State.reg_setReg_other _ _ _ _ (by decide)
  have low : bit ((s.setReg 0x70000 (bits w 1 0)).reg 0x70000) 0 = bit w 0 := by
    rw [State.reg_setReg_same]
    simp only [bit, bits]
    congr 1
    omega
  have mark : (s.setReg 0x70000 (bits w 1 0)).resumeWm = s.resumeWm := by rw [State.resumeWm, kept, State.resumeWm]
  unfold State.pmpCtrlWrite
  dsimp only
  rw [on, Bool.true_and]
  cases bit (s.reg 0x70000) 1
  · rw [State.spillStop_spec]
    simp [State.modPump]
  · rw [State.spillStop_spec]
    simp only [Bool.not_true, Bool.false_eq_true, if_false, if_true, low, mark]
    rfl

end Registers

/-- Settles O37: each case evaluates its command by the equations above; a stop or a refusal leaves the alarm that
`pumpAlarm_spec` names. -/
theorem triggersSpillAndPumpRegisters : Obligations.TriggersSpillAndPumpRegisters := by
  unfold Obligations.TriggersSpillAndPumpRegisters
  refine ⟨?trigger, ?busy, ?off, ?spill, ?full, ?refill, ?wait, ?dcEnable, ?dcReady, ?noDeep, ?crHead, ?qdepth⟩
  case trigger =>
    intro lb k i w q a slot s index due word queue place on idle clean free
    subst index queue place
    refine ⟨_, exec_pumpTrigger due word (.inl clean), ?_⟩
    have free' : (s.modMf (fun m => { m with ptrgX := m.ptrgX.erase (8 * lb.val + k.val) })).freeSlot = some slot := free
    dsimp only
    rw [if_neg (by rw [on]; decide), if_neg (by rw [idle]; decide), Nat.add_zero]
    generalize readLE (s.lb lb).res = rd
    obtain ⟨moves, mf, rest⟩ := State.submit_free free' (.trigger lb (bits w 26 24) k) (rd (bits w 18 4 * 16) 4)
      (rd (bits w 18 4 * 16 + 4) 4) (rd (bits w 18 4 * 16 + 8) 4) (rd (bits w 18 4 * 16 + 12) 4) (s.strokes - 1) 0
    generalize State.submit _ _ _ _ _ _ _ _ = t at *
    refine ⟨moves, congrArg ManifoldSt.ptrgX mf, ?_⟩
    exact (congrArg (fun t : State => { t with mf := s.mf }) rest :)
  case busy =>
    rintro lb k i w s rfl due rfl on busy
    refine ⟨_, exec_pumpTrigger due rfl (.inr (.inr busy)), ?_⟩
    dsimp only
    rw [if_neg (by rw [on]; decide), if_pos busy]
    exact ⟨rfl, rfl, by rw [State.inStat_inLatch_same], rfl⟩
  case off =>
    rintro lb k i s rfl due off
    rw [exec_pumpTrigger due rfl (.inr (.inl off))]
    dsimp only
    rw [if_pos (by rw [off]; rfl)]
    rfl
  case spill =>
    intro ch b k d s u on idle pick found slot pop
    obtain ⟨mode, alarm, base, -, stack, next, slots, -⟩ := s.spillStart_spec
    have same := State.dcPop_congr stack next slots
    rw [pop] at same
    obtain ⟨⟨d', v⟩, pop', rfl⟩ := Option.map_eq_some_iff.1 same
    obtain ⟨keeps, spill, next', asked⟩ := v.spillGo_spec ch k (b % 2 ^ 15) d'
    have keeps := (SpillKeeps.dcPop pop').trans keeps
    have popped := (SpillKeeps.dcPop pop').base
    refine ⟨_, (exec_spillVisit on idle pick found slot).trans (by rw [pop']), ⟨_, spill, rfl, rfl, rfl, rfl, rfl⟩, next',
      keeps.spilling.trans mode, fun off => keeps.alarm (alarm off), ?_⟩
    rw [popped, base] at asked
    exact asked
  case full =>
    intro ch b k s on idle pick found slot pop
    obtain ⟨-, -, -, spill, stack, next, slots, rest⟩ := s.spillStart_spec
    have same := State.dcPop_congr stack next slots
    rw [pop] at same
    have pop' : s.spillStart.dcPop = none := Option.map_eq_none_iff.1 same
    refine ⟨_, (exec_spillVisit on idle pick found slot).trans (by rw [pop']), ?_⟩
    generalize s.spillStart = v at *
    obtain ⟨alarm, pump, rest'⟩ := (v.modPump (fun p => { p with dcFull := true, spilling := false })).pumpAlarm_spec 2
    have rest : { (v.modPump (fun p => { p with dcFull := true, spilling := false })).pumpAlarm 2 with
        pump := s.pump, evq := s.evq } = s := by
      let g : State → State := fun w => { w with pump := s.pump, evq := s.evq }
      exact ((congrArg g rest' :) : _ = g v).trans rest
    refine ⟨by rw [pump]; exact spill.trans idle, by rw [pump]; rfl, alarm, (congrArg State.host rest :), rest⟩
  case refill =>
    rintro m h d c s u found deep rfl small alloc
    have name : s.hdr (deepRef (m.deep.getD 0)) = tget {} s.pump.dcHdr (d % 2 ^ 22) := by
      rw [deep]
      exact s.hdr_deepRef small
    rw [← name] at alloc ⊢
    have run := exec_refill found
    rw [alloc] at run
    refine ⟨_, run, { m with head := some h, data := List.replicate (s.hdr (deepRef (m.deep.getD 0))).len 0 }, ?_, rfl, rfl, rfl⟩
    rw [(HostWork.askAll _ _ _ _ _ _ _ _ _).pump]
    have member : m ∈ u.pump.moves := by
      rw [State.moves_allocBuf alloc]
      exact List.mem_of_find?_eq_some found
    exact List.mem_map.2 ⟨m, member, if_pos rfl⟩
  case wait =>
    rintro m d c s found deep rfl small few
    have name : s.hdr (deepRef (m.deep.getD 0)) = tget {} s.pump.dcHdr (d % 2 ^ 22) := by
      rw [deep]
      exact s.hdr_deepRef small
    rw [← name] at few
    have none_ : s.allocBuf (s.hdr (deepRef (m.deep.getD 0))).len
        { s.hdr (deepRef (m.deep.getD 0)) with next := 0, last := false } = none := if_pos few
    rw [exec_refill found, none_]
  case dcEnable =>
    intro w s
    have on : bit (putBits w.toNat 1 1 1) 1 = true := by
      rw [bit, putBits_eq (by omega), beq_iff_eq]
      omega
    have low : bit (putBits w.toNat 1 1 1) 0 = bit w.toNat 0 := by
      rw [bit, bit, putBits_eq (by omega)]
      congr 1
      omega
    refine ⟨_, congrArg Host.Outcome.next (s.pmpCtrlWrite_on on), ?_, ?_, fun o other => ?_, ?_, ?_⟩
    · refine (congrArg (bit · 0) (s.reg_setReg_same 0x70000 _)).trans (Eq.trans ?_ low)
      simp only [bit, bits]
      congr 1
      omega
    · refine (congrArg (bit · 1) (s.reg_setReg_same 0x70000 _)).trans (Eq.trans ?_ on)
      simp only [bit, bits]
      congr 1
      omega
    · exact s.reg_setReg_other _ _ _ other
    · rw [low]
    · rfl
  case dcReady =>
    intro s building some_
    have slots : s.dcStackSlots = (4 * bits (s.reg 0x70038) 22 0 + 16383) / 16384 := by
      rw [State.dcStackSlots, State.dcSlots, ceilDiv]
      omega
    refine ⟨_, State.act_of (by rw [building, State.dcSlots, decide_eq_true some_]; rfl), ?_, rfl⟩
    rw [← slots]
    rfl
  case noDeep =>
    intro s none_
    have slots : s.dcSlots = 0 := none_
    refine ⟨?_, ?_⟩
    · show s.act _ _ = _
      rw [slots]
      simp [State.act]
    · rw [State.spillOn, slots]
      simp
  case crHead =>
    rintro lb w h d size base s rfl ring rfl
    have size_ : (ringAt (s.reg (0x70110 + 0x40 * lb.val))).2 = size := by rw [← ring]
    refine ⟨s.crHeadWrite lb w.toNat, rfl, ?_⟩
    unfold State.crHeadWrite
    dsimp only
    rw [size_]
    split
    · next above =>
      obtain ⟨alarm, pump, rest⟩ := s.pumpAlarm_spec 9
      have same (b : Nat) : s.pumpCfgErr.pumpLb b = s.pumpLb b := by
        show tget {} (s.pumpAlarm 9).pump.lbs b = _
        rw [pump]
        rfl
      exact ⟨fun b _ => same b, fun le => absurd above (by omega), fun _ => ⟨same _, alarm⟩, rest⟩
    · next fits =>
      refine ⟨fun b other => tget_tput_other _ _ _ _ _ (Ne.symm other), fun _ => ⟨tget_tput_same _ _ _ _, rfl⟩,
        fun lt => absurd lt fits, rfl⟩
  case qdepth =>
    intro r w off v s place value
    have small : v < 2 ^ 32 := by
      rw [value]
      split <;> omega
    have stored : (if off < 0x70100 then depthByte w.toNat 0 else depthByte w.toNat 0 + 2 ^ 8 * depthByte w.toNat 1 +
        2 ^ 16 * depthByte w.toNat 2 + 2 ^ 24 * depthByte w.toNat 3) = v := by
      by_cases pair : r.val < 16
      · rw [if_pos pair] at place value
        rw [if_neg (by omega), value]
        rfl
      · rw [if_neg pair] at place value
        rw [if_pos (by omega), value]
        rfl
    have run : exec (.qdepthWrite r w) s = .next (if 512 < (s.setReg off v).depthSum ∧ s.depthSum < (s.setReg off v).depthSum
        then s.pumpCfgErr else s.setReg off v) := by
      show Host.Outcome.next (s.depthWrite _ _) = _
      rw [← place]
      unfold State.depthWrite
      rw [stored]
    refine ⟨_, run, ?_⟩
    split
    · next above =>
      obtain ⟨alarm, pump, rest⟩ := s.pumpAlarm_spec 9
      have regs : s.pumpCfgErr.regs = s.regs := (PumpWork.pumpAlarm s 9).regs
      have same (o : Nat) : s.pumpCfgErr.reg o = s.reg o := by rw [State.reg, regs, State.reg]
      refine ⟨fun o _ => same o, fun within => absurd above (by omega), fun _ _ => ⟨same off, alarm⟩, ?_⟩
      exact (congrArg (fun t : State => { t with regs := s.regs }) rest :)
    · next within =>
      refine ⟨fun o other => s.reg_setReg_other _ _ _ other, fun _ => ⟨?_, rfl⟩, fun above more => absurd ⟨above, more⟩ within, rfl⟩
      exact (s.reg_setReg_same off v).trans (Nat.mod_eq_of_lt small)

end Sys2Proof.Machine

/-!
SUPPORT. Host partitions, ring pairs and the master ports (R450-R455, R476), and the proof of O38.
-/

namespace Sys2Proof.Machine

/-! ### Work on the commands of the master ports -/

/-- `t` differs from `s` in the commands of the master ports alone. -/
def MasterWork (s t : State) : Prop :=
  { t with host := { t.host with mcmds := s.host.mcmds, nextHm := s.host.nextHm } } = s

section Master

variable {s t u : State}

theorem MasterWork.eq (h : MasterWork s t) :
    { t with host := { t.host with mcmds := s.host.mcmds, nextHm := s.host.nextHm } } = s := h

theorem MasterWork.refl (s : State) : MasterWork s s := rfl

theorem MasterWork.trans (h : MasterWork s t) (k : MasterWork t u) : MasterWork s u := by
  let g : State → State := fun v =>
    { v with host := { v.host with mcmds := s.host.mcmds, nextHm := s.host.nextHm } }
  exact ((congrArg g k.eq :) : _ = g t).trans h

theorem MasterWork.work (h : MasterWork s t) : HostWork s t := by
  let g : State → State := fun v => { v with host := s.host }
  exact (congrArg g h.eq :)

theorem MasterWork.rings (h : MasterWork s t) : t.host.rings = s.host.rings := (congrArg (fun v => v.host.rings) h.eq :)
theorem MasterWork.parts (h : MasterWork s t) : t.host.parts = s.host.parts := (congrArg (fun v => v.host.parts) h.eq :)

theorem MasterWork.ring (h : MasterWork s t) (r : Nat) : t.ring r = s.ring r := by rw [State.ring, h.rings, State.ring]
theorem MasterWork.part (h : MasterWork s t) (p : Nat) : t.part p = s.part p := by rw [State.part, h.parts, State.part]

theorem MasterWork.ask (s : State) (port id : Nat) (write : Bool) (addr n : Nat) (data : List Nat) (part : Nat) (o : MOwner) :
    MasterWork s (s.ask port id write addr n data part o) := rfl

theorem MasterWork.dropCmd (s : State) (c : MCmd) : MasterWork s (s.dropCmd c) := rfl

theorem HostWork.refl (s : State) : HostWork s s := rfl
theorem HostWork.modHost (s : State) (f : HostSt → HostSt) : HostWork s (s.modHost f) := rfl

theorem HostWork.tb (h : HostWork s t) : t.tb = s.tb := (congrArg State.tb h.eq :)
theorem HostWork.reg (h : HostWork s t) (o : Nat) : t.reg o = s.reg o := by rw [State.reg, h.regs, State.reg]
theorem HostWork.hpEn (h : HostWork s t) (p : Nat) : t.hpEn p = s.hpEn p := by rw [State.hpEn, h.reg, State.hpEn]
theorem HostWork.hpHint (h : HostWork s t) (p : Nat) : t.hpHint p = s.hpHint p := by rw [State.hpHint, h.reg, State.hpHint]
theorem HostWork.ringCfg (h : HostWork s t) (r : Nat) : t.ringCfg r = s.ringCfg r := by rw [State.ringCfg, h.reg, State.ringCfg]
theorem HostWork.sqSize (h : HostWork s t) (r : Nat) : t.sqSize r = s.sqSize r := by rw [State.sqSize, h.ringCfg, State.sqSize]
theorem HostWork.cqSize (h : HostWork s t) (r : Nat) : t.cqSize r = s.cqSize r := by rw [State.cqSize, h.ringCfg, State.cqSize]

theorem State.ring_modRing_other (s : State) {r q : Nat} (f : HRing → HRing) (other : q ≠ r) : (s.modRing r f).ring q = s.ring q := by
  rw [State.ring_modRing, if_neg (Ne.symm other)]
theorem State.part_modPart_other (s : State) {p q : Nat} (f : HPart → HPart) (other : q ≠ p) : (s.modPart p f).part q = s.part q := by
  rw [State.part_modPart, if_neg (Ne.symm other)]

end Master

/-- The alarm of the host unit. -/
theorem State.hostAlarm_spec (s : State) (b : Nat) : bit (s.hostAlarm b).host.alarm b = true ∧
    (s.hostAlarm b).host.rings = s.host.rings ∧ (s.hostAlarm b).host.parts = s.host.parts ∧
    { s.hostAlarm b with host := s.host, evq := s.evq } = s := by
  refine ⟨?_, rfl, rfl, rfl⟩
  show bit (s.host.alarm ||| 2 ^ b) b = true
  rw [bit_eq_testBit, Nat.testBit_or, Nat.testBit_two_pow_self, Bool.or_true]

/-! ### Polls (R450-R453) -/

section Polls

variable (s : State)

theorem State.issuePoll_spec (p : Nat) :
    (s.issuePoll p).part p = { s.part p with polling := true, hint := false, pollAt := s.tb.elapsed } ∧
    (∀ q, q ≠ p → (s.issuePoll p).part q = s.part q) ∧ (s.issuePoll p).host.rings = s.host.rings ∧
    Asked (s.issuePoll p) 0 false (bits (s.reg (0x90110 + 32 * p)) 31 6 * 64 + 2 ^ 32 * s.reg (0x90114 + 32 * p)) 64 (.poll p) ∧
    HostWork s (s.issuePoll p) := by
  have low : partBase p + 16 = 0x90110 + 32 * p := by rw [partBase]; omega
  have high : partBase p + 20 = 0x90114 + 32 * p := by rw [partBase]; omega
  unfold State.issuePoll
  extract_lets u
  have own : u.part p = { s.part p with polling := true, hint := false, pollAt := s.tb.elapsed } := State.part_modPart_same _ _ _
  have others (q : Nat) (other : q ≠ p) : u.part q = s.part q := s.part_modPart_other _ other
  have rings : u.host.rings = s.host.rings := rfl
  have work : HostWork s u := rfl
  clear_value u
  rw [low, high, work.reg, work.reg]
  generalize bits (s.reg (0x90110 + 32 * p)) 31 6 * 64 + 2 ^ 32 * s.reg (0x90114 + 32 * p) = a
  have asked := MasterWork.ask u 0 0 false a 64 [] p (.poll p)
  exact ⟨(asked.part p).trans own, fun q other => (asked.part q).trans (others q other), asked.rings.trans rings,
    State.asked_ask _ _ _ _ _ _ _ _ _, work.trans asked.work⟩

/-- A poll that a hint asked for meanwhile (R452). -/
def State.pollAgain (p : Nat) : State := if (s.part p).hint && s.hpEn p then s.issuePoll p else s

theorem State.pollAgain_spec (p : Nat) : HostWork s (s.pollAgain p) ∧ (s.pollAgain p).host.rings = s.host.rings ∧
    (s.pollAgain p).host.alarm = s.host.alarm ∧ ((s.pollAgain p).part p).pollErr = (s.part p).pollErr ∧
    ((s.pollAgain p).part p).pollErrs = (s.part p).pollErrs ∧
    ((s.part p).polling = false → ((s.pollAgain p).part p).polling = ((s.part p).hint && s.hpEn p)) := by
  unfold State.pollAgain
  split
  · next again =>
    obtain ⟨own, -, rings, -, work⟩ := s.issuePoll_spec p
    exact ⟨work, rings, rfl, by rw [own], by rw [own], fun _ => by rw [own, again]⟩
  · next rest => exact ⟨rfl, rfl, rfl, rfl, rfl, fun idle => idle.trans (Bool.eq_false_iff.2 rest).symm⟩

/-- What a hint does for partition `p` (R452). -/
def State.hintPart (s : State) (p : Nat) : State :=
  if s.hpEn p && s.hpHint p then
    (if (s.part p).polling then s.modPart p (fun h => { h with hint := true }) else s.issuePoll p)
  else s

/-- The partition that a hint leaves (R452). -/
def State.hinted (s : State) (p : Nat) : HPart :=
  if s.hpEn p && s.hpHint p then
    (if (s.part p).polling then { s.part p with hint := true }
     else { s.part p with polling := true, hint := false, pollAt := s.tb.elapsed })
  else s.part p

theorem State.hintPart_spec (p : Nat) : (s.hintPart p).part p = s.hinted p ∧
    (∀ q, q ≠ p → (s.hintPart p).part q = s.part q) ∧ HostWork s (s.hintPart p) := by
  unfold State.hintPart State.hinted
  split
  · split
    · exact ⟨State.part_modPart_same _ _ _, fun q other => s.part_modPart_other _ other, rfl⟩
    · obtain ⟨own, others, -, -, work⟩ := s.issuePoll_spec p
      exact ⟨own, others, work⟩
  · exact ⟨rfl, fun _ _ => rfl, rfl⟩

theorem State.hinted_congr {s t : State} {p : Nat} (work : HostWork s t) (same : t.part p = s.part p) : t.hinted p = s.hinted p := by
  unfold State.hinted
  rw [work.hpEn, work.hpHint, same, work.tb]

theorem State.hintAll_spec (n : Nat) :
    (∀ p, p < n → ((List.range n).foldl State.hintPart s).part p = s.hinted p) ∧
    (∀ p, n ≤ p → ((List.range n).foldl State.hintPart s).part p = s.part p) ∧
    HostWork s ((List.range n).foldl State.hintPart s) := by
  induction n with
  | zero => exact ⟨fun p below => absurd below (by omega), fun _ _ => rfl, rfl⟩
  | succ n ih =>
    obtain ⟨done, rest, work⟩ := ih
    rw [List.range_succ, List.foldl_append]
    generalize (List.range n).foldl State.hintPart s = t at *
    obtain ⟨own, others, step⟩ := t.hintPart_spec n
    refine ⟨fun p below => ?_, fun p above => ?_, work.trans step⟩
    · by_cases last : p = n
      · subst last
        exact own.trans (State.hinted_congr work (rest p (Nat.le_refl p)))
      · exact (others p last).trans (done p (by omega))
    · exact (others p (by omega)).trans (rest p (by omega))

theorem State.irqCheck_spec (r : Nat) : HostWork s (s.irqCheck r) ∧ (s.irqCheck r).host.parts = s.host.parts ∧
    (∀ q, ((s.irqCheck r).ring q).sqTail = (s.ring q).sqTail ∧ ((s.irqCheck r).ring q).cqHead = (s.ring q).cqHead ∧
      ((s.irqCheck r).ring q).sqHead = (s.ring q).sqHead) ∧ ∀ q, q ≠ r → (s.irqCheck r).ring q = s.ring q := by
  unfold State.irqCheck
  dsimp only
  split
  · exact ⟨rfl, rfl, fun _ => ⟨rfl, rfl, rfl⟩, fun _ _ => rfl⟩
  · split
    · refine ⟨rfl, rfl, fun q => ?_, fun q other => s.ring_modRing_other _ other⟩
      by_cases own : q = r
      · subst own
        rw [State.ring_modRing_same]
        exact ⟨rfl, rfl, rfl⟩
      · rw [s.ring_modRing_other _ own]
        exact ⟨rfl, rfl, rfl⟩
    · exact ⟨rfl, rfl, fun _ => ⟨rfl, rfl, rfl⟩, fun _ _ => rfl⟩

/-- The indices of ring pair `8 * p + l` come into force (R451). -/
def State.pollRing (p : Nat) (data : List Nat) (s : State) (l : Nat) : State :=
  (s.modRing (8 * p + l) (fun g => { g with
    sqTail := ofBytes ((data.drop (8 * l)).take 4) % 4096 % s.sqSize (8 * p + l)
    cqHead := ofBytes ((data.drop (8 * l + 4)).take 4) % 4096 % s.cqSize (8 * p + l) })).irqCheck (8 * p + l)

/-- Ring pair `8 * p + l` of `t` holds the indices that the poll brought. -/
def Polled (p : Nat) (data : List Nat) (s t : State) (l : Nat) : Prop :=
  (t.ring (8 * p + l)).sqTail = ofBytes ((data.drop (8 * l)).take 4) % 4096 % s.sqSize (8 * p + l) ∧
  (t.ring (8 * p + l)).cqHead = ofBytes ((data.drop (8 * l + 4)).take 4) % 4096 % s.cqSize (8 * p + l) ∧
  (t.ring (8 * p + l)).sqHead = (s.ring (8 * p + l)).sqHead

theorem State.pollRing_spec (p : Nat) (data : List Nat) (l : Nat) : HostWork s (s.pollRing p data l) ∧
    (s.pollRing p data l).host.parts = s.host.parts ∧ Polled p data s (s.pollRing p data l) l ∧
    ∀ q, q ≠ 8 * p + l → (s.pollRing p data l).ring q = s.ring q := by
  unfold State.pollRing
  obtain ⟨work, parts, kept, others⟩ := State.irqCheck_spec (s.modRing (8 * p + l) (fun g => { g with
    sqTail := ofBytes ((data.drop (8 * l)).take 4) % 4096 % s.sqSize (8 * p + l)
    cqHead := ofBytes ((data.drop (8 * l + 4)).take 4) % 4096 % s.cqSize (8 * p + l) })) (8 * p + l)
  obtain ⟨tail, head, sqHead⟩ := kept (8 * p + l)
  rw [State.ring_modRing_same] at tail head sqHead
  exact ⟨(HostWork.modHost s _).trans work, parts, ⟨tail, head, sqHead⟩,
    fun q other => (others q other).trans (s.ring_modRing_other _ other)⟩

theorem State.pollRings_spec (p : Nat) (data : List Nat) (n : Nat) :
    (∀ l, l < n → Polled p data s ((List.range n).foldl (State.pollRing p data) s) l) ∧
    (∀ q, (∀ l, l < n → q ≠ 8 * p + l) → ((List.range n).foldl (State.pollRing p data) s).ring q = s.ring q) ∧
    ((List.range n).foldl (State.pollRing p data) s).host.parts = s.host.parts ∧
    HostWork s ((List.range n).foldl (State.pollRing p data) s) := by
  induction n with
  | zero => exact ⟨fun p below => absurd below (by omega), fun _ _ => rfl, rfl, rfl⟩
  | succ n ih =>
    obtain ⟨done, rest, parts, work⟩ := ih
    rw [List.range_succ, List.foldl_append]
    generalize (List.range n).foldl (State.pollRing p data) s = t at *
    obtain ⟨step, parts', own, others⟩ := t.pollRing_spec p data n
    refine ⟨fun l below => ?_, fun q outside => ?_, parts'.trans parts, work.trans step⟩
    · by_cases last : l = n
      · subst last
        obtain ⟨tail, head, sqHead⟩ := own
        refine ⟨tail.trans (by rw [work.sqSize]), head.trans (by rw [work.cqSize]), sqHead.trans ?_⟩
        rw [rest _ (fun i below => by omega)]
      · obtain ⟨tail, head, sqHead⟩ := done l (by omega)
        have same := others (8 * p + l) (by omega)
        exact ⟨same ▸ tail, same ▸ head, same ▸ sqHead⟩
    · exact (others q (outside n (by omega))).trans (rest q (fun l below => outside l (by omega)))

end Polls

/-! ### Fetches (R454, R455) -/

section Fetch

variable {s : State}

theorem State.fetchPick_room {p r : Nat} (pick : s.fetchPick p = some r) : 0 < s.fetchRoom r := by
  unfold State.fetchPick at pick
  split at pick
  · next room =>
    cases pick
    exact room
  · exact of_decide_eq_true (List.find?_some pick :)

theorem State.fetchRoom_le {r : Nat} (room : 0 < s.fetchRoom r) :
    s.fetchRoom r ≤ ((s.ring r).sqTail + s.sqSize r - (s.ring r).sqHead) % s.sqSize r ∧
    s.fetchRoom r ≤ 8 - (s.sqBase r / 32 + (s.ring r).sqHead) % 8 := by
  unfold State.fetchRoom at room ⊢
  dsimp only at room ⊢
  split at room
  · exact absurd room (by decide)
  · next open_ =>
    rw [if_neg open_]
    exact ⟨Nat.min_le_left _ _, (Nat.min_le_right _ _).trans ((Nat.min_le_left _ _).trans (Nat.min_le_left _ _))⟩

end Fetch

/-! ### HR_CFG (R454, R476) -/

section Cfg

variable {w : Nat}

theorem cfgValue_lt (w : Nat) : cfgValue w < 2 ^ 32 := by
  have low : bits w 1 0 < 4 := Nat.mod_lt _ (by decide)
  rw [cfgValue]
  omega

theorem bits_cfgValue (w : Nat) : bit (cfgValue w) 0 = bit w 0 ∧ bits (cfgValue w) 11 8 = max 4 (min 12 (bits w 11 8)) ∧
    bits (cfgValue w) 15 12 = max 4 (min 12 (bits w 15 12)) := by
  have low : bits w 1 0 < 4 := Nat.mod_lt _ (by decide)
  refine ⟨?_, ?_, ?_⟩
  · rw [bit, bit, cfgValue, bits]
    congr 1
    omega
  · rw [cfgValue]
    generalize bits w 1 0 = a at *
    generalize bits w 11 8 = b
    generalize bits w 15 12 = c
    rw [bits]
    omega
  · rw [cfgValue]
    generalize bits w 1 0 = a at *
    generalize bits w 11 8 = b
    generalize bits w 15 12 = c
    rw [bits]
    omega

end Cfg

/-- Settles O38: polls, what they bring and fetches by the equations above, a partition or ring pair at a time; a write of
HR_CFG by the value that it stores. -/
theorem pollsFetchesAndRingEnable : Obligations.PollsFetchesAndRingEnable := by
  unfold Obligations.PollsFetchesAndRingEnable
  refine ⟨?poll, ?hint, ?back, ?failed, ?fetch, ?enable, ?again⟩
  case poll =>
    intro p s up on en idle due
    obtain ⟨own, others, -, asked, work⟩ := s.issuePoll_spec p
    exact ⟨_, State.act_of (by rw [up, on, en, idle, decide_eq_true due]; rfl), own, others, asked, work⟩
  case hint =>
    intro s up on
    obtain ⟨done, -, -⟩ := s.hintAll_spec 8
    exact ⟨_, State.act_of (by rw [up, on]; rfl), done⟩
  case back =>
    intro p c data s found
    let u := (s.dropCmd c).modPart p (fun h => { h with polling := false })
    have drop := MasterWork.dropCmd s c
    have dropped : HostWork s u := drop.work.trans (HostWork.modHost _ _)
    have own : u.part p = { s.part p with polling := false } :=
      (State.part_modPart_same _ _ _).trans (by rw [drop.part])
    have rings : ∀ r, u.ring r = s.ring r := fun r => drop.ring r
    have run : exec (.pollReturn p 0 data) s =
        .next (((List.range 8).foldl (State.pollRing p (data.map (·.toNat))) u).pollAgain p) := by
      show execPollReturn p 0 data s = _
      unfold execPollReturn
      rw [found]
      rfl
    clear_value u
    obtain ⟨polled, others, parts, work⟩ := u.pollRings_spec p (data.map (·.toNat)) 8
    generalize (List.range 8).foldl (State.pollRing p (data.map (·.toNat))) u = v at *
    have part : v.part p = { s.part p with polling := false } := by rw [State.part, parts]; exact own
    have all : HostWork s v := dropped.trans work
    obtain ⟨again, rings', -, -, -, polling⟩ := v.pollAgain_spec p
    have ring' (r : Nat) : (v.pollAgain p).ring r = v.ring r := by rw [State.ring, rings', State.ring]
    refine ⟨_, run, ?_, fun l below => ?_, fun r other => ?_, all.trans again⟩
    · rw [polling (by rw [part]), part, all.hpEn]
    · obtain ⟨tail, head, sqHead⟩ := polled l below
      rw [ring', ← dropped.sqSize, ← dropped.cqSize, ← rings]
      exact ⟨tail, head, sqHead⟩
    · refine ((ring' r).trans (others r fun l below eq => other ?_)).trans (rings r)
      rw [partOf, eq]
      omega
  case failed =>
    intro p e c data s error found
    have drop := MasterWork.dropCmd s c
    let u := (s.dropCmd c).modPart p (fun h => { h with polling := false })
    have dropped : HostWork s u := drop.work.trans (HostWork.modHost _ _)
    have own : u.part p = { s.part p with polling := false } := (State.part_modPart_same _ _ _).trans (by rw [drop.part])
    have rings : u.host.rings = s.host.rings := drop.rings
    have run : exec (.pollReturn p e data) s = .next (((u.modPart p (fun h => { h with
        pollErr := true, fresh := h.fresh.set u.moment 1, pollErrs := satInc 16 h.pollErrs })).hostAlarm 2).pollAgain p) := by
      show execPollReturn p e data s = _
      unfold execPollReturn
      rw [found]
      have wrong : e.val ≠ 0 := fun zero => error (Fin.ext zero)
      unfold State.pollBack
      dsimp only
      rw [if_pos wrong]
      rfl
    clear_value u
    let v := u.modPart p (fun h => { h with
        pollErr := true, fresh := h.fresh.set u.moment 1, pollErrs := satInc 16 h.pollErrs })
    have part : (v.part p).pollErr = true ∧ (v.part p).pollErrs = satInc 16 (u.part p).pollErrs := by
      rw [State.part_modPart_same]
      exact ⟨rfl, rfl⟩
    have marked : HostWork u v := rfl
    have rings' : v.host.rings = u.host.rings := rfl
    change _ = Host.Outcome.next ((v.hostAlarm 2).pollAgain p) at run
    clear_value v
    obtain ⟨alarm, sameRings, sameParts, rest⟩ := v.hostAlarm_spec 2
    obtain ⟨again, rings'', alarm', err, errs, -⟩ := (v.hostAlarm 2).pollAgain_spec p
    have same : (v.hostAlarm 2).part p = v.part p := by rw [State.part, sameParts, State.part]
    refine ⟨_, run, fun r => ?_, ?_, ?_, ?_, ?_⟩
    · rw [State.ring, rings'', sameRings, rings', rings, State.ring]
    · rw [err, same, part.1]
    · rw [errs, same, part.2, own]
    · rw [alarm']
      exact alarm
    · let g : State → State := fun t => { t with host := s.host, evq := s.evq }
      have first : g u = s := (congrArg g dropped.eq :)
      have second : g v = g u := (congrArg g marked.eq :)
      have third : g (v.hostAlarm 2) = g v := (congrArg g rest :)
      have fourth : g ((v.hostAlarm 2).pollAgain p) = g (v.hostAlarm 2) := (congrArg g again.eq :)
      exact fourth.trans (third.trans (second.trans first))
  case fetch =>
    rintro r n s up pick rfl
    have room := State.fetchPick_room pick
    obtain ⟨avail, whole⟩ := State.fetchRoom_le room
    let u := s.modRing r (fun g => { g with fetching := true })
    let v := if r.val % 8 = 0 then u else u.modPart (r.val / 8) (fun h => { h with next := r.val % 8 % 7 + 1 })
    have run : exec (.submissionFetch r) s = .next (v.ask 0 0 false (s.sqBase r + 32 * (s.ring r).sqHead)
        (32 * s.fetchRoom r) [] (r.val / 8) (.fetch r (s.ring r).sqHead (s.fetchRoom r) (s.ring r).gen)) :=
      State.act_of (by rw [up, partOf, pick, beq_self_eq_true]; rfl)
    have rings : v.host.rings = u.host.rings := by
      simp only [v]
      split
      · rfl
      · rfl
    have work : HostWork s v := by
      simp only [v]
      split
      · rfl
      · rfl
    have own : (v.ring r).fetching = true := by
      rw [State.ring, rings]
      exact (congrArg HRing.fetching (State.ring_modRing_same s r _) :)
    have others (q : Nat) (other : q ≠ r.val) : v.ring q = s.ring q := by
      rw [State.ring, rings]
      exact s.ring_modRing_other _ other
    clear_value v u
    have asked := MasterWork.ask v 0 0 false (s.sqBase r + 32 * (s.ring r).sqHead) (32 * s.fetchRoom r) [] (r.val / 8)
      (.fetch r (s.ring r).sqHead (s.fetchRoom r) (s.ring r).gen)
    refine ⟨_, run, ?_, room, whole.trans (by omega), avail, by omega, State.asked_ask _ _ _ _ _ _ _ _ _, fun q other => ?_,
      work.trans asked.work⟩
    · rw [asked.ring, own]
    · rw [asked.ring, others q other]
  case enable =>
    intro r w s off
    have on := bit_putBits_one w.toNat 0
    have sq : bits (putBits w.toNat 0 0 1) 11 8 = bits w.toNat 11 8 := bits_putBits_above (by omega) (by omega)
    have cq : bits (putBits w.toNat 0 0 1) 15 12 = bits w.toNat 15 12 := bits_putBits_above (by omega) (by omega)
    obtain ⟨en, sizeS, sizeC⟩ := bits_cfgValue (putBits w.toNat 0 0 1)
    have stored : (s.setReg (ringBase r) (cfgValue (putBits w.toNat 0 0 1))).ringCfg r = cfgValue (putBits w.toNat 0 0 1) :=
      (s.reg_setReg_same _ _).trans (Nat.mod_eq_of_lt (cfgValue_lt _))
    have run : exec (.ringEnable r w) s = .next ((s.setReg (ringBase r) (cfgValue (putBits w.toNat 0 0 1))).modRing r
        (fun g => { g with
          gen := g.gen + 1, sqHead := 0, cqCount := 0, sqTail := 0, cqHead := 0, fetching := false, halted := false
          coCount := 0, irqAt := none })) := by
      show Host.Outcome.next (s.hrCfgWrite r (putBits w.toNat 0 0 1)) = _
      unfold State.hrCfgWrite
      dsimp only
      have off' : bit (s.ringCfg r) 0 = false := off
      rw [if_neg (by rw [off']; decide), if_pos on]
    generalize cfgValue (putBits w.toNat 0 0 1) = c at *
    have ring := State.ring_modRing_same (s.setReg (ringBase r) c) r (fun g => { g with
          gen := g.gen + 1, sqHead := 0, cqCount := 0, sqTail := 0, cqHead := 0, fetching := false, halted := false
          coCount := 0, irqAt := none })
    have cfg : ((s.setReg (ringBase r) c).modRing r (fun g => { g with
          gen := g.gen + 1, sqHead := 0, cqCount := 0, sqTail := 0, cqHead := 0, fetching := false, halted := false
          coCount := 0, irqAt := none })).ringCfg r = c := stored
    refine ⟨_, run, ?_⟩
    dsimp only
    rw [State.ringEn, cfg, ring]
    exact ⟨en.trans on, sizeS.trans (by rw [sq]), sizeC.trans (by rw [cq]), rfl, rfl, rfl, rfl,
      fun q other => (State.ring_modRing_other _ _ other), rfl⟩
  case again =>
    intro r w s on
    have on' : bit (s.ringCfg r) 0 = true := on
    have set := bit_putBits_one w.toNat 0
    let u := if cfgValue (putBits w.toNat 0 0 1) / 4 = s.ringCfg r / 4 then s else s.ringCfgErr r
    have run : exec (.ringEnable r w) s =
        .next (u.setReg (ringBase r) (s.ringCfg r / 4 * 4 + bits (putBits w.toNat 0 0 1) 1 0)) := by
      show Host.Outcome.next (s.hrCfgWrite r (putBits w.toNat 0 0 1)) = _
      unfold State.hrCfgWrite
      dsimp only
      rw [if_pos on', if_pos set]
    have kept : (u.ring r).gen = (s.ring r).gen ∧ (u.ring r).sqHead = (s.ring r).sqHead ∧
        (u.ring r).cqCount = (s.ring r).cqCount ∧ u.host.recs = s.host.recs := by
      simp only [u]
      split
      · exact ⟨rfl, rfl, rfl, rfl⟩
      · have ring : (s.ringCfgErr r).ring r = { s.ring r with cfgErr := true, fresh := (s.ring r).fresh.set s.moment 2 } :=
          State.ring_modRing_same s r (fun g => { g with cfgErr := true, fresh := g.fresh.set s.moment 2 })
        rw [ring]
        exact ⟨rfl, rfl, rfl, rfl⟩
    clear_value u
    have low : bits (putBits w.toNat 0 0 1) 1 0 < 4 := Nat.mod_lt _ (by decide)
    have odd : bits (putBits w.toNat 0 0 1) 1 0 % 2 = 1 := by
      rw [bit, beq_iff_eq] at set
      rw [bits]
      omega
    generalize bits (putBits w.toNat 0 0 1) 1 0 = b at *
    have cfg : (u.setReg (ringBase r) (s.ringCfg r / 4 * 4 + b)).ringCfg r = (s.ringCfg r / 4 * 4 + b) % 2 ^ 32 :=
      u.reg_setReg_same _ _
    refine ⟨_, run, ?_, ?_, kept⟩
    · rw [State.ringEn, cfg, bit, beq_iff_eq]
      omega
    · rw [cfg, bits, bits]
      omega

end Sys2Proof.Machine

/-!
SUPPORT. Data submissions (R456-R459), and the proof of O39.
-/

namespace Sys2Proof.Machine

section Settle

variable (s : State)

/-- The end of RESET_BUSY changes a partition alone. -/
theorem State.resetSettle_rest (p : Nat) : HostWork s (s.resetSettle p) ∧
    { (s.resetSettle p).host with parts := s.host.parts } = s.host := by
  unfold State.resetSettle
  split
  · exact ⟨rfl, rfl⟩
  · split
    · exact ⟨rfl, rfl⟩
    · exact ⟨rfl, rfl⟩

/-- The submissions, posts, moves and records of the host unit as `t` and `s` share them. -/
structure SameWork (s t : State) : Prop where
  subs : t.host.subs = s.host.subs
  posts : t.host.posts = s.host.posts
  moves : t.host.moves = s.host.moves
  recs : t.host.recs = s.host.recs

theorem SameWork.trans {s t u : State} (h : SameWork s t) (k : SameWork t u) : SameWork s u :=
  ⟨k.subs.trans h.subs, k.posts.trans h.posts, k.moves.trans h.moves, k.recs.trans h.recs⟩

theorem SameWork.resetSettle (p : Nat) : SameWork s (s.resetSettle p) := by
  obtain ⟨-, host⟩ := s.resetSettle_rest p
  exact ⟨(congrArg HostSt.subs host :), (congrArg HostSt.posts host :), (congrArg HostSt.moves host :),
    (congrArg HostSt.recs host :)⟩

theorem SameWork.master {s t : State} (h : MasterWork s t) : SameWork s t :=
  ⟨(congrArg (fun v => v.host.subs) h.eq :), (congrArg (fun v => v.host.posts) h.eq :),
    (congrArg (fun v => v.host.moves) h.eq :), (congrArg (fun v => v.host.recs) h.eq :)⟩

theorem MasterWork.askAll (port id : Nat) (write : Bool) (addr n : Nat) (data : List Nat) (part : Nat) (own : Nat → MOwner) :
    MasterWork s (s.askAll port id write addr n data part own) := by
  unfold State.askAll
  exact foldl_rel (R := MasterWork) MasterWork.refl MasterWork.trans (fun s p => MasterWork.ask s _ _ _ _ _ _ _ _) _ s

end Settle

/-! ### Submissions -/

section Submit

variable {s : State} {q : Sub} {i : Nat}

/-- A handle that names a channel is checked alike once the submission has been taken. -/
theorem State.checkHandle_popSub {h : Nat} (checked : s.checkHandle 0 h = (.ok i, s)) :
    (s.popSub q).checkHandle 0 h = (.ok i, s.popSub q) := by
  unfold State.checkHandle at checked ⊢
  split at checked
  · cases (Prod.mk.inj checked).1
  · next formed =>
    dsimp only at checked ⊢
    split at checked
    · cases (Prod.mk.inj checked).1
    · next live =>
      have index : bits h 29 16 = i := by
        injection (Prod.mk.inj checked).1
      rw [if_neg formed]
      have same : (s.popSub q).chan (bits h 29 16) = s.chan (bits h 29 16) := rfl
      rw [same, if_neg live, index]

theorem State.subChan_of_checked (checked : s.checkHandle 0 (q.w 1) = (.ok i, s)) : (s.popSub q).subChan q =
    (if !([1, 2, 5].contains (s.chan i).kind) then (.error 3, s.popSub q)
     else if (s.chan i).state ≠ 2 ∨ (s.chan i).ring ≠ q.r ∨ (s.lb (s.chan i).lb).shed then (.error 4, s.popSub q)
     else (.ok i, s.popSub q)) := by
  unfold State.subChan
  rw [State.checkHandle_popSub checked]
  rfl

/-- A channel of kind STREAM, MSG or TIMED, ON from the ring pair of the submission. -/
theorem State.subChan_ok (checked : s.checkHandle 0 (q.w 1) = (.ok i, s)) (kind : (s.chan i).kind ∈ [1, 2, 5])
    (on : (s.chan i).state = 2) (ring : (s.chan i).ring = q.r) (live : (s.lb (s.chan i).lb).shed = false) :
    (s.popSub q).subChan q = (.ok i, s.popSub q) := by
  rw [State.subChan_of_checked checked, if_neg (by rw [List.contains_iff_mem.2 kind]; decide), if_neg]
  rintro (off | other | shed)
  · exact off on
  · exact other ring
  · rw [live] at shed
    cases shed

/-- What a failed submission leaves (R457). -/
def Fails (q : Sub) (e : Nat) (s t : State) : Prop :=
  (∃ d ∈ t.host.recs, d.r = q.r ∧ d.w0 = e + (if q.op = 2 then 2 ^ 12 else 0) + 2 ^ 16 * q.idx ∧ d.w1 = 0 ∧ d.irq = q.irq) ∧
  t.host.subs = s.host.subs.erase q ∧ t.host.moves = s.host.moves ∧ t.host.posts = s.host.posts

theorem State.subFail_spec {u : State} (e p : Nat) (en : u.ringEn q.r = true) :
    HostWork u ((u.subFail q e).resetSettle p) ∧
    (∃ d ∈ ((u.subFail q e).resetSettle p).host.recs, d.r = q.r ∧
      d.w0 = e + (if q.op = 2 then 2 ^ 12 else 0) + 2 ^ 16 * q.idx ∧ d.w1 = 0 ∧ d.irq = q.irq) ∧
    ((u.subFail q e).resetSettle p).host.subs = u.host.subs ∧ ((u.subFail q e).resetSettle p).host.moves = u.host.moves ∧
    ((u.subFail q e).resetSettle p).host.posts = u.host.posts := by
  have posted : u.subFail q e = u.modHost (fun h => { h with
      nextId := h.nextId + 1
      recs := h.recs ++ [{ id := h.nextId, r := q.r, w0 := e + (if q.op = 2 then 2 ^ 12 else 0) + 2 ^ 16 * q.idx, w1 := 0 % 2 ^ 32
                           w2 := 0 % 2 ^ 32, w3 := 0 % 2 ^ 32, irq := q.irq, slot := none, after := none }] }) := by
    unfold State.subFail State.postRecord
    rw [en]
    rfl
  have settled := SameWork.resetSettle (u.subFail q e) p
  refine ⟨?_, ?_, ?_, ?_, ?_⟩
  · exact HostWork.trans (by rw [posted]; rfl) (State.resetSettle_rest _ p).1
  · rw [settled.recs, posted]
    exact ⟨_, List.mem_append_right _ (List.mem_singleton.2 rfl), rfl, rfl, rfl, rfl⟩
  · rw [settled.subs, posted]
    rfl
  · rw [settled.moves, posted]
    rfl
  · rw [settled.posts, posted]
    rfl

/-- A submission that fails with the pump's error 10 or without it. -/
theorem Fails.of {u : State} {e p : Nat} (en : s.ringEn q.r = true) (host : u.host = (s.popSub q).host) (regs : u.regs = s.regs) :
    Fails q e s ((u.subFail q e).resetSettle p) := by
  have en' : u.ringEn q.r = true := by
    rw [State.ringEn, State.ringCfg, State.reg, regs]
    exact en
  obtain ⟨-, rec_, subs, moves, posts⟩ := State.subFail_spec e p en'
  exact ⟨rec_, subs.trans (by rw [host]; rfl), moves.trans (by rw [host]; rfl), posts.trans (by rw [host]; rfl)⟩

variable {r : Fin 64}

theorem exec_send (front : s.host.subs.find? (fun q => q.r == r.val) = some q) (op : q.op = 1) (good : q.bad = false) :
    exec (.send r) s = .next (((s.popSub q).sendStart q).resetSettle (partOf r)) := by
  show execSend r s = _
  unfold execSend State.subOf
  rw [front]
  exact State.act_of (by rw [op, good]; rfl)

theorem exec_rxPost (front : s.host.subs.find? (fun q => q.r == r.val) = some q) (op : q.op = 2) (good : q.bad = false) :
    exec (.rxPost r) s = .next (((s.popSub q).postStart q).resetSettle (partOf r)) := by
  show execRxPost r s = _
  unfold execRxPost State.subOf
  rw [front]
  exact State.act_of (by rw [op, good]; rfl)

theorem State.sendStart_error {u : State} {e : Nat} (chan : (s.popSub q).subChan q = (.error e, u)) :
    (s.popSub q).sendStart q = u.subFail q e := by
  unfold State.sendStart
  rw [chan]

theorem State.postStart_error {u : State} {e : Nat} (chan : (s.popSub q).subChan q = (.error e, u)) :
    (s.popSub q).postStart q = u.subFail q e := by
  unfold State.postStart
  rw [chan]

/-- A SEND on a MSG channel with a time-stamp or a launch (R456). -/
theorem State.sendStart_option (chan : (s.popSub q).subChan q = (.ok i, s.popSub q)) (kind : (s.chan i).kind = 2)
    (option : bits (q.w 0) 9 8 ≠ 0) : (s.popSub q).sendStart q = (s.popSub q).subFail q 0x0B := by
  have kind' : ((s.popSub q).chan i).kind = 2 := kind
  have set : bit (q.w 0) 8 = true ∨ bit (q.w 0) 9 = true := by
    rw [bits] at option
    rw [bit, bit, beq_iff_eq, beq_iff_eq]
    omega
  unfold State.sendStart
  rw [chan]
  dsimp only
  rw [if_neg (by rw [kind']; simp), if_pos (.inl ⟨kind', set⟩)]

/-- The options of a SEND on a MSG channel. -/
theorem Sub.plain {c : Chan} (kind : c.kind = 2) (option : bits (q.w 0) 9 8 = 0) :
    bit (q.w 0) 8 = false ∧ bit (q.w 0) 9 = false ∧
    ¬(c.kind = 2 ∧ (bit (q.w 0) 8 = true ∨ bit (q.w 0) 9 = true) ∨ c.kind = 5 ∧ (!bit (q.w 0) 9) = true) := by
  have clear : bit (q.w 0) 8 = false ∧ bit (q.w 0) 9 = false := by
    rw [bits] at option
    rw [bit, bit, beq_eq_false_iff_ne, beq_eq_false_iff_ne]
    omega
  refine ⟨clear.1, clear.2, ?_⟩
  rw [clear.1, clear.2, kind]
  simp

/-- A SEND whose length is out of range (R457). -/
theorem State.sendStart_length (chan : (s.popSub q).subChan q = (.ok i, s.popSub q)) (kind : (s.chan i).kind = 2)
    (option : bits (q.w 0) 9 8 = 0) (length : bits (q.w 2) 13 0 < 1 ∨ 16320 < bits (q.w 2) 13 0) :
    (s.popSub q).sendStart q = (s.popSub q).subFail q 9 := by
  have kind' : ((s.popSub q).chan i).kind = 2 := kind
  unfold State.sendStart
  rw [chan]
  dsimp only
  rw [if_neg (by rw [kind']; simp), if_neg (Sub.plain kind' option).2.2, if_pos length]

/-- A SEND that finds no cell (R413, R457). -/
theorem State.sendStart_noCell (chan : (s.popSub q).subChan q = (.ok i, s.popSub q)) (kind : (s.chan i).kind = 2)
    (option : bits (q.w 0) 9 8 = 0) (length : ¬(bits (q.w 2) 13 0 < 1 ∨ 16320 < bits (q.w 2) 13 0))
    (few : s.freeCells < s.rxReserve + max 1 (ceilDiv (bits (q.w 2) 13 0) 256)) :
    (s.popSub q).sendStart q = ((s.popSub q).pumpAlarm 10).subFail q 5 := by
  have kind' : ((s.popSub q).chan i).kind = 2 := kind
  have none_ (hdr : Cell) : (s.popSub q).allocBuf (bits (q.w 2) 13 0) hdr = none := if_pos few
  unfold State.sendStart
  rw [chan]
  dsimp only
  rw [if_neg (by rw [kind']; simp), if_neg (Sub.plain kind' option).2.2, if_neg length, none_]

/-- The move of a SEND on a MSG channel that has a buffer at `h` and slot `k`. -/
def Sub.msgMove (q : Sub) (i h k gen : Nat) : HMove :=
  { slot := k, kind := .send, r := q.r, idx := q.idx, irq := q.irq, ch := i, len := bits (q.w 2) 13 0, tag := q.w 3
    addr := q.w 4 + 2 ^ 32 * q.w 5, tsreq := false, launch := none, late := false, head := some h, phase := .reading, gen := gen }

/-- A SEND on a MSG channel takes its cells and a slot, and reads its data (R458). -/
theorem State.sendStart_take {h k : Nat} {u : State} (chan : (s.popSub q).subChan q = (.ok i, s.popSub q))
    (kind : (s.chan i).kind = 2) (option : bits (q.w 0) 9 8 = 0)
    (length : ¬(bits (q.w 2) 13 0 < 1 ∨ 16320 < bits (q.w 2) 13 0))
    (cells : (s.popSub q).allocBuf (bits (q.w 2) 13 0) { refs := 1, tofs12 := (s.chan i).tofs12 } = some (h, u))
    (slot : s.freeSlot = some k) : (s.popSub q).sendStart q =
      (((({ u with draws := u.draws + 1 }).modHost (fun g => { g with
          moves := g.moves ++ [q.msgMove i h k (u.ring q.r).gen] })).noteSlots).askAll
        0 k false (q.w 4 + 2 ^ 32 * q.w 5) (bits (q.w 2) 13 0) [] (partOf q.r) (.move k)) := by
  have kind' : ((s.popSub q).chan i).kind = 2 := kind
  obtain ⟨stamp, launch, plain⟩ := Sub.plain kind' option
  have cells' : (s.popSub q).allocBuf (bits (q.w 2) 13 0) { refs := 1, tofs12 := ((s.popSub q).chan i).tofs12 } = some (h, u) := cells
  have slot' : (s.popSub q).freeSlot = some k := slot
  unfold State.sendStart
  rw [chan]
  dsimp only
  rw [if_neg (by rw [kind']; simp), if_neg plain, if_neg length, cells', slot', stamp, launch]
  rfl

theorem SameCells.allocBuf {t u : State} {len h : Nat} {hdr : Cell} (same : SameCells s t) (reserve : t.rxReserve = s.rxReserve)
    (cells : s.allocBuf len hdr = some (h, u)) : ∃ v, t.allocBuf len hdr = some (h, v) ∧ PumpWork t v := by
  unfold State.allocBuf at cells ⊢
  dsimp only at cells ⊢
  rw [same.freeCells, reserve]
  split at cells
  · cases cells
  · next enough =>
    rw [if_neg enough]
    split at cells
    · next c cs w taken =>
      cases cells
      obtain ⟨v, taken', -⟩ := same.takeCells taken
      refine ⟨_, by rw [taken'], (PumpWork.takeCells taken').trans (PumpWork.linkCells _ _ _)⟩
    · cases cells

end Submit

/-- Settles O39: the check of the handle, then what the submission's kind does; a submission that fails posts one record. -/
theorem dataSubmissions : Obligations.DataSubmissions := by
  unfold Obligations.DataSubmissions
  refine ⟨?send, ?refused, ?channel, ?post, ?bad⟩
  case send =>
    rintro r q i h k len c s u front op good checked rfl kind on ring live option rfl least most cells slot
    have chan := State.subChan_ok checked (by rw [kind]; decide) on ring live
    have same : SameCells s (s.popSub q) := ⟨rfl, rfl, rfl, rfl, rfl, rfl⟩
    obtain ⟨v, cells', work⟩ := same.allocBuf rfl cells
    have host : v.host = (s.popSub q).host := work.host
    have run := exec_send front op good
    rw [State.sendStart_take chan kind option (by omega) cells' slot] at run
    refine ⟨_, run, ?_⟩
    have settled := fun t => SameWork.resetSettle t (partOf r)
    have asked := fun t => SameWork.master (MasterWork.askAll t 0 k false (q.w 4 + 2 ^ 32 * q.w 5) (bits (q.w 2) 13 0) []
      (partOf q.r) (.move k))
    refine ⟨?_, ⟨q.msgMove i h k (v.ring q.r).gen, ?_, rfl, rfl, rfl, rfl, rfl, rfl, rfl, rfl, rfl, rfl⟩, ?_⟩
    · rw [(settled _).subs, (asked _).subs]
      exact (congrArg HostSt.subs host :)
    · rw [(settled _).moves, (asked _).moves]
      exact (congrArg (fun g : HostSt => g.moves ++ [q.msgMove i h k (v.ring q.r).gen]) host :)
    · rw [(settled _).recs, (asked _).recs]
      exact (congrArg HostSt.recs host :)
  case refused =>
    rintro r q i k len c s front op good checked rfl kind on ring live en rfl cause
    have chan := State.subChan_ok checked (by rw [kind]; decide) on ring live
    have run := exec_send front op good
    have fails : ∃ u : State, u.host = (s.popSub q).host ∧ u.regs = s.regs ∧ (s.popSub q).sendStart q = u.subFail q k := by
      rcases cause with ⟨option, rfl⟩ | ⟨option, length, rfl⟩ | ⟨option, least, most, few, rfl⟩
      · exact ⟨_, rfl, rfl, State.sendStart_option chan kind option⟩
      · exact ⟨_, rfl, rfl, State.sendStart_length chan kind option length⟩
      · exact ⟨_, (PumpWork.pumpAlarm _ 10).host, (PumpWork.pumpAlarm _ 10).regs,
          State.sendStart_noCell chan kind option (by omega) few⟩
    obtain ⟨u, host, regs, start⟩ := fails
    rw [start] at run
    obtain ⟨⟨d, member, ring_, w0, -, irq⟩, subs, moves, -⟩ := Fails.of (e := k) (p := partOf r) en host regs
    rw [op] at w0
    exact ⟨_, run, ⟨d, member, ring_, w0, irq⟩, subs, moves⟩
  case channel =>
    rintro r q i k c j s kindOf front good en checked rfl cause
    have chan : (s.popSub q).subChan q = (.error k, s.popSub q) := by
      rw [State.subChan_of_checked checked]
      rcases cause with ⟨kind, rfl⟩ | ⟨kind, closed, rfl⟩
      · exact if_pos (by simpa using kind)
      · rw [if_neg (by rw [List.contains_iff_mem.2 kind]; decide), if_pos closed]
    obtain ⟨⟨d, member, ring_, w0, -, irq⟩, subs, moves, posts⟩ :=
      Fails.of (s := s) (u := s.popSub q) (e := k) (p := partOf r) en rfl rfl
    have run : exec j s = .next (((s.popSub q).subFail q k).resetSettle (partOf r)) := by
      rcases kindOf with ⟨rfl, op⟩ | ⟨rfl, op⟩
      · rw [exec_send front op good, State.sendStart_error chan]
      · rw [exec_rxPost front op good, State.postStart_error chan]
    exact ⟨_, run, ⟨d, member, ring_, w0, irq⟩, subs, moves, posts⟩
  case post =>
    rintro r q i len c s front op good checked rfl kind on ring live rfl least most empty
    have chan := State.subChan_ok checked kind on ring live
    have run := exec_rxPost front op good
    have start : (s.popSub q).postStart q = (s.popSub q).modHost (fun h => { h with posts := h.posts ++
        [{ r := q.r, idx := q.idx, ch := i, addr := q.w 4 + 2 ^ 32 * q.w 5, len := bits (q.w 2) 13 0, irq := q.irq }] }) := by
      unfold State.postStart
      rw [chan]
      dsimp only
      rw [if_neg (by omega)]
      split
      · next pop =>
        have none_ : ∀ t : State, (t.chan i).blCount = 0 → t.blPop i = none := fun t none_ => if_pos none_
        exact absurd (pop.symm.trans (none_ _ (by exact empty))) (by simp)
      · rfl
    rw [start] at run
    obtain ⟨work, -⟩ := State.resetSettle_rest ((s.popSub q).modHost (fun h => { h with posts := h.posts ++
        [{ r := q.r, idx := q.idx, ch := i, addr := q.w 4 + 2 ^ 32 * q.w 5, len := bits (q.w 2) 13 0, irq := q.irq }] })) (partOf r)
    have settled := SameWork.resetSettle ((s.popSub q).modHost (fun h => { h with posts := h.posts ++
        [{ r := q.r, idx := q.idx, ch := i, addr := q.w 4 + 2 ^ 32 * q.w 5, len := bits (q.w 2) 13 0, irq := q.irq }] })) (partOf r)
    exact ⟨_, run, settled.subs, settled.posts, (HostWork.modHost _ _).trans ((HostWork.modHost _ _).trans work)⟩
  case bad =>
    intro r q s front en cause
    have bad : q.bad = true := by
      unfold Sub.bad
      rcases cause with ⟨no1, no2⟩ | res | res | res | ⟨op, res⟩ | ⟨clear, res⟩
      · simp [no1, no2]
      · simp [res]
      · simp [res]
      · simp [res]
      · simp [op, res]
      · rcases res with res | res
        · simp [clear, res]
        · simp [clear, res]
    have run : exec (.badSubmission r) s = .next (((s.popSub q).subFail q 0x0B).resetSettle (partOf r)) := by
      show execBadSubmission r s = _
      unfold execBadSubmission State.subOf
      rw [front]
      exact State.act_of bad
    obtain ⟨work, rec_, subs, -, -⟩ := State.subFail_spec (u := s.popSub q) 0x0B (partOf r) en
    exact ⟨_, run, rec_, subs, (HostWork.modHost _ _).trans work⟩

end Sys2Proof.Machine

/-!
SUPPORT. Completion records, interrupts, the reset of a partition and the answers of the master ports (R460-R464, R473,
R474, R565, R568, R570), and the proof of O40.
-/

namespace Sys2Proof.Machine

/-! ### What is asked -/

section Data

/-- What the master ports do not choose of a command: its data besides. -/
def MCmd.body (c : MCmd) : (Nat × Bool × Nat × Nat × MOwner) × List Nat := (c.asks, c.data)

theorem kick_bodies (now : Nat) (cs : List MCmd) (acc : List MCmd) (next : Nat) :
    (kick now acc cs next).1.map MCmd.body = (acc ++ cs).map MCmd.body := by
  induction cs generalizing acc next with
  | nil => simp [kick]
  | cons c cs ih =>
    rw [kick]
    split
    · rw [ih]
      simp
    · split
      · rw [ih]
        simp [MCmd.body, MCmd.asks]
      · rw [ih]
        simp

/-- The command that `ask` has issued, or keeps until it can. -/
theorem State.ask_mem (s : State) (port id : Nat) (write : Bool) (addr n : Nat) (data : List Nat) (part : Nat) (o : MOwner) :
    ∃ d ∈ (s.ask port id write addr n data part o).host.mcmds, d.port = port ∧ d.write = write ∧ d.bytes = n ∧ d.addr = addr ∧
      d.owner = o ∧ d.data = data := by
  have bodies : (s.ask port id write addr n data part o).host.mcmds.map MCmd.body =
      (s.host.mcmds ++ [({ port := port, id := id, issued := false, write := write, addr := addr, bytes := n, data := data,
                           part := part, owner := o, at_ := 0, warned := false } : MCmd)]).map MCmd.body := kick_bodies _ _ _ _
  have member : (((port, write, addr, n, o), data) : (Nat × Bool × Nat × Nat × MOwner) × List Nat) ∈
      (s.ask port id write addr n data part o).host.mcmds.map MCmd.body := by
    rw [bodies, List.map_append]
    exact List.mem_append_right _ (List.mem_singleton.2 rfl)
  obtain ⟨d, member, body⟩ := List.mem_map.1 member
  simp only [MCmd.body, MCmd.asks, Prod.mk.injEq] at body
  obtain ⟨⟨port, write, addr, n, owner⟩, data⟩ := body
  exact ⟨d, member, port, write, n, addr, owner, data⟩

end Data

/-! ### Records and interrupts (R462, R464) -/

section Records

variable {s : State}

theorem exec_completionWrite_room {r : Fin 64} {c : HRec} (next : s.recNext r = some c) (slot : c.slot = none) (up : s.up 0 = true)
    (room : s.cqRoom r = true) : exec (.completionWrite r) s =
      .next (((s.modRec c.id (fun c => { c with sent := true })).modRing r (fun g => { g with cqCount := g.cqCount + 1 })).ask
        0 0 true (s.cqBase r + 16 * ((s.ring r).cqCount % s.cqSize r)) 16 (c.bytes (s.cqPhase r)) (partOf r) (.record c.id)) := by
  show execCompletionWrite r s = _
  unfold execCompletionWrite
  rw [next]
  dsimp only
  rw [up, room, slot]
  rfl

/-- A written record is counted, and raises the interrupt where its submission asked for it (R464). -/
theorem State.recWritten_spec (r : Nat) (irq : Bool) : HostWork s (s.recWritten r irq) ∧
    (s.recWritten r irq).host.recs = s.host.recs ∧
    (irq = true → ((s.recWritten r irq).ring r).irqAt = some ((s.ring r).cqCount % s.cqSize r) ∧
      ((s.recWritten r irq).ring r).coCount = 0) ∧
    (irq = false → (s.ring r).coCount + 1 < s.coCount r → s.coTime r ≠ 0 →
      ((s.recWritten r irq).ring r).irqAt = (s.ring r).irqAt ∧ ((s.recWritten r irq).ring r).coCount = (s.ring r).coCount + 1) := by
  unfold State.recWritten
  extract_lets u
  have own : u.ring r = { s.ring r with
      coCount := (s.ring r).coCount + 1
      coSince := if (s.ring r).coCount = 0 then s.tb.elapsed else (s.ring r).coSince } := State.ring_modRing_same s r _
  have work : HostWork s u := HostWork.modHost _ _
  have recs : u.host.recs = s.host.recs := rfl
  have count : u.coCount r = s.coCount r := by rw [State.coCount, work.reg, State.coCount]
  have time : u.coTime r = s.coTime r := by rw [State.coTime, work.reg, State.coTime]
  have size : u.cqSize r = s.cqSize r := work.cqSize r
  clear_value u
  split
  · next due =>
    have ring : (u.ringIrq r).ring r = { u.ring r with irqAt := some ((u.ring r).cqCount % u.cqSize r), coCount := 0 } :=
      State.ring_modRing_same u r _
    refine ⟨work.trans (HostWork.modHost _ _), recs, fun _ => ?_, fun off few some_ => ?_⟩
    · rw [ring, own, size]
      exact ⟨rfl, rfl⟩
    · rw [off, count, time, own] at due
      simp only [Bool.false_or, Bool.or_eq_true, decide_eq_true_eq, beq_iff_eq] at due
      omega
  · next idle =>
    refine ⟨work, recs, fun on => absurd (by rw [on]; rfl) idle, fun off few some_ => ?_⟩
    rw [own]
    exact ⟨rfl, rfl⟩

end Records

/-! ### Reset of a partition (R473) -/

section Reset

variable {s t u : State}

/-- What the end of ring pairs leaves of the host unit: no record is new. -/
structure OffWork (s t : State) : Prop where
  regs : t.regs = s.regs
  posts : t.host.posts = s.host.posts
  cmds : t.host.cmds = s.host.cmds
  recs : ∀ q ∈ t.host.recs, q ∈ s.host.recs

theorem OffWork.refl (s : State) : OffWork s s := ⟨rfl, rfl, rfl, fun _ member => member⟩

theorem OffWork.trans (h : OffWork s t) (k : OffWork t u) : OffWork s u :=
  ⟨k.regs.trans h.regs, k.posts.trans h.posts, k.cmds.trans h.cmds, fun q member => h.recs q (k.recs q member)⟩

theorem OffWork.resetSettle (s : State) (p : Nat) : OffWork s (s.resetSettle p) := by
  obtain ⟨work, host⟩ := s.resetSettle_rest p
  have settled := SameWork.resetSettle s p
  exact ⟨work.regs, settled.posts, (congrArg HostSt.cmds host :), fun q member => settled.recs ▸ member⟩

theorem OffWork.recFinish (s : State) (slot : Option Nat) : OffWork s (s.recFinish slot) := by
  unfold State.recFinish
  split
  · exact .refl s
  · extract_lets v
    have done : OffWork s v := ⟨rfl, rfl, rfl, fun _ member => member⟩
    have dropped (k : Nat) : OffWork v (v.dropHmove k) := ⟨rfl, rfl, rfl, fun _ member => member⟩
    split
    · exact (done.trans (dropped _)).trans (OffWork.resetSettle _ _)
    · exact done

theorem OffWork.ringOff (s : State) (r : Nat) : OffWork s (s.ringOff r) ∧
    ∀ q ∈ (s.ringOff r).host.recs, q.r = r → q.sent = true := by
  unfold State.ringOff
  extract_lets gone v
  have filtered : OffWork s v := ⟨rfl, rfl, rfl, fun q member => (List.mem_filter.1 member).1⟩
  have kept : ∀ q ∈ v.host.recs, q.r = r → q.sent = true := by
    intro q member ring
    have keep := (List.mem_filter.1 member).2
    simpa [ring] using keep
  have finished : OffWork v (gone.foldl (fun s c => s.recFinish c.slot) v) :=
    foldl_rel (R := OffWork) OffWork.refl OffWork.trans (fun s c => OffWork.recFinish s _) _ v
  exact ⟨filtered.trans finished, fun q member => kept q (finished.recs q member)⟩

/-- The reset takes ring pair `r` out of service. -/
def State.resetRing (s : State) (r : Nat) : State :=
  let u := s.setReg (ringBase r) (putBits (s.ringCfg r) 0 0 0)
  if s.ringEn r then u.ringOff r else u

theorem State.resetRing_spec (s : State) (r : Nat) : (∀ o, o ≠ ringBase r → (s.resetRing r).reg o = s.reg o) ∧
    (s.resetRing r).ringEn r = false ∧ (s.resetRing r).host.posts = s.host.posts ∧ (s.resetRing r).host.cmds = s.host.cmds ∧
    (∀ q ∈ (s.resetRing r).host.recs, q ∈ s.host.recs) ∧
    (∀ q ∈ (s.resetRing r).host.recs, q.r = r → s.ringEn r = true → q.sent = true) := by
  unfold State.resetRing
  extract_lets u
  have others (o : Nat) (other : o ≠ ringBase r) : u.reg o = s.reg o := State.reg_setReg_other _ _ _ _ other
  have off : u.ringEn r = false := by
    have stored : u.ringCfg r = putBits (s.ringCfg r) 0 0 0 % 2 ^ 32 := State.reg_setReg_same _ _ _
    rw [State.ringEn, stored, bit, putBits_eq (by omega), beq_eq_false_iff_ne]
    omega
  have host : u.host = s.host := rfl
  clear_value u
  split
  · obtain ⟨work, gone⟩ := OffWork.ringOff u r
    refine ⟨fun o other => ?_, ?_, work.posts.trans (by rw [host]), work.cmds.trans (by rw [host]), fun q member => ?_,
      fun q member ring _ => gone q member ring⟩
    · rw [State.reg, work.regs]
      exact others o other
    · rw [State.ringEn, State.ringCfg, State.reg, work.regs]
      exact off
    · rw [← host]
      exact work.recs q member
  · next idle =>
    exact ⟨others, off, by rw [host], by rw [host], fun q member => host ▸ member, fun q _ _ on => absurd on idle⟩

theorem State.resetRings_spec (s : State) (p n : Nat) (few : n ≤ 8) :
    let t := (List.range n).foldl (fun s l => s.resetRing (8 * p + l)) s
    (∀ o, (∀ l, l < n → o ≠ ringBase (8 * p + l)) → t.reg o = s.reg o) ∧ (∀ l, l < n → t.ringEn (8 * p + l) = false) ∧
    t.host.posts = s.host.posts ∧ t.host.cmds = s.host.cmds ∧ (∀ q ∈ t.host.recs, q ∈ s.host.recs) ∧
    (∀ q ∈ t.host.recs, ∀ l, l < n → q.r = 8 * p + l → s.ringEn q.r = true → q.sent = true) := by
  induction n with
  | zero =>
    exact ⟨fun _ _ => rfl, fun l below => absurd below (by omega), rfl, rfl, fun _ member => member,
      fun _ _ l below => absurd below (by omega)⟩
  | succ n ih =>
    obtain ⟨regs, off, posts, cmds, recs, sent⟩ := ih (by omega)
    rw [List.range_succ, List.foldl_append]
    dsimp only at *
    generalize (List.range n).foldl (fun s l => s.resetRing (8 * p + l)) s = t at *
    obtain ⟨regs', off', posts', cmds', recs', sent'⟩ := t.resetRing_spec (8 * p + n)
    have same (r : Nat) (other : ∀ l, l < n → r ≠ 8 * p + l) : t.ringEn r = s.ringEn r := by
      rw [State.ringEn, State.ringCfg, regs _ (fun l below => by have := other l below; simp only [ringBase]; omega), State.ringEn,
        State.ringCfg]
    refine ⟨fun o outside => ?_, fun l below => ?_, posts'.trans posts, cmds'.trans cmds, fun q member => recs q (recs' q member),
      fun q member l below ring on => ?_⟩
    · exact (regs' o (outside n (by omega))).trans (regs o fun l below => outside l (by omega))
    · by_cases last : l = n
      · subst last
        exact off'
      · show bit _ 0 = false
        rw [List.foldl_cons, List.foldl_nil, State.ringCfg, regs' _ (by simp only [ringBase]; omega)]
        exact off l (by omega)
    · by_cases last : l = n
      · subst last
        exact sent' q member ring (by rw [same _ (fun i below => by omega), ← ring, on])
      · exact sent q (recs' q member) l (by omega) ring on

/-- What a partition's reset leaves (R473). -/
theorem State.partReset_spec (s : State) {p : Nat} (small : p < 8) : (s.partReset p).hpEn p = false ∧
    (∀ l, l < 8 → (s.partReset p).ringEn (8 * p + l) = false) ∧
    (s.partReset p).host.posts = s.host.posts.filter (fun q => partOf q.r != p) ∧
    (∀ q ∈ (s.partReset p).host.recs, partOf q.r = p → s.ringEn q.r = true → q.sent = true) ∧
    ((∃ m ∈ s.host.cmds, partOf m.r = p) → ((s.partReset p).part p).resetBusy = true) := by
  unfold State.partReset
  extract_lets u v w x
  have off : u.hpEn p = false := by
    have stored : u.reg (partBase p) = putBits (s.reg (partBase p)) 0 0 0 % 2 ^ 32 := State.reg_setReg_same _ _ _
    rw [State.hpEn, stored, bit, putBits_eq (by omega), beq_eq_false_iff_ne]
    omega
  have host : u.host = s.host := rfl
  have cfg (r : Nat) : u.ringEn r = s.ringEn r := by
    rw [State.ringEn, State.ringCfg, State.reg_setReg_other _ _ _ _ (by simp only [ringBase, partBase]; omega), State.ringEn,
      State.ringCfg]
  clear_value u
  obtain ⟨regs, ends, posts, cmds, -, sent⟩ := u.resetRings_spec p 8 (Nat.le_refl 8)
  change v.host.posts = _ at posts
  change v.host.cmds = _ at cmds
  change ∀ o, _ → v.reg o = _ at regs
  change ∀ l, _ → v.ringEn _ = _ at ends
  change ∀ q ∈ v.host.recs, _ at sent
  clear_value v
  have rest := w.abandon_rest (fun m => m == 128 + p)
  change { x with locks := w.locks, evq := w.evq } = w at rest
  have sameHost : x.host = w.host := (congrArg State.host rest :)
  have sameRegs : x.regs = v.regs := (congrArg State.regs rest :)
  have recs : w.host.recs = v.host.recs := rfl
  have posts' : w.host.posts = v.host.posts.filter (fun q => partOf q.r != p) := rfl
  have cmds' : w.host.cmds = v.host.cmds := rfl
  clear_value x w
  have busy := State.part_modPart_same x p (fun h => { h with resetBusy := true })
  have settled := SameWork.resetSettle (x.modPart p (fun h => { h with resetBusy := true })) p
  have work := (HostWork.modHost x _).trans (State.resetSettle_rest (x.modPart p (fun h => { h with resetBusy := true })) p).1
  have same (o : Nat) : ((x.modPart p (fun h => { h with resetBusy := true })).resetSettle p).reg o = v.reg o := by
    rw [work.reg, State.reg, sameRegs, State.reg]
  refine ⟨?_, fun l below => ?_, ?_, fun q member part on => ?_, ?_⟩
  · rw [State.hpEn, same, regs _ (fun l below => by simp only [ringBase, partBase]; omega)]
    exact off
  · rw [State.ringEn, State.ringCfg, same]
    exact ends l below
  · refine settled.posts.trans ((congrArg HostSt.posts sameHost).trans ?_)
    rw [posts', posts, host]
  · have member' : q ∈ v.host.recs := by
      rw [← recs, ← sameHost]
      exact settled.recs ▸ member
    refine sent q member' (q.r % 8) (by omega) ?_ ((cfg _).trans on)
    rw [← part, partOf]
    omega
  · rintro ⟨c, member, part⟩
    have held : (x.modPart p (fun h => { h with resetBusy := true })).host.cmds.any (fun c => partOf c.r == p) = true := by
      refine List.any_eq_true.2 ⟨c, ?_, beq_iff_eq.2 part⟩
      show c ∈ x.host.cmds
      rw [sameHost, cmds', cmds, host]
      exact member
    rw [State.resetSettle, held, Bool.or_true, if_pos rfl, busy]

end Reset

/-! ### Answers of the master ports (R464, R474, R565, R570) -/

section Answers

variable {s : State} {c : MCmd}

theorem exec_writeAck {id : Fin 512} {e : Fin 4} (found : s.cmdOf 0 id true = some c) (up : s.up 0 = true) :
    exec (.writeAck 0 id e) s = .next ((s.dropCmd c).answer c.owner e []) := by
  show execWriteAck 0 id e s = _
  unfold execWriteAck
  have found' : s.cmdOf (0 : Fin 2) id true = some c := found
  rw [found']
  exact State.act_of up

theorem exec_readResponse {id : Fin 512} {e : Fin 4} {data : List Byte} (found : s.cmdOf 0 id false = some c) (up : s.up 0 = true)
    (whole : e ≠ 0 ∨ c.addr % 16 + c.bytes ≤ data.length) : exec (.readResponse 0 id e data) s =
      .next ((s.dropCmd c).answer c.owner e (((data.drop (c.addr % 16)).take c.bytes).map (·.toNat))) := by
  have port : c.port = 0 := by
    have sel := List.find?_some (found : s.host.mcmds.find? _ = some c)
    simp only [Bool.and_eq_true, beq_iff_eq] at sel
    exact sel.1.1.2
  have lead : c.lead = c.addr % 16 := by rw [MCmd.lead, if_pos port]
  show execReadResponse 0 id e data s = _
  unfold execReadResponse
  have found' : s.cmdOf (0 : Fin 2) id false = some c := found
  rw [found', ← lead]
  refine State.act_of ?_
  have up' : s.up (0 : Fin 2) = true := up
  rw [up', Bool.true_and, Bool.or_eq_true]
  rcases whole with error | whole
  · exact .inl (bne_iff_ne.2 fun zero => error (Fin.ext zero))
  · exact .inr (decide_eq_true (lead ▸ whole))

/-- The answer to the write of record `d`. -/
theorem State.recordAnswer_of {d : HRec} (found : s.host.recs.find? (fun e => e.id == d.id) = some d) (slot : d.slot = none)
    (err : Nat) : s.recordAnswer d.id err = (if err = 0 then (s.dropRec d.id).recWritten d.r d.irq
      else ((s.dropRec d.id).modRing d.r (fun g => { g with halted := true })).hostAlarm 0) := by
  unfold State.recordAnswer
  rw [found]
  dsimp only
  rw [slot]
  rfl

variable {r first n gen : Nat} {data : List Nat}

/-- Submissions that a fetch brings for a data ring (R455). -/
theorem State.fetchBack_data (same : (s.ring r).gen = gen) (on : s.ringEn r = true) (ring : r % 8 ≠ 0) :
    HostWork s (s.fetchBack r first n gen 0 data) ∧
    ((s.fetchBack r first n gen 0 data).ring r).sqHead = (first + n) % s.sqSize r ∧
    ((s.fetchBack r first n gen 0 data).ring r).fetching = false ∧
    (s.fetchBack r first n gen 0 data).host.subs = s.host.subs ++ (List.range n).map (fun i =>
      { r := r, idx := first + i
        words := (List.range 8).map (fun j => ofBytes ((data.drop (32 * i + 4 * j)).take 4)) }) := by
  unfold State.fetchBack
  rw [if_neg (not_not.2 same)]
  extract_lets u word subs v
  have on' : u.ringEn r = true := on
  rw [if_neg (by rw [on']; decide), if_neg (not_not.2 rfl), if_neg ring]
  have size : u.sqSize r = s.sqSize r := (HostWork.modHost s _).sqSize r
  have own : (v.ring r).sqHead = (first + n) % s.sqSize r ∧ (v.ring r).fetching = false := by
    rw [← size]
    refine ⟨?_, ?_⟩
    · rw [State.ring_modRing_same]
    · rw [State.ring_modRing_same, State.ring_modRing_same]
  have held : v.host.subs = s.host.subs := rfl
  have work : HostWork s v := (HostWork.modHost s _).trans (HostWork.modHost u _)
  clear_value v
  refine ⟨work.trans (HostWork.modHost v _), own.1, own.2, ?_⟩
  show v.host.subs ++ _ = _
  rw [held, List.map_map]
  rfl

/-- An error halts the ring pair (R474). -/
theorem State.fetchBack_error {err : Nat} (same : (s.ring r).gen = gen) (on : s.ringEn r = true) (wrong : err ≠ 0) :
    ((s.fetchBack r first n gen err data).ring r).halted = true ∧
    ((s.fetchBack r first n gen err data).ring r).descHost = true ∧
    ((s.fetchBack r first n gen err data).ring r).sqHead = (s.ring r).sqHead ∧
    (s.fetchBack r first n gen err data).host.subs = s.host.subs ∧
    bit (s.fetchBack r first n gen err data).host.alarm 0 = true ∧
    { s.fetchBack r first n gen err data with host := s.host, evq := s.evq } = s := by
  let u := s.modRing r (fun g => { g with fetching := false })
  have on' : u.ringEn r = true := on
  have run : s.fetchBack r first n gen err data =
      (u.modRing r (fun g => { g with halted := true, descHost := true, fresh := g.fresh.set u.moment 1 })).hostAlarm 0 := by
    unfold State.fetchBack
    rw [if_neg (not_not.2 same)]
    dsimp only
    rw [if_neg (by rw [on']; decide), if_pos wrong]
  rw [run]
  have own : u.ring r = { s.ring r with fetching := false } := State.ring_modRing_same s r _
  have first_ : HostWork s u := HostWork.modHost s _
  have held : u.host.subs = s.host.subs := rfl
  clear_value u
  have ring := State.ring_modRing_same u r (fun g => { g with halted := true, descHost := true, fresh := g.fresh.set u.moment 1 })
  have second : HostWork u (u.modRing r (fun g => { g with halted := true, descHost := true, fresh := g.fresh.set u.moment 1 })) := rfl
  have held' : (u.modRing r (fun g => { g with halted := true, descHost := true, fresh := g.fresh.set u.moment 1 })).host.subs =
    u.host.subs := rfl
  generalize u.modRing r (fun g => { g with halted := true, descHost := true, fresh := g.fresh.set u.moment 1 }) = v at *
  obtain ⟨alarm, rings, -, rest⟩ := v.hostAlarm_spec 0
  have ring' : (v.hostAlarm 0).ring r = v.ring r := by rw [State.ring, rings, State.ring]
  have subs : (v.hostAlarm 0).host.subs = v.host.subs := rfl
  rw [ring', ring, own]
  refine ⟨rfl, rfl, rfl, subs.trans (held'.trans held), alarm, ?_⟩
  let g : State → State := fun t => { t with host := s.host, evq := s.evq }
  exact ((congrArg g rest :) : _ = g v).trans (congrArg g (first_.trans second).eq :)

end Answers

/-- Settles O40: records, interrupts and answers by the equations above, the reset of a partition by its eight ring pairs. -/
theorem completionsInterruptsAndResponses : Obligations.CompletionsInterruptsAndResponses := by
  unfold Obligations.CompletionsInterruptsAndResponses
  refine ⟨?room, ?full, ?coalesce, ?reset, ?written, ?lost, ?fetched, ?halted, ?late⟩
  case room =>
    intro r c s next slot up room
    let u := (s.modRec c.id (fun c => { c with sent := true })).modRing r (fun g => { g with cqCount := g.cqCount + 1 })
    have own : u.ring r = { s.ring r with cqCount := (s.ring r).cqCount + 1 } := State.ring_modRing_same _ _ _
    have others (q : Nat) (other : q ≠ r.val) : u.ring q = s.ring q := State.ring_modRing_other _ _ other
    have work : HostWork s u := rfl
    have run := exec_completionWrite_room next slot up room
    change exec _ s = .next (u.ask _ _ _ _ _ _ _ _) at run
    clear_value u
    have asked := MasterWork.ask u 0 0 true (s.cqBase r + 16 * ((s.ring r).cqCount % s.cqSize r)) 16 (c.bytes (s.cqPhase r))
      (partOf r) (.record c.id)
    obtain ⟨d, member, port, write, bytes, addr, owner, data⟩ := u.ask_mem 0 0 true
      (s.cqBase r + 16 * ((s.ring r).cqCount % s.cqSize r)) 16 (c.bytes (s.cqPhase r)) (partOf r) (.record c.id)
    refine ⟨_, run, by rw [asked.ring, own], fun q other => (asked.ring q).trans (others q other),
      ⟨d, member, port, write, bytes, addr, owner, data⟩, work.trans asked.work⟩
  case full =>
    intro r c s next waited up full
    have run : exec (.completionWrite r) s =
        .next ((s.modRec c.id (fun c => { c with waited := true })).hostAlarm 1) := by
      show execCompletionWrite r s = _
      unfold execCompletionWrite
      rw [next]
      dsimp only
      rw [up, full, waited]
      rfl
    let u := s.modRec c.id (fun c => { c with waited := true })
    have work : HostWork s u := rfl
    have rings : u.host.rings = s.host.rings := rfl
    have cmds : (u.hostAlarm 1).host.mcmds = s.host.mcmds := rfl
    change exec _ s = .next (u.hostAlarm 1) at run
    clear_value u
    obtain ⟨alarm, rings', -, rest⟩ := u.hostAlarm_spec 1
    refine ⟨_, run, fun q => by rw [State.ring, rings', rings, State.ring], cmds, alarm, ?_⟩
    let g : State → State := fun t => { t with host := s.host, evq := s.evq }
    exact ((congrArg g rest :) : _ = g u).trans (congrArg g work.eq :)
  case coalesce =>
    intro r s some_ due
    have place : ringBase r + 0x14 = 0x91014 + 32 * r.val := by rw [ringBase]; omega
    refine State.act_of ?_
    rw [decide_eq_true some_, State.coTime, place, Bool.true_and]
    exact decide_eq_true due
  case reset =>
    intro p w s
    have set : bit (putBits w.toNat 2 2 1) 2 = true := bit_putBits_one w.toNat 2
    let u := s.setReg (partBase p) (bits (putBits w.toNat 2 2 1) 1 0)
    have run : exec (.partitionReset p w) s = .next (u.partReset p) := by
      show Host.Outcome.next (s.hpCtrlWrite p (putBits w.toNat 2 2 1)) = _
      unfold State.hpCtrlWrite
      dsimp only
      rw [if_pos set]
    have cfg (r : Nat) : u.ringEn r = s.ringEn r := by
      rw [State.ringEn, State.ringCfg, State.reg_setReg_other _ _ _ _ (by simp only [ringBase, partBase]; omega), State.ringEn,
        State.ringCfg]
    have host : u.host = s.host := rfl
    clear_value u
    obtain ⟨en, rings, posts, sent, busy⟩ := u.partReset_spec p.isLt
    rw [host] at posts busy
    exact ⟨_, run, en, rings, posts, fun q member part on => sent q member part ((cfg _).trans on), busy⟩
  case written =>
    intro id c d s found up owner record slot
    have run := exec_writeAck (e := 0) found up
    have dropped := MasterWork.dropCmd s c
    have same := SameWork.master dropped
    have rings : (s.dropCmd c).host.rings = s.host.rings := dropped.rings
    generalize s.dropCmd c = u at *
    have answer : u.answer c.owner (0 : Fin 4) [] = (u.dropRec d.id).recWritten d.r d.irq := by
      rw [owner]
      exact (State.recordAnswer_of (by rw [same.recs]; exact record) slot 0).trans (if_pos rfl)
    rw [answer] at run
    let v := u.dropRec d.id
    have work : HostWork s v := dropped.work.trans (HostWork.modHost u _)
    have recs : v.host.recs = s.host.recs.filter (fun e => e.id != d.id) := by rw [← same.recs]; rfl
    have ring (r : Nat) : v.ring r = s.ring r := dropped.ring r
    change exec _ s = .next (v.recWritten d.r d.irq) at run
    clear_value v
    obtain ⟨work', recs', raised, counted⟩ := State.recWritten_spec (s := v) d.r d.irq
    have count : v.coCount d.r = s.coCount d.r := by rw [State.coCount, work.reg, State.coCount]
    have time : v.coTime d.r = s.coTime d.r := by rw [State.coTime, work.reg, State.coTime]
    rw [ring, work.cqSize] at raised
    rw [ring, count, time] at counted
    exact ⟨_, run, recs'.trans recs, raised, counted, work.trans work'⟩
  case lost =>
    intro id e c d s error found up owner record slot
    have wrong : e.val ≠ 0 := fun zero => error (Fin.ext zero)
    have run := exec_writeAck (e := e) found up
    have dropped := MasterWork.dropCmd s c
    have same := SameWork.master dropped
    generalize s.dropCmd c = u at *
    have answer : u.answer c.owner e [] = ((u.dropRec d.id).modRing d.r (fun g => { g with halted := true })).hostAlarm 0 := by
      rw [owner]
      exact (State.recordAnswer_of (by rw [same.recs]; exact record) slot e).trans (if_neg wrong)
    rw [answer] at run
    let v := (u.dropRec d.id).modRing d.r (fun g => { g with halted := true })
    have halted : (v.ring d.r).halted = true := by
      rw [State.ring_modRing_same]
    have recs : v.host.recs = s.host.recs.filter (fun e => e.id != d.id) := by rw [← same.recs]; rfl
    have work : HostWork s v := dropped.work.trans (rfl : HostWork u v)
    change exec _ s = .next (v.hostAlarm 0) at run
    clear_value v
    obtain ⟨alarm, rings, -, rest⟩ := v.hostAlarm_spec 0
    refine ⟨_, run, ?_, alarm, recs, ?_⟩
    · rw [State.ring, rings]
      exact halted
    · let g : State → State := fun t => { t with host := s.host, evq := s.evq }
      exact ((congrArg g rest :) : _ = g v).trans (congrArg g work.eq :)
  case fetched =>
    intro id c r n data s found up owner on ring bytes whole
    have run := exec_readResponse (e := 0) found up (.inr whole)
    have dropped := MasterWork.dropCmd s c
    have same := SameWork.master dropped
    generalize s.dropCmd c = u at *
    have ring' := dropped.ring r
    have on' : u.ringEn r = true := by rw [State.ringEn, dropped.work.ringCfg]; exact on
    rw [owner] at run
    obtain ⟨work, head, fetching, subs⟩ := State.fetchBack_data (first := (s.ring r).sqHead) (n := n)
      (data := ((data.drop (c.addr % 16)).take c.bytes).map (·.toNat)) (gen := (s.ring r).gen) (by rw [ring']) on' ring
    refine ⟨_, run, head.trans (by rw [dropped.work.sqSize]), fetching, subs.trans (by rw [same.subs]), dropped.work.trans work⟩
  case halted =>
    intro id e c r f n data s error found up owner on
    have wrong : e.val ≠ 0 := fun zero => error (Fin.ext zero)
    have run := exec_readResponse (data := data) found up (.inl error)
    have dropped := MasterWork.dropCmd s c
    have same := SameWork.master dropped
    generalize s.dropCmd c = u at *
    have ring' := dropped.ring r
    have on' : u.ringEn r = true := by rw [State.ringEn, dropped.work.ringCfg]; exact on
    rw [owner] at run
    obtain ⟨halted, host, head, subs, alarm, rest⟩ := State.fetchBack_error (first := f) (n := n)
      (data := ((data.drop (c.addr % 16)).take c.bytes).map (·.toNat)) (gen := (s.ring r).gen) (by rw [ring']) on' wrong
    refine ⟨_, run, halted, host, head.trans (by rw [ring']), subs.trans same.subs, alarm, ?_⟩
    let g : State → State := fun t => { t with host := s.host, evq := s.evq }
    exact ((congrArg g rest :) : _ = g u).trans (congrArg g dropped.work.eq :)
  case late =>
    intro port id c s found fresh due
    have run : exec (.responseTimeout port id) s = .next ((s.modHost (fun h => { h with
        mcmds := h.mcmds.map (fun d => if d = c then { d with warned := true } else d) })).event 0 14 14 port id) := by
      show execResponseTimeout port id s = _
      unfold execResponseTimeout
      rw [found]
      refine State.act_of ?_
      rw [fresh, msUnits, decide_eq_true due]
      rfl
    exact ⟨_, run, rfl, List.length_map _, rfl⟩

end Sys2Proof.Machine

/-!
SUPPORT. The command processor and the completion of commands (R460, R466, R467, R547), and the proof of O41.
-/

namespace Sys2Proof.Machine

/-! ### Commands and their records -/

/-- What a completion record same. -/
def HRec.body (q : HRec) : Nat × Nat × Nat × Nat × Nat × Bool := (q.r, q.w0, q.w1, q.w2, q.w3, q.irq)

/-- From `s` to `t` commands have gone and records have come; beside them only RESET_BUSY and the record numbers change. -/
structure CmdWork (s t : State) : Prop where
  rest : { t with host := { t.host with
    cmds := s.host.cmds, recs := s.host.recs, nextId := s.host.nextId, parts := s.host.parts } } = s
  cmds : ∀ d ∈ t.host.cmds, d ∈ s.host.cmds
  recs : ∀ q ∈ s.host.recs, q.body ∈ t.host.recs.map HRec.body

section Work

variable {s t u : State}

theorem CmdWork.refl (s : State) : CmdWork s s := ⟨rfl, fun _ member => member, fun _ member => List.mem_map_of_mem member⟩

theorem CmdWork.trans (h : CmdWork s t) (k : CmdWork t u) : CmdWork s u := by
  refine ⟨?_, fun d member => h.cmds d (k.cmds d member), fun q member => ?_⟩
  · let g : State → State := fun v => { v with host := { v.host with
      cmds := s.host.cmds, recs := s.host.recs, nextId := s.host.nextId, parts := s.host.parts } }
    exact ((congrArg g k.rest :) : _ = g t).trans h.rest
  · obtain ⟨q', member', same⟩ := List.mem_map.1 (h.recs q member)
    rw [← same]
    exact k.recs q' member'

theorem CmdWork.work (h : CmdWork s t) : HostWork s t := by
  let g : State → State := fun v => { v with host := s.host }
  exact (congrArg g h.rest :)

theorem CmdWork.rings (h : CmdWork s t) : t.host.rings = s.host.rings := (congrArg (fun v => v.host.rings) h.rest :)
theorem CmdWork.pstate (h : CmdWork s t) : t.host.pstate = s.host.pstate := (congrArg (fun v => v.host.pstate) h.rest :)
theorem CmdWork.locks (h : CmdWork s t) : t.locks = s.locks := (congrArg State.locks h.rest :)
theorem CmdWork.pump (h : CmdWork s t) : t.pump = s.pump := (congrArg State.pump h.rest :)

theorem CmdWork.dropCmdId (s : State) (id : Nat) : CmdWork s (s.dropCmdId id) :=
  ⟨rfl, fun _ member => (List.mem_filter.1 member).1, fun _ member => List.mem_map_of_mem member⟩

theorem CmdWork.resetSettle (s : State) (p : Nat) : CmdWork s (s.resetSettle p) := by
  unfold State.resetSettle
  split
  · exact .refl s
  · split
    · exact ⟨rfl, fun _ member => member, fun _ member => List.mem_map_of_mem member⟩
    · exact .refl s

theorem CmdWork.postRecord (s : State) (r w0 w1 w2 w3 : Nat) (irq : Bool) (after : Option Nat) (stale : Bool) :
    CmdWork s (s.postRecord r w0 w1 w2 w3 irq none after stale) := by
  unfold State.postRecord
  split
  · exact .refl s
  · refine ⟨rfl, fun _ member => member, fun q member => ?_⟩
    exact List.mem_map_of_mem (List.mem_append_left _ member)

theorem CmdWork.postObj (s : State) (o : Bool × Nat) (r w0 w1 w2 w3 : Nat) (irq stale : Bool) :
    CmdWork s (s.postObj o r w0 w1 w2 w3 irq none stale) := by
  unfold State.postObj
  extract_lets before n u
  have posted : CmdWork s u := CmdWork.postRecord s r w0 w1 w2 w3 irq before stale
  refine posted.trans ⟨rfl, fun _ member => member, fun q member => ?_⟩
  refine List.mem_map.2 ⟨_, List.mem_map_of_mem member, ?_⟩
  split
  · rfl
  · rfl

theorem CmdWork.cmdRecord (s : State) (c : HCmd) (cstat res res2 : Nat) (o : Option (Bool × Nat)) (after : Option Nat) :
    CmdWork s (s.cmdRecord c cstat res res2 o after) := by
  cases o with
  | none => exact CmdWork.postRecord s _ _ _ _ _ _ _ _
  | some o => exact CmdWork.postObj s _ _ _ _ _ _ _ _

theorem CmdWork.nopSettle (r n : Nat) (s : State) : CmdWork s (s.nopSettle r n) := by
  induction n generalizing s with
  | zero => exact .refl s
  | succ n ih =>
    rw [State.nopSettle]
    split
    · exact .refl s
    · exact ((CmdWork.dropCmdId s _).trans (CmdWork.cmdRecord _ _ _ _ _ _ _)).trans (ih _)

end Work

/-! ### Completion (R460, R466, R467) -/

section Done

variable {s t u : State} {c : HCmd}

/-- The record of `c`, as a record says it. -/
def HCmd.body (c : HCmd) (cstat res res2 : Nat) : Nat × Nat × Nat × Nat × Nat × Bool :=
  (c.r, 3 * 2 ^ 12 + 2 ^ 16 * c.idx, (cstat + 2 ^ 8 * c.op) % 2 ^ 32, res % 2 ^ 32, res2 % 2 ^ 32, bit (c.w 0) 10)

theorem State.postRecord_on (on : s.ringEn c.r = true) (w0 w1 w2 w3 : Nat) (irq : Bool) (slot after : Option Nat) :
    s.postRecord c.r w0 w1 w2 w3 irq slot after false = s.modHost (fun h => { h with
      nextId := h.nextId + 1
      recs := h.recs ++ [{ id := h.nextId, r := c.r, w0 := w0, w1 := w1 % 2 ^ 32, w2 := w2 % 2 ^ 32, w3 := w3 % 2 ^ 32,
                           irq := irq, slot := slot, after := after }] }) := by
  unfold State.postRecord
  rw [on]
  rfl

theorem State.cmdRecord_body (on : s.ringEn c.r = true) (current : c.gen = (s.ring c.r).gen) (cstat res res2 : Nat)
    (o : Option (Bool × Nat)) (after : Option Nat) :
    c.body cstat res res2 ∈ (s.cmdRecord c cstat res res2 o after).host.recs.map HRec.body := by
  have fresh : (c.gen != (s.ring c.r).gen) = false := by rw [current, bne_self_eq_false]
  unfold State.cmdRecord
  dsimp only
  rw [fresh]
  cases o with
  | none =>
    dsimp only
    rw [State.postRecord_on on]
    exact List.mem_map.2 ⟨_, List.mem_append_right _ (List.mem_singleton.2 rfl), rfl⟩
  | some o =>
    dsimp only
    unfold State.postObj
    dsimp only
    rw [State.postRecord_on on]
    refine List.mem_map.2 ⟨_, List.mem_map_of_mem (List.mem_append_right _ (List.mem_singleton.2 rfl)), ?_⟩
    split
    · rfl
    · rfl

/-- Later work on commands keeps a completion. -/
theorem Completed.of {cstat res res2 : Nat} (small : cstat + 2 ^ 8 * c.op < 2 ^ 32)
    (posted : c.body cstat res res2 ∈ s.host.recs.map HRec.body) (gone : ∀ d ∈ s.host.cmds, d.id ≠ c.id) (work : CmdWork s t) :
    Completed t c cstat res := by
  obtain ⟨q, member, same⟩ := List.mem_map.1 posted
  obtain ⟨q', member', same'⟩ := List.mem_map.1 (work.recs q member)
  have all := same'.trans same
  simp only [HRec.body, HCmd.body, Prod.mk.injEq] at all
  obtain ⟨ring, w0, w1, w2, -, irq⟩ := all
  exact ⟨⟨q', member', ring, w0, w1.trans (Nat.mod_eq_of_lt small), w2, irq⟩, fun d member => gone d (work.cmds d member)⟩

theorem HCmd.op_lt (c : HCmd) : c.op < 256 := Nat.mod_lt _ (by decide)

theorem CmdWork.cmdDone (s : State) (c : HCmd) (cstat res res2 : Nat) (o : Option (Bool × Nat)) :
    CmdWork s (s.cmdDone c cstat res res2 o) :=
  (((CmdWork.dropCmdId s c.id).trans (CmdWork.cmdRecord _ c cstat res res2 o none)).trans (CmdWork.nopSettle _ _ _)).trans
    (CmdWork.resetSettle _ _)

/-- A command that is done has completed, where its ring pair is enabled and has not been disabled since. -/
theorem State.cmdDone_completed (on : s.ringEn c.r = true) (current : c.gen = (s.ring c.r).gen) {cstat : Nat} (small : cstat < 256)
    (res res2 : Nat) (o : Option (Bool × Nat)) : Completed (s.cmdDone c cstat res res2 o) c cstat res := by
  have op := c.op_lt
  have posted := State.cmdRecord_body (s := s.dropCmdId c.id) on current cstat res res2 o none
  refine Completed.of (by omega) posted (fun d member => ?_) ((CmdWork.nopSettle _ _ _).trans (CmdWork.resetSettle _ _))
  have member := (CmdWork.cmdRecord (s.dropCmdId c.id) c cstat res res2 o none).cmds d member
  exact bne_iff_ne.1 (List.mem_filter.1 member).2

end Done

/-! ### The command processor (R466, R547) -/

section Processor

variable {s : State} {p op : Nat} {c : HCmd}

theorem State.cmdAt_of (front : s.host.cmds.find? (fun d => d.r == 8 * p && d.held == .fresh) = some c)
    (turn : s.cpPick = some p) (ready : s.cpReady = true) {ok : Nat → Bool} (fits : ok c.op = true) : s.cmdAt p ok = some c := by
  unfold State.cmdAt
  rw [if_pos ⟨turn, ready⟩]
  unfold State.cmdFresh
  rw [front]
  exact if_pos fits

theorem State.cmdAt_none {ok : Nat → Bool} (wait : s.cpPick ≠ some p ∨ s.cpReady = false) : s.cmdAt p ok = none := by
  refine if_neg ?_
  rintro ⟨turn, ready⟩
  rcases wait with other | busy
  · exact other turn
  · rw [busy] at ready
    cases ready

/-- The command processor's turn changes its own round robin and time alone. -/
theorem State.cpTake_keeps (s : State) (p : Nat) : HostWork s (s.cpTake p) ∧ (s.cpTake p).host.rings = s.host.rings ∧
    (s.cpTake p).host.cmds = s.host.cmds ∧ (s.cpTake p).host.recs = s.host.recs ∧ (s.cpTake p).host.pstate = s.host.pstate :=
  ⟨rfl, rfl, rfl, rfl, rfl⟩

theorem State.runCmd_of {masks : List Nat} {right : Bool} {f : HCmd → State → State}
    (front : s.host.cmds.find? (fun d => d.r == 8 * p && d.held == .fresh) = some c) (code : c.op = op) (clocked : s.up 0 = true)
    (turn : s.cpPick = some p) (ready : s.cpReady = true) : s.runCmd p op masks right f = .next (
      if s.mram.recovery && !persOp op then (s.cpTake p).cmdDone c 5 0 0 none
      else if !c.clean masks then (s.cpTake p).cmdDone c 6 0 0 none
      else if !right then (s.cpTake p).cmdDone c 3 0 0 none
      else f c (s.cpTake p)) := by
  unfold State.runCmd
  have found : s.cmdAt p (fun o => o == op) = some c := State.cmdAt_of front turn ready (beq_iff_eq.2 code)
  rw [found]
  exact State.act_of clocked

/-- A command that is answered at once leaves the locks, the channels and the ports as they were. -/
theorem State.cmdDone_answer (on : s.ringEn c.r = true) (current : c.gen = (s.ring c.r).gen) {cstat : Nat} (small : cstat < 256)
    (p : Nat) : Completed ((s.cpTake p).cmdDone c cstat 0 0 none) c cstat 0 ∧
    ((s.cpTake p).cmdDone c cstat 0 0 none).locks = s.locks ∧
    ((s.cpTake p).cmdDone c cstat 0 0 none).pump.chans = s.pump.chans ∧
    ((s.cpTake p).cmdDone c cstat 0 0 none).host.pstate = s.host.pstate := by
  have done := CmdWork.cmdDone (s.cpTake p) c cstat 0 0 none
  exact ⟨State.cmdDone_completed (s := s.cpTake p) on current small 0 0 none, done.locks, (congrArg PumpSt.chans done.pump :),
    done.pstate⟩

/-- `i` runs the command `op` of partition `p`, a lock command in its rank (R491). -/
def CommandRuns (s : State) (p op : Nat) (masks : List Nat) (right : Bool) (i : Instr) : Prop :=
  persOp op = false ∧ (0x58 ≤ op → 9 + p < s.rank → exec i s = .next s) ∧
  ((0x58 ≤ op → s.rank ≤ 9 + p) → ∃ f, exec i s = s.runCmd p op masks right f)

section Runs

variable {masks : List Nat} {right : Bool} {i : Instr} {f : HCmd → State → State}

theorem commandRuns_of_runCmd (other : persOp op = false) (plain : op < 0x58) (run : exec i s = s.runCmd p op masks right f) :
    CommandRuns s p op masks right i :=
  ⟨other, fun lock => absurd plain (by omega), fun _ => ⟨f, run⟩⟩

theorem commandRuns_of_runLock (other : persOp op = false) (lock : 0x58 ≤ op)
    (run : exec i s = s.runLock p op masks right f) : CommandRuns s p op masks right i :=
  ⟨other, fun _ late => run.trans (if_pos late), fun rank => ⟨_, run.trans (if_neg (Nat.not_lt.2 (rank lock)))⟩⟩

end Runs

/-- The commands of R466 other than PERS_LOAD and PERS_SWAP run alike, those of locks in their rank (R491). -/
theorem exec_command {p : Fin 8} {i : Instr} {op : Nat} {masks : List Nat} {right : State → Bool}
    (listed : (i, op, masks, right) ∈ [(.cmdNop p, 0x40, [], fun _ => true),
      (.chCreate p, 0x41, entryMasks 0, fun s => bit (s.hpRights p) 8),
      (.chModify p, 0x42, entryMasks (2 ^ 32 - 1), fun s => bit (s.hpRights p) 8),
      (.chDestroy p, 0x43, [2 ^ 32 - 1], fun s => bit (s.hpRights p) 8),
      (.chEnable p, 0x44, [2 ^ 32 - 1], fun _ => true), (.chDisable p, 0x45, [2 ^ 32 - 1], fun _ => true),
      (.portEnable p, 0x48, [31], fun _ => true), (.portDisable p, 0x49, [31], fun _ => true),
      (.lockgAcq p, 0x58, [1023, 0, 16383], fun s => bit (s.hpRights p) 10),
      (.lockgRel p, 0x59, [1023], fun s => bit (s.hpRights p) 10),
      (.lockgForce p, 0x5A, [1023], fun s => bit (s.hpRights p) 10 && p.val == 0),
      (.lockwAcq p, 0x5B, [2 ^ 32 - 1, 7, 16383], fun s => bit (s.hpRights p) 10),
      (.lockwRel p, 0x5C, [2 ^ 32 - 1, 7], fun s => bit (s.hpRights p) 10)]) (s : State) :
    CommandRuns s p op masks (right s) i := by
  simp only [List.mem_cons, List.not_mem_nil, or_false, Prod.mk.injEq] at listed
  rcases listed with ⟨rfl, rfl, rfl, rfl⟩ | ⟨rfl, rfl, rfl, rfl⟩ | ⟨rfl, rfl, rfl, rfl⟩ | ⟨rfl, rfl, rfl, rfl⟩ | ⟨rfl, rfl, rfl, rfl⟩ |
    ⟨rfl, rfl, rfl, rfl⟩ | ⟨rfl, rfl, rfl, rfl⟩ | ⟨rfl, rfl, rfl, rfl⟩ | ⟨rfl, rfl, rfl, rfl⟩ | ⟨rfl, rfl, rfl, rfl⟩ |
    ⟨rfl, rfl, rfl, rfl⟩ | ⟨rfl, rfl, rfl, rfl⟩ | ⟨rfl, rfl, rfl, rfl⟩
  · exact commandRuns_of_runCmd rfl (by decide) (rfl : execCmdNop p s = _)
  · exact commandRuns_of_runCmd rfl (by decide) (rfl : execChCreate p s = _)
  · exact commandRuns_of_runCmd rfl (by decide) (rfl : execChModify p s = _)
  · exact commandRuns_of_runCmd rfl (by decide) (rfl : execChDestroy p s = _)
  · exact commandRuns_of_runCmd rfl (by decide) (rfl : execChEnable p s = _)
  · exact commandRuns_of_runCmd rfl (by decide) (rfl : execChDisable p s = _)
  · exact commandRuns_of_runCmd rfl (by decide) (rfl : s.portCmd p 0x48 (fun c n s => s.enableObj c (true, n)) = _)
  · exact commandRuns_of_runCmd rfl (by decide) (rfl : s.portCmd p 0x49 (fun c n s => s.disableObj c (true, n)) = _)
  · exact commandRuns_of_runLock rfl (by decide) (rfl : execLockgAcq p s = _)
  · exact commandRuns_of_runLock rfl (by decide) (rfl : execLockgRel p s = _)
  · exact commandRuns_of_runLock rfl (by decide) (rfl : execLockgForce p s = _)
  · exact commandRuns_of_runLock rfl (by decide) (rfl : execLockwAcq p s = _)
  · exact commandRuns_of_runLock rfl (by decide) (rfl : execLockwRel p s = _)

end Processor

/-! ### NOPs (R466) -/

section Nops

variable {s : State} {c d : HCmd}

/-- The command that `modCmd` leaves at the front of ring pair `r`, where the change keeps the ring pair. -/
theorem State.front_modCmd {r : Nat} (f : HCmd → HCmd) (same : ∀ c, (f c).r = c.r)
    (front : s.host.cmds.find? (fun d => d.r == r) = some d) (id : Nat) :
    (s.modCmd id f).host.cmds.find? (fun d => d.r == r) = some (if d.id = id then f d else d) := by
  show (s.host.cmds.map (fun c => if c.id = id then f c else c)).find? (fun d => d.r == r) = _
  have ring : (fun d : HCmd => d.r == r) ∘ (fun c => if c.id = id then f c else c) = fun d : HCmd => d.r == r := by
    funext c
    simp only [Function.comp]
    split
    · rw [same]
    · rfl
  rw [List.find?_map, ring, front]
  rfl

theorem State.nopFront_of {r : Nat} (front : s.host.cmds.find? (fun d => d.r == r) = some d) :
    s.nopFront r = if d.held = .nop then some d else none := by
  unfold State.nopFront
  rw [front]
  rfl

theorem exec_cmdNop {p : Fin 8} (h : Commanded s p 0x40 c) (clean : c.clean [] = true) : exec (.cmdNop p) s =
    .next (((s.cpTake p).modCmd c.id (fun c => { c with held := .nop })).nopSettle c.r 16) := by
  show execCmdNop p s = _
  unfold execCmdNop
  rw [State.runCmd_of h.front h.code h.clocked h.turn h.ready, h.normal, Bool.false_and, if_neg (by decide),
    if_neg (by rw [clean]; decide), if_neg (by decide)]

end Nops

/-- Settles O41: every command passes the same checks before its operation; a NOP completes when it is at the front of its
ring pair. -/
theorem commandsAnsweredAtOnce : Obligations.CommandsAnsweredAtOnce := by
  unfold Obligations.CommandsAnsweredAtOnce
  refine ⟨?answered, ?undefined, ?nop, ?nopWaits⟩
  case answered =>
    intro p i op masks right c s listed
    obtain ⟨plain, late, runs⟩ := exec_command listed s
    refine ⟨?_, fun rank => ?_⟩
    · have wait (none_ : s.cpPick ≠ some p.val ∨ s.cpReady = false) : exec i s = .next s := by
        by_cases rank : 0x58 ≤ op ∧ 9 + p.val < s.rank
        · exact late rank.1 rank.2
        · obtain ⟨f, run⟩ := runs (by omega)
          rw [run, State.runCmd, State.cmdAt_none none_]
      rintro (other | busy | ⟨lock, before⟩)
      · exact wait (.inl other)
      · exact wait (.inr busy)
      · exact late lock before
    · obtain ⟨f, run⟩ := runs rank
      refine ⟨fun h bad => ?_, fun h clean barred => ?_, fun h recovery => ?_⟩
      · refine ⟨_, run.trans (State.runCmd_of h.front h.code h.clocked h.turn h.ready), ?_⟩
        rw [h.normal, Bool.false_and, if_neg (by decide), if_pos (by rw [bad]; rfl)]
        exact State.cmdDone_answer h.enabled h.current (by decide) p
      · refine ⟨_, run.trans (State.runCmd_of h.front h.code h.clocked h.turn h.ready), ?_⟩
        rw [h.normal, Bool.false_and, if_neg (by decide), if_neg (by rw [clean]; decide), if_pos (by rw [barred]; rfl)]
        exact State.cmdDone_answer h.enabled h.current (by decide) p
      · refine ⟨_, run.trans (State.runCmd_of h.front h.code h.clocked h.turn h.ready), ?_⟩
        rw [recovery, plain, if_pos (by rfl)]
        exact State.cmdDone_answer (s := s) h.enabled h.current (by decide) p
  case undefined =>
    intro p c s h unknown
    have fits : (!knownOp c.op) = true := by
      rw [knownOp, Bool.not_eq_true', ← Bool.not_eq_true, List.contains_iff_mem]
      exact unknown
    have run : exec (.undefinedCommand p) s = .next ((s.cpTake p).cmdDone c 7 0 0 none) := by
      show execUndefinedCommand p s = _
      unfold execUndefinedCommand
      have found : s.cmdAt p (fun o => !knownOp o) = some c := State.cmdAt_of h.front h.turn h.ready fits
      rw [found]
      refine (State.act_of h.clocked).trans ?_
      rw [h.normal]
      rfl
    obtain ⟨done, -, -, -⟩ := State.cmdDone_answer h.enabled h.current (cstat := 7) (by decide) p
    have work := CmdWork.cmdDone (s.cpTake p) c 7 0 0 none
    exact ⟨_, run, done, (congrArg (fun t => t.host.cpNext) work.rest :), (congrArg (fun t => t.host.cpAt) work.rest :),
      (State.cpTake_keeps s p).1.trans work.work⟩
  case nop =>
    intro p c s h clean front own
    have run := exec_cmdNop h clean
    let u := (s.cpTake p).modCmd c.id (fun c => { c with held := .nop })
    have front' : u.nopFront c.r = some { c with held := .nop } := by
      rw [State.nopFront_of (State.front_modCmd (s := s.cpTake p) (fun c => { c with held := .nop }) (fun _ => rfl) front c.id),
        if_pos rfl, if_pos rfl]
    have on : u.ringEn c.r = true := h.enabled
    have current : c.gen = (u.ring c.r).gen := h.current
    have work : HostWork s u := (State.cpTake_keeps s p).1.trans (rfl : HostWork (s.cpTake p) u)
    change exec _ s = .next (u.nopSettle c.r (15 + 1)) at run
    clear_value u
    rw [State.nopSettle, front'] at run
    let e : HCmd := { c with held := .nop }
    have posted := State.cmdRecord_body (s := u.dropCmdId c.id) (c := e) on current 0 0 0 none
      ((u.dropCmdId c.id).lastCmdRec c.r)
    have record := CmdWork.cmdRecord (u.dropCmdId c.id) e 0 0 0 none ((u.dropCmdId c.id).lastCmdRec c.r)
    have rest := CmdWork.nopSettle c.r 15
      ((u.dropCmdId c.id).cmdRecord e 0 0 0 none ((u.dropCmdId c.id).lastCmdRec c.r))
    have op := e.op_lt
    refine ⟨_, run, Completed.of (c := c) (by have : c.op < 256 := op; omega) posted (fun d member => ?_) rest,
      work.trans (((CmdWork.dropCmdId u c.id).trans record).trans rest).work⟩
    exact bne_iff_ne.1 (List.mem_filter.1 (record.cmds d member)).2
  case nopWaits =>
    intro p c d s h clean front held other
    have run := exec_cmdNop h clean
    let u := (s.cpTake p).modCmd c.id (fun c => { c with held := .nop })
    have front' : u.nopFront c.r = none := by
      rw [State.nopFront_of (State.front_modCmd (s := s.cpTake p) (fun c => { c with held := .nop }) (fun _ => rfl) front c.id),
        if_neg other, if_neg held]
    have recs : u.host.recs = s.host.recs := rfl
    have cmds : u.host.cmds = s.host.cmds.map (fun e => if e.id = c.id then { e with held := .nop } else e) := rfl
    change exec _ s = .next (u.nopSettle c.r (15 + 1)) at run
    clear_value u
    rw [State.nopSettle, front'] at run
    exact ⟨u, run, recs, cmds⟩

end Sys2Proof.Machine

/-!
SUPPORT. Ports and channels that are enabled, disabled and drained (R469-R472), and the proof of O43.
-/

namespace Sys2Proof.Machine

/-! ### What a drain leaves (R470, R471) -/

/-- From `s` to `t` buffers, moves and posts have gone and records have come; the commands, the rings and the states of the
ports and the channels stay. -/
structure DrainWork (s t : State) : Prop where
  regs : t.regs = s.regs
  rings : t.host.rings = s.host.rings
  pstate : t.host.pstate = s.host.pstate
  states : ∀ i, (t.chan i).state = (s.chan i).state
  cmds : t.host.cmds = s.host.cmds
  posts : ∀ q ∈ t.host.posts, q ∈ s.host.posts
  recs : ∀ q ∈ s.host.recs, q.body ∈ t.host.recs.map HRec.body

section Drain

variable {s t u : State}

theorem DrainWork.of (regs : t.regs = s.regs) (host : t.host = s.host) (states : ∀ i, (t.chan i).state = (s.chan i).state) :
    DrainWork s t :=
  ⟨regs, by rw [host], by rw [host], states, by rw [host], fun q member => host ▸ member,
    fun q member => by rw [host]; exact List.mem_map_of_mem member⟩

theorem DrainWork.refl (s : State) : DrainWork s s := .of rfl rfl fun _ => rfl

theorem DrainWork.trans (h : DrainWork s t) (k : DrainWork t u) : DrainWork s u := by
  refine ⟨k.regs.trans h.regs, k.rings.trans h.rings, k.pstate.trans h.pstate, fun i => (k.states i).trans (h.states i),
    k.cmds.trans h.cmds, fun q member => h.posts q (k.posts q member), fun q member => ?_⟩
  obtain ⟨q', member', same⟩ := List.mem_map.1 (h.recs q member)
  rw [← same]
  exact k.recs q' member'

/-- A step of the pump that leaves the channels alone. -/
theorem DrainWork.modPump (s : State) (f : PumpSt → PumpSt) (chans : (f s.pump).chans = s.pump.chans) : DrainWork s (s.modPump f) :=
  .of rfl rfl fun i => congrArg (fun t => (tget {} t i).state) chans

theorem DrainWork.modCell (s : State) (h : Nat) (f : Cell → Cell) : DrainWork s (s.modCell h f) := .of rfl rfl fun _ => rfl
theorem DrainWork.modMove (s : State) (k : Nat) (f : Move → Move) : DrainWork s (s.modMove k f) := .of rfl rfl fun _ => rfl
theorem DrainWork.moveDone (s : State) (k err result : Nat) : DrainWork s (s.moveDone k err result) := .of rfl rfl fun _ => rfl

theorem DrainWork.modHmove (s : State) (k : Nat) (f : HMove → HMove) : DrainWork s (s.modHmove k f) :=
  ⟨rfl, rfl, rfl, fun _ => rfl, rfl, fun _ member => member, fun _ member => List.mem_map_of_mem member⟩

theorem DrainWork.dropHmove (s : State) (k : Nat) : DrainWork s (s.dropHmove k) :=
  ⟨rfl, rfl, rfl, fun _ => rfl, rfl, fun _ member => member, fun _ member => List.mem_map_of_mem member⟩

theorem State.chans_returnCells (s : State) (cs : List Nat) : (s.returnCells cs).pump.chans = s.pump.chans := by
  unfold State.returnCells
  refine foldl_rel (R := fun s t : State => t.pump.chans = s.pump.chans) (fun _ => rfl) (fun h k => Eq.trans k h)
    (fun s c => ?_) cs s
  rfl

theorem State.chans_freeRef (s : State) (b : Nat) : (s.freeRef b).pump.chans = s.pump.chans := by
  unfold State.freeRef
  split
  · rfl
  · unfold State.dropRef
    dsimp only
    split
    · rfl
    · exact State.chans_returnCells _ _

theorem DrainWork.dropRef (s : State) (h : Nat) : DrainWork s (s.dropRef h) := by
  have rest := s.dropRef_rest h
  refine .of (congrArg State.regs rest :) (congrArg State.host rest :) fun i => ?_
  have chans : (s.dropRef h).pump.chans = s.pump.chans := by
    unfold State.dropRef
    dsimp only
    split
    · rfl
    · exact State.chans_returnCells _ _
  rw [State.chan, chans, State.chan]

theorem DrainWork.freeRef (s : State) (b : Nat) : DrainWork s (s.freeRef b) := by
  unfold State.freeRef
  split
  · exact .of rfl rfl fun _ => rfl
  · exact DrainWork.dropRef s _

theorem DrainWork.resetSettle (s : State) (p : Nat) : DrainWork s (s.resetSettle p) := by
  obtain ⟨work, host⟩ := s.resetSettle_rest p
  have pump : (s.resetSettle p).pump = s.pump := (congrArg State.pump work.eq :)
  exact ⟨work.regs, (congrArg HostSt.rings host :), (congrArg HostSt.pstate host :), fun i => by rw [State.chan, pump, State.chan],
    (congrArg HostSt.cmds host :), fun q member => (congrArg HostSt.posts host :) ▸ member,
    fun q member => (congrArg HostSt.recs host :) ▸ List.mem_map_of_mem member⟩

theorem DrainWork.recFinish (s : State) (slot : Option Nat) : DrainWork s (s.recFinish slot) := by
  unfold State.recFinish
  split
  · exact .refl s
  · extract_lets v
    have done : DrainWork s v := DrainWork.modMove s _ _
    split
    · exact (done.trans (DrainWork.dropHmove v _)).trans (DrainWork.resetSettle _ _)
    · exact done

theorem DrainWork.postRecord (s : State) (r w0 w1 w2 w3 : Nat) (irq : Bool) (slot after : Option Nat) (stale : Bool) :
    DrainWork s (s.postRecord r w0 w1 w2 w3 irq slot after stale) := by
  unfold State.postRecord
  split
  · exact DrainWork.recFinish s slot
  · refine ⟨rfl, rfl, rfl, fun _ => rfl, rfl, fun _ member => member, fun q member => ?_⟩
    exact List.mem_map_of_mem (List.mem_append_left _ member)

theorem DrainWork.postObj (s : State) (o : Bool × Nat) (r w0 w1 w2 w3 : Nat) (irq : Bool) (slot : Option Nat) (stale : Bool) :
    DrainWork s (s.postObj o r w0 w1 w2 w3 irq slot stale) := by
  unfold State.postObj
  extract_lets before n u
  have posted : DrainWork s u := DrainWork.postRecord s r w0 w1 w2 w3 irq slot before stale
  refine posted.trans ⟨rfl, rfl, rfl, fun _ => rfl, rfl, fun _ member => member, fun q member => ?_⟩
  refine List.mem_map.2 ⟨_, List.mem_map_of_mem member, ?_⟩
  split
  · rfl
  · rfl

/-- A backlog is freed to its end. -/
theorem State.freeBacklog_spec (s : State) (i n : Nat) : DrainWork s (s.freeBacklog i n).2 ∧
    ((s.chan i).blCount ≤ n → ((s.freeBacklog i n).2.chan i).blCount = 0) := by
  induction n generalizing s with
  | zero => exact ⟨.refl s, fun few => Nat.le_zero.1 few⟩
  | succ n ih =>
    rw [State.freeBacklog]
    cases popped : s.blPop i with
    | none =>
      refine ⟨.refl s, fun _ => ?_⟩
      unfold State.blPop at popped
      dsimp only at popped
      split at popped
      · next empty => exact empty
      · cases popped
    | some r =>
      obtain ⟨b, u⟩ := r
      have taken : DrainWork s u ∧ (u.chan i).blCount = (s.chan i).blCount - 1 := by
        unfold State.blPop at popped
        dsimp only at popped
        split at popped
        · cases popped
        · cases popped
          have chan (j : Nat) : (s.modChan i (fun c => { c with
              blCount := c.blCount - 1, blHead := (s.hdr (s.chan i).blHead).link
              blTail := if (s.hdr (s.chan i).blHead).link = 0 then 0 else c.blTail })).chan j = _ :=
            State.chan_modChan s i _ j
          refine ⟨.of rfl rfl fun j => ?_, ?_⟩
          · rw [chan]
            split
            · next own => rw [own]
            · rfl
          · rw [chan, if_pos rfl]
      obtain ⟨work, count⟩ := taken
      have freed := DrainWork.freeRef u b
      have same : ((u.freeRef b).chan i).blCount = (u.chan i).blCount := by
        rw [State.chan, State.chans_freeRef, State.chan]
      obtain ⟨rest, empty⟩ := ih (u.freeRef b)
      exact ⟨(work.trans freed).trans rest, fun few => empty (by rw [same, count]; omega)⟩

theorem DrainWork.dropQueued (s : State) (n : Nat) (i : TxItem) : DrainWork s (s.dropQueued n i) := by
  unfold State.dropQueued
  extract_lets h
  split
  · exact .dropRef s h
  · split
    · exact (DrainWork.modCell s h _).trans (.moveDone _ _ _ _)
    · split
      · exact .dropRef s h
      · exact ((DrainWork.dropRef s h).trans (.modHmove _ _ _)).trans (.postObj _ _ _ _ _ _ _ _ _ _)

theorem State.ports_dropQueued (s : State) (n : Nat) (i : TxItem) : (s.dropQueued n i).ports = s.ports := by
  unfold State.dropQueued
  extract_lets h
  split
  · exact s.ports_dropRef h
  · split
    · rfl
    · split
      · exact s.ports_dropRef h
      · refine Eq.trans (State.ports_postRecord _ _ _ _ _ _ _ _ _ _) ?_
        exact s.ports_dropRef h

/-- A port's queues are emptied (R470). -/
theorem State.portFlush_spec (s : State) (n : Nat) : DrainWork s (s.portFlush n) ∧ ((s.portFlush n).port n).queues = [] := by
  unfold State.portFlush
  extract_lets items u
  have marked : DrainWork s u := .of rfl rfl fun _ => rfl
  have empty : (u.port n).queues = [] := by rw [State.port_modPort, if_pos rfl]
  clear_value u
  have dropped : DrainWork u (items.foldl (fun s i => s.dropQueued n i) u) :=
    foldl_rel (R := DrainWork) DrainWork.refl DrainWork.trans (fun s i => DrainWork.dropQueued s n i) items u
  have ports : (items.foldl (fun s i => s.dropQueued n i) u).ports = u.ports :=
    foldl_rel (R := fun s t : State => t.ports = s.ports) (fun _ => rfl) (fun h k => Eq.trans k h)
      (fun s i => s.ports_dropQueued n i) items u
  exact ⟨marked.trans dropped, by rw [State.port, ports]; exact empty⟩

/-- A channel's posts complete and its backlog is freed (R471). -/
theorem State.chanDrain_spec (s : State) (i : Nat) : DrainWork s (s.chanDrain i).2 ∧
    (∀ q ∈ (s.chanDrain i).2.host.posts, q.ch ≠ i) ∧ ((s.chanDrain i).2.chan i).blCount = 0 := by
  unfold State.chanDrain
  extract_lets ps u v
  have filtered : DrainWork s u :=
    ⟨rfl, rfl, rfl, fun _ => rfl, rfl, fun q member => (List.mem_filter.1 member).1, fun q member => List.mem_map_of_mem member⟩
  have gone : ∀ q ∈ u.host.posts, q.ch ≠ i := fun q member => bne_iff_ne.1 (List.mem_filter.1 member).2
  have posted : DrainWork u v :=
    foldl_rel (R := DrainWork) DrainWork.refl DrainWork.trans (fun s p => DrainWork.postObj s _ _ _ _ _ _ _ _ _) ps u
  obtain ⟨freed, empty⟩ := v.freeBacklog_spec i (v.chan i).blCount
  exact ⟨(filtered.trans posted).trans freed, fun q member => gone q (posted.posts q (freed.posts q member)),
    empty (Nat.le_refl _)⟩

end Drain

/-! ### Held commands (R469, R472) -/

section Held

variable {s t u : State} {c d : HCmd} {o : Bool × Nat} {k res : Nat}

/-- A completion stays while records stay and no command of its number comes. -/
theorem Completed.mono (h : Completed s c k res) (recs : ∀ q ∈ s.host.recs, q.body ∈ t.host.recs.map HRec.body)
    (cmds : ∀ d ∈ t.host.cmds, ∃ e ∈ s.host.cmds, e.id = d.id) : Completed t c k res := by
  obtain ⟨⟨q, member, ring, w0, w1, w2, irq⟩, gone⟩ := h
  obtain ⟨q', member', same⟩ := List.mem_map.1 (recs q member)
  simp only [HRec.body, Prod.mk.injEq] at same
  obtain ⟨ring', w0', w1', w2', -, irq'⟩ := same
  refine ⟨⟨q', member', ring'.trans ring, w0'.trans w0, w1'.trans w1, w2'.trans w2, irq'.trans irq⟩, fun d member => ?_⟩
  obtain ⟨e, member, same⟩ := cmds d member
  rw [← same]
  exact gone e member

theorem Completed.work (h : Completed s c k res) (work : CmdWork s t) : Completed t c k res :=
  h.mono work.recs fun d member => ⟨d, work.cmds d member, rfl⟩

theorem Completed.drain (h : Completed s c k res) (work : DrainWork s t) : Completed t c k res :=
  h.mono work.recs fun d member => ⟨d, by rw [← work.cmds]; exact member, rfl⟩

theorem Completed.holdCmd (h : Completed s c k res) (e : HCmd) (held : HHeld) (r : Nat) : Completed (s.holdCmd e held r) c k res := by
  refine h.mono (fun q member => List.mem_map_of_mem member) fun d member => ?_
  obtain ⟨e', member', rfl⟩ := List.mem_map.1 member
  refine ⟨e', member', ?_⟩
  split
  · rfl
  · rfl

theorem Completed.setObj (h : Completed s c k res) (o : Bool × Nat) (v : Nat) : Completed (s.setObj o v) c k res := by
  obtain ⟨_ | _, n⟩ := o
  · exact h
  · exact h

/-- What `endHeld` holds back. -/
def heldOf (o : Bool × Nat) (en : Bool) : HHeld := if en then .enable o.1 o.2 else .disable o.1 o.2

theorem State.endHeld_eq (s : State) (o : Bool × Nat) (en : Bool) (k : Nat) : s.endHeld o en k =
    (s.host.cmds.filter (fun c => c.held == heldOf o en)).foldl
      (fun s c => s.cmdDone c k c.result 0 (if k = 8 then none else some o)) s := rfl

theorem CmdWork.endHeld (s : State) (o : Bool × Nat) (en : Bool) (k : Nat) : CmdWork s (s.endHeld o en k) := by
  rw [State.endHeld_eq]
  exact foldl_rel (R := CmdWork) CmdWork.refl CmdWork.trans (fun s c => CmdWork.cmdDone s c _ _ _ _) _ s

/-- Commands that complete in turn have completed at the end. -/
theorem State.cmdsDone_completed (cs : List HCmd) (f : HCmd → Option (Bool × Nat)) (small : k < 256) (s : State) (member : d ∈ cs)
    (on : s.ringEn d.r = true) (current : d.gen = (s.ring d.r).gen) :
    Completed (cs.foldl (fun s c => s.cmdDone c k c.result 0 (f c)) s) d k d.result := by
  induction cs generalizing s with
  | nil => cases member
  | cons c cs ih =>
    have work := CmdWork.cmdDone s c k c.result 0 (f c)
    rcases List.mem_cons.1 member with rfl | later
    · have rest : CmdWork (s.cmdDone d k d.result 0 (f d))
          (cs.foldl (fun s c => s.cmdDone c k c.result 0 (f c)) (s.cmdDone d k d.result 0 (f d))) :=
        foldl_rel (R := CmdWork) CmdWork.refl CmdWork.trans (fun s c => CmdWork.cmdDone s c _ _ _ _) cs _
      exact (State.cmdDone_completed on current small _ _ _).work rest
    · refine ih _ later ?_ ?_
      · rw [State.ringEn, work.work.ringCfg]
        exact on
      · rw [State.ring, work.rings]
        exact current

theorem State.endHeld_completed {en : Bool} (small : k < 256) (member : d ∈ s.host.cmds) (held : d.held = heldOf o en)
    (on : s.ringEn d.r = true) (current : d.gen = (s.ring d.r).gen) : Completed (s.endHeld o en k) d k d.result := by
  rw [State.endHeld_eq]
  exact State.cmdsDone_completed _ _ small s (List.mem_filter.2 ⟨member, beq_iff_eq.2 held⟩) on current

/-- A command other than a NOP, alone with its number, stays while others complete. -/
structure Waits (s : State) (c : HCmd) : Prop where
  member : c ∈ s.host.cmds
  alone : ∀ d ∈ s.host.cmds, d.id = c.id → d = c
  other : c.held ≠ .nop

theorem Waits.dropCmdId (h : Waits s c) {id : Nat} (other : id ≠ c.id) : Waits (s.dropCmdId id) c :=
  ⟨List.mem_filter.2 ⟨h.member, bne_iff_ne.2 (Ne.symm other)⟩, fun d member => h.alone d (List.mem_filter.1 member).1, h.other⟩

theorem Waits.congr (h : Waits s c) (cmds : t.host.cmds = s.host.cmds) : Waits t c :=
  ⟨cmds ▸ h.member, fun d member => h.alone d (cmds ▸ member), h.other⟩

theorem State.cmds_cmdRecord (s : State) (c : HCmd) (cstat res res2 : Nat) (o : Option (Bool × Nat)) (after : Option Nat) :
    (s.cmdRecord c cstat res res2 o after).host.cmds = s.host.cmds := by
  cases o with
  | none => exact (DrainWork.postRecord s _ _ _ _ _ _ _ _ _).cmds
  | some o => exact (DrainWork.postObj s _ _ _ _ _ _ _ _ _).cmds

theorem Waits.nopSettle (r n : Nat) (h : Waits s c) : Waits (s.nopSettle r n) c := by
  induction n generalizing s with
  | zero => exact h
  | succ n ih =>
    rw [State.nopSettle]
    split
    · exact h
    · next d front =>
      have nop : d ∈ s.host.cmds ∧ d.held = .nop := by
        unfold State.nopFront at front
        obtain ⟨e, found, same⟩ := Option.bind_eq_some_iff.1 front
        split at same
        · next held =>
          cases same
          exact ⟨List.mem_of_find?_eq_some found, held⟩
        · cases same
      have other : d.id ≠ c.id := fun same => h.other (h.alone d nop.1 same ▸ nop.2)
      exact ih ((h.dropCmdId other).congr (State.cmds_cmdRecord _ _ _ _ _ _ _))

theorem Waits.cmdDone (h : Waits s c) {d : HCmd} (other : d.id ≠ c.id) (k res res2 : Nat) (o : Option (Bool × Nat)) :
    Waits (s.cmdDone d k res res2 o) c := by
  have dropped := (h.dropCmdId other).congr (State.cmds_cmdRecord (s.dropCmdId d.id) d k res res2 o none)
  exact (dropped.nopSettle d.r 16).congr (DrainWork.resetSettle _ _).cmds

theorem Waits.cmdsDone (h : Waits s c) (cs : List HCmd) (f : HCmd → Option (Bool × Nat)) (others : ∀ d ∈ cs, d.id ≠ c.id) :
    Waits (cs.foldl (fun s c => s.cmdDone c k c.result 0 (f c)) s) c := by
  induction cs generalizing s with
  | nil => exact h
  | cons d cs ih =>
    exact ih (h.cmdDone (others d (List.mem_cons_self ..)) _ _ _ _) fun e member => others e (List.mem_cons_of_mem _ member)

theorem Waits.endHeld (h : Waits s c) {en : Bool} (free : c.held ≠ heldOf o en) : Waits (s.endHeld o en k) c := by
  rw [State.endHeld_eq]
  refine h.cmdsDone _ _ fun d member same => free ?_
  obtain ⟨member, held⟩ := List.mem_filter.1 member
  rw [← h.alone d member same]
  exact beq_iff_eq.1 held

theorem State.holdCmd_held (member : c ∈ s.host.cmds) (held : HHeld) (r : Nat) :
    ∃ d ∈ (s.holdCmd c held r).host.cmds, d.id = c.id ∧ d.held = held :=
  ⟨_, List.mem_map_of_mem member, by rw [if_pos rfl], by rw [if_pos rfl]⟩

end Held

/-! ### Objects -/

section Objects

variable {s t : State}

theorem State.objState_setObj (s : State) (o : Bool × Nat) (v : Nat) : (s.setObj o v).objState o = v := by
  obtain ⟨_ | _, n⟩ := o
  · show ((s.modChan n (fun c => { c with state := v })).chan n).state = v
    rw [State.chan_modChan_same]
  · exact (tget_tset 0 s.host.pstate n n v).trans (if_pos rfl)

theorem State.objState_congr (pstate : t.host.pstate = s.host.pstate) (states : ∀ i, (t.chan i).state = (s.chan i).state)
    (o : Bool × Nat) : t.objState o = s.objState o := by
  unfold State.objState
  rw [State.pstate, pstate, states, State.pstate]

theorem CmdWork.objState (h : CmdWork s t) (o : Bool × Nat) : t.objState o = s.objState o :=
  State.objState_congr h.pstate (fun i => by rw [State.chan, h.pump, State.chan]) o

theorem DrainWork.objState (h : DrainWork s t) (o : Bool × Nat) : t.objState o = s.objState o :=
  State.objState_congr h.pstate h.states o

theorem State.noteEnable_host (s : State) (o : Bool × Nat) : (s.noteEnable o).host.cmds = s.host.cmds ∧
    (s.noteEnable o).host.recs = s.host.recs ∧ (s.noteEnable o).objState o = s.objState o := by
  obtain ⟨_ | _, n⟩ := o
  · exact ⟨rfl, rfl, rfl⟩
  · exact ⟨rfl, rfl, rfl⟩

theorem State.setObj_host (s : State) (o : Bool × Nat) (v : Nat) : (s.setObj o v).host.cmds = s.host.cmds ∧
    (s.setObj o v).host.recs = s.host.recs ∧ (s.setObj o v).regs = s.regs ∧ (s.setObj o v).host.rings = s.host.rings := by
  obtain ⟨_ | _, n⟩ := o
  · exact ⟨rfl, rfl, rfl, rfl⟩
  · exact ⟨rfl, rfl, rfl, rfl⟩

/-- What an object leaves that enters DRAINING (R470, R471). -/
theorem State.enterDrain_spec (s : State) (o : Bool × Nat) : (s.enterDrain o).2.objState o = 3 ∧
    (s.enterDrain o).2.host.cmds = s.host.cmds ∧
    (∀ q ∈ s.host.recs, q.body ∈ (s.enterDrain o).2.host.recs.map HRec.body) ∧
    (o.1 = false → ∀ q ∈ (s.enterDrain o).2.host.posts, q.ch ≠ o.2) := by
  obtain ⟨cmds, recs, -, -⟩ := s.setObj_host o 3
  have state := s.objState_setObj o 3
  unfold State.enterDrain
  dsimp only
  generalize s.setObj o 3 = u at *
  split
  · next port =>
    obtain ⟨work, -⟩ := u.portFlush_spec o.2
    exact ⟨(work.objState o).trans state, work.cmds.trans cmds, fun q member => work.recs q (recs ▸ member),
      fun channel => absurd port (by rw [channel]; decide)⟩
  · obtain ⟨work, posts, -⟩ := u.chanDrain_spec o.2
    exact ⟨(work.objState o).trans state, work.cmds.trans cmds, fun q member => work.recs q (recs ▸ member), fun _ => posts⟩

end Objects

/-! ### ENABLE and DISABLE (R469) -/

section Commands

variable {s : State} {p : Fin 8} {i : Instr} {c : HCmd} {o : Bool × Nat}

/-- A handle that names a channel is checked alike in a state whose channels are the same. -/
theorem State.checkHandle_congr {u : State} {h j : Nat} (checked : s.checkHandle 0 h = (.ok j, s)) (chans : u.pump.chans = s.pump.chans) :
    u.checkHandle 0 h = (.ok j, u) := by
  unfold State.checkHandle at checked ⊢
  split at checked
  · cases (Prod.mk.inj checked).1
  · next formed =>
    have same : u.chan (bits h 29 16) = s.chan (bits h 29 16) := by rw [State.chan, chans, State.chan]
    dsimp only at checked ⊢
    split at checked
    · cases (Prod.mk.inj checked).1
    · next live =>
      have index : bits h 29 16 = j := by
        injection (Prod.mk.inj checked).1
      rw [if_neg formed, same, if_neg live, index]

/-- The command that partition `p`'s command processor takes is on its command ring. -/
theorem Commanded.part {op : Nat} (h : Commanded s p op c) : c.part = p := by
  have front := List.find?_some h.front
  simp only [Bool.and_eq_true, beq_iff_eq] at front
  rw [HCmd.part, partOf, front.1]
  omega

theorem State.cmdChan_own {u : State} {j : Nat} (checked : s.checkHandle 0 (c.w 1) = (.ok j, s)) (chans : u.pump.chans = s.pump.chans)
    (own : (s.chan j).hp = c.part) : u.cmdChan c = (.ok j, u) := by
  have same : u.chan j = s.chan j := by rw [State.chan, chans, State.chan]
  unfold State.cmdChan
  rw [State.checkHandle_congr checked chans]
  dsimp only
  rw [if_neg (by rw [same]; exact not_not.2 own)]

/-- A command on an object `o`: a channel that its handle names, or a port of the partition (R466). -/
def Names (s : State) (p : Fin 8) (opCh opPort : Nat) (ch port : Instr) (i : Instr) (c : HCmd) (o : Bool × Nat) : Prop :=
  i = ch ∧ Commanded s p opCh c ∧ c.clean [2 ^ 32 - 1] = true ∧ s.checkHandle 0 (c.w 1) = (.ok o.2, s) ∧
    (s.chan o.2).hp = p.val ∧ o.1 = false ∨
  i = port ∧ Commanded s p opPort c ∧ c.clean [31] = true ∧ o = (true, c.w 1 % 32) ∧ bit (s.hpPorts p) (c.w 1 % 32) = true

theorem Names.commanded {opCh opPort : Nat} {ch port : Instr} (h : Names s p opCh opPort ch port i c o) :
    ∃ op, Commanded s p op c := by
  rcases h with ⟨-, h, -⟩ | ⟨-, h, -⟩
  · exact ⟨_, h⟩
  · exact ⟨_, h⟩

theorem exec_enable (h : Names s p 0x44 0x48 (.chEnable p) (.portEnable p) i c o) :
    exec i s = .next ((s.cpTake p).enableObj c o) := by
  rcases h with ⟨rfl, h, clean, checked, own, channel⟩ | ⟨rfl, h, clean, rfl, right⟩
  · obtain ⟨kind, n⟩ := o
    subst channel
    show execChEnable p s = _
    unfold execChEnable
    rw [State.runCmd_of h.front h.code h.clocked h.turn h.ready, h.normal, Bool.false_and, if_neg (by decide),
      if_neg (by rw [clean]; decide), if_neg (by decide),
      State.cmdChan_own (u := s.cpTake p) checked rfl (own.trans h.part.symm)]
  · show execPortEnable p s = _
    unfold execPortEnable State.portCmd
    rw [State.runCmd_of h.front h.code h.clocked h.turn h.ready, h.normal, Bool.false_and, if_neg (by decide),
      if_neg (by rw [clean]; decide), if_neg (by decide)]
    exact congrArg Host.Outcome.next (if_pos right)

theorem exec_disable (h : Names s p 0x45 0x49 (.chDisable p) (.portDisable p) i c o) :
    exec i s = .next ((s.cpTake p).disableObj c o) := by
  rcases h with ⟨rfl, h, clean, checked, own, channel⟩ | ⟨rfl, h, clean, rfl, right⟩
  · obtain ⟨kind, n⟩ := o
    subst channel
    show execChDisable p s = _
    unfold execChDisable
    rw [State.runCmd_of h.front h.code h.clocked h.turn h.ready, h.normal, Bool.false_and, if_neg (by decide),
      if_neg (by rw [clean]; decide), if_neg (by decide),
      State.cmdChan_own (u := s.cpTake p) checked rfl (own.trans h.part.symm)]
  · show execPortDisable p s = _
    unfold execPortDisable State.portCmd
    rw [State.runCmd_of h.front h.code h.clocked h.turn h.ready, h.normal, Bool.false_and, if_neg (by decide),
      if_neg (by rw [clean]; decide), if_neg (by decide)]
    exact congrArg Host.Outcome.next (if_pos right)

/-- What ENABLE leaves, by the state of its object. -/
theorem State.enableObj_spec (s : State) (o : Bool × Nat) (member : c ∈ s.host.cmds) (on : s.ringEn c.r = true)
    (current : c.gen = (s.ring c.r).gen) :
    (s.objState o = 2 → (s.enableObj c o).objState o = 2 ∧ Completed (s.enableObj c o) c 0 0) ∧
    (s.objState o ≠ 2 → (s.enableObj c o).host.recs = s.host.recs ∧
      ∃ d ∈ (s.enableObj c o).host.cmds, d.id = c.id ∧ d.held = .enable o.1 o.2) ∧
    (s.objState o = 0 → (s.enableObj c o).objState o = 1) ∧ (s.objState o = 3 → (s.enableObj c o).objState o = 4) ∧
    (s.objState o = 1 ∨ s.objState o = 4 → (s.enableObj c o).objState o = s.objState o) := by
  have starts (v : Nat) : let t := ((s.setObj o v).holdCmd c (.enable o.1 o.2) 0).noteEnable o
      t.objState o = v ∧ t.host.recs = s.host.recs ∧ ∃ d ∈ t.host.cmds, d.id = c.id ∧ d.held = .enable o.1 o.2 := by
    obtain ⟨cmds, recs, -, -⟩ := s.setObj_host o v
    have state := s.objState_setObj o v
    generalize s.setObj o v = u at *
    obtain ⟨cmds', recs', state'⟩ := (u.holdCmd c (.enable o.1 o.2) 0).noteEnable_host o
    have held : (u.holdCmd c (.enable o.1 o.2) 0).objState o = u.objState o := rfl
    refine ⟨state'.trans (held.trans state), recs'.trans recs, ?_⟩
    rw [cmds']
    exact State.holdCmd_held (cmds ▸ member) _ _
  unfold State.enableObj
  dsimp only
  split
  · next off =>
    obtain ⟨state, recs, held⟩ := starts 1
    rw [off]
    exact ⟨fun no => absurd no (by decide), fun _ => ⟨recs, held⟩, fun _ => state, fun no => absurd no (by decide),
      fun no => absurd no (by decide)⟩
  · next on_ =>
    rw [on_]
    have work := CmdWork.cmdDone s c 0 0 0 (some o)
    exact ⟨fun _ => ⟨(work.objState o).trans on_, State.cmdDone_completed on current (by decide) _ _ _⟩, fun no => absurd rfl no,
      fun no => absurd no (by decide), fun no => absurd no (by decide), fun no => absurd no (by decide)⟩
  · next draining =>
    obtain ⟨state, recs, held⟩ := starts 4
    rw [draining]
    exact ⟨fun no => absurd no (by decide), fun _ => ⟨recs, held⟩, fun no => absurd no (by decide), fun _ => state,
      fun no => absurd no (by decide)⟩
  · next no0 no2 no3 =>
    exact ⟨fun on_ => absurd on_ no2, fun _ => ⟨rfl, State.holdCmd_held member _ _⟩, fun off => absurd off no0,
      fun draining => absurd draining no3, fun _ => rfl⟩

/-- Buffers freed at the end of a drain count in the first of the channel's held DISABLEs. -/
theorem State.addFreed_spec (s : State) (ch n : Nat) (alone : ∀ d ∈ s.host.cmds, ∀ e ∈ s.host.cmds, d.id = e.id → d = e) :
    { s.addFreed ch n with host := { (s.addFreed ch n).host with cmds := s.host.cmds } } = s ∧
    ∀ d ∈ s.host.cmds, { d with result := d.result +
      (if s.host.cmds.find? (fun d => d.held == .disable false ch) = some d then n else 0) } ∈ (s.addFreed ch n).host.cmds := by
  unfold State.addFreed
  split
  · next c first =>
    refine ⟨rfl, fun d member => List.mem_map.2 ⟨d, member, ?_⟩⟩
    rw [first]
    by_cases same : d = c
    · subst same
      rw [if_pos rfl, if_pos rfl]
    · rw [if_neg fun ids => same (alone d member c (List.mem_of_find?_eq_some first) ids),
        if_neg fun eq => same (Option.some.inj eq).symm]
      rfl
  · next none_ =>
    refine ⟨rfl, fun d member => ?_⟩
    rw [none_, if_neg (by simp)]
    exact member

/-- What DISABLE leaves, by the state of its object. -/
theorem State.disableObj_spec (s : State) (o : Bool × Nat) (waits : Waits s c) (fresh : c.held = .fresh)
    (on : s.ringEn c.r = true) (current : c.gen = (s.ring c.r).gen) :
    (s.objState o = 0 → (s.disableObj c o).objState o = 0 ∧ Completed (s.disableObj c o) c 0 0) ∧
    (s.objState o ≠ 0 → (s.disableObj c o).objState o = 3 ∧
      ∃ d ∈ (s.disableObj c o).host.cmds, d.id = c.id ∧ d.held = .disable o.1 o.2) ∧
    (s.objState o = 1 ∨ s.objState o = 4 → ∀ d ∈ s.host.cmds, d.held = .enable o.1 o.2 → s.ringEn d.r = true →
      d.gen = (s.ring d.r).gen → Completed (s.disableObj c o) d 8 d.result) ∧
    (o.1 = false → s.objState o = 1 ∨ s.objState o = 2 → ∀ q ∈ (s.disableObj c o).host.posts, q.ch ≠ o.2) := by
  have ended : Waits (s.endHeld o true 8) c := waits.endHeld (by rw [fresh]; exact fun no => nomatch no)
  unfold State.disableObj
  dsimp only
  split
  · next off =>
    rw [off]
    have work := CmdWork.cmdDone s c 0 0 0 (some o)
    exact ⟨fun _ => ⟨(work.objState o).trans off, State.cmdDone_completed on current (by decide) _ _ _⟩, fun no => absurd rfl no,
      fun no => absurd no (by decide), fun _ no => absurd no (by decide)⟩
  · next draining =>
    rw [draining]
    exact ⟨fun no => absurd no (by decide), fun _ => ⟨draining, State.holdCmd_held waits.member _ _⟩,
      fun no => absurd no (by decide), fun _ no => absurd no (by decide)⟩
  · next both =>
    rw [both]
    obtain ⟨cmds, -, -, -⟩ := (s.endHeld o true 8).setObj_host o 3
    refine ⟨fun no => absurd no (by decide), fun _ => ⟨State.objState_setObj _ o 3, State.holdCmd_held (cmds ▸ ended.member) _ _⟩,
      fun _ d member held on current => ?_, fun _ no => absurd no (by decide)⟩
    exact ((State.endHeld_completed (o := o) (en := true) (by decide) member held on current).setObj o 3).holdCmd c _ _
  · next no0 no3 no4 =>
    generalize enters : (if s.objState o = 1 then s.endHeld o true 8 else s) = u
    have waits' : Waits u c := by
      rw [← enters]
      split
      · exact ended
      · exact waits
    have done : s.objState o = 1 → ∀ d ∈ s.host.cmds, d.held = .enable o.1 o.2 → s.ringEn d.r = true →
        d.gen = (s.ring d.r).gen → Completed u d 8 d.result := by
      intro enabling d member held on current
      rw [← enters, if_pos enabling]
      exact State.endHeld_completed (by decide) member held on current
    obtain ⟨state, cmds, recs, posts⟩ := u.enterDrain_spec o
    refine ⟨fun off => absurd off no0, fun _ => ⟨state, State.holdCmd_held (cmds ▸ waits'.member) _ _⟩, fun which => ?_,
      fun channel _ => posts channel⟩
    rcases which with enabling | both
    · intro d member held on current
      exact ((done enabling d member held on current).mono recs fun d member => ⟨d, cmds ▸ member, rfl⟩).holdCmd c _ _
    · exact absurd both no4

end Commands

/-- Settles O43: ENABLE and DISABLE by the state of their object; what is held completes in turn, and a drain keeps
commands and records. -/
theorem enableAndDisable : Obligations.EnableAndDisable := by
  unfold Obligations.EnableAndDisable
  refine ⟨?enable, ?disable, ?portEnds, ?channelOn, ?portDrained, ?channelDrained⟩
  case enable =>
    intro p i c o s names
    have names : Names s p 0x44 0x48 (.chEnable p) (.portEnable p) i c o := names
    obtain ⟨op, h⟩ := names.commanded
    have member : c ∈ s.host.cmds := List.mem_of_find?_eq_some h.front
    exact ⟨_, exec_enable names, State.enableObj_spec (s.cpTake p) o member h.enabled h.current⟩
  case disable =>
    intro p i c o s names small alone
    have names : Names s p 0x45 0x49 (.chDisable p) (.portDisable p) i c o := names
    obtain ⟨op, h⟩ := names.commanded
    have fresh : c.held = .fresh := by
      have front := List.find?_some h.front
      simp only [Bool.and_eq_true, beq_iff_eq] at front
      exact front.2
    have waits : Waits (s.cpTake p) c :=
      ⟨List.mem_of_find?_eq_some h.front, alone, by rw [fresh]; exact fun no => nomatch no⟩
    obtain ⟨off, held, ended, posts⟩ := State.disableObj_spec (s.cpTake p) o waits fresh h.enabled h.current
    exact ⟨_, exec_disable names, off, held, fun which d member held _ => ended which d member held, posts⟩
  case portEnds =>
    intro n i v k s enabling cause
    have run : exec i s = .next ((s.setObj (true, n) v).endHeld (true, n) true k) := by
      rcases cause with ⟨rfl, up, quiet, rfl, rfl⟩ | ⟨rfl, late, rfl, rfl⟩
      · exact State.act_of (by rw [enabling, up, quiet]; rfl)
      · refine State.act_of ?_
        rw [enabling, msUnits, decide_eq_true late]
        rfl
    have small : k < 256 := by
      rcases cause with ⟨-, -, -, -, rfl⟩ | ⟨-, -, -, rfl⟩
      · decide
      · decide
    have work := CmdWork.endHeld (s.setObj (true, n) v) (true, n.val) true k
    have state (m : Nat) : (s.setObj (true, n) v).pstate m = if n.val = m then v else s.pstate m := tget_tset 0 s.host.pstate n m v
    have same (m : Nat) : ((s.setObj (true, n) v).endHeld (true, n) true k).pstate m = (s.setObj (true, n) v).pstate m := by
      rw [State.pstate, work.pstate, State.pstate]
    refine ⟨_, run, (same n).trans ((state n).trans (if_pos rfl)),
      fun m other => (same m).trans ((state m).trans (if_neg (Ne.symm other))), fun d member held on current => ?_,
      (HostWork.modHost s _).trans work.work⟩
    exact State.endHeld_completed (s := s.setObj (true, n) v) small member held on current
  case channelOn =>
    intro ch v k s enabling cause
    have run : exec (.channelOn ch) s = .next ((s.setObj (false, ch) v).endHeld (false, ch) true k) := by
      refine (State.act_of (by rw [enabling]; rfl)).trans (congrArg Host.Outcome.next ?_)
      rcases cause with ⟨good, rfl, rfl⟩ | ⟨bad, rfl, rfl⟩
      · exact if_pos good
      · exact if_neg bad
    have small : k < 256 := by
      rcases cause with ⟨-, -, rfl⟩ | ⟨-, -, rfl⟩
      · decide
      · decide
    have work := CmdWork.endHeld (s.setObj (false, ch) v) (false, ch.val) true k
    have state (j : Nat) : (s.setObj (false, ch) v).chan j = if ch.val = j then { s.chan ch with state := v } else s.chan j :=
      State.chan_modChan s ch (fun c => { c with state := v }) j
    have same (j : Nat) : ((s.setObj (false, ch) v).endHeld (false, ch) true k).chan j = (s.setObj (false, ch) v).chan j := by
      rw [State.chan, work.pump, State.chan]
    refine ⟨_, run, (same ch).trans ((state ch).trans (if_pos rfl)),
      fun j other => (same j).trans ((state j).trans (if_neg (Ne.symm other))), fun d member held on current => ?_, ?_⟩
    · exact State.endHeld_completed (s := s.setObj (false, ch) v) small member held on current
    · let g : State → State := fun t => { t with host := s.host, pump := s.pump }
      exact (congrArg g work.work.eq :)
  case portDrained =>
    intro n s draining idle ends quiet gone
    have run : exec (.portDrainEnd n) s = .next ((s.portFlush n).drainEnd (true, n)) := by
      refine State.act_of ?_
      have state : (s.pstate n == 3 || s.pstate n == 4) = true := by
        rcases draining with three | four
        · rw [three]
          rfl
        · rw [four]
          rfl
      rw [state, idle, quiet, ends, decide_eq_true gone]
      rfl
    obtain ⟨flushed, queues⟩ := s.portFlush_spec n
    have state := flushed.objState (true, n.val)
    generalize s.portFlush n = u at *
    have work := CmdWork.endHeld u (true, n.val) false 0
    have ended : u.drainEnd (true, n) = (u.endHeld (true, n) false 0).setObj (true, n) (if s.pstate n = 4 then 1 else 0) := by
      unfold State.drainEnd
      rw [state]
      rfl
    rw [ended] at run
    refine ⟨_, run, State.objState_setObj _ (true, n.val) _, ?_, fun d member held on current => ?_⟩
    · have ports : (u.endHeld (true, n) false 0).ports = u.ports := (congrArg State.ports work.work.eq :)
      show ((u.endHeld (true, n) false 0).port n).queues = []
      rw [State.port, ports]
      exact queues
    · refine (State.endHeld_completed (by decide) (flushed.cmds ▸ member) held ?_ ?_).setObj _ _
      · rw [State.ringEn, State.ringCfg, State.reg, flushed.regs]
        exact on
      · rw [State.ring, flushed.rings]
        exact current
  case channelDrained =>
    intro ch s draining empty posts alone
    have run : exec (.channelDrainEnd ch) s =
        .next (((s.chanDrain ch).2.addFreed ch (s.chanDrain ch).1).drainEnd (false, ch)) := by
      refine State.act_of ?_
      have state : ((s.chan ch).state == 3 || (s.chan ch).state == 4) = true := by
        rcases draining with three | four
        · rw [three]
          rfl
        · rw [four]
          rfl
      have none_ : s.host.posts.any (fun p => p.ch == ch.val) = false := by
        rw [List.any_eq_false]
        exact fun q member => by rw [beq_iff_eq]; exact posts q member
      rw [state, empty, none_]
      rfl
    obtain ⟨drained, -, freed⟩ := s.chanDrain_spec ch
    generalize (s.chanDrain ch).1 = n at *
    generalize (s.chanDrain ch).2 = u at *
    obtain ⟨rest, added⟩ := u.addFreed_spec ch n (fun d member e member' => alone d (drained.cmds ▸ member) e (drained.cmds ▸ member'))
    generalize u.addFreed ch n = v at *
    rw [drained.cmds] at added
    have chan : v.chan ch = u.chan ch := by rw [State.chan, (congrArg State.pump rest :), State.chan]
    have work := CmdWork.endHeld v (false, ch.val) false 0
    have chan' : (v.endHeld (false, ch) false 0).chan ch = u.chan ch := by rw [State.chan, work.pump]; exact chan
    have ended : v.drainEnd (false, ch) = (v.endHeld (false, ch) false 0).setObj (false, ch)
        (if (s.chan ch).state = 4 then 1 else 0) := by
      have state : v.objState (false, ch) = (s.chan ch).state := (congrArg Chan.state chan).trans (drained.states ch)
      unfold State.drainEnd
      rw [state]
    rw [ended] at run
    refine ⟨_, run, State.objState_setObj _ (false, ch.val) _, ?_, fun d member held on current => ?_⟩
    · have same := State.chan_modChan_same (v.endHeld (false, ch) false 0) ch
        (fun c => { c with state := if (s.chan ch).state = 4 then 1 else 0 })
      refine (congrArg Chan.blCount same).trans ?_
      show ((v.endHeld (false, ch) false 0).chan ch).blCount = 0
      rw [chan']
      exact freed
    · have on' : v.ringEn d.r = true := by
        rw [State.ringEn, State.ringCfg, State.reg, (congrArg State.regs rest :), drained.regs]
        exact on
      have current' : d.gen = (v.ring d.r).gen := by
        rw [State.ring, (congrArg (fun t => t.host.rings) rest :), drained.rings]
        exact current
      have done := (State.endHeld_completed (k := 0) (o := (false, ch.val)) (en := false) (by decide) (added d member) held on'
        current').setObj (false, ch.val) (if (s.chan ch).state = 4 then 1 else 0)
      exact done

end Sys2Proof.Machine

/-!
SUPPORT. The lock unit (R480-R494, R531), and the proof of O44.
-/

namespace Sys2Proof.Machine

/-! ### The lock unit's own state -/

section Unit

variable (s : State)

theorem State.lease_setLease (i : Nat) (e : Lease) (j : Nat) : (s.setLease i e).lease j = if i = j then e else s.lease j :=
  tget_tset _ _ _ _ _

theorem State.lease_setLease_same (i : Nat) (e : Lease) : (s.setLease i e).lease i = e :=
  (s.lease_setLease i e i).trans (if_pos rfl)

theorem State.lease_setLease_other {i j : Nat} (e : Lease) (other : j ≠ i) : (s.setLease i e).lease j = s.lease j :=
  (s.lease_setLease i e j).trans (if_neg (Ne.symm other))

theorem State.glock_setGlock (n : Nat) (g : GLock) (m : Nat) : (s.setGlock n g).glock m = if n = m then g else s.glock m :=
  tget_tset _ _ _ _ _

theorem State.glock_setGlock_same (n : Nat) (g : GLock) : (s.setGlock n g).glock n = g :=
  (s.glock_setGlock n g n).trans (if_pos rfl)

theorem State.glock_setGlock_other {n m : Nat} (g : GLock) (other : m ≠ n) : (s.setGlock n g).glock m = s.glock m :=
  (s.glock_setGlock n g m).trans (if_neg (Ne.symm other))

theorem State.lockAlarm_spec (b : Nat) : bit (s.lockAlarm b).locks.alarm b = true ∧
    (s.lockAlarm b).locks.leases = s.locks.leases ∧ (s.lockAlarm b).locks.groups = s.locks.groups := by
  refine ⟨?_, rfl, rfl⟩
  show bit (s.locks.alarm ||| 2 ^ b) b = true
  rw [bit_eq_testBit, Nat.testBit_or, Nat.testBit_two_pow_self, Bool.or_true]

/-- `t` differs from `s` in the lock unit and the events alone. -/
def LockWork (s t : State) : Prop := { t with locks := s.locks, evq := s.evq } = s

variable {s} {t u : State}

theorem LockWork.eq (h : LockWork s t) : { t with locks := s.locks, evq := s.evq } = s := h

theorem LockWork.refl (s : State) : LockWork s s := rfl

theorem LockWork.trans (h : LockWork s t) (k : LockWork t u) : LockWork s u := by
  let g : State → State := fun v => { v with locks := s.locks, evq := s.evq }
  exact ((congrArg g k.eq :) : _ = g t).trans h

theorem LockWork.lockAlarm (s : State) (b : Nat) : LockWork s (s.lockAlarm b) := rfl
theorem LockWork.lockReport (s : State) (m c l a : Nat) : LockWork s (s.lockReport m c l a) := rfl
theorem LockWork.setGlock (s : State) (n : Nat) (g : GLock) : LockWork s (s.setGlock n g) := rfl
theorem LockWork.setLease (s : State) (i : Nat) (e : Lease) : LockWork s (s.setLease i e) := rfl

theorem LockWork.lockLatch (s : State) (m c l : Nat) : LockWork s (s.lockLatch m c l) := by
  unfold State.lockLatch
  split
  · rfl
  · rfl

theorem State.lockLatch_locks (s : State) (m c l : Nat) : (s.lockLatch m c l).locks.leases = s.locks.leases ∧
    (s.lockLatch m c l).locks.groups = s.locks.groups := by
  unfold State.lockLatch
  split
  · exact ⟨rfl, rfl⟩
  · exact ⟨rfl, rfl⟩

/-- A misuse leaves the leases and the groups, and sets its alarm (R481, R495). -/
theorem State.lockMisuse_spec (s : State) (m l a pc : Nat) (isWord : Bool) : LockWork s (s.lockMisuse m l a pc isWord) ∧
    (s.lockMisuse m l a pc isWord).locks.leases = s.locks.leases ∧
    (s.lockMisuse m l a pc isWord).locks.groups = s.locks.groups ∧ bit (s.lockMisuse m l a pc isWord).locks.alarm 1 = true := by
  unfold State.lockMisuse
  extract_lets u v
  have latched : LockWork s u := LockWork.lockLatch s m 1 l
  obtain ⟨leases, groups⟩ := s.lockLatch_locks m 1 l
  change u.locks.leases = _ at leases
  change u.locks.groups = _ at groups
  have told : LockWork u v ∧ v.locks = u.locks := by
    simp only [v]
    split
    · exact ⟨rfl, rfl⟩
    · exact ⟨rfl, rfl⟩
  clear_value v u
  obtain ⟨alarm, leases', groups'⟩ := v.lockAlarm_spec 1
  exact ⟨(latched.trans told.1).trans (LockWork.lockAlarm v 1), leases'.trans ((congrArg LockSt.leases told.2).trans leases),
    groups'.trans ((congrArg LockSt.groups told.2).trans groups), alarm⟩

theorem LockWork.regs (h : LockWork s t) : t.regs = s.regs := (congrArg State.regs h.eq :)
theorem LockWork.host (h : LockWork s t) : t.host = s.host := (congrArg State.host h.eq :)
theorem LockWork.mf (h : LockWork s t) : t.mf = s.mf := (congrArg State.mf h.eq :)

end Unit

/-! ### Group locks (R485, R486) -/

section Groups

variable (s : State) (n : Nat)

theorem State.lockRights_host (p : Fin 8) : s.lockRights (128 + p.val) n = bit (s.gcfg n) (8 + p.val) := by
  have index : 8 + (128 + p.val) - 128 = 8 + p.val := by omega
  rw [State.lockRights, if_neg (by omega), if_pos (by omega), index]

theorem State.lockRights_wellhead : s.lockRights 144 n = bit (s.gcfg n) 16 := by
  rw [State.lockRights, if_neg (by omega), if_neg (by omega), beq_self_eq_true, Bool.true_and]

/-- The acquisition of a group lock. -/
theorem State.groupAcquire_spec (m : Nat) (us : Option Nat) : LockWork s (s.groupAcquire m us n).2 ∧
    (s.groupAcquire m us n).1 < 16 ∧ (∀ k, k ≠ n → (s.groupAcquire m us n).2.glock k = s.glock k) ∧
    (s.lockRights m n = false → s.groupAcquire m us n = (5, s)) ∧
    (s.lockRights m n = true → (s.glock n).held = false →
      (s.groupAcquire m us n).2.glock n = { owner := m, held := true, st := .live, expires := us.map s.leaseEnd } ∧
      (s.groupAcquire m us n).1 = if (s.glock n).exp then 1 else if (s.glock n).abd then 2 else 0) ∧
    (s.lockRights m n = true → (s.glock n).held = true → (s.glock n).st = .live →
      (s.groupAcquire m us n).2.glock n =
        (if (s.glock n).owner = m then { s.glock n with expires := us.map s.leaseEnd } else s.glock n) ∧
      (s.groupAcquire m us n).1 = if (s.glock n).owner = m then 4 else 3) := by
  unfold State.groupAcquire
  dsimp only
  split
  · next barred =>
    have barred : s.lockRights m n = false := by simpa using barred
    exact ⟨rfl, by simp, fun _ _ => rfl, fun _ => rfl, fun right => absurd right (by rw [barred]; decide),
      fun right => absurd right (by rw [barred]; decide)⟩
  · next right =>
    have right : s.lockRights m n = true := by simpa using right
    split
    · next held =>
      split
      · next live =>
        split
        · next own =>
          exact ⟨rfl, by simp, fun k other => s.glock_setGlock_other _ other, fun barred => absurd right (by rw [barred]; decide),
            fun _ free => absurd held (by rw [free]; decide), fun _ _ _ => ⟨s.glock_setGlock_same n _, rfl⟩⟩
        · exact ⟨rfl, by simp, fun _ _ => rfl, fun barred => absurd right (by rw [barred]; decide),
            fun _ free => absurd held (by rw [free]; decide), fun _ _ _ => ⟨rfl, rfl⟩⟩
      · next other =>
        refine ⟨rfl, ?_, fun k other => s.glock_setGlock_other _ other, fun barred => absurd right (by rw [barred]; decide),
          fun _ free => absurd held (by rw [free]; decide), fun _ _ live => absurd live other⟩
        split
        · simp
        · simp
    · next free =>
      refine ⟨rfl, ?_, fun k other => s.glock_setGlock_other _ other, fun barred => absurd right (by rw [barred]; decide),
        fun _ _ => ⟨s.glock_setGlock_same n _, rfl⟩, fun _ held => absurd held free⟩
      split
      · simp
      · split
        · simp
        · simp

/-- The release of a group lock. -/
theorem State.groupRelease_spec (m pc : Nat) : (s.groupRelease m n pc).1 < 16 ∧
    (s.groupRelease m n pc).2.regs = s.regs ∧ (s.groupRelease m n pc).2.host = s.host ∧
    ((s.glock n).held = true ∧ (s.glock n).st = .live ∧ (s.glock n).owner = m → (s.groupRelease m n pc).1 = 0 ∧
      (s.groupRelease m n pc).2.glock n = { owner := m } ∧
      (s.groupRelease m n pc).2.mf.entryQ = s.mf.entryQ ++
        [{ src := 0x3B0 + n / 64, ev := true, rising := true, level := true, from_ := s.strokes + 1 }]) ∧
    (¬((s.glock n).held = true ∧ (s.glock n).st = .live ∧ (s.glock n).owner = m) → (s.groupRelease m n pc).1 = 3 ∧
      (s.groupRelease m n pc).2.glock n = s.glock n ∧ bit (s.groupRelease m n pc).2.locks.alarm 1 = true ∧
      (s.groupRelease m n pc).2.mf = s.mf) := by
  have test : ((s.glock n).held && (s.glock n).st == .live && (s.glock n).owner == m) = true ↔
      (s.glock n).held = true ∧ (s.glock n).st = .live ∧ (s.glock n).owner = m := by
    simp only [Bool.and_eq_true, beq_iff_eq, and_assoc]
  unfold State.groupRelease
  dsimp only
  split
  · next mine =>
    exact ⟨by simp, rfl, rfl, fun _ => ⟨rfl, s.glock_setGlock_same n _, rfl⟩, fun no => absurd (test.1 mine) no⟩
  · next other =>
    obtain ⟨work, -, groups, alarm⟩ := s.lockMisuse_spec m n 0 pc false
    exact ⟨by simp, work.regs, work.host, fun mine => absurd (test.2 mine) other,
      fun _ => ⟨rfl, by rw [State.glock, groups, State.glock], alarm, work.mf⟩⟩

/-- The release of a group lock by force. -/
theorem State.groupForce_spec (m : Nat) : (s.groupForce m n).1 < 16 ∧
    (s.groupForce m n).2.regs = s.regs ∧ (s.groupForce m n).2.host = s.host ∧
    (bit (s.gcfg n) 24 = true → (s.groupForce m n).1 = 5 ∧ (s.groupForce m n).2.glock n = s.glock n) ∧
    (bit (s.gcfg n) 24 = false → (s.glock n).held = true → (s.groupForce m n).1 = 0 ∧
      (s.groupForce m n).2.glock n = { owner := (s.glock n).owner, abd := true }) ∧
    (bit (s.gcfg n) 24 = false → (s.glock n).held = false → s.groupForce m n = (0, s)) := by
  unfold State.groupForce
  dsimp only
  split
  · next barred =>
    split
    · have work := ((LockWork.lockLatch s m 2 n).trans (LockWork.lockReport _ m 2 n 0)).trans (LockWork.lockAlarm _ 1)
      obtain ⟨-, groups⟩ := s.lockLatch_locks m 2 n
      obtain ⟨-, -, groups'⟩ := State.lockAlarm_spec ((s.lockLatch m 2 n).lockReport m 2 n 0) 1
      have same : (((s.lockLatch m 2 n).lockReport m 2 n 0).lockAlarm 1).glock n = s.glock n := by
        rw [State.glock, groups', State.glock]
        exact congrArg (fun t => tget {} t n) groups
      exact ⟨by simp, work.regs, work.host, fun _ => ⟨rfl, same⟩, fun open_ => absurd barred (by rw [open_]; decide),
        fun open_ => absurd barred (by rw [open_]; decide)⟩
    · exact ⟨by simp, rfl, rfl, fun _ => ⟨rfl, rfl⟩, fun open_ => absurd barred (by rw [open_]; decide),
        fun open_ => absurd barred (by rw [open_]; decide)⟩
  · next open_ =>
    split
    · next held =>
      let u := (s.setGlock n { owner := (s.glock n).owner, abd := true }).modLocks (fun l => { l with abandons := satInc 16 l.abandons })
      have work : LockWork s u := rfl
      have freed : u.glock n = { owner := (s.glock n).owner, abd := true } := s.glock_setGlock_same n _
      have told (m c l a : Nat) : LockWork u (u.lockReport m c l a) ∧ (u.lockReport m c l a).locks = u.locks := ⟨rfl, rfl⟩
      have free (v : State) : (v.lockFreed n).regs = v.regs ∧ (v.lockFreed n).host = v.host ∧ (v.lockFreed n).locks = v.locks :=
        ⟨rfl, rfl, rfl⟩
      change 0 < 16 ∧ ((u.lockReport (s.glock n).owner 7 n 0).lockFreed n).regs = _ ∧
        ((u.lockReport (s.glock n).owner 7 n 0).lockFreed n).host = _ ∧ (_ → _) ∧
        (_ → _ → 0 = 0 ∧ ((u.lockReport (s.glock n).owner 7 n 0).lockFreed n).glock n = _) ∧ _
      clear_value u
      obtain ⟨told, locks⟩ := told (s.glock n).owner 7 n 0
      generalize u.lockReport (s.glock n).owner 7 n 0 = v at *
      obtain ⟨regs, host, same⟩ := free v
      refine ⟨by simp, by rw [regs, told.regs, work.regs], by rw [host, told.host, work.host], fun barred => absurd barred open_,
        fun _ _ => ⟨rfl, ?_⟩, fun _ free => absurd held (by rw [free]; decide)⟩
      rw [State.glock, same, locks]
      exact freed
    · next free =>
      exact ⟨by simp, rfl, rfl, fun barred => absurd barred open_, fun _ held => absurd held free, fun _ _ => rfl⟩

end Groups

/-! ### Word locks (R480-R484) -/

section Words

variable {s t u : State}

/-- `t` differs from `s` in the bores, the pump, the check bits, the wellhead and the events alone. -/
def PutWork (s t : State) : Prop :=
  { t with lbs := s.lbs, pump := s.pump, ecc := s.ecc, eccDue := s.eccDue, wh := s.wh, evq := s.evq } = s

theorem PutWork.eq (h : PutWork s t) :
    { t with lbs := s.lbs, pump := s.pump, ecc := s.ecc, eccDue := s.eccDue, wh := s.wh, evq := s.evq } = s := h

theorem PutWork.trans (h : PutWork s t) (k : PutWork t u) : PutWork s u := by
  let g : State → State := fun v =>
    { v with lbs := s.lbs, pump := s.pump, ecc := s.ecc, eccDue := s.eccDue, wh := s.wh, evq := s.evq }
  exact ((congrArg g k.eq :) : _ = g t).trans h

theorem State.lbs_mirrorRes (s : State) (lb a n v : Nat) : (s.mirrorRes lb a n v).lbs = s.lbs := by
  unfold State.mirrorRes
  refine foldl_rel (R := fun s t : State => t.lbs = s.lbs) (fun _ => rfl) (fun h k => Eq.trans k h) (fun s k => ?_) _ s
  split
  · unfold State.mirror
    split
    · rfl
    · rfl
  · rfl

/-- The lock unit's write of a word. -/
theorem State.lockPut_spec (s : State) (sp lb a v : Nat) : PutWork s (s.lockPut sp lb a v) ∧
    (s.lockPut sp lb a v).lbs = (if sp = 1 then (s.modLb lb (fun b => { b with resPend := b.resPend ++
      [{ due := s.strokes + 2, x := 128, addr := a, n := 4, v := v, atom := true }] })).lbs else s.lbs) ∧
    (s.lockPut sp lb a v).pump.cis = (if sp = 1 then s.pump.cis else writeLE s.pump.cis a 4 v) := by
  unfold State.lockPut
  split
  · have facts (f : LBore → LBore) : PutWork s (s.modLb lb f) ∧ (s.modLb lb f).pump.cis = s.pump.cis := ⟨rfl, rfl⟩
    generalize held : s.modLb lb _ = w
    obtain ⟨work, cis⟩ : PutWork s w ∧ w.pump.cis = s.pump.cis := held ▸ facts _
    have step := LbWork.mirrorRes w lb a 4 v
    have lbs := w.lbs_mirrorRes lb a 4 v
    generalize w.mirrorRes lb a 4 v = x at *
    have put : PutWork w x := by
      let g : State → State := fun v => { v with pump := w.pump, eccDue := w.eccDue, evq := w.evq }
      exact (congrArg g step.eq :)
    exact ⟨work.trans put, lbs, (congrArg (fun t => t.pump.cis) step.eq :).trans cis⟩
  · let w := s.modPump (fun p => { p with cis := writeLE p.cis a 4 v })
    have cis : w.pump.cis = writeLE s.pump.cis a 4 v := rfl
    have lbs : w.lbs = s.lbs := rfl
    have work : PutWork s w := rfl
    change PutWork s (w.eccWrite .cistern a 4) ∧ (w.eccWrite .cistern a 4).lbs = _ ∧ (w.eccWrite .cistern a 4).pump.cis = _
    clear_value w
    have rest := w.eccWrite_rest .cistern a 4
    have step : PutWork w (w.eccWrite .cistern a 4) := by
      let g : State → State := fun v => { v with lbs := w.lbs, pump := w.pump, wh := w.wh }
      exact (congrArg g rest :)
    refine ⟨work.trans step, (congrArg State.lbs rest :).trans lbs, ?_⟩
    rw [(congrArg State.pump rest :)]
    exact cis

/-- The lease that `lockTake` writes in entry `i`, before the word (R480). -/
def State.lockHold (s : State) (i m us sp lb a w : Nat) : State :=
  let s := { s with draws := s.draws + 1 }
  let s := s.setLease i { space := sp, lb := lb, addr := a, owner := m
                          value := m + 2 ^ 8 + 2 ^ 12 * i + 2 ^ 24 * ((bits w 31 24 + 1) % 256)
                          expires := s.leaseEnd us, st := .live, rewriteBy := 0 }
  s.modLocks (fun l => { l with high := max l.high s.leasesUsed })

theorem State.lockTake_eq (s : State) (m us sp lb a w : Nat) : s.lockTake m us sp lb a w =
    (pickFrom 1024 (Config.pick s.draws) (fun i => (s.lease i).st == .free)).map (fun i =>
      (s.lockHold i m us sp lb a w).lockPut sp lb a (m + 2 ^ 8 + 2 ^ 12 * i + 2 ^ 24 * ((bits w 31 24 + 1) % 256))) := by
  unfold State.lockTake
  split
  · next none_ =>
    rw [none_]
    rfl
  · next i some_ =>
    rw [some_]
    rfl

theorem pickFrom_spec {n start i : Nat} {ok : Nat → Bool} (pos : 0 < n) (found : pickFrom n start ok = some i) : i < n ∧ ok i = true := by
  unfold pickFrom at found
  obtain ⟨k, -, rfl⟩ := List.mem_map.1 (List.mem_of_find?_eq_some found)
  exact ⟨Nat.mod_lt _ pos, List.find?_some found⟩

/-- What `lockTake` leaves (R480). -/
theorem State.lockTake_spec {m us sp lb a w : Nat} (taken : s.lockTake m us sp lb a w = some u) : ∃ i, i < 1024 ∧
    (s.lease i).st = .free ∧ u.locks = (s.lockHold i m us sp lb a w).locks ∧
    u = (s.lockHold i m us sp lb a w).lockPut sp lb a (m + 2 ^ 8 + 2 ^ 12 * i + 2 ^ 24 * ((bits w 31 24 + 1) % 256)) := by
  rw [State.lockTake_eq] at taken
  obtain ⟨i, found, rfl⟩ := Option.map_eq_some_iff.1 taken
  obtain ⟨small, free⟩ := pickFrom_spec (by decide) found
  obtain ⟨work, -, -⟩ := (s.lockHold i m us sp lb a w).lockPut_spec sp lb a (m + 2 ^ 8 + 2 ^ 12 * i + 2 ^ 24 * ((bits w 31 24 + 1) % 256))
  exact ⟨i, small, by simpa using free, (congrArg State.locks work.eq :), rfl⟩

theorem State.lease_lockHold (s : State) (i m us sp lb a w : Nat) (j : Nat) : (s.lockHold i m us sp lb a w).lease j =
    if i = j then { space := sp, lb := lb, addr := a, owner := m
                    value := m + 2 ^ 8 + 2 ^ 12 * i + 2 ^ 24 * ((bits w 31 24 + 1) % 256)
                    expires := s.leaseEnd us, st := .live, rewriteBy := 0 } else s.lease j :=
  State.lease_setLease { s with draws := s.draws + 1 } i _ j

/-- The same lock is taken in a state that differs in the host unit and the stroke's rank alone. -/
theorem State.lockTake_same {m us sp lb a w : Nat} {v : State} (taken : s.lockTake m us sp lb a w = some u)
    (same : { v with host := s.host, rank := s.rank } = s) : ∃ x, v.lockTake m us sp lb a w = some x ∧ x.locks = u.locks ∧
    x.lbs = u.lbs ∧ x.pump.cis = u.pump.cis ∧ x.regs = v.regs ∧ x.host = v.host := by
  have whole : v = { s with host := v.host, rank := v.rank } := by
    let g : State → State := fun t => { t with host := v.host, rank := v.rank }
    exact (congrArg g same :)
  generalize v.host = host at *
  generalize v.rank = rank at *
  subst whole
  rw [State.lockTake_eq] at taken
  obtain ⟨i, found, rfl⟩ := Option.map_eq_some_iff.1 taken
  let r : State := { s with host := host, rank := rank }
  have taken' : r.lockTake m us sp lb a w =
      some ((r.lockHold i m us sp lb a w).lockPut sp lb a (m + 2 ^ 8 + 2 ^ 12 * i + 2 ^ 24 * ((bits w 31 24 + 1) % 256))) := by
    rw [State.lockTake_eq]
    exact congrArg (Option.map _) found
  generalize m + 2 ^ 8 + 2 ^ 12 * i + 2 ^ 24 * ((bits w 31 24 + 1) % 256) = word at *
  have cis : (r.lockHold i m us sp lb a w).pump.cis = (s.lockHold i m us sp lb a w).pump.cis := rfl
  have lbs : (r.lockHold i m us sp lb a w).lbs = (s.lockHold i m us sp lb a w).lbs := rfl
  have locks : (r.lockHold i m us sp lb a w).locks = (s.lockHold i m us sp lb a w).locks := rfl
  have strokes : (r.lockHold i m us sp lb a w).strokes = (s.lockHold i m us sp lb a w).strokes := rfl
  have regs : (r.lockHold i m us sp lb a w).regs = r.regs := rfl
  have host : (r.lockHold i m us sp lb a w).host = r.host := rfl
  generalize r.lockHold i m us sp lb a w = y at *
  generalize s.lockHold i m us sp lb a w = x at *
  obtain ⟨work, lbs₁, cis₁⟩ := x.lockPut_spec sp lb a word
  obtain ⟨work', lbs₂, cis₂⟩ := y.lockPut_spec sp lb a word
  refine ⟨_, taken', ?_, ?_, ?_, (congrArg State.regs work'.eq :).trans regs, (congrArg State.host work'.eq :).trans host⟩
  · exact ((congrArg State.locks work'.eq :).trans locks).trans (congrArg State.locks work.eq :).symm
  · rw [lbs₁, lbs₂]
    split
    · simp only [State.modLb, State.setLb, State.lb, lbs, strokes]
    · exact lbs
  · rw [cis₁, cis₂, cis]

/-- The release of a word lock. -/
theorem State.lockReleaseAs_spec (s : State) (m sp lb a pc w : Nat) :
    (s.lockReleaseAs m sp lb a pc w).2.regs = s.regs ∧ (s.lockReleaseAs m sp lb a pc w).2.host = s.host ∧
    (bit w 8 = true ∧ (s.lease (bits w 21 12)).names sp lb a w = true ∧ (s.lease (bits w 21 12)).st = .live ∧
      (s.lease (bits w 21 12)).owner = m →
      (s.lockReleaseAs m sp lb a pc w).1 = 0 ∧ (s.lockReleaseAs m sp lb a pc w).2.lease (bits w 21 12) = {}) ∧
    (¬(bit w 8 = true ∧ (s.lease (bits w 21 12)).names sp lb a w = true ∧ (s.lease (bits w 21 12)).st = .live ∧
      (s.lease (bits w 21 12)).owner = m) →
      (s.lockReleaseAs m sp lb a pc w).1 = 3 ∧ (∀ j, (s.lockReleaseAs m sp lb a pc w).2.lease j = s.lease j) ∧
      bit (s.lockReleaseAs m sp lb a pc w).2.locks.alarm 1 = true) := by
  have test : (bit w 8 && (s.lease (bits w 21 12)).names sp lb a w && (s.lease (bits w 21 12)).st == .live &&
      (s.lease (bits w 21 12)).owner == m) = true ↔ bit w 8 = true ∧ (s.lease (bits w 21 12)).names sp lb a w = true ∧
      (s.lease (bits w 21 12)).st = .live ∧ (s.lease (bits w 21 12)).owner = m := by
    simp only [Bool.and_eq_true, beq_iff_eq, and_assoc]
  unfold State.lockReleaseAs
  dsimp only
  split
  · next mine =>
    have set := s.lease_setLease_same (bits w 21 12) {}
    have work := LockWork.setLease s (bits w 21 12) {}
    generalize s.setLease (bits w 21 12) {} = u at *
    obtain ⟨put, -, -⟩ := u.lockPut_spec sp lb a (bits w 7 0 + 2 ^ 24 * bits w 31 24)
    generalize u.lockPut sp lb a (bits w 7 0 + 2 ^ 24 * bits w 31 24) = v at *
    refine ⟨(congrArg State.regs put.eq :).trans work.regs, (congrArg State.host put.eq :).trans work.host, fun _ => ⟨rfl, ?_⟩,
      fun no => absurd (test.1 mine) no⟩
    rw [State.lease, (congrArg State.locks put.eq :)]
    exact set
  · next other =>
    obtain ⟨work, leases, -, alarm⟩ := s.lockMisuse_spec m 0 a pc true
    exact ⟨work.regs, work.host, fun mine => absurd (test.2 mine) other,
      fun _ => ⟨rfl, fun j => by rw [State.lease, leases, State.lease], alarm⟩⟩

/-- An expired or abandoned lease of a cistern word that still holds its value is rewritten (R488, R489). -/
theorem State.leaseRewrite_spec {s : State} {k : Nat} (clean : s.ecc = []) (space : (s.lease k).space = 2)
    (same : readLE s.pump.cis (s.lease k).addr 4 = (s.lease k).value) : (s.leaseRewrite k).lease k = {} ∧
    readLE (s.leaseRewrite k).pump.cis (s.lease k).addr 4 =
      bits (s.lease k).value 7 0 + 2 ^ 24 * bits (s.lease k).value 31 24 +
        (if (s.lease k).st = .expired then 2 ^ 9 else 2 ^ 10) := by
  have set := s.lease_setLease_same k {}
  have cis : (s.setLease k {}).pump.cis = s.pump.cis := rfl
  have ecc : (s.setLease k {}).ecc = [] := clean
  unfold State.leaseRewrite
  extract_lets e u mem w
  change u.lease k = {} at set
  change u.pump.cis = _ at cis
  change u.ecc = [] at ecc
  change e.space = 2 at space
  change readLE s.pump.cis e.addr 4 = e.value at same
  have read : w = e.value := by
    simp only [w]
    rw [State.lockRead, if_neg (by omega), cis, same]
  have name : s.lease k = e := rfl
  rw [name]
  clear_value e u mem w
  subst read
  rw [State.isUe_of_clean ecc, if_neg (by decide), if_pos rfl]
  obtain ⟨put, -, written⟩ := u.lockPut_spec e.space e.lb e.addr
    (bits e.value 7 0 + 2 ^ 24 * bits e.value 31 24 + (if e.st = .expired then 2 ^ 9 else 2 ^ 10))
  have low : bits e.value 7 0 < 256 := Nat.mod_lt _ (by decide)
  have high : bits e.value 31 24 < 256 := Nat.mod_lt _ (by decide)
  refine ⟨?_, ?_⟩
  · rw [State.lease, (congrArg State.locks put.eq :)]
    exact set
  · rw [written, if_neg (by omega), readLE_writeLE]
    refine Nat.mod_eq_of_lt ?_
    split
    · omega
    · omega

/-- A lease that runs out is counted and reported (R488). -/
theorem State.leaseExpire_spec (s : State) (owner l a : Nat) : LockWork s (s.leaseExpire owner l a) ∧
    (s.leaseExpire owner l a).locks.leases = s.locks.leases ∧ (s.leaseExpire owner l a).locks.groups = s.locks.groups ∧
    (s.leaseExpire owner l a).locks.expiries = satInc 16 s.locks.expiries ∧ bit (s.leaseExpire owner l a).locks.alarm 3 = true := by
  unfold State.leaseExpire
  extract_lets u
  have counted : LockWork s u ∧ u.locks.leases = s.locks.leases ∧ u.locks.groups = s.locks.groups ∧
      u.locks.expiries = satInc 16 s.locks.expiries := ⟨rfl, rfl, rfl, rfl⟩
  clear_value u
  obtain ⟨counted, leases, groups, expiries⟩ := counted
  have told : (u.lockReport owner 5 l a).locks = u.locks := rfl
  have reported := LockWork.lockReport u owner 5 l a
  generalize u.lockReport owner 5 l a = v at *
  obtain ⟨alarm, leases', groups'⟩ := v.lockAlarm_spec 3
  have expiries' : (v.lockAlarm 3).locks.expiries = v.locks.expiries := rfl
  exact ⟨(counted.trans reported).trans (LockWork.lockAlarm v 3), leases'.trans (told ▸ leases), groups'.trans (told ▸ groups),
    expiries'.trans (told ▸ expiries), alarm⟩

end Words

/-! ### Lock commands (R466, R491) -/

section Commands

variable {s v : State} {p : Fin 8} {op : Nat} {c : HCmd} {masks : List Nat} {right : Bool} {f : HCmd → State → State} {i : Instr}

/-- The state in which the lock unit serves partition `p`. -/
def State.lockTurn (s : State) (p : Fin 8) : State := { s.cpTake p with rank := 9 + p.val }

theorem exec_lockCommand (run : exec i s = s.runLock p op masks right f) (h : Commanded s p op c) (clean : c.clean masks = true)
    (rank : s.rank ≤ 9 + p.val) (may : right = true) : exec i s = .next (f c (s.lockTurn p)) := by
  rw [run, State.runLock, if_neg (by omega), State.runCmd_of h.front h.code h.clocked h.turn h.ready, h.normal, Bool.false_and,
    if_neg (by decide), if_neg (by rw [clean]; decide), if_neg (by rw [may]; decide)]
  rfl

theorem State.lockTurn_keeps (s : State) (p : Fin 8) : (s.lockTurn p).locks = s.locks ∧ (s.lockTurn p).regs = s.regs ∧
    (s.lockTurn p).host.rings = s.host.rings ∧ (s.lockTurn p).tb = s.tb ∧ (s.lockTurn p).mf = s.mf ∧
    (s.lockTurn p).strokes = s.strokes := ⟨rfl, rfl, rfl, rfl, rfl, rfl⟩

/-- A lock command completes after its operation, which keeps the rings. -/
theorem Commanded.lockDone (h : Commanded s p op c) (regs : v.regs = s.regs) (rings : v.host.rings = s.host.rings) {k : Nat}
    (small : k < 256) (res : Nat) : Completed (v.cmdDone c k res 0 none) c k res ∧ (v.cmdDone c k res 0 none).locks = v.locks ∧
    (v.cmdDone c k res 0 none).mf = v.mf ∧ (v.cmdDone c k res 0 none).lbs = v.lbs ∧ (v.cmdDone c k res 0 none).pump = v.pump := by
  have work := CmdWork.cmdDone v c k res 0 none
  have on : v.ringEn c.r = true := by
    rw [State.ringEn, State.ringCfg, State.reg, regs]
    exact h.enabled
  have current : c.gen = (v.ring c.r).gen := by
    rw [State.ring, rings]
    exact h.current
  exact ⟨State.cmdDone_completed on current small res 0 none, work.locks, (congrArg State.mf work.rest :),
    (congrArg State.lbs work.rest :), work.pump⟩

/-- The word of a command is read without an error. -/
theorem State.hostLock_clean {sp lb a : Nat} (clean : s.eccOf (lockMem sp lb) (a / 4) = none) (g : State → Nat → Nat × State) :
    s.hostLock sp lb a g = g s (s.lockRead sp lb a) := by
  have read : s.eccRead .lock (lockMem sp lb) (a / 4) = s := by
    unfold State.eccRead
    rw [clean]
  unfold State.hostLock
  dsimp only
  rw [read, State.isUe, clean]
  exact if_neg (by decide)

end Commands

/-- Settles O44: each case runs its operation of the lock unit by the lemmas above; a command completes with its code. -/
theorem lockCommandsAndLeases : Obligations.LockCommandsAndLeases := by
  unfold Obligations.LockCommandsAndLeases
  refine ⟨?acquire, ?release, ?force, ?acquireWord, ?taken, ?releaseWord, ?expiry, ?groupExpiry, ?later, ?rewrite, ?groupRewrite,
    ?wellhead, ?wellheadTakes⟩
  case acquire =>
    rintro p c n g s h clean rank may rfl rfl
    have run := exec_lockCommand (i := .lockgAcq p) (right := s.canLock p) (rfl : execLockgAcq p s = _) h clean rank may
    obtain ⟨locks, regs, rings, tb, -, -⟩ := s.lockTurn_keeps p
    have glock (m : Nat) : (s.lockTurn p).glock m = s.glock m := by rw [State.glock, locks, State.glock]
    have gcfg : (s.lockTurn p).gcfg (c.w 1) = s.gcfg (c.w 1) := by rw [State.gcfg, State.reg, regs, State.gcfg, State.reg]
    have ends : (s.lockTurn p).leaseEnd (c.w 3) = s.tb.elapsed + c.w 3 * 67108864000 := by rw [State.leaseEnd, tb, usUnits]
    have same := (s.lockTurn p).lockRights_host (c.w 1) p
    rw [gcfg] at same
    generalize s.lockTurn p = u at *
    by_cases range : leaseOk (c.w 3) = true
    · have bounds : 1 ≤ c.w 3 ∧ c.w 3 ≤ 16000 := by simpa [leaseOk] using range
      have run : exec (.lockgAcq p) s = .next ((u.groupAcquire (128 + p) (some (c.w 3)) (c.w 1)).2.cmdDone c 0
          (u.groupAcquire (128 + p) (some (c.w 3)) (c.w 1)).1 0 none) :=
        run.trans (congrArg Host.Outcome.next (if_neg (by rw [range]; decide)))
      obtain ⟨work, -, others, barred, taken, live⟩ := u.groupAcquire_spec (c.w 1) (128 + p) (some (c.w 3))
      have regs' := work.regs.trans regs
      have rings' := (congrArg HostSt.rings work.host).trans rings
      rw [same] at barred taken live
      rw [glock] at taken live
      obtain ⟨done, kept, -, -, -⟩ := h.lockDone regs' rings' (k := 0) (by decide)
        (u.groupAcquire (128 + p) (some (c.w 3)) (c.w 1)).1
      have glock' (m : Nat) : ((u.groupAcquire (128 + p) (some (c.w 3)) (c.w 1)).2.cmdDone c 0
          (u.groupAcquire (128 + p) (some (c.w 3)) (c.w 1)).1 0 none).glock m =
          (u.groupAcquire (128 + p) (some (c.w 3)) (c.w 1)).2.glock m := by rw [State.glock, kept, State.glock]
      refine ⟨_, run, fun out => absurd bounds (by omega), fun _ _ no => ?_, fun _ _ may free => ?_, fun _ _ may held state => ?_,
        fun m other => (glock' m).trans ((others m other).trans (glock m))⟩
      · rw [barred no] at done kept ⊢
        exact ⟨done, kept.trans locks⟩
      · obtain ⟨lock, code⟩ := taken may free
        rw [code] at done
        refine ⟨(glock' _).trans (lock.trans ?_), by rw [code]; exact done⟩
        rw [Option.map_some, ends]
      · obtain ⟨lock, code⟩ := live may held state
        rw [code] at done
        refine ⟨(glock' _).trans (lock.trans ?_), by rw [code]; exact done⟩
        rw [Option.map_some, ends]
    · have out : c.w 3 < 1 ∨ 16000 < c.w 3 := by
        simp only [leaseOk, Bool.and_eq_true, decide_eq_true_eq] at range
        omega
      have run : exec (.lockgAcq p) s = .next (u.cmdDone c 6 0 0 none) :=
        run.trans (congrArg Host.Outcome.next (if_pos (by simpa using range)))
      obtain ⟨done, kept, -, -, -⟩ := h.lockDone regs rings (k := 6) (by decide) 0
      refine ⟨_, run, fun _ => ⟨done, kept.trans locks⟩, fun least most => absurd out (by omega),
        fun least most => absurd out (by omega), fun least most => absurd out (by omega), fun m _ => ?_⟩
      rw [State.glock, kept]
      exact glock m
  case release =>
    rintro p c n g s h clean rank may rfl rfl
    have run := exec_lockCommand (i := .lockgRel p) (right := s.canLock p) (rfl : execLockgRel p s = _) h clean rank may
    obtain ⟨locks, regs, rings, -, mf, strokes⟩ := s.lockTurn_keeps p
    have glock (m : Nat) : (s.lockTurn p).glock m = s.glock m := by rw [State.glock, locks, State.glock]
    generalize s.lockTurn p = u at *
    change exec _ s = .next ((u.groupRelease (128 + p) (c.w 1) 0).2.cmdDone c 0 (u.groupRelease (128 + p) (c.w 1) 0).1 0 none) at run
    obtain ⟨-, regs', host', mine, other⟩ := u.groupRelease_spec (c.w 1) (128 + p) 0
    rw [glock, mf, strokes] at mine
    rw [glock, mf] at other
    obtain ⟨done, kept, mf', -, -⟩ := h.lockDone (regs'.trans regs) ((congrArg HostSt.rings host').trans rings) (k := 0) (by decide)
      (u.groupRelease (128 + p) (c.w 1) 0).1
    generalize u.groupRelease (128 + p) (c.w 1) 0 = r at *
    have glock' (m : Nat) : (r.2.cmdDone c 0 r.1 0 none).glock m = r.2.glock m := by rw [State.glock, kept, State.glock]
    refine ⟨_, run, fun own => ?_, fun no => ?_⟩
    · obtain ⟨code, free, queue⟩ := mine own
      rw [code] at done
      exact ⟨(glock' _).trans free, code ▸ done, (congrArg ManifoldSt.entryQ mf').trans queue⟩
    · obtain ⟨code, same, alarm, quiet⟩ := other no
      rw [code] at done
      exact ⟨(glock' _).trans same, code ▸ done, by rw [kept]; exact alarm, mf'.trans quiet⟩
  case force =>
    rintro c n g s h clean rank may rfl rfl
    have run := exec_lockCommand (i := .lockgForce 0) (right := s.canLock 0 && (0 : Fin 8).val == 0)
      (rfl : execLockgForce 0 s = _) (p := 0) h clean rank (by rw [State.canLock, may]; rfl)
    obtain ⟨locks, regs, rings, -, -, -⟩ := s.lockTurn_keeps 0
    have glock (m : Nat) : (s.lockTurn 0).glock m = s.glock m := by rw [State.glock, locks, State.glock]
    have gcfg : (s.lockTurn 0).gcfg (c.w 1) = s.gcfg (c.w 1) := by rw [State.gcfg, State.reg, regs, State.gcfg, State.reg]
    generalize s.lockTurn 0 = u at *
    change exec _ s = .next ((u.groupForce 128 (c.w 1)).2.cmdDone c 0 (u.groupForce 128 (c.w 1)).1 0 none) at run
    obtain ⟨-, regs', host', barred, held, idle⟩ := u.groupForce_spec (c.w 1) 128
    rw [glock, gcfg] at barred held idle
    obtain ⟨done, kept, -, -, -⟩ := Commanded.lockDone (p := 0) h (regs'.trans regs) ((congrArg HostSt.rings host').trans rings)
      (k := 0) (by decide) (u.groupForce 128 (c.w 1)).1
    generalize u.groupForce 128 (c.w 1) = r at *
    have glock' (m : Nat) : (r.2.cmdDone c 0 r.1 0 none).glock m = r.2.glock m := by rw [State.glock, kept, State.glock]
    refine ⟨_, run, fun no => ?_, fun may on => ?_, fun may off => ?_⟩
    · obtain ⟨code, same⟩ := barred no
      exact ⟨(glock' _).trans same, code ▸ done⟩
    · obtain ⟨code, same⟩ := held may on
      exact ⟨(glock' _).trans same, code ▸ done⟩
    · have nothing := idle may off
      rw [nothing] at done kept glock' ⊢
      exact ⟨(glock' _).trans (glock _), kept.trans locks, done⟩
  case acquireWord =>
    rintro p c sp lb a w s u h clean rank may word least most rfl sound free taken
    have run := exec_lockCommand (i := .lockwAcq p) (right := s.canLock p) (rfl : execLockwAcq p s = _) h clean rank may
    obtain ⟨v, taken', locks, lbs, cis, regs, host⟩ := State.lockTake_same (v := s.lockTurn p) taken rfl
    obtain ⟨-, regs₀, rings₀, -, -, -⟩ := s.lockTurn_keeps p
    have sound' : (s.lockTurn p).eccOf (lockMem sp lb) (a / 4) = none := sound
    have read : (s.lockTurn p).lockRead sp lb a = s.lockRead sp lb a := rfl
    generalize s.lockTurn p = x at *
    generalize s.lockRead sp lb a = w at *
    have range : leaseOk (c.w 3) = true := by rw [leaseOk, decide_eq_true least, decide_eq_true most]; rfl
    have acquired : x.hostLock sp lb a (fun s w => s.lockAcquireAs (128 + p) (c.w 3) sp lb a w) =
        (if bit w 9 then 1 else if bit w 10 then 2 else 0, v) := by
      rw [State.hostLock_clean sound', read]
      unfold State.lockAcquireAs
      dsimp only
      rw [free, if_neg (by decide), taken']
    have run : exec (.lockwAcq p) s = .next (v.cmdDone c 0 (if bit w 9 then 1 else if bit w 10 then 2 else 0) 0 none) := by
      rw [run, word]
      dsimp only
      rw [range, if_neg (by decide), acquired]
    obtain ⟨done, kept, -, lbs', pump⟩ := h.lockDone (regs.trans regs₀) ((congrArg HostSt.rings host).trans rings₀) (k := 0) (by decide)
      (if bit w 9 then 1 else if bit w 10 then 2 else 0)
    refine ⟨_, run, kept.trans locks, fun b => ?_, by rw [pump, cis], done⟩
    rw [State.lb, lbs', lbs, State.lb]
  case taken =>
    intro m us sp lb a w s u taken
    obtain ⟨i, small, free, locks, put⟩ := State.lockTake_spec taken
    have lease (j : Nat) : u.lease j = (s.lockHold i m us sp lb a w).lease j := by rw [State.lease, locks, State.lease]
    have own := (lease i).trans ((s.lease_lockHold i m us sp lb a w i).trans (if_pos rfl))
    refine ⟨i, small, free, by rw [own], by rw [own], ?_, by rw [own], fun space => ?_, fun j other => ?_⟩
    · rw [own]
      rfl
    · obtain ⟨-, -, cis⟩ := (s.lockHold i m us sp lb a w).lockPut_spec sp lb a
        (m + 2 ^ 8 + 2 ^ 12 * i + 2 ^ 24 * ((bits w 31 24 + 1) % 256))
      have size : 256 ^ 4 = 2 ^ 32 := by norm_num
      rw [own, put, cis, if_neg (by omega), readLE_writeLE, size]
    · exact (lease j).trans ((s.lease_lockHold i m us sp lb a w j).trans (if_neg (Ne.symm other)))
  case releaseWord =>
    rintro p c sp lb a i w s h clean rank may word rfl sound rfl
    have run := exec_lockCommand (i := .lockwRel p) (right := s.canLock p) (rfl : execLockwRel p s = _) h clean rank may
    obtain ⟨locks, regs, rings, -, -, -⟩ := s.lockTurn_keeps p
    have sound' : (s.lockTurn p).eccOf (lockMem sp lb) (a / 4) = none := sound
    have read : (s.lockTurn p).lockRead sp lb a = s.lockRead sp lb a := rfl
    have lease (j : Nat) : (s.lockTurn p).lease j = s.lease j := by rw [State.lease, locks, State.lease]
    generalize s.lockTurn p = u at *
    generalize s.lockRead sp lb a = w at *
    have run : exec (.lockwRel p) s = .next ((u.lockReleaseAs (128 + p) sp lb a 0 w).2.cmdDone c 0
        (u.lockReleaseAs (128 + p) sp lb a 0 w).1 0 none) := by
      rw [run, word]
      dsimp only
      rw [State.hostLock_clean sound', read]
    obtain ⟨regs', host', mine, other⟩ := u.lockReleaseAs_spec (128 + p) sp lb a 0 w
    obtain ⟨done, kept, -, -, -⟩ := h.lockDone (regs'.trans regs) ((congrArg HostSt.rings host').trans rings) (k := 0) (by decide)
      (u.lockReleaseAs (128 + p) sp lb a 0 w).1
    rw [lease] at mine other
    generalize u.lockReleaseAs (128 + p) sp lb a 0 w = r at *
    have lease' (j : Nat) : (r.2.cmdDone c 0 r.1 0 none).lease j = r.2.lease j := by rw [State.lease, kept, State.lease]
    refine ⟨_, run, fun held names live own => ?_, fun no => ?_⟩
    · obtain ⟨code, gone⟩ := mine ⟨held, names, live, own⟩
      exact ⟨(lease' _).trans gone, code ▸ done⟩
    · obtain ⟨code, same, alarm⟩ := other (by
        rintro ⟨held, names, live, own⟩
        rcases no with off | else_ | foreign | dead
        · rw [off] at held
          cases held
        · rw [else_] at names
          cases names
        · exact foreign own
        · exact dead live)
      exact ⟨code ▸ done, fun j => (lease' j).trans ((same j).trans (lease j)), by rw [kept]; exact alarm⟩
  case expiry =>
    rintro k e s small rfl rank live due
    have run : exec (.leaseExpiry k) s = .next ((s.setLease k { s.lease k with
        st := .expired, rewriteBy := s.strokes + 64 }).leaseExpire (s.lease k).owner 0 (s.lease k).addr) := by
      show execLeaseExpiry k s = _
      unfold execLeaseExpiry
      rw [if_pos small]
      exact State.act_of (by rw [rank, live, decide_eq_true due]; rfl)
    have set := s.lease_setLease k { s.lease k with st := .expired, rewriteBy := s.strokes + 64 }
    have work := LockWork.setLease s k { s.lease k with st := .expired, rewriteBy := s.strokes + 64 }
    have count : (s.setLease k { s.lease k with st := .expired, rewriteBy := s.strokes + 64 }).locks.expiries = s.locks.expiries := rfl
    generalize s.setLease k { s.lease k with st := .expired, rewriteBy := s.strokes + 64 } = u at *
    obtain ⟨work', leases, -, expiries, alarm⟩ := u.leaseExpire_spec (s.lease k).owner 0 (s.lease k).addr
    have lease (j : Nat) : (u.leaseExpire (s.lease k).owner 0 (s.lease k).addr).lease j = u.lease j := by
      rw [State.lease, leases, State.lease]
    exact ⟨_, run, (lease k).trans ((set k).trans (if_pos rfl)),
      fun j other => (lease j).trans ((set j).trans (if_neg (Ne.symm other))), expiries.trans (by rw [count]), alarm, work.trans work'⟩
  case groupExpiry =>
    intro k n at_ g s large index lock rank held live ends due
    have run : exec (.leaseExpiry k) s = .next ((s.setGlock n { g with st := .expired }).leaseExpire g.owner n 0) := by
      show execLeaseExpiry k s = _
      unfold execLeaseExpiry
      rw [if_neg (by omega)]
      dsimp only
      rw [← index, ← lock]
      exact State.act_of (by rw [rank, held, live, ends, Option.map_some, decide_eq_true due]; rfl)
    have set := s.glock_setGlock n { g with st := .expired }
    have work := LockWork.setGlock s n { g with st := .expired }
    generalize s.setGlock n { g with st := .expired } = u at *
    obtain ⟨work', -, groups, -, alarm⟩ := u.leaseExpire_spec g.owner n 0
    have glock (j : Nat) : (u.leaseExpire g.owner n 0).glock j = u.glock j := by rw [State.glock, groups, State.glock]
    exact ⟨_, run, (glock n).trans ((set n).trans (if_pos rfl)),
      fun j other => (glock j).trans ((set j).trans (if_neg (Ne.symm other))), alarm, work.trans work'⟩
  case later =>
    intro k s rank
    have busy : (s.rank == 0) = false := beq_eq_false_iff_ne.2 rank
    show execLeaseExpiry k s = _
    unfold execLeaseExpiry
    split
    · rw [busy]
      rfl
    · rw [busy]
      rfl
  case rewrite =>
    rintro k e s small rfl state clean space same
    have due : ((s.lease k).st == .expired || (s.lease k).st == .abandoned) = true := by
      rcases state with expired | abandoned
      · rw [expired]
        rfl
      · rw [abandoned]
        rfl
    have run : exec (.lockRewrite k) s = .next (s.leaseRewrite k) := by
      show execLockRewrite k s = _
      unfold execLockRewrite
      rw [if_pos small]
      exact State.act_of due
    obtain ⟨lease, word⟩ := s.leaseRewrite_spec clean space same
    exact ⟨_, run, lease, word⟩
  case groupRewrite =>
    intro k n g s large index lock held state
    have due : (g.held && (g.st == .expired || g.st == .abandoned)) = true := by
      rw [held]
      rcases state with expired | abandoned
      · rw [expired]
        rfl
      · rw [abandoned]
        rfl
    have run : exec (.lockRewrite k) s = .next (s.groupRewrite n) := by
      show execLockRewrite k s = _
      unfold execLockRewrite
      rw [if_neg (by omega), ← index, ← lock]
      exact State.act_of due
    refine ⟨_, run, ?_, ?_, rfl⟩
    · rw [lock]
      exact s.glock_setGlock_same n _
    · rfl
  case wellhead =>
    intro w n c op i s u index cause
    have small : c < 16 ∧ op < 4 ∧ i = (if op = 1 then .whLockAcquire w else if op = 2 then .whLockRelease w else .whLockForce w) ∧
        (c, u) = (if op = 1 then s.groupAcquire 144 none n else if op = 2 then s.groupRelease 144 n 0
          else if op = 3 then s.groupForce 144 n else (bits (s.reg 0x0202C) 19 16, s)) ∧ (op = 1 ∨ op = 2 ∨ op = 3) := by
      rcases cause with ⟨rfl, rfl, code⟩ | ⟨rfl, rfl, code⟩ | ⟨rfl, rfl, code⟩
      · obtain ⟨-, small, -⟩ := s.groupAcquire_spec n 144 none
        rw [← code] at small
        exact ⟨small, by decide, rfl, code, by decide⟩
      · obtain ⟨small, -⟩ := s.groupRelease_spec n 144 0
        rw [← code] at small
        exact ⟨small, by decide, rfl, code, by decide⟩
      · obtain ⟨small, -⟩ := s.groupForce_spec n 144
        rw [← code] at small
        exact ⟨small, by decide, rfl, code, by decide⟩
    obtain ⟨small, few, name, code, which⟩ := small
    have low : bits (putBits w.toNat 13 12 op) 9 0 = n := by
      rw [index]
      exact bits_putBits_below (by decide)
    have high : bits (putBits w.toNat 13 12 op) 13 12 = op := by
      rw [bits_putBits_same (by decide)]
      omega
    have run : exec i s = .next { u.setReg 0x0202C (n + 2 ^ 12 * op + 2 ^ 16 * c) with rank := 17 } := by
      have writes : exec i s = .next (s.whGlockWrite (putBits w.toNat 13 12 op)) := by
        rw [name]
        rcases which with rfl | rfl | rfl
        · rfl
        · rfl
        · rfl
      rw [writes]
      unfold State.whGlockWrite
      rw [low, high]
      dsimp only
      rw [← code]
    have bound : n < 2 ^ 10 := by
      rw [index]
      exact Nat.mod_lt _ (by decide)
    have stored : ({ u.setReg 0x0202C (n + 2 ^ 12 * op + 2 ^ 16 * c) with rank := 17 } : State).reg 0x0202C =
        n + 2 ^ 12 * op + 2 ^ 16 * c := (u.reg_setReg_same _ _).trans (Nat.mod_eq_of_lt (by omega))
    refine ⟨_, run, rfl, ?_, ?_, ?_, rfl, rfl⟩
    · rw [stored, bits]
      omega
    · rw [stored, bits]
      omega
    · rw [stored, bits]
      omega
  case wellheadTakes =>
    rintro n g s rfl may free
    obtain ⟨-, -, -, -, taken, -⟩ := s.groupAcquire_spec n 144 none
    exact (taken ((s.lockRights_wellhead n).trans may) free).1

end Sys2Proof.Machine

/-!
SUPPORT. The wellhead's events, faults, clocks and pairs (R498-R507), and the proof of O45.
-/

namespace Sys2Proof.Machine

/-! ### The log's intake (R520, R521) -/

section Intake

variable {s t u : State}

/-- `t` differs from `s` in the intake of the log and its counts alone. -/
def LogWork (s t : State) : Prop := { t with wh := { t.wh with
  intake := s.wh.intake, seq := s.wh.seq, coalesce := s.wh.coalesce, almCnt := s.wh.almCnt, logDrops := s.wh.logDrops
  gaps := s.wh.gaps } } = s

theorem LogWork.eq (h : LogWork s t) : { t with wh := { t.wh with
  intake := s.wh.intake, seq := s.wh.seq, coalesce := s.wh.coalesce, almCnt := s.wh.almCnt, logDrops := s.wh.logDrops
  gaps := s.wh.gaps } } = s := h

theorem LogWork.refl (s : State) : LogWork s s := rfl

theorem LogWork.trans (h : LogWork s t) (k : LogWork t u) : LogWork s u := by
  let g : State → State := fun v => { v with wh := { v.wh with
    intake := s.wh.intake, seq := s.wh.seq, coalesce := s.wh.coalesce, almCnt := s.wh.almCnt, logDrops := s.wh.logDrops
    gaps := s.wh.gaps } }
  exact ((congrArg g k.eq :) : _ = g t).trans h

/-- A record that is no trace record is taken, counted or dropped. -/
theorem LogWork.toIntake (s : State) {e : Ev} (plain : e.trace = false) : LogWork s (s.toIntake e) := by
  unfold State.toIntake
  dsimp only
  split
  · rfl
  · split
    · rfl
    · rw [plain, if_neg (by decide)]
      rfl

theorem LogWork.whRecord (s : State) (typ a0 a1 : Nat) : LogWork s (s.whRecord typ a0 a1) := LogWork.toIntake s rfl

theorem LogWork.rot (h : LogWork s t) : t.wh.rot = s.wh.rot := (congrArg (fun v => v.wh.rot) h.eq :)
theorem LogWork.pbs (h : LogWork s t) : t.pbs = s.pbs := (congrArg State.pbs h.eq :)
theorem LogWork.evq (h : LogWork s t) : t.evq = s.evq := (congrArg State.evq h.eq :)

/-- `t` differs from `s` in the wellhead alone. -/
def WhWork (s t : State) : Prop := { t with wh := s.wh } = s

theorem WhWork.eq (h : WhWork s t) : { t with wh := s.wh } = s := h

theorem WhWork.trans (h : WhWork s t) (k : WhWork t u) : WhWork s u := by
  let g : State → State := fun v => { v with wh := s.wh }
  exact ((congrArg g k.eq :) : _ = g t).trans h

theorem WhWork.modWh (s : State) (f : WhSt → WhSt) : WhWork s (s.modWh f) := rfl

theorem LogWork.work (h : LogWork s t) : WhWork s t := by
  let g : State → State := fun v => { v with wh := s.wh }
  exact (congrArg g h.eq :)

end Intake

/-! ### Fault outputs (R501-R503) -/

section Faults

variable (s : State)

/-- The fault outputs after an event of class `c` (R502). -/
theorem State.assertFault_spec (c : Nat) : WhWork s (s.assertFault c) ∧ (s.assertFault c).wh.fault = true ∧
    (s.assertFault c).wh.faultCount = satInc 16 s.wh.faultCount ∧
    (s.assertFault c).wh.faultFirst = (if s.wh.faultCount = 0 then c else s.wh.faultFirst) ∧
    (s.assertFault c).wh.lastFault = some s.tb.elapsed ∧ (s.assertFault c).wh.byHalves = (s.wh.byHalves || c == 15) ∧
    (s.assertFault c).wh.alarm = s.wh.alarm ∧ (s.assertFault c).wh.rot = s.wh.rot ∧
    (s.assertFault c).wh.halvesOk = s.wh.halvesOk ∧ (s.wh.fault = true → (s.assertFault c).wh.intake = s.wh.intake) := by
  unfold State.assertFault
  extract_lets was u
  have set : WhWork s u ∧ u.wh.fault = true ∧ u.wh.faultCount = satInc 16 s.wh.faultCount ∧
      u.wh.faultFirst = (if s.wh.faultCount = 0 then c else s.wh.faultFirst) ∧ u.wh.lastFault = some s.tb.elapsed ∧
      u.wh.byHalves = (s.wh.byHalves || c == 15) ∧ u.wh.alarm = s.wh.alarm ∧ u.wh.rot = s.wh.rot ∧
      u.wh.halvesOk = s.wh.halvesOk ∧ u.wh.intake = s.wh.intake := ⟨rfl, rfl, rfl, rfl, rfl, rfl, rfl, rfl, rfl, rfl⟩
  clear_value u
  obtain ⟨work, fault, count, first, last, halves, alarm, rot, ok, intake⟩ := set
  split
  · exact ⟨work, fault, count, first, last, halves, alarm, rot, ok, fun _ => intake⟩
  · next fresh =>
    have told := LogWork.whRecord u 0x33 (c + 2 ^ 8) 0
    refine ⟨work.trans told.work, ?_, ?_, ?_, ?_, ?_, ?_, told.rot.trans rot, ?_, fun on => absurd on fresh⟩
    · exact (congrArg (fun v => v.wh.fault) told.eq :).trans fault
    · exact (congrArg (fun v => v.wh.faultCount) told.eq :).trans count
    · exact (congrArg (fun v => v.wh.faultFirst) told.eq :).trans first
    · exact (congrArg (fun v => v.wh.lastFault) told.eq :).trans last
    · exact (congrArg (fun v => v.wh.byHalves) told.eq :).trans halves
    · exact (congrArg (fun v => v.wh.alarm) told.eq :).trans alarm
    · exact (congrArg (fun v => v.wh.halvesOk) told.eq :).trans ok

theorem State.testBit_action (c : Nat) : (((1 ≤ c ∧ c ≤ 8) ∨ c = 15) → bit (s.action c) 3 = true) ∧
    (c = 5 ∨ c = 8 ∨ c = 15 → bit (s.action c) 2 = true) := by
  unfold State.action
  dsimp only
  rw [bit_eq_testBit, bit_eq_testBit, Nat.testBit_or, Nat.testBit_or, Nat.testBit_or, Nat.testBit_or]
  refine ⟨fun fixed => ?_, fun fixed => ?_⟩
  · rw [if_pos fixed]
    have eight : Nat.testBit 8 3 = true := by decide
    rw [eight, Bool.or_true, Bool.true_or]
  · rw [if_pos fixed]
    have four : Nat.testBit 4 2 = true := by decide
    rw [four, Bool.or_true]

/-- The alarm that an event sets (R501). -/
def State.markAlarm (e : Ev) : State :=
  if bit (s.action e.cls) 0 then s.modWh (fun w => { w with alarm := w.alarm ||| 2 ^ e.cls, fresh := w.fresh.set s.moment (2 ^ e.cls) })
  else s

/-- The event asks for the retirement of a bore (R501, R512). -/
def State.retires (e : Ev) : Bool :=
  (bit (s.action e.cls) 1 || (e.cls == 3 && s.inStep e.arg0)) && (e.cls == 3 || (e.cls == 4 && e.typ == 4)) && decide (e.arg0 < 10)

/-- The event is offered to the log after its fault. -/
def State.faultAndLog (v : State) (fault : Bool) (e : Ev) : State := (if fault then v.assertFault e.cls else v).toIntake e

theorem State.whEvent_eq {e : Ev} (plain : e.trace = false) : s.whEvent e =
    (if s.retires e then (s.markAlarm e).retireAction e.arg0 e.cls e.arg1 else s.markAlarm e).faultAndLog
      (bit (s.action e.cls) 2 || e.force) e := by
  have step : (s.markAlarm e).inStep e.arg0 = s.inStep e.arg0 := by
    unfold State.markAlarm
    split
    · rfl
    · rfl
  unfold State.retires
  rw [← step]
  unfold State.whEvent State.faultAndLog State.markAlarm
  dsimp only
  rw [plain, Bool.false_and, if_neg (by decide)]

theorem State.markAlarm_spec (e : Ev) : WhWork s (s.markAlarm e) ∧ (s.markAlarm e).wh.rot = s.wh.rot ∧
    (s.markAlarm e).wh.alarm = (if bit (s.action e.cls) 0 then s.wh.alarm ||| 2 ^ e.cls else s.wh.alarm) ∧
    (s.markAlarm e).wh.fault = s.wh.fault ∧ (s.markAlarm e).wh.faultCount = s.wh.faultCount ∧
    (s.markAlarm e).wh.faultFirst = s.wh.faultFirst ∧ (s.markAlarm e).wh.intake = s.wh.intake ∧
    (s.markAlarm e).wh.halvesOk = s.wh.halvesOk ∧ (s.markAlarm e).tb = s.tb := by
  unfold State.markAlarm
  split
  · exact ⟨rfl, rfl, rfl, rfl, rfl, rfl, rfl, rfl, rfl⟩
  · exact ⟨rfl, rfl, rfl, rfl, rfl, rfl, rfl, rfl, rfl⟩

/-- What follows the retirement leaves the bores and the rotation alone. -/
theorem State.faultAndLog_keeps (fault : Bool) {e : Ev} (plain : e.trace = false) : WhWork s (s.faultAndLog fault e) ∧
    (s.faultAndLog fault e).wh.rot = s.wh.rot ∧ (s.faultAndLog fault e).pbs = s.pbs := by
  unfold State.faultAndLog
  split
  · obtain ⟨work, -, -, -, -, -, -, rot, -, -⟩ := s.assertFault_spec e.cls
    have log := LogWork.toIntake (s.assertFault e.cls) plain
    exact ⟨work.trans log.work, log.rot.trans rot, log.pbs.trans (congrArg State.pbs work.eq :)⟩
  · have log := LogWork.toIntake s plain
    exact ⟨log.work, log.rot, log.pbs⟩

/-- An event that retires no bore (R501, R502). -/
theorem State.faultAndLog_spec (fault : Bool) {e : Ev} (plain : e.trace = false) :
    (s.faultAndLog fault e).wh.alarm = s.wh.alarm ∧ (s.faultAndLog fault e).wh.halvesOk = s.wh.halvesOk ∧
    (fault = true → (s.faultAndLog fault e).wh.fault = true ∧ (s.faultAndLog fault e).wh.faultCount = satInc 16 s.wh.faultCount ∧
      (s.faultAndLog fault e).wh.faultFirst = (if s.wh.faultCount = 0 then e.cls else s.wh.faultFirst) ∧
      (s.faultAndLog fault e).wh.lastFault = some s.tb.elapsed ∧
      (s.faultAndLog fault e).wh.byHalves = (s.wh.byHalves || e.cls == 15)) ∧
    (fault = false → (s.faultAndLog fault e).wh.fault = s.wh.fault ∧ (s.faultAndLog fault e).wh.faultCount = s.wh.faultCount) ∧
    (s.wh.fault = true → (tget [] s.wh.intake e.unit).length < 8 →
      tget [] (s.faultAndLog fault e).wh.intake e.unit = tget [] s.wh.intake e.unit ++ [e]) := by
  have taken (v : State) (room : (tget [] v.wh.intake e.unit).length < 8) :
      tget [] (v.toIntake e).wh.intake e.unit = tget [] v.wh.intake e.unit ++ [e] := by
    unfold State.toIntake
    dsimp only
    rw [if_pos room]
    exact tget_tput_same _ _ _ _
  cases fault with
  | true =>
    obtain ⟨-, fault, count, first, last, halves, alarm, -, ok, intake⟩ := s.assertFault_spec e.cls
    have log := LogWork.toIntake (s.assertFault e.cls) plain
    change ((s.assertFault e.cls).toIntake e).wh.alarm = _ ∧ ((s.assertFault e.cls).toIntake e).wh.halvesOk = _ ∧
      (_ → ((s.assertFault e.cls).toIntake e).wh.fault = _ ∧ ((s.assertFault e.cls).toIntake e).wh.faultCount = _ ∧
        ((s.assertFault e.cls).toIntake e).wh.faultFirst = _ ∧ ((s.assertFault e.cls).toIntake e).wh.lastFault = _ ∧
        ((s.assertFault e.cls).toIntake e).wh.byHalves = _) ∧ _ ∧
      (_ → _ → tget [] ((s.assertFault e.cls).toIntake e).wh.intake e.unit = _)
    generalize s.assertFault e.cls = v at *
    refine ⟨(congrArg (fun v => v.wh.alarm) log.eq :).trans alarm, (congrArg (fun v => v.wh.halvesOk) log.eq :).trans ok,
      fun _ => ⟨(congrArg (fun v => v.wh.fault) log.eq :).trans fault, (congrArg (fun v => v.wh.faultCount) log.eq :).trans count,
        (congrArg (fun v => v.wh.faultFirst) log.eq :).trans first, (congrArg (fun v => v.wh.lastFault) log.eq :).trans last,
        (congrArg (fun v => v.wh.byHalves) log.eq :).trans halves⟩, fun off => absurd off (by decide), fun on room => ?_⟩
    rw [taken v (by rw [intake on]; exact room), intake on]
  | false =>
    have log := LogWork.toIntake s plain
    exact ⟨(congrArg (fun v => v.wh.alarm) log.eq :), (congrArg (fun v => v.wh.halvesOk) log.eq :), fun on => absurd on (by decide),
      fun _ => ⟨(congrArg (fun v => v.wh.fault) log.eq :), (congrArg (fun v => v.wh.faultCount) log.eq :)⟩, fun _ room => taken s room⟩

end Faults

/-! ### Retirement (R512, R515, R516) -/

section Retire

variable {s : State} {b : Nat}

theorem State.carrier_role {lb : Nat} (carried : s.carrier lb < 10) : (s.pb (s.carrier lb)).role = 0 := by
  unfold State.carrier at *
  cases found : (List.range 10).find? (fun n => (s.pb n).role == 0 && (s.pb n).lb == lb) with
  | none =>
    rw [found] at carried
    exact absurd carried (by decide)
  | some c =>
    have sel := List.find?_some found
    rw [Bool.and_eq_true, beq_iff_eq] at sel
    exact sel.1

theorem State.pb_congr {t : State} (pbs : t.pbs = s.pbs) (b : Nat) : t.pb b = s.pb b := by rw [State.pb, pbs, State.pb]

/-- A retired bore stays so while a logical bore leaves service. -/
theorem State.shedLb_retired (lb : Nat) (retired : (s.pb b).role = 4) : ((s.shedLb lb).pb b).role = 4 := by
  unfold State.shedLb
  extract_lets c u v w x
  have carried : c < 10 → c ≠ b := by
    rintro small rfl
    have role := State.carrier_role small
    rw [retired] at role
    exact absurd role (by decide)
  have first : u.pbs = s.pbs := rfl
  have second : v.pbs = u.pbs :=
    foldl_rel (R := fun s t : State => t.pbs = s.pbs) (fun _ => rfl) (fun h k => Eq.trans k h) (by intro s t; rfl) _ u
  have third : w.pbs = v.pbs := (congrArg State.pbs (v.abandon_rest _) :)
  have role : (w.pb b).role = 4 := by
    rw [State.pb_congr (third.trans (second.trans first))]
    exact retired
  clear_value u v w
  show (x.pb b).role = 4
  simp only [x]
  split
  · next small =>
    rw [State.pb_modPb, if_neg (carried small)]
    exact role
  · exact role

theorem State.shedTo_retired (ls : List Nat) (retired : (s.pb b).role = 4) : ((s.shedTo ls).pb b).role = 4 := by
  induction ls generalizing s with
  | nil => exact retired
  | cons l ls ih =>
    rw [State.shedTo]
    split
    · exact retired
    · split
      · exact ih retired
      · exact ih (State.shedLb_retired l retired)

theorem State.pbs_rotSettle (s : State) : s.rotSettle.pbs = s.pbs := by
  unfold State.rotSettle
  dsimp only
  split
  · rfl
  · rfl

theorem State.degrade_retired (retired : (s.pb b).role = 4) : (s.degrade.pb b).role = 4 := by
  unfold State.degrade
  rw [State.pb_congr (State.pbs_rotSettle _)]
  exact State.shedTo_retired _ retired

/-- A bore is retired at once, whatever it carried (R515, R516). -/
theorem State.retire_role (s : State) (b cause block : Nat) : ((s.retire b cause block).pb b).role = 4 := by
  unfold State.retire
  extract_lets p u v w x
  have first : (u.pb b).role = 4 := by rw [State.pb_modPb_same]
  have second : v.pbs = u.pbs := rfl
  have third : w.pbs = v.pbs := (LogWork.whRecord v _ _ _).pbs
  have kept : (w.pb b).role = 4 := (congrArg PBore.role (State.pb_congr (third.trans second) b)).trans first
  refine State.degrade_retired ?_
  clear_value u v w
  simp only [x]
  split
  · exact State.shedLb_retired _ kept
  · exact kept

theorem State.shedLb_mig (s : State) (lb : Nat) : (s.shedLb lb).wh.rot.mig = s.wh.rot.mig := by
  unfold State.shedLb
  extract_lets c u v w x
  have first : u.wh.rot.mig = s.wh.rot.mig := rfl
  have second : v.wh.rot.mig = u.wh.rot.mig :=
    foldl_rel (R := fun s t : State => t.wh.rot.mig = s.wh.rot.mig) (fun _ => rfl) (fun h k => Eq.trans k h) (by intro s t; rfl) _ u
  have third : w.wh.rot.mig = v.wh.rot.mig := (congrArg (fun v : State => v.wh.rot.mig) (v.abandon_rest _) :)
  have fourth : x.wh.rot.mig = w.wh.rot.mig := by
    simp only [x]
    split
    · rfl
    · rfl
  exact fourth.trans (third.trans (second.trans first))

theorem State.shedTo_mig (s : State) (ls : List Nat) : (s.shedTo ls).wh.rot.mig = s.wh.rot.mig := by
  induction ls generalizing s with
  | nil => rfl
  | cons l ls ih =>
    rw [State.shedTo]
    split
    · rfl
    · split
      · exact ih s
      · exact (ih _).trans (s.shedLb_mig l)

theorem State.rotSettle_rot (s : State) : s.rotSettle.wh.rot = { s.wh.rot with running := s.rotRuns } := by
  unfold State.rotSettle
  dsimp only
  split
  · rfl
  · rfl

/-- A retirement leaves the migration in progress (R512). -/
theorem State.retire_mig (s : State) (b cause block : Nat) : (s.retire b cause block).wh.rot.mig = s.wh.rot.mig := by
  unfold State.retire
  extract_lets p u v w x
  have first : v.wh.rot.mig = s.wh.rot.mig := rfl
  have second : w.wh.rot = v.wh.rot := (LogWork.whRecord v _ _ _).rot
  have third : x.wh.rot.mig = w.wh.rot.mig := by
    simp only [x]
    split
    · exact State.shedLb_mig _ _
    · rfl
  rw [State.degrade, State.rotSettle_rot]
  exact (State.shedTo_mig _ _).trans (third.trans ((congrArg RotSt.mig second).trans first))

end Retire

/-! ### Clock monitor (R499) -/

section Clocks

variable {s t : State}

/-- Whether clock `k` is LOST after a window of `n` edges. -/
def State.lostAfter (s : State) (k n : Nat) : Bool :=
  if bits (s.reg (0x02040 + 4 * k)) 15 0 = 0 then (s.clkMon k).lost
  else if bits (s.reg (0x02040 + 4 * k)) 15 0 ≤ n ∧ n ≤ bits (s.reg (0x02040 + 4 * k)) 31 16 then
    (s.clkMon k).lost && decide ((s.clkMon k).good < 15)
  else (s.clkMon k).lost || decide (1 ≤ (s.clkMon k).bad)

theorem State.clkMon_setClk (s : State) (k : Nat) (c : ClkMon) (j : Nat) :
    (s.setClk k c).clkMon j = if k = j then c else s.clkMon j := tget_tset _ _ _ _ _

/-- `t` differs from `s` in the wellhead, its events and the clocks that priming has seen alone. -/
def ClkWork (s t : State) : Prop := { t with wh := s.wh, evq := s.evq } = s

theorem ClkWork.eq (h : ClkWork s t) : { t with wh := s.wh, evq := s.evq } = s := h

theorem ClkWork.trans {u : State} (h : ClkWork s t) (k : ClkWork t u) : ClkWork s u := by
  let g : State → State := fun v => { v with wh := s.wh, evq := s.evq }
  exact ((congrArg g k.eq :) : _ = g t).trans h

/-- The events between `s` and `t` of clocks that `s` has not LOST and `t` has, of the clocks that `p` names. -/
def Lost (s t : State) (p : Nat → Prop) (es : List Ev) : Prop :=
  (∀ e ∈ es, e.cls = 7 ∧ p e.arg0 ∧ e.arg0 ≠ 2 ∧ (s.clkMon e.arg0).lost = false ∧ (t.clkMon e.arg0).lost = true) ∧
  ∀ k, p k → k ≠ 2 → (s.clkMon k).lost = false → (t.clkMon k).lost = true → ∃ e ∈ es, e.arg0 = k

theorem State.clkWindow_spec (s : State) (k n : Nat) : ClkWork s (s.clkWindow k n) ∧
    ((s.clkWindow k n).clkMon k).lost = s.lostAfter k n ∧ (∀ j, j ≠ k → (s.clkWindow k n).clkMon j = s.clkMon j) ∧
    ∃ es, (s.clkWindow k n).evq = s.evq ++ es ∧ Lost s (s.clkWindow k n) (· = k) es := by
  unfold State.clkWindow State.lostAfter
  dsimp only
  split
  · exact ⟨rfl, rfl, fun _ _ => rfl, [], (List.append_nil _).symm, ⟨fun e member => (List.not_mem_nil member).elim,
      fun j same _ off on => absurd (off.symm.trans on) (by decide)⟩⟩
  · have own (c : ClkMon) : (s.setClk k c).clkMon k = c := (s.clkMon_setClk k c k).trans (if_pos rfl)
    have other (c : ClkMon) (j : Nat) (no : j ≠ k) : (s.setClk k c).clkMon j = s.clkMon j :=
      (s.clkMon_setClk k c j).trans (if_neg (Ne.symm no))
    have plain (c : ClkMon) (keeps : (s.clkMon k).lost = false → c.lost = false) :
        ∃ es, (s.setClk k c).evq = s.evq ++ es ∧ Lost s (s.setClk k c) (· = k) es := by
      refine ⟨[], (List.append_nil _).symm, ⟨fun e member => (List.not_mem_nil member).elim, fun j here _ off on => ?_⟩⟩
      subst here
      rw [own, keeps off] at on
      exact absurd on (by decide)
    by_cases inside : bits (s.reg (0x02040 + 4 * k)) 15 0 ≤ n ∧ n ≤ bits (s.reg (0x02040 + 4 * k)) 31 16
    · rw [decide_eq_true inside.1, decide_eq_true inside.2, if_pos inside, Bool.and_self, if_pos rfl, if_pos rfl,
        decide_eq_false (by decide : ¬2 ≤ 0), Bool.and_false, if_neg (by decide)]
      refine ⟨rfl, (congrArg ClkMon.lost (own _)).trans ?_, other _, plain _ fun off => by rw [off]; rfl⟩
      exact congrArg ((s.clkMon k).lost && ·) (decide_eq_decide.2 ⟨by omega, by omega⟩)
    · have out : (decide (bits (s.reg (0x02040 + 4 * k)) 15 0 ≤ n) && decide (n ≤ bits (s.reg (0x02040 + 4 * k)) 31 16)) = false := by
        rw [← Bool.decide_and]
        exact decide_eq_false inside
      simp only [out, Bool.false_eq_true, if_false, if_neg inside]
      split
      · next lost =>
        obtain ⟨present, two⟩ : (s.clkMon k).lost = false ∧ 2 ≤ (s.clkMon k).bad + 1 := by simpa using lost
        have on : ((s.clkMon k).lost || decide (1 ≤ (s.clkMon k).bad)) = true := by
          rw [decide_eq_true (by omega), Bool.or_true]
        split
        · next two =>
          exact ⟨rfl, (congrArg ClkMon.lost (own _)).trans on.symm, other _, [], (List.append_nil _).symm,
            ⟨fun e member => (List.not_mem_nil member).elim, fun j here no2 => absurd (here.trans two) no2⟩⟩
        · next no2 =>
          refine ⟨rfl, (congrArg ClkMon.lost (own _)).trans on.symm, other _, [_], rfl, ⟨fun e member => ?_,
            fun j here _ _ _ => ⟨_, List.mem_singleton_self _, here.symm⟩⟩⟩
          rw [List.mem_singleton.1 member]
          exact ⟨rfl, rfl, no2, present, congrArg ClkMon.lost (own _)⟩
      · next kept =>
        refine ⟨rfl, (congrArg ClkMon.lost (own _)).trans ?_, other _, plain _ fun off => by rw [off]; rfl⟩
        cases lost : (s.clkMon k).lost with
        | true => rfl
        | false =>
          rw [lost] at kept
          have few : ¬2 ≤ (s.clkMon k).bad + 1 := by simpa using kept
          exact (decide_eq_false (by omega)).symm

theorem State.clkWindows_spec (s : State) (f : Nat → Nat) (n : Nat) :
    let t := (List.range n).foldl (fun s k => s.clkWindow k (f k)) s
    ClkWork s t ∧ (∀ k, k < n → (t.clkMon k).lost = s.lostAfter k (f k)) ∧ (∀ k, n ≤ k → t.clkMon k = s.clkMon k) ∧
    ∃ es, t.evq = s.evq ++ es ∧ Lost s t (· < n) es := by
  induction n with
  | zero =>
    exact ⟨rfl, fun k below => absurd below (by omega), fun _ _ => rfl, [], (List.append_nil _).symm, ⟨fun e member => (List.not_mem_nil member).elim,
      fun k below => absurd below (by omega)⟩⟩
  | succ n ih =>
    obtain ⟨work, done, rest, es, evq, lost, told⟩ := ih
    rw [List.range_succ, List.foldl_append]
    dsimp only at *
    generalize (List.range n).foldl (fun s k => s.clkWindow k (f k)) s = t at *
    obtain ⟨step, own, others, fs, evq', lost', told'⟩ := t.clkWindow_spec n (f n)
    have same : t.clkMon n = s.clkMon n := rest n (Nat.le_refl n)
    have after : t.lostAfter n (f n) = s.lostAfter n (f n) := by
      rw [State.lostAfter, same, State.reg, (congrArg State.regs work.eq :), State.lostAfter, State.reg]
    show ClkWork s (t.clkWindow n (f n)) ∧ (∀ k, k < n + 1 → ((t.clkWindow n (f n)).clkMon k).lost = s.lostAfter k (f k)) ∧
      (∀ k, n + 1 ≤ k → (t.clkWindow n (f n)).clkMon k = s.clkMon k) ∧
      ∃ es, (t.clkWindow n (f n)).evq = s.evq ++ es ∧ Lost s (t.clkWindow n (f n)) (· < n + 1) es
    refine ⟨work.trans step, fun k below => ?_, fun k above => (others k (by omega)).trans (rest k (by omega)), es ++ fs,
      by rw [evq', evq, List.append_assoc], ⟨fun e member => ?_, fun k below no2 off on => ?_⟩⟩
    · by_cases last : k = n
      · subst last
        exact own.trans after
      · rw [others k last]
        exact done k (by omega)
    · rcases List.mem_append.1 member with early | late
      · obtain ⟨cls, below, no2, off, on⟩ := lost e early
        exact ⟨cls, by omega, no2, off, by rw [others _ (by omega)]; exact on⟩
      · obtain ⟨cls, here, no2, off, on⟩ := lost' e late
        exact ⟨cls, by omega, no2, by rw [← rest _ (by omega)]; exact off, on⟩
    · by_cases last : k = n
      · subst last
        obtain ⟨e, member, name⟩ := told' k rfl no2 (by rw [same]; exact off) on
        exact ⟨e, List.mem_append_right _ member, name⟩
      · obtain ⟨e, member, name⟩ := told k (by omega) no2 off (by rw [← others k last]; exact on)
        exact ⟨e, List.mem_append_left _ member, name⟩

end Clocks

/-! ### Pairs (R507) -/

section Pairs

variable {s : State} {k : Nat}

/-- A thread of a pair that disagrees stops, or does not start. -/
def State.stopOne (s : State) (x : Nat) : State :=
  if (s.th x).running then s.askStop x .wellhead
  else if (s.th x).startReq.isSome then s.modTh x (fun t => { t with startReq := none, stopCause := 5 }) else s

theorem State.stopOne_spec (s : State) (x : Nat) : { s.stopOne x with threads := s.threads } = s ∧
    (∀ y, y ≠ x → (s.stopOne x).th y = s.th y) ∧ (∀ y, ((s.stopOne x).th y).running = (s.th y).running) ∧
    (∀ y, ((s.stopOne x).th y).lastPc = (s.th y).lastPc) ∧
    ((s.th x).running = true → ((s.stopOne x).th x).stopReq ≠ .none) ∧
    ((s.th x).running = false → ((s.stopOne x).th x).startReq = none) := by
  unfold State.stopOne
  split
  · next running =>
    refine ⟨rfl, fun y other => (s.askStop_th x y .wellhead).trans (if_neg (Ne.symm other)), fun y => s.askStop_running x y _,
      fun y => s.askStop_lastPc x y _, fun _ => ?_, fun off => absurd running (by rw [off]; decide)⟩
    rw [State.askStop_wellhead]
    split
    · decide
    · next asked => exact fun none_ => asked ⟨rfl, none_⟩
  · next idle =>
    split
    · next starting =>
      have th (y : Nat) : (s.modTh x (fun t => { t with startReq := none, stopCause := 5 })).th y =
          if x = y then { s.th x with startReq := none, stopCause := 5 } else s.th y := State.th_modTh _ _ _ _
      refine ⟨rfl, fun y other => (th y).trans (if_neg (Ne.symm other)), fun y => ?_, fun y => ?_, fun on => absurd on idle,
        fun _ => by rw [th, if_pos rfl]⟩
      · rw [th]
        split
        · next same => subst same; rfl
        · rfl
      · rw [th]
        split
        · next same => subst same; rfl
        · rfl
    · next none_ =>
      exact ⟨rfl, fun _ _ => rfl, fun _ => rfl, fun _ => rfl, fun on => absurd on idle, fun _ => by simpa using none_⟩

theorem State.pairMismatch_eq (s : State) (k : Nat) : s.pairMismatch k =
    let u := (((s.modPair k (fun p => { p with mismatch := true, fresh := p.fresh.set s.moment 2, diff := none, recs := []
                                               trailAt := none })).stopOne (s.pairLead k)).stopOne (s.pairTrail k)).pairSettle
      (s.pairLead k)
    let v := u.event 0 5 5 k (Config.detailCode 5 ((s.pair k).diff.getD 0) (u.th (s.pairLead k)).lastPc.toNat).toNat
    v.modRot (fun r => { r with ahead := r.ahead ++
      ([v.carrier (lbOf (s.pairLead k)), v.carrier (lbOf (s.pairTrail k))].filter (fun c => !r.ahead.contains c)) }) := rfl

theorem State.pairSettle_diff (s : State) (x k : Nat) (none_ : (s.pair k).diff = none) : ((s.pairSettle x).pair k).diff = none := by
  obtain same | ⟨j, settled⟩ := s.pairSettle_cases x
  · rw [same]
    exact none_
  · rw [settled, State.pair_modPair]
    split
    · rfl
    · exact none_

end Pairs

/-! ### Events that retire a bore, and the two keys -/

section Actions

variable {s : State}

theorem State.retireAction_victim {b : Nat} {m : Migr} (cause block : Nat) (migr : s.wh.rot.mig = some m) (victim : b = m.victim) :
    s.retireAction b cause block = (s.noteCause b cause block).modPb b (fun p => { p with doomed := true }) := by
  unfold State.retireAction
  dsimp only
  rw [show (s.noteCause b cause block).wh.rot.mig = some m from migr]
  exact if_pos victim

theorem State.retireAction_idle (b cause block : Nat) (none_ : s.wh.rot.mig = none) :
    ((s.pb b).role = 0 → (s.retireAction b cause block).wh.rot.emergencies =
      if s.wh.rot.emergencies.contains b then s.wh.rot.emergencies else s.wh.rot.emergencies ++ [b]) ∧
    ((s.pb b).role = 1 ∨ (s.pb b).role = 2 → ((s.retireAction b cause block).pb b).role = 4) ∧
    ((s.pb b).role = 4 → s.retireAction b cause block = s.noteCause b cause block) := by
  have same : s.retireAction b cause block =
      if (s.pb b).role = 0 then (s.noteCause b cause block).modRot (fun r =>
        { r with emergencies := if r.emergencies.contains b then r.emergencies else r.emergencies ++ [b] })
      else if (s.pb b).role = 4 then s.noteCause b cause block else (s.noteCause b cause block).retire b cause block := by
    unfold State.retireAction
    dsimp only
    rw [show (s.noteCause b cause block).wh.rot.mig = none from none_]
  have role : ((s.noteCause b cause block).pb b).role = (s.pb b).role :=
    (congrArg PBore.role (State.pb_modPb_same s b _) :)
  refine ⟨fun carries => ?_, fun spare => ?_, fun retired => ?_⟩
  · rw [same, if_pos carries]
    rfl
  · rw [same, if_neg (by omega), if_neg (by omega)]
    exact State.retire_role _ b cause block
  · rw [same, if_neg (by omega), if_pos retired]

/-- The wellhead takes the oldest event that is due (R501). -/
theorem exec_event {e : Ev} {es : List Ev} (found : s.evq.find? (fun e => e.at_ ≤ s.strokes) = some e) (rest : s.evq.erase e = es) :
    exec (.wellheadEvent none) s = .next ({ s with evq := es }.whEvent e) := by
  change execWellheadEvent none s = _
  unfold execWellheadEvent
  rw [found, ← rest]

/-- The first key opens the clear for 1 ms (R503). -/
theorem State.faultKey_first {w : Nat} (key : w % 256 = 0xA5) :
    s.faultKey w = s.modWh (fun v => { v with key := some s.tb.elapsed }) := if_pos key

theorem State.faultKey_other {w : Nat} (key : w % 256 ≠ 0xA5) : s.faultKey w =
    if (w % 256 == 0x5A && (s.wh.key.map (fun t => decide (s.tb.elapsed ≤ t + 67108864000000))).getD false) && s.mram.primed &&
      !s.dbg.testMode && s.wh.fault && !(s.wh.lastFault.map (fun t => decide (s.tb.elapsed < t + 67108864000000))).getD false &&
      s.wh.halvesOk && !s.wh.byHalves
    then (s.modWh (fun v => { v with key := none, fault := false, faultFirst := 0, faultCount := 0 })).whRecord 0x33 s.wh.faultFirst 0
    else s.modWh (fun v => { v with key := none }) := by
  have ms : msUnits = 67108864000000 := by decide
  unfold State.faultKey
  dsimp only
  rw [if_neg key, ms]
  rfl

end Actions

/-- Settles O45: the intake, the alarm and the fault of an event are followed in the order of its actions; what takes a record
changes the intake of the log alone. -/
theorem eventActionsFaultsClocksAndPairs : Obligations.EventActionsFaultsClocksAndPairs := by
  unfold Obligations.EventActionsFaultsClocksAndPairs
  refine ⟨?actions, ?event, ?second, ?future, ?doomed, ?retire, ?first, ?clear, ?refused, ?halves, ?clocks, ?trailer, ?mismatch⟩
  case actions => exact fun c s => s.testBit_action c
  case event =>
    intro e es a s queue due plain isA noRetire still
    let u : State := { s with evq := es }
    have run : exec (.wellheadEvent none) s = .next (u.whEvent e) :=
      exec_event (by rw [queue]; exact List.find?_cons_of_pos (decide_eq_true due)) (by rw [queue, List.erase_cons_head])
    have keeps : u.retires e = false := by
      unfold State.retires
      rw [show bit (u.action e.cls) 1 = false from isA ▸ noRetire, Bool.false_or]
      by_cases retire : e.cls = 3
      · rw [show u.inStep e.arg0 = false from still retire, Bool.and_false]
        rfl
      · rw [beq_false_of_ne retire]
        rfl
    rw [u.whEvent_eq plain, keeps, if_neg (by decide)] at run
    obtain ⟨work, rot, alarm, fault, count, first, intake, -, tb⟩ := u.markAlarm_spec e
    have action : u.action e.cls = a := isA.symm
    rw [action] at run alarm
    generalize u.markAlarm e = v at *
    obtain ⟨work', rot', -⟩ := v.faultAndLog_keeps (bit a 2 || e.force) plain
    obtain ⟨alarm', -, on, off, taken⟩ := v.faultAndLog_spec (bit a 2 || e.force) plain
    refine ⟨_, run, (congrArg State.evq (work.trans work').eq :), alarm'.trans alarm, fun acts => ?_, fun no2 noForce => ?_,
      fun set room => ?_, rot'.trans rot, ?_⟩
    · obtain ⟨set, counted, told, last, -⟩ := on (by simpa using acts)
      rw [count] at counted
      rw [count, first] at told
      rw [tb] at last
      exact ⟨set, counted, told, last⟩
    · obtain ⟨set, counted⟩ := off (by rw [no2, noForce]; rfl)
      exact ⟨set.trans fault, counted.trans count⟩
    · rw [intake, fault] at taken
      exact taken set room
    · let g : State → State := fun x => { x with evq := s.evq }
      exact (congrArg g (work.trans work').eq :)
  case second =>
    intro d e s queue later due
    have other : (d == e) = false := beq_false_of_ne (by rintro rfl; omega)
    refine exec_event ?_ (by rw [queue, List.erase_cons_tail (by rw [other]; decide), List.erase_cons_head])
    rw [queue, List.find?_cons_of_neg (by rw [decide_eq_true_eq]; omega)]
    exact List.find?_cons_of_pos (decide_eq_true due)
  case future =>
    intro e s queue later
    change execWellheadEvent none s = _
    unfold execWellheadEvent
    dsimp only
    rw [queue, List.find?_cons_of_neg (by rw [decide_eq_true_eq]; omega), List.find?_nil]
  case doomed =>
    intro b d m s migr victim _
    let e : Ev := { unit := 0, cls := 3, typ := 3, alarm := false, trace := false, arg0 := b, arg1 := d.toNat }
    have retires : s.retires e = true := by
      have step : s.inStep b = true := by rw [State.inStep, migr]; simp [victim]
      unfold State.retires
      rw [show s.inStep e.arg0 = true from step, decide_eq_true b.isLt, Bool.and_true]
      exact (Bool.and_true _).trans (Bool.or_true _)
    obtain ⟨work, rot, -⟩ := s.markAlarm_spec e
    have run := s.whEvent_eq (e := e) rfl
    rw [retires, if_pos rfl] at run
    generalize s.markAlarm e = v at *
    rw [State.retireAction_victim e.cls e.arg1 (by rw [rot]; exact migr) victim.symm] at run
    obtain ⟨-, rot', pbs⟩ := ((v.noteCause e.arg0 e.cls e.arg1).modPb e.arg0 (fun p => { p with doomed := true })).faultAndLog_keeps
      (bit (s.action e.cls) 2 || e.force) (e := e) rfl
    refine ⟨_, congrArg Host.Outcome.next run, ?_, ?_⟩
    · rw [State.pb_congr pbs, show e.arg0 = b.val from rfl, State.pb_modPb_same]
    · rw [rot']
      exact (congrArg (·.mig) rot :).trans migr
  case retire =>
    intro b d s acts none_
    let e : Ev := { unit := 0, cls := 3, typ := 3, alarm := false, trace := false, arg0 := b, arg1 := d.toNat }
    have retires : s.retires e = true := by
      unfold State.retires
      rw [show bit (s.action e.cls) 1 = true from acts, decide_eq_true b.isLt, Bool.true_or]
      rfl
    obtain ⟨work, rot, -⟩ := s.markAlarm_spec e
    have run := s.whEvent_eq (e := e) rfl
    rw [retires, if_pos rfl] at run
    generalize s.markAlarm e = v at *
    have pbs : v.pbs = s.pbs := (congrArg State.pbs work.eq :)
    obtain ⟨carries, spare, retired⟩ := State.retireAction_idle (s := v) e.arg0 e.cls e.arg1 (by rw [rot]; exact none_)
    rw [State.pb_congr pbs, show e.arg0 = b.val from rfl] at carries spare retired
    rw [show e.arg0 = b.val from rfl] at run
    obtain ⟨-, rot', pbs'⟩ := (v.retireAction b e.cls e.arg1).faultAndLog_keeps (bit (s.action e.cls) 2 || e.force) (e := e) rfl
    refine ⟨_, congrArg Host.Outcome.next run, fun role => ?_, fun role => ?_, fun role => ?_⟩
    · rw [rot', carries role, rot]
    · rw [State.pb_congr pbs', spare role]
    · rw [retired role] at pbs' ⊢
      refine ⟨?_, fun c other => ?_⟩
      · rw [State.pb_congr pbs', State.noteCause, State.pb_modPb_same, State.pb_congr pbs]
      · rw [State.pb_congr pbs', State.noteCause, State.pb_modPb, if_neg (Ne.symm other), State.pb_congr pbs]
  case first => exact fun w s key => congrArg Host.Outcome.next (State.faultKey_first key)
  case clear =>
    intro w k s key open_ inTime primed noTest fault ok noHalves quiet
    have no : w.toNat % 256 ≠ 0xA5 := by omega
    have done := State.faultKey_other (s := s) no
    have still : (s.wh.lastFault.map (fun t => decide (s.tb.elapsed < t + 67108864000000))).getD false = false := by
      cases last : s.wh.lastFault with
      | none => rfl
      | some l =>
        rw [Option.map_some, Option.getD_some]
        exact decide_eq_false (Nat.not_lt.2 (quiet l last))
    rw [key, open_, primed, noTest, fault, ok, noHalves, still, Option.map_some, Option.getD_some, decide_eq_true inTime,
      if_pos (by decide)] at done
    have log := LogWork.whRecord (s.modWh (fun v => { v with key := none, fault := false, faultFirst := 0, faultCount := 0 }))
      0x33 s.wh.faultFirst 0
    rw [← done] at log
    exact ⟨_, rfl, (congrArg (fun v => v.wh.fault) log.eq :), (congrArg (fun v => v.wh.faultCount) log.eq :),
      (congrArg (fun v => v.wh.faultFirst) log.eq :), (congrArg (fun v => v.wh.key) log.eq :), WhWork.trans (WhWork.modWh s _) log.work⟩
  case refused =>
    intro w s first refused
    refine congrArg Host.Outcome.next ((State.faultKey_other first).trans (if_neg fun clears => ?_))
    simp only [Bool.and_eq_true, beq_iff_eq, Bool.not_eq_true'] at clears
    obtain ⟨⟨⟨⟨⟨⟨⟨key, inTime⟩, -⟩, -⟩, fault⟩, quiet⟩, ok⟩, noHalves⟩ := clears
    rcases refused with bad | shut | ⟨k, open_, late⟩ | off | byHalves | bad | ⟨l, last, recent⟩
    · exact bad key
    · rw [shut] at inTime
      exact Bool.false_ne_true inTime
    · rw [open_, Option.map_some, Option.getD_some] at inTime
      exact absurd (of_decide_eq_true inTime) (by omega)
    · exact absurd fault (by rw [off]; decide)
    · exact absurd noHalves (by rw [byHalves]; decide)
    · exact absurd ok (by rw [bad]; decide)
    · rw [last, Option.map_some, Option.getD_some] at quiet
      exact absurd recent (of_decide_eq_false quiet)
  case halves =>
    intro s
    let u : State := { s with draws := s.draws + 2 }.modWh (fun w => { w with halvesOk := false })
    let e : Ev := { unit := 0, cls := 15, typ := 15, alarm := false, trace := false
                    arg0 := (Config.freeWord s.draws).toNat, arg1 := (Config.freeWord (s.draws + 1)).toNat }
    have run := u.whEvent_eq (e := e) rfl
    have keeps : u.retires e = false := by
      unfold State.retires
      rw [show (e.cls == 3 || (e.cls == 4 && e.typ == 4)) = false from rfl, Bool.and_false, Bool.false_and]
    obtain ⟨work, -, -, -, count, -, -, ok, -⟩ := u.markAlarm_spec e
    rw [keeps, if_neg (by decide), (State.testBit_action u 15).2 (by decide), Bool.true_or] at run
    generalize u.markAlarm e = v at *
    obtain ⟨work', -⟩ := v.faultAndLog_keeps true (e := e) rfl
    obtain ⟨-, ok', on, -⟩ := v.faultAndLog_spec true (e := e) rfl
    obtain ⟨set, counted, -, -, halves⟩ := on rfl
    refine ⟨_, congrArg Host.Outcome.next run, ok'.trans ok, set, halves.trans (Bool.or_true _), counted.trans (congrArg (satInc 16) count), ?_⟩
    let g : State → State := fun x => { x with wh := s.wh, draws := s.draws }
    exact (congrArg g (work.trans work').eq :)
  case clocks =>
    intro counts s _
    obtain ⟨work, done, -, es, evq, lost, told⟩ := s.clkWindows_spec (fun k => counts.getD k 0) 13
    refine ⟨_, rfl, done, congrArg (·.clocksSeen || _) (congrArg State.mram work.eq :), ⟨es, evq, lost, told⟩, ?_⟩
    let g : State → State := fun x => { x with mram := s.mram }
    exact (congrArg g work.eq :)
  case trailer =>
    intro k a s starts due
    have run : exec (.trailerStart k) s = .next (s.trailerStart k) :=
      State.act_of (by rw [State.trailerDue, starts]; exact decide_eq_true due)
    rw [State.trailerStart_of_trailAt starts] at run
    refine ⟨_, run, State.th_modTh_same _ _ _, State.pair_modPair_same s k (fun p => { p with trailAt := none }), fun y other => ?_, rfl⟩
    exact (State.th_modTh _ _ _ _).trans (if_neg (Ne.symm other))
  case mismatch =>
    intro k kind a b s found isA isB apart
    have run : exec (.pairMismatch k) s = .next (s.pairMismatch k) := State.act_of (by rw [found]; rfl)
    have eq := State.pairMismatch_eq s k
    dsimp only at eq
    rw [← isA, ← isB, found, Option.getD_some] at eq
    let u := s.modPair k (fun p => { p with mismatch := true, fresh := p.fresh.set s.moment 2, diff := none, recs := []
                                            trailAt := none })
    obtain ⟨rest, others, running, lastPc, stops, waits⟩ := u.stopOne_spec a
    obtain ⟨rest', others', running', lastPc', stops', waits'⟩ := (u.stopOne a).stopOne_spec b
    have pair : ((u.stopOne a).stopOne b).pair k = { s.pair k with
        mismatch := true, fresh := (s.pair k).fresh.set s.moment 2, diff := none, recs := [], trailAt := none } := by
      have first : (u.stopOne a).wh.pairs = u.wh.pairs := (congrArg (fun v : State => v.wh.pairs) rest :)
      have second : ((u.stopOne a).stopOne b).wh.pairs = (u.stopOne a).wh.pairs :=
        (congrArg (fun v : State => v.wh.pairs) rest' :)
      have third : ((u.stopOne a).stopOne b).pair k = u.pair k := by rw [State.pair, second, first, State.pair]
      exact third.trans (State.pair_modPair_same s k _)
    have work : { (u.stopOne a).stopOne b with threads := s.threads, wh := s.wh } = s := by
      let g : State → State := fun x => { x with threads := s.threads, wh := s.wh }
      exact ((congrArg g rest' :) : _ = g (u.stopOne a)).trans (congrArg g rest :)
    have started : ∀ y, u.th y = s.th y := fun _ => rfl
    change s.pairMismatch k = State.modRot (State.event (((u.stopOne a).stopOne b).pairSettle a) 0 5 5 k _) _ at eq
    rw [State.pairSettle_th, lastPc', lastPc, started] at eq
    obtain ⟨ahead, eq⟩ : ∃ f, s.pairMismatch k = State.modRot (State.event (((u.stopOne a).stopOne b).pairSettle a) 0 5 5 k
        (Config.detailCode 5 kind (s.th a).lastPc.toNat).toNat) f := ⟨_, eq⟩
    clear_value u
    have both : ∀ x, x = a ∨ x = b → ((s.th x).running = true → (((u.stopOne a).stopOne b).th x).stopReq ≠ .none) ∧
        ((((u.stopOne a).stopOne b).th x).running = false → (((u.stopOne a).stopOne b).th x).startReq = none) := by
      rintro x (here | here)
      · subst here
        rw [others' x apart, ← started, running]
        exact ⟨stops, waits⟩
      · subst here
        rw [running', ← started, ← running]
        exact ⟨stops', waits'⟩
    have rest_ : ∀ y, y ≠ a → y ≠ b → ((u.stopOne a).stopOne b).th y = s.th y := fun y noA noB =>
      (others' y noB).trans ((others y noA).trans (started y))
    generalize (u.stopOne a).stopOne b = v at *
    obtain ⟨mismatch, recs⟩ := v.pairSettle_pair a k
    have diff := State.pairSettle_diff v a k
    have settled := v.pairSettle_rest a
    rw [pair] at mismatch recs diff
    refine ⟨_, run, ?_⟩
    rw [eq]
    have th := v.pairSettle_th a
    rw [← th] at both rest_
    generalize v.pairSettle a = w at *
    refine ⟨mismatch, recs rfl, diff rfl, fun x half => (both x half).1, fun x half => (both x half).2, rest_, ?_, ?_⟩
    · exact congrArg (· ++ _) (((congrArg State.evq settled :) : w.evq = v.evq).trans (congrArg State.evq work :))
    · let g : State → State := fun x => { x with threads := s.threads, wh := s.wh, evq := s.evq }
      exact ((congrArg g settled :) : _ = g v).trans (congrArg g work :)

end Sys2Proof.Machine

/-!
SUPPORT. Relief rotation and readmission (R508-R515), and the proof of O46.
-/

namespace Sys2Proof.Machine

section Order

variable (s : State)

/-- The elder of two bores: the one whose role began first, the earlier named where they began at once (R508). -/
def State.elder (o : Option Nat) (b : Nat) : Option Nat :=
  match o with
  | none => some b
  | some a => if (s.pb b).since < (s.pb a).since then some b else some a

theorem State.longestIdle_eq :
    s.longestIdle = ((List.range 10).filter (fun b => (s.pb b).role == 1)).foldl s.elder none := rfl

theorem State.elder_spec (o : Option Nat) (b : Nat) : ∃ c, s.elder o b = some c ∧ (c = b ∨ o = some c) ∧
    (s.pb c).since ≤ (s.pb b).since ∧ ∀ a, o = some a → (s.pb c).since ≤ (s.pb a).since := by
  unfold State.elder
  cases o with
  | none => exact ⟨b, rfl, .inl rfl, Nat.le_refl _, fun a none_ => nomatch none_⟩
  | some a =>
    dsimp only
    split
    · next younger =>
      exact ⟨b, rfl, .inl rfl, Nat.le_refl _, fun c same => Option.some.inj same ▸ Nat.le_of_lt younger⟩
    · next older =>
      exact ⟨a, rfl, .inr rfl, Nat.le_of_not_lt older, fun c same => Option.some.inj same ▸ Nat.le_refl _⟩

/-- The eldest of a list is in it and no younger than any of it. -/
theorem State.eldest_spec {l : List Nat} {o : Option Nat} {c : Nat} (found : l.foldl s.elder o = some c) :
    (c ∈ l ∨ o = some c) ∧ (∀ b ∈ l, (s.pb c).since ≤ (s.pb b).since) ∧ ∀ a, o = some a → (s.pb c).since ≤ (s.pb a).since := by
  induction l generalizing o with
  | nil => exact ⟨.inr found, fun b member => (List.not_mem_nil member).elim, fun a same => by
      rw [Option.some.inj (same.symm.trans found)]⟩
  | cons b l ih =>
    obtain ⟨d, elder, from_, noYounger, before⟩ := s.elder_spec o b
    rw [List.foldl_cons, elder] at found
    obtain ⟨source, rest, first⟩ := ih found
    have low := first d rfl
    refine ⟨?_, fun x member => ?_, fun a same => low.trans (before a same)⟩
    · rcases source with inside | same
      · exact .inl (List.mem_cons_of_mem _ inside)
      · rw [← Option.some.inj same]
        exact from_.imp (fun (here : d = b) => here ▸ List.mem_cons_self) id
    · rcases List.mem_cons.1 member with here | inside
      · exact here ▸ low.trans noYounger
      · exact rest x inside

/-- The eldest of the bores with a role (R508). -/
theorem State.eldestOf_role {role c : Nat}
    (found : ((List.range 10).filter (fun b => (s.pb b).role == role)).foldl s.elder none = some c) :
    c < 10 ∧ (s.pb c).role = role ∧ ∀ b, b < 10 → (s.pb b).role = role → (s.pb c).since ≤ (s.pb b).since := by
  obtain ⟨source, least, -⟩ := s.eldest_spec found
  have member := source.resolve_right (fun none_ => nomatch none_)
  rw [List.mem_filter, List.mem_range, beq_iff_eq] at member
  exact ⟨member.1, member.2, fun b small same => least b (by rw [List.mem_filter, List.mem_range, beq_iff_eq]; exact ⟨small, same⟩)⟩

end Order

section Moves

variable {s : State}

theorem State.pb_startMig (v t : Nat) (emergency : Bool) (b : Nat) : (s.startMig v t emergency).pb b =
    if t = b then { s.pb t with role := 3, lb := (s.pb v).lb } else s.pb b :=
  State.pb_modPb s t (fun p => { p with role := 3, lb := (s.pb v).lb }) b

theorem exec_drainEnd {m : Migr} {c : Nat} (migr : s.wh.rot.mig = some m) (drains : m.phase = .drain c)
    (over_ : s.draining m.lb c = false ∨ c + 4200 < s.strokes) :
    ∃ (u : State) (gone : Bool), (s.draining m.lb c = false → LogWork s u) ∧
      gone = (s.draining m.lb c || m.emergency || (u.pb m.victim).doomed) ∧ exec .drainEnd s =
      let w := u.modRot (fun r => { r with mig := none, steps := (r.steps + 1) % 65536 })
      let x := if gone then
          (if m.emergency || (u.pb m.victim).doomed then w.retire m.victim (u.pb m.victim).cause (u.pb m.victim).block
           else w.retire m.victim 4 (Config.detailCode 4 3 0).toNat)
        else if m.again then w.modPb m.victim (fun p => { p with role := 1, since := w.strokes })
        else w.modRot (fun r => { r with testing := some (m.victim, w.tb.elapsed) })
      .next (if m.again then x.modRot (fun r => { r with emergencies := r.emergencies ++ [m.target] }) else x) := by
  have waits : (s.draining m.lb c && !decide (c + 4200 < s.strokes)) = false := by
    rcases over_ with done | late
    · rw [done, Bool.false_and]
    · rw [decide_eq_true late, Bool.not_true, Bool.and_false]
  have run : exec .drainEnd s = execDrainEnd s := rfl
  rw [run]
  unfold execDrainEnd
  simp -zeta only [migr, drains]
  extract_lets late busy v gone n u w x
  rw [show (busy && !late) = false from waits, if_neg Bool.false_ne_true]
  have log : LogWork v u := LogWork.whRecord _ _ _ _
  refine ⟨u, gone, fun off => ?_, ?_, rfl⟩
  · have same : v = s := if_neg (by rw [show busy = false from off]; exact Bool.false_ne_true)
    exact same ▸ log
  · rw [State.pb_congr log.pbs]

/-- A migration whose results are lost, or whose victim was failing, retires the victim (R512). -/
theorem exec_drainEnd_lost {m : Migr} {c : Nat} (migr : s.wh.rot.mig = some m) (phase : m.phase = .drain c)
    (lost : s.draining m.lb c = true ∧ c + 4200 < s.strokes ∨ s.draining m.lb c = false ∧ m.emergency = true) :
    Answers .drainEnd s (fun t => t.wh.rot.mig = none ∧ (t.pb m.victim).role = 4) := by
  have over_ : s.draining m.lb c = false ∨ c + 4200 < s.strokes := lost.symm.imp And.left And.right
  obtain ⟨u, gone, -, isGone, run⟩ := exec_drainEnd migr phase over_
  have is : gone = true := by
    rcases lost with ⟨busy, -⟩ | ⟨-, urgent⟩
    · rw [isGone, busy, Bool.true_or, Bool.true_or]
    · rw [isGone, urgent, Bool.or_true, Bool.true_or]
  obtain ⟨w, mig, cause, block, end_⟩ : ∃ w : State, w.wh.rot.mig = none ∧ ∃ cause block, exec .drainEnd s = .next
      (if m.again then (w.retire m.victim cause block).modRot (fun r => { r with emergencies := r.emergencies ++ [m.target] })
       else w.retire m.victim cause block) := by
    refine ⟨u.modRot (fun r => { r with mig := none, steps := (r.steps + 1) % 65536 }), rfl, ?_⟩
    rw [run, is]
    generalize u.modRot (fun r => { r with mig := none, steps := (r.steps + 1) % 65536 }) = w
    dsimp only
    rw [if_pos rfl]
    by_cases own : (m.emergency || (u.pb m.victim).doomed) = true
    · rw [if_pos own]
      exact ⟨_, _, rfl⟩
    · rw [if_neg own]
      exact ⟨_, _, rfl⟩
  have role := w.retire_role m.victim cause block
  have kept := (w.retire_mig m.victim cause block).trans mig
  generalize w.retire m.victim cause block = x at *
  cases again : m.again with
  | true =>
    rw [again, if_pos rfl] at end_
    exact ⟨_, end_, kept, role⟩
  | false =>
    rw [again, if_neg Bool.false_ne_true] at end_
    exact ⟨_, end_, kept, role⟩

/-- At the cut-over the target carries (R510). -/
theorem cutOver_answers {m : Migr} {c : Nat} (migr : s.wh.rot.mig = some m) (phase : m.phase = .frontEnd c)
    (due : c ≤ s.strokes) (apart : m.victim ≠ m.target) : Answers .cutOver s (fun t =>
      t.pb m.victim = { s.pb m.victim with role := 2 } ∧
      t.pb m.target = { s.pb m.target with role := 0, lb := m.lb, since := s.strokes } ∧
      (∀ b, b ≠ m.victim → b ≠ m.target → t.pb b = s.pb b) ∧ t.wh.rot.mig = some { m with phase := .drain c } ∧
      { t with pbs := s.pbs, wh := s.wh } = s) := by
  let u := s.modPb m.victim (fun p => { p with role := 2 })
  have run : exec .cutOver s = .next ((u.modPb m.target (fun p => { p with role := 0, lb := m.lb, since := s.strokes })).modRot
      (fun r => { r with mig := some { m with phase := .drain c } })) := by
    change execCutOver s = _
    unfold execCutOver
    rw [migr]
    dsimp only
    rw [phase]
    exact State.act_of (decide_eq_true due)
  have second (b : Nat) : (u.modPb m.target (fun p => { p with role := 0, lb := m.lb, since := s.strokes })).pb b =
      if m.target = b then { u.pb m.target with role := 0, lb := m.lb, since := s.strokes } else u.pb b := State.pb_modPb _ _ _ _
  have first (b : Nat) : u.pb b = if m.victim = b then { s.pb m.victim with role := 2 } else s.pb b := State.pb_modPb s _ _ _
  refine ⟨_, run, ?_, ?_, fun b noV noT => ?_, rfl, rfl⟩
  · exact (second _).trans ((if_neg (Ne.symm apart)).trans ((first _).trans (if_pos rfl)))
  · exact (second _).trans ((if_pos rfl).trans (by rw [first, if_neg apart]))
  · exact (second _).trans ((if_neg (Ne.symm noT)).trans ((first _).trans (if_neg (Ne.symm noV))))

theorem exec_emergencyMigration {b : Fin 10} (migr : s.wh.rot.mig = none) (waits : b.val ∈ s.wh.rot.emergencies) :
    exec (.emergencyMigration b) s =
      let u := s.modRot (fun r => { r with emergencies := r.emergencies.filter (· != b.val) })
      .next (match s.longestIdle, s.wh.rot.testing with
        | some t, _ => u.startMig b t true
        | none, some (t, _) => (u.modRot (fun r => { r with testing := none })).startMig b t true
        | none, none => u.retire b (s.pb b).cause (s.pb b).block) := by
  refine State.act_of ?_
  rw [migr, List.contains_iff_mem.2 waits]
  rfl

/-- A failing bore migrates to the eldest relief bore (R513). -/
theorem emergencyMigration_answers {b : Fin 10} {d : Nat} (migr : s.wh.rot.mig = none) (waits : b.val ∈ s.wh.rot.emergencies)
    (target : s.longestIdle = some d) : Answers (.emergencyMigration b) s (fun t =>
      t.wh.rot.mig = some { victim := b, target := d, lb := (s.pb b).lb, phase := .mirror, emergency := true
                            again := false, begun := s.strokes } ∧
      t.wh.rot.emergencies = s.wh.rot.emergencies.filter (· != b.val) ∧
      t.pb d = { s.pb d with role := 3, lb := (s.pb b).lb } ∧ { t with pbs := s.pbs, wh := s.wh } = s) := by
  have run := exec_emergencyMigration migr waits
  rw [target] at run
  exact ⟨_, run, rfl, rfl, (State.pb_startMig b d true d).trans (if_pos rfl), rfl⟩

end Moves

/-- Settles O46: the eldest bore is found along the list of the bores; the steps of a migration change the rotation and the
two bores alone. -/
theorem reliefRotationAndReadmission : Obligations.ReliefRotationAndReadmission := by
  unfold Obligations.ReliefRotationAndReadmission
  refine ⟨?victim, ?idle, ?rotate, ?mirrored, ?mirrors, ?cutOver, ?drained, ?dropped, ?pass, ?fail, ?urgent, ?none_, ?retest,
    ?readmitted, ?refused⟩
  case victim =>
    intro v s ahead found
    unfold State.nextVictim at found
    rw [ahead] at found
    exact s.eldestOf_role found
  case idle => exact fun b s found => s.eldestOf_role (s.longestIdle_eq ▸ found)
  case rotate =>
    intro v b s victim target primed runs migr urgent testing clocked due
    have run : exec .rotationStep s = .next ((s.startMig v b false).modRot (fun r => { r with lastAt := s.tb.elapsed, running := true })) := by
      change execRotationStep s = _
      unfold execRotationStep
      dsimp only
      rw [victim, target]
      refine State.act_of ?_
      have late : s.wh.rot.lastAt + msUnits ≤ s.tb.elapsed := by rw [msUnits]; exact due
      rw [primed, runs, migr, urgent, testing, clocked, decide_eq_true late]
      rfl
    exact ⟨_, run, rfl, (State.pb_startMig v b false b).trans (if_pos rfl),
      fun c other => (State.pb_startMig v b false c).trans (if_neg (Ne.symm other)), rfl, rfl⟩
  case mirrored =>
    intro m s migr phase due clean
    have reads : s.mirrorReads m.lb = s := by
      rw [State.mirrorReads, clean]
      rfl
    have whole : mirrorStrokes = 17552 := by decide
    have run : exec .mirrorDone s = .next ((s.mirrorReads m.lb).modRot (fun r =>
        { r with mig := some { m with phase := .frontEnd (ceilDiv (s.strokes + 16) 16 * 16) } })) := by
      change execMirrorDone s = _
      unfold execMirrorDone
      rw [migr]
      refine State.act_of ?_
      rw [phase, whole, decide_eq_true due]
      rfl
    rw [reads] at run
    refine ⟨_, run, ⟨_, rfl, Nat.mul_mod_left _ _, ?_, ?_⟩, rfl⟩
    · rw [ceilDiv]
      omega
    · rw [ceilDiv]
      omega
  case mirrors =>
    intro m s migr early
    have whole : mirrorStrokes = 17552 := by decide
    change execMirrorDone s = _
    unfold execMirrorDone
    rw [migr]
    dsimp only
    rw [whole, decide_eq_false (by omega), Bool.and_false]
    rfl
  case cutOver => exact fun m c s migr phase due apart => cutOver_answers migr phase due apart
  case drained =>
    intro m c s migr phase done calm once sound
    obtain ⟨u, gone, logged, isGone, run⟩ := exec_drainEnd migr phase (.inl done)
    have log := logged done
    rw [State.pb_congr log.pbs, done, calm, sound] at isGone
    dsimp only at run
    rw [isGone, once, Bool.or_self, Bool.or_self, if_neg Bool.false_ne_true, if_neg Bool.false_ne_true,
      if_neg Bool.false_ne_true] at run
    refine ⟨_, run, rfl, ?_, ?_, log.pbs, log.work⟩
    · exact congrArg (fun e => some (m.victim, e)) (congrArg (fun v : State => v.tb.elapsed) log.eq :)
    · exact congrArg (fun r : RotSt => (r.steps + 1) % 65536) log.rot
  case dropped => exact fun m c s migr phase _ lost => exec_drainEnd_lost migr phase lost
  case pass =>
    intro block b a s testing
    have run : exec (.selfTestDone true block) s = .next ((s.modRot (fun r => { r with testing := none })).modPb b
        (fun p => { p with role := 1, since := s.strokes })) := by
      change execSelfTestDone true block s = _
      unfold execSelfTestDone
      rw [testing]
      rfl
    refine ⟨_, run, State.pb_modPb_same _ _ _, rfl, fun c other => (State.pb_modPb _ _ _ _).trans (if_neg (Ne.symm other)), rfl⟩
  case fail =>
    intro block b a s testing
    have run : exec (.selfTestDone false block) s =
        .next ((s.modRot (fun r => { r with testing := none })).classFour 4 b block.toNat false) := by
      change execSelfTestDone false block s = _
      unfold execSelfTestDone
      rw [testing]
      rfl
    exact ⟨_, run, rfl, rfl, rfl, rfl⟩
  case urgent => exact fun b d s migr waits target => emergencyMigration_answers migr waits target
  case none_ =>
    intro b s migr waits target testing
    have run := exec_emergencyMigration migr waits
    rw [target, testing] at run
    exact ⟨_, run, (State.retire_mig _ _ _ _).trans migr, State.retire_role _ _ _ _⟩
  case retest =>
    intro w b s isB
    have eq : s.retestWrite w.toNat = if b < 10 && (s.pb b).role == 4 && s.wh.rot.retest.isNone then
        s.modRot (fun r => { r with retest := some (b, s.tb.elapsed) }) else s := isB ▸ rfl
    refine ⟨_, congrArg Host.Outcome.next eq, fun bore retired free => ?_, fun refused => if_neg ?_, ?_⟩
    · rw [decide_eq_true bore, retired, free]
      rfl
    · rcases refused with no | no | no
      · simp [Nat.not_lt.2 no]
      · simp [no]
      · simp [no]
    · split
      · rfl
      · rfl
  case readmitted =>
    intro b a s retest below
    let u := (s.modRot (fun r => { r with retest := none })).modPb b
      (fun p => { p with role := 1, since := s.strokes, readmitted := p.readmitted + 1, doomed := false })
    have run : exec (.readmissionDone true) s = .next u.rotSettle := by
      change execReadmissionDone true s = _
      unfold execReadmissionDone
      rw [retest]
      dsimp only
      rw [State.rotCtrl, decide_eq_true below]
      rfl
    refine ⟨_, run, ?_, ?_, fun c other => ?_⟩
    · exact (congrArg RotSt.retest u.rotSettle_rot :)
    · rw [State.pb_congr u.pbs_rotSettle]
      exact State.pb_modPb_same _ _ _
    · rw [State.pb_congr u.pbs_rotSettle]
      exact (State.pb_modPb _ _ _ _).trans (if_neg (Ne.symm other))
  case refused =>
    intro b a pass s retest refused
    have no : (pass && decide ((s.pb b).readmitted < bits s.rotCtrl 19 16)) = false := by
      rcases refused with fails | often
      · rw [fails, Bool.false_and]
      · rw [State.rotCtrl, decide_eq_false (Nat.not_lt.2 often), Bool.and_false]
    change execReadmissionDone pass s = _
    unfold execReadmissionDone
    rw [retest]
    dsimp only
    rw [no, if_neg Bool.false_ne_true]
    rfl

end Sys2Proof.Machine

/-!
SUPPORT. The well log, its spillway and incidents, and the scrubber (R519-R531), and the proof of O47.
-/

namespace Sys2Proof.Machine

/-! ### The intakes (R521) -/

section Heads

variable {s : State} {p : Ev → Bool} {u : Nat} {e : Ev}

theorem State.intakeHead_some (found : s.intakeHead p = some (u, e)) : (∃ es, tget [] s.wh.intake u = e :: es) ∧ p e = true := by
  obtain ⟨v, -, head⟩ := List.exists_of_findSome?_eq_some found
  cases queue : tget [] s.wh.intake v with
  | nil =>
    rw [queue] at head
    cases head
  | cons f fs =>
    rw [queue] at head
    dsimp only at head
    split at head
    · next holds =>
      cases head
      exact ⟨⟨fs, queue⟩, holds⟩
    · cases head

theorem State.intakeHead_none (none_ : s.intakeHead p = none) {v : Nat} (unit : v < 12) {f : Ev} {fs : List Ev}
    (queue : tget [] s.wh.intake v = f :: fs) : p f = false := by
  have head := List.findSome?_eq_none_iff.1 none_ v (List.mem_range.2 unit)
  rw [queue] at head
  cases holds : p f with
  | false => rfl
  | true =>
    dsimp only at head
    rw [holds, if_pos rfl] at head
    cases head

/-- Alarms are taken before records, records before traces (R521). -/
theorem State.intakeNext_cases (next : s.intakeNext = some (u, e)) : (∃ es, tget [] s.wh.intake u = e :: es) ∧
    (e.isAlarm = true ∨ s.intakeHead (·.isAlarm) = none ∧ (e.trace = false ∨ s.intakeHead (fun e => !e.trace) = none)) := by
  unfold State.intakeNext at next
  cases alarms : s.intakeHead (·.isAlarm) with
  | some a =>
    rw [alarms] at next
    cases next
    obtain ⟨queue, alarm⟩ := State.intakeHead_some alarms
    exact ⟨queue, .inl alarm⟩
  | none =>
    rw [alarms] at next
    cases records : s.intakeHead (fun e => !e.trace) with
    | some a =>
      rw [records] at next
      cases next
      obtain ⟨queue, record⟩ := State.intakeHead_some records
      exact ⟨queue, .inr ⟨rfl, .inl (by simpa using record)⟩⟩
    | none =>
      rw [records] at next
      exact ⟨(State.intakeHead_some next).1, .inr ⟨rfl, .inr rfl⟩⟩

theorem trace_of_isAlarm (alarm : e.isAlarm = true) : e.trace = false := by
  rw [Ev.isAlarm, Bool.and_eq_true, Bool.not_eq_true'] at alarm
  exact alarm.1

/-- What becomes of a record that leaves its intake (R521, R522). -/
def State.takeIn (s : State) (e : Ev) : State :=
  if e.isAlarm then (s.admitAlarm e).flush
  else if e.trace then
    (if s.wh.staging.length < 512 ∧ s.dbg.trace.length < 2048 then
      { s with dbg := { s.dbg with trace := s.dbg.trace ++ [s.stampRec e] } }
     else if s.wh.staging.length < 512 then { s with dbg := { s.dbg with dropped := satInc 16 s.dbg.dropped } }
     else s.dropTrace)
  else if s.wh.staging.length < 960 then (s.stageRec e).flush else (s.dropLog e).flush

theorem exec_logIntake (next : s.intakeNext = some (u, e)) : exec .logIntake s =
    .next ((s.modWh (fun w => { w with intake := tset [] w.intake u ((tget [] w.intake u).drop 1) })).takeIn e) := by
  change execLogIntake s = _
  unfold execLogIntake
  rw [next]
  rfl

end Heads

/-! ### The spillway (R520-R522) -/

section Spillway

variable {s : State}

theorem State.flush_full (full : 512 < s.wh.staging.length) : s.flush = s := if_pos full

theorem State.flush_idle (counts : s.wh.coalesce = []) (gaps : s.wh.gaps = []) : s.flush = s := by
  have same : ∀ c g, s.wh.coalesce = c → s.wh.gaps = g → s.modWh (fun w => { w with coalesce := c, gaps := g }) = s := by
    rintro c g rfl rfl
    rfl
  unfold State.flush
  split
  · rfl
  · dsimp only
    rw [counts, gaps]
    exact same [] [] counts gaps

section Taken

variable {e : Ev} (counts : s.wh.coalesce = []) (gaps : s.wh.gaps = [])

include counts gaps

theorem State.takeIn_alarm (alarm : e.isAlarm = true) (room : s.wh.staging.length < 1024) : s.takeIn e = s.stageRec e := by
  rw [State.takeIn, if_pos alarm, State.admitAlarm, if_pos room]
  exact State.flush_idle counts gaps

theorem State.takeIn_record (noAlarm : e.isAlarm = false) (noTrace : e.trace = false) (room : s.wh.staging.length < 960) :
    s.takeIn e = s.stageRec e := by
  rw [State.takeIn, noAlarm, noTrace, if_neg Bool.false_ne_true, if_neg Bool.false_ne_true, if_pos room]
  exact State.flush_idle counts gaps

omit counts gaps

theorem State.takeIn_alarm_full (alarm : e.isAlarm = true) (full : 1024 ≤ s.wh.staging.length) : s.takeIn e = s.coalesceUp e := by
  rw [State.takeIn, if_pos alarm, State.admitAlarm, if_neg (by omega)]
  exact State.flush_full (show 512 < s.wh.staging.length by omega)

theorem State.takeIn_record_full (noAlarm : e.isAlarm = false) (noTrace : e.trace = false) (full : 960 ≤ s.wh.staging.length) :
    s.takeIn e = s.dropLog e := by
  rw [State.takeIn, noAlarm, noTrace, if_neg Bool.false_ne_true, if_neg Bool.false_ne_true, if_neg (by omega)]
  exact State.flush_full (show 512 < s.wh.staging.length by omega)

theorem State.takeIn_trace (noAlarm : e.isAlarm = false) (trace : e.trace = true) (room : s.wh.staging.length < 512)
    (buffer : s.dbg.trace.length < 2048) :
    s.takeIn e = { s with dbg := { s.dbg with trace := s.dbg.trace ++ [s.stampRec e] } } := by
  rw [State.takeIn, noAlarm, if_neg Bool.false_ne_true, if_pos trace, if_pos ⟨room, buffer⟩]

include counts gaps

theorem State.takeIn_rest (e : Ev) : (s.takeIn e).wh.intake = s.wh.intake ∧ { s.takeIn e with wh := s.wh, dbg := s.dbg } = s := by
  cases alarm : e.isAlarm with
  | true =>
    by_cases room : s.wh.staging.length < 1024
    · rw [State.takeIn_alarm counts gaps alarm room]
      exact ⟨rfl, rfl⟩
    · rw [State.takeIn_alarm_full alarm (by omega)]
      exact ⟨rfl, rfl⟩
  | false =>
    cases trace : e.trace with
    | true =>
      rw [State.takeIn, alarm, if_neg Bool.false_ne_true, if_pos trace]
      split
      · exact ⟨rfl, rfl⟩
      · split
        · exact ⟨rfl, rfl⟩
        · exact ⟨rfl, rfl⟩
    | false =>
      by_cases room : s.wh.staging.length < 960
      · rw [State.takeIn_record counts gaps alarm trace room]
        exact ⟨rfl, rfl⟩
      · rw [State.takeIn_record_full alarm trace (by omega)]
        exact ⟨rfl, rfl⟩

end Taken

/-- What the flush adds for each count is staged (R521). -/
theorem State.admitAll {α : Type} (f : α → Ev) (l : List α) (s : State) (room : s.wh.staging.length + l.length ≤ 1024) :
    ∃ rs, (l.foldl (fun s a => s.admitAlarm (f a)) s).wh.staging = s.wh.staging ++ rs ∧ rs.length = l.length ∧
      (l.foldl (fun s a => s.admitAlarm (f a)) s).wh.coalesce = s.wh.coalesce ∧
      (l.foldl (fun s a => s.admitAlarm (f a)) s).wh.gaps = s.wh.gaps := by
  induction l generalizing s with
  | nil => exact ⟨[], (List.append_nil _).symm, rfl, rfl, rfl⟩
  | cons a l ih =>
    rw [List.length_cons] at room
    have first : s.admitAlarm (f a) = s.stageRec (f a) := if_pos (by omega)
    have staged : (s.stageRec (f a)).wh.staging = s.wh.staging ++ [s.stampRec (f a)] := rfl
    rw [List.foldl_cons, first]
    obtain ⟨rs, staging, length, counts, gaps⟩ := ih (s.stageRec (f a)) (by
      rw [staged, List.length_append, List.length_singleton]
      omega)
    exact ⟨s.stampRec (f a) :: rs, by rw [staging, staged, List.append_assoc, List.singleton_append],
      by rw [List.length_cons, length, List.length_cons], counts, gaps⟩

theorem State.flush_spec (half : s.wh.staging.length ≤ 512) (few : s.wh.coalesce.length + s.wh.gaps.length ≤ 512) :
    s.flush.wh.coalesce = [] ∧ s.flush.wh.gaps = [] ∧
    ∃ rs, s.flush.wh.staging = s.wh.staging ++ rs ∧ rs.length = s.wh.coalesce.length + s.wh.gaps.length := by
  unfold State.flush
  rw [if_neg (by omega)]
  extract_lets cs gs u own v
  have start : u.wh.staging = s.wh.staging ∧ u.wh.coalesce = [] ∧ u.wh.gaps = [] := ⟨rfl, rfl, rfl⟩
  obtain ⟨staging, counts, gaps⟩ := start
  obtain ⟨rs, staging', length, counts', gaps'⟩ := State.admitAll (fun c : Nat × Nat => own 0x38 c.1 c.2) cs u (by
    rw [staging]
    show _ + s.wh.coalesce.length ≤ 1024
    omega)
  obtain ⟨ts, staging'', length', counts'', gaps''⟩ := State.admitAll (fun g : Nat × Nat × Nat => own 0x39 g.2.1 g.2.2) gs v (by
    rw [show v.wh.staging = u.wh.staging ++ rs from staging', List.length_append, length, staging]
    show _ + s.wh.coalesce.length + s.wh.gaps.length ≤ 1024
    omega)
  refine ⟨counts''.trans (counts'.trans counts), gaps''.trans (gaps'.trans gaps), rs ++ ts, ?_, ?_⟩
  · rw [← List.append_assoc, ← staging]
    exact staging''.trans (congrArg (· ++ ts) staging')
  · rw [List.length_append, length, length']

end Spillway

/-! ### Incidents (R526) -/

section Incidents

variable {s : State}

/-- The slot of an incident is chosen from those given. -/
theorem mem_of_foldl_choice {l : List Nat} {f : Option Nat → Nat → Option Nat} (choice : ∀ o i, f o i = some i ∨ f o i = o)
    {o : Option Nat} {i : Nat} (found : l.foldl f o = some i) : i ∈ l ∨ o = some i := by
  induction l generalizing o with
  | nil => exact .inr found
  | cons a l ih =>
    rcases ih found with inside | same
    · exact .inl (List.mem_cons_of_mem _ inside)
    · rcases choice o a with new | old
      · rw [new] at same
        exact .inl (Option.some.inj same ▸ List.mem_cons_self)
      · exact .inr (old.symm.trans same)

theorem State.incidentSlot_spec {i : Nat} (slot : s.incidentSlot = some i) : i < 8 ∧ s.retained i = false ∧
    ((∃ j, j < 8 ∧ (s.incident j).used = false ∧ s.retained j = false) → (s.incident i).used = false) := by
  unfold State.incidentSlot at slot
  cases free : (List.range 8).find? (fun i => !(s.incident i).used && !s.retained i) with
  | some k =>
    rw [free] at slot
    cases slot
    have holds := List.find?_some free
    rw [Bool.and_eq_true, Bool.not_eq_true', Bool.not_eq_true'] at holds
    exact ⟨List.mem_range.1 (List.mem_of_find?_eq_some free), holds.2, fun _ => holds.1⟩
  | none =>
    rw [free] at slot
    have member := (mem_of_foldl_choice (fun o i => by
      cases o with
      | none => exact .inl rfl
      | some a =>
        dsimp only
        split
        · exact .inl rfl
        · exact .inr rfl) slot).resolve_right (fun none_ => nomatch none_)
    rw [List.mem_filter, List.mem_range, Bool.not_eq_true'] at member
    refine ⟨member.1, member.2, fun ⟨j, small, unused, open_⟩ => absurd ?_ (List.find?_eq_none.1 free j (List.mem_range.2 small))⟩
    rw [unused, open_]
    rfl

theorem State.incidentSlot_none (kept : ∀ i, i < 8 → s.retained i = true) : s.incidentSlot = none := by
  cases slot : s.incidentSlot with
  | none => rfl
  | some i =>
    obtain ⟨small, free, -⟩ := State.incidentSlot_spec slot
    rw [kept i small] at free
    cases free

/-- The oldest staged record is written, in the open incident or in the ring (R521, R524-R526). -/
theorem exec_logWrite {r : LogRec} {rs : List LogRec} (staged : s.wh.staging = r :: rs) : exec .logWrite s =
    let u := s.modWh (fun w => { w with staging := rs })
    let v := if bit (s.action r.ev.cls) 3 && u.wh.open_.isNone then u.openIncident else u
    let w := v.writeRec r
    .next (if bit (s.action r.ev.cls) 3 then w.modWh (fun x => { x with lastInc := w.tb.elapsed }) else w).flush := by
  change execLogWrite s = _
  unfold execLogWrite
  rw [staged]

theorem State.evq_eventFree (s : State) (unit cls typ : Nat) : ∃ a b, (s.eventFree unit cls typ).evq =
    s.evq ++ [{ unit := unit, cls := cls, typ := typ, alarm := false, trace := false, arg0 := a, arg1 := b }] := ⟨_, _, rfl⟩

theorem State.eventFree_rest (s : State) (unit cls typ : Nat) : (s.eventFree unit cls typ).wh = s.wh ∧
    { s.eventFree unit cls typ with evq := s.evq, draws := s.draws } = s := ⟨rfl, rfl⟩

theorem exec_logWrite_opens {r : LogRec} {rs : List LogRec} (staged : s.wh.staging = r :: rs)
    (isInc : bit (s.action r.ev.cls) 3 = true) (closed : s.wh.open_ = none) {w : State}
    (written : (s.modWh (fun w => { w with staging := rs })).openIncident.writeRec r = w) :
    exec .logWrite s = .next (w.modWh (fun x => { x with lastInc := w.tb.elapsed })).flush := by
  have none_ : (s.modWh (fun w => { w with staging := rs })).wh.open_.isNone = true := by
    rw [show (s.modWh (fun w => { w with staging := rs })).wh.open_ = none from closed]
    rfl
  rw [exec_logWrite staged, isInc]
  dsimp only
  rw [none_, Bool.and_self, if_pos rfl, if_pos rfl, written]

theorem State.writeRec_ring (r : LogRec) (none_ : s.openSlot = none) : s.writeRec r =
    s.modWh (fun w => { w with records := tput w.records w.ringNext { r with inc := s.wh.open_.isSome }
                               ringNext := (w.ringNext + 1) % 32766, writes := w.writes + 1 }) := by
  unfold State.writeRec
  rw [none_]

theorem State.writeRec_slot (r : LogRec) {i m : Nat} (slot : s.openSlot = some i) (count : (s.incident i).written = m) :
    s.writeRec r = s.modWh (fun w => { w with
      records := tput w.records (32768 + 8192 * i + if m < 4096 then m else 4096 + (m - 4096) % 4096) { r with inc := s.wh.open_.isSome }
      incidents := tput w.incidents i { s.incident i with written := m + 1, tailwrap := decide (8192 < m + 1) }
      writes := w.writes + 1 }) := by
  unfold State.writeRec
  rw [slot, ← count]

section Written

variable {r : LogRec} {rs : List LogRec} {i m : Nat} (staged : s.wh.staging = r :: rs) (counts : s.wh.coalesce = [])
  (gaps : s.wh.gaps = [])

include staged counts gaps

/-- A record of no incident goes to the ring (R524). -/
theorem logWrite_ring (noInc : bit (s.action r.ev.cls) 3 = false) (closed : s.wh.open_ = none) : Answers .logWrite s (fun t =>
    tfind t.wh.records s.wh.ringNext = some { r with inc := false } ∧ t.wh.ringNext = (s.wh.ringNext + 1) % 32766 ∧
    t.wh.writes = s.wh.writes + 1 ∧ t.wh.staging = rs ∧
    (∀ j, j ≠ s.wh.ringNext → tfind t.wh.records j = tfind s.wh.records j) ∧ { t with wh := s.wh } = s) := by
  have run := exec_logWrite staged
  dsimp only at run
  rw [noInc, Bool.false_and, if_neg Bool.false_ne_true, if_neg Bool.false_ne_true] at run
  have none_ : (s.modWh (fun w => { w with staging := rs })).openSlot = none := by
    rw [State.openSlot, show (s.modWh (fun w => { w with staging := rs })).wh.open_ = none from closed, Option.filter_none]
  rw [State.writeRec_ring r none_, State.flush_idle (by exact counts) (by exact gaps)] at run
  refine ⟨_, run, ?_, rfl, rfl, rfl, fun j other => (tfind_tput _ _ _ _).trans (if_neg (Ne.symm other)), rfl⟩
  refine (tfind_tput _ _ _ _).trans ((if_pos rfl).trans ?_)
  rw [show (s.modWh (fun w => { w with staging := rs })).wh.open_ = none from closed]
  rfl

/-- A record of a class with INC opens an incident (R526). -/
theorem logWrite_opens (isInc : bit (s.action r.ev.cls) 3 = true) (closed : s.wh.open_ = none) (slot : s.incidentSlot = some i) :
    Answers .logWrite s (fun t => tfind t.wh.records (32768 + 8192 * i) = some { r with inc := true } ∧
      t.wh.open_ = some i ∧ (t.incident i).written = 1 ∧ (t.incident i).used = true ∧ t.wh.lastInc = s.tb.elapsed ∧
      t.wh.staging = rs ∧ t.wh.ringNext = s.wh.ringNext ∧ { t with wh := s.wh } = s) := by
  obtain ⟨small, -, -⟩ := State.incidentSlot_spec slot
  let u := s.modWh (fun w => { w with staging := rs })
  let v := u.modWh (fun w => { w with open_ := some i, incidents := tput w.incidents i { written := 0, used := true } })
  have opens : u.openIncident = v := by
    unfold State.openIncident
    rw [show u.incidentSlot = some i from slot]
  have fresh : v.incident i = { written := 0, used := true } := tget_tput_same _ _ _ _
  have open_ : v.wh.open_ = some i := rfl
  have same : v.wh.coalesce = [] ∧ v.wh.gaps = [] ∧ v.wh.staging = rs ∧ v.wh.ringNext = s.wh.ringNext ∧ v.tb = s.tb ∧
    { v with wh := s.wh } = s := ⟨counts, gaps, rfl, rfl, rfl, rfl⟩
  have run {w : State} (written : v.writeRec r = w) := exec_logWrite_opens staged isInc closed (opens ▸ written)
  clear_value v
  obtain ⟨counts', gaps', staging, next, tb, rest⟩ := same
  have slotV : v.openSlot = some i := by rw [State.openSlot, open_, Option.filter_some, if_pos (decide_eq_true small)]
  have run := run (v.writeRec_slot r slotV (congrArg Incident.written fresh))
  rw [open_, fresh, State.flush_idle (by exact counts') (by exact gaps')] at run
  refine ⟨_, run, (tfind_tput _ _ _ _).trans (if_pos rfl), open_, congrArg Incident.written (tget_tput_same _ _ _ _),
    congrArg Incident.used (tget_tput_same _ _ _ _), congrArg (·.elapsed) tb, staging, next, rest⟩

/-- A record goes to the head of the open incident, then around its tail (R525). -/
theorem logWrite_incident (opened : s.wh.open_ = some i) (small : i < 8) (count : m = (s.incident i).written) :
    Answers .logWrite s (fun t => tfind t.wh.records (32768 + 8192 * i + if m < 4096 then m else 4096 + (m - 4096) % 4096) =
        some { r with inc := true } ∧
      (t.incident i).written = m + 1 ∧ t.wh.ringNext = s.wh.ringNext ∧ t.wh.writes = s.wh.writes + 1) := by
  let u := s.modWh (fun w => { w with staging := rs })
  have slot : u.openSlot = some i := by
    rw [State.openSlot, show u.wh.open_ = some i from opened, Option.filter_some, if_pos (decide_eq_true small)]
  have run := exec_logWrite staged
  dsimp only at run
  rw [show (s.modWh (fun w => { w with staging := rs })).wh.open_ = some i from opened, Option.isNone_some, Bool.and_false,
    if_neg Bool.false_ne_true, u.writeRec_slot r slot count.symm, show u.wh.open_ = some i from opened, Option.isSome_some] at run
  generalize bit (s.action r.ev.cls) 3 = inc at run
  have record : tfind (tput u.wh.records (32768 + 8192 * i + if m < 4096 then m else 4096 + (m - 4096) % 4096)
      { r with inc := true }) (32768 + 8192 * i + if m < 4096 then m else 4096 + (m - 4096) % 4096) = some { r with inc := true } :=
    (tfind_tput _ _ _ _).trans (if_pos rfl)
  cases inc with
  | true =>
    rw [if_pos rfl, State.flush_idle (by exact counts) (by exact gaps)] at run
    exact ⟨_, run, record, congrArg Incident.written (tget_tput_same _ _ _ _), rfl, rfl⟩
  | false =>
    rw [if_neg Bool.false_ne_true, State.flush_idle (by exact counts) (by exact gaps)] at run
    exact ⟨_, run, record, congrArg Incident.written (tget_tput_same _ _ _ _), rfl, rfl⟩

/-- Where every slot is retained an incident has none (R526). -/
theorem logWrite_retained (isInc : bit (s.action r.ev.cls) 3 = true) (closed : s.wh.open_ = none)
    (kept : ∀ i, i < 8 → s.retained i = true) : Answers .logWrite s (fun t =>
      tfind t.wh.records s.wh.ringNext = some { r with inc := true } ∧ t.wh.ringNext = (s.wh.ringNext + 1) % 32766 ∧
      t.wh.incidents = s.wh.incidents ∧ t.wh.open_ ≠ none ∧ t.wh.lastInc = s.tb.elapsed ∧
      (∃ a b, t.evq =
        s.evq ++ [{ unit := 0, cls := 14, typ := 14, alarm := false, trace := false, arg0 := a, arg1 := b }]) ∧
      { t with wh := s.wh, evq := s.evq, draws := s.draws } = s) := by
  let u := s.modWh (fun w => { w with staging := rs })
  have opens : u.openIncident = (u.eventFree 0 14 14).modWh (fun w => { w with open_ := some 8 }) := by
    unfold State.openIncident
    rw [show u.incidentSlot = none from State.incidentSlot_none kept]
  obtain ⟨wh, work⟩ := u.eventFree_rest 0 14 14
  obtain ⟨a, b, told⟩ := u.evq_eventFree 0 14 14
  generalize u.eventFree 0 14 14 = e at *
  have rest : { e with wh := s.wh, evq := s.evq, draws := s.draws } = s := by
    let g : State → State := fun x => { x with wh := s.wh }
    exact (congrArg g work :)
  have tb : e.tb = s.tb := (congrArg State.tb rest :)
  let v := e.modWh (fun w => { w with open_ := some 8 })
  have open_ : v.wh.open_ = some 8 := rfl
  have same : v.wh.coalesce = [] ∧ v.wh.gaps = [] ∧ v.wh.ringNext = s.wh.ringNext ∧ v.wh.incidents = s.wh.incidents ∧ v.tb = s.tb ∧
    (∃ a b, v.evq = s.evq ++ [{ unit := 0, cls := 14, typ := 14, alarm := false, trace := false, arg0 := a, arg1 := b }]) ∧
    { v with wh := s.wh, evq := s.evq, draws := s.draws } = s :=
    ⟨(congrArg WhSt.coalesce wh).trans counts, (congrArg WhSt.gaps wh).trans gaps, (congrArg WhSt.ringNext wh :),
      (congrArg WhSt.incidents wh :), tb, ⟨a, b, told⟩, rest⟩
  have run {w : State} (written : v.writeRec r = w) := exec_logWrite_opens staged isInc closed ((congrArg (·.writeRec r) opens).trans written)
  clear_value v
  obtain ⟨counts', gaps', next, incidents, tb, told, rest⟩ := same
  have slotV : v.openSlot = none := by rw [State.openSlot, open_]; decide
  have run := run (v.writeRec_ring r slotV)
  rw [open_, State.flush_idle (by exact counts') (by exact gaps')] at run
  refine ⟨_, run, ?_, congrArg (fun n => (n + 1) % 32766) next, incidents, (open_.trans_ne (Option.some_ne_none 8) :),
    congrArg (·.elapsed) tb, told, rest⟩
  exact (tfind_tput _ _ _ _).trans (if_pos next)

end Written

end Incidents

/-! ### The scrubber (R531) -/

section Scrub

variable {s : State} {m : Mem} {w : Nat}

theorem exec_scrubRead (scrubbed : s.scrubbed m = true) (primed : s.mram.primed = true) : exec (.scrubRead m w) s =
    match s.eccOf m w with
    | none => .next s
    | some .uncorrectable =>
      .next (if m = .mram then (s.countUe m).event 11 14 0x21 (mramRegion (4 * w)) w else (s.countUe m).eccEvent 2 m w .scrubber)
    | some _ => .next (((s.setEcc m w none).countEcc m false).eccEvent 0 m w .scrubber) := by
  refine if_neg ?_
  rw [scrubbed, primed]
  decide

/-- A word that the scrubber corrects (R531). -/
theorem State.scrubCorrected (s : State) (m : Mem) (w : Nat) :
    let t := ((s.setEcc m w none).countEcc m false).eccEvent 0 m w .scrubber
    t.eccOf m w = none ∧ (∀ n v, (n, v) ≠ (m, w) → t.eccOf n v = s.eccOf n v) ∧
      (t.evq.getLast?).map (fun e => (e.cls, e.typ)) = some (0, 0) ∧
      { t with ecc := s.ecc, evq := s.evq, pbs := s.pbs, regs := s.regs } = s := by
  have rest := (s.setEcc m w none).countEccOn_rest ((s.setEcc m w none).holder m) m false
  intro t
  have ecc : t.ecc = (s.setEcc m w none).ecc := (congrArg State.ecc rest :)
  refine ⟨(State.eccOf_of_ecc ecc m w).trans (s.eccOf_setEcc_same m w none),
    fun n v other => (State.eccOf_of_ecc ecc n v).trans (s.eccOf_setEcc_other m n w v none other), ?_, ?_⟩
  · exact congrArg (Option.map fun e : Ev => (e.cls, e.typ)) List.getLast?_concat
  · let g : State → State := fun v => { v with ecc := s.ecc, evq := s.evq }
    exact (congrArg g rest :)

/-- A word that the scrubber finds uncorrectable (R531). -/
theorem State.scrubUncorrectable (s : State) (m : Mem) (w : Nat) :
    let t := if m = .mram then (s.countUe m).event 11 14 0x21 (mramRegion (4 * w)) w else (s.countUe m).eccEvent 2 m w .scrubber
    t.ecc = s.ecc ∧ (t.evq.getLast?).map (fun e => (e.cls, e.typ)) = some (if m = .mram then (14, 0x21) else (2, 2)) ∧
      { t with ecc := s.ecc, evq := s.evq, pbs := s.pbs, regs := s.regs } = s := by
  have rest := s.countUe_rest m
  let g : State → State := fun v => { v with ecc := s.ecc, evq := s.evq }
  intro t
  simp only [t]
  split
  · exact ⟨(congrArg State.ecc rest :), congrArg (Option.map fun e : Ev => (e.cls, e.typ)) List.getLast?_concat, (congrArg g rest :)⟩
  · exact ⟨(congrArg State.ecc rest :), congrArg (Option.map fun e : Ev => (e.cls, e.typ)) List.getLast?_concat, (congrArg g rest :)⟩

end Scrub

/-- Settles O47: an intake is taken by the first of the three kinds that has a head; the flush stages a record for each count;
a record is written where the open incident has a slot, else in the ring. -/
theorem wellLogAndScrubbing : Obligations.WellLogAndScrubbing := by
  unfold Obligations.WellLogAndScrubbing
  refine ⟨?order, ?intake, ?flush, ?layout, ?ring, ?opened, ?incident, ?retained, ?slot, ?gap, ?close, ?select, ?read, ?shed, ?scrub⟩
  case order =>
    intro u e s next
    obtain ⟨queue, kind⟩ := State.intakeNext_cases next
    refine ⟨queue, fun ⟨v, unit, f, fs, head, alarm⟩ => ?_, fun ⟨v, unit, f, fs, head, record⟩ => ?_⟩
    · refine kind.resolve_right fun ⟨noAlarm, _⟩ => ?_
      rw [State.intakeHead_none noAlarm unit head] at alarm
      cases alarm
    · rcases kind with alarm | ⟨-, record' | noRecord⟩
      · exact trace_of_isAlarm alarm
      · exact record'
      · have no := State.intakeHead_none noRecord unit head
        rw [record] at no
        cases no
  case intake =>
    intro u e s next counts gaps
    let v := s.modWh (fun w => { w with intake := tset [] w.intake u ((tget [] w.intake u).drop 1) })
    have run : exec .logIntake s = .next (v.takeIn e) := exec_logIntake next
    obtain ⟨intake, rest⟩ := State.takeIn_rest (s := v) counts gaps e
    refine ⟨_, run, ?_, fun alarm room => ?_, fun alarm full => ?_, fun noAlarm noTrace room => ?_, fun noAlarm noTrace full => ?_,
      fun noAlarm trace room buffer => ?_, ?_⟩
    · rw [intake]
      exact (tget_tset _ _ _ _ _).trans (if_pos rfl)
    · rw [State.takeIn_alarm (s := v) counts gaps alarm room]
      exact ⟨rfl, rfl⟩
    · rw [State.takeIn_alarm_full (s := v) alarm full]
      refine ⟨rfl, rfl, ?_, tget_tput_same _ _ _ _⟩
      refine (tget_tput_same _ _ _ _).trans ?_
      rw [show v.wh.coalesce = [] from counts]
      rfl
    · rw [State.takeIn_record (s := v) counts gaps noAlarm noTrace room]
      exact ⟨rfl, rfl⟩
    · rw [State.takeIn_record_full (s := v) noAlarm noTrace full]
      refine ⟨rfl, rfl, rfl, ?_⟩
      refine (tfind_tput _ _ _ _).trans ((if_pos rfl).trans ?_)
      rw [show v.wh.gaps = [] from gaps]
      rfl
    · rw [State.takeIn_trace (s := v) noAlarm trace room buffer]
      exact ⟨rfl, rfl, rfl⟩
    · let g : State → State := fun x => { x with wh := s.wh, dbg := s.dbg }
      exact (congrArg g rest :)
  case flush =>
    intro s half few
    obtain ⟨counts, gaps, rs, staging, length⟩ := State.flush_spec half few
    exact ⟨counts, gaps, by rw [staging, List.length_append, length, Nat.add_assoc], by rw [staging, List.take_left]⟩
  case layout => exact fun r => ⟨rfl, rfl, rfl, rfl, rfl⟩
  case ring => exact fun r rs s staged counts gaps noInc closed => logWrite_ring staged counts gaps noInc closed
  case opened => exact fun r rs i s staged counts gaps isInc closed slot => logWrite_opens staged counts gaps isInc closed slot
  case incident =>
    exact fun r rs i m s staged counts gaps opened small count => logWrite_incident staged counts gaps opened small count
  case retained => exact fun r rs s staged counts gaps isInc closed kept => logWrite_retained staged counts gaps isInc closed kept
  case slot => exact fun i s slot => State.incidentSlot_spec slot
  case gap => exact fun s many => State.act_of (decide_eq_true many)
  case close =>
    intro i s opened small quiet
    have slot : s.openSlot = some i := by rw [State.openSlot, opened, Option.filter_some, if_pos (decide_eq_true small)]
    have run : exec .incidentClose s = .next ((s.modWh (fun w =>
        { w with incidents := tput w.incidents i { s.incident i with endedAt := s.tb.elapsed } })).modWh
          (fun w => { w with open_ := none })) := by
      change execIncidentClose s = _
      unfold execIncidentClose
      rw [slot]
      refine State.act_of ?_
      rw [opened, State.quietMs, msUnits, decide_eq_true quiet]
      rfl
    exact ⟨_, run, rfl, tget_tput_same _ _ _ _, rfl⟩
  case select =>
    intro w s
    refine ⟨_, rfl, ?_, rfl, rfl, fun o other => s.reg_setReg_other _ _ _ other, rfl⟩
    refine (s.reg_setReg_same _ _).trans (Nat.mod_eq_of_lt ?_)
    unfold bits
    omega
  case read => exact fun s reading => State.act_of reading
  case shed =>
    intro m w lb s holds shed
    refine if_pos (.inl ?_)
    rw [State.scrubbed, holds, Option.any_some, shed, Bool.not_true, Bool.and_false]
  case scrub =>
    intro m w s noRoutes inService primed
    have scrubbed : s.scrubbed m = true := by
      have own : m.lbore.any (fun l => (s.lb l).shed) = false := by
        cases holds : m.lbore with
        | none => rfl
        | some lb => exact inService lb holds
      rw [State.scrubbed, own, bne_iff_ne.2 noRoutes]
      rfl
    have run := exec_scrubRead (w := w) scrubbed primed
    have corrected := s.scrubCorrected m w
    have uncorrectable := s.scrubUncorrectable m w
    cases mark : s.eccOf m w with
    | none =>
      rw [mark] at run
      exact ⟨s, run, fun _ => rfl, fun on => absurd on (by simp), fun on => (nomatch on), fun _ _ _ => rfl, rfl⟩
    | some k =>
      rw [mark] at run
      cases k with
      | uncorrectable =>
        obtain ⟨ecc, told, rest⟩ := uncorrectable
        exact ⟨_, run, fun no => (nomatch no), fun no => no.elim (fun no => nomatch no) (fun no => nomatch no),
          fun _ => ⟨ecc, told⟩, fun n v _ => State.eccOf_of_ecc ecc n v, rest⟩
      | correctable =>
        obtain ⟨gone, others, told, rest⟩ := corrected
        exact ⟨_, run, fun no => (nomatch no), fun _ => ⟨gone, told⟩, fun no => (nomatch no), others, rest⟩
      | rewriting =>
        obtain ⟨gone, others, told, rest⟩ := corrected
        exact ⟨_, run, fun no => (nomatch no), fun _ => ⟨gone, told⟩, fun no => (nomatch no), others, rest⟩

end Sys2Proof.Machine

/-!
SUPPORT. Bytes of the MRAM, the platform record and the resets (R534-R539, R559, R572, R576, R578), and the proof of O48.
-/

namespace Sys2Proof.Machine

/-! ### Lists of bytes -/

section Bytes

theorem byteAt_writeBytes (t : Tbl Byte) (a : Nat) (bs : List Nat) (b : Nat) :
    byteAt (writeBytes t a bs) b = if a ≤ b ∧ b < a + bs.length then BitVec.ofNat 8 (bs.getD (b - a) 0) else byteAt t b := by
  induction bs generalizing t a with
  | nil => rw [if_neg (by simp), writeBytes]
  | cons c cs ih =>
    rw [writeBytes, ih, byteAt_tset, List.length_cons]
    by_cases here : a = b
    · subst here
      rw [if_neg (by omega), if_pos rfl, if_pos ⟨Nat.le_refl _, by omega⟩, Nat.sub_self, List.getD_cons_zero]
    · rw [if_neg here]
      by_cases inside : a + 1 ≤ b ∧ b < a + 1 + cs.length
      · rw [if_pos inside, if_pos (by omega), show b - a = (b - (a + 1)) + 1 by omega, List.getD_cons_succ]
      · rw [if_neg inside, if_neg (by omega)]

theorem readBytes_length (t : Tbl Byte) (a n : Nat) : (readBytes t a n).length = n := by
  induction n generalizing a with
  | zero => rfl
  | succ n ih => rw [readBytes, List.length_cons, ih]

theorem readBytes_getElem (t : Tbl Byte) (a n i : Nat) (inside : i < (readBytes t a n).length) :
    (readBytes t a n)[i] = (byteAt t (a + i)).toNat := by
  induction n generalizing a i with
  | zero => exact absurd inside (by simp [readBytes])
  | succ n ih =>
    cases i with
    | zero => rfl
    | succ i =>
      simp only [readBytes, List.getElem_cons_succ]
      rw [ih, show a + 1 + i = a + (i + 1) by omega]

theorem readBytes_small (t : Tbl Byte) (a n : Nat) : ∀ b ∈ readBytes t a n, b < 256 := by
  intro b member
  obtain ⟨i, inside, is⟩ := List.mem_iff_getElem.1 member
  rw [← is, readBytes_getElem]
  exact BitVec.isLt _

/-- What is read back from a range that has been written. -/
theorem readBytes_writeBytes {bs : List Nat} (small : ∀ b ∈ bs, b < 256) (t : Tbl Byte) (a : Nat) {o n : Nat}
    (inside : o + n ≤ bs.length) : readBytes (writeBytes t a bs) (a + o) n = (bs.drop o).take n := by
  refine List.ext_getElem (by rw [readBytes_length, List.length_take, List.length_drop]; omega) fun i low high => ?_
  rw [readBytes_length] at low
  rw [readBytes_getElem, byteAt_writeBytes, if_pos (by omega), List.getElem_take, List.getElem_drop,
    show a + o + i - a = o + i by omega, List.getD_eq_getElem _ _ (by omega), BitVec.toNat_ofNat]
  exact Nat.mod_eq_of_lt (small _ (List.getElem_mem _))

theorem readLE_eq_ofBytes (t : Tbl Byte) (a n : Nat) : readLE t a n = ofBytes (readBytes t a n) := by
  induction n generalizing a with
  | zero => rfl
  | succ n ih => rw [readLE, readBytes, ofBytes, ih]

theorem toBytes_length (n v : Nat) : (toBytes n v).length = n := by
  induction n generalizing v with
  | zero => rfl
  | succ n ih => rw [toBytes, List.length_cons, ih]

theorem toBytes_small (n v : Nat) : ∀ b ∈ toBytes n v, b < 256 := by
  induction n generalizing v with
  | zero => exact fun b member => (List.not_mem_nil member).elim
  | succ n ih =>
    intro b member
    rw [toBytes, List.mem_cons] at member
    rcases member with here | inside
    · omega
    · exact ih _ b inside

theorem ofBytes_toBytes (n v : Nat) : ofBytes (toBytes n v) = v % 256 ^ n := by
  induction n generalizing v with
  | zero => rw [toBytes, ofBytes, Nat.pow_zero, Nat.mod_one]
  | succ n ih => rw [toBytes, ofBytes, ih, Nat.pow_succ, Nat.mul_comm (256 ^ n), Nat.mod_mul]

theorem ofBytes_word {v : Nat} (small : v < 2 ^ 32) : ofBytes (toBytes 4 v) = v := by
  rw [ofBytes_toBytes]
  exact Nat.mod_eq_of_lt small

theorem crcShift_word {poly : Nat} (word : poly < 2 ^ 32) (k : Nat) {st : Nat} (small : st < 2 ^ 32) : crcShift poly k st < 2 ^ 32 := by
  induction k generalizing st with
  | zero => exact small
  | succ k ih =>
    have half : st / 2 < 2 ^ 32 := Nat.lt_of_le_of_lt (Nat.div_le_self st 2) small
    rw [crcShift]
    split
    · exact ih (Nat.xor_lt_two_pow half word)
    · exact ih half

/-- A CRC of 32 bits is a word. -/
theorem crcBytes_word {poly : Nat} (word : poly < 2 ^ 32) (l : List Nat) {st : Nat} (small : st < 2 ^ 32) :
    crcBytes poly st l < 2 ^ 32 :=
  List.foldlRecOn l (crcStep poly) (motive := (· < 2 ^ 32)) small fun _ low b _ =>
    crcShift_word word 8 (Nat.xor_lt_two_pow low (Nat.lt_of_lt_of_le (Nat.mod_lt b (by decide)) (by decide)))

theorem crc32cFinal_word (l : List Nat) : crc32cFinal l < 2 ^ 32 :=
  Nat.xor_lt_two_pow (crcBytes_word (by decide) l (by decide)) (by decide)

end Bytes

/-! ### Whole words of a memory take new check bits (R144) -/

section Clean

/-- A word that is written whole, or that held no error, holds none after. -/
theorem State.eccOf_rewritten {m : Mem} {w : Nat} {f : State → Nat → State} {ws : List Nat}
    (step : ∀ s, ∀ v ∈ ws, f s v = s.setEcc m v none) (s : State) (clean : w ∈ ws ∨ s.eccOf m w = none) :
    (ws.foldl f s).eccOf m w = none := by
  induction ws generalizing s with
  | nil => exact clean.resolve_left List.not_mem_nil
  | cons v ws ih =>
    rw [List.foldl_cons, step s v List.mem_cons_self]
    refine ih (fun s v member => step s v (List.mem_cons_of_mem _ member)) _ ?_
    by_cases here : w = v
    · exact .inr (here ▸ s.eccOf_setEcc_same m v none)
    · rw [s.eccOf_setEcc_other m m v w none (by simp [here])]
      exact clean.imp_left fun member => (List.mem_cons.1 member).resolve_left here

theorem State.eccWrite_clean {a n w : Nat} (start : a % 4 = 0) (size : n % 4 = 0) (pos : 0 < n) (s : State) (m : Mem)
    (member : w ∈ wordsOf a n) : (s.eccWrite m a n).eccOf m w = none := by
  unfold State.eccWrite
  split
  · next clean => exact State.eccOf_of_clean (List.isEmpty_iff.1 clean) m w
  · refine State.eccOf_rewritten (fun s v inside => if_pos ?_) s (.inl member)
    simpa using covers_of_aligned start size pos inside

end Clean

/-! ### The platform record (R537-R539) -/

section Records

variable {s : State}

/-- A record that has been written, of 4092 bytes and their check. -/
structure Record (t : State) (c : Nat) (body : List Nat) : Prop where
  bytes : readBytes t.mram.mem (recBase c) 0xFFC = body
  check : t.recWord c 0xFFC = crc32cFinal body
  clean : t.mramUe (recBase c) 0x1000 = false

variable {c : Nat} {body : List Nat}

theorem Record.range (h : Record s c body) {o n : Nat} (inside : o + n ≤ 0xFFC) :
    readBytes s.mram.mem (recBase c + o) n = (body.drop o).take n := by
  refine List.ext_getElem ?_ fun i low high => ?_
  · rw [readBytes_length, List.length_take, List.length_drop, ← h.bytes, readBytes_length]
    omega
  · rw [readBytes_length] at low
    rw [List.getElem_take, List.getElem_drop, readBytes_getElem]
    simp only [← h.bytes]
    rw [readBytes_getElem, Nat.add_assoc]

theorem Record.word (h : Record s c body) {o : Nat} (inside : o + 4 ≤ 0xFFC) : s.recWord c o = ofBytes ((body.drop o).take 4) := by
  rw [State.recWord, readLE_eq_ofBytes, h.range inside]

theorem Record.valid (h : Record s c body) (magic : s.recWord c 0 = platMagic) : s.recValid c = true := by
  rw [State.recValid, magic, h.clean, h.bytes, h.check, beq_self_eq_true, beq_self_eq_true]
  rfl

theorem State.eccWrite_whole {a n : Nat} (start : a % 4 = 0) (size : n % 4 = 0) (pos : 0 < n) (s : State) (m : Mem) :
    { s.eccWrite m a n with ecc := s.ecc } = s := by
  have lbs : (s.eccWrite m a n).lbs = s.lbs := (congrArg State.lbs (s.eccWrite_rest m a n) :)
  have wh : (s.eccWrite m a n).wh = s.wh := (congrArg State.wh (s.eccWrite_rest m a n) :)
  have work : { s.eccWrite m a n with lbs := s.lbs, ecc := s.ecc, wh := s.wh } = s := LbWork.eccWrite start size pos s m
  rw [← lbs, ← wh] at work
  exact work

/-- A write of a whole record (R538). -/
theorem State.mramPut_record (s : State) (c : Nat) (length : body.length = 0xFFC) (small : ∀ b ∈ body, b < 256) :
    let t := s.mramPut (recBase c) (body ++ toBytes 4 (crc32cFinal body))
    Record t c body ∧ t.mram = { s.mram with mem := t.mram.mem } ∧
      (∀ a, a < recBase c ∨ recBase c + 0x1000 ≤ a → byteAt t.mram.mem a = byteAt s.mram.mem a) ∧
      { t with mram := s.mram, ecc := s.ecc } = s := by
  let bs := body ++ toBytes 4 (crc32cFinal body)
  have whole : bs.length = 0x1000 := by rw [List.length_append, length, toBytes_length]
  have bytes : ∀ b ∈ bs, b < 256 := fun b member =>
    (List.mem_append.1 member).elim (small b) (toBytes_small _ _ b)
  let u := s.modMram (fun m => { m with mem := writeBytes m.mem (recBase c) bs })
  have start : recBase c % 4 = 0 := by unfold recBase; omega
  have same : s.mramPut (recBase c) bs = u.eccWrite .mram (recBase c) 0x1000 := by
    rw [← whole]
    rfl
  have rest := u.eccWrite_whole start (by decide : 0x1000 % 4 = 0) (by decide) .mram
  have clean : ∀ w ∈ wordsOf (recBase c) 0x1000, (u.eccWrite .mram (recBase c) 0x1000).eccOf .mram w = none := fun w member =>
    State.eccWrite_clean start (by decide) (by decide) u .mram member
  dsimp only
  rw [show s.mramPut (recBase c) (body ++ toBytes 4 (crc32cFinal body)) = _ from same]
  generalize u.eccWrite .mram (recBase c) 0x1000 = t at *
  have mram : t.mram = { s.mram with mem := writeBytes s.mram.mem (recBase c) bs } := (congrArg State.mram rest :)
  have mem : t.mram.mem = writeBytes s.mram.mem (recBase c) bs := by rw [mram]
  refine ⟨⟨?_, ?_, ?_⟩, by rw [mem, mram], fun a out => ?_, ?_⟩
  · have read := readBytes_writeBytes bytes s.mram.mem (recBase c) (o := 0) (n := 0xFFC) (by omega)
    rw [Nat.add_zero] at read
    rw [mem, read, List.drop_zero, ← length]
    exact List.take_left
  · have read := readBytes_writeBytes bytes s.mram.mem (recBase c) (o := 0xFFC) (n := 4) (by omega)
    rw [State.recWord, readLE_eq_ofBytes, mem, read]
    have tail : bs.drop 0xFFC = toBytes 4 (crc32cFinal body) := length ▸ List.drop_left
    rw [tail, List.take_of_length_le (by rw [toBytes_length])]
    exact ofBytes_word (crc32cFinal_word _)
  · rw [State.mramUe]
    split
    · rfl
    · rw [List.any_eq_false]
      intro w member
      rw [State.isUe, clean w member]
      decide
  · rw [mem, byteAt_writeBytes, if_neg (by omega)]
  · let g : State → State := fun x => { x with mram := s.mram }
    exact (congrArg g rest :)

/-- The copy that the next rewrite of the record takes (R538). -/
def State.otherCopy (s : State) : Nat := match s.mram.copy with | some d => 1 - d | none => 0

/-- The record is rewritten in the other copy, and that copy is in force (R538). -/
structure Rewritten (s t : State) (body : List Nat) : Prop where
  copy : t.mram.copy = some s.otherCopy
  valid : t.recValid s.otherCopy = true
  pseq : t.recWord s.otherCopy 4 = (s.platWord 4 + 1) % 2 ^ 32
  range : ∀ o n, 8 ≤ o → o + n ≤ 0xFFC → readBytes t.mram.mem (recBase s.otherCopy + o) n = (body.drop (o - 8)).take n
  outside : ∀ a, a < recBase s.otherCopy ∨ recBase s.otherCopy + 0x1000 ≤ a → byteAt t.mram.mem a = byteAt s.mram.mem a
  rest : { t with mram := { t.mram with mem := s.mram.mem, copy := s.mram.copy }, ecc := s.ecc } = s

theorem State.recRewrite_spec (s : State) (length : body.length = 0xFF4) (small : ∀ b ∈ body, b < 256) :
    Rewritten s (s.recRewrite body) body := by
  let head := toBytes 4 platMagic ++ toBytes 4 ((s.platWord 4 + 1) % 2 ^ 32)
  have eight : head.length = 8 := by rw [List.length_append, toBytes_length, toBytes_length]
  have whole : (head ++ body).length = 0xFFC := by rw [List.length_append, eight, length]
  have bytes : ∀ b ∈ head ++ body, b < 256 := fun b member => (List.mem_append.1 member).elim
    (fun inside => (List.mem_append.1 inside).elim (toBytes_small _ _ b) (toBytes_small _ _ b)) (small b)
  have eq : s.recRewrite body = (s.mramPut (recBase s.otherCopy) ((head ++ body) ++ toBytes 4 (crc32cFinal (head ++ body)))).modMram
      (fun m => { m with copy := some s.otherCopy }) := rfl
  obtain ⟨record, mram, outside, rest⟩ := s.mramPut_record s.otherCopy whole bytes
  rw [eq]
  generalize s.mramPut (recBase s.otherCopy) ((head ++ body) ++ toBytes 4 (crc32cFinal (head ++ body))) = t at *
  have record' : Record (t.modMram (fun m => { m with copy := some s.otherCopy })) s.otherCopy (head ++ body) :=
    ⟨record.bytes, record.check, record.clean⟩
  have magic : (t.modMram (fun m => { m with copy := some s.otherCopy })).recWord s.otherCopy 0 = platMagic := by
    rw [record'.word (by decide), List.drop_zero, List.append_assoc, List.take_append_of_le_length (by rw [toBytes_length]),
      List.take_of_length_le (by rw [toBytes_length])]
    exact ofBytes_word (by decide)
  refine ⟨rfl, record'.valid magic, ?_, fun o n low high => ?_, outside, ?_⟩
  · have tail : (head ++ body).drop 4 = toBytes 4 ((s.platWord 4 + 1) % 2 ^ 32) ++ body := by
      rw [List.append_assoc]
      exact List.drop_left' (toBytes_length 4 _)
    rw [record'.word (by decide), tail, List.take_append_of_le_length (by rw [toBytes_length]),
      List.take_of_length_le (by rw [toBytes_length])]
    exact ofBytes_word (Nat.mod_lt _ (by decide))
  · refine (record'.range high).trans (congrArg (List.take n) ?_)
    rw [List.drop_append, List.drop_of_length_le (by omega), List.nil_append, eight]
  · have same : { t.mram with mem := s.mram.mem, copy := s.mram.copy } = s.mram := by rw [mram]
    have all : { t with mram := { t.mram with mem := s.mram.mem, copy := s.mram.copy }, ecc := s.ecc } = s := by
      rw [same]
      exact rest
    exact all

/-- The flags and the key that a commit writes (R539). -/
def State.commitFlags (s : State) : Nat :=
  if s.keyLock then mix (readLE s.mram.stage 8 4) 0xE (s.platWord 8) else readLE s.mram.stage 8 4

def State.commitKey (s : State) : List Nat := if s.keyLock then s.platBytes 0x10 64 else readBytes s.mram.stage 0x10 64

def State.commitBody (s : State) : List Nat :=
  toBytes 4 s.commitFlags ++ (readBytes s.mram.stage 0xC 4 ++ (s.commitKey ++ readBytes s.mram.stage 0x50 0xFAC))

theorem State.commitRec_eq (s : State) : s.commitRec = s.recRewrite s.commitBody := by
  unfold State.commitBody
  rw [← List.append_assoc, ← List.append_assoc]
  rfl

theorem State.platBytes_length (s : State) (o n : Nat) : (s.platBytes o n).length = n := by
  unfold State.platBytes
  split
  · exact readBytes_length _ _ _
  · exact List.length_replicate

theorem State.platBytes_small (s : State) (o n : Nat) : ∀ b ∈ s.platBytes o n, b < 256 := by
  unfold State.platBytes
  split
  · exact readBytes_small _ _ _
  · intro b member
    rw [List.eq_of_mem_replicate member]
    decide

theorem State.commitKey_length (s : State) : s.commitKey.length = 64 := by
  unfold State.commitKey
  split
  · exact s.platBytes_length _ _
  · exact readBytes_length _ _ _

theorem State.commitFlags_lt (s : State) : s.commitFlags < 2 ^ 32 := by
  unfold State.commitFlags
  split
  · exact mix_lt _ _ _
  · exact readLE_lt _ _ 4

theorem State.commitBody_spec (s : State) : s.commitBody.length = 0xFF4 ∧ (∀ b ∈ s.commitBody, b < 256) ∧
    ofBytes (s.commitBody.take 4) = s.commitFlags ∧ (s.commitBody.drop 4).take 4 = readBytes s.mram.stage 0xC 4 ∧
    (s.commitBody.drop 8).take 64 = s.commitKey := by
  have second : s.commitBody.drop 4 = readBytes s.mram.stage 0xC 4 ++ (s.commitKey ++ readBytes s.mram.stage 0x50 0xFAC) :=
    List.drop_left' (toBytes_length 4 _)
  refine ⟨?_, fun b member => ?_, ?_, ?_, ?_⟩
  · rw [State.commitBody, List.length_append, List.length_append, List.length_append, toBytes_length, readBytes_length,
      s.commitKey_length, readBytes_length]
  · rw [State.commitBody, List.mem_append, List.mem_append, List.mem_append] at member
    rcases member with flags | stage | key | tail
    · exact toBytes_small _ _ b flags
    · exact readBytes_small _ _ _ b stage
    · unfold State.commitKey at key
      split at key
      · exact s.platBytes_small _ _ b key
      · exact readBytes_small _ _ _ b key
    · exact readBytes_small _ _ _ b tail
  · rw [State.commitBody, List.take_left' (toBytes_length 4 _)]
    exact ofBytes_word s.commitFlags_lt
  · rw [second, List.take_left' (readBytes_length _ _ 4)]
  · rw [show (8 : Nat) = 4 + 4 from rfl, ← List.drop_drop, second, List.drop_left' (readBytes_length _ _ 4),
      List.take_left' s.commitKey_length]

theorem Rewritten.platBytes {t : State} (h : Rewritten s t body) {o n : Nat} (low : 8 ≤ o) (high : o + n ≤ 0xFFC) :
    t.platBytes o n = (body.drop (o - 8)).take n := by
  unfold State.platBytes
  rw [h.copy]
  exact h.range o n low high

theorem Rewritten.word {t : State} (h : Rewritten s t body) {o : Nat} (low : 8 ≤ o) (high : o + 4 ≤ 0xFFC) :
    t.recWord s.otherCopy o = ofBytes ((body.drop (o - 8)).take 4) := by
  rw [State.recWord, readLE_eq_ofBytes, h.range o 4 low high]

theorem Rewritten.platWord {t : State} (h : Rewritten s t body) {o : Nat} (low : 8 ≤ o) (high : o + 4 ≤ 0xFFC) :
    t.platWord o = ofBytes ((body.drop (o - 8)).take 4) := by
  unfold State.platWord
  rw [h.copy]
  exact h.word low high

end Records

/-! ### Registers over a reset, and the IDCODE (R534, R535, R576) -/

theorem tfind_filter_key {α : Type} (p : Nat → Bool) (t : Tbl α) (i : Nat) :
    tfind (t.filter (fun e => p e.1)) i = if p i then tfind t i else none := by
  induction t with
  | nil => rw [List.filter_nil, tfind, ite_self]
  | cons e t ih =>
    obtain ⟨k, v⟩ := e
    by_cases here : k = i
    · subst here
      cases kept : p k with
      | true => rw [List.filter_cons_of_pos (by exact kept), tfind, tfind, if_pos rfl, if_pos rfl, if_pos rfl]
      | false => rw [List.filter_cons_of_neg (by rw [kept]; decide), ih, kept, if_neg Bool.false_ne_true, if_neg Bool.false_ne_true]
    · cases kept : p k with
      | true => rw [List.filter_cons_of_pos (by exact kept), tfind, tfind, if_neg here, if_neg here, ih]
      | false => rw [List.filter_cons_of_neg (by rw [kept]; decide), ih, tfind, if_neg here]

theorem State.reg_eq_elim (s : State) (o : Nat) : s.reg o = (tfind s.regs o).elim (regReset o) BitVec.toNat := by
  unfold State.reg
  cases tfind s.regs o with
  | none => rfl
  | some w => rfl

theorem idcodeWord_fields : idcodeWord.toNat % 2 = 1 ∧ bits idcodeWord.toNat 27 12 = 0xAF32 ∧ bits idcodeWord.toNat 31 28 = 3 := by
  have small : Config.idcodeMfr.toNat < 2048 := BitVec.isLt _
  have word : idcodeWord.toNat = 0x3 * 2 ^ 28 + 0xAF32 * 2 ^ 12 + 2 * Config.idcodeMfr.toNat + 1 := by
    rw [idcodeWord, BitVec.toNat_ofNat, Nat.mod_eq_of_lt (by omega)]
  rw [word]
  unfold bits
  refine ⟨by omega, by omega, by omega⟩

/-- Settles O48: a rewrite of the platform record leaves a valid copy whose bytes are those written; the resets are read off their
definition. -/
theorem resetsRecordAndTest : Obligations.ResetsRecordAndTest := by
  unfold Obligations.ResetsRecordAndTest
  refine ⟨?block, ?aon, ?leaves, ?choice, ?commit, fun s => rfl, ?testMode, fun s => ⟨rfl, rfl, rfl, rfl, idcodeWord_fields⟩, ?pop⟩
  case block =>
    intro test s
    refine ⟨_, rfl, rfl, fun o => ?_, fun k => ?_, ⟨_, _, rfl⟩⟩
    · have held : tfind (s.regs.filter (fun r => aonReg r.1)) o = if aonReg o then tfind s.regs o else none :=
        tfind_filter_key aonReg s.regs o
      refine (State.reg_eq_elim _ o).trans ((congrArg (fun w : Option Word => w.elim (regReset o) BitVec.toNat) held).trans ?_)
      by_cases always : 0x2000 ≤ o ∧ o < 0x3000
      · rw [if_pos always, if_pos (by rw [aonReg, decide_eq_true always.1, decide_eq_true always.2]; rfl)]
        exact (s.reg_eq_elim o).symm
      · rw [if_neg always, if_neg (by simpa [aonReg] using always)]
        exact (State.reset.reg_eq_elim o).symm
    · exact List.mem_filter.trans (and_congr_right fun _ => beq_iff_eq)
  case aon =>
    intro test s
    exact ⟨_, rfl, rfl, fun k => List.mem_filter.trans (and_congr_right fun _ => beq_iff_eq)⟩
  case leaves =>
    intro d s waits
    refine (State.act_of (List.contains_iff_mem.2 waits)).trans (congrArg Host.Outcome.next ?_)
    split
    · rfl
    · rfl
  case choice =>
    intro k s first second pos small
    unfold State.recChoose
    rw [first, second]
    have low : s.recWord 0 4 < 2 ^ 32 := readLE_lt _ _ 4
    have high : s.recWord 1 4 < 2 ^ 32 := readLE_lt _ _ 4
    refine ⟨fun next => congrArg some (if_pos ?_), fun next => congrArg some (if_neg ?_)⟩
    · rw [next]
      omega
    · rw [next]
      omega
  case commit =>
    intro w c s isC
    obtain ⟨length, small, flags, stage, key⟩ := s.commitBody_spec
    have spec := s.recRewrite_spec length small
    have run : exec (.commit w) s = .next (s.recRewrite s.commitBody) := by
      refine congrArg Host.Outcome.next ?_
      rw [State.mrWrite, if_pos rfl, if_pos (bit_putBits_one _ _), State.commitRec_eq]
    have isOther : c = s.otherCopy := isC
    rw [isOther]
    have active : (s.recRewrite s.commitBody).platWord 8 = s.commitFlags := by
      rw [spec.platWord (by decide) (by decide)]
      exact flags
    have keys : (s.recRewrite s.commitBody).platBytes 0x10 64 = s.commitKey := (spec.platBytes (by decide) (by decide)).trans key
    refine ⟨_, run, spec.copy, spec.valid, spec.pseq, ?_, fun locked => ⟨?_, ?_, fun j first last => ?_⟩, fun open_ => ⟨?_, ?_⟩,
      spec.outside, spec.rest⟩
    · rw [spec.word (by decide) (by decide), readLE_eq_ofBytes]
      exact congrArg ofBytes stage
    · rw [keys, State.commitKey, if_pos locked]
    · rw [State.platActive, active, State.commitFlags, if_pos locked]
      have low := testBit_mix (k := 0) (by decide) (readLE s.mram.stage 8 4) 0xE (s.platWord 8)
      rw [show Nat.testBit 0xE 0 = false from rfl, if_neg Bool.false_ne_true, Nat.testBit_zero, Nat.testBit_zero, decide_eq_decide] at low
      omega
    · rw [active, State.commitFlags, if_pos locked, bit_eq_testBit, bit_eq_testBit, testBit_mix (by omega), if_pos]
      interval_cases j <;> decide
    · rw [keys, State.commitKey, open_, if_neg Bool.false_ne_true]
    · rw [active, State.commitFlags, open_, if_neg Bool.false_ne_true]
  case testMode =>
    intro s up
    have run : exec .testModeChange s = .next (s.eventFree 0 15 15) := State.act_of up
    obtain ⟨-, rest⟩ := s.eventFree_rest 0 15 15
    exact ⟨_, run, rfl, s.evq_eventFree 0 15 15, rest⟩
  case pop =>
    intro w s
    have run : exec (.pop w) s = .next s.tracePop := by
      refine congrArg Host.Outcome.next ?_
      rw [State.dbgWrite, if_neg (by decide), if_pos rfl, if_pos (bit_putBits_one _ _)]
    refine ⟨fun r rs trace => ?_, fun empty => ?_⟩
    · rw [run, State.tracePop, State.modDbg, trace]
      rfl
    · have same : ∀ d : DbgSt, d.trace = [] → { d with data := d.trace.head?, trace := d.trace.drop 1 } = { d with data := none } := by
        intro d none_
        have kept : d.trace.drop 1 = d.trace := by rw [none_, List.drop_nil]
        rw [kept, none_]
        rfl
      rw [run]
      exact congrArg (fun d => Host.Outcome.next { s with dbg := d }) (same s.dbg empty)

end Sys2Proof.Machine

/-!
SUPPORT. Priming (R541-R547), and the proof of O49.
-/

namespace Sys2Proof.Machine

/-! ### The sections of an image (R543) -/

section Loading

variable {s t u : State}

/-- No memory that priming zeroes holds a marked word. -/
def Zeroed (s : State) : Prop := ∀ k ∈ s.ecc, zeroedMem k.mem = false

/-- `t` differs from `s` in the threads, the logical bores and the valves alone. -/
def LoadWork (s t : State) : Prop := { t with threads := s.threads, lbs := s.lbs, valves := s.valves } = s

theorem LoadWork.eq (h : LoadWork s t) : { t with threads := s.threads, lbs := s.lbs, valves := s.valves } = s := h

theorem LoadWork.refl (s : State) : LoadWork s s := rfl

theorem LoadWork.trans (h : LoadWork s t) (k : LoadWork t u) : LoadWork s u := by
  let g : State → State := fun v => { v with threads := s.threads, lbs := s.lbs, valves := s.valves }
  exact ((congrArg g k.eq :) : _ = g t).trans h

theorem LoadWork.ecc (h : LoadWork s t) : t.ecc = s.ecc := (congrArg State.ecc h.eq :)

theorem LoadWork.zeroed (h : LoadWork s t) (zero : Zeroed s) : Zeroed t := by
  rw [Zeroed, h.ecc]
  exact zero

theorem Zeroed.eccOf (zero : Zeroed s) {m : Mem} (own : zeroedMem m = true) (w : Nat) : s.eccOf m w = none := by
  rw [State.eccOf, List.find?_eq_none.2, Option.map_none]
  intro k member here
  rw [Bool.and_eq_true, beq_iff_eq] at here
  have no := zero k member
  rw [here.1, own] at no
  cases no

theorem Zeroed.setEcc (zero : Zeroed s) {m : Mem} (own : zeroedMem m = true) (w : Nat) : s.setEcc m w none = s := by
  have kept : s.ecc.filter (fun k => !(k.mem == m && k.word == w)) = s.ecc := by
    refine List.filter_eq_self.2 fun k member => ?_
    have no : (k.mem == m) = false := beq_false_of_ne fun here => by
      have no := zero k member
      rw [here, own] at no
      cases no
    rw [no]
    rfl
  unfold State.setEcc
  rw [kept]

/-- A write to a memory without marks leaves the marks (R144). -/
theorem Zeroed.eccWrite (zero : Zeroed s) {m : Mem} (own : zeroedMem m = true) (a n : Nat) : s.eccWrite m a n = s := by
  unfold State.eccWrite
  split
  · rfl
  · generalize wordsOf a n = ws
    induction ws with
    | nil => rfl
    | cons w ws ih =>
      have step : (if (a ≤ 4 * w && 4 * w + 4 ≤ a + n) = true then s.setEcc m w none else s.eccPart m w) = s := by
        split
        · exact zero.setEcc own w
        · rw [State.eccPart, zero.eccOf own]
      rw [List.foldl_cons, step]
      exact ih

theorem LoadWork.loadEntry (zero : Zeroed s) (img : Nat) (e : ManEntry) : LoadWork s (s.loadEntry img e) := by
  have code (lb bank a : Nat) (bs : List Nat) : LoadWork s (s.codePut lb bank a bs) := by
    have stays : Zeroed (s.modLb lb (fun b => b.setCode bank (writeBytes (b.code bank) a bs))) := zero
    rw [State.codePut, stays.eccWrite rfl]
    rfl
  have well (x a n v : Nat) : LoadWork s (s.wellPut x a n v) := by
    have stays : Zeroed (s.modTh x (fun t => { t with well := writeLE t.well a n v })) := zero
    rw [State.wellPut, stays.eccWrite rfl]
    rfl
  have res (lb a n v : Nat) : LoadWork s (s.resPut lb a n v) := by
    have stays : Zeroed (s.modLb lb (fun b => { b with res := writeLE b.res a n v })) := zero
    rw [State.resPut, stays.eccWrite rfl]
    rfl
  unfold State.loadEntry
  dsimp only
  split
  · exact code _ _ _ _
  · split
    · rfl
    · exact well _ _ _ _
  · split
    · rfl
    · exact res _ _ _ _
  · rfl
  · rfl

theorem LoadWork.loadImage (zero : Zeroed s) (img : Nat) : LoadWork s (s.loadImage img) := by
  unfold State.loadImage
  generalize s.manifest img = es
  induction es generalizing s with
  | nil => rfl
  | cons e es ih =>
    have step := LoadWork.loadEntry zero img e
    exact step.trans (ih (step.zeroed zero))

/-- The code that an entry loads (R543). -/
theorem State.loadEntry_code (s : State) (img : Nat) {e : ManEntry} (code : e.kind = 1) {i : Nat} (inside : i < e.w3) :
    byteAt ((s.loadEntry img e).lb e.target).code0 (e.w1 + i) = byteAt s.mram.mem (imgBase img + e.w2 + i) := by
  have length : (s.sectionBytes img e).length = e.w3 := readBytes_length _ _ _
  have eq : s.loadEntry img e = s.codePut e.target 0 e.w1 (s.sectionBytes img e) := by
    unfold State.loadEntry
    rw [code]
    rfl
  have put : ((s.codePut e.target 0 e.w1 (s.sectionBytes img e)).lb e.target).code0 =
      writeBytes (s.lb e.target).code0 e.w1 (s.sectionBytes img e) := by
    rw [State.codePut, State.eccWrite_lb]
    exact congrArg LBore.code0 (State.lb_modLb_same _ _ _)
  rw [eq, put, byteAt_writeBytes, if_pos (by omega), show e.w1 + i - e.w1 = i by omega, List.getD_eq_getElem _ _ (by omega)]
  rw [show (s.sectionBytes img e)[i]'(by omega) = (byteAt s.mram.mem (imgBase img + e.w2 + i)).toNat from readBytes_getElem _ _ _ _ _,
    BitVec.ofNat_toNat, BitVec.setWidth_eq]

end Loading

/-! ### The judgement of an image (R541, R542, R544) -/

section Judgement

variable {s t : State}

/-- No word of the MRAM is marked. -/
def MramClean (s : State) : Prop := ∀ k ∈ s.ecc, k.mem ≠ .mram

theorem MramClean.mramUe (clean : MramClean s) (a n : Nat) : s.mramUe a n = false := by
  rw [State.mramUe]
  split
  · rfl
  · rw [List.any_eq_false]
    intro w _
    have none_ : s.eccOf .mram w = none := by
      rw [State.eccOf, List.find?_eq_none.2, Option.map_none]
      intro k member here
      rw [Bool.and_eq_true, beq_iff_eq] at here
      exact clean k member here.1
    rw [State.isUe, none_]
    decide

theorem MramClean.mramRead (clean : MramClean s) (a n : Nat) : s.mramRead a n = s := by
  have none_ : s.ecc.filter (fun k => k.mem == .mram && decide (a ≤ 4 * k.word) && decide (4 * k.word < a + n)) = [] := by
    refine List.filter_eq_nil_iff.2 fun k member here => ?_
    rw [Bool.and_eq_true, Bool.and_eq_true, beq_iff_eq] at here
    exact clean k member here.1.1
  rw [State.mramRead, none_]
  rfl

theorem MramClean.zeroAll (clean : MramClean s) : MramClean s.zeroAll :=
  fun k member => clean k (List.mem_filter.1 member).1

theorem Zeroed.zeroAll (s : State) : Zeroed s.zeroAll := fun k member => by
  have kept := (List.mem_filter.1 member).2
  simpa using kept

/-- What an image is judged by: the bytes of the MRAM and the copy of the record in force. -/
theorem State.judged_congr (ue : ∀ a n, t.mramUe a n = s.mramUe a n) (mem : t.mram.mem = s.mram.mem)
    (copy : t.mram.copy = s.mram.copy) (img : Nat) : t.imageFail img = s.imageFail img ∧ t.ctFail img = s.ctFail img := by
  have word (o : Nat) : t.imgWord img o = s.imgWord img o := by rw [State.imgWord, mem, State.imgWord]
  have bytes : t.imgBytes img = s.imgBytes img := by
    funext o n
    rw [State.imgBytes, mem, State.imgBytes]
  have len : t.imgLen img = s.imgLen img := word _
  have plat (o : Nat) : t.platWord o = s.platWord o := by
    unfold State.platWord State.recWord
    rw [copy, mem]
  have platBytes (o n : Nat) : t.platBytes o n = s.platBytes o n := by
    unfold State.platBytes
    rw [copy, mem]
  have header : t.headerOk img = s.headerOk img := by
    unfold State.headerOk
    rw [show t.imgWord img = s.imgWord img from funext word]
  have entry : t.manEntry img = s.manEntry img := by
    funext i
    unfold State.manEntry
    rw [show t.imgWord img = s.imgWord img from funext word]
  have manifest : t.manifestOk img = s.manifestOk img := by
    rw [State.manifestOk, State.manifest, word, word, len, entry, State.manifestOk, State.manifest]
  have signature : t.signatureOk img = s.signatureOk img := by
    unfold State.signatureOk State.imgBe
    rw [State.authEn, plat, len, platBytes, bytes, State.authEn]
  have image : t.imageFail img = s.imageFail img := by
    unfold State.imageFail
    rw [ue, ue, len, header, manifest, signature]
  have table : t.ctFail img = s.ctFail img := by
    unfold State.ctFail State.imgBe State.ctLen
    dsimp only
    rw [ue, mem, word, bytes]
  exact ⟨image, table⟩

theorem State.imgFault_congr (clean : MramClean s) (clean' : MramClean t) (mem : t.mram.mem = s.mram.mem)
    (copy : t.mram.copy = s.mram.copy) (img : Nat) : t.imgFault img = s.imgFault img := by
  obtain ⟨image, table⟩ := State.judged_congr (s := s) (t := t) (fun a n => (clean'.mramUe a n).trans (clean.mramUe a n).symm) mem copy img
  rw [State.imgFault, image, table, State.imgFault]

/-- The state after an image that cannot be used: the failure is noted. -/
structure Failed (s : State) (img : Nat) (t : State) : Prop where
  mram : ∃ n, t.mram = { (s.noteFail img (s.imgFault img)).mram with step := n }
  clean : MramClean t
  zero : Zeroed t
  rest : { t with mram := s.mram, threads := s.threads, lbs := s.lbs, pump := s.pump, valves := s.valves, ecc := s.ecc } = s

theorem State.tryImage_good (clean : MramClean s) (img : Nat) (good : s.imgFault img = 0) :
    ∃ t, s.tryImage img = (true, t) := by
  have image : s.imageFail img = 0 := by
    by_contra bad
    rw [State.imgFault, if_pos bad] at good
    exact bad good
  have table : s.ctFail img = 0 := by
    rw [State.imgFault, if_neg (by rw [image]; decide)] at good
    exact good
  unfold State.tryImage
  dsimp only
  rw [clean.mramRead, clean.mramRead, if_neg (by rw [image]; decide), if_neg (by rw [table]; decide)]
  exact ⟨_, rfl⟩

theorem Failed.of_noted {z : State} (mram : z.mram = s.mram) (clean : MramClean z) (zero : Zeroed z)
    (rest : { z with threads := s.threads, lbs := s.lbs, pump := s.pump, valves := s.valves, ecc := s.ecc } = s)
    (img : Nat) {k : Nat} (n : Nat) (fault : s.imgFault img = k) :
    Failed s img ((z.noteFail img k).modMram (fun m => { m with step := n })) := by
  have noted : (z.noteFail img k).mram = (s.noteFail img k).mram :=
    congrArg (fun m : MramSt => (if img = 0 then { m with failA := k } else { m with failB := k } : MramSt)) mram
  have kept : ∀ m, { (z.noteFail img k).modMram (fun m => { m with step := n }) with mram := m } = { z with mram := m } := fun _ => rfl
  have clean' : MramClean ((z.noteFail img k).modMram (fun m => { m with step := n })) := clean
  have zero' : Zeroed ((z.noteFail img k).modMram (fun m => { m with step := n })) := zero
  have own : ((z.noteFail img k).modMram (fun m => { m with step := n })).mram = { (z.noteFail img k).mram with step := n } := rfl
  rw [noted] at own
  generalize (z.noteFail img k).modMram (fun m => { m with step := n }) = t at *
  refine ⟨⟨n, fault ▸ own⟩, clean', zero', ?_⟩
  let g : State → State := fun v =>
    { v with threads := s.threads, lbs := s.lbs, pump := s.pump, valves := s.valves, ecc := s.ecc }
  have all := (congrArg g (kept s.mram) :)
  exact all.trans (by rw [← mram]; exact rest)

theorem Failed.of_loaded (clean : MramClean s) (zero : Zeroed s) (img : Nat) {k : Nat} (n : Nat) (fault : s.imgFault img = k) :
    Failed s img (((s.loadImage img).zeroAll.noteFail img k).modMram (fun m => { m with step := n })) := by
  have load := LoadWork.loadImage zero img
  have clean' : MramClean (s.loadImage img) := fun k member => clean k (load.ecc ▸ member)
  generalize s.loadImage img = u at *
  refine Failed.of_noted (z := u.zeroAll) (congrArg State.mram load.eq :) clean'.zeroAll (Zeroed.zeroAll u) ?_ img n fault
  let g : State → State := fun v => { v with pump := s.pump, ecc := s.ecc }
  exact (congrArg g load.eq :)

theorem State.tryImage_bad (clean : MramClean s) (zero : Zeroed s) (img : Nat) (bad : s.imgFault img ≠ 0) :
    ∃ t, s.tryImage img = (false, t) ∧ Failed s img t := by
  unfold State.tryImage
  dsimp only
  rw [clean.mramRead, clean.mramRead]
  by_cases image : s.imageFail img = 0
  · have fault : s.imgFault img = s.ctFail img := if_neg (by rw [image]; decide)
    rw [if_neg (by rw [image]; decide), if_pos (fault ▸ bad)]
    exact ⟨_, rfl, Failed.of_loaded clean zero img 7 fault⟩
  · have fault : s.imgFault img = s.imageFail img := if_pos image
    rw [if_pos image]
    refine ⟨_, rfl, ?_⟩
    split
    · exact Failed.of_loaded clean zero img 6 fault
    · exact Failed.of_noted rfl clean zero rfl img 6 fault

end Judgement

/-! ### The sequence (R544, R545, R547) -/

section Sequence

variable {s : State}

/-- The state in which the first image is tried. -/
def State.primeStart (s : State) : State :=
  s.zeroAll.modMram (fun m => { m with failA := 0, failB := 0, fallback := false, unauth := !s.authEn, step := 4 })

/-- An image is in force. -/
def State.primeDone (s : State) (img : Nat) : State := s.logRecover.modMram (fun m => { m with image := img, step := 8 })

/-- Neither image can be used. -/
def State.primeLost (s : State) : State :=
  s.zeroAll.applyPtable.modMram (fun m => { m with recovery := true, step := 7, rerun := none })

theorem State.prime_good {first : Nat} {t : State} (tried : s.primeStart.tryImage first = (true, t)) :
    s.prime first = t.primeDone first := by
  unfold State.prime
  extract_lets start done
  rw [show start.tryImage first = (true, t) from tried]
  rfl

theorem State.prime_fallback {first : Nat} {t u : State} (tried : s.primeStart.tryImage first = (false, t))
    (second : (t.modMram (fun m => { m with fallback := true })).tryImage (1 - first) = (true, u)) :
    s.prime first = u.primeDone (1 - first) := by
  unfold State.prime
  extract_lets start done
  rw [show start.tryImage first = (false, t) from tried]
  dsimp only
  rw [second]
  rfl

theorem State.prime_lost {first : Nat} {t u : State} (tried : s.primeStart.tryImage first = (false, t))
    (second : (t.modMram (fun m => { m with fallback := true })).tryImage (1 - first) = (false, u)) (fresh : u.mram.rerun = none) :
    s.prime first = u.primeLost := by
  unfold State.prime
  extract_lets start done
  rw [show start.tryImage first = (false, t) from tried]
  dsimp only
  rw [second]
  dsimp only
  rw [fresh]
  rfl

theorem State.tryImage_keeps {b : Bool} {t : State} {img : Nat} (tried : s.tryImage img = (b, t)) : t.fixed = s.fixed := by
  have same := s.tryImage_fixed img
  rw [tried] at same
  exact same

theorem MramClean.primeStart (clean : MramClean s) : MramClean s.primeStart := clean.zeroAll

theorem Zeroed.primeStart (s : State) : Zeroed s.primeStart := Zeroed.zeroAll s

theorem MramClean.imgFault_primeStart (clean : MramClean s) (img : Nat) : s.primeStart.imgFault img = s.imgFault img :=
  State.imgFault_congr clean clean.primeStart rfl rfl img

/-- After a failure the other image is judged as at the start. -/
theorem Failed.imgFault {t : State} {first img : Nat} (clean : MramClean s) (failed : Failed s.primeStart first t) :
    (t.modMram (fun m => { m with fallback := true })).imgFault img = s.imgFault img := by
  obtain ⟨n, mram⟩ := failed.mram
  have mem : t.mram.mem = s.mram.mem := by
    rw [mram, State.noteFail, State.modMram]
    dsimp only
    split
    · rfl
    · rfl
  have copy : t.mram.copy = s.mram.copy := by
    rw [mram, State.noteFail, State.modMram]
    dsimp only
    split
    · rfl
    · rfl
  have clean' : MramClean (t.modMram (fun m => { m with fallback := true })) := failed.clean
  exact State.imgFault_congr clean clean' mem copy img

/-- The outcomes of the sequence with `first`, then the other image. -/
theorem State.prime_outcome (clean : MramClean s) (fresh : s.mram.rerun = none) (first : Nat) :
    (s.imgFault first = 0 → (s.prime first).mram.recovery = s.mram.recovery ∧ (s.prime first).mram.step = 8 ∧
      (s.prime first).mram.image = first) ∧
    (s.imgFault first ≠ 0 → s.imgFault (1 - first) = 0 → (s.prime first).mram.recovery = s.mram.recovery ∧
      (s.prime first).mram.step = 8 ∧ (s.prime first).mram.image = 1 - first) ∧
    (s.imgFault first ≠ 0 → s.imgFault (1 - first) ≠ 0 → ∃ t u, Failed s.primeStart first t ∧
      Failed (t.modMram (fun m => { m with fallback := true })) (1 - first) u ∧ s.prime first = u.primeLost) := by
  have start := clean.imgFault_primeStart
  have failing (bad : s.imgFault first ≠ 0) := s.primeStart.tryImage_bad clean.primeStart (Zeroed.primeStart s) first
    (by rw [start]; exact bad)
  refine ⟨fun good => ?_, fun bad good => ?_, fun bad worse => ?_⟩
  · obtain ⟨t, tried⟩ := State.tryImage_good clean.primeStart first (by rw [start]; exact good)
    rw [State.prime_good tried]
    exact ⟨congrArg (·.2.2.2.2) (State.tryImage_keeps tried), rfl, rfl⟩
  · obtain ⟨t, tried, failed⟩ := failing bad
    have clean' : MramClean (t.modMram (fun m => { m with fallback := true })) := failed.clean
    obtain ⟨u, second⟩ := State.tryImage_good clean' (1 - first) (by rw [failed.imgFault clean]; exact good)
    rw [State.prime_fallback tried second]
    exact ⟨(congrArg (·.2.2.2.2) (State.tryImage_keeps second)).trans (congrArg (·.2.2.2.2) (State.tryImage_keeps tried)), rfl, rfl⟩
  · obtain ⟨t, tried, failed⟩ := failing bad
    have clean' : MramClean (t.modMram (fun m => { m with fallback := true })) := failed.clean
    have zero' : Zeroed (t.modMram (fun m => { m with fallback := true })) := failed.zero
    obtain ⟨u, second, failed'⟩ := State.tryImage_bad clean' zero' (1 - first) (by rw [failed.imgFault clean]; exact worse)
    have rerun {v w : State} {img : Nat} (lost : Failed v img w) : w.mram.rerun = v.mram.rerun := by
      obtain ⟨n, mram⟩ := lost.mram
      rw [mram, State.noteFail, State.modMram]
      dsimp only
      split
      · rfl
      · rfl
    exact ⟨t, u, failed, failed', State.prime_lost tried second ((rerun failed').trans ((rerun failed).trans fresh))⟩

/-- The state in which priming has chosen the record in force, with the staging `stage` (R538, R544). -/
def State.primeRecord (s : State) (stage : Tbl Byte) : State :=
  s.modMram (fun m => { m with copy := s.recChoose, step := 3, stage := stage })

theorem State.platWord_congr {t : State} (mem : t.mram.mem = s.mram.mem) (copy : t.mram.copy = s.mram.copy) (o : Nat) :
    t.platWord o = s.platWord o := by
  unfold State.platWord State.recWord
  rw [copy, mem]

/-- What priming judges with once it has chosen the record is what `u`, the state with that record in force, has. -/
theorem State.primeRecord_judged {u : State} (clean : MramClean s) (ecc : u.ecc = s.ecc) (mem : u.mram.mem = s.mram.mem)
    (copy : u.mram.copy = s.recChoose) (stage : Tbl Byte) : (∀ i, (s.primeRecord stage).imgFault i = u.imgFault i) ∧
    (s.primeRecord stage).platActive = u.platActive ∧ MramClean (s.primeRecord stage) := by
  have clean' : MramClean (s.primeRecord stage) := clean
  have mem' : (s.primeRecord stage).mram.mem = u.mram.mem := mem.symm
  have copy' : (s.primeRecord stage).mram.copy = u.mram.copy := copy.symm
  have cleanU : MramClean u := by
    rw [MramClean, ecc]
    exact clean
  exact ⟨fun i => State.imgFault_congr cleanU clean' mem' copy' i, congrArg (· % 2) (State.platWord_congr mem' copy' 8), clean'⟩

theorem State.primeReady_idle (ready : s.primeReady = true) : s.mram.primed = false ∧ s.mram.recovery = false := by
  rw [State.primeReady] at ready
  simp only [Bool.and_eq_true, Bool.not_eq_true'] at ready
  obtain ⟨⟨⟨⟨⟨primed, recovery⟩, -⟩, -⟩, -⟩, -⟩ := ready
  exact ⟨primed, recovery⟩

theorem exec_priming_first (ready : s.primeReady = true) (none_ : s.mram.rerun = none) (clean : MramClean s) :
    ∃ stage, exec .priming s = .next ((s.primeRecord stage).prime (s.primeRecord stage).platActive) := by
  refine ⟨writeBytes [] 0 ((s.modMram (fun m => { m with copy := s.recChoose, step := 3 })).platBytes 0 0x1000), ?_⟩
  change execPriming s = _
  unfold execPriming
  rw [none_]
  dsimp only
  rw [clean.mramRead]
  exact State.act_of ready

theorem exec_priming_again {id img : Nat} (again : s.mram.rerun = some (id, img)) (step : s.mram.step = 7)
    (unprimed : s.mram.primed = false) : exec .priming s = .next (s.prime img) := by
  change execPriming s = _
  unfold execPriming
  rw [again]
  refine State.act_of ?_
  rw [step, unprimed]
  rfl

/-- Priming leaves PRIMED as it is (R546). -/
theorem prime_primed {t : State} (run : exec .priming s = .next t) : t.mram.primed = s.mram.primed :=
  congrArg (·.2.2.2.1) (execPriming_fixed s t run)

theorem State.platWord_none (none_ : s.mram.copy = none) (o : Nat) : s.platWord o = 0 := by
  unfold State.platWord
  rw [none_]

theorem State.applyPtable_none (none_ : s.mram.copy = none) : s.applyPtable = s := by
  unfold State.applyPtable
  rw [State.platWord_none none_]
  rfl

/-- What the two failures leave of the MRAM unit. -/
theorem Failed.mram_both {t u : State} (clean : MramClean s) (first : Failed s.primeStart 0 t)
    (second : Failed (t.modMram (fun m => { m with fallback := true })) 1 u) : ∃ n, u.mram = { s.mram with
      failA := s.imgFault 0, failB := s.imgFault 1, fallback := true, unauth := !s.authEn, step := n } := by
  obtain ⟨a, mram⟩ := first.mram
  obtain ⟨b, mram'⟩ := second.mram
  refine ⟨b, ?_⟩
  rw [first.imgFault clean] at mram'
  rw [clean.imgFault_primeStart] at mram
  rw [mram', State.noteFail, State.modMram, State.modMram]
  dsimp only
  rw [mram]
  rfl

/-- Neither image can be used, and no record is valid (R547). -/
theorem State.primeLost_spec {t u : State} (clean : MramClean s) (first : Failed s.primeStart 0 t)
    (second : Failed (t.modMram (fun m => { m with fallback := true })) 1 u) (none_ : s.mram.copy = none) :
    (∃ n, u.primeLost.mram = { s.mram with failA := s.imgFault 0, failB := s.imgFault 1, fallback := true, unauth := !s.authEn
                                           recovery := true, step := n, rerun := none }) ∧ u.primeLost.mram.step = 7 ∧
    (∀ x, (u.primeLost.th x).well = [] ∧ (u.primeLost.th x).bits = []) ∧
    (∀ n, (u.primeLost.lb n).res = [] ∧ (u.primeLost.lb n).shared = [] ∧ (u.primeLost.lb n).code0 = [] ∧
      (u.primeLost.lb n).code1 = []) ∧
    (u.primeLost.pump.cells = [] ∧ u.primeLost.pump.chans = [] ∧ u.primeLost.pump.cis = []) ∧
    { u.primeLost with mram := s.mram, threads := s.threads, lbs := s.lbs, pump := s.pump, ecc := s.ecc, valves := s.valves } = s := by
  obtain ⟨n, mram⟩ := Failed.mram_both clean first second
  have none' : u.zeroAll.mram.copy = none := by
    rw [show u.zeroAll.mram = u.mram from rfl, mram]
    exact none_
  have eq : u.primeLost = u.zeroAll.modMram (fun m => { m with recovery := true, step := 7, rerun := none }) := by
    rw [State.primeLost, State.applyPtable_none none']
  have rest : { u with mram := s.mram, threads := s.threads, lbs := s.lbs, pump := s.pump, valves := s.valves, ecc := s.ecc } = s := by
    let g : State → State := fun v =>
      { v with mram := s.mram, threads := s.threads, lbs := s.lbs, pump := s.pump, valves := s.valves, ecc := s.ecc }
    have one := (congrArg g first.rest :)
    have two := (congrArg g second.rest :)
    exact two.trans one
  have th (x : Nat) : u.primeLost.th x = { u.th x with well := [], bits := [] } := by
    rw [eq]
    exact tget_map ({} : Thread) (fun h => { h with well := [], bits := [] }) rfl u.threads x
  have lb (n : Nat) : u.primeLost.lb n = { u.lb n with res := [], shared := [], code0 := [], code1 := [], resPend := [] } := by
    rw [eq]
    exact tget_map ({} : LBore) (fun b => { b with res := [], shared := [], code0 := [], code1 := [], resPend := [] }) rfl u.lbs n
  refine ⟨⟨7, ?_⟩, by rw [eq]; rfl, fun x => ?_, fun n => ?_, ?_, ?_⟩
  · rw [eq]
    exact congrArg (fun m : MramSt => { m with recovery := true, step := 7, rerun := none }) mram
  · rw [th]
    exact ⟨rfl, rfl⟩
  · rw [lb]
    exact ⟨rfl, rfl, rfl, rfl⟩
  · rw [eq]
    exact ⟨rfl, rfl, rfl⟩
  · rw [eq]
    exact rest

/-- An image that can be used is loaded (R544, R545). -/
theorem State.prime_loaded {img : Nat} (clean : MramClean s) (good : s.imgFault img = 0) :
    (s.prime img).mram.step = 8 ∧ (s.prime img).mram.image = img := by
  obtain ⟨t, tried⟩ := State.tryImage_good clean.primeStart img (by rw [clean.imgFault_primeStart]; exact good)
  rw [State.prime_good tried]
  exact ⟨rfl, rfl⟩

end Sequence

/-! ### The entries that start threads and valves (R546) -/

section Starting

variable {s t u : State}

/-- `t` differs from `s` in the threads, the pairs, the valves and registers below the host's alone. -/
structure StartWork (s t : State) : Prop where
  eq : { t with threads := s.threads, valves := s.valves, regs := s.regs, wh := { t.wh with pairs := s.wh.pairs } } = s
  regs : ∀ o, 0x40000 ≤ o → t.reg o = s.reg o

theorem StartWork.refl (s : State) : StartWork s s := ⟨rfl, fun _ _ => rfl⟩

theorem StartWork.trans (h : StartWork s t) (k : StartWork t u) : StartWork s u := by
  let g : State → State := fun v =>
    { v with threads := s.threads, valves := s.valves, regs := s.regs, wh := { v.wh with pairs := s.wh.pairs } }
  exact ⟨((congrArg g k.eq :) : _ = g t).trans h.eq, fun o high => (k.regs o high).trans (h.regs o high)⟩

theorem StartWork.mram (h : StartWork s t) : t.mram = s.mram := (congrArg State.mram h.eq :)
theorem StartWork.tb (h : StartWork s t) : t.tb = s.tb := (congrArg State.tb h.eq :)
theorem StartWork.locked (h : StartWork s t) : t.locked = s.locked := (congrArg State.locked h.eq :)
theorem StartWork.host (h : StartWork s t) : t.host = s.host := (congrArg State.host h.eq :)
theorem StartWork.dbg (h : StartWork s t) : t.dbg = s.dbg := (congrArg State.dbg h.eq :)
theorem StartWork.fault (h : StartWork s t) : t.wh.fault = s.wh.fault := (congrArg (fun v : State => v.wh.fault) h.eq :)
theorem StartWork.lastFault (h : StartWork s t) : t.wh.lastFault = s.wh.lastFault :=
  (congrArg (fun v : State => v.wh.lastFault) h.eq :)

theorem StartWork.modTh (s : State) (x : Nat) (f : Thread → Thread) : StartWork s (s.modTh x f) := ⟨rfl, fun _ _ => rfl⟩

theorem StartWork.modPair (s : State) (k : Nat) (f : PairSt → PairSt) : StartWork s (s.modPair k f) := ⟨rfl, fun _ _ => rfl⟩

theorem StartWork.modValve (s : State) (v : Nat) (f : ValveSt → ValveSt) : StartWork s (s.modValve v f) := ⟨rfl, fun _ _ => rfl⟩

theorem StartWork.setCtrl {v : Nat} (valve : v < 128) (s : State) (w : Nat) : StartWork s (s.setReg (valveBase v) w) :=
  ⟨rfl, fun o high => s.reg_setReg_other _ _ _ (by unfold valveBase; omega)⟩

theorem StartWork.startCmd (s : State) (x : Nat) : StartWork s (s.startCmd x) := by
  have err : StartWork s (s.cmdErr x) := StartWork.modTh _ _ _
  have pend : StartWork s (s.pendStart x false) := StartWork.modTh _ _ _
  unfold State.startCmd
  dsimp only
  split
  · exact err
  · split
    · exact pend
    · split
      · exact (pend.trans (StartWork.modTh _ _ _)).trans (StartWork.modPair _ _ _)
      · exact err.trans (StartWork.modPair _ _ _)
    · exact err.trans (StartWork.modPair _ _ _)

theorem StartWork.valveCtrlWrite {v : Nat} (valve : v < 128) (s : State) (w : Nat) : StartWork s (s.valveCtrlWrite v w) := by
  have store : StartWork s (s.ctrlStore v w) := (StartWork.setCtrl valve _ _).trans (StartWork.modValve _ _ _)
  have stop (u : State) : StartWork u (u.valveStop v) := (StartWork.setCtrl valve _ _).trans (StartWork.modValve _ _ _)
  have start (u : State) (was : Bool) : StartWork u (u.ctrlStart v was) := by
    unfold State.ctrlStart
    dsimp only
    split
    · exact StartWork.setCtrl valve _ _
    · exact (StartWork.setCtrl valve _ _).trans (StartWork.modValve _ _ _)
  rw [State.valveCtrlWrite_eq]
  split
  · exact StartWork.modValve _ _ _
  · extract_lets u x
    have first : StartWork s u := by
      simp only [u]
      split
      · exact store
      · exact store.trans (stop _)
    have second : StartWork s x := by
      simp only [x]
      split
      · split
        · exact first.trans (StartWork.modValve _ _ _)
        · exact first.trans (StartWork.modValve _ _ _)
      · exact first
    split
    · exact second.trans (start _ _)
    · exact second

theorem StartWork.startEntries (s : State) (img : Nat) (p : ManEntry → Bool) : StartWork s (s.startEntries img p) := by
  have valves : ∀ e ∈ (s.manifest img).filter p, e.target < 128 := by
    intro e member
    obtain ⟨i, -, is⟩ := List.mem_map.1 (List.mem_filter.1 member).1
    rw [← is]
    exact Nat.mod_lt _ (by decide : 0 < 2 ^ (22 + 1 - 16))
  unfold State.startEntries
  generalize (s.manifest img).filter p = es at *
  induction es generalizing s with
  | nil => exact StartWork.refl s
  | cons e es ih =>
    rw [List.foldl_cons]
    refine StartWork.trans ?_ (ih _ fun d member => valves d (List.mem_cons_of_mem _ member))
    split
    · exact StartWork.startCmd s _
    · exact StartWork.valveCtrlWrite (valves e List.mem_cons_self) s _
    · exact StartWork.refl s

/-- The release of the fault outputs (R546). -/
theorem State.primedRelease_spec (s : State) : WhWork s s.primedRelease ∧
    (s.wh.lastFault = none → s.dbg.testMode = false → s.primedRelease.wh.fault = false) ∧
    (s.wh.lastFault ≠ none ∨ s.dbg.testMode = true → s.primedRelease.wh.fault = s.wh.fault) := by
  unfold State.primedRelease
  split
  · next held =>
    refine ⟨rfl, fun none_ noTest => ?_, fun _ => rfl⟩
    rw [none_, noTest] at held
    exact absurd held (by decide)
  · next free =>
    have off : (s.modWh (fun w => { w with fault := false })).wh.fault = false := rfl
    have own := WhWork.modWh s (fun w => { w with fault := false })
    generalize s.modWh (fun w => { w with fault := false }) = v at *
    have log := LogWork.whRecord v 0x33 (2 ^ 9) 0
    have kept : (v.whRecord 0x33 (2 ^ 9) 0).wh.fault = v.wh.fault := (congrArg (fun v : State => v.wh.fault) log.eq :)
    refine ⟨own.trans log.work, fun _ _ => kept.trans off, fun held => absurd ?_ free⟩
    rcases held with fault | test
    · rw [Option.isSome_iff_ne_none.2 fault, Bool.true_or]
    · rw [test, Bool.or_true]

/-- Step 9 (R546). -/
structure PrimedStep (s u t : State) : Prop where
  mram : t.mram = { s.mram with primed := true, recovery := false, step := 9
                                primeUs := min 65535 ((s.tb.elapsed - s.mram.resetAt) / 67108864000), rerun := none }
  locked : t.locked = (s.locked || s.rwlLock)
  threads : t.threads = u.threads
  valves : t.valves = u.valves
  host : t.host = s.host
  regs : ∀ o, 0x40000 ≤ o → t.reg o = s.reg o
  release : s.wh.lastFault = none → s.dbg.testMode = false → t.wh.fault = false
  keep : s.wh.lastFault ≠ none ∨ s.dbg.testMode = true → t.wh.fault = s.wh.fault

theorem State.primedAct_spec (s : State) : PrimedStep s (s.startEntries s.mram.image (fun _ => true)) s.primedAct := by
  have start := StartWork.startEntries s s.mram.image (fun _ => true)
  have units : usUnits = 67108864000 := by decide
  unfold State.primedAct
  extract_lets img u us v w
  change StartWork s u at start
  change PrimedStep s u _
  have time : us = min 65535 ((s.tb.elapsed - s.mram.resetAt) / 67108864000) := by
    simp only [us]
    rw [start.tb, start.mram, units]
  clear_value u us
  obtain ⟨work, release, keep⟩ := u.primedRelease_spec
  have mram : v.mram = { s.mram with primed := true, recovery := false, step := 9, primeUs := us, rerun := none } := by
    rw [← start.mram, ← show u.primedRelease.mram = u.mram from (congrArg State.mram work.eq :)]
    rfl
  have kept : { v with wh := u.wh, mram := u.mram } = u := by
    let g : State → State := fun x => { x with mram := u.mram }
    exact (congrArg g work.eq :)
  have fault : v.wh.fault = u.primedRelease.wh.fault := rfl
  have lock : v.rwlLock = s.rwlLock := by
    rw [State.rwlLock, State.platWord, mram, State.rwlLock, State.platWord]
    cases s.mram.copy with
    | none => rfl
    | some c =>
      dsimp only
      rw [State.recWord, mram, State.recWord]
  rw [← fault, start.lastFault, start.dbg] at release
  rw [← fault, start.lastFault, start.dbg, start.fault] at keep
  clear_value v
  have locked : (v.locked || v.rwlLock) = (s.locked || s.rwlLock) := by
    rw [lock, ← start.locked, ← show v.locked = u.locked from (congrArg State.locked kept :)]
  have regs (o : Nat) : v.reg o = u.reg o := by rw [State.reg, show v.regs = u.regs from (congrArg State.regs kept :), State.reg]
  exact ⟨by rw [← time]; exact mram, locked,
    (congrArg State.threads kept :), (congrArg State.valves kept :), ((congrArg State.host kept :) : v.host = u.host).trans start.host,
    fun o high => (regs o).trans (start.regs o high),
    release, keep⟩

end Starting

/-! ### ACTIVE is rewritten (R550) -/

section Active

variable {s : State} {img : Nat}

theorem State.setActive_spec (s : State) (img : Nat) : ∃ body, Rewritten s (s.setActive img) body ∧
    ofBytes (body.take 4) = putBits (s.platWord 8) 0 0 img := by
  let body := toBytes 4 (putBits (s.platWord 8) 0 0 img) ++ s.platBytes 0xC 0xFF0
  have length : body.length = 0xFF4 := by rw [List.length_append, toBytes_length, s.platBytes_length]
  have small : ∀ b ∈ body, b < 256 := fun b member =>
    (List.mem_append.1 member).elim (toBytes_small _ _ b) (s.platBytes_small _ _ b)
  have word : s.platWord 8 < 2 ^ 32 := by
    unfold State.platWord
    split
    · exact readLE_lt _ _ 4
    · decide
  refine ⟨body, s.recRewrite_spec length small, ?_⟩
  rw [List.take_left' (toBytes_length 4 _)]
  refine ofBytes_word ?_
  unfold putBits bits
  omega

theorem State.setActive_active (below : img < 2) : (s.setActive img).platActive = img := by
  obtain ⟨body, spec, flags⟩ := s.setActive_spec img
  rw [State.platActive, spec.platWord (by decide) (by decide)]
  refine (congrArg (· % 2) flags).trans ?_
  unfold putBits bits
  omega

/-- A personality command completes with its record, and the MRAM unit stays (R473, R549). -/
theorem State.persDone_completed {id : Nat} {c : HCmd} (found : s.cmdById id = some c) (on : s.ringEn c.r = true)
    (current : c.gen = (s.ring c.r).gen) {cstat : Nat} (small : cstat < 256) (res res2 : Nat) :
    Completed (s.persDone id cstat res res2) c cstat res ∧ (s.persDone id cstat res res2).mram = s.mram := by
  have eq : s.persDone id cstat res res2 = s.cmdDone c cstat res res2 none := by
    unfold State.persDone
    rw [found]
  rw [eq]
  exact ⟨State.cmdDone_completed on current small res res2 none, (congrArg State.mram (CmdWork.cmdDone s c cstat res res2 none).rest :)⟩

theorem State.ringEn_congr {t : State} (regs : ∀ o, 0x40000 ≤ o → t.reg o = s.reg o) (r : Nat) : t.ringEn r = s.ringEn r := by
  rw [State.ringEn, State.ringCfg, regs _ (by unfold ringBase; omega), State.ringEn, State.ringCfg]

theorem State.cmdById_congr {t : State} (host : t.host = s.host) (id : Nat) : t.cmdById id = s.cmdById id := by
  rw [State.cmdById, host, State.cmdById]

theorem State.setActive_work (s : State) (img : Nat) : (s.setActive img).host = s.host ∧ (∀ o, (s.setActive img).reg o = s.reg o) ∧
    ∃ mem copy, (s.setActive img).mram = { s.mram with mem := mem, copy := copy } := by
  obtain ⟨body, spec, -⟩ := s.setActive_spec img
  have rest := spec.rest
  generalize s.setActive img = t at *
  have mram : { t.mram with mem := s.mram.mem, copy := s.mram.copy } = s.mram := (congrArg State.mram rest :)
  refine ⟨(congrArg State.host rest :), fun o => by rw [State.reg, show t.regs = s.regs from (congrArg State.regs rest :), State.reg],
    t.mram.mem, t.mram.copy, ?_⟩
  generalize t.mram = m at *
  generalize s.mram = n at mram ⊢
  rw [← mram]

/-- A swap in RECOVERY ends with the block primed (R547). -/
theorem exec_primed_rerun {id i : Nat} (step : s.mram.step = 8) (unprimed : s.mram.primed = false)
    (again : s.mram.rerun = some (id, i)) : exec .primed s =
      .next ((s.primedAct.setActive s.primedAct.mram.image).persDone id 0 (s.primedAct.imgVersion s.primedAct.mram.image) 0) := by
  change execPrimed s = _
  unfold execPrimed
  rw [again]
  refine State.act_of ?_
  rw [step, unprimed]
  rfl

theorem State.platActive_congr {t : State} (mram : t.mram = s.mram) : t.platActive = s.platActive :=
  congrArg (· % 2) (State.platWord_congr (congrArg MramSt.mem mram) (congrArg MramSt.copy mram) 8)

end Active

/-- Settles O49: every image is judged by the MRAM and the record in force, which neither the loads nor the zeroing change; the
entries that start threads and valves leave the MRAM unit, the host and the wellhead's faults. -/
theorem primingAndPrimed : Obligations.PrimingAndPrimed := by
  unfold Obligations.PrimingAndPrimed
  refine ⟨?first, ?lost, ?again, fun img i e s code inside => s.loadEntry_code img code inside, ?missing, ?primed, ?starts, ?rerun⟩
  case first =>
    intro c img s u ready none_ clean chosen isU isImg
    obtain ⟨stage, run⟩ := exec_priming_first ready none_ clean
    obtain ⟨judged, active, clean'⟩ := State.primeRecord_judged (u := u) clean (by rw [isU]) (by rw [isU]) (by rw [isU, chosen]) stage
    obtain ⟨primed, recovery⟩ := State.primeReady_idle ready
    have start : (s.primeRecord stage).mram.recovery = false := recovery
    obtain ⟨good, fallback, lost⟩ := State.prime_outcome clean' none_ img
    rw [judged, judged] at fallback lost
    rw [judged] at good
    rw [active, ← isImg] at run
    rw [start] at good fallback
    refine ⟨_, run, (prime_primed run).trans primed, good, fallback, fun bad worse => ?_⟩
    obtain ⟨v, w, -, -, eq⟩ := lost bad worse
    rw [eq]
    exact ⟨rfl, rfl⟩
  case lost =>
    intro s u ready none_ clean chosen isU bad worse
    obtain ⟨stage, run⟩ := exec_priming_first ready none_ clean
    obtain ⟨judged, active, clean'⟩ := State.primeRecord_judged (u := u) clean (by rw [isU]) (by rw [isU]) (by rw [isU, chosen]) stage
    obtain ⟨primed, -⟩ := State.primeReady_idle ready
    have copy : (s.primeRecord stage).mram.copy = none := chosen
    rw [State.platActive, State.platWord_none copy, Nat.zero_mod] at run
    obtain ⟨-, -, lost⟩ := State.prime_outcome clean' none_ 0
    rw [judged, judged] at lost
    obtain ⟨v, w, first, second, eq⟩ := lost bad worse
    obtain ⟨⟨n, mram⟩, step, th, lb, ⟨cells, chans, cis⟩, rest⟩ := State.primeLost_spec clean' first second copy
    rw [judged, judged, State.authEn, State.platWord_none copy] at mram
    have unprimed := (prime_primed run).trans primed
    rw [eq] at run unprimed
    have noAuth : bit 0 1 = false := rfl
    rw [noAuth] at mram
    refine ⟨_, run, by rw [mram], unprimed, step, by rw [mram], by rw [mram], by rw [mram], by rw [mram]; rfl, by rw [mram]; rfl,
      th, lb, cells, chans, cis, ?_⟩
    let g : State → State := fun x => { x with mram := s.mram }
    exact (congrArg g rest :)
  case again =>
    intro id img s again step unprimed clean good
    have run := exec_priming_again again step unprimed
    obtain ⟨done, image⟩ := State.prime_loaded clean good
    exact ⟨_, run, done, image, (prime_primed run).trans unprimed⟩
  case missing =>
    intro nclk s unprimed noRecovery early unseen first second
    refine State.act_of ?_
    have late : max s.mram.missAt s.mram.resetAt + 10 * msUnits ≤ s.tb.elapsed := by
      rw [msUnits]
      omega
    rw [unprimed, noRecovery, unseen, decide_eq_true early, decide_eq_true late]
    rfl
  case primed =>
    intro s u step unprimed none_ isU
    have run : exec .primed s = .next s.primedAct := by
      change execPrimed s = _
      unfold execPrimed
      rw [none_, step, unprimed]
      rfl
    have spec := s.primedAct_spec
    rw [← isU] at spec
    refine ⟨_, run, by rw [spec.mram], by rw [spec.mram], by rw [spec.mram], by rw [spec.mram], spec.locked, spec.threads,
      spec.valves, spec.release, spec.keep⟩
  case starts =>
    intro img x e s only kind target still quiet noPair
    have eq : s.startEntries img (fun _ => true) = s.pendStart x false := by
      rw [State.startEntries, only, List.filter_cons_of_pos rfl, List.filter_nil, List.foldl_cons, List.foldl_nil, kind, target]
      exact State.startCmd_of_stopped (by simpa [Thread.stopped] using still) quiet noPair
    rw [eq, State.pendStart, State.th_modTh_same]
    exact Option.some_ne_none _
  case rerun =>
    intro id img c s step unprimed again below found on current
    have run := exec_primed_rerun step unprimed again
    have spec := s.primedAct_spec
    have image : s.primedAct.mram.image = s.mram.image := by rw [spec.mram]
    have version : s.primedAct.imgVersion s.mram.image = s.imgVersion s.mram.image := by
      rw [State.imgVersion, State.imgWord, spec.mram, State.imgVersion, State.imgWord]
    rw [image, version] at run
    obtain ⟨host, regs, mem, copy, mram⟩ := s.primedAct.setActive_work s.mram.image
    have active := State.setActive_active (s := s.primedAct) below
    have hosts := host.trans spec.host
    rw [spec.mram] at mram
    generalize s.primedAct.setActive s.mram.image = v at *
    obtain ⟨completed, kept⟩ := State.persDone_completed (s := v) (cstat := 0) ((State.cmdById_congr hosts id).trans found)
      ((State.ringEn_congr (fun o high => (regs o).trans (spec.regs o high)) c.r).trans on)
      (by rw [State.ring, hosts]; exact current) (by decide) (s.imgVersion s.mram.image) 0
    exact ⟨_, run, by rw [kept, mram], by rw [kept, mram], (State.platActive_congr kept).trans active, completed⟩

end Sys2Proof.Machine

/-!
SUPPORT. Personalities: their commands, swaps and the return of a logical bore (R517, R549-R552), and the proof of O50.
-/

namespace Sys2Proof.Machine

/-! ### The commands (R549, R550) -/

section Commands

variable {s : State} {p : Fin 8} {op : Nat} {c : HCmd}

/-- Partition `p` gives the command `c`, in RECOVERY or not. -/
structure PersCommand (s : State) (p op : Nat) (c : HCmd) : Prop where
  front : s.host.cmds.find? (fun d => d.r == 8 * p && d.held == .fresh) = some c
  code : c.op = op
  clocked : s.up 0 = true
  enabled : s.ringEn c.r = true
  current : c.gen = (s.ring c.r).gen
  turn : s.cpPick = some p
  ready : s.cpReady = true

theorem PersCommand.of {m : MramSt} (h : Commanded { s with mram := m } p op c) : PersCommand s p op c :=
  ⟨h.front, h.code, h.clocked, h.enabled, h.current, h.turn, h.ready⟩

theorem PersCommand.runCmd (h : PersCommand s p op c) (pers : persOp op = true) (masks : List Nat) (right : Bool)
    (f : HCmd → State → State) : s.runCmd p op masks right f = .next (
      if c.clean masks then (if right then f c (s.cpTake p) else (s.cpTake p).cmdDone c 3 0 0 none)
      else (s.cpTake p).cmdDone c 6 0 0 none) := by
  rw [State.runCmd_of h.front h.code h.clocked h.turn h.ready, pers, Bool.not_true, Bool.and_false, if_neg Bool.false_ne_true]
  cases c.clean masks with
  | true => cases right with
    | true => rfl
    | false => rfl
  | false => rfl

/-- A personality command that is answered at once. -/
theorem PersCommand.done (h : PersCommand s p op c) {k : Nat} (small : k < 256) :
    Completed ((s.cpTake p).cmdDone c k 0 0 none) c k 0 ∧ ((s.cpTake p).cmdDone c k 0 0 none).mram = s.mram :=
  ⟨State.cmdDone_completed (s := s.cpTake p) h.enabled h.current small 0 0 none,
    (congrArg State.mram (CmdWork.cmdDone (s.cpTake p) c k 0 0 none).rest :)⟩

/-- PERS_LOAD once its checks are passed (R549). -/
def State.loadCmd (s : State) (c : HCmd) : State :=
  if s.persRefused (c.w 1 % 2) then s.cmdDone c 5 0 0 none
  else if c.w 2 = 0 ∨ 0x600000 < c.w 2 then s.cmdDone c 6 0 0 none
  else if s.mram.load.isSome then s
  else (((s.holdCmd c .load 0).markImg (c.w 1 % 2) true).modMram (fun m => { m with
    load := some { image := c.w 1 % 2, cmd := c.id, len := c.w 2, addr := c.w 4 + 2 ^ 32 * c.w 5, got := 0, bad := false } })).loadNext

/-- PERS_SWAP once its checks are passed (R547, R550). -/
def State.swapCmd (s : State) (c : HCmd) : State :=
  if bits (c.w 2) 9 0 = 0 ∨ 1000 < bits (c.w 2) 9 0 then s.cmdDone c 6 0 0 none
  else if s.mram.recovery then
    (if s.mram.rerun.isSome || s.mram.load.isSome then s.cmdDone c 5 0 0 none
     else (s.holdCmd c .swap 0).modMram (fun m => { m with rerun := some (c.id, c.w 1 % 2) }))
  else if !s.mram.primed || s.persRefused (c.w 1 % 2) || s.imgMarked (c.w 1 % 2) || s.imageFail (c.w 1 % 2) ≠ 0 then
    s.cmdDone c 5 0 0 none
  else (s.holdCmd c .swap 0).modMram (fun m => { m with
    swap := some { image := c.w 1 % 2, cmd := c.id, timeoutMs := bits (c.w 2) 9 0, armed := none, expired := false, timedOut := 0 } })

theorem exec_persLoad (h : PersCommand s p 0x50 c) : exec (.persLoad p) s = .next (
    if c.clean [1, 2 ^ 32 - 1, 0, 2 ^ 32 - 1, 2 ^ 32 - 1] then
      (if s.canPers p then (s.cpTake p).loadCmd c else (s.cpTake p).cmdDone c 3 0 0 none)
    else (s.cpTake p).cmdDone c 6 0 0 none) := by
  have run : exec (.persLoad p) s = s.runCmd p 0x50 [1, 0xFFFFFFFF, 0, 0xFFFFFFFF, 0xFFFFFFFF] (s.canPers p) (fun c s => s.loadCmd c) := by
    show execPersLoad p s = _
    unfold execPersLoad State.loadCmd
    rfl
  have masks : [1, 2 ^ 32 - 1, 0, 2 ^ 32 - 1, 2 ^ 32 - 1] = [1, 0xFFFFFFFF, 0, 0xFFFFFFFF, 0xFFFFFFFF] := by decide
  rw [run, masks]
  exact h.runCmd rfl _ (s.canPers p) (fun c s => s.loadCmd c)

theorem exec_persSwap (h : PersCommand s p 0x51 c) : exec (.persSwap p) s = .next (
    if c.clean [1, 0x3FF] then
      (if s.canPers p then (s.cpTake p).swapCmd c else (s.cpTake p).cmdDone c 3 0 0 none)
    else (s.cpTake p).cmdDone c 6 0 0 none) := h.runCmd rfl [1, 0x3FF] (s.canPers p) (fun c s => s.swapCmd c)

/-- Both commands pass the same checks first. -/
theorem exec_pers {i : Instr} {masks : List Nat} (row : (i, op, masks) ∈
    [(.persLoad p, 0x50, [1, 2 ^ 32 - 1, 0, 2 ^ 32 - 1, 2 ^ 32 - 1]), (.persSwap p, 0x51, [1, 0x3FF])])
    (h : PersCommand s p op c) : ∃ f : State → State, (op = 0x50 → f = (State.loadCmd · c)) ∧ (op = 0x51 → f = (State.swapCmd · c)) ∧
    exec i s = .next (if c.clean masks then (if s.canPers p then f (s.cpTake p) else (s.cpTake p).cmdDone c 3 0 0 none)
      else (s.cpTake p).cmdDone c 6 0 0 none) := by
  simp only [List.mem_cons, List.not_mem_nil, or_false, Prod.mk.injEq] at row
  rcases row with ⟨rfl, rfl, rfl⟩ | ⟨rfl, rfl, rfl⟩
  · exact ⟨_, fun _ => rfl, fun no => absurd no (by decide), exec_persLoad h⟩
  · exact ⟨_, fun no => absurd no (by decide), fun _ => rfl, exec_persSwap h⟩

theorem State.loadCmd_refused (refused : s.persRefused (c.w 1 % 2) = true) : s.loadCmd c = s.cmdDone c 5 0 0 none := if_pos refused

theorem State.loadCmd_length (free : s.persRefused (c.w 1 % 2) = false) (bad : c.w 2 = 0 ∨ 0x600000 < c.w 2) :
    s.loadCmd c = s.cmdDone c 6 0 0 none := by
  rw [State.loadCmd, free, if_neg Bool.false_ne_true, if_pos bad]

theorem State.imgMarked_markImg (s : State) {img : Nat} (v : Bool) (below : img < 2) :
    (s.markImg img v).imgMarked img = v ∧ (s.markImg img v).imgMarked (1 - img) = s.imgMarked (1 - img) := by
  rcases Nat.le_one_iff_eq_zero_or_eq_one.1 (Nat.le_of_lt_succ below) with rfl | rfl
  · exact ⟨rfl, rfl⟩
  · exact ⟨rfl, rfl⟩

theorem State.imgMarked_congr {t : State} (first : t.mram.badA = s.mram.badA) (second : t.mram.badB = s.mram.badB) (img : Nat) :
    t.imgMarked img = s.imgMarked img := by
  rw [State.imgMarked, first, second, State.imgMarked]

/-- The reading of an image starts (R549). -/
theorem State.loadCmd_start (free : s.persRefused (c.w 1 % 2) = false) (length : 1 ≤ c.w 2) (fits : c.w 2 ≤ 0x600000)
    (idle : s.mram.load = none) :
    (s.loadCmd c).mram.load = some { image := c.w 1 % 2, cmd := c.id, len := c.w 2, addr := c.w 4 + 2 ^ 32 * c.w 5, got := 0
                                     bad := false } ∧
    (s.loadCmd c).imgMarked (c.w 1 % 2) = true ∧ (s.loadCmd c).imgMarked (1 - c.w 1 % 2) = s.imgMarked (1 - c.w 1 % 2) ∧
    (s.loadCmd c).mram.mem = s.mram.mem ∧
    Asked (s.loadCmd c) 0 false (c.w 4 + 2 ^ 32 * c.w 5) (min (c.w 2) (256 - (c.w 4 + 2 ^ 32 * c.w 5) % 256)) (.load 0) ∧
    (s.loadCmd c).host.recs = s.host.recs := by
  let l : LoadSt := { image := c.w 1 % 2, cmd := c.id, len := c.w 2, addr := c.w 4 + 2 ^ 32 * c.w 5, got := 0, bad := false }
  let w := (s.holdCmd c .load 0).markImg (c.w 1 % 2) true
  let u := w.modMram (fun m => { m with load := some l })
  have eq : s.loadCmd c = u.loadNext := by
    rw [State.loadCmd, free, if_neg Bool.false_ne_true, if_neg (by omega), idle, Option.isSome_none, if_neg Bool.false_ne_true]
  have next : u.loadNext = u.ask 0 0 false (c.w 4 + 2 ^ 32 * c.w 5) (min (c.w 2) (256 - (c.w 4 + 2 ^ 32 * c.w 5) % 256)) []
      (((u.cmdById c.id).map HCmd.part).getD 0) (.load 0) := by
    unfold State.loadNext
    rw [show u.mram.load = some l from rfl]
    dsimp only
    rw [if_neg (by simp only [l, Bool.false_eq_true, false_or]; omega)]
    rfl
  obtain ⟨own, other⟩ := (s.holdCmd c .load 0).imgMarked_markImg (img := c.w 1 % 2) true (Nat.mod_lt _ (by decide))
  have mem : u.mram.mem = s.mram.mem := by
    show (if c.w 1 % 2 = 0 then _ else _ : MramSt).mem = _
    split
    · rfl
    · rfl
  rw [eq, next]
  exact ⟨rfl, own, other, mem, State.asked_ask _ _ _ _ _ _ _ _ _, rfl⟩

theorem State.swapCmd_time (bad : bits (c.w 2) 9 0 = 0 ∨ 1000 < bits (c.w 2) 9 0) : s.swapCmd c = s.cmdDone c 6 0 0 none :=
  if_pos bad

section Timed

variable (low : 1 ≤ bits (c.w 2) 9 0) (high : bits (c.w 2) 9 0 ≤ 1000)

include low high

theorem State.swapCmd_refused (normal : s.mram.recovery = false) (bad : s.mram.primed = false ∨ s.persRefused (c.w 1 % 2) = true ∨
    s.imgMarked (c.w 1 % 2) = true ∨ s.imageFail (c.w 1 % 2) ≠ 0) : s.swapCmd c = s.cmdDone c 5 0 0 none := by
  rw [State.swapCmd, if_neg (by omega), normal, if_neg Bool.false_ne_true, if_pos]
  rcases bad with off | refused | marked | fails
  · rw [off]
    simp
  · rw [refused]
    simp
  · rw [marked]
    simp
  · rw [decide_eq_true fails, Bool.or_true]

theorem State.swapCmd_live (normal : s.mram.recovery = false) (primed : s.mram.primed = true)
    (free : s.persRefused (c.w 1 % 2) = false) (unmarked : s.imgMarked (c.w 1 % 2) = false) (good : s.imageFail (c.w 1 % 2) = 0) :
    s.swapCmd c = (s.holdCmd c .swap 0).modMram (fun m => { m with
      swap := some { image := c.w 1 % 2, cmd := c.id, timeoutMs := bits (c.w 2) 9 0, armed := none, expired := false
                     timedOut := 0 } }) := by
  rw [State.swapCmd, if_neg (by omega), normal, if_neg Bool.false_ne_true, primed, free, unmarked, good, if_neg (by decide)]

theorem State.swapCmd_rerun (recovery : s.mram.recovery = true) (free : s.mram.rerun = none) (idle : s.mram.load = none) :
    s.swapCmd c = (s.holdCmd c .swap 0).modMram (fun m => { m with rerun := some (c.id, c.w 1 % 2) }) := by
  rw [State.swapCmd, if_neg (by omega), if_pos recovery, free, idle, Option.isSome_none, Option.isSome_none, if_neg (by decide)]

end Timed

end Commands

/-! ### The end of a load (R549) -/

section Loaded

variable {s : State}

/-- The check bits of a memory do not look at the MRAM unit. -/
theorem State.eccPart_modMram (s : State) (f : MramSt → MramSt) (m : Mem) (w : Nat) :
    (s.modMram f).eccPart m w = (s.eccPart m w).modMram f := by
  unfold State.eccPart State.eccPipe
  rw [show (s.modMram f).eccOf m w = s.eccOf m w from rfl]
  cases s.eccOf m w with
  | none => rfl
  | some e => cases e with
    | correctable => rfl
    | rewriting => rfl
    | uncorrectable => rfl

theorem State.eccWrite_modMram (s : State) (f : MramSt → MramSt) (m : Mem) (a n : Nat) :
    (s.modMram f).eccWrite m a n = (s.eccWrite m a n).modMram f := by
  unfold State.eccWrite
  rw [show (s.modMram f).ecc = s.ecc from rfl]
  split
  · rfl
  · refine List.foldl_hom (State.modMram · f) fun s w => ?_
    split
    · rfl
    · exact s.eccPart_modMram f m w

/-- A load that is over does not change the copy of its table. -/
theorem State.ctCopy_dropLoad (s : State) (img : Nat) :
    (s.modMram (fun m => { m with load := none })).ctCopy img = (s.ctCopy img).modMram (fun m => { m with load := none }) := by
  have put (a : Nat) (bs : List Nat) : (s.modMram (fun m => { m with load := none })).mramPut a bs =
      (s.mramPut a bs).modMram (fun m => { m with load := none }) := by
    rw [State.mramPut, State.eccWrite_modMram, State.eccWrite_modMram, State.mramPut, State.eccWrite_modMram]
    rfl
  unfold State.ctCopy
  rw [show (s.modMram (fun m => { m with load := none })).headerOk img = s.headerOk img from rfl]
  split
  · exact put _ _
  · rfl

/-- The copy of a table changes the bytes of the MRAM alone, beside marks and events (R549). -/
theorem State.ctCopy_keeps (s : State) (img : Nat) : (s.ctCopy img).host = s.host ∧ (s.ctCopy img).regs = s.regs ∧
    ∃ mem, (s.ctCopy img).mram = { s.mram with mem := mem } := by
  unfold State.ctCopy
  split
  · rw [State.mramPut, State.eccWrite_modMram]
    have rest := s.eccWrite_rest .mram (ctBase img) (s.imgBytes img (s.imgWord img 0x1C) (s.ctLen img)).length
    generalize s.eccWrite .mram (ctBase img) (s.imgBytes img (s.imgWord img 0x1C) (s.ctLen img)).length = t at *
    have mram : t.mram = s.mram := (congrArg State.mram rest :)
    exact ⟨(congrArg State.host rest :), (congrArg State.regs rest :), _, congrArg (fun m : MramSt => { m with
      mem := writeBytes m.mem (ctBase img) (s.imgBytes img (s.imgWord img 0x1C) (s.ctLen img)) }) mram⟩
  · exact ⟨rfl, rfl, s.mram.mem, rfl⟩

/-- The image has been read and its table copied: it is judged (R549). -/
def State.loadJudged (d : State) (b : Bool) (l : LoadSt) : State :=
  let v := (d.modMram (fun m => { m with load := none })).modMram (fun m => { m with unauth := m.unauth || b })
  if v.imageFail l.image = 0 then (v.markImg l.image false).persDone l.cmd 0 (v.imgVersion l.image) (v.imgLen l.image)
  else v.persDone l.cmd 10 0 0

theorem exec_persLoadDone {l : LoadSt} (loads : s.mram.load = some l) : exec .persLoadDone s = .next (
    if l.bad then (s.modMram (fun m => { m with load := none })).persDone l.cmd 11 0 0
    else if l.got < l.len then s else (s.ctCopy l.image).loadJudged (!s.authEn) l) := by
  have run : exec .persLoadDone s = execPersLoadDone s := rfl
  rw [run]
  unfold execPersLoadDone
  rw [loads]
  dsimp only
  rw [State.ctCopy_dropLoad]
  split
  · rfl
  · split
    · rfl
    · rfl

section Judged

variable {l : LoadSt} {c : HCmd} (found : s.cmdById l.cmd = some c) (on : s.ringEn c.r = true) (current : c.gen = (s.ring c.r).gen)

include found on current

/-- What a load's end completes with, given a state that has the host and the registers of its start. -/
theorem State.persDone_of {v : State} (host : v.host = s.host) (regs : v.regs = s.regs) {cstat : Nat} (small : cstat < 256)
    (res res2 : Nat) : Completed (v.persDone l.cmd cstat res res2) c cstat res ∧ (v.persDone l.cmd cstat res res2).mram = v.mram := by
  refine State.persDone_completed ((State.cmdById_congr host _).trans found)
    ((State.ringEn_congr (fun o _ => ?_) c.r).trans on) ?_ small res res2
  · rw [State.reg, regs, State.reg]
  · rw [State.ring, host]
    exact current

omit found on current

theorem State.imageFail_dropLoad (d : State) (b : Bool) (img : Nat) :
    ((d.modMram (fun m => { m with load := none })).modMram (fun m => { m with unauth := m.unauth || b })).imageFail img =
      d.imageFail img :=
  (State.judged_congr (s := d) (fun _ _ => rfl) rfl rfl img).1

include found on current

section After

variable {d : State} (host : d.host = s.host) (regs : d.regs = s.regs) (b : Bool)

include host regs

theorem State.loadJudged_good (good : d.imageFail l.image = 0) :
    Completed (d.loadJudged b l) c 0 (d.imgVersion l.image) ∧ (d.loadJudged b l).mram.load = none ∧
    (d.loadJudged b l).imgMarked l.image = false := by
  let v := (d.modMram (fun m => { m with load := none })).modMram (fun m => { m with unauth := m.unauth || b })
  have eq : d.loadJudged b l = (v.markImg l.image false).persDone l.cmd 0 (v.imgVersion l.image) (v.imgLen l.image) :=
    if_pos ((State.imageFail_dropLoad d b _).trans good)
  obtain ⟨completed, mram⟩ := State.persDone_of found on current (v := v.markImg l.image false) (cstat := 0) host regs (by decide)
    (v.imgVersion l.image) (v.imgLen l.image)
  rw [eq]
  refine ⟨completed, ?_, ?_⟩
  · rw [mram]
    show (if l.image = 0 then _ else _ : MramSt).load = none
    split
    · rfl
    · rfl
  · rw [State.imgMarked, mram]
    show (if l.image = 0 then (if l.image = 0 then _ else _ : MramSt).badA else (if l.image = 0 then _ else _ : MramSt).badB) = false
    split
    · rfl
    · rfl

theorem State.loadJudged_bad (fails : d.imageFail l.image ≠ 0) (first : d.mram.badA = s.mram.badA) (second : d.mram.badB = s.mram.badB) :
    Completed (d.loadJudged b l) c 10 0 ∧ (d.loadJudged b l).mram.load = none ∧
    (d.loadJudged b l).imgMarked l.image = s.imgMarked l.image := by
  let v := (d.modMram (fun m => { m with load := none })).modMram (fun m => { m with unauth := m.unauth || b })
  have eq : d.loadJudged b l = v.persDone l.cmd 10 0 0 := if_neg ((State.imageFail_dropLoad d b _).symm ▸ fails)
  obtain ⟨completed, mram⟩ := State.persDone_of found on current (v := v) (cstat := 10) host regs (by decide) 0 0
  rw [eq]
  exact ⟨completed, by rw [mram]; rfl, State.imgMarked_congr ((congrArg MramSt.badA mram).trans first)
    ((congrArg MramSt.badB mram).trans second) _⟩

end After

end Judged

/-- A swap that is complete (R550). -/
theorem exec_persSwapDone {w : SwapSt} (swaps : s.mram.swap = some w) (armed : w.armed ≠ none) (complete : s.swapComplete w.image = true) :
    exec .persSwapDone s = .next (((s.setActive w.image).modMram (fun m => { m with swap := none })).persDone w.cmd 0
      (s.imgVersion w.image) w.timedOut) := by
  have run : exec .persSwapDone s = execPersSwapDone s := rfl
  rw [run]
  unfold execPersSwapDone
  rw [swaps]
  refine State.act_of ?_
  rw [Option.isSome_iff_ne_none.2 armed, complete]
  rfl

end Loaded

/-! ### The cut-over of a thread (R551, R552) -/

section CutOver

variable {s : State} {x : Nat}

theorem State.bankSettle_rest (s : State) (n : Nat) : { s.bankSettle n with threads := s.threads, lbs := s.lbs } = s := by
  let g : State → State := fun t => { t with threads := s.threads, lbs := s.lbs }
  have kept : g (s.bankSettle n) = g s := by
    unfold State.bankSettle
    split
    · exact foldl_rest g (fun t q => t.modTh (16 * n + q) (fun u => { u with newBank := false })) (fun _ _ => rfl) _ _
    · rfl
  exact kept

theorem State.bankSettle_other (s : State) {n y : Nat} (other : y / 16 ≠ n) : (s.bankSettle n).th y = s.th y := by
  unfold State.bankSettle
  split
  · suffices kept : ∀ (l : List Nat) (u : State), (∀ q ∈ l, q < 16) →
        (l.foldl (fun s q => s.modTh (16 * n + q) (fun t => { t with newBank := false })) u).th y = u.th y from
      kept _ _ (fun q member => List.mem_range.1 member)
    intro l
    induction l with
    | nil => exact fun _ _ => rfl
    | cons q l ih =>
      intro u small
      have below := small q List.mem_cons_self
      rw [List.foldl_cons, ih _ fun q member => small q (List.mem_cons_of_mem _ member), State.th_modTh, if_neg (by omega)]
  · rfl

/-- The last of the sixteen threads of a logical bore flips its bank (R551). -/
theorem State.bankSettle_flips (s : State) {n : Nat} (all : ∀ q, q < 16 → (s.th (16 * n + q)).newBank = true) :
    ((s.bankSettle n).lb n).bank = !(s.lb n).bank := by
  unfold State.bankSettle
  rw [if_pos (List.all_eq_true.2 fun q member => all q (List.mem_range.1 member))]
  have lbs := foldl_rest (fun t : State => t.lbs) (fun t q => t.modTh (16 * n + q) (fun u => { u with newBank := false })) (fun _ _ => rfl)
    (List.range 16) (s.modLb n (fun b => { b with bank := !b.bank }))
  rw [State.lb_of_lbs lbs, State.lb_modLb_same]

theorem State.cutTo_rest (s : State) (x : Nat) (pc : BitVec 18) : { s.cutTo x pc with threads := s.threads, lbs := s.lbs } = s := by
  let g : State → State := fun t => { t with threads := s.threads, lbs := s.lbs }
  exact (congrArg g (State.bankSettle_rest (s.modTh x _) (lbOf x)) :)

/-- A thread that cuts over goes on at `pc` (R551). -/
theorem State.cutTo_self (s : State) (x : Nat) (pc : BitVec 18) : ∃ b, (s.cutTo x pc).th x =
    { s.th x with cutOver := none, newBank := b, pc := pc, fetched := [] } := by
  have kept := State.bankSettle_th (s.modTh x (fun t => { t with cutOver := none, newBank := true, pc := pc, fetched := [] })) (lbOf x) x
  rw [State.th_modTh_same] at kept
  refine ⟨((s.cutTo x pc).th x).newBank, ?_⟩
  exact (congrArg (fun u : Thread => { u with newBank := ((s.cutTo x pc).th x).newBank }) kept :)

theorem State.cutTo_th (s : State) (x : Nat) (pc : BitVec 18) {y : Nat} (other : y ≠ x) : ∃ b, (s.cutTo x pc).th y =
    { s.th y with newBank := b } := by
  have kept := State.bankSettle_th (s.modTh x (fun t => { t with cutOver := none, newBank := true, pc := pc, fetched := [] })) (lbOf x) y
  rw [State.th_modTh, if_neg (Ne.symm other)] at kept
  refine ⟨((s.cutTo x pc).th y).newBank, ?_⟩
  exact (congrArg (fun u : Thread => { u with newBank := ((s.cutTo x pc).th y).newBank }) kept :)

theorem State.cutTo_far (s : State) (x : Nat) (pc : BitVec 18) {y : Nat} (far : y / 16 ≠ x / 16) : (s.cutTo x pc).th y = s.th y := by
  rw [State.cutTo, State.bankSettle_other _ (by exact far), State.th_modTh, if_neg (by rintro rfl; exact far rfl)]

theorem State.cutTo_flips (s : State) (x : Nat) (pc : BitVec 18)
    (others : ∀ q, q < 16 → 16 * (x / 16) + q ≠ x → (s.th (16 * (x / 16) + q)).newBank = true) :
    ((s.cutTo x pc).lb (x / 16)).bank = !(s.lb (x / 16)).bank := by
  refine State.bankSettle_flips (s.modTh x (fun t => { t with cutOver := none, newBank := true, pc := pc, fetched := [] }))
    (n := x / 16) fun q small => ?_
  rw [State.th_modTh]
  split
  · rfl
  · next other => exact others q small (Ne.symm other)

/-- The turn in which a thread cuts over (R551). -/
def State.cutTurn (s : State) (x : Nat) (n : BitVec 18) : State :=
  if n = 0x3FFFF#18 then (((s.spendTurn x).stopped x 4).cutTo x n).pairSettle x else ((s.spendTurn x).cutTo x n).fetchTurn x

theorem exec_threadCutOver {s : State} {x : Fin 128} {o n : BitVec 18} (waits : (s.th x).cutOver = some (o, n))
    (here : (s.th x).pc = o) (turn : s.hasTurn x .issue = true) : exec (.threadCutOver x) s = .next (s.cutTurn x n) := by
  change execThreadCutOver x s = _
  unfold execThreadCutOver
  rw [waits]
  refine State.act_of ?_
  rw [turn, State.cutDue, waits, Option.map_some, Option.getD_some, here, beq_self_eq_true]
  rfl

/-- A thread that cuts over to 0x3_FFFF stops there (R551). -/
theorem State.cutTurn_stop (s : State) (x : Nat) : ∃ b, ((s.cutTurn x 0x3FFFF#18).th x) =
    { (s.spendTurn x).stopped x 4 |>.th x with cutOver := none, newBank := b, pc := 0x3FFFF#18, fetched := [] } := by
  rw [State.cutTurn, if_pos rfl, State.pairSettle_th]
  exact State.cutTo_self _ _ _

theorem State.cutTurn_go (s : State) (x : Nat) {n : BitVec 18} (goes : n ≠ 0x3FFFF#18) : ∃ b l, ((s.cutTurn x n).th x) =
    { s.th x with turns := (s.th x).turns + 1, stalled := false, cutOver := none, newBank := b, pc := n, fetched := l } := by
  obtain ⟨b, self⟩ := (s.spendTurn x).cutTo_self x n
  rw [State.cutTurn, if_neg goes, State.fetchTurn, State.fetchBytes_self, self, State.spendTurn_self]
  exact ⟨b, _, rfl⟩

theorem State.cutTurn_far (s : State) (x : Nat) (n : BitVec 18) {y : Nat} (far : y / 16 ≠ x / 16) : (s.cutTurn x n).th y = s.th y := by
  have other : y ≠ x := by
    rintro rfl
    exact far rfl
  unfold State.cutTurn
  split
  · rw [State.pairSettle_th, State.cutTo_far _ _ _ far, State.stopped, State.th_modTh, if_neg (Ne.symm other), State.spendTurn_th _ _ _ other]
  · rw [State.fetchTurn, State.fetchBytes_th _ _ _ _ _ other, State.cutTo_far _ _ _ far, State.spendTurn_th _ _ _ other]

theorem State.cutTurn_flips (s : State) (x : Nat) (n : BitVec 18)
    (others : ∀ q, q < 16 → 16 * (x / 16) + q ≠ x → (s.th (16 * (x / 16) + q)).newBank = true) :
    ((s.cutTurn x n).lb (x / 16)).bank = !(s.lb (x / 16)).bank := by
  have spent : ((s.spendTurn x).lb (x / 16)).bank = (s.lb (x / 16)).bank :=
    (congrArg LBore.bank (s.spendTurn_lb_self x) :)
  unfold State.cutTurn
  split
  · have lbs (u : State) : (u.pairSettle x).lbs = u.lbs := (congrArg State.lbs (u.pairSettle_rest x) :)
    rw [State.lb_of_lbs (lbs _), State.cutTo_flips _ _ _ fun q small other => ?_]
    · exact congrArg _ spent
    · rw [State.stopped, State.th_modTh, if_neg (Ne.symm other), State.spendTurn_th _ _ _ other]
      exact others q small other
  · rw [State.fetchTurn, State.fetchBytes_lb, State.cutTo_flips _ _ _ fun q small other => ?_, spent]
    rw [State.spendTurn_th _ _ _ other]
    exact others q small other

end CutOver

/-! ### Arming and its timeout (R550-R552) -/

section Arming

/-- What an armed thread waits for: its re-entry point, where it runs (R551). -/
def State.armPair (s : State) (img x : Nat) : Option (BitVec 18 × BitVec 18) :=
  if (s.th x).running then (s.reentry img x).map (fun e => (BitVec.ofNat 18 e.1, BitVec.ofNat 18 e.2)) else none

theorem State.reentry_congr {s t : State} (mem : t.mram.mem = s.mram.mem) (img x : Nat) : t.reentry img x = s.reentry img x := by
  have word (o : Nat) : t.imgWord img o = s.imgWord img o := by rw [State.imgWord, mem, State.imgWord]
  have entry : t.manEntry img = s.manEntry img := by
    funext i
    simp only [State.manEntry, word]
  rw [State.reentry, State.manifest, word, entry]
  rfl

/-- From `s` to `t` the arming of thread `x` alone. -/
structure ArmStep (img x : Nat) (s t : State) : Prop where
  mem : t.mram = s.mram
  same (y : Nat) : (t.th y).pc = (s.th y).pc ∧ (t.th y).running = (s.th y).running
  self : (t.th x).cutOver = s.armPair img x
  other (y : Nat) (other : y ≠ x) : (t.th y).cutOver = (s.th y).cutOver

theorem ArmStep.of_cutTo {s : State} {img x : Nat} (none_ : s.armPair img x = none) : ArmStep img x s (s.cutTo x (s.th x).pc) := by
  obtain ⟨b, self⟩ := s.cutTo_self x (s.th x).pc
  refine ⟨(congrArg State.mram (s.cutTo_rest x (s.th x).pc) :), fun y => ?_, by rw [self, none_], fun y other => ?_⟩
  · by_cases here : y = x
    · subst here
      rw [self]
      exact ⟨rfl, rfl⟩
    · obtain ⟨b, far⟩ := s.cutTo_th x (s.th x).pc here
      rw [far]
      exact ⟨rfl, rfl⟩
  · obtain ⟨b, far⟩ := s.cutTo_th x (s.th x).pc other
    rw [far]

theorem ArmStep.armThread (s : State) (img x : Nat) : ArmStep img x s (s.armThread img x) := by
  rw [State.armThread]
  cases point : s.reentry img x with
  | none => exact .of_cutTo (by rw [State.armPair, point, Option.map_none, ite_self])
  | some e =>
    dsimp only
    split
    · next runs =>
      refine ⟨rfl, fun y => ?_, ?_, fun y other => ?_⟩
      · rw [State.th_modTh]
        split
        · next here => exact here ▸ ⟨rfl, rfl⟩
        · exact ⟨rfl, rfl⟩
      · rw [State.th_modTh_same, State.armPair, if_pos runs, point, Option.map_some]
      · rw [State.th_modTh, if_neg (Ne.symm other)]
    · next rests => exact .of_cutTo (by rw [State.armPair, if_neg rests])

theorem ArmStep.pair (h : ArmStep img x s t) (y : Nat) : t.armPair img y = s.armPair img y := by
  rw [State.armPair, State.armPair, State.reentry_congr (congrArg MramSt.mem h.mem), (h.same y).2]

theorem State.armThreads (img : Nat) (l : List Nat) (s : State) :
    (l.foldl (fun u x => u.armThread img x) s).mram = s.mram ∧
    ∀ y, ((l.foldl (fun u x => u.armThread img x) s).th y).pc = (s.th y).pc ∧
      ((l.foldl (fun u x => u.armThread img x) s).th y).cutOver = if y ∈ l then s.armPair img y else (s.th y).cutOver := by
  induction l generalizing s with
  | nil => exact ⟨rfl, fun y => ⟨rfl, (if_neg List.not_mem_nil).symm⟩⟩
  | cons x l ih =>
    have step := ArmStep.armThread s img x
    obtain ⟨mram, threads⟩ := ih (s.armThread img x)
    refine ⟨mram.trans step.mem, fun y => ?_⟩
    obtain ⟨pc, cut⟩ := threads y
    refine ⟨pc.trans (step.same y).1, cut.trans ?_⟩
    rw [step.pair]
    by_cases later : y ∈ l
    · rw [if_pos later, if_pos (List.mem_cons_of_mem _ later)]
    · rw [if_neg later]
      by_cases here : y = x
      · rw [if_pos (here ▸ List.mem_cons_self), here]
        exact step.self
      · rw [if_neg (by rw [List.mem_cons]; exact not_or.2 ⟨here, later⟩), step.other y here]

/-- What loads the standby banks and arms the valves leaves the threads and the MRAM. -/
theorem State.swapEntry_keeps (s : State) (img : Nat) (e : ManEntry) :
    ((s.swapEntry img e).mram, (s.swapEntry img e).threads) = (s.mram, s.threads) := by
  have code (lb bank a : Nat) (bs : List Nat) : ((s.codePut lb bank a bs).mram, (s.codePut lb bank a bs).threads) = (s.mram, s.threads) := by
    rw [State.codePut]
    exact (congrArg (fun t : State => (t.mram, t.threads)) (State.eccWrite_rest (s.modLb lb _) (.code lb bank) a bs.length) :)
  unfold State.swapEntry
  dsimp only
  split
  · exact code _ _ _ _
  · rfl
  · rfl

/-- The standby banks loaded and the valves armed (R550). -/
def State.standby (s : State) (img : Nat) : State :=
  (s.swapValves img).foldl (fun u e => u.progSelWrite e.target (bits e.w1 9 8 + 2 ^ 8 * bits e.w1 5 0))
    ((s.manifest img).foldl (fun u e => u.swapEntry img e) s)

theorem State.standby_keeps (s : State) (img : Nat) :
    ((s.standby img).mram, (s.standby img).threads) = (s.mram, s.threads) := by
  let g : State → MramSt × Tbl Thread := fun t => (t.mram, t.threads)
  have valves (l : List ManEntry) (u : State) :
      g (l.foldl (fun u e => u.progSelWrite e.target (bits e.w1 9 8 + 2 ^ 8 * bits e.w1 5 0)) u) = g u :=
    foldl_rest g (fun u e => u.progSelWrite e.target (bits e.w1 9 8 + 2 ^ 8 * bits e.w1 5 0)) (fun _ _ => rfl) l u
  exact (valves _ _).trans (foldl_rest g _ (fun u e => u.swapEntry_keeps img e) _ _)

theorem exec_swapArmed {s : State} {w : SwapSt} (swaps : s.mram.swap = some w) (fresh : w.armed = none) :
    exec .swapArmed s = .next ((List.range 128).foldl (fun u x => u.armThread w.image x)
      ((s.standby w.image).modMram (fun m => { m with swap := some { w with armed := some s.tb.elapsed } }))) := by
  change execSwapArmed s = _
  unfold execSwapArmed
  rw [swaps]
  exact State.act_of (by rw [fresh]; rfl)

/-- What the timeout makes of a thread that has not cut over (R552). -/
def Expired (u v : Thread) : Prop := ∀ o n, u.cutOver = some (o, n) →
  (u.running = true → v.stopReq ≠ .none ∧ v.cutOver = some (o, n)) ∧
  (u.running = false → v.cutOver = none ∧ v.pc = n ∧ v.stopCause = 4)

/-- The bank in use aside, the threads are one. -/
def SameThread (u v : Thread) : Prop := ∃ b, v = { u with newBank := b }

theorem SameThread.refl (u : Thread) : SameThread u u := ⟨u.newBank, rfl⟩

theorem SameThread.trans {u v w : Thread} (h : SameThread u v) (k : SameThread v w) : SameThread u w := by
  obtain ⟨b, rfl⟩ := h
  obtain ⟨c, rfl⟩ := k
  exact ⟨c, rfl⟩

theorem SameThread.expired {u v w : Thread} (h : SameThread u v) (k : Expired v w) : Expired u w := by
  obtain ⟨b, rfl⟩ := h
  exact k

theorem Expired.same {u v w : Thread} (h : Expired u v) (k : SameThread v w) : Expired u w := by
  obtain ⟨b, rfl⟩ := k
  exact h

/-- From `s` to `t` the timeout of thread `x` alone. -/
structure ExpireStep (x : Nat) (s t : State) : Prop where
  mem : t.mram = s.mram
  valves : t.valves = s.valves
  self : Expired (s.th x) (t.th x)
  other (y : Nat) (other : y ≠ x) : SameThread (s.th y) (t.th y)

theorem ExpireStep.expireThread {s : State} (expired : s.swapExpired = true) (x : Nat) : ExpireStep x s (s.expireThread x) := by
  rw [State.expireThread]
  cases wait : (s.th x).cutOver with
  | none =>
    rw [Option.isNone_none, if_pos rfl]
    exact ⟨rfl, rfl, fun o n here => (Option.some_ne_none _ (here.symm.trans wait)).elim, fun y _ => .refl _⟩
  | some c =>
    rw [Option.isNone_some, if_neg Bool.false_ne_true]
    cases runs : (s.th x).running with
    | true =>
      rw [if_pos rfl]
      refine ⟨rfl, rfl, fun o n here => ⟨fun _ => ?_, fun rests => ?_⟩, fun y other => ?_⟩
      · rw [State.askStop_th, if_pos rfl]
        refine ⟨?_, here⟩
        dsimp only
        split
        · exact StopReq.noConfusion
        · next h => exact fun none_ => h (.inl none_)
      · exact (Bool.false_ne_true (rests.symm.trans runs)).elim
      · rw [State.askStop_th, if_neg (Ne.symm other)]
        exact .refl _
    | false =>
      rw [if_neg Bool.false_ne_true, State.lateCut, State.th_modTh_same]
      dsimp only
      rw [wait]
      dsimp only
      rw [show (s.modTh x (fun t => { t with stopCause := 4 })).swapExpired = true from expired, if_pos rfl]
      obtain ⟨b, self⟩ := State.cutTo_self (s.modTh x (fun t => { t with stopCause := 4 })) x c.2
      refine ⟨(congrArg State.mram (State.cutTo_rest (s.modTh x _) x c.2) :), (congrArg State.valves (State.cutTo_rest (s.modTh x _) x c.2) :),
        fun o n here => ⟨fun busy => ?_, fun _ => ?_⟩, fun y other => ?_⟩
      · exact (Bool.false_ne_true (runs.symm.trans busy)).elim
      · rw [wait] at here
        rw [self, State.th_modTh_same]
        exact ⟨rfl, congrArg Prod.snd (Option.some.inj here), rfl⟩
      · obtain ⟨b, far⟩ := State.cutTo_th (s.modTh x (fun t => { t with stopCause := 4 })) x c.2 other
        rw [far, State.th_modTh, if_neg (Ne.symm other)]
        exact ⟨b, rfl⟩

theorem State.expireThreads {l : List Nat} (once : l.Nodup) {s : State} (expired : s.swapExpired = true) :
    (l.foldl (fun u x => u.expireThread x) s).mram = s.mram ∧ (l.foldl (fun u x => u.expireThread x) s).valves = s.valves ∧
    ∀ y, (y ∈ l → Expired (s.th y) ((l.foldl (fun u x => u.expireThread x) s).th y)) ∧
      (y ∉ l → SameThread (s.th y) ((l.foldl (fun u x => u.expireThread x) s).th y)) := by
  induction l generalizing s with
  | nil => exact ⟨rfl, rfl, fun y => ⟨fun no => (List.not_mem_nil no).elim, fun _ => .refl _⟩⟩
  | cons x l ih =>
    obtain ⟨new, once⟩ := List.nodup_cons.1 once
    have step := ExpireStep.expireThread expired x
    obtain ⟨mem, valves, threads⟩ := ih once (s := s.expireThread x) (by rw [State.swapExpired, step.mem]; exact expired)
    refine ⟨mem.trans step.mem, valves.trans step.valves, fun y => ?_⟩
    obtain ⟨late, rest⟩ := threads y
    by_cases here : y = x
    · subst here
      exact ⟨fun _ => step.self.same (rest new), fun no => (no List.mem_cons_self).elim⟩
    · refine ⟨fun member => (step.other y here).expired (late ((List.mem_cons.1 member).resolve_left here)), fun no => ?_⟩
      exact (step.other y here).trans (rest fun member => no (List.mem_cons_of_mem _ member))

theorem State.escalate_valve (s : State) (v y : Nat) : ((s.escalate v).valve y).swap =
    if y = v then (s.valve y).swap.map (fun r => { r with mode := 3 }) else (s.valve y).swap := by
  rw [State.escalate]
  split
  · rw [State.valve_modValve]
    by_cases here : y = v
    · rw [if_pos here.symm, if_pos here, here]
    · rw [if_neg (Ne.symm here), if_neg here]
  · next none_ =>
    split
    · next here =>
      rw [here, Option.not_isSome_iff_eq_none.1 none_]
      rfl
    · rfl

theorem State.escalate_valves {l : List Nat} (once : l.Nodup) (s : State) (v : Nat) :
    ((l.foldl (fun u v => u.escalate v) s).valve v).swap =
      if v ∈ l then (s.valve v).swap.map (fun r => { r with mode := 3 }) else (s.valve v).swap := by
  induction l generalizing s with
  | nil => exact (if_neg List.not_mem_nil).symm
  | cons x l ih =>
    obtain ⟨new, once⟩ := List.nodup_cons.1 once
    rw [List.foldl_cons, ih once, State.escalate_valve]
    by_cases here : v = x
    · subst here
      rw [if_neg new, if_pos rfl, if_pos List.mem_cons_self]
    · rw [if_neg here]
      simp only [List.mem_cons, here, false_or]

theorem State.escalate_rest (s : State) (v : Nat) : { s.escalate v with valves := s.valves } = s := by
  rw [State.escalate]
  split <;> rfl

theorem exec_swapTimeout {s : State} {w : SwapSt} {a : Nat} (swaps : s.mram.swap = some w) (armed : w.armed = some a)
    (fresh : w.expired = false) (late : a + w.timeoutMs * 67108864000000 ≤ s.tb.elapsed) :
    exec .swapTimeout s = .next ((List.range 128).foldl (fun u v => u.escalate v)
      (((List.range 128).filter (fun x => (s.th x).cutOver.isSome)).foldl (fun u x => u.expireThread x)
        (s.modMram (fun m => { m with swap := some { w with
          expired := true, timedOut := ((List.range 128).filter (fun x => (s.th x).cutOver.isSome)).length } })))) := by
  change execSwapTimeout s = _
  unfold execSwapTimeout
  rw [swaps]
  dsimp only
  rw [armed]
  refine State.act_of ?_
  rw [fresh, msUnits, decide_eq_true late]
  rfl

end Arming

/-! ### The return of a logical bore (R517) -/

section Returned

/-- From `s` to `t` the physical bores stay, and which logical bores are out of service. -/
structure Homed (s t : State) : Prop where
  pbs : t.pbs = s.pbs
  shed (n : Nat) : (t.lb n).shed = (s.lb n).shed

theorem Homed.of_rest {s t : State} (pbs : t.pbs = s.pbs) (lbs : t.lbs = s.lbs) : Homed s t :=
  ⟨pbs, fun _ => by rw [State.lb_of_lbs lbs]⟩

theorem Homed.refl (s : State) : Homed s s := .of_rest rfl rfl

theorem Homed.trans {s t u : State} (h : Homed s t) (k : Homed t u) : Homed s u :=
  ⟨k.pbs.trans h.pbs, fun n => (k.shed n).trans (h.shed n)⟩

theorem Homed.modLb (s : State) (n : Nat) (f : LBore → LBore) (keeps : (f (s.lb n)).shed = (s.lb n).shed) : Homed s (s.modLb n f) := by
  refine ⟨rfl, fun m => ?_⟩
  rw [State.lb_modLb]
  split
  · next here => rw [keeps, here]
  · rfl

theorem Homed.modTh (s : State) (x : Nat) (f : Thread → Thread) : Homed s (s.modTh x f) := .of_rest rfl rfl

theorem Homed.foldl {α : Type} {f : State → α → State} (step : ∀ s a, Homed s (f s a)) (l : List α) (s : State) :
    Homed s (l.foldl f s) := by
  induction l generalizing s with
  | nil => exact .refl s
  | cons a l ih => exact (step s a).trans (ih (f s a))

theorem Homed.eccWrite (s : State) (m : Mem) (a n : Nat) : Homed s (s.eccWrite m a n) :=
  .of_rest (congrArg State.pbs (s.eccWrite_rest m a n) :) (congrArg State.lbs (s.eccWrite_rest m a n) :)

theorem Homed.setFlag (s : State) (x a : Nat) (v : Bool) : Homed s (s.setFlag x a v) :=
  .of_rest (congrArg State.pbs (s.setFlag_rest x a v) :) (congrArg State.lbs (s.setFlag_rest x a v) :)

theorem Homed.loadEntry (s : State) (img : Nat) (e : ManEntry) : Homed s (s.loadEntry img e) := by
  have code (lb bank a : Nat) (bs : List Nat) : Homed s (s.codePut lb bank a bs) := by
    refine (Homed.modLb s lb _ ?_).trans (.eccWrite _ _ _ _)
    unfold LBore.setCode
    split
    · rfl
    · rfl
  have well (x a n v : Nat) : Homed s (s.wellPut x a n v) := (Homed.modTh s x _).trans (.eccWrite _ _ _ _)
  have res (lb a n v : Nat) : Homed s (s.resPut lb a n v) := (Homed.modLb s lb _ rfl).trans (.eccWrite _ _ _ _)
  unfold State.loadEntry
  dsimp only
  split
  · exact code _ _ _ _
  · split
    · exact .refl s
    · exact well _ _ _ _
  · split
    · exact .refl s
    · exact res _ _ _ _
  · exact .of_rest rfl rfl
  · exact .refl s

theorem Homed.pairSettle (s : State) (x : Nat) : Homed s (s.pairSettle x) :=
  .of_rest (congrArg State.pbs (s.pairSettle_rest x) :) (congrArg State.lbs (s.pairSettle_rest x) :)

theorem Homed.cancelStart (s : State) (x : Nat) : Homed s (s.cancelStart x) := by
  unfold State.cancelStart
  extract_lets u v
  have second : Homed s v := by
    simp only [v]
    split
    · exact .of_rest rfl rfl
    · exact .of_rest rfl rfl
  exact second.trans (.pairSettle v x)

theorem Homed.threadReset (s : State) (x : Nat) : Homed s (s.threadReset x) := by
  unfold State.threadReset
  extract_lets done u v w
  have second : Homed s v := (Homed.modTh s x _).trans (.foldl (fun t a => .setFlag t x a false) done u)
  have third : Homed s w := by
    simp only [w]
    split
    · exact (second.trans (.modLb v _ _ rfl)).trans (.setFlag _ _ _ _)
    · exact second
  refine third.trans ?_
  generalize w = w
  exact .of_rest (congrArg State.pbs (w.abandon_rest _) :) (congrArg State.lbs (w.abandon_rest _) :)

theorem Homed.start {s t : State} (h : StartWork s t) : Homed s t :=
  .of_rest (congrArg State.pbs h.eq :) (congrArg State.lbs h.eq :)

theorem Homed.threadCmd (s : State) (x cmd : Nat) : Homed s (s.threadCmd x cmd) := by
  have err : Homed s (s.cmdErr x) := .modTh _ _ _
  unfold State.threadCmd
  split
  · exact .refl s
  · exact .start (.startCmd s x)
  · unfold State.stopCmd
    dsimp only
    split
    · exact .modTh _ _ _
    · split
      · exact err
      · split
        · exact (Homed.cancelStart s x).trans (.modTh _ _ _)
        · exact .refl s
  · unfold State.stepCmd
    dsimp only
    split
    · exact .modTh _ _ _
    · exact err
  · unfold State.resetCmd
    dsimp only
    split
    · exact .modTh _ _ _
    · split
      · exact (Homed.cancelStart s x).trans (.threadReset _ x)
      · exact err
  · exact err

theorem Homed.tctrlWrite (s : State) (x w : Nat) : Homed s (s.tctrlWrite x w) := by
  unfold State.tctrlWrite
  extract_lets t u v
  have first : Homed s u := by
    simp only [u]
    split
    · exact .modTh _ _ _
    · exact .refl s
  split
  · exact first.trans (.modTh _ _ _)
  · exact (first.trans (.modTh _ _ _)).trans (.threadCmd v x _)

theorem Homed.threadWrite (s : State) (x o w : Nat) : Homed s (s.threadWrite x o w) := by
  unfold State.threadWrite
  dsimp only
  split
  · exact .tctrlWrite s x w
  · split
    · exact .modTh _ _ _
    · exact .modTh _ _ _
  · split
    · exact .modTh _ _ _
    · exact .modTh _ _ _
  · exact .modTh _ _ _
  · exact .refl s

theorem Homed.boreWrite (s : State) (n o w : Nat) : Homed s (s.boreWrite n o w) := by
  unfold State.boreWrite
  split
  · exact .refl s
  · split
    · exact .threadWrite _ _ _ _
    · split
      · exact .modLb _ _ _ rfl
      · exact .modLb _ _ _ rfl
      · exact .modLb _ _ _ rfl
      · exact .refl s

theorem Homed.regWrite (s : State) (who : Nat) {o : Nat} (low : 0x10000 ≤ o) (high : o < 0x20000) (w : Nat) :
    Homed s (s.regWrite who o w) := by
  have bore : s.unitWrite o w = s ∨ s.unitWrite o w = s.boreWrite ((o - 0x10000) / 0x1000) (o % 0x1000) w := by
    unfold State.unitWrite
    split
    · exact .inl rfl
    · rw [if_neg (by omega), if_neg (by omega), if_neg (by omega)]
      exact .inr rfl
  unfold State.regWrite
  split
  · dsimp only
    split
    · exact .of_rest (congrArg State.pbs (State.pumpAlarm_spec (s.lockViolation who o) 9).2.2 :)
        (congrArg State.lbs (State.pumpAlarm_spec (s.lockViolation who o) 9).2.2 :)
    · exact .of_rest rfl rfl
  · rcases bore with same | written
    · rw [same]
      exact .refl s
    · rw [written]
      exact .boreWrite _ _ _ _

theorem Homed.startEntries (s : State) (img : Nat) (p : ManEntry → Bool) : Homed s (s.startEntries img p) :=
  .start (.startEntries s img p)

/-- What a return leaves of the bore and of its rank among those in service (R517). -/
theorem Homed.returnLb (s : State) {lb : Nat} (below : lb < 8) (b img : Nat) : ∃ t : State, Homed (s.freshLb lb b) t ∧
    s.returnLb lb b img = (t.classFour 0x32 lb t.goodBores false).rotSettle := by
  unfold State.returnLb
  generalize s.freshLb lb b = r
  extract_lets es page u v w
  refine ⟨w, ?_, rfl⟩
  have loaded : Homed r u := .foldl (fun t e => .loadEntry t img e) _ r
  refine (loaded.trans ?_).trans (.startEntries v img _)
  clear_value u
  have inside : ∀ e ∈ es.filter (fun e => page e.1), 0x10000 ≤ e.1 ∧ e.1 < 0x20000 := by
    intro e member
    obtain ⟨low, high⟩ := (Bool.and_eq_true_iff.1 (List.mem_filter.1 member).2)
    have low := of_decide_eq_true low
    have high := of_decide_eq_true high
    omega
  simp only [v]
  generalize es.filter _ = ds at *
  clear loaded
  induction ds generalizing u with
  | nil => exact .refl u
  | cons e ds ih =>
    obtain ⟨low, high⟩ := inside e List.mem_cons_self
    exact (Homed.regWrite u 0 low high e.2).trans (ih _ fun d member => inside d (List.mem_cons_of_mem _ member))

theorem State.freshLb_pb (s : State) (lb b : Nat) : ((s.freshLb lb b).pb b).role = 0 ∧ ((s.freshLb lb b).pb b).lb = lb := by
  unfold State.freshLb
  rw [State.pb_modPb_same]
  exact ⟨rfl, rfl⟩

theorem State.freshLb_lb (s : State) (lb b : Nat) : ((s.freshLb lb b).lb lb).shed = false := by
  unfold State.freshLb
  extract_lets u v w x y
  have lbs : v.lbs = u.lbs := foldl_rest State.lbs (fun t q => t.setTh (16 * lb + q) {}) (fun _ _ => rfl) (List.range 16) u
  clear_value v
  have kept : (y.modPb b (fun p => { p with role := 0, lb := lb, since := y.strokes })).lb = u.lb := State.lb_of_lbs lbs
  rw [kept, State.lb_setLb, if_pos rfl]

/-- The settling of a rotation adds events alone to the queue (R512). -/
theorem State.rotSettle_keeps (s : State) : s.rotSettle.pbs = s.pbs ∧ s.rotSettle.lbs = s.lbs ∧ ∀ e ∈ s.evq, e ∈ s.rotSettle.evq := by
  unfold State.rotSettle
  dsimp only
  split
  · exact ⟨rfl, rfl, fun e member => List.mem_append_left _ member⟩
  · exact ⟨rfl, rfl, fun e member => member⟩

/-- A read of the MRAM leaves the threads and the logical bores. -/
theorem State.mramRead_keeps (s : State) (a n : Nat) :
    ((s.mramRead a n).lbs, (s.mramRead a n).threads) = (s.lbs, s.threads) := by
  let g : State → Tbl LBore × Tbl Thread := fun t => (t.lbs, t.threads)
  have count (u : State) (ue : Bool) : g (u.countEcc .mram ue) = g u :=
    (congrArg g (u.countEccOn_rest (u.holder .mram) .mram ue) :)
  refine foldl_rest g _ (fun u k => ?_) _ s
  dsimp only
  split
  · exact count u true
  · exact count (u.setEcc .mram k.word (some .rewriting)) false

theorem State.imgFault_zero_iff (s : State) (img : Nat) : (s.imageFail img = 0 ∧ s.ctFail img = 0) = (s.imgFault img = 0) := by
  unfold State.imgFault
  split
  · next bad => exact propext ⟨fun both => (bad both.1).elim, fun zero => (bad zero).elim⟩
  · next fine => exact propext ⟨And.right, fun zero => ⟨not_not.1 fine, zero⟩⟩

theorem exec_lbReturn {s : State} {b : Nat} {lb : Fin 8} (idle : s.longestIdle = some b) (primed : s.mram.primed = true)
    (swaps : s.mram.swap = none) (up : s.up 12 = true) (next : s.returnNext = some lb.val) (room : s.inService.length < s.mayCarry) :
    ∃ u : State, (u.lbs, u.threads) = (s.lbs, s.threads) ∧ exec (.lbReturn lb) s = .next (
      if s.imgFault s.platActive = 0 then u.returnLb lb b s.platActive
      else u.classFour 4 15 (Config.detailCode 4 2 lb).toNat (s.safeLb lb)) := by
  have due : (s.mram.primed && s.mram.swap.isNone && s.up 12 && s.returnNext == some lb.val &&
      decide (s.inService.length < s.mayCarry)) = true := by simp [primed, swaps, up, next, room]
  have run : exec (.lbReturn lb) s = execLbReturn lb s := rfl
  unfold execLbReturn at run
  rw [idle] at run
  dsimp only at run
  rw [due] at run
  simp only [State.imgFault_zero_iff] at run
  refine ⟨_, ?_, run.trans (State.act_of rfl)⟩
  exact (s.mramRead_keeps _ _ :)

end Returned

/-- Settles O50: the two commands judged and begun, the swap armed, cut over, timed out and ended, and a logical bore reloaded
on a relief bore. -/
theorem personalityLoadSwapAndReturn : Obligations.PersonalityLoadSwapAndReturn := by
  unfold Obligations.PersonalityLoadSwapAndReturn
  refine ⟨?checks, ?load, ?loaded, ?swap, ?rerun, ?armed, ?cutOver, ?timeout, ?swapped, ?returned, ?refused⟩
  case checks =>
    intro p op i masks c s row commanded
    have h := PersCommand.of commanded
    obtain ⟨f, isLoad, isSwap, run⟩ := exec_pers row h
    refine ⟨fun bad => ?_, fun clean barred => ?_, fun clean can normal timed refused => ?_⟩
    · rw [bad, if_neg Bool.false_ne_true] at run
      exact ⟨_, run, h.done (by decide)⟩
    · rw [clean, if_pos rfl, barred, if_neg Bool.false_ne_true] at run
      exact ⟨_, run, h.done (by decide)⟩
    · rw [clean, if_pos rfl, can, if_pos rfl] at run
      have known : op = 0x50 ∨ op = 0x51 := by
        simp only [List.mem_cons, List.not_mem_nil, or_false, Prod.mk.injEq] at row
        exact row.imp (·.2.1) (·.2.1)
      have eq : f (s.cpTake p) = (s.cpTake p).cmdDone c 5 0 0 none := by
        rcases known with load | swap
        · rw [isLoad load]
          exact State.loadCmd_refused (s := s.cpTake p) refused
        · obtain ⟨low, high⟩ := timed swap
          rw [isSwap swap]
          exact State.swapCmd_refused (s := s.cpTake p) low high (normal swap) (.inr (.inl refused))
      rw [eq] at run
      exact ⟨_, run, h.done (by decide)⟩
  case load =>
    intro p img len addr c s commanded clean can isImg free isLen isAddr
    have h := PersCommand.of commanded
    have run := exec_persLoad h
    rw [clean, if_pos rfl, can, if_pos rfl] at run
    rw [isImg] at free
    subst isImg isLen isAddr
    refine ⟨fun bad => ?_, fun length fits idle => ?_⟩
    · rw [State.loadCmd_length (s := s.cpTake p) free bad] at run
      exact ⟨_, run, h.done (by decide)⟩
    · exact ⟨_, run, State.loadCmd_start (s := s.cpTake p) free length fits idle⟩
  case loaded =>
    intro l c s loads found on current
    obtain ⟨host, regs, mem, kept⟩ := s.ctCopy_keeps l.image
    refine ⟨_, exec_persLoadDone loads, fun bad => ?_, fun sound more => ?_, fun sound all good => ?_, fun sound all fails => ?_⟩
    · rw [if_pos bad]
      obtain ⟨completed, mram⟩ := State.persDone_completed (s := s.modMram (fun m => { m with load := none })) (cstat := 11) found on
        current (by decide) 0 0
      exact ⟨completed, by rw [mram]; rfl, by rw [mram]; rfl⟩
    · rw [sound, if_neg Bool.false_ne_true, if_pos more]
    · rw [sound, if_neg Bool.false_ne_true, if_neg (Nat.not_lt.2 all)]
      exact State.loadJudged_good found on current host regs _ good
    · rw [sound, if_neg Bool.false_ne_true, if_neg (Nat.not_lt.2 all)]
      exact State.loadJudged_bad found on current host regs _ fails (by rw [kept]) (by rw [kept])
  case swap =>
    intro p img ms c s commanded clean can isImg isMs
    have h : PersCommand s p 0x51 c := PersCommand.of (m := s.mram) commanded
    have run := exec_persSwap h
    rw [clean, if_pos rfl, can, if_pos rfl] at run
    subst isImg isMs
    refine ⟨fun bad => ?_, fun low high bad => ?_, fun low high primed free unmarked good => ?_⟩
    · rw [State.swapCmd_time (s := s.cpTake p) bad] at run
      exact ⟨_, run, h.done (by decide)⟩
    · have wrong : (s.cpTake p).mram.primed = false ∨ (s.cpTake p).persRefused (c.w 1 % 2) = true ∨
          (s.cpTake p).imgMarked (c.w 1 % 2) = true ∨ (s.cpTake p).imageFail (c.w 1 % 2) ≠ 0 := bad.imp_right .inr
      rw [State.swapCmd_refused (s := s.cpTake p) low high commanded.normal wrong] at run
      exact ⟨_, run, h.done (by decide)⟩
    · rw [State.swapCmd_live (s := s.cpTake p) low high commanded.normal primed free unmarked good] at run
      exact ⟨_, run, rfl, rfl⟩
  case rerun =>
    intro p c s commanded clean can low high recovery free idle
    have h := PersCommand.of commanded
    have run := exec_persSwap h
    rw [clean, if_pos rfl, can, if_pos rfl, State.swapCmd_rerun (s := s.cpTake p) low high recovery free idle] at run
    exact ⟨_, run, rfl, rfl⟩
  case armed =>
    intro w s swaps fresh
    obtain ⟨kept, threads⟩ := Prod.mk.inj (s.standby_keeps w.image)
    have run := exec_swapArmed swaps fresh
    generalize s.standby w.image = v at *
    have mram : (v.modMram (fun m => { m with swap := some { w with armed := some s.tb.elapsed } })).mram =
        { s.mram with swap := some { w with armed := some s.tb.elapsed } } := by rw [State.modMram, kept]
    have same (x : Nat) : (v.modMram (fun m => { m with swap := some { w with armed := some s.tb.elapsed } })).th x = s.th x := by
      rw [State.th, State.modMram, threads, State.th]
    generalize v.modMram _ = u at *
    obtain ⟨kept, each⟩ := State.armThreads w.image (List.range 128) u
    have pair (x : Nat) : u.armPair w.image x = s.armPair w.image x := by
      rw [State.armPair, same, State.reentry_congr (s := s) (congrArg MramSt.mem mram :), State.armPair]
    refine ⟨_, run, kept.trans mram, fun x small => ?_⟩
    obtain ⟨pc, cut⟩ := each x
    rw [if_pos (List.mem_range.2 small), pair, State.armPair] at cut
    rw [same] at pc
    refine ⟨pc, fun o n runs point => ?_, fun idle => ?_⟩
    · rw [cut, if_pos runs, point, Option.map_some]
    · rw [cut]
      rcases idle with rests | nothing
      · rw [rests, if_neg Bool.false_ne_true]
      · rw [nothing, Option.map_none, ite_self]
  case cutOver =>
    intro x o n s waits here turn
    have flips := s.cutTurn_flips x n
    have far (y : Nat) : y / 16 ≠ x.val / 16 → (s.cutTurn x n).th y = s.th y := s.cutTurn_far x n
    refine ⟨_, exec_threadCutOver waits here turn, ?_⟩
    by_cases goes : n = 0x3FFFF#18
    · subst goes
      obtain ⟨b, self⟩ := s.cutTurn_stop x
      rw [State.stopped, State.th_modTh_same, State.spendTurn_self] at self
      rw [self]
      exact ⟨rfl, rfl, rfl, rfl, rfl, rfl, fun no => (no rfl).elim, fun _ => ⟨rfl, rfl⟩, flips, far⟩
    · obtain ⟨b, l, self⟩ := s.cutTurn_go x goes
      rw [self]
      exact ⟨rfl, rfl, rfl, rfl, rfl, rfl, fun _ => ⟨rfl, rfl⟩, fun no => (goes no).elim, flips, far⟩
  case timeout =>
    intro w a s swaps armed fresh late
    refine ⟨_, exec_swapTimeout swaps armed fresh late, ?_⟩
    have once := List.nodup_range (n := 128)
    generalize waiting : (List.range 128).filter (fun x => (s.th x).cutOver.isSome) = l
    generalize began : s.modMram (fun m => { m with swap := some { w with expired := true, timedOut := l.length } }) = u
    have timedOut : u.swapExpired = true := by
      rw [← began]
      rfl
    have swap : u.mram = { s.mram with swap := some { w with expired := true, timedOut := l.length } } := by
      rw [← began]
      rfl
    have same : u.th = s.th ∧ u.valve = s.valve := by
      rw [← began]
      exact ⟨rfl, rfl⟩
    obtain ⟨mram, valves, threads⟩ := State.expireThreads (waiting ▸ once.filter _) timedOut
    generalize l.foldl (fun u x => u.expireThread x) u = v at *
    have kept := foldl_rest (fun t : State => (t.mram, t.th)) (fun t v => t.escalate v)
      (fun t v => (congrArg (fun t : State => (t.mram, t.th)) (t.escalate_rest v) :)) (List.range 128) v
    obtain ⟨mem, cells⟩ := Prod.mk.inj kept
    refine ⟨⟨l.length, mem.trans (mram.trans swap)⟩, fun x o n small waits => ?_, fun k r small swaps => ?_⟩
    · have member : x ∈ l := by
        rw [← waiting, List.mem_filter, List.mem_range, waits]
        exact ⟨small, rfl⟩
      have expired := (threads x).1 member
      rw [same.1] at expired
      rw [cells]
      exact expired o n waits
    · rw [State.escalate_valves once, if_pos (List.mem_range.2 small), State.valve, valves, ← State.valve, same.2, swaps]
      rfl
  case swapped =>
    intro w c s swaps armed complete below found on current
    have run := exec_persSwapDone swaps armed complete
    obtain ⟨host, regs, mem, copy, mram⟩ := s.setActive_work w.image
    have active := State.setActive_active (s := s) below
    generalize s.setActive w.image = v at *
    have ring : v.ring c.r = s.ring c.r := by rw [State.ring, host, State.ring]
    obtain ⟨completed, kept⟩ := State.persDone_completed (s := v.modMram (fun m => { m with swap := none })) (cstat := 0)
      ((State.cmdById_congr host w.cmd).trans found) ((State.ringEn_congr (fun o _ => regs o) c.r).trans on)
      (current.trans (congrArg (·.gen) ring.symm)) (by decide) (s.imgVersion w.image) w.timedOut
    exact ⟨_, run, by rw [kept]; rfl, (State.platActive_congr kept).trans active, completed⟩
  case returned =>
    intro lb b s idle primed swaps up next room good
    obtain ⟨u, -, run⟩ := exec_lbReturn idle primed swaps up next room
    rw [if_pos good] at run
    obtain ⟨t, homed, eq⟩ := Homed.returnLb u lb.isLt b s.platActive
    rw [eq] at run
    obtain ⟨pbs, lbs, events⟩ := (t.classFour 0x32 lb t.goodBores false).rotSettle_keeps
    have pb : (t.classFour 0x32 lb t.goodBores false).rotSettle.pb b = (u.freshLb lb b).pb b := State.pb_congr (pbs.trans homed.pbs) b
    obtain ⟨role, home⟩ := u.freshLb_pb lb b
    refine ⟨_, run, by rw [pb, role], by rw [pb, home], ?_, t.goodBores, events _ (List.mem_append_right _ List.mem_cons_self)⟩
    rw [State.lb_of_lbs lbs]
    exact (homed.shed lb).trans (u.freshLb_lb lb b)
  case refused =>
    intro lb b s idle primed swaps up next room bad
    obtain ⟨u, kept, run⟩ := exec_lbReturn idle primed swaps up next room
    rw [if_neg bad] at run
    obtain ⟨lbs, threads⟩ := Prod.mk.inj kept
    exact ⟨_, run, lbs, threads, _, List.mem_append_right _ List.mem_cons_self, rfl, rfl, rfl, rfl, rfl⟩

end Sys2Proof.Machine

/-!
SUPPORT. The completion of moves (R426), and the refutation of O36.
-/

namespace Sys2Proof.Machine

/-- A move that a thread submitted on done index 16, where the thread's bits are reserved (R113); it has nothing left to
do. -/
def reservedDone : Move := { slot := 0, by_ := .thread 0 0 16, w0 := 0, src := 0, dst := 0, aux := 0, issued := 0, phase := .done }

/-- The block after reset with that move alone. -/
def State.withReservedDone : State := { pump := { moves := [reservedDone] } }

/-- A reserved bit of a thread reads 0 (R113). -/
theorem Thread.flag_of_reserved (t : Thread) {a : Nat} (reserved : privReserved a = true) : t.flag a = false := by
  rw [Thread.flag, if_pos reserved]

/-- Refutes O36: its first clause leaves the done index `j` of a move free, where PUMP names one of 0-15 (R217). From 16
on, the bit 0x020 + j of the thread is a reserved one, which reads 0 after every command, so no completion sets it. -/
theorem not_movesComplete : ¬ Obligations.MovesComplete := by
  unfold Obligations.MovesComplete
  rintro ⟨completes, -⟩
  have registers : bit (State.withReservedDone.reg 0xF0000) 1 = false := by decide +kernel
  have clean : State.withReservedDone.isUe (.privBits 0) ((0x020 + 16) / 32) = false := State.isUe_of_clean rfl _ _
  obtain ⟨t, -, -, set, -⟩ := completes 0 reservedDone 0 0 16 State.withReservedDone rfl rfl rfl rfl rfl rfl (fun _ => rfl) rfl
    registers clean
  rw [Thread.flag_of_reserved _ (by decide)] at set
  exact Bool.false_ne_true set

end Sys2Proof.Machine
